-- ==== Sys2Proof/Word.lean ====
section
/-! DEFINITION. The words and numbers of the engine: bytes, 64-bit words, and the identifiers of the table
Identifiers (R7). -/
namespace Sys2Proof

/-- One byte. -/
abbrev Byte := BitVec 8
/-- One 64-bit word. -/
abbrev Word := BitVec 64
/-- A context number (R7). -/
abbrev CtxNo := BitVec 18
/-- A tenant (R7); 0 is the system tenant. -/
abbrev Tenant := BitVec 12
/-- A key-set number (R7); 0 means no key set. -/
abbrev KsetNo := BitVec 14
/-- A tally id (R7). -/
abbrev TallyNo := BitVec 14
/-- A chip number (R7). -/
abbrev ChipNo := BitVec 6
/-- A string of bytes in address order. -/
abbrev Bytes := List Byte

end Sys2Proof
end

