-- ==== Sys2Proof/Syntax.lean ====
section
/-! DEFINITION. The commands of the engine: one constructor of Instr per row of spec/opcode_table.json, and the
small data types its operands use. What the integration or the engine's own units choose (the data of a return, the
channel the scheduler takes) is an operand. -/
namespace Sys2Proof

/-- Where a verb came from: a mailbox of this engine, or a verb relayed by the keeper of another chip (R37). -/
inductive Origin where
  | mbox (m : Fin 32)
  | relay (chip : ChipNo)
deriving DecidableEq, Repr

/-- Who is counted for lending (R340): a sleeping channel or a core whose four slots are armed. -/
inductive Lender where
  | channel (ch : Fin 1024)
  | core (n : Fin 256)
deriving DecidableEq, Repr

/-- What a remote timeout ends (R298): a lid group without LANDED, a read without READ_DATA, or a partner that kept
answering NOT_READY. -/
inductive RemoteKind where
  | group
  | read
  | notReady
deriving DecidableEq, Repr

/-- Who reports a supply level (R400): one droop sensor, or the chip's supply monitors, which act on all regions. -/
inductive Supply where
  | sensor (r : Fin 8)
  | monitor
deriving DecidableEq, Repr

/-- What SECDED finds in a word beside the flips that fault injection placed there (R385). -/
inductive Ecc where
  | clean
  | corrected
  | uncorrectable
deriving DecidableEq, Repr

/-- One record of the stack-map port (R462). -/
structure MapRecord where
  valid : Bool
  base : BitVec 50
  len : BitVec 50
  out : BitVec 8
deriving DecidableEq, Repr

/-- What the integration drives statically: the static inputs of R439, R443, R447, R449, R459, R460 and R463, the
identity store (R461) and the stack map (R462), which hold constant while BLK_RST_N is high. Ports and taps not listed
in `swin`, `rdCr` and `wrCr` read 0. -/
structure StaticIn where
  chipId : ChipNo := 0
  ftest : Bool := false
  present : BitVec 256 := 0
  spadLog2 : BitVec 6 := 0
  shcMib : BitVec 28 := 0
  swin : List (Nat × BitVec 13) := []
  rdCr : List (Nat × BitVec 8) := []
  wrCr : List (Nat × BitVec 8) := []
  vnomMv : BitVec 11 := 0
  flPart : BitVec 4 := 0
  stackMap : List MapRecord := []
  idSecret : Bytes := []
  idRoot : Bytes := []
  idFloor : BitVec 32 := 0
  idRevoke : BitVec 4 := 0
  idChain : Bytes := []
deriving DecidableEq, Repr

/-- What the start-up scan of the flash log finds (R425): no usable device, or the newest valid block (none for an
empty log) with its FB_BOOT, FB_SEQ and the byte position where its end lies, and the sectors that the partition's retirement map
lists (R407). -/
inductive FlashScan where
  | noFlash
  | empty (retired : List (BitVec 10))
  | newest (boot : BitVec 32) (seq : Word) (endPos : BitVec 26) (retired : List (BitVec 10))
deriving DecidableEq, Repr

/-- The commands: one constructor per row of the table, in the table's order. -/
inductive Instr where
  /-- MBOX_RING (R26). A write of 1 to RING in MBOX_DB submits the mailbox request and sets BUSY, or is ignored with OVERRUN when BUSY or DONE is set. -/
  | mboxRing (m : Fin 32) (w : BitVec 32)
  /-- MBOX_CANCEL (R31). A write of 1 to CANCEL asks the keeper to end a cancellable verb in progress at its next safe point. -/
  | mboxCancel (m : Fin 32) (w : BitVec 32)
  /-- MBOX_DONE_CLEAR (R27). A write of 1 to DONE frees the mailbox and updates MBOX_DONE_SUM and the mailbox interrupt. -/
  | mboxDoneClear (m : Fin 32) (w : BitVec 32)
  /-- VERB_ACCEPT (R33). The keeper accepts a rung mailbox in ring order, copies the request block and checks version, privilege and parameters. -/
  | verbAccept
  /-- KEEPER_PING (R42). The keeper returns the powered time and the number of verbs in progress. -/
  | keeperPing (o : Origin)
  /-- FW_INFO (R477). The keeper returns the ROM, firmware, interface and security versions and the first bytes of the image digest. -/
  | fwInfo (o : Origin)
  /-- FW_LOAD (R363). The keeper authenticates a Hive image in memory and records its address, length and digest. -/
  | fwLoad (o : Origin)
  /-- FW_ACTIVATE (R35). The keeper stops accepting verbs and waits for every verb in progress to drain before it restarts on the loaded image. -/
  | fwActivate (o : Origin)
  /-- FW_ACTIVATE_RESTART (R363). Once the drain has ended, the boot ROM copies the loaded image, checks it again and starts it, or restarts the power-up image. -/
  | fwActivateRestart
  /-- MBOX_BIND (R354). The keeper zeroes a tenant-manager mailbox window and binds the mailbox to a tenant. -/
  | mboxBind (o : Origin)
  /-- MBOX_UNBIND (R354). The keeper zeroes a tenant-manager mailbox window and unbinds the mailbox. -/
  | mboxUnbind (o : Origin)
  /-- TENANT_OPEN (R239). The keeper sets the translation root of a tenant to a local 64 KiB-aligned level-1 table. -/
  | tenantOpen (o : Origin)
  /-- TENANT_CLOSE (R239). The keeper removes the tenant's translations as a whole-tenant invalidation does, waits for the drain and clears the root. -/
  | tenantClose (o : Origin)
  /-- CTX_OPEN (R48). The keeper reads and checks a context record image and opens the context in Idle. -/
  | ctxOpen (o : Origin)
  /-- CTX_CLOSE (R53). The keeper closes an Idle, Paused or Stopped context, discards kept descriptors, zeroises its pantry slots and resets the record. -/
  | ctxClose (o : Origin)
  /-- CTX_PAUSE (R83). The engine stops new reads for the context and drains the descriptor in progress to its next resume point. -/
  | ctxPause (o : Origin)
  /-- CTX_PAUSE_DRAIN_END (R84). When the drain has ended, the context becomes Paused and unbound with DONE_IDX, PARTIAL, CURSOR and CRC_PARTIAL saved, and the verb completes. -/
  | ctxPauseDrainEnd (o : Origin)
  /-- CTX_RESUME (R86). The keeper makes a Paused or Stopped context Ready or Idle so that the partial descriptor continues at CURSOR. -/
  | ctxResume (o : Origin)
  /-- CTX_ABORT (R87). The engine stops the context's reads and writes, completes the owned entries with ABORTED and makes the context Idle. -/
  | ctxAbort (o : Origin) (entries : List Bytes)
  /-- CTX_QUERY (R47). The keeper returns the 64 B context record. -/
  | ctxQuery (o : Origin)
  /-- CTX_RATE (R82). The keeper sets the context's RATE_SHARE, which takes effect at its next burst issue. -/
  | ctxRate (o : Origin)
  /-- MAP_INVAL (R253). The engine withdraws a tenant range, removes the affected leaves from every buffer and advances the translation generation. -/
  | mapInval (o : Origin)
  /-- INVAL_DRAIN_END (R254). Every burst counted against the previous generation has drained, so the invalidation completes and a waiting batch starts. -/
  | invalDrainEnd
  /-- MAP_DIGEST (R257). The keeper walks a tenant's tables, computes the SHA-384 mapping digest and compares it with the expected digest. -/
  | mapDigest (o : Origin)
  /-- WIN_SET (R288). The keeper sets a remote window's table address and its mask of sender chips. -/
  | winSet (o : Origin)
  /-- WIN_CLEAR (R288). The engine refuses new requests to the window and removes its translations. -/
  | winClear (o : Origin)
  /-- WIN_CLEAR_DRAIN_END (R288). Every request counted against the window has drained, and the clear completes. -/
  | winClearDrainEnd (o : Origin)
  /-- MEM_INFO (R430). The keeper returns the base, length and mapped-out channel count of one stack-map range. -/
  | memInfo (o : Origin)
  /-- KSET_REGISTER (R180). The keeper reads a key-set record, checks it in order and enters it in the registry. -/
  | ksetRegister (o : Origin)
  /-- KSET_RETIRE (R182). The engine stops accepting descriptors whose expected key set is the retired one. -/
  | ksetRetire (o : Origin)
  /-- KSET_RETIRE_DRAIN_END (R182). Every earlier descriptor with that expected key set has completed, so the record is reset. -/
  | ksetRetireDrainEnd (o : Origin)
  /-- KSET_BIND (R181). The keeper sets the KEY_SET of an Idle, Paused or Stopped context. -/
  | ksetBind (o : Origin)
  /-- SWARM_OPEN (R186). The engine opens a swarm, reserves a region in each member frame, holds the frames in run state and binds the member ports to the key set. -/
  | swarmOpen (o : Origin)
  /-- SWARM_CLOSE (R202). The engine stops the feed at a row boundary and stops the source context. -/
  | swarmClose (o : Origin)
  /-- SWARM_CLOSE_FINISH (R202). After the beats up to the boundary are delivered, the engine frees and zeroises the regions, releases the frames and unbinds the ports. -/
  | swarmCloseFinish (sw : Fin 4)
  /-- SWARM_CLOSE_EJECT_TIMEOUT (R202). A member that has not taken the remaining beats within 1 ms of the close is ejected. -/
  | swarmCloseEjectTimeout (sw : Fin 4)
  /-- MOD_SET (R146). The keeper checks a modulus entry image and enters it in the modulus table, or clears the entry. -/
  | modSet (o : Origin)
  /-- SCALE_LOAD (R132). The keeper writes scale registers of one frame or all frames from memory and sets FP_SCALES. -/
  | scaleLoad (o : Origin)
  /-- TALLY_VIRT (R327). The keeper installs a map of 64 virtual tally ids for a context and sets TALLY_VIRT. -/
  | tallyVirt (o : Origin)
  /-- TALLY_READ (R349). The keeper returns one tally's value. -/
  | tallyRead (o : Origin)
  /-- TEST_KAT (R366). The engine runs the known-answer tests of the test units named and returns the pass mask. -/
  | testKat (o : Origin) (pass : BitVec 8)
  /-- TEST_FRAME (R370). The engine tests the frames of the mask one at a time in ascending order. -/
  | testFrame (o : Origin)
  /-- FRAME_TEST_DRAIN_END (R370). The frame's contexts and fabric requester have drained, so the test body and the zeroisation run and the frame is released. -/
  | frameTestDrainEnd (pass : Bool)
  /-- FRAME_TEST_DRAIN_TIMEOUT (R371). If the drain has not ended within 500 µs, the frame is released and retried 2 ms later, then left untested. -/
  | frameTestDrainTimeout
  /-- CAL_RUN (R405). The engine runs a full droop trim of each frame, or a link measurement with credit re-sizing. -/
  | calRun (o : Origin)
  /-- SNAP_TAKE (R412). The keeper triggers a snapshot and returns its powered time. -/
  | snapTake (o : Origin)
  /-- LOG_ANCHOR (R414). The keeper stores a calendar time against the powered time and appends an anchor record. -/
  | logAnchor (o : Origin)
  /-- LOG_FLUSH (R421). The keeper starts a flush of the recorder and completes when the flushes it covers have ended. -/
  | logFlush (o : Origin)
  /-- LINK_INFO (R275). The keeper returns a link's partner, lane rate, credits and round trip. -/
  | linkInfo (o : Origin)
  /-- RELAY_ALLOW (R37). The keeper sets the mask of sender chips whose relayed verbs it executes. -/
  | relayAllow (o : Origin)
  /-- LINK_REKEY (R269). The engine sends a REKEY with a fresh ephemeral key and switches each direction to new keys once an answer arrives. -/
  | linkRekey (o : Origin)
  /-- REKEY_TIMEOUT (R269). With no answer within 10 ms, the rekey completes NOT_READY and the link is taken down. -/
  | rekeyTimeout (l : Fin 18)
  /-- PWR_FRAME (R396). The engine sets the power policy of the frames in the mask and drains the contexts of frames set to policy 3. -/
  | pwrFrame (o : Origin)
  /-- PWR_FRAME_DRAIN_END (R396). No context is bound in any frame of the mask, or 1 ms has passed, so the verb completes OK or BUSY_OBJECT. -/
  | pwrFrameDrainEnd (o : Origin) (expired : Bool)
  /-- ENGINE_QUIESCE (R435). The engine announces quiescing, waits for remote work, takes the links down, flushes and powers down to doze or asleep. -/
  | engineQuiesce (o : Origin)
  /-- QUIESCE_REMOTE_DRAINED (R435). Every lid group and remote request has an outcome, so the engine takes its links down and starts the flush. -/
  | quiesceRemoteDrained
  /-- QUIESCE_SLEEP_HOLD_END (R436). 1 ms after DONE, the engine powers domain 64 off and enters asleep. -/
  | quiesceSleepHoldEnd
  /-- RELAY_TIMEOUT (R38). With no response within RELAY_TIMEOUT_MS, the local keeper completes the verb with RELAY_TIMEOUT. -/
  | relayTimeout (m : Fin 32)
  /-- KEEPER_RESET (R30). A write of 1 to KC_RESET resets the keeper, which completes the verbs in progress with INTERRUPTED when it is ready again. -/
  | keeperReset (w : BitVec 32)
  /-- KEEPER_BEAT_TIMEOUT (R30). STATE is 2 and BEAT has not changed for 10 ms, which raises fault source 54. -/
  | keeperBeatTimeout
  /-- KEEPER_BEAT_TICK (R30). Every 1 ms in the ready state, the Hive main loop increments BEAT. -/
  | keeperBeatTick
  /-- KNOCK (R65). A 64-bit write to KNOCK gives a context a new TAIL, or is dropped and counted in KNOCK_DROP. -/
  | knock (w : Word)
  /-- KNOCK_NARROW (R64). A narrower write to KNOCK is ignored and sets KD_NARROW. -/
  | knockNarrow (off : BitVec 24) (strobe : BitVec 8)
  /-- WATCH_POLL (R67). When WATCH_US expires, the engine reads the entry at FETCH_IDX of a watch-mode context and makes the context Ready if that entry is owned. -/
  | watchPoll (c : CtxNo) (f : Fin 16) (data : Bytes) (fail : Bool)
  /-- CONTEXT_BIND (R68). When a channel is free, the scheduler binds the head of the highest non-empty Ready queue to a channel chosen by R11. -/
  | contextBind (ch : Fin 1024)
  /-- CONTEXT_IDLE_UNBIND (R52). A Running context with all its fetched descriptors complete and no new knock for 2 µs becomes Idle and unbound. -/
  | contextIdleUnbind (c : CtxNo)
  /-- PREEMPT (R69). A context bound for 64 µs while an equal or higher priority context waits with no free channel is unbound at its next descriptor boundary. -/
  | preempt (c : CtxNo)
  /-- DESCRIPTOR_FETCH_RETURN (R66). Fetched ring entries arrive; owned ones are held and FETCH_IDX advances, and fetching stops at an unowned entry. -/
  | descriptorFetchReturn (ch : Fin 1024) (data : Bytes) (fail : Bool)
  /-- DESCRIPTOR_START (R72). The oldest unstarted descriptor is checked in the order of acceptance checks and either fails or starts. -/
  | descriptorStart (ch : Fin 1024)
  /-- NOP (R56). Opcode NOP moves no data and completes with only its status and tally on done. -/
  | nop (ch : Fin 1024)
  /-- COPY (R96). Opcode COPY moves one box, applying the transforms, checksum and tag checks that its sections select. -/
  | copy (ch : Fin 1024)
  /-- WAIT (R57). Opcode WAIT arms a wait on a tally and holds the context until the tally reaches WAIT_TARGET. -/
  | wait (ch : Fin 1024)
  /-- WAIT_SATISFIED (R336). The tally unit signals a satisfied wait, so the sleeping channel restarts or the descheduled context becomes Ready. -/
  | waitSatisfied (c : CtxNo)
  /-- WAIT_ENTRY_FREED (R337). A shared wait entry frees, so a context that was made to sleep bound moves to the entry and is unbound. -/
  | waitEntryFreed (c : CtxNo)
  /-- FEED (R190). A COPY from a swarm's source context to the stream form of a member core delivers key-object rows to every member that has not been ejected. -/
  | feed (ch : Fin 1024)
  /-- TAP_ARBITRATION (R222). A tap's arbiter chooses among ready requesters by effective priority and rotation, and the winner's burst issues. -/
  | tapArbitration (tap : Fin 64)
  /-- READ_DATA_RETURN (R443). A read beat returns on RDR_V into its pantry slot, or fails with RDR_FAIL. -/
  | readDataReturn (tap : Fin 64) (slot : Fin 8192) (half : Bool) (data : Bytes) (fail : Bool)
  /-- WRITE_DONE (R211). WRD_V reports a write or reduction landed, or failed, and frees its outstanding-write entry. -/
  | writeDone (tap : Fin 64) (entry : Fin 4096) (fail : Bool)
  /-- TAP_CREDIT_RETURN (R215). RDQ_CR or WRQ_CR returns one request credit of a tap lane. -/
  | tapCreditReturn (tap : Fin 64) (wr : Bool)
  /-- UNTAGGED_FAIL (R446). A tap reports an error that names no request, which raises the frame bus error. -/
  | untaggedFail (tap : Fin 64)
  /-- FRAME_STOP_DRAIN_END (R233). Every issued response has returned or is taken as lost, so the frame discards its slots, enters stopped and the statuses are written through another frame. -/
  | frameStopDrainEnd (f : Fin 16)
  /-- RESPONSE_LOST_TIMEOUT (R232). A response not returned within 100 µs of a frame stop is taken as lost. -/
  | responseLostTimeout (f : Fin 16)
  /-- DESCRIPTOR_COMPLETE (R76). When its last write has left (leave mode) or every write is acknowledged (landed mode), the descriptor writes its checksum result and status. -/
  | descriptorComplete (c : CtxNo)
  /-- STATUS_WRITE_ACK (R76). The status write of a landed-mode descriptor is acknowledged, so the tally on done is applied as a release. -/
  | statusWriteAck (c : CtxNo)
  /-- POST_RECORD_LANDED (R169). The post record write is acknowledged, so the landed tally is incremented by 1. -/
  | postRecordLanded (c : CtxNo)
  /-- FORAGER_WALK (R245). The forager starts walks for the pages of coming units and fetched-ahead descriptors, and never raises a fault. -/
  | foragerWalk (ch : Fin 1024)
  /-- FEED_PORT_DELIVER (R218). A feed port delivers one swarm, stream, tag or scratchpad beat per data clock when it holds the matching credit. -/
  | feedPortDeliver (p : Fin 256)
  /-- LAND_CR (R448). The core returns a scratchpad write credit once the beat has landed. -/
  | landCr (p : Fin 256)
  /-- STRM_CR (R448). The core returns a stream credit once its stream logic has consumed a stream or tag beat. -/
  | strmCr (p : Fin 256)
  /-- FET_REQ (R217). A scratchpad read of one 64 B beat is issued on a feed port's fetch lane into a reserved pantry slot. -/
  | fetReq (p : Fin 256)
  /-- FET_V (R447). A scratchpad read beat returns, or fails with FET_FAIL and raises the bus error of the reading frame. -/
  | fetV (p : Fin 256) (data : Bytes) (fail : Bool)
  /-- SPINE_TRANSFER (R220). A beat crosses the spine between frames when its receiving credit is held, with swarm beats served first. -/
  | spineTransfer (dst : Fin 16) (src : Fin 16)
  /-- SWARM_BEAT_ISSUE (R195). The swarm source puts a beat onto the spine into every member region when each region has a free position, paced by SWARM_PACE. -/
  | swarmBeatIssue (sw : Fin 4)
  /-- SWARM_EJECT (R200). A member's timer reaches SW_EJECT_US, so it is ejected, its untaken beats are discarded and the ejection fault is raised. -/
  | swarmEject (sw : Fin 4) (p : Fin 256)
  /-- SEED_EXPAND (R184). A free Keccak core regenerates a mask polynomial from its seed with SHAKE128 and rejection. -/
  | seedExpand (core : Fin 48)
  /-- TP_READ_TALLY (R451). A tally-port operation with OP 0 returns a tally's value. -/
  | tpReadTally (core : Fin 256) (id : TallyNo) (arg : Word)
  /-- TP_INCREMENT (R329). A tally-port operation with OP 1 increments a tally, saturating. -/
  | tpIncrement (core : Fin 256) (id : TallyNo) (arg : Word)
  /-- TP_ARM_TALLY_WAIT (R338). A tally-port operation with OP 2 arms a core wait slot on a tally value. -/
  | tpArmTallyWait (core : Fin 256) (id : TallyNo) (slot : Fin 4) (arg : Word)
  /-- TP_CREDIT_GIVE (R333). A tally-port operation with OP 3 gives credits to a credit counter. -/
  | tpCreditGive (core : Fin 256) (id : TallyNo) (arg : Word)
  /-- TP_CREDIT_TAKE (R333). A tally-port operation with OP 4 takes credits, or is refused for underflow. -/
  | tpCreditTake (core : Fin 256) (id : TallyNo) (arg : Word)
  /-- TP_ARM_CREDIT_WAIT (R338). A tally-port operation with OP 5 arms a core wait slot on a credit amount. -/
  | tpArmCreditWait (core : Fin 256) (id : TallyNo) (slot : Fin 4) (arg : Word)
  /-- TP_DISARM_SLOT (R338). A tally-port operation with OP 6 disarms a core wait slot. -/
  | tpDisarmSlot (core : Fin 256) (slot : Fin 4) (arg : Word)
  /-- TP_READ_CREDIT (R451). A tally-port operation with OP 7 returns a credit counter's value. -/
  | tpReadCredit (core : Fin 256) (id : TallyNo) (arg : Word)
  /-- DEADLOCK_TIMEOUT (R347). Consecutive stalled data clocks reach TC_DEADLOCK_US, so the deadlock fault and event are raised. -/
  | deadlockTimeout
  /-- LEND_UPDATE (R340). The channel and core lending counts are updated to the power controller and LEND_UPD toggles. -/
  | lendUpdate
  /-- LEND_TIMEOUT (R340). A sleep or an all-armed core wait passes TC_LEND_US and is counted for lending. -/
  | lendTimeout (who : Lender)
  /-- BARRIER_ENABLE (R341). Setting BA_EN records the bases A0 and R0, or is refused with BS_CFG_ERR when the tallies are not owned by BA_TENANT. -/
  | barrierEnable (b : Fin 64) (w : Word)
  /-- BARRIER_DISABLE (R341). Clearing BA_EN disables the barrier. -/
  | barrierDisable (b : Fin 64) (w : Word)
  /-- CRED_CFG_WRITE (R332). A write of CRED_CFG sets the counter's value to its new CR_INIT, and may power the tally unit. -/
  | credCfgWrite (c : Fin 1024) (w : Word)
  /-- TALLY_OWN_WRITE (R322). A write of TALLY_OWN changes a tally group's owner within 8 keeper cycles. -/
  | tallyOwnWrite (g : Fin 1024) (w : BitVec 32)
  /-- LINK_TRAINED (R259). The PHY sideband reports all 8 lanes trained at one rate, so the echoes and waggle start. -/
  | linkTrained (l : Fin 18) (lanes : BitVec 8) (rates : BitVec 16)
  /-- LANE_LOSS (R272). The PHY reports a failed lane, so the link is taken down. -/
  | laneLoss (l : Fin 18)
  /-- SEAL_SILENCE_TIMEOUT (R272). No seal has verified for 1 ms, so the link is taken down. -/
  | sealSilenceTimeout (l : Fin 18)
  /-- FLIT_SEND (R260). In each TXSLOT, the port sends one message, seal, link-control or idle flit. -/
  | flitSend (l : Fin 18) (now : Word)
  /-- SEAL_PERIODIC (R266). With no other seal in 64 slots, the sender sends a seal, with SL_RUN 0 if the run is empty. -/
  | sealPeriodic (l : Fin 18)
  /-- MESSAGE_FLIT_RECEIVE (R270). A kind-0 flit is accepted in sequence order and held until its run's seal verifies. -/
  | messageFlitReceive (l : Fin 18) (flit : Bytes)
  /-- SEAL_RECEIVE (R270). A seal is verified, which releases its run's messages and returns acknowledgements and credits, or discards the run and NAKs it. -/
  | sealReceive (l : Fin 18) (flit : Bytes)
  /-- REPLAY_TIMEOUT (R271). Acknowledgements have not advanced for max(2 × RTT, 2 µs), so the sender replays from SL_ACK. -/
  | replayTimeout (l : Fin 18)
  /-- IDLE_FLIT_RECEIVE (R265). An idle flit is received and discarded. -/
  | idleFlitReceive (l : Fin 18) (flit : Bytes)
  /-- ECHO (R273). A received ECHO flit is returned at once as an ECHO_REPLY with the same count. -/
  | echo (l : Fin 18) (flit : Bytes)
  /-- ECHO_REPLY (R274). A received ECHO_REPLY gives a round-trip sample, which may re-size the credit grant. -/
  | echoReply (l : Fin 18) (flit : Bytes) (now : Word)
  /-- ECHO_PERIODIC (R273). Every second while the link is up, the engine sends one further echo. -/
  | echoPeriodic (l : Fin 18)
  /-- WAGGLE_RECORD_PART (R277). A waggle record part is received and assembled; a complete record is acknowledged and then checked. -/
  | waggleRecordPart (l : Fin 18) (flit : Bytes)
  /-- IDENTITY_PART (R277). An identity chain part is received and assembled. -/
  | identityPart (l : Fin 18) (flit : Bytes)
  /-- RECORD_ACKNOWLEDGEMENT (R277). A received record acknowledgement stops the repetition of the named record. -/
  | recordAcknowledgement (l : Fin 18) (flit : Bytes)
  /-- WAGGLE_REPEAT (R277). Every 20 µs until acknowledged, the sender repeats every part of its current record. -/
  | waggleRepeat (l : Fin 18)
  /-- WAGGLE_ACK_TIMEOUT (R277). A record not acknowledged within 1 s counts as a failure of waggle check 1. -/
  | waggleAckTimeout (l : Fin 18)
  /-- WAGGLE_RETRY (R278). One second after a waggle failure, the engine measures the link again and retries waggle. -/
  | waggleRetry (l : Fin 18)
  /-- WAGGLE_RESEND (R279). When WG_STATE or WG_NEIGH changes, the engine sends its record again with a higher serial. -/
  | waggleResend (l : Fin 18)
  /-- WRITE (R293). A WRITE message is checked by the receiver, issued through the serving frame and counted once acknowledged. -/
  | write (l : Fin 18)
  /-- LID (R293). A LID message is checked and held until its group count equals LID_COUNT. -/
  | lid (l : Fin 18)
  /-- LID_DATA_LANDED (R293). The lid's data write is acknowledged, so LID_INC is applied to LID_TALLY and LANDED is sent. -/
  | lidDataLanded (chip : ChipNo) (group : BitVec 6)
  /-- READ (R297). A READ message is checked and issued through the serving frame, and its bytes are returned in READ_DATA. -/
  | read (l : Fin 18)
  /-- READ_DATA (R297). A READ_DATA message fills the pantry slot of its read tag. -/
  | readData (l : Fin 18)
  /-- LANDED (R293). A LANDED message acknowledges a lid group at the sender and frees the group number. -/
  | landed (l : Fin 18)
  /-- REFUSE (R289). A REFUSE message fails the descriptor with REMOTE_REFUSED. -/
  | refuse (l : Fin 18)
  /-- NOT_READY (R284). A NOT_READY message makes the sender back off before it sends again. -/
  | notReady (l : Fin 18)
  /-- NOT_READY_BACKOFF_END (R284). The back-off wait ends, so the sender sends the request again. -/
  | notReadyBackoffEnd (chip : ChipNo)
  /-- ABANDON (R294). An ABANDON message frees a group's counter and discards any lid held for it. -/
  | abandon (l : Fin 18)
  /-- CREDIT (R285). A CREDIT message returns request credits to the sender. -/
  | credit (l : Fin 18)
  /-- CREDIT_RETURN_TIMER (R285). 1 µs after the first unreturned request credit, the receiver returns its credits in a CREDIT message. -/
  | creditReturnTimer (chip : ChipNo)
  /-- TALLY_MESSAGE (R344). A TALLY message carries a barrier arrive or release and is checked and taken or discarded. -/
  | tallyMessage (l : Fin 18)
  /-- KEEPER (R37). A KEEPER message carries a relayed request block, which the keeper executes if allowed, or the response block of a relay. -/
  | keeper (l : Fin 18)
  /-- REKEY (R269). A REKEY message carries the partner's new ephemeral key, from which the new link keys are derived. -/
  | rekey (l : Fin 18)
  /-- PARTNER_ADMIT (R283). Every 250 µs the next queued partner is admitted with 128 request credits. -/
  | partnerAdmit
  /-- PARTNER_RAMP (R283). At each route round trip, an admitted partner's grant rises to 256, 512, 768 and 1,024 credits. -/
  | partnerRamp (chip : ChipNo)
  /-- GROUP_IDLE_TIMEOUT (R296). A receiver frees a group counter that has seen no message for 1 ms. -/
  | groupIdleTimeout (chip : ChipNo) (group : BitVec 6)
  /-- REMOTE_TIMEOUT (R298). No LANDED or READ_DATA within 1 ms, or NOT_READY answers continuing for 1 ms, so the descriptor fails REMOTE_TIMEOUT. -/
  | remoteTimeout (chip : ChipNo) (kind : RemoteKind) (tag : BitVec 10)
  /-- RECEIVER_REQUEST_DROP (R301). A receiving engine drops a request that it has not issued to a tap within 1 ms of its arrival. -/
  | receiverRequestDrop (chip : ChipNo)
  /-- KEEPER_MEMORY_RESPONSE (R476). A keeper memory port response beat returns read data or a write acknowledgement, or a failure. -/
  | keeperMemoryResponse (data : Bytes) (last : Bool) (fail : Bool)
  /-- CONTROL_PORT_REFUSED (R456). An access of a refused width or to an unmapped offset is refused and raises source 61. -/
  | controlPortRefused (wr : Bool) (off : BitVec 24) (strobe : BitVec 8) (init : BitVec 6)
  /-- REGISTER_WRITE (R467). A write to a register that has no row of its own updates its writable fields. -/
  | registerWrite (off : BitVec 24) (strobe : BitVec 8) (data : Word)
  /-- FLT_STAT_CLEAR (R375). A W1C write to FLT_STAT clears the fault status bits unless the source raises in the same cycle. -/
  | fltStatClear (w : Word) (raised : Word)
  /-- FC_VALID_CLEAR (R383). A write of 1 to FC_VALID ends the capture and clears FM_COUNT and FM_SAT. -/
  | fcValidClear (w : Word)
  /-- FLT_CORR_READ (R382). A read of FLT_CORR returns the correctable-fault count and clears it. -/
  | fltCorrRead
  /-- KNOCK_DROP_READ (R473). A read of KNOCK_DROP returns the drop count and the last context, then clears the count. -/
  | knockDropRead
  /-- SNAP_STAT_READ (R412). A read of SNAP_STAT returns SN_DROPPED and clears it. -/
  | snapStatRead
  /-- SMOKER_STAT_READ (R401). A read of SMOKER_STAT returns SK_THROT_US and clears it. -/
  | smokerStatRead
  /-- AF_CLEAR (R225). A write of 1 to AF_CLEAR clears the selected requester's arbiter counters and flags. -/
  | afClear (w : BitVec 32)
  /-- FRAME_RESTART (R386). A write of 1 to a bit of FRAME_RESTART returns a stopped frame to idle, or is ignored and raises source 61. -/
  | frameRestart (w : BitVec 32)
  /-- EP_RELEASE (R384). A write of EP_RELEASE releases a held error pin at the end of its minimum pulse. -/
  | epRelease (w : BitVec 32)
  /-- FLT_INJECT_COLLECTOR (R387). FLT_INJECT with FI_MODE 0 raises a source through the collector only, under the factory strap. -/
  | fltInjectCollector (w : BitVec 32)
  /-- FLT_INJECT_SINGLE_FLIP (R387). FLT_INJECT with FI_MODE 1 flips one check-code bit of the next write to the named memory. -/
  | fltInjectSingleFlip (w : BitVec 32)
  /-- FLT_INJECT_DOUBLE_FLIP (R387). FLT_INJECT with FI_MODE 2 flips two check-code bits of the next write to the named memory. -/
  | fltInjectDoubleFlip (w : BitVec 32)
  /-- ERR_PIN_MINIMUM_END (R384). The 25-cycle minimum pulse of ERR_OUT_N ends, and the pin goes high or stays held. -/
  | errPinMinimumEnd
  /-- BLOCK_RESET_REACTION (R379). Once the recorder's flush has ended or 2 ms have passed, a block-reset reaction resets every domain but the always-on domain. -/
  | blockResetReaction
  /-- AO_RST_N (R426). Release of the always-on reset starts phase 1 of start-up. -/
  | aoRstN (inp : StaticIn)
  /-- BLK_RST_N (R434). A block reset resets every domain but 65, samples the straps again and runs start-up phases 2 to 6. -/
  | blkRstN (inp : StaticIn)
  /-- KB_GO (R429). A write of KB_GO makes the boot ROM load and authenticate the image at KB_ADDR. -/
  | kbGo (w : Word)
  /-- BOOT_AUTH_DONE (R429). Authentication ends, and the Hive firmware starts or the keeper enters the failed state. -/
  | bootAuthDone
  /-- HIVE_TESTS_DONE (R426). The eight test units and the stack-map check of phase 4 are done. -/
  | hiveTestsDone (pass : BitVec 8)
  /-- STACK_MAP_READ (R430). The keeper reads and cuts the stack-map ranges in phase 4. -/
  | stackMapRead
  /-- LINK_STARTUP_TIMEOUT (R431). 60 ms after the training request, the keeper stops waiting for links that have not trained. -/
  | linkStartupTimeout
  /-- READINESS (R432). Phases 4 and 5 have ended, so the keeper becomes ready, starts admission and resends its records with WG_STATE 1. -/
  | readiness
  /-- PWR_FAIL_N (R423). The power-fail warning raises source 57, starts a flush at once and stops background tasks. -/
  | pwrFailN
  /-- WAKE_REQ (R399). The wake input leaves asleep and starts a full start-up. -/
  | wakeReq
  /-- PWR_WAKE (R474). A write of 1 to PK_WAKE while asleep raises the wake requests and starts start-up. -/
  | pwrWake (w : BitVec 32)
  /-- PWR_ACK (R441). The power acknowledgement of a domain rises or falls in the four-phase handshake. -/
  | pwrAck (d : Fin 65) (up : Bool)
  /-- CLK_ACK (R441). The clock acknowledgement of a branch rises or falls in the four-phase handshake. -/
  | clkAck (branch : Fin 22) (up : Bool)
  /-- PWR_RET_ACK (R441). The retention acknowledgement of a domain rises or falls. -/
  | pwrRetAck (d : Fin 48) (up : Bool)
  /-- HANDSHAKE_TIMEOUT (R390). A clock or power request not granted within 1 ms raises source 58. -/
  | handshakeTimeout (clk : Bool) (n : Fin 66)
  /-- FRAME_DEMAND_WAKE (R395). Demand raises a frame to run state from idle, nap or off. -/
  | frameDemandWake (f : Fin 16)
  /-- FRAME_RUN_TO_IDLE (R395). After 64 data clocks without demand, the frame falls from run to idle. -/
  | frameRunToIdle (f : Fin 16)
  /-- FRAME_IDLE_TO_NAP (R395). After PW_NAP_US without demand, the frame falls from idle to nap. -/
  | frameIdleToNap (f : Fin 16)
  /-- FRAME_NAP_TO_OFF (R395). After PW_OFF_MS without demand, the frame zeroises its pantry and falls to off. -/
  | frameNapToOff (f : Fin 16)
  /-- SUPPLY_WARNING (R401). A droop sensor or supply monitor reports below warning, so the region's throttle level rises to at least 2. -/
  | supplyWarning (src : Supply)
  /-- SUPPLY_DEEP (R401). A report below the deep margin sets the region's throttle level to 7. -/
  | supplyDeep (src : Supply)
  /-- THROTTLE_ESCALATE (R401). Every 32 data clocks under warning, the region's droop level rises by 1, up to 5. -/
  | throttleEscalate (r : Fin 8)
  /-- THROTTLE_RELEASE (R401). After each SM_RELEASE_US above warning, the region's droop level falls by 1. -/
  | throttleRelease (r : Fin 8)
  /-- DROOP_HELD_TIMEOUT (R401). A droop level held above SM_CAP for more than 1 ms raises source 56. -/
  | droopHeldTimeout (r : Fin 8)
  /-- PANTRY_SCRUB (R404). Every 1.22 ms per frame, one pantry slot is read, checked by SECDED and written back if corrected. -/
  | pantryScrub (f : Fin 16) (ecc : Ecc)
  /-- CONTEXT_STORE_SCRUB (R404). Every 305 µs per bank, one context record is scrubbed. -/
  | contextStoreScrub (bank : Fin 8) (word : Fin 8) (ecc : Ecc)
  /-- DROOP_SENSOR_TRIM (R405). Every 100 ms, each droop sensor's offset is calibrated in turn. -/
  | droopSensorTrim
  /-- TELEMETRY (R406). Every TL_PERIOD_US, the keeper writes a telemetry block into the ring, or skips it. -/
  | telemetry
  /-- FLASH_SECTOR_ERASE (R407). When fewer than four erased sectors lie ahead, the next flash sector is erased. -/
  | flashSectorErase
  /-- FLASH_OPERATION_DONE (R407). A flash program or erase ends, or fails and retires its sector with source 59. -/
  | flashOperationDone (fail : Bool) (status : Byte)
  /-- FLUSH_START (R421). A flush of unflushed records to the flash log starts on a trigger. -/
  | flushStart
  /-- FLUSH_AGE_TIMEOUT (R421). The oldest unflushed record reaches 100 ms of age, which starts a flush. -/
  | flushAgeTimeout
  /-- FLUSH_DONE (R424). A flush block has been written, so REC_FLUSH advances and any waiting flush starts. -/
  | flushDone
  /-- EVENT_RECORD_ACCEPT (R415). The recorder accepts one record per always-on cycle, merges or appends it, or loses it. -/
  | eventRecordAccept
  /-- REC_CURSOR_FLASH_READ (R420). A write of REC_CURSOR with RC_FLASH starts a 4 KiB flash read into the window. -/
  | recCursorFlashRead (w : Word)
  /-- FLASH_READ_DONE (R420). The flash read into the window completes and RI_READY sets. -/
  | flashReadDone (data : Bytes)
  /-- SC_TRIG (R408). A write of 1 to SC_TRIG triggers a snapshot. -/
  | scTrig (w : Word)
  /-- SNAP_IN (R408). A rising edge of SNAP_IN triggers a snapshot when SC_IN_EN is set. -/
  | snapIn
  /-- SNAPSHOT_CAPTURE (R409). Every block captures its state at data-clock edge 12 after a trigger, and SNAP_OUT rises. -/
  | snapshotCapture (fine : BitVec 16)
  /-- SNAPSHOT_IMAGE_DONE (R411). The keeper has written the image, header last, and clears SN_BUSY. -/
  | snapshotImageDone
  /-- PTIME_WRAP (R413). The powered-time counter wraps, which sets RI_EPOCH and raises source 63. -/
  | ptimeWrap
  /-- GROUP_NUMBER_REUSE (R296). 2 ms after a lid group ended by timeout or abandonment, the sender may reuse its group number, and a descriptor waiting for a free group toward that chip may proceed. -/
  | groupNumberReuse (chip : ChipNo) (group : BitVec 6)
  /-- SUPPLY_ABOVE_WARNING (R401). The droop sensor or supply monitor report returns above the warning threshold, which starts the time above warning that releases the throttle level step by step. -/
  | supplyAboveWarning (src : Supply)
  /-- FLASH_LOG_SCAN_DONE (R425). The start-up scan of the 1,024 flash sector headers ends, the write position and FB_BOOT are chosen, or RI_NOFLASH is set, and the held records are flushed. -/
  | flashLogScanDone (scan : FlashScan)
  /-- FRAME_TEST_RETRY (R371). 2 ms after a frame's test drain timed out, the engine tries the frame's drain again. -/
  | frameTestRetry
  /-- LINK_RETRAINING_REQUEST (R454). After TRAIN_REQ has been held low for 1 µs following a link-down, the engine raises it again to request retraining. -/
  | linkRetrainingRequest (l : Fin 18)
deriving DecidableEq, Repr

end Sys2Proof
end

