-- ==== Sys2Proof/Machine/State.lean ====
section
/-! DEFINITION. The state of the engine as plain data: every register, record, buffer, queue, counter, mode and pin
the spec gives the block, the queue of waiting commands, and the machine right after reset. -/
namespace Sys2Proof.Machine

/-- A sparse table: (index, entry) pairs with rising indices and no entry equal to what an unlisted index holds. -/
abbrev Store (α : Type) := List (Nat × α)

/-! ## The keeper and its mailboxes -/

/-- One mailbox: its 256 B window (R21), the bits of MBOX_DB (R25), the tenant bound to it (R32), a binding change
that waits for the verb in progress (R32), and the request block as rung when software has written it since (R26). -/
structure Mailbox where
  window : Store Byte := []
  rungAs : Option Bytes := none
  overrun : Bool := false
  cancel : Bool := false
  irqEn : Bool := false
  done : Bool := false
  busy : Bool := false
  tenant : Option Tenant := none
  rebind : Option (Option Tenant) := none
deriving DecidableEq, Repr

/-- How far an accepted verb is: to be executed, waiting for the drain its own row ends, sent to another keeper, or
ended by a keeper reset (R30). -/
inductive VerbStage where
  | run
  | draining
  | relayed
  | interrupted
deriving DecidableEq, Repr

/-- A verb in progress (R33): its origin, the request block as copied at acceptance (R26), the powered time of the
acceptance (R24), its stage, the bytes the keeper memory port has returned for it by address (R45), whether such a read
failed, the blocks read so far, and a number the verb keeps between its steps. -/
structure VerbProg where
  origin : Origin
  req : Bytes
  accepted : Word
  stage : VerbStage
  got : Store Byte
  readFail : Bool
  asked : List Nat
  acc : Nat
deriving DecidableEq, Repr

/-- Who asked for a request on the keeper memory port (R476); `gone` is one that a keeper reset has left without an owner. -/
inductive KmOwner where
  | verb (o : Origin)
  | boot
  | snapshot (last : Bool)
  | telemetry
  | gone
deriving DecidableEq, Repr

/-- One request on the keeper memory port (R476): its owner, address, length in bytes, direction and write data. -/
structure KmReq where
  owner : KmOwner
  addr : Nat
  len : Nat
  write : Bool
  data : Bytes
deriving DecidableEq, Repr

/-- A Hive image as the keeper knows it (R361, R363): where it lies, its length, versions and digest. -/
structure FwImage where
  addr : BitVec 56 := 0
  len : Nat := 0
  fwVer : BitVec 32 := 0
  ifVer : BitVec 16 := 0
  secVer : BitVec 32 := 0
  digest : Bytes := []
deriving DecidableEq, Repr

/-- The phases of start-up (R426). `off` is the engine before AO_RST_N is released; links train and start waggle (phase 5)
beside the end of phase 4, and `ready` follows both. -/
inductive Phase where
  | off
  | alwaysOn
  | bootRom
  | auth
  | tests
  | ready
deriving DecidableEq, Repr

/-- Why the boot ROM is loading an image (R363, R429, R434). -/
inductive BootWhy where
  | kbGo
  | keeperReset
  | activate (o : Origin)
  | powerUpAgain (o : Origin)
deriving DecidableEq, Repr

/-- A response remembered for relay deduplication (R38). -/
structure RelayMemo where
  chip : ChipNo
  seq : BitVec 32
  resp : Bytes
deriving DecidableEq, Repr

/-- The working state of a CTR_DRBG with AES-256 (R357): its key of 32 B and its counter block of 16 B. -/
structure Drbg where
  key : Bytes
  v : Bytes
deriving DecidableEq, Repr

/-- One range of the stack map as the keeper keeps it (R430). -/
structure MapRange where
  idx : Nat
  base : Nat
  len : Nat
  out : BitVec 8
deriving DecidableEq, Repr

/-- The quiesce in progress (R435): who asked, the target state and the step reached. -/
structure Quiesce where
  origin : Origin
  target : Byte
  step : Nat
deriving DecidableEq, Repr

/-- The keeper: KEEPER_STAT (R472), the start-up phase (R426), KEEPER_BOOT (R428), mailboxes rung and not yet accepted
in RING order (R33), verbs in progress, firmware (R361 to R363), relays (R36 to R38), the retained identity (R372) and whether its chain is valid (R360), the
DRBG's state and the generate calls since its last seed (R357, R358), the code and data memory (R8, R363), the keeper memory port (R476) and the stack map (R430). `trainWait` holds the links that start-up still waits for
once the 60 ms of R431 are over. -/
structure Keeper where
  state : BitVec 4 := 0
  beat : BitVec 16 := 0
  phase : Phase := .off
  startCause : Byte := 0
  kbAddr : BitVec 56 := 0
  kbGo : Bool := false
  rung : List Nat := []
  verbs : List VerbProg := []
  activating : Bool := false
  quiesce : Option Quiesce := none
  running : FwImage := {}
  loaded : Option FwImage := none
  powerUpImage : FwImage := {}
  bootWhy : BootWhy := .kbGo
  bootAddr : BitVec 56 := 0
  bootGot : Store Byte := []
  bootFail : Bool := false
  bootAsked : List Nat := []
  relayAllow : BitVec 64 := 0
  relayMemo : List RelayMemo := []
  idKey : Option Nat := none
  idRoot : Bytes := []
  idChain : Bytes := []
  idFloor : BitVec 32 := 0
  idRevoke : BitVec 4 := 0
  idLock : Bool := false
  chainOk : Bool := false
  drbg : Option Drbg := none
  drbgCalls : Nat := 0
  mem : Store Byte := []
  kmq : List KmReq := []
  kmBuf : Bytes := []
  stackMap : List MapRange := []
  testsDone : Bool := false
  mapDone : Bool := false
  trainAsked : Bool := false
  trainWait : Option (List Nat) := none
deriving DecidableEq, Repr

/-- KNOCK_DROP (R473). -/
structure KnockDrop where
  count : BitVec 32 := 0
  last : CtxNo := 0
  narrow : Bool := false
deriving DecidableEq, Repr

/-! ## Contexts and descriptors -/

/-- The states of a context (R51). -/
inductive CtxState where
  | closed
  | idle
  | ready
  | running
  | waiting
  | pausing
  | paused
  | stopped
deriving DecidableEq, Repr

/-- A message between engines after its flit framing (R263): header fields, then the words and bytes that follow. `buf` is no
part of the message: it names the flits of a receive buffer that hold it (R17, R274). -/
structure Msg where
  op : BitVec 5
  win : Bool
  dst : ChipNo
  src : ChipNo
  len : Nat
  tenant : Tenant
  tag : BitVec 16
  addr : BitVec 56
  word : Word
  data : Bytes
  buf : List Nat := []
deriving DecidableEq, Repr

/-- A ring entry the channel has fetched (R71): its ring index and its 128 bytes as read. -/
structure Held where
  idx : BitVec 16
  bytes : Bytes
deriving DecidableEq, Repr

/-- What a started descriptor does. -/
inductive WorkKind where
  | nop
  | wait
  | copy
  | feed (sw : Nat)
deriving DecidableEq, Repr

/-- What a read was issued for. -/
inductive ReadFor where
  | data
  | tag
  | list
  | seed (row : Nat)
deriving DecidableEq, Repr

/-- A read that a descriptor still has to issue: its purpose, the address space code, the core for a scratchpad, the
address of its 256 B block (64 B beat for a scratchpad) and the 32 B sectors wanted (R100). -/
structure ReadReq where
  what : ReadFor
  space : BitVec 3
  core : Nat
  addr : Nat
  sect : BitVec 8
deriving DecidableEq, Repr

/-- What a write of a descriptor is. -/
inductive WriteFor where
  | data
  | tag
  | csum
  | slotFree
  | status
  | post (id : Nat)
deriving DecidableEq, Repr

/-- One piece of a descriptor's destination inside one aligned block (R100): its purpose, space, first and last core
(R106), the address of the block, and the bytes it writes by offset in the block; `pad` lists the offsets that are
stream-only pad (R103). -/
structure OutPiece where
  what : WriteFor
  space : BitVec 3
  core : Nat
  coreLast : Nat
  stream : Bool
  addr : Nat
  bytes : List (Nat × Byte)
  pad : List Nat
deriving DecidableEq, Repr

/-- How far the completion of a descriptor is (R63, R76, R231): data moving; then its checksum result, its extension slot
and its status, each queued, issued and acknowledged. -/
inductive DoneStage where
  | moving
  | csum
  | csumOut
  | csumLanded
  | slot
  | slotOut
  | slotLanded
  | status
  | statusOut
  | statusLanded
deriving DecidableEq, Repr

/-- A post of the refresh ring whose record is on its way (R169): the record write's identity, its landed tally, and
whether the write has been acknowledged. -/
structure Post where
  id : Nat
  tally : TallyNo
  landed : Bool
deriving DecidableEq, Repr

/-- A descriptor that has started and not yet completed, oldest first in its context (R73): identity, ring index, the
entries as read, what it is, the frame that executes it, the expected key set (R163), the physical tallies (R328), the
next unit, whether its reads are queued and how many of its positions have been passed on, its source tag, reads and
writes still to issue, counts in flight, slots staged for a transpose (R208), progress (R63), running checksum (R230), tiles
posted (R170), the conditions met (R75), the swarm beats issued up to its last one (R194), the identity it was accepted
under (R134), the tally of a WAIT as acceptance translated it (R328), whether it passed acceptance (R72), whether the next
tile's tag has been asked for (R164), whether a tile was posted before it resumed (R170), the pieces still being gathered, by plane (R100), and the lid that a DONE_REMOTE tally
still needs after a pause (R86). -/
structure Work where
  id : Nat
  idx : BitVec 16
  main : Bytes
  slot : Bytes
  kind : WorkKind
  frame : Nat
  kset : KsetNo
  tally : TallyNo
  rrTallies : List TallyNo
  unit : Nat
  asked : Bool
  emitted : Nat
  tileOk : Bool
  tileTag : Bytes
  reads : List ReadReq
  readsOut : Nat
  outs : List OutPiece
  writesOut : Nat
  lastRead : Bool
  draining : Bool
  staged : Nat
  left : Nat
  crc : Word
  posted : Nat
  ending : Option (BitVec 16 × BitVec 16)
  ejected : Option Nat
  changed : Option Nat
  remoteChip : Option ChipNo
  stage : DoneStage
  status : BitVec 16
  detail : BitVec 16
  tallyDone : Bool
  upto : Nat
  born : Nat
  waits : TallyNo
  accepted : Bool
  ahead : Bool
  postedBefore : Bool
  opened : Store OutPiece
  lidOwed : Option Msg
deriving DecidableEq, Repr

/-- What makes a bound context leave its channel: nothing, a preemption at the next descriptor boundary (R69), or a drain
to the next resume point (R370, R396). -/
inductive Leave where
  | no
  | boundary
  | resume
deriving DecidableEq, Repr

/-- What is kept of a partial descriptor beside CURSOR and CRC_PARTIAL, so that its status is that of an uninterrupted
run (R86): bytes that left, an ejected port, a changed table entry, the modulus entries it uses (R147), and what its
acceptance settled: key set (R163), physical tallies (R328), whether the tally on done is valid, the swarm it feeds (R193), the cores it is
destined for (R186), whether a tile was posted (R170), the chip its data went to (R60), the identity it was accepted under (R134), the lid it still owes
(R86) and its entries as read. -/
structure Kept where
  left : Nat := 0
  ejected : Option Nat := none
  changed : Option Nat := none
  mods : List Nat := []
  kset : KsetNo := 0
  tally : TallyNo := 0
  tallyDone : Bool := false
  rrTallies : List TallyNo := []
  feed : Option Nat := none
  cores : List Nat := []
  posted : Bool := false
  remoteChip : Option ChipNo := none
  born : Nat := 0
  lidOwed : Option Msg := none
  main : Bytes := []
  slot : Bytes := []
deriving DecidableEq, Repr

/-- A context: the record of R47 field by field, and what the engine keeps beside it: the entries held (R71), the
descriptors started (R73), posts on their way (R169), the tally map (R327), whether fetching stopped at an unowned entry and at which (R66), a failure found
under ERR_CONT 0 or on the ring (R78, R79), the words of the record found uncorrectable (R385), whether its wait holds a
shared entry (R335), what makes it leave its channel, the index its channel fetches next, what a partial descriptor keeps,
and whether ctx.abort is at work on it (R87). -/
structure Ctx where
  state : CtxState := .closed
  priv : Bool := false
  watch : Bool := false
  desched : Bool := false
  errCont : Bool := false
  tenant : Tenant := 0
  basePrio : BitVec 3 := 0
  rateShare : BitVec 9 := 0
  ringLog2 : BitVec 5 := 0
  watchUs : BitVec 10 := 0
  ringBase : BitVec 57 := 0
  tail : BitVec 16 := 0
  doneIdx : BitVec 16 := 0
  fetchIdx : BitVec 16 := 0
  part : Bool := false
  tallyVirt : Bool := false
  keySet : KsetNo := 0
  channel : BitVec 10 := 0
  bound : Bool := false
  hintFrame : BitVec 4 := 0
  hintValid : Bool := false
  waitTally : TallyNo := 0
  waitValue : Word := 0
  cursor : BitVec 40 := 0
  crcPartial : Word := 0
  descDone : BitVec 31 := 0
  doneSat : Bool := false
  lastErr : BitVec 16 := 0
  lastErrIdx : BitVec 16 := 0
  held : List Held := []
  works : List Work := []
  posts : List Post := []
  vmap : Option (List (BitVec 16)) := none
  fetchHold : Bool := false
  holdIdx : BitVec 16 := 0
  failStop : Bool := false
  damaged : BitVec 8 := 0
  sharedWait : Bool := false
  leave : Leave := .no
  chanFetch : BitVec 16 := 0
  kept : Kept := {}
  aborting : Bool := false
deriving DecidableEq, Repr

/-- A channel: the context bound to it (R8), its two rate allowances (R226) and whether its sleep counts for lending
(R340). -/
structure Chan where
  ctx : Option CtxNo := none
  allowRd : Nat := 0
  allowWr : Nat := 0
  lent : Bool := false
deriving DecidableEq, Repr

/-! ## Frames, taps and feed ports -/

/-- Who holds a pantry slot or an outstanding-write entry of a frame. -/
inductive Holder where
  | free
  | work (c : CtxNo) (id : Nat)
  | walk (id : Nat)
  | fabric (chip : ChipNo) (tag : BitVec 16)
  | transfer
deriving DecidableEq, Repr

/-- A pantry slot (R206, R210): who holds it, for what, the address it was read from, the beats that are still to come
and that have come (two of 128 B from a tap, four of 64 B from a scratchpad), its data, the generation it is counted against (R254), whether it came from the shared pool (R207),
its tenant and context record (R355), check-code flips injected into it (R387), the window a
partner's read is counted against (R288) and the bytes it asked for. -/
structure Slot where
  holder : Holder := .free
  what : ReadFor := .data
  space : BitVec 3 := 0
  core : Nat := 0
  addr : Nat := 0
  phys : Nat := 0
  want : BitVec 4 := 0
  have_ : BitVec 4 := 0
  data : Store Byte := []
  gen : Nat := 0
  counted : Bool := false
  pool : Bool := false
  remote : Option ChipNo := none
  recTenant : Tenant := 0
  recCtx : CtxNo := 0
  flips : Nat := 0
  win : Option Nat := none
  len : Nat := 0
deriving DecidableEq, Repr

/-- An outstanding-write entry (R211): who holds it, what it writes, the burst as presented on the tap (R443): space,
physical address, bytes by offset, tenant, reduction operation, format and element code; its generation (R254); for a
status, the ring index; and the window a partner's write is counted against (R288). -/
structure WEntry where
  holder : Holder := .free
  what : WriteFor := .data
  space : BitVec 3 := 0
  addr : Nat := 0
  bytes : List (Nat × Byte) := []
  tenant : Tenant := 0
  red : BitVec 3 := 0
  fmt : BitVec 4 := 0
  esz : BitVec 2 := 0
  gen : Nat := 0
  counted : Bool := false
  idx : BitVec 16 := 0
  win : Option Nat := none
deriving DecidableEq, Repr

/-- A request the service requester of a frame carries (R213): a page-walk read, a list or seed read, or a write
that completes a descriptor or posts a tile. Ring reads are in no queue: the rows of a fetch and of a watch poll stand for
the whole read (DESIGN CHOICE, log entry 138). -/
inductive SvcReq where
  | walk (id : Nat)
  | read (c : CtxNo) (id : Nat) (r : ReadReq)
  | write (c : CtxNo) (id : Nat) (idx : BitVec 16) (p : OutPiece)
deriving DecidableEq, Repr

/-- A partner request waiting in a frame for its fabric requester (R12, R290), with the window it is counted against
(R288) and the pantry slot that holds its data. -/
structure FabReq where
  msg : Msg
  phys : Nat
  tenant : Tenant
  win : Option Nat
  slot : Option Nat
deriving DecidableEq, Repr

/-- The arbiter statistics of one requester (R224). -/
structure ArbStat where
  grants : BitVec 32 := 0
  waited : BitVec 48 := 0
  longest : BitVec 32 := 0
  grantSat : Bool := false
  longSat : Bool := false
deriving DecidableEq, Repr

/-- What a translation belongs to: a tenant's root (R239) or a remote window's table (R287). -/
inductive XRoot where
  | tenant (t : Tenant)
  | window (w : Byte)
deriving DecidableEq, Repr

/-- A leaf held in a translation buffer (R243). -/
structure Leaf where
  root : XRoot
  big : Bool
  vpn : Nat
  page : Nat
  r : Bool
  w : Bool
  a : Bool
deriving DecidableEq, Repr

/-- The states of a frame (R394). -/
inductive FrameState where
  | run
  | idle
  | nap
  | off
deriving DecidableEq, Repr

/-- How a stopped frame's error named its cause (R233). -/
structure StopCause where
  ctx : Option CtxNo := none
  ring : Bool := false
  write : Bool := false
  chan : Option Nat := none
deriving DecidableEq, Repr

/-- A request for shared-pool slots that waits its turn (R207): the staging of a transpose, or one slot for a channel, the
fabric requester or the service requester. -/
inductive PoolReq where
  | stage (id : Nat)
  | chan (c : CtxNo)
  | fabric
  | service
deriving DecidableEq, Repr

/-- One frame (R8): power state and policy (R394), FP_SCALES (R397), the stop of R232 and its drain, its pantry,
outstanding writes, scale registers (R131) with the identity that
was next when each was last written (R134), translation buffer most recent first (R243), service and fabric queues
(R213), statistics and, by requester x 4 + tap, the data clocks of each wait in progress (R224), bursts issued in the telemetry period (R406), the scrub position (R404), the draws taken from
its rounding generator (R126), the holds of tests and calibration (R370), whether demand is raising it to run, the requests that wait
for shared-pool slots, in order (R207, R208), and where its spine ingress and egress stand in their rounds (R220). -/
structure Frame where
  state : FrameState := .idle
  policy : BitVec 2 := 2
  scales : Bool := false
  stopped : Bool := false
  draining : Bool := false
  cause : StopCause := {}
  slots : Store Slot := []
  went : Store WEntry := []
  scaleRegs : Store (BitVec 16) := []
  scaleAt : Store Nat := []
  tlb : List Leaf := []
  svc : List SvcReq := []
  fab : List FabReq := []
  stats : Store ArbStat := []
  waits : Store Nat := []
  bursts : BitVec 32 := 0
  scrubAt : Nat := 0
  draws : Nat := 0
  noBind : Bool := false
  waking : Bool := false
  testHold : Bool := false
  poolWait : List PoolReq := []
  spineFrom : Nat := 15
  spineChan : Nat := 63
deriving DecidableEq, Repr

/-- What a tap presented last on its command lanes (R443). -/
structure TapOut where
  write : Bool
  shc : Bool
  addr : Nat
  sect : BitVec 8
  slot : Nat
  tenant : Tenant
  red : BitVec 3
  fmt : BitVec 4
  esz : BitVec 2
  bytes : List (Nat × Byte)
deriving DecidableEq, Repr

/-- One memory tap: its request credits (R214, R444), arbiter ages, rotation pointer and parked owner (R221), and what
it presented last. -/
structure Tap where
  rdCr : Nat := 0
  wrCr : Nat := 0
  age : Store Nat := []
  ptr : Nat := 65
  owner : Option Nat := none
  out : Option TapOut := none
deriving DecidableEq, Repr

/-- One beat toward a core (R447): kind 0 scratchpad write, 1 stream, 2 tag; offset bits [31:6]; byte enables; pad
marks; data; tenant; the descriptor it belongs to, and whether
its bytes count in the descriptor's progress (R63). -/
structure Beat where
  kind : BitVec 2
  ofs : BitVec 26
  ben : BitVec 64
  pad : BitVec 64
  data : Bytes
  tenant : Tenant
  ctx : CtxNo
  work : Nat
  count : Bool
deriving DecidableEq, Repr

/-- A scratchpad read on a port's fetch lane (R217): the reading frame and slot, the offset and the tenant. -/
structure Fetch where
  frame : Nat
  slot : Nat
  ofs : Nat
  tenant : Tenant
deriving DecidableEq, Repr

/-- One feed port (R447): landing buffer (R216), write, read and stream credits (R215), scratchpad reads in flight,
the writes and stream beats not yet returned, and the last beat delivered. -/
structure Port where
  landing : List Beat := []
  landCr : Nat := 0
  wrCr : Nat := 0
  rdCr : Nat := 0
  strmCr : Nat := 0
  fetFly : List Fetch := []
  landFly : List (CtxNo × Nat) := []
  strmFly : List (CtxNo × Nat) := []
  out : Option Beat := none
deriving DecidableEq, Repr

/-- A beat waiting to cross the spine (R220): from a frame to one or several feed ports, or read data from a feed port
back to the reading frame's slot. -/
structure SpineBeat where
  src : Nat
  dst : Nat
  ports : List Nat
  beat : Beat
deriving DecidableEq, Repr

/-! ## Key sets and swarms -/

/-- A key-set record (R175); a record of tenant 0 is unregistered. `retiring` refuses new descriptors (R182). -/
structure KeySet where
  tenant : Tenant := 0
  elem : BitVec 4 := 0
  masks : BitVec 4 := 0
  seeded : Bool := false
  mod : Byte := 0
  etype : Byte := 0
  logN : BitVec 5 := 0
  addr : BitVec 60 := 0
  rows : BitVec 32 := 0
  use : Byte := 0
  len : Word := 0
  label : BitVec 128 := 0
  crc : BitVec 32 := 0
  retiring : Bool := false
deriving DecidableEq, Repr

/-- A modulus entry (R145). -/
structure ModEntry where
  kind : BitVec 2 := 0
  width : BitVec 7 := 0
  p : Word := 0
  pinv : Word := 0
  rmod : Word := 0
  rsq : Word := 0
deriving DecidableEq, Repr

/-- One swarm: SWARM_STAT and SWARM_PACE (R198, R219), its source, members and ejected members, the window and ejection
time taken at open (R197), the feed whose seeds and masks it holds, beats in the regions with their numbers, beats issued and taken
per member (R195), running ejection timers (R199), regenerated masks by polynomial index, each from the first coefficient
not yet issued (R184), the frame that its source context was bound in last (R187), and its close (R202). -/
structure Swarm where
  isOpen : Bool := false
  held : Bool := false
  kset : KsetNo := 0
  src : CtxNo := 0
  members : BitVec 256 := 0
  ejected : BitVec 256 := 0
  ejects : BitVec 7 := 0
  win : Nat := 0
  ejectUs : BitVec 16 := 0
  pace : BitVec 4 := 8
  feeder : Nat := 0
  region : List (Nat × Bytes) := []
  issued : Nat := 0
  taken : Store Nat := []
  timers : BitVec 256 := 0
  masks : Store (List Word) := []
  seeds : Store Bytes := []
  srcFrame : Option Nat := none
  closing : Option Origin := none
deriving DecidableEq, Repr

/-- A polynomial under regeneration in one Keccak core (R184): its swarm, index, length, modulus rule, sponge lanes and how
many coefficients have gone to the swarm's output buffer; `undef` when its coefficients are undefined (R204). -/
structure Expand where
  sw : Nat
  index : Nat
  n : Nat
  mask : Word
  prime : Option Word
  lanes : List Word
  got : Nat
  undef : Bool
deriving DecidableEq, Repr

/-! ## Translation -/

/-- Who waits for a walk (R241, R245): a descriptor's side, a ring access of a context, a partner request, or the
forager. -/
inductive WalkFor where
  | work (c : CtxNo) (id : Nat) (detail : Nat)
  | ring (c : CtxNo) (access : Nat)
  | fabric (m : Msg)
  | forager
deriving DecidableEq, Repr

/-- A page walk in flight (R241): the frame that missed, the root, the address, the level to be read, the table's
address, who waits, and whether an invalidation discarded its result (R253). -/
structure Walk where
  id : Nat
  frame : Nat
  root : XRoot
  va : Nat
  level : Nat
  table : Nat
  why : WalkFor
  discard : Bool
deriving DecidableEq, Repr

/-- A remote window (R288): whether it is set, the address of its table, the chips that may send to it, and a clear
that drains. -/
structure Window where
  isSet : Bool := false
  table : Nat := 0
  mask : Word := 0
  clearing : Bool := false
deriving DecidableEq, Repr

/-- The translation unit: roots of the tenants (R239), windows (R288), the second level by set (R243), walks, the current
generation, the verbs whose invalidation drains, and the verbs that wait for the next batch (R255). -/
structure Xlate where
  roots : Store (Option Nat) := []
  wins : Store Window := []
  l2 : Store (List Leaf) := []
  walks : List Walk := []
  gen : Nat := 0
  draining : List Origin := []
  waiting : List Origin := []
deriving DecidableEq, Repr

/-! ## Tallies, barriers and waiting -/

/-- CRED_CFG (R332). -/
structure CredCfg where
  tenant : Tenant := 0
  init : BitVec 16 := 0
deriving DecidableEq, Repr

/-- A credit counter's value and sticky underflow (R332), as the difference from its CR_INIT is not stored. -/
structure CredVal where
  value : BitVec 17 := 0
  under : Bool := false
deriving DecidableEq, Repr

/-- What a core's wait slot waits for (R338). -/
inductive SlotCond where
  | none
  | tally (id : TallyNo) (value : Word)
  | credit (c : BitVec 10) (n : BitVec 16)
deriving DecidableEq, Repr

/-- What a tally port answered last (R451): REFUSED and RDATA. -/
structure TpReply where
  refused : Bool := false
  rdata : Word := 0
deriving DecidableEq, Repr

/-- A barrier (R341): the three configuration words, BAR_STAT, the bases A0 and R0, the last episode each child
reported, and messages due to a chip while no link to it is in service (R344). -/
structure Barrier where
  cfg0 : Word := 0
  cfg1 : Word := 0
  cfg2 : Word := 0
  reported : BitVec 31 := 0
  cfgErr : Bool := false
  released : BitVec 31 := 0
  a0 : Word := 0
  r0 : Word := 0
  childRep : Store Nat := []
  due : List (ChipNo × Byte × Nat) := []
deriving DecidableEq, Repr

/-- The tally unit (R321 to R349): values, groups' owners, frozen tallies (R385), credit counters, core wait slots
(keyed by core x 4 + slot), TALLY_CTRL and TALLY_STAT, whether the detector has fired and nothing has moved since, port
replies, barriers, the lending
counts reported (R340), whether an access is held until the domain is on (R470), and the cores' operations taken meanwhile, one
a port, in order (R323, R452). -/
structure TallyUnit where
  val : Store Word := []
  own : Store Tenant := []
  frozen : List Nat := []
  credCfg : Store CredCfg := []
  credVal : Store CredVal := []
  slots : Store SlotCond := []
  deadlockUs : BitVec 16 := 1000
  lendUs : BitVec 16 := 20
  dlFired : Bool := false
  dlQuiet : Bool := false
  waitFull : Bool := false
  replies : Store TpReply := []
  bars : Store Barrier := []
  lentCores : List Nat := []
  lendChan : BitVec 11 := 0
  lendCore : BitVec 9 := 0
  lendUpd : Bool := false
  held : Bool := false
  heldOps : List (Nat × Instr) := []
deriving DecidableEq, Repr

/-! ## The fabric -/

/-- How a link stands (R259, R273, R276, R278, R280). -/
inductive LinkState where
  | down
  | training
  | measuring
  | waggle
  | held
  | service
deriving DecidableEq, Repr

/-- The keys of one direction of a link (R267, R268): key of 32 B and salt of 4 B. -/
structure LinkKey where
  key : Bytes
  salt : Bytes
deriving DecidableEq, Repr

/-- A message flit or seal as the sender keeps it until it is acknowledged (R271), with the messages that end in it. -/
structure TxFlit where
  seq : BitVec 12
  bytes : Bytes
  msgs : List Msg
deriving DecidableEq, Repr

/-- A flit of a link's receive buffer (R17, R274): its number, its class, and whether it has moved to the part of the buffer
that holds transit flits waiting for another link. -/
structure BufFlit where
  id : Nat
  cls : Nat
  parked : Bool
deriving DecidableEq, Repr

/-- The assembly of a waggle record or identity chain from its parts (R277): the serial, parts by index, and the count
of parts once the last is known with the length of that part. -/
structure Assembly where
  serial : BitVec 32 := 0
  parts : Store Bytes := []
  total : Option Nat := none
deriving DecidableEq, Repr

/-- A rekey under way (R269): who asked (none when the partner started it), our new ephemeral key while it is needed,
whether the partner's key has come, the first seal sent under the new keys, and whether one received has verified. -/
structure Rekey where
  origin : Option Origin
  priv : Nat
  answered : Bool
  txSeal : Option (BitVec 12)
  rxDone : Bool
deriving DecidableEq, Repr

/-- One link port: state, partner and its identity and record (R276 to R279), training sideband (R453), round trips and
echoes to be sent (R273), grants and credits of the five classes and the shared pool (R274, R275), the transmitter (sequence
numbers, counter, keys, bytes of each class's first message already sent, run, replay buffer: R266 to R271), the receiver
(expected sequence, held run, keys, the bytes of a message that goes on and the flits they lie in, the receive buffer's flits), waggle progress and the record serial
judged last, message queues and what the port drove last. -/
structure Link where
  state : LinkState := .down
  trainReq : Bool := false
  rate : Bool := false
  partner : ChipNo := 0
  partnerId : Bytes := []
  peerRec : Bytes := []
  peerSerial : Word := 0
  judged : Word := 0
  echoes : List Nat := []
  echoDue : Nat := 0
  rtt : Nat := 0
  grant : Nat := 0
  txCr : List Nat := []
  rxFree : List Nat := []
  rxOwe : Nat := 0
  txSeq : BitVec 12 := 0
  txCtr : Word := 0
  txEpoch : Bool := false
  txKey : Option LinkKey := none
  txNext : Option LinkKey := none
  txPos : Store Nat := []
  txRun : List Bytes := []
  replay : List TxFlit := []
  replayAt : List TxFlit := []
  replays : Nat := 0
  sinceSeal : Nat := 0
  rxSeq : BitVec 12 := 0
  rxCtr : Word := 0
  rxEpoch : Bool := false
  rxKey : Option LinkKey := none
  rxNext : Option LinkKey := none
  rxRun : List Bytes := []
  rxPart : Store Bytes := []
  rxPartIn : Store (List Nat) := []
  rxBuf : List BufFlit := []
  nak : Bool := false
  ctl : List Bytes := []
  idleOwed : Nat := 0
  txq : Store (List Msg) := []
  rxq : List (Nat × Msg) := []
  serial : Word := 0
  record : Bytes := []
  acked : Bool := false
  ephPriv : Nat := 0
  asmRec : Option Assembly := none
  asmChain : Option Assembly := none
  rekey : Option Rekey := none
  out : Option Bytes := none
deriving DecidableEq, Repr

/-- The admission state of a partner (R282, R283). -/
inductive Admission where
  | unknown
  | queued
  | ramping (step : Nat)
  | inService
deriving DecidableEq, Repr

/-- One partner chip: its admission here, whether it has granted us credits, request credits it may still use and that are to be returned (R285); our
request credits there, the back-off after NOT_READY (R284), whether a request sent without a grant is unanswered, whether a
control message was answered NOT_READY, and the requests that wait for credit or back-off. -/
structure Partner where
  adm : Admission := .unknown
  served : Bool := false
  granted : Nat := 0
  toReturn : Nat := 0
  credits : Nat := 0
  wait : Nat := 1
  backing : Bool := false
  probing : Bool := false
  ctlAgain : Bool := false
  out : List Msg := []
deriving DecidableEq, Repr

/-- A lid group at its receiver (R291, R293): writes acknowledged, writes in flight, the lid held, and whether it has
been refused or abandoned. -/
structure RxGroup where
  live : Bool := false
  landed : Nat := 0
  inFlight : Nat := 0
  lid : Option FabReq := none
  lidIssued : Bool := false
  refused : Bool := false
deriving DecidableEq, Repr

/-- A lid group at its sender (R291, R292): the descriptor it belongs to, the write kept back, writes sent, the
messages sent, whether its lid is queued and has left, whether
it waits for LANDED or for reuse (R296), the oldest translation generation counted in it (R254), and the posts whose
records it carries. -/
structure TxGroup where
  used : Bool := false
  ctx : CtxNo := 0
  work : Nat := 0
  back : Option Msg := none
  sent : Nat := 0
  msgs : List Msg := []
  closed : Bool := false
  lidSent : Bool := false
  cooling : Bool := false
  gen : Option Nat := none
  posts : List Nat := []
deriving DecidableEq, Repr

/-- A remote read in flight (R297): the descriptor, frame and slot it fills, whether it has been sent again (R272), and
the link that it left on. -/
structure TxRead where
  used : Bool := false
  ctx : CtxNo := 0
  work : Nat := 0
  frame : Nat := 0
  slot : Nat := 0
  msg : Option Msg := none
  again : Bool := false
  via : Option Nat := none
deriving DecidableEq, Repr

/-- The fabric transport: whether the engine is ready for fabric service (R282, R432), links, partners, the admission queue, lid groups both ways, and remote reads. Groups are keyed
by chip x 64 + group, reads by chip x 1,024 + tag. `rr` is the rotation over each destination's links (R280), `nextBuf` the
model's number of the next flit that enters a receive buffer. -/
structure Fabric where
  ready : Bool := false
  links : Store Link := []
  partners : Store Partner := []
  admitQ : List ChipNo := []
  rxGroups : Store RxGroup := []
  txGroups : Store TxGroup := []
  txReads : Store TxRead := []
  rr : Store Nat := []
  nextBuf : Nat := 0
deriving DecidableEq, Repr

/-! ## Faults, security, power -/

/-- The fault collector: FLT_STAT, configurations, captures, merges (R374 to R383), the error pin (R384), the halted state
(R378), reactions that wait for a flush and CHIP_RST_REQ_N being low (R379), whether a block reset is running until the keeper is ready again (R380),
and injected flips that wait for a write (R387). -/
structure Faults where
  stat : Word := 0
  cfg : Store (BitVec 9) := []
  sel : BitVec 6 := 0
  cap0 : Word := 0
  cap1 : Word := 0
  cap2 : Word := 0
  merges : BitVec 16 := 0
  mergeSat : Bool := false
  corr : BitVec 32 := 0
  pinHold : Bool := true
  pinForce : Bool := false
  pinLow : Bool := false
  pinMin : Bool := false
  pinRelease : Bool := false
  halted : Bool := false
  brst : Bool := false
  crst : Bool := false
  brstRun : Bool := false
  rstReq : Bool := false
  flipPantry : Store Nat := []
  flipCtx : Nat := 0
  flipKeeper : Nat := 0
  flipTable : Nat := 0
deriving DecidableEq, Repr

/-- Security: SS_PASSED and SS_FAILED (R368). -/
structure Sec where
  passed : BitVec 8 := 0
  failed : BitVec 8 := 0
deriving DecidableEq, Repr

/-- One smoker region (R400, R401): the droop level, whether its sensor reports below warning or deep, SK_HELD, and the
sensor being trimmed (R405). -/
structure Region where
  level : Nat := 0
  warn : Bool := false
  deep : Bool := false
  held : Bool := false
deriving DecidableEq, Repr

/-- Power and clocks: the timers (R395), the handshake levels (R441), WAKE, asleep (R474) and the hold before it (R436), the engine state recorded last (R399), the smoker (R400), and
the microseconds of throttling with
the ticks of the one that runs, the sensor trimmed next (R405) and each bank's scrub position (R404). -/
structure Power where
  napUs : BitVec 16 := 100
  offMs : BitVec 16 := 100
  req : BitVec 65 := 0
  ack : BitVec 65 := 0
  clkReq : BitVec 22 := 0
  clkAck : BitVec 22 := 0
  ret : BitVec 48 := 0
  retAck : BitVec 48 := 0
  pkWake : Bool := false
  asleep : Bool := false
  sleepHold : Bool := false
  mode : Option Nat := none
  smCap : BitVec 3 := 0
  smWarn : Byte := 25
  smDeep : Byte := 45
  smRelease : Byte := 10
  regions : Store Region := []
  monWarn : Bool := false
  monDeep : Bool := false
  throtUs : BitVec 32 := 0
  failing : Bool := false
  trimAt : Nat := 0
  throtTick : Nat := 0
  ctxScrub : Store Nat := []
deriving DecidableEq, Repr

/-- What a frame test or a calibration works through (R370, R371, R405). -/
structure FrameTest where
  origin : Origin
  cal : Bool
  todo : List Nat
  failed : List Nat
  retry : Bool
  cur : Option Nat
  started : Bool
  wasState : FrameState
  passed : BitVec 16
  undrained : BitVec 16
deriving DecidableEq, Repr

/-! ## Snapshots, recorder, flash, telemetry -/

/-- The snapshot network: SNAP_CTRL and SNAP_STAT (R412), the trigger sampled and not yet captured (R409), and
the always-on edges for which SNAP_OUT stays high (R458). -/
structure Snap where
  en : Bool := false
  onFault : Bool := false
  inEn : Bool := false
  base : BitVec 38 := 0
  busy : Bool := false
  dropped : BitVec 8 := 0
  seq : BitVec 32 := 0
  cause : BitVec 4 := 0
  trig : Option Byte := none
  out : Nat := 0
deriving DecidableEq, Repr

/-- An event record on its way into the recorder (R415): type, severity, source, tenant and body. -/
structure EvRec where
  type : Byte
  sev : BitVec 2
  src : Byte
  tenant : Tenant
  body : Bytes
deriving DecidableEq, Repr

/-- The event recorder and the flash log (R413 to R425): input queue, ring as records with their logical offsets,
pointers, REC_INFO, the anchor, the window's flash bytes, the flush under way (its end offset) and one asked for,
the position in the log and whether its sector is full, erased sectors ahead, retired sectors, the erase under way, the flush
block with the pages of it still to be programmed, and whether it waits for an erased sector. -/
structure Recorder where
  queue : List EvRec := []
  ring : List (Nat × Bytes) := []
  head : BitVec 48 := 0
  tail : BitVec 48 := 0
  flushed : BitVec 48 := 0
  gen : BitVec 32 := 0
  lost : BitVec 16 := 0
  lostSince : Word := 0
  lossMark : Bool := false
  lossDue : Bool := false
  noFlash : Bool := false
  ready : Bool := false
  anch : Bool := false
  epoch : Bool := false
  anchorC : Word := 0
  anchorP : Word := 0
  curOffset : BitVec 48 := 0
  curFlash : Bool := false
  flashWin : Bytes := []
  scanning : Bool := false
  flushing : Option Nat := none
  flushAgain : Bool := false
  boot : BitVec 32 := 0
  seq : Word := 0
  pos : Nat := 0
  full : Bool := false
  erased : Nat := 0
  erasing : Bool := false
  retired : List Nat := []
  block : Bytes := []
  pagesLeft : Nat := 0
  stalled : Bool := false
deriving DecidableEq, Repr

/-- Telemetry (R406): TELEM_CTRL, TELEM_PERIOD, TM_SEQ and whether a block is not yet acknowledged; and the period's
highest levels. -/
structure Telem where
  en : Bool := false
  log2 : BitVec 4 := 4
  base : BitVec 48 := 0
  period : BitVec 16 := 1000
  seq : Word := 0
  busy : Bool := false
  levels : Store Nat := []
  throt : BitVec 32 := 0
deriving DecidableEq, Repr

/-- Registers that belong to no unit above: FLOW_CTRL (R209), SWARM_CTRL (R197), ARB_SEL (R225), the drop count of KNOCK
(R473), and the last answer on the control port (R455). -/
structure Regs where
  fcCap : BitVec 14 := 2048
  fcFabRes : BitVec 10 := 128
  fcWcap : BitVec 12 := 1024
  fcFabPrio : BitVec 3 := 4
  swWin : BitVec 2 := 2
  swEjectUs : BitVec 16 := 50
  arbFrame : BitVec 4 := 0
  arbReq : BitVec 7 := 0
  knockDrop : KnockDrop := {}
  reply : Word := 0
  replyErr : Bool := false
deriving DecidableEq, Repr

/-- The whole engine. -/
structure State where
  pending : List Instr := []
  ptime : Word := 0
  inp : StaticIn := {}
  keeper : Keeper := {}
  mboxes : Store Mailbox := []
  ctxs : Store Ctx := []
  readyQ : Store (List CtxNo) := []
  chans : Store Chan := []
  frames : Store Frame := []
  taps : Store Tap := []
  ports : Store Port := []
  spine : List SpineBeat := []
  swarms : Store Swarm := []
  expand : Store Expand := []
  /-- The swarm that a Keccak core was assigned to last (R184). -/
  expandAt : Nat := 3
  ksets : Store KeySet := []
  mods : Store ModEntry := []
  xlate : Xlate := {}
  tally : TallyUnit := {}
  fabric : Fabric := {}
  faults : Faults := {}
  sec : Sec := {}
  power : Power := {}
  ftest : Option FrameTest := none
  snap : Snap := {}
  recd : Recorder := {}
  telem : Telem := {}
  regs : Regs := {}
  /-- The model's own counter: the next free value is drawn at it. -/
  free : Nat := 0
  /-- The model's own counter: the next identity of a descriptor in progress or a walk. -/
  nextId : Nat := 0
deriving DecidableEq, Repr

/-- Reasons the model stops with a fault. No meaning raises one: every undefined access of the spec has an outcome in
State. The one constructor keeps the type closed and inhabited; safe, since no run meets it. -/
inductive Fault where
  /-- Raised by no meaning. -/
  | none
deriving DecidableEq, Repr

/-- Reasons the model refuses a command. -/
inductive Refusal where
  /-- Raised by exec for a command whose meaning is not written yet; safe. -/
  | notModelled (mnemonic : String)
deriving DecidableEq, Repr

/-- The machine right after reset: AO_RST_N low (R439), every register and record at the value the spec gives for
reset (the field defaults above; where it gives none, zero: DESIGN CHOICE, log entry 7), nothing open, no command waiting. The engine
starts when AO_RST_N is released (DESIGN CHOICE, log entry 6). -/
def State.reset : State :=
  { pending := [], ptime := 0, inp := {}, keeper := {}, mboxes := [], ctxs := [], readyQ := [], chans := [],
    frames := [], taps := [], ports := [], spine := [], swarms := [], expand := [], expandAt := 3, ksets := [], mods := [],
    xlate := {}, tally := {}, fabric := {}, faults := {}, sec := {}, power := {}, ftest := none, snap := {},
    recd := {}, telem := {}, regs := {}, free := 0, nextId := 0 }

end Sys2Proof.Machine
end

