-- ==== Sys2Proof/Machine/Bits.lean ====
section
/-! DEFINITION. Sparse tables, byte strings, little-endian words, bit fields and checksums: the plain operations every
other file uses. Byte order is decided here once (R3). -/
namespace Sys2Proof.Machine

/-! ## Sparse tables -/

/-- The entry at index `i`, or the default `d` where the table lists none. -/
def Store.get {α : Type} (d : α) : Store α → Nat → α
  | [], _ => d
  | (k, v) :: r, i => if k = i then v else Store.get d r i

/-- The table with index `i` removed. -/
def Store.erase {α : Type} : Store α → Nat → Store α
  | [], _ => []
  | (k, v) :: r, i => if k = i then Store.erase r i else (k, v) :: Store.erase r i

/-- The table with `v` put at index `i`, keys rising. -/
def Store.insert {α : Type} : Store α → Nat → α → Store α
  | [], i, v => [(i, v)]
  | (k, w) :: r, i, v =>
    if i < k then (i, v) :: (k, w) :: r
    else if k = i then (i, v) :: r
    else (k, w) :: Store.insert r i v

/-- Writes entry `i`: writing the default removes the entry, so equal tables are equal data. -/
def Store.set {α : Type} [DecidableEq α] (d : α) (m : Store α) (i : Nat) (v : α) : Store α :=
  if v = d then m.erase i else m.insert i v

/-- The keys rise strictly and lie above `lo`. -/
def Store.above {α : Type} : Nat → Store α → Bool
  | _, [] => true
  | lo, (k, _) :: r => decide (lo < k) && Store.above k r

/-- The canonical form: keys strictly rising, no entry equal to the default. -/
def Store.wf {α : Type} [DecidableEq α] (d : α) (m : Store α) : Bool :=
  (match m with
   | [] => true
   | (k, _) :: r => Store.above k r) && m.all (fun e => decide (e.2 ≠ d))

/-- Every listed entry changed by `f`, in the canonical form. -/
def Store.mapAll {α : Type} [DecidableEq α] (d : α) (f : Nat → α → α) (m : Store α) : Store α :=
  m.foldl (fun acc e => acc.set d e.1 (f e.1 e.2)) []

/-- The indices listed. -/
def Store.keys {α : Type} (m : Store α) : List Nat := m.map (·.1)

/-! ## Numbers, fields and bytes -/

/-- Bits `hi` to `lo` of a number. -/
def bits (w hi lo : Nat) : Nat := (w >>> lo) % 2 ^ (hi + 1 - lo)

/-- Bit `i` of a number. -/
def bit (w i : Nat) : Bool := w.testBit i

/-- A truth value as a bit. -/
def b2n (b : Bool) : Nat := if b then 1 else 0

/-- The bytes of a number, lowest first (R3). -/
def leBytes : Nat → Nat → Bytes
  | 0, _ => []
  | n + 1, w => BitVec.ofNat 8 w :: leBytes n (w / 256)

/-- The number that bytes spell, lowest first (R3). -/
def leNat : Bytes → Nat
  | [] => 0
  | b :: r => b.toNat + 256 * leNat r

/-- The bytes of a number, highest first. -/
def beBytes (n w : Nat) : Bytes := (leBytes n w).reverse

/-- The number that bytes spell, highest first. -/
def beNat (b : Bytes) : Nat := leNat b.reverse

/-- `n` zero bytes. -/
def zeros (n : Nat) : Bytes := List.replicate n 0

/-- Bytes `off` to `off + n - 1`; a byte past the end reads 0. -/
def slice (b : Bytes) (off n : Nat) : Bytes :=
  let x := (b.drop off).take n
  x ++ zeros (n - x.length)

/-- The number in bytes `off` to `off + n - 1`. -/
def leAt (b : Bytes) (off n : Nat) : Nat := leNat (slice b off n)

/-- Bits `hi` to `lo` of the number in bytes `off` to `off + n - 1`. -/
def fieldAt (b : Bytes) (off n hi lo : Nat) : Nat := bits (leAt b off n) hi lo

/-- The bytes with `x` written from `off` on. -/
def patch (b : Bytes) (off : Nat) (x : Bytes) : Bytes :=
  slice b 0 off ++ x ++ b.drop (off + x.length)

/-- The two's-complement reading of the low `w` bits. -/
def toSigned (w x : Nat) : Int :=
  let y := x % 2 ^ w
  if w = 0 then 0 else if y < 2 ^ (w - 1) then y else (y : Int) - 2 ^ w

/-- The low `w` bits of an integer in two's complement. -/
def ofSigned (w : Nat) (x : Int) : Nat := (x % (2 ^ w : Int)).toNat

/-- Unsigned number with saturation to `w` bits. -/
def satNat (w x : Nat) : Nat := min x (2 ^ w - 1)

/-- A counter of `w` bits raised by `n`, saturating. -/
def satAdd {w : Nat} (c : BitVec w) (n : Nat) : BitVec w := BitVec.ofNat w (satNat w (c.toNat + n))

/-- Rounded down to a multiple of `a`. -/
def alignDown (a x : Nat) : Nat := x - x % a

/-- Rounded up to a multiple of `a`. -/
def alignUp (a x : Nat) : Nat := (x + a - 1) / a * a

/-- `x` divided by `a`, rounded up. -/
def ceilDiv (x a : Nat) : Nat := (x + a - 1) / a

/-- Whether a number is a power of two. -/
def isPow2 (x : Nat) : Bool := x ≠ 0 && x &&& (x - 1) = 0

/-- The number of bits set among the low `n`. -/
def popcount (n w : Nat) : Nat := ((List.range n).filter (fun i => w.testBit i)).length

/-- The positions set among the low `n` bits, ascending. -/
def setBits (n w : Nat) : List Nat := (List.range n).filter (fun i => w.testBit i)

/-- The first element that satisfies `p`, replaced by its image; the rest unchanged. -/
def updateFirst {α : Type} (p : α → Bool) (f : α → α) : List α → List α
  | [] => []
  | x :: r => if p x then f x :: r else x :: updateFirst p f r

/-- The list with its first element that satisfies `p` removed. -/
def removeFirst {α : Type} (p : α → Bool) : List α → List α
  | [] => []
  | x :: r => if p x then r else x :: removeFirst p r

/-! ## Checksums -/

/-- One bit of the reflected CRC-32C (R230). -/
def crc32cBit (c : BitVec 32) : BitVec 32 := if c.getLsbD 0 then (c >>> 1) ^^^ 0x82F63B78#32 else c >>> 1

/-- One byte of CRC-32C (R230). -/
def crc32cStep (c : BitVec 32) (b : Byte) : BitVec 32 :=
  Nat.repeat crc32cBit 8 (c ^^^ b.setWidth 32)

/-- The running CRC-32C from `c` over bytes. -/
def crc32cFrom (c : BitVec 32) (b : Bytes) : BitVec 32 := b.foldl crc32cStep c

/-- CRC-32C with the parameters of R162. -/
def crc32c (b : Bytes) : BitVec 32 := crc32cFrom 0xFFFFFFFF#32 b ^^^ 0xFFFFFFFF#32

/-- One bit of CRC-64 (R230). -/
def crc64Bit (c : Word) : Word := if c.getLsbD 63 then (c <<< 1) ^^^ 0x42F0E1EBA9EA3693#64 else c <<< 1

/-- One byte of CRC-64 (R230). -/
def crc64Step (c : Word) (b : Byte) : Word := Nat.repeat crc64Bit 8 (c ^^^ (b.setWidth 64 <<< 56))

/-- The running CRC-64 from `c` over bytes. -/
def crc64From (c : Word) (b : Bytes) : Word := b.foldl crc64Step c

end Sys2Proof.Machine
end

