-- ==== Sys2Proof/Machine/Ops.lean ====
section
/-! DEFINITION. The named operations over the state that every family of commands shares: access to the records,
powered time, free values, event records (R415, R416), the fault collector (R374 to R384, R378) and the power and clock
handshakes (R390 to R392, R441). -/
namespace Sys2Proof.Machine

/-! ## Access to records -/

/-- Context `c`. -/
def State.ctx (s : State) (c : CtxNo) : Ctx := s.ctxs.get {} c.toNat
/-- Context `c` replaced. -/
def State.setCtx (s : State) (c : CtxNo) (x : Ctx) : State := { s with ctxs := s.ctxs.set {} c.toNat x }
/-- Context `c` changed by `f`. -/
def State.modCtx (s : State) (c : CtxNo) (f : Ctx → Ctx) : State := s.setCtx c (f (s.ctx c))
/-- Channel `n`. -/
def State.chan (s : State) (n : Nat) : Chan := s.chans.get {} n
/-- Channel `n` replaced. -/
def State.setChan (s : State) (n : Nat) (x : Chan) : State := { s with chans := s.chans.set {} n x }
/-- Frame `f`. -/
def State.frame (s : State) (f : Nat) : Frame := s.frames.get {} f
/-- Frame `f` replaced. -/
def State.setFrame (s : State) (f : Nat) (x : Frame) : State := { s with frames := s.frames.set {} f x }
/-- Frame `f` changed by `g`. -/
def State.modFrame (s : State) (f : Nat) (g : Frame → Frame) : State := s.setFrame f (g (s.frame f))
/-- Tap `t`. -/
def State.tap (s : State) (t : Nat) : Tap := s.taps.get {} t
/-- Tap `t` replaced. -/
def State.setTap (s : State) (t : Nat) (x : Tap) : State := { s with taps := s.taps.set {} t x }
/-- Feed port `p`. -/
def State.port (s : State) (p : Nat) : Port := s.ports.get {} p
/-- Feed port `p` replaced. -/
def State.setPort (s : State) (p : Nat) (x : Port) : State := { s with ports := s.ports.set {} p x }
/-- Mailbox `m`. -/
def State.mbox (s : State) (m : Nat) : Mailbox := s.mboxes.get {} m
/-- Mailbox `m` replaced. -/
def State.setMbox (s : State) (m : Nat) (x : Mailbox) : State := { s with mboxes := s.mboxes.set {} m x }
/-- Mailbox `m` changed by `f`. -/
def State.modMbox (s : State) (m : Nat) (f : Mailbox → Mailbox) : State := s.setMbox m (f (s.mbox m))
/-- Swarm `n`. -/
def State.swarm (s : State) (n : Nat) : Swarm := s.swarms.get {} n
/-- Swarm `n` replaced. -/
def State.setSwarm (s : State) (n : Nat) (x : Swarm) : State := { s with swarms := s.swarms.set {} n x }
/-- Key set `k`. -/
def State.kset (s : State) (k : KsetNo) : KeySet := s.ksets.get {} k.toNat
/-- Key set `k` replaced. -/
def State.setKset (s : State) (k : KsetNo) (x : KeySet) : State := { s with ksets := s.ksets.set {} k.toNat x }
/-- Modulus entry `i`. -/
def State.modulus (s : State) (i : Nat) : ModEntry := s.mods.get {} i
/-- Modulus entry `i` replaced. -/
def State.setModulus (s : State) (i : Nat) (x : ModEntry) : State := { s with mods := s.mods.set {} i x }
/-- Link `l`. -/
def State.link (s : State) (l : Nat) : Link := s.fabric.links.get {} l
/-- Link `l` replaced. -/
def State.setLink (s : State) (l : Nat) (x : Link) : State :=
  { s with fabric := { s.fabric with links := s.fabric.links.set {} l x } }
/-- Link `l` changed by `f`. -/
def State.modLink (s : State) (l : Nat) (f : Link → Link) : State := s.setLink l (f (s.link l))
/-- Partner chip `c`. -/
def State.partner (s : State) (c : ChipNo) : Partner := s.fabric.partners.get {} c.toNat
/-- Partner chip `c` replaced. -/
def State.setPartner (s : State) (c : ChipNo) (x : Partner) : State :=
  { s with fabric := { s.fabric with partners := s.fabric.partners.set {} c.toNat x } }
/-- Partner chip `c` changed by `f`. -/
def State.modPartner (s : State) (c : ChipNo) (f : Partner → Partner) : State := s.setPartner c (f (s.partner c))
/-- Smoker region `r`. -/
def State.region (s : State) (r : Nat) : Region := s.power.regions.get {} r
/-- Smoker region `r` replaced. -/
def State.setRegion (s : State) (r : Nat) (x : Region) : State :=
  { s with power := { s.power with regions := s.power.regions.set {} r x } }
/-- The keeper changed by `f`. -/
def State.modKeeper (s : State) (f : Keeper → Keeper) : State := { s with keeper := f s.keeper }
/-- The recorder changed by `f`. -/
def State.modRecd (s : State) (f : Recorder → Recorder) : State := { s with recd := f s.recd }
/-- The fault collector changed by `f`. -/
def State.modFaults (s : State) (f : Faults → Faults) : State := { s with faults := f s.faults }

/-- The numbers 0 to 15 of the frames. -/
def frameNos : List Nat := List.range 16

/-- The frame of channel `n`, of feed port `n / 16` and of tap `n / 4` (R8, R9). -/
def chanFrame (n : Nat) : Nat := n / 64

/-- Whether core `n` is present (R2, R450). -/
def State.corePresent (s : State) (n : Nat) : Bool := n < 256 && s.inp.present.getLsbD n

/-! ## Event records (R415, R416) -/

/-- A record that stands for no fault source. -/
def evInfo (type : Nat) (tenant : Tenant) (body : Bytes) : EvRec :=
  { type := BitVec.ofNat 8 type, sev := 0, src := 0xFF, tenant := tenant, body := body }

/-- Puts a record into the recorder's input queue of 64 records (R415). A record that finds the queue full is lost as
R422 says for one that finds no room (DEDUCED, log entry 12). -/
def State.event (s : State) (e : EvRec) : State :=
  if s.recd.queue.length < 64 then s.modRecd fun r => { r with queue := r.queue ++ [e] }
  else s.modRecd fun r => { r with lost := satAdd r.lost 1, lostSince := r.lostSince + 1, lossMark := true,
                                    lossDue := true }

/-- The descriptor record (type 0x03, R78): context, ring index, and bytes 120 to 126 as written. -/
def descEvent (c : CtxNo) (tenant : Tenant) (idx : BitVec 16) (status detail : BitVec 16) (progress : Nat) : EvRec :=
  evInfo 0x03 tenant (leBytes 4 c.toNat ++ leBytes 2 idx.toNat ++ leBytes 2 status.toNat ++ leBytes 2 detail.toNat ++
    leBytes 3 progress ++ zeros 3)

/-! ## The fault collector -/

/-- What a raising captures (R374, R381); `noTime` is an injection, whose FC_TIME is zero too (R387). -/
structure FaultCap where
  src : Nat
  mkind : Nat := 6
  mid : Nat := 0
  tenant : Tenant := 0
  access : Nat := 0
  sub : Nat := 0
  addr : Nat := 0
  space : Nat := 7
  noTime : Bool := false
deriving DecidableEq, Repr

/-- The reset configuration of a fault source in FLT_CFG's layout (R374, table Fault sources): severity in bits [1:0],
IRQ 4, NMI 5, PIN 8. -/
def fltCfgReset (n : Nat) : BitVec 9 :=
  if n < 16 then 0x112 else if n < 32 then 0x012
  else match n with
    | 32 => 0x001 | 33 => 0x012 | 34 => 0x001 | 35 => 0x132 | 36 => 0x001 | 37 => 0x012 | 38 => 0x001
    | 39 => 0x011 | 40 => 0x012 | 41 => 0x012 | 42 => 0x011 | 43 => 0x012 | 44 => 0x012 | 45 => 0x012
    | 46 => 0x032 | 47 => 0x112 | 48 => 0x011 | 49 => 0x012 | 50 => 0x001 | 51 => 0x133 | 52 => 0x133
    | 53 => 0x122 | 54 => 0x022 | 55 => 0x011 | 56 => 0x001 | 57 => 0x032 | 58 => 0x012 | 59 => 0x011
    | 60 => 0x011 | 61 => 0x011 | 62 => 0x133 | _ => 0x000

/-- The configuration of source `n` (R376). -/
def State.fltCfg (s : State) (n : Nat) : BitVec 9 := s.faults.cfg.get (fltCfgReset n) n

/-- Severity of source `n`: 0 ignore, 1 correctable, 2 recoverable, 3 fatal (R376). -/
def State.severity (s : State) (n : Nat) : Nat := bits (s.fltCfg n).toNat 1 0

/-- The word of FLT_CAP0 (R381), with bits 6 and 7 as given. -/
def cap0Word (c : FaultCap) (b6 b7 : Bool) : Word :=
  BitVec.ofNat 64 (c.src % 64 + b2n b6 * 2 ^ 6 + b2n b7 * 2 ^ 7 + c.mkind % 8 * 2 ^ 8 + c.mid % 2 ^ 18 * 2 ^ 16 +
    c.tenant.toNat * 2 ^ 34 + c.access % 16 * 2 ^ 46 + c.sub % 256 * 2 ^ 50)

/-- The word of FLT_CAP1 (R381). -/
def cap1Word (c : FaultCap) : Word := BitVec.ofNat 64 (c.addr % 2 ^ 57 + c.space % 8 * 2 ^ 57)

/-- Whether a capture is held: FC_VALID. -/
def Faults.valid (f : Faults) : Bool := f.cap0.getLsbD 6

/-- Whether a fault of source `src` takes the place of the one captured: both are latched in one always-on cycle, and its
source number is the lower (R381; DEDUCED, log entry 124). -/
def Faults.outranks (f : Faults) (src : Nat) (now : Word) : Bool :=
  f.valid && f.cap2 == now && decide (src < bits f.cap0.toNat 5 0)

/-- FLT_CAP0 to FLT_CAP2 filled (R381). -/
def Faults.fill (f : Faults) (c : FaultCap) (now : Word) : Faults :=
  { f with cap0 := cap0Word c true false, cap1 := cap1Word c, cap2 := if c.noTime then 0 else now }

/-- Capture or merge of a recoverable or fatal fault (R381, R382). -/
def Faults.capture (f : Faults) (c : FaultCap) (now : Word) : Faults :=
  if f.valid then
    let f := if f.outranks c.src now then f.fill c now else f
    { f with merges := satAdd f.merges 1, mergeSat := f.mergeSat || f.merges = 0xFFFF }
  else f.fill c now

/-- The error pin on a fault with FG_PIN (R384): a fault on a high pin starts a minimum, one during a minimum with
EP_HOLD 0 restarts it, one on a held pin changes nothing. -/
def Faults.pinFault (f : Faults) : Faults :=
  if f.pinLow && !f.pinMin then f else { f with pinLow := true, pinMin := true }

/-- The reactions of a fault that are not levels computed from FLT_STAT (R379): the pin, and the resets that wait for
the recorder's flush. A block reset called for before the keeper is ready again merges and starts none (R380). -/
def Faults.react (f : Faults) (cfg : BitVec 9) : Faults :=
  let f := if cfg.getLsbD 8 then f.pinFault else f
  let f := if cfg.getLsbD 6 && !f.brstRun then { f with brst := true } else f
  if cfg.getLsbD 7 then { f with crst := true } else f

/-- Every frame of the engine stops as R232 gives, with no channel named (R378). -/
def State.stopAllFrames (s : State) : State :=
  frameNos.foldl (fun t f => t.modFrame f fun x =>
    if x.stopped || x.draining then x else { x with draining := true, cause := {} }) s

/-- The halted state of a fatal fault (R378). -/
def State.halt (s : State) : State :=
  (s.modFaults fun f => { f with halted := true }).stopAllFrames

/-- A snapshot trigger with a cause (R408, R412): ignored with SC_EN 0; dropped while an image is being written or the
engine is asleep; otherwise sampled, the lowest cause of those that meet winning. -/
def State.snapTrigger (s : State) (cause : Nat) : State :=
  if !s.snap.en then s
  else if s.snap.busy || s.power.asleep then { s with snap := { s.snap with dropped := satAdd s.snap.dropped 1 } }
  else
    let c := match s.snap.trig with | none => cause | some k => min k.toNat cause
    { s with snap := { s.snap with trig := some (BitVec.ofNat 8 c) } }

/-- Asks the recorder for a flush (R421); FLUSH_START starts it. -/
def State.askFlush (s : State) : State := s.modRecd fun r => { r with flushAgain := true }

/-- The fault record of the source captured before, still in the input queue, shows that its fault merged after all (R381,
R416). -/
def State.recordMerged (s : State) : State :=
  let src := BitVec.ofNat 8 (bits s.faults.cap0.toNat 5 0)
  let mine (e : EvRec) : Bool := e.type == 0x02 && e.src == src && bit (leAt e.body 0 1) 6
  s.modRecd fun r => { r with queue := (updateFirst mine (fun e => { e with
    body := patch e.body 0 [(e.body.getD 0 0 &&& 0x3F) ||| 0x80] }) r.queue.reverse).reverse }

/-- A raising of a fault source (R375, R377, R381, R382): the status bit, then by severity the capture or merge, the
count of correctable faults, the event (`ev` where the rule records one of its own type, R416; none with `quiet`, for a rule whose own record follows
later), the flush, the reactions
and the halted state. A snapshot is triggered by a first capture when SC_ON_FAULT is 1 (R408). -/
def State.raiseWith (s : State) (c : FaultCap) (ev : Option EvRec) (quiet : Bool := false) : State :=
  let sev := s.severity c.src
  let cfg := s.fltCfg c.src
  let s := s.modFaults fun f => { f with stat := f.stat ||| BitVec.ofNat 64 (2 ^ (c.src % 64)) }
  if sev = 0 then s
  else
    let lower := decide (2 ≤ sev) && s.faults.outranks c.src s.ptime
    let first := decide (2 ≤ sev) && !s.faults.valid
    let merged := decide (2 ≤ sev) && s.faults.valid && !lower
    let s := if lower then s.recordMerged else s
    let s := if sev = 1 then s.modFaults fun f => { f with corr := satAdd f.corr 1 }
             else s.modFaults fun f => f.capture c s.ptime
    let rec0 : EvRec := ev.getD
      { type := 0x02, sev := 0, src := 0, tenant := c.tenant,
        body := leBytes 8 (cap0Word c (first || lower) merged).toNat ++ leBytes 8 (cap1Word c).toNat }
    let s := if quiet then s else s.event { rec0 with sev := BitVec.ofNat 2 sev, src := BitVec.ofNat 8 c.src }
    let s := s.modFaults fun f => f.react cfg
    let s := if 2 ≤ sev then s.askFlush else s
    let s := if first && s.snap.onFault then s.snapTrigger 3 else s
    if sev = 3 then s.halt else s

/-- A raising recorded as a fault record. -/
def State.raise (s : State) (c : FaultCap) : State := s.raiseWith c none

/-- FAULT_IRQ (R379): some raised source asks for the interrupt and is not ignored. -/
def State.faultIrq (s : State) : Bool :=
  (List.range 64).any fun n => s.faults.stat.getLsbD n && (s.fltCfg n).getLsbD 4 && s.severity n != 0

/-- FAULT_NMI (R379). -/
def State.faultNmi (s : State) : Bool :=
  (List.range 64).any fun n => s.faults.stat.getLsbD n && (s.fltCfg n).getLsbD 5 && s.severity n != 0

/-- ERR_OUT_N is low (R384). -/
def State.errPinLow (s : State) : Bool := s.faults.pinLow || s.faults.pinForce

/-- The tenant alarm of a rule (R416, type 0x04, and source 55): rule 1 mailbox, 2 tile, 3 key set, 4 receiver; master
kind and id, the key set, and an address or object. -/
def State.tenantAlarm (s : State) (rule mkind mid : Nat) (tenant : Tenant) (kset : Nat) (obj : Nat) : State :=
  s.raiseWith { src := 55, mkind := mkind, mid := mid, tenant := tenant, sub := rule, addr := tenant.toNat }
    (some { type := 0x04, sev := 0, src := 0, tenant := tenant,
            body := [BitVec.ofNat 8 rule, BitVec.ofNat 8 mkind] ++ leBytes 4 mid ++ leBytes 2 kset ++
              leBytes 8 obj })

/-- A refused access of the control port (R456, R374 source 61): the width in bytes and the offset. -/
def State.cpFault (s : State) (width off : Nat) : State :=
  s.raise { src := 61, sub := width, addr := off, access := 13 }

/-- A write of a table that injection has spoiled (R387), judged as its word would be when it is read (R385): one flip is
corrected with source 38; two raise source 37, and `gone` does what becomes of the entry. `sub` names the table. -/
def State.tableWritten (s : State) (sub idx : Nat) (gone : State → State) : State :=
  let n := s.faults.flipTable
  if n = 0 then s
  else
    let s := s.modFaults fun f => { f with flipTable := 0 }
    if n = 1 then s.raise { src := 38, sub := sub, addr := idx } else gone (s.raise { src := 37, sub := sub, addr := idx })

/-! ## Power and clock requests -/

/-- Bit `i` of a vector set. -/
def setBit {w : Nat} (v : BitVec w) (i : Nat) : BitVec w := v ||| BitVec.ofNat w (2 ^ i)

/-- Bit `i` of a vector cleared. -/
def clearBit {w : Nat} (v : BitVec w) (i : Nat) : BitVec w := v &&& ~~~(BitVec.ofNat w (2 ^ i))

/-- Requests power domain `d`; never raised again before its acknowledgement has fallen (R441). -/
def State.powerUp (s : State) (d : Nat) : State :=
  if s.power.req.getLsbD d || s.power.ack.getLsbD d then s
  else { s with power := { s.power with req := setBit s.power.req d } }

/-- Releases power domain `d`; never lowered before its acknowledgement has risen (R441). -/
def State.powerDown (s : State) (d : Nat) : State :=
  if s.power.ack.getLsbD d then { s with power := { s.power with req := clearBit s.power.req d } } else s

/-- Requests clock branch `i` (R441). -/
def State.clockUp (s : State) (i : Nat) : State :=
  if s.power.clkReq.getLsbD i || s.power.clkAck.getLsbD i then s
  else { s with power := { s.power with clkReq := setBit s.power.clkReq i } }

/-- Releases clock branch `i` (R441). -/
def State.clockDown (s : State) (i : Nat) : State :=
  if s.power.clkAck.getLsbD i then { s with power := { s.power with clkReq := clearBit s.power.clkReq i } } else s

/-- Requests retention of domain `d` (R441). -/
def State.retainUp (s : State) (d : Nat) : State :=
  if s.power.ret.getLsbD d || s.power.retAck.getLsbD d then s
  else { s with power := { s.power with ret := setBit s.power.ret d } }

/-- Ends retention of domain `d`; never before its acknowledgement has risen (R441). -/
def State.retainDown (s : State) (d : Nat) : State :=
  if s.power.retAck.getLsbD d then { s with power := { s.power with ret := clearBit s.power.ret d } } else s

/-- Whether domain `d` is requested and powered, so that its reset and isolation are released (R441). -/
def State.domainOn (s : State) (d : Nat) : Bool :=
  d = 65 || s.power.req.getLsbD d && s.power.ack.getLsbD d

/-- Whether clock branch `i` runs (R441). -/
def State.clockOn (s : State) (i : Nat) : Bool := s.power.clkReq.getLsbD i && s.power.clkAck.getLsbD i

/-- The domains of frame `f`: logic, pantry and transform pipeline (R392). -/
def frameDomains (f : Nat) : List Nat := [f, f + 16, f + 32]

/-- Frame `f` is zeroised and powered off (R224, R244, R356, R395, R397). -/
def State.frameOff (s : State) (f : Nat) : State :=
  let s := s.modFrame f fun x => { x with state := .off, waking := false, scales := false, scaleRegs := [], tlb := [],
                                          stats := [], waits := [], slots := [], scrubAt := 0 }
  (frameDomains f).foldl (fun t d => (t.retainDown d).powerDown d) (s.clockDown f)

/-- Whether the control port reaches the registers outside the always-on domain: domain 64 is powered (R436, R456). -/
def State.cpAwake (s : State) : Bool := s.domainOn 64

/-- Whether the keeper executes verbs: STATE 2 (R426, R472). -/
def State.keeperReady (s : State) : Bool := s.keeper.state == 2

/-- Whether test unit `u` is marked failed (R367). -/
def State.unitFailed (s : State) (u : Nat) : Bool := s.sec.failed.getLsbD u

/-- Whether test unit `u` has passed (R368). -/
def State.unitPassed (s : State) (u : Nat) : Bool := s.sec.passed.getLsbD u

/-- The next free value's index; the counter advances. -/
def State.draw (s : State) : Nat × State := (s.free, { s with free := s.free + 1 })

/-- A fresh identity for a descriptor in progress or a walk. -/
def State.fresh (s : State) : Nat × State := (s.nextId, { s with nextId := s.nextId + 1 })

/-! ## The memory ports' writes of a verb or of the keeper -/

/-- Queues a request on the keeper memory port (R476). -/
def State.kmPush (s : State) (r : KmReq) : State := s.modKeeper fun k => { k with kmq := k.kmq ++ [r] }

/-- The requests that cover bytes [addr, addr + len): one for each aligned 256 B block (R476). -/
def kmBlocks (addr len : Nat) : List (Nat × Nat) :=
  (List.range ((addr % 256 + len + 255) / 256)).map fun i =>
    let lo := max addr (alignDown 256 addr + 256 * i)
    let hi := min (addr + len) (alignDown 256 addr + 256 * (i + 1))
    (lo, hi - lo)

/-- Queues the writes of bytes at an address. -/
def State.kmWrite (s : State) (o : KmOwner) (addr : Nat) (b : Bytes) : State :=
  (kmBlocks addr b.length).foldl (fun t p => t.kmPush ⟨o, p.1, p.2, true, slice b (p.1 - addr) p.2⟩) s

end Sys2Proof.Machine
end

