-- ==== Sys2Proof/Machine/Box.lean ====
section
/-! DEFINITION. Tensor boxes (R88 to R118): the fields of a COPY descriptor, where each element is read and written,
hulls, units and the order of box checks. -/
namespace Sys2Proof.Machine

/-! ## Address words and element codes -/

/-- An address word (R88): ADDR and SPACE. -/
structure AddrWord where
  addr : Nat
  space : Nat
deriving DecidableEq, Repr

/-- The address word a 64-bit word holds. -/
def addrWord (w : Nat) : AddrWord := { addr := bits w 56 0, space := bits w 59 57 }

/-- Whether an address word has a reserved bit set: bits [63:60], and the bits of ADDR that its space leaves unused
(R88, R89). -/
def addrWordRsv (w : Nat) : Nat :=
  match bits w 59 57 with
  | 1 => w &&& 0xF1FF000000000000
  | 2 => w &&& 0xF1FFFE0000000000
  | 4 => w &&& 0xF100000000000000
  | _ => w &&& 0xF000000000000000

/-- The core a scratchpad address names. -/
def AddrWord.core (a : AddrWord) : Nat := bits a.addr 39 32
/-- STREAM of a scratchpad address (R90). -/
def AddrWord.stream (a : AddrWord) : Bool := a.space = 2 && bit a.addr 40
/-- Window number of a remote-window address. -/
def AddrWord.window (a : AddrWord) : Nat := bits a.addr 50 43
/-- Chip number of a remote-window address. -/
def AddrWord.chip (a : AddrWord) : Nat := bits a.addr 56 51
/-- The address inside the space: the offset for spaces 2 and 3. -/
def AddrWord.base (a : AddrWord) : Nat :=
  if a.space = 2 then bits a.addr 31 0 else if a.space = 3 then bits a.addr 42 0 else a.addr

/-- Whether an element code is planar (R92). -/
def isPlanar (code : Nat) : Bool := decide (9 ≤ code) && decide (code ≤ 12)
/-- Whether an element code is defined (R92). -/
def elemDefined (code : Nat) : Bool := decide (code ≤ 3) || isPlanar code
/-- Element size in bytes of a byte code; 1 for a planar code, whose rows are counted in bytes of a plane. -/
def elemBytes (code : Nat) : Nat := if isPlanar code then 1 else 2 ^ (code % 4)
/-- Element width in bits (R92). -/
def elemBits (code : Nat) : Nat := if isPlanar code then code - 8 else 8 * 2 ^ (code % 4)
/-- The number of planes of a side: 1 for a byte side. -/
def planes (code : Nat) : Nat := if isPlanar code then code - 8 else 1

/-! ## The box (R94, R95) -/

/-- A box: the fields of the tables Address word, Box section and Extension slot. Strides of dimension 0 are not
fields. -/
structure Box where
  src : AddrWord
  dst : AddrWord
  hasExt : Bool
  inPlace : Bool
  ndim : Nat
  bcast0 : Bool
  selem : Nat
  delem : Nat
  padMode : Nat
  whisk : Bool
  clamp : Bool
  list : Nat
  mcast : Bool
  mcastLast : Nat
  exts : List Nat
  sstr : List Int
  dstr : List Int
  planeStride : Int
  lead : List Nat
  trail : List Nat
  start : List Int
  bound : List Nat
  listAddr : AddrWord
  listCount : Nat
  listStride : Int
  padValue : Nat
deriving DecidableEq, Repr

/-- The box of a COPY's main entry and extension slot (empty without EXT). -/
def parseBox (e x : Bytes) : Box :=
  let ctl := leAt e 24 8
  { src := addrWord (leAt e 8 8), dst := addrWord (leAt e 16 8), hasExt := bit (leAt e 2 2) 1,
    inPlace := bit (leAt e 2 2) 4, ndim := bits ctl 2 0, bcast0 := bit ctl 3, selem := bits ctl 7 4,
    delem := bits ctl 11 8, padMode := bits ctl 13 12, whisk := bit ctl 14, clamp := bit ctl 15,
    list := bits ctl 17 16, mcast := bit ctl 18, mcastLast := bits ctl 27 20,
    exts := [leAt e 32 4, leAt e 36 4, leAt e 40 4, leAt e 44 4, leAt x 0 4, leAt x 4 4],
    sstr := [0, toSigned 48 (leAt e 48 6), toSigned 48 (leAt e 54 6), toSigned 48 (leAt e 60 6),
             toSigned 48 (leAt x 8 6), toSigned 48 (leAt x 14 6)],
    dstr := [0, toSigned 48 (leAt e 66 6), toSigned 48 (leAt e 72 6), toSigned 48 (leAt e 78 6),
             toSigned 48 (leAt x 20 6), toSigned 48 (leAt x 26 6)],
    planeStride := toSigned 32 (leAt e 84 4),
    lead := (List.range 4).map fun k => leAt x (32 + 2 * k) 2,
    trail := (List.range 4).map fun k => leAt x (40 + 2 * k) 2,
    start := (List.range 4).map fun k => toSigned 32 (leAt x (48 + 4 * k) 4),
    bound := (List.range 4).map fun k => leAt x (64 + 4 * k) 4,
    listAddr := addrWord (leAt x 80 8), listCount := leAt x 88 2, listStride := toSigned 48 (leAt x 90 6),
    padValue := leAt x 96 8 }

/-- EXT of dimension `k` for a box index: 1 at or above NDIM. -/
def Box.ext (b : Box) (k : Nat) : Nat := if k < b.ndim then b.exts.getD k 1 else 1
/-- LEAD of dimension `k`. -/
def Box.leadOf (b : Box) (k : Nat) : Nat := b.lead.getD k 0
/-- TRAIL of dimension `k`. -/
def Box.trailOf (b : Box) (k : Nat) : Nat := b.trail.getD k 0
/-- START of dimension `k`. -/
def Box.startOf (b : Box) (k : Nat) : Int := b.start.getD k 0
/-- BOUND of dimension `k`. -/
def Box.boundOf (b : Box) (k : Nat) : Nat := b.bound.getD k 0
/-- The dimensions below NDIM. -/
def Box.dims (b : Box) : List Nat := List.range b.ndim
/-- The dimensions below NDIM on which padding, slicing, bounds and lists act. -/
def Box.lowDims (b : Box) : List Nat := List.range (min b.ndim 4)
/-- Whether the destination is the stream form (R90). -/
def Box.stream (b : Box) : Bool := b.dst.stream
/-- Whether a source of the list's kind is a gather. -/
def Box.gather (b : Box) : Bool := b.list = 1
/-- Whether the list is a scatter. -/
def Box.scatter (b : Box) : Bool := b.list = 2

/-- Source stride of dimension `k` in bytes (R94, R96); dimension 0 of a planar side is counted in elements. -/
def Box.sstride (b : Box) (k : Nat) : Int :=
  if k = 0 then (if b.bcast0 then 0 else (elemBytes b.selem : Int)) else b.sstr.getD k 0

/-- Destination stride of dimension `k` in bytes (R96): under WHISK the innermost row runs along dimension 1 and
DST_STRIDE1 separates rows of dimension 0. -/
def Box.dstride (b : Box) (k : Nat) : Int :=
  let e : Int := elemBytes b.delem
  if b.whisk && 1 < b.ndim then (if k = 0 then b.dstr.getD 1 0 else if k = 1 then e else b.dstr.getD k 0)
  else if k = 0 then e else b.dstr.getD k 0

/-- Size in bytes of a space (R89): what the integration signals for spaces 1 and 2, and the offset's form for a remote
window, whose table the receiver checks (DEDUCED, log entry 21). -/
def spaceSize (inp : StaticIn) (space : Nat) : Nat :=
  match space with
  | 0 => 2 ^ 57
  | 1 => inp.shcMib.toNat * 2 ^ 20
  | 2 => 2 ^ inp.spadLog2.toNat
  | 3 => 2 ^ 43
  | _ => 2 ^ 56

/-! ## Where each element goes (R96) -/

/-- What happens at one box position: nothing, a pad element at a destination, an element moved, or a failure. An
address is that of a byte in plane 0 with the bit in it (R93). -/
inductive Place where
  | drop
  | pad (d : Int) (db : Nat)
  | move (s : Int) (sb : Nat) (d : Int) (db : Nat)
  | bad (status detail : Nat)
deriving DecidableEq, Repr

/-- A list entry as used: no list, a null entry (R110), or coordinates. -/
inductive Entry where
  | plain
  | null
  | coords (c : List Nat)
deriving DecidableEq, Repr

/-- Coordinate `k` of an entry. -/
def Entry.coord : Entry → Nat → Nat
  | .coords c, k => c.getD k 0
  | _, _ => 0

/-- The byte and bit of an index along the innermost dimension (R93). -/
def innerByte (code : Nat) (x : Int) (stride : Int) : Int × Nat :=
  if isPlanar code then (x / 8, (x % 8).toNat) else (x * stride, 0)

/-- Whether the bytes of an element at `a` lie in its space, all planes included. -/
def inSpace (code : Nat) (ps : Int) (size : Nat) (a : Int) : Bool :=
  (List.range (planes code)).all fun p =>
    decide (0 ≤ a + p * ps) && decide (a + p * ps + elemBytes code ≤ size)

/-- A value as the pseudocode's int64_t holds it (R6). -/
def int64 (x : Int) : Int := (x + 2 ^ 63) % 2 ^ 64 - 2 ^ 63

/-- The pseudocode of R96 for box index `j` and list entry `m`. -/
def Box.place (b : Box) (inp : StaticIn) (m : Nat) (c : Entry) (j : List Nat) : Place :=
  let jk (k : Nat) : Nat := j.getD k 0
  let sIdx (k : Nat) : Int :=
    if k < 4 then b.startOf k + jk k - b.leadOf k + (if b.gather then (c.coord k : Int) else 0) else jk k
  let dIdx (k : Nat) : Int := jk k + (if b.scatter && k < 4 then (c.coord k : Int) else 0)
  let pad := b.lowDims.any fun k => decide (jk k < b.leadOf k) || decide (b.ext k - b.trailOf k ≤ jk k)
  let oob := b.lowDims.any fun k =>
    let x := if b.scatter then dIdx k else sIdx k
    b.boundOf k ≠ 0 && (decide (x < 0) || decide ((b.boundOf k : Int) ≤ x))
  let outer (k : Nat) : Bool := k ≠ 0
  let si := innerByte b.selem (sIdx 0) (b.sstride 0)
  let src := int64 (b.src.base + si.1 + ((b.dims.filter outer).map fun k => sIdx k * b.sstride k).sum +
    (if b.scatter then (m : Int) * b.listStride else 0))
  let di := if isPlanar b.delem then innerByte b.delem (dIdx 0) 1 else (dIdx 0 * b.dstride 0, 0)
  let dst := int64 (b.dst.base + di.1 + ((b.dims.filter outer).map fun k => dIdx k * b.dstride k).sum +
    (if b.gather then (m : Int) * b.listStride else 0))
  let dOut := !b.stream && b.scatter && !inSpace b.delem b.planeStride (spaceSize inp b.dst.space) dst
  let fill : Place := if b.padMode = 1 then .drop else if dOut then .bad 0x0303 7 else .pad dst di.2
  let sOut := b.gather && !inSpace b.selem b.planeStride (spaceSize inp b.src.space) src
  if b.scatter && c = .null then .drop
  else if b.scatter && oob then (if b.clamp then .drop else .bad 0x0305 m)
  else if pad || (b.gather && c = .null) then fill
  else if oob then (if b.clamp then fill else .bad (if b.list = 0 then 0x0303 else 0x0305) m)
  else if sOut then .bad 0x0303 6
  else if dOut then .bad 0x0303 7
  else .move src si.2 dst di.2

/-! ## Hulls (R113) -/

/-- A range of bytes: lowest and highest address. -/
structure Hull where
  lo : Int
  hi : Int
deriving DecidableEq, Repr

/-- The hull of an address and (stride, lowest index, highest index) of each dimension, with `e` bytes at each place;
none when a range is empty. -/
def hullOf (base : Int) (e : Nat) (l : List (Int × Int × Int)) : Option Hull :=
  if l.any fun d => decide (d.2.2 < d.2.1) then none
  else some
    { lo := base + (l.map fun d => min (d.1 * d.2.1) (d.1 * d.2.2)).sum,
      hi := base + (l.map fun d => max (d.1 * d.2.1) (d.1 * d.2.2)).sum + e - 1 }

/-- A dimension's (stride, range), with dimension 0 of a planar side in bytes, eight indices each. -/
def hullDim (code : Nat) (k : Nat) (stride lo hi : Int) : Int × Int × Int :=
  if k = 0 && isPlanar code then (1, lo / 8, if hi < lo then lo / 8 - 1 else hi / 8) else (stride, lo, hi)

/-- The planes of a side as a further dimension. -/
def planeDim (code : Nat) (ps : Int) : Int × Int × Int := (ps, 0, (planes code : Int) - 1)

/-- The range of source indices of dimension `k` that valid positions name, before bounds. -/
def Box.validRange (b : Box) (k : Nat) : Int × Int :=
  if k < 4 then (b.startOf k, b.startOf k + b.ext k - b.leadOf k - b.trailOf k - 1) else (0, (b.ext k : Int) - 1)

/-- A range cut to [0, bound) where a bound is set. -/
def cutRange (bound : Nat) (r : Int × Int) : Int × Int :=
  if bound = 0 then r else (max r.1 0, min r.2 ((bound : Int) - 1))

/-- Whether some listed dimension is unbounded. -/
def Box.unbounded (b : Box) : Bool := b.lowDims.any fun k => b.boundOf k = 0

/-- The whole of a space. -/
def wholeSpace (inp : StaticIn) (space : Nat) : Option Hull := some ⟨0, (spaceSize inp space : Int) - 1⟩

/-- The packed side's dimension of list entries. -/
def Box.listDim (b : Box) : Int × Int × Int := (b.listStride, 0, (b.listCount : Int) - 1)

/-- A tagged side's hull also covers the 32 B below each tile origin (R165): `o` is the hull of the first bytes of the
origins. -/
def tagHull (tagged : Bool) (o h : Option Hull) : Option Hull :=
  match tagged, o, h with
  | true, some x, some y => some ⟨min y.lo (x.lo - 32), max y.hi (x.hi - 1)⟩
  | _, _, _ => h

/-- The dimensions that tile origins range over: `t` and above, or none inside one list block (R152). -/
def Box.originDims (b : Box) (t : Nat) : List Nat := b.dims.filter fun k => decide (t ≤ k)

/-- The source hull (R113, R165); `tag` is TILE_DIMS of a tagged source. -/
def Box.srcHull (b : Box) (inp : StaticIn) (tag : Option Nat := none) : Option Hull :=
  let dim (r : Nat → Int × Int) (k : Nat) := hullDim b.selem k (b.sstride k) (r k).1 (r k).2
  let pl := planeDim b.selem b.planeStride
  let mk (l : List (Int × Int × Int)) := hullOf b.src.base (elemBytes b.selem) (pl :: l)
  let og (l : List (Int × Int × Int)) := hullOf b.src.base 1 l
  if b.gather then
    if b.unbounded then wholeSpace inp b.src.space
    else
      let l := b.dims.map (dim fun k => (0, (b.boundOf k : Int) - 1))
      tagHull tag.isSome (og l) (mk l)
  else if b.scatter then
    tagHull tag.isSome (og [b.listDim])
      (mk (b.listDim :: b.dims.map (dim fun k => (0, (b.ext k : Int) - b.leadOf k - b.trailOf k - 1))))
  else
    let r := dim fun k => cutRange (b.boundOf k) (b.validRange k)
    tagHull tag.isSome (og ((b.originDims (tag.getD 0)).map r)) (mk (b.dims.map r))

/-- The destination hull (R113, R165); none for the stream form. -/
def Box.dstHull (b : Box) (inp : StaticIn) (tag : Option Nat := none) : Option Hull :=
  let dim (r : Nat → Int × Int) (k : Nat) := hullDim b.delem k (b.dstride k) (r k).1 (r k).2
  let all (k : Nat) : Int × Int := (0, (b.ext k : Int) - 1)
  let pl := planeDim b.delem b.planeStride
  let mk (l : List (Int × Int × Int)) := hullOf b.dst.base (elemBytes b.delem) (pl :: l)
  let og (l : List (Int × Int × Int)) := hullOf b.dst.base 1 l
  if b.stream then none
  else if b.scatter then
    if b.unbounded then wholeSpace inp b.dst.space
    else
      let l := b.dims.map (dim fun k => (0, (b.boundOf k : Int) - 1))
      tagHull tag.isSome (og l) (mk l)
  else if b.gather then tagHull tag.isSome (og [b.listDim]) (mk (b.listDim :: b.dims.map (dim all)))
  else tagHull tag.isSome (og ((b.originDims (tag.getD 0)).map (dim all))) (mk (b.dims.map (dim all)))

/-- Whether a hull lies in its space (order 8 of the table Box checks). -/
def hullFits (inp : StaticIn) (space : Nat) : Option Hull → Bool
  | none => true
  | some h => decide (0 ≤ h.lo) && decide (h.hi < spaceSize inp space)

/-- Whether two hulls meet. -/
def hullsMeet : Option Hull → Option Hull → Bool
  | some a, some b => decide (a.lo ≤ b.hi) && decide (b.lo ≤ a.hi)
  | _, _ => false

/-- Whether the two sides lie in one space (R114); a multicast's destination is every core of its range. -/
def Box.oneSpace (b : Box) : Bool :=
  b.src.space = b.dst.space &&
    (if b.src.space = 2 then
       (if b.mcast then decide (b.dst.core ≤ b.src.core) && decide (b.src.core ≤ b.mcastLast)
        else b.src.core = b.dst.core)
     else if b.src.space = 3 then b.src.chip = b.dst.chip && b.src.window = b.dst.window
     else true)

/-- Whether a box has no pad, start, bound, list, broadcast or multicast. -/
def Box.bare (b : Box) : Bool :=
  b.lead.all (· = 0) && b.trail.all (· = 0) && b.start.all (· = 0) && b.bound.all (· = 0) && b.list = 0 &&
    !b.bcast0 && !b.mcast

/-- Whether some dimension repeats its source elements (R105). -/
def Box.repeats (b : Box) : Bool := b.dims.any fun k => b.sstride k = 0 && decide (1 < b.ext k)

/-- The identical boxes of R114. -/
def Box.identical (b : Box) : Bool :=
  b.src = b.dst && b.selem = b.delem && b.bare && !b.repeats && !b.whisk && b.dims.all fun k => b.sstride k = b.dstride k

/-- The conditions of an in-place transpose (R116). -/
def Box.inPlaceOk (b : Box) : Bool :=
  b.whisk && b.ndim = 2 && b.ext 0 = b.ext 1 && b.src = b.dst && b.src.space ≠ 3 && !b.src.stream &&
    b.selem = b.delem && !isPlanar b.selem && b.sstr.getD 1 0 = b.dstr.getD 1 0 && b.bare &&
    decide (b.ext 0 * b.ext 1 * elemBytes b.selem ≤ 2 ^ 21)

/-- Whether the planes of a planar destination meet one another (R114). -/
def Box.planesMeet (b : Box) (inp : StaticIn) : Bool :=
  isPlanar b.delem && decide (1 < planes b.delem) && !b.stream &&
    match { b with planeStride := 0 }.dstHull inp with
    | some h => decide (b.planeStride.natAbs ≤ (h.hi - h.lo).natAbs)
    | none => false

/-! ## Units (R117) -/

/-- The unit kinds of R117; `whole` is the one unit of an in-place transpose, which has no resume point inside
(R83, R116). -/
inductive UnitKind where
  | whole
  | entry
  | tile (t : Nat)
  | block (n : Nat)
  | row
deriving DecidableEq, Repr

/-- The kind of a box's units by the order of R117: `tiles` is the number of dimensions of a tile where units are tiles. -/
def Box.ruleKind (b : Box) (tiles : Option Nat) : UnitKind :=
  if b.list ≠ 0 then .entry
  else match tiles with
  | some t => .tile t
  | none => if b.whisk then .block (256 / elemBytes b.delem) else .row

/-- The kind of a box's units as they run: an in-place transpose runs as one (R83, R116). -/
def Box.unitKind (b : Box) (tiles : Option Nat) : UnitKind := if b.inPlace then .whole else b.ruleKind tiles

/-- The product of the extents of dimensions `k` and above. -/
def Box.outerCount (b : Box) (k : Nat) : Nat := ((List.range 6).drop k).foldl (fun a i => a * b.ext i) 1

/-- The product of the extents of dimensions below `k`. -/
def Box.innerCount (b : Box) (k : Nat) : Nat := (List.range k).foldl (fun a i => a * b.ext i) 1

/-- The number of units. -/
def Box.unitCount (b : Box) : UnitKind → Nat
  | .whole => 1
  | .entry => b.listCount
  | .tile t => b.outerCount t
  | .block n => ceilDiv (b.ext 0) n * ceilDiv (b.ext 1) n * b.outerCount 2
  | .row => b.outerCount 1

/-- The indices of dimensions `k` to 5 that a mixed-radix number names, lowest dimension first. -/
def Box.outerIdx (b : Box) (k u : Nat) : List Nat :=
  (((List.range 6).drop k).foldl (fun p i => (p.1 ++ [p.2 % max 1 (b.ext i)], p.2 / max 1 (b.ext i))) (([] : List Nat), u)).1

/-- The extents of the block that unit `u` of whisk blocks names, and its first indices. -/
def Box.blockOf (b : Box) (n u : Nat) : (Nat × Nat) × (Nat × Nat) :=
  let b0 := u % ceilDiv (b.ext 0) n
  let b1 := u / ceilDiv (b.ext 0) n % ceilDiv (b.ext 1) n
  ((b0 * n, min n (b.ext 0 - b0 * n)), (b1 * n, min n (b.ext 1 - b1 * n)))

/-- The number of positions of a unit. -/
def Box.unitSize (b : Box) (k : UnitKind) (u : Nat) : Nat :=
  match k with
  | .whole | .entry => b.outerCount 0
  | .tile t => b.innerCount t
  | .block n => (b.blockOf n u).1.2 * (b.blockOf n u).2.2
  | .row => b.ext 0

/-- The box index of the position numbered `i` in unit `u`, in destination order (R98). -/
def Box.posAt (b : Box) (k : UnitKind) (u i : Nat) : List Nat :=
  match k with
  | .whole | .entry =>
    if b.whisk then
      let r := i / b.ext 1
      (r % max 1 (b.ext 0)) :: (i % max 1 (b.ext 1)) :: b.outerIdx 2 (r / max 1 (b.ext 0))
    else b.outerIdx 0 i
  | .tile t => (b.outerIdx 0 i).take t ++ b.outerIdx t u
  | .block n =>
    let p := b.blockOf n u
    let v := u / (ceilDiv (b.ext 0) n * ceilDiv (b.ext 1) n)
    (p.1.1 + i / max 1 p.2.2) :: (p.2.1 + i % max 1 p.2.2) :: b.outerIdx 2 v
  | .row => i :: b.outerIdx 1 u

/-- The length of the run of positions that one innermost destination row holds from position `i` on. -/
def Box.rowLeft (b : Box) (k : UnitKind) (u i : Nat) : Nat :=
  let n := match k with
    | .block n => (b.blockOf n u).2.2
    | .whole | .entry => if b.whisk then b.ext 1 else b.ext 0
    | _ => b.ext 0
  n - i % max 1 n

/-! ## The order of box checks (R118) -/

/-- Whether dimension `k`'s fields break order 2 of the table Box checks. -/
def Box.dimBad (b : Box) (k : Nat) : Bool :=
  if k < b.ndim then b.exts.getD k 0 = 0 || (decide (k < 4) && decide (b.ext k < b.leadOf k + b.trailOf k))
  else b.exts.getD k 0 ≠ 0 || b.sstr.getD k 0 ≠ 0 || b.dstr.getD k 0 ≠ 0 || b.leadOf k ≠ 0 || b.trailOf k ≠ 0 ||
    b.startOf k ≠ 0 || b.boundOf k ≠ 0

/-- Whether the planar constraints of R93 are broken. -/
def Box.planarBad (b : Box) : Bool :=
  let any := isPlanar b.selem || isPlanar b.delem
  (any && (b.ext 0 % 8 ≠ 0 || b.startOf 0 % 8 ≠ 0 || b.leadOf 0 % 8 ≠ 0 || b.trailOf 0 % 8 ≠ 0 || b.boundOf 0 % 8 ≠ 0 ||
    b.bcast0 || b.whisk || b.inPlace)) ||
  (isPlanar b.selem && isPlanar b.delem && b.selem ≠ b.delem) || (!any && b.planeStride ≠ 0)

/-- Whether the mode combinations of order 4 are broken. -/
def Box.modeBad (b : Box) : Bool :=
  b.padMode = 3 || b.list = 3 || b.src.stream || (b.stream && b.dst.base ≠ 0) || (b.padMode = 2 && !b.stream) ||
  (!b.mcast && b.mcastLast ≠ 0) ||
  (b.mcast && (decide (b.mcastLast < b.dst.core) || b.scatter || b.dst.space ≠ 2)) ||
  (b.whisk && (decide (b.ndim < 2) || isPlanar b.selem || isPlanar b.delem)) ||
  (b.list ≠ 0 && (decide (4 < b.ndim) || b.listCount = 0 || (b.scatter && b.start.any (· ≠ 0))))

/-- Whether a side's rows are misaligned (R99). -/
def Box.misaligned (b : Box) (dst : Bool) : Bool :=
  let code := if dst then b.delem else b.selem
  let e : Int := elemBytes code
  let base : Int := if dst then b.dst.base else b.src.base
  let st (k : Nat) : Int := if dst then b.dstr.getD k 0 else b.sstr.getD k 0
  let packed := if dst then b.gather else b.scatter
  base % e ≠ 0 || (b.dims.any fun k => k ≠ 0 && st k % e ≠ 0) || (packed && b.listStride % e ≠ 0)

/-- The lowest dimension whose valid positions pass its bound (order 7). -/
def Box.boundBad (b : Box) : Option Nat :=
  if b.clamp || b.list ≠ 0 || b.dims.any (fun k => decide ((b.validRange k).2 < (b.validRange k).1)) then none
  else b.lowDims.find? fun k =>
    b.boundOf k ≠ 0 && (decide ((b.validRange k).1 < 0) || decide ((b.boundOf k : Int) ≤ (b.validRange k).2))

/-- Whether order 9 refuses the box (R105, R114, R116). `reduce` is a selected reduce-on-write. -/
def Box.overlapBad (b : Box) (inp : StaticIn) (reduce : Bool) (tagIn tagOut : Option Nat) : Bool :=
  (!reduce && b.dims.any fun k => b.dstride k = 0 && decide (1 < b.ext k)) ||
  (b.inPlace && !b.inPlaceOk) ||
  (!b.inPlace && b.oneSpace && hullsMeet (b.srcHull inp tagIn) (b.dstHull inp tagOut) && !b.identical) ||
  b.planesMeet inp

/-- The first failure of the table Box checks (R118), as status and detail; `portBad` when a stream form names a port that
a swarm holds (R188). -/
def Box.check (b : Box) (inp : StaticIn) (priv : Bool) (tiles : Option Nat) (reduce : Bool)
    (tagIn tagOut : Option Nat) (portBad : Bool) :
    Option (Nat × Nat) :=
  if b.ndim = 0 || b.ndim = 7 then some (0x0301, 9)
  else if !b.hasExt && (decide (4 < b.ndim) || b.list ≠ 0) then some (0x0301, 6)
  else match (List.range 6).find? b.dimBad with
  | some k => some (0x0301, k)
  | none =>
    if !elemDefined b.selem || !elemDefined b.delem || b.planarBad then some (0x0301, 6)
    else if b.modeBad || portBad then some (0x0301, 7)
    else if 2 ^ 40 - 1 < b.unitCount (b.ruleKind tiles) then some (0x0301, 8)
    else if b.misaligned false then some (0x0302, 0)
    else if b.misaligned true then some (0x0302, 1)
    else match b.boundBad with
    | some k => some (0x0303, k)
    | none =>
      if !hullFits inp b.src.space (b.srcHull inp tagIn) then some (0x0303, 6)
      else if !hullFits inp b.dst.space (b.dstHull inp tagOut) then some (0x0303, 7)
      else if b.overlapBad inp reduce tagIn tagOut then some (0x0304, 0)
      else if b.list ≠ 0 && (!(b.listAddr.space = 0 || b.listAddr.space = 1 || (b.listAddr.space = 4 && priv)) ||
          b.listAddr.base % 16 ≠ 0) then some (0x0305, 0xFFFF)
      else none

/-! ## List entries (R109 to R111) -/

/-- Entry `m` of a list from its 16 bytes: coordinates, null, or a failure LIST_BAD. -/
def Box.listEntry (b : Box) (x : Bytes) : Option Entry :=
  let c := (List.range 4).map fun k => leAt x (4 * k) 4
  if c.getD 0 0 = 0xFFFFFFFF then (if (c.drop 1).all (· = 0) then some .null else none)
  else if (List.range 4).any fun k => decide (b.ndim ≤ k) && c.getD k 0 ≠ 0 then none
  else some (.coords c)

end Sys2Proof.Machine
end

