-- ==== Sys2Proof/Machine/Cast.lean ====
section
/-! DEFINITION. Element casts and quantisation (R120 to R141): the transform section, numeric formats, rounding, the
cleartext transforms and the order of transform checks. -/
namespace Sys2Proof.Machine

/-! ## The transform section (R120) -/

/-- XF_CTRL of a cleartext transform. -/
structure Xf where
  xform : Nat
  round : Nat
  sfmt : Nat
  dfmt : Nat
  sat : Bool
  red : Nat
  scaleFirst : Nat
  scaleEn : Bool
  scaleDim : Nat
  zp : Nat
  encBits : Nat
  shift : Int
deriving DecidableEq, Repr

/-- The transform section of a main entry. -/
def parseXf (e : Bytes) : Xf :=
  let w := leAt e 88 8
  { xform := bits w 5 0, round := bits w 7 6, sfmt := bits w 11 8, dfmt := bits w 15 12, sat := bit w 16,
    red := bits w 19 17, scaleFirst := bits w 31 20, scaleEn := bit w 32, scaleDim := bits w 34 33,
    zp := bits w 43 36, encBits := bits w 49 44, shift := toSigned 8 (bits w 57 50) }

/-! ## Rounding (R125) -/

/-- `round_int`: n × 2^−k rounded to an integer; `u` is the draw of mode 2. -/
def roundInt (n : Int) (k mode u : Nat) : Int :=
  if k = 0 then n
  else
    let q := n / 2 ^ k
    let f := (n % 2 ^ k).toNat
    match mode with
    | 0 => if 2 ^ (k - 1) < f || (f = 2 ^ (k - 1) && q % 2 = 1) then q + 1 else q
    | 1 => if n < 0 && f ≠ 0 then q + 1 else q
    | _ =>
      let top := if k ≤ 24 then f <<< (24 - k) else f >>> (k - 24)
      if 2 ^ 24 ≤ top + u then q + 1 else q

/-! ## Numeric formats (R122, R128, R129) -/

/-- The floating formats: width, exponent and fraction bits, bias, and whether infinities exist. -/
structure FloatFmt where
  width : Nat
  ebits : Nat
  fbits : Nat
  bias : Int
  hasInf : Bool
  isFp8 : Bool
deriving DecidableEq, Repr

/-- The floating format of a code. -/
def floatFmt : Nat → Option FloatFmt
  | 2 => some ⟨32, 8, 23, 127, true, false⟩
  | 3 => some ⟨16, 5, 10, 15, true, false⟩
  | 4 => some ⟨16, 8, 7, 127, true, false⟩
  | 5 => some ⟨8, 4, 3, 7, false, true⟩
  | 6 => some ⟨8, 5, 2, 15, true, true⟩
  | _ => none

/-- Whether a format code is a float. -/
def isFloat (f : Nat) : Bool := decide (2 ≤ f) && decide (f ≤ 6)

/-- A number on its way: NaN, infinity, or ± mag × 2^exp; each with its sign. -/
inductive Num where
  | nan (neg : Bool)
  | inf (neg : Bool)
  | fin (neg : Bool) (mag : Nat) (exp : Int)
deriving DecidableEq, Repr

/-- Smallest normal exponent. -/
def FloatFmt.emin (f : FloatFmt) : Int := 1 - f.bias
/-- Bits of a NaN without its sign (R129). -/
def FloatFmt.nanBits (f : FloatFmt) : Nat :=
  if f.hasInf then (2 ^ f.ebits - 1) * 2 ^ f.fbits + 2 ^ (f.fbits - 1) else 2 ^ (f.width - 1) - 1
/-- Bits of infinity without its sign. -/
def FloatFmt.infBits (f : FloatFmt) : Nat := (2 ^ f.ebits - 1) * 2 ^ f.fbits
/-- Bits of the largest finite value. -/
def FloatFmt.maxBits (f : FloatFmt) : Nat := if f.hasInf then f.infBits - 1 else 2 ^ (f.width - 1) - 2
/-- The bits with a sign put before them. -/
def FloatFmt.signed (f : FloatFmt) (neg : Bool) (b : Nat) : Nat := b + b2n neg * 2 ^ (f.width - 1)

/-- The number that bits of a format hold. -/
def FloatFmt.decode (f : FloatFmt) (b : Nat) : Num :=
  let neg := bit b (f.width - 1)
  let mag := b % 2 ^ (f.width - 1)
  let e := mag / 2 ^ f.fbits
  let m := mag % 2 ^ f.fbits
  if f.hasInf && e = 2 ^ f.ebits - 1 then (if m = 0 then .inf neg else .nan neg)
  else if !f.hasInf && mag = 2 ^ (f.width - 1) - 1 then .nan neg
  else if e = 0 then .fin neg m (f.emin - f.fbits)
  else .fin neg (2 ^ f.fbits + m) (e - f.bias - f.fbits)

/-- Overflow of a float destination (R129). -/
def FloatFmt.over (f : FloatFmt) (neg : Bool) (round : Nat) (sat infIn : Bool) : Nat :=
  f.signed neg (
    if round = 1 && !infIn then f.maxBits
    else if f.isFp8 && sat then f.maxBits
    else if f.hasInf then f.infBits else f.nanBits)

/-- A finite number in a float destination (R128, R129): one rounding, the carry into the next binade, overflow. -/
def FloatFmt.roundTo (f : FloatFmt) (neg : Bool) (mag : Nat) (exp : Int) (round : Nat) (sat : Bool) (u : Nat) : Nat :=
  if mag = 0 then f.signed neg 0
  else
    let p : Int := f.fbits + 1
    let E := max ((Nat.log2 mag : Int) + exp) f.emin
    let sh := exp + p - 1 - E
    let n : Int := if neg then -(mag : Int) else mag
    let m := (if 0 ≤ sh then n * 2 ^ sh.toNat else roundInt n (-sh).toNat round u).natAbs
    let carry := m = 2 ^ (f.fbits + 1)
    let m := if carry then m / 2 else m
    let E := if carry then E + 1 else E
    let b := if m < 2 ^ f.fbits then m else ((E + f.bias).toNat * 2 ^ f.fbits + (m - 2 ^ f.fbits))
    if f.maxBits < b then f.over neg round sat false else f.signed neg b

/-- A number in a float destination (R128, R129). -/
def FloatFmt.encode (f : FloatFmt) (x : Num) (round : Nat) (sat : Bool) (u : Nat) : Nat :=
  match x with
  | .nan neg => f.signed neg f.nanBits
  | .inf neg => f.over neg round sat true
  | .fin neg m e => f.roundTo neg m e round sat u

/-- An integer as a number. -/
def numOfInt (v : Int) : Num := .fin (decide (v < 0)) v.natAbs 0

/-- The range of an integer format of `w` bits. -/
def intRange (fmt w : Nat) : Int × Int := if fmt = 1 then (-(2 ^ (w - 1)), 2 ^ (w - 1) - 1) else (0, 2 ^ w - 1)

/-- A value moved to the nearer end of a range. -/
def clampInt (r : Int × Int) (v : Int) : Int := if v < r.1 then r.1 else if r.2 < v then r.2 else v

/-- A number rounded to an integer after scaling by 2^−s; none for NaN and infinities. -/
def Num.toInt (x : Num) (s : Int) (round u : Nat) : Option Int :=
  match x with
  | .fin neg mag e =>
    let n : Int := if neg then -(mag : Int) else mag
    let sh := e - s
    some (if 0 ≤ sh then n * 2 ^ sh.toNat else roundInt n (-sh).toNat round u)
  | _ => none

/-- A number in an integer destination, saturated (R130, R136): `nanV` stands for NaN, `zp` is added. -/
def Num.toRange (x : Num) (r : Int × Int) (s zp : Int) (round u : Nat) (nanV : Int) : Int :=
  clampInt r (match x with
    | .nan _ => nanV
    | .inf neg => if neg then r.1 else r.2
    | .fin _ _ _ => (x.toInt s round u).getD 0 + zp)

/-- The source as an integer (R127, R135). -/
def readInt (fmt w : Nat) (zp : Nat) (b : Nat) : Int :=
  if fmt = 1 then toSigned w b else if fmt = 7 then (b : Int) - zp else b

/-- One element through a cleartext transform (R123 to R137): `sw` and `dw` are the element widths in bits, `s` and
`zp` the scale exponent and zero point that apply, `u` the draw. -/
def Xf.apply (x : Xf) (sw dw : Nat) (s : Int) (zp u : Nat) (b : Nat) : Nat :=
  let szp := zp % 2 ^ sw
  let dzp : Int := if x.dfmt = 7 then ((zp % 2 ^ dw : Nat) : Int) else 0
  let r := intRange x.dfmt dw
  match x.xform with
  | 1 =>
    let v := readInt x.sfmt sw szp b + dzp
    ofSigned dw (if x.sat then clampInt r v else v)
  | 2 =>
    let n : Num := match floatFmt x.sfmt with
      | some f => f.decode b
      | none => numOfInt (readInt x.sfmt sw szp b)
    match floatFmt x.dfmt with
    | some f => f.encode n x.round x.sat u
    | none => ofSigned dw (n.toRange r 0 0 x.round u 0)
  | 3 =>
    match floatFmt x.sfmt with
    | some f => ofSigned dw ((f.decode b).toRange r s dzp x.round u dzp)
    | none => b
  | 4 =>
    let v := readInt x.sfmt sw szp b
    match floatFmt x.dfmt with
    | some f => f.encode (.fin (decide (v < 0)) v.natAbs s) x.round x.sat u
    | none => b
  | 5 =>
    let v := readInt x.sfmt sw szp b
    let m := x.encBits
    let rg : Int × Int := if x.sfmt = 0 then (0, 2 ^ m - 1) else (-(2 ^ (m - 1)), 2 ^ (m - 1) - 1)
    ofSigned m (if x.sat then clampInt rg v else v) * 2 ^ (dw - m)
  | _ => b

/-! ## The order of transform checks (R124) -/

/-- Whether a format is defined and matches its element code (R122). -/
def fmtOk (fmt code : Nat) : Bool :=
  if isPlanar code then fmt = 7
  else match fmt with
  | 0 | 1 => true
  | 2 => code = 2
  | 3 | 4 => code = 1
  | 5 | 6 => code = 0
  | 7 => code = 0
  | _ => false

/-- Whether a transform accepts a pair of formats (R123). -/
def Xf.pairOk (x : Xf) (selem delem : Nat) : Bool :=
  let s := x.sfmt
  let d := x.dfmt
  match x.xform with
  | 0 => s = d && selem = delem
  | 1 => (s ≤ 1 || s = 7) && (d ≤ 1 || d = 7) && !(s = 7 && d = 7)
  | 2 => (s ≤ 1 || isFloat s) && (d ≤ 1 || isFloat d) && (isFloat s || isFloat d)
  | 3 => isFloat s && (d = 7 || d = 1)
  | 4 => (s = 7 || s = 1) && isFloat d
  | _ => (s ≤ 1 || s = 7) && d = 0 && (delem = 2 || delem = 3)

/-- Whether an unused field is non-zero, or a used one outside its range (order 5). -/
def Xf.fieldsBad (x : Xf) (selem delem : Nat) : Bool :=
  let scaled := x.xform = 3 || x.xform = 4
  let code := x.sfmt = 7 || x.dfmt = 7
  let zpUsed := (scaled || x.xform = 1 || x.xform = 5) && code && !x.scaleEn
  let b := if x.sfmt = 7 then elemBits selem else elemBits delem
  (x.xform = 0 && x.sat) || (x.scaleEn && !scaled) || (!x.scaleEn && (x.scaleFirst ≠ 0 || x.scaleDim ≠ 0)) ||
  ((!scaled || x.scaleEn) && x.shift ≠ 0) || (!zpUsed && x.zp ≠ 0) || (zpUsed && decide (2 ^ b ≤ x.zp)) ||
  (x.xform ≠ 5 && x.encBits ≠ 0) || (x.xform = 5 && (x.encBits = 0 || decide (32 < x.encBits)))

/-- Whether a reduction's destination is refused (R138). -/
def Xf.redBad (x : Xf) (b : Box) : Bool :=
  x.red ≠ 0 && (!(b.dst.space ≤ 1) || b.padMode = 2 ||
    !(if x.red = 4 then x.dfmt = 2 || x.dfmt = 3 || x.dfmt = 4 else x.dfmt ≤ 1 && (b.delem = 2 || b.delem = 3)))

/-- The first failure of the table Transform checks for a cleartext transform, as status and detail. -/
def Xf.check (x : Xf) (b : Box) : Option (Nat × Nat) :=
  if 5 < x.xform then some (0x0401, 0)
  else if x.round = 3 || (x.round ≠ 0 && (x.xform = 0 || x.xform = 1 || x.xform = 5)) || 4 < x.red then some (0x0401, 0)
  else if !fmtOk x.sfmt b.selem || !fmtOk x.dfmt b.delem then some (0x0401, 0)
  else if !x.pairOk b.selem b.delem then some (0x0401, 0)
  else if x.fieldsBad b.selem b.delem then some (0x0401, 0)
  else if x.redBad b then some (0x0401, 0)
  else if x.scaleEn && (decide (b.ndim ≤ x.scaleDim) || decide (4096 < x.scaleFirst + b.ext x.scaleDim)) then
    some (0x0403, x.scaleFirst)
  else none

/-- The scale exponent and zero point of the element at box index `j` (R133): a scale register of the executing frame,
or SHIFT and ZERO_POINT. -/
def Xf.scale (x : Xf) (regs : Store (BitVec 16)) (j : List Nat) : Int × Nat :=
  if x.scaleEn then
    let r := (regs.get 0 (x.scaleFirst + j.getD x.scaleDim 0)).toNat
    (toSigned 8 (bits r 7 0), bits r 15 8)
  else (x.shift, x.zp)

end Sys2Proof.Machine
end

