-- ==== Sys2Proof/Config.lean ====
section
/-! DEFINITION. What an implementation or the outside world fixes and the spec leaves open: constants with no body, so
that no proof can see their values. Each is applied to a counter of the state or to operands (DESIGN CHOICE, log entry 5). -/
namespace Sys2Proof.Config

/-- A draw of a frame's stochastic-rounding generator (R126), by the frame and the number of draws before it. -/
opaque draw24 : Nat → Nat → BitVec 24

/-- A 64-bit value that the spec leaves undefined, by the counter of free values (R147, R204, R406). -/
opaque freeWord : Nat → BitVec 64

/-- The 384 bits of full entropy of one seeding (R358), by the counter of free values. -/
opaque secret : Nat → Nat

/-- A sample of the entropy source (R358), by the counter of free values at the seeding and the sample's number. -/
opaque noise : Nat → Nat → Byte

/-- The cutoff of the repetition count test of SP 800-90B, which depends on the source's entropy estimate (R358). -/
opaque rctCutoff : Nat

/-- The cutoff of the adaptive proportion test of SP 800-90B (R358). -/
opaque aptCutoff : Nat

/-- The Mladsin public key of an image key slot that the boot ROM holds (R362), as a 49 B compressed point. -/
opaque bootKey : Nat → Bytes

/-- The reading of a droop sensor in mV (R406), by region and counter of free values. -/
opaque supplyMv : Nat → Nat → BitVec 16

/-- The keeper's program counter when it halts (R374, source 53), by the counter of free values. -/
opaque keeperPc : Nat → BitVec 32

/-- Whether the boot ROM's own SHA-384 and ECDSA-verify tests pass (R365), by the counter of free values. -/
opaque romTestsPass : Nat → Bool

/-- The units whose known-answer test passes when their domain has powered up (R393), by the counter of free values. -/
opaque katPasses : Nat → BitVec 8

/-- The boot ROM version of this stepping (R477). -/
def romVersion : BitVec 32 := 0x01000000

end Sys2Proof.Config
end

