-- ==== Sys2Proof/Machine/Crypto.lean ====
section
/-! DEFINITION. The symmetric cryptographic functions of R357: SHAKE128 (FIPS 202), SHA-384 (FIPS 180-4), HMAC and
HKDF with it (SP 800-56C), AES-256-GCM (SP 800-38D), and CTR_DRBG with AES-256 and its derivation function (SP 800-90A) with
the health tests of its entropy source (SP 800-90B). Their definitions are those of the standards that the spec
names (PRESUMED, log entry 9). -/
namespace Sys2Proof.Machine

/-! ## Keccak-f[1600] and SHAKE128 -/

/-- The 24 round constants of Keccak-f[1600] (FIPS 202), round i at bits [64i+63:64i]. -/
def keccakRC : Nat :=
  0x80000000000080038000000000008089800000000000008b000000008000808b000000008000000a00000000800080090000000000000088000000000000008a800000000000800980000000800080810000000080000001000000000000808b8000000080008000800000000000808a00000000000080820000000000000001 +
  0x8000000080008008000000008000000180000000000080808000000080008081800000008000000a000000000000800a80000000000000808000000000008002 * 2 ^ 1024

/-- Rotation of a 64-bit lane to the left. -/
def rotl64 (x : Word) (n : Nat) : Word := (x <<< (n % 64)) ||| (x >>> ((64 - n % 64) % 64))

/-- Rotation offsets of rho, lane x + 5 y. -/
def keccakRot : List Nat :=
  [0, 1, 62, 28, 27, 36, 44, 6, 55, 20, 3, 10, 43, 25, 39, 41, 45, 15, 21, 8, 18, 2, 61, 56, 14]

/-- Lane `i` of a state of 25 lanes. -/
def lane (a : List Word) (i : Nat) : Word := a.getD i 0

/-- One round of Keccak-f[1600]: theta, rho, pi, chi, iota. -/
def keccakRound (a : List Word) (r : Nat) : List Word :=
  let c := (List.range 5).map fun x => lane a x ^^^ lane a (x + 5) ^^^ lane a (x + 10) ^^^ lane a (x + 15) ^^^
    lane a (x + 20)
  let d := (List.range 5).map fun x => lane c ((x + 4) % 5) ^^^ rotl64 (lane c ((x + 1) % 5)) 1
  let t := (List.range 25).map fun i => rotl64 (lane a i ^^^ lane d (i % 5)) (keccakRot.getD i 0)
  let b := (List.range 25).map fun i => lane t ((i % 5 + 3 * (i / 5)) % 5 + 5 * (i % 5))
  let e := (List.range 25).map fun i =>
    lane b i ^^^ (~~~(lane b ((i % 5 + 1) % 5 + 5 * (i / 5))) &&& lane b ((i % 5 + 2) % 5 + 5 * (i / 5)))
  match e with
  | [] => []
  | x :: rest => (x ^^^ BitVec.ofNat 64 (keccakRC >>> (64 * r))) :: rest

/-- Keccak-f[1600]. -/
def keccakF (a : List Word) : List Word := (List.range 24).foldl keccakRound a

/-- The sponge of SHAKE128 after absorbing a message shorter than its 168 B rate, before the first squeeze. -/
def shake128Absorb (m : Bytes) : List Word :=
  let p := m ++ [0x1F] ++ zeros (167 - m.length)
  let p := patch p 167 [p.getD 167 0 ||| 0x80]
  (List.range 25).map fun i => BitVec.ofNat 64 (leAt p (8 * i) 8)

/-- The 21 words of one 168 B squeeze. -/
def shakeBlock (a : List Word) : List Word := a.take 21

/-! ## SHA-384, HMAC and HKDF -/

/-- The 80 round constants of SHA-512 and SHA-384 (FIPS 180-4), constant t at bits [64t+63:64t]. -/
def sha512K : Nat :=
  0xc19bf174cf6926949bdc06a725c7123580deb1fe3b1696b172be5d74f27b896f550c7dc3d5ffb4e2243185be4ee4b28c12835b0145706fbed807aa98a3030242ab1c5ed5da6d8118923f82a4af194f9b59f111f1b605d0193956c25bf348b538e9b5dba58189dbbcb5c0fbcfec4d3b2f7137449123ef65cd428a2f98d728ae22 +
  0x142929670a0e6e7006ca6351e003826fd5a79147930aa725c6e00bf33da88fc2bf597fc7beef0ee4b00327c898fb213fa831c66d2db43210983e5152ee66dfab76f988da831153b55cb0a9dcbd41fbd44a7484aa6ea6e4832de92c6f592b0275240ca1cc77ac9c650fc19dc68b8cd5b5efbe4786384f25e3e49b69c19ef14ad2 * 2 ^ 1024 +
  0x106aa07032bbd1b8f40e35855771202ad69906245565a910d192e819d6ef5218c76c51a30654be30c24b8b70d0f89791a81a664bbc423001a2bfe8a14cf1036492722c851482353b81c2c92e47edaee6766a0abb3c77b2a8650a73548baf63de53380d139d95b3df4d2c6dfc5ac42aed2e1b21385c26c92627b70a8546d22ffc * 2 ^ 2048 +
  0xc67178f2e372532bbef9a3f7b2c67915a4506cebde82bde990befffa23631e288cc702081a6439ec84c87814a1f0ab7278a5636f43172f60748f82ee5defb2fc682e6ff3d6b2b8a35b9cca4f7763e3734ed8aa4ae3418acb391c0cb3c5c95a6334b0bcb5e19b48a82748774cdf8eeb991e376c085141ab5319a4c116b8d2d0c8 * 2 ^ 3072 +
  0x6c44198c4a4758175fcb6fab3ad6faec597f299cfc657e2a4cc5d4becb3e42b6431d67c49c100d4c3c9ebe0a15c9bebc32caab7b40c7249328db77f523047d841b710b35131c471b113f9804bef90dae0a637dc5a2c898a606f067aa72176fbaf57d4f7fee6ed178eada7dd6cde0eb1ed186b8c721c0c207ca273eceea26619c * 2 ^ 4096

/-- Rotation of a word to the right. -/
def rotr64 (x : Word) (n : Nat) : Word := (x >>> n) ||| (x <<< (64 - n))

/-- The message schedule of a block, extended word by word: the last 16 words, newest last. -/
def shaExtend (w : List Word) : Word :=
  let g (i : Nat) := w.getD i 0
  let s0 := rotr64 (g 1) 1 ^^^ rotr64 (g 1) 8 ^^^ (g 1 >>> 7)
  let s1 := rotr64 (g 14) 19 ^^^ rotr64 (g 14) 61 ^^^ (g 14 >>> 6)
  g 0 + s0 + g 9 + s1

/-- One round of SHA-512's compression: the working variables a to h. -/
def shaRound (v : List Word) (k w : Word) : List Word :=
  match v with
  | [a, b, c, d, e, f, g, h] =>
    let t1 := h + (rotr64 e 14 ^^^ rotr64 e 18 ^^^ rotr64 e 41) + ((e &&& f) ^^^ (~~~e &&& g)) + k + w
    let t2 := (rotr64 a 28 ^^^ rotr64 a 34 ^^^ rotr64 a 39) + ((a &&& b) ^^^ (a &&& c) ^^^ (b &&& c))
    [t1 + t2, a, b, c, d + t1, e, f, g]
  | _ => v

/-- The compression of one 128 B block. -/
def shaBlock (h : List Word) (blk : Bytes) : List Word :=
  let w0 := (List.range 16).map fun i => BitVec.ofNat 64 (beNat (slice blk (8 * i) 8))
  let r := (List.range 80).foldl (fun (p : List Word × List Word) t =>
    let w := p.2.getD 0 0
    (shaRound p.1 (BitVec.ofNat 64 (sha512K >>> (64 * t))) w, p.2.drop 1 ++ [shaExtend p.2])) (h, w0)
  List.zipWith (· + ·) h r.1

/-- The initial value of SHA-384. -/
def sha384Init : List Word :=
  [0xcbbb9d5dc1059ed8, 0x629a292a367cd507, 0x9159015a3070dd17, 0x152fecd8f70e5939, 0x67332667ffc00b31,
   0x8eb44a8768581511, 0xdb0c2e0d64f98fa7, 0x47b5481dbefa4fa4]

/-- A message padded to whole 128 B blocks. -/
def shaPad (m : Bytes) : Bytes :=
  m ++ [0x80] ++ zeros ((256 - (m.length + 17) % 128) % 128) ++ beBytes 16 (8 * m.length)

/-- SHA-384 of a message, 48 B. -/
def sha384 (m : Bytes) : Bytes :=
  let p := shaPad m
  let h := (List.range (p.length / 128)).foldl (fun h i => shaBlock h ((p.drop (128 * i)).take 128)) sha384Init
  (h.flatMap fun w => beBytes 8 w.toNat).take 48

/-- HMAC with SHA-384. -/
def hmac384 (key m : Bytes) : Bytes :=
  let k := slice (if 128 < key.length then sha384 key else key) 0 128
  sha384 (k.map (· ^^^ 0x5C) ++ sha384 (k.map (· ^^^ 0x36) ++ m))

/-- HKDF-SHA-384 output of up to 48 B (R268). -/
def hkdf384 (ikm salt info : Bytes) (n : Nat) : Bytes := (hmac384 (hmac384 salt ikm) (info ++ [0x01])).take n

/-! ## AES-256-GCM -/

/-- The S-box of AES (FIPS 197), entry i at bits [8i+7:8i]. -/
def aesSboxTable : Nat :=
  0xd2f3ff1021dab6bcf5389d928f40a351a89f3c507f02f94585334d43fbaaefd0cf584c4a39becb6a5bb1fc20ed00d153842fe329b3d63b52a05a6e1b1a2c830975b227ebe28012079a059618c323c7041531d871f1e5a534ccf73f362693fdb7c072a49cafa2d4adf04759fa7dc982ca76abd7fe2b670130c56f6bf27b777c63 +
  0x16bb54b00f2d99416842e6bf0d89a18cdf2855cee9871e9b948ed9691198f8e19e1dc186b95735610ef6034866b53e708a8bbd4b1f74dde8c6b4a61c2e2578ba08ae7a65eaf4566ca94ed58d6d37c8e779e4959162acd3c25c2406490a3a32e0db0b5ede14b8ee4688902a22dc4f816073195d643d7ea7c41744975fec130ccd * 2 ^ 1024

/-- The S-box. -/
def aesSbox (b : Byte) : Byte := BitVec.ofNat 8 (aesSboxTable >>> (8 * b.toNat))

/-- Multiplication by x in the field of AES. -/
def aesXtime (b : Byte) : Byte := if b.getLsbD 7 then (b <<< 1) ^^^ 0x1B else b <<< 1

/-- The key schedule of AES-256, word by word of 4 B: 60 words. -/
def aesKeyWords (key : Bytes) : List Bytes :=
  (List.range 52).foldl (fun (w : List Bytes) j =>
    let i := j + 8
    let prev := w.getD (i - 1) []
    let rcon : Byte := BitVec.ofNat 8 (2 ^ (i / 8 - 1))
    let t := if i % 8 = 0 then
        let r := (prev.drop 1 ++ prev.take 1).map aesSbox
        match r with | [] => [] | x :: y => (x ^^^ rcon) :: y
      else if i % 8 = 4 then prev.map aesSbox else prev
    w ++ [List.zipWith (· ^^^ ·) (w.getD (i - 8) []) t]) ((List.range 8).map fun i => slice key (4 * i) 4)

/-- One column of MixColumns. -/
def aesMix (c : Bytes) : Bytes :=
  match c with
  | [a, b, d, e] =>
    let x := a ^^^ b ^^^ d ^^^ e
    [a ^^^ x ^^^ aesXtime (a ^^^ b), b ^^^ x ^^^ aesXtime (b ^^^ d), d ^^^ x ^^^ aesXtime (d ^^^ e),
     e ^^^ x ^^^ aesXtime (e ^^^ a)]
  | _ => c

/-- ShiftRows on 16 bytes, column by column. -/
def aesShift (s : Bytes) : Bytes := (List.range 16).map fun i => s.getD ((i + 4 * (i % 4)) % 16) 0

/-- AES-256 of one block under a key schedule. -/
def aesBlock (w : List Bytes) (x : Bytes) : Bytes :=
  let rk (r : Nat) : Bytes := ((w.drop (4 * r)).take 4).flatten
  let add (s k : Bytes) : Bytes := List.zipWith (· ^^^ ·) s k
  let s := (List.range 13).foldl (fun s j =>
    let t := aesShift (s.map aesSbox)
    add ((List.range 4).flatMap fun c => aesMix (slice t (4 * c) 4)) (rk (j + 1))) (add x (rk 0))
  add (aesShift (s.map aesSbox)) (rk 14)

/-- One step of the product in the field of GHASH: x times 2 to the i added where bit i of y is set. -/
def ghashStep (y : BitVec 128) (p : BitVec 128 × BitVec 128) (i : Nat) : BitVec 128 × BitVec 128 :=
  let z := if y.getMsbD i then p.1 ^^^ p.2 else p.1
  let v := if p.2.getLsbD 0 then (p.2 >>> 1) ^^^ (0xE1#128 <<< 120) else p.2 >>> 1
  (z, v)

/-- The product in the field of GHASH. -/
def ghashMul (x y : BitVec 128) : BitVec 128 := ((List.range 128).foldl (ghashStep y) (0, x)).1

/-- Bytes filled with zeros to whole 16 B blocks. -/
def pad16 (b : Bytes) : Bytes := b ++ zeros (alignUp 16 b.length - b.length)

/-- GHASH under the hash key `h`. -/
def ghash (h : BitVec 128) (b : Bytes) : BitVec 128 :=
  (List.range (b.length / 16)).foldl
    (fun y i => ghashMul (y ^^^ BitVec.ofNat 128 (beNat (slice b (16 * i) 16))) h) 0

/-- The key stream of GCM over `n` blocks from counter `c`. -/
def gcmStream (w : List Bytes) (nonce : Bytes) (c n : Nat) : Bytes :=
  (List.range n).flatMap fun i => aesBlock w (nonce ++ beBytes 4 (c + i))

/-- Encryption and decryption of GCM alike, with a 96-bit nonce. -/
def gcmCrypt (key nonce data : Bytes) : Bytes :=
  List.zipWith (· ^^^ ·) data (gcmStream (aesKeyWords key) nonce 2 (ceilDiv data.length 16))

/-- The tag of AES-256-GCM over additional data and ciphertext. -/
def gcmTag (key nonce aad ct : Bytes) : Bytes :=
  let w := aesKeyWords key
  let h := BitVec.ofNat 128 (beNat (aesBlock w (zeros 16)))
  let y := ghash h (pad16 aad ++ pad16 ct ++ beBytes 8 (8 * aad.length) ++ beBytes 8 (8 * ct.length))
  List.zipWith (· ^^^ ·) (aesBlock w (nonce ++ beBytes 4 1)) (beBytes 16 y.toNat)

/-! ## CTR_DRBG (SP 800-90A) and the tests of its entropy source (SP 800-90B) -/

/-- `n` blocks of the counter stream of a DRBG. -/
def Drbg.stream (d : Drbg) (n : Nat) : Bytes :=
  let w := aesKeyWords d.key
  (List.range n).flatMap fun i => aesBlock w (beBytes 16 ((beNat d.v + i + 1) % 2 ^ 128))

/-- CTR_DRBG_Update with 48 B of data. -/
def Drbg.update (d : Drbg) (data : Bytes) : Drbg :=
  let t := List.zipWith (· ^^^ ·) (d.stream 3) data
  ⟨slice t 0 32, slice t 32 16⟩

/-- The chaining value of BCC over whole 16 B blocks, with AES under a key schedule. -/
def drbgChain (w : List Bytes) (b : Bytes) : Bytes :=
  (List.range (b.length / 16)).foldl (fun c i => aesBlock w (List.zipWith (· ^^^ ·) c (slice b (16 * i) 16))) (zeros 16)

/-- Block_Cipher_df with 48 B of output. -/
def drbgDf (x : Bytes) : Bytes :=
  let p := pad16 (beBytes 4 x.length ++ beBytes 4 48 ++ x ++ [0x80])
  let w := aesKeyWords ((List.range 32).map (BitVec.ofNat 8))
  let t := (List.range 3).flatMap fun i => drbgChain w (beBytes 4 i ++ zeros 12 ++ p)
  let k := aesKeyWords (slice t 0 32)
  let a := aesBlock k (slice t 32 16)
  let b := aesBlock k a
  a ++ b ++ aesBlock k b

/-- A DRBG reseeded with entropy input. -/
def Drbg.reseed (d : Drbg) (entropy : Bytes) : Drbg := d.update (drbgDf entropy)

/-- A DRBG instantiated with entropy input. -/
def Drbg.instantiate (entropy : Bytes) : Drbg := (Drbg.mk (zeros 32) (zeros 16)).reseed entropy

/-- The output of a generate call for `n` bytes, and the state after it. -/
def Drbg.generate (d : Drbg) (n : Nat) : Bytes × Drbg :=
  let m := ceilDiv n 16
  ((d.stream m).take n, (Drbg.mk d.key (beBytes 16 ((beNat d.v + m) % 2 ^ 128))).update (zeros 48))

/-- The longest run of equal samples, with the last sample, the run it ends and the longest one so far carried along. -/
def longestRun : List Byte → Byte → Nat → Nat → Nat
  | [], _, run, best => max run best
  | x :: r, last, run, best => if x = last then longestRun r last (run + 1) best else longestRun r x 1 (max run best)

/-- The repetition count test over a run of samples. -/
def repetitionOk (xs : List Byte) : Bool :=
  match xs with
  | [] => true
  | x :: r => decide (longestRun r x 1 0 < Config.rctCutoff)

/-- The adaptive proportion test over whole windows of 512 samples. -/
def proportionOk (xs : List Byte) : Bool :=
  (List.range (xs.length / 512)).all fun i =>
    let w := (xs.drop (512 * i)).take 512
    decide ((w.filter (· == w.headD 0)).length < Config.aptCutoff)

end Sys2Proof.Machine
end

