-- ==== Sys2Proof/Machine/Curve.lean ====
section
/-! DEFINITION. The curve P-384: key agreement, ECDSA verification and signing over SHA-384 (R357, R360, R362, R268,
R278), from the standards that the spec names (PRESUMED, log entry 9). -/
namespace Sys2Proof.Machine

/-- The prime of P-384. -/
def p384 : Nat := 2 ^ 384 - 2 ^ 128 - 2 ^ 96 + 2 ^ 32 - 1

/-- The order of P-384. -/
def p384n : Nat :=
  0xffffffffffffffffffffffffffffffffffffffffffffffffc7634d81f4372ddf581a0db248b0a77aecec196accc52973

/-- The coefficient b of P-384. -/
def p384b : Nat :=
  0xb3312fa7e23ee7e4988e056be3f82d19181d9c6efe8141120314088f5013875ac656398d8a2ed19d2a85c8edd3ec2aef

/-- The base point of P-384. -/
def p384G : Nat × Nat :=
  (0xaa87ca22be8b05378eb1c71ef320ad746e1d3b628ba79b9859f741e082542a385502f25dbf55296c3a545e3872760ab7,
   0x3617de4a96262c6f5d9e98bf9292dc29f8f41dbd289a147ce9da3113b5f0b8c00a60b1ce1d7e819d7a431d7c90ea0e5f)

/-- a - b modulo m. -/
def subMod (m a b : Nat) : Nat := (a + (m - b % m)) % m

/-- Powers modulo m, over the low `n` bits of the exponent. -/
def powMod (m a e : Nat) : Nat → Nat
  | 0 => 1 % m
  | n + 1 =>
    let h := powMod m a (e / 2) n
    if e % 2 = 1 then h * h % m * a % m else h * h % m

/-- The inverse modulo a prime m below 2^384. -/
def invMod (m a : Nat) : Nat := powMod m (a % m) (m - 2) 384

/-- A point of the curve; none is the point at infinity. -/
abbrev Point := Option (Nat × Nat)

/-- The sum of two points. -/
def pointAdd (a b : Point) : Point :=
  match a, b with
  | none, q => q
  | q, none => q
  | some (x1, y1), some (x2, y2) =>
    if x1 = x2 && (y1 + y2) % p384 = 0 then none
    else
      let l := if x1 = x2 then (3 * x1 * x1 + (p384 - 3)) % p384 * invMod p384 (2 * y1) % p384
               else subMod p384 y2 y1 * invMod p384 (subMod p384 x2 x1) % p384
      let x3 := subMod p384 (subMod p384 (l * l % p384) x1) x2
      some (x3, subMod p384 (l * subMod p384 x1 x3 % p384) y1)

/-- A multiple of a point, over the low `n` bits of the factor. -/
def pointMul (q : Point) (k : Nat) : Nat → Point
  | 0 => none
  | n + 1 =>
    let h := pointMul q (k / 2) n
    let d := pointAdd h h
    if k % 2 = 1 then pointAdd d q else d

/-- Whether coordinates lie on the curve. -/
def onCurve (x y : Nat) : Bool :=
  decide (x < p384) && decide (y < p384) && y * y % p384 = (x * x % p384 * x + (p384 - 3) * x + p384b) % p384

/-- The point that a 49 B compressed public key spells, if it is one. -/
def pointDecode (b : Bytes) : Point :=
  let x := beNat (slice b 1 48)
  let t := leAt b 0 1
  let rhs := (x * x % p384 * x + (p384 - 3) * x + p384b) % p384
  let y := powMod p384 rhs ((p384 + 1) / 4) 384
  let y := if y % 2 = t % 2 then y else (p384 - y) % p384
  if (t = 2 || t = 3) && onCurve x y then some (x, y) else none

/-- The 49 B compressed form of a point. -/
def pointEncode (q : Point) : Bytes :=
  match q with
  | none => zeros 49
  | some (x, y) => BitVec.ofNat 8 (2 + y % 2) :: beBytes 48 x

/-- The public key of a private key. -/
def pubKey (d : Nat) : Point := pointMul (some p384G) d 384

/-- The ECDH shared secret of 48 B, if the partner's point is valid. -/
def ecdh (d : Nat) (q : Point) : Option Bytes := (pointMul q d 384).map fun p => beBytes 48 p.1

/-- ECDSA verification of a 96 B signature (r, then s) over a SHA-384 digest. -/
def ecdsaVerify (q : Point) (digest sig : Bytes) : Bool :=
  let r := beNat (slice sig 0 48)
  let t := beNat (slice sig 48 48)
  let z := beNat digest
  if r = 0 || t = 0 || p384n ≤ r || p384n ≤ t || q.isNone then false
  else
    let w := invMod p384n t
    match pointAdd (pointMul (some p384G) (z * w % p384n) 384) (pointMul q (r * w % p384n) 384) with
    | none => false
    | some (x, _) => x % p384n = r

/-- ECDSA signature over a SHA-384 digest with a per-signature secret. -/
def ecdsaSign (d secret : Nat) (digest : Bytes) : Bytes :=
  let k := secret % (p384n - 1) + 1
  let r := match pubKey k with | none => 0 | some (x, _) => x % p384n
  let t := invMod p384n k * ((beNat digest + r * d) % p384n) % p384n
  beBytes 48 r ++ beBytes 48 t

/-- The identity private key of a secret (R360). -/
def identityKey (secret : Bytes) : Nat := beNat secret % (p384n - 1) + 1

end Sys2Proof.Machine
end

