-- ==== Sys2Proof/Machine/Cipher.lean ====
section
/-! DEFINITION. Ciphertext transforms (R145 to R173): the modulus table's checks, the transforms, tile tags and the
acceptance checks of the transform section for ciphertext work. -/
namespace Sys2Proof.Machine

/-! ## The modulus table (R145, R146) -/

/-- One base of the Miller-Rabin test for an odd `n` with n − 1 = d × 2^r. -/
def millerBase (n d r a : Nat) : Bool :=
  let x := powMod n (a % n) d 64
  a % n = 0 || x = 1 ||
    ((List.range r).foldl (fun p _ => (p.1 || p.2 = n - 1, p.2 * p.2 % n)) (false, x)).1

/-- Whether a number below 2^64 is an odd prime: Miller-Rabin with the first twelve primes as bases (R146). -/
def isOddPrime (n : Nat) : Bool :=
  let r := ((List.range 64).takeWhile fun i => (n - 1) % 2 ^ (i + 1) = 0).length
  n % 2 = 1 && decide (2 < n) && [2, 3, 5, 7, 11, 13, 17, 19, 23, 29, 31, 37].all fun a =>
    n = a || millerBase n ((n - 1) / 2 ^ r) r a

/-- The fields of a modulus entry image. -/
def parseModulus (x : Bytes) : ModEntry :=
  { kind := BitVec.ofNat 2 (fieldAt x 0 8 1 0), width := BitVec.ofNat 7 (fieldAt x 0 8 14 8),
    p := BitVec.ofNat 64 (leAt x 8 8), pinv := BitVec.ofNat 64 (leAt x 16 8), rmod := BitVec.ofNat 64 (leAt x 24 8),
    rsq := BitVec.ofNat 64 (leAt x 32 8) }

/-- The first byte of the first field of an image that is wrong (R146), if any. -/
def modulusOffence (x : Bytes) : Option Nat :=
  let m := parseModulus x
  let p := m.p.toNat
  let rsv := (if fieldAt x 0 8 7 2 ≠ 0 then [0] else []) ++ (if fieldAt x 0 8 63 15 ≠ 0 then [1] else []) ++
    (if leAt x 40 24 ≠ 0 then [40] else [])
  let prime := decide (3 ≤ p) && decide (p < 2 ^ 62) && isOddPrime p
  let bad : List Nat := match m.kind.toNat with
    | 0 => (if m.width ≠ 0 then [1] else []) ++ (if m.p ≠ 0 then [8] else []) ++ (if m.pinv ≠ 0 then [16] else []) ++
      (if m.rmod ≠ 0 then [24] else []) ++ (if m.rsq ≠ 0 then [32] else [])
    | 1 =>
      (if !prime then [8] else []) ++
      (if m.width.toNat ≠ (if p = 0 then 0 else Nat.log2 p + 1) || m.width.toNat < 2 || 62 < m.width.toNat then [1] else []) ++
      (if (p * m.pinv.toNat + 1) % 2 ^ 64 ≠ 0 then [16] else []) ++
      (if p = 0 || m.rmod.toNat ≠ 2 ^ 64 % p then [24] else []) ++
      (if p = 0 || m.rsq.toNat ≠ 2 ^ 128 % p then [32] else [])
    | 2 =>
      (if m.width.toNat ≠ 32 && m.width.toNat ≠ 64 then [1] else []) ++
      (if m.p ≠ 0 then [8] else []) ++ (if m.pinv ≠ 0 then [16] else []) ++ (if m.rmod ≠ 0 then [24] else []) ++
      (if m.rsq ≠ 0 then [32] else [])
    | _ => [0]
  (rsv ++ bad).min?

/-! ## The transform section (R148, R150, R151) -/

/-- XF_CTRL, the refresh ring word and TAG_CTRL of a ciphertext transform. -/
structure Ct where
  xform : Nat
  modIdx : Nat
  modDst : Nat
  logB : Nat
  levels : Nat
  msLog2 : Nat
  combK : Nat
  digitRes : Bool
  expDim : Nat
  wZp : Nat
  etype : Nat
  rrAddr : Nat
  rrSpace : Nat
  rrLog : Nat
  aux : Nat
  expKset : Nat
  tagIn : Bool
  tagOut : Bool
  t : Nat
  lvlLimit : Nat
  lvlAdd : Nat
  refresh : Bool
  rrTally : Nat
deriving DecidableEq, Repr

/-- The ciphertext fields of a main entry. -/
def parseCt (e : Bytes) : Ct :=
  let w := leAt e 88 8
  let a := leAt e 96 8
  let g := leAt e 112 8
  { xform := bits w 5 0, modIdx := bits w 13 6, modDst := bits w 21 14, logB := bits w 27 22, levels := bits w 32 28,
    msLog2 := bits w 37 33, combK := bits w 41 38, digitRes := bit w 42, expDim := bits w 45 43, wZp := bits w 53 46,
    etype := bits w 57 54, rrAddr := bits a 56 0, rrSpace := bits a 59 57, rrLog := bits a 63 60, aux := a,
    expKset := bits g 13 0, tagIn := bit g 14, tagOut := bit g 15, t := bits g 17 16, lvlLimit := bits g 25 18,
    lvlAdd := bits g 33 26, refresh := bit g 34, rrTally := bits g 48 35 }

/-- Whether XFORM selects a ciphertext transform. -/
def isCt (e : Bytes) : Bool := decide (0x20 ≤ fieldAt e 88 8 5 0)

/-- Records of a refresh ring (R150). -/
def Ct.ringSize (c : Ct) : Nat := 2 ^ (c.rrLog + 4)

/-- Whether the transform computes with MOD_IDX (R147). -/
def Ct.usesMod (c : Ct) : Bool := decide (0x21 ≤ c.xform) && decide (c.xform ≤ 0x25)
/-- Whether it computes with MOD_DST (R147). -/
def Ct.usesModDst (c : Ct) : Bool := c.xform = 0x24 && c.digitRes

/-! ## The transforms (R155 to R160) -/

/-- `redc` (R155). -/
def redc (e : ModEntry) (t : Nat) : Nat :=
  let m := t % 2 ^ 64 * e.pinv.toNat % 2 ^ 64
  let u := (t + m * e.p.toNat) / 2 ^ 64
  if e.p.toNat ≤ u then u - e.p.toNat else u

/-- The gadget digits, most significant first (R157). -/
def gadget (w b l a : Nat) : List Int :=
  let n := l * b
  let s := w - n
  let t := (if s = 0 then a else (a + 2 ^ (s - 1)) / 2 ^ s) % 2 ^ n
  ((List.range l).foldl (fun (p : Nat × List Int) _ =>
    let x := p.1 % 2 ^ b
    let q := p.1 / 2 ^ b
    if 2 ^ (b - 1) ≤ x then (q + 1, ((x : Int) - 2 ^ b) :: p.2) else (q, (x : Int) :: p.2)) (t, [])).2

/-- Width in bits of an element of the source modulus as SRC_ELEM names it. -/
def srcWidth (selem : Nat) : Nat := if selem = 2 then 32 else 64

/-- Whether an entry fits the transform as orders 5 and 6 require. -/
def Ct.modFits (c : Ct) (selem : Nat) (e : ModEntry) : Bool :=
  match c.xform with
  | 0x20 => e.kind ≠ 0
  | 0x21 | 0x22 | 0x25 => e.kind = 1
  | 0x23 | 0x24 => e.kind = 2 && e.width.toNat = srcWidth selem
  | _ => true

/-- Whether MOD_DST fits (order 6). -/
def Ct.dstFits (c : Ct) (e : ModEntry) : Bool := !c.usesModDst || (e.kind = 1 && decide (c.logB + 1 ≤ e.width.toNat))

/-- One element through a ciphertext transform: `i` is its index along EXP_DIM. -/
def Ct.apply (c : Ct) (selem : Nat) (m md : ModEntry) (i a : Nat) : Nat :=
  match c.xform with
  | 0x21 => redc m (a * m.rsq.toNat)
  | 0x22 => redc m a
  | 0x23 =>
    let s := srcWidth selem - c.msLog2
    (a + 2 ^ (s - 1)) / 2 ^ s % 2 ^ c.msLog2
  | 0x24 =>
    let d := (gadget (srcWidth selem) c.logB c.levels a).getD i 0
    if c.digitRes then (d % (md.p.toNat : Int)).toNat else ofSigned 64 d
  | 0x25 => a * i % m.p.toNat
  | 0x26 =>
    let v : Int := (a : Int) - c.wZp
    if v < 0 then 0x80 + v.natAbs else v.natAbs
  | _ => a

/-! ## The tile tag (R161 to R166) -/

/-- The source type of the table Ciphertext transform codes: none for any, or the types accepted. "Any" takes in the reserved
types too (DESIGN CHOICE, log entry 135). -/
def Ct.srcTypes (c : Ct) : Option (List Nat) :=
  match c.xform with
  | 0x20 => if c.etype = 0 then none else some [c.etype]
  | 0x21 => some [2]
  | 0x22 => some [3]
  | 0x23 | 0x24 => some [1]
  | _ => some [2, 3]

/-- The extents of a tile: dimensions 0 to t − 1, without the expansion dimension for a source tile (R153). -/
def Ct.tileExts (c : Ct) (b : Box) (src : Bool) : List Nat :=
  let d := List.range c.t
  let d := if src && (c.xform = 0x24 || c.xform = 0x25) then d.filter (· ≠ c.expDim) else d
  d.map b.ext

/-- Whether a tag's shape and element code are those given. -/
def tagShape (tag : Bytes) (exts : List Nat) (elem : Nat) : Bool :=
  fieldAt tag 24 1 3 0 = elem && fieldAt tag 24 1 5 4 = exts.length &&
    (List.range 3).all fun k => leAt tag (12 + 4 * k) 4 = exts.getD k 0

/-- The table Tile checks (R163) but for the level: status of the first check that fails. `tenant` is what check 3
compares with, if anything; `eset` is E. -/
def Ct.tagFault (c : Ct) (b : Box) (tenant : Option Nat) (eset : Nat) (tag : Bytes) : Option Nat :=
  let ty := leAt tag 1 1
  if leAt tag 28 4 ≠ (crc32c (slice tag 0 28)).toNat then some 0x0501
  else if leAt tag 0 1 ≠ 1 || fieldAt tag 2 2 15 12 ≠ 0 || fieldAt tag 4 2 15 14 ≠ 0 || fieldAt tag 10 2 15 2 ≠ 0 ||
      fieldAt tag 24 1 7 6 ≠ 0 || leAt tag 25 3 ≠ 0 || bit (leAt tag 10 2) 1 then some 0x0502
  else if (match tenant with | some t => fieldAt tag 2 2 11 0 != t | none => false) then some 0x0503
  else if eset ≠ 0 && fieldAt tag 4 2 13 0 ≠ eset then some 0x0504
  else if (match c.srcTypes with | some l => !l.contains ty | none => false) ||
      leAt tag 6 1 ≠ c.modIdx || !tagShape tag (c.tileExts b true) b.selem ||
      (decide (1 ≤ ty) && decide (ty ≤ 3) && leAt tag 8 2 ≠ 0) then some 0x0502
  else none

/-- Bytes 0 to 27 of a tag with its CRC behind them. -/
def tagSeal (b : Bytes) : Bytes := b ++ leBytes 4 (crc32c b).toNat

/-- The output tag of a tile (R166, R170): from the source tag `tag`, if tags are read, or from the descriptor;
`posted` keeps the level and sets TTF_POSTED. -/
def Ct.outTag (c : Ct) (b : Box) (tag : Option Bytes) (tenant eset : Nat) (posted : Bool) : Bytes :=
  let old (i n d : Nat) : Nat := match tag with | some t => leAt t i n | none => d
  let lvl := old 7 1 0
  let level := match tag with
    | none => c.lvlAdd
    | some _ => if posted || lvl = 255 then lvl else min (lvl + c.lvlAdd) 254
  let ty : Nat × Nat × Nat × Nat := match c.xform with
    | 0x20 => (old 1 1 c.etype, old 6 1 c.modIdx, old 8 1 0, old 9 1 0)
    | 0x21 => (3, c.modIdx, 0, 0)
    | 0x22 => (2, c.modIdx, 0, 0)
    | 0x23 => (4, c.modIdx, c.msLog2, 0)
    | 0x24 => if c.digitRes then (6, c.modDst, c.logB, c.levels) else (5, c.modIdx, c.logB, c.levels)
    | _ => (7, c.modIdx, c.combK, old 1 1 0)
  let exts := c.tileExts b false
  tagSeal (leBytes 1 1 ++ leBytes 1 ty.1 ++ leBytes 2 (old 2 2 tenant) ++ leBytes 2 (old 4 2 eset) ++
    leBytes 1 ty.2.1 ++ leBytes 1 level ++ leBytes 1 ty.2.2.1 ++ leBytes 1 ty.2.2.2 ++ leBytes 2 (1 + 2 * b2n posted) ++
    (List.range 3).flatMap (fun k => leBytes 4 (exts.getD k 0)) ++ leBytes 1 (b.delem + 16 * exts.length) ++ zeros 3)

/-! ## Acceptance checks, step 9 (R172) -/

/-- Whether a field that the transform does not read is non-zero (R149), or PASS_ETYPE is above 7. -/
def Ct.unreadBad (c : Ct) : Bool :=
  let x := c.xform
  (x = 0x26 && c.modIdx ≠ 0) || (!c.usesModDst && c.modDst ≠ 0) || (x ≠ 0x24 && (c.logB ≠ 0 || c.levels ≠ 0 || c.digitRes)) ||
  (x ≠ 0x23 && c.msLog2 ≠ 0) || (x ≠ 0x25 && x ≠ 0x26 && c.combK ≠ 0) || (x ≠ 0x24 && x ≠ 0x25 && c.expDim ≠ 0) ||
  (x ≠ 0x26 && c.wZp ≠ 0) || (x ≠ 0x20 && c.etype ≠ 0) || decide (7 < c.etype)

/-- Whether the element codes fit (R149). -/
def Ct.elemsOk (c : Ct) (s d : Nat) : Bool :=
  match c.xform with
  | 0x20 => decide (s ≤ 3) && s = d
  | 0x21 | 0x22 | 0x25 => s = 3 && d = 3
  | 0x23 => (s = 2 || s = 3) && (d = 1 || d = 2 || d = 3)
  | 0x24 => (s = 2 || s = 3) && d = 3
  | _ => isPlanar s && d = 0

/-- Whether the box breaks R152, R153 or R154. -/
def Ct.boxBad (c : Ct) (b : Box) : Bool :=
  b.whisk || b.clamp || b.inPlace || b.lead.any (· ≠ 0) || b.trail.any (· ≠ 0) || b.start.any (· ≠ 0) ||
  b.bound.any (· ≠ 0) || b.padValue ≠ 0 ||
  c.t = 0 || decide (b.ndim < c.t) || (b.list ≠ 0 && c.t ≠ b.ndim) ||
  ((c.xform = 0x24 || c.xform = 0x25) &&
    (decide (c.t < 2) || decide (c.t ≤ c.expDim) ||
      b.ext c.expDim ≠ (if c.xform = 0x24 then c.levels else c.combK + 1) || b.sstride c.expDim ≠ 0))

/-- Whether b, l, L or K is out of range (order 7). -/
def Ct.rangeBad (c : Ct) (b : Box) : Bool :=
  (c.xform = 0x24 && (c.logB = 0 || decide (32 < c.logB) || c.levels = 0 || decide (16 < c.levels) ||
    decide (srcWidth b.selem < c.levels * c.logB))) ||
  (c.xform = 0x23 && (c.msLog2 = 0 || decide (18 < c.msLog2) || (b.delem = 1 && decide (16 < c.msLog2)))) ||
  ((c.xform = 0x25 || c.xform = 0x26) && c.combK = 0) ||
  (c.xform = 0x26 && (decide (2 ^ elemBits b.selem ≤ c.wZp) ||
    decide (c.combK < max c.wZp (2 ^ elemBits b.selem - 1 - c.wZp))))

/-- Whether the refresh ring fields are refused (order 9, R150). -/
def Ct.refreshBad (c : Ct) (priv : Bool) : Bool :=
  (!c.tagIn && (c.lvlLimit ≠ 0 || c.lvlAdd ≠ 0 || c.refresh || c.rrTally ≠ 0)) ||
  (!c.refresh && c.aux ≠ 0) ||
  (c.refresh && (decide (12 < c.rrLog) || !(c.rrSpace = 0 || (c.rrSpace = 4 && priv)) || c.rrAddr % (64 * c.ringSize) ≠ 0))

/-- Whether a tagged side is misaligned (R165). -/
def Ct.tagMisaligned (c : Ct) (b : Box) (dst : Bool) : Bool :=
  let base := if dst then b.dst.base else b.src.base
  let st (k : Nat) : Int := if dst then b.dstride k else b.sstride k
  let packed := if dst then b.gather else b.scatter
  base % 32 ≠ 0 || (b.originDims c.t).any (fun k => st k % 32 ≠ 0) || (packed && b.listStride % 32 ≠ 0)

/-- Orders 1 to 10 of the table Ciphertext acceptance checks, as status and detail. -/
def Ct.check (c : Ct) (b : Box) (priv : Bool) (m md : ModEntry) : Option (Nat × Nat) :=
  if 0x26 < c.xform then some (0x0401, 0)
  else if c.unreadBad then some (0x0401, 0)
  else if !c.elemsOk b.selem b.delem then some (0x0401, 0)
  else if c.boxBad b then some (0x0401, 0)
  else if !c.modFits b.selem m then some (0x0402, c.modIdx)
  else if !c.dstFits md then some (0x0402, c.modDst)
  else if c.rangeBad b then some (0x0401, 0)
  else if (c.xform = 0x26 && (c.tagIn || c.tagOut)) || (c.xform = 0x20 && c.tagOut && !c.tagIn && c.etype = 0) then
    some (0x0401, 0)
  else if c.refreshBad priv then some (0x0401, 0)
  else if c.tagIn && c.tagMisaligned b false then some (0x0302, 0)
  else if c.tagOut && c.tagMisaligned b true then some (0x0302, 1)
  else none

end Sys2Proof.Machine
end

