-- ==== Sys2Proof/Machine/FabricOps.lean ====
section
/-! DEFINITION. The shared operations of the fabric transport: messages and their bytes (R262, R263), routes (R280) and
the queueing of a message for a link (R262, R286). -/
namespace Sys2Proof.Machine

/-! ## Messages -/

/-- The message operations of R264. -/
def opWrite : BitVec 5 := 0x01
/-- LID. -/
def opLid : BitVec 5 := 0x02
/-- READ. -/
def opRead : BitVec 5 := 0x03
/-- READ_DATA. -/
def opReadData : BitVec 5 := 0x04
/-- LANDED. -/
def opLanded : BitVec 5 := 0x05
/-- REFUSE. -/
def opRefuse : BitVec 5 := 0x06
/-- NOT_READY. -/
def opNotReady : BitVec 5 := 0x07
/-- ABANDON. -/
def opAbandon : BitVec 5 := 0x08
/-- CREDIT. -/
def opCredit : BitVec 5 := 0x09
/-- TALLY. -/
def opTally : BitVec 5 := 0x0A
/-- KEEPER. -/
def opKeeper : BitVec 5 := 0x0B
/-- REKEY. -/
def opRekey : BitVec 5 := 0x0C

/-- The class a message leaves its originating engine in (R262): 0 control, 1 request, 3 response. -/
def msgClass (op : BitVec 5) : Nat :=
  if op = opWrite || op = opLid || op = opRead then 1
  else if op = opReadData || op = opLanded || op = opRefuse then 3 else 0

/-- The bytes of the word that follows the header (R264): 8 for a LID, REFUSE, NOT_READY or CREDIT. -/
def msgWordLen (op : BitVec 5) : Nat :=
  if op = opLid || op = opRefuse || op = opNotReady || op = opCredit then 8 else 0

/-- The data bytes that follow (R264): MSG_LEN for a WRITE, LID or READ_DATA; 16 for TALLY, 128 for KEEPER, 64 for
REKEY; none otherwise. -/
def msgDataLen (op : BitVec 5) (len : Nat) : Nat :=
  if op = opWrite || op = opLid || op = opReadData then len
  else if op = opTally then 16 else if op = opKeeper then 128 else if op = opRekey then 64 else 0

/-- The bytes of a message (R263, R264). -/
def encodeMsg (m : Msg) : Bytes :=
  leBytes 1 (m.op.toNat + 32 * b2n m.win) ++ leBytes 1 m.dst.toNat ++ leBytes 1 m.src.toNat ++ leBytes 2 m.len ++
    leBytes 2 m.tenant.toNat ++ leBytes 2 m.tag.toNat ++ leBytes 7 m.addr.toNat ++
    leBytes (msgWordLen m.op) m.word.toNat ++ slice m.data 0 (msgDataLen m.op m.len)

/-- The message whose header starts the bytes, when the bytes hold all of it. -/
def decodeMsg (b : Bytes) : Msg :=
  let op := BitVec.ofNat 5 (fieldAt b 0 1 4 0)
  let len := fieldAt b 3 2 8 0
  { op := op, win := bit (leAt b 0 1) 5, dst := BitVec.ofNat 6 (leAt b 1 1), src := BitVec.ofNat 6 (leAt b 2 1),
    len := len, tenant := BitVec.ofNat 12 (leAt b 5 2), tag := BitVec.ofNat 16 (leAt b 7 2),
    addr := BitVec.ofNat 56 (leAt b 9 7), word := BitVec.ofNat 64 (leAt b 16 (msgWordLen op)),
    data := slice b (16 + msgWordLen op) (msgDataLen op len) }

/-- The bytes a message occupies, from its header. -/
def msgSize (b : Bytes) : Nat :=
  let op := BitVec.ofNat 5 (fieldAt b 0 1 4 0)
  16 + msgWordLen op + msgDataLen op (fieldAt b 3 2 8 0)

/-- Whether a header names no operation of R264, so that its message has no known length. -/
def msgUnknown (b : Bytes) : Bool :=
  let op := fieldAt b 0 1 4 0
  decide (op = 0) || decide (12 < op)

/-- Whether a header breaks R264: an unknown operation, a reserved bit set, or a length that breaks R263. -/
def msgBad (b : Bytes) : Bool :=
  let op := fieldAt b 0 1 4 0
  let len := fieldAt b 3 2 8 0
  let named := op = 1 || op = 2 || op = 3 || op = 4
  decide (op = 0) || decide (12 < op) || fieldAt b 0 1 7 6 != 0 || fieldAt b 1 1 7 6 != 0 || fieldAt b 2 1 7 6 != 0 ||
    fieldAt b 3 2 15 9 != 0 || fieldAt b 5 2 15 12 != 0 ||
    decide (256 < len) || (named && decide (256 < leAt b 9 7 % 256 + len)) ||
    (decide (op = 2) && bit (leAt b 16 8) 63) || (decide (op = 6) && decide (256 ≤ leAt b 16 8)) ||
    (decide (op = 7) && decide (2 ^ 32 ≤ leAt b 16 8)) || (decide (op = 9) && decide (2 ^ 16 ≤ leAt b 16 8))

/-- A message of this engine with no data. -/
def State.msg (s : State) (op : BitVec 5) (dst : ChipNo) (tag : BitVec 16 := 0) (word : Word := 0)
    (data : Bytes := []) : Msg :=
  { op := op, win := false, dst := dst, src := s.inp.chipId, len := 0, tenant := 0, tag := tag, addr := 0, word := word,
    data := data }

/-! ## Routes (R280) -/

/-- The numbers of the link ports. -/
def linkNos : List Nat := List.range 18

/-- The numbers of the chips. -/
def chipNos : List ChipNo := (List.range 64).map (BitVec.ofNat 6)

/-- The quadrant of a link port (R258). -/
def quadrant (l : Nat) : Nat := if l < 5 then 0 else if l < 10 then 1 else if l < 14 then 2 else 3

/-- The record bits WG_NEIGH of a link's partner (R276). -/
def Link.neigh (x : Link) : Nat := leAt x.peerRec 8 8

/-- Links in service whose partner is `d`. -/
def State.directSet (s : State) (d : ChipNo) : List Nat :=
  linkNos.filter fun l => (s.link l).state == .service && (s.link l).partner == d

/-- Links in service whose partner has a link in service to `d`. -/
def State.viaSet (s : State) (d : ChipNo) : List Nat :=
  linkNos.filter fun l => (s.link l).state == .service && bit (s.link l).neigh d.toNat

/-- The set a message to `d` is sent on: direct, or via when there is no direct link. -/
def State.routeSet (s : State) (d : ChipNo) : List Nat :=
  if d = s.inp.chipId then [] else if s.directSet d = [] then s.viaSet d else s.directSet d

/-- Whether `d` can be reached. -/
def State.hasRoute (s : State) (d : ChipNo) : Bool := !(s.routeSet d).isEmpty

/-- WG_STATE of the records of the links to `d`: 2 when a record in force shows it quiescing (R298). -/
def State.quiescing (s : State) (d : ChipNo) : Bool :=
  (s.directSet d).any fun l => leAt (s.link l).peerRec 3 1 = 2

/-- Queues a message for a link in a class (R262). -/
def Link.queue (x : Link) (cls : Nat) (m : Msg) : Link :=
  { x with txq := x.txq.set [] cls (x.txq.get [] cls ++ [m]) }

/-- The link of `set` whose turn it is for destination `d`, and the turn passed on (R280). -/
def State.nextLink (s : State) (d : ChipNo) (set : List Nat) : Nat × State :=
  let n := s.fabric.rr.get 0 d.toNat
  (set.getD (n % set.length) 0,
    { s with fabric := { s.fabric with rr := s.fabric.rr.set 0 d.toNat ((n + 1) % set.length) } })

/-- Sends a message to its destination: round-robin over the route set (R280). With no route, or a request or response
other than REFUSE in the halted state (R378), nothing is sent. -/
def State.sendMsg (s : State) (m : Msg) : State :=
  let set := s.routeSet m.dst
  if set = [] || (s.faults.halted && msgClass m.op != 0 && m.op != opRefuse) then s
  else
    let p := s.nextLink m.dst set
    p.2.modLink p.1 fun x => x.queue (msgClass m.op) m

/-! ## Receive buffers (R17, R274) -/

/-- Whether messages of this engine, or one not yet complete, lie in flit `id` of the link's receive buffer. -/
def Link.bufMine (x : Link) (id : Nat) : Bool :=
  x.rxq.any (fun e => e.2.buf.contains id) || x.rxPartIn.any fun e => e.2.contains id

/-- Whether a transit message in flit `id` still waits for another link. -/
def State.bufTransit (s : State) (id : Nat) : Bool :=
  linkNos.any fun l => (s.link l).txq.any fun e => e.2.any fun m => m.buf.contains id

/-- Entry `i` of a list of counts raised by `n`. -/
def addAt (l : List Nat) (i n : Nat) : List Nat := (List.range 6).map fun j => l.getD j 0 + if j = i then n else 0

/-- The credit of a flit of class `c` is freed; a reduction of the grant that is still owed keeps it (R274). -/
def Link.freeFlit (x : Link) (c : Nat) : Link :=
  { x with rxFree := if x.rxOwe = 0 then addAt x.rxFree c 1 else x.rxFree, rxOwe := x.rxOwe - 1 }

/-- What becomes of one flit of the receive buffer: it stays while a message of this engine lies in it; one whose messages
all wait for another link moves to the part of 2,048 - G flits that holds such flits, which frees its credit, as long as
there is room; an empty one is gone. -/
def Link.bufStep (transit : Nat → Bool) (x : Link) (e : BufFlit) : Link :=
  if x.bufMine e.id then { x with rxBuf := x.rxBuf ++ [e] }
  else if transit e.id then
    if e.parked || 2048 - x.grant ≤ (x.rxBuf.filter (·.parked)).length then { x with rxBuf := x.rxBuf ++ [e] }
    else { x.freeFlit e.cls with rxBuf := x.rxBuf ++ [{ e with parked := true }] }
  else if e.parked then x else x.freeFlit e.cls

/-- The receive buffer of link `l` after messages have left it (R274). -/
def State.bufSettle (s : State) (l : Nat) : State :=
  let x := s.link l
  if x.rxBuf = [] then s
  else s.setLink l (x.rxBuf.foldl (Link.bufStep s.bufTransit) { x with rxBuf := [] })

end Sys2Proof.Machine
end

