-- ==== Sys2Proof/Machine/Tally.lean ====
section
/-! DEFINITION. The tally unit (R321 to R349): tallies and their owners, credit counters, core wait slots and the tally
ports, barriers, lending and the deadlock detector. -/
namespace Sys2Proof.Machine

/-! ## The store -/

/-- The tally unit changed by `f`. -/
def State.modTally (s : State) (f : TallyUnit → TallyUnit) : State := { s with tally := f s.tally }

/-- Whether the tally unit is powered (R323, domain 61). -/
def State.tallyOn (s : State) : Bool := s.domainOn 61

/-- Whether the tally unit works: powered, with the shared branch of the data clock (R388, R390). -/
def State.tallyRuns (s : State) : Bool := s.tallyOn && s.clockOn 16

/-- The tally unit's domain and clock are asked for. -/
def State.wakeTally (s : State) : State := (s.powerUp 61).clockUp 16

/-- An access that powers the tally unit is held until the domain is on (R323, R452, R470). -/
def State.holdTally (s : State) : State := (s.wakeTally).modTally fun t => { t with held := true }

/-- An operation of core `n`'s port taken while the unit is off or has no clock: it is held until it has both, and the port takes
no other meanwhile (R323, R390, R452). -/
def State.holdOp (s : State) (n : Nat) (op : Instr) : State :=
  (s.wakeTally).modTally fun t =>
    if t.heldOps.any (·.1 = n) then t else { t with heldOps := t.heldOps ++ [(n, op)] }

/-- A held access has been taken. -/
def State.taken (s : State) : State := s.modTally fun t => { t with held := false }

/-- The value of a tally; a frozen one reads all ones (R385). -/
def State.tallyVal (s : State) (t : Nat) : Nat :=
  if s.tally.frozen.contains t then 2 ^ 64 - 1 else (s.tally.val.get 0 t).toNat

/-- The owner of a tally's group (R322). -/
def State.tallyOwner (s : State) (t : Nat) : Tenant := s.tally.own.get 0 (t / 16)

/-- The tenant that core `n` acts for (R325). -/
def State.coreTenant (s : State) (n : Nat) : Tenant := s.tally.own.get 0 (3 * n)

/-- Whether a wait for value `v` on tally `t` is satisfied (R329, R331); never on a frozen tally (R385). -/
def State.waitMet (s : State) (t : Nat) (v : Nat) : Bool :=
  !s.tally.frozen.contains t && decide (v ≤ (s.tally.val.get 0 t).toNat)

/-- The configuration of credit counter `c` (R332). -/
def State.credCfg (s : State) (c : Nat) : CredCfg := s.tally.credCfg.get {} c

/-- The value of credit counter `c`; its CR_INIT while domain 61 is off (R469, R470). -/
def State.credVal (s : State) (c : Nat) : CredVal :=
  if s.tallyOn then s.tally.credVal.get {} c else { value := (s.credCfg c).init.setWidth 17 }

/-- Whether a wait slot's condition holds (R338): a tally at its value, or a credit value of at least the amount. -/
def State.condMet (s : State) : SlotCond → Bool
  | .none => false
  | .tally t v => s.waitMet t.toNat v.toNat
  | .credit c n => decide (n.toNat ≤ (s.credVal c.toNat).value.toNat)

/-- SAT bit `k` of core `n`'s port: the slot is armed and satisfied (R451). -/
def State.slotSat (s : State) (n k : Nat) : Bool := s.condMet (s.tally.slots.get .none (4 * n + k))

/-- CORE_WAKE bit `n` (R338, R452); low for an absent core (R450). -/
def State.coreWake (s : State) (n : Nat) : Bool := s.corePresent n && (List.range 4).any fun k => s.slotSat n k

/-- Something moved: the deadlock detector counts from zero and may fire again (R347). -/
def State.moved (s : State) : State := s.modTally fun t => { t with dlQuiet := false }

/-- Something moved where `b` holds: a tally or a credit counter has changed its value (R347). -/
def State.movedIf (s : State) (b : Bool) : State := if b then s.moved else s

/-! ## Lending (R340) -/

/-- The channel sleeps: its context is in Waiting and bound. -/
def State.sleeping (s : State) (ch : Nat) : Bool :=
  match (s.chan ch).ctx with
  | some c => (s.ctx c).state == .waiting
  | none => false

/-- Whether the wait of a sleeping channel is satisfied. -/
def State.chanMet (s : State) (ch : Nat) : Bool :=
  match (s.chan ch).ctx with
  | some c => s.waitMet (s.ctx c).waitTally.toNat (s.ctx c).waitValue.toNat
  | none => true

/-- Whether a core's four slots are all armed and unsatisfied. -/
def State.coreWaits (s : State) (n : Nat) : Bool :=
  (List.range 4).all fun k => s.tally.slots.get .none (4 * n + k) != .none && !s.slotSat n k

/-- The channels counted for lending. -/
def State.lentChans (s : State) : List Nat := s.chans.keys.filter fun ch => (s.chan ch).lent

/-- New counts presented to the power controller: LEND_UPD toggles when one changes (R459). -/
def State.lendPresent (s : State) (nch nco : Nat) : State :=
  if s.tally.lendChan.toNat = nch && s.tally.lendCore.toNat = nco then s
  else s.modTally fun t => { t with lendChan := BitVec.ofNat 11 nch, lendCore := BitVec.ofNat 9 nco,
                                    lendUpd := !t.lendUpd }

/-- Counts lowered where a wait is satisfied or has ended (R340). -/
def State.lendLower (s : State) : State :=
  let gone := s.lentChans.filter fun ch => !(s.sleeping ch) || s.chanMet ch
  let goneC := s.tally.lentCores.filter fun n => !(s.coreWaits n)
  let s := gone.foldl (fun t ch => t.setChan ch { (t.chan ch) with lent := false }) s
  let s := s.modTally fun t => { t with lentCores := t.lentCores.filter fun n => !goneC.contains n }
  s.lendPresent (min s.tally.lendChan.toNat s.lentChans.length) (min s.tally.lendCore.toNat s.tally.lentCores.length)

/-! ## Operations (R329 to R331) -/

/-- Who issues an operation, as the fault capture names it (R374 source 43): master kind, master id and tenant. -/
structure Issuer where
  mkind : Nat
  mid : Nat
  tenant : Tenant
deriving DecidableEq, Repr

/-- Whether an increment by `n` would carry tally `t` past its largest value (R331). -/
def State.wouldSaturate (s : State) (t n : Nat) : Bool :=
  !s.tally.frozen.contains t && decide (2 ^ 64 ≤ (s.tally.val.get 0 t).toNat + n)

/-- An increment of tally `t` by `n` (R329, R331): saturating with source 43; discarded on a frozen tally (R385) and in
the halted state (R378). -/
def State.bump (s : State) (t n : Nat) (who : Issuer) : State :=
  if s.faults.halted || s.tally.frozen.contains t then s
  else
    let sat := s.wouldSaturate t n
    let v := BitVec.ofNat 64 (satNat 64 ((s.tally.val.get 0 t).toNat + n))
    let s := ((s.modTally fun u => { u with val := u.val.set 0 t v }).movedIf (v != s.tally.val.get 0 t)).lendLower
    let s := s.tableWritten 3 t fun s => s.modTally fun u => { u with frozen := t :: u.frozen }
    if sat then s.raise { src := 43, mkind := who.mkind, mid := who.mid, tenant := who.tenant, addr := t } else s

/-- The claim of a refresh post against a consumed tally (R169, R329): the old value when a slot is free. -/
def State.claim (s : State) (t consumed size : Nat) : Option Nat × State :=
  let v := (s.tally.val.get 0 t).toNat
  if s.faults.halted || s.tally.frozen.contains t then (none, s)
  else if v - (s.tally.val.get 0 consumed).toNat < size then
    (some v, ((s.modTally fun u => { u with val := u.val.set 0 t (BitVec.ofNat 64 (satNat 64 (v + 1))) }).movedIf
      (decide (v + 1 < 2 ^ 64))).lendLower)
  else (none, s)

/-! ## Barriers (R341 to R346) -/

/-- Barrier `b`. -/
def State.barrier (s : State) (b : Nat) : Barrier := s.tally.bars.get {} b
/-- Barrier `b` replaced. -/
def State.setBarrier (s : State) (b : Nat) (x : Barrier) : State :=
  s.modTally fun t => { t with bars := t.bars.set {} b x }

/-- BA_ARRIVE. -/
def Barrier.arrive (x : Barrier) : Nat := bits x.cfg0.toNat 13 0
/-- BA_RELEASE. -/
def Barrier.release (x : Barrier) : Nat := bits x.cfg0.toNat 29 16
/-- BA_LOCAL. -/
def Barrier.localN (x : Barrier) : Nat := bits x.cfg0.toNat 47 32
/-- BA_PARENT. -/
def Barrier.parent (x : Barrier) : ChipNo := BitVec.ofNat 6 (bits x.cfg0.toNat 53 48)
/-- BA_ROOT. -/
def Barrier.root (x : Barrier) : Bool := x.cfg0.getLsbD 54
/-- BA_EN. -/
def Barrier.enabled (x : Barrier) : Bool := x.cfg0.getLsbD 55
/-- BA_REALIGN. -/
def Barrier.realign (x : Barrier) : Nat := bits x.cfg0.toNat 63 56
/-- The children. -/
def Barrier.children (x : Barrier) : List Nat := setBits 64 x.cfg1.toNat
/-- BA_TENANT. -/
def Barrier.tenant (x : Barrier) : Tenant := BitVec.ofNat 12 (bits x.cfg2.toNat 43 32)

/-- Whether the next episode is complete at this chip (R342). A barrier with no local arrivals and no child completes
none (DEDUCED, log entry 18). -/
def State.episodeReady (s : State) (b : Nat) : Bool :=
  let x := s.barrier b
  let k := x.reported.toNat + 1
  x.enabled && (x.localN != 0 || !x.children.isEmpty) && decide (k < 2 ^ 31) &&
    !s.tally.frozen.contains x.arrive &&
    decide (x.a0.toNat + k * x.localN ≤ (s.tally.val.get 0 x.arrive).toNat) &&
    x.children.all fun c => decide (k ≤ x.childRep.get 0 c)

/-- A TALLY message (R343). -/
def State.tallyMsg (s : State) (b : Nat) (x : Barrier) (dst : ChipNo) (kind episode : Nat) : Msg :=
  { s.msg opTally dst with tenant := x.tenant,
                            data := leBytes 1 kind ++ leBytes 1 b ++ zeros 6 ++ leBytes 8 episode }

/-- A barrier message to a direct partner; while no link to it is in service it becomes due (R343, R344). -/
def State.barrierSend (s : State) (b : Nat) (dst : ChipNo) (kind episode : Nat) : State :=
  let x := s.barrier b
  if s.directSet dst = [] then s.setBarrier b { x with due := x.due ++ [(dst, BitVec.ofNat 8 kind, episode)] }
  else s.sendMsg (s.tallyMsg b x dst kind episode)

/-- The credit counters from BA_CR_FIRST to BA_CR_LAST set to their CR_INIT (R345). -/
def State.realignCredits (s : State) (x : Barrier) : State :=
  let lo := bits x.cfg2.toNat 9 0
  let hi := bits x.cfg2.toNat 25 16
  let t := (List.range (hi + 1 - lo)).foldl (fun t i =>
    let c := lo + i
    let v := t.tally.credVal.get {} c
    t.modTally fun u => { u with credVal := u.credVal.set {} c { v with value := (t.credCfg c).init.setWidth 17 } }) s
  t.movedIf (t.tally.credVal != s.tally.credVal)

/-- BARRIER_RELEASE (R342): on the release of episode `k` the chip realigns if due, increments its release tally and
sends the release to every child, in this order. -/
def State.releaseEpisode (s : State) (b k : Nat) : State :=
  let x := s.barrier b
  let s := if x.realign ≠ 0 && k % x.realign = 0 then s.realignCredits x else s
  let s := s.bump x.release 1 ⟨6, 0, x.tenant⟩
  let s := s.setBarrier b { (s.barrier b) with released := BitVec.ofNat 31 k }
  x.children.foldl (fun t c => t.barrierSend b (BitVec.ofNat 6 c) 2 k) s

/-- BARRIER_EPISODE_COMPLETE (R342): a chip reports the episode to its parent; the root releases it. -/
def State.episode (s : State) (b : Nat) : State :=
  let x := s.barrier b
  let k := x.reported.toNat + 1
  let s := s.setBarrier b { x with reported := BitVec.ofNat 31 k }
  if x.root then s.releaseEpisode b k else s.barrierSend b x.parent 1 k

/-- The complete episodes of every barrier taken one after another, up to `n` of them. -/
def settleBarriers : Nat → State → State
  | 0, s => s
  | n + 1, s =>
    match s.tally.bars.keys.find? fun b => s.episodeReady b with
    | none => s
    | some b => settleBarriers n (s.episode b)

/-- Every complete episode: 64 barriers take fewer than 2^31 each (R341, R342). -/
def State.settle (s : State) : State := if s.faults.halted then s else settleBarriers (64 * 2 ^ 31) s

/-- TALLY_INCREMENT (R329): an increment and the barrier episodes that it completes. -/
def State.increment (s : State) (t n : Nat) (who : Issuer) : State := (s.bump t n who).settle

/-- BARRIER_RESEND (R344): a link to a parent or child comes into service, so the last message to that chip goes again,
then the due ones in episode order. -/
def State.barrierResend (s : State) (c : ChipNo) : State :=
  s.tally.bars.keys.foldl (fun t b =>
    let x := t.barrier b
    let up := !x.root && x.parent == c
    let down := x.children.contains c.toNat
    if !x.enabled || !(up || down) then t
    else
      let due := x.due.filter (·.1 = c)
      let kind := if up then 1 else 2
      let now := if up then x.reported.toNat else x.released.toNat
      let last := match due.head? with | some d => d.2.2 - 1 | none => now
      let t := t.setBarrier b { x with due := x.due.filter (·.1 ≠ c) }
      let t := if last = 0 then t else t.sendMsg (t.tallyMsg b x c kind last)
      due.foldl (fun t d => t.sendMsg (t.tallyMsg b x c d.2.1.toNat d.2.2)) t) s

/-- The write of BAR_CFG0 (R341, R468): while enabled, only clearing BA_EN has an effect and other changes set
BS_CFG_ERR; setting BA_EN applies the other fields first, records the bases, and is refused when a tally is not owned by
BA_TENANT. -/
def State.barCfg0Write (s : State) (b : Nat) (w : Word) : State :=
  let x := s.barrier b
  let en : Word := 0x0080000000000000
  let w := w &&& 0xFFFFFFFF3FFF3FFF
  if x.enabled then
    let x := if (w ||| en) ≠ (x.cfg0 ||| en) then { x with cfgErr := true } else x
    s.setBarrier b (if w.getLsbD 55 then x else { x with cfg0 := x.cfg0 &&& ~~~en })
  else
    let x := { x with cfg0 := w &&& ~~~en }
    if !w.getLsbD 55 then s.setBarrier b x
    else if s.tallyOwner x.arrive ≠ x.tenant || s.tallyOwner x.release ≠ x.tenant then
      s.setBarrier b { x with cfgErr := true }
    else
      (s.setBarrier b { x with cfg0 := w, reported := 0, released := 0, childRep := [], due := [],
                               a0 := s.tally.val.get 0 x.arrive, r0 := s.tally.val.get 0 x.release }).settle

/-- A write of BAR_CFG0 as the control port takes it (R470): one that would enable the barrier powers domain 61, and takes
effect once the domain is on. -/
def State.barWrite (s : State) (b : Nat) (w : Word) : State :=
  if w.getLsbD 55 && !(s.barrier b).enabled && !s.tallyOn then s.holdTally else s.taken.barCfg0Write b w

/-- BARRIER_ENABLE (R341, R470): a write of BAR_CFG0 with BA_EN set while the barrier is disabled. -/
def execBarrierEnable (b : Fin 64) (w : Word) (s : State) : Host.Outcome State Fault Refusal :=
  .next (if !w.getLsbD 55 || (s.barrier b.val).enabled || !s.cpAwake then s else s.barWrite b.val w)

/-- BARRIER_DISABLE (R341): a write of BAR_CFG0 with BA_EN clear to an enabled barrier. -/
def execBarrierDisable (b : Fin 64) (w : Word) (s : State) : Host.Outcome State Fault Refusal :=
  .next (if w.getLsbD 55 || !(s.barrier b.val).enabled || !s.cpAwake then s else s.barWrite b.val w)

/-- A write of TALLY_OWN (R322): the group's owner changes; no value, armed wait or accepted operation does. -/
def State.ownWrite (s : State) (g : Nat) (w : BitVec 32) : State :=
  s.modTally fun t => { t with own := t.own.set 0 g (w.setWidth 12) }

/-- TALLY_OWN_WRITE (R322). -/
def execTallyOwnWrite (g : Fin 1024) (w : BitVec 32) (s : State) : Host.Outcome State Fault Refusal :=
  .next (if s.cpAwake then s.ownWrite g.val w else s)

/-- A write of CRED_CFG (R332, R470): owner and initial value, and the counter's value set to it; a non-zero CR_INIT is a
condition of R323, so it powers domain 61 and takes effect once the domain is on. -/
def State.credWrite (s : State) (c : Nat) (w : Word) : State :=
  if bits w.toNat 31 16 ≠ 0 && !s.tallyOn then s.holdTally
  else
    let s := s.taken
    let cfg : CredCfg := { tenant := w.setWidth 12, init := BitVec.ofNat 16 (bits w.toNat 31 16) }
    let v := s.tally.credVal.get {} c
    ((s.modTally fun t => { t with credCfg := t.credCfg.set {} c cfg,
                                   credVal := t.credVal.set {} c { v with value := cfg.init.setWidth 17 } }).movedIf
        (v.value != cfg.init.setWidth 17)).lendLower

/-- CRED_CFG_WRITE (R332). -/
def execCredCfgWrite (c : Fin 1024) (w : Word) (s : State) : Host.Outcome State Fault Refusal :=
  .next (if s.cpAwake then s.credWrite c.val w else s)

/-! ## Tally ports (R325, R333, R338, R451, R452) -/

/-- The answer of core `n`'s port. -/
def State.tpAnswer (s : State) (n : Nat) (refused : Bool) (rdata : Nat) : State :=
  s.modTally fun t => { t with replies := t.replies.set {} n ⟨refused, BitVec.ofNat 64 rdata⟩ }

/-- Runs an operation taken at core `n`'s port: an absent core's port is ignored (R450); with domain 61 or the
shared clock off the operation `op` is held while they are asked for (R323, R390, R452); in the halted state an operation other than a read is refused
(R452); `bad` refuses it. -/
def State.tpOp (s : State) (n : Nat) (op : Instr) (reads bad : Bool) (f : State → State) : State :=
  if !s.corePresent n then s
  else if !s.tallyRuns then s.holdOp n op
  else if (s.faults.halted && !reads) || bad then s.tpAnswer n true 0
  else f s

/-- Whether core `n` may use tally `id` (R325). -/
def State.coreOwns (s : State) (n : Nat) (id : TallyNo) : Bool := s.tallyOwner id.toNat == s.coreTenant n

/-- Whether core `n` may use the credit counter in bits [9:0] of `id` (R333). -/
def State.coreOwnsCredit (s : State) (n : Nat) (id : TallyNo) : Bool :=
  (s.credCfg (bits id.toNat 9 0)).tenant == s.coreTenant n

/-- Whether ARG is an amount of 1 to 65,535 (R452). -/
def amountOk (arg : Word) : Bool := decide (1 ≤ arg.toNat) && decide (arg.toNat ≤ 65535)

/-- TP_READ_TALLY (R451): the tally's value. -/
def execTpReadTally (core : Fin 256) (id : TallyNo) (arg : Word) (s : State) : Host.Outcome State Fault Refusal :=
  .next (s.tpOp core.val (.tpReadTally core id arg) true (arg ≠ 0 || !s.coreOwns core.val id)
    fun s => s.tpAnswer core.val false (s.tallyVal id.toNat))

/-- TP_INCREMENT (R329): the tally rises, saturating. -/
def execTpIncrement (core : Fin 256) (id : TallyNo) (arg : Word) (s : State) : Host.Outcome State Fault Refusal :=
  .next (s.tpOp core.val (.tpIncrement core id arg) false (!amountOk arg || !s.coreOwns core.val id)
    fun s => (s.increment id.toNat arg.toNat ⟨2, core.val, s.coreTenant core.val⟩).tpAnswer core.val false 0)

/-- The condition of a core's wait slot replaced (R338). -/
def State.setSlot (s : State) (n k : Nat) (c : SlotCond) : State :=
  (s.modTally fun t => { t with slots := t.slots.set .none (4 * n + k) c }).lendLower

/-- TP_ARM_TALLY_WAIT (R338): the slot waits for the tally to reach ARG; an armed slot's condition is replaced. -/
def execTpArmTallyWait (core : Fin 256) (id : TallyNo) (slot : Fin 4) (arg : Word) (s : State) :
    Host.Outcome State Fault Refusal :=
  .next (s.tpOp core.val (.tpArmTallyWait core id slot arg) false (!s.coreOwns core.val id)
    fun s => (s.setSlot core.val slot.val (.tally id arg)).tpAnswer core.val false 0)

/-- A credit counter's value changed by a give, a take or a realignment. -/
def State.setCredit (s : State) (c : Nat) (v : CredVal) : State :=
  ((s.modTally fun t => { t with credVal := t.credVal.set {} c v }).movedIf (v.value != (s.credVal c).value)).lendLower

/-- TP_CREDIT_GIVE (R333): the value rises, stopping at 131,071 with the overflow fault. -/
def execTpCreditGive (core : Fin 256) (id : TallyNo) (arg : Word) (s : State) : Host.Outcome State Fault Refusal :=
  .next (s.tpOp core.val (.tpCreditGive core id arg) false (!amountOk arg || !s.coreOwnsCredit core.val id) fun s =>
    let c := bits id.toNat 9 0
    let v := s.credVal c
    let n := v.value.toNat + arg.toNat
    let t := s.setCredit c { v with value := BitVec.ofNat 17 (min n 131071) }
    let t := if 131071 < n then t.raise { src := 44, mkind := 2, mid := core.val, sub := 1, addr := c,
                                          tenant := s.coreTenant core.val } else t
    t.tpAnswer core.val false (min n 131071))

/-- TP_CREDIT_TAKE (R333): the value falls; a take below zero is refused, sets CR_UNDER and raises the underflow
fault. -/
def execTpCreditTake (core : Fin 256) (id : TallyNo) (arg : Word) (s : State) : Host.Outcome State Fault Refusal :=
  .next (s.tpOp core.val (.tpCreditTake core id arg) false (!amountOk arg || !s.coreOwnsCredit core.val id) fun s =>
    let c := bits id.toNat 9 0
    let v := s.credVal c
    if v.value.toNat < arg.toNat then
      let t := s.modTally fun t => { t with credVal := t.credVal.set {} c { v with under := true } }
      (t.raise { src := 44, mkind := 2, mid := core.val, sub := 0, addr := c,
                 tenant := s.coreTenant core.val }).tpAnswer core.val true 0
    else
      let n := v.value.toNat - arg.toNat
      (s.setCredit c { v with value := BitVec.ofNat 17 n }).tpAnswer core.val false n)

/-- TP_ARM_CREDIT_WAIT (R338): the slot waits for the credit value to be at least the amount. -/
def execTpArmCreditWait (core : Fin 256) (id : TallyNo) (slot : Fin 4) (arg : Word) (s : State) :
    Host.Outcome State Fault Refusal :=
  .next (s.tpOp core.val (.tpArmCreditWait core id slot arg) false (decide (65535 < arg.toNat) || !s.coreOwnsCredit core.val id)
    fun s => (s.setSlot core.val slot.val (.credit (id.setWidth 10) (arg.setWidth 16))).tpAnswer core.val false 0)

/-- TP_DISARM_SLOT (R338): the slot is disarmed. -/
def execTpDisarmSlot (core : Fin 256) (slot : Fin 4) (arg : Word) (s : State) : Host.Outcome State Fault Refusal :=
  .next (s.tpOp core.val (.tpDisarmSlot core slot arg) false (arg ≠ 0) fun s => (s.setSlot core.val slot.val .none).tpAnswer core.val false 0)

/-- TP_READ_CREDIT (R451): the credit counter's value. -/
def execTpReadCredit (core : Fin 256) (id : TallyNo) (arg : Word) (s : State) : Host.Outcome State Fault Refusal :=
  .next (s.tpOp core.val (.tpReadCredit core id arg) true (arg ≠ 0 || !s.coreOwnsCredit core.val id)
    fun s => s.tpAnswer core.val false (s.credVal (bits id.toNat 9 0)).value.toNat)

/-- The state that an operation answers, or `s` where it answers none. -/
def State.after (s : State) : Host.Outcome State Fault Refusal → State
  | .next t => t
  | _ => s

/-- What a held operation of a tally port does once it is taken; nothing for any other command. -/
def State.runHeld (s : State) (op : Instr) : State :=
  match op with
  | .tpReadTally core id arg => s.after (execTpReadTally core id arg s)
  | .tpIncrement core id arg => s.after (execTpIncrement core id arg s)
  | .tpArmTallyWait core id slot arg => s.after (execTpArmTallyWait core id slot arg s)
  | .tpCreditGive core id arg => s.after (execTpCreditGive core id arg s)
  | .tpCreditTake core id arg => s.after (execTpCreditTake core id arg s)
  | .tpArmCreditWait core id slot arg => s.after (execTpArmCreditWait core id slot arg s)
  | .tpDisarmSlot core slot arg => s.after (execTpDisarmSlot core slot arg s)
  | .tpReadCredit core id arg => s.after (execTpReadCredit core id arg s)
  | _ => s

/-- The operations held while the unit was off are executed in the order taken (R452). -/
def State.runHeldOps (s : State) : State :=
  let ops := s.tally.heldOps
  ops.foldl (fun t p => t.runHeld p.2) (s.modTally fun t => { t with heldOps := [] })

/-! ## The deadlock detector and lending (R340, R347) -/

/-- The contexts in Waiting, lowest numbers first. -/
def State.waiters (s : State) : List Nat := s.ctxs.keys.filter fun c => (s.ctxs.get {} c).state == .waiting

/-- Whether a channel is bound. -/
def State.anyBound (s : State) : Bool := s.chans.any fun e => e.2.ctx.isSome

/-- The deadlock record (type 0x0A, R416): up to eight waiting contexts. -/
def State.deadlockEvent (s : State) : EvRec :=
  let w := s.waiters.take 8
  { evInfo 0x0A 0 (leBytes 1 w.length ++ zeros 15 ++ w.flatMap fun c =>
      let x := s.ctxs.get {} c
      leBytes 4 c ++ leBytes 2 x.waitTally.toNat ++ zeros 2 ++ leBytes 8 x.waitValue.toNat ++
        leBytes 8 (s.tallyVal x.waitTally.toNat)) with src := 46 }

/-- DEADLOCK_TIMEOUT (R347): the count of stalled data clocks has reached TC_DEADLOCK_US with a channel bound or a
context in Waiting, and nothing has moved since the detector last fired: the fault, the event and TS_DL_FIRED. -/
def execDeadlockTimeout (s : State) : Host.Outcome State Fault Refusal :=
  .next (
    if s.tally.deadlockUs = 0 || s.tally.dlQuiet || (s.waiters = [] && !s.anyBound) then s
    else
      let c := s.waiters.headD 0
      let x := s.ctxs.get {} c
      let ev := s.deadlockEvent
      (s.modTally fun t => { t with dlFired := true, dlQuiet := true }).raiseWith
        { src := 46, mkind := if s.waiters = [] then 6 else 1, mid := c, tenant := x.tenant,
          addr := x.waitTally.toNat } (some ev))

/-- LEND_TIMEOUT (R340): a bound sleep, or a core with four armed and unsatisfied slots, has lasted TC_LEND_US and
counts for lending. -/
def execLendTimeout (who : Lender) (s : State) : Host.Outcome State Fault Refusal :=
  .next (
    if s.tally.lendUs = 0 then s
    else match who with
    | .channel ch => if s.sleeping ch.val && !s.chanMet ch.val then s.setChan ch.val { (s.chan ch.val) with lent := true } else s
    | .core n =>
      if s.corePresent n.val && s.coreWaits n.val && !s.tally.lentCores.contains n.val then
        s.modTally fun t => { t with lentCores := n.val :: t.lentCores }
      else s)

/-- LEND_UPDATE (R340, R459): both counts are presented, and LEND_UPD toggles when one changes. -/
def execLendUpdate (s : State) : Host.Outcome State Fault Refusal :=
  .next (s.lendPresent s.lentChans.length s.tally.lentCores.length)

end Sys2Proof.Machine
end

