-- ==== Sys2Proof/Machine/CtxOps.lean ====
section
/-! DEFINITION. The shared operations on contexts: the record as bytes (R47), ring arithmetic (R54, R65), the Ready queues
(R68), binding and unbinding (R8, R11), states (R52), and tallies as descriptors name them (R324, R327). -/
namespace Sys2Proof.Machine

/-! ## The record (R47) -/

/-- The code of a context state (R51). -/
def CtxState.code : CtxState → Nat
  | .closed => 0
  | .idle => 1
  | .ready => 2
  | .running => 3
  | .waiting => 4
  | .pausing => 5
  | .paused => 6
  | .stopped => 7

/-- The eight words of a context record. -/
def Ctx.words (x : Ctx) : List Nat :=
  [x.state.code + 8 * b2n x.priv + 16 * b2n x.watch + 32 * b2n x.desched + 64 * b2n x.errCont + 2 ^ 8 * x.tenant.toNat +
     2 ^ 20 * x.basePrio.toNat + 2 ^ 24 * x.rateShare.toNat + 2 ^ 33 * x.ringLog2.toNat + 2 ^ 40 * x.watchUs.toNat,
   x.ringBase.toNat,
   x.tail.toNat + 2 ^ 16 * x.doneIdx.toNat + 2 ^ 32 * x.fetchIdx.toNat + 2 ^ 48 * b2n x.part + 2 ^ 49 * b2n x.tallyVirt,
   x.keySet.toNat + 2 ^ 16 * x.channel.toNat + 2 ^ 26 * b2n x.bound + 2 ^ 27 * x.hintFrame.toNat +
     2 ^ 31 * b2n x.hintValid + 2 ^ 32 * x.waitTally.toNat,
   x.waitValue.toNat, x.cursor.toNat, x.crcPartial.toNat,
   x.descDone.toNat + 2 ^ 31 * b2n x.doneSat + 2 ^ 32 * x.lastErr.toNat + 2 ^ 48 * x.lastErrIdx.toNat]

/-- The record's bytes as ctx.query returns them; words found damaged read zero (R385). -/
def Ctx.record (x : Ctx) : Bytes :=
  (x.words.zip (List.range 8)).flatMap fun p => leBytes 8 (if x.damaged.getLsbD p.2 then 0 else p.1)

/-- Whether the context is open. -/
def Ctx.isOpen (x : Ctx) : Bool := x.state != .closed

/-! ## The ring (R54, R65) -/

/-- Entries of the ring. -/
def Ctx.ringSize (x : Ctx) : Nat := 2 ^ x.ringLog2.toNat
/-- Distance of a ring index from DONE_IDX. -/
def Ctx.dist (x : Ctx) (i : Nat) : Nat := (i + x.ringSize - x.doneIdx.toNat) % x.ringSize
/-- The index `n` entries after `i`. -/
def Ctx.next (x : Ctx) (i n : Nat) : BitVec 16 := BitVec.ofNat 16 ((i + n) % x.ringSize)
/-- Address of ring entry `i`, in the space of RING_BASE. -/
def Ctx.entryAddr (x : Ctx) (i : Nat) : Nat := x.ringBase.toNat + 128 * i

/-- Ring entries the descriptor occupies (R62). -/
def Work.entries (w : Work) : Nat := if w.slot = [] then 1 else 2

/-- The ring index from which a channel fetches after a bind: after the descriptors that have started and not completed. -/
def Ctx.startIdx (x : Ctx) : BitVec 16 :=
  match x.works.getLast? with
  | some w => x.next w.idx.toNat w.entries
  | none => x.doneIdx

/-! ## Ready queues and states (R52, R68) -/

/-- Whether a channel stands at the entry at which fetching stopped (R66): a knock or a watch poll lets it go on. -/
def Ctx.blocked (x : Ctx) : Bool := x.fetchHold && x.chanFetch == x.holdIdx

/-- Puts a context at the tail of its priority's Ready queue. -/
def State.enqueue (s : State) (c : CtxNo) : State :=
  let p := (s.ctx c).basePrio.toNat
  let q := s.readyQ.get [] p
  { s with readyQ := s.readyQ.set [] p (if q.contains c then q else q ++ [c]) }

/-- Takes a context out of its Ready queue. -/
def State.dequeue (s : State) (c : CtxNo) : State :=
  let p := (s.ctx c).basePrio.toNat
  { s with readyQ := s.readyQ.set [] p ((s.readyQ.get [] p).filter (· ≠ c)) }

/-- Moves a context to a state, keeping the Ready queues. -/
def State.toState (s : State) (c : CtxNo) (st : CtxState) : State :=
  let s := if (s.ctx c).state == .ready && st != .ready then s.dequeue c else s
  let s := if st == .ready && (s.ctx c).state != .ready then s.enqueue c else s
  s.modCtx c fun x => { x with state := st }

/-- The channel a context is bound to. -/
def State.chanOf (s : State) (c : CtxNo) : Option Nat :=
  if (s.ctx c).bound then some (s.ctx c).channel.toNat else none

/-- Unbinds a context from its channel (R68): fetched entries are dropped, to be read again as they stand in memory
(R85), and the channel is free. -/
def State.unbind (s : State) (c : CtxNo) : State :=
  match s.chanOf c with
  | none => s
  | some ch =>
    let s := s.modCtx c fun x => { x with bound := false, channel := 0, held := [], leave := .no }
    (s.setChan ch {}).lendLower

/-- Binds a Ready context to a channel (R68, R226): the next fetch starts after the descriptors in progress, both allowances
are full, and the frame is that of the swarm whose source it is (R187). -/
def State.bind (s : State) (c : CtxNo) (ch : Nat) : State :=
  let s := s.toState c .running
  let s := s.modCtx c fun x => { x with bound := true, channel := BitVec.ofNat 10 ch, held := [], chanFetch := x.startIdx,
                                          leave := .no }
  let s : State := { s with swarms := s.swarms.mapAll {} fun _ x =>
    if x.isOpen && x.src == c then { x with srcFrame := some (chanFrame ch) } else x }
  s.setChan ch { ctx := some c, allowRd := 512, allowWr := 512, lent := false }

/-- The channels bound in frame `f`. -/
def State.boundIn (s : State) (f : Nat) : List Nat :=
  s.chans.keys.filter fun n => n / 64 = f && (s.chan n).ctx.isSome

/-- Whether work may issue in frame `f`: it runs and is neither stopped nor draining (R232). -/
def State.frameUp (s : State) (f : Nat) : Bool :=
  (s.frame f).state == .run && !(s.frame f).stopped && !(s.frame f).draining

/-- LAST_ERR and LAST_ERR_IDX. -/
def State.lastErr (s : State) (c : CtxNo) (code : Nat) (idx : BitVec 16) : State :=
  s.modCtx c fun x => { x with lastErr := BitVec.ofNat 16 code, lastErrIdx := idx }

/-- The waiting context leaves Waiting: its wait no longer holds an entry. -/
def State.disarm (s : State) (c : CtxNo) : State :=
  (s.modCtx c fun x => { x with waitTally := 0, waitValue := 0, sharedWait := false }).lendLower

/-! ## Tallies as descriptors name them (R324, R327, R328) -/

/-- The physical tally that an id of context `c` names, if it is valid; `remote` checks the map only. -/
def State.tallyFor (s : State) (x : Ctx) (id : Nat) (remote : Bool := false) : Option TallyNo :=
  let own (t : Nat) : Bool := remote || x.priv || s.tallyOwner t == x.tenant
  if x.tallyVirt then
    let e := ((x.vmap.getD []).getD id 0).toNat
    if id < 64 && bit e 15 && own (e % 2 ^ 14) then some (BitVec.ofNat 14 e) else none
  else if own id then some (BitVec.ofNat 14 id) else none

/-! ## Stopping (R78, R79) -/

/-- A context that is to stop becomes Stopped once nothing of it is in progress; a Pausing one when its drain ends. -/
def State.stopIfDone (s : State) (c : CtxNo) : State :=
  let x := s.ctx c
  if x.works = [] && x.failStop && x.state != .pausing && x.state != .stopped && x.state != .closed then
    (((s.toState c .stopped).unbind c).modCtx c fun x => { x with failStop := false }).disarm c
  else s

/-- A ring fault (R79): whatever its ERR_CONT, the context starts nothing more and becomes Stopped once its descriptors in
progress have ended; source 41 captures the access type and the entry's address. Nothing is written into the entry: the
descriptor `drop` whose status could not be written leaves without one, and an unsatisfied WAIT leaves too, so that
DONE_IDX stays at it (DEDUCED, log entry 22). -/
def State.ringFault (s : State) (c : CtxNo) (code access : Nat) (idx : BitVec 16) (drop : Nat := 0) : State :=
  let x := s.ctx c
  let s := (s.lastErr c code idx).modCtx c fun x =>
    { x with failStop := true, works := x.works.filter fun w => decide (w.id ≠ drop) && !(w.kind == .wait && !w.lastRead) }
  let s := s.raise { src := 41, mkind := 1, mid := c.toNat, tenant := x.tenant, access := access, sub := access,
                     addr := x.entryAddr idx.toNat, space := if x.priv then 4 else 0 }
  s.stopIfDone c

end Sys2Proof.Machine
end

