-- ==== Sys2Proof/Machine/Keeper.lean ====
section
/-! DEFINITION. The keeper's verbs as a whole: the catalogue (R42), the mailbox doorbells (R25 to R28), acceptance and
its checks (R22, R23, R32 to R39, R378), the order of verbs that name one object (R34), and completion (R24, R41). -/
namespace Sys2Proof.Machine

/-! ## The catalogue (R42) -/

/-- A stated range of a parameter: offset in the request, size in bytes, lowest and highest value. -/
structure ParamRange where
  off : Nat
  size : Nat
  lo : Nat
  hi : Nat
deriving DecidableEq, Repr

/-- A verb of the catalogue: whether a tenant-manager mailbox may ring it, whether CANCEL ends it, its parameters as
(element size, count) in order, their stated ranges, the one-byte parameters that may also be 0xFF for all, and whether it
records a verb event (R416). -/
structure VerbInfo where
  tenantOk : Bool := false
  cancellable : Bool := false
  params : List (Nat × Nat) := []
  ranges : List ParamRange := []
  orAll : List Nat := []
  event : Bool := true
deriving DecidableEq, Repr

/-- The range of a context number at byte 16. -/
def rangeCtx : ParamRange := ⟨16, 4, 0, 2 ^ 18 - 1⟩
/-- The range of a tenant at byte 16: tenant 0 is refused (R43). -/
def rangeTenant : ParamRange := ⟨16, 2, 1, 4095⟩
/-- The range of a key set at byte 16: key set 0 is refused (R43). -/
def rangeKset : ParamRange := ⟨16, 2, 1, 2 ^ 14 - 1⟩

/-- The table Verb catalogue (R42), with the ranges that it and the owning rules state. -/
def verbInfo (code : Nat) : Option VerbInfo :=
  match code with
  | 0x0100 => some { tenantOk := true, event := false }
  | 0x0101 => some { tenantOk := true, event := false }
  | 0x0102 => some { params := [(8, 1), (4, 1)], ranges := [⟨24, 4, 0, 2 ^ 19⟩] }
  | 0x0103 => some {}
  | 0x0104 => some { params := [(1, 1), (2, 1)], ranges := [⟨16, 1, 8, 31⟩, ⟨18, 2, 1, 4095⟩] }
  | 0x0105 => some { params := [(1, 1)], ranges := [⟨16, 1, 8, 31⟩] }
  | 0x0200 => some { params := [(2, 1), (8, 1)], ranges := [rangeTenant] }
  | 0x0201 => some { params := [(2, 1)], ranges := [rangeTenant] }
  | 0x0300 => some { tenantOk := true, params := [(4, 1), (8, 1)], ranges := [rangeCtx] }
  | 0x0301 => some { tenantOk := true, params := [(4, 1)], ranges := [rangeCtx] }
  | 0x0302 => some { tenantOk := true, params := [(4, 1), (1, 1)], ranges := [rangeCtx, ⟨20, 1, 0, 1⟩] }
  | 0x0303 => some { tenantOk := true, params := [(4, 1)], ranges := [rangeCtx] }
  | 0x0304 => some { tenantOk := true, params := [(4, 1)], ranges := [rangeCtx] }
  | 0x0305 => some { tenantOk := true, params := [(4, 1)], ranges := [rangeCtx], event := false }
  | 0x0306 => some { tenantOk := true, params := [(4, 1), (2, 1)], ranges := [rangeCtx, ⟨20, 2, 1, 256⟩] }
  | 0x0400 => some { tenantOk := true, params := [(2, 1), (8, 1), (8, 1)], ranges := [rangeTenant] }
  | 0x0401 => some { cancellable := true, params := [(2, 1), (1, 48)], ranges := [rangeTenant] }
  | 0x0402 => some { params := [(1, 1), (8, 1), (8, 1)] }
  | 0x0403 => some { params := [(1, 1)] }
  | 0x0404 => some { params := [(1, 1)], ranges := [⟨16, 1, 0, 31⟩], event := false }
  | 0x0500 => some { tenantOk := true, params := [(2, 1), (8, 1)], ranges := [rangeKset] }
  | 0x0501 => some { tenantOk := true, params := [(2, 1)], ranges := [⟨16, 2, 0, 2 ^ 14 - 1⟩] }
  | 0x0502 => some { tenantOk := true, params := [(4, 1), (2, 1)], ranges := [rangeCtx, ⟨20, 2, 1, 2 ^ 14 - 1⟩] }
  | 0x0503 => some { tenantOk := true, params := [(1, 1), (2, 1), (4, 1), (8, 4)],
                     ranges := [⟨16, 1, 0, 3⟩, ⟨18, 2, 1, 2 ^ 14 - 1⟩, ⟨20, 4, 0, 2 ^ 18 - 1⟩] }
  | 0x0504 => some { tenantOk := true, params := [(1, 1)], ranges := [⟨16, 1, 0, 3⟩] }
  | 0x0600 => some { params := [(1, 1), (8, 1)] }
  | 0x0601 => some { params := [(1, 1), (2, 1), (2, 1), (8, 1)],
                     ranges := [⟨16, 1, 0, 15⟩, ⟨18, 2, 0, 4095⟩, ⟨20, 2, 1, 4096⟩], orAll := [16] }
  | 0x0700 => some { params := [(4, 1), (8, 1)], ranges := [rangeCtx] }
  | 0x0701 => some { params := [(2, 1)], ranges := [⟨16, 2, 0, 2 ^ 14 - 1⟩], event := false }
  | 0x0800 => some { params := [(1, 1)] }
  | 0x0801 => some { cancellable := true, params := [(2, 1)] }
  | 0x0802 => some { cancellable := true, params := [(1, 1)], ranges := [⟨16, 1, 1, 2⟩] }
  | 0x0900 => some { event := false }
  | 0x0901 => some { params := [(8, 1)] }
  | 0x0902 => some {}
  | 0x0A00 => some { params := [(1, 1)], ranges := [⟨16, 1, 0, 17⟩], event := false }
  | 0x0A01 => some { params := [(8, 1)] }
  | 0x0A02 => some { params := [(1, 1)], ranges := [⟨16, 1, 0, 17⟩] }
  | 0x0B00 => some { params := [(2, 1), (1, 1)], ranges := [⟨18, 1, 0, 3⟩] }
  | 0x0B01 => some { cancellable := true, params := [(1, 1)], ranges := [⟨16, 1, 1, 2⟩] }
  | _ => none

/-- Byte offsets in the request of the parameters (R23): each aligned to its element size, from byte 16 on; with the
offset after the last one. -/
def paramOffsets : List (Nat × Nat) → Nat → List (Nat × Nat) × Nat
  | [], o => ([], o)
  | (sz, n) :: r, o =>
    let a := alignUp sz o
    let q := paramOffsets r (a + sz * n)
    ((a, sz * n) :: q.1, q.2)

/-- Parameters packed by the rule of R23 from byte 16 on, for results (R24): (element size, bytes). -/
def packResults : List (Nat × Bytes) → Nat → Bytes
  | [], _ => []
  | (sz, b) :: r, o => zeros (alignUp sz o - o) ++ b ++ packResults r (alignUp sz o + b.length)

/-- The results of a verb as (element size, bytes). -/
def results (l : List (Nat × Bytes)) : Bytes := packResults l 16

/-! ## Fields of a request (R22) -/

/-- VERB. -/
def reqVerb (r : Bytes) : Nat := leAt r 0 2
/-- TARGET_CHIP. -/
def reqTarget (r : Bytes) : ChipNo := BitVec.ofNat 6 (leAt r 2 1)
/-- RELAY. -/
def reqRelay (r : Bytes) : Bool := bit (leAt r 3 1) 0
/-- SEQ. -/
def reqSeq (r : Bytes) : BitVec 32 := BitVec.ofNat 32 (leAt r 4 4)
/-- IFACE_MAJOR. -/
def reqMajor (r : Bytes) : Nat := leAt r 8 1
/-- A parameter of `n` bytes at request offset `off`. -/
def par (r : Bytes) (off n : Nat) : Nat := leAt r off n

/-- The offset of the first offending byte under R23, if any: a reserved header field, a padding byte, or a parameter
outside its range. -/
def firstOffence (v : VerbInfo) (r : Bytes) : Option Nat :=
  let p := paramOffsets v.params 16
  let inPar (i : Nat) : Bool := p.1.any fun q => decide (q.1 ≤ i) && decide (i < q.1 + q.2)
  let hdr := (if fieldAt r 2 1 7 6 != 0 then [2] else []) ++ (if fieldAt r 3 1 7 1 != 0 then [3] else []) ++
    ([12, 13, 14, 15].filter fun i => leAt r i 1 != 0)
  let pad := (List.range (p.2 - 16)).filterMap fun i =>
    if !inPar (16 + i) && leAt r (16 + i) 1 != 0 then some (16 + i) else none
  let rng := v.ranges.filterMap fun q =>
    if (q.lo ≤ leAt r q.off q.size && leAt r q.off q.size ≤ q.hi) || (v.orAll.contains q.off && leAt r q.off 1 = 0xFF) then none
    else some q.off
  (hdr ++ pad ++ rng).min?

/-! ## Status codes (R41) -/

/-- OK. -/
def kOK : Nat := 0
/-- UNKNOWN_VERB. -/
def kUnknown : Nat := 1
/-- BAD_PARAM. -/
def kBadParam : Nat := 2
/-- NOT_PERMITTED. -/
def kNotPermitted : Nat := 3
/-- NO_SUCH_OBJECT. -/
def kNoObject : Nat := 4
/-- BUSY_OBJECT. -/
def kBusy : Nat := 5
/-- NO_RESOURCE. -/
def kNoResource : Nat := 6
/-- INTERRUPTED. -/
def kInterrupted : Nat := 7
/-- RELAY_REFUSED. -/
def kRelayRefused : Nat := 8
/-- RELAY_TIMEOUT. -/
def kRelayTimeout : Nat := 9
/-- NOT_READY. -/
def kNotReady : Nat := 0xA
/-- TEST_FAILED. -/
def kTestFailed : Nat := 0xB
/-- AUTH_FAILED. -/
def kAuthFailed : Nat := 0xC
/-- CANCELLED. -/
def kCancelled : Nat := 0xD
/-- VERSION. -/
def kVersion : Nat := 0xE
/-- MIRROR_MISMATCH. -/
def kMirror : Nat := 0xF

/-! ## Verbs in progress -/

/-- The verbs that a halted keeper executes (R378). -/
def haltedOk (code : Nat) : Bool := code = 0x0100 || code = 0x0101 || code = 0x0900 || code = 0x0902

/-- The verb in progress from an origin. -/
def State.verb (s : State) (o : Origin) : Option VerbProg := s.keeper.verbs.find? (·.origin = o)

/-- The verb in progress from an origin changed by `f`. -/
def State.modVerb (s : State) (o : Origin) (f : VerbProg → VerbProg) : State :=
  s.modKeeper fun k => { k with verbs := updateFirst (·.origin = o) f k.verbs }

/-- Whether an origin acts for tenant 0: mailboxes 0 to 7 and relayed verbs (R20, R37). -/
def originPriv : Origin → Bool
  | .mbox m => m.val < 8
  | .relay _ => true

/-- The tenant an origin acts for: 0, or the mailbox's bound tenant (R20). -/
def State.originTenant (s : State) : Origin → Tenant
  | .mbox m => if m.val < 8 then 0 else (s.mbox m.val).tenant.getD 0
  | .relay _ => 0

/-- The request bytes of a mailbox's window (R21). -/
def Mailbox.request (b : Mailbox) : Bytes := (List.range 128).map fun i => b.window.get 0 i

/-- Whether the verb is to be executed at another chip (R36). -/
def State.isRelay (s : State) (v : VerbProg) : Bool :=
  (match v.origin with | .mbox _ => true | .relay _ => false) && reqRelay v.req && reqTarget v.req != s.inp.chipId

/-- Bytes written into a mailbox's window. -/
def Mailbox.write (b : Mailbox) (off : Nat) (x : Bytes) : Mailbox :=
  { b with window := (x.zip (List.range x.length)).foldl (fun w p => w.set 0 (off + p.2) p.1) b.window }

/-- Major interface version of the running firmware (R361). -/
def State.ifMajor (s : State) : Nat := bits s.keeper.running.ifVer.toNat 7 0

/-- The response block of a verb (R24). -/
def responseBytes (s : State) (v : VerbProg) (status detail : Nat) (res : Bytes) : Bytes :=
  leBytes 2 status ++ leBytes 2 detail ++ slice v.req 4 4 ++ leBytes 1 s.ifMajor ++ leBytes 1 res.length ++
    leBytes 1 s.inp.chipId.toNat ++ leBytes 1 0 ++ leBytes 4 (satNat 32 ((s.ptime - v.accepted).toNat / 25)) ++ res

/-- The verb record (type 0x05, R416). -/
def verbEvent (v : VerbProg) (tenant : Tenant) (status detail : Nat) : EvRec :=
  evInfo 0x05 tenant (slice v.req 0 2 ++ leBytes 2 status ++ leBytes 2 detail ++
    (match v.origin with
     | .mbox m => leBytes 1 m.val ++ leBytes 1 0
     | .relay c => leBytes 1 0 ++ leBytes 1 c.toNat) ++ slice v.req 16 8)

/-- A binding of a tenant-manager mailbox takes effect: its window is zeroed and DONE cleared (R354). -/
def Mailbox.rebound (b : Mailbox) (t : Option Tenant) : Mailbox :=
  { b with window := [], rungAs := none, done := false, tenant := t, rebind := none }

/-- The response of a mailbox's verb: written before DONE sets and BUSY clears together (R24, R26); CANCEL clears
(R25); a binding that waited for the verb takes effect (R32). -/
def Mailbox.respond (b : Mailbox) (resp : Bytes) : Mailbox :=
  let b := { (b.write 0x80 resp) with done := true, busy := false, cancel := false }
  match b.rebind with
  | some t => b.rebound t
  | none => b

/-- A relayed verb's response sent back and remembered among the sender's last 16 (R37, R38). MSG_TAG 1 marks a response
block (DESIGN CHOICE, log entry 33). -/
def State.relayRespond (s : State) (chip : ChipNo) (seq : BitVec 32) (resp : Bytes) : State :=
  let mine := s.keeper.relayMemo.filter (·.chip = chip)
  let rest := s.keeper.relayMemo.filter (·.chip ≠ chip)
  let s := s.modKeeper fun k => { k with relayMemo := rest ++ (⟨chip, seq, resp⟩ :: mine).take 16 }
  s.sendMsg (s.msg opKeeper chip 1 0 (slice resp 0 128))

/-- The end of the verb in progress `v` with its response block (R24, R28, R416): the verb event, the verb leaves the keeper,
its requests on the memory port lose their owner, and the response goes back. -/
def State.finishWith (s : State) (v : VerbProg) (status detail : Nat) (resp : Bytes) : State :=
  let ev := match verbInfo (reqVerb v.req) with | some i => i.event | none => true
  let s := if ev then s.event (verbEvent v (s.originTenant v.origin) status detail) else s
  let s := s.modKeeper fun k => { k with
    verbs := k.verbs.filter (·.origin ≠ v.origin),
    kmq := k.kmq.map fun r => if r.owner = .verb v.origin then { r with owner := .gone } else r }
  match v.origin with
  | .mbox m => s.modMbox m.val fun b => b.respond resp
  | .relay c => s.relayRespond c (reqSeq v.req) resp

/-- Completion of the verb in progress `v` (VERB_DONE, R24). -/
def State.finish (s : State) (v : VerbProg) (status detail : Nat) (res : Bytes) : State :=
  s.finishWith v status detail (responseBytes s v status detail res)

/-- Completion of the verb from an origin. -/
def State.verbDone (s : State) (o : Origin) (status detail : Nat) (res : Bytes := []) : State :=
  match s.verb o with
  | some v => s.finish v status detail res
  | none => s

/-- Completion of a verb by what it waits for, when the verb from `o` still is that one: a keeper reset may have ended it
(R30). In the halted state it completes NOT_READY (R378). -/
def State.verbEnd (s : State) (o : Origin) (code status detail : Nat) (res : Bytes := []) : State :=
  match s.verb o with
  | some v =>
    if !(reqVerb v.req = code && v.stage == .draining) then s
    else if s.faults.halted && !haltedOk code then s.finish v kNotReady 0xFFFF [] else s.finish v status detail res
  | none => s

/-- Whether CANCEL is set for the verb from an origin (R31). A verb that another chip relayed has no CANCEL bit here, and none is
sent to it: the spec does not say whether a mailbox's CANCEL reaches a verb that its request was relayed for (DESIGN CHOICE,
log entry 121). -/
def State.cancelled (s : State) : Origin → Bool
  | .mbox m => (s.mbox m.val).cancel
  | .relay _ => false

/-! ## Verbs that name one object (R34) -/

/-- The objects of R34. -/
inductive Obj where
  | ctx (n : Nat)
  | tenant (n : Nat)
  | kset (n : Nat)
  | swarm (n : Nat)
  | window (n : Nat)
  | modulus (n : Nat)
  | frame (n : Nat)
  | link (n : Nat)
  | firmware
  | mailbox (n : Nat)
deriving DecidableEq, Repr

/-- The objects that a request names (R34). A mailbox counts as one for mbox.bind and mbox.unbind (DEDUCED, log entry 15). -/
def objects (r : Bytes) : List Obj :=
  match reqVerb r with
  | 0x0102 | 0x0103 => [.firmware]
  | 0x0104 => [.mailbox (par r 16 1), .tenant (par r 18 2)]
  | 0x0105 => [.mailbox (par r 16 1)]
  | 0x0200 | 0x0201 | 0x0400 | 0x0401 => [.tenant (par r 16 2)]
  | 0x0300 | 0x0301 | 0x0302 | 0x0303 | 0x0304 | 0x0305 | 0x0306 | 0x0700 => [.ctx (par r 16 4)]
  | 0x0402 | 0x0403 => [.window (par r 16 1)]
  | 0x0500 | 0x0501 => [.kset (par r 16 2)]
  | 0x0502 => [.ctx (par r 16 4), .kset (par r 20 2)]
  | 0x0503 => [.swarm (par r 16 1), .kset (par r 18 2), .ctx (par r 20 4)]
  | 0x0504 => [.swarm (par r 16 1)]
  | 0x0600 => [.modulus (par r 16 1)]
  | 0x0601 => if par r 16 1 = 0xFF then frameNos.map .frame else [.frame (par r 16 1)]
  | 0x0801 | 0x0B00 => (setBits 16 (par r 16 2)).map .frame
  | 0x0802 => if par r 16 1 = 1 then frameNos.map .frame else linkNos.map .link
  | 0x0A00 | 0x0A02 => [.link (par r 16 1)]
  | _ => []

/-- The bytes a verb has read at an address, if all are in hand. -/
def VerbProg.bytes (v : VerbProg) (addr len : Nat) : Option Bytes :=
  if (List.range len).all fun i => v.asked.contains (alignDown 256 (addr + i)) then
    some ((List.range len).map fun i => v.got.get 0 (addr + i))
  else none

/-- Whether a verb names a tenant in the record that it reads: ctx.open and kset.register (R34). -/
def namesInRecord (r : Bytes) : Bool := reqVerb r = 0x0300 || reqVerb r = 0x0500

/-- The tenant that a record names, once the verb has read it (R47, R175). -/
def VerbProg.recordTenant (v : VerbProg) : Option Nat :=
  if !namesInRecord v.req then none
  else (v.bytes (par v.req 24 8) 64).map fun b => if reqVerb v.req = 0x0300 then fieldAt b 0 8 19 8 else fieldAt b 0 8 11 0

/-- The objects that a verb in progress names (R34), with the tenant of a record it has read. -/
def VerbProg.objects (v : VerbProg) : List Obj :=
  Machine.objects v.req ++ (match v.recordTenant with | some t => [.tenant t] | none => [])

/-- Test units 6 and 7 as a verb needs them: link.rekey both, fw.load, fw.activate and map.digest unit 6 (R357, R366). -/
def unitsUsed (r : Bytes) : List Nat :=
  match reqVerb r with
  | 0x0102 | 0x0103 | 0x0401 => [6]
  | 0x0A02 => [6, 7]
  | _ => []

/-- The keeper's test units that a test.kat names (R366). -/
def unitsTested (r : Bytes) : List Nat :=
  if reqVerb r = 0x0800 then (setBits 8 (par r 16 1)).filter (6 ≤ ·) else []

/-- Whether the later verb `v` must wait for the earlier verb `w`: both name an object, one may still name any tenant in a record it
has not read, or one tests a unit that the other needs (R34, R366; DEDUCED, log entry 131). -/
def VerbProg.before (w v : VerbProg) : Bool :=
  w.objects.any v.objects.contains ||
    (namesInRecord w.req && w.recordTenant.isNone && v.objects.any fun x => match x with | .tenant _ => true | _ => false) ||
    (unitsTested w.req).any (unitsUsed v.req ++ unitsTested v.req).contains || (unitsUsed w.req).any (unitsTested v.req).contains

/-- Whether no verb accepted before the one from `o` must end first (R34). A verb that is executed at another chip names no object
of this one. -/
def State.firstOnObjects (s : State) (o : Origin) : Bool :=
  match s.verb o with
  | none => false
  | some v =>
    let earlier := s.keeper.verbs.takeWhile (·.origin ≠ o)
    !(earlier.any fun w => !s.isRelay w && w.before v)

/-! ## Executing a verb -/

/-- Whether the verb from `o` has this code and stage, is executed here, is the first on its objects, and the keeper is ready and
executes it: in the halted state only the verbs of R378. -/
def State.verbAt (s : State) (o : Origin) (code : Nat) (st : VerbStage) : Option VerbProg :=
  match s.verb o with
  | some v =>
    if reqVerb v.req = code && v.stage == st && s.keeperReady && !s.isRelay v && (!s.faults.halted || haltedOk code) &&
        s.firstOnObjects o then some v
    else none
  | none => none

/-- A verb that was in progress when the engine halted completes NOT_READY with DETAIL 0xFFFF (R378). -/
def State.verbHalted (s : State) (o : Origin) (code : Nat) : State :=
  match s.verb o with
  | some v =>
    if s.faults.halted && !haltedOk code && reqVerb v.req = code && s.keeperReady && !s.isRelay v && v.stage != .interrupted then
      s.finish v kNotReady 0xFFFF []
    else s
  | none => s

/-- Runs `f` on the verb from `o` when its turn has come; otherwise nothing happens (DESIGN CHOICE, log entry 1), but for what the
halted state ends. -/
def State.runVerb (s : State) (o : Origin) (code : Nat) (f : VerbProg → State) : State :=
  match s.verbAt o code .run with
  | some v => f v
  | none => s.verbHalted o code

/-- The end of a drain that the verb from `o` waits for. -/
def State.runDrained (s : State) (o : Origin) (code : Nat) (f : VerbProg → State) : State :=
  match s.verbAt o code .draining with
  | some v => f v
  | none => s.verbHalted o code

/-- The verb from `o` now waits for its drain. -/
def State.verbDrains (s : State) (o : Origin) : State := s.modVerb o fun v => { v with stage := .draining }

/-- Whether an origin may act on an object of tenant `t` (R32). -/
def State.mayAct (s : State) (o : Origin) (t : Tenant) : Bool :=
  originPriv o || decide (t = s.originTenant o ∧ t ≠ 0)

/-- A verb that names an object of another tenant (R32): NOT_PERMITTED and a tenant alarm of the mailbox rule. -/
def State.refuseTenant (s : State) (o : Origin) : State :=
  match s.verb o with
  | none => s
  | some v =>
    let t := s.originTenant o
    let m := match o with | .mbox m => m.val | .relay c => c.toNat
    (s.tenantAlarm 1 6 m t 0 (reqVerb v.req)).verbDone o kNotPermitted 0

/-! ## Reading structures from memory (R45) -/

/-- The first address past `p` that no chain of abutting ranges of the stack map holds, over `n` ranges. -/
def mapReach (rs : List MapRange) : Nat → Nat → Nat
  | 0, p => p
  | n + 1, p =>
    match rs.find? fun r => decide (r.base ≤ p) && decide (p < r.base + r.len) with
    | some r => mapReach rs n (r.base + r.len)
    | none => p

/-- Whether bytes [addr, addr + len) lie wholly within the ranges that mem.info reports, on this chip (R45, R238, R430): ranges
that abut hold what lies across them. -/
def State.inStackMap (s : State) (addr len : Nat) : Bool :=
  decide (bits addr 55 50 = s.inp.chipId.toNat) && decide (addr < 2 ^ 56) &&
    decide (addr % 2 ^ 50 + max 1 len ≤ mapReach s.keeper.stackMap s.keeper.stackMap.length (addr % 2 ^ 50))

/-- Asks the keeper memory port for the blocks of a structure that the verb has not asked for yet (R45, R476). -/
def State.askBytes (s : State) (o : Origin) (addr len : Nat) : State :=
  let pending := s.keeper.kmq.map fun r => (r.owner, alignDown 256 r.addr)
  (kmBlocks addr len).foldl (fun t p =>
    if (match s.verb o with | some v => v.asked.contains (alignDown 256 p.1) | none => true) ||
        pending.contains (.verb o, alignDown 256 p.1) then t
    else t.kmPush ⟨.verb o, p.1, p.2, false, []⟩) s

/-- Runs `f` on a structure that the verb from `o` reads (R45): a bad address or a read error completes BAD_PARAM with
the offset of the address parameter; while bytes are missing they are asked for. -/
def State.withStruct (s : State) (o : Origin) (v : VerbProg) (off addr len align : Nat) (f : Bytes → State) : State :=
  if !s.inStackMap addr len || addr % align ≠ 0 || v.readFail then s.verbDone o kBadParam off
  else match v.bytes addr len with
  | some b => f b
  | none => s.askBytes o addr len

/-! ## Doorbells (R25 to R28, R31) -/

/-- The write of MBOX_DB (R25, R27): OVERRUN and DONE are cleared, IRQ_EN takes its value and CANCEL sets while BUSY
is 1; then RING is judged: it sets BUSY, or sets OVERRUN when BUSY or DONE is 1. -/
def State.dbWrite (s : State) (m : Nat) (w : BitVec 32) : State :=
  let b := s.mbox m
  let b := { b with overrun := b.overrun && !w.getLsbD 7, done := b.done && !w.getLsbD 2, irqEn := w.getLsbD 5,
                    cancel := b.cancel || (w.getLsbD 6 && b.busy) }
  if !w.getLsbD 0 then s.setMbox m b
  else if b.busy || b.done then s.setMbox m { b with overrun := true }
  else (s.setMbox m { b with busy := true }).modKeeper fun k => { k with rung := k.rung ++ [m] }

/-- The bits of MBOX_DB as read (R25). -/
def Mailbox.db (b : Mailbox) : Nat :=
  b2n b.busy + 2 * b2n b.busy + 4 * b2n b.done + 32 * b2n b.irqEn + 64 * b2n b.cancel + 128 * b2n b.overrun

/-- MBOX_DONE_SUM (R28). -/
def State.doneSum (s : State) : Nat :=
  ((List.range 32).filter fun m => (s.mbox m).done).foldl (fun a m => a + 2 ^ m) 0

/-- The mailbox interrupt (R28). -/
def State.mboxIrq (s : State) : Bool := (List.range 32).any fun m => (s.mbox m).done && (s.mbox m).irqEn

/-- MBOX_RING (R26, R27): a write of MBOX_DB with RING set. -/
def execMboxRing (m : Fin 32) (w : BitVec 32) (s : State) : Host.Outcome State Fault Refusal :=
  .next (if w.getLsbD 0 && s.cpAwake then s.dbWrite m.val w else s)

/-- MBOX_CANCEL (R31): a write of MBOX_DB with CANCEL set. -/
def execMboxCancel (m : Fin 32) (w : BitVec 32) (s : State) : Host.Outcome State Fault Refusal :=
  .next (if w.getLsbD 6 && s.cpAwake then s.dbWrite m.val w else s)

/-- MBOX_DONE_CLEAR (R27): a write of MBOX_DB with DONE set. -/
def execMboxDoneClear (m : Fin 32) (w : BitVec 32) (s : State) : Host.Outcome State Fault Refusal :=
  .next (if w.getLsbD 2 && s.cpAwake then s.dbWrite m.val w else s)

/-! ## Acceptance (R33 to R39) -/

/-- The verbs that are refused while engine.quiesce runs (R435). -/
def quiesceRefuses (code : Nat) : Bool := code = 0x0300 || code = 0x0200 || code = 0x0503 || code = 0x0A02

/-- The status and detail with which a request fails at acceptance, if it does (R378, R39, R40, R32, R36, R23, R435).
The order among them is DEDUCED, log entry 16. -/
def State.acceptFault (s : State) (o : Origin) (r : Bytes) : Option (Nat × Nat) :=
  if s.faults.halted && !haltedOk (reqVerb r) then some (kNotReady, 0xFFFF)
  else if reqMajor r ≠ s.ifMajor then some (kVersion, s.ifMajor)
  else match verbInfo (reqVerb r) with
  | none => some (kUnknown, 0)
  | some v =>
    if !originPriv o && (!v.tenantOk || s.originTenant o = 0 || reqRelay r) then some (kNotPermitted, 0)
    else if leAt r 9 1 ≠ (paramOffsets v.params 16).2 - 16 then some (kBadParam, 9)
    else match firstOffence v r with
    | some i => some (kBadParam, i)
    | none => if s.keeper.quiesce.isSome && quiesceRefuses (reqVerb r) then some (kBusy, 0) else none

/-- Whether a relayed verb is in flight to a chip (R36). -/
def State.relayBusy (s : State) (c : ChipNo) : Bool :=
  s.keeper.verbs.any fun v => v.stage == .relayed && reqTarget v.req == c

/-- Whether a chip is in service for this engine's requests: it can be reached and has granted request credits (R37,
R283; DEDUCED, log entry 17). -/
def State.inServiceAt (s : State) (c : ChipNo) : Bool := s.hasRoute c && (s.partner c).served

/-- The request block as it is sent to another chip: RELAY cleared, since a relayed verb never relays further (R37; DESIGN CHOICE, log
entry 33). -/
def relayBlock (req : Bytes) : Bytes := patch (slice req 0 128) 3 [BitVec.ofNat 8 (leAt req 3 1 &&& 0xFE)]

/-- RELAY_SEND (R36, R37): the oldest verb that waits to be relayed to a chip with none in flight is sent there, or
completes NOT_READY when the chip is not in service. -/
def State.relaySend (s : State) (o : Origin) (v : VerbProg) : State :=
  let c := reqTarget v.req
  if !s.inServiceAt c then s.verbDone o kNotReady c.toNat
  else if s.relayBusy c then s
  else (s.sendMsg (s.msg opKeeper c 0 0 (relayBlock v.req))).modVerb o fun v => { v with stage := .relayed }

/-- The relays that waited for a target whose relay has ended, oldest first: the first that can be sent is, and those that find
the target out of service complete (R36, R37). -/
def State.relayNext (s : State) (c : ChipNo) : State :=
  (s.keeper.verbs.filter fun v => s.isRelay v && reqTarget v.req == c && v.stage == .run).foldl
    (fun t v => t.relaySend v.origin v) s

/-- A request enters the keeper as a verb in progress, or completes at once (R26, R33, R36, R39). -/
def State.accept (s : State) (o : Origin) (r : Bytes) : State :=
  let v : VerbProg := { origin := o, req := r, accepted := s.ptime, stage := .run, got := [], readFail := false,
                        asked := [], acc := 0 }
  let s := s.modKeeper fun k => { k with verbs := k.verbs ++ [v] }
  let relay := s.isRelay v
  if relay && !(s.faults.halted && !haltedOk (reqVerb r)) then
    if originPriv o then s.relaySend o v else s.verbDone o kNotPermitted 0
  else match s.acceptFault o r with
  | some (st, d) => s.verbDone o st d
  | none => if reqVerb r = 0x0103 then s.modKeeper fun k => { k with activating := true } else s

/-- The request block as the keeper copies it (R26): as it stands, or where software has written it while BUSY was 1, any
mix of old and new bytes: which bytes are old is a free value. -/
def State.copyRequest (s : State) (m : Nat) : Bytes × State :=
  let b := s.mbox m
  match b.rungAs with
  | none => (b.request, s)
  | some old =>
    let mask := (Config.freeWord s.free).toNat + 2 ^ 64 * (Config.freeWord (s.free + 1)).toNat
    let mixed := (List.range 128).map fun i => if bit mask i then old.getD i 0 else b.request.getD i 0
    (mixed, { s.setMbox m { b with rungAs := none } with free := s.free + 2 })

/-- VERB_ACCEPT (R33): the oldest rung mailbox is accepted, while the keeper is ready, no fw.activate holds acceptance
(R35), and every verb that a keeper reset interrupted has completed (R30). -/
def execVerbAccept (s : State) : Host.Outcome State Fault Refusal :=
  .next (
    if !s.keeperReady || s.keeper.activating || s.keeper.verbs.any (·.stage == .interrupted) then s
    else match s.keeper.rung with
    | [] => s
    | m :: rest =>
      if h : m < 32 then
        let q := s.copyRequest m
        (q.2.modKeeper fun k => { k with rung := rest }).accept (.mbox ⟨m, h⟩) q.1
      else s.modKeeper fun k => { k with rung := rest })

/-- RELAY_TIMEOUT (R38): the relayed verb of a mailbox completes RELAY_TIMEOUT, and the next relay to that chip goes. The time of a
relay counts from when it is sent, not while it waits for an earlier one (DESIGN CHOICE, log entry 122). -/
def execRelayTimeout (m : Fin 32) (s : State) : Host.Outcome State Fault Refusal :=
  .next (
    match s.verb (.mbox m) with
    | some v => if v.stage == .relayed then (s.verbDone (.mbox m) kRelayTimeout 0).relayNext (reqTarget v.req) else s
    | none => s)

end Sys2Proof.Machine
end

