-- ==== Sys2Proof/Machine/Xlate.lean ====
section
/-! DEFINITION. Address translation (chapter 9): page tables, walks, buffers, invalidation, the tenants' roots, remote
windows and the mapping digest. -/
namespace Sys2Proof.Machine

/-! ## The page table (R235 to R239) -/

/-- PT_ADDR of an entry, as an address (R241). -/
def ptAddr (e : Nat) : Nat := bits e 55 9 * 512

/-- Whether a valid entry at a level is well formed (R238); in a window's table no entry has PT_A and every leaf is local
(R287). -/
def State.pteOk (s : State) (lvl e : Nat) (window : Bool) : Bool :=
  let leaf := bit e 1
  let a := ptAddr e
  let isLocal := decide (bits a 55 50 = s.inp.chipId.toNat)
  let size := if lvl = 2 then 2 ^ 31 else 2 ^ 25
  bits e 8 5 = 0 && bits e 59 56 = 0 &&
    (if leaf then
       lvl != 1 && a % size = 0 && !(bit e 4 && !bit e 3) && (!isLocal || s.inStackMap a size) &&
         !(window && (bit e 4 || !isLocal))
     else lvl != 3 && bits e 4 2 = 0 && isLocal && a % (if lvl = 1 then 2 ^ 16 else 512) = 0)

/-- The leaf that an entry at a level is. -/
def pteLeaf (root : XRoot) (lvl va e : Nat) : Leaf :=
  let big := decide (lvl = 2)
  { root := root, big := big, vpn := va >>> (if big then 31 else 25), page := ptAddr e, r := bit e 2, w := bit e 3,
    a := bit e 4 }

/-- Size of a leaf's page. -/
def Leaf.size (l : Leaf) : Nat := if l.big then 2 ^ 31 else 2 ^ 25

/-- The translated address: the page and the page offset of R235. -/
def Leaf.phys (l : Leaf) (va : Nat) : Nat := l.page + va % l.size

/-- Whether a leaf translates an address. -/
def Leaf.covers (l : Leaf) (root : XRoot) (va : Nat) : Bool :=
  l.root == root && decide (l.vpn = va >>> (if l.big then 31 else 25))

/-- What an entry read by a walk leads to (R241). -/
inductive WalkStep where
  | absent
  | format
  | next (table : Nat)
  | found (l : Leaf)
deriving DecidableEq, Repr

/-- One step of `walk` (R241): the entry `e` read at a level. -/
def State.walkStep (s : State) (root : XRoot) (lvl va e : Nat) : WalkStep :=
  let window := match root with | .tenant _ => false | .window _ => true
  if !bit e 0 then .absent
  else if !s.pteOk lvl e window then .format
  else if bit e 1 then .found (pteLeaf root lvl va e)
  else .next (ptAddr e)

/-- Index of an address in the table of a level (R235). -/
def tableIndex (lvl va : Nat) : Nat :=
  if lvl = 1 then bits va 56 44 else if lvl = 2 then bits va 43 31 else bits va 30 25

/-- Address of the entry that a walk reads next (R241). -/
def Walk.entryAddr (w : Walk) : Nat := w.table + 8 * tableIndex w.level w.va

/-- The table a walk starts from and its level: a tenant's root at level 1 (R239), a window's table at level 2 (R287). -/
def State.rootTable (s : State) : XRoot → Option (Nat × Nat)
  | .tenant t => (s.xlate.roots.get none t.toNat).map fun a => (1, a)
  | .window w =>
    let x := s.xlate.wins.get {} w.toNat
    if x.isSet then some (2, x.table) else none

/-- Whether a tenant has been opened (R239). -/
def State.tenantOpen (s : State) (t : Tenant) : Bool := (s.xlate.roots.get none t.toNat).isSome

/-! ## Buffers (R243, R244) -/

/-- The translation unit changed by `f`. -/
def State.modXlate (s : State) (f : Xlate → Xlate) : State := { s with xlate := f s.xlate }

/-- A leaf put at the front of a buffer of `n` entries, most recently used first. -/
def toFront (n : Nat) (l : Leaf) (b : List Leaf) : List Leaf := (l :: b.filter (· ≠ l)).take n

/-- Installs a leaf in the second level and in a frame's buffer (R243). -/
def State.install (s : State) (f : Nat) (l : Leaf) : State :=
  let k := l.vpn % 1024
  let s := s.modXlate fun x => { x with l2 := x.l2.set [] k (toFront 8 l (x.l2.get [] k)) }
  s.modFrame f fun x => { x with tlb := toFront 48 l x.tlb }

/-- The leaf that either buffer holds for an address (R243). -/
def State.lookup (s : State) (f : Nat) (root : XRoot) (va : Nat) : Option Leaf :=
  match (s.frame f).tlb.find? fun l => l.covers root va with
  | some l => some l
  | none =>
    ((s.xlate.l2.get [] ((va >>> 25) % 1024)) ++ (s.xlate.l2.get [] ((va >>> 31) % 1024))).find? fun l => l.covers root va

/-- The use of a leaf: most recent in its frame's buffer, and in the second level when that is where it was found. -/
def State.touch (s : State) (f : Nat) (l : Leaf) : State :=
  if (s.frame f).tlb.contains l then s.modFrame f fun x => { x with tlb := toFront 48 l x.tlb } else s.install f l

/-! ## Walks (R241) -/

/-- Starts a walk for a missing translation; `none` when there is no root, which is an absent entry at level 0. -/
def State.startWalk (s : State) (f : Nat) (root : XRoot) (va : Nat) (why : WalkFor) : Option State :=
  (s.rootTable root).map fun r =>
    let (id, s) := s.fresh
    let w : Walk := { id := id, frame := f, root := root, va := va, level := r.1, table := r.2, why := why,
                      discard := false }
    (s.modXlate fun x => { x with walks := x.walks ++ [w] }).modFrame f fun x => { x with svc := x.svc ++ [.walk id] }

/-- Removes a walk. -/
def State.endWalk (s : State) (id : Nat) : State :=
  (s.modXlate fun x => { x with walks := x.walks.filter (·.id ≠ id) })

/-- Asks for a walk's next table read. -/
def State.walkOn (s : State) (w : Walk) (level table : Nat) : State :=
  (s.modXlate fun x => { x with walks := x.walks.map fun y =>
    if y.id = w.id then { y with level := level, table := table, discard := false } else y }).modFrame w.frame
      fun x => { x with svc := x.svc ++ [.walk w.id] }

/-- The walks in flight for a requester. -/
def State.walking (s : State) (p : WalkFor → Bool) : Bool := s.xlate.walks.any fun w => p w.why

/-! ## Invalidation (R252 to R255) -/

/-- Whether a leaf's page meets [lo, hi) of a tenant. -/
def Leaf.meets (l : Leaf) (t : Tenant) (lo hi : Nat) : Bool :=
  l.root == .tenant t && decide (l.vpn * l.size < hi) && decide (lo < (l.vpn + 1) * l.size)

/-- Removes from every buffer the leaves that `p` names (R253 step 3). -/
def State.dropLeaves (s : State) (p : Leaf → Bool) : State :=
  let s := s.modXlate fun x => { x with l2 := x.l2.mapAll [] fun _ b => b.filter fun l => !p l }
  { s with frames := s.frames.mapAll {} fun _ x => { x with tlb := x.tlb.filter fun l => !p l } }

/-- Marks walks whose results are discarded (R253 step 2). -/
def State.discardWalks (s : State) (p : Walk → Bool) : State :=
  s.modXlate fun x => { x with walks := x.walks.map fun w => if p w then { w with discard := true } else w }

/-- Steps 1 to 3 of R253 for a tenant's range. A walk is for the range when the largest page it could find meets it. -/
def State.withdraw (s : State) (t : Tenant) (lo hi : Nat) : State :=
  (s.discardWalks fun w => w.root == .tenant t && decide (alignDown (2 ^ 31) w.va < hi) &&
      decide (lo < alignDown (2 ^ 31) w.va + 2 ^ 31)).dropLeaves fun l => l.meets t lo hi

/-- The tenant and range that an invalidating verb names: the whole space for tenant.close and for a length of 0. -/
def invalRange (r : Bytes) : Tenant × Nat × Nat :=
  let t := BitVec.ofNat 12 (par r 16 2)
  if reqVerb r = 0x0400 && par r 32 8 ≠ 0 then (t, par r 24 8, par r 24 8 + par r 32 8) else (t, 0, 2 ^ 57)

/-- Carries out steps 1 to 4 of R253 for a batch of verbs, and starts their drain. -/
def State.startBatch (s : State) (os : List Origin) : State :=
  let s := os.foldl (fun t o => match t.verb o with
    | some v => let r := invalRange v.req; t.withdraw r.1 r.2.1 r.2.2
    | none => t) s
  s.modXlate fun x => { x with gen := x.gen + 1, draining := os, waiting := [] }

/-- An accepted invalidation starts, or waits for the next batch (R255). -/
def State.askInval (s : State) (o : Origin) : State :=
  let s := s.verbDrains o
  if s.xlate.draining = [] then s.startBatch [o] else s.modXlate fun x => { x with waiting := x.waiting ++ [o] }

/-- Whether every burst counted against a generation before the current one has drained (R254). -/
def State.genDrained (s : State) : Bool :=
  s.frames.all (fun e => e.2.slots.all (fun q => !q.2.counted || decide (s.xlate.gen ≤ q.2.gen)) &&
    e.2.went.all fun q => !q.2.counted || decide (s.xlate.gen ≤ q.2.gen)) &&
  s.fabric.txGroups.all fun g => match g.2.gen with | none => true | some k => decide (s.xlate.gen ≤ k)

/-- A page-table address is local, with no bit above the address, and aligned (R239, R288). -/
def State.tableAddrOk (s : State) (a align : Nat) : Bool :=
  decide (a < 2 ^ 56) && decide (bits a 55 50 = s.inp.chipId.toNat) && decide (a % align = 0)

/-- TENANT_OPEN (R239). -/
def execTenantOpen (o : Origin) (s : State) : Host.Outcome State Fault Refusal :=
  .next (s.runVerb o 0x0200 fun v =>
    let t := par v.req 16 2
    let a := par v.req 24 8
    if !s.tableAddrOk a (2 ^ 16) then s.verbDone o kBadParam 24
    else if s.tenantOpen (BitVec.ofNat 12 t) then s.verbDone o kBusy 16
    else (s.modXlate fun x => { x with roots := x.roots.set none t (some a) }).verbDone o kOK 0)

/-- Whether a tenant has an open context, a registered key set or a bound mailbox (R43). -/
def State.tenantUsed (s : State) (t : Tenant) : Bool :=
  s.ctxs.any (fun e => e.2.isOpen && e.2.tenant == t) || s.ksets.any (fun e => e.2.tenant == t) ||
    s.mboxes.any fun e => e.2.tenant == some t || e.2.rebind == some (some t)

/-- TENANT_CLOSE (R239, R43). -/
def execTenantClose (o : Origin) (s : State) : Host.Outcome State Fault Refusal :=
  .next (s.runVerb o 0x0201 fun v =>
    let t := BitVec.ofNat 12 (par v.req 16 2)
    if !s.tenantOpen t then s.verbDone o kNoObject 16
    else if s.tenantUsed t then s.verbDone o kBusy 16
    else s.askInval o)

/-- MAP_INVAL (R252, R253). -/
def execMapInval (o : Origin) (s : State) : Host.Outcome State Fault Refusal :=
  .next (s.runVerb o 0x0400 fun v =>
    let t := BitVec.ofNat 12 (par v.req 16 2)
    let a := par v.req 24 8
    let n := par v.req 32 8
    if !s.mayAct o t then s.refuseTenant o
    else if a % 2 ^ 25 ≠ 0 then s.verbDone o kBadParam 24
    else if n % 2 ^ 25 ≠ 0 || 2 ^ 57 < a + n then s.verbDone o kBadParam 32
    else if !s.tenantOpen t then s.verbDone o kNoObject 16
    else s.askInval o)

/-- One verb of a drained batch completes; tenant.close clears the root (R239, R253). -/
def State.invalDone (s : State) (o : Origin) : State :=
  match s.verb o with
  | some v =>
    if v.stage != .draining then s
    else if reqVerb v.req = 0x0201 then
      (s.modXlate fun x => { x with roots := x.roots.erase (par v.req 16 2) }).verbDone o kOK 0
    else if reqVerb v.req = 0x0400 then s.verbDone o kOK 0 else s
  | none => s

/-- INVAL_DRAIN_END (R254, R255). -/
def execInvalDrainEnd (s : State) : Host.Outcome State Fault Refusal :=
  .next (
    if s.xlate.draining = [] || !s.genDrained then s
    else
      let s' := s.xlate.draining.foldl State.invalDone s
      let next := s.xlate.waiting
      if next = [] then s'.modXlate fun x => { x with draining := [] } else s'.startBatch next)

/-! ## Windows (R287, R288) -/

/-- WIN_SET (R288). -/
def execWinSet (o : Origin) (s : State) : Host.Outcome State Fault Refusal :=
  .next (s.runVerb o 0x0402 fun v =>
    let w := par v.req 16 1
    let a := par v.req 24 8
    if !s.tableAddrOk a (2 ^ 15) then s.verbDone o kBadParam 24
    else if (s.xlate.wins.get {} w).isSet then s.verbDone o kBusy 16
    else
      let win : Window := ⟨true, a, BitVec.ofNat 64 (par v.req 32 8), false⟩
      (s.modXlate fun x => { x with wins := x.wins.set {} w win }).verbDone o kOK 0)

/-- WIN_CLEAR (R288): new requests are refused and the window's translations go. -/
def execWinClear (o : Origin) (s : State) : Host.Outcome State Fault Refusal :=
  .next (s.runVerb o 0x0403 fun v =>
    let w := par v.req 16 1
    let x := s.xlate.wins.get {} w
    let root := XRoot.window (BitVec.ofNat 8 w)
    if !x.isSet || x.clearing then s.verbDone o kNoObject 16
    else (((s.modXlate fun y => { y with wins := y.wins.set {} w { x with clearing := true } }).discardWalks
      fun k => k.root == root).dropLeaves fun l => l.root == root).verbDrains o)

/-- Whether a slot's read is a request through window `w` that has not drained: its data have not all come, or a partner waits
for them (R288). -/
def Slot.through (q : Slot) (w : Nat) : Bool :=
  q.win == some w && match q.holder with | .fabric _ _ => true | _ => q.have_ != q.want

/-- Whether every request counted against a window has drained (R288). -/
def State.winDrained (s : State) (w : Nat) : Bool :=
  s.frames.all (fun e => e.2.slots.all (fun q => !q.2.through w) && e.2.went.all (fun q => q.2.win != some w) &&
    e.2.fab.all fun q => q.win != some w) &&
  s.fabric.rxGroups.all (fun g => match g.2.lid with | some q => q.win != some w | none => true) &&
  s.xlate.walks.all fun k => k.root != .window (BitVec.ofNat 8 w)

/-- WIN_CLEAR_DRAIN_END (R288). -/
def execWinClearDrainEnd (o : Origin) (s : State) : Host.Outcome State Fault Refusal :=
  .next (s.runDrained o 0x0403 fun v =>
    let w := par v.req 16 1
    if s.winDrained w then (s.modXlate fun y => { y with wins := y.wins.erase w }).verbDone o kOK 0 else s)

/-! ## The mapping digest (R256, R257) -/

/-- What the digest's walk of the tables meets: a 32 MiB granule, or a format error. -/
inductive DigestItem where
  | granule (va pa : Nat) (r w a : Bool)
  | bad (level va : Nat)
deriving DecidableEq, Repr

/-- The items of one entry at a level, below a table reader; `below` gives those of a pointer. -/
def State.digestEntry (s : State) (t : Tenant) (lvl va e : Nat) (below : Nat → List DigestItem) : List DigestItem :=
  match s.walkStep (.tenant t) lvl va e with
  | .absent => []
  | .format => [.bad lvl va]
  | .next a => below a
  | .found l => (List.range (l.size / 2 ^ 25)).map fun i =>
      .granule (va + i * 2 ^ 25) (l.page + i * 2 ^ 25) l.r l.w l.a

/-- The items of a tenant's tables in ascending virtual-address order (R256), reading entries by `rd`. -/
def State.digestItems (s : State) (t : Tenant) (root : Nat) (rd : Nat → Nat) : List DigestItem :=
  (List.range 8192).flatMap fun i =>
    s.digestEntry t 1 (i * 2 ^ 44) (rd (root + 8 * i)) fun t2 =>
      (List.range 8192).flatMap fun j =>
        s.digestEntry t 2 (i * 2 ^ 44 + j * 2 ^ 31) (rd (t2 + 8 * j)) fun t3 =>
          (List.range 64).flatMap fun k =>
            s.digestEntry t 3 (i * 2 ^ 44 + j * 2 ^ 31 + k * 2 ^ 25) (rd (t3 + 8 * k)) fun _ => []

/-- The tables that the pointers of one table name: level, virtual base and address. -/
def State.subTables (s : State) (t : Tenant) (rd : Nat → Nat) (x : Nat × Nat × Nat) : List (Nat × Nat × Nat) :=
  let n := if x.1 = 3 then 0 else 8192
  let sh := if x.1 = 1 then 2 ^ 44 else 2 ^ 31
  (List.range n).filterMap fun i =>
    match s.walkStep (.tenant t) x.1 (x.2.1 + i * sh) (rd (x.2.2 + 8 * i)) with
    | .next a => some (x.1 + 1, x.2.1 + i * sh, a)
    | _ => none

/-- Bytes of a table of a level (R235). -/
def tableBytes (lvl : Nat) : Nat := if lvl = 3 then 512 else 65536

/-- The 16 B record of a granule (R256). -/
def digestRecord : DigestItem → Bytes
  | .granule va pa r w a => leBytes 8 va ++ leBytes 8 (pa ||| 3 ||| (4 * b2n r) ||| (8 * b2n w) ||| (16 * b2n a))
  | .bad _ _ => []

/-- The event and fault of a format error that the digest meets (R257, R374 source 40). -/
def State.digestFault (s : State) (t : Tenant) : DigestItem → State
  | .granule _ _ _ _ _ => s
  | .bad lvl va =>
    s.raiseWith { src := 40, mkind := 6, tenant := t, access := 14, sub := lvl, addr := va, space := 0 }
      (some { type := 0x08, sev := 0, src := 0, tenant := t,
              body := leBytes 8 va ++ leBytes 3 0 ++ [14, 3, BitVec.ofNat 8 lvl] ++ zeros 2 })

/-- The format errors of tables of one level that the digest has read (R257). -/
def State.levelFaults (s : State) (t : Tenant) (rd : Nat → Nat) (xs : List (Nat × Nat × Nat)) : State :=
  xs.foldl (fun u x =>
    (List.range (tableBytes x.1 / 8)).foldl (fun u i =>
      let va := x.2.1 + i * (if x.1 = 1 then 2 ^ 44 else if x.1 = 2 then 2 ^ 31 else 2 ^ 25)
      match s.walkStep (.tenant t) x.1 va (rd (x.2.2 + 8 * i)) with
      | .format => u.digestFault t (.bad x.1 va)
      | _ => u) u) s

/-- The format errors of a level, recorded when the digest has that level in hand for the first time; `acc` counts the levels
recorded. -/
def State.digestLevel (s : State) (o : Origin) (v : VerbProg) (t : Tenant) (rd : Nat → Nat) (lvl : Nat)
    (xs : List (Nat × Nat × Nat)) : State :=
  if v.acc < lvl then (s.levelFaults t rd xs).modVerb o fun v => { v with acc := lvl } else s

/-- MAP_DIGEST (R256, R257): the keeper reads the tables level by level through its own memory port; each run of this
row asks for what is missing, records the format errors of a level once it is in hand, and the run that finds every table in hand
completes. It needs the SHA-384 of unit 6, so it completes TEST_FAILED while that unit is marked failed (R365; DEDUCED, log
entry 129). -/
def execMapDigest (o : Origin) (s : State) : Host.Outcome State Fault Refusal :=
  .next (s.runVerb o 0x0401 fun v =>
    let t := BitVec.ofNat 12 (par v.req 16 2)
    let rd (a : Nat) : Nat := leNat ((List.range 8).map fun i => v.got.get 0 (a + i))
    let inHand (x : Nat × Nat × Nat) : Bool := (v.bytes x.2.2 (tableBytes x.1)).isSome
    let ask (s : State) (l : List (Nat × Nat × Nat)) : State :=
      l.foldl (fun u x => u.askBytes o x.2.2 (tableBytes x.1)) s
    match s.xlate.roots.get none t.toNat with
    | none => s.verbDone o kNoObject 16
    | some root =>
      if s.cancelled o then s.verbDone o kCancelled 0 (zeros 48)
      else if s.unitFailed 6 then s.verbDone o kTestFailed 6
      else if v.readFail then s.verbDone o kBadParam 16
      else
        let l1 := [(1, 0, root)]
        if !l1.all inHand then ask s l1
        else
          let s1 := s.digestLevel o v t rd 1 l1
          let l2 := l1.flatMap (s.subTables t rd)
          if !l2.all inHand then ask s1 l2
          else
            let s2 := s1.digestLevel o v t rd 2 l2
            let l3 := l2.flatMap (s.subTables t rd)
            if !l3.all inHand then ask s2 l3
            else
              let s3 := s2.digestLevel o v t rd 3 l3
              let d := sha384 ((s.digestItems t root rd).flatMap digestRecord)
              let want := slice v.req 18 48
              s3.verbDone o (if want = d || want = zeros 48 then kOK else kMirror) 0 d)

end Sys2Proof.Machine
end

