-- ==== Sys2Proof/Machine/Remote.lean ====
section
/-! DEFINITION. The sending side of remote work (R284, R285, R291 to R298): request credits and back-off, lid groups and
read tags. -/
namespace Sys2Proof.Machine

/-! ## Requests and their credits (R284, R285) -/

/-- Whether remote work toward a chip may start: there is a route and its record does not show it quiescing (R298). -/
def State.remoteUp (s : State) (c : ChipNo) : Bool := s.hasRoute c && !s.quiescing c

/-- Sends the requests that wait for partner `c`, oldest first, while it has credit; before its first grant one request
goes without credit, whose NOT_READY or grant answers for admission (R282, R283). -/
def pumpPartner (c : ChipNo) : Nat → State → State
  | 0, s => s
  | n + 1, s =>
    let p := s.partner c
    match p.out with
    | [] => s
    | m :: rest =>
      if p.backing || s.faults.halted || !s.remoteUp c then s
      else if p.served then
        if p.credits = 0 then s
        else pumpPartner c n ((s.setPartner c { p with out := rest, credits := p.credits - 1 }).sendMsg m)
      else if p.probing then s
      else (s.setPartner c { p with out := rest, probing := true }).sendMsg m

/-- Sends what partner `c` can take. -/
def State.pump (s : State) (c : ChipNo) : State := pumpPartner c ((s.partner c).out.length) s

/-- Queues a request for its destination. -/
def State.request (s : State) (m : Msg) : State :=
  (s.modPartner m.dst fun p => { p with out := p.out ++ [m] }).pump m.dst

/-! ## Lid groups (R291, R292, R295) -/

/-- The fabric transport changed by `f`. -/
def State.modFabric (s : State) (f : Fabric → Fabric) : State := { s with fabric := f s.fabric }

/-- Lid group `g` toward chip `c`. -/
def State.txGroup (s : State) (c : ChipNo) (g : Nat) : TxGroup := s.fabric.txGroups.get {} (c.toNat * 64 + g)

/-- Lid group `g` toward chip `c` replaced. -/
def State.setTxGroup (s : State) (c : ChipNo) (g : Nat) (x : TxGroup) : State :=
  s.modFabric fun f => { f with txGroups := f.txGroups.set {} (c.toNat * 64 + g) x }

/-- The open groups of a descriptor, as (chip, group). -/
def State.groupsOf (s : State) (c : CtxNo) (id : Nat) : List (ChipNo × Nat) :=
  (s.fabric.txGroups.filter fun e => e.2.used && e.2.ctx == c && decide (e.2.work = id)).map fun e =>
    (BitVec.ofNat 6 (e.1 / 64), e.1 % 64)

/-- The lid word (R264). -/
def lidWord (count : Nat) (tally : Option (TallyNo × Nat)) : Word :=
  BitVec.ofNat 64 (count + match tally with | none => 0 | some t => t.1.toNat * 2 ^ 32 + 2 ^ 46 + t.2 * 2 ^ 47)

/-- A write of a descriptor to a chip (R292): the group's latest write is kept back, the one before it is sent. None when
no group number is free toward the chip. `gen` is the translation generation it counts against (R254). -/
def State.remoteWrite (s : State) (c : CtxNo) (id : Nat) (m : Msg) (gen : Option Nat) : Option State :=
  let d := m.dst
  let old := (s.groupsOf c id).find? fun e => e.1 == d && !(s.txGroup e.1 e.2).closed
  let pick : Option Nat := match old with
    | some e => some e.2
    | none => (List.range 64).find? fun g => s.txGroup d g == {}
  pick.map fun g =>
    let x := s.txGroup d g
    let m := { m with op := opWrite, tag := BitVec.ofNat 16 g }
    let low := match x.gen, gen with
      | none, y => y
      | y, none => y
      | some a, some b => some (min a b)
    let x := { x with used := true, ctx := c, work := id, gen := low }
    match x.back with
    | none => s.setTxGroup d g { x with back := some m }
    | some b => (s.setTxGroup d g { x with back := some m, sent := x.sent + 1, msgs := x.msgs ++ [b] }).request b

/-- Closes a group: its held write leaves as the LID (R292). -/
def State.closeGroup (s : State) (d : ChipNo) (g : Nat) (tally : Option (TallyNo × Nat)) : State :=
  let x := s.txGroup d g
  match x.back with
  | none => s
  | some b =>
    if x.closed then s
    else
      let lid := { b with op := opLid, word := lidWord x.sent tally }
      (s.setTxGroup d g { x with back := none, closed := true, msgs := x.msgs ++ [lid] }).request lid

/-- Closes a group for a pause (R295): the held write leaves, and a LID of length 0 with no tally follows. It names the
address of the last write. -/
def State.pauseGroup (s : State) (d : ChipNo) (g : Nat) : State :=
  let x := s.txGroup d g
  match x.back with
  | none => s
  | some b =>
    if x.closed then s
    else
      let lid := { b with op := opLid, len := 0, data := [], word := lidWord (x.sent + 1) none }
      ((s.setTxGroup d g { x with back := none, closed := true, sent := x.sent + 1, msgs := x.msgs ++ [b, lid] }).request
        b).request lid

/-- The requests of a group that still wait for credit are dropped. -/
def State.dropGroupOut (s : State) (d : ChipNo) (g : Nat) : State :=
  s.modPartner d fun p => { p with out := p.out.filter fun m => m.op == opRead || m.tag.toNat ≠ g }

/-- A group ends by abandonment (R296, R298): ABANDON is sent and its number rests. -/
def State.abandonGroup (s : State) (d : ChipNo) (g : Nat) : State :=
  ((s.dropGroupOut d g).setTxGroup d g { cooling := true }).sendMsg (s.msg opAbandon d (BitVec.ofNat 16 g))

/-- Every open group of a descriptor ends by abandonment. -/
def State.abandonGroups (s : State) (c : CtxNo) (id : Nat) : State :=
  (s.groupsOf c id).foldl (fun t e => t.abandonGroup e.1 e.2) s

/-! ## Remote reads (R297) -/

/-- A slot that is given back: its data and record stay (R355). -/
def Slot.release (q : Slot) : Slot := { data := q.data, recTenant := q.recTenant, recCtx := q.recCtx, flips := q.flips }

/-- Remote read `t` toward chip `c`. -/
def State.txRead (s : State) (c : ChipNo) (t : Nat) : TxRead := s.fabric.txReads.get {} (c.toNat * 1024 + t)

/-- Remote read `t` toward chip `c` replaced. -/
def State.setTxRead (s : State) (c : ChipNo) (t : Nat) (x : TxRead) : State :=
  s.modFabric fun f => { f with txReads := f.txReads.set {} (c.toNat * 1024 + t) x }

/-- A read tag free toward a chip. -/
def State.freeReadTag (s : State) (c : ChipNo) : Option Nat := (List.range 1024).find? fun t => s.txRead c t == {}

/-- The remote reads of a descriptor, as (chip, tag). -/
def State.readsOf (s : State) (c : CtxNo) (id : Nat) : List (ChipNo × Nat) :=
  (s.fabric.txReads.filter fun e => e.2.used && e.2.ctx == c && decide (e.2.work = id)).map fun e =>
    (BitVec.ofNat 6 (e.1 / 1024), e.1 % 1024)

/-- Sends a READ (R297) for a descriptor's slot. -/
def State.remoteRead (s : State) (c : CtxNo) (id f slot t : Nat) (m : Msg) : State :=
  let m := { m with op := opRead, tag := BitVec.ofNat 16 t }
  (s.setTxRead m.dst t { used := true, ctx := c, work := id, frame := f, slot := slot, msg := some m, again := false, via := none }).request m

/-- Gives up the remote reads of a descriptor: one that has not left is forgotten with its slot; one that has left stays in
flight for no descriptor, and its data is discarded (R254, R298). -/
def State.dropReads (s : State) (c : CtxNo) (id : Nat) : State :=
  (s.readsOf c id).foldl (fun t e =>
    let x := t.txRead e.1 e.2
    let mine (m : Msg) : Bool := m.op == opRead && decide (m.tag.toNat = e.2)
    if (t.partner e.1).out.any mine then
      let t := (t.setTxRead e.1 e.2 {}).modPartner e.1 fun p => { p with out := p.out.filter (!mine ·) }
      t.modFrame x.frame fun f => { f with slots := f.slots.mapAll {} fun n q => if n = x.slot then q.release else q }
    else t.setTxRead e.1 e.2 { x with work := 0 }) s

end Sys2Proof.Machine
end

