-- ==== Sys2Proof/Machine/Work.lean ====
section
/-! DEFINITION. Descriptors in progress: their fields, the pantry and its reserves (R206 to R212), routes and rights of an
access (R240, R247 to R250, R286), early ends (R75), and completion (R63, R76 to R80, R231). -/
namespace Sys2Proof.Machine

/-! ## Fields of a descriptor (R58, R59, R227) -/

/-- Flag `i` of bytes 2 and 3. -/
def Work.flag (w : Work) (i : Nat) : Bool := bit (leAt w.main 2 2) i
/-- LANDED; a NOP or WAIT completes alike in both modes (R77). -/
def Work.landed (w : Work) : Bool := w.flag 0 && leAt w.main 0 2 ≠ 1 && leAt w.main 0 2 ≠ 0x20
/-- FENCE. -/
def Work.fence (w : Work) : Bool := w.flag 2
/-- TALLY_ON_ERR. -/
def Work.tallyOnErr (w : Work) : Bool := w.flag 3
/-- DONE_TALLY. -/
def Work.doneId (w : Work) : Nat := fieldAt w.main 4 4 13 0
/-- DONE_REMOTE. -/
def Work.doneRemote (w : Work) : Bool := bit (leAt w.main 4 4) 14
/-- DONE_EN. -/
def Work.doneEn (w : Work) : Bool := bit (leAt w.main 4 4) 15
/-- DONE_INC. -/
def Work.doneInc (w : Work) : Nat := fieldAt w.main 4 4 31 16
/-- CSUM_MODE. -/
def Work.csumMode (w : Work) : Nat := fieldAt w.main 104 8 1 0
/-- CSUM_AT. -/
def Work.csumAt (w : Work) : Bool := bit (leAt w.main 104 8) 2
/-- The result address word of CSUM_ADDR and CSUM_SPACE (R227). -/
def csumWord (e : Bytes) : AddrWord := { addr := fieldAt e 104 8 56 3 * 8, space := fieldAt e 104 8 59 57 }
/-- The box. -/
def Work.box (w : Work) : Box := parseBox w.main w.slot
/-- Whether a ciphertext transform is selected. -/
def Work.ct (w : Work) : Option Ct := if isCt w.main then some (parseCt w.main) else none
/-- Whether source tags are checked. -/
def Work.tagIn (w : Work) : Bool := match w.ct with | some c => c.tagIn | none => false
/-- Whether output tags are written. -/
def Work.tagOut (w : Work) : Bool := match w.ct with | some c => c.tagOut | none => false
/-- TILE_DIMS where units are tiles (R117). -/
def Work.tiles (w : Work) : Option Nat := w.ct.map (·.t)
/-- The unit kind. -/
def Work.unitKind (w : Work) : UnitKind := w.box.unitKind w.tiles
/-- The number of units: rows of a feed (R193), units of a copy. -/
def Work.units (w : Work) : Nat :=
  match w.kind with
  | .feed _ => w.box.ext 1
  | _ => w.box.unitCount w.unitKind
/-- Reduction operation of the descriptor (R138); none for a ciphertext transform. -/
def Work.red (w : Work) : Nat := if isCt w.main then 0 else (parseXf w.main).red
/-- D_PROGRESS (R63). -/
def Work.progress (w : Work) : Nat := satNat 24 (w.left / 256)

/-- The descriptor `id` of context `c`. -/
def State.work (s : State) (c : CtxNo) (id : Nat) : Option Work := (s.ctx c).works.find? fun w => w.id = id
/-- The descriptor `id` of context `c` changed by `f`. -/
def State.modWork (s : State) (c : CtxNo) (id : Nat) (f : Work → Work) : State :=
  s.modCtx c fun x => { x with works := updateFirst (fun w => w.id = id) f x.works }

/-! ## The pantry (R206 to R212, R355) -/

/-- Slot `n` of frame `f`. -/
def State.slot (s : State) (f n : Nat) : Slot := (s.frame f).slots.get {} n
/-- Slot `n` of frame `f` replaced. -/
def State.setSlotAt (s : State) (f n : Nat) (q : Slot) : State :=
  s.modFrame f fun x => { x with slots := x.slots.set {} n q }
/-- Whether every beat wanted has come. -/
def Slot.full (q : Slot) : Bool := q.want != 0 && q.have_ == q.want
/-- A slot taken for tenant `t` and context `c` (R355): zeroised when the record names another tenant. -/
def Slot.claim (q : Slot) (t : Tenant) (c : CtxNo) : Slot :=
  { data := if q.recTenant = t then q.data else [], recTenant := t, recCtx := c, flips := q.flips }

/-- Whether a read's slot belongs to the service requester's reserve (R213). -/
def ReadFor.service : ReadFor → Bool
  | .list | .seed _ => true
  | _ => false

/-- Slots held by a predicate in frame `f`. -/
def State.heldSlots (s : State) (f : Nat) (p : Slot → Bool) : Nat :=
  ((s.frame f).slots.filter fun e => e.2.holder != .free && p e.2).length

/-- Whether a slot is held by a channel of context `c`. -/
def Slot.ofCtx (q : Slot) (c : CtxNo) : Bool :=
  match q.holder with | .work d _ => d == c && !q.what.service | _ => false
/-- Whether a slot is held by the service requester. -/
def Slot.ofService (q : Slot) : Bool :=
  match q.holder with | .work _ _ => q.what.service | .walk _ => true | _ => false
/-- Whether a slot is held by the fabric requester. -/
def Slot.ofFabric (q : Slot) : Bool := match q.holder with | .fabric _ _ => true | _ => false

/-- The contexts bound in frame `f`. -/
def State.ctxsIn (s : State) (f : Nat) : List CtxNo := (s.boundIn f).filterMap fun n => (s.chan n).ctx

/-- The member ports of swarm `n` in frame `f`. -/
def State.swarmPorts (s : State) (n f : Nat) : List Nat :=
  (List.range 16).filterMap fun i => if (s.swarm n).members.getLsbD (16 * f + i) then some (16 * f + i) else none

/-- Slots of the swarm regions of frame `f` (R206). -/
def State.regionSlots (s : State) (f : Nat) : Nat :=
  ((List.range 4).map fun n => if (s.swarm n).isOpen && !(s.swarmPorts n f).isEmpty then (s.swarm n).win / 4 else 0).sum

/-- Slots that a descriptor has staged for its transpose in frame `f` and that hold no read yet (R208). -/
def State.stagedOf (s : State) (f : Nat) (c : CtxNo) (w : Work) : Nat :=
  if w.frame = f then w.staged - s.heldSlots f (fun q => q.holder == .work c w.id) else 0

/-- Slots staged by the transposes of context `c` and not yet holding a read. -/
def State.stagedBy (s : State) (f : Nat) (c : CtxNo) : Nat := ((s.ctx c).works.map (s.stagedOf f c)).sum

/-- Slots staged for transposes in frame `f` and not yet holding a read (R208). -/
def State.stagedSlots (s : State) (f : Nat) : Nat := ((s.ctxsIn f).map (s.stagedBy f)).sum

/-- Slots of frame `f` that nobody holds. -/
def State.freeSlots (s : State) (f : Nat) : Nat :=
  8192 - s.regionSlots f - s.heldSlots f (fun _ => true) - s.stagedSlots f

/-- FC_FAB_RES in its range (R209). -/
def State.fcFabRes (s : State) : Nat := max 16 s.regs.fcFabRes.toNat

/-- The size of the shared pool of frame `f` (R206). -/
def State.poolSize (s : State) (f : Nat) : Nat :=
  let up := (s.frame f).state == .run || (s.frame f).state == .idle
  8192 - s.regionSlots f - 4 * (s.boundIn f).length - (if up then s.fcFabRes + 64 else 0)

/-- Shared-pool slots in use in frame `f`. -/
def State.poolUsed (s : State) (f : Nat) : Nat := s.heldSlots f (·.pool) + s.stagedSlots f

/-- FC_CAP in its range (R209). -/
def State.fcCap (s : State) : Nat := min 8192 (max 512 s.regs.fcCap.toNat)
/-- FC_WCAP in its range (R209). -/
def State.fcWcap (s : State) : Nat := max 64 s.regs.fcWcap.toNat

/-- The lowest number from `i` on that a rising table of slots does not hold. -/
def firstFree : Store Slot → Nat → Nat
  | [], i => i
  | (k, q) :: r, i => if i < k then i else if q.holder = .free then k else firstFree r (k + 1)

/-- Who asks for a slot or an entry. -/
inductive Asker where
  | chan (c : CtxNo)
  | fabric
  | service
deriving DecidableEq, Repr

/-- Whether a slot is held by an asker. -/
def Slot.of (q : Slot) : Asker → Bool
  | .chan c => q.ofCtx c
  | .fabric => q.ofFabric
  | .service => q.ofService

/-- The reserve of an asker (R206). -/
def State.reserveOf (s : State) : Asker → Nat
  | .chan _ => 4
  | .fabric => s.fcFabRes
  | .service => 64

/-- Slots that an asker holds of its own reserve. -/
def State.reserveUsed (s : State) (f : Nat) (a : Asker) : Nat := s.heldSlots f fun q => q.of a && !q.pool

/-- Slots of the in-place transposes of frame `f` (R116): staged or holding a read. -/
def State.wholeSlots (s : State) (f : Nat) : Nat :=
  ((s.ctxsIn f).map fun c => ((s.ctx c).works.map fun w =>
    if w.frame = f && w.unitKind == .whole then w.staged else 0).sum).sum

/-- The owners whose reserves the in-place transposes of frame `f` hold (R116, R208): beyond the shared pool, the channels'
reserves in channel order, then the fabric's, then the service's (DESIGN CHOICE, log entry 139). -/
def State.reservesTaken (s : State) (f : Nat) : List Asker :=
  let whole := s.wholeSlots f
  let lack := whole - (s.poolSize f - (s.poolUsed f - whole))
  (((s.ctxsIn f).map Asker.chan ++ [Asker.fabric, Asker.service]).foldl (fun (p : Nat × List Asker) a =>
    let free := s.reserveOf a - s.reserveUsed f a
    if p.1 = 0 || free = 0 then p else (p.1 - free, p.2 ++ [a])) (lack, [])).2

/-- The request of an asker for one shared-pool slot. -/
def Asker.poolReq : Asker → PoolReq
  | .chan c => .chan c
  | .fabric => .fabric
  | .service => .service

/-- Whether a waiting shared-pool request still stands: its transpose has no slots yet, or its requester has a read to issue
and no slot of its reserve left. -/
def State.poolLive (s : State) (f : Nat) : PoolReq → Bool
  | .stage id => (s.ctxsIn f).any fun c => (s.ctx c).works.any fun w => w.id = id && w.staged = 0 && w.ending.isNone
  | .chan c => (s.ctxsIn f).contains c && decide (4 ≤ s.reserveUsed f (.chan c)) &&
      (s.ctx c).works.any fun w => w.frame = f && w.reads != []
  | .fabric => decide (s.fcFabRes ≤ s.reserveUsed f .fabric) && (s.frame f).fab.any fun r => r.msg.op == opRead
  | .service => decide (64 ≤ s.reserveUsed f .service) && (s.frame f).svc.any fun r => match r with
      | .write _ _ _ _ => false
      | _ => true

/-- The oldest shared-pool request of frame `f` that still stands (R207). -/
def State.poolHead (s : State) (f : Nat) : Option PoolReq := (s.frame f).poolWait.find? (s.poolLive f)

/-- Shared-pool slots that count against FC_CAP for an asker (R207, R208): those it holds, and those staged for it. -/
def State.pooled (s : State) (f : Nat) (a : Asker) : Nat :=
  (s.heldSlots f fun q => q.of a && q.pool) + match a with | .chan c => s.stagedBy f c | _ => 0

/-- Whether a shared-pool slot is there for an asker: one is free, and the asker is below FC_CAP. -/
def State.poolRoom (s : State) (f : Nat) (a : Asker) : Bool :=
  decide (s.poolUsed f < s.poolSize f) && (a == .service || decide (s.pooled f a < s.fcCap))

/-- The slot that a read takes, and whether it comes from the shared pool (R207): shared-pool requests are granted in their
order. `staged` for a descriptor that has slots staged, whose reads fill them. -/
def State.takeSlot (s : State) (f : Nat) (a : Asker) (staged : Bool) : Option (Nat × Bool) :=
  let n := firstFree (s.frame f).slots 0
  if 8192 ≤ n then none
  else if staged then some (n, true)
  else if s.freeSlots f = 0 || (s.reservesTaken f).contains a then none
  else if s.reserveUsed f a < s.reserveOf a then some (n, false)
  else if s.poolRoom f a && (s.poolHead f == none || s.poolHead f == some a.poolReq) then some (n, true)
  else none

/-- An asker whose next read needs a shared-pool slot that it cannot have now joins the queue (R207). -/
def State.poolQueue (s : State) (f : Nat) (a : Asker) : State :=
  let q := (s.frame f).poolWait
  if s.poolLive f a.poolReq && (s.takeSlot f a false).isNone && !q.contains a.poolReq then
    s.modFrame f fun x => { x with poolWait := q ++ [a.poolReq] }
  else s

/-- Every asker of frame `f` joins the queue where R207 has it wait; requests that no longer stand leave it. -/
def State.poolWaiters (s : State) (f : Nat) : State :=
  let q := (s.frame f).poolWait.filter (s.poolLive f)
  let s := if q = (s.frame f).poolWait then s else s.modFrame f fun x => { x with poolWait := q }
  ((s.ctxsIn f).map Asker.chan ++ [Asker.fabric, Asker.service]).foldl (fun t a => t.poolQueue f a) s

/-- A read's slot of frame `f` is taken; a shared-pool slot serves the asker's waiting request. -/
def State.claimSlot (s : State) (f n : Nat) (a : Asker) (q : Slot) : State :=
  let s := s.setSlotAt f n q
  if q.pool then s.modFrame f fun x => { x with poolWait := x.poolWait.erase a.poolReq } else s

/-! ## Outstanding-write entries (R211) -/

/-- Entry `n` of frame `f`. -/
def State.entry (s : State) (f n : Nat) : WEntry := (s.frame f).went.get {} n
/-- Entry `n` of frame `f` replaced. -/
def State.setEntry (s : State) (f n : Nat) (e : WEntry) : State :=
  s.modFrame f fun x => { x with went := x.went.set {} n e }

/-- Whether a write completes a descriptor or posts a tile, and so is the service requester's (R213). -/
def WriteFor.service : WriteFor → Bool
  | .data | .tag => false
  | _ => true

/-- Whether an entry is held by an asker. -/
def WEntry.of (e : WEntry) : Asker → Bool
  | .chan c => (match e.holder with | .work d _ => d == c && !e.what.service | _ => false)
  | .fabric => (match e.holder with | .fabric _ _ => true | _ => false)
  | .service => (match e.holder with | .work _ _ => e.what.service | _ => false)

/-- Entries of frame `f` held by an asker. -/
def State.heldEntries (s : State) (f : Nat) (a : Asker) : Nat := ((s.frame f).went.filter fun e => e.2.of a).length

/-- The lowest number from `i` on that a rising table of entries does not hold. -/
def firstFreeEntry : Store WEntry → Nat → Nat
  | [], i => i
  | (k, _) :: r, i => if i < k then i else firstFreeEntry r (k + 1)

/-- The entry that a write burst takes (R211). -/
def State.takeEntry (s : State) (f : Nat) (a : Asker) : Option Nat :=
  let bound := s.ctxsIn f
  let held := s.heldEntries f a
  let reserve := match a with | .chan _ => 2 | .fabric => 64 | .service => 32
  let inReserve := (bound.map fun c => min 2 (s.heldEntries f (.chan c))).sum + min 64 (s.heldEntries f .fabric) +
    min 32 (s.heldEntries f .service)
  let sharedUsed := (s.frame f).went.length - inReserve
  let n := firstFreeEntry (s.frame f).went 0
  if 4096 ≤ n then none
  else if held < reserve then some n
  else if sharedUsed < 4096 - 2 * bound.length - 64 - 32 && (a == .service || decide (held - reserve < s.fcWcap)) then some n
  else none

/-! ## Routes and rights (R240, R247 to R250, R286) -/

/-- The right an access needs (R247). -/
inductive Need where
  | read
  | write
  | atomic
deriving DecidableEq, Repr

/-- Where an access goes: to a tap at a physical address or shared-cache offset, to another chip, to a walk; or it fails
with a miss (0) or a missing right (1) at a level, or is refused by this chip's own windows (DEDUCED, log entry 23). -/
inductive Route where
  | tap (phys : Nat) (shc : Bool) (leaf : Option Leaf)
  | remote (m : Msg) (leaf : Option Leaf)
  | walk (root : XRoot) (va : Nat)
  | fail (kind level : Nat)
  | refused
deriving DecidableEq, Repr

/-- The root that translates a context's space-0 addresses (R240). -/
def State.xroot (s : State) (x : Ctx) (e : KsetNo) : Option XRoot :=
  let t := if x.priv then (if e = 0 then 0 else (s.kset e).tenant) else x.tenant
  if t = 0 then none else some (.tenant t)

/-- Whether a leaf grants a right (R247). -/
def Leaf.grants (l : Leaf) : Need → Bool
  | .read => l.r
  | .write => l.w
  | .atomic => l.a

/-- A message for a remote access (R286): chip, window flag, tenant and address. -/
def State.accessMsg (s : State) (chip : ChipNo) (win : Bool) (t : Tenant) (addr : Nat) : Msg :=
  { op := opRead, win := win, dst := chip, src := s.inp.chipId, len := 0, tenant := t, tag := 0,
    addr := BitVec.ofNat 56 addr, word := 0, data := [] }

/-- The chip that a physical address names (R236). -/
def physChip (pa : Nat) : ChipNo := BitVec.ofNat 6 (bits pa 55 50)

/-- The window that a leaf belongs to: an access through it is counted against the window (R288). -/
def Leaf.win : Option Leaf → Option Nat
  | some l => match l.root with | .window w => some w.toNat | .tenant _ => none
  | none => none

/-- The leaf of a route is used (R243). -/
def State.used (s : State) (f : Nat) : Option Leaf → State
  | some l => s.touch f l
  | none => s

/-- The route of an access of context `x` with expected key set `e` from frame `f`. -/
def State.route (s : State) (f : Nat) (x : Ctx) (e : KsetNo) (space addr : Nat) (need : Need) : Route :=
  match space with
  | 0 =>
    match s.xroot x e with
    | none => .fail 0 0
    | some root =>
      match s.lookup f root addr with
      | some l =>
        let isLocal := physChip l.page == s.inp.chipId
        if !l.grants need || (need == .atomic && !isLocal) then .fail 1 (if l.big then 2 else 3)
        else if isLocal then .tap (l.phys addr) false (some l)
        else .remote (s.accessMsg (physChip l.page) false (match root with | .tenant t => t | .window _ => 0) (l.phys addr)) (some l)
      | none => if (s.rootTable root).isSome then .walk root addr else .fail 0 0
  | 1 => .tap addr true none
  | 3 =>
    let chip := BitVec.ofNat 6 (bits addr 56 51)
    let off := bits addr 42 0
    let w := bits addr 50 43
    if chip ≠ s.inp.chipId then .remote (s.accessMsg chip true 0 (bits addr 50 0)) none
    else
      let win := s.xlate.wins.get {} w
      if !win.isSet || win.clearing || !win.mask.getLsbD chip.toNat then .refused
      else
        let root := XRoot.window (BitVec.ofNat 8 w)
        match s.lookup f root off with
        | some l => if l.grants need then .tap (l.phys off) false (some l) else .refused
        | none => .walk root off
  | _ => .tap addr false none

/-- The translation fault of a demand use (R248, R242): kind 0 miss, 1 rights, 2 format. -/
def State.xlateFault (s : State) (c : CtxNo) (tenant : Tenant) (va access kind level : Nat) : State :=
  s.raiseWith { src := if kind = 2 then 40 else 39, mkind := 1, mid := c.toNat, tenant := tenant, access := access,
                sub := if kind = 2 then level else access, addr := va, space := 0 }
    (some { type := 0x08, sev := 0, src := 0, tenant := tenant,
            body := leBytes 8 va ++ leBytes 3 c.toNat ++
              [BitVec.ofNat 8 access, BitVec.ofNat 8 kind, BitVec.ofNat 8 level] ++ zeros 2 })

/-! ## Early ends (R75) -/

/-- A slot of an ended descriptor: given back when its data has come; held until it returns when its read is still in
flight (R254). -/
def Slot.drop (q : Slot) (c : CtxNo) (id : Nat) : Slot :=
  if q.holder == .work c id then (if q.full then q.release else { q with holder := .work c 0 }) else q

/-- Every frame changed by `f`. -/
def State.mapFrames (s : State) (f : Frame → Frame) : State := { s with frames := s.frames.mapAll {} fun _ x => f x }

/-- Gives back the slots of a descriptor. -/
def State.dropSlots (s : State) (c : CtxNo) (id : Nat) : State :=
  s.mapFrames fun x => { x with slots := x.slots.mapAll {} fun _ q => q.drop c id }

/-- The requests of a descriptor that its frames' service requesters hold are dropped, but for posts (R75). -/
def State.dropSvc (s : State) (c : CtxNo) (id : Nat) : State :=
  let keep (r : SvcReq) : Bool :=
    match r with
    | .read d i _ => !(d == c && i = id)
    | .write d i _ p => !(d == c && i = id && p.what == .csum)
    | .walk _ => true
  s.mapFrames fun x => { x with svc := x.svc.filter keep, poolWait := x.poolWait.filter (· ≠ .stage id) }

/-- Whether a status makes the descriptor fail (R78). -/
def failed (status : BitVec 16) : Bool := decide (1 < status.toNat)

/-- An ending condition meets a descriptor (R75): the first one decides. Reads and writes not issued are dropped, remote
groups abandoned, and with ERR_CONT 0 nothing further of the context starts (R78). -/
def State.endWork (s : State) (c : CtxNo) (id status detail : Nat) : State :=
  match s.work c id with
  | none => s
  | some w =>
    if w.ending.isSome || !(w.stage == .moving || w.stage == .csum || w.stage == .csumOut) then s
    else
      let s := s.modWork c id fun w =>
        { w with ending := some (BitVec.ofNat 16 status, BitVec.ofNat 16 (min detail 0xFFFF)), stage := .moving, reads := [],
                 outs := [], opened := [], staged := 0, lastRead := true }
      let s := s.modCtx c fun x => if x.errCont || x.state == .stopped then x else { x with failStop := true }
      (((s.dropSvc c id).dropReads c id).dropSlots c id).abandonGroups c id

/-- A demand access of a descriptor that fails translation (R247, R248): by the side that made it, 4 for a list. -/
def State.failAccess (s : State) (c : CtxNo) (id detail va access kind level : Nat) (entry : Nat) : State :=
  match s.work c id with
  | none => s
  | some w =>
    let x := s.ctx c
    let t := match s.xroot x w.kset with | some (.tenant t) => t | _ => x.tenant
    let s := s.xlateFault c t va access kind level
    if detail = 4 then s.endWork c id 0x0305 entry
    else s.endWork c id (if kind = 1 then 0x0702 else 0x0701) detail

/-! ## Completion (R63, R76 to R80, R231) -/

/-- The space of a context's ring (R49). -/
def Ctx.ringSpace (x : Ctx) : BitVec 3 := if x.priv then 4 else 0

/-- One piece of bytes inside a 256 B block. -/
def piece (what : WriteFor) (space : BitVec 3) (addr : Nat) (b : Bytes) : OutPiece :=
  { what := what, space := space, core := 0, coreLast := 0, stream := false, addr := alignDown 256 addr,
    bytes := (List.range b.length).zip b |>.map (fun p => (addr % 256 + p.1, p.2)), pad := [] }

/-- The frame whose service requester carries a descriptor's last writes (R233): its own, or when that is stopped the
lowest-numbered frame that is not. -/
def State.svcFrame (s : State) (f : Nat) : Option Nat :=
  let ok (g : Nat) : Bool := !(s.frame g).stopped && !(s.frame g).draining
  if ok f then some f else frameNos.find? ok

/-- Queues a write that completes a descriptor, and notes the stage. -/
def State.svcWrite (s : State) (c : CtxNo) (w : Work) (p : OutPiece) (st : DoneStage) : State :=
  match s.svcFrame w.frame with
  | none => s
  | some f => (s.modFrame f fun x => { x with svc := x.svc ++ [.write c w.id w.idx p] }).modWork c w.id fun w =>
      { w with stage := st }

/-- The 8 status bytes as written: D_STATUS, D_DETAIL, D_PROGRESS and byte 127 with OWN 0 (R63). -/
def Work.statusBytes (w : Work) : Bytes :=
  leBytes 2 w.status.toNat ++ leBytes 2 w.detail.toNat ++ leBytes 3 w.progress ++ [BitVec.ofNat 8 (leAt w.main 127 1 &&& 0x40)]

/-- The status a descriptor completes with (R75): its ending condition, or the highest-ranked condition that ends
nothing, or OK. -/
def Work.outcome (w : Work) : BitVec 16 × BitVec 16 :=
  match w.ending with
  | some e => e
  | none =>
    match w.ejected, w.changed with
    | some p, _ => (0x0601, BitVec.ofNat 16 p)
    | none, some i => (0x0404, BitVec.ofNat 16 (min i 0xFFFF))
    | none, none =>
      if w.posted = 0 && !w.postedBefore then (0, 0) else (1, BitVec.ofNat 16 (min w.posted 0xFFFF))

/-- The descriptor with its status settled again: a table entry changed before the status leaves still counts (R147). -/
def Work.settled (w : Work) : Work :=
  if failed w.status then w else { w with status := w.outcome.1, detail := w.outcome.2 }

/-- Queues the status write (R63). -/
def State.queueStatus (s : State) (c : CtxNo) (w : Work) : State :=
  let x := s.ctx c
  let w := w.settled
  let s := s.modWork c w.id fun v => { v with status := w.status, detail := w.detail }
  s.svcWrite c w (piece .status x.ringSpace (x.entryAddr w.idx.toNat + 120) w.statusBytes) .status

/-- After the checksum: the extension slot is freed first (R63), then the status goes. -/
def State.queueSlot (s : State) (c : CtxNo) (w : Work) : State :=
  let x := s.ctx c
  if w.slot = [] then s.queueStatus c w
  else s.svcWrite c w (piece .slotFree x.ringSpace (x.entryAddr (x.next w.idx.toNat 1).toNat + 127) [0x40]) .slot

/-- The checksum result (R231): 8 B. -/
def Work.csumBytes (w : Work) : Bytes :=
  if w.csumMode = 1 then leBytes 4 (w.crc ^^^ 0xFFFFFFFF#64).toNat ++ zeros 4 else leBytes 8 w.crc.toNat

/-- A write or stream beat of a descriptor has been acknowledged (R212). -/
def State.beatBack (s : State) (w : CtxNo × Nat) : State :=
  s.modWork w.1 w.2 fun v => { v with writesOut := v.writesOut - 1 }

/-- Beats of a descriptor that wait in landing buffers or for the spine. -/
def State.undelivered (s : State) (c : CtxNo) (id : Nat) : Bool :=
  s.ports.any (fun e => e.2.landing.any fun b => b.ctx == c && b.work = id) ||
    s.spine.any fun b => b.beat.ctx == c && b.beat.work = id

/-- Post records of a descriptor that have not been issued, or not been acknowledged. -/
def State.postsOut (s : State) (c : CtxNo) (id : Nat) (issuedOnly : Bool) : Bool :=
  s.frames.any fun e =>
    (e.2.svc.any fun r => match r with
      | .write d i _ p => d == c && i = id && (match p.what with | .post _ => true | _ => false)
      | _ => false) ||
    (!issuedOnly && e.2.went.any fun q => q.2.holder == .work c id && (match q.2.what with | .post _ => true | _ => false))

/-- Members of a swarm that have not been ejected. -/
def Swarm.live (x : Swarm) : List Nat := setBits 256 (x.members &&& ~~~x.ejected).toNat

/-- Stream beats of a swarm that a port has delivered and not yet returned. -/
def State.swarmFly (s : State) (p : Nat) : Nat := ((s.port p).strmFly.filter fun e => e.2 = 0).length

/-- Whether the beats that a feed has issued have left every member region, and in landed mode every member has
acknowledged them (R194). -/
def State.beatsDone (s : State) (w : Work) (sw : Nat) : Bool :=
  let x := s.swarm sw
  x.live.all fun p => decide (w.upto + (if w.landed then s.swarmFly p else 0) ≤ x.taken.get 0 p)

/-- Whether a feed is done: every row has been issued, or it has ended, and its beats are done. -/
def State.feedDone (s : State) (w : Work) (sw : Nat) : Bool :=
  (w.ending.isSome || (decide (w.units ≤ w.unit) && w.reads = [] && w.readsOut = 0)) && s.beatsDone w sw

/-- Whether a message of lid group `g` toward chip `d` has not left a link port (R16): it waits for credit, or in a link. -/
def State.groupWaiting (s : State) (d : ChipNo) (g : Nat) : Bool :=
  let mine (m : Msg) : Bool := (m.op == opWrite || m.op == opLid) && m.dst == d && m.src == s.inp.chipId && m.tag.toNat = g
  (s.partner d).out.any mine || s.fabric.links.any fun e => e.2.txq.any fun q => q.2.any mine

/-- Whether a checksum result remains to be sent after the data (R231). -/
def Work.wantsCsum (w : Work) : Bool := !failed w.outcome.1 && w.csumMode ≠ 0

/-- Whether the lid groups of a descriptor are done as its mode requires: landed, or gone from the link ports (R16). A group
that the checksum result may still join stays open (R291). -/
def State.groupsDone (s : State) (c : CtxNo) (w : Work) : Bool :=
  (s.groupsOf c w.id).all fun e =>
    let g := s.txGroup e.1 e.2
    if !g.closed then w.wantsCsum && w.stage == .moving
    else !w.landed && g.lidSent && !s.groupWaiting e.1 e.2

/-- Whether a checksum result of a descriptor is on its way to memory. -/
def State.csumFlying (s : State) (c : CtxNo) (id : Nat) : Bool :=
  s.frames.any fun e => e.2.went.any fun q => q.2.holder == .work c id && q.2.what == .csum

/-- Stream beats of a descriptor that a core has not consumed. -/
def State.unconsumed (s : State) (c : CtxNo) (id : Nat) : Nat :=
  (s.ports.flatMap fun e => e.2.strmFly.filter fun q => q.1 == c && q.2 = id).length

/-- Whether a descriptor's data is done as its mode requires (R76, R212, R16); an ended one waits for what it has issued, in
landed mode until it is acknowledged, but an aborted one not for a core that frees no stream credit (R107; DEDUCED, log
entry 30). -/
def State.dataDone (s : State) (c : CtxNo) (w : Work) : Bool :=
  match w.kind with
  | .nop | .wait => w.lastRead
  | .feed sw => s.feedDone w sw
  | .copy =>
    let sent := !s.undelivered c w.id && !s.postsOut c w.id true
    let owed := match w.ending with | some (0x0901, _) => s.unconsumed c w.id | _ => 0
    let acked := w.writesOut ≤ owed && !s.postsOut c w.id false && !s.csumFlying c w.id
    if w.ending.isSome then sent && (!w.landed || acked)
    else
      decide (w.units ≤ w.unit) && w.outs = [] && w.reads = [] && w.readsOut = 0 && sent && (!w.landed || acked) &&
        s.groupsDone c w && (w.lidOwed.isNone || w.wantsCsum)

/-- A post-transfer beat for a checksum stored in a scratchpad (R228): one delivered write of 8 B. -/
def csumBeat (c : CtxNo) (t : Tenant) (w : Work) (a : AddrWord) : Beat :=
  let off := a.base % 64
  { kind := 0, ofs := BitVec.ofNat 26 (a.base / 64), ben := BitVec.ofNat 64 (0xFF * 2 ^ off), pad := 0,
    data := zeros off ++ w.csumBytes ++ zeros (56 - off), tenant := t, ctx := c, work := w.id, count := false }

/-- Moves a beat toward a feed port with one landing credit (R216): into the landing buffer, or onto the spine when the
sending frame is another. None without credit. -/
def State.sendBeat (s : State) (f p : Nat) (b : Beat) : Option State :=
  let q := s.port p
  if q.landCr = 0 then none
  else if chanFrame (4 * p) = f then some (s.setPort p { q with landCr := q.landCr - 1, landing := q.landing ++ [b] })
  else some { s.setPort p { q with landCr := q.landCr - 1 } with
    spine := s.spine ++ [{ src := f, dst := p / 16, ports := [p], beat := b }] }

/-- The checksum result is sent (R231). -/
def State.queueCsum (s : State) (c : CtxNo) (w : Work) : State :=
  let x := s.ctx c
  if !s.frameUp w.frame then s
  else if !w.csumAt then s.svcWrite c w (piece .csum x.ringSpace (x.entryAddr w.idx.toNat + 104) w.csumBytes) .csum
  else
    let a := csumWord w.main
    if a.space = 2 then
      match s.sendBeat w.frame a.core (csumBeat c x.tenant w a) with
      | some s => s.modWork c w.id fun w => { w with stage := .csumOut, writesOut := w.writesOut + 1 }
      | none => s
    else s.svcWrite c w (piece .csum (BitVec.ofNat 3 a.space) a.base w.csumBytes) .csum

/-- The data of the oldest descriptor is done: its status is settled and its first completing write is queued. -/
def State.settleStatus (s : State) (c : CtxNo) (w : Work) : State :=
  let o := w.outcome
  let w := { w with status := o.1, detail := o.2 }
  let s := s.modWork c w.id fun _ => w
  let s := if failed o.1 && !(s.ctx c).errCont && (s.ctx c).state != .stopped then s.modCtx c fun x => { x with failStop := true } else s
  if w.wantsCsum && w.kind != .nop && w.kind != .wait then s.queueCsum c w else s.queueSlot c w

/-- The tally on done that a lid carries (R59, R292), unless the descriptor fails without TALLY_ON_ERR (R78). -/
def Work.lidTally (w : Work) : Option (TallyNo × Nat) :=
  if w.doneRemote && w.doneEn && w.tallyDone && (!failed w.outcome.1 || w.tallyOnErr) then some (w.tally, w.doneInc) else none

/-- The lid of every open group of a descriptor that has passed on its last write (R292). A DONE_REMOTE descriptor whose
groups a pause has closed, and that wrote nothing since, sends its tally in a LID of length 0 of a new group (R86; DEDUCED, log
entry 140). None when there is nothing to close, or no group number is free. -/
def State.closeAll (s : State) (c : CtxNo) (w : Work) : Option State :=
  let l := (s.groupsOf c w.id).filter fun e => !(s.txGroup e.1 e.2).closed
  match l.find? fun e => !s.remoteUp e.1 with
  | some e => some (s.endWork c w.id 0x0804 e.1.toNat)
  | none =>
    if l ≠ [] then some (l.foldl (fun s e => s.closeGroup e.1 e.2 w.lidTally) s)
    else match w.lidOwed, w.lidTally with
    | some m, some t =>
      if !s.remoteUp m.dst then some (s.endWork c w.id 0x0804 m.dst.toNat)
      else ((List.range 64).find? fun g => s.txGroup m.dst g == {}).map fun g =>
        let lid := { m with op := opLid, tag := BitVec.ofNat 16 g, len := 0, data := [], word := lidWord 0 (some t) }
        let s := s.modWork c w.id fun v => { v with lidOwed := none }
        (s.setTxGroup m.dst g { used := true, ctx := c, work := w.id, closed := true, msgs := [lid] }).request lid
    | some _, none => some (s.modWork c w.id fun v => { v with lidOwed := none })
    | none, _ => none

/-- LAST_ERR and the descriptor event of a failed descriptor (R78). -/
def State.noteFailure (s : State) (c : CtxNo) (w : Work) (status detail : BitVec 16) : State :=
  (s.lastErr c status.toNat w.idx).event (descEvent c (s.ctx c).tenant w.idx status detail w.progress)

/-- The tally on done (R59, R76, R80). With DONE_REMOTE it travels in the lid, but for a destination found local (R60).
A tally that is not valid for the context is never touched (DEDUCED, log entry 24). -/
def State.applyDone (s : State) (c : CtxNo) (w : Work) : State :=
  let x := s.ctx c
  let here := !w.doneRemote || (w.status = 0x0104 && w.detail = 30)
  if !w.doneEn || !w.tallyDone || !here || (failed w.status && !w.tallyOnErr) then s
  else
    let sat := s.wouldSaturate w.tally.toNat w.doneInc && !s.faults.halted
    let s := s.increment w.tally.toNat w.doneInc { mkind := 1, mid := c.toNat, tenant := x.tenant }
    if sat then s.noteFailure c w 0x0902 (w.tally.setWidth 16) else s

/-- A context with nothing in progress leaves Running where something asks for it: Stopped after a failure (R78, R79), or
Ready at a preemption (R69). -/
def State.afterDone (s : State) (c : CtxNo) : State :=
  let s := s.stopIfDone c
  let x := s.ctx c
  if x.works = [] && x.leave == .boundary && x.state == .running then (s.toState c .ready).unbind c else s

/-- The descriptor has completed: DONE_IDX, DESC_DONE, LAST_ERR, the event and the tally on done (R47, R76, R78). -/
def State.complete (s : State) (c : CtxNo) (w : Work) : State :=
  let s := s.modCtx c fun x =>
    { x with works := x.works.filter (fun v => v.id ≠ w.id), doneIdx := x.next w.idx.toNat w.entries, part := false,
             cursor := 0, crcPartial := 0, kept := {},
             descDone := satAdd x.descDone 1, doneSat := x.doneSat || x.descDone = 0x7FFFFFFF }
  let s := if failed w.status then s.noteFailure c w w.status w.detail else s
  (s.applyDone c w).afterDone c

/-- The next step after a checksum result has been issued (R231): groups still open are closed, and in landed mode every
write is awaited. -/
def State.afterCsum (s : State) (c : CtxNo) (w : Work) : State :=
  match s.closeAll c w with
  | some t => t
  | none =>
    let done := s.groupsDone c w && w.lidOwed.isNone && !s.undelivered c w.id
    if done && (!w.landed || (w.writesOut = 0 && !s.csumFlying c w.id)) then s.queueSlot c w else s

/-- One step of the completion of the oldest descriptor of context `c` (R63, R76, R231). What a frame that is stopping has
left undone waits until its drain has ended (R233). -/
def State.completeStep (s : State) (c : CtxNo) : State :=
  if s.faults.halted then s
  else match (s.ctx c).works with
  | [] => s
  | w :: _ =>
    if (s.frame w.frame).draining then s
    else match w.stage with
    | .moving => if s.dataDone c w then s.settleStatus c w else s
    | .csumOut => s.afterCsum c w
    | .csumLanded => s.afterCsum c w
    | .slotLanded => s.queueStatus c w
    | .statusOut | .statusLanded => if w.landed then s else s.complete c w
    | .csum | .slot | .slotOut | .status => s

/-- DESCRIPTOR_COMPLETE (R76): the next step of the completion of the context's oldest descriptor. -/
def execDescriptorComplete (c : CtxNo) (s : State) : Host.Outcome State Fault Refusal := .next (s.completeStep c)

/-- STATUS_WRITE_ACK (R76): the status of a landed-mode descriptor has landed, and the tally on done is applied as a
release. -/
def execStatusWriteAck (c : CtxNo) (s : State) : Host.Outcome State Fault Refusal :=
  .next (
    match (s.ctx c).works with
    | w :: _ => if w.stage == .statusLanded && w.landed && !s.faults.halted then s.complete c w else s
    | [] => s)

/-- POST_RECORD_LANDED (R169): the landed tally of the oldest acknowledged post rises by 1. -/
def execPostRecordLanded (c : CtxNo) (s : State) : Host.Outcome State Fault Refusal :=
  .next (
    match (s.ctx c).posts.find? (·.landed) with
    | some p =>
      (s.modCtx c fun x => { x with posts := removeFirst (fun q => q.id = p.id) x.posts }).increment p.tally.toNat 1
        { mkind := 1, mid := c.toNat, tenant := (s.ctx c).tenant }
    | none => s)

end Sys2Proof.Machine
end

