-- ==== Sys2Proof/Machine/Accept.lean ====
section
/-! DEFINITION. Acceptance of a descriptor (R72 to R74): the order of acceptance checks, the expected key set (R163), feeds
(R190, R191), and the start of a descriptor. -/
namespace Sys2Proof.Machine

/-! ## Step 2: reserved bits (R56, R57, R88, R94, R95, R120, R148, R151) -/

/-- The byte, from `o` on, that holds the lowest set bit of a word; none of a zero word. -/
def lowByte (o w : Nat) : List Nat :=
  match (List.range 64).find? fun i => w.testBit i with
  | some i => [o + i / 8]
  | none => []

/-- The bytes of [lo, hi) that are not zero. -/
def nonZero (b : Bytes) (lo hi o : Nat) : List Nat :=
  (List.range (hi - lo)).filterMap fun i => if leAt b (lo + i) 1 ≠ 0 then some (o + lo + i) else none

/-- Opcode of an entry. -/
def opcodeOf (e : Bytes) : Nat := leAt e 0 2
/-- Whether an opcode is in the table Opcodes (R56). -/
def knownOpcode (n : Nat) : Bool := n = 1 || n = 0x10 || n = 0x20

/-- Byte offsets that hold a set reserved bit, those of the slot from 128 on (R74 step 2, R81). -/
def rsvOffsets (e x : Bytes) : List Nat :=
  let common := lowByte 2 (leAt e 2 2 &&& 0xFFE0) ++ lowByte 127 (leAt e 127 1 &&& 0x3F)
  match opcodeOf e with
  | 1 => common ++ nonZero e 8 120 0 ++ lowByte 255 (leAt x 127 1 &&& 0x3F)
  | 0x20 => common ++ lowByte 8 (leAt e 8 8 &&& 0xFFFFFFFFFFFFC000) ++ nonZero e 24 120 0 ++ lowByte 255 (leAt x 127 1 &&& 0x3F)
  | 0x10 =>
    let ct := isCt e
    common ++ lowByte 8 (addrWordRsv (leAt e 8 8)) ++ lowByte 16 (addrWordRsv (leAt e 16 8)) ++
      lowByte 24 (leAt e 24 8 &&& 0xFFFFFFFFF0080000) ++
      lowByte 88 (leAt e 88 8 &&& (if ct then 0xFC00000000000000 else 0xFC00000800000000)) ++
      (if ct then [] else nonZero e 96 104 0) ++ lowByte 104 (leAt e 104 8 &&& 0xF000000000000000) ++
      (if ct then lowByte 112 (leAt e 112 8 &&& 0xFFFE000000000000) else nonZero e 112 120 0) ++
      lowByte 208 (addrWordRsv (leAt x 80 8)) ++ nonZero x 104 127 128 ++ lowByte 255 (leAt x 127 1 &&& 0x3F)
  | _ => common

/-! ## Step 4: flags (R58 to R60) -/

/-- The lowest bit of bytes 2 to 7 that a forbidden combination names. -/
def flagsBad (inp : StaticIn) (e : Bytes) : Option Nat :=
  let copy := opcodeOf e = 0x10
  let dst := addrWord (leAt e 16 8)
  let en := bit (leAt e 4 4) 15
  let inc := fieldAt e 4 4 31 16
  let canRemote := copy && (dst.space = 0 || (dst.space = 3 && dst.chip ≠ inp.chipId.toNat))
  if bit (leAt e 2 2) 1 && !copy then some 1
  else if bit (leAt e 2 2) 4 && !copy then some 4
  else if bit (leAt e 4 4) 14 && !canRemote then some 30
  else if en != decide (inc ≠ 0) then some 32
  else none

/-! ## Feeds and ports bound to a key set (R188 to R191) -/

/-- The open swarm that a port is a member of (R189). -/
def State.portSwarm (s : State) (p : Nat) : Option Nat :=
  (List.range 4).find? fun n => (s.swarm n).isOpen && (s.swarm n).members.getLsbD p

/-- The cores that a destination names: one, or a multicast's range (R106). -/
def Box.dstCores (b : Box) : List Nat :=
  if b.dst.space ≠ 2 then []
  else if b.mcast then b.dst.core :: ((List.range (b.mcastLast - b.dst.core)).map fun i => b.dst.core + 1 + i)
  else [b.dst.core]

/-- The swarm whose feed a copy of context `c` is (R190). -/
def State.feedOf (s : State) (c : CtxNo) (e : Bytes) : Option Nat :=
  let d := addrWord (leAt e 16 8)
  if opcodeOf e ≠ 0x10 || !d.stream then none
  else match s.portSwarm d.core with
  | some n => if (s.swarm n).src = c then some n else none
  | none => none

/-- Bytes of a coefficient of a key set. -/
def KeySet.e (k : KeySet) : Nat := elemBytes k.elem.toNat
/-- Polynomial length N. -/
def KeySet.n (k : KeySet) : Nat := 2 ^ k.logN.toNat
/-- Row size B of a key object (R177). -/
def KeySet.row (k : KeySet) : Nat :=
  if k.seeded then 32 + k.n * k.e else (k.masks.toNat + 1) * k.n * k.e
/-- Bytes of an expanded row. -/
def KeySet.wide (k : KeySet) : Nat := (k.masks.toNat + 1) * k.n * k.e
/-- The address word of row 0. -/
def KeySet.word (k : KeySet) : AddrWord := addrWord k.addr.toNat

/-- Whether a modulus entry forms a combination of the table Key-set combinations (R176). -/
def ksetCombo (etype elem : Nat) (m : ModEntry) : Bool :=
  match etype with
  | 1 => m.kind = 2 && ((m.width = 32 && elem = 2) || (m.width = 64 && elem = 3))
  | 2 | 3 => m.kind = 1 && elem = 3
  | _ => false

/-- The first row of a feed (R191 order 3): the whole number of rows between KS_ADDR and ADDR. -/
def feedRow (k : KeySet) (b : Box) : Nat := (b.src.addr - k.word.addr) / max 1 k.row

/-- Orders 1 to 3 of the table Feed checks (R191). -/
def feedBox (k : KeySet) (e : Bytes) (b : Box) : Option (Nat × Nat) :=
  if b.hasExt || b.ndim ≠ 2 || leAt e 24 8 ≠ 2 + k.elem.toNat * 16 + k.elem.toNat * 256 then some (0x0301, 7)
  else if b.ext 0 ≠ k.n || b.sstr.getD 1 0 ≠ k.row || b.dstr.getD 1 0 ≠ k.wide || leAt e 40 8 ≠ 0 || leAt e 54 12 ≠ 0 ||
      leAt e 72 12 ≠ 0 || leAt e 84 4 ≠ 0 then some (0x0301, 7)
  else if b.src.space ≠ k.word.space || decide (b.src.addr < k.word.addr) || (b.src.addr - k.word.addr) % max 1 k.row ≠ 0 ||
      decide (k.rows.toNat < feedRow k b + b.ext 1) then some (0x0303, 6)
  else none

/-! ## Step 10: checksum control (R228) -/

/-- Whether the checksum control is refused. -/
def csumBad (inp : StaticIn) (present : Nat → Bool) (e : Bytes) (priv : Bool) (b : Box) (dst : Option Hull) : Bool :=
  let mode := fieldAt e 104 8 1 0
  let at_ := bit (leAt e 104 8) 2
  let a := csumWord e
  let unused := match a.space with
    | 1 => bits a.addr 56 48 ≠ 0
    | 2 => bits a.addr 56 40 ≠ 0
    | 4 => bit a.addr 56
    | _ => false
  let same := a.space = b.dst.space &&
    (a.space ≠ 2 || b.dstCores.contains a.core)
  mode = 3 || ((mode = 0 || !at_) && fieldAt e 104 8 59 3 ≠ 0) ||
  (at_ && (!(a.space ≤ 2 || (a.space = 4 && priv)) || unused || (a.space = 2 && !present a.core) ||
    decide (spaceSize inp a.space < a.base + 8) || (same && hullsMeet (some ⟨a.base, a.base + 7⟩) dst)))

/-! ## The expected key set (R163) and step 11 (R172, R188) -/

/-- The key sets of the ports that a destination names. -/
def State.portKsets (s : State) (b : Box) : List KsetNo := b.dstCores.filterMap fun p => (s.portSwarm p).map fun n => (s.swarm n).kset

/-- E (R163). -/
def State.expected (s : State) (x : Ctx) (e : Bytes) (b : Box) : KsetNo :=
  match s.portKsets b with
  | k :: _ => k
  | [] => if isCt e && (parseCt e).expKset ≠ 0 then BitVec.ofNat 14 (parseCt e).expKset else x.keySet

/-- The first failure of step 11, as status and detail; KSET_DENIED also records an alarm. -/
def State.step11 (s : State) (x : Ctx) (e : Bytes) (b : Box) : Option (Nat × Nat) :=
  let ports := s.portKsets b
  let bad := ports.find? fun k => !(x.priv || (s.kset k).tenant == x.tenant)
  let E := s.expected x e b
  let cand := (ports ++ [BitVec.ofNat 14 (parseCt e).expKset, x.keySet]).filter (· ≠ 0)
  match bad with
  | some k => some (0x0203, k.toNat)
  | none =>
    if !isCt e then none
    else if E ≠ 0 && (cand.any (· ≠ E) || (s.kset E).tenant = 0 || (s.kset E).retiring ||
        !(x.priv || (s.kset E).tenant == x.tenant)) then some (0x0203, E.toNat)
    else
      let c := parseCt e
      if !c.refresh then none
      else ([c.rrTally, c.rrTally + 1, c.rrTally + 2].find? fun t => decide (2 ^ 14 ≤ t) || (s.tallyFor x t).isNone).map
        fun t => (0x0105, t)

/-! ## The order of acceptance checks (R74) -/

/-- The first failure of steps 2 to 5, that every opcode runs. -/
def State.checkHead (s : State) (x : Ctx) (e slot : Bytes) : Option (Nat × Nat) :=
  match (rsvOffsets e slot).min? with
  | some o => some (0x0102, o)
  | none =>
    if !knownOpcode (opcodeOf e) then some (0x0101, 0)
    else match flagsBad s.inp e with
    | some b => some (0x0104, b)
    | none =>
      let id := fieldAt e 4 4 13 0
      if bit (leAt e 4 4) 15 && (s.tallyFor x id (bit (leAt e 4 4) 14)).isNone then some (0x0105, id)
      else if opcodeOf e = 0x20 && (s.tallyFor x (fieldAt e 8 8 13 0)).isNone then some (0x0105, fieldAt e 8 8 13 0)
      else none

/-- Whether a hull in space 4 names another chip (R286). -/
def State.foreignHull (s : State) (space : Nat) (h : Option Hull) : Bool :=
  match h with
  | some h =>
    let own : Int := (s.inp.chipId.toNat : Int) * 2 ^ 50
    space = 4 && (decide (max h.lo 0 < own) || decide (own + 2 ^ 50 ≤ min h.hi (2 ^ 56 - 1)))
  | none => false

/-- The address range that a feed reads, as a hull. -/
def feedHull (k : KeySet) (b : Box) : Option Hull :=
  some ⟨(b.src.addr : Int), ((b.src.addr + k.row * b.ext 1 : Nat) : Int) - 1⟩

/-- The first failure of steps 6 to 11 of a COPY of context `c` in frame `f`. -/
def State.checkCopy (s : State) (c : CtxNo) (x : Ctx) (f : Nat) (e slot : Bytes) : Option (Nat × Nat) :=
  let b := parseBox e slot
  let feed := (s.feedOf c e).map fun n => (s.swarm n).kset
  let k := s.kset (feed.getD 0)
  let ct := parseCt e
  let xf := parseXf e
  let tagI := if isCt e && ct.tagIn then some ct.t else none
  let tagO := if isCt e && ct.tagOut then some ct.t else none
  let srcH := if feed.isSome then feedHull k b else b.srcHull s.inp tagI
  let dstH := b.dstHull s.inp tagO
  let denied (sp : Nat) : Bool := decide (4 < sp) || (!x.priv && (sp = 3 || sp = 4))
  let cores := (if b.src.space = 2 then [b.src.core] else []) ++ b.dstCores
  let tiles := if isCt e then some ct.t else none
  let portBad := b.stream && feed.isNone && b.dstCores.any fun p => (s.portSwarm p).isSome
  if denied b.src.space || s.foreignHull b.src.space srcH then some (0x0201, 0)
  else if denied b.dst.space || s.foreignHull b.dst.space dstH then some (0x0201, 1)
  else match cores.find? fun n => !s.corePresent n with
  | some n => some (0x0202, n)
  | none =>
    let step8 := if feed.isSome then feedBox k e b
      else b.check s.inp x.priv tiles (!isCt e && xf.red ≠ 0) tagI tagO portBad
    let step9 :=
      if feed.isSome then
        (if leAt e 88 8 ≠ 0 || leAt e 96 8 ≠ 0 then some (0x0401, 0)
         else if !ksetCombo k.etype.toNat k.elem.toNat (s.modulus k.mod.toNat) then some (0x0402, k.mod.toNat) else none)
      else if isCt e then ct.check b x.priv (s.modulus ct.modIdx) (s.modulus ct.modDst)
      else match xf.check b with
      | some r => some r
      | none => if xf.scaleEn && !(s.frame f).scales then some (0x0403, xf.scaleFirst) else none
    let step10 := if csumBad s.inp s.corePresent e x.priv b dstH then some (0x0405, 0) else none
    let step11 := match feed with
      | some n => if leAt e 112 8 ≠ 0 || k.tenant = 0 then some (0x0203, n.toNat) else s.step11 x e b
      | none => s.step11 x e b
    step8 <|> step9 <|> step10 <|> step11

/-- The checks of R74 after step 1, as status and detail of the first failure. -/
def State.acceptance (s : State) (c : CtxNo) (x : Ctx) (f : Nat) (e slot : Bytes) : Option (Nat × Nat) :=
  match s.checkHead x e slot with
  | some r => some r
  | none => if opcodeOf e = 0x10 then s.checkCopy c x f e slot else none

/-! ## Starting a descriptor (R72, R73) -/

/-- Writes of a context that are not yet acknowledged (R73): data, tags, checksum results, posts and statuses. -/
def State.writesPending (s : State) (c : CtxNo) : Bool :=
  s.frames.any (fun e =>
    (e.2.went.any fun q => match q.2.holder with | .work d _ => d == c | _ => false) ||
    (e.2.svc.any fun r => match r with | .write d _ _ _ => d == c | _ => false)) ||
  s.ports.any (fun e => e.2.landFly.any (fun q => q.1 == c) || e.2.strmFly.any (fun q => q.1 == c) ||
    e.2.landing.any fun b => b.ctx == c) ||
  s.spine.any (fun b => b.beat.ctx == c) ||
  s.fabric.txGroups.any fun g => g.2.used && g.2.ctx == c

/-- The initial checksum of a mode (R230). -/
def csumStart (e : Bytes) : Word := if fieldAt e 104 8 1 0 = 1 then 0xFFFFFFFF else 0

/-- A descriptor of context `c` at the head of its channel, as it starts. -/
def State.newWork (s : State) (c : CtxNo) (x : Ctx) (f id : Nat) (idx : BitVec 16) (e slot : Bytes) : Work :=
  let b := parseBox e slot
  let t := s.tallyFor x (fieldAt e 4 4 13 0) (bit (leAt e 4 4) 14)
  let ct := parseCt e
  { id := id, idx := idx, main := e, slot := slot,
    kind := match opcodeOf e with
      | 1 => .nop
      | 0x20 => .wait
      | 0x10 => (match s.feedOf c e with | some n => .feed n | none => .copy)
      | _ => .nop,
    frame := f, kset := if opcodeOf e = 0x10 then s.expected x e b else 0, tally := t.getD 0,
    rrTallies := if isCt e && ct.refresh then
        [ct.rrTally, ct.rrTally + 1, ct.rrTally + 2].filterMap fun t => s.tallyFor x t
      else [],
    unit := 0, asked := false, emitted := 0, tileOk := false, tileTag := [], reads := [], readsOut := 0, outs := [],
    writesOut := 0, lastRead := false, draining := false, staged := 0, left := 0, crc := csumStart e, posted := 0,
    ending := none, ejected := none, changed := none, remoteChip := none, stage := .moving, status := 0, detail := 0,
    tallyDone := t.isSome, upto := 0, born := id,
    waits := if opcodeOf e = 0x20 then (s.tallyFor x (fieldAt e 8 8 13 0)).getD 0 else 0, accepted := false, ahead := false,
    postedBefore := false, opened := [], lidOwed := none }

/-- The lowest scale register in a descriptor's range that was written in frame `f` after its acceptance (R134). -/
def State.scaleChanged (s : State) (f born : Nat) (w : Work) : Option Nat :=
  let xf := parseXf w.main
  if isCt w.main || !xf.scaleEn || opcodeOf w.main ≠ 0x10 then none
  else ((List.range (w.box.ext xf.scaleDim)).map (xf.scaleFirst + ·)).find? fun i => decide (born < (s.frame f).scaleAt.get 0 i)

/-- The lower of two changed entries. -/
def lowest : Option Nat → Option Nat → Option Nat
  | some a, some b => some (min a b)
  | some a, none => some a
  | none, b => b

/-- The partial descriptor continues at CURSOR (R86); what its acceptance settled stands. -/
def Ctx.resumed (x : Ctx) (w : Work) : Work :=
  { w with born := x.kept.born, unit := x.cursor.toNat, crc := x.crcPartial, left := x.kept.left, ejected := x.kept.ejected,
           changed := x.kept.changed, kset := x.kept.kset, tally := x.kept.tally, tallyDone := x.kept.tallyDone,
           rrTallies := x.kept.rrTallies, postedBefore := x.kept.posted, remoteChip := x.kept.remoteChip,
           lidOwed := x.kept.lidOwed, accepted := true }

/-- The frame hint that a descriptor sets (R11). -/
def hintOf (e : Bytes) : Option (BitVec 4) :=
  let src := addrWord (leAt e 8 8)
  let dst := addrWord (leAt e 16 8)
  if opcodeOf e ≠ 0x10 then none
  else if dst.space = 2 then some (BitVec.ofNat 4 (dst.core / 16))
  else if src.space = 2 then some (BitVec.ofNat 4 (src.core / 16)) else none

/-- Whether a seeded feed must wait at acceptance: neither expander has passed its test and is powered (R185, R393). -/
def State.feedWaits (s : State) (c : CtxNo) (e : Bytes) : Bool :=
  match s.feedOf c e with
  | some n => (s.kset (s.swarm n).kset).seeded && !([0, 1].any fun u => s.sec.passed.getLsbD u && s.domainOn (62 + u))
  | none => false

/-- A seeded feed that waits powers the expanders that have passed their test (R392). -/
def State.wakeExpanders (s : State) : State :=
  [0, 1].foldl (fun t u => if t.sec.passed.getLsbD u then t.powerUp (62 + u) else t) s

/-- Whether nothing of the context's earlier descriptors holds back the next start (R73). -/
def State.mayStart (s : State) (c : CtxNo) (x : Ctx) (e : Bytes) : Bool :=
  x.works.all (·.lastRead) && (opcodeOf e != 0x20 || x.works = []) &&
    (!bit (leAt e 2 2) 2 || (x.works = [] && !s.writesPending c))

/-- A descriptor that starts or fails: it leaves the held entries and is in progress; a failure is an outcome that
DESCRIPTOR_COMPLETE writes (R74, R78). -/
def State.begin (s : State) (c : CtxNo) (w : Work) (n : Nat) (bad : Option (Nat × Nat)) : State :=
  let w := match bad with
    | some r => { w with ending := some (BitVec.ofNat 16 r.1, BitVec.ofNat 16 (min r.2 0xFFFF)), lastRead := true }
    | none => { w with accepted := true }
  let s := s.modCtx c fun x =>
    { x with held := x.held.drop n, works := x.works ++ [w], failStop := x.failStop || (bad.isSome && !x.errCont) }
  match bad with
  | some (0x0203, k) =>
    let x := s.ctx c
    s.tenantAlarm 3 1 c.toNat x.tenant k (leAt w.main 8 8)
  | some _ => s
  | none => match hintOf w.main with
    | some h => s.modCtx c fun x => { x with hintFrame := h, hintValid := true }
    | none => s

/-- Whether every member of a feed's swarm has been ejected (R191). -/
def State.feedEmpty (s : State) (w : Work) : Bool :=
  match w.kind with
  | .feed n => (s.swarm n).members &&& ~~~(s.swarm n).ejected = 0
  | _ => false

/-- The start of the entry at the head of a channel's held entries: step 1 of R74, then the other checks, or the
continuation of a partial descriptor. -/
def State.startHead (s : State) (c : CtxNo) (f : Nat) (h : Held) (rest : List Held) : State :=
  let x := s.ctx c
  let e := h.bytes
  let ext := bit (leAt e 2 2) 1
  let next := rest.find? fun q => q.idx == x.next h.idx.toNat 1
  let (id, s) := s.fresh
  let start (slot : Bytes) (n : Nat) : State :=
    let w := s.newWork c x f (id + 1) h.idx e slot
    let seen (v : Work) : Work := { v with changed := lowest v.changed (s.scaleChanged f v.born v) }
    if x.part && h.idx = x.doneIdx then
      (match x.kept.feed with
       | some sw => if w.kind == .feed sw then s.begin c (x.resumed w) n none
                    else s.begin c (x.resumed w) n (some (0x0602, sw))
       | none => s.begin c (seen (x.resumed { w with kind := match w.kind with | .feed _ => .copy | k => k })) n none)
    else match s.acceptance c x f e slot with
    | some r => s.begin c w n (some r)
    | none =>
      if s.feedEmpty w then s.begin c w n (some (0x0601, 0xFFFF)) else s.begin c w n none
  if bit (leAt e 127 1) 6 then s.begin c (s.newWork c x f (id + 1) h.idx e []) 1 (some (0x0103, 1))
  else if !ext then start [] 1
  else match next with
  | none => s
  | some q =>
    if !bit (leAt q.bytes 127 1) 6 then s.begin c (s.newWork c x f (id + 1) h.idx e []) 1 (some (0x0103, 0))
    else start q.bytes 2

/-- DESCRIPTOR_START (R72, R73): the oldest held entry of the channel's context is checked, and fails or starts, when
nothing holds it back. -/
def execDescriptorStart (ch : Fin 1024) (s : State) : Host.Outcome State Fault Refusal :=
  .next (
    match (s.chan ch.val).ctx with
    | none => s
    | some c =>
      let x := s.ctx c
      let f := chanFrame ch.val
      match x.held with
      | [] => s
      | h :: rest =>
        if x.state == .running && x.leave == .no && !x.failStop && !x.aborting && s.frameUp f && s.mayStart c x h.bytes &&
            !s.feedWaits c h.bytes then s.startHead c f h rest
        else if s.feedWaits c h.bytes then s.wakeExpanders
        else s)

end Sys2Proof.Machine
end

