-- ==== Sys2Proof/Machine/Move.lean ====
section
/-! DEFINITION. How a descriptor moves its data: the reads of a unit (R100, R105, R117), chunks of its destination order
(R98, R100), elements through the transform (R97), tile tags (R161 to R171), and the handing over of bursts and beats
(R208, R216, R292). -/
namespace Sys2Proof.Machine

/-! ## Addresses and reads of a unit -/

/-- The block that one write names: 64 B in a scratchpad, 256 B elsewhere (R100). A read names a block of 256 B, whose four
scratchpad beats share a slot (R116, R210; DEDUCED, log entry 137). -/
def blockSize (space : Nat) : Nat := if space = 2 then 64 else 256

/-- The address in the space's own form for a base inside it: a remote window keeps its chip and window bits. -/
def AddrWord.full (a : AddrWord) (base : Nat) : Nat := if a.space = 3 then a.addr / 2 ^ 43 * 2 ^ 43 + base else base

/-- The sectors that a byte needs: one 32 B sector of a 256 B block (R100), or the two of a scratchpad beat of 64 B. -/
def sectorOfByte (space addr : Nat) : BitVec 8 :=
  BitVec.ofNat 8 (if space = 2 then 3 * 2 ^ (addr % 256 / 64 * 2) else 2 ^ (addr % 256 / 32))

/-- Whether a read is for a purpose and block. -/
def ReadReq.is (r : ReadReq) (what : ReadFor) (space core addr : Nat) : Bool :=
  r.what == what && decide (r.space.toNat = space) && decide (r.core = core) && decide (r.addr = addr)

/-- A byte's read added in front of a list of reads, each block once (R105). -/
def addRead (what : ReadFor) (space core addr : Nat) (l : List ReadReq) : List ReadReq :=
  let blk := alignDown 256 addr
  let sect := sectorOfByte space addr
  if l.any fun r => r.is what space core blk then
    updateFirst (fun r => r.is what space core blk) (fun r => { r with sect := r.sect ||| sect }) l
  else { what := what, space := BitVec.ofNat 3 space, core := core, addr := blk, sect := sect } :: l

/-- The source bytes of the element at plane-0 address `a`, plane by plane, in the space's own form. -/
def Box.srcBytes (b : Box) (a : Int) : List Nat :=
  (List.range (planes b.selem)).flatMap fun (p : Nat) => (List.range (elemBytes b.selem)).map fun (k : Nat) =>
    b.src.full ((a + p * b.planeStride + k).toNat)

/-- What a box does at position `i` of unit `u`, with its indices. -/
def Box.placeAt (b : Box) (inp : StaticIn) (k : UnitKind) (u : Nat) (c : Entry) (i : Nat) : List Nat × Place :=
  let j := b.posAt k u i
  (j, b.place inp u c j)

/-- What a box does at position `i` of the unit in progress. -/
def State.placeAt (s : State) (w : Work) (c : Entry) (i : Nat) : List Nat × Place := w.box.placeAt s.inp w.unitKind w.unit c i

/-- The number of positions of the unit in progress. -/
def Work.size (w : Work) : Nat := w.box.unitSize w.unitKind w.unit

/-- The data reads that positions `from` on of the unit need, in the order of first need, each block once (R105). -/
def State.unitReads (s : State) (w : Work) (c : Entry) (start : Nat) : List ReadReq :=
  let b := w.box
  let k := w.unitKind
  ((List.range (w.size - start)).foldl (fun l i =>
    match (b.placeAt s.inp k w.unit c (start + i)).2 with
    | .move a _ _ _ => (b.srcBytes a).foldl (fun l x => addRead .data b.src.space b.src.core x l) l
    | _ => l) []).reverse

/-! ## What the slots of a descriptor hold -/

/-- The slot of frame `f` that a descriptor filled for a purpose and block. -/
def State.slotOf (s : State) (f : Nat) (c : CtxNo) (id : Nat) (what : ReadFor) (space core addr : Nat) : Option Slot :=
  ((s.frame f).slots.find? fun e => e.2.holder == .work c id && e.2.what == what && decide (e.2.space.toNat = space) &&
    decide (e.2.core = core) && decide (e.2.addr = alignDown 256 addr) && e.2.full &&
    (space ≠ 2 || e.2.want.getLsbD (addr % 256 / 64))).map (·.2)

/-- A byte that a descriptor has read. -/
def State.readByte (s : State) (f : Nat) (c : CtxNo) (id : Nat) (what : ReadFor) (space core addr : Nat) : Option Byte :=
  (s.slotOf f c id what space core addr).map fun q => q.data.get 0 (addr % 256)

/-- Bytes that a descriptor has read, when all of them are in its slots. -/
def State.readBytes (s : State) (f : Nat) (c : CtxNo) (id : Nat) (what : ReadFor) (space core : Nat) (l : List Nat) :
    Option Bytes := l.mapM (s.readByte f c id what space core)

/-- Whether data reads of a descriptor are in flight in its frame. -/
def State.dataFlying (s : State) (c : CtxNo) (w : Work) : Bool :=
  0 < s.heldSlots w.frame fun q => q.holder == .work c w.id && q.what == .data && !q.full

/-- A slot given back when a descriptor holds it and `p` names it. -/
def Slot.releaseIf (c : CtxNo) (id : Nat) (p : Slot → Bool) (q : Slot) : Slot :=
  if q.holder == .work c id && q.full && p q then q.release else q

/-- Gives back the slots of a descriptor that `p` names. -/
def State.freeSlotsOf (s : State) (f : Nat) (c : CtxNo) (id : Nat) (p : Slot → Bool) : State :=
  s.modFrame f fun x => { x with slots := x.slots.mapAll {} fun _ q => q.releaseIf c id p }

/-! ## List entries (R109 to R111) -/

/-- The list entry of the unit in progress: absent, invalid, or as used. -/
inductive ListUse where
  | missing
  | invalid
  | entry (e : Entry)
deriving DecidableEq, Repr

/-- Address of the list entry of a unit. -/
def Work.listAt (w : Work) : Nat := w.box.listAddr.base + 16 * w.unit

/-- The list entry of the unit in progress. A null entry under a ciphertext transform is invalid (R154). -/
def State.listUse (s : State) (c : CtxNo) (w : Work) : ListUse :=
  if w.box.list = 0 then .entry .plain
  else match s.readBytes w.frame c w.id .list w.box.listAddr.space 0 ((List.range 16).map (w.listAt + ·)) with
  | none => .missing
  | some x => match w.box.listEntry x with
    | some .null => if w.ct.isSome then .invalid else .entry .null
    | some e => .entry e
    | none => .invalid

/-- The read of the aligned 256 B block that holds the unit's list entry (R111). A list is read where its address word says:
no check of its end against its space or of a space-4 address's chip is stated (DESIGN CHOICE, log entry 134). -/
def Work.listRead (w : Work) : ReadReq :=
  { what := .list, space := BitVec.ofNat 3 w.box.listAddr.space, core := 0, addr := alignDown 256 w.listAt, sect := 0xFF }

/-- The list entry that an address of a list read stands for, not before the unit in progress (R111). -/
def Work.entryAt (w : Work) (addr : Nat) : Nat := max w.unit ((addr - w.box.listAddr.base) / 16)

/-- Whether a service read of a descriptor is queued or in flight in its frame. -/
def State.svcReadOut (s : State) (f : Nat) (c : CtxNo) (id : Nat) (what : ReadFor) (addr : Nat) : Bool :=
  ((s.frame f).svc.any fun r => match r with
    | .read d i q => d == c && decide (i = id) && q.what == what && decide (q.addr = addr)
    | _ => false) ||
  (s.frame f).slots.any fun e => e.2.holder == .work c id && e.2.what == what && decide (e.2.addr = addr) && !e.2.full

/-- Queues a service read. -/
def State.svcRead (s : State) (f : Nat) (c : CtxNo) (id : Nat) (r : ReadReq) : State :=
  s.modFrame f fun x => { x with svc := x.svc ++ [.read c id r] }

/-- Reads the list ahead of use, up to 64 entries (R111). None when nothing more is to be read. -/
def State.listAhead (s : State) (c : CtxNo) (w : Work) : Option State :=
  if w.box.list = 0 || !w.asked || (s.ctx c).leave == .resume then none
  else
    let here (a : Nat) : Bool := (s.frame w.frame).slots.any fun e =>
      e.2.holder == .work c w.id && e.2.what == .list && decide (e.2.addr = a)
    let want (a : Nat) : Bool :=
      decide (a + 256 ≤ w.listAt + 16 * 65) && decide (a < w.box.listAddr.base + 16 * w.units) && !here a &&
        !s.svcReadOut w.frame c w.id .list a
    (([1, 2, 3, 4].map fun k => w.listRead.addr + 256 * k).find? want).map fun a =>
      s.svcRead w.frame c w.id { w.listRead with addr := a }

/-! ## Elements through the transform (R97) -/

/-- The raw value of a source element from its bytes: little-endian, or one bit of each plane (R92, R93). -/
def Box.rawElem (b : Box) (sb : Nat) (x : Bytes) : Nat :=
  if isPlanar b.selem then ((x.zip (List.range x.length)).map fun p => b2n (bit p.1.toNat sb) * 2 ^ p.2).sum
  else leNat x

/-- Whether the modulus entries that a transform computes with still fit it (R147). -/
def State.ctFits (s : State) (ct : Ct) (selem : Nat) : Bool :=
  !ct.usesMod || ct.modFits selem (s.modulus ct.modIdx) && ct.dstFits (s.modulus ct.modDst)

/-- A destination element from the raw source element at box index `j`. `n` numbers the element among those of the chunk:
the draw of stochastic rounding (R126) and a value the spec leaves undefined (R147) are taken at it. Scale registers and
modulus entries are used as they stand when the chunk is passed on (DESIGN CHOICE, log entry 115). -/
def State.convert (s : State) (w : Work) (b : Box) (j : List Nat) (n raw : Nat) : Nat :=
  match w.ct with
  | some ct =>
    if s.ctFits ct b.selem then
      ct.apply b.selem (s.modulus ct.modIdx) (s.modulus ct.modDst) (j.getD ct.expDim 0) raw
    else (Config.freeWord (s.free + n)).toNat
  | none =>
    let x := parseXf w.main
    let f := s.frame w.frame
    let sc := x.scale f.scaleRegs j
    let u := if x.round = 2 then (Config.draw24 w.frame (f.draws + n)).toNat else 0
    x.apply (elemBits b.selem) (elemBits b.delem) sc.1 sc.2 u raw

/-! ## Chunks of the destination order -/

/-- One element that leaves: plane-0 address of its destination byte, bit in it, value, and whether it is pad. -/
structure OutElem where
  dst : Int
  db : Nat
  val : Nat
  pad : Bool
deriving DecidableEq, Repr

/-- The positions of one chunk from position `i` on: positions dropped, and up to `cap` others whose destinations have one
key; a failing position ends the chunk and is its last. -/
def takeChunk (f : Nat → List Nat × Place) (key : Int → Int) : Nat → Nat → Option Int → Nat → List (List Nat × Place)
  | 0, _, _, _ => []
  | n + 1, i, blk, cap =>
    let p := f i
    let rest (d : Int) : List (List Nat × Place) :=
      if cap = 0 || (match blk with | some k => k != key d | none => false) then []
      else p :: takeChunk f key n (i + 1) (some (key d)) (cap - 1)
    match p.2 with
    | .bad _ _ => [p]
    | .drop => p :: takeChunk f key n (i + 1) blk cap
    | .pad d _ => rest d
    | .move _ _ d _ => rest d

/-- The positions that a chunk scans at most. -/
def scanLimit : Nat := 4096

/-- The positions that a chunk of a planar destination passes on at most. -/
def planarLimit : Nat := 128

/-- The destination byte of a place. -/
def Place.dstByte : Place → Option Int
  | .pad d _ => some d
  | .move _ _ d _ => some d
  | _ => none

/-- A chunk without its last destination byte, which a later chunk still adds bits to; the whole chunk when it is the only
one. -/
def wholeBytes (l : List (List Nat × Place)) : List (List Nat × Place) :=
  match (l.filterMap fun p => p.2.dstByte).getLast? with
  | none => l
  | some d =>
    let k := l.takeWhile fun p => p.2.dstByte ≠ some d
    if k = [] then l else k

/-- The chunk of the unit in progress from its first position not yet passed on: part of one innermost row inside an
aligned block (R100), the planes of a planar row together (R229), or one stream beat. A stream beat of a planar destination
holds whole groups of 8 codes (DESIGN CHOICE, log entry 132). -/
def State.chunk (s : State) (w : Work) (c : Entry) : List (List Nat × Place) :=
  let b := w.box
  let n : Int := blockSize b.dst.space
  let k := w.unitKind
  let f := b.placeAt s.inp k w.unit c
  if b.stream then
    let cap := if isPlanar b.delem then 8 * (64 / planes b.delem) else 64 / elemBytes b.delem
    takeChunk f (fun _ => 0) (min scanLimit (w.size - w.emitted)) w.emitted none cap
  else
    let left := b.rowLeft w.unitKind w.unit w.emitted
    if isPlanar b.delem then
      let l := takeChunk f (fun _ => 0) (min scanLimit left) w.emitted none planarLimit
      if l.length < left then wholeBytes l else l
    else takeChunk f (fun d => d / n) (min scanLimit left) w.emitted none scanLimit

/-- The elements of a chunk, when every source byte is in the descriptor's slots. -/
def State.chunkElems (s : State) (c : CtxNo) (w : Work) (l : List (List Nat × Place)) : Option (List OutElem) :=
  let b := w.box
  let padV := b.padValue % 2 ^ elemBits b.delem
  ((l.zip (List.range l.length)).mapM fun (p : (List Nat × Place) × Nat) =>
    match p.1.2 with
    | .move a sb d db =>
      (s.readBytes w.frame c w.id .data b.src.space b.src.core (b.srcBytes a)).map fun x =>
        [({ dst := d, db := db, val := s.convert w b p.1.1 p.2 (b.rawElem sb x), pad := false } : OutElem)]
    | .pad d db => some [({ dst := d, db := db, val := padV, pad := true } : OutElem)]
    | _ => some []).map List.flatten

/-- Bytes that leave, with their addresses in plane 0 or in their own plane, and whether each is pad. -/
structure OutByte where
  addr : Int
  byte : Byte
  pad : Bool
deriving DecidableEq, Repr

/-- The bytes of a byte side's elements in destination order. -/
def byteOut (e : Nat) (l : List OutElem) : List OutByte :=
  l.flatMap fun x => (leBytes e x.val).zip (List.range e) |>.map fun p => ⟨x.dst + p.2, p.1, x.pad⟩

/-- The destination bytes that a chunk of a planar side touches, in order. -/
def planarBytes (l : List OutElem) : List Int := l.foldl (fun a x => if a.contains x.dst then a else a ++ [x.dst]) []

/-- The byte of plane `p` at plane-0 address `d`; bits no element gives are `free` (DESIGN CHOICE, log entry 28). -/
def planarByte (l : List OutElem) (d : Int) (p : Nat) (free : Nat) : Byte :=
  BitVec.ofNat 8 (((List.range 8).map fun i =>
    match l.find? fun x => x.dst = d && x.db = i with
    | some x => b2n (bit x.val p) * 2 ^ i
    | none => b2n (bit free i) * 2 ^ i).sum)

/-- The bytes of a planar side's elements: each group of 8 codes gives plane 0, then plane 1, and so on (R229). A byte some of
whose codes are stream-only pad is marked as pad (DESIGN CHOICE, log entry 133). -/
def planarOut (pl : Nat) (ps : Int) (free : Nat → Nat) (l : List OutElem) : List OutByte :=
  let ds := planarBytes l
  (ds.zip (List.range ds.length)).flatMap fun d => (List.range pl).map fun (p : Nat) =>
    ⟨d.1 + (p : Nat) * ps, planarByte l d.1 p (free (d.2 * pl + p)), l.any fun x => decide (x.dst = d.1) && x.pad⟩

/-- The pieces of bytes of one plane or byte side, each inside one aligned block, in order. -/
def cutPieces (space core coreLast : Nat) (word : Nat → Nat) (l : List OutByte) : List OutPiece :=
  let n := blockSize space
  let blocks := l.foldl (fun (a : List Nat) x =>
    let k := alignDown n x.addr.toNat
    if a.contains k then a else a ++ [k]) []
  blocks.map fun k =>
    { what := .data, space := BitVec.ofNat 3 space, core := core, coreLast := coreLast, stream := false, addr := word k,
      bytes := (l.filter fun x => alignDown n x.addr.toNat = k).map fun x => (x.addr.toNat % n, x.byte), pad := [] }

/-- The last core of a scratchpad destination (R106). -/
def Box.lastCore (b : Box) : Nat := if b.mcast then b.mcastLast else b.dst.core

/-- The piece that a stream beat carries. -/
def Box.streamPiece (b : Box) (l : List OutByte) : OutPiece :=
  { what := .data, space := 2, core := b.dst.core, coreLast := b.lastCore, stream := true, addr := 0,
    bytes := (List.range l.length).zip (l.map (·.byte)),
    pad := if b.padMode = 2 then (List.range l.length).filter fun i => (l.getD i ⟨0, 0, false⟩).pad else [] }

/-- The pieces of a chunk toward memory or a scratchpad, by plane. -/
def Box.planePieces (b : Box) (l : List OutByte) : List (Nat × List OutPiece) :=
  let cut := cutPieces b.dst.space b.dst.core b.lastCore b.dst.full
  if isPlanar b.delem then
    (List.range (planes b.delem)).map fun p =>
      (p, cut ((List.range l.length).filterMap fun i => if i % planes b.delem = p then l[i]? else none))
  else [(0, cut l)]

/-- The pieces of one plane after those gathered before: one that the row may still add to stays open (R100), the others are
whole and leave. -/
def gatherPlane (opened : Option OutPiece) (l : List OutPiece) (more : Bool) : List OutPiece × Option OutPiece :=
  let l := match opened, l with
    | some o, p :: r => if o.addr = p.addr then { o with bytes := o.bytes ++ p.bytes } :: r else o :: p :: r
    | some o, [] => [o]
    | none, r => r
  if more then (l.dropLast, l.getLast?) else (l, none)

/-- The pieces of a chunk that leave, and those that stay open while the row goes on. -/
def Box.gatherPieces (b : Box) (opened : Store OutPiece) (l : List OutByte) (more : Bool) : List OutPiece × Store OutPiece :=
  (b.planePieces l).foldl (fun a p =>
    let g := gatherPlane ((opened.find? fun e => e.1 = p.1).map (·.2)) p.2 more
    (a.1 ++ g.1, match g.2 with | some o => a.2 ++ [(p.1, o)] | none => a.2)) ([], [])

/-! ## Checksums (R229, R230) -/

/-- The running checksum over more bytes. -/
def Work.sum (w : Work) (x : Bytes) : Word :=
  match w.csumMode with
  | 1 => (crc32cFrom (w.crc.setWidth 32) x).setWidth 64
  | 2 => crc64From w.crc x
  | _ => w.crc

/-! ## Tile tags (R161 to R171) -/

/-- The origins of the tile in progress on each side (R152). -/
def State.tileOrigin (s : State) (w : Work) (c : Entry) : Option (Nat × Nat) :=
  match (s.placeAt w c 0).2 with
  | .move a _ d _ => some (a.toNat, d.toNat)
  | _ => none

/-- The output tag of the tile in progress (R166, R170). -/
def Work.outTagOf (w : Work) (x : Ctx) (ct : Ct) (posted : Bool) : Bytes :=
  ct.outTag w.box (if ct.tagIn then some w.tileTag else none) x.tenant.toNat w.kset.toNat posted

/-- The piece that writes a tile's output tag: 32 B below the destination origin, or one tag beat (R165 to R167). -/
def Box.tagPiece (b : Box) (origin : Nat) (tag : Bytes) : OutPiece :=
  let at_ := origin - 32
  { what := .tag, space := BitVec.ofNat 3 b.dst.space, core := b.dst.core, coreLast := b.lastCore, stream := b.stream,
    addr := if b.stream then 0 else b.dst.full (alignDown (blockSize b.dst.space) at_),
    bytes := (List.range 32).zip tag |>.map fun p =>
      ((if b.stream then 0 else at_ % blockSize b.dst.space) + p.1, p.2), pad := [] }

/-- The descriptor after a read was issued or dropped: its last read has been issued once nothing of its last unit is still
to be read (R73). -/
def Work.noteIssued (w : Work) : Work :=
  { w with lastRead := w.lastRead || (w.asked && w.reads = [] && decide (w.units ≤ w.unit + 1)) }

/-- The record of a post (R169). -/
def postRecord (c : CtxNo) (w : Work) (claim : Nat) (o : Nat × Nat) : Bytes :=
  let b := w.box
  let word (a : AddrWord) (x : Nat) : Nat :=
    a.space * 2 ^ 57 + (if a.space = 2 then a.addr / 2 ^ 32 * 2 ^ 32 + (if a.stream then 0 else x) else a.full x)
  leBytes 8 (claim + 1) ++ leBytes 8 (word b.src o.1) ++ leBytes 8 (word b.dst o.2) ++ leBytes 4 c.toNat ++
    leBytes 2 w.idx.toNat ++ leBytes 2 (min w.unit 0xFFFF) ++ w.tileTag

/-- A tile is posted (R169, R170): the record is queued, nothing of the tile is delivered, and its output tag, if any,
carries TTF_POSTED. -/
def State.postTile (s : State) (c : CtxNo) (w : Work) (ct : Ct) (claim : Nat) (o : Nat × Nat) : State :=
  let x := s.ctx c
  let pid := s.fresh.1
  let s := s.fresh.2
  let slot := ct.rrAddr + 64 * (claim % ct.ringSize)
  let rec_ := piece (.post pid) (BitVec.ofNat 3 ct.rrSpace) slot (postRecord c w claim o)
  let s : State := match s.svcFrame w.frame with
    | some f => s.modFrame f fun y => { y with svc := y.svc ++ [.write c w.id w.idx rec_] }
    | none => s
  let s := s.modCtx c fun y =>
    { y with posts := y.posts ++ [{ id := pid, tally := w.rrTallies.getD 2 0, landed := false }] }
  let tag := w.outTagOf x ct true
  let s := s.modWork c w.id fun w =>
    { w with posted := w.posted + 1, reads := [], emitted := w.size, tileOk := true,
             outs := if ct.tagOut then [w.box.tagPiece o.2 tag] else [], crc := if ct.tagOut then w.sum tag else w.crc }
  (s.freeSlotsOf w.frame c w.id fun q => q.what == .data).modWork c w.id Work.noteIssued

/-- Whether a noise level passes (R163 order 6): 255 only where the limit is 255. -/
def levelOk (lvl limit : Nat) : Bool := decide (lvl ≤ limit)

/-- TILE_TAG_CHECK (R163, R164): the tag of the tile in progress has arrived; the tile is released, refused or posted. -/
def State.tileCheck (s : State) (c : CtxNo) (id : Nat) : State :=
  match s.work c id with
  | none => s
  | some w =>
    match w.ct, s.listUse c w with
    | some ct, .entry e =>
      if !w.asked || w.tileOk then s
      else match s.tileOrigin w e with
      | none => s
      | some o =>
        let b := w.box
        let x := s.ctx c
        match s.readBytes w.frame c id .tag b.src.space b.src.core ((List.range 32).map fun i => b.src.full (o.1 - 32 + i)) with
        | none => s
        | some tag =>
          let s := s.freeSlotsOf w.frame c id fun q => q.what == .tag
          let s := s.modWork c id fun w => { w with tileTag := tag }
          let w := { w with tileTag := tag }
          let E := w.kset
          let tn := if x.priv then (if E = 0 then none else some (s.kset E).tenant.toNat) else some x.tenant.toNat
          match ct.tagFault b tn E.toNat tag with
          | some st =>
            let s := if st = 0x0503 || st = 0x0504 then
                s.tenantAlarm 2 1 c.toNat x.tenant (fieldAt tag 4 2 13 0) (b.src.full o.1) else s
            s.endWork c id st w.unit
          | none =>
            if levelOk (leAt tag 7 1) ct.lvlLimit then s.modWork c id fun w => { w with tileOk := true }
            else if !ct.refresh then s.endWork c id 0x0505 w.unit
            else
              match s.claim (w.rrTallies.getD 0 0).toNat (w.rrTallies.getD 1 0).toNat ct.ringSize with
              | (none, s) => s.endWork c id 0x0506 w.unit
              | (some n, s) => (s.postTile c w ct n o).settle
    | _, _ => s

/-- A slot of a descriptor has been filled: a tile tag is checked at once. -/
def State.slotFilled (s : State) (f n : Nat) : State :=
  let q := s.slot f n
  match q.holder with
  | .work c id => if q.full && q.what == .tag then s.tileCheck c id else s
  | _ => s

/-- The check code of a slot that has been filled (R385, R387): one flip is corrected, two deliver nothing and fail the
descriptor that owns the slot. -/
def State.slotEcc (s : State) (f n : Nat) : State × Bool :=
  let q := s.slot f n
  if q.flips = 0 then (s, true)
  else
    let s := s.setSlotAt f n { q with flips := 0 }
    let m := match q.holder with | .work c _ => (1, c.toNat) | _ => (6, 0)
    let cap : FaultCap := { src := if q.flips = 1 then 32 else 16 + f, mkind := m.1, mid := m.2, tenant := q.recTenant, sub := f,
                            addr := n }
    let s := s.raise cap
    if q.flips = 1 then (s, true)
    else match q.holder with
      | .work c id => (s.endWork c id 0x0803 0, false)
      | .walk id =>
        ((s.setSlotAt f n {}).modFrame f fun x => { x with svc := x.svc ++ [.walk id] }, false)
      | _ => (s.setSlotAt f n {}, false)

/-- The flips that injection has asked for in frame `f`'s next pantry write (R387), taken. -/
def State.takeFlips (s : State) (f : Nat) : Nat × State :=
  (s.faults.flipPantry.get 0 f, s.modFaults fun x => { x with flipPantry := x.flipPantry.erase f })

/-- Bytes enter a slot at offset `off`, with the beats `beats` they complete; the access has drained once all have come
(R254). -/
def State.fillSlot (s : State) (f n off : Nat) (beats : BitVec 4) (data : Bytes) : State :=
  let q := s.slot f n
  let d := data.zip (List.range data.length) |>.foldl (fun d p => d.set 0 (off + p.2) p.1) q.data
  let (k, s) := s.takeFlips f
  let got := q.have_ ||| beats
  s.setSlotAt f n { q with data := d, have_ := got, counted := q.counted && got != q.want,
                           flips := (if q.have_ = 0 then 0 else q.flips) + k }

/-- A descriptor's slot has received its last beat; one whose descriptor has ended is given back. -/
def State.workSlotDone (s : State) (f n : Nat) (c : CtxNo) (id : Nat) : State :=
  let q := s.slot f n
  let s := if q.what == .data || q.what == .tag then s.modWork c id fun w => { w with readsOut := w.readsOut - 1 } else s
  let r := s.slotEcc f n
  if (r.1.work c id).isNone then r.1.setSlotAt f n (r.1.slot f n).release
  else if r.2 then r.1.slotFilled f n else r.1

/-! ## Starting a unit -/

/-- The slots that a transpose takes before its first read: two whisk blocks, or the whole matrix in place (R208). -/
def State.stageNeed (s : State) (w : Work) : Nat :=
  match w.unitKind with
  | .whole => (s.unitReads w .plain 0).length
  | _ => if w.box.whisk then 2 * (256 / elemBytes w.box.delem) else 0

/-- Whether the slots of a transpose can be taken now (R207, R208): two blocks from the shared pool under FC_CAP, or a
matrix from every slot that nobody holds. -/
def State.canStage (s : State) (c : CtxNo) (w : Work) (n : Nat) : Bool :=
  let f := w.frame
  if w.unitKind == .whole then decide (n ≤ s.freeSlots f)
  else decide (s.poolUsed f + n ≤ s.poolSize f) && decide (n ≤ s.freeSlots f) &&
    decide (s.pooled f (.chan c) + n ≤ s.fcCap)

/-- The next step toward staged slots: the request is queued, or granted in order (R207). None when there is nothing to
stage, or it must wait. -/
def State.stageStep (s : State) (c : CtxNo) (w : Work) : Option State :=
  let n := s.stageNeed w
  let q := (s.frame w.frame).poolWait
  if n = 0 || 0 < w.staged then none
  else if !q.contains (.stage w.id) then
    some (s.modFrame w.frame fun x => { x with poolWait := x.poolWait ++ [.stage w.id] })
  else if s.poolHead w.frame = some (.stage w.id) && s.canStage c w n then
    some ((s.modFrame w.frame fun x => { x with poolWait := x.poolWait.erase (.stage w.id) }).modWork c w.id fun w =>
      { w with staged := n })
  else none

/-- Starts a unit whose list entry is known: its reads are laid out, the tile tag's first unless it has been read ahead
(R164). -/
def State.layUnit (s : State) (c : CtxNo) (w : Work) (e : Entry) : State :=
  let b := w.box
  let tags := w.tagIn || w.tagOut
  let lay (tag : List ReadReq) : State :=
    s.modWork c w.id fun w =>
      Work.noteIssued { w with asked := true, emitted := 0, tileOk := !w.tagIn, tileTag := [], ahead := false,
                               reads := w.reads ++ tag ++ s.unitReads w e 0 }
  if !tags then lay []
  else match (s.placeAt w e 0).2 with
  | .bad st d => s.endWork c w.id st d
  | .move a _ d _ =>
    if (w.tagIn && a % 32 ≠ 0) || (w.tagOut && !b.stream && d % 32 ≠ 0) then s.endWork c w.id 0x0305 w.unit
    else if w.tagIn && a < 32 then s.endWork c w.id 0x0303 6
    else if w.tagOut && !b.stream && d < 32 then s.endWork c w.id 0x0303 7
    else if w.ahead then (lay []).tileCheck c w.id
    else lay (if w.tagIn then addRead .tag b.src.space b.src.core (b.src.full (a.toNat - 32)) [] else [])
  | _ => lay []

/-- The tag of the next tile is read while the tile in progress is delivered (R164). None when that cannot be done yet. -/
def State.aheadTag (s : State) (c : CtxNo) (w : Work) : Option State :=
  let v := { w with unit := w.unit + 1 }
  let b := w.box
  if !w.asked || !w.tileOk || !w.tagIn || w.ahead || w.reads ≠ [] || decide (w.units ≤ v.unit) || (s.ctx c).leave == .resume then
    none
  else match s.listUse c v with
  | .entry e =>
    (match (s.placeAt v e 0).2 with
     | .move a _ _ _ =>
       if a % 32 ≠ 0 || a < 32 then none
       else some (s.modWork c w.id fun w =>
         { w with ahead := true, reads := addRead .tag b.src.space b.src.core (b.src.full (a.toNat - 32)) [] })
     | _ => none)
  | _ => none

/-- Starts the next unit: staged slots and the list entry come first. -/
def State.startUnit (s : State) (c : CtxNo) (w : Work) : Option State :=
  if w.asked || decide (w.units ≤ w.unit) || ((s.ctx c).leave == .resume && w.unitKind != .whole) then none
  else if 0 < s.stageNeed w && w.staged = 0 then s.stageStep c w
  else match s.listUse c w with
  | .missing =>
    if s.svcReadOut w.frame c w.id .list w.listRead.addr then none else some (s.svcRead w.frame c w.id w.listRead)
  | .invalid => some (s.endWork c w.id 0x0305 w.unit)
  | .entry e => some (s.layUnit c w e)

/-! ## Passing on data -/

/-- The entry of the unit in progress, once it is known. -/
def State.entryOf (s : State) (c : CtxNo) (w : Work) : Entry :=
  match s.listUse c w with
  | .entry e => e
  | _ => .plain

/-- The slot for a descriptor's read: one of its staged slots while it holds fewer than it has staged, or as R207 gives. -/
def State.slotFor (s : State) (c : CtxNo) (w : Work) : Option (Nat × Bool) :=
  let held := s.heldSlots w.frame fun q => q.holder == .work c w.id
  s.takeSlot w.frame (.chan c) (decide (held < w.staged))

/-- Whether a descriptor that still has reads to issue holds all the slots that R206 and R207 can ever give it, so that
waiting brings no more. -/
def State.capped (s : State) (c : CtxNo) (w : Work) : Bool :=
  w.reads ≠ [] && (s.slotFor c w).isNone &&
    decide (min s.fcCap (s.poolSize w.frame) ≤ s.heldSlots w.frame fun q => q.holder == .work c w.id && q.pool)

/-- Whether a transpose's block is still filling (R108, R116): nothing of it leaves before, unless it can hold no more. -/
def State.filling (s : State) (c : CtxNo) (w : Work) : Bool :=
  (w.unitKind == .whole || w.box.whisk) && (w.reads ≠ [] || s.dataFlying c w) && !s.capped c w

/-- Passes on the next chunk of the unit in progress: its pieces are ready to leave, the checksum runs over its bytes, and
a tile's output tag enters the checksum first, leads a stream and follows the data to memory (R167, R229). -/
def State.emit (s : State) (c : CtxNo) (w : Work) : Option State :=
  let b := w.box
  let e := s.entryOf c w
  if !w.asked || !w.tileOk || w.outs ≠ [] || decide (w.size ≤ w.emitted) || s.filling c w then none
  else
    let l := s.chunk w e
    match l.getLast? with
    | some (_, .bad st d) => some (s.endWork c w.id st d)
    | _ =>
      (s.chunkElems c w l).map fun xs =>
        let x := s.ctx c
        let free (i : Nat) : Nat := (Config.freeWord (s.free + l.length + i)).toNat
        let out := if isPlanar b.delem then planarOut (planes b.delem) b.planeStride free xs
                   else byteOut (elemBytes b.delem) xs
        let last := decide (w.size ≤ w.emitted + l.length)
        let more := decide (l.length < b.rowLeft w.unitKind w.unit w.emitted) && (isPlanar b.delem || l.length = scanLimit)
        let leaving := if b.stream then (if out = [] then [] else [b.streamPiece out], []) else b.gatherPieces w.opened out more
        let tag := match w.ct with | some ct => if ct.tagOut then w.outTagOf x ct false else [] | none => []
        let o := match s.tileOrigin w e with | some o => o.2 | none => 0
        let tp := if tag = [] then [] else [b.tagPiece o tag]
        let crc0 := if w.emitted = 0 then w.sum tag else w.crc
        let w' := { w with crc := crc0 }
        let pre := if b.stream && w.emitted = 0 then tp else []
        let post := if !b.stream && last then tp else []
        let rounds := w.ct.isNone && (parseXf w.main).round = 2
        let s := s.modFrame w.frame fun f => { f with draws := if rounds then f.draws + l.length else f.draws }
        let s := { s with free := s.free + l.length + out.length }
        s.modWork c w.id fun w =>
          { w with emitted := w.emitted + l.length, crc := w'.sum (out.map (·.byte)), opened := leaving.2,
                   outs := pre ++ leaving.1 ++ post }

/-- Whether a beat of a descriptor waits to cross the spine: its slot is held until it has crossed (R208). -/
def State.crossing (s : State) (c : CtxNo) (w : Work) : Bool := s.spine.any fun b => b.beat.ctx == c && b.beat.work = w.id

/-- Frees the slots that no position still to be passed on needs, once what has been passed on has left (R208). None when
there are none. -/
def State.trim (s : State) (c : CtxNo) (w : Work) : Option State :=
  if !w.asked || w.outs ≠ [] || !w.tileOk || s.crossing c w then none
  else
    let need := s.unitReads w (s.entryOf c w) w.emitted
    let gone (q : Slot) : Bool := q.what == .data && !(need.any fun r => r.is .data q.space.toNat q.core q.addr)
    let t := s.freeSlotsOf w.frame c w.id gone
    if (s.frame w.frame).slots = (t.frame w.frame).slots then none else some t

/-- Ends a unit whose positions have all been passed on and have left. The next tile's tag and the list entries still to be
used stay. -/
def State.endUnit (s : State) (c : CtxNo) (w : Work) : Option State :=
  if !w.asked || w.outs ≠ [] || decide (w.emitted < w.size) || (w.reads.any fun r => r.what == .data) || s.dataFlying c w ||
      s.crossing c w then none
  else
    let w' := { w with unit := w.unit + 1, asked := false, emitted := 0, tileOk := false, tileTag := [] }
    let used (q : Slot) : Bool :=
      q.what == .data || (q.what == .list && (decide (w'.units ≤ w'.unit) || decide (q.addr < w'.listRead.addr)))
    some ((s.freeSlotsOf w.frame c w.id used).modWork c w.id fun _ => w')

/-! ## Handing over (R208, R215, R216, R292) -/

/-- The cores of a piece toward scratchpads. -/
def OutPiece.cores (p : OutPiece) : List Nat := (List.range (p.coreLast + 1 - p.core)).map (p.core + ·)

/-- The beat of a piece toward a scratchpad or stream. -/
def OutPiece.beat (p : OutPiece) (c : CtxNo) (id : Nat) (t : Tenant) (count : Bool) : Beat :=
  let byteAt (i : Nat) : Byte := match p.bytes.find? fun q => q.1 = i with | some q => q.2 | none => 0
  { kind := if p.stream then (if p.what == .tag then 2 else 1) else 0,
    ofs := BitVec.ofNat 26 (if p.stream then 0 else p.addr / 64),
    ben := BitVec.ofNat 64 ((p.bytes.map fun q => 2 ^ q.1).sum), pad := BitVec.ofNat 64 ((p.pad.map fun i => 2 ^ i).sum),
    data := (List.range 64).map byteAt, tenant := t, ctx := c, work := id, count := count }

/-- Bytes of a descriptor have left (R63). -/
def State.leave (s : State) (c : CtxNo) (id n : Nat) : State := s.modWork c id fun w => { w with left := w.left + n }

/-- Sends a piece to its ports: one landing credit in every member's buffer, the ports of the sender's own frame at once,
each other frame by one spine beat (R107, R216, R220). -/
def State.sendPiece (s : State) (f : Nat) (c : CtxNo) (w : Work) (t : Tenant) (p : OutPiece) : Option State :=
  let ps := p.cores
  if ps.any fun n => (s.port n).landCr = 0 then none
  else
    let s := ps.foldl (fun s n => s.setPort n { s.port n with landCr := (s.port n).landCr - 1 }) s
    let first := p.core
    let own := ps.filter fun n => n / 16 = f
    let s := own.foldl (fun s n => s.setPort n { s.port n with
      landing := (s.port n).landing ++ [p.beat c w.id t (n = first)] }) s
    let others := (frameNos.filter fun g => g ≠ f).filterMap fun g =>
      let l := ps.filter fun n => n / 16 = g
      if l = [] then none else some ({ src := f, dst := g, ports := l, beat := p.beat c w.id t (l.contains first) } : SpineBeat)
    let s := { s with spine := s.spine ++ others }
    let s := if own.contains first then s.leave c w.id p.bytes.length else s
    some (s.modWork c w.id fun w => { w with outs := w.outs.drop 1, writesOut := w.writesOut + ps.length })

/-- The leading run of consecutive bytes of a piece. -/
def leadRun : List (Nat × Byte) → List (Nat × Byte)
  | [] => []
  | [x] => [x]
  | x :: y :: r => if y.1 = x.1 + 1 then x :: leadRun (y :: r) else [x]

/-- A remote write of the head piece's leading run (R249, R263, R292). -/
def State.sendRemote (s : State) (c : CtxNo) (w : Work) (p : OutPiece) (m : Msg) : Option State :=
  let run := leadRun p.bytes
  let rest := p.bytes.drop run.length
  let off := match run with | q :: _ => q.1 | [] => 0
  let m := { m with len := run.length, addr := m.addr + BitVec.ofNat 56 off, data := run.map (·.2) }
  let gen := if m.win then none else some s.xlate.gen
  if !s.remoteUp m.dst then some (s.endWork c w.id 0x0804 m.dst.toNat)
  else if w.doneRemote && (match w.remoteChip with | some d => d != m.dst | none => false) then
    some (s.endWork c w.id 0x0805 m.dst.toNat)
  else
    (s.remoteWrite c w.id m gen).map fun s =>
      (s.modWork c w.id fun w =>
        { w with left := w.left + run.length, remoteChip := some (w.remoteChip.getD m.dst), lidOwed := none,
                 outs := if rest = [] then w.outs.drop 1 else { p with bytes := rest } :: w.outs.drop 1 }).moved

/-- Starts a demand walk for a descriptor's side unless one is under way (R247). -/
def State.demandWalk (s : State) (f : Nat) (c : CtxNo) (id detail : Nat) (root : XRoot) (va : Nat) : Option State :=
  if s.walking fun y => y == .work c id detail then none else s.startWalk f root va (.work c id detail)

/-- What the head of a descriptor's bursts needs beside a tap (R247): a walk, a failure, or a hand-over to another chip
or a port. None when it is the tap's arbiter that goes on. -/
def State.handOut (s : State) (c : CtxNo) (w : Work) : Option State :=
  match w.outs with
  | [] => none
  | p :: _ =>
    let x := s.ctx c
    if p.space = 2 then s.sendPiece w.frame c w x.tenant p
    else
      let need := if w.red ≠ 0 && p.what == .data then Need.atomic else .write
      match s.route w.frame x w.kset p.space.toNat p.addr need with
      | .walk root va => s.demandWalk w.frame c w.id 1 root va
      | .fail kind lvl => some (s.failAccess c w.id 1 p.addr (if need == .atomic then 3 else 2) kind lvl 0)
      | .refused => some (s.endWork c w.id 0x0805 s.inp.chipId.toNat)
      | .remote m leaf => (s.used w.frame leaf).sendRemote c w p m
      | .tap _ _ _ =>
        if !w.doneRemote then none
        else match w.remoteChip with
        | none => some (s.endWork c w.id 0x0104 30)
        | some _ => some (s.endWork c w.id 0x0805 s.inp.chipId.toNat)

/-- The halves of a 256 B block that sectors name: the beats of a tap. -/
def halves (sect : BitVec 8) : BitVec 4 :=
  BitVec.ofNat 4 (b2n (sect.toNat % 16 ≠ 0) + 2 * b2n (sect.toNat / 16 ≠ 0))

/-- The 64 B beats of a 256 B block of a scratchpad that sectors name. -/
def quarters (sect : BitVec 8) : BitVec 4 :=
  BitVec.ofNat 4 (((List.range 4).map fun i => b2n (sect.toNat / 4 ^ i % 4 ≠ 0) * 2 ^ i).sum)

/-- The head read of a descriptor leaves its list, in flight into a slot. -/
def State.readIssued (s : State) (c : CtxNo) (w : Work) (n : Nat) (q : Slot) : State :=
  (s.claimSlot w.frame n (.chan c) q).modWork c w.id fun w =>
    Work.noteIssued { w with reads := w.reads.drop 1, readsOut := w.readsOut + 1 }

/-- The slot of a read as it stands when the read is issued (R210, R355). -/
def Slot.issue (q : Slot) (t : Tenant) (c : CtxNo) (id : Nat) (r : ReadReq) (phys : Nat) (want : BitVec 4) (gen : Option Nat)
    (pool : Bool) (win : Option Nat := none) : Slot :=
  { q.claim t c with holder := .work c id, what := r.what, space := r.space, core := r.core, addr := r.addr, phys := phys,
                     want := want, have_ := 0, gen := gen.getD 0, counted := gen.isSome, pool := pool, remote := none,
                     win := win }

/-- A remote read for the head of a descriptor's reads (R297). -/
def State.readRemote (s : State) (c : CtxNo) (w : Work) (r : ReadReq) (m : Msg) : Option State :=
  let x := s.ctx c
  if !s.remoteUp m.dst then some (s.endWork c w.id 0x0804 m.dst.toNat)
  else match s.freeReadTag m.dst, s.slotFor c w with
  | some t, some (n, pool) =>
    let l := (setBits 8 r.sect.toNat)
    let lo := 32 * l.getD 0 0
    let hi := 32 * (l.getLast?.getD 0 + 1)
    let m := { m with len := hi - lo, addr := m.addr + BitVec.ofNat 56 lo }
    let gen := if m.win then none else some s.xlate.gen
    let q := (s.slot w.frame n).issue (if m.tenant = 0 then x.tenant else m.tenant) c w.id r 0 1 gen pool
    some (((s.readIssued c w n { q with remote := some m.dst }).remoteRead c w.id w.frame n t m).moved)
  | _, _ => none

/-- The access kind of a descriptor's read (R381). -/
def Work.readKind (w : Work) (r : ReadReq) : Nat :=
  if r.what == .tag then 8 else match w.kind with | .feed _ => 9 | _ => 1

/-- What the head of a descriptor's reads needs beside a tap or a fetch lane. -/
def State.headRead (s : State) (c : CtxNo) (w : Work) : Option State :=
  match w.reads with
  | [] => none
  | r :: _ =>
    if r.space = 2 then none
    else
      match s.route w.frame (s.ctx c) w.kset r.space.toNat r.addr .read with
      | .walk root va => s.demandWalk w.frame c w.id 0 root va
      | .fail kind lvl => some (s.failAccess c w.id 0 r.addr (w.readKind r) kind lvl 0)
      | .refused => some (s.endWork c w.id 0x0805 s.inp.chipId.toNat)
      | .remote m leaf => (s.used w.frame leaf).readRemote c w r m
      | .tap _ _ _ => none

/-- When the next chunk lacks bytes and the descriptor holds all the slots it can ever have, gives back one slot that the
chunk does not need and queues its read again behind the others (DESIGN CHOICE, log entry 32). -/
def State.evict (s : State) (c : CtxNo) (w : Work) : Option State :=
  if !w.asked || w.outs ≠ [] || w.reads = [] || w.unitKind == .whole || !s.capped c w then none
  else
    let b := w.box
    let need := (s.chunk w (s.entryOf c w)).foldl (fun l p => match p.2 with
      | .move a _ _ _ => (b.srcBytes a).foldl (fun l x => addRead .data b.src.space b.src.core x l) l
      | _ => l) []
    if !(need.any fun r => w.reads.any fun q => q.is .data r.space.toNat r.core r.addr) then none
    else
      match (s.frame w.frame).slots.find? fun e => e.2.holder == .work c w.id && e.2.full && e.2.what == .data &&
          !(need.any fun r => r.is .data e.2.space.toNat e.2.core e.2.addr) with
      | none => none
      | some (n, q) =>
        let again := (s.unitReads w (s.entryOf c w) w.emitted).filter fun r => r.is .data q.space.toNat q.core q.addr
        some ((s.setSlotAt w.frame n q.release).modWork c w.id fun w => { w with reads := w.reads ++ again })

/-- The lids of a descriptor that has passed on its last write (R292): a checksum result and posts still to be sent come
first. -/
def State.closeGroups (s : State) (c : CtxNo) (w : Work) : Option State :=
  if decide (w.unit < w.units) || w.outs ≠ [] || w.wantsCsum || s.postsOut c w.id true then none else s.closeAll c w

/-! ## COPY, NOP and WAIT (R56) -/

/-- One step of a copy in progress, if it can make one. -/
def State.copyStep (s : State) (c : CtxNo) (w : Work) : Option State :=
  if w.kind != .copy || w.ending.isSome || w.stage != .moving then none
  else s.handOut c w <|> s.headRead c w <|> s.trim c w <|> s.emit c w <|> s.aheadTag c w <|> s.listAhead c w <|> s.endUnit c w <|>
    s.startUnit c w <|> s.evict c w <|> s.closeGroups c w

/-- Whether the descriptors of a context bound in frame `f` may go on: the context runs or drains and the frame is up. -/
def State.moving (s : State) (c : CtxNo) (f : Nat) : Bool :=
  ((s.ctx c).state == .running || (s.ctx c).state == .pausing) && s.frameUp f && !s.faults.halted

/-- COPY (R56, R96): the oldest copy of the channel's context that can go on makes its next step. -/
def execCopy (ch : Fin 1024) (s : State) : Host.Outcome State Fault Refusal :=
  .next (
    match (s.chan ch.val).ctx with
    | none => s
    | some c =>
      if !s.moving c (chanFrame ch.val) then s
      else match (s.ctx c).works.findSome? (s.copyStep c) with
      | some t => t
      | none => s)

/-- NOP (R56, R77): a NOP that has started moves nothing and is ready to complete. -/
def execNop (ch : Fin 1024) (s : State) : Host.Outcome State Fault Refusal :=
  .next (
    match (s.chan ch.val).ctx with
    | none => s
    | some c =>
      if !s.moving c (chanFrame ch.val) then s
      else s.modCtx c fun x =>
        { x with works := updateFirst (fun w => w.kind == .nop && !w.lastRead) (fun w => { w with lastRead := true }) x.works })

/-- The tally and value that a WAIT names (R336), as its acceptance translated them (R322, R328). -/
def Work.waitFor (w : Work) : TallyNo × Word := (w.waits, BitVec.ofNat 64 (leAt w.main 16 8))

/-- A shared wait entry is free (R335): 14,336 of them serve descheduled waits. -/
def State.waitEntryFree (s : State) : Bool :=
  decide ((s.ctxs.filter fun e => e.2.sharedWait).length < 14336)

/-- An unmet wait (R70, R335): the context waits bound, or is descheduled into a shared entry; when none is free it sleeps
bound and TS_WAIT_FULL sets. -/
def State.waitUnmet (s : State) (c : CtxNo) (t : TallyNo × Word) : State :=
  let s := s.toState c .waiting
  let s := s.modCtx c fun x => { x with waitTally := t.1, waitValue := t.2 }
  if !(s.ctx c).desched then s
  else if s.waitEntryFree then
    (s.unbind c).modCtx c fun x => { x with sharedWait := true, works := [] }
  else s.modTally fun u => { u with waitFull := true }

/-- WAIT (R70, R336): the started WAIT is judged: it is satisfied, or its context enters Waiting. -/
def execWait (ch : Fin 1024) (s : State) : Host.Outcome State Fault Refusal :=
  .next (
    match (s.chan ch.val).ctx with
    | none => s
    | some c =>
      let x := s.ctx c
      match x.works with
      | w :: _ =>
        if w.kind != .wait || w.lastRead || w.ending.isSome || x.state != .running || !s.moving c (chanFrame ch.val) then s
        else
          let t := w.waitFor
          if s.waitMet t.1.toNat t.2.toNat then s.modWork c w.id fun w => { w with lastRead := true }
          else s.waitUnmet c t
      | [] => s)

end Sys2Proof.Machine
end

