-- ==== Sys2Proof/Machine/Partner.lean ====
section
/-! DEFINITION. The fabric's messages as a receiving engine takes them (R282 to R298, R301), and the answers as the sender
takes them: admission, request credits, receiver checks, lid groups and remote reads. -/
namespace Sys2Proof.Machine

/-! ## Answers and credits (R282 to R285) -/

/-- Whether the engine gives fabric service (R282, R432, R435): from readiness on, and not while it quiesces. -/
def State.fabricReady (s : State) : Bool := s.fabric.ready && s.keeper.quiesce.isNone

/-- The hint that the engine answers with while it gives no service, in microseconds (R282). -/
def startHint : Nat := 1000

/-- An answer to a request: it names the request's tag and address (DEDUCED, log entry 34). -/
def State.answer (s : State) (m : Msg) (op : BitVec 5) (word : Nat) (data : Bytes := []) : State :=
  s.sendMsg { s.msg op m.src m.tag (BitVec.ofNat 64 word) data with addr := m.addr, len := data.length }

/-- Whether a partner is in service: it has been granted credits (R283). -/
def Partner.inService (p : Partner) : Bool :=
  match p.adm with
  | .ramping _ | .inService => true
  | .unknown | .queued => false

/-- Returns the request credits that a partner has coming (R285). -/
def State.returnCredits (s : State) (c : ChipNo) : State :=
  let n := (s.partner c).toReturn
  if n = 0 then s
  else (s.modPartner c fun p => { p with toReturn := 0 }).sendMsg (s.msg opCredit c 0 (BitVec.ofNat 64 n))

/-- A request credit of partner `c` is freed; 64 go back together (R285). -/
def State.freeCredit (s : State) (c : ChipNo) : State :=
  let s := s.modPartner c fun p => { p with toReturn := p.toReturn + 1 }
  if 64 ≤ (s.partner c).toReturn then s.returnCredits c else s

/-- CREDIT_RETURN_TIMER (R285): the credits not yet returned go back. -/
def execCreditReturnTimer (chip : ChipNo) (s : State) : Host.Outcome State Fault Refusal := .next (s.returnCredits chip)

/-- The first request of an unknown partner queues it (R282). -/
def State.queuePartner (s : State) (c : ChipNo) : State :=
  if (s.partner c).adm == .unknown then
    (s.modPartner c fun p => { p with adm := .queued }).modFabric fun f => { f with admitQ := f.admitQ ++ [c] }
  else s

/-- A grant to partner `c`: its request credits rise to `n` (R283). -/
def State.grant (s : State) (c : ChipNo) (n : Nat) (adm : Admission) : State :=
  let more := n - (s.partner c).granted
  (s.modPartner c fun p => { p with adm := adm, granted := n }).sendMsg (s.msg opCredit c 0 (BitVec.ofNat 64 more))

/-- PARTNER_ADMIT (R283): the partner at the head of the queue is granted 128 request credits. -/
def execPartnerAdmit (s : State) : Host.Outcome State Fault Refusal :=
  .next (
    match s.fabric.admitQ with
    | [] => s
    | c :: rest =>
      if !s.fabricReady || s.faults.halted then s
      else (s.modFabric fun f => { f with admitQ := rest }).grant c 128 (.ramping 0))

/-- PARTNER_RAMP (R283): the grant rises to 256, 512, 768 and 1,024 credits. -/
def execPartnerRamp (chip : ChipNo) (s : State) : Host.Outcome State Fault Refusal :=
  .next (
    if !s.fabricReady || s.faults.halted then s
    else match (s.partner chip).adm with
    | .ramping 0 => s.grant chip 256 (.ramping 1)
    | .ramping 1 => s.grant chip 512 (.ramping 2)
    | .ramping 2 => s.grant chip 768 (.ramping 3)
    | .ramping _ => s.grant chip 1024 .inService
    | _ => s)

/-! ## Lid groups at the receiver (R293, R294, R296) -/

/-- Lid group `g` of sender `c`. -/
def State.rxGroup (s : State) (c : ChipNo) (g : Nat) : RxGroup := s.fabric.rxGroups.get {} (c.toNat * 64 + g)

/-- Lid group `g` of sender `c` replaced. -/
def State.setRxGroup (s : State) (c : ChipNo) (g : Nat) (x : RxGroup) : State :=
  s.modFabric fun f => { f with rxGroups := f.rxGroups.set {} (c.toNat * 64 + g) x }

/-- The frame that serves a partner (R12). -/
def servingFrame (c : ChipNo) : Nat := c.toNat % 16

/-- The group that a request's tag names. -/
def Msg.group (m : Msg) : Nat := m.tag.toNat % 64

/-- The fields of a lid word (R264): count, tally, whether it is applied, increment. -/
def lidCount (w : Word) : Nat := bits w.toNat 31 0
/-- LID_TALLY. -/
def lidTally (w : Word) : Nat := bits w.toNat 45 32
/-- LID_TALLY_EN. -/
def lidEn (w : Word) : Bool := w.getLsbD 46
/-- LID_INC. -/
def lidInc (w : Word) : Nat := bits w.toNat 62 47

/-- Gives back the slot that holds a partner request's data. -/
def State.dropFabSlot (s : State) (r : FabReq) : State :=
  match r.slot with
  | some n => let f := servingFrame r.msg.src; s.setSlotAt f n (s.slot f n).release
  | none => s

/-- LID_COUNT_REACHED (R293): the count equals LID_COUNT, so the lid's data write goes to the fabric requester; a lid of
length 0 writes nothing. -/
def State.lidCheck (s : State) (c : ChipNo) (g : Nat) : State :=
  let x := s.rxGroup c g
  match x.lid with
  | none => s
  | some r =>
    if x.lidIssued || x.refused || x.landed ≠ lidCount r.msg.word then s
    else if r.msg.len = 0 then (s.dropFabSlot r).setRxGroup c g { x with lidIssued := true }
    else
      let f := servingFrame c
      (s.modFrame f fun y => { y with fab := y.fab ++ [r] }).setRxGroup c g
        { x with lidIssued := true, inFlight := x.inFlight + 1 }

/-- A group is given up by its receiver: a lid held for it is discarded (R294). -/
def State.dropLid (s : State) (c : ChipNo) (g : Nat) : State :=
  let x := s.rxGroup c g
  match x.lid with
  | none => s
  | some r =>
    let s := if x.lidIssued then s else s.dropFabSlot r
    s.setRxGroup c g { x with lid := none, lidIssued := false }

/-- A write of a group has been acknowledged (R293). -/
def State.groupWriteDone (s : State) (c : ChipNo) (g : Nat) : State :=
  let x := s.rxGroup c g
  if !x.live then s
  else if x.refused || x.lidIssued then s.setRxGroup c g { x with inFlight := x.inFlight - 1 }
  else (s.setRxGroup c g { x with inFlight := x.inFlight - 1, landed := x.landed + 1 }).lidCheck c g

/-- LID_DATA_LANDED (R293): the lid's data has landed, so its increment is applied, after that LANDED is sent, and the
group's counter is free. While the tally unit is off, the increment powers it and waits (R323). -/
def execLidDataLanded (chip : ChipNo) (group : BitVec 6) (s : State) : Host.Outcome State Fault Refusal :=
  .next (
    let g := group.toNat
    let x := s.rxGroup chip g
    match x.lid with
    | none => s
    | some r =>
      if !x.lidIssued || x.inFlight ≠ 0 || s.faults.halted then s
      else if lidEn r.msg.word && !s.tallyRuns then s.holdTally
      else
        let w := r.msg.word
        let s := s.setRxGroup chip g {}
        let s := if lidEn w then
            s.increment (lidTally w) (lidInc w) { mkind := 3, mid := chip.toNat, tenant := r.msg.tenant } else s
        s.answer r.msg opLanded 0)

/-- GROUP_IDLE_TIMEOUT (R296): a counter that has seen no message for 1 ms is free. -/
def execGroupIdleTimeout (chip : ChipNo) (group : BitVec 6) (s : State) : Host.Outcome State Fault Refusal :=
  .next (
    let g := group.toNat
    if (s.rxGroup chip g).live then (s.dropLid chip g).setRxGroup chip g {} else s)

/-! ## Receiver checks (R289) -/

/-- What becomes of a request (R282, R289). -/
inductive Verdict where
  | notReady
  | queue
  | refuse (reason : Nat)
  | walk (root : XRoot) (va : Nat)
  | wait
  | go (phys : Nat) (win : Option Nat)
deriving DecidableEq, Repr

/-- The window that a request names (R286). -/
def Msg.window (m : Msg) : Nat := bits m.addr.toNat 50 43

/-- Whether the sender may use the window it names (R288, check 3). -/
def State.windowOpen (s : State) (m : Msg) : Bool :=
  let x := s.xlate.wins.get {} m.window
  m.tenant = 0 && x.isSet && !x.clearing && x.mask.getLsbD m.src.toNat

/-- Whether a lid's tally is valid for its tenant (R326). -/
def State.lidTallyOk (s : State) (m : Msg) : Bool :=
  m.op != opLid || !lidEn m.word || m.win || s.tallyOwner (lidTally m.word) == m.tenant

/-- Checks 7 to 9, and whether the serving frame can take the request now (R12, R370): it runs and holds no test. -/
def State.lateChecks (s : State) (m : Msg) (phys : Nat) (win : Option Nat) : Verdict :=
  let f := s.frame (servingFrame m.src)
  if f.stopped || f.draining then .refuse 6
  else if !s.lidTallyOk m then .refuse 7
  else if m.op != opRead && (s.rxGroup m.src m.group).refused then .refuse 8
  else if f.state != .run || f.testHold then .wait
  else .go phys win

/-- The receiver checks in their order (R289); the halted state refuses with reason 6 (R378). A stopped frame cannot walk a
window's tables (R232, R287), so check 7 answers where checks 5 and 6 would need it to (DEDUCED, log entry 130). -/
def State.verdict (s : State) (m : Msg) : Verdict :=
  let f := servingFrame m.src
  if s.faults.halted then .refuse 6
  else if !s.fabricReady then .notReady
  else if !(s.partner m.src).inService then .queue
  else if !m.win then
    if m.tenant = 0 || !s.tenantOpen m.tenant then .refuse 1
    else if !s.inStackMap m.addr.toNat m.len then .refuse 2
    else s.lateChecks m m.addr.toNat none
  else if !s.windowOpen m then .refuse 3
  else
    let root := XRoot.window (BitVec.ofNat 8 m.window)
    let off := bits m.addr.toNat 42 0
    match s.lookup f root off with
    | some l =>
      if (if m.op == opRead then l.r else l.w) then s.lateChecks m (l.phys off) (some m.window) else .refuse 5
    | none =>
      if (s.rootTable root).isNone then .refuse 4
      else if (s.frame f).stopped || (s.frame f).draining then .refuse 6
      else if (s.frame f).state != .run || (s.frame f).testHold then .wait
      else .walk root off

/-- A refused request (R289, R294): the event of reasons 1 to 5, the alarm of reasons 1 and 3, the refusal of its whole
group, and the answer. Its request credit is free again, unless it was freed when its data left the link's buffer (DEDUCED, log
entry 35). -/
def State.refuseReq (s : State) (m : Msg) (reason : Nat) (freed : Bool := false) : State :=
  let ev := evInfo 0x09 m.tenant ([BitVec.ofNat 8 reason] ++ leBytes 1 m.src.toNat ++ leBytes 2 m.op.toNat ++
    leBytes 8 m.addr.toNat ++ zeros 4)
  let s := if 1 ≤ reason && reason ≤ 5 then s.event ev else s
  let s := if reason = 1 || reason = 3 then s.tenantAlarm 4 3 m.src.toNat m.tenant 0 m.addr.toNat else s
  let s := if m.op == opRead then s
           else (s.dropLid m.src m.group).setRxGroup m.src m.group { (s.rxGroup m.src m.group) with
             live := true, refused := true, lid := none, lidIssued := false }
  let s := s.answer m opRefuse reason
  if freed then s else s.freeCredit m.src

/-! ## WRITE, LID and READ (R290, R293, R297) -/

/-- The slot of the serving frame that a partner's data takes (R206, R293), claimed for its tenant. -/
def State.takeFabSlot (s : State) (m : Msg) : Option (Nat × State) :=
  let f := servingFrame m.src
  (s.takeSlot f .fabric false).map fun p =>
    let (k, s) := s.takeFlips f
    (p.1, s.claimSlot f p.1 .fabric { (s.slot f p.1).claim m.tenant 0 with
      holder := .fabric m.src m.tag, pool := p.2, flips := k,
      data := (m.data.zip (List.range m.data.length)).map fun q => (q.2, q.1) })

/-- An accepted request enters its frame (R12, R285, R290): a READ waits for the fabric requester; the data of a WRITE or
LID moves into a slot, which frees the credit. None while no slot is free. -/
def State.acceptReq (s : State) (m : Msg) (phys : Nat) (win : Option Nat) : Option State :=
  let f := servingFrame m.src
  if m.op == opRead then
    some (s.modFrame f fun x => { x with fab := x.fab ++ [{ msg := m, phys := phys, tenant := m.tenant, win := win, slot := none }] })
  else
    (s.takeFabSlot m).map fun p =>
      let r : FabReq := { msg := m, phys := phys, tenant := m.tenant, win := win, slot := some p.1 }
      let s := p.2.freeCredit m.src
      let x := s.rxGroup m.src m.group
      if m.op == opLid then (s.setRxGroup m.src m.group { x with live := true, lid := some r }).lidCheck m.src m.group
      else (s.modFrame f fun y => { y with fab := y.fab ++ [r] }).setRxGroup m.src m.group
        { x with live := true, inFlight := x.inFlight + 1 }

/-- The leaf of a window that a request is judged by is used, and a second-level hit enters the serving frame's buffer
(R243). -/
def State.touchWindow (s : State) (m : Msg) : State :=
  let f := servingFrame m.src
  if !m.win || !s.windowOpen m then s
  else match s.lookup f (.window (BitVec.ofNat 8 m.window)) (bits m.addr.toNat 42 0) with
  | some l => s.touch f l
  | none => s

/-- What a request does now, and whether it has left the link's buffer; none while it must wait. -/
def State.serve (s : State) (m : Msg) : Option (State × Bool) :=
  match s.verdict m with
  | .notReady => some (s.answer m opNotReady startHint, true)
  | .queue =>
    let s := s.queuePartner m.src
    some (s.answer m opNotReady (250 * (s.fabric.admitQ.idxOf m.src + 1)), true)
  | .refuse r => some ((s.touchWindow m).refuseReq m r, true)
  | .wait => none
  | .walk root va =>
    if s.walking (· == .fabric m) then none
    else (s.startWalk (servingFrame m.src) root va (.fabric m)).map fun t => (t, false)
  | .go phys win => ((s.touchWindow m).acceptReq m phys win).map fun t => (t, true)

/-- The first message of the wanted operation that link `l` has released and that `f` can act on, acted on; it leaves the
buffer when `f` says so, and the flits it alone lay in with it (R274). -/
def State.takeMsg (s : State) (l : Nat) (op : BitVec 5) (f : Msg → Option (State × Bool)) : State :=
  match (s.link l).rxq.findSome? fun e => if e.2.op == op then (f e.2).map fun r => (e, r) else none with
  | none => s
  | some (e, (t, true)) => (t.modLink l fun x => { x with rxq := x.rxq.erase e }).bufSettle l
  | some (_, (t, false)) => t

/-- WRITE (R290, R293): a released WRITE is checked and enters its serving frame, or is answered. -/
def execWrite (l : Fin 18) (s : State) : Host.Outcome State Fault Refusal := .next (s.takeMsg l.val opWrite s.serve)

/-- LID (R293): a released LID is checked and held for its group. -/
def execLid (l : Fin 18) (s : State) : Host.Outcome State Fault Refusal := .next (s.takeMsg l.val opLid s.serve)

/-- READ (R297): a released READ is checked and waits for the fabric requester of its serving frame. -/
def execRead (l : Fin 18) (s : State) : Host.Outcome State Fault Refusal := .next (s.takeMsg l.val opRead s.serve)

/-- ABANDON (R294): the group's counter is free and a lid it holds is discarded; its later messages are refused (R289,
check 9) until the counter's time has passed (R296). -/
def State.abandoned (s : State) (m : Msg) : State :=
  if !(s.rxGroup m.src m.group).live then s
  else
    let s := s.dropLid m.src m.group
    let x := s.rxGroup m.src m.group
    let f := servingFrame m.src
    let mine (r : FabReq) : Bool := r.msg.op == opLid && r.msg.src == m.src && decide (r.msg.group = m.group)
    let s := ((s.frame f).fab.filter mine).foldl State.dropFabSlot s
    (s.modFrame f fun y => { y with fab := y.fab.filter fun r => !mine r }).setRxGroup m.src m.group
      { x with refused := true, landed := 0 }

/-- ABANDON (R294). -/
def execAbandon (l : Fin 18) (s : State) : Host.Outcome State Fault Refusal :=
  .next (s.takeMsg l.val opAbandon fun m => some (s.abandoned m, true))

/-- RECEIVER_REQUEST_DROP (R301): a request of the partner that has not been issued to a tap is dropped: the oldest in the
serving frame, else the oldest in a link's buffer, else a held lid. -/
def execReceiverRequestDrop (chip : ChipNo) (s : State) : Host.Outcome State Fault Refusal :=
  .next (
    let f := servingFrame chip
    match (s.frame f).fab.find? fun r => r.msg.src == chip with
    | some r =>
      let s := (s.dropFabSlot r).modFrame f fun y => { y with fab := y.fab.erase r }
      if r.msg.op == opRead then s.freeCredit chip
      else
        let x := s.rxGroup chip r.msg.group
        s.setRxGroup chip r.msg.group
          { x with inFlight := x.inFlight - 1, lid := if r.msg.op == opLid then none else x.lid,
                   lidIssued := x.lidIssued && r.msg.op != opLid }
    | none =>
      let isReq (e : Nat × Msg) : Bool := e.2.src == chip && msgClass e.2.op = 1
      match linkNos.find? fun l => (s.link l).rxq.any isReq with
      | some l => ((s.modLink l fun x => { x with rxq := removeFirst isReq x.rxq }).bufSettle l).freeCredit chip
      | none =>
        match (List.range 64).find? fun g => (s.rxGroup chip g).lid.isSome && !(s.rxGroup chip g).lidIssued with
        | some g => s.dropLid chip g
        | none => s)

/-! ## Answers at the sender (R284, R289, R293, R297, R298) -/

/-- The message that an answer names: a remote read's, or one of a group's (DEDUCED, log entry 34). -/
def State.readNamed (s : State) (m : Msg) : Bool :=
  let t := s.txRead m.src m.tag.toNat
  t.used && (match t.msg with | some q => q.addr == m.addr | none => false)

/-- The message of a group that an answer names. -/
def State.groupMsg (s : State) (m : Msg) : Option Msg :=
  if 64 ≤ m.tag.toNat then none else (s.txGroup m.src m.tag.toNat).msgs.find? fun q => q.addr == m.addr

/-- A descriptor's remote work toward a chip fails (R298): the descriptor ends, its groups are abandoned. -/
def State.failRemote (s : State) (c : CtxNo) (id status : Nat) (chip : ChipNo) : State := s.endWork c id status chip.toNat

/-- A group toward a chip fails with a status (R298), with `detail` as D_DETAIL: ABANDON is sent even when its descriptor has
completed. -/
def State.failGroup (s : State) (chip : ChipNo) (g status : Nat) (detail : ChipNo := chip) : State :=
  let x := s.txGroup chip g
  if !x.used then s
  else
    let s := s.failRemote x.ctx x.work status detail
    if (s.txGroup chip g).used then s.abandonGroup chip g else s

/-- A remote read fails with a status (R298): its tag is free and its slot is given back, also when its descriptor has ended
before. -/
def State.failRead (s : State) (chip : ChipNo) (t status : Nat) (detail : ChipNo := chip) : State :=
  let x := s.txRead chip t
  if !x.used then s
  else
    let s := (s.failRemote x.ctx x.work status detail).setTxRead chip t {}
    s.setSlotAt x.frame x.slot (s.slot x.frame x.slot).release

/-- READ_DATA (R297): the bytes fill the slot of the read's tag; data that comes after the read's outcome is discarded, also
when its tag has been taken again for another address (R298). -/
def State.takeReadData (s : State) (m : Msg) : State :=
  let x := s.txRead m.src m.tag.toNat
  match x.used, x.msg with
  | true, some q =>
    if q.addr != m.addr then s
    else
    let s := s.setTxRead m.src m.tag.toNat {}
    let s := s.fillSlot x.frame x.slot (q.addr.toNat % 256) (s.slot x.frame x.slot).want (slice m.data 0 q.len)
    s.workSlotDone x.frame x.slot x.ctx x.work
  | _, _ => s

/-- READ_DATA (R297). -/
def execReadData (l : Fin 18) (s : State) : Host.Outcome State Fault Refusal :=
  .next (s.takeMsg l.val opReadData fun m => some (s.takeReadData m, true))

/-- LANDED (R293): the group has landed, and its number is free. -/
def State.takeLanded (s : State) (m : Msg) : State :=
  let x := s.txGroup m.src m.group
  if !(x.used && x.closed && x.lidSent) then s
  else
    let s := s.setTxGroup m.src m.group {}
    x.posts.foldl (fun t p => t.modCtx x.ctx fun y =>
      { y with posts := updateFirst (fun q => q.id = p) (fun q => { q with landed := true }) y.posts }) s

/-- LANDED (R293). -/
def execLanded (l : Fin 18) (s : State) : Host.Outcome State Fault Refusal :=
  .next (s.takeMsg l.val opLanded fun m => some (s.takeLanded m, true))

/-- The request that a transit engine's refusal answers (R281): a read or a group toward another chip with the refusal's tag
and address; a refusal of reason 9 does not name the destination (DEDUCED, log entry 85). -/
def State.transitNamed (s : State) (m : Msg) : Option ChipNo :=
  chipNos.find? fun c =>
    let q := { m with src := c }
    c != m.src && (s.readNamed q || (s.groupMsg q).isSome)

/-- A refusal of a request toward chip `c` (R289): the descriptor that sent it fails with REMOTE_REFUSED, with the refusing
chip `by_` as its detail. -/
def State.takeRefusal (s : State) (m : Msg) (c by_ : ChipNo) : State :=
  let q := { m with src := c }
  if s.readNamed q && (s.groupMsg q).isNone then s.failRead c m.tag.toNat 0x0805 by_
  else if m.tag.toNat < 64 && (s.txGroup c m.tag.toNat).used then s.failGroup c m.tag.toNat 0x0805 by_
  else s.failRead c m.tag.toNat 0x0805 by_

/-- REFUSE (R281, R289): the request that it answers is one toward its sender, or one that its sender could not forward. -/
def State.takeRefuse (s : State) (m : Msg) : State :=
  let transit := bits m.word.toNat 7 0 = 9
  if !transit && (s.readNamed m || (s.groupMsg m).isSome) then s.takeRefusal m m.src m.src
  else match s.transitNamed m with
  | some c => s.takeRefusal m c m.src
  | none => if transit then s else s.takeRefusal m m.src m.src

/-- REFUSE (R289). -/
def execRefuse (l : Fin 18) (s : State) : Host.Outcome State Fault Refusal :=
  .next (s.takeMsg l.val opRefuse fun m => some (s.takeRefuse m, true))

/-- NOT_READY (R284): the sender backs off, the wait doubles, and the request is sent again after it. A request that was
sent with credit shows that the partner has forgotten its admission, so the credits it granted are void. -/
def State.takeNotReady (s : State) (m : Msg) : State :=
  let again := if s.readNamed m then (s.txRead m.src m.tag.toNat).msg else s.groupMsg m
  s.modPartner m.src fun p =>
    { p with backing := true, wait := min 1000 (2 * p.wait), probing := false, served := false, credits := 0,
             ctlAgain := p.ctlAgain || again.isNone,
             out := match again with | some q => q :: p.out | none => p.out }

/-- NOT_READY (R284). -/
def execNotReady (l : Fin 18) (s : State) : Host.Outcome State Fault Refusal :=
  .next (s.takeMsg l.val opNotReady fun m => some (s.takeNotReady m, true))

/-- The control messages that a partner answered with NOT_READY go again: barrier messages and relayed verbs. -/
def State.sendCtlAgain (s : State) (c : ChipNo) : State :=
  if !(s.partner c).ctlAgain then s
  else
    let s := (s.modPartner c fun p => { p with ctlAgain := false }).barrierResend c
    (s.keeper.verbs.filter fun v => v.stage == .relayed && reqTarget v.req == c).foldl
      (fun t v => t.sendMsg (t.msg opKeeper c 0 0 (relayBlock v.req))) s

/-- NOT_READY_BACKOFF_END (R284): the wait has ended, and the requests go again. -/
def execNotReadyBackoffEnd (chip : ChipNo) (s : State) : Host.Outcome State Fault Refusal :=
  .next (
    if !(s.partner chip).backing then s
    else ((s.modPartner chip fun p => { p with backing := false }).sendCtlAgain chip).pump chip)

/-- CREDIT (R283, R284, R285): the partner has admitted us, or returns request credits. -/
def State.takeCredit (s : State) (m : Msg) : State :=
  (s.modPartner m.src fun p =>
    { p with served := true, credits := p.credits + bits m.word.toNat 15 0, wait := 1, backing := false, probing := false }).pump
      m.src

/-- CREDIT (R285). -/
def execCredit (l : Fin 18) (s : State) : Host.Outcome State Fault Refusal :=
  .next (s.takeMsg l.val opCredit fun m => some (s.takeCredit m, true))

/-- REMOTE_TIMEOUT (R298): a group whose lid has left, a read that has left, or requests that a partner keeps answering with
NOT_READY end with REMOTE_TIMEOUT. -/
def execRemoteTimeout (chip : ChipNo) (kind : RemoteKind) (tag : BitVec 10) (s : State) : Host.Outcome State Fault Refusal :=
  .next (
    match kind with
    | .group => if tag.toNat < 64 && (s.txGroup chip tag.toNat).lidSent then s.failGroup chip tag.toNat 0x0806 else s
    | .read =>
      let waits := (s.partner chip).out.any fun m => m.op == opRead && decide (m.tag.toNat = tag.toNat)
      if (s.txRead chip tag.toNat).used && !waits then s.failRead chip tag.toNat 0x0806 else s
    | .notReady =>
      if !(s.partner chip).backing then s
      else
        let s := (List.range 64).foldl (fun t g => t.failGroup chip g 0x0806) s
        (List.range 1024).foldl (fun t r => t.failRead chip r 0x0806) s)

/-- GROUP_NUMBER_REUSE (R296): a group number that ended by timeout or abandonment is free again. -/
def execGroupNumberReuse (chip : ChipNo) (group : BitVec 6) (s : State) : Host.Outcome State Fault Refusal :=
  .next (if (s.txGroup chip group.toNat).cooling then s.setTxGroup chip group.toNat {} else s)

/-! ## TALLY and KEEPER messages (R37, R38, R344) -/

/-- The barrier record (type 0x0B) and source 45 (R344). -/
def State.barrierFault (s : State) (m : Msg) (b kind episode : Nat) : State :=
  s.raiseWith { src := 45, mkind := 3, mid := m.src.toNat, tenant := m.tenant, sub := b, addr := episode % 2 ^ 56 }
    (some { type := 0x0B, sev := 0, src := 0, tenant := m.tenant,
            body := leBytes 1 b ++ leBytes 1 m.src.toNat ++ leBytes 1 kind ++ zeros 5 ++ leBytes 8 episode })

/-- The last episode of barrier `x` taken from the sender of a TALLY message of `kind` (R344). -/
def Barrier.lastFrom (x : Barrier) (kind : Nat) (c : ChipNo) : Nat :=
  if kind = 1 then x.childRep.get 0 c.toNat else if kind = 2 && !x.root && x.parent == c then x.released.toNat else 0

/-- A TALLY message (R344): an arrive or a release is taken, discarded as a repeat, or discarded with the barrier fault. -/
def State.takeTally (s : State) (m : Msg) : State :=
  let kind := leAt m.data 0 1
  let b := leAt m.data 1 1
  let ep := leAt m.data 8 8
  let x := s.barrier b
  let up := kind = 1 && x.children.contains m.src.toNat
  let down := kind = 2 && !x.root && x.parent == m.src
  let last := x.lastFrom kind m.src
  if s.faults.halted then s
  else if b < 64 && ep ≠ 0 && ep = last then s
  else if b < 64 && x.enabled && m.tenant == x.tenant && (up || down) && (slice m.data 2 6 == zeros 6) && ep = last + 1 then
    (if up then s.setBarrier b { x with childRep := x.childRep.set 0 m.src.toNat ep } else s.releaseEpisode b ep).settle
  else s.barrierFault m b kind ep

/-- TALLY_MESSAGE (R282, R344). -/
def execTallyMessage (l : Fin 18) (s : State) : Host.Outcome State Fault Refusal :=
  .next (s.takeMsg l.val opTally fun m =>
    if !s.fabricReady && !s.faults.halted then some (s.answer m opNotReady startHint, true)
    else if s.tallyOn && !s.clockOn 16 then some (s.clockUp 16, false)
    else some (s.takeTally m, true))

/-- The response to a relayed verb comes back (R24, R36, R38): EXEC_CHIP names the target and ELAPSED_US is this keeper's;
the next relay to that chip goes. A response that no relay waits for is discarded. -/
def State.takeResponse (s : State) (m : Msg) : State :=
  match s.keeper.verbs.find? fun v => v.stage == .relayed && reqTarget v.req == m.src && slice v.req 4 4 == slice m.data 4 4 with
  | none => s
  | some v =>
    let us := satNat 32 ((s.ptime - v.accepted).toNat / 25)
    let resp := patch (slice m.data 0 128) 12 (leBytes 4 us)
    (s.finishWith v (leAt m.data 0 2) (leAt m.data 2 2) resp).relayNext m.src

/-- A relayed request (R37, R38, R39): a remembered SEQ returns its response; RELAY_REFUSED without permission or with RELAY
set; otherwise it is a verb in progress. It waits while the keeper accepts none (R30, R33, R35) or while the sender's last one
runs. A RELAY_REFUSED response is remembered like any other, so a repeat is refused even after relay.allow (DESIGN CHOICE, log
entry 123). -/
def State.takeRelayed (s : State) (m : Msg) : Option (State × Bool) :=
  let o := Origin.relay m.src
  let r := slice m.data 0 128
  match s.keeper.relayMemo.find? fun e => e.chip == m.src && e.seq == reqSeq r with
  | some e => some (s.sendMsg (s.msg opKeeper m.src 1 0 (slice e.resp 0 128)), true)
  | none =>
    if !s.keeperReady || s.keeper.activating || (s.verb o).isSome then none
    else if !s.keeper.relayAllow.getLsbD m.src.toNat || reqRelay r then
      let v : VerbProg := { origin := o, req := r, accepted := s.ptime, stage := .run, got := [], readFail := false,
                            asked := [], acc := 0 }
      some (s.finish v kRelayRefused 0 [], true)
    else some (s.accept o r, true)

/-- KEEPER (R37, R38, R282): a relayed request, or the response of a relay. -/
def execKeeper (l : Fin 18) (s : State) : Host.Outcome State Fault Refusal :=
  .next (s.takeMsg l.val opKeeper fun m =>
    if m.tag = 1 then some (s.takeResponse m, true)
    else if !s.fabricReady && !s.faults.halted then some (s.answer m opNotReady startHint, true)
    else s.takeRelayed m)

end Sys2Proof.Machine
end

