-- ==== Sys2Proof/Machine/Taps.lean ====
section
/-! DEFINITION. The taps of a frame: the requesters and their bursts (R213, R214, R221, R226), the arbiter (R222 to R224),
the returns of reads and writes (R210, R211, R241, R242, R446), bus errors and the stop of a frame (R232 to R234), and the
forager (R245, R246). -/
namespace Sys2Proof.Machine

/-! ## Presenting a burst (R214, R443, R444) -/

/-- The tap of a burst of frame `f`: bits [9:8] of its address choose it (R214). -/
def tapOf (f phys : Nat) : Nat := 4 * f + bits phys 9 8

/-- The address of a read's first beat. -/
def firstBeat (phys : Nat) (want : BitVec 4) : Nat := alignDown 256 phys + (if want = 2 then 128 else 0)

/-- The first beat of a write burst: the second half of its block when only that is written. -/
def WEntry.first (e : WEntry) : Nat :=
  alignDown 256 e.addr + (if e.bytes.all fun b => decide (128 ≤ b.1) then 128 else 0)

/-- Beats of a burst. -/
def WEntry.beats (e : WEntry) : Nat :=
  b2n (e.bytes.any fun b => decide (b.1 < 128)) + b2n (e.bytes.any fun b => decide (128 ≤ b.1))

/-- A granted burst counts in the requester's statistics, with the data clocks it has waited on the tap (R224), and in the frame's
telemetry (R406). -/
def Frame.granted (x : Frame) (r i : Nat) : Frame :=
  let a := x.stats.get {} r
  let n := x.waits.get 0 (4 * r + i)
  { x with bursts := satAdd x.bursts 1, waits := x.waits.set 0 (4 * r + i) 0,
           stats := x.stats.set {} r
             { a with grants := satAdd a.grants 1, grantSat := a.grantSat || a.grants = 0xFFFFFFFF,
                      longest := BitVec.ofNat 32 (satNat 32 (max a.longest.toNat n)),
                      longSat := a.longSat || decide (0xFFFFFFFF < n) } }

/-- A burst is presented on a tap with one credit of its lane (R444). A channel's burst is a movement (R347). -/
def State.present (s : State) (t r : Nat) (o : TapOut) : State :=
  let x := s.tap t
  let s := s.setTap t { x with out := some o, rdCr := if o.write then x.rdCr else x.rdCr - 1,
                               wrCr := if o.write then x.wrCr - 1 else x.wrCr }
  (s.modFrame (t / 4) fun f => f.granted r (t % 4)).movedIf (decide (r < 64))

/-- What a tap presents for a read slot. -/
def readOut (n : Nat) (q : Slot) (shc : Bool) (sect : BitVec 8) : TapOut :=
  { write := false, shc := shc, addr := firstBeat q.phys q.want, sect := sect, slot := n, tenant := q.recTenant, red := 0,
    fmt := 0, esz := 0, bytes := [] }

/-- What a tap presents for a write entry. -/
def writeOut (n : Nat) (e : WEntry) : TapOut :=
  { write := true, shc := e.space = 1, addr := e.first, sect := 0, slot := n, tenant := e.tenant, red := e.red, fmt := e.fmt,
    esz := e.esz, bytes := e.bytes }

/-- The tenant that a channel's access carries (R350). -/
def State.reqTenant (s : State) (x : Ctx) (w : Work) (space : Nat) : Tenant :=
  match w.kind with
  | .feed _ => (s.kset w.kset).tenant
  | _ =>
    if space = 0 then (match s.xroot x w.kset with | some (.tenant t) => t | _ => x.tenant)
    else if space = 3 then 0 else x.tenant

/-! ## Channels (R221, R226) -/

/-- Whether the rate limiter of a channel allows a burst of `n` beats (R226). -/
def State.rateOk (s : State) (c : CtxNo) (ch n : Nat) (wr : Bool) : Bool :=
  (s.ctx c).rateShare = 256 || decide (128 * n ≤ if wr then (s.chan ch).allowWr else (s.chan ch).allowRd)

/-- The burst is taken from the channel's allowance (R226). -/
def State.rateTake (s : State) (c : CtxNo) (ch n : Nat) (wr : Bool) : State :=
  if (s.ctx c).rateShare = 256 then s
  else
    let x := s.chan ch
    s.setChan ch (if wr then { x with allowWr := x.allowWr - 128 * n } else { x with allowRd := x.allowRd - 128 * n })

/-- `k` data clocks of a channel's rate limiter (R226). -/
def State.rateGrow (s : State) (k ch : Nat) : State :=
  let x := s.chan ch
  match x.ctx with
  | none => s
  | some c =>
    let n := 2 * k * (s.ctx c).rateShare.toNat
    s.setChan ch { x with allowRd := min 512 (x.allowRd + n), allowWr := min 512 (x.allowWr + n) }

/-- The entry of a descriptor's write burst (R211, R254, R443). -/
def State.chanEntry (s : State) (c : CtxNo) (w : Work) (p : OutPiece) (phys : Nat) (shc : Bool)
    (leaf : Option Leaf) : WEntry :=
  let x := s.ctx c
  let red := if p.what == .data then w.red else 0
  let xf := parseXf w.main
  { holder := .work c w.id, what := p.what, space := if shc then 1 else 4, addr := phys, bytes := p.bytes,
    tenant := s.reqTenant x w p.space.toNat, red := BitVec.ofNat 3 red,
    fmt := if red = 0 then 0 else BitVec.ofNat 4 xf.dfmt, esz := if red = 0 then 0 else BitVec.ofNat 2 w.box.delem,
    gen := s.xlate.gen, counted := p.space = 0, idx := w.idx, win := Leaf.win leaf }

/-- The next write burst of a channel, if it is ready on tap `t` (R221), issued. -/
def State.chanWrite (s : State) (t ch : Nat) (c : CtxNo) : Option State :=
  let f := t / 4
  match (s.ctx c).works.find? fun w => w.frame = f && w.outs != [] with
  | none => none
  | some w =>
    match w.outs with
    | [] => none
    | p :: rest =>
      if p.space = 2 then none
      else
        let need := if w.red ≠ 0 && p.what == .data then Need.atomic else .write
        match s.route f (s.ctx c) w.kset p.space.toNat p.addr need with
        | .tap phys shc leaf =>
          if w.doneRemote then none
          else
          match s.takeEntry f (.chan c) with
          | none => none
          | some n =>
            let e := s.chanEntry c w p phys shc leaf
            if tapOf f phys ≠ t || (s.tap t).wrCr = 0 || !s.rateOk c ch e.beats true then none
            else
              let s := ((s.used f leaf).setEntry f n e).rateTake c ch e.beats true
              let s := s.modWork c w.id fun w =>
                { w with outs := rest, writesOut := w.writesOut + 1, left := w.left + p.bytes.length }
              some (s.present t (ch % 64) (writeOut n e))
        | _ => none

/-- The next read burst of a channel, if it is ready on tap `t` (R210, R221), issued. -/
def State.chanRead (s : State) (t ch : Nat) (c : CtxNo) : Option State :=
  let f := t / 4
  match (s.ctx c).works.find? fun w => w.frame = f && w.reads != [] with
  | none => none
  | some w =>
    match w.reads with
    | [] => none
    | r :: _ =>
      if r.space = 2 then none
      else
        match s.route f (s.ctx c) w.kset r.space.toNat r.addr .read, s.slotFor c w with
        | .tap phys shc leaf, some (n, pool) =>
          let want := halves r.sect
          let beats := popcount 4 want.toNat
          if tapOf f phys ≠ t || (s.tap t).rdCr = 0 || !s.rateOk c ch beats false then none
          else
            let gen := if r.space = 0 then some s.xlate.gen else none
            let q := (s.slot f n).issue (s.reqTenant (s.ctx c) w r.space.toNat) c w.id r phys want gen pool (Leaf.win leaf)
            let s := ((s.used f leaf).readIssued c w n q).rateTake c ch beats false
            some (s.present t (ch % 64) (readOut n q shc r.sect))
        | _, _ => none

/-! ## The service requester (R213) -/

/-- Whether a service request belongs to a forager walk: those come last (R241). -/
def State.foragerReq (s : State) : SvcReq → Bool
  | .walk id => s.xlate.walks.any fun w => w.id = id && w.why == .forager
  | _ => false

/-- Whether a service request is a table read of a walk. -/
def SvcReq.isWalk : SvcReq → Bool
  | .walk _ => true
  | _ => false

/-- The service requests of a frame that may issue, in their order (R241): of the table reads only the first, those of demand
walks before those of forager walks. -/
def State.svcOrder (s : State) (f : Nat) : List SvcReq :=
  let l := (s.frame f).svc
  let walks := l.filter SvcReq.isWalk
  let first := match walks.find? (!s.foragerReq ·) with | some r => some r | none => walks.head?
  l.filter fun r => !r.isWalk || first = some r

/-- The tag of a walk's read: a slot of the service requester, or one that the in-place transpose it is for has staged and
not yet filled (R116; DEDUCED, log entry 139). -/
def State.walkSlot (s : State) (f : Nat) (w : Walk) : Option (Nat × Bool) :=
  let staged := match w.why with
    | .work c id _ => (match s.work c id with
        | some v => v.unitKind == .whole && decide (0 < s.stagedOf f c v)
        | none => false)
    | _ => false
  s.takeSlot f .service staged

/-- A service request has left its queue. -/
def State.svcTaken (s : State) (f : Nat) (r : SvcReq) : State := s.modFrame f fun x => { x with svc := x.svc.erase r }

/-- The expected key set of a descriptor, 0 when it is gone. -/
def State.workKset (s : State) (c : CtxNo) (id : Nat) : KsetNo :=
  match s.work c id with | some w => w.kset | none => 0

/-- The route of a service read or write of context `c`. -/
def State.svcRoute (s : State) (f : Nat) (c : CtxNo) (id : Nat) (space addr : Nat) (need : Need) : Route :=
  s.route f (s.ctx c) (s.workKset c id) space addr need

/-- The tenant of a service read: that of the context served, or of the key set for a seed (R350). -/
def State.svcTenant (s : State) (c : CtxNo) (id : Nat) : ReadFor → Tenant
  | .seed _ => (s.kset (s.workKset c id)).tenant
  | _ => (s.ctx c).tenant

/-- The stage of a descriptor whose completing write has been issued (R63, R231). -/
def WriteFor.issued : WriteFor → DoneStage → DoneStage
  | .csum, .csum => .csumOut
  | .slotFree, .slot => .slotOut
  | .status, .status => .statusOut
  | _, st => st

/-- A service request, if it is ready on tap `t`, issued. -/
def State.svcIssue (s : State) (t : Nat) (r : SvcReq) : Option State :=
  let f := t / 4
  match r with
  | .walk id =>
    match (s.xlate.walks.find? fun w => w.id = id).bind fun w => (s.walkSlot f w).map fun p => (w, p) with
    | some (w, n, pool) =>
      let a := w.entryAddr
      if tapOf f a ≠ t || (s.tap t).rdCr = 0 then none
      else
        let sect := BitVec.ofNat 8 (2 ^ (a % 256 / 32))
        let q : Slot := { (s.slot f n).claim 0 0 with holder := .walk id, space := 4, addr := a, phys := a, want := halves sect,
                                                      pool := pool }
        some (((s.svcTaken f r).claimSlot f n .service q).present t 65 (readOut n q false sect))
    | none => none
  | .read c id q =>
    match s.svcRoute f c id q.space.toNat q.addr .read, s.takeSlot f .service false with
    | .tap phys shc leaf, some (n, pool) =>
      if tapOf f phys ≠ t || (s.tap t).rdCr = 0 then none
      else
        let gen := if q.space = 0 then some s.xlate.gen else none
        let sl := (s.slot f n).issue (s.svcTenant c id q.what) c id q phys (halves q.sect) gen pool (Leaf.win leaf)
        some ((((s.svcTaken f r).used f leaf).claimSlot f n .service sl).present t 65 (readOut n sl shc q.sect))
    | _, _ => none
  | .write c id idx p =>
    match s.svcRoute f c id p.space.toNat p.addr .write, s.takeEntry f .service with
    | .tap phys shc leaf, some n =>
      if tapOf f phys ≠ t || (s.tap t).wrCr = 0 then none
      else
        let e : WEntry := { holder := .work c id, what := p.what, space := if shc then 1 else 4, addr := phys, bytes := p.bytes,
                            tenant := (s.ctx c).tenant, gen := s.xlate.gen, counted := p.space = 0, idx := idx }
        let s := (((s.svcTaken f r).used f leaf).setEntry f n e).modWork c id fun w => { w with stage := p.what.issued w.stage }
        some (s.present t 65 (writeOut n e))
    | _, _ => none

/-! ## The fabric requester (R213, R290) -/

/-- A partner's write or lid whose slot holds damaged data goes no further (R385): nothing is delivered, so its group is never
complete, and its sender's timeout ends it (DEDUCED, log entry 95). -/
def State.fabDamaged (s : State) (f : Nat) (r : FabReq) (rest : List FabReq) : State :=
  let s := s.modFrame f fun x => { x with fab := rest }
  let g := s.rxGroup r.msg.src r.msg.group
  s.setRxGroup r.msg.src r.msg.group (if r.msg.op == opLid then { g with inFlight := g.inFlight - 1, lid := none, lidIssued := false }
    else { g with inFlight := g.inFlight - 1 })

/-- The head of the fabric requester's queue, if it is ready on tap `t`, issued. -/
def State.fabIssue (s : State) (t : Nat) : Option State :=
  let f := t / 4
  match (s.frame f).fab with
  | [] => none
  | r :: rest =>
    if tapOf f r.phys ≠ t then none
    else if r.msg.op == opRead then
      match s.takeSlot f .fabric false with
      | none => none
      | some (n, pool) =>
        if (s.tap t).rdCr = 0 then none
        else
          let lo := r.phys % 256 / 32
          let hi := (r.phys % 256 + max 1 r.msg.len - 1) / 32
          let sect := BitVec.ofNat 8 (2 ^ (hi + 1) - 2 ^ lo)
          let q : Slot := { (s.slot f n).claim r.tenant 0 with
            holder := .fabric r.msg.src r.msg.tag, space := 4, addr := r.msg.addr.toNat, phys := r.phys, want := halves sect,
            pool := pool, win := r.win, len := r.msg.len }
          some ((((s.modFrame f fun x => { x with fab := rest }).claimSlot f n .fabric q).freeCredit r.msg.src).present t 64
            (readOut n q false sect))
    else
      match s.takeEntry f .fabric with
      | none => none
      | some n =>
        let ecc := match r.slot with | some q => s.slotEcc f q | none => (s, true)
        let s := ecc.1
        if (s.tap t).wrCr = 0 then none
        else if !ecc.2 then some (s.fabDamaged f r rest)
        else
          let bytes := ((List.range r.msg.len).zip r.msg.data).map fun p => (r.phys % 256 + p.1, p.2)
          let e : WEntry := { holder := .fabric r.msg.src r.msg.tag, space := 4, addr := alignDown 256 r.phys, bytes := bytes,
                              tenant := r.tenant, win := r.win }
          some ((((s.modFrame f fun x => { x with fab := rest }).dropFabSlot r).setEntry f n e).present t 64 (writeOut n e))

/-! ## The arbiter (R221 to R223) -/

/-- The burst of requester `r` of tap `t`'s frame, issued when the requester is ready there (R221). -/
def State.tryIssue (s : State) (t r : Nat) : Option State :=
  if !s.frameUp (t / 4) || s.faults.halted then none
  else if r < 64 then
    let ch := 64 * (t / 4) + r
    match (s.chan ch).ctx with
    | none => none
    | some c => if !s.moving c (t / 4) then none else s.chanWrite t ch c <|> s.chanRead t ch c
  else if r = 64 then s.fabIssue t
  else (s.svcOrder (t / 4)).findSome? (s.svcIssue t)

/-- Base priority of a requester (R213). -/
def State.basePrio (s : State) (f r : Nat) : Nat :=
  if r = 65 then 7
  else if r = 64 then s.regs.fcFabPrio.toNat
  else match (s.chan (64 * f + r)).ctx with
    | some c => (s.ctx c).basePrio.toNat
    | none => 0

/-- The requesters in rotation order after the pointer (R222). -/
def rotation (ptr : Nat) : List Nat := (List.range 66).map fun i => (ptr + 1 + i) % 66

/-- `decide` (R222): the winner among ready requesters: the highest effective priority, ties to the first after the pointer. -/
def Tap.winner (x : Tap) (base : Nat → Nat) (ready : List Nat) : Option Nat :=
  ((rotation x.ptr).filter ready.contains).foldl (fun best r =>
    match best with
    | none => some r
    | some b => if min (base b + x.age.get 0 b) 15 < min (base r + x.age.get 0 r) 15 then some r else some b) none

/-- The arbiter after a decision (R222). -/
def Tap.decided (x : Tap) (ready : List Nat) (best : Nat) : Tap :=
  let age := ready.foldl (fun a r => if r = best then a else a.set 0 r (min (a.get 0 r + 1) 15)) x.age
  { x with age := age.set 0 best 0, ptr := best, owner := some best }

/-- A demand access at the head of a channel of frame `f` that cannot go to a tap (R247): a walk starts, or it fails, or it
goes to another chip. -/
def State.chanDemand (s : State) (f : Nat) : Option State :=
  if s.faults.halted then none
  else (s.ctxsIn f).findSome? fun c =>
    if !s.moving c f then none
    else (s.ctx c).works.findSome? fun w =>
      if w.ending.isSome || w.stage != .moving then none
      else (match w.outs with | p :: _ => if p.space = 2 then none else s.handOut c w | [] => none) <|> s.headRead c w

/-- The demand write of a completing request failed (R247): the ring's for a status or a freed slot, the descriptor's
otherwise. -/
def State.svcWriteFails (s : State) (f : Nat) (r : SvcReq) (c : CtxNo) (id : Nat) (idx : BitVec 16) (p : OutPiece)
    (kind level : Nat) : State :=
  let s := s.svcTaken f r
  match p.what with
  | .csum => s.failAccess c id 2 p.addr 5 kind level 0
  | .post n =>
    (s.failAccess c id 3 p.addr 5 kind level 0).modCtx c fun x => { x with posts := x.posts.filter fun q => q.id ≠ n }
  | _ =>
    let s := s.xlateFault c (s.ctx c).tenant p.addr 5 kind level
    (s.dropSvc c id).ringFault c (if kind = 1 then 0x0702 else 0x0701) 5 idx id

/-- A checksum or post record that translates to another chip joins the descriptor's lid group there (R16, R249, R291, R292);
the ring itself is never remote (R49, R79). -/
def State.svcWriteRemote (s : State) (f : Nat) (r : SvcReq) (c : CtxNo) (id : Nat) (idx : BitVec 16) (p : OutPiece) (m : Msg) :
    Option State :=
  let own := match p.what with | .csum | .post _ => true | _ => false
  let second := match s.work c id with
    | some w => w.doneRemote && (match w.remoteChip with | some d => d != m.dst | none => false)
    | none => false
  if !own then some (s.svcWriteFails f r c id idx p 1 0)
  else if !s.remoteUp m.dst then some ((s.svcTaken f r).endWork c id 0x0804 m.dst.toNat)
  else if second then some ((s.svcTaken f r).endWork c id 0x0805 m.dst.toNat)
  else
    let off := match p.bytes with | b :: _ => b.1 | [] => 0
    let m := { m with len := p.bytes.length, addr := m.addr + BitVec.ofNat 56 off, data := p.bytes.map (·.2) }
    (s.remoteWrite c id m (if m.win then none else some s.xlate.gen)).map fun t =>
      let t := (t.svcTaken f r).modWork c id fun w =>
        { w with stage := p.what.issued w.stage, lidOwed := none, remoteChip := some (w.remoteChip.getD m.dst) }
      match p.what, (t.groupsOf c id).find? fun e => e.1 == m.dst && !(t.txGroup e.1 e.2).closed with
      | .post n, some e => t.setTxGroup e.1 e.2 { t.txGroup e.1 e.2 with posts := (t.txGroup e.1 e.2).posts ++ [n] }
      | _, _ => t

/-- A service read that cannot go to a tap fails (R247). -/
def State.svcReadFails (s : State) (f : Nat) (r : SvcReq) (c : CtxNo) (id : Nat) (q : ReadReq) (kind level : Nat) : State :=
  let s := s.svcTaken f r
  match q.what, s.work c id with
  | .list, some w => s.failAccess c id 4 q.addr 7 kind level (w.entryAt q.addr)
  | .seed _, _ => s.failAccess c id 0 q.addr 9 kind level 0
  | _, _ => s.failAccess c id 0 q.addr 1 kind level 0

/-- A list or seed read from another chip (R249, R297). -/
def State.svcReadRemote (s : State) (f : Nat) (r : SvcReq) (c : CtxNo) (id : Nat) (q : ReadReq) (m : Msg) : Option State :=
  if !s.remoteUp m.dst then some ((s.svcTaken f r).endWork c id 0x0804 m.dst.toNat)
  else match s.freeReadTag m.dst, s.takeSlot f .service false with
  | some t, some (n, pool) =>
    let l := setBits 8 q.sect.toNat
    let lo := 32 * l.getD 0 0
    let hi := 32 * (l.getLast?.getD 0 + 1)
    let m := { m with len := hi - lo, addr := m.addr + BitVec.ofNat 56 lo }
    let sl := (s.slot f n).issue (s.svcTenant c id q.what) c id q 0 1 (if m.win then none else some s.xlate.gen) pool
    some (((s.svcTaken f r).claimSlot f n .service { sl with remote := some m.dst }).remoteRead c id f n t m)
  | _, _ => none

/-- The demand of a service request that cannot go to a tap (R247). -/
def State.svcDemandOf (s : State) (f : Nat) (r : SvcReq) : Option State :=
  match r with
  | .walk id => if s.xlate.walks.any fun w => w.id = id then none else some (s.svcTaken f r)
  | .read c id q =>
    let detail := if q.what == .list then 4 else 0
    match s.svcRoute f c id q.space.toNat q.addr .read with
    | .tap _ _ _ => none
    | .walk root va => s.demandWalk f c id detail root va
    | .fail kind level => some (s.svcReadFails f r c id q kind level)
    | .refused => some ((s.svcTaken f r).endWork c id 0x0805 s.inp.chipId.toNat)
    | .remote m leaf => (s.used f leaf).svcReadRemote f r c id q m
  | .write c id idx p =>
    match s.svcRoute f c id p.space.toNat p.addr .write with
    | .tap _ _ _ => none
    | .walk root va =>
      (match p.what with
       | .csum => s.demandWalk f c id 2 root va
       | .post _ => s.demandWalk f c id 3 root va
       | _ => if s.walking fun y => y == .ring c 5 then none else s.startWalk f root va (.ring c 5))
    | .fail kind level => some (s.svcWriteFails f r c id idx p kind level)
    | .refused => some ((s.svcTaken f r).endWork c id 0x0805 s.inp.chipId.toNat)
    | .remote m leaf => (s.used f leaf).svcWriteRemote f r c id idx p m

/-- DEMAND_TRANSLATION (R247) in a frame: one access that needs it; requests for shared-pool slots then take their places
(R207). -/
def State.demand (s : State) (f : Nat) : State :=
  if !s.frameUp f || s.faults.halted then s
  else
    let s := match s.chanDemand f <|> (s.svcOrder f).findSome? (s.svcDemandOf f) with
      | some t => t
      | none => s
    s.poolWaiters f

/-- TAP_ARBITRATION (R221 to R223, R247): demand translation goes on, the tap's arbiter decides, and the winner's burst
issues. -/
def execTapArbitration (tap : Fin 64) (s : State) : Host.Outcome State Fault Refusal :=
  .next (
    let t := tap.val
    let s := s.demand (t / 4)
    let ready := (List.range 66).filter fun r => (s.tryIssue t r).isSome
    match (s.tap t).winner (s.basePrio (t / 4)) ready with
    | none => s
    | some r =>
      match s.tryIssue t r with
      | some u => u.setTap t ((u.tap t).decided ready r)
      | none => s)

/-! ## Bus errors (R232, R233, R446) -/

/-- The frame stops: from now on it starts nothing, and waits for its responses (R232). A frame already stopping keeps the
first cause. -/
def State.stopFrame (s : State) (f : Nat) (cause : StopCause) : State :=
  s.modFrame f fun x => if x.stopped || x.draining then x else { x with draining := true, cause := cause }

/-- How an error names its requester: the context and channel, whether it was an access to the context's ring, and the tap
otherwise. -/
structure Blame where
  ctx : Option CtxNo := none
  ring : Option (BitVec 16) := none
  drop : Nat := 0
  tenant : Tenant := 0
deriving DecidableEq, Repr

/-- FRAME_BUS_ERROR (R232, R446): source `f` is raised with its capture and the frame stops; an error on a ring is its
context's ring fault too (R79, R233). -/
def State.busError (s : State) (f tap : Nat) (b : Blame) (wr : Bool) (access sub addr space : Nat) : State :=
  let named := match b.ctx, b.ring with | some c, none => some c | _, _ => none
  let cap : FaultCap := { src := f, mkind := if named.isSome then 1 else 4, mid := match named with | some c => c.toNat | none => tap,
                          tenant := b.tenant, access := access, sub := sub, addr := addr, space := space }
  let s := (s.raise cap).stopFrame f { ctx := b.ctx, ring := b.ring.isSome, write := wr, chan := named.bind s.chanOf }
  match b.ctx, b.ring with
  | some c, some i => (s.dropSvc c b.drop).ringFault c 0x0801 access i b.drop
  | _, _ => s

/-- Whom a read slot's error names (R233), and its access code (R381). -/
def State.slotBlame (s : State) (q : Slot) : Blame × Nat :=
  match q.holder with
  | .work c id =>
    let feed := match s.work c id with | some w => (match w.kind with | .feed _ => true | _ => false) | none => false
    ({ ctx := some c, tenant := q.recTenant },
     match q.what with | .data => (if feed then 9 else 1) | .tag => 8 | .list => 7 | .seed _ => 9)
  | .walk id =>
    match s.xlate.walks.find? fun w => w.id = id with
    | some w =>
      (match w.why with
       | .work c _ _ => ({ ctx := some c }, 6)
       | .ring c _ => ({ ctx := some c, ring := some (BitVec.ofNat 16 ((w.va - (s.ctx c).ringBase.toNat) / 128)) }, 6)
       | _ => ({}, 6))
    | none => ({}, 6)
  | .fabric _ _ => ({ tenant := q.recTenant }, 10)
  | _ => ({}, 15)

/-- Whom a write entry's error names (R233), and its access code (R381). -/
def WEntry.blame (e : WEntry) : Blame × Nat :=
  match e.holder with
  | .work c id =>
    (match e.what with
     | .data | .tag => ({ ctx := some c, tenant := e.tenant }, if e.red = 0 then 2 else 3)
     | .csum | .post _ => ({ ctx := some c, tenant := e.tenant }, 5)
     | .slotFree | .status => ({ ctx := some c, ring := some e.idx, drop := id, tenant := e.tenant }, 5))
  | .fabric _ _ => ({ tenant := e.tenant }, 11)
  | _ => ({}, 15)

/-- UNTAGGED_FAIL (R446): an error that names no request. -/
def execUntaggedFail (tap : Fin 64) (s : State) : Host.Outcome State Fault Refusal :=
  .next (s.busError (tap.val / 4) tap.val {} false 0 tap.val 0 7)

/-- A return without a request in flight (R446): source 52, sub-code 0. -/
def State.tapProtocol (s : State) (tap : Nat) : State := s.raise { src := 52, mkind := 4, mid := tap, sub := 0, addr := tap }

/-! ## Read returns (R210, R241, R242, R385) -/

/-- Whether a slot waits for beats of a tap. -/
def Slot.inFlight (q : Slot) : Bool :=
  q.holder != .free && q.want != 0 && q.have_ != q.want && q.remote.isNone

/-- A request that waits for a window's translation is refused with reason 4 (R289, check 5). -/
def State.refuseWaiting (s : State) (m : Msg) : State :=
  match linkNos.find? fun l => (s.link l).rxq.any fun e => e.2 == m with
  | some l => (s.modLink l fun x => { x with rxq := removeFirst (fun e => e.2 == m) x.rxq }).refuseReq m 4
  | none => s

/-- A walk ends without a leaf (R242, R246, R247): the demand use that waits for it fails as a miss; a format error raises
source 40. -/
def State.walkFails (s : State) (w : Walk) (kind : Nat) : State :=
  let s := s.endWalk w.id
  let window := match w.root with | .window _ => true | .tenant _ => false
  let t := match w.root with | .tenant t => t | .window _ => 0
  match w.why with
  | .forager => s
  | .fabric m =>
    let acc := if m.op == opRead then 10 else 11
    let s := if kind = 2 then
        s.raiseWith { src := 40, mkind := 3, mid := m.src.toNat, access := acc, sub := w.level, addr := w.va, space := 3 }
          (some { type := 0x08, sev := 0, src := 0, tenant := 0,
                  body := leBytes 8 w.va ++ leBytes 3 0x3FFFF ++ [BitVec.ofNat 8 acc, 2, BitVec.ofNat 8 w.level] ++ zeros 2 })
      else s
    s.refuseWaiting m
  | .ring c access =>
    let i := BitVec.ofNat 16 ((w.va - (s.ctx c).ringBase.toNat) / 128)
    let s := s.xlateFault c t w.va access kind w.level
    if access = 4 then s.ringFault c 0x0701 access i
    else match (s.ctx c).works with
      | v :: _ => (s.dropSvc c v.id).ringFault c 0x0701 access v.idx v.id
      | [] => s.ringFault c 0x0701 access i
  | .work c id detail =>
    if window then
      let s := if kind = 2 then s.xlateFault c 0 w.va 2 2 w.level else s
      s.endWork c id 0x0805 s.inp.chipId.toNat
    else match s.work c id with
      | none => s
      | some v =>
        let acc := match detail with
          | 0 => (match v.reads with | r :: _ => v.readKind r | [] => 1)
          | 1 => if v.red ≠ 0 then 3 else 2
          | 4 => 7
          | _ => 5
        let s := s.failAccess c id detail w.va acc kind w.level (v.entryAt w.va)
        s.mapFrames fun x => { x with svc := x.svc.filter fun r => match r with
          | .write d i _ p => !(detail = 3 && d == c && i = id && (match p.what with | .post _ => true | _ => false))
          | .read d i _ => !(detail = 4 && d == c && i = id)
          | .walk _ => true }

/-- PAGE_WALK_READ_RETURN (R241, R253): the entry read leads to the next level, a leaf, a miss or a format error; a
discarded walk starts again from its root. -/
def State.walkReturn (s : State) (f n id : Nat) : State :=
  let q := s.slot f n
  let s := s.setSlotAt f n q.release
  match s.xlate.walks.find? fun w => w.id = id with
  | none => s
  | some w =>
    if w.discard then
      match s.rootTable w.root with
      | some r => s.walkOn w r.1 r.2
      | none => s.walkFails { w with level := 0 } 0
    else
      let e := leNat ((List.range 8).map fun i => q.data.get 0 (q.addr % 256 + i))
      match s.walkStep w.root w.level w.va e with
      | .absent => s.walkFails w 0
      | .format => s.walkFails w 2
      | .next a => s.walkOn w (w.level + 1) a
      | .found l => (s.install w.frame l).endWalk w.id

/-- The bytes of a partner's read go back in one READ_DATA (R297). -/
def State.fabReadDone (s : State) (f n : Nat) (chip : ChipNo) (tag : BitVec 16) : State :=
  let q := s.slot f n
  let data := (List.range q.len).map fun i => q.data.get 0 (q.phys % 256 + i)
  let s := s.setSlotAt f n q.release
  s.sendMsg { s.msg opReadData chip tag 0 data with addr := BitVec.ofNat 56 q.addr, len := q.len }

/-- A slot has received its last beat. -/
def State.slotDone (s : State) (f n : Nat) : State :=
  match (s.slot f n).holder with
  | .work c id => s.workSlotDone f n c id
  | h =>
    let r := s.slotEcc f n
    if !r.2 then r.1
    else match h with
      | .walk id => r.1.walkReturn f n id
      | .fabric chip tag => r.1.fabReadDone f n chip tag
      | _ => r.1

/-- READ_DATA_RETURN (R210, R443, R446): a beat fills its slot, or fails and stops the frame. While the frame drains, data
is only taken in, to be discarded. -/
def execReadDataReturn (tap : Fin 64) (slot : Fin 8192) (half : Bool) (data : Bytes) (fail : Bool) (s : State) :
    Host.Outcome State Fault Refusal :=
  .next (
    let f := tap.val / 4
    let n := slot.val
    let h := b2n half
    let q := s.slot f n
    if !q.inFlight || q.space = 2 || !q.want.getLsbD h || q.have_.getLsbD h || tapOf f q.phys ≠ tap.val then
      s.tapProtocol tap.val
    else if fail then
      let b := s.slotBlame q
      let s := s.setSlotAt f n { q with have_ := q.have_ ||| BitVec.ofNat 4 (2 ^ h) }
      s.busError f tap.val b.1 false b.2 tap.val (firstBeat q.phys q.want) (if q.space = 1 then 1 else 4)
    else
      let s := s.fillSlot f n (128 * h) (BitVec.ofNat 4 (2 ^ h)) (slice data 0 128)
      if (s.slot f n).full && s.frameUp f then s.slotDone f n else s)

/-! ## Write reports and credits (R211, R215) -/

/-- A landed write's effect on the descriptor or group that holds its entry (R169, R212, R293). -/
def State.writeLanded (s : State) (e : WEntry) : State :=
  match e.holder with
  | .work c id =>
    (match e.what with
     | .data | .tag => s.modWork c id fun w => { w with writesOut := w.writesOut - 1 }
     | .csum => s.modWork c id fun w => { w with stage := if w.stage == .csumOut then .csumLanded else w.stage }
     | .slotFree => s.modWork c id fun w => { w with stage := if w.stage == .slotOut then .slotLanded else w.stage }
     | .status => s.modWork c id fun w => { w with stage := if w.stage == .statusOut then .statusLanded else w.stage }
     | .post n => s.modCtx c fun x =>
         { x with posts := updateFirst (fun p => p.id = n) (fun p => { p with landed := true }) x.posts })
  | .fabric chip tag => s.groupWriteDone chip (tag.toNat % 64)
  | _ => s

/-- A write that failed, or was taken as lost with the frame stopping (R232, R234): the descriptor waits for it no longer, a
post whose record it was is gone, and a partner's group is refused. -/
def State.writeFailed (s : State) (e : WEntry) : State :=
  match e.holder with
  | .work c id =>
    (match e.what with
     | .data | .tag => s.modWork c id fun w => { w with writesOut := w.writesOut - 1 }
     | .post n => s.modCtx c fun x => { x with posts := x.posts.filter fun p => p.id ≠ n }
     | _ => s)
  | .fabric chip tag => s.refuseReq { s.msg opWrite chip tag with src := chip } 6 true
  | _ => s

/-- WRITE_DONE (R211, R446): a write has landed and frees its entry, or failed and stops the frame. -/
def execWriteDone (tap : Fin 64) (entry : Fin 4096) (fail : Bool) (s : State) : Host.Outcome State Fault Refusal :=
  .next (
    let f := tap.val / 4
    let e := s.entry f entry.val
    if e.holder = .free || tapOf f e.addr ≠ tap.val then s.tapProtocol tap.val
    else
      let s := s.setEntry f entry.val {}
      if fail then
        let b := e.blame
        (s.busError f tap.val b.1 true b.2 tap.val e.first e.space.toNat).writeFailed e
      else s.writeLanded e)

/-- The credits of a tap's lane at reset; 0 is taken as 1 (R444). -/
def tapInit (l : List (Nat × BitVec 8)) (t : Nat) : Nat :=
  max 1 (match l.find? fun e => e.1 = t with | some e => e.2.toNat | none => 0)

/-- TAP_CREDIT_RETURN (R215): one request credit comes back; more than were granted is source 51. -/
def execTapCreditReturn (tap : Fin 64) (wr : Bool) (s : State) : Host.Outcome State Fault Refusal :=
  .next (
    let x := s.tap tap.val
    let init := tapInit (if wr then s.inp.wrCr else s.inp.rdCr) tap.val
    let cur := if wr then x.wrCr else x.rdCr
    if init ≤ cur then s.raise { src := 51, mkind := 4, mid := tap.val, sub := b2n wr, addr := tap.val }
    else s.setTap tap.val (if wr then { x with wrCr := cur + 1 } else { x with rdCr := cur + 1 }))

/-! ## The end of a frame's stop (R232 to R234) -/

/-- Whether every response of a frame's accesses has returned. -/
def Frame.drained (x : Frame) : Bool := x.went = [] && x.slots.all fun e => !e.2.inFlight

/-- A write whose response is taken as lost (R232): a descriptor's counts as acknowledged, so that nothing waits for it; a
partner's is refused (R234). -/
def State.writeLost (s : State) (e : WEntry) : State :=
  match e.holder with
  | .fabric _ _ => s.writeFailed e
  | _ => s.writeLanded e

/-- RESPONSE_LOST_TIMEOUT (R232): the responses still missing are taken as lost. -/
def execResponseLostTimeout (f : Fin 16) (s : State) : Host.Outcome State Fault Refusal :=
  .next (
    if !(s.frame f.val).draining then s
    else
      let lost := (s.frame f.val).went
      let s := s.modFrame f.val fun x =>
        { x with went := [], slots := x.slots.mapAll {} fun _ q => if q.inFlight then { q with have_ := q.want } else q }
      let s := lost.foldl (fun t e => t.writeLost e.2) s
      { s with ports := s.ports.mapAll {} fun _ p => { p with fetFly := p.fetFly.filter fun r => r.frame ≠ f.val } })

/-- The outcome that a frame's stop gives to the descriptors of a context (R233). -/
def StopCause.outcome (k : StopCause) (c : CtxNo) : Nat × Nat :=
  if k.ctx = some c && !k.ring then (0x0801, b2n k.write) else (0x0802, k.chan.getD 0xFFFF)

/-- One descriptor of a stopped frame ends (R233, R378): in the halted state only LAST_ERR and the event tell it. -/
def State.stopWork (s : State) (c : CtxNo) (k : StopCause) (id : Nat) : State :=
  match s.work c id with
  | none => s
  | some w =>
    let o := k.outcome c
    if w.kind == .wait && !w.lastRead then s.modCtx c fun x => { x with works := x.works.filter fun v => v.id ≠ id }
    else if s.faults.halted then
      let s := s.noteFailure c w (BitVec.ofNat 16 o.1) (BitVec.ofNat 16 o.2)
      s.modCtx c fun x => { x with works := x.works.filter fun v => v.id ≠ id }
    else if w.kind == .wait || w.kind == .nop && w.lastRead then s
    else s.endWork c id o.1 o.2

/-- The context of a stopped frame's channel is unbound (R233): Stopped when a failure asks for it, else Ready. A pausing
context stays so until its drain ends. -/
def State.stopCtx (s : State) (c : CtxNo) (k : StopCause) : State :=
  let s := (s.ctx c).works.foldl (fun t w => t.stopWork c k w.id) s
  let x := s.ctx c
  let s := if x.state == .waiting then s.disarm c else s
  let s := if x.state == .pausing then s
           else if x.failStop then (s.toState c .stopped).modCtx c fun x => { x with failStop := false }
           else s.toState c .ready
  s.unbind c

/-- What remains of a stopped frame's completing writes: status and slot writes, and those made for other frames' descriptors,
go to another frame's service requester (R233). -/
def SvcReq.keep (s : State) (f : Nat) : SvcReq → Bool
  | .write c id _ p =>
    (match p.what with
     | .status | .slotFree => true
     | _ => match s.work c id with | some w => w.frame ≠ f | none => false)
  | _ => false

/-- The posts of a stopped frame whose records were never issued. -/
def SvcReq.lostPost (s : State) (f : Nat) (r : SvcReq) : Option (CtxNo × Nat) :=
  match r with
  | .write c _ _ p => (match p.what with | .post n => if r.keep s f then none else some (c, n) | _ => none)
  | _ => none

/-- The partner requests in progress in a frame, and the lids it holds, are refused (R234). -/
def State.refuseFrame (s : State) (f : Nat) : State :=
  let fab := (s.frame f).fab
  let reads := (s.frame f).slots.filterMap fun e => match e.2.holder with
    | .fabric chip tag => if e.2.want = 0 then none
        else some { s.msg opRead chip tag with src := chip, addr := BitVec.ofNat 56 e.2.addr }
    | _ => none
  let lids := s.fabric.rxGroups.filterMap fun g => match g.2.lid with
    | some r => if servingFrame r.msg.src = f && !g.2.lidIssued then some r.msg else none
    | none => none
  let s := s.modFrame f fun x => { x with fab := [] }
  let s := fab.foldl (fun t r => t.refuseReq r.msg 6 (r.msg.op != opRead)) s
  let s := reads.foldl (fun t m => t.refuseReq m 6 true) s
  lids.foldl (fun t m => t.refuseReq m 6 true) s

/-- A beat for port `p` that does not cross the spine: its landing credit is free and its descriptor waits for it no longer. -/
def State.dropCrossing (s : State) (p : Nat) (b : Beat) : State :=
  (s.setPort p { s.port p with landCr := (s.port p).landCr + 1 }).beatBack (b.ctx, b.work)

/-- The beats of a frame that had not crossed the spine go, with the landing credits they held (R232). -/
def State.dropSpine (s : State) (f : Nat) : State :=
  let gone := s.spine.filter fun b => b.src = f
  let s := { s with spine := s.spine.filter fun b => b.src ≠ f }
  gone.foldl (fun t b => b.ports.foldl (fun u p => u.dropCrossing p b.beat) t) s

/-- FRAME_STOP_DRAIN_END (R232 to R234): every slot is zeroised and given back, the frame is stopped, its descriptors end
and its contexts are unbound; what must still be written goes through another frame. -/
def State.frameStopped (s : State) (f : Nat) : State :=
  let k := (s.frame f).cause
  let cs := s.ctxsIn f
  let svc := (s.frame f).svc
  let lost := svc.filterMap fun r => r.lostPost s f
  let s := s.refuseFrame f
  let s := s.modFrame f fun x => { x with slots := [], svc := [], poolWait := [], draining := false, stopped := true }
  let s := lost.foldl (fun t p => t.modCtx p.1 fun x => { x with posts := x.posts.filter fun q => q.id ≠ p.2 }) s
  let s := s.modXlate fun x => { x with walks := x.walks.filter fun w => w.frame ≠ f }
  let s := s.dropSpine f
  let move := svc.filter (SvcReq.keep s f)
  let s := match s.svcFrame f with
    | some g => s.modFrame g fun x => { x with svc := x.svc ++ move }
    | none => s.modFrame f fun x => { x with svc := move }
  cs.foldl (fun t c => t.stopCtx c k) s

/-- FRAME_STOP_DRAIN_END (R233). -/
def execFrameStopDrainEnd (f : Fin 16) (s : State) : Host.Outcome State Fault Refusal :=
  .next (if (s.frame f.val).draining && (s.frame f.val).drained then s.frameStopped f.val else s)

/-! ## The forager (R245, R246) -/

/-- The pages that a list of addresses touches, by one address each, at most four (R245). -/
def pagesOf (l : List Nat) : List Nat :=
  (l.foldl (fun (a : List Nat) v => if a.any fun u => u >>> 25 = v >>> 25 then a else a ++ [v]) []).take 4

/-- The source and destination addresses of one unit of a descriptor, in space 0. -/
def State.unitAddrs (s : State) (w : Work) (e : Entry) : List Nat × List Nat :=
  let b := w.box
  let k := w.unitKind
  let at_ := (List.range w.size).map fun i => (b.placeAt s.inp k w.unit e i).2
  (if b.src.space = 0 then at_.filterMap fun p => match p with | .move a _ _ _ => some a.toNat | _ => none else [],
   if b.dst.space = 0 then at_.filterMap fun p => match p with
     | .move _ _ d _ => some d.toNat
     | .pad d _ => some d.toNat
     | _ => none else [])

/-- The addresses of the next `n` units of a copy whose list entries are known. -/
def State.comingAddrs (s : State) (c : CtxNo) (w : Work) (n : Nat) : List Nat × List Nat :=
  let us := (List.range n).filterMap fun i =>
    let v := { w with unit := w.unit + i }
    if v.units ≤ v.unit then none
    else match s.listUse c v with
      | .entry e => some (s.unitAddrs v e)
      | _ => none
  (us.flatMap (·.1), us.flatMap (·.2))

/-- The addresses that the next `n` rows of a feed read. -/
def State.rowAddrs (s : State) (w : Work) (n : Nat) : List Nat :=
  let k := s.kset w.kset
  let row := k.row
  let a := w.box.src.addr + row * w.unit
  if k.word.space ≠ 0 then []
  else (List.range (min n (w.units - w.unit))).flatMap fun i => [a + row * i, a + row * i + row - 1]

/-- The pages that a descriptor in progress touches next (R245): its next 8 units, at most four pages a side, and for a list
the pages of the blocks that its entries read ahead name. -/
def State.workPages (s : State) (c : CtxNo) (w : Work) : List Nat :=
  match w.kind with
  | .feed _ => pagesOf (s.rowAddrs w 8)
  | .copy =>
    let near := s.comingAddrs c w 8
    let far := if w.box.list = 0 then ([], []) else s.comingAddrs c w 64
    pagesOf near.1 ++ pagesOf near.2 ++ (if w.box.gather then far.1 else if w.box.scatter then far.2 else [])
  | _ => []

/-- The first pages of a descriptor fetched ahead: its bases where they are translated. -/
def Held.pages (h : Held) : List Nat :=
  let b := parseBox h.bytes (zeros 128)
  if leAt h.bytes 0 2 ≠ 0x10 then []
  else (if b.src.space = 0 then [b.src.base] else []) ++ (if b.dst.space = 0 then [b.dst.base] else [])

/-- The pages that the forager covers for a channel (R245), each with the expected key set it is translated for: coming
units, descriptors fetched ahead, the next ring entry. -/
def State.foragerPages (s : State) (c : CtxNo) : List (KsetNo × Nat) :=
  let x := s.ctx c
  ((x.works.filter (·.ending.isNone)).flatMap fun w => (s.workPages c w).map fun a => (w.kset, a)) ++
    (x.held.flatMap fun h => h.pages.map fun a => (s.expected x h.bytes (parseBox h.bytes (zeros 128)), a)) ++
    (if x.priv then [] else [(x.keySet, x.entryAddr x.chanFetch.toNat)])

/-- FORAGER_WALK (R245, R246): the forager starts a walk for the first page of the channel's coming work that no buffer
holds and no walk seeks; a frame has at most 16. -/
def execForagerWalk (ch : Fin 1024) (s : State) : Host.Outcome State Fault Refusal :=
  .next (
    let f := chanFrame ch.val
    match (s.chan ch.val).ctx with
    | none => s
    | some c =>
      let x := s.ctx c
      let mine := (s.xlate.walks.filter fun w => w.frame = f && w.why == .forager).length
      if !s.moving c f || 16 ≤ mine then s
      else
        let sought (root : XRoot) (va : Nat) : Bool :=
          s.xlate.walks.any fun w => w.root == root && decide (w.va >>> 25 = va >>> 25)
        let need := (s.foragerPages c).findSome? fun p => (s.xroot x p.1).bind fun root =>
          if p.2 < 2 ^ 57 && (s.lookup f root p.2).isNone && !sought root p.2 then some (root, p.2) else none
        match need with
        | none => s
        | some (root, va) =>
          match s.startWalk f root va .forager with
          | some t => t
          | none => s)

end Sys2Proof.Machine
end

