-- ==== Sys2Proof/Machine/Ports.lean ====
section
/-! DEFINITION. The feed ports and the spine: deliveries (R218, R448), credits that cores return (R215), scratchpad reads
(R217, R446, R447) and beats that cross between frames (R216, R220). -/
namespace Sys2Proof.Machine

/-! ## Swarm regions as ports see them (R195, R199) -/

/-- Beats that every live member of a swarm has taken; all that were issued when none is live. -/
def Swarm.floor (x : Swarm) : Nat := x.live.foldl (fun a p => min a (x.taken.get 0 p)) x.issued

/-- The beats of a member that it has not taken (R195). -/
def Swarm.lag (x : Swarm) (p : Nat) : Nat := x.issued - x.taken.get 0 p

/-- The swarm after members have taken beats: the regions hold what some live member still has to take. -/
def Swarm.settle (x : Swarm) : Swarm := { x with region := x.region.filter fun e => decide (x.floor ≤ e.1) }

/-- A member takes one beat; its ejection timer clears when its lag falls to half the window (R199). -/
def Swarm.take (x : Swarm) (p : Nat) : Swarm :=
  let x := { x with taken := x.taken.set 0 p (x.taken.get 0 p + 1) }
  let x := if x.lag p ≤ x.win / 2 then { x with timers := clearBit x.timers p } else x
  { x.settle with held := x.held && decide (x.win ≤ x.issued - x.settle.floor) }

/-- The stream window of port `p` (R447, R215): the size that its core signals, in 16 to 4,096. -/
def swinOf (inp : StaticIn) (p : Nat) : Nat :=
  match inp.swin.find? fun e => e.1 = p with
  | some e => max 16 (min 4096 e.2.toNat)
  | none => 16

/-- The swarm beat that a port may deliver, with its swarm: a live member with a beat in its region and a stream credit. -/
def State.swarmBeatFor (s : State) (p : Nat) : Option (Nat × Bytes) :=
  match s.portSwarm p with
  | none => none
  | some n =>
    let x := s.swarm n
    if x.ejected.getLsbD p || (s.port p).strmCr = 0 then none
    else (x.region.find? fun e => e.1 = x.taken.get 0 p).map fun e => (n, e.2)

/-- The beat of a swarm as a port presents it (R448): a stream beat with every byte, for the key set's tenant. -/
def State.swarmBeat (s : State) (n : Nat) (d : Bytes) : Beat :=
  let x := s.swarm n
  { kind := 1, ofs := 0, ben := BitVec.ofNat 64 (2 ^ 64 - 1), pad := 0, data := d, tenant := (s.kset x.kset).tenant,
    ctx := x.src, work := 0, count := false }

/-- Whether a port holds the credit that a beat of a kind needs (R218). -/
def Port.mayDeliver (q : Port) (b : Beat) : Bool := if b.kind = 0 then decide (0 < q.wrCr) else decide (0 < q.strmCr)

/-- A port after it has presented a beat: its credit is taken and its return is awaited (R215). -/
def Port.present (q : Port) (b : Beat) : Port :=
  if b.kind = 0 then { q with out := some b, wrCr := q.wrCr - 1, landFly := q.landFly ++ [(b.ctx, b.work)] }
  else { q with out := some b, strmCr := q.strmCr - 1, strmFly := q.strmFly ++ [(b.ctx, b.work)] }

/-- FEED_PORT_DELIVER (R218): the swarm beat when there is one, else the oldest landing-buffer beat whose credit is
held. -/
def execFeedPortDeliver (p : Fin 256) (s : State) : Host.Outcome State Fault Refusal :=
  .next (
    let n := p.val
    if !s.corePresent n || (s.frame (n / 16)).state != .run then s
    else match s.swarmBeatFor n with
    | some (sw, d) =>
      ((s.setPort n ((s.port n).present (s.swarmBeat sw d))).setSwarm sw ((s.swarm sw).take n)).moved
    | none =>
      let q := s.port n
      match q.landing.find? q.mayDeliver with
      | none => s
      | some b =>
        (s.setPort n { q.present b with landing := removeFirst q.mayDeliver q.landing, landCr := q.landCr + 1 }).moved)

/-! ## Credits that cores return (R215, R448) -/

/-- More credits than were granted (R215): source 51 with the crossing's row. -/
def State.portCredit (s : State) (row p : Nat) : State :=
  s.raise { src := 51, mkind := 2, mid := p, sub := row, addr := p }

/-- LAND_CR (R215, R448): a scratchpad write has landed. -/
def execLandCr (p : Fin 256) (s : State) : Host.Outcome State Fault Refusal :=
  .next (
    if !s.corePresent p.val then s
    else match (s.port p.val).landFly with
    | [] => s.portCredit 2 p.val
    | w :: rest =>
      let q := s.port p.val
      (s.setPort p.val { q with landFly := rest, wrCr := q.wrCr + 1 }).beatBack w)

/-- STRM_CR (R215, R448): a stream or tag beat has been consumed. -/
def execStrmCr (p : Fin 256) (s : State) : Host.Outcome State Fault Refusal :=
  .next (
    if !s.corePresent p.val then s
    else match (s.port p.val).strmFly with
    | [] => s.portCredit 4 p.val
    | w :: rest =>
      let q := s.port p.val
      (s.setPort p.val { q with strmFly := rest, strmCr := q.strmCr + 1 }).beatBack w)

/-! ## Scratchpad reads (R217, R447) -/

/-- The slot that the next beat of a scratchpad read goes to: the one that holds beats of its block already, or one that R207
gives (DEDUCED, log entry 137). -/
def State.fetSlot (s : State) (c : CtxNo) (w : Work) (r : ReadReq) : Option (Nat × Slot) :=
  let same (e : Nat × Slot) : Bool :=
    e.2.holder == .work c w.id && e.2.what == r.what && e.2.space = 2 && e.2.core = r.core && e.2.addr = r.addr
  match (s.frame w.frame).slots.find? same with
  | some e => some e
  | none => (s.slotFor c w).map fun p =>
    (p.1, (s.slot w.frame p.1).issue (s.ctx c).tenant c w.id r 0 0 none p.2)

/-- The descriptor of a channel whose next read is a scratchpad read of core `p`, with the slot it fills. -/
def State.fetWant (s : State) (p ch : Nat) : Option (CtxNo × Work × ReadReq × Nat × Slot) :=
  match (s.chan ch).ctx with
  | none => none
  | some c =>
    if !s.moving c (chanFrame ch) then none
    else match (s.ctx c).works.find? fun w => w.frame = chanFrame ch && w.reads != [] with
    | some w => match w.reads with
      | r :: _ => if r.space = 2 && r.core = p then (s.fetSlot c w r).map fun e => (c, w, r, e) else none
      | [] => none
    | none => none

/-- One beat of the head read of a descriptor has been issued: the read stays at the head until its last beat. -/
def Work.beatIssued (w : Work) (r : ReadReq) (i : Nat) : Work :=
  let left := r.sect &&& ~~~(BitVec.ofNat 8 (3 * 4 ^ i))
  if left = 0 then Work.noteIssued { w with reads := w.reads.drop 1, readsOut := w.readsOut + 1 }
  else { w with reads := { r with sect := left } :: w.reads.drop 1 }

/-- FET_REQ (R217): a scratchpad read is issued on the fetch lane into a slot of the reading channel's pantry; the
lowest-numbered channel that asks goes first (DESIGN CHOICE, log entry 25). -/
def execFetReq (p : Fin 256) (s : State) : Host.Outcome State Fault Refusal :=
  .next (
    let n := p.val
    let q := s.port n
    if !s.corePresent n || (s.frame (n / 16)).state != .run || q.rdCr = 0 then s
    else match s.chans.keys.findSome? (s.fetWant n) with
    | none => s
    | some (c, w, r, m, sl) =>
      let i := ((setBits 4 (quarters r.sect).toNat).headD 0)
      let sl := { sl with want := sl.want ||| BitVec.ofNat 4 (2 ^ i) }
      ((s.claimSlot w.frame m (.chan c) sl).modWork c w.id fun v => v.beatIssued r i).setPort n
        { q with rdCr := q.rdCr - 1,
                 fetFly := q.fetFly ++ [{ frame := w.frame, slot := m, ofs := r.addr + 64 * i, tenant := (s.ctx c).tenant }] })

/-- Whether beats of a slot's block are still to be asked for. -/
def State.fetMore (s : State) (q : Slot) : Bool :=
  match q.holder with
  | .work c id => (match s.work c id with | some w => w.reads.any fun r => r.is q.what 2 q.core q.addr | none => false)
  | _ => false

/-- FET_V (R217, R446, R447): the oldest scratchpad read returns with its beat, or fails and stops the reading frame. -/
def execFetV (p : Fin 256) (data : Bytes) (fail : Bool) (s : State) : Host.Outcome State Fault Refusal :=
  .next (
    if !s.corePresent p.val then s
    else match (s.port p.val).fetFly with
    | [] => s.raise { src := 52, mkind := 2, mid := p.val, sub := 1, addr := p.val }
    | r :: rest =>
      let q := s.port p.val
      let s := s.setPort p.val { q with fetFly := rest, rdCr := q.rdCr + 1 }
      let beat := BitVec.ofNat 4 (2 ^ (r.ofs % 256 / 64))
      if fail then
        let sl := s.slot r.frame r.slot
        let b := s.slotBlame sl
        let s := s.setSlotAt r.frame r.slot { sl with have_ := sl.have_ ||| beat }
        s.busError r.frame p.val b.1 false b.2 0xFF (r.ofs + p.val * 2 ^ 32) 2
      else
        let s := s.fillSlot r.frame r.slot (r.ofs % 256) beat (slice data 0 64)
        let sl := s.slot r.frame r.slot
        if s.frameUp r.frame && sl.full && !s.fetMore sl then s.slotDone r.frame r.slot else s)

/-! ## The spine (R216, R220) -/

/-- A beat enters the landing buffers of its ports. -/
def State.landBeat (s : State) (b : SpineBeat) : State :=
  let s := b.ports.foldl (fun t p => t.setPort p { t.port p with landing := (t.port p).landing ++ [b.beat] }) s
  if b.beat.count then s.leave b.beat.ctx b.beat.work (popcount 64 b.beat.ben.toNat) else s

/-- The numbers below `n` in a round after `at_`. -/
def round (n at_ : Nat) : List Nat := (List.range n).map fun i => (at_ + 1 + i) % n

/-- The channel of a frame that a spine beat comes from. -/
def State.beatChan (s : State) (b : SpineBeat) : Nat := (s.chanOf b.beat.ctx).getD 0 % 64

/-- The beat that frame `src` sends toward frame `dst` (R220): its channels are served round-robin, each in order. -/
def State.egress (s : State) (src dst : Nat) : Option SpineBeat :=
  (round 64 (s.frame src).spineChan).findSome? fun ch =>
    match s.spine.find? fun b => b.src = src && s.beatChan b = ch with
    | some b => if b.dst = dst then some b else none
    | none => none

/-- The beat that frame `dst` takes (R220): the sending frames are served round-robin. Swarm beats go first within a data
clock, which no command shows (DESIGN CHOICE, log entry 143). -/
def State.ingress (s : State) (dst : Nat) : Option SpineBeat :=
  (round 16 (s.frame dst).spineFrom).findSome? fun src => if s.frameUp src then s.egress src dst else none

/-- SPINE_TRANSFER (R220): a beat from frame `src` to frame `dst` crosses when it is its turn. -/
def execSpineTransfer (dst : Fin 16) (src : Fin 16) (s : State) : Host.Outcome State Fault Refusal :=
  .next (
    match s.ingress dst.val with
    | none => s
    | some b =>
      if b.src ≠ src.val || (s.frame dst.val).state != .run then s
      else
        let s := (s.modFrame dst.val fun x => { x with spineFrom := src.val }).modFrame src.val fun x =>
          { x with spineChan := s.beatChan b }
        (({ s with spine := s.spine.erase b } : State).landBeat b).moved)

/-- The credits of every port at the release of the block's reset (R215, R447). -/
def State.portCredits (s : State) : State :=
  (List.range 256).foldl (fun t p =>
    if t.corePresent p then t.setPort p { t.port p with landCr := 32, wrCr := 64, rdCr := 64, strmCr := swinOf t.inp p } else t) s

/-- The credits of every tap at the release of the block's reset (R444). -/
def State.tapCredits (s : State) : State :=
  (List.range 64).foldl (fun t p =>
    t.setTap p { t.tap p with rdCr := tapInit t.inp.rdCr p, wrCr := tapInit t.inp.wrCr p }) s

end Sys2Proof.Machine
end

