-- ==== Sys2Proof/Machine/Swarms.lean ====
section
/-! DEFINITION. Key sets and swarms: the registry verbs (R180 to R182), swarms (R186 to R189, R195 to R202), feeds (R190 to
R194), the regeneration of masks (R183, R184), and the modulus and scale tables (R44, R132, R134, R146, R147). -/
namespace Sys2Proof.Machine

/-! ## The registry (R175 to R182) -/

/-- The fields of a key-set record. -/
def parseKset (b : Bytes) : KeySet :=
  { tenant := BitVec.ofNat 12 (fieldAt b 0 8 11 0), elem := BitVec.ofNat 4 (fieldAt b 0 8 19 16),
    masks := BitVec.ofNat 4 (fieldAt b 0 8 23 20), seeded := bit (leAt b 0 8) 24,
    mod := BitVec.ofNat 8 (fieldAt b 0 8 39 32), etype := BitVec.ofNat 8 (fieldAt b 0 8 47 40),
    logN := BitVec.ofNat 5 (fieldAt b 0 8 52 48), addr := BitVec.ofNat 60 (leAt b 8 8),
    rows := BitVec.ofNat 32 (leAt b 16 4), use := BitVec.ofNat 8 (leAt b 20 1), len := BitVec.ofNat 64 (leAt b 24 8),
    label := BitVec.ofNat 128 (leAt b 32 16), crc := BitVec.ofNat 32 (leAt b 60 4) }

/-- The byte of the first reserved bit that is set in a record (R180 order 5). -/
def ksetRsv (b : Bytes) : Option Nat :=
  (lowByte 0 (leAt b 0 8 &&& 0xFFE00000FE00F000) ++ lowByte 8 (leAt b 8 8 &&& 0xF000000000000000) ++
    lowByte 16 (leAt b 16 8 &&& 0xFFFFFF0000000000) ++ nonZero b 48 60 0).min?

/-- Order 8 of the registration checks: the first field out of range. -/
def ksetRange (o : Origin) (k : KeySet) : Option Nat :=
  if k.masks = 0 || 4 < k.masks.toNat then some 0x0102
  else if k.logN.toNat < 8 || 17 < k.logN.toNat then some 0x0106
  else if !(k.word.space = 0 || (k.word.space = 4 && originPriv o)) then some 0x0108
  else if k.rows = 0 then some 0x0110
  else none

/-- Order 10 of the registration checks (R177). -/
def ksetPlace (inp : StaticIn) (k : KeySet) : Option Nat :=
  let size := spaceSize inp k.word.space
  if k.word.addr % 32 ≠ 0 || size ≤ k.word.addr then some 0x0108
  else if k.len.toNat ≠ k.rows.toNat * k.row || size < k.word.addr + k.len.toNat then some 0x0118
  else none

/-- Orders 4 to 11 of the registration checks on a record that has been read (R180). -/
def State.ksetRegister (s : State) (o : Origin) (n : KsetNo) (b : Bytes) : State :=
  let k := parseKset b
  if k.crc ≠ crc32c (slice b 0 60) then s.verbDone o kBadParam 0x013C
  else match ksetRsv b with
  | some i => s.verbDone o kBadParam (0x0100 + i)
  | none =>
    if k.tenant = 0 || !s.tenantOpen k.tenant then s.verbDone o kNoObject 0x0100
    else if !s.mayAct o k.tenant then s.refuseTenant o
    else match ksetRange o k with
    | some d => s.verbDone o kBadParam d
    | none =>
      if !ksetCombo k.etype.toNat k.elem.toNat (s.modulus k.mod.toNat) then s.verbDone o kBadParam 0x0104
      else match ksetPlace s.inp k with
      | some d => s.verbDone o kBadParam d
      | none =>
        if k.seeded && !s.sec.passed.getLsbD 0 && !s.sec.passed.getLsbD 1 then s.verbDone o kNotReady 0
        else ((s.setKset n k).tableWritten 0 n.toNat (fun s => s.setKset n {})).verbDone o kOK 0

/-- KSET_REGISTER (R180). -/
def execKsetRegister (o : Origin) (s : State) : Host.Outcome State Fault Refusal :=
  .next (s.runVerb o 0x0500 fun v =>
    let n := BitVec.ofNat 14 (par v.req 16 2)
    if (s.kset n).tenant ≠ 0 then s.verbDone o kBusy 16
    else s.withStruct o v 24 (par v.req 24 8) 64 64 (s.ksetRegister o n))

/-- Whether an open context or swarm holds a key set (R182). -/
def State.ksetHeld (s : State) (n : KsetNo) : Bool :=
  s.ctxs.any (fun e => e.2.isOpen && e.2.keySet == n) || s.swarms.any fun e => e.2.isOpen && e.2.kset == n

/-- KSET_RETIRE (R182). -/
def execKsetRetire (o : Origin) (s : State) : Host.Outcome State Fault Refusal :=
  .next (s.runVerb o 0x0501 fun v =>
    let n := BitVec.ofNat 14 (par v.req 16 2)
    let k := s.kset n
    if k.tenant = 0 then s.verbDone o kNoObject 16
    else if !s.mayAct o k.tenant then s.refuseTenant o
    else if s.ksetHeld n then s.verbDone o kBusy 16
    else (s.setKset n { k with retiring := true }).verbDrains o)

/-- Whether a descriptor accepted with a key set as its E has not completed (R182). -/
def State.ksetUsed (s : State) (n : KsetNo) : Bool :=
  s.ctxs.any fun e => e.2.works.any (fun w => w.kset == n) || (e.2.part && e.2.kept.kset == n)

/-- KSET_RETIRE_DRAIN_END (R182). -/
def execKsetRetireDrainEnd (o : Origin) (s : State) : Host.Outcome State Fault Refusal :=
  .next (s.runDrained o 0x0501 fun v =>
    let n := BitVec.ofNat 14 (par v.req 16 2)
    if s.ksetUsed n then s else (s.setKset n {}).verbDone o kOK 0)

/-- Whether a context may be changed by a verb that needs it at rest: Idle, Paused or Stopped. -/
def Ctx.atRest (x : Ctx) : Bool := x.state == .idle || x.state == .paused || x.state == .stopped

/-- The guard of a verb that names a context (R32, R385): open, of a tenant the origin may act for, its record undamaged. -/
def State.onCtx (s : State) (o : Origin) (c : CtxNo) (f : Ctx → State) : State :=
  let x := s.ctx c
  if !x.isOpen then s.verbDone o kNoObject 16
  else if !s.mayAct o x.tenant then s.refuseTenant o
  else if x.damaged ≠ 0 then s.verbDone o kBusy 16
  else f x

/-- KSET_BIND (R181, R43). -/
def execKsetBind (o : Origin) (s : State) : Host.Outcome State Fault Refusal :=
  .next (s.runVerb o 0x0502 fun v =>
    let c := BitVec.ofNat 18 (par v.req 16 4)
    let n := BitVec.ofNat 14 (par v.req 20 2)
    s.onCtx o c fun x =>
      let k := s.kset n
      if k.tenant = 0 then s.verbDone o kNoObject 20
      else if !s.mayAct o k.tenant then s.refuseTenant o
      else if k.tenant ≠ x.tenant then s.verbDone o kNotPermitted 0
      else if !x.atRest then s.verbDone o kBusy 16
      else (s.modCtx c fun x => { x with keySet := n }).verbDone o kOK 0)

/-! ## Opening and closing a swarm (R186 to R189, R202) -/

/-- The ports that a request's mask names. -/
def maskPorts (r : Bytes) : List Nat := setBits 256 (par r 24 32)

/-- The first mask word that holds a port which is a member elsewhere, or the destination of a descriptor of another tenant
that is accepted and not complete (R186). -/
def State.portTaken (s : State) (t : Tenant) (ps : List Nat) : Option Nat :=
  let busy (p : Nat) : Bool :=
    (s.portSwarm p).isSome || s.ctxs.any fun e => e.2.tenant != t &&
      ((e.2.works.any fun w => w.accepted && opcodeOf w.main = 0x10 && w.box.dstCores.contains p) ||
        (e.2.part && e.2.kept.cores.contains p))
  (ps.find? busy).map (· / 64)

/-- The window that SWARM_CTRL gives, in beats (R197). -/
def State.swarmWin (s : State) : Nat := 256 * 2 ^ s.regs.swWin.toNat

/-- SWARM_OPEN (R186, R187, R43). -/
def execSwarmOpen (o : Origin) (s : State) : Host.Outcome State Fault Refusal :=
  .next (s.runVerb o 0x0503 fun v =>
    let n := par v.req 16 1
    let kn := BitVec.ofNat 14 (par v.req 18 2)
    let c := BitVec.ofNat 18 (par v.req 20 4)
    let ps := maskPorts v.req
    let k := s.kset kn
    let x := s.ctx c
    let w := s.swarmWin
    let fs := frameNos.filter fun f => ps.any fun p => p / 16 = f
    if ps = [] then s.verbDone o kBadParam 24
    else match ps.find? fun p => !s.corePresent p with
    | some p => s.verbDone o kBadParam (24 + 8 * (p / 64))
    | none =>
      if k.tenant = 0 then s.verbDone o kNoObject 18
      else if !s.mayAct o k.tenant then s.refuseTenant o
      else if !x.isOpen then s.verbDone o kNoObject 20
      else if !s.mayAct o x.tenant then s.refuseTenant o
      else if x.tenant ≠ k.tenant then s.verbDone o kNotPermitted 0
      else if (s.swarm n).isOpen && !s.mayAct o (s.kset (s.swarm n).kset).tenant then s.refuseTenant o
      else if (List.range 4).all fun i => (s.swarm i).isOpen then s.verbDone o kNoResource 0
      else if (s.swarm n).isOpen then s.verbDone o kBusy 16
      else match s.portTaken k.tenant ps with
      | some q => s.verbDone o kBusy (24 + 8 * q)
      | none =>
        if s.swarms.any fun e => e.2.isOpen && e.2.src == c then s.verbDone o kBusy 20
        else if fs.any fun f => decide (s.freeSlots f < w / 4) then s.verbDone o kNoResource 0
        else
          let y : Swarm := { isOpen := true, kset := kn, src := c, members := BitVec.ofNat 256 (par v.req 24 32), win := w,
                             ejectUs := if s.regs.swEjectUs = 0 then 1 else s.regs.swEjectUs, pace := (s.swarm n).pace,
                             srcFrame := if x.bound then some (chanFrame x.channel.toNat)
                                         else if x.hintValid then some x.hintFrame.toNat else none }
          (s.setSwarm n y).verbDone o kOK 0)

/-- The feed of a swarm that is in progress: the oldest whose last row has not been passed on. -/
def State.feedWork (s : State) (n : Nat) : Option Work :=
  (s.ctx (s.swarm n).src).works.find? fun w =>
    w.kind == .feed n && w.ending.isNone && w.stage == .moving && decide (w.unit < w.units)

/-- A partial feed of a Paused source context is in progress again, to end with SWARM_CLOSED (R202). -/
def State.closePartial (s : State) (n : Nat) (c : CtxNo) : State :=
  let x := s.ctx c
  if !x.part || x.works ≠ [] || x.kept.feed ≠ some n then s
  else
    let (id, s) := s.fresh
    let w := x.resumed { s.newWork c x 0 (id + 1) x.doneIdx x.kept.main x.kept.slot with kind := .feed n }
    (s.modCtx c fun x => { x with works := [w] }).endWork c w.id 0x0602 n

/-- SWARM_CLOSE (R202): the feed is to stop at its next row boundary and the source context stops. -/
def execSwarmClose (o : Origin) (s : State) : Host.Outcome State Fault Refusal :=
  .next (s.runVerb o 0x0504 fun v =>
    let n := par v.req 16 1
    let x := s.swarm n
    if !x.isOpen then s.verbDone o kNoObject 16
    else if !s.mayAct o (s.kset x.kset).tenant then s.refuseTenant o
    else
      let s := (s.setSwarm n { x with closing := some o }).verbDrains o
      let s := s.modCtx x.src fun y =>
        { y with failStop := y.state != .stopped, works := y.works.filter fun w => !(w.kind == .wait && !w.lastRead) }
      (s.closePartial n x.src).stopIfDone x.src)

/-- Whether a member holds up a close (R202): it has not taken every beat, or not acknowledged one that a landed feed waits for
(DEDUCED, log entry 142). -/
def State.behind (s : State) (n p : Nat) : Bool :=
  (s.swarm n).lag p ≠ 0 || ((s.ctx (s.swarm n).src).works.any fun w => w.kind == .feed n && w.landed) && s.swarmFly p ≠ 0

/-- Whether no live member holds up the close. -/
def State.swarmQuiet (s : State) (n : Nat) : Bool :=
  (s.feedWork n).isNone && !(s.swarm n).live.any (s.behind n)

/-- SWARM_CLOSE_FINISH (R202, R356): the regions are freed and zeroised, the frames released and the ports unbound. -/
def execSwarmCloseFinish (sw : Fin 4) (s : State) : Host.Outcome State Fault Refusal :=
  .next (
    let x := s.swarm sw.val
    match x.closing with
    | none => s
    | some o =>
      if !s.swarmQuiet sw.val then s
      else
        let s := { s.setSwarm sw.val { pace := x.pace } with expand := s.expand.filter fun e => e.2.sw ≠ sw.val }
        s.verbEnd o 0x0504 kOK 0)

/-- The ejection of a member (R200): source 42, the event naming swarm and port, SW_EJECTS, and the feed in progress notes
the lowest port. Cause 0 is the ejection time, 1 a close. -/
def State.eject (s : State) (n p cause : Nat) : State :=
  let x := s.swarm n
  let k := s.kset x.kset
  let y := { x with ejected := setBit x.ejected p, timers := clearBit x.timers p, ejects := satAdd x.ejects 1 }
  let y := { y.settle with held := y.held && decide (y.win ≤ y.issued - y.floor) }
  let s := s.setSwarm n y
  let s := s.modCtx x.src fun c =>
    { c with
      works := c.works.map fun w =>
        if w.kind == .feed n && w.ending.isNone && w.stage == .moving then { w with ejected := lowest w.ejected (some p) } else w,
      kept := if c.part && c.kept.feed = some n then { c.kept with ejected := lowest c.kept.ejected (some p) } else c.kept }
  s.raiseWith { src := 42, mkind := 6, mid := 0, tenant := k.tenant, sub := n, addr := p }
    (some { type := 0x06, sev := 0, src := 0, tenant := k.tenant,
            body := [BitVec.ofNat 8 n, BitVec.ofNat 8 cause] ++ leBytes 2 p ++ leBytes 2 x.kset.toNat ++ zeros 10 })

/-- SWARM_CLOSE_EJECT_TIMEOUT (R202): members that still lag are ejected. -/
def execSwarmCloseEjectTimeout (sw : Fin 4) (s : State) : Host.Outcome State Fault Refusal :=
  .next (
    let x := s.swarm sw.val
    if x.closing.isNone then s
    else (x.live.filter (s.behind sw.val)).foldl (fun t p => t.eject sw.val p 1) s)

/-- SWARM_EJECT (R199, R200): the ejection timer of a member has reached SW_EJECT_US. -/
def execSwarmEject (sw : Fin 4) (p : Fin 256) (s : State) : Host.Outcome State Fault Refusal :=
  .next (if (s.swarm sw.val).isOpen && (s.swarm sw.val).timers.getLsbD p.val then s.eject sw.val p.val 0 else s)

/-! ## Feeds (R190 to R194) -/

/-- Bytes of one polynomial. -/
def KeySet.poly (k : KeySet) : Nat := k.n * k.e

/-- The row of the key object that a feed is at. -/
def Work.feedAbs (w : Work) (k : KeySet) : Nat := feedRow k w.box + w.unit

/-- Address of row `r` (R177). -/
def KeySet.rowAt (k : KeySet) (r : Nat) : Nat := k.word.base + r * k.row

/-- Where the stored polynomials of a row begin and end. -/
def KeySet.stored (k : KeySet) (r : Nat) : Nat × Nat :=
  (k.rowAt r + (if k.seeded then 32 else 0), k.rowAt r + k.row)

/-- The 256 B blocks that bytes [lo, hi) touch, with their 32 B sectors (R100). -/
def rangeReads (space lo hi : Nat) : List ReadReq :=
  if hi ≤ lo then []
  else (List.range ((hi - 1) / 256 + 1 - lo / 256)).map fun i =>
    let b := lo / 256 * 256 + 256 * i
    let a := max lo b - b
    let z := min hi (b + 256) - b
    { what := .data, space := BitVec.ofNat 3 space, core := 0, addr := b,
      sect := BitVec.ofNat 8 (2 ^ ((z + 31) / 32) - 2 ^ (a / 32)) }

/-- The read of a row's seed: one 32 B sector (R177, R184). -/
def KeySet.seedRead (k : KeySet) (r : Nat) : ReadReq :=
  { what := .seed r, space := BitVec.ofNat 3 k.word.space, core := 0, addr := alignDown 256 (k.rowAt r),
    sect := BitVec.ofNat 8 (2 ^ (k.rowAt r % 256 / 32)) }

/-- The beat at byte `off` of the row a feed is at (R192): regenerated coefficients, or stored bytes, once they are in hand. -/
def State.feedBeat (s : State) (n : Nat) (w : Work) (off : Nat) : Option Bytes :=
  let x := s.swarm n
  let k := s.kset x.kset
  let r := w.feedAbs k
  let masked := k.masks.toNat * k.poly
  if k.seeded && off < masked then
    let coef := x.masks.get [] (r * k.masks.toNat + off / max 1 k.poly)
    let n := 64 / max 1 k.e
    if coef.length < n then none else some ((coef.take n).flatMap fun v => leBytes k.e v.toNat)
  else
    let a := (k.stored r).1 + (if k.seeded then off - masked else off)
    s.readBytes w.frame x.src w.id .data k.word.space 0 ((List.range 64).map (a + ·))

/-- The coefficients of the beat at byte `off` leave the output buffer (R184). -/
def Swarm.merged (x : Swarm) (k : KeySet) (r off : Nat) : Swarm :=
  if k.seeded && off < k.masks.toNat * k.poly then
    let i := r * k.masks.toNat + off / max 1 k.poly
    { x with masks := x.masks.set [] i ((x.masks.get [] i).drop (64 / max 1 k.e)) }
  else x

/-- The polynomial that a feed needs first: that of its next beat, or the first of the next row. -/
def Work.polyAt (w : Work) (k : KeySet) : Nat :=
  w.feedAbs k * k.masks.toNat + min k.masks.toNat (64 * w.emitted / max 1 k.poly)

/-- Whether a polynomial of a feed is still to be given to a Keccak core. -/
def State.polyNeeded (s : State) (n : Nat) (w : Work) (i : Nat) : Bool :=
  let x := s.swarm n
  decide (w.polyAt (s.kset x.kset) ≤ i) && x.masks.get [] i = [] && !(s.expand.any fun e => e.2.sw = n && e.2.index = i)

/-- The mask polynomials of row `r`. -/
def KeySet.polysOf (k : KeySet) (r : Nat) : List Nat := (List.range k.masks.toNat).map fun j => r * k.masks.toNat + j

/-- A feed takes over its swarm's seeds and masks. -/
def State.feedTakes (s : State) (n : Nat) (w : Work) : Option State :=
  let x := s.swarm n
  if x.feeder = w.id then none
  else some { s.setSwarm n { x with feeder := w.id, seeds := [], masks := [] } with
    expand := s.expand.filter fun e => e.2.sw ≠ n }

/-- A seed that has come is kept for the expanders, and its slot is given back. -/
def State.takeSeed (s : State) (n : Nat) (w : Work) : Option State :=
  let x := s.swarm n
  let k := s.kset x.kset
  let seed (e : Nat × Slot) : Option (Nat × Nat × Slot) :=
    match e.2.what with
    | .seed r => if e.2.holder == .work x.src w.id && e.2.full then some (r, e.1, e.2) else none
    | _ => none
  ((s.frame w.frame).slots.findSome? seed).map fun p =>
    let o := k.rowAt p.1 % 256
    let b := (List.range 32).map fun i => p.2.2.data.get 0 (o + i)
    (s.setSlotAt w.frame p.2.1 p.2.2.release).setSwarm n { x with seeds := x.seeds.set [] p.1 b }

/-- The rows whose seeds a feed asks for (R184): up to 32 from the row being delivered, none past it while it drains. -/
def State.seedRows (s : State) (w : Work) (c : CtxNo) : List Nat :=
  let last := min w.units (w.unit + 32)
  let rows := (List.range (last - w.unit)).map (w.unit + ·)
  if (s.ctx c).leave == .resume then (if w.asked then rows.take 1 else []) else rows

/-- Asks for the next seed that a seeded feed needs. -/
def State.askSeed (s : State) (n : Nat) (w : Work) : Option State :=
  let x := s.swarm n
  let k := s.kset x.kset
  if !k.seeded then none
  else
    let row (i : Nat) : Nat := feedRow k w.box + i
    let need := (s.seedRows w x.src).find? fun i =>
      x.seeds.get [] (row i) = [] && (k.polysOf (row i)).any (s.polyNeeded n w) && !s.svcReadOut w.frame x.src w.id (.seed (row i)) (k.seedRead (row i)).addr
    need.map fun i => s.svcRead w.frame x.src w.id (k.seedRead (row i))

/-- Slots whose bytes have all been issued are given back (R208). -/
def State.feedTrim (s : State) (n : Nat) (w : Work) : Option State :=
  let x := s.swarm n
  let k := s.kset x.kset
  let masked := if k.seeded then k.masks.toNat * k.poly else 0
  let pos := (k.stored (w.feedAbs k)).1 + (64 * w.emitted - masked)
  let t := s.freeSlotsOf w.frame x.src w.id fun q => q.what == .data && decide (q.addr + 256 ≤ pos)
  if !w.asked || (s.frame w.frame).slots = (t.frame w.frame).slots then none else some t

/-- A row that has been issued whole ends (R193). -/
def State.feedRowEnd (s : State) (n : Nat) (w : Work) : Option State :=
  let x := s.swarm n
  let k := s.kset x.kset
  if !w.asked || w.emitted * 64 < k.wide || w.reads ≠ [] || w.readsOut ≠ 0 then none
  else
    let r := w.feedAbs k
    let s := s.freeSlotsOf w.frame x.src w.id fun q => q.what == .data
    let s := s.setSwarm n { x with seeds := x.seeds.erase r,
                                   masks := x.masks.filter fun e => decide ((r + 1) * k.masks.toNat ≤ e.1) }
    let s := s.modWork x.src w.id fun w => { w with unit := w.unit + 1, asked := false, emitted := 0 }
    some (if x.closing.isSome then s.endWork x.src w.id 0x0602 n else s)

/-- The next row starts: its stored polynomials are to be read, in order. -/
def State.feedRowStart (s : State) (n : Nat) (w : Work) : Option State :=
  let x := s.swarm n
  let k := s.kset x.kset
  if w.asked || (s.ctx x.src).leave == .resume then none
  else
    let z := k.stored (w.feedAbs k)
    some (s.modWork x.src w.id fun w =>
      Work.noteIssued { w with asked := true, emitted := 0, reads := rangeReads k.word.space z.1 z.2 })

/-- The next step of a feed in progress. -/
def State.feedStep (s : State) (n : Nat) (w : Work) : Option State :=
  let x := s.swarm n
  if x.closing.isSome && !w.asked then some (s.endWork x.src w.id 0x0602 n)
  else s.feedTakes n w <|> s.headRead x.src w <|> s.takeSeed n w <|> s.feedTrim n w <|> s.feedRowEnd n w <|>
    s.feedRowStart n w <|> s.askSeed n w

/-- FEED (R190 to R193): the feed in progress of the channel's context makes its next step. -/
def execFeed (ch : Fin 1024) (s : State) : Host.Outcome State Fault Refusal :=
  .next (
    match (s.chan ch.val).ctx with
    | none => s
    | some c =>
      if !s.moving c (chanFrame ch.val) then s
      else
        let step (n : Nat) : Option State :=
          if (s.swarm n).isOpen && (s.swarm n).src == c then (s.feedWork n).bind (s.feedStep n) else none
        match (List.range 4).findSome? step with
        | some t => t
        | none => s)

/-- SWARM_BEAT_ISSUE (R195, R199, R200, R219): the next beat of the feed goes into every member frame's region, when each has
a free position; a member whose lag reaches the window starts its timer. -/
def execSwarmBeatIssue (sw : Fin 4) (s : State) : Host.Outcome State Fault Refusal :=
  .next (
    let n := sw.val
    let x := s.swarm n
    match s.feedWork n with
    | none => s
    | some w =>
      let k := s.kset x.kset
      if !x.isOpen || !s.moving x.src w.frame || x.feeder ≠ w.id || !w.asked || k.wide ≤ w.emitted * 64 then s
      else match s.feedBeat n w (64 * w.emitted) with
      | none => s
      | some d =>
        if x.win ≤ x.issued - x.floor then s.setSwarm n { x with held := true }
        else
          let y : Swarm := { x.merged k (w.feedAbs k) (64 * w.emitted) with region := x.region ++ [(x.issued, d)], issued := x.issued + 1, held := false }
          let late := y.live.filter fun p => y.lag p = y.win
          let y := { y with timers := late.foldl setBit y.timers }
          let s := s.setSwarm n y.settle
          (s.modWork x.src w.id fun w =>
            { w with emitted := w.emitted + 1, left := w.left + 64, crc := w.sum d, upto := y.issued }).moved)

/-! ## Regenerating masks (R183, R184, R204) -/

/-- The next polynomial that a swarm's feed needs and nobody regenerates: its index and its seed. -/
def State.nextPoly (s : State) (n : Nat) : Option (Nat × Bytes) :=
  let x := s.swarm n
  let k := s.kset x.kset
  match s.feedWork n with
  | none => none
  | some w =>
    if !x.isOpen || !k.seeded || x.feeder ≠ w.id then none
    else
      let rows := (List.range (min w.units (w.unit + 32) - w.unit)).map fun i => w.feedAbs k + i
      let polys := rows.flatMap fun r => (k.polysOf r).map fun i => (r, i)
      (polys.find? fun p => x.seeds.get [] p.1 ≠ [] && s.polyNeeded n w p.2).map fun p => (p.2, x.seeds.get [] p.1)

/-- A polynomial is assigned to a Keccak core; under an entry that no longer fits the key set its coefficients are free
values (R204). -/
def State.startPoly (s : State) (core n index : Nat) (seed : Bytes) : State :=
  let x := s.swarm n
  let k := s.kset x.kset
  let m := s.modulus k.mod.toNat
  let e : Expand := { sw := n, index := index, n := k.n, mask := BitVec.ofNat 64 (2 ^ m.width.toNat - 1),
                      prime := if m.kind = 1 then some m.p else none, lanes := shake128Absorb (seed ++ leBytes 8 index),
                      got := 0, undef := !ksetCombo k.etype.toNat k.elem.toNat m }
  { s with expandAt := n, expand := s.expand.insert core e }

/-- One squeeze of 168 B (R183, R184): 21 words are masked, and under a prime those below it are accepted. -/
def Expand.squeeze (e : Expand) : Expand × List Word :=
  let a := keccakF e.lanes
  let ok (v : Word) : Bool := match e.prime with | some p => decide (v.toNat < p.toNat) | none => true
  let l := (((shakeBlock a).map (· &&& e.mask)).filter ok).take (e.n - e.got)
  ({ e with lanes := a, got := e.got + l.length }, l)

/-- One squeeze with free values for its words, where they are undefined (R204). -/
def State.squeeze (s : State) (e : Expand) : (Expand × List Word) × State :=
  if e.undef then
    let l := (List.range (min 21 (e.n - e.got))).map fun i => Config.freeWord (s.free + i)
    (({ e with got := e.got + l.length }, l), { s with free := s.free + l.length })
  else (e.squeeze, s)

/-- Whether a swarm's output buffer of 64 KiB has room for a squeeze (R184); room for one is left to the polynomial that is
needed first (DESIGN CHOICE, log entry 141). -/
def State.bufferRoom (s : State) (e : Expand) : Bool :=
  let x := s.swarm e.sw
  let used := (x.masks.map fun m => m.2.length).sum * (s.kset x.kset).e
  let first := s.expand.all fun o => o.2.sw ≠ e.sw || decide (e.index ≤ o.2.index)
  decide (used + (if first then 168 else 336) ≤ 65536)

/-- A polynomial of a swarm is whole: its core is free, and a seed that no other polynomial of its row needs is zeroised
(R372). -/
def State.endPoly (s : State) (core : Nat) (e : Expand) : State :=
  let s := { s with expand := s.expand.erase core }
  let x := s.swarm e.sw
  let k := s.kset x.kset
  let r := e.index / max 1 k.masks.toNat
  let more := match s.feedWork e.sw with
    | some w => (k.polysOf r).any fun i => i ≠ e.index &&
        (s.polyNeeded e.sw w i || s.expand.any fun o => o.2.sw = e.sw && o.2.index = i)
    | none => false
  if more then s else s.setSwarm e.sw { x with seeds := x.seeds.erase r }

/-- Whether unit `u` is about to be tested, by a verb (R366) or at start-up (R365). -/
def State.testing (s : State) (u : Nat) : Bool :=
  s.keeper.verbs.any (fun v => reqVerb v.req = 0x0800 && v.stage == .run && bit (par v.req 16 1) u) ||
    s.keeper.phase == .tests && !s.keeper.testsDone

/-- SEED_EXPAND (R183 to R185, R366): a Keccak core of a powered expander that has passed its test squeezes once more when the
output buffer has room, or takes up the next polynomial, round-robin over the open swarms; an expander whose test waits takes
up none. -/
def execSeedExpand (core : Fin 48) (s : State) : Host.Outcome State Fault Refusal :=
  .next (
    let u := core.val / 24
    if !s.sec.passed.getLsbD u || !s.clockOn 16 then s
    else if !s.domainOn (62 + u) then
      (if (List.range 4).any fun n => (s.nextPoly n).isSome then s.powerUp (62 + u) else s)
    else match s.expand.find? fun e => e.1 = core.val with
    | some (_, e) =>
      if !s.bufferRoom e then s
      else
        let ((e, l), s) := s.squeeze e
        let x := s.swarm e.sw
        let s := ({ s with expand := s.expand.insert core.val e } : State).setSwarm e.sw
          { x with masks := x.masks.set [] e.index (x.masks.get [] e.index ++ l) }
        if e.got < e.n then s else s.endPoly core.val e
    | none =>
      if s.testing u then s
      else
        let order := (List.range 4).map fun i => (s.expandAt + 1 + i) % 4
        match order.findSome? fun n => (s.nextPoly n).map fun p => (n, p) with
        | some (n, i, seed) => s.startPoly core.val n i seed
        | none => s)

/-! ## The modulus table and the scale registers (R44, R132, R134, R146, R147) -/

/-- The modulus entries that a descriptor uses (R147). -/
def State.usedMods (s : State) (w : Work) : List Nat :=
  match w.kind with
  | .feed _ => [(s.kset w.kset).mod.toNat]
  | .copy =>
    if !isCt w.main then []
    else
      let c := parseCt w.main
      if c.xform < 0x21 || 0x25 < c.xform then [] else c.modIdx :: (if c.usesModDst then [c.modDst] else [])
  | _ => []

/-- Every descriptor accepted and not complete that uses entry `i` has met a change (R147). -/
def State.modChanged (s : State) (i : Nat) : State :=
  let mark (x : Ctx) : Ctx :=
    { x with
      works := x.works.map fun w => if (s.usedMods w).contains i then { w with changed := w.changed.or (some i) } else w,
      kept := if x.part && x.kept.mods.contains i then { x.kept with changed := x.kept.changed.or (some i) } else x.kept }
  { s with ctxs := s.ctxs.mapAll {} fun _ x => mark x }

/-- MOD_SET (R145 to R147). -/
def execModSet (o : Origin) (s : State) : Host.Outcome State Fault Refusal :=
  .next (s.runVerb o 0x0600 fun v =>
    s.withStruct o v 24 (par v.req 24 8) 64 64 fun b =>
      match modulusOffence b with
      | some i => s.verbDone o kBadParam (0x0100 + i)
      | none =>
        let i := par v.req 16 1
        (((s.setModulus i (parseModulus b)).modChanged i).tableWritten 1 i fun s => (s.setModulus i {}).modChanged i).verbDone
          o kOK 0)

/-- Scale registers of one frame written (R132, R397): a frame in off state is skipped; descriptors that it executes see the
change (R134). -/
def State.loadScales (s : State) (first : Nat) (vals : List (BitVec 16)) (f : Nat) : State :=
  if (s.frame f).state == .off then s
  else
    let (i, s) := s.fresh
    let ps := vals.zip ((List.range vals.length).map (first + ·))
    let s := s.modFrame f fun x =>
      { x with scales := true, scaleRegs := ps.foldl (fun m p => m.set 0 p.2 p.1) x.scaleRegs,
               scaleAt := ps.foldl (fun m p => m.set 0 p.2 (i + 1)) x.scaleAt }
    let mark (x : Ctx) : Ctx :=
      { x with works := x.works.map fun w =>
          if w.frame = f && w.kind == .copy then { w with changed := lowest w.changed (s.scaleChanged f w.born w) } else w }
    { s with ctxs := s.ctxs.mapAll {} fun _ x => mark x }

/-- A scale register that is damaged returns to its reset value (R385), which counts as a change. -/
def State.scaleGone (s : State) (fs : List Nat) (first : Nat) : State :=
  fs.foldl (fun t g => t.loadScales first [0] g) s

/-- SCALE_LOAD (R131, R132, R134). -/
def execScaleLoad (o : Origin) (s : State) : Host.Outcome State Fault Refusal :=
  .next (s.runVerb o 0x0601 fun v =>
    let f := par v.req 16 1
    let first := par v.req 18 2
    let n := par v.req 20 2
    if 16 ≤ f && f ≠ 0xFF then s.verbDone o kBadParam 16
    else if 4096 < first + n then s.verbDone o kBadParam 20
    else s.withStruct o v 24 (par v.req 24 8) (4 * n) 4 fun b =>
      match (List.range (4 * n)).find? fun i => decide (2 ≤ i % 4) && leAt b i 1 ≠ 0 with
      | some i => s.verbDone o kBadParam (0x0100 + i)
      | none =>
        let vals := (List.range n).map fun i => BitVec.ofNat 16 (leAt b (4 * i) 2)
        let fs := if f = 0xFF then frameNos else [f]
        ((fs.foldl (fun t g => t.loadScales first vals g) s).tableWritten 2 first fun s => s.scaleGone fs first).verbDone o kOK 0)

end Sys2Proof.Machine
end

