-- ==== Sys2Proof/Machine/Contexts.lean ====
section
/-! DEFINITION. Contexts and their scheduling: the context verbs (R46 to R53, R82 to R87, R475), knocks and watch polls (R64
to R67), binding and preemption (R11, R68, R69), fetching ahead (R66, R71, R79) and the end of a wait (R70, R336, R337). -/
namespace Sys2Proof.Machine

/-! ## Opening and closing (R46 to R48, R53) -/

/-- The fields of a record image (R47). -/
def parseCtx (b : Bytes) : Ctx :=
  { state := .idle, priv := bit (leAt b 0 8) 3, watch := bit (leAt b 0 8) 4, desched := bit (leAt b 0 8) 5,
    errCont := bit (leAt b 0 8) 6, tenant := BitVec.ofNat 12 (fieldAt b 0 8 19 8),
    basePrio := BitVec.ofNat 3 (fieldAt b 0 8 22 20), rateShare := BitVec.ofNat 9 (fieldAt b 0 8 32 24),
    ringLog2 := BitVec.ofNat 5 (fieldAt b 0 8 37 33), watchUs := BitVec.ofNat 10 (fieldAt b 0 8 49 40),
    ringBase := BitVec.ofNat 57 (fieldAt b 8 8 56 0), tail := BitVec.ofNat 16 (leAt b 16 2),
    doneIdx := BitVec.ofNat 16 (leAt b 18 2), fetchIdx := BitVec.ofNat 16 (leAt b 20 2),
    hintFrame := BitVec.ofNat 4 (fieldAt b 24 8 30 27), hintValid := bit (leAt b 24 8) 31 }

/-- The first offending byte of a record image (R48), if any. A RING_BASE that is no multiple of the ring's size offends at its
lowest byte (DESIGN CHOICE, log entry 66). -/
def State.ctxOffence (s : State) (o : Origin) (b : Bytes) : Option Nat :=
  let x := parseCtx b
  let on (c : Bool) (i : Nat) : List Nat := if c then [i] else []
  let log := x.ringLog2.toNat
  let base := x.ringBase.toNat
  (lowByte 0 (leAt b 0 8 &&& 0xFFFC00C000800087) ++
    on (x.priv && (x.tenant ≠ 0 || !originPriv o)) 0 ++
    on (x.tenant ≠ 0 && !s.tenantOpen x.tenant) 1 ++
    on (x.rateShare = 0 || 256 < x.rateShare.toNat) 3 ++
    on (log < 4 || 16 < log) 4 ++
    on (x.watch && x.watchUs = 0) 5 ++
    on (base % (2 ^ log * 128) ≠ 0) 8 ++
    on (x.priv && bits base 55 50 ≠ s.inp.chipId.toNat) 14 ++
    on (x.priv && bit base 56) 15 ++
    lowByte 8 (leAt b 8 8 &&& 0xFE00000000000000) ++
    on (2 ^ log ≤ x.tail.toNat) 16 ++ on (x.doneIdx ≠ x.tail) 18 ++ on (x.fetchIdx ≠ x.tail) 20 ++
    lowByte 16 (leAt b 16 8 &&& 0xFFFF000000000000) ++
    lowByte 24 (leAt b 24 8 &&& 0xFFFFFFFF07FFFFFF) ++ on (!x.hintValid && x.hintFrame ≠ 0) 27 ++
    nonZero b 32 64 0).min?

/-- Word `word` of a record is found uncorrectable (R385): source 33; descriptors in progress fail with ECC_ERROR, and the
context becomes Stopped whatever its ERR_CONT. -/
def State.damageRecord (s : State) (c : CtxNo) (word : Nat) (access : Nat := 0) : State :=
  let x := s.ctx c
  let s := s.raise { src := 33, mkind := 1, mid := c.toNat, tenant := x.tenant, access := access, sub := word, addr := c.toNat }
  if !x.isOpen then s
  else
    let s := s.modCtx c fun y => { y with damaged := setBit y.damaged word, failStop := y.state != .stopped }
    (x.works.foldl (fun t w => t.endWork c w.id 0x0803 1) s).stopIfDone c

/-- A corrected error of a record (R385): source 34. -/
def State.recordFixed (s : State) (c : CtxNo) (word : Nat) (access : Nat := 0) : State :=
  s.raise { src := 34, mkind := 1, mid := c.toNat, tenant := (s.ctx c).tenant, access := access, sub := word, addr := c.toNat }

/-- A record written while injection waits for a write to the context store (R387), judged as it will be read. -/
def State.recordWritten (s : State) (c : CtxNo) : State :=
  let n := s.faults.flipCtx
  if n = 0 then s
  else
    let s := s.modFaults fun f => { f with flipCtx := 0 }
    if n = 1 then s.recordFixed c 0 else s.damageRecord c 0

/-- The store bank of a context (R46). -/
def ctxBank (c : CtxNo) : Nat := c.toNat / 2 ^ 15

/-- The checks of ctx.open on an image that has been read, and the opening (R48). -/
def State.openCtx (s : State) (o : Origin) (c : CtxNo) (b : Bytes) : State :=
  if !originPriv o && !s.mayAct o (parseCtx b).tenant then s.refuseTenant o
  else match s.ctxOffence o b with
  | some i => s.verbDone o kBadParam (0x0100 + i)
  | none =>
    if !s.sec.passed.getLsbD 0 && !s.sec.passed.getLsbD 1 then s.verbDone o kNotReady 0
    else if !s.domainOn (48 + ctxBank c) || !s.tallyOn then (s.powerUp (48 + ctxBank c)).powerUp 61
    else ((s.setCtx c (parseCtx b)).recordWritten c).verbDone o kOK 0

/-- CTX_OPEN (R46, R48, R52). The verb waits for the record's bank and the tally unit to be powered. -/
def execCtxOpen (o : Origin) (s : State) : Host.Outcome State Fault Refusal :=
  .next (s.runVerb o 0x0300 fun v =>
    let c := BitVec.ofNat 18 (par v.req 16 4)
    if (s.ctx c).isOpen then (if s.mayAct o (s.ctx c).tenant then s.verbDone o kBusy 16 else s.refuseTenant o)
    else s.withStruct o v 24 (par v.req 24 8) 64 64 (s.openCtx o c))

/-- Free slots whose record names the context are zeroised (R53, R356). -/
def State.zeroSlotsOf (s : State) (c : CtxNo) : State :=
  s.mapFrames fun x => { x with slots := x.slots.mapAll {} fun _ q =>
    if q.holder == .free && q.recCtx == c then { q with data := [] } else q }

/-- The guard of a verb that a damaged record admits too (R385): open, and of a tenant the origin may act for. -/
def State.onAnyCtx (s : State) (o : Origin) (c : CtxNo) (f : Ctx → State) : State :=
  let x := s.ctx c
  if !x.isOpen then s.verbDone o kNoObject 16
  else if !s.mayAct o x.tenant then s.refuseTenant o
  else f x

/-- CTX_CLOSE (R53, R203). Statuses and posts still on their way are awaited first. -/
def execCtxClose (o : Origin) (s : State) : Host.Outcome State Fault Refusal :=
  .next (s.runVerb o 0x0301 fun v =>
    let c := BitVec.ofNat 18 (par v.req 16 4)
    s.onAnyCtx o c fun x =>
      if !x.atRest || s.swarms.any (fun e => e.2.isOpen && e.2.src == c) then s.verbDone o kBusy 16
      else if x.works ≠ [] || x.posts ≠ [] then s
      else ((s.zeroSlotsOf c).setCtx c {}).verbDone o kOK 0)

/-! ## Pausing and resuming (R83 to R86, R475) -/

/-- The result of ctx.pause (R84). -/
def Ctx.pauseResult (x : Ctx) : Bytes := results [(4, leBytes 4 (x.doneIdx.toNat + 2 ^ 31 * b2n x.part))]

/-- A descriptor whose unit in progress has issued no read gives that unit up (R83); a tile whose tag has been checked goes on
(R173). -/
def State.dropUnit (s : State) (c : CtxNo) (w : Work) : State :=
  let used := 0 < s.heldSlots w.frame fun q => q.holder == .work c w.id && (q.what == .data || q.what == .tag)
  if !w.asked || w.unitKind == .whole && w.kind == .copy || w.emitted ≠ 0 || w.readsOut ≠ 0 || used ||
      w.tagIn && w.tileOk then s
  else s.modWork c w.id fun w => { w with asked := false, reads := [] }

/-- Descriptors without an unmet WAIT (R83). -/
def unwaited (l : List Work) : List Work := l.filter fun w => !(w.kind == .wait && !w.lastRead)

/-- Every WAIT in progress whose tally has reached its value is satisfied (R83). -/
def State.judgeWaits (s : State) (c : CtxNo) : State :=
  s.modCtx c fun x => { x with works := x.works.map fun w =>
    if w.kind == .wait && s.waitMet w.waitFor.1.toNat w.waitFor.2.toNat then { w with lastRead := true } else w }

/-- A context starts to pause: no new unit, satisfied waits complete, unmet ones are disarmed. -/
def State.startPause (s : State) (c : CtxNo) : State :=
  let s := s.judgeWaits c
  let s := if (s.ctx c).state == .waiting then s.disarm c else s
  let s := (s.toState c .pausing).modCtx c fun x => { x with leave := .resume, works := unwaited x.works }
  (s.ctx c).works.foldl (fun t w => t.dropUnit c w) s

/-- CTX_PAUSE (R83, R85, R475). -/
def execCtxPause (o : Origin) (s : State) : Host.Outcome State Fault Refusal :=
  .next (s.runVerb o 0x0302 fun v =>
    let c := BitVec.ofNat 18 (par v.req 16 4)
    s.onCtx o c fun x =>
      if x.state == .paused || x.state == .stopped then
        let s := if par v.req 20 1 = 0 then s.modCtx c fun x => { x with fetchIdx := x.doneIdx } else s
        s.verbDone o kOK 0 x.pauseResult
      else (s.startPause c).verbDrains o)

/-- Whether a partial descriptor stands at a resume point with nothing on its way (R83, R84). -/
def State.atResume (s : State) (c : CtxNo) (w : Work) : Bool :=
  (match w.kind with | .copy => w.unitKind != .whole | .feed _ => true | _ => false) &&
    w.stage == .moving && w.ending.isNone && !w.asked && decide (w.unit < w.units) && w.outs = [] && w.reads = [] &&
    w.readsOut = 0 && w.writesOut = 0 && !s.undelivered c w.id && !s.postsOut c w.id false

/-- What a partial descriptor keeps (R86). -/
def State.keptOf (s : State) (w : Work) : Kept :=
  { left := w.left, ejected := w.ejected, changed := w.changed, mods := s.usedMods w, kset := w.kset, tally := w.tally,
    tallyDone := w.tallyDone, rrTallies := w.rrTallies, feed := match w.kind with | .feed n => some n | _ => none,
    cores := w.box.dstCores, posted := w.postedBefore || w.posted ≠ 0, remoteChip := w.remoteChip, born := w.born,
    lidOwed := w.lidOwed, main := w.main, slot := w.slot }

/-- The partial descriptor of a drained context is saved in its record and leaves its frame (R84). -/
def State.savePartial (s : State) (c : CtxNo) (w : Work) : State :=
  let s := ((s.dropSvc c w.id).dropSlots c w.id)
  let moved := decide (0 < w.unit)
  s.modCtx c fun x =>
    { x with works := [], part := moved, cursor := if moved then BitVec.ofNat 40 w.unit else 0,
             crcPartial := if moved then w.crc else 0, kept := if moved then s.keptOf w else {} }

/-- Closes a group for a pause (R295); a DONE_REMOTE descriptor notes the lid that its tally may still need (R86). -/
def State.pauseLid (s : State) (c : CtxNo) (w : Work) (d : ChipNo) (g : Nat) : State :=
  let back := (s.txGroup d g).back
  (s.pauseGroup d g).modWork c w.id fun v => if v.doneRemote then { v with lidOwed := back } else v

/-- One step of a drain toward a resume point (R83, R295): what is drained of the context, with its partial descriptor
saved; none while something is still on its way. -/
def State.drained (s : State) (c : CtxNo) : State × Bool :=
  match (s.ctx c).works with
  | [] => (s, true)
  | [w] =>
    if !s.atResume c w then (s, false)
    else
      let gs := s.groupsOf c w.id
      let openGs := gs.filter fun e => !(s.txGroup e.1 e.2).closed
      if openGs ≠ [] then (openGs.foldl (fun t e => t.pauseLid c w e.1 e.2) s, false)
      else if gs ≠ [] then (s, false) else (s.savePartial c w, true)
  | _ => (s, false)

/-- CTX_PAUSE_DRAIN_END (R52, R84, R85): Paused, or Stopped after a failure, and unbound. -/
def execCtxPauseDrainEnd (o : Origin) (s : State) : Host.Outcome State Fault Refusal :=
  .next (s.runDrained o 0x0302 fun v =>
    let c := BitVec.ofNat 18 (par v.req 16 4)
    let x := s.ctx c
    if x.state != .pausing then s.verbDone o kOK 0 x.pauseResult
    else
      let (s, done) := s.drained c
      if !done then s
      else
        let s := (s.toState c (if x.failStop then .stopped else .paused)).unbind c
        let s := s.modCtx c fun x => { x with failStop := false, leave := .no,
                                              fetchIdx := if par v.req 20 1 = 0 then x.doneIdx else x.fetchIdx }
        s.verbDone o kOK 0 (s.ctx c).pauseResult)

/-- CTX_RESUME (R52, R86, R475). -/
def execCtxResume (o : Origin) (s : State) : Host.Outcome State Fault Refusal :=
  .next (s.runVerb o 0x0303 fun v =>
    let c := BitVec.ofNat 18 (par v.req 16 4)
    s.onCtx o c fun x =>
      if x.state != .paused && x.state != .stopped then s.verbDone o kOK 0
      else
        let more := x.fetchIdx ≠ x.tail || x.doneIdx ≠ x.fetchIdx
        ((s.modCtx c fun x => { x with failStop := false }).toState c (if more then .ready else .idle)).verbDone o kOK 0)

/-! ## Aborting (R87) -/

/-- The landing-buffer and spine beats of a context are discarded with the credits they hold (R87, R356). -/
def State.dropBeats (s : State) (c : CtxNo) : State :=
  let lost := s.ports.flatMap fun e => e.2.landing.filter fun b => b.ctx == c
  let s := lost.foldl (fun t b => t.beatBack (b.ctx, b.work)) s
  let s : State := { s with ports := s.ports.mapAll {} fun _ p =>
    { p with landing := p.landing.filter (fun b => b.ctx ≠ c),
             landCr := p.landCr + (p.landing.filter fun b => b.ctx == c).length } }
  let gone := s.spine.filter fun b => b.beat.ctx == c
  let s : State := { s with spine := s.spine.filter fun b => b.beat.ctx ≠ c }
  gone.foldl (fun t b => b.ports.foldl (fun u p => u.dropCrossing p b.beat) t) s

/-- Whether a descriptor's status write is still queued in a frame. -/
def State.statusQueued (s : State) (c : CtxNo) (id : Nat) : Bool :=
  s.frames.any fun e => e.2.svc.any fun r => match r with
    | .write d i _ p => d == c && i = id && p.what == .status
    | _ => false

/-- A started descriptor whose status has not been written ends ABORTED (R75, R87), each that is in progress with D_DETAIL 0;
one that an earlier condition has ended keeps that outcome (DEDUCED, log entry 136). -/
def State.abortWork (s : State) (c : CtxNo) (w : Work) : State :=
  let aborted (v : Work) : Work := { v with status := 0x0901, detail := 0 }
  if w.ending.isSome || failed w.status then s
  else match w.stage with
  | .moving | .csum | .csumOut => s.endWork c w.id 0x0901 0
  | .csumLanded => (s.modWork c w.id fun w => { w with stage := .csumOut }).endWork c w.id 0x0901 0
  | .slot | .slotOut | .slotLanded => s.modWork c w.id aborted
  | .status =>
    if !s.statusQueued c w.id then s
    else
      let s := s.mapFrames fun x => { x with svc := x.svc.filter fun r => match r with
        | .write d i _ p => !(d == c && i = w.id && p.what == .status)
        | _ => true }
      (s.modWork c w.id aborted).queueStatus c (aborted w)
  | .statusOut | .statusLanded => s

/-- Whether an abort counts a started descriptor: its status has not been written. -/
def State.abortCounts (s : State) (c : CtxNo) (w : Work) : Bool :=
  match w.stage with
  | .statusOut | .statusLanded => false
  | .status => s.statusQueued c w.id
  | _ => true

/-- Whether ring entry `i` with bytes `e` is below TAIL and owned. -/
def Ctx.given (x : Ctx) (i : BitVec 16) (e : Bytes) : Bool :=
  decide (x.dist i.toNat < x.dist x.tail.toNat) && bit (leAt e 127 1) 7

/-- The owned entries below TAIL that had not started become descriptors that end ABORTED; an entry of two counts once, and a
partial descriptor keeps what it has done. -/
def State.abortEntries (s : State) (c : CtxNo) (f : Nat) (first : Nat) : Nat → BitVec 16 → List Bytes → State × Nat
  | 0, _, _ => (s, 0)
  | _, _, [] => (s, 0)
  | n + 1, i, e :: rest =>
    let x := s.ctx c
    if !x.given i e then (s, 0)
    else
      let two := bit (leAt e 2 2) 1 && (match rest with
        | q :: _ => bit (leAt q 127 1) 6 && x.given (x.next i.toNat 1) q
        | [] => false)
      let slot := if two then rest.headD [] else []
      let (id, s) := s.fresh
      let w := s.newWork c x f (id + 1) i e slot
      let w := if first = 0 && x.part then x.resumed w else w
      let w := { w with ending := some (0x0901, BitVec.ofNat 16 first), lastRead := true }
      let s := s.modCtx c fun x => { x with works := x.works ++ [w] }
      let r := s.abortEntries c f 1 n (x.next i.toNat w.entries) (if two then rest.drop 1 else rest)
      (r.1, r.2 + 1)

/-- The first part of an abort: everything of the context stops, and the entries that are to be completed are known. -/
def State.startAbort (s : State) (o : Origin) (c : CtxNo) (entries : List Bytes) : State :=
  let x := s.ctx c
  let f := (s.chanOf c).elim 0 chanFrame
  let started := x.works
  let n := (started.filter (s.abortCounts c)).length
  let s := (if x.state == .waiting then s.disarm c else s).dropBeats c
  let s := started.foldl (fun t w => t.abortWork c w) s
  let i := x.startIdx
  let first := if started = [] && (x.part || x.state == .waiting) then 0 else 1
  let (s, m) := s.abortEntries c f first entries.length i (entries.drop (x.dist i.toNat))
  let s := s.modCtx c fun x => { x with aborting := true, held := [] }
  s.modVerb o fun v => { v with acc := n + m }

/-- The end of an abort: the context is Idle at the stopping index. -/
def State.endAbort (s : State) (c : CtxNo) : State :=
  let s := ((s.toState c .idle).unbind c).disarm c
  s.modCtx c fun x =>
    { x with aborting := false, failStop := false, fetchHold := false, leave := .no, part := false, cursor := 0,
             crcPartial := 0, kept := {}, tail := x.doneIdx, fetchIdx := x.doneIdx }

/-- CTX_ABORT (R87): `entries` are the ring entries from DONE_IDX on as the engine reads them (DESIGN CHOICE, log entry 138). The row stands for the start
of the abort, and again for its end once every descriptor has completed. -/
def execCtxAbort (o : Origin) (entries : List Bytes) (s : State) : Host.Outcome State Fault Refusal :=
  .next (s.runVerb o 0x0304 fun v =>
    let c := BitVec.ofNat 18 (par v.req 16 4)
    s.onCtx o c fun x =>
      let s := if x.aborting then s else s.startAbort o c entries
      if (s.ctx c).works ≠ [] then s
      else
        let n := match s.verb o with | some v => v.acc | none => 0
        (s.endAbort c).verbDone o kOK 0 (results [(4, leBytes 4 n)]))

/-- CTX_QUERY (R47, R385). -/
def execCtxQuery (o : Origin) (s : State) : Host.Outcome State Fault Refusal :=
  .next (s.runVerb o 0x0305 fun v =>
    s.onAnyCtx o (BitVec.ofNat 18 (par v.req 16 4)) fun x => s.verbDone o kOK 0 (results [(1, x.record)]))

/-- CTX_RATE (R82, R44). -/
def execCtxRate (o : Origin) (s : State) : Host.Outcome State Fault Refusal :=
  .next (s.runVerb o 0x0306 fun v =>
    let c := BitVec.ofNat 18 (par v.req 16 4)
    s.onCtx o c fun _ => (s.modCtx c fun x => { x with rateShare := BitVec.ofNat 9 (par v.req 20 2) }).verbDone o kOK 0)

/-! ## Knocks and watch polls (R64 to R67, R473) -/

/-- A knock is dropped (R65, R473). -/
def State.knockDropped (s : State) (c : CtxNo) : State :=
  { s with regs := { s.regs with knockDrop := { s.regs.knockDrop with count := satAdd s.regs.knockDrop.count 1, last := c } } }

/-- Whether a context takes a knock's tail (R65). -/
def Ctx.takesTail (x : Ctx) (t : Nat) : Bool :=
  x.isOpen && decide (t < x.ringSize) && decide (x.dist x.tail.toNat ≤ x.dist t)

/-- The write of KNOCK (R64 to R66): a new TAIL, and fetching may go on at an entry that was not owned. R65's test holds for a
watch-mode context too, whose TAIL follows its fetches (DEDUCED, log entry 71). -/
def State.knock (s : State) (w : Word) : State :=
  let c := BitVec.ofNat 18 (bits w.toNat 17 0)
  let t := bits w.toNat 47 32
  if bits w.toNat 31 18 ≠ 0 || bits w.toNat 63 48 ≠ 0 || !(s.ctx c).takesTail t then s.knockDropped c
  else
    let s := s.modCtx c fun x => { x with tail := BitVec.ofNat 16 t, fetchHold := false }
    if (s.ctx c).state == .idle then s.toState c .ready else s

/-- KNOCK (R64). -/
def execKnock (w : Word) (s : State) : Host.Outcome State Fault Refusal := .next (if s.cpAwake then s.knock w else s)

/-- Whether a slot of the control window is KNOCK, in its own page or in an alias page (R457, R465). -/
def isKnock (slot : Nat) : Bool := slot = 0x4000 || (0x10000 ≤ slot && slot < 0x28000 && slot % 4096 = 0x108)

/-- KD_NARROW notes a refused narrower knock (R473); it lies in domain 64. -/
def State.narrowKnock (s : State) : State :=
  if s.cpAwake then { s with regs := { s.regs with knockDrop := { s.regs.knockDrop with narrow := true } } } else s

/-- KNOCK_NARROW (R64, R456, R473): a write of KNOCK that is not 64 bits wide is refused and noted. -/
def execKnockNarrow (off : BitVec 24) (strobe : BitVec 8) (s : State) : Host.Outcome State Fault Refusal :=
  .next (
    let slot := alignDown 8 off.toNat
    if !isKnock slot || strobe = 0xFF || s.keeper.phase == .off then s
    else (s.narrowKnock).cpFault (popcount 8 strobe.toNat) (if strobe = 0xF0 then slot + 4 else slot))

/-- Where a ring entry is read: a physical address, a walk to wait for, or a failure (R49, R79). -/
def State.ringRoute (s : State) (f : Nat) (x : Ctx) (a : Nat) : Route :=
  match s.route f x x.keySet (if x.priv then 4 else 0) a .read with
  | .remote _ _ => .fail 1 0
  | r => r

/-- Runs `k` on the address of ring entry `i` once it is translated in frame `f`: a walk is awaited, and a failure is a ring
fault (R79). -/
def State.withRing (s : State) (f : Nat) (c : CtxNo) (i : BitVec 16) (k : State → Nat → State) : State :=
  let x := s.ctx c
  let a := x.entryAddr i.toNat
  match s.ringRoute f x a with
  | .tap p _ l => k (s.used f l) p
  | .walk root va =>
    if s.walking fun y => y == .ring c 4 then s else (s.startWalk f root va (.ring c 4)).getD s
  | .fail kind level =>
    (s.xlateFault c x.tenant a 4 kind level).ringFault c (if kind = 1 then 0x0702 else 0x0701) 4 i
  | _ => s

/-- A bus error on a ring entry that was being read (R79, R232). -/
def State.ringBusError (s : State) (f p : Nat) (c : CtxNo) (i : BitVec 16) : State :=
  s.busError f (tapOf f p) { ctx := some c, ring := some i, tenant := (s.ctx c).tenant } false 4 (tapOf f p)
    (alignDown 128 p) 4

/-- A ring read of `n` entries at physical address `p` (R210, R213, R214, R350): a burst of the frame's service requester, with a
slot that it takes and gives back, a credit of the tap and the context's tenant. The row stands for the read from its grant
to its data (DESIGN CHOICE, log entry 138). None without a slot or a credit. -/
def State.ringRead (s : State) (f p : Nat) (c : CtxNo) (n : Nat) (data : Bytes) : Option State :=
  let t := tapOf f p
  match s.takeSlot f .service false with
  | none => none
  | some (i, pool) =>
    if (s.tap t).rdCr = 0 then none
    else
      let x := s.ctx c
      let sect := BitVec.ofNat 8 ((2 ^ (4 * n) - 1) * 2 ^ (p % 256 / 32))
      let ready := (List.range 66).filter fun r => r = 65 || (s.tryIssue t r).isSome
      let q : Slot := { (s.slot f i).claim x.tenant c with
        holder := .work c 0, space := if x.priv then 4 else 0, addr := alignDown 256 p, phys := p, want := halves sect, pool := pool }
      let d := (slice data 0 (128 * n)).zip (List.range (128 * n)) |>.foldl (fun d e => d.set 0 (p % 256 + e.2) e.1) q.data
      let s := ((s.claimSlot f i .service q).present t 65 (readOut i q false sect)).setSlotAt f i
        { q with data := d }.release
      some (s.setTap t ((s.tap t).decided ready 65))

/-- WATCH_POLL (R67, R79): the entry at FETCH_IDX of an Idle watch-mode context is read through frame `f` and makes it Ready
when it is owned; a bound one reads again the entry at which it stopped. -/
def execWatchPoll (c : CtxNo) (f : Fin 16) (data : Bytes) (fail : Bool) (s : State) : Host.Outcome State Fault Refusal :=
  .next (
    let x := s.ctx c
    if !x.watch || x.aborting || s.faults.halted then s
    else if x.state == .running then s.modCtx c fun x => { x with fetchHold := false }
    else if x.state != .idle || !s.frameUp f.val then s
    else s.withRing f.val c x.fetchIdx fun s p =>
      match s.ringRead f.val p c 1 data with
      | none => s.poolQueue f.val .service
      | some s =>
        if fail then s.ringBusError f.val p c x.fetchIdx
        else if bit (leAt data 127 1) 7 then s.toState c .ready else s)

/-! ## Binding, unbinding and preemption (R11, R52, R68, R69, R394) -/

/-- Whether a channel of a frame is free for binding; nap is allowed only where `nap` says so (R394). -/
def State.canBind (s : State) (nap : Bool) (ch : Nat) : Bool :=
  let x := s.frame (chanFrame ch)
  (s.chan ch).ctx.isNone && !x.stopped && !x.draining && !x.noBind && x.policy ≠ 3 &&
    (x.state == .run || x.state == .idle || (nap && x.state == .nap))

/-- Whether a frame has a channel free for binding. -/
def State.hasFree (s : State) (nap : Bool) (f : Nat) : Bool := (List.range 64).any fun i => s.canBind nap (64 * f + i)

/-- The frame that R11 chooses for a context. -/
def State.placeFrame (s : State) (x : Ctx) : Option Nat :=
  if x.hintValid then
    if s.hasFree true x.hintFrame.toNat then some x.hintFrame.toNat else frameNos.find? (s.hasFree false)
  else
    let fs := frameNos.filter (s.hasFree true)
    fs.foldl (fun best f =>
      match best with
      | none => some f
      | some g => if (s.boundIn f).length < (s.boundIn g).length then some f else some g) none

/-- The head of the highest non-empty Ready queue (R68); a context being aborted does not bind. -/
def State.nextReady (s : State) : Option CtxNo :=
  [7, 6, 5, 4, 3, 2, 1, 0].findSome? fun p => (s.readyQ.get [] p).find? fun c => !(s.ctx c).aborting

/-- CONTEXT_BIND (R11, R68, R394): the scheduler's clock branch runs (R390). -/
def execContextBind (ch : Fin 1024) (s : State) : Host.Outcome State Fault Refusal :=
  .next (
    if s.faults.halted || !s.clockOn 16 then s
    else match s.nextReady with
    | none => s
    | some c =>
      match s.placeFrame (s.ctx c) with
      | none => s
      | some f => if chanFrame ch.val = f && s.canBind true ch.val then s.bind c ch.val else s)

/-- Whether a Running context has fetched and completed all that it was given (R52). -/
def Ctx.spent (x : Ctx) : Bool :=
  x.works = [] && x.held = [] && (if x.watch then x.blocked || x.ringSize ≤ x.dist x.chanFetch.toNat + 1
                                  else x.chanFetch == x.tail)

/-- CONTEXT_IDLE_UNBIND (R52). -/
def execContextIdleUnbind (c : CtxNo) (s : State) : Host.Outcome State Fault Refusal :=
  .next (
    let x := s.ctx c
    if x.state == .running && x.spent && x.leave == .no && !x.failStop && !x.aborting then (s.toState c .idle).unbind c else s)

/-- PREEMPT (R69): while a context of equal or higher priority is Ready and no channel is free, a Running context leaves at
its next descriptor boundary. -/
def execPreempt (c : CtxNo) (s : State) : Host.Outcome State Fault Refusal :=
  .next (
    let x := s.ctx c
    let rival := match s.nextReady with | some d => decide (x.basePrio.toNat ≤ (s.ctx d).basePrio.toNat) | none => false
    if x.state != .running || x.leave != .no || !rival || frameNos.any (s.hasFree false) then s
    else (s.modCtx c fun x => { x with leave := .boundary }).afterDone c)

/-! ## Fetching ahead (R66, R71, R79) -/

/-- How many entries beyond its fetch index a channel may still fetch: below TAIL, or in watch mode up to DONE_IDX + S − 1
(R66, R67); it holds at most 8 (R71). -/
def Ctx.fetchRoom (x : Ctx) : Nat :=
  let at_ := x.dist x.chanFetch.toNat
  let limit := if x.watch then x.ringSize - 1 else x.dist x.tail.toNat
  min (limit - at_) (8 - x.held.length - (x.works.map Work.entries).sum)

/-- One fetched entry: an owned one is held; at an unowned one fetching stops (R66). -/
def Ctx.fetched (x : Ctx) (e : Bytes) : Ctx :=
  if x.blocked then x
  else if !bit (leAt e 127 1) 7 then { x with fetchHold := true, holdIdx := x.chanFetch }
  else
    let n := x.next x.chanFetch.toNat 1
    { x with held := x.held ++ [⟨x.chanFetch, e⟩], chanFetch := n,
             fetchIdx := if x.dist x.fetchIdx.toNat < x.dist n.toNat then n else x.fetchIdx,
             tail := if x.watch && decide (x.dist x.tail.toNat < x.dist n.toNat) then n else x.tail }

/-- DESCRIPTOR_FETCH_RETURN (R66, R71, R79): one or two ring entries arrive, or their read fails. -/
def execDescriptorFetchReturn (ch : Fin 1024) (data : Bytes) (fail : Bool) (s : State) : Host.Outcome State Fault Refusal :=
  .next (
    let f := chanFrame ch.val
    match (s.chan ch.val).ctx with
    | none => s
    | some c =>
      let x := s.ctx c
      if x.state != .running || x.leave != .no || x.failStop || x.aborting || x.blocked || !s.frameUp f ||
          s.faults.halted || x.fetchRoom = 0 then s
      else s.withRing f c x.chanFetch fun s p =>
        let two := 2 ≤ x.fetchRoom && x.chanFetch.toNat % 2 = 0 && 256 ≤ data.length
        match s.ringRead f p c (if two then 2 else 1) data with
        | none => s.poolQueue f .service
        | some s =>
          if fail then s.ringBusError f p c x.chanFetch
          else
            let s := s.modCtx c fun x => x.fetched (slice data 0 128)
            if two then s.modCtx c fun x => x.fetched (slice data 128 128) else s)

/-! ## The end of a wait (R70, R336, R337) -/

/-- WAIT_SATISFIED (R52, R336): a sleeping channel goes on with its WAIT satisfied; a descheduled context becomes Ready. -/
def execWaitSatisfied (c : CtxNo) (s : State) : Host.Outcome State Fault Refusal :=
  .next (
    let x := s.ctx c
    if x.state != .waiting || x.aborting || s.faults.halted || !s.waitMet x.waitTally.toNat x.waitValue.toNat then s
    else
      let s := s.disarm c
      if x.bound then
        (s.toState c .running).modCtx c fun x =>
          { x with works := x.works.map fun w => if w.kind == .wait then { w with lastRead := true } else w }
      else s.toState c .ready)

/-- WAIT_ENTRY_FREED (R337): a context made to sleep bound, whose wait is still unsatisfied, moves to a shared entry and leaves
its channel. -/
def execWaitEntryFreed (c : CtxNo) (s : State) : Host.Outcome State Fault Refusal :=
  .next (
    let x := s.ctx c
    if x.state != .waiting || !x.desched || !x.bound || x.sharedWait || x.aborting || !s.waitEntryFree ||
        s.waitMet x.waitTally.toNat x.waitValue.toNat then s
    else (s.unbind c).modCtx c fun x => { x with sharedWait := true, works := [] })

end Sys2Proof.Machine
end

