-- ==== Sys2Proof/Machine/Cert.lean ====
section
/-! DEFINITION. Reading X.509 v3 certificates in DER (R360), from the standards that the rule names: the values of DER (X.690), the
certificate and its basic constraints (RFC 5280), and keys and signatures of P-384 with SHA-384 (RFC 5480, RFC 5758)
(PRESUMED, log entry 10). -/
namespace Sys2Proof.Machine

/-! ## DER -/

/-- One DER value: its tag, its content, and all its bytes. -/
structure Der where
  tag : Nat
  body : Bytes
  all : Bytes
deriving DecidableEq, Repr

/-- The length octets at the front of `b`: the length they spell and how many they are. Only the shortest form is DER. -/
def derLen (b : Bytes) : Option (Nat × Nat) :=
  match b with
  | [] => none
  | x :: r =>
    let n := x.toNat
    if n < 128 then some (n, 1)
    else
      let k := n - 128
      let v := beNat (r.take k)
      if k = 0 || 4 < k || r.length < k || v < 128 || v < 256 ^ (k - 1) then none else some (v, 1 + k)

/-- The DER value at the front of `b`, and what follows it. -/
def derItem (b : Bytes) : Option (Der × Bytes) :=
  match b with
  | [] => none
  | t :: r =>
    if t.toNat % 32 = 31 then none
    else (derLen r).bind fun p =>
      let n := 1 + p.2 + p.1
      if b.length < n then none else some (⟨t.toNat, (r.drop p.2).take p.1, b.take n⟩, b.drop n)

/-- The DER values that `b` consists of, at most `n`. -/
def derItems : Nat → Bytes → Option (List Der)
  | _, [] => some []
  | 0, _ => none
  | n + 1, b => (derItem b).bind fun p => (derItems n p.2).map (p.1 :: ·)

/-- The values inside a constructed value of tag `t`. -/
def Der.inside (d : Der) (t : Nat) : Option (List Der) := if d.tag = t then derItems d.body.length d.body else none

/-- The number of a DER INTEGER that is not negative. -/
def Der.nat? (d : Der) : Option Nat :=
  match d.tag, d.body with
  | 2, x :: r =>
    if 128 ≤ x.toNat then none
    else match x.toNat, r with
    | 0, y :: _ => if y.toNat < 128 then none else some (beNat d.body)
    | _, _ => some (beNat d.body)
  | _, _ => none

/-- The bytes of a BIT STRING of whole bytes. -/
def Der.bitString? (d : Der) : Option Bytes :=
  match d.tag, d.body with
  | 3, 0 :: r => some r
  | _, _ => none

/-- A BOOLEAN: FF or 00. -/
def Der.bool? (d : Der) : Option Bool :=
  if d.tag = 1 && d.body = [0xFF] then some true else if d.tag = 1 && d.body = [0] then some false else none

/-! ## Object identifiers -/

/-- ecdsa-with-SHA384 (RFC 5758), as an algorithm identifier. -/
def algEcdsaSha384 : Bytes := [0x30, 0x0A, 0x06, 0x08, 0x2A, 0x86, 0x48, 0xCE, 0x3D, 0x04, 0x03, 0x03]

/-- id-ecPublicKey on secp384r1 (RFC 5480), as an algorithm identifier. -/
def algKeyP384 : Bytes :=
  [0x30, 0x10, 0x06, 0x07, 0x2A, 0x86, 0x48, 0xCE, 0x3D, 0x02, 0x01, 0x06, 0x05, 0x2B, 0x81, 0x04, 0x00, 0x22]

/-- id-ce-basicConstraints (RFC 5280). -/
def oidBasicConstraints : Bytes := [0x06, 0x03, 0x55, 0x1D, 0x13]

/-! ## Certificates (R360) -/

/-- What the rule asks of a certificate: its signed part, its signature (r, then s), its subject public key information, the key
as a 49 B compressed point, and its CA flag. -/
structure Cert where
  tbs : Bytes
  sig : Bytes
  spki : Bytes
  key : Bytes
  isCa : Bool
deriving DecidableEq, Repr

/-- A signature value: r and s, each below 2^384. -/
def certSig? (d : Der) : Option Bytes :=
  ((d.bitString?.bind fun b => derItems 1 b).bind fun l =>
    match l with
    | [x] => (x.inside 0x30).bind fun ns =>
        match ns.map Der.nat? with
        | [some r, some t] => if r < 2 ^ 384 && t < 2 ^ 384 then some (beBytes 48 r ++ beBytes 48 t) else none
        | _ => none
    | _ => none)

/-- The point of a key, uncompressed or compressed, as a 49 B compressed point. -/
def certPoint? (b : Bytes) : Option Bytes :=
  if b.length = 97 && b.headD 0 = 4 then
    let x := beNat (slice b 1 48)
    let y := beNat (slice b 49 48)
    if onCurve x y then some (pointEncode (some (x, y))) else none
  else if b.length = 49 && (pointDecode b).isSome then some b
  else none

/-- The key of a subject public key information. -/
def certKey? (d : Der) : Option Bytes :=
  (d.inside 0x30).bind fun l =>
    match l with
    | [a, k] => if a.all = algKeyP384 then k.bitString?.bind certPoint? else none
    | _ => none

/-- The CA flag of the value of the basic constraints. -/
def caOf (b : Bytes) : Option Bool :=
  (derItems 1 b).bind fun l =>
    match l with
    | [q] => (q.inside 0x30).bind fun fs =>
        match fs with
        | [] => some false
        | x :: _ => if x.tag = 1 then x.bool? else some false
    | _ => none

/-- The CA flag that a list of extensions sets: false without basic constraints. -/
def caFlag : List Der → Option Bool
  | [] => some false
  | e :: r =>
    (e.inside 0x30).bind fun fs =>
      match fs with
      | [o, v] => if o.all = oidBasicConstraints then (if v.tag = 4 then caOf v.body else none) else caFlag r
      | [o, c, v] => if o.all = oidBasicConstraints then (if c.bool?.isSome && v.tag = 4 then caOf v.body else none) else caFlag r
      | _ => none

/-- The CA flag of the fields that follow the key: unique identifiers, and the extensions. -/
def certCa? (l : List Der) : Option Bool :=
  match l.filter fun d => d.tag ≠ 0x81 && d.tag ≠ 0x82 with
  | [] => some false
  | [x] => (x.inside 0xA3).bind fun q =>
      match q with
      | [s] => (s.inside 0x30).bind caFlag
      | _ => none
  | _ => none

/-- The fields of a signed part of version 3: serial number, signature algorithm, issuer, validity, subject, key, and the rest. -/
def certFields (tbs : Der) : Option (Der × List Der) :=
  (tbs.inside 0x30).bind fun l =>
    match l with
    | v :: sn :: a :: iss :: val :: sub :: k :: rest =>
      if v.all = [0xA0, 3, 2, 1, 2] && sn.tag = 2 && a.all = algEcdsaSha384 && iss.tag = 0x30 && val.tag = 0x30 && sub.tag = 0x30 then
        some (k, rest)
      else none
    | _ => none

/-- One certificate, read. -/
def certRead (c : Der) : Option Cert :=
  (c.inside 0x30).bind fun l =>
    match l with
    | [tbs, a, sg] =>
      if a.all ≠ algEcdsaSha384 then none
      else (certFields tbs).bind fun p => (certSig? sg).bind fun s => (certKey? p.1).bind fun k => (certCa? p.2).map fun ca =>
        ⟨tbs.all, s, p.1.all, k, ca⟩
    | _ => none

/-- The certificates of a chain, leaf first: one to three. None when its bytes are no such chain. -/
def certChain (chain : Bytes) : Option (List Cert) :=
  (derItems 3 chain).bind fun l => if l = [] then none else l.mapM certRead

/-- Whether certificate `c` is signed by the key of certificate `by_`. -/
def Cert.signedBy (c by_ : Cert) : Bool := ecdsaVerify (pointDecode by_.key) (sha384 c.tbs) c.sig

/-- Whether each certificate is signed by the next and the last by itself. -/
def chainSigned : List Cert → Bool
  | [] => true
  | [c] => c.signedBy c
  | c :: d :: r => c.signedBy d && chainSigned (d :: r)

/-- Whether an identity chain is valid under an installation root digest (R360), but for the key of its leaf. -/
def chainValid (root chain : Bytes) : Bool :=
  match certChain chain with
  | none => false
  | some cs => chainSigned cs && (cs.drop 1).all Cert.isCa &&
      (match cs.getLast? with | some c => sha384 c.spki == root | none => false)

/-- The public key of a chain's leaf, as a 49 B compressed point; none of an unreadable chain. -/
def leafKey (chain : Bytes) : Bytes :=
  match certChain chain with
  | some (c :: _) => c.key
  | _ => []

end Sys2Proof.Machine
end

