-- ==== Sys2Proof/Machine/Links.lean ====
section
/-! DEFINITION. The links as a whole: flits (R261), keys (R267, R268), what a lost link ends (R272, R434), training (R258,
R259, R454) and the messages a link delivers (R262, R281). -/
namespace Sys2Proof.Machine

/-! ## Flits (R261) -/

/-- A flit of kind `kind` with its header fields and body. -/
def mkFlit (kind seq cls first : Nat) (body : Bytes) : Bytes :=
  leBytes 4 (kind + 4 * (seq % 4096) + 2 ^ 14 * cls + 2 ^ 17 * first) ++ slice body 0 124

/-- FL_KIND. -/
def flKind (f : Bytes) : Nat := fieldAt f 0 4 1 0
/-- FL_SEQ. -/
def flSeq (f : Bytes) : BitVec 12 := BitVec.ofNat 12 (fieldAt f 0 4 13 2)
/-- FL_CLASS. -/
def flClass (f : Bytes) : Nat := fieldAt f 0 4 16 14
/-- FL_FIRST. -/
def flFirst (f : Bytes) : Nat := fieldAt f 0 4 23 17
/-- The body of a flit. -/
def flBody (f : Bytes) : Bytes := slice f 4 124

/-- A link-control flit (R265): no sequence number, no class, and no message header starts in it. -/
def ctlFlit (body : Bytes) : Bytes := mkFlit 2 0 0 127 body

/-- An idle flit. -/
def idleFlit : Bytes := mkFlit 3 0 0 127 []

/-- Whether a flit is a link-control flit of a subtype (R265). -/
def isCtl (f : Bytes) (sub : Nat) : Bool := decide (f.length = 128) && decide (flKind f = 2) && leAt f 4 1 = sub

/-! ## Keys (R267, R268) -/

/-- The key and salt in 36 B of key material. -/
def mkLinkKey (b : Bytes) : LinkKey := ⟨slice b 0 32, slice b 32 4⟩

/-- The keys of the direction from chip `a` to chip `b`, from the shared secret and the salt. -/
def directionKey (z salt : Bytes) (a b : ChipNo) : LinkKey :=
  mkLinkKey (hkdf384 z salt ([0x47, 0x58, 0x4C, 0x20, 0x6C, 0x69, 0x6E, 0x6B] ++ leBytes 1 a.toNat ++
    leBytes 1 b.toNat) 36)

/-- The next key of a direction (R268). -/
def LinkKey.ratchet (k : LinkKey) : LinkKey :=
  mkLinkKey (hkdf384 (k.key ++ k.salt) (zeros 48) [0x47, 0x58, 0x4C, 0x20, 0x6E, 0x65, 0x78, 0x74] 36)

/-- The salt of two byte strings, that of the lower chip number first. -/
def pairSalt (a b : ChipNo) (x y : Bytes) : Bytes := sha384 (if a.toNat < b.toNat then x ++ y else y ++ x)

/-- The nonce of a seal (R267). -/
def sealNonce (k : LinkKey) (ctr : Nat) : Bytes := k.salt ++ leBytes 8 ctr

/-- Body `i` of a run under the key stream of its seal: encryption and decryption alike (R267). -/
def runCrypt (k : LinkKey) (ctr i : Nat) (body : Bytes) : Bytes :=
  List.zipWith (· ^^^ ·) body
    ((gcmStream (aesKeyWords k.key) (sealNonce k ctr) (2 + 124 * i / 16) 9).drop (124 * i % 16))

/-- The tag of a seal over the run and bytes 0 to 111 of the seal (R267). -/
def sealTag (k : LinkKey) (ctr : Nat) (run : List Bytes) (sl : Bytes) : Bytes :=
  gcmTag k.key (sealNonce k ctr) (run.flatMap (fun f => slice f 0 4) ++ slice sl 0 112) (run.flatMap flBody)

/-- The security parameters other than the identity key pair are zeroised (R372): ephemeral keys, the DRBG's state and the seeds
that lie in the expanders' input registers, which are read again. A waggle without its key starts over with a new record. -/
def State.zeroiseKeeper (s : State) : State :=
  let s := s.modKeeper fun k => { k with drbg := none, drbgCalls := 0 }
  let s := (List.range 4).foldl (fun t n => t.setSwarm n { t.swarm n with seeds := [] }) s
  linkNos.foldl (fun t l => t.modLink l fun x =>
    let x := if x.ephPriv = 0 then x else { x with ephPriv := 0, record := [] }
    match x.rekey with
    | some r => { x with rekey := some { r with priv := 0 } }
    | none => x) s

/-- 48 B of entropy from the source, and whether its samples have passed both health tests (R358). One seeding takes 1,024
samples (DESIGN CHOICE, log entry 126). -/
def State.entropy (s : State) : (Bytes × Bool) × State :=
  let p := s.draw
  let xs := (List.range 1024).map (Config.noise p.1)
  ((beBytes 48 (Config.secret p.1), repetitionOk xs && proportionOk xs), p.2)

/-- The DRBG instantiated (R358); the start-up tests of its source are unit 7's own. -/
def State.seedDrbg (s : State) : State :=
  let p := s.entropy
  p.2.modKeeper fun k => { k with drbg := some (Drbg.instantiate p.1.1), drbgCalls := 0 }

/-- A failed health test fails unit 7 (R358, R367): source 47, and the parameters that go with it are zeroised (R372). -/
def State.healthFailed (s : State) : State :=
  let s : State := { s with sec := { passed := clearBit s.sec.passed 7, failed := setBit s.sec.failed 7 } }
  (s.raise { src := 47, mid := 7, sub := 7 }).zeroiseKeeper

/-- The DRBG reseeded from the source (R358). -/
def State.reseed (s : State) : State :=
  let p := s.entropy
  if p.1.2 then p.2.modKeeper fun k => { k with drbg := k.drbg.map (·.reseed p.1.1), drbgCalls := 0 } else p.2.healthFailed

/-- A number of 384 bits of the DRBG (R357, R358), which is reseeded after every 2^16 calls. -/
def State.generate (s : State) : Nat × State :=
  let g := (s.keeper.drbg.getD ⟨zeros 32, zeros 16⟩).generate 48
  let s := s.modKeeper fun k => { k with drbg := k.drbg.map fun _ => g.2, drbgCalls := k.drbgCalls + 1 }
  (beNat g.1, if 65536 ≤ s.keeper.drbgCalls then s.reseed else s)

/-- An ephemeral private key (R268). -/
def State.ephemeral (s : State) : Nat × State :=
  let p := s.generate
  (p.1 % (p384n - 1) + 1, p.2)

/-! ## Sizes and events -/

/-- The round trip in nanoseconds: half of the transport cycles, rounded up. -/
def Link.rttNs (x : Link) : Nat := ceilDiv x.rtt 2

/-- Credits in flight over a round trip, C of R274. -/
def slotsOf (rate : Bool) (rtt : Nat) : Nat := if rate then ceilDiv (rtt * 1379) 1600 else ceilDiv (rtt * 197) 400

/-- The grant G of R274. -/
def grantOf (rate : Bool) (rtt : Nat) : Nat := min 2048 (max 256 (ceilDiv (5 * slotsOf rate rtt) 4))

/-- A link record (type 0x07, R416). -/
def linkEvent (l : Nat) (x : Link) (code cause : Nat) : EvRec :=
  evInfo 0x07 0 (leBytes 1 l ++ leBytes 1 code ++ leBytes 1 (if x.peerRec = [] then 0xFF else x.partner.toNat) ++
    leBytes 1 cause ++ leBytes 4 x.rttNs ++ leBytes 2 x.grant ++ zeros 6)

/-- A link protocol error (R264, R279; source 48). -/
def State.linkProtocol (s : State) (l : Nat) : State := s.raise { src := 48, mkind := 5, mid := l, addr := l }

/-! ## Lost links (R272, R434) -/

/-- Whether a message is this engine's write or lid. -/
def State.ownGroupMsg (s : State) (m : Msg) : Bool := m.src == s.inp.chipId && (m.op == opWrite || m.op == opLid)

/-- The messages on a link that SL_ACK has not passed. -/
def Link.unacked (x : Link) : List Msg := x.replay.flatMap (·.msgs) ++ x.txq.flatMap (·.2)

/-- The lid groups that a lost link takes with it: (chip, group). -/
def State.lostGroups (s : State) (x : Link) : List (ChipNo × Nat) :=
  ((x.unacked.filter s.ownGroupMsg).map fun m => (m.dst, m.group)).eraseDups

/-- The remote reads whose READ went on a link, or waits for it: (chip, tag). -/
def State.lostReads (s : State) (l : Nat) (x : Link) : List (ChipNo × Nat) :=
  (s.fabric.txReads.filter fun e => e.2.used && (e.2.via == some l ||
    x.unacked.any fun m => m.op == opRead && m.src == s.inp.chipId && decide (m.dst.toNat = e.1 / 1024) &&
      decide (m.tag.toNat = e.1 % 1024))).map fun e => (BitVec.ofNat 6 (e.1 / 1024), e.1 % 1024)

/-- A read without its data is sent again once, on another route, or ends with REMOTE_DOWN. -/
def State.readAgain (s : State) (c : ChipNo) (t : Nat) : State :=
  let r := s.txRead c t
  match r.used, r.msg with
  | true, some m =>
    if r.again || !s.hasRoute c then s.failRead c t 0x0804
    else (s.setTxRead c t { r with again := true, via := none }).sendMsg m
  | _, _ => s

/-- Requests that wait for a chip without a route, or whose record shows it quiescing, end with REMOTE_DOWN (R298). -/
def State.noRoute (s : State) (c : ChipNo) : State :=
  if s.remoteUp c then s
  else (s.partner c).out.foldl (fun t m =>
    if m.op == opRead then t.failRead c m.tag.toNat 0x0804 else t.failGroup c m.group 0x0804) s

/-- The last link in service to a partner is gone: admission starts over both ways (R434). -/
def State.partnerLost (s : State) (c : ChipNo) : State :=
  if s.directSet c ≠ [] then s
  else (s.modPartner c fun p => { out := p.out, ctlAgain := p.ctlAgain }).modFabric fun f =>
    { f with admitQ := f.admitQ.filter (· ≠ c) }

/-- The transit messages that wait for another link in the receive buffer of a lost link are discarded with it (R272); one
already begun goes on. -/
def State.dropTransit (s : State) (x : Link) : State :=
  let gone (m : Msg) : Bool := m.buf.any (x.rxBuf.map (·.id)).contains
  let kept (y : Link) (cls : Nat) (q : List Msg) : List Msg :=
    let begun := min 1 (y.txPos.get 0 cls)
    q.take begun ++ (q.drop begun).filter (!gone ·)
  if x.rxBuf = [] then s
  else linkNos.foldl (fun t k => t.modLink k fun y => { y with txq := y.txq.mapAll [] (kept y) }) s

/-- The receive buffers whose transit messages have left. -/
def State.bufSettleAll (s : State) : State := linkNos.foldl State.bufSettle s

/-- The cause code of a lost link: where no rule names it, a free value (R272, R416). -/
def State.lossCause (s : State) : Option Nat → Nat × State
  | some c => (c, s)
  | none => (bits (Config.freeWord s.draw.1).toNat 7 0, s.draw.2)

/-- Link `l`, which held `x`, is gone: the fault or the record, the partner's loss, and the outcomes of the work in flight by the
table Outcomes of a lost link (R272). -/
def State.linkLost (s : State) (l : Nat) (x : Link) (cause : Nat) (fault : Bool) : State :=
  let ev := linkEvent l x 2 cause
  let groups := s.lostGroups x
  let reads := s.lostReads l x
  let s := ((s.setLink l { ({} : Link) with out := x.out }).dropTransit x).bufSettleAll
  let s := if fault then s.raiseWith { src := 49, mkind := 5, mid := l, sub := cause, addr := l } (some ev) else s.event ev
  let s := if x.rxKey.isSome then s.partnerLost x.partner else s
  let s := groups.foldl (fun t e => t.failGroup e.1 e.2 0x0804) s
  let s := reads.foldl (fun t e => t.readAgain e.1 e.2) s
  let s := chipNos.foldl State.noRoute s
  match x.rekey with
  | some ⟨some o, _, _, _, _⟩ => s.verbEnd o 0x0A02 kNotReady l
  | _ => s

/-- Takes link `l` down (R272): the link record, with source 49 and its sub-code when `fault` is set; buffers and keys are
gone, TRAIN_REQ falls, and in-flight work ends by the table Outcomes of a lost link. Where no rule names the cause its code is
a free value. -/
def State.linkDown (s : State) (l : Nat) (cause : Option Nat) (fault : Bool := true) : State :=
  let x := s.link l
  if x.state == .down || x.state == .training then s
  else
    let p := s.lossCause cause
    p.2.linkLost l x p.1 fault

/-! ## Training (R258, R259, R272, R431, R454) -/

/-- Whether the engine wants link `l`: training has been asked for since start-up, and neither its cipher units nor unit 6
are failed (R367); a quiesce that has taken the links down wants none (R435). -/
def State.linkWanted (s : State) (l : Nat) : Bool :=
  s.keeper.trainAsked && (match s.keeper.quiesce with | some q => decide (q.step < 3) | none => true) && !s.unitFailed (2 + quadrant l) && !s.unitFailed 6

/-- Raises TRAIN_REQ of link `l` and powers its quadrant and the quadrant's cipher units (R258, R392). -/
def State.askTraining (s : State) (l : Nat) : State :=
  if (s.link l).state == .down && s.linkWanted l then
    ((s.setLink l { (s.link l) with state := .training, trainReq := true }).powerUp (57 + quadrant l)).powerUp
      (62 + quadrant l / 2)
  else s

/-- LINK_RETRAINING_REQUEST (R454): after 1 µs low, TRAIN_REQ rises again. -/
def execLinkRetrainingRequest (l : Fin 18) (s : State) : Host.Outcome State Fault Refusal := .next (s.askTraining l.val)

/-- LANE_LOSS (R272). -/
def execLaneLoss (l : Fin 18) (s : State) : Host.Outcome State Fault Refusal := .next (s.linkDown l.val (some 2))

/-- SEAL_SILENCE_TIMEOUT (R272): no seal has verified for 1 ms on a link that has keys. -/
def execSealSilenceTimeout (l : Fin 18) (s : State) : Host.Outcome State Fault Refusal :=
  .next (if (s.link l.val).rxKey.isSome then s.linkDown l.val (some 1) else s)

/-- LINK_TRAINED (R259, R273, R454): eight lanes at one rate start the measurement with 8 echoes; an unknown rate raises
source 52; anything else leaves the link down. -/
def execLinkTrained (l : Fin 18) (lanes : BitVec 8) (rates : BitVec 16) (s : State) :
    Host.Outcome State Fault Refusal :=
  .next (
    let rate (j : Nat) := bits rates.toNat (2 * j + 1) (2 * j)
    let x := s.link l.val
    if (List.range 8).any (fun j => rate j = 3) then
      s.raise { src := 52, mkind := 5, mid := l.val, sub := 2, addr := l.val }
    else if x.state == .training && lanes == 0xFF && (rate 0 = 1 || rate 0 = 2) &&
        (List.range 8).all (fun j => rate j = rate 0) then
      s.setLink l.val { ({} : Link) with state := .measuring, trainReq := true, rate := rate 0 = 2, echoDue := 8, out := x.out }
    else s)

/-! ## Delivering messages (R262, R264, R281) -/

/-- Messages parsed from the bytes of one class, over `n` steps: the bytes of a message that goes on, the messages, and
how many broke R264. A zero byte where a header would start is filling (R262); after a header that names no operation, whose
message has no known length, the rest of the flit is skipped (DEDUCED, log entry 125). -/
def parseMsgs : Nat → Bytes → Bytes × List Msg × Nat
  | 0, b => (b, [], 0)
  | n + 1, b =>
    if b = [] || leAt b 0 1 = 0 then ([], [], 0)
    else if b.length < 16 then (b, [], 0)
    else if msgUnknown b then ([], [], 1)
    else if b.length < msgSize b then (b, [], 0)
    else
      let q := parseMsgs n (b.drop (msgSize b))
      if msgBad (b.take (msgSize b)) then (q.1, q.2.1, q.2.2 + 1) else (q.1, decodeMsg b :: q.2.1, q.2.2)

/-- One message that link `l` has released in a class: for this engine, kept for its row; otherwise forwarded one hop in the
transit class, answered with REFUSE 9 of this engine (R263, R289), or discarded. A halted engine forwards nothing (R378). -/
def State.deliver (s : State) (l cls : Nat) (m : Msg) : State :=
  if m.dst = s.inp.chipId then s.modLink l fun x => { x with rxq := x.rxq ++ [(cls, m)] }
  else
    let set := s.directSet m.dst
    let refuse (reason : Nat) : State :=
      if msgClass m.op ≠ 1 then s
      else s.sendMsg { s.msg opRefuse m.src m.tag (BitVec.ofNat 64 reason) with addr := m.addr }
    if cls ≠ 1 && cls ≠ 3 then s
    else if s.faults.halted then refuse 6
    else if set = [] then refuse 9
    else
      let p := s.nextLink m.dst set
      p.2.modLink p.1 fun x => x.queue (cls + 1) m

/-- Messages of one flit, the first of which goes on from flits `old`, with the flits of the receive buffer that hold them. -/
def bufMsgs (old : List Nat) (id : Nat) : List Msg → List Msg
  | [] => []
  | m :: r => { m with buf := old ++ [id] } :: r.map fun q => { q with buf := [id] }

/-- The plain bytes of one flit of a verified run are parsed in their class (R262). The flit stays in the receive buffer until
its messages have left it (R274). -/
def State.openFlit (s : State) (l : Nat) (f body : Bytes) : State :=
  let x := s.link l
  let c := flClass f
  let id := s.fabric.nextBuf
  let part := x.rxPart.get [] c
  let old := x.rxPartIn.get [] c
  let b := if part = [] then body.drop (min 124 (flFirst f)) else part ++ body
  let r := parseMsgs 16 b
  let kept := if msgBad (b.take (msgSize b)) then [] else old
  let goesOn := if r.1 = [] then [] else if r.2.1 = [] && r.2.2 = 0 then old ++ [id] else [id]
  let s := s.setLink l { x with rxPart := x.rxPart.set [] c r.1, rxPartIn := x.rxPartIn.set [] c goesOn,
                                rxBuf := x.rxBuf ++ [⟨id, c, false⟩] }
  let s := s.modFabric fun y => { y with nextBuf := id + 1 }
  let s := (bufMsgs kept id r.2.1).foldl (fun t m => t.deliver l c m) s
  (List.range r.2.2).foldl (fun t _ => t.linkProtocol l) (s.bufSettle l)

end Sys2Proof.Machine
end

