-- ==== Sys2Proof/Machine/Flits.lean ====
section
/-! DEFINITION. Sending and receiving flits: packing (R262), seals (R266, R267), key changes (R268, R269), credits (R275),
acknowledgement and replay (R270, R271), and echoes on the way out (R273). -/
namespace Sys2Proof.Machine

/-! ## Rekeying (R269) -/

/-- Whether a rekey's new keys have carried a verified seal in each direction. -/
def Link.rekeyed (x : Link) (r : Rekey) : Bool :=
  r.answered && r.rxDone && match r.txSeal with | some q => !x.replay.any (·.seq == q) | none => false

/-- The end of a rekey on link `l`, if it has come: the link record with event 4, and the verb completes (R269). -/
def State.rekeyCheck (s : State) (l : Nat) : State :=
  let x := s.link l
  match x.rekey with
  | none => s
  | some r =>
    if !x.rekeyed r then s
    else
      let s := (s.setLink l { x with rekey := none }).event (linkEvent l x 4 0)
      match r.origin with
      | some o => s.verbEnd o 0x0A02 kOK 0
      | none => s

/-- A REKEY message with our new ephemeral public key (R264, R269). -/
def State.rekeyMsg (s : State) (l priv : Nat) : Msg :=
  s.msg opRekey (s.link l).partner 0 0 (pointEncode (pubKey priv) ++ zeros 15)

/-- A fresh exchange: a REKEY goes out on this link under the current key. -/
def State.startRekey (s : State) (l : Nat) (o : Option Origin) : State :=
  let p := s.ephemeral
  let m := p.2.rekeyMsg l p.1
  p.2.modLink l fun x => { (x.queue 0 m) with rekey := some ⟨o, p.1, false, none, false⟩ }

/-- The partner's public key has come: the new keys of both directions (R268, R269), and our private key is zeroised
(R372). A key that is no point of the curve ends the link as a protocol error. -/
def State.rekeyAnswer (s : State) (l : Nat) (key : Bytes) : State :=
  let x := s.link l
  match x.rekey with
  | none => s
  | some r =>
    match ecdh r.priv (pointDecode key) with
    | none => (s.linkProtocol l).linkDown l none
    | some z =>
      let me := s.inp.chipId
      let salt := pairSalt me x.partner (pointEncode (pubKey r.priv)) key
      s.setLink l { x with
        txNext := some (directionKey z salt me x.partner), rxNext := some (directionKey z salt x.partner me),
        rekey := some { r with priv := 0, answered := true } }

/-- REKEY (R269): the answer to our own exchange, or the partner's exchange, which is answered and taken. A further one
waits until the exchange under way has ended. -/
def execRekey (l : Fin 18) (s : State) : Host.Outcome State Fault Refusal :=
  .next (s.takeMsg l.val opRekey fun m =>
    let key := slice m.data 0 49
    match (s.link l.val).rekey with
    | some r => if r.answered then none else some (s.rekeyAnswer l.val key, true)
    | none =>
      if !s.unitPassed 6 || !s.unitPassed 7 then none
      else
        let s := s.reseed
        if s.unitFailed 7 then some (s, false) else some ((s.startRekey l.val none).rekeyAnswer l.val key, true))

/-- LINK_REKEY (R269, R358, R367): the DRBG is reseeded and a fresh exchange starts; NOT_READY with the link number when the
link is not up. -/
def execLinkRekey (o : Origin) (s : State) : Host.Outcome State Fault Refusal :=
  .next (s.runVerb o 0x0A02 fun v =>
    let l := par v.req 16 1
    if s.unitFailed 6 then s.verbDone o kTestFailed 6
    else if s.unitFailed 7 then s.verbDone o kTestFailed 7
    else if (s.link l).state != .service then s.verbDone o kNotReady l
    else if !s.unitPassed 6 || !s.unitPassed 7 || (s.link l).rekey.isSome then s
    else
      let s := s.reseed
      if s.unitFailed 7 then s.verbDone o kTestFailed 7 else (s.startRekey l (some o)).verbDrains o)

/-- REKEY_TIMEOUT (R269): no answer has come within 10 ms, so the link goes down and the verb completes NOT_READY. -/
def execRekeyTimeout (l : Fin 18) (s : State) : Host.Outcome State Fault Refusal :=
  .next (
    match (s.link l.val).rekey with
    | some ⟨some _, _, false, _, _⟩ => s.linkDown l.val none
    | _ => s)

/-! ## Sending (R260, R262, R266, R275) -/

/-- Messages packed from body offset `off`, the first one from byte `pos` on (R262): the bytes, FL_FIRST, the messages
that end, those left, and how far the first of them has been sent. -/
def packMsgs : List Msg → Nat → Nat → Bytes × Nat × List Msg × List Msg × Nat
  | [], _, off => (zeros (124 - off), 127, [], [], 0)
  | m :: r, pos, off =>
    let b := (encodeMsg m).drop pos
    let room := 124 - off
    let first := if pos = 0 then off else 127
    if room = 0 then ([], 127, [], m :: r, pos)
    else if b.length ≤ room then
      let q := packMsgs r 0 (off + b.length)
      (b ++ q.1, min first q.2.1, m :: q.2.2.1, q.2.2.2.1, q.2.2.2.2)
    else (b.take room, first, [], m :: r, pos + room)

/-- What a class may send: in the halted state only control messages, REFUSE, and the rest of a message already begun
(R378). -/
def Link.sendable (x : Link) (halted : Bool) (c : Nat) : List Msg :=
  let q := x.txq.get [] c
  if !halted || c = 0 then q
  else if x.txPos.get 0 c = 0 then q.filter (·.op == opRefuse) else q.take 1 ++ (q.drop 1).filter (·.op == opRefuse)

/-- The class of the next message flit: the first in rotation with a message and a credit of its own or a shared one
(R275). -/
def Link.nextClass (x : Link) (halted : Bool) : Option Nat :=
  if x.state != .service || 2048 ≤ x.replay.length then none
  else ((List.range 5).map fun i => (x.txSeq.toNat + i) % 5).find? fun c =>
    !(x.sendable halted c).isEmpty && (0 < x.txCr.getD c 0 || 0 < x.txCr.getD 5 0)

/-- A message has left on link `l`: a LID's departure (R298) and the link of a READ (R272) are noted. -/
def State.leftOn (s : State) (l : Nat) (m : Msg) : State :=
  if m.src != s.inp.chipId then s
  else if m.op == opLid then
    let g := s.txGroup m.dst m.group
    if g.used && g.closed then s.setTxGroup m.dst m.group { g with lidSent := true } else s
  else if m.op == opRead then
    let r := s.txRead m.dst m.tag.toNat
    if r.used then s.setTxRead m.dst m.tag.toNat { r with via := some l } else s
  else s

/-- A message flit of class `c` (R262, R266, R275): packed, encrypted under the current seal counter, kept for replay; transit
messages that end in it leave the receive buffer they waited in (R274). -/
def State.sendMessages (s : State) (l c : Nat) (k : LinkKey) : State :=
  let x := s.link l
  let p := packMsgs (x.sendable s.faults.halted c) (x.txPos.get 0 c) 0
  let body := runCrypt k x.txCtr.toNat x.txRun.length p.1
  let f := mkFlit 0 x.txSeq.toNat c p.2.1 body
  let cr := (List.range 6).map fun i =>
    x.txCr.getD i 0 - if i = (if 0 < x.txCr.getD c 0 then c else 5) then 1 else 0
  let x := { x with
    txq := x.txq.set [] c p.2.2.2.1, txPos := x.txPos.set 0 c p.2.2.2.2, txRun := x.txRun ++ [f], txCr := cr,
    txSeq := x.txSeq + 1, sinceSeal := x.sinceSeal + 1, replay := x.replay ++ [⟨x.txSeq, f, p.2.2.1⟩], out := some f }
  let t := p.2.2.1.foldl (fun t m => t.leftOn l m) (s.setLink l x)
  if p.2.2.1.all (·.buf.isEmpty) then t else t.bufSettleAll

/-- The seal of the current run before its tag (R266): bytes 0 to 111. -/
def Link.sealHead (x : Link) : Bytes :=
  leBytes 4 (1 + 4 * x.txSeq.toNat + 2 ^ 17 * 127) ++ leBytes 8 x.txCtr.toNat ++
    leBytes 1 (b2n x.txEpoch + 2 * b2n x.nak) ++ leBytes 2 x.rxSeq.toNat ++ leBytes 1 x.txRun.length ++
    ((List.range 6).flatMap fun i => leBytes 2 (x.rxFree.getD i 0)) ++ zeros 84

/-- The ratchet of the sender's key when its counter has reached 2^31 (R268), with the link record of event 5. -/
def State.txRatchet (s : State) (l : Nat) : State :=
  let x := s.link l
  match x.txKey with
  | some k =>
    if x.txCtr = 0x80000000 then
      (s.setLink l { x with txKey := some k.ratchet, txCtr := 0, txEpoch := !x.txEpoch }).event (linkEvent l x 5 0)
    else s
  | none => s

/-- A seal (R266): it closes the run, returns credits and acknowledges; then the counter rises. One sent during a replay goes
again at the replay's end, since the receiver takes it only in sequence (R270). -/
def State.sendSeal (s : State) (l : Nat) (k : LinkKey) : State :=
  let x := s.link l
  let h := x.sealHead
  let f := h ++ sealTag k x.txCtr.toNat x.txRun h
  let rk := x.rekey.map fun r =>
    if r.answered && r.txSeal.isNone && x.txNext.isNone then { r with txSeal := some x.txSeq } else r
  (s.setLink l { x with
    txRun := [], txSeq := x.txSeq + 1, txCtr := x.txCtr + 1, sinceSeal := 0, nak := false, rxFree := [], rekey := rk,
    replay := x.replay ++ [⟨x.txSeq, f, []⟩], replayAt := if x.replayAt = [] then [] else x.replayAt ++ [⟨x.txSeq, f, []⟩],
    out := some f }).txRatchet l

/-- The switch of the sender to the keys of a rekey (R269): between runs, once our own REKEY has left under the old key. A
ratchet under whose key no seal has left has toggled SL_EPOCH already. -/
def Link.switchTx (x : Link) : Link :=
  match x.txNext with
  | some k =>
    if x.txRun = [] && !(x.txq.get [] 0).any (·.op == opRekey) then
      { x with txKey := some k, txNext := none, txCtr := 0, txEpoch := if x.txCtr = 0 then x.txEpoch else !x.txEpoch }
    else x
  | none => x

/-- Sends a flit that is neither sequenced nor sealed. -/
def Link.drive (x : Link) (f : Bytes) : Link :=
  { x with out := some f, sinceSeal := if x.txKey.isSome then x.sinceSeal + 1 else 0 }

/-- Whether the next flit must be a seal (R266): the run holds 31 flits and no replay is under way, which would send its last
flit again, or 63 slots have passed without one. -/
def Link.sealDue (x : Link) : Bool := x.txKey.isSome && (decide (63 ≤ x.sinceSeal) || (decide (31 ≤ x.txRun.length) && x.replayAt = []))

/-- FLIT_SEND (R260, R266, R270, R271, R273, R275, R366): what a port sends in one slot: an ECHO_REPLY first, then a seal that
is due, the idle flits of a test of its cipher units, other link-control flits, echoes, a replay, a message flit, the seal of
an open run, and otherwise an idle flit (DEDUCED, log entry 127). `now` is the transport cycle count that an ECHO carries. -/
def execFlitSend (l : Fin 18) (now : Word) (s : State) : Host.Outcome State Fault Refusal :=
  .next (
    let s := s.modLink l.val Link.switchTx
    let x := s.link l.val
    match x.ctl.find? (isCtl · 2), x.ctl, x.replayAt, x.txKey with
    | some f, c, _, _ => s.setLink l.val { (x.drive f) with ctl := c.erase f }
    | none, c, rp, key =>
      match (if x.sealDue then key else none) with
      | some k => s.sendSeal l.val k
      | none =>
        if 0 < x.idleOwed then s.setLink l.val { (x.drive idleFlit) with idleOwed := x.idleOwed - 1 }
        else match c, rp, key with
        | f :: r, _, _ => s.setLink l.val { (x.drive f) with ctl := r }
        | [], rp, key =>
          if 0 < x.echoDue then
            s.setLink l.val { (x.drive (ctlFlit ([1] ++ leBytes 8 now.toNat))) with echoDue := x.echoDue - 1 }
          else match rp, key with
          | e :: r, _ =>
            s.setLink l.val { (x.drive e.bytes) with replayAt := r, sinceSeal := if flKind e.bytes = 1 then 0 else x.sinceSeal + 1 }
          | [], none => s.setLink l.val (x.drive idleFlit)
          | [], some k =>
            match x.nextClass s.faults.halted with
            | some c => s.sendMessages l.val c k
            | none => if x.txRun ≠ [] then s.sendSeal l.val k else s.setLink l.val (x.drive idleFlit))

/-- SEAL_PERIODIC (R266): 63 slots have passed without a seal, so one goes out, with SL_RUN 0 if the run is empty. -/
def execSealPeriodic (l : Fin 18) (s : State) : Host.Outcome State Fault Refusal :=
  .next (
    let s := s.modLink l.val Link.switchTx
    let x := s.link l.val
    match x.txKey with
    | some k => if 63 ≤ x.sinceSeal then s.sendSeal l.val k else s
    | none => s)

/-! ## Receiving (R266, R267, R270, R271) -/

/-- IDLE_FLIT_RECEIVE (R265): an idle flit is discarded; it carries no sequence number. -/
def execIdleFlitReceive (l : Fin 18) (flit : Bytes) (s : State) : Host.Outcome State Fault Refusal :=
  .next (match l, flit with | _, _ => s)

/-- MESSAGE_FLIT_RECEIVE (R270): a kind-0 flit in sequence is held for its run's seal; any other is discarded. -/
def execMessageFlitReceive (l : Fin 18) (flit : Bytes) (s : State) : Host.Outcome State Fault Refusal :=
  .next (
    let x := s.link l.val
    if flit.length = 128 && flKind flit = 0 && x.rxKey.isSome && flSeq flit == x.rxSeq then
      s.setLink l.val { x with rxRun := x.rxRun ++ [flit], rxSeq := x.rxSeq + 1 }
    else s)

/-- A replay from SL_ACK (R271); after 16 that have not advanced it, the link goes down (R272). -/
def State.replay (s : State) (l : Nat) : State :=
  let x := s.link l
  if x.replay = [] then s
  else if 16 ≤ x.replays then s.linkDown l (some 0)
  else s.setLink l { x with replayAt := x.replay, replays := x.replays + 1 }

/-- REPLAY_TIMEOUT (R271): the acknowledgements have not advanced. -/
def execReplayTimeout (l : Fin 18) (s : State) : Host.Outcome State Fault Refusal := .next (s.replay l.val)

/-- The acknowledgement of a seal (R271): the flits that SL_ACK has passed leave the replay buffer. -/
def Link.ackTo (x : Link) (a : BitVec 12) : Link :=
  match x.replay with
  | [] => x
  | e :: _ =>
    let n := (a - e.seq).toNat
    if n = 0 || x.replay.length < n then x
    else
      let gone := (x.replay.take n).map (·.seq)
      { x with replay := x.replay.drop n, replayAt := x.replayAt.filter (fun f => !gone.contains f.seq), replays := 0 }

/-- The credits a seal returns (R275): dedicated credits up to 32, the rest to the shared pool. -/
def Link.creditBack (x : Link) (cr : List Nat) : Link :=
  let t := (List.range 5).map fun i => x.txCr.getD i 0 + cr.getD i 0
  let extra := (t.map fun n => n - 32).sum
  { x with txCr := t.map (min 32) ++ [x.txCr.getD 5 0 + cr.getD 5 0 + extra] }

/-- The keys, counters and kinds (0 current, 1 rekeyed, 2 ratcheted) that a seal of an epoch may stand under (R268, R269). -/
def Link.sealKeys (x : Link) (epoch : Bool) : List (LinkKey × Nat × Nat) :=
  match x.rxKey with
  | none => []
  | some k =>
    if epoch = x.rxEpoch then [(k, x.rxCtr.toNat, 0)]
    else (match x.rxNext with | some n => [(n, 0, 1)] | none => []) ++
      (if x.rxCtr = 0x80000000 then [(k.ratchet, 0, 2)] else [])

/-- Whether a seal verifies its run (R270), and under which key. -/
def Link.verify (x : Link) (f : Bytes) : Option (LinkKey × Nat × Nat) :=
  (x.sealKeys (bit (leAt f 12 1) 0)).find? fun p =>
    leAt f 4 8 = p.2.1 && fieldAt f 15 1 4 0 = x.rxRun.length && slice f 112 16 == sealTag p.1 p.2.1 x.rxRun f

/-- SEAL_RECEIVE (R266, R268, R270, R271, R274): out of sequence it is discarded. A run that does not verify is discarded
and asked for again, with source 50. A verified one releases its messages, and the seal's acknowledgement, NAK and credits
are taken. -/
def execSealReceive (l : Fin 18) (flit : Bytes) (s : State) : Host.Outcome State Fault Refusal :=
  .next (
    let n := l.val
    let x := s.link n
    if !(flit.length = 128 && flKind flit = 1 && x.rxKey.isSome && flSeq flit == x.rxSeq) then s
    else match x.verify flit with
    | none =>
      (s.setLink n { x with rxRun := [], rxSeq := x.rxSeq - BitVec.ofNat 12 x.rxRun.length, nak := true }).raise
        { src := 50, mkind := 5, mid := n, addr := n }
    | some (k, ctr, how) =>
      let run := x.rxRun
      let rk : Option Rekey := x.rekey.map fun r => { r with rxDone := r.rxDone || how = 1 }
      let x : Link := { x with
        rxRun := [], rxSeq := x.rxSeq + 1, rxCtr := BitVec.ofNat 64 (ctr + 1), rxKey := some k,
        rxEpoch := bit (leAt flit 12 1) 0, rxNext := if how = 1 then none else x.rxNext, rekey := rk }
      let x := (x.ackTo (BitVec.ofNat 12 (fieldAt flit 13 2 11 0))).creditBack
        ((List.range 6).map fun i => leAt flit (16 + 2 * i) 2)
      let s := s.setLink n x
      let s := (List.range run.length).foldl (fun t i =>
        let f := run.getD i []
        t.openFlit n f (runCrypt k ctr i (flBody f))) s
      let s := s.rekeyCheck n
      if bit (leAt flit 12 1) 1 then s.replay n else s)

end Sys2Proof.Machine
end

