-- ==== Sys2Proof/Machine/Waggle.lean ====
section
/-! DEFINITION. Measuring a link (R273, R274) and waggle: records, chains and their parts, checks, and the link's entry into
service (R268, R276 to R279, R360). -/
namespace Sys2Proof.Machine

/-! ## Records (R276, R279) -/

/-- WG_STATE: 0 starting, 1 ready, 2 quiescing (R432, R435). -/
def State.wgState (s : State) : Nat :=
  if s.keeper.quiesce.isSome then 2 else if s.fabric.ready then 1 else 0

/-- WG_NEIGH: the chips to which a link is in service. -/
def State.wgNeigh (s : State) : Nat :=
  (chipNos.filter fun c => s.directSet c ≠ []).foldl (fun a c => a + 2 ^ c.toNat) 0

/-- Bytes 0 to 159 of the record that this engine sends on link `l`. -/
def State.recordHead (s : State) (l serial : Nat) (epub : Bytes) : Bytes :=
  let x := s.link l
  leBytes 1 1 ++ leBytes 1 s.inp.chipId.toNat ++ leBytes 1 l ++ leBytes 1 s.wgState ++
    leBytes 2 s.keeper.running.ifVer.toNat ++ leBytes 1 (b2n x.rate) ++ leBytes 1 0 ++ leBytes 8 s.wgNeigh ++
    leBytes 4 x.rttNs ++ leBytes 2 x.grant ++ leBytes 2 2048 ++ leBytes 8 serial ++ epub ++ zeros 15 ++
    sha384 (pointEncode (pubKey (s.keeper.idKey.getD 0))) ++ zeros 16

/-- One part of a record or chain (R277): a link-control flit. -/
def partFlit (sub i : Nat) (last : Bool) (payload : Bytes) (serial : Nat) : Bytes :=
  ctlFlit (leBytes 1 sub ++ leBytes 1 (i + 128 * b2n last) ++ leBytes 2 payload.length ++ leBytes 4 serial ++ payload)

/-- The parts of a byte string, 116 B each but the last (R277). -/
def parts (sub : Nat) (b : Bytes) (serial : Nat) : List Bytes :=
  let n := ceilDiv b.length 116
  (List.range n).map fun i => partFlit sub i (i + 1 = n) ((b.drop (116 * i)).take 116) serial

/-- A record acknowledgement (R277). -/
def ackFlit (serial : Nat) : Bytes := ctlFlit (leBytes 1 5 ++ zeros 3 ++ leBytes 4 serial)

/-- Every part of the current record, the chain first for serial 1 (R277). -/
def State.recordParts (s : State) (l : Nat) : List Bytes :=
  let x := s.link l
  (if x.serial = 1 then parts 4 s.keeper.idChain 1 else []) ++ parts 3 x.record (x.serial.toNat % 2 ^ 32)

/-- Sends a record with the next serial on link `l`, signed by the identity key (R276, R279). -/
def State.sendRecord (s : State) (l : Nat) (epub : Bytes) : State :=
  let x := s.link l
  let h := s.recordHead l (x.serial.toNat + 1) epub
  let p := s.generate
  let rec_ := h ++ ecdsaSign (s.keeper.idKey.getD 0) p.1 (sha384 h)
  let s := p.2.setLink l { x with serial := x.serial + 1, record := rec_, acked := false }
  s.modLink l fun y => { y with ctl := y.ctl ++ s.recordParts l }

/-- WG_EPUB of the record sent last. -/
def Link.epub (x : Link) : Bytes := slice x.record 32 49

/-- Whether the keeper can sign and agree keys: the firmware runs and has tested its units, units 6 and 7 have passed, the identity key is held, and
the factory strap is clear (R369, R431); an invalid chain leaves the engine without links (R360). -/
def State.canWaggle (s : State) : Bool :=
  (s.keeper.phase == .tests && s.keeper.testsDone || s.keeper.phase == .ready) && s.unitPassed 6 && s.unitPassed 7 && s.keeper.idKey.isSome &&
    s.keeper.chainOk && !s.inp.ftest

/-- WAGGLE start (R276, R278): a measured link sends its record, with a fresh ephemeral key unless the link has one in use. -/
def State.waggleStart (s : State) (l : Nat) : State :=
  let x := s.link l
  if x.state != .waggle || !s.canWaggle || !(s.unitPassed (2 + quadrant l)) then s
  else if x.record ≠ [] then s.sendRecord l x.epub
  else
    let p := s.ephemeral
    (p.2.modLink l fun x => { x with ephPriv := p.1 }).sendRecord l (pointEncode (pubKey p.1))

/-- WAGGLE_RESEND (R279): WG_STATE or WG_NEIGH differs from the record sent last, so a record goes out again. -/
def State.waggleResend (s : State) (l : Nat) : State :=
  let x := s.link l
  let up := x.state == .waggle || x.state == .held || x.state == .service
  if up && x.record ≠ [] && s.canWaggle && (leAt x.record 3 1 ≠ s.wgState || leAt x.record 8 8 ≠ s.wgNeigh) then
    s.sendRecord l x.epub
  else s

/-- Every link's record goes out again where it has changed. -/
def State.resendAll (s : State) : State := linkNos.foldl State.waggleResend s

/-- WAGGLE_RESEND (R279). -/
def execWaggleResend (l : Fin 18) (s : State) : Host.Outcome State Fault Refusal := .next (s.waggleResend l.val)

/-- WAGGLE_REPEAT (R277): every part of a record that is not acknowledged goes out again. -/
def execWaggleRepeat (l : Fin 18) (s : State) : Host.Outcome State Fault Refusal :=
  .next (
    let x := s.link l.val
    if x.record ≠ [] && !x.acked then s.modLink l.val fun y => { y with ctl := y.ctl ++ s.recordParts l.val } else s)

/-! ## Checks (R278) -/

/-- The first check of R278 that a record fails on link `l`, with the chain in hand. A key that is no point of the curve
counts under check 2. -/
def State.waggleCheck (s : State) (l : Nat) (r chain : Bytes) : Option Nat :=
  let x := s.link l
  let chip : ChipNo := BitVec.ofNat 6 (leAt r 1 1)
  let key := leafKey chain
  let id := slice r 96 48
  if !(leAt r 0 1 = 1 && fieldAt r 1 1 7 6 = 0 && fieldAt r 2 1 7 5 = 0 && leAt r 7 1 = 0 && leAt r 81 15 = 0 &&
      leAt r 144 16 = 0 && leAt r 22 2 = 2048) then some 1
  else if !(chainValid s.keeper.idRoot chain && sha384 key == id &&
      ecdsaVerify (pointDecode key) (sha384 (slice r 0 160)) (slice r 160 96) &&
      (pointDecode (slice r 32 49)).isSome) then some 2
  else if chip = s.inp.chipId || (s.directSet chip).any (fun k => (s.link k).partnerId != id) then some 3
  else if leAt r 4 1 ≠ s.ifMajor then some 4
  else if leAt r 6 1 ≠ b2n x.rate then some 5
  else none

/-- A failed check (R278): the link is held without message traffic, with source 48 and the link record of event 3. -/
def State.waggleFail (s : State) (l check : Nat) : State :=
  let s := s.modLink l fun x => { x with state := .held }
  s.raiseWith { src := 48, mkind := 5, mid := l, sub := check, addr := l } (some (linkEvent l (s.link l) 3 check))

/-- The keys of both directions from the two records (R268); the private key is then zeroised (R372). -/
def State.deriveKeys (s : State) (l : Nat) : State :=
  let x := s.link l
  match ecdh x.ephPriv (pointDecode (slice x.peerRec 32 49)) with
  | none => s
  | some z =>
    let me := s.inp.chipId
    let salt := pairSalt me x.partner x.record x.peerRec
    s.setLink l { x with
      txKey := some (directionKey z salt me x.partner), rxKey := some (directionKey z salt x.partner me),
      ephPriv := 0, txCr := [32, 32, 32, 32, 32, leAt x.peerRec 20 2 - 160] }

/-- A record that passed is in force (R279); one that shows the partner quiescing ends the requests that wait for it (R298). The link enters service; on its first entry the keys are derived. Barrier
messages and requests for the partner go, and the other records change with WG_NEIGH. -/
def State.wagglePass (s : State) (l : Nat) (r : Bytes) : State :=
  let x := s.link l
  let was := x.state == .service
  let c : ChipNo := BitVec.ofNat 6 (leAt r 1 1)
  let s := s.setLink l { x with peerRec := r, peerSerial := BitVec.ofNat 64 (leAt r 24 8), partner := c,
                                partnerId := slice r 96 48 }
  let s := if x.rxKey.isNone then s.deriveKeys l else s
  if was then s.noRoute c
  else
    let s := s.modLink l fun x => { x with state := .service }
    ((((s.event (linkEvent l (s.link l) 1 0)).barrierResend c).pump c).noRoute c).resendAll

/-- The bytes of a complete assembly (R277). -/
def Assembly.whole (a : Assembly) : Option Bytes :=
  match a.total with
  | none => none
  | some n => if (List.range n).all fun i => a.parts.any (·.1 = i) then
      some ((List.range n).flatMap fun i => a.parts.get [] i) else none

/-- The record in hand, if it is whole, and for serial 1 its chain with it. -/
def Link.heldRecord (x : Link) : Option Bytes :=
  match x.asmRec.bind Assembly.whole with
  | none => none
  | some r =>
    if (x.asmRec.map (·.serial)) = some 1 && (x.asmChain.bind Assembly.whole).isNone then none else some (slice r 0 256)

/-- Judges the record in hand (R278, R279): a record that is in force or was judged is not judged again; a lower serial, or
another WG_EPUB outside a rekey, is a link protocol error and takes the link down. -/
def State.judge (s : State) (l : Nat) : State :=
  let x := s.link l
  match x.heldRecord with
  | none => s
  | some r =>
    let serial := BitVec.ofNat 64 (leAt r 24 8)
    let live := x.state == .service || x.state == .waggle && s.canWaggle && x.record ≠ []
    if !live || serial = x.judged then s
    else if x.peerRec ≠ [] && (serial.toNat < x.peerSerial.toNat ||
        (slice r 32 49 != slice x.peerRec 32 49 && x.rekey.isNone)) then
      (s.linkProtocol l).linkDown l none
    else
      let s := s.modLink l fun x => { x with judged := serial }
      match s.waggleCheck l r ((x.asmChain.bind Assembly.whole).getD []) with
      | some k => s.waggleFail l k
      | none => s.wagglePass l r

/-- A measured link starts waggle, and a record that came meanwhile is judged. -/
def State.enterWaggle (s : State) (l : Nat) : State := (s.waggleStart l).judge l

/-- Links that waited for units 6 and 7 or for the keeper start waggle (R431). -/
def State.waggleAll (s : State) : State :=
  linkNos.foldl (fun t l => if (t.link l).state == .waggle && (t.link l).record = [] then t.enterWaggle l else t) s

/-! ## Parts and acknowledgements (R277) -/

/-- One part taken into an assembly: parts of a higher serial discard those of a lower one; those of a lower one are
ignored while a higher one is incomplete. -/
def takePart (a : Option Assembly) (f : Bytes) : Assembly :=
  let i := fieldAt f 5 1 4 0
  let last := bit (leAt f 5 1) 7
  let serial := BitVec.ofNat 32 (leAt f 8 4)
  let data := if last then slice f 12 (min 116 (leAt f 6 2)) else slice f 12 116
  let add (a : Assembly) : Assembly :=
    { a with parts := a.parts.set [] i data, total := if last then some (i + 1) else a.total }
  match a with
  | none => add { serial := serial }
  | some a =>
    if a.serial = serial then add a
    else if a.serial.toNat < serial.toNat || a.whole.isSome then add { serial := serial }
    else a

/-- Whether the record that a part belongs to is in hand whole, with its chain for serial 1. -/
def Link.holdsRecord (x : Link) (f : Bytes) : Bool :=
  x.heldRecord.isSome && (x.asmRec.map (·.serial.toNat)) == some (leAt f 8 4)

/-- The acknowledgement of a record as soon as it is whole, and once for every repeat of it, at the repeat's last record part;
then it is judged (R277; DEDUCED, log entry 128). `was` tells whether it was whole before this part. -/
def State.partTaken (s : State) (l : Nat) (f : Bytes) (was : Bool) : State :=
  let x := s.link l
  if x.holdsRecord f && (!was || (isCtl f 3 && bit (leAt f 5 1) 7)) then
    (s.modLink l fun x => { x with ctl := x.ctl ++ [ackFlit (leAt f 8 4)] }).judge l
  else s

/-- Whether a link is trained and past its start. -/
def Link.isUp (x : Link) : Bool := x.state != .down && x.state != .training

/-- WAGGLE_RECORD_PART (R277). -/
def execWaggleRecordPart (l : Fin 18) (flit : Bytes) (s : State) : Host.Outcome State Fault Refusal :=
  .next (
    if !isCtl flit 3 || !(s.link l.val).isUp then s
    else (s.modLink l.val fun x => { x with asmRec := some (takePart x.asmRec flit) }).partTaken l.val flit ((s.link l.val).holdsRecord flit))

/-- IDENTITY_PART (R277). -/
def execIdentityPart (l : Fin 18) (flit : Bytes) (s : State) : Host.Outcome State Fault Refusal :=
  .next (
    if !isCtl flit 4 || !(s.link l.val).isUp then s
    else (s.modLink l.val fun x => { x with asmChain := some (takePart x.asmChain flit) }).partTaken l.val flit ((s.link l.val).holdsRecord flit))

/-- RECORD_ACKNOWLEDGEMENT (R277): the record with that serial is not repeated further. -/
def execRecordAcknowledgement (l : Fin 18) (flit : Bytes) (s : State) : Host.Outcome State Fault Refusal :=
  .next (
    let x := s.link l.val
    if isCtl flit 5 && x.record ≠ [] && leAt flit 8 4 = x.serial.toNat % 2 ^ 32 then s.setLink l.val { x with acked := true }
    else s)

/-- WAGGLE_ACK_TIMEOUT (R277): a record not acknowledged within 1 s is a failure of check 1. -/
def execWaggleAckTimeout (l : Fin 18) (s : State) : Host.Outcome State Fault Refusal :=
  .next (
    let x := s.link l.val
    if x.record ≠ [] && !x.acked && x.state != .held && x.isUp then s.waggleFail l.val 1 else s)

/-- WAGGLE_RETRY (R278): a held link is measured again; the record in hand is judged again after it. -/
def execWaggleRetry (l : Fin 18) (s : State) : Host.Outcome State Fault Refusal :=
  .next (
    let x := s.link l.val
    if x.state == .held then
      s.setLink l.val { x with state := .measuring, echoes := [], echoDue := 8, judged := 0 }
    else s)

/-! ## Echoes (R273, R274) -/

/-- ECHO (R273): returned as an ECHO_REPLY with the same count, ahead of every other queued flit. -/
def execEcho (l : Fin 18) (flit : Bytes) (s : State) : Host.Outcome State Fault Refusal :=
  .next (
    let x := s.link l.val
    if !isCtl flit 1 || !x.isUp then s
    else
      let n := (x.ctl.takeWhile fun f => isCtl f 2).length
      s.setLink l.val { x with ctl := x.ctl.take n ++ [ctlFlit (leBytes 1 2 ++ slice flit 5 8)] ++ x.ctl.drop n })

/-- A new round trip resizes the grant when it differs by more than 10 % (R274): a larger grant returns credits at once, a
smaller one keeps credits as they come back. -/
def Link.resize (x : Link) (rtt : Nat) : Link :=
  let g := grantOf x.rate rtt
  let x' := { x with rtt := rtt }
  if 10 * (max rtt x.rtt - min rtt x.rtt) ≤ x.rtt then x'
  else if x.grant ≤ g then { x' with grant := g, rxFree := addAt x.rxFree 5 (g - x.grant - x.rxOwe),
                                      rxOwe := x.rxOwe - (g - x.grant) }
  else { x' with grant := g, rxOwe := x.rxOwe + (x.grant - g) }

/-- The cal.run verbs that measure links (R405) complete once every link in service has its eight samples, with the number of
links. -/
def State.calLinks (s : State) : State :=
  let ls := linkNos.filter fun l => (s.link l).state == .service
  if ls.all fun l => 8 ≤ (s.link l).echoes.length then
    (s.keeper.verbs.filter fun v => reqVerb v.req = 0x0802 && par v.req 16 1 = 2 && v.stage == .draining).foldl
      (fun t v => t.verbDone v.origin
        (if s.cancelled v.origin then kCancelled else kOK) 0
        (results [(2, leBytes 2 ls.length)])) s
  else s

/-- ECHO_REPLY (R273, R274): a round-trip sample. After the eighth of a measurement the grant is set and waggle starts; on a
link in service the largest of the last eight is the round trip. -/
def execEchoReply (l : Fin 18) (flit : Bytes) (now : Word) (s : State) : Host.Outcome State Fault Refusal :=
  .next (
    let x := s.link l.val
    if !isCtl flit 2 || !x.isUp then s
    else
      let t := (now - BitVec.ofNat 64 (leAt flit 5 8)).toNat
      let es := (t :: x.echoes).take 8
      let top := es.foldl max 0
      if x.state == .measuring then
        if es.length < 8 then s.setLink l.val { x with echoes := es }
        else
          let y : Link := if x.rxKey.isSome then x.resize top else { x with rtt := top, grant := grantOf x.rate top }
          (s.setLink l.val { y with echoes := es, state := .waggle }).enterWaggle l.val
      else (s.setLink l.val { (if es.length = 8 then x.resize top else x) with echoes := es }).calLinks)

/-- ECHO_PERIODIC (R273): every second while the link is up, one further echo. -/
def execEchoPeriodic (l : Fin 18) (s : State) : Host.Outcome State Fault Refusal :=
  .next (
    let x := s.link l.val
    if x.state == .service && !s.power.failing then s.setLink l.val { x with echoDue := x.echoDue + 1 } else s)

/-- LINK_INFO (R275): the partner, the lane rate, the credits the partner granted, and the round trip in nanoseconds; of a
link that is not in service, zeros but for the lane rate and round trip it has. -/
def execLinkInfo (o : Origin) (s : State) : Host.Outcome State Fault Refusal :=
  .next (s.runVerb o 0x0A00 fun v =>
    let x := s.link (par v.req 16 1)
    s.verbDone o kOK 0 (results [(1, leBytes 1 x.partner.toNat), (1, leBytes 1 (b2n x.rate)),
      (2, slice x.peerRec 20 2), (4, leBytes 4 x.rttNs)]))

end Sys2Proof.Machine
end

