-- ==== Sys2Proof/Machine/Drain.lean ====
section
/-! DEFINITION. Work that drives a frame's contexts to their resume points: frame tests (R370, R371), droop trims (R405) and
power policies (R396). -/
namespace Sys2Proof.Machine

/-! ## Demand (R395) -/

/-- Whether a scratchpad read waits for a feed port of frame `f`, or is in flight there (R217). -/
def State.fetDemand (s : State) (f : Nat) : Bool :=
  (List.range 16).any (fun i => (s.port (16 * f + i)).fetFly != []) ||
    s.chans.any fun e => match e.2.ctx with
      | none => false
      | some c => (s.ctx c).works.any fun w => match w.reads with
        | r :: _ => r.space = 2 && r.core / 16 = f
        | [] => false

/-- Whether frame `f` has demand (R187, R395): a bound channel, a beat for it, a partner's request, a swarm whose source or
member it holds, a test, or policy 0.
Accesses still in flight, completing writes and scratchpad reads of its ports count too (DEDUCED, log entry 62). -/
def State.frameDemand (s : State) (f : Nat) : Bool :=
  let x := s.frame f
  let mine (l : Nat) : Bool := (s.link l).rxq.any fun e =>
    e.2.dst == s.inp.chipId && servingFrame e.2.src = f && msgClass e.2.op = 1
  x.policy == 0 || !(s.boundIn f).isEmpty || s.spine.any (fun b => b.dst = f) ||
    (List.range 16).any (fun i => !(s.port (16 * f + i)).landing.isEmpty) || linkNos.any mine || !x.fab.isEmpty ||
    x.slots.any (fun e => e.2.holder != .free) || !x.went.isEmpty || s.fetDemand f || !x.svc.isEmpty || s.regionSlots f != 0 ||
    (List.range 4).any (fun n => (s.swarm n).isOpen && (s.swarm n).srcFrame == some f) ||
    (match s.ftest with | some t => t.started && t.cur == some f | none => false)

/-! ## Driving contexts out of a frame (R370 step 1, R396) -/

/-- A bound context is driven toward its next resume point, as a pause would (R83): it takes no further unit, a satisfied WAIT
completes, an unmet one is disarmed. -/
def State.startLeaving (s : State) (c : CtxNo) : State :=
  if (s.ctx c).leave == .resume then s
  else
    let s := s.judgeWaits c
    let s := if (s.ctx c).state == .waiting then (s.disarm c).toState c .running else s
    let s := s.modCtx c fun x => { x with leave := .resume, works := unwaited x.works }
    (s.ctx c).works.foldl (fun t w => t.dropUnit c w) s

/-- One step of driving a context out: at its resume point it becomes Ready, or Stopped after a failure, and unbound, with
its partial descriptor saved (R370). A context that a pause or an abort is at work on is left to its verb. -/
def State.driveOut (s : State) (c : CtxNo) : State :=
  let x := s.ctx c
  if x.state == .pausing || x.aborting then s
  else
    let (s, done) := (s.startLeaving c).drained c
    if !done then s
    else if (s.ctx c).failStop then s.stopIfDone c
    else (s.toState c .ready).unbind c

/-- One step of driving every context out of frame `f`. -/
def State.driveFrame (s : State) (f : Nat) : State :=
  (s.boundIn f).foldl (fun t n => match (t.chan n).ctx with | some c => t.driveOut c | none => t) s

/-- The contexts still bound in a frame that were being driven out go on (R371, R396). -/
def State.letStay (s : State) (f : Nat) : State :=
  (s.boundIn f).foldl (fun t n => match (t.chan n).ctx with
    | some c => if (t.ctx c).state == .pausing then t
      else t.modCtx c fun x => { x with leave := if x.leave == .resume then .no else x.leave }
    | none => t) s

/-- Whether slot `n` of frame `f` holds the data of a lid that waits for its group's writes: no request in flight (R293, R370). -/
def State.lidSlot (s : State) (f n : Nat) : Bool :=
  s.fabric.rxGroups.any fun g => match g.2.lid with
    | some r => !g.2.lidIssued && servingFrame r.msg.src = f && r.slot == some n
    | none => false

/-- Whether nothing is bound in a frame and its fabric requester has nothing in flight (R370). -/
def State.frameEmpty (s : State) (f : Nat) : Bool :=
  (s.boundIn f).isEmpty && (s.frame f).fab.isEmpty &&
    !((s.frame f).slots.any fun e => match e.2.holder with | .fabric _ _ => !s.lidSlot f e.1 | _ => false) &&
    !((s.frame f).went.any fun e => match e.2.holder with | .fabric _ _ => true | _ => false)

/-! ## Frame tests and trims (R370, R371, R405) -/

/-- Takes frame `f` for a test or trim: it stops binding and its contexts are driven out. -/
def State.holdFrame (s : State) (f : Nat) : State :=
  (s.modFrame f fun x => { x with noBind := true }).driveFrame f

/-- Holds the fabric requester of a frame whose contexts are out (R370, step 2). -/
def State.holdFabric (s : State) (f : Nat) : State :=
  if (s.boundIn f).isEmpty then s.modFrame f fun x => { x with testHold := true } else s

/-- Gives frame `f` back to binding and to its fabric requester. -/
def State.releaseFrame (s : State) (f : Nat) : State :=
  (s.modFrame f fun x => { x with noBind := false, testHold := false }).letStay f

/-- The frame of a test that has ended goes back to nap or off if it was woken from there and has no demand (R371). -/
def State.backTo (s : State) (f : Nat) (was : FrameState) : State :=
  if (s.frame f).state != .run || s.frameDemand f then s
  else match was with
  | .nap => (frameDomains f).foldl State.retainUp ((s.modFrame f fun x => { x with state := .nap }).clockDown f)
  | .off => s.frameOff f
  | _ => s

/-- The end of a test or trim of frame `f`. -/
def State.endHeld (s : State) (f : Nat) (was : FrameState) : State :=
  (({ s with ftest := none } : State).releaseFrame f).backTo f was

/-- Bits of a mask of frames. -/
def frameMask (l : List Nat) : BitVec 16 := BitVec.ofNat 16 ((l.map (2 ^ ·)).sum)

/-- The end of a frame test or trim: the test record (type 0x0C), and the verb completes with the pass mask, or for a trim
with the number of frames done. A failed frame makes it TEST_FAILED with unit 16 + frame. -/
def State.endFrameTest (s : State) (t : FrameTest) : State :=
  let s : State := { s with ftest := none }
  let s := s.event (evInfo 0x0C 0 (leBytes 1 (if t.cal then 3 else 2) ++ leBytes 1 0 ++ leBytes 2 t.passed.toNat ++
    leBytes 2 (frameMask t.failed).toNat ++ leBytes 2 t.undrained.toNat ++ zeros 8))
  let res := results [(2, leBytes 2 (if t.cal then popcount 16 t.passed.toNat else t.passed.toNat))]
  if s.cancelled t.origin then s.verbDone t.origin kCancelled 0 res
  else match t.failed.min? with
  | some f => s.verbDone t.origin kTestFailed (16 + f) res
  | none => s.verbDone t.origin kOK 0 res

/-- Goes on with the next frame of the mask in ascending order, or ends; CANCEL ends it between frames (R371). -/
def State.nextFrameTest (s : State) (t : FrameTest) : State :=
  match t.todo with
  | [] => s.endFrameTest { t with cur := none }
  | f :: rest =>
    if s.cancelled t.origin then s.endFrameTest { t with cur := none }
    else
      ({ s with ftest := some { t with todo := rest, cur := some f, started := true, retry := false,
                                       wasState := (s.frame f).state } } : State).holdFrame f

/-- A verb starts to work through frames; another one's work is awaited. -/
def State.beginFrameTest (s : State) (o : Origin) (cal : Bool) (mask : Nat) : State :=
  if s.ftest.isSome then s
  else (s.verbDrains o).nextFrameTest
    { origin := o, cal := cal, todo := setBits 16 mask, failed := [], retry := false, cur := none, started := false,
      wasState := .run, passed := 0, undrained := 0 }

/-- TEST_FRAME (R370). -/
def execTestFrame (o : Origin) (s : State) : Host.Outcome State Fault Refusal :=
  .next (s.runVerb o 0x0801 fun v => s.beginFrameTest o false (par v.req 16 2))

/-- Zeroises the free slots of a frame's pantry (R356): swarm regions and held reserves stay. -/
def Frame.zeroFree (x : Frame) : Frame :=
  { x with slots := x.slots.mapAll {} fun _ q => if q.holder == .free then { q with data := [] } else q }

/-- FRAME_TEST_DRAIN_END (R370, R371, R405): the contexts are driven on; once the frame is empty (a stopped one has nothing
bound) and runs, the body runs with the outcome `pass`, the pantry is zeroised, and the frame is released into the state it
was woken from. -/
def execFrameTestDrainEnd (pass : Bool) (s : State) : Host.Outcome State Fault Refusal :=
  .next (
    match s.ftest with
    | some t =>
      match t.cur with
      | some f =>
        let x := s.frame f
        if !t.started || !(x.state == .run || x.stopped) then s
        else
          let s := if x.stopped then s else (s.driveFrame f).holdFabric f
          if !x.stopped && !s.frameEmpty f then s
          else
            let s := if t.cal then s else s.modFrame f Frame.zeroFree
            let s := s.endHeld f t.wasState
            let ok := t.cal || pass
            let s := if ok then s else s.raise { src := 47, mid := 16 + f, sub := 16 + f }
            s.nextFrameTest { t with passed := if ok then setBit t.passed f else t.passed,
                                     failed := if ok then t.failed else t.failed ++ [f] }
      | none => s
    | none => s)

/-- FRAME_TEST_DRAIN_TIMEOUT (R371): step 1 has not ended in time, so the frame is released, to be tried once more; after a second attempt it stays
untested. -/
def execFrameTestDrainTimeout (s : State) : Host.Outcome State Fault Refusal :=
  .next (
    match s.ftest with
    | some t =>
      match t.cur with
      | some f =>
        if !t.started || (s.frame f).stopped || (s.frame f).testHold then s
        else
          let s := s.releaseFrame f
          if t.retry then (s.endHeld f t.wasState).nextFrameTest { t with undrained := setBit t.undrained f }
          else { s with ftest := some { t with started := false, retry := true } }
      | none => s
    | none => s)

/-- FRAME_TEST_RETRY (R371): 2 ms later, the same frame is tried again. -/
def execFrameTestRetry (s : State) : Host.Outcome State Fault Refusal :=
  .next (
    match s.ftest with
    | some t =>
      match t.cur with
      | some f =>
        if t.started || !t.retry then s else ({ s with ftest := some { t with started := true } } : State).holdFrame f
      | none => s
    | none => s)

/-- CAL_RUN (R405): task 1 trims the region of each frame in turn; task 2 sends 8 echoes on every link in service, whose
replies re-size the credits. -/
def execCalRun (o : Origin) (s : State) : Host.Outcome State Fault Refusal :=
  .next (s.runVerb o 0x0802 fun v =>
    if par v.req 16 1 = 1 then s.beginFrameTest o true 0xFFFF
    else
      let s := linkNos.foldl (fun t l => if (t.link l).state == .service then
        t.modLink l fun x => { x with echoes := [], echoDue := x.echoDue + 8 } else t) s
      (s.verbDrains o).calLinks)

/-! ## Power policies (R396) -/

/-- Whether no context is bound in any frame of a mask. -/
def State.maskEmpty (s : State) (fs : List Nat) : Bool := fs.all fun f => (s.boundIn f).isEmpty

/-- PWR_FRAME (R396): the policy takes effect at once, with a power record; frames set to policy 3 are drained, and what is still
bound in a frame whose policy 3 ends goes on. -/
def execPwrFrame (o : Origin) (s : State) : Host.Outcome State Fault Refusal :=
  .next (s.runVerb o 0x0B00 fun v =>
    let mask := par v.req 16 2
    let p := par v.req 18 1
    let fs := setBits 16 mask
    let s := if p = 3 then s else (fs.filter fun f => (s.frame f).policy = 3 && !(s.frame f).noBind).foldl State.letStay s
    let s := fs.foldl (fun t f => t.modFrame f fun x => { x with policy := BitVec.ofNat 2 p }) s
    let s := s.event (evInfo 0x0D 0 (leBytes 1 2 ++ leBytes 1 p ++ leBytes 2 mask ++ zeros 12))
    if p ≠ 3 then s.verbDone o kOK 0
    else
      let s := fs.foldl State.driveFrame s
      if s.maskEmpty fs then s.verbDone o kOK 0 else s.verbDrains o)

/-- PWR_FRAME_DRAIN_END (R396): nothing is bound in the frames any more, or 1 ms has passed; the drain goes on then. -/
def execPwrFrameDrainEnd (o : Origin) (expired : Bool) (s : State) : Host.Outcome State Fault Refusal :=
  .next (s.runDrained o 0x0B00 fun v =>
    let fs := setBits 16 (par v.req 16 2)
    let s := fs.foldl State.driveFrame s
    if s.maskEmpty fs then s.verbDone o kOK 0
    else if expired then s.verbDone o kBusy 16
    else s)

/-- The drain of frames with policy 3 goes on beside the verb (R396). -/
def State.drainOff (s : State) : State :=
  frameNos.foldl (fun t f => if (t.frame f).policy = 3 then t.driveFrame f else t) s

end Sys2Proof.Machine
end

