-- ==== Sys2Proof/Machine/Recorder.lean ====
section
/-! DEFINITION. The event recorder and the flash log (R407, R413 to R425), and powered time. -/
namespace Sys2Proof.Machine

/-- Bytes of a record's body, filled to a multiple of 16. -/
def padBody (b : Bytes) : Bytes := b ++ zeros (alignUp 16 b.length - b.length)

/-- The bytes of a record as accepted (R415): header and body. `loss` sets EV_LOSS. -/
def recordBytes (r : Recorder) (e : EvRec) (now : Word) (loss : Bool) : Bytes :=
  let body := padBody e.body
  [BitVec.ofNat 8 (body.length / 16 % 16), e.type,
   BitVec.ofNat 8 (e.sev.toNat + b2n r.anch * 4 + b2n r.epoch * 8 + b2n loss * 16), e.src] ++
    leBytes 2 0 ++ leBytes 2 e.tenant.toNat ++ leBytes 8 now.toNat ++ body

/-- Bytes not yet flushed (R422). -/
def Recorder.unflushed (r : Recorder) : Nat := r.head.toNat - r.flushed.toNat

/-- The record's EV_REPEAT and EV_TIME. -/
def recRepeat (b : Bytes) : Nat := leAt b 4 2
/-- EV_TIME of a record's bytes. -/
def recTime (b : Bytes) : Nat := leAt b 8 8

/-- Whether a new record merges into the ring's last one (R417). A record that a running flush covers counts as flushed
(DEDUCED, log entry 13); with RI_NOFLASH every record does (R425). -/
def Recorder.merges (r : Recorder) (last : Nat × Bytes) (e : EvRec) (now : Word) : Bool :=
  !r.noFlash && decide (r.flushed.toNat ≤ last.1) && decide (r.flushing.getD 0 ≤ last.1) &&
  leAt last.2 1 1 == e.type.toNat && leAt last.2 3 1 == e.src.toNat && leAt last.2 6 2 == e.tenant.toNat &&
  last.2.drop 16 == padBody e.body && decide (now.toNat - recTime last.2 < 2 ^ 24) &&
  decide (recRepeat last.2 < 0xFFFF)

/-- The oldest records dropped until `need` more bytes fit in 1 MiB (R419). -/
def makeRoom (ring : List (Nat × Bytes)) (tail head need : Nat) : List (Nat × Bytes) × Nat :=
  match ring with
  | [] => ([], tail)
  | (o, b) :: r => if head + need - tail ≤ 2 ^ 20 then ((o, b) :: r, tail)
                   else makeRoom r (o + b.length) head need

/-- Appends a record (R415, R418, R419): the tail makes room, the record is written, the head advances. -/
def Recorder.append (r : Recorder) (b : Bytes) : Recorder :=
  let (ring, tail) := makeRoom r.ring r.tail.toNat r.head.toNat b.length
  let gen := if tail = r.tail.toNat then r.gen else r.gen + 2
  let head := BitVec.ofNat 48 (r.head.toNat + b.length)
  { r with ring := ring ++ [(r.head.toNat, b)], tail := BitVec.ofNat 48 tail, head := head, gen := gen,
           flushed := if r.noFlash then head else r.flushed, lossMark := false }

/-- The loss record (type 0x10, R422). -/
def lossRecord (n : Word) (sev : Nat) : EvRec :=
  { evInfo 0x10 0 (leBytes 8 n.toNat ++ zeros 8) with src := 60, sev := BitVec.ofNat 2 sev }

/-- Whether `n` more bytes stay within 16 KiB unflushed (R422). -/
def Recorder.fits (r : Recorder) (n : Nat) : Bool := r.noFlash || decide (r.unflushed + n ≤ 2 ^ 14)

/-- A flush is asked for once 4 KiB are unflushed (R421). -/
def State.flushIfFull (s : State) : State := if 4096 ≤ s.recd.unflushed && !s.recd.noFlash then s.askFlush else s

/-- A record lost to the 16 KiB limit (R422). -/
def State.loseRecord (s : State) : State :=
  let s := s.modRecd fun r => { r with lost := satAdd r.lost 1, lostSince := r.lostSince + 1, lossMark := true,
                                        lossDue := true }
  s.raiseWith { src := 60, addr := s.recd.lost.toNat } none true

/-- EVENT_RECORD_ACCEPT (R415, R417, R422): a loss record that is due goes first once it fits; otherwise the oldest
record of the input queue merges, is appended, or is lost with source 60. -/
def execEventRecordAccept (s : State) : Host.Outcome State Fault Refusal :=
  .next (
    if s.recd.lossDue && s.recd.fits 32 then
      let b := recordBytes s.recd (lossRecord s.recd.lostSince (s.severity 60)) s.ptime s.recd.lossMark
      (s.modRecd fun r => { (r.append b) with lossDue := false, lostSince := 0 }).flushIfFull
    else match s.recd.queue with
    | [] => s
    | e :: rest =>
      let s := s.modRecd fun r => { r with queue := rest }
      let b := recordBytes s.recd e s.ptime s.recd.lossMark
      match s.recd.ring.getLast? with
      | some last =>
        if s.recd.merges last e s.ptime then
          s.modRecd fun r => { r with ring := r.ring.dropLast ++
            [(last.1, patch last.2 4 (leBytes 2 (recRepeat last.2 + 1)))], gen := r.gen + 2 }
        else if s.recd.fits b.length then (s.modRecd fun r => r.append b).flushIfFull
        else s.loseRecord
      | none => if s.recd.fits b.length then (s.modRecd fun r => r.append b).flushIfFull else s.loseRecord)

/-! ## Flushing -/

/-- The sector of a partition offset. -/
def sectorOf (pos : Nat) : Nat := pos / 65536

/-- The next sector after `k` that is not retired, within 1,024 tries (R407). -/
def nextSector (retired : List Nat) : Nat → Nat → Nat
  | 0, k => (k + 1) % 1024
  | n + 1, k => if retired.contains ((k + 1) % 1024) then nextSector retired n ((k + 1) % 1024) else (k + 1) % 1024

/-- Sector reached after `n` moves to the next one. -/
def sectorAhead (retired : List Nat) : Nat → Nat → Nat
  | 0, k => k
  | n + 1, k => sectorAhead retired n (nextSector retired 1024 k)

/-- Where a block of `len` bytes is written: at the position, or at the start of the next sector when it would cross
the end of its sector or its sector is full or retired (R424); and whether the sector changes. -/
def Recorder.blockPos (r : Recorder) (len : Nat) : Nat × Bool :=
  if !r.full && r.pos % 65536 + len ≤ 65536 && !r.retired.contains (sectorOf r.pos) then (r.pos, false)
  else (65536 * nextSector r.retired 1024 (sectorOf r.pos), true)

/-- The records between two logical offsets, joined. -/
def recordsBetween (ring : List (Nat × Bytes)) (lo hi : Nat) : Bytes :=
  (ring.filter fun e => decide (lo ≤ e.1) && decide (e.1 < hi)).flatMap (·.2)

/-- A flush block (R424): the 32 B header, the records, and 0xFF to the next 256 B boundary. -/
def flushBlock (boot : BitVec 32) (seq : Word) (offset : Nat) (recs : Bytes) : Bytes :=
  let h := leBytes 4 0x4C475846 ++ leBytes 4 boot.toNat ++ leBytes 8 seq.toNat ++ leBytes 8 offset ++
    leBytes 4 recs.length
  let b := h ++ leBytes 4 (crc32c (h ++ recs)).toNat ++ recs
  b ++ List.replicate (alignUp 256 b.length - b.length) 0xFF

/-- The log.flush verbs whose records have been flushed complete with their record bytes (R421); `acc` holds REC_FLUSH when
the verb asked, times 2^48, and the REC_HEAD that it waits for. With RI_NOFLASH every record counts as flushed (R425). -/
def State.flushVerbs (s : State) : State :=
  (s.keeper.verbs.filter fun v => reqVerb v.req = 0x0902 && v.stage == .draining &&
    (s.recd.noFlash || decide (v.acc % 2 ^ 48 ≤ s.recd.flushed.toNat))).foldl
    (fun t v => t.finish v kOK 0 (results [(4, leBytes 4 (if s.recd.noFlash then 0 else
      s.recd.flushed.toNat - v.acc / 2 ^ 48))])) s

/-- LOG_FLUSH (R421): asks for a flush, and completes when the flushes that cover the records accepted so far have
finished. -/
def execLogFlush (o : Origin) (s : State) : Host.Outcome State Fault Refusal :=
  .next (s.runVerb o 0x0902 fun _ =>
    let s := s.modVerb o fun v => { v with stage := .draining, acc := s.recd.flushed.toNat * 2 ^ 48 + s.recd.head.toNat }
    if s.recd.noFlash then s.flushVerbs else s.askFlush)

/-- LOG_ANCHOR (R414): the calendar time is stored against the powered time, and an anchor record is appended. -/
def execLogAnchor (o : Origin) (s : State) : Host.Outcome State Fault Refusal :=
  .next (s.runVerb o 0x0901 fun v =>
    let c := par v.req 16 8
    let p := s.ptime
    let s := s.modRecd fun r => { r with anchorC := BitVec.ofNat 64 c, anchorP := p, anch := true }
    (s.event (evInfo 0x0E 0 (leBytes 8 c ++ leBytes 8 p.toNat))).verbDone o kOK 0 (results [(8, leBytes 8 p.toNat)]))

/-- FLUSH_START (R421, R424): on a trigger, with no flush running and the scan done, the records from REC_FLUSH to
REC_HEAD become one flush block at the write position. With RI_NOFLASH every record already counts as flushed. -/
def execFlushStart (s : State) : Host.Outcome State Fault Refusal :=
  .next (
    let r := s.recd
    if !r.flushAgain || r.scanning || r.flushing.isSome then s
    else if r.noFlash then s.modRecd fun r => { r with flushAgain := false }
    else
      let recs := recordsBetween r.ring r.flushed.toNat r.head.toNat
      let block := flushBlock r.boot (r.seq + 1) r.flushed.toNat recs
      let p := r.blockPos block.length
      if p.2 && r.erased = 0 then s
      else s.modRecd fun r => { r with
        flushing := some r.head.toNat, flushAgain := false, seq := r.seq + 1,
        pos := p.1, full := r.full && !p.2, erased := if p.2 then r.erased - 1 else r.erased, block := block,
        pagesLeft := block.length / 256 })

/-- FLUSH_AGE_TIMEOUT (R421): the oldest unflushed record is 100 ms old, which asks for a flush. -/
def execFlushAgeTimeout (s : State) : Host.Outcome State Fault Refusal :=
  .next (if s.recd.unflushed = 0 then s else s.askFlush)

/-- Step 5 of a quiesce (R435): every domain but 64 and 65 powers down, which ends the run of the tally unit (R323); for
state 2 the security parameters are zeroised (R372) and domain 64 is held for the response to be read (R436). With CANCEL
the links retrain instead. -/
def State.quiesceEnd (s : State) (q : Quiesce) : State :=
  let s := s.modKeeper fun k => { k with quiesce := none }
  if s.cancelled q.origin then s.verbEnd q.origin 0x0B01 kCancelled 0
  else
    let s := frameNos.foldl State.frameOff s
    let s := (List.range 64).foldl State.powerDown s
    let s : State := { s with tally := { s.tally with val := [], frozen := [], slots := [], heldOps := [] } }.lendLower
    let s := s.modKeeper fun k => { k with trainAsked := false }
    let s := if q.target = 2 then
        let s : State := { s with power := { s.power with sleepHold := true } }
        s.modKeeper fun k => { k with idKey := none, drbg := none, drbgCalls := 0 }
      else s
    s.verbEnd q.origin 0x0B01 kOK 0

/-- The end of a flush: waiting verbs complete, and a quiesce that waits for its flush goes on (R435). -/
def State.flushEnd (s : State) : State :=
  let s := s.flushVerbs
  match s.keeper.quiesce with
  | some q => if q.step = 4 && (s.recd.noFlash || !s.recd.flushAgain && s.recd.flushing.isNone) then s.quiesceEnd q else s
  | none => s

/-- FLASH_SECTOR_ERASE (R407): with fewer than four erased sectors ahead, the next one is erased. -/
def execFlashSectorErase (s : State) : Host.Outcome State Fault Refusal :=
  .next (
    if s.recd.erased < 4 && !s.recd.erasing && !s.recd.noFlash && !s.recd.scanning && !s.power.failing then
      s.modRecd fun r => { r with erasing := true }
    else s)

/-- A sector that failed is retired; with every sector retired the log is unavailable (R407, R425). -/
def Recorder.retire (r : Recorder) (k : Nat) : Recorder :=
  let r := { r with retired := if r.retired.contains k then r.retired else k :: r.retired }
  if r.retired.length < 1024 then r
  else { r with noFlash := true, flushed := r.head, flushing := none, flushAgain := false,
                erasing := false, stalled := false }

/-- The program of a page failed: its sector is retired, and the whole block is written again in the next erased sector, for
which it waits while there is none (DESIGN CHOICE, log entry 14). -/
def Recorder.rewrite (r : Recorder) : Recorder :=
  let k := sectorOf r.pos
  let r := { r with pagesLeft := r.block.length / 256 }
  (if r.erased = 0 then { r with stalled := true }
   else { r with pos := 65536 * nextSector (k :: r.retired) 1024 k, full := false, erased := r.erased - 1 }).retire k

/-- Sector `k` has been erased: a block that waits for it is written there, otherwise it lies ahead of the position. -/
def Recorder.sectorErased (r : Recorder) (k : Nat) : Recorder :=
  if r.stalled then { r with erasing := false, stalled := false, pos := 65536 * k, full := false }
  else { r with erasing := false, erased := r.erased + 1 }

/-- FLASH_OPERATION_DONE (R407): while a flush programs, any erase is suspended and the operation is a page program;
otherwise it is the erase. A failure retires the sector, with source 59. -/
def execFlashOperationDone (fail : Bool) (status : Byte) (s : State) : Host.Outcome State Fault Refusal :=
  .next (
    let r := s.recd
    if r.flushing.isSome && r.pagesLeft ≠ 0 && !r.stalled then
      if fail then
        ((s.raise { src := 59, sub := status.toNat, addr := r.pos + r.block.length - 256 * r.pagesLeft }).modRecd
          Recorder.rewrite).flushEnd
      else s.modRecd fun r => { r with pagesLeft := r.pagesLeft - 1 }
    else if r.erasing then
      let k := sectorAhead r.retired (r.erased + 1) (sectorOf r.pos)
      if fail then
        ((s.raise { src := 59, sub := status.toNat, addr := 65536 * k }).modRecd fun r =>
          { r with erasing := false }.retire k).flushEnd
      else s.modRecd fun r => r.sectorErased k
    else s)

/-- FLUSH_DONE (R421, R422, R424): the block is written, so REC_FLUSH advances and the position moves past it, or its sector is
full. A flush
asked for meanwhile starts by FLUSH_START. -/
def execFlushDone (s : State) : Host.Outcome State Fault Refusal :=
  .next (
    match s.recd.flushing with
    | none => s
    | some e =>
      if s.recd.pagesLeft ≠ 0 then s
      else (s.modRecd fun r =>
        let p := r.pos + r.block.length
        { r with flushing := none, flushed := BitVec.ofNat 48 e, pos := if p % 65536 = 0 then r.pos else p,
                 full := p % 65536 = 0, block := [] }).flushEnd)

/-- FLASH_LOG_SCAN_DONE (R407, R425): the retirement map is known, the write position and FB_BOOT are chosen, or RI_NOFLASH is set, and the records held
meanwhile are flushed. FB_BOOT stays once chosen since the always-on power-up. -/
def execFlashLogScanDone (scan : FlashScan) (s : State) : Host.Outcome State Fault Refusal :=
  .next (
    if !s.recd.scanning then s
    else
      let s := s.modRecd fun r => { r with scanning := false }
      let boot (n : BitVec 32) (r : Recorder) : BitVec 32 := if r.boot = 0 then n else r.boot
      match scan with
      | .noFlash => (s.modRecd fun r => { r with noFlash := true, flushed := r.head, flushAgain := false }).flushEnd
      | .empty out =>
        let out := (out.map (·.toNat)).eraseDups
        (s.modRecd fun r => { r with boot := boot 1 r, retired := out, pos := 65536 * nextSector out 1024 1023, full := false,
                                      erased := 1023 - out.length }).askFlush
      | .newest b _ e out =>
        (s.modRecd fun r => { r with boot := boot (b + 1) r, retired := (out.map (·.toNat)).eraseDups, pos := e.toNat,
                                      full := false, erased := 0 }).askFlush)

/-! ## The window and powered time -/

/-- The write of REC_CURSOR (R419, R420): the window no longer holds flash bytes that it held; with RC_FLASH a read of 4 KiB
starts (DEDUCED, log entry 63). -/
def State.cursorWrite (s : State) (w : Word) : State :=
  s.modRecd fun r => { r with curOffset := w.setWidth 48, curFlash := w.getLsbD 63, ready := false }

/-- REC_CURSOR_FLASH_READ (R420): a write of REC_CURSOR with RC_FLASH 1 clears RI_READY and starts a 4 KiB read. -/
def execRecCursorFlashRead (w : Word) (s : State) : Host.Outcome State Fault Refusal :=
  .next (if w.getLsbD 63 then s.cursorWrite w else s)

/-- FLASH_READ_DONE (R420): the window holds the bytes read, and RI_READY sets. -/
def execFlashReadDone (data : Bytes) (s : State) : Host.Outcome State Fault Refusal :=
  .next (
    if s.recd.curFlash && !s.recd.ready then s.modRecd fun r => { r with flashWin := slice data 0 4096, ready := true }
    else s)

/-- Byte `i` of REC_WINDOW (R418, R420). -/
def State.recWindow (s : State) (i : Nat) : Byte :=
  if s.recd.curFlash then (if s.recd.ready then s.recd.flashWin.getD i 0 else 0)
  else
    let o := s.recd.curOffset.toNat + i
    match s.recd.ring.find? fun e => decide (e.1 ≤ o) && decide (o < e.1 + e.2.length) with
    | some e => e.2.getD (o - e.1) 0
    | none => 0

/-- The wrap of the powered-time counter (R413). -/
def State.wrapTime (s : State) : State :=
  { s with ptime := 0, recd := { s.recd with epoch := true } }.raise { src := 63 }

/-- PTIME_WRAP (R413): the counter at its largest value wraps, sets RI_EPOCH and raises source 63. -/
def execPtimeWrap (s : State) : Host.Outcome State Fault Refusal :=
  .next (if s.ptime = BitVec.allOnes 64 then s.wrapTime else s)

/-- One tick of the always-on clock with no command waiting: powered time counts (R413). The counter runs from the
power-up of the always-on domain. -/
def timeTick (s : State) : State :=
  if s.keeper.phase = .off then s
  else if s.ptime = BitVec.allOnes 64 then s.wrapTime
  else { s with ptime := s.ptime + 1 }

end Sys2Proof.Machine
end

