-- ==== Sys2Proof/Machine/KeeperVerbs.lean ====
section
/-! DEFINITION. The remaining verbs of the keeper (R42): the keeper itself, firmware information and loading (R361 to R363,
R477), mailboxes (R32, R354), the stack map (R430), tally maps (R327), relays (R37), known-answer tests (R364 to R367),
snapshots asked for by a verb (R412), and the keeper memory port (R476). -/
namespace Sys2Proof.Machine

/-! ## The keeper and its firmware -/

/-- KEEPER_PING (R42): the powered time and the verbs in progress. -/
def execKeeperPing (o : Origin) (s : State) : Host.Outcome State Fault Refusal :=
  .next (s.runVerb o 0x0100 fun _ =>
    s.verbDone o kOK 0 (results [(8, leBytes 8 s.ptime.toNat), (4, leBytes 4 s.keeper.verbs.length)]))

/-- The results of fw.info (R477). -/
def State.fwInfo (s : State) : Bytes :=
  let i := s.keeper.running
  results [(4, leBytes 4 Config.romVersion.toNat), (1, leBytes 4 i.fwVer.toNat), (1, leBytes 2 i.ifVer.toNat),
    (4, leBytes 4 i.secVer.toNat), (1, slice i.digest 0 16)]

/-- FW_INFO (R477). -/
def execFwInfo (o : Origin) (s : State) : Host.Outcome State Fault Refusal :=
  .next (s.runVerb o 0x0101 fun _ => s.verbDone o kOK 0 s.fwInfo)

/-- The image a header describes (R361, R363). -/
def imageOf (addr len : Nat) (b : Bytes) : FwImage :=
  { addr := BitVec.ofNat 56 addr, len := len, fwVer := BitVec.ofNat 32 (leAt b 8 4), ifVer := BitVec.ofNat 16 (leAt b 12 2),
    secVer := BitVec.ofNat 32 (leAt b 16 4), digest := sha384 (slice b 0 128) }

/-- The first byte of a range that is not zero. -/
def nonZeroAt (b : Bytes) (lo n : Nat) : List Nat :=
  match (List.range n).find? fun i => b.getD (lo + i) 0 ≠ 0 with
  | some i => [lo + i]
  | none => []

/-- The first check of R362 that an image of `len` bytes fails, as status and detail; `secRun` is the security version of
the running image for check 6, which only fw.load makes. -/
def State.imageFault (s : State) (b : Bytes) (len : Nat) (secRun : Option Nat) : Option (Nat × Nat) :=
  let body := leAt b 4 4
  let key := leAt b 20 1
  let bad := (if leAt b 0 4 ≠ 1 then [0] else []) ++
    (if len ≠ body + 256 || body % 64 ≠ 0 || 458752 < body then [4] else []) ++ nonZeroAt b 14 2 ++
    (if 3 < key then [20] else []) ++ nonZeroAt b 21 11 ++ nonZeroAt b 80 48 ++ nonZeroAt b 224 32
  match bad.min? with
  | some i => some (kBadParam, 0x0100 + i)
  | none =>
    let sec := leAt b 16 4
    if s.keeper.idRevoke.getLsbD key then some (kAuthFailed, 0)
    else if !ecdsaVerify (pointDecode (Config.bootKey key)) (sha384 (slice b 0 128)) (slice b 128 96) then some (kAuthFailed, 0)
    else if sha384 (slice b 256 body) ≠ slice b 32 48 then some (kAuthFailed, 0)
    else if sec < s.keeper.idFloor.toNat then some (kBadParam, 0x0110)
    else match secRun with
    | some r => if sec < r then some (kBadParam, 0x0110) else none
    | none => none

/-- FW_LOAD (R362, R363, R367): the image is checked where it lies, and recorded. -/
def execFwLoad (o : Origin) (s : State) : Host.Outcome State Fault Refusal :=
  .next (s.runVerb o 0x0102 fun v =>
    let a := par v.req 16 8
    let len := par v.req 24 4
    if s.unitFailed 6 then s.verbDone o kTestFailed 6
    else if !s.unitPassed 6 then s
    else s.withStruct o v 16 a len 256 fun b =>
      match s.imageFault b len (some s.keeper.running.secVer.toNat) with
      | some (st, d) => s.verbDone o st d
      | none =>
        let i := imageOf a len b
        (s.modKeeper fun k => { k with loaded := some i }).verbDone o kOK 0 (results [(4, leBytes 4 i.secVer.toNat)]))

/-- The boot ROM starts to read an image (R363, R429, R434): STATE 1. -/
def State.bootStart (s : State) (why : BootWhy) (addr : BitVec 56) : State :=
  (s.modKeeper fun k => { k with state := 1, bootWhy := why, bootAddr := addr, bootGot := [], bootFail := false,
                                  bootAsked := [] }).kmPush
    ⟨.boot, addr.toNat, 256, false, []⟩

/-- FW_ACTIVATE (R35, R363): no other verb is accepted, and those in progress drain. With no loaded image it completes
NO_SUCH_OBJECT. -/
def execFwActivate (o : Origin) (s : State) : Host.Outcome State Fault Refusal :=
  .next (s.runVerb o 0x0103 fun _ =>
    if s.keeper.loaded.isNone then (s.modKeeper fun k => { k with activating := false }).verbDone o kNoObject 0
    else s.verbDrains o)

/-- FW_ACTIVATE_RESTART (R35, R363): fw.activate is the only verb in progress, so the boot ROM reads the loaded image. -/
def execFwActivateRestart (s : State) : Host.Outcome State Fault Refusal :=
  .next (
    match s.keeper.verbs, s.keeper.loaded with
    | [v], some i =>
      if reqVerb v.req = 0x0103 && v.stage == .draining && s.keeperReady then s.bootStart (.activate v.origin) i.addr else s
    | _, _ => s)

/-! ## Mailboxes, the stack map, relays -/

/-- A binding of a mailbox takes effect at once, or after the verb it holds (R32, R354). -/
def State.rebind (s : State) (m : Nat) (t : Option Tenant) : State :=
  s.modMbox m fun b => if b.busy then { b with rebind := some t } else b.rebound t

/-- MBOX_BIND (R32, R43, R354). -/
def execMboxBind (o : Origin) (s : State) : Host.Outcome State Fault Refusal :=
  .next (s.runVerb o 0x0104 fun v =>
    let t : Tenant := BitVec.ofNat 12 (par v.req 18 2)
    if !s.tenantOpen t then s.verbDone o kNoObject 18
    else (s.rebind (par v.req 16 1) (some t)).verbDone o kOK 0)

/-- MBOX_UNBIND (R32, R354). -/
def execMboxUnbind (o : Origin) (s : State) : Host.Outcome State Fault Refusal :=
  .next (s.runVerb o 0x0105 fun v => (s.rebind (par v.req 16 1) none).verbDone o kOK 0)

/-- MEM_INFO (R430): a range as a privileged physical address, or zeros for an absent index. -/
def execMemInfo (o : Origin) (s : State) : Host.Outcome State Fault Refusal :=
  .next (s.runVerb o 0x0404 fun v =>
    let res := match s.keeper.stackMap.find? (·.idx = par v.req 16 1) with
      | some r => [(8, leBytes 8 (s.inp.chipId.toNat * 2 ^ 50 + r.base)), (8, leBytes 8 r.len), (4, leBytes 4 r.out.toNat)]
      | none => [(8, zeros 8), (8, zeros 8), (4, zeros 4)]
    s.verbDone o kOK 0 (results res))

/-- RELAY_ALLOW (R37). -/
def execRelayAllow (o : Origin) (s : State) : Host.Outcome State Fault Refusal :=
  .next (s.runVerb o 0x0A01 fun v =>
    (s.modKeeper fun k => { k with relayAllow := BitVec.ofNat 64 (par v.req 16 8) }).verbDone o kOK 0)

/-! ## Tallies (R327, R349) -/

/-- The first entry of a tally map that breaks its table or names a tally that is invalid for the context (R324, R327). -/
def State.mapOffence (s : State) (x : Ctx) (b : Bytes) : Option Nat :=
  (List.range 64).find? fun v =>
    let e := leAt b (2 * v) 2
    bit e 14 || (if bit e 15 then !(x.priv || s.tallyOwner (e % 2 ^ 14) == x.tenant) else e % 2 ^ 14 != 0)

/-- TALLY_VIRT (R327, R328, R385). -/
def execTallyVirt (o : Origin) (s : State) : Host.Outcome State Fault Refusal :=
  .next (s.runVerb o 0x0700 fun v =>
    let c := BitVec.ofNat 18 (par v.req 16 4)
    s.onCtx o c fun x =>
      if !(x.state == .idle || x.state == .paused || x.state == .stopped) then s.verbDone o kBusy 16
      else s.withStruct o v 24 (par v.req 24 8) 128 128 fun b =>
        match s.mapOffence x b with
        | some i => s.verbDone o kBadParam (0x0100 + 2 * i)
        | none =>
          if x.vmap.isNone && 256 ≤ (s.ctxs.filter fun e => e.2.vmap.isSome).length then s.verbDone o kNoResource 0
          else
            let m := (List.range 64).map fun i => BitVec.ofNat 16 (leAt b (2 * i) 2)
            (s.modCtx c fun x => { x with vmap := some m, tallyVirt := true }).verbDone o kOK 0)

/-- TALLY_READ (R349): the value changes nothing. -/
def execTallyRead (o : Origin) (s : State) : Host.Outcome State Fault Refusal :=
  .next (s.runVerb o 0x0701 fun v => s.verbDone o kOK 0 (results [(8, leBytes 8 (s.tallyVal (par v.req 16 2)))]))

/-! ## Known-answer tests (R364 to R367, R372) -/

/-- Link `l` is taken down and its training request lowered. -/
def State.linkStop (s : State) (l : Nat) : State :=
  if (s.link l).state == .training then s.setLink l { ({} : Link) with out := (s.link l).out } else s.linkDown l none

/-- What the failure of unit `u` takes with it (R367, R372). -/
def State.unitGone (s : State) (u : Nat) : State :=
  let ls := if u = 6 then linkNos else if 2 ≤ u && u ≤ 5 then linkNos.filter fun l => quadrant l + 2 = u else []
  let s := ls.foldl State.linkStop s
  if u = 6 || u = 7 then s.zeroiseKeeper else s

/-- Each port of quadrant `q` owes 8 idle flits while its cipher units are tested (R366). -/
def State.idleQuadrant (s : State) (q : Nat) : State :=
  (linkNos.filter fun l => quadrant l = q).foldl (fun t l => t.modLink l fun x => { x with idleOwed := 8 }) s

/-- The outcome of testing the units of `mask` (R364, R367): passed or failed, source 47 and its consequences for each failed
one, and a test record of kind `kind` that stands for the source when a unit failed. Units that pass are used again. -/
def State.testUnits (s : State) (mask pass : Nat) (kind : Nat) : State :=
  let us := setBits 8 mask
  let s := (us.filter fun u => decide (2 ≤ u) && decide (u ≤ 5)).foldl (fun t u => t.idleQuadrant (u - 2)) s
  let bad := us.filter fun u => !bit pass u
  let ok := us.filter (bit pass)
  let ev := evInfo 0x0C 0 (leBytes 1 kind ++ leBytes 1 0 ++ leBytes 2 (mask &&& pass) ++ leBytes 2 (bad.map (2 ^ ·)).sum ++ zeros 10)
  let s := ok.foldl (fun t u => { t with sec := { passed := setBit t.sec.passed u, failed := clearBit t.sec.failed u } }) s
  let s := bad.foldl (fun t u => { t with sec := { passed := clearBit t.sec.passed u, failed := setBit t.sec.failed u } }) s
  let s := match bad with
    | [] => s.event ev
    | u :: r => r.foldl (fun t w => t.raiseWith { src := 47, mid := w, sub := w } none true)
        (s.raiseWith { src := 47, mid := u, sub := u } (some ev))
  let s := bad.foldl State.unitGone s
  let s := if bit (mask &&& pass) 7 then s.seedDrbg else s
  let s := linkNos.foldl State.askTraining s
  s.waggleAll

/-- Whether a unit can be tested now (R366, R392): its domain is on, and a seed expander has finished its polynomials. -/
def State.unitIdle (s : State) (u : Nat) : Bool :=
  if u = 0 || u = 1 then s.domainOn (62 + u) && !s.expand.any fun e => decide (e.1 / 24 = u)
  else if u ≤ 5 then s.domainOn (62 + (u - 2) / 2) else true

/-- TEST_KAT (R364 to R367): waits until every unit named is powered and idle; `pass` is what the tests find. -/
def execTestKat (o : Origin) (pass : BitVec 8) (s : State) : Host.Outcome State Fault Refusal :=
  .next (s.runVerb o 0x0800 fun v =>
    let mask := par v.req 16 1
    let us := setBits 8 mask
    if !us.all s.unitIdle then
      us.foldl (fun t u => if u ≤ 1 then t.powerUp (62 + u) else if u ≤ 5 then t.powerUp (62 + (u - 2) / 2) else t) s
    else
      let s := s.testUnits mask pass.toNat 1
      let res := results [(1, leBytes 1 (mask &&& pass.toNat))]
      match us.find? fun u => !pass.getLsbD u with
      | some u => s.verbDone o kTestFailed u res
      | none => s.verbDone o kOK 0 res)

/-! ## Snapshots by a verb (R412) -/

/-- SNAP_TAKE (R408, R412): a trigger, whose capture completes the verb. -/
def execSnapTake (o : Origin) (s : State) : Host.Outcome State Fault Refusal :=
  .next (s.runVerb o 0x0900 fun _ =>
    if s.snap.busy then s.verbDone o kBusy 0
    else if !s.snap.en then s.verbDone o kNoResource 0
    else (s.snapTrigger 1).verbDrains o)

/-! ## The keeper memory port (R476) -/

/-- The address and length of the body that an image header announces. -/
def imageBody (h : Bytes) : Nat := leAt h 4 4

/-- Bytes that the boot ROM has read (R429), from its image address. -/
def Keeper.bootBytes (k : Keeper) (n : Nat) : Bytes := (List.range n).map fun i => k.bootGot.get 0 i

/-- What a completed read brings to its owner: the verb's bytes (R45), or the boot ROM's image (R429), whose header is
followed by the reads of its body. -/
def State.kmRead (s : State) (r : KmReq) (b : Bytes) (fail : Bool) : State :=
  match r.owner with
  | .verb o => s.modVerb o fun v =>
      { v with asked := alignDown 256 r.addr :: v.asked, readFail := v.readFail || fail,
               got := if fail then v.got else (b.zip (List.range r.len)).foldl (fun g p => g.set 0 (r.addr + p.2) p.1) v.got }
  | .boot =>
    let k := s.keeper
    let off := r.addr - k.bootAddr.toNat
    let got := if fail then k.bootGot else (b.zip (List.range r.len)).foldl (fun g p => g.set 0 (off + p.2) p.1) k.bootGot
    let s := s.modKeeper fun k => { k with bootGot := got, bootFail := k.bootFail || fail, bootAsked := off :: k.bootAsked }
    if off ≠ 0 || fail || 458752 < imageBody b then s
    else (kmBlocks (r.addr + 256) (imageBody b)).foldl (fun t p => t.kmPush ⟨.boot, p.1, p.2, false, []⟩) s
  | _ => s

/-- What a completed write brings to its owner: telemetry may write its next block; a failed write of a snapshot image
leaves the header unwritten, and the image is given up (R476). -/
def State.kmWritten (s : State) (r : KmReq) (fail : Bool) : State :=
  match r.owner with
  | .telemetry => { s with telem := { s.telem with busy := false } }
  | .snapshot _ =>
    if !fail then s
    else
      let s : State := { s with snap := { s.snap with busy := false } }
      s.modKeeper fun k => { k with kmq := k.kmq.filter fun q => match q.owner with | .snapshot _ => false | _ => true }
  | _ => s

/-- KEEPER_MEMORY_RESPONSE (R476): a beat of 64 B for the oldest request, which ends with its last beat; `fail` is valid
there. A read error raises no source (R45). -/
def execKeeperMemoryResponse (data : Bytes) (last fail : Bool) (s : State) : Host.Outcome State Fault Refusal :=
  .next (
    match s.keeper.kmq with
    | [] => s
    | r :: rest =>
      let buf := s.keeper.kmBuf ++ slice data 0 64
      if !last then s.modKeeper fun k => { k with kmBuf := buf }
      else
        let s := s.modKeeper fun k => { k with kmq := rest, kmBuf := [] }
        if r.write then s.kmWritten r fail else s.kmRead r (slice buf (r.addr % 64) r.len) fail)

end Sys2Proof.Machine
end

