-- ==== Sys2Proof/Machine/RegRead.lean ====
section
/-! DEFINITION. What every register of the control window reads as (R465 to R474): values as numbers, by register and by
offset. -/
namespace Sys2Proof.Machine

/-! ## Faults -/

/-- FLT_CFG of the selected source (R376). -/
def State.rdFltCfg (s : State) : Nat := (s.fltCfg s.faults.sel.toNat).toNat
/-- FLT_MERGE (R382). -/
def State.rdFltMerge (s : State) : Nat := s.faults.merges.toNat + 2 ^ 16 * b2n s.faults.mergeSat
/-- ERR_PIN_CTRL (R384). -/
def State.rdErrPin (s : State) : Nat := b2n s.faults.pinHold + 4 * b2n s.faults.pinForce + 8 * b2n s.errPinLow
/-- FRAME_RESTART (R386): the frames that are stopped. -/
def State.rdFrameRestart (s : State) : Nat := ((frameNos.filter fun f => (s.frame f).stopped).map (2 ^ ·)).sum

/-! ## The keeper and security -/

/-- KEEPER_STAT (R472). -/
def State.rdKeeperStat (s : State) : Nat := s.keeper.state.toNat + 2 ^ 16 * s.keeper.beat.toNat
/-- SS_APPROVED (R368). -/
def State.approved (s : State) : Bool := s.sec.passed == 0xFF && s.sec.failed == 0 && !s.inp.ftest
/-- SEC_STAT (R368). -/
def State.rdSecStat (s : State) : Nat :=
  s.sec.passed.toNat + 2 ^ 8 * s.sec.failed.toNat + 2 ^ 16 * b2n s.approved + 2 ^ 17 * b2n s.inp.ftest
/-- KEEPER_BOOT (R428). -/
def State.rdKeeperBoot (s : State) : Nat := s.keeper.kbAddr.toNat + 2 ^ 63 * b2n s.keeper.kbGo
/-- KNOCK_DROP (R473). -/
def State.rdKnockDrop (s : State) : Nat :=
  let k := s.regs.knockDrop
  k.count.toNat + 2 ^ 32 * k.last.toNat + 2 ^ 63 * b2n k.narrow
/-- ENGINE_CFG (R471). -/
def State.rdEngineCfg (s : State) : Nat :=
  s.inp.chipId.toNat + 2 ^ 6 * b2n s.inp.ftest + 2 ^ 8 * popcount 256 s.inp.present.toNat +
    2 ^ 24 * s.inp.spadLog2.toNat + 2 ^ 32 * s.inp.shcMib.toNat

/-! ## Power (R390 to R402, R474) -/

/-- The code of a frame state (R394). -/
def FrameState.code : FrameState → Nat
  | .run => 0
  | .idle => 1
  | .nap => 2
  | .off => 3

/-- FRAME_PWR (R397). -/
def State.rdFramePwr (s : State) : Nat :=
  (frameNos.map fun f =>
    let x := s.frame f
    2 ^ (4 * f) * (x.state.code + 4 * b2n x.scales + 8 * b2n x.stopped)).sum
/-- PD_ON of the domains `lo` to `lo + n - 1` (R392). -/
def State.domainBits (s : State) (lo n : Nat) : Nat := ((List.range n).map fun i => 2 ^ i * b2n (s.domainOn (lo + i))).sum
/-- PWR_DOM_LO. -/
def State.rdPwrDomLo (s : State) : Nat := s.domainBits 0 64
/-- PWR_DOM_HI. -/
def State.rdPwrDomHi (s : State) : Nat :=
  s.domainBits 64 2 + (frameNos.map fun f => 2 ^ (2 * f + 2) * (s.frame f).policy.toNat).sum
/-- The effective throttle level of a region (R400). -/
def State.effLevel (s : State) (r : Nat) : Nat := max s.power.smCap.toNat (s.region r).level
/-- SMOKER_CTRL (R401). -/
def State.rdSmokerCtrl (s : State) : Nat :=
  s.power.smCap.toNat + 2 ^ 8 * s.power.smWarn.toNat + 2 ^ 16 * s.power.smDeep.toNat + 2 ^ 24 * s.power.smRelease.toNat
/-- SMOKER_STAT (R401). -/
def State.rdSmokerStat (s : State) : Nat :=
  ((List.range 8).map fun r => 2 ^ (3 * r) * s.effLevel r + 2 ^ (24 + r) * b2n (s.region r).held).sum +
    2 ^ 32 * s.power.throtUs.toNat
/-- TELEM_CTRL (R406). -/
def State.rdTelemCtrl (s : State) : Nat := b2n s.telem.en + 2 * s.telem.log2.toNat + 2 ^ 8 * s.telem.base.toNat
/-- PWR_WAKE (R474). -/
def State.rdPwrWake (s : State) : Nat := b2n s.power.pkWake + 2 * b2n s.power.asleep

/-! ## Flow control, swarms, arbiters -/

/-- FLOW_CTRL (R209). -/
def State.rdFlowCtrl (s : State) : Nat :=
  let r := s.regs
  r.fcCap.toNat + 2 ^ 16 * r.fcFabRes.toNat + 2 ^ 32 * r.fcWcap.toNat + 2 ^ 48 * r.fcFabPrio.toNat
/-- SWARM_CTRL (R197). -/
def State.rdSwarmCtrl (s : State) : Nat := s.regs.swWin.toNat + 2 ^ 16 * s.regs.swEjectUs.toNat
/-- SWARM_STAT (R198). -/
def State.rdSwarmStat (s : State) (n : Nat) : Nat :=
  let x := s.swarm n
  b2n x.isOpen + 2 * b2n (x.held && (s.feedWork n).isSome) + 4 * x.kset.toNat + 2 ^ 16 * popcount 256 (x.members &&& ~~~x.ejected).toNat +
    2 ^ 25 * x.ejects.toNat
/-- The statistics of the requester that ARB_SEL selects; none for a requester that does not exist, zeros for a frame that
is off (R224, R225). -/
def State.arbStat (s : State) : ArbStat :=
  if 65 < s.regs.arbReq.toNat then {} else (s.frame s.regs.arbFrame.toNat).stats.get {} s.regs.arbReq.toNat
/-- ARB_FLAGS (R225). -/
def State.rdArbFlags (s : State) : Nat :=
  let a := s.arbStat
  b2n a.grantSat + 2 * b2n (a.waited == BitVec.allOnes 48) + 4 * b2n a.longSat

/-! ## Tallies (R322, R332, R341, R347) -/

/-- TALLY_CTRL. -/
def State.rdTallyCtrl (s : State) : Nat := s.tally.deadlockUs.toNat + 2 ^ 16 * s.tally.lendUs.toNat
/-- TALLY_STAT; zero while the unit is off (R469). -/
def State.rdTallyStat (s : State) : Nat :=
  if s.tallyOn then b2n s.tally.dlFired + 2 * b2n s.tally.waitFull + 2 ^ 16 * (s.ctxs.filter fun e => e.2.sharedWait).length
  else 0
/-- BAR_STAT; zero while the unit is off (R469). -/
def State.rdBarStat (s : State) (b : Nat) : Nat :=
  let x := s.barrier b
  if s.tallyOn then x.reported.toNat + 2 ^ 31 * b2n x.cfgErr + 2 ^ 32 * x.released.toNat else 0
/-- CRED_CFG. -/
def State.rdCredCfg (s : State) (c : Nat) : Nat := (s.credCfg c).tenant.toNat + 2 ^ 16 * (s.credCfg c).init.toNat
/-- CRED_VAL; CR_INIT while the unit is off (R469). -/
def State.rdCredVal (s : State) (c : Nat) : Nat := (s.credVal c).value.toNat + 2 ^ 31 * b2n (s.credVal c).under

/-! ## Snapshots and the recorder -/

/-- SNAP_CTRL (R412). -/
def State.rdSnapCtrl (s : State) : Nat :=
  b2n s.snap.en + 4 * b2n s.snap.onFault + 8 * b2n s.snap.inEn + 2 ^ 18 * s.snap.base.toNat
/-- SNAP_STAT (R412). -/
def State.rdSnapStat (s : State) : Nat :=
  b2n s.snap.busy + 2 ^ 8 * s.snap.dropped.toNat + 2 ^ 16 * s.snap.seq.toNat + 2 ^ 48 * s.snap.cause.toNat
/-- REC_CURSOR (R420). -/
def State.rdRecCursor (s : State) : Nat := s.recd.curOffset.toNat + 2 ^ 63 * b2n s.recd.curFlash
/-- REC_INFO (R420). -/
def State.rdRecInfo (s : State) : Nat :=
  let r := s.recd
  r.gen.toNat + 2 ^ 32 * r.lost.toNat + 2 ^ 48 * b2n r.noFlash + 2 ^ 49 * b2n r.ready + 2 ^ 50 * b2n r.anch +
    2 ^ 51 * b2n r.epoch

/-! ## By offset -/

/-- A register at an offset: its width in bytes and what it reads; none at a reserved offset. The mailbox windows and
REC_WINDOW are arrays of bytes and are not registers (R466). -/
def State.readReg (s : State) (off : Nat) : Option (Nat × Nat) :=
  let reg32 (v : Nat) : Option (Nat × Nat) := some (4, v)
  let reg64 (v : Nat) : Option (Nat × Nat) := some (8, v)
  let page := off / 4096
  let o := off % 4096
  if 0x10 ≤ page && page < 0x28 then
    match o with
    | 0x100 => reg32 (s.mbox (page - 8)).db
    | 0x108 => reg64 0
    | _ => none
  else if page = 1 then (if off % 4 = 0 && o < 128 then reg32 (s.mbox (o / 4)).db else none)
  else if 0x34000 ≤ off && off < 0x34800 then
    let b := (off - 0x34000) / 32
    match off % 32 with
    | 0 => reg64 (s.barrier b).cfg0.toNat
    | 8 => reg64 (s.barrier b).cfg1.toNat
    | 16 => reg64 (s.barrier b).cfg2.toNat
    | 24 => reg64 (s.rdBarStat b)
    | _ => none
  else if page = 0x35 then (if off % 4 = 0 then reg32 (s.tally.own.get 0 (o / 4)).toNat else none)
  else if 0x38000 ≤ off && off < 0x3C000 then
    let c := (off - 0x38000) / 16
    match off % 16 with
    | 0 => reg64 (s.rdCredCfg c)
    | 8 => reg32 (s.rdCredVal c)
    | _ => none
  else if 0x32040 ≤ off && off < 0x32060 then
    let n := (off - 0x32040) / 8
    match off % 8 with
    | 0 => reg32 (s.rdSwarmStat n)
    | 4 => reg32 (s.swarm n).pace.toNat
    | _ => none
  else match off with
  | 0x00000 => reg64 0x0101_0640_4D4D
  | 0x00008 => reg64 s.rdEngineCfg
  | 0x00010 => reg64 (bits s.inp.present.toNat 63 0)
  | 0x00018 => reg64 (bits s.inp.present.toNat 127 64)
  | 0x00020 => reg64 (bits s.inp.present.toNat 191 128)
  | 0x00028 => reg64 (bits s.inp.present.toNat 255 192)
  | 0x00030 => reg32 s.rdKeeperStat
  | 0x00034 => reg32 0
  | 0x00038 => reg32 s.doneSum
  | 0x0003C => reg32 s.rdSecStat
  | 0x00040 => reg64 s.rdKeeperBoot
  | 0x04000 => reg64 0
  | 0x04008 => reg64 s.rdKnockDrop
  | 0x30000 => reg64 s.faults.stat.toNat
  | 0x30008 => reg32 s.faults.sel.toNat
  | 0x3000C => reg32 s.rdFltCfg
  | 0x30010 => reg64 s.faults.cap0.toNat
  | 0x30018 => reg64 s.faults.cap1.toNat
  | 0x30020 => reg64 s.faults.cap2.toNat
  | 0x30028 => reg32 s.rdFltMerge
  | 0x3002C => reg32 s.faults.corr.toNat
  | 0x30030 => reg32 s.rdErrPin
  | 0x30034 => reg32 s.rdFrameRestart
  | 0x30038 => reg32 0
  | 0x30040 => reg64 s.rdSnapCtrl
  | 0x31000 => reg64 (s.power.napUs.toNat + 2 ^ 16 * s.power.offMs.toNat)
  | 0x31008 => reg64 s.rdFramePwr
  | 0x31010 => reg64 s.rdPwrDomLo
  | 0x31018 => reg64 s.rdPwrDomHi
  | 0x31020 => reg32 s.rdSmokerCtrl
  | 0x31024 => reg32 s.telem.period.toNat
  | 0x31028 => reg64 s.rdSmokerStat
  | 0x31030 => reg64 s.rdTelemCtrl
  | 0x32000 => reg64 s.rdFlowCtrl
  | 0x32008 => reg32 s.rdSwarmCtrl
  | 0x3200C => reg32 (s.regs.arbFrame.toNat + 16 * s.regs.arbReq.toNat)
  | 0x32010 => reg32 s.arbStat.grants.toNat
  | 0x32014 => reg32 s.arbStat.longest.toNat
  | 0x32018 => reg64 s.arbStat.waited.toNat
  | 0x32020 => reg32 s.rdArbFlags
  | 0x33000 => reg32 s.rdTallyCtrl
  | 0x33004 => reg32 s.rdTallyStat
  | 0x40000 => reg64 s.ptime.toNat
  | 0x40008 => reg32 s.rdPwrWake
  | 0x40010 => reg64 s.rdSnapStat
  | 0x40018 => reg64 s.rdRecCursor
  | 0x40020 => reg64 s.recd.head.toNat
  | 0x40028 => reg64 s.recd.tail.toNat
  | 0x40030 => reg64 s.recd.flushed.toNat
  | 0x40038 => reg64 s.rdRecInfo
  | _ => none

/-- Whether an offset lies in an array of bytes (R466): a mailbox window by either path, or REC_WINDOW. -/
def isArray (off : Nat) : Bool :=
  (0x2000 ≤ off && off < 0x4000) || (0x10000 ≤ off && off < 0x28000 && off % 4096 < 0x100) ||
    (0x41000 ≤ off && off < 0x42000)

/-- The width in bytes of an access strobe that R466 admits at an offset's slot: one half or the whole slot. -/
def strobeWidth (strobe : BitVec 8) : Option Nat :=
  if strobe = 0xFF then some 8 else if strobe = 0x0F || strobe = 0xF0 then some 4 else none

/-- The offset that an access of a slot names: its upper half with strobe 0xF0. -/
def accessOff (slot : Nat) (strobe : BitVec 8) : Nat := if strobe = 0xF0 then slot + 4 else slot

/-- The 8 B slot of an offset: CP_ADDR carries bits [23:3] (R455). -/
def slotOf (off : BitVec 24) : Nat := alignDown 8 off.toNat

/-- Whether an access is taken (R456, R466): an array of bytes, or a register of exactly the access's width. -/
def State.accessOk (s : State) (slot : Nat) (strobe : BitVec 8) : Bool :=
  match strobeWidth strobe with
  | none => false
  | some n => isArray slot || (match s.readReg (accessOff slot strobe) with | some r => r.1 = n | none => false)

end Sys2Proof.Machine
end

