-- ==== Sys2Proof/Machine/Snapshot.lean ====
section
/-! DEFINITION. The snapshot network (R408 to R412) and telemetry (R406). -/
namespace Sys2Proof.Machine

/-! ## The image (R411) -/

/-- The register words of the image, in the order of the table Snapshot image. -/
def State.imageRegs (s : State) : List Nat :=
  [s.faults.stat.toNat, s.faults.cap0.toNat, s.faults.cap1.toNat, s.faults.cap2.toNat, s.rdFltMerge, s.faults.corr.toNat,
   s.rdErrPin, s.rdKeeperStat, s.rdSecStat, s.rdPwrDomLo, s.rdPwrDomHi, s.rdFramePwr, s.rdSmokerStat, s.rdTallyStat,
   s.rdSwarmCtrl, s.rdFlowCtrl, s.rdSmokerCtrl, s.doneSum]

/-- Bytes filled with zeros to a size. -/
def fill (n : Nat) (b : Bytes) : Bytes := slice b 0 n

/-- Positions of swarm `n`'s region in frame `f` that hold no beat a member there still has to take (R195). -/
def State.regionFree (s : State) (n f : Nat) : Nat :=
  let x := s.swarm n
  let lag := (x.live.filter fun p => p / 16 = f).foldl (fun a p => max a (x.lag p)) 0
  x.win - lag

/-- The area of swarm `n`. The widths and places of what the table lists without any are the model's (DESIGN CHOICE, log entry 60). -/
def State.imageSwarm (s : State) (n : Nat) : Bytes :=
  let x := s.swarm n
  let worst := x.live.foldl (fun (a : Nat × Nat) p => if a.1 < x.lag p then (x.lag p, p) else a) (0, 0)
  fill 64 (leBytes 4 (s.rdSwarmStat n) ++ leBytes 4 x.pace.toNat ++ leBytes 4 worst.1 ++ leBytes 2 worst.2 ++
    (frameNos.filter fun f => !(s.swarmPorts n f).isEmpty).flatMap fun f => leBytes 2 (s.regionFree n f))

/-- The code of a link's state in the image (DESIGN CHOICE, log entry 60). -/
def LinkState.code : LinkState → Nat
  | .down => 0
  | .training => 1
  | .measuring => 2
  | .waggle => 3
  | .held => 4
  | .service => 5

/-- The area of link `l` (DESIGN CHOICE, log entry 60). -/
def State.imageLink (s : State) (l : Nat) : Bytes :=
  let x := s.link l
  fill 64 (leBytes 1 x.state.code ++ leBytes 1 (if x.peerRec = [] then 0xFF else x.partner.toNat) ++
    leBytes 1 (b2n x.rate) ++ zeros 1 ++ leBytes 4 x.rttNs ++ leBytes 2 x.grant ++
    ((List.range 6).flatMap fun i => leBytes 2 (x.txCr.getD i 0)) ++ leBytes 2 x.replay.length ++
    leBytes 8 x.txCtr.toNat ++ leBytes 8 x.rxCtr.toNat)

/-- The area of frame `f`: zeros but for its state code when it is off (R409; DESIGN CHOICE, log entry 60). -/
def State.imageFrame (s : State) (f : Nat) : Bytes :=
  let x := s.frame f
  if x.state == .off then fill 256 (leBytes 1 x.state.code)
  else
    let held (p : Slot → Bool) : Nat := s.heldSlots f p
    fill 256 (leBytes 1 x.state.code ++ leBytes 1 x.policy.toNat ++ leBytes 1 (b2n x.stopped) ++ zeros 1 ++
      leBytes 2 (s.poolSize f - s.poolUsed f) ++ leBytes 2 (held fun q => !q.pool) ++ leBytes 2 (s.regionSlots f) ++
      leBytes 2 (held Slot.inFlight) ++ leBytes 2 x.went.length ++
      ((List.range 4).flatMap fun i => leBytes 1 (s.tap (4 * f + i)).rdCr ++ leBytes 1 (s.tap (4 * f + i)).wrCr) ++
      leBytes 1 (s.effLevel (f / 2)) ++ (List.range 16).flatMap fun i => leBytes 1 (s.port (16 * f + i)).landing.length)

/-- The area of channel `c`: the record of its bound context, or zeros. -/
def State.imageChan (s : State) (c : Nat) : Bytes :=
  match (s.chan c).ctx with
  | some x => (s.ctx x).record
  | none => zeros 64

/-- The statistics of requester `r` of frame `f`. -/
def State.imageReq (s : State) (f r : Nat) : Bytes :=
  let a := (s.frame f).stats.get {} r
  let flags := b2n a.grantSat + 2 * b2n (a.waited == BitVec.allOnes 48) + 4 * b2n a.longSat
  leBytes 4 a.grants.toNat ++ leBytes 8 a.waited.toNat ++ leBytes 4 a.longest.toNat ++ leBytes 4 flags ++
    ((List.range 4).flatMap fun t => leBytes 1 ((s.tap (4 * f + t)).age.get 0 r)) ++ zeros 8

/-- The image from byte 0x100 to its end. -/
def State.imageBody (s : State) : Bytes :=
  fill 768 (s.imageRegs.flatMap (leBytes 8)) ++
    (List.range 4).flatMap s.imageSwarm ++
    fill 0xB00 ((List.range 18).flatMap s.imageLink) ++
    frameNos.flatMap s.imageFrame ++
    (List.range 1024).flatMap s.imageChan ++
    fill 0x9000 (frameNos.flatMap fun f => (List.range 66).flatMap (s.imageReq f)) ++
    (List.range 1024).flatMap (fun c => leBytes 4 (s.rdCredVal c)) ++
    (List.range 16384).flatMap fun t => leBytes 8 (s.tallyVal t)

/-- The header of the image (R411). -/
def imageHead (seq cause chip : Nat) (time : Word) (fine : Nat) (body : Bytes) : Bytes :=
  let h := fill 252 (leBytes 4 seq ++ leBytes 1 cause ++ leBytes 1 chip ++ zeros 2 ++ leBytes 8 time.toNat ++
    leBytes 2 fine ++ zeros 2 ++ leBytes 4 245760)
  h ++ leBytes 4 (crc32c (h ++ body)).toNat

/-! ## Triggers (R408) -/

/-- The write of SNAP_CTRL (R412, R468): SC_TRIG acts after the other fields. -/
def State.snapCtrlWrite (s : State) (w : Word) : State :=
  let s : State := { s with snap := { s.snap with en := w.getLsbD 0, onFault := w.getLsbD 2, inEn := w.getLsbD 3,
                                                  base := BitVec.ofNat 38 (bits w.toNat 55 18) } }
  if w.getLsbD 1 then s.snapTrigger 2 else s

/-- SC_TRIG (R408): a write of SNAP_CTRL with SC_TRIG set. -/
def execScTrig (w : Word) (s : State) : Host.Outcome State Fault Refusal :=
  .next (if w.getLsbD 1 && s.cpAwake then s.snapCtrlWrite w else s)

/-- SNAP_IN (R408). -/
def execSnapIn (s : State) : Host.Outcome State Fault Refusal :=
  .next (if s.snap.inEn then s.snapTrigger 4 else s)

/-! ## The capture (R409 to R412) -/

/-- SC_BASE as an address. -/
def State.snapBase (s : State) : Nat := s.snap.base.toNat * 2 ^ 18

/-- SNAPSHOT_CAPTURE (R409 to R412): the state as it stands is frozen into an image, whose bytes go out through the keeper
memory port with the header last; SNAP_OUT rises, a snapshot record is appended, and snap.take completes. While the shared
data clock is stopped, the trigger wakes it first. -/
def execSnapshotCapture (fine : BitVec 16) (s : State) : Host.Outcome State Fault Refusal :=
  .next (
    match s.snap.trig with
    | none => s
    | some cause =>
      if !s.clockOn 16 then s.clockUp 16
      else
        let body := s.imageBody
        let seq := s.snap.seq.toNat + 1
        let head := imageHead seq cause.toNat s.inp.chipId.toNat s.ptime fine.toNat body
        let s : State := { s with snap := { s.snap with busy := true, seq := BitVec.ofNat 32 seq,
                                                        cause := BitVec.ofNat 4 cause.toNat, trig := none, out := 2 } }
        let s := s.event (evInfo 0x0F 0 (leBytes 4 seq ++ leBytes 1 cause.toNat ++ zeros 3 ++ leBytes 8 s.snapBase))
        let s := s.kmWrite (.snapshot false) (s.snapBase + 256) body
        let s := s.kmWrite (.snapshot true) s.snapBase head
        (s.keeper.verbs.filter fun v => reqVerb v.req = 0x0900 && v.stage == .draining).foldl
          (fun t v => t.finish v kOK 0 (results [(8, leBytes 8 s.ptime.toNat)])) s)

/-- SNAPSHOT_IMAGE_DONE (R411): every write of the image has been answered. -/
def execSnapshotImageDone (s : State) : Host.Outcome State Fault Refusal :=
  .next (
    if s.snap.busy && !s.keeper.kmq.any (fun r => match r.owner with | .snapshot _ => true | _ => false) then
      { s with snap := { s.snap with busy := false } }
    else s)

/-- The answer to a read on the control port (R455). -/
def State.answerRead (s : State) (v : Nat) : State :=
  { s with regs := { s.regs with reply := BitVec.ofNat 64 v, replyErr := false } }

/-- SNAP_STAT_READ (R412): SN_DROPPED is returned and cleared. -/
def execSnapStatRead (s : State) : Host.Outcome State Fault Refusal :=
  .next (
    let t := s.answerRead s.rdSnapStat
    { t with snap := { t.snap with dropped := 0 } })

/-! ## Telemetry (R406) -/

/-- The highest effective throttle levels of the period take in the levels as they stand. -/
def State.noteLevels (s : State) : State :=
  (List.range 8).foldl (fun t r =>
    { t with telem := { t.telem with levels := t.telem.levels.set 0 r (max (t.telem.levels.get 0 r) (t.effLevel r)) } }) s

/-- A telemetry block (R406). The sensors' lowest readings are free values. -/
def State.telemBlock (s : State) : Bytes :=
  let b := leBytes 8 s.ptime.toNat ++ leBytes 8 s.telem.seq.toNat ++
    (frameNos.map fun f => BitVec.ofNat 8 ((s.frame f).state.code + 4 * (s.frame f).policy.toNat +
      16 * b2n (s.frame f).stopped)) ++
    ((List.range 8).map fun r => BitVec.ofNat 8 (s.telem.levels.get 0 r)) ++
    ((List.range 8).flatMap fun r => leBytes 2 (Config.supplyMv r s.free).toNat) ++
    (frameNos.flatMap fun f => leBytes 4 (s.frame f).bursts.toNat) ++
    (linkNos.flatMap fun l => leBytes 4 (if (s.link l).isUp then (s.link l).rttNs else 0)) ++
    leBytes 2 s.lentChans.length ++ leBytes 2 s.tally.lentCores.length ++ leBytes 4 s.telem.throt.toNat
  let b := fill 252 b
  b ++ leBytes 4 (crc32c b).toNat

/-- TELEMETRY (R403, R406): a block goes to its slot of the ring, or is skipped while the last one is not acknowledged;
TM_SEQ advances either way, and a period begins. -/
def execTelemetry (s : State) : Host.Outcome State Fault Refusal :=
  .next (
    if !s.telem.en || s.power.failing || !s.keeperReady then s
    else
      let slot := s.telem.seq.toNat % 2 ^ s.telem.log2.toNat
      let t := if s.telem.busy then s
        else
          let t := s.kmWrite .telemetry (s.telem.base.toNat * 256 + 256 * slot) s.telemBlock
          { t with telem := { t.telem with busy := true }, free := t.free + 1 }
      let t := t.mapFrames fun x => { x with bursts := 0 }
      { t with telem := { t.telem with seq := t.telem.seq + 1, levels := [], throt := 0 } }.noteLevels)

end Sys2Proof.Machine
end

