-- ==== Sys2Proof/Machine/Boot.lean ====
section
/-! DEFINITION. Start-up (R426 to R434), resets of the keeper and the block (R30, R379, R380, R434, R439), and orderly
shutdown (R423, R435 to R437, R474). -/
namespace Sys2Proof.Machine

/-! ## Sampling the static inputs (R439) -/

/-- The static inputs as the engine takes them: sizes outside their ranges at the nearer end (R449). -/
def takenInputs (i : StaticIn) : StaticIn :=
  { i with spadLog2 := BitVec.ofNat 6 (min 32 (max 16 i.spadLog2.toNat)), shcMib := BitVec.ofNat 28 (max 1 i.shcMib.toNat) }

/-- Source 52 for a static input that was out of range: a tap's initial credit of 0 (R444), or a size (R449). -/
def State.inputFaults (s : State) (i : StaticIn) : State :=
  let zero (l : List (Nat × BitVec 8)) (t : Nat) : Bool := (match l.find? fun e => e.1 = t with | some e => e.2.toNat | none => 0) = 0
  let s := (List.range 64).foldl (fun t p =>
    if zero i.rdCr p || zero i.wrCr p then t.raise { src := 52, mkind := 4, mid := p, sub := 0, addr := p } else t) s
  if i.spadLog2.toNat < 16 || 32 < i.spadLog2.toNat || i.shcMib = 0 then s.raise { src := 52, mkind := 2, sub := 1 } else s

/-! ## The boot ROM before an image (R359, R360, R365, R461) -/

/-- Whether a certificate chain is valid for the identity key `d` (R360). -/
def ownChainOk (d : Nat) (root chain : Bytes) : Bool := chainValid root chain && leafKey chain == pointEncode (pubKey d)

/-- The boot ROM's tests have failed (R365): the keeper stays in the failed state, where no KB_GO is taken; unit 6 is marked failed
and raises source 47 with a test record (R367). -/
def State.romFailed (s : State) : State :=
  let s := s.modKeeper fun k => { k with state := 3, phase := .bootRom, kbGo := false }
  let s : State := { s with sec := { passed := clearBit s.sec.passed 6, failed := setBit s.sec.failed 6 } }
  s.raiseWith { src := 47, mid := 6, sub := 6 }
    (some (evInfo 0x0C 0 (leBytes 1 4 ++ leBytes 1 0 ++ leBytes 2 0 ++ leBytes 2 0x40 ++ zeros 10)))

/-- Phase 2 at power-up, block reset or wake: the identity store is read, the key derived, the store locked, and KB_GO is
awaited. A chain that fails is recorded as a failed power-up test (R360; DEDUCED, log entry 61). The boot ROM's own tests end it
when they fail (R365; their outcome is a free value, DESIGN CHOICE, log entry 11). -/
def State.bootRom (s : State) : State :=
  let p := s.draw
  let s := p.2
  let i := s.inp
  let d := beNat (slice i.idSecret 0 48) % (p384n - 1) + 1
  let ok := ownChainOk d i.idRoot i.idChain
  let s := s.modKeeper fun k => { k with
    phase := .bootRom, state := 0, idKey := some d, idRoot := i.idRoot, idChain := i.idChain, idFloor := i.idFloor,
    idRevoke := i.idRevoke, idLock := true, chainOk := ok }
  let s := if ok then s else s.event (evInfo 0x0C 0 (leBytes 1 4 ++ zeros 15))
  if Config.romTestsPass p.1 then s else s.romFailed

/-- Phase 2 starts once domain 64 and the keeper clock are granted (R426). -/
def State.bootIfPowered (s : State) : State :=
  if s.keeper.phase == .alwaysOn && !s.power.asleep && s.domainOn 64 && s.clockOn 21 then s.bootRom else s

/-! ## Power-up and block reset (R380, R426, R434, R439) -/

/-- AO_RST_N (R426, R427, R439): the always-on domain starts: everything at its reset value, the static inputs sampled, the
flash scan under way, domain 64 and the keeper clock requested. -/
def execAoRstN (inp : StaticIn) (s : State) : Host.Outcome State Fault Refusal :=
  .next (
    let t : State := { State.reset with
      pending := s.pending, free := s.free, nextId := s.nextId, inp := takenInputs inp,
      keeper := { ({} : Keeper) with phase := .alwaysOn }, recd := { ({} : Recorder) with scanning := true } }
    ((((t.powerUp 64).clockUp 21).portCredits).tapCredits).inputFaults inp)

/-- What a smoker region holds after a reset: its level as its reports stand. -/
def Region.afterReset (x : Region) (warn deep : Bool) : Region :=
  { x with level := if x.deep || deep then 7 else if x.warn || warn then 2 else 0, held := false }

/-- Everything outside the always-on domain at its reset value (R372, R380, R399): powered time, the recorder, SNAP_STAT
and the handshakes stay, and the static inputs are sampled again. Records kept are flushed (R425). -/
def State.loseBlock (s : State) (inp : StaticIn) (cause : Byte) : State :=
  let p := s.power
  let t : State := { State.reset with
    pending := s.pending, free := s.free, nextId := s.nextId, ptime := s.ptime, inp := takenInputs inp, recd := s.recd,
    keeper := { ({} : Keeper) with phase := .alwaysOn, startCause := cause },
    snap := { ({} : Snap) with dropped := s.snap.dropped, seq := s.snap.seq, cause := s.snap.cause, out := s.snap.out },
    power := { ({} : Power) with req := p.req, ack := p.ack, clkReq := p.clkReq, clkAck := p.clkAck, ret := p.ret,
                                 retAck := p.retAck, monWarn := p.monWarn, monDeep := p.monDeep, regions := p.regions.mapAll {} fun _ x =>
                                   x.afterReset p.monWarn p.monDeep } }
  (((t.portCredits).tapCredits).askFlush)

/-- The fault collector after a block reset (R380): status, capture, merges, counts and the error pin stay; its
configuration is that of reset. -/
def Faults.afterReset (f : Faults) : Faults :=
  { stat := f.stat, cap0 := f.cap0, cap1 := f.cap1, cap2 := f.cap2, merges := f.merges, mergeSat := f.mergeSat, corr := f.corr,
    pinHold := f.pinHold, pinForce := f.pinForce, pinLow := f.pinLow, pinMin := f.pinMin, pinRelease := f.pinRelease,
    brstRun := true, rstReq := f.rstReq }

/-- A block reset (R380, R434): phases 2 to 6 follow, with cause 1. -/
def State.blockReset (s : State) (inp : StaticIn) : State :=
  let f := s.faults
  let t := { s.loseBlock inp 1 with faults := f.afterReset }
  (((t.powerUp 64).clockUp 21).inputFaults inp).bootIfPowered

/-- BLK_RST_N (R434, R439, R458): the integration has reset the block and releases it; CHIP_RST_REQ_N is released. -/
def execBlkRstN (inp : StaticIn) (s : State) : Host.Outcome State Fault Refusal :=
  .next (
    if s.keeper.phase == .off then s
    else
      let s : State := { s with faults := { s.faults with rstReq := false } }
      s.blockReset inp)

/-- BLOCK_RESET_REACTION (R379): the recorder's flush has ended or 2 ms have passed, so the resets that faults have called
for take place: CHIP_RST_REQ_N falls, and a block reset runs. -/
def execBlockResetReaction (s : State) : Host.Outcome State Fault Refusal :=
  .next (
    let f := s.faults
    let s : State := if f.crst then { s with faults := { s.faults with crst := false, rstReq := true } } else s
    if f.brst then s.blockReset s.inp else s)

/-! ## Loading an image (R428, R429, R434) -/

/-- The image is refused (R429): STATE 3, a test record of kind 4 with fail bit 6, and source 47. -/
def State.bootFailed (s : State) : State :=
  let s := s.modKeeper fun k => { k with state := 3, phase := .auth, kbGo := false, bootGot := [], bootAsked := [] }
  s.raiseWith { src := 47, mid := 6, sub := 6 }
    (some (evInfo 0x0C 0 (leBytes 1 4 ++ leBytes 1 0 ++ leBytes 2 0 ++ leBytes 2 0x40 ++ zeros 10)))

/-- The write of KEEPER_BOOT (R428, R429, R468): the address, and with KB_GO the load, in the boot ROM's wait or after a
failed image; a boot ROM whose own tests have failed takes none (R365). -/
def State.kbWrite (s : State) (w : Word) : State :=
  let s := s.modKeeper fun k => { k with kbAddr := w.setWidth 56 }
  let waits := s.keeper.state == 0 && s.keeper.phase == .bootRom || s.keeper.state == 3 && s.keeper.phase != .bootRom
  if !w.getLsbD 63 || !waits then s
  else
    let a := s.keeper.kbAddr
    let s := s.modKeeper fun k => { k with kbGo := true, state := 1, phase := .auth }
    if a.toNat % 256 ≠ 0 || bits a.toNat 55 50 ≠ s.inp.chipId.toNat then s.bootFailed else s.bootStart .kbGo a

/-- KB_GO (R429): a write of KEEPER_BOOT with KB_GO set. -/
def execKbGo (w : Word) (s : State) : Host.Outcome State Fault Refusal :=
  .next (if w.getLsbD 63 && s.cpAwake then s.kbWrite w else s)

/-- Hive starts on an image (R426, R434): phase 4 follows, with domains 62 and 63 powered for the tests (R431). -/
def State.hiveStart (s : State) (i : FwImage) : State :=
  let s := s.modKeeper fun k => { k with running := i, phase := .tests, kbGo := false, bootGot := [], bootAsked := [],
                                          loaded := none, testsDone := false }
  (s.powerUp 62).powerUp 63

/-- The verdict on the image that the boot ROM has read (R362, R363, R429, R434). -/
def State.bootVerdict (s : State) (ok : Bool) (i : FwImage) : State :=
  match s.keeper.bootWhy with
  | .kbGo => if ok then (s.hiveStart i).modKeeper fun k => { k with powerUpImage := i } else s.bootFailed
  | .keeperReset => if ok then s.hiveStart i else s.bootFailed
  | .activate o =>
    if ok then
      let s := s.modKeeper fun k => { k with running := i, state := 2, bootGot := [], bootAsked := [], loaded := none,
                                              activating := false }
      s.verbDone o kOK 0 s.fwInfo
    else s.bootStart (.powerUpAgain o) s.keeper.powerUpImage.addr
  | .powerUpAgain o =>
    if ok then
      let s := s.modKeeper fun k => { k with running := i, state := 2, bootGot := [], bootAsked := [], activating := false }
      s.verbDone o kAuthFailed 0
    else (s.modKeeper fun k => { k with activating := false, verbs := k.verbs.map fun v => { v with stage := .interrupted } }).bootFailed

/-- BOOT_AUTH_DONE (R362, R363, R429, R434): the image is in hand, or its read has failed, and is judged on the copy in the keeper's
memory, where it lies from offset 0 (DESIGN CHOICE, log entry 144). Check 6 is made on an
image that fw.load has loaded and after a keeper reset. -/
def execBootAuthDone (s : State) : Host.Outcome State Fault Refusal :=
  .next (
    let k := s.keeper
    let reading := k.kmq.any fun r => r.owner == .boot
    if k.state ≠ 1 || !(k.phase == .auth || k.phase == .ready) || reading || !(k.bootFail || k.bootAsked.contains 0) then s
    else
      let body := imageBody (k.bootBytes 256)
      let b := if body ≤ 458752 then k.bootBytes (256 + body) else k.bootBytes 256
      let sec := match k.bootWhy with
        | .keeperReset | .activate _ => some k.running.secVer.toNat
        | _ => none
      let len := match k.bootWhy, k.loaded with | .activate _, some i => i.len | _, _ => 256 + body
      let s := s.modKeeper fun k => { k with mem := k.bootGot }
      s.bootVerdict (!k.bootFail && (s.imageFault b len sec).isNone) (imageOf k.bootAddr.toNat len b))

/-! ## Tests, the stack map and links (R426, R430, R431) -/

/-- HIVE_TESTS_DONE (R365 to R367, R426, R431): the eight units are tested, once powered and idle, with the outcome `pass`; then
the quadrants are powered and training is asked for. -/
def execHiveTestsDone (pass : BitVec 8) (s : State) : Host.Outcome State Fault Refusal :=
  .next (
    if s.keeper.phase != .tests || s.keeper.testsDone || !(List.range 8).all s.unitIdle then s
    else
      let s := s.modKeeper fun k => { k with testsDone := true, trainAsked := true }
      s.testUnits 0xFF pass.toNat 4)

/-- A record cut inward to 32 MiB boundaries, and dropped when nothing is left (R430). -/
def mapCut (i : Nat) (m : MapRecord) : Option MapRange :=
  let lo := alignUp (2 ^ 25) m.base.toNat
  let hi := alignDown (2 ^ 25) (m.base.toNat + m.len.toNat)
  if m.valid && decide (lo < hi) then some { idx := i, base := lo, len := hi - lo, out := m.out } else none

/-- Whether two ranges share an address. -/
def MapRange.overlaps (a b : MapRange) : Bool := decide (a.base < b.base + b.len) && decide (b.base < a.base + a.len)

/-- STACK_MAP_READ (R430, R462): the 32 records in index order; a range that overlaps one kept before is dropped with a fault
record of source 61. -/
def execStackMapRead (s : State) : Host.Outcome State Fault Refusal :=
  .next (
    if s.keeper.phase != .tests || s.keeper.mapDone then s
    else
      let recs := (s.inp.stackMap.take 32).zip (List.range 32)
      let s := recs.foldl (fun t p =>
        match mapCut p.2 p.1 with
        | none => t
        | some r =>
          if t.keeper.stackMap.any r.overlaps then t.raise { src := 61, addr := p.2 }
          else t.modKeeper fun k => { k with stackMap := k.stackMap ++ [r] }) s
      s.modKeeper fun k => { k with mapDone := true })

/-- LINK_STARTUP_TIMEOUT (R431): 60 ms after the request, links that have not trained are waited for no longer. -/
def execLinkStartupTimeout (s : State) : Host.Outcome State Fault Refusal :=
  .next (
    if !s.keeper.testsDone || s.keeper.trainWait.isSome then s
    else
      let up := linkNos.filter fun l => (s.link l).state == .measuring || (s.link l).state == .waggle
      s.modKeeper fun k => { k with trainWait := some up })

/-- Whether start-up still waits for a link (R431): one that has trained in time and neither completed waggle nor failed a
check, or one that may still train in time. -/
def State.linksWait (s : State) : Bool :=
  let busy (l : Nat) : Bool := (s.link l).state == .measuring || (s.link l).state == .waggle
  match s.keeper.trainWait with
  | some ls => ls.any busy
  | none => linkNos.any fun l => busy l || (s.link l).state == .training

/-! ## Readiness (R432, R434) -/

/-- The start record (type 0x01, R416). -/
def State.startRecord (s : State) : EvRec :=
  let i := s.keeper.running
  evInfo 0x01 0 (leBytes 4 Config.romVersion.toNat ++ leBytes 4 i.fwVer.toNat ++ leBytes 1 s.keeper.startCause.toNat ++
    zeros 3 ++ leBytes 4 s.recd.boot.toNat ++ slice i.digest 0 16)

/-- READINESS (R30, R380, R432, R434): the tests and the stack map are done, and at a full start-up no link is waited for:
STATE 2, fabric service, the records sent again, the start record, and the verbs that a reset interrupted complete. -/
def execReadiness (s : State) : Host.Outcome State Fault Refusal :=
  .next (
    let k := s.keeper
    if k.phase != .tests || !k.testsDone || !k.mapDone || (!s.fabric.ready && s.linksWait) then s
    else
      let s := s.modKeeper fun k => { k with state := 2, phase := .ready }
      let s : State := { s with fabric := { s.fabric with ready := true }, faults := { s.faults with brstRun := false } }
      let s := (s.resendAll).event s.startRecord
      (s.keeper.verbs.filter (·.stage == .interrupted)).foldl (fun t v => t.finish v kInterrupted 0 []) s)

/-! ## The keeper's reset and beat (R30, R372, R434, R472) -/

/-- The frame test or trim under way is given up. -/
def State.endHeldTest (s : State) : State :=
  match s.ftest with
  | some ⟨_, _, _, _, _, some f, true, was, _, _⟩ => s.endHeld f was
  | _ => { s with ftest := none }

/-- A reset of the keeper (R13, R30, R372, R434): verbs in progress are interrupted, security parameters but the identity key
pair are zeroised, and phases 2 to 4 and 6 run again on the image started last; with none, KB_GO is awaited. Links, the
stack map, contexts and data movement stay. The boot ROM's tests run again (R365). -/
def State.keeperReset (s : State) : State :=
  let p := s.draw
  let s := (p.2.endHeldTest).zeroiseKeeper
  let s := s.modKeeper fun k => { k with
    verbs := k.verbs.map (fun v => { v with stage := .interrupted }), activating := false, quiesce := none, loaded := none,
    beat := 0, startCause := 2, phase := .auth, testsDone := false, relayMemo := [],
    kmq := k.kmq.map fun r => match r.owner with | .verb _ | .boot => { r with owner := .gone } | _ => r }
  let s := s.modXlate fun x => { x with draining := [], waiting := [] }
  if !Config.romTestsPass p.1 then s.romFailed
  else if s.keeper.running.len = 0 then s.modKeeper fun k => { k with state := 0, phase := .bootRom }
  else s.bootStart .keeperReset s.keeper.running.addr

/-- The write of KEEPER_CTRL (R472): KC_RESET, ignored while a keeper reset runs. -/
def State.kcWrite (s : State) (w : BitVec 32) : State :=
  let k := s.keeper
  let on := k.phase != .off && k.phase != .alwaysOn
  let running := k.startCause = 2 && k.state = 1
  if w.getLsbD 0 && on && !running then s.keeperReset else s

/-- KEEPER_RESET (R30): a write of KEEPER_CTRL with KC_RESET set. -/
def execKeeperReset (w : BitVec 32) (s : State) : Host.Outcome State Fault Refusal :=
  .next (if w.getLsbD 0 && s.cpAwake then s.kcWrite w else s)

/-- KEEPER_BEAT_TIMEOUT (R30): STATE 2 and BEAT unchanged for 10 ms raise source 54. -/
def execKeeperBeatTimeout (s : State) : Host.Outcome State Fault Refusal :=
  .next (if s.keeper.state = 2 then s.raise { src := 54 } else s)

/-- The keeper meets a word of its memory that injection has spoiled (R385, R387): one flip is corrected with source 36; two
raise source 35 and halt the keeper, with source 53. Offset and program counter are free values. -/
def State.keeperEcc (s : State) : State :=
  let n := s.faults.flipKeeper
  if n = 0 then s
  else
    let d := s.draw
    let s := d.2.modFaults fun f => { f with flipKeeper := 0 }
    let off := (Config.freeWord d.1).toNat % 2 ^ 32
    if n = 1 then s.raise { src := 36, sub := 1, addr := off }
    else
      let s := (s.raise { src := 35, sub := 1, addr := off }).modKeeper fun k => { k with state := 4 }
      s.raise { src := 53, addr := (Config.keeperPc d.1).toNat }

/-- KEEPER_BEAT_TICK (R30): the main loop counts, and meets what its memory holds. -/
def execKeeperBeatTick (s : State) : Host.Outcome State Fault Refusal :=
  .next (if s.keeper.state = 2 then (s.modKeeper fun k => { k with beat := k.beat + 1 }).keeperEcc else s)

/-! ## Quiesce, sleep, wake and power failure (R399, R423, R435, R436, R474) -/

/-- ENGINE_QUIESCE (R435): with no context, swarm or tenant open, the records go out with WG_STATE 2. -/
def execEngineQuiesce (o : Origin) (s : State) : Host.Outcome State Fault Refusal :=
  .next (s.runVerb o 0x0B01 fun v =>
    if s.ctxs.any (fun e => e.2.isOpen) || s.swarms.any (fun e => e.2.isOpen) || s.xlate.roots.any (fun e => e.2.isSome) ||
        s.keeper.quiesce.isSome then s.verbDone o kBusy 16
    else
      let s := s.modKeeper fun k => { k with quiesce := some ⟨o, BitVec.ofNat 8 (par v.req 16 1), 2⟩ }
      (s.verbDrains o).resendAll)

/-- Whether every lid group toward this engine has ended and every remote request it issued has an outcome (R435). -/
def State.remoteDrained (s : State) : Bool :=
  s.fabric.rxGroups.all (fun e => !e.2.live) && s.fabric.txGroups.all (fun e => !e.2.used || e.2.cooling) &&
    s.fabric.txReads.all (fun e => !e.2.used)

/-- A link is taken down for a quiesce: no source 49, and cause 3 in its record (R435). -/
def State.linkQuiesce (s : State) (l : Nat) : State :=
  if (s.link l).state == .training then s.setLink l { ({} : Link) with out := (s.link l).out } else s.linkDown l (some 3) false

/-- QUIESCE_REMOTE_DRAINED (R435): the links go down and the flush starts; with CANCEL the engine goes on in service. -/
def execQuiesceRemoteDrained (s : State) : Host.Outcome State Fault Refusal :=
  .next (
    match s.keeper.quiesce with
    | none => s
    | some q =>
      if q.step ≠ 2 || !s.remoteDrained then s
      else if s.cancelled q.origin then
        ((s.modKeeper fun k => { k with quiesce := none }).resendAll).verbEnd q.origin 0x0B01 kCancelled 0
      else
        let s := s.modKeeper fun k => { k with quiesce := some { q with step := 4 } }
        let s := linkNos.foldl State.linkQuiesce s
        if s.recd.noFlash then s.flushEnd else s.askFlush)

/-- The engine state (R399): 0 active, 1 doze, 2 asleep; none while domain 64 is not yet powered. -/
def State.engineState (s : State) : Option Nat :=
  if s.power.asleep then some 2
  else if !s.domainOn 64 then none
  else if (List.range 64).any s.domainOn then some 0 else some 1

/-- A change from one engine state to another appends a power record (type 0x0D, R416). -/
def State.noteMode (s : State) : State :=
  let m := s.engineState
  if m = s.power.mode then s
  else
    let ev := s.power.mode.isSome
    let s : State := { s with power := { s.power with mode := m } }
    match m with
    | some n => if ev then s.event (evInfo 0x0D 0 (leBytes 1 1 ++ leBytes 1 n ++ zeros 14)) else s
    | none => s

/-- QUIESCE_SLEEP_HOLD_END (R372, R399, R436): domain 64 powers off and the engine is asleep; the fault collector and the
smoker lie in the always-on domain and keep what they hold. -/
def execQuiesceSleepHoldEnd (s : State) : Host.Outcome State Fault Refusal :=
  .next (
    if !s.power.sleepHold then s
    else
      let t := s.loseBlock s.inp 3
      let t : State := { t with
        faults := s.faults,
        power := { t.power with asleep := true, mode := s.power.mode, smCap := s.power.smCap, smWarn := s.power.smWarn, smDeep := s.power.smDeep,
                                smRelease := s.power.smRelease, regions := s.power.regions, throtUs := s.power.throtUs,
                                throtTick := s.power.throtTick, trimAt := s.power.trimAt } }
      ((t.powerDown 64).clockDown 21).noteMode)

/-- The wake from asleep (R399, R434, R442): domain 64 and the keeper clock are requested, for a full start-up. -/
def State.wake (s : State) (pk : Bool) : State :=
  if !s.power.asleep then s
  else
    let s : State := { s with power := { s.power with asleep := false, pkWake := s.power.pkWake || pk } }
    (s.powerUp 64).clockUp 21

/-- WAKE_REQ (R399). -/
def execWakeReq (s : State) : Host.Outcome State Fault Refusal := .next (s.wake false)

/-- PWR_WAKE (R474): a write of 1 to PK_WAKE while asleep; it lies in the always-on domain. -/
def execPwrWake (w : BitVec 32) (s : State) : Host.Outcome State Fault Refusal :=
  .next (if w.getLsbD 0 then s.wake true else s)

/-- PWR_FAIL_N (R403, R423): source 57, a flush at once, and no other background task goes on. -/
def execPwrFailN (s : State) : Host.Outcome State Fault Refusal :=
  .next (
    if s.keeper.phase == .off then s
    else
      let s := (s.raise { src := 57 }).askFlush
      { s with power := { s.power with failing := true } })

end Sys2Proof.Machine
end

