-- ==== Sys2Proof/Machine/Power.lean ====
section
/-! DEFINITION. Power domains, clocks and frame states (R388 to R399, R441), the smoker (R400, R401), scrubbing and trims
(R404, R405), and what one tick of the always-on clock does on an empty queue. -/
namespace Sys2Proof.Machine

/-! ## Frames (R394, R395) -/

/-- One step of raising a waking frame to run state: its domains, the end of retention, its clock (R395, R441). A frame from
off starts with an empty pantry and scale registers at reset (R356, R397). -/
def State.raiseFrame (s : State) (f : Nat) : State :=
  let x := s.frame f
  let ds := frameDomains f
  if !x.waking then s
  else if x.state == .run then s.modFrame f fun y => { y with waking := false }
  else if !ds.all s.domainOn then ds.foldl State.powerUp s
  else if !ds.all fun d => !s.power.ret.getLsbD d && !s.power.retAck.getLsbD d then ds.foldl State.retainDown s
  else if !s.clockOn f then s.clockUp f
  else s.modFrame f fun y => { y with state := .run, waking := false, scrubAt := if y.state == .nap then 0 else y.scrubAt }

/-- FRAME_DEMAND_WAKE (R395, R398): demand raises the frame. -/
def execFrameDemandWake (f : Fin 16) (s : State) : Host.Outcome State Fault Refusal :=
  .next (
    if (s.frame f.val).state != .run && s.frameDemand f.val && s.domainOn 64 then
      (s.modFrame f.val fun x => { x with waking := true }).raiseFrame f.val
    else s)

/-- FRAME_RUN_TO_IDLE (R395). -/
def execFrameRunToIdle (f : Fin 16) (s : State) : Host.Outcome State Fault Refusal :=
  .next (
    if (s.frame f.val).state == .run && !s.frameDemand f.val then
      (s.modFrame f.val fun x => { x with state := .idle }).clockDown f.val
    else s)

/-- FRAME_IDLE_TO_NAP (R395, R441). -/
def execFrameIdleToNap (f : Fin 16) (s : State) : Host.Outcome State Fault Refusal :=
  .next (
    let x := s.frame f.val
    if x.state == .idle && !x.waking && 2 ≤ x.policy.toNat && !s.frameDemand f.val && (frameDomains f.val).all s.domainOn then
      (frameDomains f.val).foldl State.retainUp (s.modFrame f.val fun y => { y with state := .nap })
    else s)

/-- FRAME_NAP_TO_OFF (R356, R395, R397). -/
def execFrameNapToOff (f : Fin 16) (s : State) : Host.Outcome State Fault Refusal :=
  .next (
    let x := s.frame f.val
    if x.state == .nap && !x.waking && x.policy = 3 && !s.frameDemand f.val then s.frameOff f.val else s)

/-! ## What each domain and clock is on for (R323, R388, R392) -/

/-- Whether a verb with this code waits to be executed and satisfies `p`. -/
def State.verbWaits (s : State) (code : Nat) (p : Bytes → Bool) : Bool :=
  s.keeper.verbs.any fun v => reqVerb v.req = code && v.stage == .run && p v.req

/-- The conditions that keep the tally unit on (R323). -/
def State.tallyNeeded (s : State) : Bool :=
  s.tally.held || s.ctxs.any (fun e => e.2.isOpen) || s.tally.bars.any (fun e => e.2.enabled) || !s.tally.slots.isEmpty ||
    !s.tally.heldOps.isEmpty || s.tally.credCfg.any (fun e => e.2.init != 0) || !s.tally.val.isEmpty || s.verbWaits 0x0300 fun _ => true

/-- Whether a port of quadrant `q` is training or trained (R258). -/
def State.quadNeeded (s : State) (q : Nat) : Bool := linkNos.any fun l => quadrant l = q && (s.link l).state != .down

/-- Whether seed expander `u` has work: a polynomial, or a feed of a seeded key set that goes on or waits (R185, R392). -/
def State.expanderNeeded (s : State) (u : Nat) : Bool :=
  s.expand.any (fun e => e.1 / 24 = u) ||
    (s.sec.passed.getLsbD u && (List.range 4).any fun n =>
      let x := s.swarm n
      x.isOpen && (s.kset x.kset).seeded &&
        ((s.ctx x.src).works.any (fun w => w.kind == .feed n) ||
          (s.ctx x.src).held.any fun h => s.feedOf x.src h.bytes == some n))

/-- Whether domain `d`, 48 to 63, is to be on (R392). -/
def State.domainNeeded (s : State) (d : Nat) : Bool :=
  if d < 56 then
    s.ctxs.any (fun e => e.2.isOpen && e.1 / 2 ^ 15 = d - 48) ||
      s.verbWaits 0x0300 fun r => par r 16 4 / 2 ^ 15 = d - 48
  else if d = 56 then s.xlate.roots.any fun e => e.2.isSome
  else if d < 61 then s.quadNeeded (d - 57)
  else if d = 61 then s.tallyNeeded
  else
    let u := d - 62
    s.quadNeeded (2 * u) || s.quadNeeded (2 * u + 1) || s.expanderNeeded u || s.keeper.phase == .tests ||
      s.verbWaits 0x0800 fun r => (setBits 8 (par r 16 1)).any fun k => decide (k = u) || decide (k = 2 + 2 * u) || decide (k = 3 + 2 * u)

/-- Whether clock branch `i` is to run (R388). The shared branch has work while a walk, a regenerated polynomial, a Ready context,
a held tally operation, a barrier's message or a snapshot goes on. -/
def State.clockNeeded (s : State) (i : Nat) : Bool :=
  if i < 16 then (s.frame i).state == .run || (s.frame i).waking
  else if i = 16 then
    frameNos.any (fun f => (s.frame f).state == .run) || !s.xlate.walks.isEmpty || !s.expand.isEmpty || s.readyQ.any (fun e => !e.2.isEmpty) ||
      s.tally.held || !s.tally.heldOps.isEmpty || s.tally.bars.any (fun e => e.2.due != []) || s.snap.trig.isSome ||
      linkNos.any fun l => (s.link l).rxq.any fun e => e.2.op == opTally
  else if i < 21 then s.domainOn (57 + (i - 17))
  else s.keeper.phase != .off && !s.power.asleep

/-- The handshakes of frame `f` follow its state (R392, R394). -/
def State.settleFrame (s : State) (f : Nat) : State :=
  let s := s.raiseFrame f
  let x := s.frame f
  let ds := frameDomains f
  if x.waking then s
  else match x.state with
  | .off => ds.foldl (fun t d => (t.retainDown d).powerDown d) s
  | .nap => ds.foldl State.retainUp s
  | _ => if s.domainOn 64 then ds.foldl (fun t d => (t.retainDown d).powerUp d) s
         else if s.power.asleep then ds.foldl State.powerDown s else s

/-- The handshake of domain `d`, 48 to 63, follows its need (R392). The tally unit is powered only by what R323, R470 and
ctx.open power it for. -/
def State.settleDomain (s : State) (d : Nat) : State :=
  if !s.domainNeeded d then s.powerDown d
  else if d = 61 && !(s.tally.held || !s.tally.heldOps.isEmpty || s.verbWaits 0x0300 fun _ => true) then s
  else if s.domainOn 64 then s.powerUp d else s

/-- The handshake of clock branch `i` follows its need (R388); a frame's own branch is raised with the frame. -/
def State.settleClock (s : State) (i : Nat) : State :=
  if !s.clockNeeded i then s.clockDown i else if i < 16 then s else s.clockUp i

/-- Power and clock requests follow the work, the boot ROM starts once it is powered, and a change of the engine state is
recorded (R388, R392, R399, R426). -/
def State.settlePower (s : State) : State :=
  let s := if s.keeper.phase != .off && !s.power.asleep then s.powerUp 64 else s.powerDown 64
  let s := frameNos.foldl State.settleFrame s
  let s := ((List.range 16).map (48 + ·)).foldl State.settleDomain s
  let s := (List.range 22).foldl State.settleClock s
  (s.bootIfPowered).noteMode

/-! ## Handshakes (R390, R393, R441, R470) -/

/-- The tally unit powers up (R323, R470): every tally zero, every credit counter at its CR_INIT. -/
def State.tallyPowered (s : State) : State :=
  s.modTally fun t => { t with
    val := [], frozen := [], slots := [], dlFired := false, dlQuiet := false, waitFull := false, lentCores := [],
    credVal := t.credCfg.foldl (fun m e => m.set {} e.1 { value := e.2.init.setWidth 17 }) [],
    bars := t.bars.mapAll {} fun _ x => { x with reported := 0, cfgErr := false, released := 0, a0 := 0, r0 := 0, childRep := [], due := [] } }

/-- The cryptographic units that lie in domain 62 or 63 (R392). -/
def unitsIn (d : Nat) : List Nat := [d - 62, 2 + 2 * (d - 62), 3 + 2 * (d - 62)]

/-- The known-answer tests that run again when domain 62 or 63 has powered up, on its units that had passed (R393); a unit that
fails is marked, with its consequences and a test record (R367). The outcome is a free value (DESIGN CHOICE, log entry 11). -/
def State.katAgain (s : State) (d : Nat) : State :=
  let us := (unitsIn d).filter s.unitPassed
  if us = [] then s
  else
    let p := s.draw
    let bad := us.filter fun u => !(Config.katPasses p.1).getLsbD u
    if bad = [] then p.2 else p.2.testUnits (bad.map (2 ^ ·)).sum 0 4

/-- What the power-up of domain `d` does beside the release of its reset: translations are lost (R244), the tally unit starts
a run (R323) and takes what it held, known-answer tests run again (R393), WAKE has been taken (R474). -/
def State.domainPowered (s : State) (d : Nat) : State :=
  if d = 56 then s.modXlate fun x => { x with l2 := [] }
  else if d = 61 then if s.clockOn 16 then (s.tallyPowered).runHeldOps else s.tallyPowered
  else if d = 62 || d = 63 then s.katAgain d
  else if d = 64 then { s with power := { s.power with pkWake := false } }
  else s

/-- What the power-down of domain `d` takes with it: the second level of translations (R244). -/
def State.domainDown (s : State) (d : Nat) : State := if d = 56 then s.modXlate fun x => { x with l2 := [] } else s

/-- PWR_ACK (R392, R441): an acknowledgement rises only for a request and falls only for a release. -/
def execPwrAck (d : Fin 65) (up : Bool) (s : State) : Host.Outcome State Fault Refusal :=
  .next (
    let req := s.power.req.getLsbD d.val
    let ack := s.power.ack.getLsbD d.val
    if up && req && !ack then
      (({ s with power := { s.power with ack := setBit s.power.ack d.val } } : State).domainPowered d.val).settlePower
    else if !up && !req && ack then
      (({ s with power := { s.power with ack := clearBit s.power.ack d.val } } : State).domainDown d.val).settlePower
    else s)

/-- CLK_ACK (R388, R390, R441); the shared branch lets the tally unit take the operations it held. -/
def execClkAck (i : Fin 22) (up : Bool) (s : State) : Host.Outcome State Fault Refusal :=
  .next (
    let req := s.power.clkReq.getLsbD i.val
    let ack := s.power.clkAck.getLsbD i.val
    if up && req && !ack then
      let s : State := { s with power := { s.power with clkAck := setBit s.power.clkAck i.val } }
      (if i.val = 16 && s.tallyOn then s.runHeldOps else s).settlePower
    else if !up && !req && ack then
      ({ s with power := { s.power with clkAck := clearBit s.power.clkAck i.val } } : State).settlePower
    else s)

/-- PWR_RET_ACK (R441). -/
def execPwrRetAck (d : Fin 48) (up : Bool) (s : State) : Host.Outcome State Fault Refusal :=
  .next (
    let ret := s.power.ret.getLsbD d.val
    let ack := s.power.retAck.getLsbD d.val
    if up && ret && !ack then
      ({ s with power := { s.power with retAck := setBit s.power.retAck d.val } } : State).settlePower
    else if !up && !ret && ack then
      ({ s with power := { s.power with retAck := clearBit s.power.retAck d.val } } : State).settlePower
    else s)

/-- HANDSHAKE_TIMEOUT (R390, R439): a request not granted within 1 ms raises source 58 and stays asserted. -/
def execHandshakeTimeout (clk : Bool) (n : Fin 66) (s : State) : Host.Outcome State Fault Refusal :=
  .next (
    let waits := if clk then s.power.clkReq.getLsbD n.val && !s.power.clkAck.getLsbD n.val
                 else s.power.req.getLsbD n.val && !s.power.ack.getLsbD n.val
    if waits then s.raise { src := 58, sub := if clk then 0x80 + n.val else n.val } else s)

/-! ## The smoker (R400, R401) -/

/-- The regions that a report acts on. -/
def supplyRegions : Supply → List Nat
  | .sensor r => [r.val]
  | .monitor => List.range 8

/-- Region `r` at droop level `n`; SK_HELD notes a level above SM_CAP. -/
def State.setLevel (s : State) (r n : Nat) : State :=
  let x := s.region r
  (s.setRegion r { x with level := n, held := x.held || decide (s.power.smCap.toNat < n) }).noteLevels

/-- What a supply report says now: below warning, below deep. -/
def State.report (s : State) (src : Supply) (warn deep : Bool) : State :=
  match src with
  | .sensor r => s.setRegion r.val { s.region r.val with warn := warn, deep := deep }
  | .monitor => { s with power := { s.power with monWarn := warn, monDeep := deep } }

/-- Whether region `r` is below warning by its sensor or a monitor. -/
def State.belowWarn (s : State) (r : Nat) : Bool := (s.region r).warn || s.power.monWarn

/-- SUPPLY_WARNING (R401): the level becomes at least 2. -/
def execSupplyWarning (src : Supply) (s : State) : Host.Outcome State Fault Refusal :=
  .next ((supplyRegions src).foldl (fun t r => t.setLevel r (max 2 (t.region r).level)) (s.report src true false))

/-- SUPPLY_DEEP (R401): the level becomes 7. -/
def execSupplyDeep (src : Supply) (s : State) : Host.Outcome State Fault Refusal :=
  .next ((supplyRegions src).foldl (fun t r => t.setLevel r 7) (s.report src true true))

/-- SUPPLY_ABOVE_WARNING (R401). -/
def execSupplyAboveWarning (src : Supply) (s : State) : Host.Outcome State Fault Refusal :=
  .next (s.report src false false)

/-- THROTTLE_ESCALATE (R401): 32 data clocks more below warning raise the level by 1, up to 5. -/
def execThrottleEscalate (r : Fin 8) (s : State) : Host.Outcome State Fault Refusal :=
  .next (
    let n := (s.region r.val).level
    if s.belowWarn r.val && decide (n < 5) then s.setLevel r.val (n + 1) else s)

/-- THROTTLE_RELEASE (R401): SM_RELEASE_US more above warning lower the level by 1. -/
def execThrottleRelease (r : Fin 8) (s : State) : Host.Outcome State Fault Refusal :=
  .next (
    let n := (s.region r.val).level
    if !s.belowWarn r.val && decide (0 < n) then s.setRegion r.val { s.region r.val with level := n - 1 } else s)

/-- DROOP_HELD_TIMEOUT (R401, R416): a level held above SM_CAP for more than 1 ms raises source 56, recorded as a power
record. -/
def execDroopHeldTimeout (r : Fin 8) (s : State) : Host.Outcome State Fault Refusal :=
  .next (
    let n := (s.region r.val).level
    if decide (s.power.smCap.toNat < n) then
      s.raiseWith { src := 56, sub := r.val }
        (some { type := 0x0D, sev := 0, src := 0, tenant := 0, body := leBytes 1 3 ++ leBytes 1 n ++ leBytes 2 r.val ++ zeros 12 })
    else s)

/-! ## Scrubbing and trims (R385, R403 to R405) -/

/-- The next slot of frame `f` is checked (R385, R404): a corrected word raises source 32, an uncorrectable one source 16 + f; it
fails the descriptor that owns the slot and zeroises a free slot, and stays damaged in any other until that slot is read. -/
def State.scrubSlot (s : State) (f : Nat) (ecc : Ecc) : State :=
  let n := (s.frame f).scrubAt
  let s := s.modFrame f fun y => { y with scrubAt := (n + 1) % 8192 }
  let q := s.slot f n
  let bad := ecc == .uncorrectable || decide (2 ≤ q.flips)
  if !bad && ecc == .clean && q.flips = 0 then s
  else
    let m := match q.holder with | .work c _ => (1, c.toNat) | _ => (6, 0)
    let s := s.setSlotAt f n { q with flips := if bad then 2 else 0 }
    let s := s.raise { src := if bad then 16 + f else 32, mkind := m.1, mid := m.2, tenant := q.recTenant, access := 12, sub := f, addr := n }
    if !bad then s
    else match q.holder with
    | .work c id => (s.setSlotAt f n { q with flips := 0 }).endWork c id 0x0803 0
    | .free => s.setSlotAt f n { s.slot f n with data := [], flips := 0 }
    | _ => s

/-- PANTRY_SCRUB (R385, R395, R404): a step of the sweep is due in a frame in run or idle; an idle frame is raised to run for it. -/
def execPantryScrub (f : Fin 16) (ecc : Ecc) (s : State) : Host.Outcome State Fault Refusal :=
  .next (
    let x := s.frame f.val
    if s.power.failing || !(x.state == .run || x.state == .idle) || !(frameDomains f.val).all s.domainOn then s
    else
      let s := if x.state == .idle then (s.modFrame f.val fun y => { y with waking := true }).raiseFrame f.val else s
      if (s.frame f.val).state == .run then s.scrubSlot f.val ecc else s)

/-- CONTEXT_STORE_SCRUB (R385, R404): the next record of a powered bank is checked. -/
def execContextStoreScrub (bank : Fin 8) (word : Fin 8) (ecc : Ecc) (s : State) : Host.Outcome State Fault Refusal :=
  .next (
    if s.power.failing || !s.domainOn (48 + bank.val) then s
    else
      let n := s.power.ctxScrub.get 0 bank.val
      let c : CtxNo := BitVec.ofNat 18 (32768 * bank.val + n)
      let s : State := { s with power := { s.power with ctxScrub := s.power.ctxScrub.set 0 bank.val ((n + 1) % 32768) } }
      match ecc with
      | .clean => s
      | .corrected => s.recordFixed c word.val 12
      | .uncorrectable => s.damageRecord c word.val 12)

/-- DROOP_SENSOR_TRIM (R403, R405): one sensor's offset is calibrated, then the next one's turn comes; the smoker holds its
last reading meanwhile. -/
def execDroopSensorTrim (s : State) : Host.Outcome State Fault Refusal :=
  .next (
    if s.power.failing || s.keeper.phase == .off then s
    else { s with power := { s.power with trimAt := (s.power.trimAt + 1) % 8 } })

/-! ## A tick of the always-on clock -/

/-- The count of microseconds, 25 ticks each, with a region's droop level above SM_CAP (R401, R406). -/
def State.throttleTick (s : State) : State :=
  if !((List.range 8).any fun r => decide (s.power.smCap.toNat < (s.region r).level)) then s
  else if s.power.throtTick < 24 then { s with power := { s.power with throtTick := s.power.throtTick + 1 } }
  else { s with power := { s.power with throtTick := 0, throtUs := satAdd s.power.throtUs 1 },
                telem := { s.telem with throt := satAdd s.telem.throt 1 } }

/-- A requester that has been ready on a tap for `n` data clocks without a grant (R224). -/
def ArbStat.wait (a : ArbStat) (n : Nat) : ArbStat := { a with waited := satAdd a.waited n }

/-- The requesters of frame `f` that are ready on a tap, with the tap's index, as `n` data clocks pass: each waits that much
longer, and an interval that has ended without a grant is forgotten (R224). -/
def State.frameWaits (s : State) (f n : Nat) : State :=
  if !s.frameUp f then s
  else
    let rs := (s.boundIn f).map (· % 64) ++ [64, 65]
    let ready := (rs.flatMap fun r => (List.range 4).map fun i => (r, i)).filter fun p => (s.tryIssue (4 * f + p.2) p.1).isSome
    s.modFrame f fun x => { x with
      waits := ready.foldl (fun w p => w.set 0 (4 * p.1 + p.2) (x.waits.get 0 (4 * p.1 + p.2) + n)) [],
      stats := ready.foldl (fun m p => m.set {} p.1 ((m.get {} p.1).wait n)) x.stats }

/-- What the block does by itself in one tick with no command waiting (DESIGN CHOICE, log entry 2): time, SNAP_OUT, throttling, 144 data
clocks of every bound channel's rate limiter and of every requester that waits, drains that go on beside their verbs, and the power handshakes. -/
def idleTick (s : State) : State :=
  if s.keeper.phase == .off then s
  else
    let s := (timeTick s).throttleTick
    let s : State := { s with snap := { s.snap with out := s.snap.out - 1 } }
    let s := (s.chans.keys).foldl (State.rateGrow · 144) s
    let s := frameNos.foldl (State.frameWaits · · 144) s
    ((s.drainOff).calLinks).settlePower

end Sys2Proof.Machine
end

