-- ==== Sys2Proof/Machine/FaultRegs.lean ====
section
/-! DEFINITION. The registers of the fault collector that act when they are accessed (R375, R382 to R387). -/
namespace Sys2Proof.Machine

/-! ## Status and capture -/

/-- FLT_STAT_CLEAR (R375, R468): written bits clear, but for a source that raises in the same cycle. -/
def execFltStatClear (w raised : Word) (s : State) : Host.Outcome State Fault Refusal :=
  .next (if s.cpAwake then s.modFaults fun f => { f with stat := f.stat &&& ~~~(w &&& ~~~raised) } else s)

/-- The write of FLT_CAP0 (R381, R383): a 1 to FC_VALID ends the capture and clears FM_COUNT and FM_SAT. -/
def State.cap0Write (s : State) (w : Word) : State :=
  if w.getLsbD 6 then s.modFaults fun f => { f with cap0 := clearBit f.cap0 6, merges := 0, mergeSat := false } else s

/-- FC_VALID_CLEAR (R383). -/
def execFcValidClear (w : Word) (s : State) : Host.Outcome State Fault Refusal :=
  .next (if s.cpAwake then s.cap0Write w else s)

/-- FLT_CORR_READ (R382): the count is returned and cleared; asleep it reads zero (R436). -/
def execFltCorrRead (s : State) : Host.Outcome State Fault Refusal :=
  .next (
    if !s.cpAwake then s.answerRead 0
    else (s.answerRead s.faults.corr.toNat).modFaults fun f => { f with corr := 0 })

/-! ## The error pin (R384) -/

/-- The write of ERR_PIN_CTRL (R384, R468): EP_HOLD and EP_FORCE take their values; EP_RELEASE releases a held pin, or waits
for the end of the minimum. -/
def State.pinWrite (s : State) (w : BitVec 32) : State :=
  s.modFaults fun f =>
    let f := { f with pinHold := w.getLsbD 0, pinForce := w.getLsbD 2 }
    if !w.getLsbD 1 || !f.pinLow then f
    else if f.pinMin then { f with pinRelease := true } else { f with pinLow := false }

/-- EP_RELEASE (R384). -/
def execEpRelease (w : BitVec 32) (s : State) : Host.Outcome State Fault Refusal :=
  .next (if w.getLsbD 1 && s.cpAwake then s.pinWrite w else s)

/-- ERR_PIN_MINIMUM_END (R384): after 25 cycles the pin goes high, or stays held until it is released. -/
def execErrPinMinimumEnd (s : State) : Host.Outcome State Fault Refusal :=
  .next (
    if !s.faults.pinMin then s
    else s.modFaults fun f => { f with pinMin := false, pinRelease := false, pinLow := f.pinHold && !f.pinRelease })

/-! ## Restarting a frame (R386) -/

/-- Whether FRAME_RESTART may restart frame `f`; never in the halted state, which only a reset ends (R378; DEDUCED, log entry 64). -/
def State.restartable (s : State) (f : Nat) : Bool :=
  !s.faults.halted && (s.frame f).stopped && !s.faults.stat.getLsbD f && !(s.frame f).draining

/-- The write of FRAME_RESTART (R386): each frame named that may restart returns to idle; one that may not is left alone, and
the access raises source 61. -/
def State.restartWrite (s : State) (w : BitVec 32) : State :=
  let fs := setBits 16 w.toNat
  let good := fs.filter s.restartable
  let t := good.foldl (fun t f => (t.modFrame f fun x => { x with stopped := false, cause := {}, state := .idle }).clockDown f) s
  if good = fs then t else t.cpFault 4 0x30034

/-- FRAME_RESTART (R386). -/
def execFrameRestart (w : BitVec 32) (s : State) : Host.Outcome State Fault Refusal :=
  .next (if s.cpAwake then s.restartWrite w else s)

/-! ## Injection (R387) -/

/-- FI_MODE of a write of FLT_INJECT. -/
def injectMode (w : BitVec 32) : Nat := bits w.toNat 9 8

/-- Flips of `n` check-code bits in the next write to the memory that a source names; none for other sources. -/
def State.injectFlips (s : State) (src frame n : Nat) : Option State :=
  if 16 ≤ src && src ≤ 32 then some (s.modFaults fun f => { f with flipPantry := f.flipPantry.set 0 frame n })
  else if src = 33 || src = 34 then some (s.modFaults fun f => { f with flipCtx := n })
  else if src = 35 || src = 36 then some (s.modFaults fun f => { f with flipKeeper := n })
  else if src = 37 || src = 38 then some (s.modFaults fun f => { f with flipTable := n })
  else none

/-- The write of FLT_INJECT (R387): without the factory strap, in mode 3, or naming no memory, it is ignored and raises
source 61. -/
def State.injectWrite (s : State) (w : BitVec 32) : State :=
  let src := bits w.toNat 5 0
  let refuse := s.cpFault 4 0x30038
  if !s.inp.ftest || injectMode w = 3 then refuse
  else if injectMode w = 0 then s.raise { src := src, mkind := 7, space := 0, noTime := true }
  else (s.injectFlips src (bits w.toNat 19 16) (injectMode w)).getD refuse

/-- FLT_INJECT_COLLECTOR (R387). -/
def execFltInjectCollector (w : BitVec 32) (s : State) : Host.Outcome State Fault Refusal :=
  .next (if injectMode w = 0 && s.cpAwake then s.injectWrite w else s)

/-- FLT_INJECT_SINGLE_FLIP (R387). -/
def execFltInjectSingleFlip (w : BitVec 32) (s : State) : Host.Outcome State Fault Refusal :=
  .next (if injectMode w = 1 && s.cpAwake then s.injectWrite w else s)

/-- FLT_INJECT_DOUBLE_FLIP (R387). -/
def execFltInjectDoubleFlip (w : BitVec 32) (s : State) : Host.Outcome State Fault Refusal :=
  .next (if injectMode w = 2 && s.cpAwake then s.injectWrite w else s)

end Sys2Proof.Machine
end

