-- ==== Sys2Proof/Machine/Regs.lean ====
section
/-! DEFINITION. Writes of registers by offset (R465 to R470), refused accesses (R456), and the registers that act when they
are read and have no other home (R225, R401, R473). -/
namespace Sys2Proof.Machine

/-! ## Registers without an operation of their own -/

/-- FLT_CFG of the selected source (R376): a severity below recoverable for source 47 or 57 is taken as recoverable. -/
def State.fltCfgWrite (s : State) (w : BitVec 32) : State :=
  let n := s.faults.sel.toNat
  let v : BitVec 9 := w.setWidth 9 &&& 0x1F3
  let v := if (n = 47 || n = 57) && bits v.toNat 1 0 < 2 then v &&& 0x1F0 ||| 2 else v
  s.modFaults fun f => { f with cfg := f.cfg.set (fltCfgReset n) n v }

/-- FLT_STAT (R375): each 1 clears its bit. -/
def State.fltStatWrite (s : State) (w : Word) : State := s.modFaults fun f => { f with stat := f.stat &&& ~~~w }

/-- PWR_CTRL (R395). -/
def State.pwrCtrlWrite (s : State) (w : Word) : State :=
  { s with power := { s.power with napUs := w.setWidth 16, offMs := (w >>> 16).setWidth 16 } }

/-- SMOKER_CTRL (R401): the highest levels of the telemetry period see a new SM_CAP. -/
def State.smokerWrite (s : State) (w : BitVec 32) : State :=
  let s : State := { s with power := { s.power with smCap := w.setWidth 3, smWarn := (w >>> 8).setWidth 8,
                                                    smDeep := (w >>> 16).setWidth 8, smRelease := (w >>> 24).setWidth 8 } }
  ((List.range 8).foldl (fun t r =>
    if s.power.smCap.toNat < (t.region r).level then t.setRegion r { t.region r with held := true } else t) s).noteLevels

/-- SMOKER_STAT (R401): each 1 in SK_HELD clears its bit. -/
def State.heldWrite (s : State) (w : Word) : State :=
  (setBits 8 (bits w.toNat 31 24)).foldl (fun t r => t.setRegion r { t.region r with held := false }) s

/-- TELEM_CTRL (R406): setting TL_EN starts TM_SEQ from 0, and the first period. -/
def State.telemWrite (s : State) (w : Word) : State :=
  let on := w.getLsbD 0 && !s.telem.en
  let s : State := { s with telem := { s.telem with en := w.getLsbD 0, log2 := (w >>> 1).setWidth 4, base := (w >>> 8).setWidth 48 } }
  if !on then s
  else
    let s := s.mapFrames fun x => { x with bursts := 0 }
    ({ s with telem := { s.telem with seq := 0, levels := [], throt := 0 } } : State).noteLevels

/-- FLOW_CTRL (R209). -/
def State.flowWrite (s : State) (w : Word) : State :=
  { s with regs := { s.regs with fcCap := w.setWidth 14, fcFabRes := (w >>> 16).setWidth 10,
                                 fcWcap := (w >>> 32).setWidth 12, fcFabPrio := (w >>> 48).setWidth 3 } }

/-- SWARM_CTRL (R197). -/
def State.swarmCtrlWrite (s : State) (w : BitVec 32) : State :=
  { s with regs := { s.regs with swWin := w.setWidth 2, swEjectUs := (w >>> 16).setWidth 16 } }

/-- ARB_SEL (R225). -/
def State.arbSelWrite (s : State) (w : BitVec 32) : State :=
  { s with regs := { s.regs with arbFrame := w.setWidth 4, arbReq := (w >>> 4).setWidth 7 } }

/-- ARB_FLAGS (R225, R469): AF_CLEAR clears the selected requester's counters and flags; a frame in nap or off ignores it. -/
def State.arbClear (s : State) (w : BitVec 32) : State :=
  let f := s.regs.arbFrame.toNat
  let st := (s.frame f).state
  if !w.getLsbD 8 || st == .nap || st == .off then s
  else s.modFrame f fun x => { x with stats := x.stats.set {} s.regs.arbReq.toNat {} }

/-- SWARM_PACE (R219). -/
def State.paceWrite (s : State) (n : Nat) (w : BitVec 32) : State :=
  s.setSwarm n { s.swarm n with pace := w.setWidth 4 }

/-- TALLY_CTRL (R347, R470). -/
def State.tallyCtrlWrite (s : State) (w : BitVec 32) : State :=
  s.modTally fun t => { t with deadlockUs := w.setWidth 16, lendUs := (w >>> 16).setWidth 16 }

/-- TALLY_STAT (R347, R469): TS_DL_FIRED and TS_WAIT_FULL clear, but for a unit that is off. -/
def State.tallyStatWrite (s : State) (w : BitVec 32) : State :=
  if s.tallyOn then s.modTally fun t => { t with dlFired := t.dlFired && !w.getLsbD 0, waitFull := t.waitFull && !w.getLsbD 1 }
  else s

/-- BAR_CFG1 and BAR_CFG2 (R341): ignored with BS_CFG_ERR while BA_EN is 1. -/
def State.barCfgWrite (s : State) (b : Nat) (f : Barrier → Barrier) : State :=
  let x := s.barrier b
  s.setBarrier b (if x.enabled then { x with cfgErr := true } else f x)

/-- BAR_STAT (R341, R469): BS_CFG_ERR clears, but for a unit that is off. -/
def State.barStatWrite (s : State) (b : Nat) (w : Word) : State :=
  if s.tallyOn && w.getLsbD 31 then s.setBarrier b { s.barrier b with cfgErr := false } else s

/-- CRED_VAL (R332, R469): CR_UNDER clears, but for a unit that is off. -/
def State.credStatWrite (s : State) (c : Nat) (w : BitVec 32) : State :=
  if s.tallyOn && w.getLsbD 31 then
    s.modTally fun t => { t with credVal := t.credVal.set {} c { t.credVal.get {} c with under := false } }
  else s

/-- KNOCK_DROP (R473): KD_NARROW clears. -/
def State.knockDropWrite (s : State) (w : Word) : State :=
  if w.getLsbD 63 then { s with regs := { s.regs with knockDrop := { s.regs.knockDrop with narrow := false } } } else s

/-- Bytes of a mailbox window written at an offset (R21, R26, R467): only the request block takes them; one that is written
while a rung request waits for the keeper keeps the block as it was rung. -/
def State.windowWrite (s : State) (m off : Nat) (b : Bytes) : State :=
  if 0x80 ≤ off then s
  else
    s.modMbox m fun x =>
      let x := if x.busy && s.keeper.rung.contains m && x.rungAs.isNone then { x with rungAs := some x.request } else x
      x.write off b

/-! ## A write by offset (R465, R466) -/

/-- The write of value `w` to the register at an offset; read-only registers ignore it (R467). -/
def State.writeReg (s : State) (off : Nat) (w : Word) : State :=
  let v : BitVec 32 := w.setWidth 32
  let page := off / 4096
  let o := off % 4096
  if 0x10 ≤ page && page < 0x28 then
    match o with
    | 0x100 => s.dbWrite (page - 8) v
    | 0x108 => s.knock w
    | _ => s
  else if page = 1 then (if o < 128 then s.dbWrite (o / 4) v else s)
  else if 0x34000 ≤ off && off < 0x34800 then
    let b := (off - 0x34000) / 32
    match off % 32 with
    | 0 => s.barWrite b w
    | 8 => s.barCfgWrite b fun x => { x with cfg1 := w }
    | 16 => s.barCfgWrite b fun x => { x with cfg2 := w &&& 0x00000FFF03FF03FF }
    | 24 => s.barStatWrite b w
    | _ => s
  else if page = 0x35 then s.ownWrite (o / 4) v
  else if 0x38000 ≤ off && off < 0x3C000 then
    let c := (off - 0x38000) / 16
    match off % 16 with
    | 0 => s.credWrite c w
    | 8 => s.credStatWrite c v
    | _ => s
  else if 0x32040 ≤ off && off < 0x32060 then (if off % 8 = 4 then s.paceWrite ((off - 0x32040) / 8) v else s)
  else match off with
  | 0x00034 => s.kcWrite v
  | 0x00040 => s.kbWrite w
  | 0x04000 => s.knock w
  | 0x04008 => s.knockDropWrite w
  | 0x30000 => s.fltStatWrite w
  | 0x30008 => s.modFaults fun f => { f with sel := w.setWidth 6 }
  | 0x3000C => s.fltCfgWrite v
  | 0x30010 => s.cap0Write w
  | 0x30030 => s.pinWrite v
  | 0x30034 => s.restartWrite v
  | 0x30038 => s.injectWrite v
  | 0x30040 => s.snapCtrlWrite w
  | 0x31000 => s.pwrCtrlWrite w
  | 0x31020 => s.smokerWrite v
  | 0x31024 => { s with telem := { s.telem with period := w.setWidth 16 } }
  | 0x31028 => s.heldWrite w
  | 0x31030 => s.telemWrite w
  | 0x32000 => s.flowWrite w
  | 0x32008 => s.swarmCtrlWrite v
  | 0x3200C => s.arbSelWrite v
  | 0x32020 => s.arbClear v
  | 0x33000 => s.tallyCtrlWrite v
  | 0x33004 => s.tallyStatWrite v
  | 0x40008 => if w.getLsbD 0 then s.wake true else s
  | 0x40018 => s.cursorWrite w
  | _ => s

/-- The mailbox and window offset of an offset in an array of bytes; none for REC_WINDOW. -/
def mailboxAt (off : Nat) : Option (Nat × Nat) :=
  if 0x2000 ≤ off && off < 0x4000 then some ((off - 0x2000) / 256, off % 256)
  else if 0x10000 ≤ off && off < 0x28000 && off % 4096 < 0x100 then some (off / 4096 - 8, off % 256)
  else none

/-- The value that an access carries for its register: the upper half of CP_WDATA with strobe 0xF0 (R466). -/
def accessData (strobe : BitVec 8) (data : Word) : Word :=
  if strobe = 0xF0 then data >>> 32 else if strobe = 0x0F then data &&& 0xFFFFFFFF else data

/-- A refused access (R456): source 61; a refused read answers zero with CP_RERR. -/
def State.refuseAccess (s : State) (wr : Bool) (slot : Nat) (strobe : BitVec 8) : State :=
  let s := s.cpFault (popcount 8 strobe.toNat) (accessOff slot strobe)
  if wr then s else { s with regs := { s.regs with reply := 0, replyErr := true } }

/-- A write access on the control port (R436, R456, R466): refused, or taken; outside the always-on registers it acts only
while domain 64 is on. -/
def State.portWrite (s : State) (slot : Nat) (strobe : BitVec 8) (data : Word) : State :=
  let off := accessOff slot strobe
  let w := accessData strobe data
  if s.keeper.phase == .off then s
  else if !s.accessOk slot strobe then (if isKnock slot then s.narrowKnock else s).refuseAccess true slot strobe
  else if !s.cpAwake && slot < 0x40000 then s
  else match mailboxAt off with
  | some (m, o) => s.windowWrite m o (leBytes (popcount 8 strobe.toNat) w.toNat)
  | none => s.writeReg off w

/-- REGISTER_WRITE (R467). -/
def execRegisterWrite (off : BitVec 24) (strobe : BitVec 8) (data : Word) (s : State) : Host.Outcome State Fault Refusal :=
  .next (s.portWrite (slotOf off) strobe data)

/-- CONTROL_PORT_REFUSED (R456, R466). -/
def execControlPortRefused (wr : Bool) (off : BitVec 24) (strobe : BitVec 8) (_init : BitVec 6) (s : State) :
    Host.Outcome State Fault Refusal :=
  .next (
    let slot := slotOf off
    if s.accessOk slot strobe || s.keeper.phase == .off then s
    else (if wr && isKnock slot then s.narrowKnock else s).refuseAccess wr slot strobe)

/-! ## Reads that act, and AF_CLEAR -/

/-- KNOCK_DROP_READ (R473): the count and the last context are returned, then the count is cleared; asleep it reads zero. -/
def execKnockDropRead (s : State) : Host.Outcome State Fault Refusal :=
  .next (
    if !s.cpAwake then s.answerRead 0
    else
      let t := s.answerRead s.rdKnockDrop
      { t with regs := { t.regs with knockDrop := { t.regs.knockDrop with count := 0 } } })

/-- SMOKER_STAT_READ (R401): SK_THROT_US is returned and cleared; asleep it reads zero. -/
def execSmokerStatRead (s : State) : Host.Outcome State Fault Refusal :=
  .next (
    if !s.cpAwake then s.answerRead 0
    else
      let t := s.answerRead s.rdSmokerStat
      { t with power := { t.power with throtUs := 0 } })

/-- AF_CLEAR (R225): a write of ARB_FLAGS with AF_CLEAR set. -/
def execAfClear (w : BitVec 32) (s : State) : Host.Outcome State Fault Refusal :=
  .next (if s.cpAwake then s.arbClear w else s)

end Sys2Proof.Machine
end

