-- ==== Sys2Proof/Machine/Dispatch.lean ====
section
/-! DEFINITION. One arm per command: its meaning, which changes everything but the queue. -/
namespace Sys2Proof.Machine

/-- The effect of a command on everything but the queue. -/
def exec (i : Instr) (s : State) : Host.Outcome State Fault Refusal :=
  match i with
  | .mboxRing m w => Sys2Proof.Machine.execMboxRing m w s
  | .mboxCancel m w => Sys2Proof.Machine.execMboxCancel m w s
  | .mboxDoneClear m w => Sys2Proof.Machine.execMboxDoneClear m w s
  | .verbAccept => Sys2Proof.Machine.execVerbAccept s
  | .keeperPing o => Sys2Proof.Machine.execKeeperPing o s
  | .fwInfo o => Sys2Proof.Machine.execFwInfo o s
  | .fwLoad o => Sys2Proof.Machine.execFwLoad o s
  | .fwActivate o => Sys2Proof.Machine.execFwActivate o s
  | .fwActivateRestart => Sys2Proof.Machine.execFwActivateRestart s
  | .mboxBind o => Sys2Proof.Machine.execMboxBind o s
  | .mboxUnbind o => Sys2Proof.Machine.execMboxUnbind o s
  | .tenantOpen o => Sys2Proof.Machine.execTenantOpen o s
  | .tenantClose o => Sys2Proof.Machine.execTenantClose o s
  | .ctxOpen o => Sys2Proof.Machine.execCtxOpen o s
  | .ctxClose o => Sys2Proof.Machine.execCtxClose o s
  | .ctxPause o => Sys2Proof.Machine.execCtxPause o s
  | .ctxPauseDrainEnd o => Sys2Proof.Machine.execCtxPauseDrainEnd o s
  | .ctxResume o => Sys2Proof.Machine.execCtxResume o s
  | .ctxAbort o entries => Sys2Proof.Machine.execCtxAbort o entries s
  | .ctxQuery o => Sys2Proof.Machine.execCtxQuery o s
  | .ctxRate o => Sys2Proof.Machine.execCtxRate o s
  | .mapInval o => Sys2Proof.Machine.execMapInval o s
  | .invalDrainEnd => Sys2Proof.Machine.execInvalDrainEnd s
  | .mapDigest o => Sys2Proof.Machine.execMapDigest o s
  | .winSet o => Sys2Proof.Machine.execWinSet o s
  | .winClear o => Sys2Proof.Machine.execWinClear o s
  | .winClearDrainEnd o => Sys2Proof.Machine.execWinClearDrainEnd o s
  | .memInfo o => Sys2Proof.Machine.execMemInfo o s
  | .ksetRegister o => Sys2Proof.Machine.execKsetRegister o s
  | .ksetRetire o => Sys2Proof.Machine.execKsetRetire o s
  | .ksetRetireDrainEnd o => Sys2Proof.Machine.execKsetRetireDrainEnd o s
  | .ksetBind o => Sys2Proof.Machine.execKsetBind o s
  | .swarmOpen o => Sys2Proof.Machine.execSwarmOpen o s
  | .swarmClose o => Sys2Proof.Machine.execSwarmClose o s
  | .swarmCloseFinish sw => Sys2Proof.Machine.execSwarmCloseFinish sw s
  | .swarmCloseEjectTimeout sw => Sys2Proof.Machine.execSwarmCloseEjectTimeout sw s
  | .modSet o => Sys2Proof.Machine.execModSet o s
  | .scaleLoad o => Sys2Proof.Machine.execScaleLoad o s
  | .tallyVirt o => Sys2Proof.Machine.execTallyVirt o s
  | .tallyRead o => Sys2Proof.Machine.execTallyRead o s
  | .testKat o pass => Sys2Proof.Machine.execTestKat o pass s
  | .testFrame o => Sys2Proof.Machine.execTestFrame o s
  | .frameTestDrainEnd pass => Sys2Proof.Machine.execFrameTestDrainEnd pass s
  | .frameTestDrainTimeout => Sys2Proof.Machine.execFrameTestDrainTimeout s
  | .calRun o => Sys2Proof.Machine.execCalRun o s
  | .snapTake o => Sys2Proof.Machine.execSnapTake o s
  | .logAnchor o => Sys2Proof.Machine.execLogAnchor o s
  | .logFlush o => Sys2Proof.Machine.execLogFlush o s
  | .linkInfo o => Sys2Proof.Machine.execLinkInfo o s
  | .relayAllow o => Sys2Proof.Machine.execRelayAllow o s
  | .linkRekey o => Sys2Proof.Machine.execLinkRekey o s
  | .rekeyTimeout l => Sys2Proof.Machine.execRekeyTimeout l s
  | .pwrFrame o => Sys2Proof.Machine.execPwrFrame o s
  | .pwrFrameDrainEnd o expired => Sys2Proof.Machine.execPwrFrameDrainEnd o expired s
  | .engineQuiesce o => Sys2Proof.Machine.execEngineQuiesce o s
  | .quiesceRemoteDrained => Sys2Proof.Machine.execQuiesceRemoteDrained s
  | .quiesceSleepHoldEnd => Sys2Proof.Machine.execQuiesceSleepHoldEnd s
  | .relayTimeout m => Sys2Proof.Machine.execRelayTimeout m s
  | .keeperReset w => Sys2Proof.Machine.execKeeperReset w s
  | .keeperBeatTimeout => Sys2Proof.Machine.execKeeperBeatTimeout s
  | .keeperBeatTick => Sys2Proof.Machine.execKeeperBeatTick s
  | .knock w => Sys2Proof.Machine.execKnock w s
  | .knockNarrow off strobe => Sys2Proof.Machine.execKnockNarrow off strobe s
  | .watchPoll c f data fail => Sys2Proof.Machine.execWatchPoll c f data fail s
  | .contextBind ch => Sys2Proof.Machine.execContextBind ch s
  | .contextIdleUnbind c => Sys2Proof.Machine.execContextIdleUnbind c s
  | .preempt c => Sys2Proof.Machine.execPreempt c s
  | .descriptorFetchReturn ch data fail => Sys2Proof.Machine.execDescriptorFetchReturn ch data fail s
  | .descriptorStart ch => Sys2Proof.Machine.execDescriptorStart ch s
  | .nop ch => Sys2Proof.Machine.execNop ch s
  | .copy ch => Sys2Proof.Machine.execCopy ch s
  | .wait ch => Sys2Proof.Machine.execWait ch s
  | .waitSatisfied c => Sys2Proof.Machine.execWaitSatisfied c s
  | .waitEntryFreed c => Sys2Proof.Machine.execWaitEntryFreed c s
  | .feed ch => Sys2Proof.Machine.execFeed ch s
  | .tapArbitration tap => Sys2Proof.Machine.execTapArbitration tap s
  | .readDataReturn tap slot half data fail => Sys2Proof.Machine.execReadDataReturn tap slot half data fail s
  | .writeDone tap entry fail => Sys2Proof.Machine.execWriteDone tap entry fail s
  | .tapCreditReturn tap wr => Sys2Proof.Machine.execTapCreditReturn tap wr s
  | .untaggedFail tap => Sys2Proof.Machine.execUntaggedFail tap s
  | .frameStopDrainEnd f => Sys2Proof.Machine.execFrameStopDrainEnd f s
  | .responseLostTimeout f => Sys2Proof.Machine.execResponseLostTimeout f s
  | .descriptorComplete c => Sys2Proof.Machine.execDescriptorComplete c s
  | .statusWriteAck c => Sys2Proof.Machine.execStatusWriteAck c s
  | .postRecordLanded c => Sys2Proof.Machine.execPostRecordLanded c s
  | .foragerWalk ch => Sys2Proof.Machine.execForagerWalk ch s
  | .feedPortDeliver p => Sys2Proof.Machine.execFeedPortDeliver p s
  | .landCr p => Sys2Proof.Machine.execLandCr p s
  | .strmCr p => Sys2Proof.Machine.execStrmCr p s
  | .fetReq p => Sys2Proof.Machine.execFetReq p s
  | .fetV p data fail => Sys2Proof.Machine.execFetV p data fail s
  | .spineTransfer dst src => Sys2Proof.Machine.execSpineTransfer dst src s
  | .swarmBeatIssue sw => Sys2Proof.Machine.execSwarmBeatIssue sw s
  | .swarmEject sw p => Sys2Proof.Machine.execSwarmEject sw p s
  | .seedExpand core => Sys2Proof.Machine.execSeedExpand core s
  | .tpReadTally core id arg => Sys2Proof.Machine.execTpReadTally core id arg s
  | .tpIncrement core id arg => Sys2Proof.Machine.execTpIncrement core id arg s
  | .tpArmTallyWait core id slot arg => Sys2Proof.Machine.execTpArmTallyWait core id slot arg s
  | .tpCreditGive core id arg => Sys2Proof.Machine.execTpCreditGive core id arg s
  | .tpCreditTake core id arg => Sys2Proof.Machine.execTpCreditTake core id arg s
  | .tpArmCreditWait core id slot arg => Sys2Proof.Machine.execTpArmCreditWait core id slot arg s
  | .tpDisarmSlot core slot arg => Sys2Proof.Machine.execTpDisarmSlot core slot arg s
  | .tpReadCredit core id arg => Sys2Proof.Machine.execTpReadCredit core id arg s
  | .deadlockTimeout => Sys2Proof.Machine.execDeadlockTimeout s
  | .lendUpdate => Sys2Proof.Machine.execLendUpdate s
  | .lendTimeout who => Sys2Proof.Machine.execLendTimeout who s
  | .barrierEnable b w => Sys2Proof.Machine.execBarrierEnable b w s
  | .barrierDisable b w => Sys2Proof.Machine.execBarrierDisable b w s
  | .credCfgWrite c w => Sys2Proof.Machine.execCredCfgWrite c w s
  | .tallyOwnWrite g w => Sys2Proof.Machine.execTallyOwnWrite g w s
  | .linkTrained l lanes rates => Sys2Proof.Machine.execLinkTrained l lanes rates s
  | .laneLoss l => Sys2Proof.Machine.execLaneLoss l s
  | .sealSilenceTimeout l => Sys2Proof.Machine.execSealSilenceTimeout l s
  | .flitSend l now => Sys2Proof.Machine.execFlitSend l now s
  | .sealPeriodic l => Sys2Proof.Machine.execSealPeriodic l s
  | .messageFlitReceive l flit => Sys2Proof.Machine.execMessageFlitReceive l flit s
  | .sealReceive l flit => Sys2Proof.Machine.execSealReceive l flit s
  | .replayTimeout l => Sys2Proof.Machine.execReplayTimeout l s
  | .idleFlitReceive l flit => Sys2Proof.Machine.execIdleFlitReceive l flit s
  | .echo l flit => Sys2Proof.Machine.execEcho l flit s
  | .echoReply l flit now => Sys2Proof.Machine.execEchoReply l flit now s
  | .echoPeriodic l => Sys2Proof.Machine.execEchoPeriodic l s
  | .waggleRecordPart l flit => Sys2Proof.Machine.execWaggleRecordPart l flit s
  | .identityPart l flit => Sys2Proof.Machine.execIdentityPart l flit s
  | .recordAcknowledgement l flit => Sys2Proof.Machine.execRecordAcknowledgement l flit s
  | .waggleRepeat l => Sys2Proof.Machine.execWaggleRepeat l s
  | .waggleAckTimeout l => Sys2Proof.Machine.execWaggleAckTimeout l s
  | .waggleRetry l => Sys2Proof.Machine.execWaggleRetry l s
  | .waggleResend l => Sys2Proof.Machine.execWaggleResend l s
  | .write l => Sys2Proof.Machine.execWrite l s
  | .lid l => Sys2Proof.Machine.execLid l s
  | .lidDataLanded chip group => Sys2Proof.Machine.execLidDataLanded chip group s
  | .read l => Sys2Proof.Machine.execRead l s
  | .readData l => Sys2Proof.Machine.execReadData l s
  | .landed l => Sys2Proof.Machine.execLanded l s
  | .refuse l => Sys2Proof.Machine.execRefuse l s
  | .notReady l => Sys2Proof.Machine.execNotReady l s
  | .notReadyBackoffEnd chip => Sys2Proof.Machine.execNotReadyBackoffEnd chip s
  | .abandon l => Sys2Proof.Machine.execAbandon l s
  | .credit l => Sys2Proof.Machine.execCredit l s
  | .creditReturnTimer chip => Sys2Proof.Machine.execCreditReturnTimer chip s
  | .tallyMessage l => Sys2Proof.Machine.execTallyMessage l s
  | .keeper l => Sys2Proof.Machine.execKeeper l s
  | .rekey l => Sys2Proof.Machine.execRekey l s
  | .partnerAdmit => Sys2Proof.Machine.execPartnerAdmit s
  | .partnerRamp chip => Sys2Proof.Machine.execPartnerRamp chip s
  | .groupIdleTimeout chip group => Sys2Proof.Machine.execGroupIdleTimeout chip group s
  | .remoteTimeout chip kind tag => Sys2Proof.Machine.execRemoteTimeout chip kind tag s
  | .receiverRequestDrop chip => Sys2Proof.Machine.execReceiverRequestDrop chip s
  | .keeperMemoryResponse data last fail => Sys2Proof.Machine.execKeeperMemoryResponse data last fail s
  | .controlPortRefused wr off strobe init => Sys2Proof.Machine.execControlPortRefused wr off strobe init s
  | .registerWrite off strobe data => Sys2Proof.Machine.execRegisterWrite off strobe data s
  | .fltStatClear w raised => Sys2Proof.Machine.execFltStatClear w raised s
  | .fcValidClear w => Sys2Proof.Machine.execFcValidClear w s
  | .fltCorrRead => Sys2Proof.Machine.execFltCorrRead s
  | .knockDropRead => Sys2Proof.Machine.execKnockDropRead s
  | .snapStatRead => Sys2Proof.Machine.execSnapStatRead s
  | .smokerStatRead => Sys2Proof.Machine.execSmokerStatRead s
  | .afClear w => Sys2Proof.Machine.execAfClear w s
  | .frameRestart w => Sys2Proof.Machine.execFrameRestart w s
  | .epRelease w => Sys2Proof.Machine.execEpRelease w s
  | .fltInjectCollector w => Sys2Proof.Machine.execFltInjectCollector w s
  | .fltInjectSingleFlip w => Sys2Proof.Machine.execFltInjectSingleFlip w s
  | .fltInjectDoubleFlip w => Sys2Proof.Machine.execFltInjectDoubleFlip w s
  | .errPinMinimumEnd => Sys2Proof.Machine.execErrPinMinimumEnd s
  | .blockResetReaction => Sys2Proof.Machine.execBlockResetReaction s
  | .aoRstN inp => Sys2Proof.Machine.execAoRstN inp s
  | .blkRstN inp => Sys2Proof.Machine.execBlkRstN inp s
  | .kbGo w => Sys2Proof.Machine.execKbGo w s
  | .bootAuthDone => Sys2Proof.Machine.execBootAuthDone s
  | .hiveTestsDone pass => Sys2Proof.Machine.execHiveTestsDone pass s
  | .stackMapRead => Sys2Proof.Machine.execStackMapRead s
  | .linkStartupTimeout => Sys2Proof.Machine.execLinkStartupTimeout s
  | .readiness => Sys2Proof.Machine.execReadiness s
  | .pwrFailN => Sys2Proof.Machine.execPwrFailN s
  | .wakeReq => Sys2Proof.Machine.execWakeReq s
  | .pwrWake w => Sys2Proof.Machine.execPwrWake w s
  | .pwrAck d up => Sys2Proof.Machine.execPwrAck d up s
  | .clkAck branch up => Sys2Proof.Machine.execClkAck branch up s
  | .pwrRetAck d up => Sys2Proof.Machine.execPwrRetAck d up s
  | .handshakeTimeout clk n => Sys2Proof.Machine.execHandshakeTimeout clk n s
  | .frameDemandWake f => Sys2Proof.Machine.execFrameDemandWake f s
  | .frameRunToIdle f => Sys2Proof.Machine.execFrameRunToIdle f s
  | .frameIdleToNap f => Sys2Proof.Machine.execFrameIdleToNap f s
  | .frameNapToOff f => Sys2Proof.Machine.execFrameNapToOff f s
  | .supplyWarning src => Sys2Proof.Machine.execSupplyWarning src s
  | .supplyDeep src => Sys2Proof.Machine.execSupplyDeep src s
  | .throttleEscalate r => Sys2Proof.Machine.execThrottleEscalate r s
  | .throttleRelease r => Sys2Proof.Machine.execThrottleRelease r s
  | .droopHeldTimeout r => Sys2Proof.Machine.execDroopHeldTimeout r s
  | .pantryScrub f ecc => Sys2Proof.Machine.execPantryScrub f ecc s
  | .contextStoreScrub bank word ecc => Sys2Proof.Machine.execContextStoreScrub bank word ecc s
  | .droopSensorTrim => Sys2Proof.Machine.execDroopSensorTrim s
  | .telemetry => Sys2Proof.Machine.execTelemetry s
  | .flashSectorErase => Sys2Proof.Machine.execFlashSectorErase s
  | .flashOperationDone fail status => Sys2Proof.Machine.execFlashOperationDone fail status s
  | .flushStart => Sys2Proof.Machine.execFlushStart s
  | .flushAgeTimeout => Sys2Proof.Machine.execFlushAgeTimeout s
  | .flushDone => Sys2Proof.Machine.execFlushDone s
  | .eventRecordAccept => Sys2Proof.Machine.execEventRecordAccept s
  | .recCursorFlashRead w => Sys2Proof.Machine.execRecCursorFlashRead w s
  | .flashReadDone data => Sys2Proof.Machine.execFlashReadDone data s
  | .scTrig w => Sys2Proof.Machine.execScTrig w s
  | .snapIn => Sys2Proof.Machine.execSnapIn s
  | .snapshotCapture fine => Sys2Proof.Machine.execSnapshotCapture fine s
  | .snapshotImageDone => Sys2Proof.Machine.execSnapshotImageDone s
  | .ptimeWrap => Sys2Proof.Machine.execPtimeWrap s
  | .groupNumberReuse chip group => Sys2Proof.Machine.execGroupNumberReuse chip group s
  | .supplyAboveWarning src => Sys2Proof.Machine.execSupplyAboveWarning src s
  | .flashLogScanDone scan => Sys2Proof.Machine.execFlashLogScanDone scan s
  | .frameTestRetry => Sys2Proof.Machine.execFrameTestRetry s
  | .linkRetrainingRequest l => Sys2Proof.Machine.execLinkRetrainingRequest l s

end Sys2Proof.Machine
end

