-- ==== Sys2Proof/Safety.lean ====
section
/-! DEFINITION. What counts as a safe run, and the words in which claims speak of what a command leaves alone: the parts of
the state, and that only the parts named have changed. -/
namespace Sys2Proof.Machine

/-- The block goes on: its next step ends neither in a fault nor in a refusal. -/
def State.Safe (s : State) : Prop := ∃ t, step s = .next t

/-- The parts of the state: one name per field of State. -/
inductive Part where
  | pending | ptime | inp | keeper | mboxes | ctxs | readyQ | chans | frames | taps | ports | spine | swarms
  | expand | expandAt | ksets | mods | xlate | tally | fabric | faults | sec | power | ftest | snap | recd
  | telem | regs | free | nextId
deriving DecidableEq, Repr

/-- Whether a part is the same in two states. -/
def Part.Same (p : Part) (s t : State) : Prop :=
  match p with
  | .pending => t.pending = s.pending
  | .ptime => t.ptime = s.ptime
  | .inp => t.inp = s.inp
  | .keeper => t.keeper = s.keeper
  | .mboxes => t.mboxes = s.mboxes
  | .ctxs => t.ctxs = s.ctxs
  | .readyQ => t.readyQ = s.readyQ
  | .chans => t.chans = s.chans
  | .frames => t.frames = s.frames
  | .taps => t.taps = s.taps
  | .ports => t.ports = s.ports
  | .spine => t.spine = s.spine
  | .swarms => t.swarms = s.swarms
  | .expand => t.expand = s.expand
  | .expandAt => t.expandAt = s.expandAt
  | .ksets => t.ksets = s.ksets
  | .mods => t.mods = s.mods
  | .xlate => t.xlate = s.xlate
  | .tally => t.tally = s.tally
  | .fabric => t.fabric = s.fabric
  | .faults => t.faults = s.faults
  | .sec => t.sec = s.sec
  | .power => t.power = s.power
  | .ftest => t.ftest = s.ftest
  | .snap => t.snap = s.snap
  | .recd => t.recd = s.recd
  | .telem => t.telem = s.telem
  | .regs => t.regs = s.regs
  | .free => t.free = s.free
  | .nextId => t.nextId = s.nextId

/-- Only the parts named may differ: every other register, record, queue and counter of the block is as before. -/
def OnlyChanges (ps : List Part) (s t : State) : Prop := ∀ p : Part, p ∉ ps → p.Same s t

/-- All the parts of the state. -/
def allParts : List Part :=
  [.pending, .ptime, .inp, .keeper, .mboxes, .ctxs, .readyQ, .chans, .frames, .taps, .ports, .spine, .swarms, .expand, .expandAt,
   .ksets, .mods, .xlate, .tally, .fabric, .faults, .sec, .power, .ftest, .snap, .recd, .telem, .regs, .free, .nextId]

/-- All the parts but those named. -/
def allBut (ps : List Part) : List Part := allParts.filter fun p => decide (p ∉ ps)

/-- The parts of the state that a command can change, over all states and operands. The resets change all but the queue and
the model's own counters. -/
def mayTouch (c : Instr) : List Part :=
  match c with
  | .mboxRing _ _ => [.keeper, .mboxes]
  | .mboxCancel _ _ => [.keeper, .mboxes]
  | .mboxDoneClear _ _ => [.keeper, .mboxes]
  | .verbAccept => [.keeper, .mboxes, .fabric, .recd, .free]
  | .keeperPing _ => [.keeper, .mboxes, .fabric, .recd]
  | .fwInfo _ => [.keeper, .mboxes, .fabric, .recd]
  | .fwLoad _ => [.keeper, .mboxes, .fabric, .recd]
  | .fwActivate _ => [.keeper, .mboxes, .fabric, .recd]
  | .fwActivateRestart => [.keeper]
  | .mboxBind _ => [.keeper, .mboxes, .fabric, .recd]
  | .mboxUnbind _ => [.keeper, .mboxes, .fabric, .recd]
  | .tenantOpen _ => [.keeper, .mboxes, .xlate, .fabric, .recd]
  | .tenantClose _ => [.keeper, .mboxes, .frames, .xlate, .fabric, .recd]
  | .ctxOpen _ => [.keeper, .mboxes, .ctxs, .readyQ, .chans, .frames, .tally, .fabric, .faults, .power, .snap, .recd]
  | .ctxClose _ => [.keeper, .mboxes, .ctxs, .frames, .fabric, .faults, .snap, .recd]
  | .ctxPause _ => [.keeper, .mboxes, .ctxs, .readyQ, .chans, .frames, .tally, .fabric, .faults, .snap, .recd]
  | .ctxPauseDrainEnd _ => [.keeper, .mboxes, .ctxs, .readyQ, .chans, .frames, .tally, .fabric, .recd]
  | .ctxResume _ => [.keeper, .mboxes, .ctxs, .readyQ, .frames, .fabric, .faults, .snap, .recd]
  | .ctxAbort _ _ =>
    [.keeper, .mboxes, .ctxs, .readyQ, .chans, .frames, .ports, .spine, .tally, .fabric, .faults, .snap, .recd, .nextId]
  | .ctxQuery _ => [.keeper, .mboxes, .frames, .fabric, .faults, .snap, .recd]
  | .ctxRate _ => [.keeper, .mboxes, .ctxs, .frames, .fabric, .faults, .snap, .recd]
  | .mapInval _ => [.keeper, .mboxes, .frames, .xlate, .fabric, .faults, .snap, .recd]
  | .invalDrainEnd => [.keeper, .mboxes, .frames, .xlate, .fabric, .recd]
  | .mapDigest _ => [.keeper, .mboxes, .frames, .fabric, .faults, .snap, .recd]
  | .winSet _ => [.keeper, .mboxes, .xlate, .fabric, .recd]
  | .winClear _ => [.keeper, .mboxes, .frames, .xlate, .fabric, .recd]
  | .winClearDrainEnd _ => [.keeper, .mboxes, .xlate, .fabric, .recd]
  | .memInfo _ => [.keeper, .mboxes, .fabric, .recd]
  | .ksetRegister _ => [.keeper, .mboxes, .frames, .ksets, .fabric, .faults, .snap, .recd]
  | .ksetRetire _ => [.keeper, .mboxes, .frames, .ksets, .fabric, .faults, .snap, .recd]
  | .ksetRetireDrainEnd _ => [.keeper, .mboxes, .ksets, .fabric, .recd]
  | .ksetBind _ => [.keeper, .mboxes, .ctxs, .frames, .fabric, .faults, .snap, .recd]
  | .swarmOpen _ => [.keeper, .mboxes, .frames, .swarms, .fabric, .faults, .snap, .recd]
  | .swarmClose _ =>
    [.keeper, .mboxes, .ctxs, .readyQ, .chans, .frames, .swarms, .tally, .fabric, .faults, .snap, .recd, .nextId]
  | .swarmCloseFinish _ => [.keeper, .mboxes, .swarms, .expand, .fabric, .recd]
  | .swarmCloseEjectTimeout _ => [.ctxs, .frames, .swarms, .faults, .snap, .recd]
  | .modSet _ => [.keeper, .mboxes, .ctxs, .frames, .mods, .fabric, .faults, .snap, .recd]
  | .scaleLoad _ => [.keeper, .mboxes, .ctxs, .frames, .fabric, .faults, .snap, .recd, .nextId]
  | .tallyVirt _ => [.keeper, .mboxes, .ctxs, .frames, .fabric, .faults, .snap, .recd]
  | .tallyRead _ => [.keeper, .mboxes, .fabric, .recd]
  | .testKat _ _ => [.keeper, .mboxes, .ctxs, .frames, .swarms, .tally, .fabric, .faults, .sec, .power, .snap, .recd, .free]
  | .testFrame _ => [.keeper, .mboxes, .ctxs, .readyQ, .chans, .frames, .tally, .fabric, .ftest, .recd]
  | .frameTestDrainEnd _ =>
    [.keeper, .mboxes, .ctxs, .readyQ, .chans, .frames, .tally, .fabric, .faults, .power, .ftest, .snap, .recd]
  | .frameTestDrainTimeout => [.keeper, .mboxes, .ctxs, .readyQ, .chans, .frames, .tally, .fabric, .power, .ftest, .recd]
  | .calRun _ => [.keeper, .mboxes, .ctxs, .readyQ, .chans, .frames, .tally, .fabric, .ftest, .recd]
  | .snapTake _ => [.keeper, .mboxes, .fabric, .snap, .recd]
  | .logAnchor _ => [.keeper, .mboxes, .fabric, .recd]
  | .logFlush _ => [.keeper, .mboxes, .fabric, .recd]
  | .linkInfo _ => [.keeper, .mboxes, .fabric, .recd]
  | .relayAllow _ => [.keeper, .mboxes, .fabric, .recd]
  | .linkRekey _ => [.keeper, .mboxes, .frames, .swarms, .fabric, .faults, .sec, .snap, .recd, .free]
  | .rekeyTimeout _ => [.keeper, .mboxes, .ctxs, .frames, .fabric, .faults, .snap, .recd, .free]
  | .pwrFrame _ => [.keeper, .mboxes, .ctxs, .readyQ, .chans, .frames, .tally, .fabric, .recd]
  | .pwrFrameDrainEnd _ _ => [.keeper, .mboxes, .ctxs, .readyQ, .chans, .frames, .tally, .fabric, .recd]
  | .engineQuiesce _ => [.keeper, .mboxes, .frames, .swarms, .fabric, .faults, .sec, .snap, .recd, .free]
  | .quiesceRemoteDrained =>
    [.keeper, .mboxes, .ctxs, .chans, .frames, .swarms, .tally, .fabric, .faults, .sec, .power, .snap, .recd, .free]
  | .quiesceSleepHoldEnd => allBut [.pending, .ptime, .free, .nextId]
  | .relayTimeout _ => [.keeper, .mboxes, .fabric, .recd]
  | .keeperReset _ => [.keeper, .ctxs, .frames, .swarms, .xlate, .fabric, .faults, .sec, .power, .ftest, .snap, .recd, .free]
  | .keeperBeatTimeout => [.frames, .faults, .snap, .recd]
  | .keeperBeatTick => [.keeper, .frames, .faults, .snap, .recd, .free]
  | .knock _ => [.ctxs, .readyQ, .regs]
  | .knockNarrow _ _ => [.frames, .faults, .snap, .recd, .regs]
  | .watchPoll _ _ _ _ => [.ctxs, .readyQ, .chans, .frames, .taps, .xlate, .tally, .fabric, .faults, .snap, .recd, .nextId]
  | .contextBind _ => [.ctxs, .readyQ, .chans, .swarms]
  | .contextIdleUnbind _ => [.ctxs, .readyQ, .chans, .tally]
  | .preempt _ => [.ctxs, .readyQ, .chans, .tally]
  | .descriptorFetchReturn _ _ _ =>
    [.ctxs, .readyQ, .chans, .frames, .taps, .xlate, .tally, .fabric, .faults, .snap, .recd, .nextId]
  | .descriptorStart _ => [.ctxs, .frames, .faults, .power, .snap, .recd, .nextId]
  | .nop _ => [.ctxs]
  | .copy _ => [.ctxs, .chans, .frames, .ports, .spine, .xlate, .tally, .fabric, .faults, .snap, .recd, .free, .nextId]
  | .wait _ => [.ctxs, .readyQ, .chans, .tally]
  | .waitSatisfied _ => [.ctxs, .readyQ, .chans, .tally]
  | .waitEntryFreed _ => [.ctxs, .chans, .tally]
  | .feed _ => [.ctxs, .frames, .swarms, .expand, .xlate, .tally, .fabric, .faults, .snap, .recd, .nextId]
  | .tapArbitration _ =>
    [.ctxs, .readyQ, .chans, .frames, .taps, .ports, .spine, .xlate, .tally, .fabric, .faults, .snap, .recd, .nextId]
  | .readDataReturn _ _ _ _ _ => [.ctxs, .readyQ, .chans, .frames, .xlate, .tally, .fabric, .faults, .snap, .recd, .nextId]
  | .writeDone _ _ _ => [.ctxs, .readyQ, .chans, .frames, .tally, .fabric, .faults, .snap, .recd]
  | .tapCreditReturn _ _ => [.frames, .taps, .faults, .snap, .recd]
  | .untaggedFail _ => [.ctxs, .readyQ, .chans, .frames, .tally, .faults, .snap, .recd]
  | .frameStopDrainEnd _ => [.ctxs, .readyQ, .chans, .frames, .ports, .spine, .xlate, .tally, .fabric, .faults, .snap, .recd]
  | .responseLostTimeout _ => [.ctxs, .frames, .ports, .fabric, .faults, .snap, .recd]
  | .descriptorComplete _ => [.ctxs, .readyQ, .chans, .frames, .ports, .spine, .tally, .fabric, .faults, .snap, .recd]
  | .statusWriteAck _ => [.ctxs, .readyQ, .chans, .frames, .tally, .fabric, .faults, .snap, .recd]
  | .postRecordLanded _ => [.ctxs, .chans, .frames, .tally, .fabric, .faults, .snap, .recd]
  | .foragerWalk _ => [.frames, .xlate, .nextId]
  | .feedPortDeliver _ => [.ports, .swarms, .tally]
  | .landCr _ => [.ctxs, .frames, .ports, .faults, .snap, .recd]
  | .strmCr _ => [.ctxs, .frames, .ports, .faults, .snap, .recd]
  | .fetReq _ => [.ctxs, .frames, .ports]
  | .fetV _ _ _ => [.ctxs, .readyQ, .chans, .frames, .ports, .xlate, .tally, .fabric, .faults, .snap, .recd, .nextId]
  | .spineTransfer _ _ => [.ctxs, .frames, .ports, .spine, .tally]
  | .swarmBeatIssue _ => [.ctxs, .swarms, .tally]
  | .swarmEject _ _ => [.ctxs, .frames, .swarms, .faults, .snap, .recd]
  | .seedExpand _ => [.swarms, .expand, .expandAt, .power, .free]
  | .tpReadTally _ _ _ => [.tally, .power]
  | .tpIncrement _ _ _ => [.chans, .frames, .tally, .fabric, .faults, .power, .snap, .recd]
  | .tpArmTallyWait _ _ _ _ => [.chans, .tally, .power]
  | .tpCreditGive _ _ _ => [.chans, .frames, .tally, .faults, .power, .snap, .recd]
  | .tpCreditTake _ _ _ => [.chans, .frames, .tally, .faults, .power, .snap, .recd]
  | .tpArmCreditWait _ _ _ _ => [.chans, .tally, .power]
  | .tpDisarmSlot _ _ _ => [.chans, .tally, .power]
  | .tpReadCredit _ _ _ => [.tally, .power]
  | .deadlockTimeout => [.frames, .tally, .faults, .snap, .recd]
  | .lendUpdate => [.tally]
  | .lendTimeout _ => [.chans, .tally]
  | .barrierEnable _ _ => [.chans, .frames, .tally, .fabric, .faults, .power, .snap, .recd]
  | .barrierDisable _ _ => [.chans, .frames, .tally, .fabric, .faults, .power, .snap, .recd]
  | .credCfgWrite _ _ => [.chans, .tally, .power]
  | .tallyOwnWrite _ _ => [.tally]
  | .linkTrained _ _ _ => [.frames, .fabric, .faults, .snap, .recd]
  | .laneLoss _ => [.keeper, .mboxes, .ctxs, .frames, .fabric, .faults, .snap, .recd, .free]
  | .sealSilenceTimeout _ => [.keeper, .mboxes, .ctxs, .frames, .fabric, .faults, .snap, .recd, .free]
  | .flitSend _ _ => [.fabric, .recd]
  | .sealPeriodic _ => [.fabric, .recd]
  | .messageFlitReceive _ _ => [.fabric]
  | .sealReceive _ _ => [.keeper, .mboxes, .ctxs, .frames, .fabric, .faults, .snap, .recd, .free]
  | .replayTimeout _ => [.keeper, .mboxes, .ctxs, .frames, .fabric, .faults, .snap, .recd, .free]
  | .idleFlitReceive _ _ => []
  | .echo _ _ => [.fabric]
  | .echoReply _ _ _ => [.keeper, .mboxes, .ctxs, .frames, .swarms, .tally, .fabric, .faults, .sec, .snap, .recd, .free]
  | .echoPeriodic _ => [.fabric]
  | .waggleRecordPart _ _ => [.keeper, .mboxes, .ctxs, .frames, .swarms, .tally, .fabric, .faults, .sec, .snap, .recd, .free]
  | .identityPart _ _ => [.keeper, .mboxes, .ctxs, .frames, .swarms, .tally, .fabric, .faults, .sec, .snap, .recd, .free]
  | .recordAcknowledgement _ _ => [.fabric]
  | .waggleRepeat _ => [.fabric]
  | .waggleAckTimeout _ => [.frames, .fabric, .faults, .snap, .recd]
  | .waggleRetry _ => [.fabric]
  | .waggleResend _ => [.keeper, .frames, .swarms, .fabric, .faults, .sec, .snap, .recd, .free]
  | .write _ => [.frames, .xlate, .fabric, .faults, .snap, .recd, .nextId]
  | .lid _ => [.frames, .xlate, .fabric, .faults, .snap, .recd, .nextId]
  | .lidDataLanded _ _ => [.chans, .frames, .tally, .fabric, .faults, .power, .snap, .recd]
  | .read _ => [.frames, .xlate, .fabric, .faults, .snap, .recd, .nextId]
  | .readData _ => [.ctxs, .chans, .frames, .tally, .fabric, .faults, .snap, .recd, .nextId]
  | .landed _ => [.ctxs, .fabric]
  | .refuse _ => [.ctxs, .frames, .fabric]
  | .notReady _ => [.fabric]
  | .notReadyBackoffEnd _ => [.tally, .fabric]
  | .abandon _ => [.frames, .fabric]
  | .credit _ => [.fabric]
  | .creditReturnTimer _ => [.fabric]
  | .tallyMessage _ => [.chans, .frames, .tally, .fabric, .faults, .power, .snap, .recd]
  | .keeper _ => [.keeper, .mboxes, .fabric, .recd]
  | .rekey _ => [.keeper, .mboxes, .ctxs, .frames, .swarms, .fabric, .faults, .sec, .snap, .recd, .free]
  | .partnerAdmit => [.fabric]
  | .partnerRamp _ => [.fabric]
  | .groupIdleTimeout _ _ => [.frames, .fabric]
  | .remoteTimeout _ _ _ => [.ctxs, .frames, .fabric]
  | .receiverRequestDrop _ => [.frames, .fabric]
  | .keeperMemoryResponse _ _ _ => [.keeper, .snap, .telem]
  | .controlPortRefused _ _ _ _ => [.frames, .faults, .snap, .recd, .regs]
  | .registerWrite _ _ _ =>
    [.keeper, .mboxes, .ctxs, .readyQ, .chans, .frames, .swarms, .xlate, .tally, .fabric, .faults, .sec, .power, .ftest,
     .snap, .recd, .telem, .regs, .free]
  | .fltStatClear _ _ => [.faults]
  | .fcValidClear _ => [.faults]
  | .fltCorrRead => [.faults, .regs]
  | .knockDropRead => [.regs]
  | .snapStatRead => [.snap, .regs]
  | .smokerStatRead => [.power, .regs]
  | .afClear _ => [.frames]
  | .frameRestart _ => [.frames, .faults, .power, .snap, .recd]
  | .epRelease _ => [.faults]
  | .fltInjectCollector _ => [.frames, .faults, .snap, .recd]
  | .fltInjectSingleFlip _ => [.frames, .faults, .snap, .recd]
  | .fltInjectDoubleFlip _ => [.frames, .faults, .snap, .recd]
  | .errPinMinimumEnd => [.faults]
  | .blockResetReaction => allBut [.pending, .ptime, .nextId]
  | .aoRstN _ => allBut [.pending, .free, .nextId]
  | .blkRstN _ => allBut [.pending, .ptime, .nextId]
  | .kbGo _ => [.keeper, .frames, .faults, .snap, .recd]
  | .bootAuthDone => [.keeper, .mboxes, .frames, .fabric, .faults, .power, .snap, .recd]
  | .hiveTestsDone _ => [.keeper, .mboxes, .ctxs, .frames, .swarms, .tally, .fabric, .faults, .sec, .power, .snap, .recd, .free]
  | .stackMapRead => [.keeper, .frames, .faults, .snap, .recd]
  | .linkStartupTimeout => [.keeper]
  | .readiness => [.keeper, .mboxes, .frames, .swarms, .fabric, .faults, .sec, .snap, .recd, .free]
  | .pwrFailN => [.frames, .faults, .power, .snap, .recd]
  | .wakeReq => [.power]
  | .pwrWake _ => [.power]
  | .pwrAck _ _ =>
    [.keeper, .mboxes, .ctxs, .chans, .frames, .swarms, .xlate, .tally, .fabric, .faults, .sec, .power, .snap, .recd, .free]
  | .clkAck _ _ => [.keeper, .chans, .frames, .tally, .fabric, .faults, .sec, .power, .snap, .recd, .free]
  | .pwrRetAck _ _ => [.keeper, .frames, .faults, .sec, .power, .snap, .recd, .free]
  | .handshakeTimeout _ _ => [.frames, .faults, .snap, .recd]
  | .frameDemandWake _ => [.frames, .power]
  | .frameRunToIdle _ => [.frames, .power]
  | .frameIdleToNap _ => [.frames, .power]
  | .frameNapToOff _ => [.frames, .power]
  | .supplyWarning _ => [.power, .telem]
  | .supplyDeep _ => [.power, .telem]
  | .throttleEscalate _ => [.power, .telem]
  | .throttleRelease _ => [.power]
  | .droopHeldTimeout _ => [.frames, .faults, .snap, .recd]
  | .pantryScrub _ _ => [.ctxs, .frames, .fabric, .faults, .power, .snap, .recd]
  | .contextStoreScrub _ _ _ => [.ctxs, .readyQ, .chans, .frames, .tally, .fabric, .faults, .power, .snap, .recd]
  | .droopSensorTrim => [.power]
  | .telemetry => [.keeper, .frames, .telem, .free]
  | .flashSectorErase => [.recd]
  | .flashOperationDone _ _ => [.keeper, .mboxes, .chans, .frames, .tally, .fabric, .faults, .power, .snap, .recd]
  | .flushStart => [.recd]
  | .flushAgeTimeout => [.recd]
  | .flushDone => [.keeper, .mboxes, .chans, .frames, .tally, .fabric, .power, .recd]
  | .eventRecordAccept => [.frames, .faults, .snap, .recd]
  | .recCursorFlashRead _ => [.recd]
  | .flashReadDone _ => [.recd]
  | .scTrig _ => [.snap]
  | .snapIn => [.snap]
  | .snapshotCapture _ => [.keeper, .mboxes, .fabric, .power, .snap, .recd]
  | .snapshotImageDone => [.snap]
  | .ptimeWrap => [.ptime, .frames, .faults, .snap, .recd]
  | .groupNumberReuse _ _ => [.fabric]
  | .supplyAboveWarning _ => [.power]
  | .flashLogScanDone _ => [.keeper, .mboxes, .chans, .frames, .tally, .fabric, .power, .recd]
  | .frameTestRetry => [.ctxs, .readyQ, .chans, .frames, .tally, .fabric, .ftest]
  | .linkRetrainingRequest _ => [.fabric, .power]

/-- What R145 and R146 ask of a modulus entry: kind 3 is never held; for kind 1 every constant is exact, p is an odd prime by
the test of R146, below 2^62, of the bit length MK_WIDTH; for kind 2 the width is 32 or 64 and the other fields are zero. -/
def ModEntry.Sound (e : ModEntry) : Prop :=
  e.kind ≠ 3 ∧
  (e.kind = 1 → 3 ≤ e.p.toNat ∧ e.p.toNat < 2 ^ 62 ∧ isOddPrime e.p.toNat = true ∧
    e.width.toNat = Nat.log2 e.p.toNat + 1 ∧ (e.p.toNat * e.pinv.toNat + 1) % 2 ^ 64 = 0 ∧
    e.rmod.toNat = 2 ^ 64 % e.p.toNat ∧ e.rsq.toNat = 2 ^ 128 % e.p.toNat) ∧
  (e.kind = 2 → (e.width.toNat = 32 ∨ e.width.toNat = 64) ∧ e.p = 0 ∧ e.pinv = 0 ∧ e.rmod = 0 ∧ e.rsq = 0)

/-- Every entry of the modulus table is as R146 lets it in. -/
def State.ModsSound (s : State) : Prop := ∀ i, (s.modulus i).Sound

/-- What R175 to R177 ask of a registered key-set record: 1 to 4 masks, a ring of 2^8 to 2^17, at least one row, an address
in space 0 or 4 aligned to 32 B, and the length that its rows have. -/
def KeySet.Sound (k : KeySet) : Prop :=
  k.tenant ≠ 0 → 1 ≤ k.masks.toNat ∧ k.masks.toNat ≤ 4 ∧ 8 ≤ k.logN.toNat ∧ k.logN.toNat ≤ 17 ∧ k.rows ≠ 0 ∧
    (k.word.space = 0 ∨ k.word.space = 4) ∧ k.word.addr % 32 = 0 ∧ k.len.toNat = k.rows.toNat * k.row

/-- Every registered key set is as R180 lets it in. -/
def State.RegistrySound (s : State) : Prop := ∀ n, (s.kset n).Sound

/-- The turn of a verb has come: it is in progress from `o`, the keeper is ready, and no verb accepted before it names an
object that it names (R33, R34). -/
def Turn (s : State) (o : Origin) (code : Nat) (v : VerbProg) : Prop := s.verbAt o code .run = some v

/-- A verb waits for the drain that ends it, and it is first on its objects. -/
def Waits (s : State) (o : Origin) (code : Nat) (v : VerbProg) : Prop := s.verbAt o code .draining = some v

/-- A verb has read the structure it names (R45): it lies in a range of the stack map, aligned, no read of it failed, and
these are its bytes. -/
def HasRead (s : State) (v : VerbProg) (addr len align : Nat) (b : Bytes) : Prop :=
  s.inStackMap addr len = true ∧ addr % align = 0 ∧ v.readFail = false ∧ v.bytes addr len = some b

end Sys2Proof.Machine
end

