-- ==== Sys2Proof/Certificates/Slice0/Obligations.lean ====
section
/-! DEFINITION. The statements for the provers. -/
open Sys2Proof Sys2Proof.Machine

/-- The command at the front of the queue is what a step runs: step is exec of it on the state with the queue's rest. -/
def Obligations.StepRunsTheFrontCommand : Prop :=
  ∀ (c : Instr) (rest : List Instr) (s : State), step { s with pending := c :: rest } = exec c { s with pending := rest }

/-- Whatever the state and whatever command waits, the block goes on: no command ends in a fault or a refusal. -/
def Obligations.EveryStepGoesOn : Prop := ∀ s : State, s.Safe

/-- The frame of every command at once: a command changes only the parts of the state that mayTouch lists for it, so every other
register, record, buffer, queue and counter of the block is as before. -/
def Obligations.CommandsTouchOnlyTheirParts : Prop :=
  ∀ (c : Instr) (s t : State), exec c s = .next t → OnlyChanges (mayTouch c) s t

/-- Every step keeps the modulus table sound: a command that leaves a sound table finds one. -/
def Obligations.StepsKeepTheModulusTableSound : Prop :=
  ∀ s t : State, s.ModsSound → step s = .next t → t.ModsSound

/-- Every step keeps the key-set registry sound. -/
def Obligations.StepsKeepTheRegistrySound : Prop :=
  ∀ s t : State, s.RegistrySound → step s = .next t → t.RegistrySound

/-- After reset the modulus table is empty and no key set is registered, so both are sound (R145, R175). -/
def Obligations.ResetTablesAreSound : Prop :=
  State.reset.ModsSound ∧ State.reset.RegistrySound ∧ (∀ i, (State.reset.modulus i).kind = 0) ∧
    (∀ n, (State.reset.kset n).tenant = 0)

/-- MBOX_RING (R26, R27): a write of MBOX_DB with RING set. When the mailbox is neither BUSY nor, after the write's DONE bit has
cleared it, DONE, the request is submitted: BUSY sets, and the mailbox is rung after those rung before it. Otherwise the ring
is ignored, and OVERRUN sets. The window and every other mailbox are as before. -/
def Obligations.RingSubmitsTheRequestOrOverruns : Prop :=
  ∀ (m : Fin 32) (w : BitVec 32) (s : State), s.cpAwake = true → w.getLsbD 0 = true →
    ∃ t, exec (.mboxRing m w) s = .next t ∧ (t.mbox m.val).window = (s.mbox m.val).window ∧
      (t.mbox m.val).tenant = (s.mbox m.val).tenant ∧ (∀ n, n ≠ m.val → t.mbox n = s.mbox n) ∧
      OnlyChanges [.mboxes, .keeper] s t ∧
      ((s.mbox m.val).busy = false → ((s.mbox m.val).done = true → w.getLsbD 2 = true) →
        (t.mbox m.val).busy = true ∧ (t.mbox m.val).done = false ∧
          t.keeper = { s.keeper with rung := s.keeper.rung ++ [m.val] } ∧
          ((t.mbox m.val).overrun = true ↔ (s.mbox m.val).overrun = true ∧ w.getLsbD 7 = false)) ∧
      ((s.mbox m.val).busy = true ∨ ((s.mbox m.val).done = true ∧ w.getLsbD 2 = false) →
        (t.mbox m.val).busy = (s.mbox m.val).busy ∧ (t.mbox m.val).overrun = true ∧ t.keeper = s.keeper)

/-- MBOX_CANCEL and MBOX_DONE_CLEAR (R25, R27, R31): a write of MBOX_DB without RING. With CANCEL it sets CANCEL while BUSY is 1,
and has no effect on it while BUSY is 0; with DONE it frees the mailbox. BUSY, the window, the queue of rung mailboxes and
every other mailbox are as before. -/
def Obligations.CancelAndDoneWriteOneBit : Prop :=
  ∀ (m : Fin 32) (w : BitVec 32) (s : State), s.cpAwake = true → w.getLsbD 0 = false →
    (w.getLsbD 6 = true → ∃ t, exec (.mboxCancel m w) s = .next t ∧
      ((t.mbox m.val).cancel = true ↔ (s.mbox m.val).cancel = true ∨ (s.mbox m.val).busy = true) ∧
      (t.mbox m.val).busy = (s.mbox m.val).busy ∧ (t.mbox m.val).window = (s.mbox m.val).window ∧
      (∀ n, n ≠ m.val → t.mbox n = s.mbox n) ∧ OnlyChanges [.mboxes] s t) ∧
    (w.getLsbD 2 = true → ∃ t, exec (.mboxDoneClear m w) s = .next t ∧
      (t.mbox m.val).done = false ∧ (t.mbox m.val).busy = (s.mbox m.val).busy ∧
      (t.mbox m.val).irqEn = w.getLsbD 5 ∧ (t.mbox m.val).window = (s.mbox m.val).window ∧
      (∀ n, n ≠ m.val → t.mbox n = s.mbox n) ∧ OnlyChanges [.mboxes] s t)

/-- VERB_ACCEPT (R26, R33, R36, R39): with the keeper ready, no fw.activate holding acceptance and no interrupted verb left, the
mailbox rung first leaves the queue; a request that is not to be relayed, passes the checks of acceptance and is not
fw.activate becomes the newest verb in progress, with the request block copied as it stands and the powered time of now. One
that fails a check is answered at once with the check's status and detail. RELAY_TIMEOUT (R38): a relayed verb of a mailbox
whose time has run out completes RELAY_TIMEOUT, and the next relay to the same chip goes. -/
def Obligations.VerbsAreAcceptedInRingOrder : Prop :=
  (∀ (m : Fin 32) (rest : List Nat) (s : State), s.keeperReady = true → s.keeper.activating = false →
    (s.keeper.verbs.any (·.stage == .interrupted)) = false → s.keeper.rung = m.val :: rest →
    (s.mbox m.val).rungAs = none →
    let r := (s.mbox m.val).request
    let v : VerbProg := { origin := .mbox m, req := r, accepted := s.ptime, stage := .run, got := [], readFail := false,
                          asked := [], acc := 0 }
    let u : State := { s with keeper := { s.keeper with rung := rest, verbs := s.keeper.verbs ++ [v] } }
    reqRelay r = false →
    (u.acceptFault (.mbox m) r = none → reqVerb r ≠ 0x0103 → exec .verbAccept s = .next u) ∧
    (u.acceptFault (.mbox m) r = none → reqVerb r = 0x0103 →
      exec .verbAccept s = .next { u with keeper := { u.keeper with activating := true } }) ∧
    (∀ st d, u.acceptFault (.mbox m) r = some (st, d) → exec .verbAccept s = .next (u.verbDone (.mbox m) st d))) ∧
  (∀ (m : Fin 32) (v : VerbProg) (s : State), s.verb (.mbox m) = some v → v.stage = .relayed →
    exec (.relayTimeout m) s = .next ((s.finish v kRelayTimeout 0 []).relayNext (reqTarget v.req)))

/-- VERB_DONE (R24, R26, R28): the response block of the verb in progress of a mailbox is written at byte 0x80 of its window
before DONE sets and BUSY clears together; CANCEL clears; the verb is no longer in progress, and what it had asked of the
keeper memory port is nobody's. The request bytes, and every other mailbox, are as before. A binding that waited for the verb
is the case of R32, and is left out by the hypothesis. The response block (R24): STATUS, DETAIL, the request's SEQ, the
interface version, the length of the results, the chip, a zero byte and the execution time in microseconds, saturated, lie at
bytes 0, 2, 4, 8, 9, 10, 11 and 12; the results follow from byte 16. -/
def Obligations.ResponsesAreWrittenAndLaidOut : Prop :=
  (∀ (m : Fin 32) (v : VerbProg) (st d : Nat) (res : Bytes) (s : State), v.origin = .mbox m → res.length ≤ 112 →
    (s.mbox m.val).rebind = none →
    let t := s.finish v st d res
    (t.mbox m.val).done = true ∧ (t.mbox m.val).busy = false ∧ (t.mbox m.val).cancel = false ∧
      (∀ i, i < (responseBytes s v st d res).length →
        (t.mbox m.val).window.get 0 (0x80 + i) = (responseBytes s v st d res).getD i 0) ∧
      (∀ i, i < 0x80 → (t.mbox m.val).window.get 0 i = (s.mbox m.val).window.get 0 i) ∧
      (∀ n, n ≠ m.val → t.mbox n = s.mbox n) ∧ t.verb (.mbox m) = none ∧
      t.keeper = { s.keeper with verbs := s.keeper.verbs.filter (·.origin ≠ .mbox m),
                                 kmq := s.keeper.kmq.map fun r => if r.owner = .verb (.mbox m) then { r with owner := .gone } else r } ∧
      OnlyChanges [.mboxes, .keeper, .recd] s t) ∧
  (∀ (v : VerbProg) (st d : Nat) (res : Bytes) (s : State), st < 2 ^ 16 → d < 2 ^ 16 → res.length < 256 →
    let b := responseBytes s v st d res
    b.length = 16 + res.length ∧ leAt b 0 2 = st ∧ leAt b 2 2 = d ∧ slice b 4 4 = slice v.req 4 4 ∧
      leAt b 8 1 = s.ifMajor ∧ leAt b 9 1 = res.length ∧ leAt b 10 1 = s.inp.chipId.toNat ∧
      leAt b 12 4 = min ((s.ptime - v.accepted).toNat / 25) (2 ^ 32 - 1) ∧ b.drop 16 = res)

/-- keeper.ping, fw.info, mem.info and tally.read (R42, R477, R430, R349): a verb that only asks is completed OK at its turn, with
its results packed from byte 16 of the response, and changes nothing else: the powered time and the number of verbs in
progress; the versions and the first 16 bytes of the image digest; base, length and mapped-out channels of a range of the
stack map, zeros for an absent index; a tally's value. -/
def Obligations.QueryVerbsAnswer : Prop :=
  ∀ (o : Origin) (v : VerbProg) (s : State),
    (Turn s o 0x0100 v → exec (.keeperPing o) s =
      .next (s.finish v kOK 0 (leBytes 8 s.ptime.toNat ++ leBytes 4 s.keeper.verbs.length))) ∧
    (Turn s o 0x0101 v → exec (.fwInfo o) s =
      .next (s.finish v kOK 0 (leBytes 4 Config.romVersion.toNat ++ leBytes 4 s.keeper.running.fwVer.toNat ++
        leBytes 2 s.keeper.running.ifVer.toNat ++ zeros 2 ++ leBytes 4 s.keeper.running.secVer.toNat ++
        slice s.keeper.running.digest 0 16))) ∧
    (Turn s o 0x0404 v → ∀ r, s.keeper.stackMap.find? (·.idx = par v.req 16 1) = some r → exec (.memInfo o) s =
      .next (s.finish v kOK 0 (leBytes 8 (s.inp.chipId.toNat * 2 ^ 50 + r.base) ++ leBytes 8 r.len ++
        leBytes 4 r.out.toNat))) ∧
    (Turn s o 0x0404 v → s.keeper.stackMap.find? (·.idx = par v.req 16 1) = none → exec (.memInfo o) s =
      .next (s.finish v kOK 0 (zeros 20))) ∧
    (Turn s o 0x0701 v → exec (.tallyRead o) s =
      .next (s.finish v kOK 0 (leBytes 8 (s.tallyVal (par v.req 16 2)))))

/-- mbox.bind, mbox.unbind and relay.allow (R32, R354, R37): binding names an open tenant, else NO_SUCH_OBJECT; the mailbox's
window is zeroed and DONE cleared at once when it holds no verb, and the binding waits for the verb otherwise. relay.allow
writes the mask of chips whose relayed verbs are executed. fw.load, fw.activate and FW_ACTIVATE_RESTART (R35, R362, R363):
fw.load judges the image it has read and, when no check fails, records it; fw.activate with an image waits until it is the
only verb in progress; then the boot ROM reads the image from its address again, STATE being 1. With no image loaded
fw.activate completes NO_SUCH_OBJECT, and acceptance goes on. -/
def Obligations.BindingAndFirmwareVerbs : Prop :=
  (∀ (o : Origin) (v : VerbProg) (s : State),
    (Turn s o 0x0104 v → s.tenantOpen (BitVec.ofNat 12 (par v.req 18 2)) = false →
      exec (.mboxBind o) s = .next (s.finish v kNoObject 18 [])) ∧
    (Turn s o 0x0104 v → s.tenantOpen (BitVec.ofNat 12 (par v.req 18 2)) = true →
      let b := s.mbox (par v.req 16 1)
      let t := some (BitVec.ofNat 12 (par v.req 18 2))
      (b.busy = false → exec (.mboxBind o) s = .next ((s.setMbox (par v.req 16 1)
        { b with window := [], rungAs := none, done := false, tenant := t, rebind := none }).finish v kOK 0 [])) ∧
      (b.busy = true → exec (.mboxBind o) s = .next ((s.setMbox (par v.req 16 1) { b with rebind := some t }).finish v kOK 0 []))) ∧
    (Turn s o 0x0105 v →
      let b := s.mbox (par v.req 16 1)
      (b.busy = false → exec (.mboxUnbind o) s = .next ((s.setMbox (par v.req 16 1)
        { b with window := [], rungAs := none, done := false, tenant := none, rebind := none }).finish v kOK 0 [])) ∧
      (b.busy = true → exec (.mboxUnbind o) s = .next ((s.setMbox (par v.req 16 1) { b with rebind := some none }).finish v kOK 0 []))) ∧
    (Turn s o 0x0A01 v → exec (.relayAllow o) s = .next
      (({ s with keeper := { s.keeper with relayAllow := BitVec.ofNat 64 (par v.req 16 8) } } : State).finish v kOK 0 []))) ∧
  (∀ (o : Origin) (v : VerbProg) (s : State),
    (∀ b, Turn s o 0x0102 v → s.unitFailed 6 = false → s.unitPassed 6 = true →
      HasRead s v (par v.req 16 8) (par v.req 24 4) 256 b →
      s.imageFault b (par v.req 24 4) (some s.keeper.running.secVer.toNat) = none →
      exec (.fwLoad o) s = .next
        (({ s with keeper := { s.keeper with loaded := some (imageOf (par v.req 16 8) (par v.req 24 4) b) } } : State).finish v kOK 0
          (leBytes 4 (leAt b 16 4)))) ∧
    (∀ b st d, Turn s o 0x0102 v → s.unitFailed 6 = false → s.unitPassed 6 = true →
      HasRead s v (par v.req 16 8) (par v.req 24 4) 256 b →
      s.imageFault b (par v.req 24 4) (some s.keeper.running.secVer.toNat) = some (st, d) →
      exec (.fwLoad o) s = .next (s.finish v st d [])) ∧
    (Turn s o 0x0103 v → s.keeper.loaded = none → exec (.fwActivate o) s = .next
      (({ s with keeper := { s.keeper with activating := false } } : State).finish v kNoObject 0 [])) ∧
    (Turn s o 0x0103 v → s.keeper.loaded ≠ none → exec (.fwActivate o) s = .next (s.verbDrains o)) ∧
    (∀ i, s.keeper.verbs = [v] → s.keeper.loaded = some i → reqVerb v.req = 0x0103 → v.stage = .draining →
      s.keeperReady = true → ∃ t, exec .fwActivateRestart s = .next t ∧ t.keeper.state = 1 ∧
        t.keeper.bootWhy = .activate v.origin ∧ t.keeper.bootAddr = i.addr ∧ t.keeper.verbs = s.keeper.verbs ∧
        t.keeper.kmq = s.keeper.kmq ++ [⟨.boot, i.addr.toNat, 256, false, []⟩] ∧ OnlyChanges [.keeper] s t))

/-- tenant.open, tenant.close and map.inval (R239, R253 to R255): tenant.open sets the root of a closed tenant to an aligned local
table; tenant.close of an open tenant in no use, and map.inval of an aligned range of an open tenant that the sender may act
on, wait for their drain; the invalidation starts at once, counting a new generation, when none is draining, and waits for the
next batch otherwise. INVAL_DRAIN_END (R254, R255): every burst counted against the previous generation has drained, so each
invalidation of the batch completes; the root of a tenant that was being closed is cleared; and the batch that waited starts.
While a burst of the old generation is under way nothing happens. -/
def Obligations.TranslationVerbsDrainInBatches : Prop :=
  (∀ (o : Origin) (v : VerbProg) (s : State),
    (Turn s o 0x0200 v → s.tableAddrOk (par v.req 24 8) (2 ^ 16) = true →
      s.tenantOpen (BitVec.ofNat 12 (par v.req 16 2)) = false → exec (.tenantOpen o) s = .next
        (({ s with xlate := { s.xlate with roots := s.xlate.roots.set none (par v.req 16 2) (some (par v.req 24 8)) } } :
          State).finish v kOK 0 [])) ∧
    (Turn s o 0x0200 v → s.tableAddrOk (par v.req 24 8) (2 ^ 16) = true →
      s.tenantOpen (BitVec.ofNat 12 (par v.req 16 2)) = true → exec (.tenantOpen o) s = .next (s.finish v kBusy 16 [])) ∧
    (Turn s o 0x0201 v → s.tenantOpen (BitVec.ofNat 12 (par v.req 16 2)) = true →
      s.tenantUsed (BitVec.ofNat 12 (par v.req 16 2)) = false → s.xlate.draining = [] →
      ∃ t, exec (.tenantClose o) s = .next t ∧ t.xlate.gen = s.xlate.gen + 1 ∧ t.xlate.draining = [o] ∧
        t.xlate.roots = s.xlate.roots ∧ OnlyChanges [.keeper, .xlate, .frames] s t) ∧
    (Turn s o 0x0201 v → s.tenantOpen (BitVec.ofNat 12 (par v.req 16 2)) = false →
      exec (.tenantClose o) s = .next (s.finish v kNoObject 16 [])) ∧
    (Turn s o 0x0400 v → s.mayAct o (BitVec.ofNat 12 (par v.req 16 2)) = true → par v.req 24 8 % 2 ^ 25 = 0 →
      par v.req 32 8 % 2 ^ 25 = 0 → par v.req 24 8 + par v.req 32 8 ≤ 2 ^ 57 →
      s.tenantOpen (BitVec.ofNat 12 (par v.req 16 2)) = true →
      ∃ t, exec (.mapInval o) s = .next t ∧ OnlyChanges [.keeper, .xlate, .frames] s t ∧
        (s.xlate.draining = [] → t.xlate.gen = s.xlate.gen + 1 ∧ t.xlate.draining = [o]) ∧
        (s.xlate.draining ≠ [] → t.xlate.gen = s.xlate.gen ∧ t.xlate.waiting = s.xlate.waiting ++ [o] ∧
          t.frames = s.frames)) ∧
    (Turn s o 0x0400 v → s.mayAct o (BitVec.ofNat 12 (par v.req 16 2)) = true → par v.req 24 8 % 2 ^ 25 ≠ 0 →
      exec (.mapInval o) s = .next (s.finish v kBadParam 24 [])) ∧
    (Turn s o 0x0400 v → s.mayAct o (BitVec.ofNat 12 (par v.req 16 2)) = true → par v.req 24 8 % 2 ^ 25 = 0 →
      (par v.req 32 8 % 2 ^ 25 ≠ 0 ∨ 2 ^ 57 < par v.req 24 8 + par v.req 32 8) →
      exec (.mapInval o) s = .next (s.finish v kBadParam 32 []))) ∧
  (∀ (o : Origin) (v : VerbProg) (s : State), s.verb o = some v → v.stage = .draining → s.xlate.draining = [o] →
    (s.genDrained = false → exec .invalDrainEnd s = .next s) ∧
    (s.genDrained = true → s.xlate.waiting = [] → reqVerb v.req = 0x0400 → exec .invalDrainEnd s =
      .next ((s.finish v kOK 0 []).modXlate fun x => { x with draining := [] })) ∧
    (s.genDrained = true → s.xlate.waiting = [] → reqVerb v.req = 0x0201 → ∃ t, exec .invalDrainEnd s = .next t ∧
      t.xlate.roots.get none (par v.req 16 2) = none ∧ t.xlate.draining = [] ∧ t.verb o = none))

/-- win.set, win.clear and its end (R288): a window that is not set takes its table's address and its mask of chips; a clear
refuses new requests at once, and when every request counted against the window has drained the window is no longer set.
map.digest (R257): with every table of the tenant's tree in hand and no read failed, the verb returns the SHA-384 of the
records of the tree in order, and completes OK when the expected digest is the same or zero, and MIRROR_MISMATCH otherwise;
the format errors of each level have been recorded by then, each level once. A tenant that is not open completes
NO_SUCH_OBJECT, and CANCEL ends the walk with 48 zeros. It asks for unit 6, so it completes TEST_FAILED while that unit is
marked failed (DEDUCED, log entry 129). -/
def Obligations.WindowVerbsAndMapDigest : Prop :=
  (∀ (o : Origin) (v : VerbProg) (s : State),
    let w := par v.req 16 1
    (Turn s o 0x0402 v → s.tableAddrOk (par v.req 24 8) (2 ^ 15) = true → (s.xlate.wins.get {} w).isSet = false →
      ∃ t, exec (.winSet o) s = .next t ∧
        t.xlate.wins.get {} w = ⟨true, par v.req 24 8, BitVec.ofNat 64 (par v.req 32 8), false⟩ ∧
        (∀ n, n ≠ w → t.xlate.wins.get {} n = s.xlate.wins.get {} n) ∧ t.xlate.roots = s.xlate.roots ∧
        t.verb o = none) ∧
    (Turn s o 0x0402 v → s.tableAddrOk (par v.req 24 8) (2 ^ 15) = true → (s.xlate.wins.get {} w).isSet = true →
      exec (.winSet o) s = .next (s.finish v kBusy 16 [])) ∧
    (Turn s o 0x0403 v → (s.xlate.wins.get {} w).isSet = true → (s.xlate.wins.get {} w).clearing = false →
      ∃ t, exec (.winClear o) s = .next t ∧ (t.xlate.wins.get {} w).clearing = true ∧
        (∀ n, n ≠ w → t.xlate.wins.get {} n = s.xlate.wins.get {} n) ∧ t.xlate.roots = s.xlate.roots ∧
        OnlyChanges [.keeper, .xlate, .frames] s t) ∧
    (Turn s o 0x0403 v → (s.xlate.wins.get {} w).isSet = false → exec (.winClear o) s = .next (s.finish v kNoObject 16 [])) ∧
    (Waits s o 0x0403 v → s.winDrained w = true → ∃ t, exec (.winClearDrainEnd o) s = .next t ∧
      t.xlate.wins.get {} w = {} ∧ (∀ n, n ≠ w → t.xlate.wins.get {} n = s.xlate.wins.get {} n) ∧ t.verb o = none) ∧
    (Waits s o 0x0403 v → s.winDrained w = false → exec (.winClearDrainEnd o) s = .next s)) ∧
  (∀ (o : Origin) (v : VerbProg) (root : Nat) (s : State), Turn s o 0x0401 v →
    let t := BitVec.ofNat 12 (par v.req 16 2)
    let rd := fun a => leNat ((List.range 8).map fun i => v.got.get 0 (a + i))
    let inHand := fun (x : Nat × Nat × Nat) => (v.bytes x.2.2 (tableBytes x.1)).isSome
    let l1 := [(1, 0, root)]
    let l2 := l1.flatMap (s.subTables t rd)
    let l3 := l2.flatMap (s.subTables t rd)
    (s.xlate.roots.get none t.toNat = none → exec (.mapDigest o) s = .next (s.finish v kNoObject 16 [])) ∧
    (s.xlate.roots.get none t.toNat = some root → s.cancelled o = true →
      exec (.mapDigest o) s = .next (s.finish v kCancelled 0 (zeros 48))) ∧
    (s.xlate.roots.get none t.toNat = some root → s.cancelled o = false → s.unitFailed 6 = true →
      exec (.mapDigest o) s = .next (s.finish v kTestFailed 6 [])) ∧
    (s.xlate.roots.get none t.toNat = some root → s.cancelled o = false → s.unitFailed 6 = false → v.readFail = false →
      l1.all inHand = true → l2.all inHand = true → l3.all inHand = true →
      let d := sha384 ((s.digestItems t root rd).flatMap digestRecord)
      let u := ((s.digestLevel o v t rd 1 l1).digestLevel o v t rd 2 l2).digestLevel o v t rd 3 l3
      exec (.mapDigest o) s = .next (u.verbDone o (if slice v.req 18 48 = d ∨ slice v.req 18 48 = zeros 48 then kOK else kMirror) 0 d)))

/-- kset.register (R175, R177, R180): the checks in their order, each with its status and DETAIL, nothing changed on a failure; a
record that passes them all becomes the key set's. The last clause leaves out an injected flip of the table (R387).
kset.retire, its drain and kset.bind (R181, R182, R43): a key set that an open context or swarm holds is busy; otherwise it
takes no new descriptor, and once every descriptor accepted with it has completed its record returns to its reset values.
kset.bind sets the key set of a context at rest, of the same tenant, and is refused otherwise. -/
def Obligations.KeySetsAreRegisteredRetiredAndBound : Prop :=
  (∀ (o : Origin) (v : VerbProg) (b : Bytes) (s : State), Turn s o 0x0500 v →
    let n := BitVec.ofNat 14 (par v.req 16 2)
    let k := parseKset b
    let addr := par v.req 24 8
    ((s.kset n).tenant ≠ 0 → exec (.ksetRegister o) s = .next (s.finish v kBusy 16 [])) ∧
    ((s.kset n).tenant = 0 → (s.inStackMap addr 64 = false ∨ addr % 64 ≠ 0 ∨ v.readFail = true) →
      exec (.ksetRegister o) s = .next (s.finish v kBadParam 24 [])) ∧
    ((s.kset n).tenant = 0 → HasRead s v addr 64 64 b →
      (k.crc ≠ crc32c (slice b 0 60) → exec (.ksetRegister o) s = .next (s.finish v kBadParam 0x013C [])) ∧
      (k.crc = crc32c (slice b 0 60) →
        (∀ i, ksetRsv b = some i → exec (.ksetRegister o) s = .next (s.finish v kBadParam (0x0100 + i) [])) ∧
        (ksetRsv b = none → (k.tenant = 0 ∨ s.tenantOpen k.tenant = false) →
          exec (.ksetRegister o) s = .next (s.finish v kNoObject 0x0100 [])) ∧
        (ksetRsv b = none → k.tenant ≠ 0 → s.tenantOpen k.tenant = true → s.mayAct o k.tenant = true →
          (∀ d, ksetRange o k = some d → exec (.ksetRegister o) s = .next (s.finish v kBadParam d [])) ∧
          (ksetRange o k = none → ksetCombo k.etype.toNat k.elem.toNat (s.modulus k.mod.toNat) = false →
            exec (.ksetRegister o) s = .next (s.finish v kBadParam 0x0104 [])) ∧
          (ksetRange o k = none → ksetCombo k.etype.toNat k.elem.toNat (s.modulus k.mod.toNat) = true →
            (∀ d, ksetPlace s.inp k = some d → exec (.ksetRegister o) s = .next (s.finish v kBadParam d [])) ∧
            (ksetPlace s.inp k = none → k.seeded = true → s.sec.passed.getLsbD 0 = false → s.sec.passed.getLsbD 1 = false →
              exec (.ksetRegister o) s = .next (s.finish v kNotReady 0 [])) ∧
            (ksetPlace s.inp k = none →
              (k.seeded = true → s.sec.passed.getLsbD 0 = true ∨ s.sec.passed.getLsbD 1 = true) →
              s.faults.flipTable = 0 → exec (.ksetRegister o) s = .next ((s.setKset n k).finish v kOK 0 []))))))) ∧
  (∀ (o : Origin) (v : VerbProg) (s : State),
    (let n := BitVec.ofNat 14 (par v.req 16 2)
     (Turn s o 0x0501 v → (s.kset n).tenant = 0 → exec (.ksetRetire o) s = .next (s.finish v kNoObject 16 [])) ∧
     (Turn s o 0x0501 v → (s.kset n).tenant ≠ 0 → s.mayAct o (s.kset n).tenant = true →
       (s.ksetHeld n = true → exec (.ksetRetire o) s = .next (s.finish v kBusy 16 [])) ∧
       (s.ksetHeld n = false →
         exec (.ksetRetire o) s = .next ((s.setKset n { s.kset n with retiring := true }).verbDrains o))) ∧
     (Waits s o 0x0501 v → (s.ksetUsed n = true → exec (.ksetRetireDrainEnd o) s = .next s) ∧
       (s.ksetUsed n = false → exec (.ksetRetireDrainEnd o) s = .next ((s.setKset n {}).finish v kOK 0 [])))) ∧
    (Turn s o 0x0502 v →
      let c := BitVec.ofNat 18 (par v.req 16 4)
      let n := BitVec.ofNat 14 (par v.req 20 2)
      let x := s.ctx c
      (x.isOpen = false → exec (.ksetBind o) s = .next (s.finish v kNoObject 16 [])) ∧
      (x.isOpen = true → s.mayAct o x.tenant = true → x.damaged = 0 →
        ((s.kset n).tenant = 0 → exec (.ksetBind o) s = .next (s.finish v kNoObject 20 [])) ∧
        ((s.kset n).tenant ≠ 0 → s.mayAct o (s.kset n).tenant = true →
          ((s.kset n).tenant ≠ x.tenant → exec (.ksetBind o) s = .next (s.finish v kNotPermitted 0 [])) ∧
          ((s.kset n).tenant = x.tenant → x.state ∉ [.idle, .paused, .stopped] →
            exec (.ksetBind o) s = .next (s.finish v kBusy 16 [])) ∧
          ((s.kset n).tenant = x.tenant → x.state ∈ [.idle, .paused, .stopped] →
            exec (.ksetBind o) s = .next ((s.setCtx c { x with keySet := n }).finish v kOK 0 []))))))

/-- swarm.open (R186, R187, R197): the refusals with their details; and, when there is none, the swarm opens on its key set,
source context and members, with the frame that holds its source, with the window of SWARM_CTRL and an ejection time of at
least 1 us, nothing issued and nobody ejected; the other swarms are as before. -/
def Obligations.SwarmOpenChecksAndOpens : Prop :=
  ∀ (o : Origin) (v : VerbProg) (s : State), Turn s o 0x0503 v →
    let n := par v.req 16 1
    let kn := BitVec.ofNat 14 (par v.req 18 2)
    let c := BitVec.ofNat 18 (par v.req 20 4)
    let ps := maskPorts v.req
    (ps = [] → exec (.swarmOpen o) s = .next (s.finish v kBadParam 24 [])) ∧
    (ps ≠ [] → (∀ p ∈ ps, s.corePresent p = true) → (s.kset kn).tenant ≠ 0 → s.mayAct o (s.kset kn).tenant = true →
      ((s.ctx c).isOpen = false → exec (.swarmOpen o) s = .next (s.finish v kNoObject 20 [])) ∧
      ((s.ctx c).isOpen = true → (s.ctx c).tenant = (s.kset kn).tenant → (s.swarm n).isOpen = true →
        s.mayAct o (s.kset (s.swarm n).kset).tenant = false → exec (.swarmOpen o) s = .next (s.refuseTenant o)) ∧
      ((s.ctx c).isOpen = true → (s.ctx c).tenant = (s.kset kn).tenant →
        ((s.swarm n).isOpen = true → s.mayAct o (s.kset (s.swarm n).kset).tenant = true) →
        ((∀ i < 4, (s.swarm i).isOpen = true) → exec (.swarmOpen o) s = .next (s.finish v kNoResource 0 [])) ∧
        (∀ i < 4, (s.swarm i).isOpen = false →
          ((s.swarm n).isOpen = true → exec (.swarmOpen o) s = .next (s.finish v kBusy 16 [])) ∧
          ((s.swarm n).isOpen = false →
            (∀ q, s.portTaken (s.kset kn).tenant ps = some q →
              exec (.swarmOpen o) s = .next (s.finish v kBusy (24 + 8 * q) [])) ∧
            (s.portTaken (s.kset kn).tenant ps = none →
              ((s.swarms.any fun e => e.2.isOpen && e.2.src == c) = true →
                exec (.swarmOpen o) s = .next (s.finish v kBusy 20 [])) ∧
              ((s.swarms.any fun e => e.2.isOpen && e.2.src == c) = false →
                (∀ p ∈ ps, p < 256 ∧ 256 * 2 ^ s.regs.swWin.toNat / 4 ≤ s.freeSlots (p / 16)) →
                exec (.swarmOpen o) s = .next ((s.setSwarm n
                  { isOpen := true, kset := kn, src := c, members := BitVec.ofNat 256 (par v.req 24 32),
                    win := 256 * 2 ^ s.regs.swWin.toNat, pace := (s.swarm n).pace,
                    srcFrame := if (s.ctx c).bound then some (chanFrame (s.ctx c).channel.toNat)
                                else if (s.ctx c).hintValid then some (s.ctx c).hintFrame.toNat else none,
                    ejectUs := if s.regs.swEjectUs = 0 then 1 else s.regs.swEjectUs }).finish v kOK 0 [])))))))

/-- swarm.close and SWARM_CLOSE_FINISH (R202): the close is noted, the verb waits, and the source context is to stop, its unmet
waits gone, a partial feed of a Paused source being in progress again to end SWARM_CLOSED; once no feed is in progress and no
live member holds up the close, the swarm returns to its reset values but for its pace, its regeneration ends, and the verb
completes OK. SWARM_EJECT and SWARM_CLOSE_EJECT_TIMEOUT (R199, R200, R202): the ejected member is marked, its timer is
cleared, SW_EJECTS counts it, the regions keep only beats that a remaining live member still has to take; a close ejects every
member that holds it up (its lag, or beats of a landed feed that it has not acknowledged: DEDUCED, log entry 142). Other
swarms are as before. -/
def Obligations.SwarmMembersAreEjectedAndSwarmsClosed : Prop :=
  ((∀ (o : Origin) (v : VerbProg) (s : State), Turn s o 0x0504 v →
    let n := par v.req 16 1
    let x := s.swarm n
    (x.isOpen = false → exec (.swarmClose o) s = .next (s.finish v kNoObject 16 [])) ∧
    (x.isOpen = true → s.mayAct o (s.kset x.kset).tenant = true → ∃ t, exec (.swarmClose o) s = .next t ∧
      t.swarm n = { x with closing := some o } ∧ (∀ m, m ≠ n → t.swarm m = s.swarm m) ∧
      (∀ d, d ≠ x.src → t.ctx d = s.ctx d) ∧
      ((s.ctx x.src).part = false →
        (t.ctx x.src).works = ((s.ctx x.src).works.filter fun w => !(w.kind == .wait && !w.lastRead))) ∧
      ((t.ctx x.src).state = .stopped ∨ (t.ctx x.src).failStop = true ∨ (s.ctx x.src).state = .stopped) ∧
      t.verb o = some { v with stage := .draining } ∧ OnlyChanges (mayTouch (.swarmClose o)) s t)) ∧
  (∀ (sw : Fin 4) (o : Origin) (s : State), (s.swarm sw.val).closing = some o →
    (s.swarmQuiet sw.val = false → exec (.swarmCloseFinish sw) s = .next s) ∧
    (s.swarmQuiet sw.val = true → ∃ t, exec (.swarmCloseFinish sw) s = .next t ∧
      t.swarm sw.val = { pace := (s.swarm sw.val).pace } ∧ (∀ m, m ≠ sw.val → t.swarm m = s.swarm m) ∧
      t.expand = s.expand.filter (fun e => e.2.sw ≠ sw.val) ∧
      (∀ v, s.verb o = some v → reqVerb v.req = 0x0504 → v.stage = .draining → t.verb o = none)))) ∧
  ((∀ (sw : Fin 4) (p : Fin 256) (s : State), (s.swarm sw.val).isOpen = true → (s.swarm sw.val).timers.getLsbD p.val = true →
    ∃ t, exec (.swarmEject sw p) s = .next t ∧ (t.swarm sw.val).ejected = (s.swarm sw.val).ejected ||| BitVec.ofNat 256 (2 ^ p.val) ∧
      (t.swarm sw.val).timers.getLsbD p.val = false ∧
      (t.swarm sw.val).ejects.toNat = min ((s.swarm sw.val).ejects.toNat + 1) 127 ∧
      (t.swarm sw.val).issued = (s.swarm sw.val).issued ∧
      ((t.swarm sw.val).held = true ↔ (s.swarm sw.val).held = true ∧
        (t.swarm sw.val).win ≤ (t.swarm sw.val).issued - (t.swarm sw.val).floor) ∧
      (∀ e ∈ (t.swarm sw.val).region, e ∈ (s.swarm sw.val).region ∧ (t.swarm sw.val).floor ≤ e.1) ∧
      (∀ m, m ≠ sw.val → t.swarm m = s.swarm m) ∧ OnlyChanges [.swarms, .ctxs, .frames, .faults, .snap, .recd] s t) ∧
  (∀ (sw : Fin 4) (o : Origin) (s : State), (s.swarm sw.val).closing = some o →
    ∃ t, exec (.swarmCloseEjectTimeout sw) s = .next t ∧
      (∀ p < 256, (t.swarm sw.val).ejected.getLsbD p = true ↔
        (s.swarm sw.val).ejected.getLsbD p = true ∨ (p ∈ (s.swarm sw.val).live ∧ s.behind sw.val p = true)) ∧
      (∀ m, m ≠ sw.val → t.swarm m = s.swarm m) ∧ OnlyChanges [.swarms, .ctxs, .frames, .faults, .snap, .recd] s t))

/-- mod.set and scale.load (R131, R132, R146, R147): an image with a wrong field changes nothing and completes BAD_PARAM; a sound
one becomes the entry, and every descriptor accepted and not complete that uses the entry has met a change. scale.load writes
its entries to registers first on of a frame that is not off, and refuses a range past 4,096 or a reserved bit. The success
clauses leave out an injected flip of the table (R387). -/
def Obligations.TableLoads : Prop :=
  ∀ (o : Origin) (v : VerbProg) (b : Bytes) (s : State),
    (Turn s o 0x0600 v → HasRead s v (par v.req 24 8) 64 64 b →
      (∀ i, modulusOffence b = some i → exec (.modSet o) s = .next (s.finish v kBadParam (0x0100 + i) [])) ∧
      (modulusOffence b = none → s.faults.flipTable = 0 → exec (.modSet o) s =
        .next (((s.setModulus (par v.req 16 1) (parseModulus b)).modChanged (par v.req 16 1)).finish v kOK 0 []))) ∧
    (Turn s o 0x0601 v →
      let f := par v.req 16 1
      let first := par v.req 18 2
      let n := par v.req 20 2
      (16 ≤ f → f ≠ 0xFF → exec (.scaleLoad o) s = .next (s.finish v kBadParam 16 [])) ∧
      (f < 16 ∨ f = 0xFF → 4096 < first + n → exec (.scaleLoad o) s = .next (s.finish v kBadParam 20 [])) ∧
      (f < 16 ∨ f = 0xFF → first + n ≤ 4096 → HasRead s v (par v.req 24 8) (4 * n) 4 b →
        (∀ i < 4 * n, 2 ≤ i % 4 → leAt b i 1 ≠ 0 → (∀ j < i, 2 ≤ j % 4 → leAt b j 1 = 0) →
          exec (.scaleLoad o) s = .next (s.finish v kBadParam (0x0100 + i) [])) ∧
        ((∀ i < 4 * n, 2 ≤ i % 4 → leAt b i 1 = 0) → s.faults.flipTable = 0 →
          ∃ t, exec (.scaleLoad o) s = .next t ∧ t.verb o = none ∧
            OnlyChanges [.keeper, .mboxes, .ctxs, .frames, .fabric, .recd, .nextId] s t ∧
            (∀ g < 16, (f = 0xFF ∨ f = g) → (s.frame g).state ≠ .off → (t.frame g).scales = true ∧
              (∀ i < n, (t.frame g).scaleRegs.get 0 (first + i) = BitVec.ofNat 16 (leAt b (4 * i) 2)) ∧
              (∀ j, j < first ∨ first + n ≤ j → (t.frame g).scaleRegs.get 0 j = (s.frame g).scaleRegs.get 0 j)) ∧
            (∀ g < 16, (s.frame g).state = .off ∨ (f ≠ 0xFF ∧ f ≠ g) → t.frame g = s.frame g))))

/-- FEED (R190 to R193, R202): the channel's feed in progress makes its next step. A row that has not started queues the reads of
its stored polynomials, in order; a row issued whole ends, and the feed is at the next row; under a close the feed ends
SWARM_CLOSED with the swarm's number at its row boundary, be it after its last row. -/
def Obligations.FeedGoesRowByRow : Prop :=
  ∀ (ch : Fin 1024) (c : CtxNo) (n : Fin 4) (w : Work) (s : State), (s.chan ch.val).ctx = some c →
    s.moving c (chanFrame ch.val) = true → (s.swarm n.val).isOpen = true → (s.swarm n.val).src = c →
    (∀ m < 4, m ≠ n.val → (s.swarm m).isOpen = false ∨ (s.swarm m).src ≠ c) → s.feedWork n.val = some w →
    (s.swarm n.val).feeder = w.id →
    let k := s.kset (s.swarm n.val).kset
    let r := feedRow k w.box + w.unit
    ((s.swarm n.val).closing.isSome = true → w.asked = false →
      exec (.feed ch) s = .next (s.endWork c w.id 0x0602 n.val)) ∧
    (s.headRead c w = none → s.takeSeed n.val w = none →
      ((s.swarm n.val).closing = none → w.asked = false → (s.ctx c).leave ≠ .resume →
        let reads := rangeReads k.word.space (k.rowAt r + (if k.seeded then 32 else 0)) (k.rowAt r + k.row)
        exec (.feed ch) s = .next (s.modWork c w.id fun w =>
          Work.noteIssued { w with asked := true, emitted := 0, reads := reads })) ∧
      (w.asked = true → w.reads = [] → w.readsOut = 0 → k.wide ≤ w.emitted * 64 → s.feedTrim n.val w = none →
        let u := ((s.freeSlotsOf w.frame c w.id fun q => q.what == .data).setSwarm n.val
          { s.swarm n.val with seeds := (s.swarm n.val).seeds.erase r,
                               masks := (s.swarm n.val).masks.filter fun e => decide ((r + 1) * k.masks.toNat ≤ e.1) }).modWork c w.id
            fun w => { w with unit := w.unit + 1, asked := false, emitted := 0 }
        ((s.swarm n.val).closing = none → exec (.feed ch) s = .next u) ∧
        ((s.swarm n.val).closing.isSome = true → exec (.feed ch) s = .next (u.endWork c w.id 0x0602 n.val))))

/-- SWARM_BEAT_ISSUE (R195, R199, R219): the next beat of a feed whose bytes are in hand takes the next number and enters the
regions, unless some live member lags by the window: then the beat is held, and nothing is issued. The members whose lag
reaches the window start their timers. SEED_EXPAND (R183 to R185, R366, R390): a core of a powered, tested expander squeezes
the polynomial it holds, when the swarm's output buffer has room: the block's words join the coefficients, and when enough are
accepted the core is free. A free core takes up the next polynomial, round-robin over the swarms, but none while a test of its
expander waits. An expander that is wanted and off is powered; one that failed its test, or whose clock branch is not granted,
does nothing. A polynomial whose words are undefined (R204) is left out by a hypothesis. -/
def Obligations.BeatsAreIssuedAndSeedsExpanded : Prop :=
  (∀ (sw : Fin 4) (w : Work) (d : Bytes) (s : State), s.feedWork sw.val = some w → (s.swarm sw.val).isOpen = true →
    s.moving (s.swarm sw.val).src w.frame = true → (s.swarm sw.val).feeder = w.id → w.asked = true →
    w.emitted * 64 < (s.kset (s.swarm sw.val).kset).wide → s.feedBeat sw.val w (64 * w.emitted) = some d →
    let x := s.swarm sw.val
    (x.win ≤ x.issued - x.floor → exec (.swarmBeatIssue sw) s = .next (s.setSwarm sw.val { x with held := true })) ∧
    (x.issued - x.floor < x.win → ∃ t, exec (.swarmBeatIssue sw) s = .next t ∧
      (t.swarm sw.val).issued = x.issued + 1 ∧ (t.swarm sw.val).held = false ∧ (t.swarm sw.val).taken = x.taken ∧
      (∀ e ∈ (t.swarm sw.val).region, e ∈ x.region ∨ e = (x.issued, d)) ∧
      (∀ p ∈ x.live, p < 256 → x.issued + 1 - x.taken.get 0 p = x.win → (t.swarm sw.val).timers.getLsbD p = true) ∧
      (∀ m, m ≠ sw.val → t.swarm m = s.swarm m) ∧ t.frames = s.frames ∧ OnlyChanges [.swarms, .ctxs, .tally] s t)) ∧
  (∀ (core : Fin 48) (s : State),
    let u := core.val / 24
    let order := (List.range 4).map fun i => (s.expandAt + 1 + i) % 4
    ((s.sec.passed.getLsbD u = false ∨ s.clockOn 16 = false) → exec (.seedExpand core) s = .next s) ∧
    (s.sec.passed.getLsbD u = true → s.clockOn 16 = true → s.domainOn (62 + u) = false →
      (∃ n < 4, (s.nextPoly n).isSome = true) → exec (.seedExpand core) s = .next (s.powerUp (62 + u))) ∧
    (s.sec.passed.getLsbD u = true → s.clockOn 16 = true → s.domainOn (62 + u) = true →
      (∀ e : Expand, s.expand.find? (fun p => p.1 = core.val) = some (core.val, e) →
        (s.bufferRoom e = false → exec (.seedExpand core) s = .next s) ∧
        (s.bufferRoom e = true → e.undef = false → ∃ t, exec (.seedExpand core) s = .next t ∧
          (t.swarm e.sw).masks.get [] e.index = (s.swarm e.sw).masks.get [] e.index ++ e.squeeze.2 ∧
          (∀ i, i ≠ e.index → (t.swarm e.sw).masks.get [] i = (s.swarm e.sw).masks.get [] i) ∧
          (∀ m, m ≠ e.sw → t.swarm m = s.swarm m) ∧ OnlyChanges [.swarms, .expand] s t ∧
          (e.squeeze.1.got < e.n → t.expand = s.expand.insert core.val e.squeeze.1) ∧
          (e.n ≤ e.squeeze.1.got → t.expand = (s.expand.insert core.val e.squeeze.1).erase core.val))) ∧
      (s.expand.find? (fun p => p.1 = core.val) = none →
        (s.testing u = true → exec (.seedExpand core) s = .next s) ∧
        (∀ n i seed, s.testing u = false →
          (order.findSome? fun n => (s.nextPoly n).map fun p => (n, p)) = some (n, i, seed) →
          exec (.seedExpand core) s = .next (s.startPoly core.val n i seed)))))

/-- ctx.open (R46, R48): an open context is busy, and one of another tenant, open or in the image, is refused (R32); an image with
an offending byte completes BAD_PARAM with 0x0100 and its offset; while the record's bank or the tally unit is off the verb
powers them and waits; an image that passes becomes the record, Idle with an empty ring. The last clause leaves out an
injected flip (R387). ctx.close (R53): only a context at rest that is the source of no open swarm closes; free pantry slots
that it used last are zeroised, and its record returns to its reset values, every other context being as before. -/
def Obligations.ContextsOpenAndClose : Prop :=
  (∀ (o : Origin) (v : VerbProg) (b : Bytes) (s : State), Turn s o 0x0300 v →
    let c := BitVec.ofNat 18 (par v.req 16 4)
    ((s.ctx c).isOpen = true → s.mayAct o (s.ctx c).tenant = true → exec (.ctxOpen o) s = .next (s.finish v kBusy 16 [])) ∧
    ((s.ctx c).isOpen = true → s.mayAct o (s.ctx c).tenant = false → exec (.ctxOpen o) s = .next (s.refuseTenant o)) ∧
    ((s.ctx c).isOpen = false → HasRead s v (par v.req 24 8) 64 64 b →
      s.mayAct o (parseCtx b).tenant = false → exec (.ctxOpen o) s = .next (s.refuseTenant o)) ∧
    ((s.ctx c).isOpen = false → HasRead s v (par v.req 24 8) 64 64 b → s.mayAct o (parseCtx b).tenant = true →
      (∀ i, s.ctxOffence o b = some i → exec (.ctxOpen o) s = .next (s.finish v kBadParam (0x0100 + i) [])) ∧
      (s.ctxOffence o b = none →
        (s.sec.passed.getLsbD 0 = false → s.sec.passed.getLsbD 1 = false →
          exec (.ctxOpen o) s = .next (s.finish v kNotReady 0 [])) ∧
        ((s.sec.passed.getLsbD 0 = true ∨ s.sec.passed.getLsbD 1 = true) →
          (s.domainOn (48 + ctxBank c) = false ∨ s.tallyOn = false →
            exec (.ctxOpen o) s = .next ((s.powerUp (48 + ctxBank c)).powerUp 61)) ∧
          (s.domainOn (48 + ctxBank c) = true → s.tallyOn = true → s.faults.flipCtx = 0 →
            exec (.ctxOpen o) s = .next ((s.setCtx c (parseCtx b)).finish v kOK 0 []) ∧
            (parseCtx b).state = .idle ∧ (parseCtx b).tail = (parseCtx b).doneIdx ∧
            (parseCtx b).fetchIdx = (parseCtx b).doneIdx))))) ∧
  (∀ (o : Origin) (v : VerbProg) (s : State), Turn s o 0x0301 v →
    let c := BitVec.ofNat 18 (par v.req 16 4)
    let x := s.ctx c
    let feeds := s.swarms.any fun e => e.2.isOpen && e.2.src == c
    (x.isOpen = false → exec (.ctxClose o) s = .next (s.finish v kNoObject 16 [])) ∧
    (x.isOpen = true → s.mayAct o x.tenant = true → (x.state ∉ [.idle, .paused, .stopped] ∨ feeds = true) →
      exec (.ctxClose o) s = .next (s.finish v kBusy 16 [])) ∧
    (s.mayAct o x.tenant = true → x.state ∈ [.idle, .paused, .stopped] → feeds = false → x.works = [] → x.posts = [] →
      exec (.ctxClose o) s = .next (((s.zeroSlotsOf c).setCtx c {}).finish v kOK 0 []) ∧
      (((s.zeroSlotsOf c).setCtx c {}).finish v kOK 0 []).ctx c = {} ∧
      ∀ d, d ≠ c → (((s.zeroSlotsOf c).setCtx c {}).finish v kOK 0 []).ctx d = s.ctx d))

/-- ctx.pause, its drain and ctx.resume (R52, R83 to R86, R475): pausing a context that is Paused or Stopped answers at once; any
other starts to pause and the verb waits; when nothing is in progress any more the context is Paused, or Stopped after a
failure, unbound, FETCH_IDX at DONE_IDX with keep 0, a partial descriptor at its resume point is saved with its cursor and its
checksum, and the verb answers DONE_IDX and PARTIAL. Resuming makes a Paused or Stopped context Ready when it has entries left
and Idle otherwise. -/
def Obligations.PauseDrainAndResume : Prop :=
  ∀ (o : Origin) (v : VerbProg) (w : Work) (s : State),
    let c := BitVec.ofNat 18 (par v.req 16 4)
    let x := s.ctx c
    (Turn s o 0x0302 v → s.mayAct o x.tenant = true → x.damaged = 0 →
      (x.state ∈ [.paused, .stopped] → exec (.ctxPause o) s = .next
        ((if par v.req 20 1 = 0 then s.setCtx c { x with fetchIdx := x.doneIdx } else s).finish v kOK 0
          (leBytes 4 (x.doneIdx.toNat + 2 ^ 31 * b2n x.part)))) ∧
      (x.state ∉ [.closed, .paused, .stopped] → ∃ t, exec (.ctxPause o) s = .next t ∧
        (t.ctx c).state = .pausing ∧ (t.ctx c).leave = .resume ∧ t.verb o = some { v with stage := .draining } ∧
        (∀ d, d ≠ c → t.ctx d = s.ctx d) ∧ OnlyChanges [.ctxs, .readyQ, .tally, .chans, .keeper] s t)) ∧
    (Waits s o 0x0302 v → x.state = .pausing → x.works = [] → ∃ t, exec (.ctxPauseDrainEnd o) s = .next t ∧
      (t.ctx c).state = (if x.failStop then .stopped else .paused) ∧ (t.ctx c).bound = false ∧
      (t.ctx c).doneIdx = x.doneIdx ∧ (t.ctx c).part = x.part ∧ (t.ctx c).cursor = x.cursor ∧
      (t.ctx c).crcPartial = x.crcPartial ∧ (t.ctx c).tail = x.tail ∧
      (t.ctx c).fetchIdx = (if par v.req 20 1 = 0 then x.doneIdx else x.fetchIdx) ∧
      (∀ d, d ≠ c → t.ctx d = s.ctx d) ∧ t.verb o = none) ∧
    (Waits s o 0x0302 v → x.state = .pausing → x.works = [w] → s.atResume c w = true → s.groupsOf c w.id = [] →
      ∃ t, exec (.ctxPauseDrainEnd o) s = .next t ∧ (t.ctx c).works = [] ∧ (t.ctx c).part = decide (0 < w.unit) ∧
        (0 < w.unit → (t.ctx c).cursor = BitVec.ofNat 40 w.unit ∧ (t.ctx c).crcPartial = w.crc ∧
          (t.ctx c).kept = s.keptOf w) ∧ t.verb o = none) ∧
    (Waits s o 0x0302 v → x.state ≠ .pausing → exec (.ctxPauseDrainEnd o) s = .next
      (s.finish v kOK 0 (leBytes 4 (x.doneIdx.toNat + 2 ^ 31 * b2n x.part)))) ∧
    (Turn s o 0x0303 v → s.mayAct o x.tenant = true → x.damaged = 0 →
      (x.state ∉ [.closed, .paused, .stopped] → exec (.ctxResume o) s = .next (s.finish v kOK 0 [])) ∧
      (x.state ∈ [.paused, .stopped] → ∃ t, exec (.ctxResume o) s = .next t ∧
        t.ctx c = { x with failStop := false, state := if x.doneIdx = x.fetchIdx ∧ x.fetchIdx = x.tail then .idle else .ready } ∧
        (∀ d, d ≠ c → t.ctx d = s.ctx d) ∧ t.verb o = none))

/-- ctx.abort (R87): a context with nothing started and no owned entry below TAIL becomes Idle, unbound, with FETCH_IDX and TAIL
at DONE_IDX and nothing partial, and the verb returns 0. One with a started descriptor is marked and fetches nothing more: the
descriptor ends ABORTED with D_DETAIL 0 and is counted, and the verb goes on until every descriptor has completed; then it
returns the count. -/
def Obligations.AbortEndsIdle : Prop :=
  ∀ (o : Origin) (v : VerbProg) (w : Work) (entries : List Bytes) (s : State), Turn s o 0x0304 v →
    let c := BitVec.ofNat 18 (par v.req 16 4)
    let x := s.ctx c
    (x.isOpen = false → exec (.ctxAbort o entries) s = .next (s.finish v kNoObject 16 [])) ∧
    (x.isOpen = true → s.mayAct o x.tenant = true → x.damaged = 0 → x.aborting = false → x.works = [] →
      (∀ e ∈ entries, x.given x.startIdx e = false) →
      ∃ t, exec (.ctxAbort o entries) s = .next t ∧
        t = ((s.startAbort o c entries).endAbort c).finish { v with acc := 0 } kOK 0 (leBytes 4 0) ∧
        (t.ctx c).state = .idle ∧ (t.ctx c).bound = false ∧ (t.ctx c).doneIdx = x.doneIdx ∧ (t.ctx c).fetchIdx = x.doneIdx ∧
        (t.ctx c).tail = x.doneIdx ∧ (t.ctx c).part = false ∧ (t.ctx c).works = [] ∧ (t.ctx c).held = [] ∧ t.verb o = none) ∧
    (x.isOpen = true → s.mayAct o x.tenant = true → x.damaged = 0 → x.aborting = false → x.works = [w] → w.stage = .moving →
      w.ending = none → failed w.status = false →
      ∃ t w' rest u, exec (.ctxAbort o entries) s = .next t ∧ (t.ctx c).works = w' :: rest ∧ w'.id = w.id ∧
        w'.ending = some (0x0901, 0) ∧ (t.ctx c).aborting = true ∧ (t.ctx c).held = [] ∧ t.verb o = some u ∧ 1 ≤ u.acc ∧
        (∀ d, d ≠ c → (t.ctx d).state = (s.ctx d).state)) ∧
    (x.isOpen = true → s.mayAct o x.tenant = true → x.damaged = 0 → x.aborting = true →
      (x.works ≠ [] → exec (.ctxAbort o entries) s = .next s) ∧
      (x.works = [] → exec (.ctxAbort o entries) s = .next ((s.endAbort c).finish v kOK 0 (leBytes 4 v.acc))))

/-- ctx.query, ctx.rate and tally.virt (R47, R82, R327): ctx.query answers with the 64 bytes of the record and changes nothing;
ctx.rate writes RATE_SHARE alone; tally.virt gives a context at rest a map whose entries are all in order and names it mapped,
and refuses the first entry that is not. -/
def Obligations.ContextQueryRateAndMap : Prop :=
  ∀ (o : Origin) (v : VerbProg) (b : Bytes) (s : State),
    let c := BitVec.ofNat 18 (par v.req 16 4)
    let x := s.ctx c
    (Turn s o 0x0305 v → x.isOpen = true → s.mayAct o x.tenant = true →
      exec (.ctxQuery o) s = .next (s.finish v kOK 0 x.record) ∧ x.record.length = 64) ∧
    (Turn s o 0x0305 v → x.isOpen = false → exec (.ctxQuery o) s = .next (s.finish v kNoObject 16 [])) ∧
    (Turn s o 0x0306 v → x.isOpen = true → s.mayAct o x.tenant = true → x.damaged = 0 →
      exec (.ctxRate o) s = .next ((s.setCtx c { x with rateShare := BitVec.ofNat 9 (par v.req 20 2) }).finish v kOK 0 [])) ∧
    (Turn s o 0x0700 v → s.mayAct o x.tenant = true → x.damaged = 0 →
      (x.state ∉ [.closed, .idle, .paused, .stopped] → exec (.tallyVirt o) s = .next (s.finish v kBusy 16 [])) ∧
      (x.state ∈ [.idle, .paused, .stopped] → HasRead s v (par v.req 24 8) 128 128 b →
        (∀ i, s.mapOffence x b = some i → exec (.tallyVirt o) s = .next (s.finish v kBadParam (0x0100 + 2 * i) [])) ∧
        (s.mapOffence x b = none → x.vmap ≠ none ∨ (s.ctxs.filter fun e => e.2.vmap.isSome).length < 256 →
          let m := (List.range 64).map fun i => BitVec.ofNat 16 (leAt b (2 * i) 2)
          exec (.tallyVirt o) s = .next ((s.setCtx c { x with vmap := some m, tallyVirt := true }).finish v kOK 0 []))))

/-- test.kat (R364, R366, R367): while a named unit is not powered or not idle, only its power is asked for; when all are, units
that pass are marked passed, units that fail are marked failed, units not named keep their marks (unit 7 may meet a failed
health test when a record that a unit's failure calls for reseeds the DRBG, R358), and the verb returns the pass mask: OK, or
TEST_FAILED with the lowest unit that failed. -/
def Obligations.TestKatMarksTheUnits : Prop :=
  ∀ (o : Origin) (pass : BitVec 8) (v : VerbProg) (s : State), Turn s o 0x0800 v →
    let us := setBits 8 (par v.req 16 1)
    (us.all s.unitIdle = false → ∃ t, exec (.testKat o pass) s = .next t ∧ OnlyChanges [.power] s t) ∧
    (us.all s.unitIdle = true → ∃ t, exec (.testKat o pass) s = .next t ∧
      t = (s.testUnits (par v.req 16 1) pass.toNat 1).finish v
        (match us.find? fun i => !pass.getLsbD i with | some _ => kTestFailed | none => kOK)
        ((us.find? fun i => !pass.getLsbD i).getD 0) (leBytes 1 (par v.req 16 1 &&& pass.toNat)) ∧ t.verb o = none ∧
      ∀ i < 8, (i ∈ us → t.sec.passed.getLsbD i = pass.getLsbD i ∧ t.sec.failed.getLsbD i = !pass.getLsbD i) ∧
        (i ∉ us → (i ≠ 7 ∨ s.keeper.drbgCalls < 60000) →
          t.sec.passed.getLsbD i = s.sec.passed.getLsbD i ∧ t.sec.failed.getLsbD i = s.sec.failed.getLsbD i))

/-- test.frame, cal.run task 1 and the rows that carry them (R370, R371, R405): the lowest frame of the mask is held: it binds
nothing, and its contexts are driven out. When it is empty and runs, or is stopped, it is released, back in the state it was
woken from when nothing asks for it, with its result, and the next frame is held or the verb ends. A drain of its contexts
that takes too long releases the frame, which is held again once, and then stays untested; once its fabric requester is held,
the time has no more effect. cal.run task 2 asks for 8 echoes of every link in service. -/
def Obligations.FrameTestsGoFrameByFrame : Prop :=
  (∀ (o : Origin) (v : VerbProg) (f : Nat) (rest : List Nat) (s : State), s.cancelled o = false → s.ftest = none →
    let held (t : State) (cal : Bool) : Prop :=
      (t.frame f).noBind = true ∧ t.verb o = some { v with stage := .draining } ∧
        t.ftest = some { origin := o, cal := cal, todo := rest, failed := [], retry := false, cur := some f, started := true,
                         wasState := (s.frame f).state, passed := 0, undrained := 0 }
    (Turn s o 0x0801 v → setBits 16 (par v.req 16 2) = f :: rest →
      ∃ t, exec (.testFrame o) s = .next t ∧ held t false) ∧
    (Turn s o 0x0802 v → par v.req 16 1 = 1 → f = 0 → rest = (List.range 15).map (· + 1) →
      ∃ t, exec (.calRun o) s = .next t ∧ held t true)) ∧
  (∀ (o : Origin) (v : VerbProg) (s : State), Turn s o 0x0802 v → par v.req 16 1 ≠ 1 →
    (∃ l ∈ linkNos, (s.link l).state = .service) → ∃ t, exec (.calRun o) s = .next t ∧ t.frames = s.frames ∧
      t.verb o = some { v with stage := .draining } ∧
      ∀ l ∈ linkNos, (s.link l).state = .service → t.link l = { s.link l with echoes := [], echoDue := (s.link l).echoDue + 8 }) ∧
  (∀ (pass : Bool) (x : FrameTest) (f : Nat) (s : State), s.ftest = some x → x.cur = some f → x.started = true →
    ((s.frame f).stopped = true ∨
      ((s.frame f).state = .run ∧ (s.frame f).stopped = false ∧ s.boundIn f = [] ∧ s.frameEmpty f = true)) →
    let h := if (s.frame f).stopped then s else s.holdFabric f
    let u := (if x.cal then h else h.modFrame f Frame.zeroFree).endHeld f x.wasState
    (u.frame f).noBind = false ∧ (u.frame f).testHold = false ∧
    ((x.cal = true ∨ pass = true) → exec (.frameTestDrainEnd pass) s =
      .next (u.nextFrameTest { x with passed := setBit x.passed f })) ∧
    (x.cal = false → pass = false → exec (.frameTestDrainEnd pass) s =
      .next ((u.raise { src := 47, mid := 16 + f, sub := 16 + f }).nextFrameTest { x with failed := x.failed ++ [f] }))) ∧
  (∀ (x : FrameTest) (f : Nat) (s : State), s.ftest = some x → x.cur = some f → (s.frame f).stopped = false →
    (x.started = true → (s.frame f).testHold = true → exec .frameTestDrainTimeout s = .next s) ∧
    (x.started = true → (s.frame f).testHold = false → x.retry = false → exec .frameTestDrainTimeout s =
      .next { s.releaseFrame f with ftest := some { x with started := false, retry := true } }) ∧
    (x.started = true → (s.frame f).testHold = false → x.retry = true → exec .frameTestDrainTimeout s =
      .next (((s.releaseFrame f).endHeld f x.wasState).nextFrameTest { x with undrained := setBit x.undrained f })) ∧
    (x.started = false → x.retry = true → exec .frameTestRetry s =
      .next (({ s with ftest := some { x with started := true } } : State).holdFrame f)))

/-- snap.take, log.anchor, log.flush and link.info (R275, R412, R414, R421): a snapshot is triggered unless one is being written
or snapshots are off; the calendar time is stored against the powered time, which is returned, and an anchor record is made; a
flush is asked for, and the verb waits; link.info answers with what the link holds and changes nothing. link.rekey and
REKEY_TIMEOUT (R269, R358, R367): a failed unit 6 or 7 completes TEST_FAILED with its number, as does a health test that fails
while the DRBG is reseeded, a link that is not up NOT_READY with the link; otherwise a fresh exchange is under way, its REKEY
message is queued in the control class, and the keys in use stay. With no answer in time the link goes down, its keys are
gone, and the verb completes NOT_READY. -/
def Obligations.RecordLinkAndRekeyVerbs : Prop :=
  ((∀ (o : Origin) (v : VerbProg) (s : State), Turn s o 0x0900 v →
    (s.snap.busy = true → exec (.snapTake o) s = .next (s.finish v kBusy 0 [])) ∧
    (s.snap.busy = false → s.snap.en = false → exec (.snapTake o) s = .next (s.finish v kNoResource 0 [])) ∧
    (s.snap.busy = false → s.snap.en = true → s.power.asleep = false → ∃ t, exec (.snapTake o) s = .next t ∧
      t.snap = { s.snap with trig := some (match s.snap.trig with | none => 1 | some k => BitVec.ofNat 8 (min k.toNat 1)) } ∧
      t.verb o = some { v with stage := .draining } ∧ OnlyChanges [.keeper, .snap] s t)) ∧
  (∀ (o : Origin) (v : VerbProg) (s : State), Turn s o 0x0901 v → exec (.logAnchor o) s =
    .next ((({ s with recd := { s.recd with anchorC := BitVec.ofNat 64 (par v.req 16 8), anchorP := s.ptime, anch := true } } :
      State).event (evInfo 0x0E 0 (leBytes 8 (par v.req 16 8) ++ leBytes 8 s.ptime.toNat))).finish v kOK 0
        (leBytes 8 s.ptime.toNat))) ∧
  (∀ (o : Origin) (v : VerbProg) (s : State), Turn s o 0x0902 v →
    (s.recd.noFlash = false → ∃ t, exec (.logFlush o) s = .next t ∧
      t.recd = { s.recd with flushAgain := true } ∧ OnlyChanges [.keeper, .recd] s t ∧
      t.verb o = some { v with stage := .draining, acc := s.recd.flushed.toNat * 2 ^ 48 + s.recd.head.toNat }) ∧
    (s.recd.noFlash = true → ∃ t, exec (.logFlush o) s = .next t ∧ t.verb o = none)) ∧
  (∀ (o : Origin) (v : VerbProg) (s : State), Turn s o 0x0A00 v → exec (.linkInfo o) s =
    .next (s.finish v kOK 0 (leBytes 1 (s.link (par v.req 16 1)).partner.toNat ++ leBytes 1 (b2n (s.link (par v.req 16 1)).rate) ++
      slice (s.link (par v.req 16 1)).peerRec 20 2 ++ leBytes 4 (s.link (par v.req 16 1)).rttNs)))) ∧
  ((∀ (o : Origin) (v : VerbProg) (s : State), Turn s o 0x0A02 v →
    let l := par v.req 16 1
    (s.unitFailed 6 = true → exec (.linkRekey o) s = .next (s.finish v kTestFailed 6 [])) ∧
    (s.unitFailed 6 = false → s.unitFailed 7 = true → exec (.linkRekey o) s = .next (s.finish v kTestFailed 7 [])) ∧
    (s.unitFailed 6 = false → s.unitFailed 7 = false → (s.link l).state ≠ .service →
      exec (.linkRekey o) s = .next (s.finish v kNotReady l [])) ∧
    (s.unitFailed 6 = false → s.unitFailed 7 = false → (s.link l).state = .service → s.unitPassed 6 = true →
      s.unitPassed 7 = true → (s.link l).rekey = none →
      ∃ t, exec (.linkRekey o) s = .next t ∧ (s.entropy.1.2 = false → t = s.reseed.finish v kTestFailed 7 []) ∧
        (s.entropy.1.2 = true → (∃ priv, (t.link l).rekey = some ⟨some o, priv, false, none, false⟩) ∧
        (∃ m : Msg, m.op = opRekey ∧ (t.link l).txq = (s.link l).txq.set [] 0 ((s.link l).txq.get [] 0 ++ [m])) ∧
        (t.link l).txKey = (s.link l).txKey ∧ (t.link l).rxKey = (s.link l).rxKey ∧ (t.link l).state = .service ∧
        (∀ k, k ≠ l → t.link k = s.link k) ∧ t.verb o = some { v with stage := .draining }))) ∧
  (∀ (l : Fin 18) (o : Origin) (priv : Nat) (ts : Option (BitVec 12)) (rd : Bool) (v : VerbProg) (s : State),
    (s.link l.val).rekey = some ⟨some o, priv, false, ts, rd⟩ → (s.link l.val).state ∉ [.down, .training] →
    ∃ t, exec (.rekeyTimeout l) s = .next t ∧
      (t.link l.val).state = .down ∧ (t.link l.val).txKey = none ∧ (t.link l.val).rxKey = none ∧ (t.link l.val).rekey = none ∧
      (s.verb o = some v → reqVerb v.req = 0x0A02 → v.stage = .draining → t.verb o = none)))

/-- pwr.frame and its drain (R396): the frames of the mask take the policy and no other frame does; with a policy other than 3 the
verb completes; with policy 3 it completes once nothing is bound in them, and BUSY_OBJECT with DETAIL 16 after 1 ms.
engine.quiesce and its steps (R399, R435, R436): it is refused while a context, swarm or tenant is open; it takes the links
down and asks for a flush once nothing remote is under way, or completes CANCELLED; and in state 2 domain 64 powers down when
the response has been held: the engine is asleep, having lost all but the always-on domain. -/
def Obligations.PowerPolicyAndQuiesce : Prop :=
  (∀ (o : Origin) (v : VerbProg) (expired : Bool) (s : State),
    let fs := setBits 16 (par v.req 16 2)
    (Turn s o 0x0B00 v → par v.req 18 1 ≠ 3 → ∃ t, exec (.pwrFrame o) s = .next t ∧
      (∀ f ∈ fs, t.frame f = { s.frame f with policy := BitVec.ofNat 2 (par v.req 18 1) }) ∧
      (∀ f, f ∉ fs → t.frame f = s.frame f) ∧ t.verb o = none ∧ OnlyChanges [.keeper, .mboxes, .ctxs, .frames, .fabric, .recd] s t) ∧
    (Turn s o 0x0B00 v → par v.req 18 1 = 3 → (∀ f ∈ fs, s.boundIn f = []) → ∃ t, exec (.pwrFrame o) s = .next t ∧
      (∀ f ∈ fs, t.frame f = { s.frame f with policy := 3 }) ∧ (∀ f, f ∉ fs → t.frame f = s.frame f) ∧ t.verb o = none) ∧
    (Turn s o 0x0B00 v → par v.req 18 1 = 3 → ∃ t, exec (.pwrFrame o) s = .next t ∧ (∀ f ∈ fs, (t.frame f).policy = 3) ∧
      (t.verb o = none ∨ t.verb o = some { v with stage := .draining })) ∧
    (Waits s o 0x0B00 v → (∀ f ∈ fs, s.boundIn f = []) → exec (.pwrFrameDrainEnd o expired) s = .next (s.finish v kOK 0 [])) ∧
    (Waits s o 0x0B00 v → (fs.foldl State.driveFrame s).maskEmpty fs = false →
      exec (.pwrFrameDrainEnd o true) s = .next ((fs.foldl State.driveFrame s).finish v kBusy 16 []) ∧
      exec (.pwrFrameDrainEnd o false) s = .next (fs.foldl State.driveFrame s))) ∧
  ((∀ (o : Origin) (v : VerbProg) (s : State), Turn s o 0x0B01 v →
    let isFree := (s.ctxs.any fun e => e.2.isOpen) = false ∧ (s.swarms.any fun e => e.2.isOpen) = false ∧
      (s.xlate.roots.any fun e => e.2.isSome) = false ∧ s.keeper.quiesce = none
    (¬ isFree → exec (.engineQuiesce o) s = .next (s.finish v kBusy 16 [])) ∧
    (isFree → ∃ t, exec (.engineQuiesce o) s = .next t ∧
      t.keeper.quiesce = some ⟨o, BitVec.ofNat 8 (par v.req 16 1), 2⟩ ∧ t.verb o = some { v with stage := .draining })) ∧
  (∀ (q : Quiesce) (s : State), s.keeper.quiesce = some q → q.step = 2 →
    (s.remoteDrained = false → exec .quiesceRemoteDrained s = .next s) ∧
    (s.remoteDrained = true → s.cancelled q.origin = true → ∃ t, exec .quiesceRemoteDrained s = .next t ∧ t.keeper.quiesce = none) ∧
    (s.remoteDrained = true → s.cancelled q.origin = false → s.recd.noFlash = false →
      ∃ t, exec .quiesceRemoteDrained s = .next t ∧ t.keeper.quiesce = some { q with step := 4 } ∧
        t.recd.flushAgain = true ∧ ∀ l ∈ linkNos, (t.link l).state = .down)) ∧
  (∀ s : State, s.power.sleepHold = true → ∃ t, exec .quiesceSleepHoldEnd s = .next t ∧ t.power.asleep = true ∧
    t.keeper.phase = .alwaysOn ∧ t.keeper.idKey = none ∧ t.ctxs = [] ∧ t.fabric.links = [] ∧ t.ptime = s.ptime ∧
    t.faults = s.faults ∧ t.recd.ring = s.recd.ring ∧
    (s.power.ack.getLsbD 64 = true → t.power.req.getLsbD 64 = false) ∧ t.pending = s.pending))

/-- KEEPER_RESET and the beat (R30, R365, R372, R434, R472): a reset interrupts the verbs in progress, zeroises the DRBG state,
the ephemeral keys and the seeds, keeps the identity key and the keys of the links, and loads the image started last again,
with cause 2 and BEAT 0; without one it waits for KB_GO. When the boot ROM's tests fail, unit 6 is failed with source 47 and
the keeper stays in STATE 3 (their outcome is a free value, DESIGN CHOICE, log entry 11). BEAT counts in STATE 2, and source 54 is raised
when it has not. KEEPER_MEMORY_RESPONSE (R45, R476): the beats of the oldest request gather until its last one; a read then
brings its bytes to the verb that asked, by address, or marks its read as failed; a write of telemetry frees the next block.
Requests behind it wait on in their order. -/
def Obligations.KeeperResetsAndItsMemoryAnswers : Prop :=
  ((∀ (w : BitVec 32) (s : State), w.getLsbD 0 = true → s.cpAwake = true → s.keeper.phase ∉ [.off, .alwaysOn] →
    (s.keeper.startCause ≠ 2 ∨ s.keeper.state ≠ 1) → ∃ t, exec (.keeperReset w) s = .next t ∧
      t.keeper.verbs = s.keeper.verbs.map (fun v => { v with stage := .interrupted }) ∧ t.keeper.startCause = 2 ∧
      t.keeper.beat = 0 ∧ t.keeper.drbg = none ∧ t.keeper.idKey = s.keeper.idKey ∧ t.keeper.rung = s.keeper.rung ∧
      t.keeper.stackMap = s.keeper.stackMap ∧ t.xlate.roots = s.xlate.roots ∧ t.ftest = none ∧
      (∀ n < 4, (t.swarm n).seeds = []) ∧
      (∀ l ∈ linkNos, (t.link l).ephPriv = 0 ∧ (t.link l).txKey = (s.link l).txKey ∧ (t.link l).rxKey = (s.link l).rxKey ∧
        (t.link l).state = (s.link l).state) ∧
      (Config.romTestsPass s.free = true →
        (s.keeper.running.len ≠ 0 → t.keeper.state = 1 ∧ t.keeper.phase = .auth ∧ t.keeper.bootAddr = s.keeper.running.addr) ∧
        (s.keeper.running.len = 0 → t.keeper.state = 0 ∧ t.keeper.phase = .bootRom) ∧
        OnlyChanges [.keeper, .ctxs, .frames, .swarms, .xlate, .fabric, .power, .ftest, .free] s t) ∧
      (Config.romTestsPass s.free = false → t.keeper.state = 3 ∧ t.keeper.phase = .bootRom ∧ t.sec.failed.getLsbD 6 = true ∧
        t.sec.passed.getLsbD 6 = false ∧ t.faults.stat.getLsbD 47 = true)) ∧
  (∀ s : State, s.keeper.state = 2 → exec .keeperBeatTimeout s = .next (s.raise { src := 54 })) ∧
  (∀ s : State, s.keeper.state = 2 → s.faults.flipKeeper = 0 →
    exec .keeperBeatTick s = .next { s with keeper := { s.keeper with beat := s.keeper.beat + 1 } }) ∧
  (∀ s : State, s.keeper.state = 2 → s.faults.flipKeeper = 2 →
    ∃ t, exec .keeperBeatTick s = .next t ∧ t.keeper.state = 4 ∧ t.faults.flipKeeper = 0 ∧
      t.faults.stat.getLsbD 35 = true ∧ t.faults.stat.getLsbD 53 = true)) ∧
  (∀ (data : Bytes) (fail : Bool) (r : KmReq) (rest : List KmReq) (s : State), s.keeper.kmq = r :: rest →
    (exec (.keeperMemoryResponse data false fail) s =
      .next { s with keeper := { s.keeper with kmBuf := s.keeper.kmBuf ++ slice data 0 64 } }) ∧
    (∀ o v, r.write = false → r.owner = .verb o → s.verb o = some v →
      ∃ t u, exec (.keeperMemoryResponse data true fail) s = .next t ∧ t.verb o = some u ∧ t.keeper.kmq = rest ∧
        t.keeper.kmBuf = [] ∧ u.req = v.req ∧ u.stage = v.stage ∧ u.readFail = (v.readFail || fail) ∧
        u.asked = alignDown 256 r.addr :: v.asked ∧ (fail = true → u.got = v.got) ∧
        (fail = false → (∀ i, i < r.len → u.got.get 0 (r.addr + i) = (s.keeper.kmBuf ++ slice data 0 64).getD (r.addr % 64 + i) 0) ∧
          (∀ a, a < r.addr ∨ r.addr + r.len ≤ a → u.got.get 0 a = v.got.get 0 a)) ∧ OnlyChanges [.keeper] s t) ∧
    (r.write = true → r.owner = .telemetry → exec (.keeperMemoryResponse data true fail) s =
      .next { s with keeper := { s.keeper with kmq := rest, kmBuf := [] }, telem := { s.telem with busy := false } }))

/-- KB_GO and BOOT_AUTH_DONE (R362, R428, R429): KB_GO in the boot ROM's wait starts the load of an aligned local address, and a
bad one ends in STATE 3 with source 47; an image that fails a check or whose read failed ends there too; one that passes all
checks becomes the running image, the tests follow, and domains 62 and 63 are asked for. -/
def Obligations.BootLoadsACheckedImage : Prop :=
  (∀ (w : Word) (s : State), w.getLsbD 63 = true → s.cpAwake = true →
    ((s.keeper.state = 0 ∧ s.keeper.phase = .bootRom) ∨ (s.keeper.state = 3 ∧ s.keeper.phase ≠ .bootRom)) → ∃ t, exec (.kbGo w) s = .next t ∧
      t.keeper.kbAddr = w.setWidth 56 ∧ t.keeper.phase = .auth ∧ t.keeper.verbs = s.keeper.verbs ∧
      ((w.setWidth 56 : BitVec 56).toNat % 256 = 0 → bits (w.setWidth 56 : BitVec 56).toNat 55 50 = s.inp.chipId.toNat →
        t.keeper.state = 1 ∧ t.keeper.kbGo = true ∧ t.keeper.bootWhy = .kbGo ∧ t.keeper.bootAddr = w.setWidth 56 ∧
        t.keeper.bootAsked = [] ∧ t.keeper.bootFail = false ∧ t.faults = s.faults) ∧
      ((w.setWidth 56 : BitVec 56).toNat % 256 ≠ 0 → t.keeper.state = 3 ∧ t.keeper.kbGo = false ∧
        t.faults.stat.getLsbD 47 = true)) ∧
  (∀ s : State, s.keeper.state = 1 → s.keeper.phase ∈ [.auth, .ready] → s.keeper.kmq.any (fun r => r.owner == .boot) = false →
    s.keeper.bootWhy = .kbGo →
    (s.keeper.bootFail = true → ∃ t, exec .bootAuthDone s = .next t ∧ t.keeper.state = 3 ∧ t.keeper.kbGo = false ∧
      t.faults.stat.getLsbD 47 = true ∧ t.keeper.running = s.keeper.running) ∧
    (s.keeper.bootFail = false → s.keeper.bootAsked.contains 0 = true → imageBody (s.keeper.bootBytes 256) ≤ 458752 →
      let b := s.keeper.bootBytes (256 + imageBody (s.keeper.bootBytes 256))
      let i := imageOf s.keeper.bootAddr.toNat (256 + imageBody (s.keeper.bootBytes 256)) b
      ∃ t, exec .bootAuthDone s = .next t ∧
        (s.imageFault b (256 + imageBody (s.keeper.bootBytes 256)) none = none →
          t.keeper.running = i ∧ t.keeper.powerUpImage = i ∧ t.keeper.mem = s.keeper.bootGot ∧ t.keeper.phase = .tests ∧
          t.keeper.testsDone = false ∧ (∀ d ∈ [62, 63], s.power.ack.getLsbD d = false → t.power.req.getLsbD d = true) ∧
          OnlyChanges [.keeper, .power] s t) ∧
        (s.imageFault b (256 + imageBody (s.keeper.bootBytes 256)) none ≠ none →
          t.keeper.state = 3 ∧ t.faults.stat.getLsbD 47 = true ∧ t.keeper.running = s.keeper.running)))

/-- HIVE_TESTS_DONE, STACK_MAP_READ, LINK_STARTUP_TIMEOUT and READINESS (R365, R426, R430 to R432): once every unit is powered and
idle the outcome of the tests marks the units; the ranges kept of the stack map are whole 32 MiB blocks and no two overlap;
links that have not trained in 60 ms are waited for no longer; and with tests and map done and no link waited for, STATE is 2,
the fabric serves, and the verbs that a reset interrupted are gone. -/
def Obligations.StartUpReachesReadiness : Prop :=
  (∀ (pass : BitVec 8) (s : State), s.keeper.phase = .tests → s.keeper.testsDone = false →
    (List.range 8).all s.unitIdle = true → ∃ t, exec (.hiveTestsDone pass) s = .next t ∧ t.keeper.testsDone = true ∧ t.keeper.trainAsked = true ∧
      t.sec.passed = pass ∧ t.sec.failed = ~~~pass ∧ (pass ≠ BitVec.allOnes 8 → t.faults.stat.getLsbD 47 = true)) ∧
  (∀ s : State, s.keeper.phase = .tests → s.keeper.mapDone = false → s.keeper.stackMap = [] → s.inp.stackMap.length = 32 →
    ∃ t, exec .stackMapRead s = .next t ∧ t.keeper.mapDone = true ∧
      (∀ r ∈ t.keeper.stackMap, ∃ m, s.inp.stackMap[r.idx]? = some m ∧ mapCut r.idx m = some r) ∧
      t.keeper.stackMap.Pairwise (fun a b => a.idx < b.idx ∧ a.overlaps b = false) ∧
      (∀ r ∈ t.keeper.stackMap, r.base % 2 ^ 25 = 0 ∧ r.len % 2 ^ 25 = 0 ∧ 0 < r.len)) ∧
  (∀ s : State, s.keeper.testsDone = true → s.keeper.trainWait = none →
    exec .linkStartupTimeout s = .next { s with keeper := { s.keeper with trainWait := some (linkNos.filter fun l =>
      (s.link l).state == .measuring || (s.link l).state == .waggle) } }) ∧
  (∀ s : State, s.keeper.phase = .tests → s.keeper.testsDone = true → s.keeper.mapDone = true →
    (s.fabric.ready = true ∨ s.linksWait = false) → ∃ t, exec .readiness s = .next t ∧ t.keeper.state = 2 ∧
      t.keeper.phase = .ready ∧ t.fabric.ready = true ∧
      (s.keeper.drbgCalls < 60000 → t.faults = { s.faults with brstRun := false }) ∧
      ∀ v ∈ t.keeper.verbs, v.stage ≠ .interrupted)

/-- KNOCK, KNOCK_NARROW and WATCH_POLL (R64 to R67, R473): a knock that the context takes moves TAIL alone, lets fetching go on
and makes an Idle context Ready; any other is dropped, counted and changes no context. A narrower write of KNOCK is noted and
raises source 61. A poll reads the entry through the frame's service requester: an owned one makes an Idle watch-mode context
Ready, one that is not owned changes no context, and a bound context only reads again the entry at which it stopped. -/
def Obligations.KnocksAndPolls : Prop :=
  (∀ (w : Word) (s : State), s.cpAwake = true →
    let c := BitVec.ofNat 18 (bits w.toNat 17 0)
    let x := s.ctx c
    let good := bits w.toNat 31 18 = 0 ∧ bits w.toNat 63 48 = 0 ∧ x.takesTail (bits w.toNat 47 32) = true
    (good → ∃ t, exec (.knock w) s = .next t ∧
      t.ctx c = { x with tail := BitVec.ofNat 16 (bits w.toNat 47 32), fetchHold := false,
                         state := if x.state = .idle then .ready else x.state } ∧
      (x.state = .idle → c ∈ t.readyQ.get [] x.basePrio.toNat) ∧ (∀ d, d ≠ c → t.ctx d = s.ctx d) ∧ t.regs = s.regs) ∧
    (¬ good → exec (.knock w) s = .next { s with regs := { s.regs with knockDrop :=
      { s.regs.knockDrop with count := satAdd s.regs.knockDrop.count 1, last := c } } })) ∧
  (∀ (off : BitVec 24) (strobe : BitVec 8) (s : State), isKnock (alignDown 8 off.toNat) = true → strobe ≠ 0xFF → s.cpAwake = true →
    s.keeper.phase ≠ .off → ∃ t, exec (.knockNarrow off strobe) s = .next t ∧ t.regs.knockDrop =
      { s.regs.knockDrop with narrow := true } ∧ t.faults.stat.getLsbD 61 = true ∧ t.ctxs = s.ctxs) ∧
  (∀ (c : CtxNo) (f : Fin 16) (data : Bytes) (fail : Bool) (p : Nat) (s : State), (s.ctx c).watch = true →
    (s.ctx c).aborting = false → s.faults.halted = false →
    ((s.ctx c).state = .running → exec (.watchPoll c f data fail) s = .next (s.setCtx c { s.ctx c with fetchHold := false })) ∧
    ((s.ctx c).state = .idle → s.frameUp f.val = true →
      s.ringRoute f.val (s.ctx c) ((s.ctx c).entryAddr (s.ctx c).fetchIdx.toNat) = .tap p false none →
      (s.ringRead f.val p c 1 data = none → exec (.watchPoll c f data fail) s = .next (s.poolQueue f.val .service)) ∧
      (∀ u, s.ringRead f.val p c 1 data = some u → u.ctxs = s.ctxs ∧
        (fail = true → exec (.watchPoll c f data fail) s = .next (u.ringBusError f.val p c (s.ctx c).fetchIdx)) ∧
        (fail = false → bit (leAt data 127 1) 7 = true → exec (.watchPoll c f data fail) s = .next (u.toState c .ready)) ∧
        (fail = false → bit (leAt data 127 1) 7 = false → exec (.watchPoll c f data fail) s = .next u))))

/-- CONTEXT_BIND, CONTEXT_IDLE_UNBIND and PREEMPT (R11, R52, R68, R69, R226): the head of the highest Ready queue binds to a free
channel of the frame chosen for it, Running, with full allowances, and that frame holds the source of the context's swarm
(R187); a context with nothing left becomes Idle and its channel is free; a preempted one leaves at its next descriptor
boundary, at once when it has nothing started. -/
def Obligations.SchedulerBindsAndUnbinds : Prop :=
  (∀ (ch : Fin 1024) (c : CtxNo) (f : Nat) (s : State), s.faults.halted = false → s.clockOn 16 = true → s.nextReady = some c →
    s.placeFrame (s.ctx c) = some f → chanFrame ch.val = f → s.canBind true ch.val = true →
    ∃ t, exec (.contextBind ch) s = .next t ∧ (t.ctx c).state = .running ∧ (t.ctx c).bound = true ∧
      (t.ctx c).channel = BitVec.ofNat 10 ch.val ∧ (t.ctx c).held = [] ∧ (t.ctx c).chanFetch = (s.ctx c).startIdx ∧
      (t.ctx c).works = (s.ctx c).works ∧ t.chan ch.val = { ctx := some c, allowRd := 512, allowWr := 512, lent := false } ∧
      (∀ d, d ≠ c → t.ctx d = s.ctx d) ∧ (∀ n, n ≠ ch.val → t.chan n = s.chan n) ∧
      ((s.ctx c).state = .ready → c ∉ t.readyQ.get [] (s.ctx c).basePrio.toNat) ∧
      (∀ n < 4, t.swarm n = if (s.swarm n).isOpen ∧ (s.swarm n).src = c then { s.swarm n with srcFrame := some f } else s.swarm n) ∧
      OnlyChanges [.ctxs, .readyQ, .chans, .swarms] s t) ∧
  (∀ (c : CtxNo) (s : State), (s.ctx c).state = .running → (s.ctx c).leave = .no → (s.ctx c).failStop = false →
    (s.ctx c).aborting = false →
    ((s.ctx c).spent = true → ∃ t, exec (.contextIdleUnbind c) s = .next t ∧ (t.ctx c).state = .idle ∧ (t.ctx c).bound = false ∧
      (∀ d, d ≠ c → t.ctx d = s.ctx d) ∧ ((s.ctx c).bound = true → (t.chan (s.ctx c).channel.toNat).ctx = none)) ∧
    ((s.ctx c).spent = false → exec (.contextIdleUnbind c) s = .next s)) ∧
  (∀ (c d : CtxNo) (s : State), (s.ctx c).state = .running → (s.ctx c).leave = .no → (s.ctx c).failStop = false →
    s.nextReady = some d → (s.ctx c).basePrio.toNat ≤ (s.ctx d).basePrio.toNat →
    (∀ f ∈ frameNos, s.hasFree false f = false) → ∃ t, exec (.preempt c) s = .next t ∧
      ((s.ctx c).works ≠ [] → t.ctx c = { s.ctx c with leave := .boundary }) ∧
      ((s.ctx c).works = [] → (t.ctx c).state = .ready ∧ (t.ctx c).bound = false))

/-- WAIT, WAIT_SATISFIED and WAIT_ENTRY_FREED (R70, R335 to R337): a WAIT whose tally has its value is satisfied; otherwise the
context is Waiting with the tally and the value, bound, or descheduled into a shared entry when it asked for that and one is
free; a satisfied wait lets a bound context run on and makes a descheduled one Ready. -/
def Obligations.WaitsOnTallies : Prop :=
  (∀ (ch : Fin 1024) (c : CtxNo) (w : Work) (s : State), (s.chan ch.val).ctx = some c → (s.ctx c).works = [w] → w.kind = .wait →
    w.lastRead = false → w.ending = none → (s.ctx c).state = .running → (s.ctx c).sharedWait = false → s.moving c (chanFrame ch.val) = true →
    let y := w.waitFor
    (s.waitMet y.1.toNat y.2.toNat = true → ∃ t, exec (.wait ch) s = .next t ∧ (t.ctx c) = { s.ctx c with works := [{ w with lastRead := true }] } ∧
      OnlyChanges [.ctxs] s t) ∧
    (s.waitMet y.1.toNat y.2.toNat = false → ∃ t, exec (.wait ch) s = .next t ∧ (t.ctx c).state = .waiting ∧
      (t.ctx c).waitTally = y.1 ∧ (t.ctx c).waitValue = y.2 ∧
      ((s.ctx c).desched = false → (t.ctx c).bound = (s.ctx c).bound ∧ (t.ctx c).works = [w]) ∧
      ((s.ctx c).desched = true → s.waitEntryFree = true →
        (t.ctx c).bound = false ∧ (t.ctx c).sharedWait = true ∧ (t.ctx c).works = []) ∧
      ((s.ctx c).desched = true → s.waitEntryFree = false →
        (t.ctx c).bound = (s.ctx c).bound ∧ (t.ctx c).works = [w] ∧ t.tally.waitFull = true))) ∧
  (∀ (c : CtxNo) (s : State), (s.ctx c).state = .waiting → (s.ctx c).aborting = false → s.faults.halted = false →
    let met := s.waitMet (s.ctx c).waitTally.toNat (s.ctx c).waitValue.toNat
    (met = false → exec (.waitSatisfied c) s = .next s) ∧
    (met = true → ∃ t, exec (.waitSatisfied c) s = .next t ∧ (t.ctx c).sharedWait = false ∧ (∀ d, d ≠ c → t.ctx d = s.ctx d) ∧
      ((s.ctx c).bound = true → (t.ctx c).state = .running ∧ ∀ w ∈ (t.ctx c).works, w.kind = .wait → w.lastRead = true) ∧
      ((s.ctx c).bound = false → (t.ctx c).state = .ready ∧ c ∈ t.readyQ.get [] (s.ctx c).basePrio.toNat))) ∧
  (∀ (c : CtxNo) (s : State), (s.ctx c).state = .waiting → (s.ctx c).desched = true → (s.ctx c).bound = true →
    (s.ctx c).sharedWait = false → (s.ctx c).aborting = false → s.waitEntryFree = true →
    s.waitMet (s.ctx c).waitTally.toNat (s.ctx c).waitValue.toNat = false →
    ∃ t, exec (.waitEntryFreed c) s = .next t ∧ (t.ctx c).state = .waiting ∧ (t.ctx c).bound = false ∧ (t.ctx c).sharedWait = true ∧
      (t.ctx c).waitTally = (s.ctx c).waitTally ∧ (t.ctx c).waitValue = (s.ctx c).waitValue ∧
      (t.chan (s.ctx c).channel.toNat).ctx = none)

/-- DESCRIPTOR_FETCH_RETURN, DESCRIPTOR_START and NOP (R66, R71 to R74, R78): an owned entry joins the held ones and fetching
moves on; an unowned one stops fetching; the oldest held entry becomes the newest descriptor in progress, one that fails a
check with its status, and without ERR_CONT the context starts no more; a started NOP is ready to complete. -/
def Obligations.FetchAndStart : Prop :=
  (∀ (ch : Fin 1024) (c : CtxNo) (data : Bytes) (fail : Bool) (p : Nat) (u s : State), (s.chan ch.val).ctx = some c →
    let x := s.ctx c
    let e := slice data 0 128
    x.state = .running → x.leave = .no → x.failStop = false → x.aborting = false → x.blocked = false →
    s.frameUp (chanFrame ch.val) = true → s.faults.halted = false → 0 < x.fetchRoom → data.length < 256 →
    s.ringRoute (chanFrame ch.val) x (x.entryAddr x.chanFetch.toNat) = .tap p false none →
    s.ringRead (chanFrame ch.val) p c 1 data = some u →
    (fail = true → exec (.descriptorFetchReturn ch data fail) s = .next (u.ringBusError (chanFrame ch.val) p c x.chanFetch)) ∧
    (fail = false → ∃ t, exec (.descriptorFetchReturn ch data fail) s = .next t ∧ (∀ d, d ≠ c → t.ctx d = s.ctx d) ∧
      (bit (leAt e 127 1) 7 = true → (t.ctx c).held = x.held ++ [⟨x.chanFetch, e⟩] ∧
        (t.ctx c).chanFetch = x.next x.chanFetch.toNat 1 ∧ (t.ctx c).fetchHold = x.fetchHold) ∧
      (bit (leAt e 127 1) 7 = false → t.ctx c = { x with fetchHold := true, holdIdx := x.chanFetch }))) ∧
  (∀ (ch : Fin 1024) (c : CtxNo) (h : Held) (rest : List Held) (s : State), (s.chan ch.val).ctx = some c →
    let x := s.ctx c
    let u : State := { s with nextId := s.nextId + 1 }
    let w := u.newWork c x (chanFrame ch.val) (s.nextId + 1) h.idx h.bytes []
    x.held = h :: rest → x.state = .running → x.leave = .no → x.failStop = false → x.aborting = false →
    s.frameUp (chanFrame ch.val) = true → s.mayStart c x h.bytes = true → s.feedWaits c h.bytes = false →
    bit (leAt h.bytes 127 1) 6 = false → bit (leAt h.bytes 2 2) 1 = false → x.part = false →
    (∀ st d, u.acceptance c x (chanFrame ch.val) h.bytes [] = some (st, d) → st ≠ 0x0203 →
      let bad : Work := { w with ending := some (BitVec.ofNat 16 st, BitVec.ofNat 16 (min d 0xFFFF)), lastRead := true }
      exec (.descriptorStart ch) s = .next
        (u.setCtx c { x with held := rest, failStop := !x.errCont, works := x.works ++ [bad] })) ∧
    (u.acceptance c x (chanFrame ch.val) h.bytes [] = none → u.feedEmpty w = false →
      ∃ t, exec (.descriptorStart ch) s = .next t ∧ (t.ctx c).held = rest ∧ (t.ctx c).works = x.works ++ [{ w with accepted := true }] ∧
        (t.ctx c).failStop = false ∧ (t.ctx c).state = .running ∧ (∀ g, hintOf h.bytes = some g → (t.ctx c).hintFrame = g) ∧
        (∀ d, d ≠ c → t.ctx d = s.ctx d) ∧ OnlyChanges [.ctxs, .nextId] s t)) ∧
  (∀ (ch : Fin 1024) (c : CtxNo) (w : Work) (s : State), (s.chan ch.val).ctx = some c → s.moving c (chanFrame ch.val) = true →
    (s.ctx c).works = [w] → w.kind = .nop →
    exec (.nop ch) s = .next (s.setCtx c { s.ctx c with works := [{ w with lastRead := true }] }))

/-- COPY, one step at a time (R63, R96, R208, R216, R230): the next unit's reads are laid out; the chunk whose bytes are in hand
is passed on as a stream beat, or as the bursts of the destination's blocks (the block that a row may still add to stays
open), and runs into the checksum; a piece toward ports takes one landing credit of each; and a unit whose positions have all
left ends. -/
def Obligations.CopyMovesUnitByUnit : Prop :=
  ∀ (ch : Fin 1024) (c : CtxNo) (w : Work) (s : State), (s.chan ch.val).ctx = some c → s.moving c (chanFrame ch.val) = true →
    (s.ctx c).works = [w] → w.kind = .copy → w.ending = none → w.stage = .moving →
    let goesOn (t : State) (w' : Work) : Prop := exec (.copy ch) s = .next t ∧ t.ctx c = { s.ctx c with works := [w'] }
    (∀ e, w.asked = false → w.outs = [] → w.reads = [] → w.unit < w.units → (s.ctx c).leave ≠ .resume → s.stageNeed w = 0 →
      s.listUse c w = .entry e → w.tagIn = false → w.tagOut = false →
      ∃ t, goesOn t (Work.noteIssued { w with asked := true, emitted := 0, tileOk := true, tileTag := [], ahead := false,
                                              reads := s.unitReads w e 0 }) ∧ OnlyChanges [.ctxs] s t) ∧
    (∀ xs, w.asked = true → w.tileOk = true → w.outs = [] → w.reads = [] → s.dataFlying c w = false → w.emitted < w.size →
      s.trim c w = none → w.ct = none → isPlanar w.box.delem = false →
      let l := s.chunk w (s.entryOf c w)
      let out := byteOut (elemBytes w.box.delem) xs
      let more := decide (l.length < w.box.rowLeft w.unitKind w.unit w.emitted) && decide (l.length = scanLimit)
      (∀ p st d, l.getLast? = some p → p.2 ≠ .bad st d) → s.chunkElems c w l = some xs →
      (w.box.stream = true → out ≠ [] →
        ∃ t, goesOn t { w with emitted := w.emitted + l.length, crc := w.sum (out.map (·.byte)), opened := [],
                               outs := [w.box.streamPiece out] } ∧ OnlyChanges [.ctxs, .frames, .free] s t) ∧
      (w.box.stream = false →
        ∃ t, goesOn t { w with emitted := w.emitted + l.length, crc := w.sum (out.map (·.byte)),
                               opened := (w.box.gatherPieces w.opened out more).2,
                               outs := (w.box.gatherPieces w.opened out more).1 } ∧ OnlyChanges [.ctxs, .frames, .free] s t)) ∧
    (∀ p rest, w.outs = p :: rest → p.space = 2 → (∀ n ∈ p.cores, 0 < (s.port n).landCr) →
      ∃ t, exec (.copy ch) s = .next t ∧ (∀ v ∈ (t.ctx c).works, v.outs = rest ∧ v.writesOut = w.writesOut + p.cores.length) ∧
        (∀ n ∈ p.cores, (t.port n).landCr + 1 = (s.port n).landCr) ∧ (∀ n, n ∉ p.cores → t.port n = s.port n) ∧
        OnlyChanges [.ctxs, .ports, .spine] s t) ∧
    (w.asked = true → w.outs = [] → w.reads = [] → s.dataFlying c w = false → s.crossing c w = false → w.size ≤ w.emitted →
      s.trim c w = none → s.aheadTag c w = none → s.listAhead c w = none →
      ∃ t, goesOn t { w with unit := w.unit + 1, asked := false, emitted := 0, tileOk := false, tileTag := [] } ∧
        OnlyChanges [.ctxs, .frames] s t)

/-- DESCRIPTOR_COMPLETE, STATUS_WRITE_ACK and POST_RECORD_LANDED (R59, R63, R76, R78, R80, R169): when the data of the oldest
descriptor is done its outcome is settled and its status write is queued, the extension slot's first; once the status has
left, or in landed mode has landed, DONE_IDX moves past it, DESC_DONE counts it, and the local tally on done rises by DONE_INC
unless it failed without TALLY_ON_ERR. A landed post raises its tally by 1. -/
def Obligations.CompletionWritesTheStatus : Prop :=
  (∀ (c : CtxNo) (w : Work) (rest : List Work) (g : Nat) (s : State), s.faults.halted = false →
    let x := s.ctx c
    x.works = w :: rest → w.stage = .moving → (s.frame w.frame).draining = false → s.dataDone c w = true →
    s.svcFrame w.frame = some g →
    (failed w.outcome.1 = true ∨ w.csumMode = 0 ∨ w.kind = .nop ∨ w.kind = .wait) →
    let w' : Work := { w with status := w.outcome.1, detail := w.outcome.2 }
    (w.slot = [] → ∃ t, exec (.descriptorComplete c) s = .next t ∧ (t.ctx c).works = { w' with stage := .status } :: rest ∧
      t.frame g = { s.frame g with svc := (s.frame g).svc ++
        [.write c w.id w.idx (piece .status x.ringSpace (x.entryAddr w.idx.toNat + 120) w'.statusBytes)] } ∧
      (∀ f, f ≠ g → t.frame f = s.frame f) ∧ OnlyChanges [.ctxs, .frames] s t) ∧
    (w.slot ≠ [] → ∃ t, exec (.descriptorComplete c) s = .next t ∧ (t.ctx c).works = { w' with stage := .slot } :: rest ∧
      (t.frame g).svc = (s.frame g).svc ++ [.write c w.id w.idx (piece .slotFree x.ringSpace
        (x.entryAddr (x.next w.idx.toNat 1).toNat + 127) [0x40])] ∧ OnlyChanges [.ctxs, .frames] s t)) ∧
  (∀ (c : CtxNo) (w : Work) (rest : List Work) (s : State), s.faults.halted = false →
    let x := s.ctx c
    let done (t : State) : Prop :=
      (t.ctx c).doneIdx = x.next w.idx.toNat w.entries ∧ (t.ctx c).works = x.works.filter (fun v => v.id ≠ w.id) ∧
      (t.ctx c).part = false ∧ (t.ctx c).cursor = 0 ∧ (t.ctx c).descDone.toNat = min (x.descDone.toNat + 1) 0x7FFFFFFF ∧
      (failed w.status = true → w.tallyOnErr = false → (t.ctx c).lastErr = w.status ∧ (t.ctx c).lastErrIdx = w.idx ∧
        t.tally.val = s.tally.val) ∧
      (failed w.status = false → w.doneEn = true → w.tallyDone = true → w.doneRemote = false → s.tally.bars = [] →
        s.tally.frozen.contains w.tally.toNat = false → s.faults.flipTable = 0 →
        (s.tally.val.get 0 w.tally.toNat).toNat + w.doneInc < 2 ^ 64 →
        (t.tally.val.get 0 w.tally.toNat).toNat = (s.tally.val.get 0 w.tally.toNat).toNat + w.doneInc)
    x.works = w :: rest →
    (w.landed = false → (s.frame w.frame).draining = false → w.stage = .statusOut ∨ w.stage = .statusLanded →
      ∃ t, exec (.descriptorComplete c) s = .next t ∧ done t) ∧
    (w.landed = true → w.stage = .statusLanded → ∃ t, exec (.statusWriteAck c) s = .next t ∧ done t)) ∧
  (∀ (c : CtxNo) (p : Post) (s : State), (s.ctx c).posts = [p] → p.landed = true → exec (.postRecordLanded c) s = .next
    ((s.setCtx c { s.ctx c with posts := [] }).increment p.tally.toNat 1 { mkind := 1, mid := c.toNat, tenant := (s.ctx c).tenant }))

/-- TAP_ARBITRATION (R213, R222 to R224): of the requesters ready on the tap the one of the highest effective priority, base plus
age and 15 at most, wins, and of equals the first after the pointer; its burst issues, it is where the rotation goes on from,
its age is 0, and the other ready ones age by 1 up to 15. -/
def Obligations.ArbiterPicksTheHighestPriority : Prop :=
  ∀ (tap : Fin 64) (s : State),
    let t := tap.val
    let u := s.demand (t / 4)
    let ready := (List.range 66).filter fun r => (u.tryIssue t r).isSome
    let eff (r : Nat) : Nat := min (u.basePrio (t / 4) r + (u.tap t).age.get 0 r) 15
    let turn (r : Nat) : Nat := (r + 65 - (u.tap t).ptr) % 66
    ready ≠ [] → (u.tap t).ptr < 66 → ∃ r v, r ∈ ready ∧ u.tryIssue t r = some v ∧
      (∀ q ∈ ready, eff q < eff r ∨ (eff q = eff r ∧ turn r ≤ turn q)) ∧
      exec (.tapArbitration tap) s = .next (v.setTap t ((v.tap t).decided ready r)) ∧
      ((v.tap t).decided ready r).ptr = r ∧ ((v.tap t).decided ready r).owner = some r ∧
      ((v.tap t).decided ready r).age.get 0 r = 0 ∧
      (∀ q ∈ ready, q ≠ r → ((v.tap t).decided ready r).age.get 0 q = min ((v.tap t).age.get 0 q + 1) 15)

/-- READ_DATA_RETURN, WRITE_DONE and TAP_CREDIT_RETURN (R210 to R212, R215, R446): a beat that is waited for fills its half of its
slot; the report of a landed write frees its entry and counts for its descriptor; a failed one raises the frame's source and
the frame starts to stop; one that nothing waits for raises source 52; a credit comes back up to the number granted, and one
more raises source 51. -/
def Obligations.TapReturns : Prop :=
  (∀ (tap : Fin 64) (slot : Fin 8192) (half : Bool) (data : Bytes) (s : State),
    let f := tap.val / 4
    let q := s.slot f slot.val
    let waits := q.inFlight = true ∧ q.space ≠ 2 ∧ q.want.getLsbD (b2n half) = true ∧ q.have_.getLsbD (b2n half) = false ∧
      tapOf f q.phys = tap.val
    (waits → (q.have_ ||| BitVec.ofNat 4 (2 ^ b2n half)) ≠ q.want → ∃ t, exec (.readDataReturn tap slot half data false) s = .next t ∧
      (t.slot f slot.val).have_ = q.have_ ||| BitVec.ofNat 4 (2 ^ b2n half) ∧ (t.slot f slot.val).holder = q.holder ∧
      (∀ i < 128, (t.slot f slot.val).data.get 0 (128 * b2n half + i) = data.getD i 0) ∧
      (∀ i, i < 128 * b2n half ∨ 128 * b2n half + 128 ≤ i → (t.slot f slot.val).data.get 0 i = q.data.get 0 i) ∧
      (∀ n, n ≠ slot.val → t.slot f n = s.slot f n) ∧ (∀ g, g ≠ f → t.frame g = s.frame g) ∧
      OnlyChanges [.frames, .faults] s t) ∧
    (waits → ∃ t, exec (.readDataReturn tap slot half data true) s = .next t ∧ t.faults.stat.getLsbD f = true ∧
      ((t.frame f).stopped = true ∨ (t.frame f).draining = true)) ∧
    (¬ waits → ∀ fail, exec (.readDataReturn tap slot half data fail) s = .next (s.tapProtocol tap.val))) ∧
  (∀ (tap : Fin 64) (entry : Fin 4096) (fail : Bool) (s : State),
    let f := tap.val / 4
    let e := s.entry f entry.val
    (e.holder ≠ .free → tapOf f e.addr = tap.val → ∃ t, exec (.writeDone tap entry false) s = .next t ∧
      t.entry f entry.val = {} ∧ (∀ n, n ≠ entry.val → t.entry f n = s.entry f n) ∧
      (∀ c w, e.holder = .work c w.id → e.what = .data → (s.ctx c).works = [w] →
        (t.ctx c).works = [{ w with writesOut := w.writesOut - 1 }])) ∧
    (e.holder ≠ .free → tapOf f e.addr = tap.val → ∃ t, exec (.writeDone tap entry true) s = .next t ∧
      t.entry f entry.val = {} ∧ t.faults.stat.getLsbD f = true ∧ ((t.frame f).stopped = true ∨ (t.frame f).draining = true)) ∧
    (e.holder = .free ∨ tapOf f e.addr ≠ tap.val → exec (.writeDone tap entry fail) s = .next (s.tapProtocol tap.val))) ∧
  (∀ (tap : Fin 64) (wr : Bool) (s : State),
    let x := s.tap tap.val
    let most := tapInit (if wr then s.inp.wrCr else s.inp.rdCr) tap.val
    ((if wr then x.wrCr else x.rdCr) < most → exec (.tapCreditReturn tap wr) s = .next
      (s.setTap tap.val (if wr then { x with wrCr := x.wrCr + 1 } else { x with rdCr := x.rdCr + 1 }))) ∧
    (most ≤ (if wr then x.wrCr else x.rdCr) → ∃ t, exec (.tapCreditReturn tap wr) s = .next t ∧
      t.faults.stat.getLsbD 51 = true ∧ t.taps = s.taps))

/-- UNTAGGED_FAIL, RESPONSE_LOST_TIMEOUT, FRAME_STOP_DRAIN_END and FORAGER_WALK (R232, R233, R245, R446): an error that names no
request stops the frame; lost responses are given up; a drained frame is stopped with its pantry zeroised and nothing bound;
the forager starts a walk for the first page of the coming work that no buffer holds. -/
def Obligations.FrameStopsAndForages : Prop :=
  (∀ (tap : Fin 64) (s : State), (s.frame (tap.val / 4)).stopped = false → ∃ t, exec (.untaggedFail tap) s = .next t ∧
    (t.frame (tap.val / 4)).draining = true ∧ t.faults.stat.getLsbD (tap.val / 4) = true) ∧
  (∀ (f : Fin 16) (s : State), (s.frame f.val).draining = true →
    (∃ t, exec (.responseLostTimeout f) s = .next t ∧ (t.frame f.val).drained = true ∧ (t.frame f.val).draining = true ∧
      ((∀ e ∈ (s.frame f.val).went, ∀ d tag, e.2.holder ≠ .fabric d tag) → ∀ g, g ≠ f.val → t.frame g = s.frame g) ∧
      (∀ p, ∀ r ∈ (t.port p).fetFly, r.frame ≠ f.val)) ∧
    ((s.frame f.val).drained = true → ∃ t, exec (.frameStopDrainEnd f) s = .next t ∧ (t.frame f.val).stopped = true ∧
      (t.frame f.val).draining = false ∧ (t.frame f.val).slots = [] ∧ (t.frame f.val).fab = [] ∧
      (∀ c ∈ s.ctxsIn f.val, (t.ctx c).bound = false) ∧ (∀ w ∈ t.xlate.walks, w.frame ≠ f.val)) ∧
    ((s.frame f.val).drained = false → exec (.frameStopDrainEnd f) s = .next s)) ∧
  (∀ (ch : Fin 1024) (c : CtxNo) (s : State), (s.chan ch.val).ctx = some c → s.moving c (chanFrame ch.val) = true →
    (s.xlate.walks.filter fun w => w.frame = chanFrame ch.val && w.why == .forager).length < 16 →
    let f := chanFrame ch.val
    let held (p : KsetNo × Nat) : Prop := ∀ root, s.xroot (s.ctx c) p.1 = some root →
      2 ^ 57 ≤ p.2 ∨ (s.lookup f root p.2).isSome = true ∨
        (s.xlate.walks.any fun w => w.root == root && decide (w.va >>> 25 = p.2 >>> 25)) = true
    ((∀ p ∈ s.foragerPages c, held p) → exec (.foragerWalk ch) s = .next s) ∧
    (∀ (before after : List (KsetNo × Nat)) p root r, s.foragerPages c = before ++ p :: after → (∀ q ∈ before, held q) → ¬ held p →
      s.xroot (s.ctx c) p.1 = some root → s.rootTable root = some r → ∃ t, exec (.foragerWalk ch) s = .next t ∧
        t.xlate = { s.xlate with walks := s.xlate.walks ++ [⟨s.nextId, f, root, p.2, r.1, r.2, .forager, false⟩] } ∧
        (t.frame f).svc = (s.frame f).svc ++ [.walk s.nextId] ∧ OnlyChanges [.frames, .xlate, .nextId] s t))

/-- FEED_PORT_DELIVER, LAND_CR, STRM_CR, FET_REQ, FET_V and SPINE_TRANSFER (R215 to R220, R447): a port presents the swarm's beat,
or the first landing-buffer beat that has its credit; a returned credit counts, and one more than granted raises source 51; a
scratchpad read goes out with one read credit and comes back into its slot; the beat whose turn it is crosses the spine into
its ports' landing buffers. -/
def Obligations.PortsDeliverAndReturn : Prop :=
  (∀ (p : Fin 256) (b : Beat) (rest : List Beat) (s : State), s.corePresent p.val = true → (s.frame (p.val / 16)).state = .run →
    (∀ sw d, s.swarmBeatFor p.val = some (sw, d) → exec (.feedPortDeliver p) s =
      .next (((s.setPort p.val ((s.port p.val).present (s.swarmBeat sw d))).setSwarm sw ((s.swarm sw).take p.val)).moved)) ∧
    (s.swarmBeatFor p.val = none → (s.port p.val).landing = b :: rest → (s.port p.val).mayDeliver b = true →
      ∃ t, exec (.feedPortDeliver p) s = .next t ∧ t.port p.val =
        { (s.port p.val).present b with landing := rest, landCr := (s.port p.val).landCr + 1 } ∧
      (∀ n, n ≠ p.val → t.port n = s.port n) ∧ OnlyChanges [.ports, .tally] s t)) ∧
  (∀ (p : Fin 256) (w : CtxNo × Nat) (rest : List (CtxNo × Nat)) (s : State), s.corePresent p.val = true →
    let q := s.port p.val
    (q.landFly = w :: rest → exec (.landCr p) s = .next ((s.setPort p.val { q with landFly := rest, wrCr := q.wrCr + 1 }).beatBack w)) ∧
    (q.strmFly = w :: rest → exec (.strmCr p) s = .next ((s.setPort p.val { q with strmFly := rest, strmCr := q.strmCr + 1 }).beatBack w)) ∧
    (q.landFly = [] → exec (.landCr p) s = .next (s.raise { src := 51, mkind := 2, mid := p.val, sub := 2, addr := p.val })) ∧
    (q.strmFly = [] → exec (.strmCr p) s = .next (s.raise { src := 51, mkind := 2, mid := p.val, sub := 4, addr := p.val }))) ∧
  (∀ (p : Fin 256) (c : CtxNo) (w : Work) (r : ReadReq) (m : Nat) (sl : Slot) (s : State), s.corePresent p.val = true →
    (s.frame (p.val / 16)).state = .run → 0 < (s.port p.val).rdCr →
    s.chans.keys.findSome? (s.fetWant p.val) = some (c, w, r, m, sl) →
    let q := s.port p.val
    let i := (setBits 4 (quarters r.sect).toNat).headD 0
    let asked : Fetch := ⟨w.frame, m, r.addr + 64 * i, (s.ctx c).tenant⟩
    ∃ t, exec (.fetReq p) s = .next t ∧ t.port p.val = { q with rdCr := q.rdCr - 1, fetFly := q.fetFly ++ [asked] } ∧
      t.slot w.frame m = { sl with want := sl.want ||| BitVec.ofNat 4 (2 ^ i) } ∧ (∀ n, n ≠ p.val → t.port n = s.port n) ∧
      OnlyChanges [.ctxs, .frames, .ports] s t) ∧
  (∀ (p : Fin 256) (data : Bytes) (r : Fetch) (rest : List Fetch) (s : State), s.corePresent p.val = true →
    (s.port p.val).fetFly = r :: rest →
    let q := s.slot r.frame r.slot
    let got := q.have_ ||| BitVec.ofNat 4 (2 ^ (r.ofs % 256 / 64))
    let taken (t : State) : Prop := t.port p.val = { s.port p.val with fetFly := rest, rdCr := (s.port p.val).rdCr + 1 } ∧
      (∀ j < 64, (t.slot r.frame r.slot).data.get 0 (r.ofs % 256 + j) = data.getD j 0) ∧ (t.slot r.frame r.slot).have_ = got
    (s.frameUp r.frame = false ∨ got ≠ q.want → ∃ t, exec (.fetV p data false) s = .next t ∧ taken t ∧
      OnlyChanges [.frames, .ports, .faults] s t) ∧
    (∀ (c : CtxNo) (w : Work), s.frameUp r.frame = true → q.want ≠ 0 → got = q.want → (s.ctx c).works = [w] → w.reads = [] →
      q.holder = .work c w.id → q.what = .data → q.flips = 0 → s.faults.flipPantry.get 0 r.frame = 0 →
      ∃ t, exec (.fetV p data false) s = .next t ∧ taken t ∧ (t.ctx c).works = [{ w with readsOut := w.readsOut - 1 }])) ∧
  (∀ (dst src : Fin 16) (s : State),
    (∀ b, s.ingress dst.val = some b → b ∈ s.spine ∧ b.dst = dst.val ∧ s.frameUp b.src = true) ∧
    ((∀ b, s.ingress dst.val = some b → b.src ≠ src.val) → exec (.spineTransfer dst src) s = .next s) ∧
    (∀ b, s.ingress dst.val = some b → b.src = src.val → (s.frame dst.val).state = .run → b.ports.Nodup →
      ∃ t, exec (.spineTransfer dst src) s = .next t ∧ t.spine = s.spine.erase b ∧
        (∀ p ∈ b.ports, t.port p = { s.port p with landing := (s.port p).landing ++ [b.beat] }) ∧
        (∀ p, p ∉ b.ports → t.port p = s.port p) ∧ OnlyChanges [.ctxs, .frames, .ports, .spine, .tally] s t))

/-- TP_READ_TALLY, TP_INCREMENT, TP_ARM_TALLY_WAIT, TP_CREDIT_GIVE, TP_CREDIT_TAKE, TP_ARM_CREDIT_WAIT, TP_DISARM_SLOT and
TP_READ_CREDIT (R325, R329, R331, R333, R338, R390, R450 to R452): with the tally unit powered, a core's operation on what its
tenant owns has its effect and its answer; any other, and in the halted state all but reads, is answered refused and has none.
With the unit off or without its clock the operation is held while both are asked for; the port of a core that is not there is
ignored. -/
def Obligations.TallyPortsOperate : Prop :=
  (∀ (n : Fin 256) (id : TallyNo) (arg : Word) (k : Fin 4) (s : State), s.corePresent n.val = true → s.tallyRuns = true →
    let ans (t : State) (r : Bool) (v : Nat) := t.tally.replies.get {} n.val = { refused := r, rdata := BitVec.ofNat 64 v }
    let mine := s.tallyOwner id.toNat = s.coreTenant n.val
    let c := bits id.toNat 9 0
    let mineC := (s.credCfg c).tenant = s.coreTenant n.val
    let live := s.faults.halted = false
    let v := (s.credVal c).value.toNat
    (mine → arg = 0 → ∃ t, exec (.tpReadTally n id arg) s = .next t ∧ ans t false (s.tallyVal id.toNat) ∧
      t.tally.val = s.tally.val ∧ OnlyChanges [.tally] s t) ∧
    (mineC → arg = 0 → ∃ t, exec (.tpReadCredit n id arg) s = .next t ∧ ans t false v ∧ t.tally.credVal = s.tally.credVal ∧
      OnlyChanges [.tally] s t) ∧
    (mine → live → 1 ≤ arg.toNat → arg.toNat ≤ 65535 → s.tally.bars = [] → id.toNat ∉ s.tally.frozen →
      let x := (s.tally.val.get 0 id.toNat).toNat + arg.toNat
      ∃ t, exec (.tpIncrement n id arg) s = .next t ∧ ans t false 0 ∧
      t.tally.val.get 0 id.toNat = BitVec.ofNat 64 (min x (2 ^ 64 - 1)) ∧ (2 ^ 64 ≤ x → t.faults.stat.getLsbD 43 = true) ∧
      (∀ u, u ≠ id.toNat → t.tally.val.get 0 u = s.tally.val.get 0 u) ∧ t.tally.credVal = s.tally.credVal ∧ t.tally.slots = s.tally.slots) ∧
    (mine → live → ∃ t, exec (.tpArmTallyWait n id k arg) s = .next t ∧ ans t false 0 ∧
      t.tally.slots.get .none (4 * n.val + k.val) = .tally id arg ∧ t.tally.val = s.tally.val ∧
      t.slotSat n.val k.val = s.waitMet id.toNat arg.toNat) ∧
    (mineC → live → 1 ≤ arg.toNat → arg.toNat ≤ 65535 →
      (∃ t, exec (.tpCreditGive n id arg) s = .next t ∧ ans t false (min (v + arg.toNat) 131071) ∧
        (t.credVal c).value.toNat = min (v + arg.toNat) 131071 ∧ (131071 < v + arg.toNat → t.faults.stat.getLsbD 44 = true) ∧
        (∀ d, d ≠ c → t.credVal d = s.credVal d) ∧ t.tally.val = s.tally.val) ∧
      (arg.toNat ≤ v → ∃ t, exec (.tpCreditTake n id arg) s = .next t ∧ ans t false (v - arg.toNat) ∧
        (t.credVal c).value.toNat = v - arg.toNat ∧ (∀ d, d ≠ c → t.credVal d = s.credVal d) ∧ t.faults = s.faults) ∧
      (v < arg.toNat → ∃ t, exec (.tpCreditTake n id arg) s = .next t ∧ ans t true 0 ∧
        t.credVal c = { s.credVal c with under := true } ∧ t.faults.stat.getLsbD 44 = true)) ∧
    (mineC → live → arg.toNat ≤ 65535 → ∃ t, exec (.tpArmCreditWait n id k arg) s = .next t ∧ ans t false 0 ∧
      t.tally.slots.get .none (4 * n.val + k.val) = .credit (BitVec.ofNat 10 c) (BitVec.ofNat 16 arg.toNat) ∧
      t.slotSat n.val k.val = decide (arg.toNat ≤ v)) ∧
    (live → arg = 0 → ∃ t, exec (.tpDisarmSlot n k arg) s = .next t ∧ ans t false 0 ∧
      t.tally.slots.get .none (4 * n.val + k.val) = .none ∧ t.slotSat n.val k.val = false) ∧
    (¬ mine ∨ ¬ live → ∃ t, ans t true 0 ∧ t.tally.val = s.tally.val ∧ t.tally.slots = s.tally.slots ∧ OnlyChanges [.tally] s t ∧
      exec (.tpIncrement n id arg) s = .next t ∧ exec (.tpArmTallyWait n id k arg) s = .next t) ∧
    (¬ mineC ∨ ¬ live → ∃ t, ans t true 0 ∧ t.tally.credVal = s.tally.credVal ∧ t.tally.slots = s.tally.slots ∧
      OnlyChanges [.tally] s t ∧ exec (.tpCreditGive n id arg) s = .next t ∧ exec (.tpCreditTake n id arg) s = .next t ∧
      exec (.tpArmCreditWait n id k arg) s = .next t)) ∧
  (∀ (n : Fin 256) (id : TallyNo) (k : Fin 4) (arg : Word) (op : Instr) (s : State),
    op ∈ [.tpReadTally n id arg, .tpIncrement n id arg, .tpArmTallyWait n id k arg, .tpCreditGive n id arg, .tpCreditTake n id arg,
      .tpArmCreditWait n id k arg, .tpDisarmSlot n k arg, .tpReadCredit n id arg] →
    (s.corePresent n.val = false → exec op s = .next s) ∧
    (s.corePresent n.val = true → s.tallyRuns = false → ∃ t, exec op s = .next t ∧ OnlyChanges [.tally, .power] s t ∧
      t.tally.val = s.tally.val ∧ t.tally.slots = s.tally.slots ∧ t.tally.credVal = s.tally.credVal ∧ t.tally.replies = s.tally.replies ∧
      t.tally.heldOps = (if s.tally.heldOps.any (·.1 = n.val) then s.tally.heldOps else s.tally.heldOps ++ [(n.val, op)]) ∧
      (s.power.ack.getLsbD 61 = false → t.power.req.getLsbD 61 = true) ∧
      (s.power.clkAck.getLsbD 16 = false → t.power.clkReq.getLsbD 16 = true)))

/-- TALLY_OWN_WRITE, CRED_CFG_WRITE, BARRIER_ENABLE and BARRIER_DISABLE (R322, R332, R341, R468, R470): the group's owner changes
and nothing else; the counter takes its owner and its new initial value; an enabled barrier records the two tallies' values,
unless its tenant does not own them; while it is enabled only clearing BA_EN has an effect. DEADLOCK_TIMEOUT, LEND_TIMEOUT and
LEND_UPDATE (R340, R347, R459): the detector raises source 46 and sets TS_DL_FIRED once, aborting nothing; a long sleep, or a
core with four long waits, counts for lending; both counts are presented and LEND_UPD toggles on a change. -/
def Obligations.TallyUnitIsConfiguredAndTimed : Prop :=
  ((∀ (g : Fin 1024) (w : BitVec 32) (s : State), s.cpAwake = true → ∃ t, exec (.tallyOwnWrite g w) s = .next t ∧
    t.tally.own.get 0 g.val = w.setWidth 12 ∧ (∀ h, h ≠ g.val → t.tally.own.get 0 h = s.tally.own.get 0 h) ∧
    t.tally.val = s.tally.val ∧ t.tally.slots = s.tally.slots ∧ OnlyChanges [.tally] s t) ∧
  (∀ (c : Fin 1024) (w : Word) (s : State), s.cpAwake = true →
    let init := bits w.toNat 31 16
    (init = 0 ∨ s.tallyOn = true → ∃ t, exec (.credCfgWrite c w) s = .next t ∧
      t.credCfg c.val = { tenant := w.setWidth 12, init := BitVec.ofNat 16 init } ∧ (t.credVal c.val).value.toNat = init ∧
      (∀ d, d ≠ c.val → t.credCfg d = s.credCfg d ∧ t.credVal d = s.credVal d) ∧ t.tally.val = s.tally.val) ∧
    (init ≠ 0 → s.tallyOn = false → ∃ t, exec (.credCfgWrite c w) s = .next t ∧ t.tally.held = true ∧
      t.tally.credCfg = s.tally.credCfg ∧ (s.power.ack.getLsbD 61 = false → t.power.req.getLsbD 61 = true))) ∧
  (∀ (b : Fin 64) (w : Word) (s : State), s.cpAwake = true → s.tallyOn = true → (s.barrier b.val).enabled = false →
    w.getLsbD 55 = true →
    let x := s.barrier b.val
    let arr := bits w.toNat 13 0
    let rel := bits w.toNat 29 16
    let owned := s.tallyOwner arr = x.tenant ∧ s.tallyOwner rel = x.tenant
    (owned → ∃ t, exec (.barrierEnable b w) s = .next t ∧ (t.barrier b.val).enabled = true ∧
      (t.barrier b.val).arrive = arr ∧ (t.barrier b.val).release = rel ∧ (t.barrier b.val).a0 = s.tally.val.get 0 arr ∧
      (t.barrier b.val).r0 = s.tally.val.get 0 rel) ∧
    (¬ owned → ∃ t, exec (.barrierEnable b w) s = .next t ∧ (t.barrier b.val).enabled = false ∧ (t.barrier b.val).cfgErr = true ∧
      (∀ d, d ≠ b.val → t.barrier d = s.barrier d) ∧ OnlyChanges [.tally] s t)) ∧
  (∀ (b : Fin 64) (w : Word) (s : State), s.cpAwake = true → (s.barrier b.val).enabled = true → w.getLsbD 55 = false →
    ∃ t, exec (.barrierDisable b w) s = .next t ∧ (t.barrier b.val).enabled = false ∧
      (t.barrier b.val).arrive = (s.barrier b.val).arrive ∧ (t.barrier b.val).parent = (s.barrier b.val).parent ∧
      (bits w.toNat 13 0 ≠ (s.barrier b.val).arrive → (t.barrier b.val).cfgErr = true) ∧
      (∀ d, d ≠ b.val → t.barrier d = s.barrier d) ∧ OnlyChanges [.tally] s t)) ∧
  ((∀ (s : State), s.tally.deadlockUs ≠ 0 → (s.waiters ≠ [] ∨ s.anyBound = true) →
    (s.tally.dlQuiet = false → ∃ t, exec .deadlockTimeout s = .next t ∧ t.tally = { s.tally with dlFired := true, dlQuiet := true } ∧
      t.faults.stat.getLsbD 46 = true ∧ t.ctxs = s.ctxs ∧ t.chans = s.chans) ∧
    (s.tally.dlQuiet = true → exec .deadlockTimeout s = .next s)) ∧
  (∀ (ch : Fin 1024) (s : State), s.tally.lendUs ≠ 0 → s.sleeping ch.val = true → s.chanMet ch.val = false →
    ∃ t, exec (.lendTimeout (.channel ch)) s = .next t ∧ t.chan ch.val = { s.chan ch.val with lent := true } ∧
      (∀ d, d ≠ ch.val → t.chan d = s.chan d) ∧ OnlyChanges [.chans] s t) ∧
  (∀ (n : Fin 256) (s : State), s.tally.lendUs ≠ 0 → s.corePresent n.val = true → s.coreWaits n.val = true →
    ∃ t, exec (.lendTimeout (.core n)) s = .next t ∧ n.val ∈ t.tally.lentCores ∧
      (∀ m, m ≠ n.val → (m ∈ t.tally.lentCores ↔ m ∈ s.tally.lentCores)) ∧ t.tally.val = s.tally.val ∧ OnlyChanges [.tally] s t) ∧
  (∀ (s : State), ∃ t, exec .lendUpdate s = .next t ∧ t.tally.lendChan = BitVec.ofNat 11 s.lentChans.length ∧
    t.tally.lendCore = BitVec.ofNat 9 s.tally.lentCores.length ∧
    (t.tally.lendUpd = s.tally.lendUpd ↔
      s.tally.lendChan.toNat = s.lentChans.length ∧ s.tally.lendCore.toNat = s.tally.lentCores.length) ∧ OnlyChanges [.tally] s t))

/-- LINK_RETRAINING_REQUEST, LINK_TRAINED, LANE_LOSS, SEAL_SILENCE_TIMEOUT and REPLAY_TIMEOUT (R258, R259, R271, R272, R273,
R454): a wanted link asks for training and powers its quadrant; eight lanes at one rate start a measurement of 8 echoes and an
unknown rate raises source 52; a lost lane, 1 ms without a seal or a replay too many takes a link down with source 49, its
keys gone. ECHO, ECHO_REPLY and ECHO_PERIODIC (R273, R274, R276): an echo goes back with its count before all but earlier
replies; a reply is a sample of the round trip; the eighth of a measurement sets the round trip and the grant and starts
waggle; on a link in service the largest of eight is the round trip; every second one more echo is due. -/
def Obligations.LinksTrainMeasureAndFall : Prop :=
  ((∀ (l : Fin 18) (s : State), (s.link l.val).state = .down → s.linkWanted l.val = true →
    ∃ t, exec (.linkRetrainingRequest l) s = .next t ∧ t.link l.val = { s.link l.val with state := .training, trainReq := true } ∧
      (s.power.ack.getLsbD (57 + quadrant l.val) = false → t.power.req.getLsbD (57 + quadrant l.val) = true) ∧
      (∀ k, k ≠ l.val → t.link k = s.link k) ∧ OnlyChanges [.fabric, .power] s t) ∧
  (∀ (l : Fin 18) (lanes : BitVec 8) (rates : BitVec 16) (s : State),
    let x := s.link l.val
    (x.state = .training → lanes = 0xFF → rates = 0x5555 ∨ rates = 0xAAAA → ∃ t, exec (.linkTrained l lanes rates) s = .next t ∧
      (t.link l.val).state = .measuring ∧ (t.link l.val).rate = decide (rates = 0xAAAA) ∧ (t.link l.val).echoDue = 8 ∧
      (t.link l.val).trainReq = true ∧ (t.link l.val).txKey = none ∧ (t.link l.val).rxKey = none ∧
      (∀ k, k ≠ l.val → t.link k = s.link k) ∧ OnlyChanges [.fabric] s t) ∧
    (x.state = .training → lanes ≠ 0xFF → (∀ j, j < 8 → bits rates.toNat (2 * j + 1) (2 * j) ≠ 3) →
      exec (.linkTrained l lanes rates) s = .next s) ∧
    (∀ j, j < 8 → bits rates.toNat (2 * j + 1) (2 * j) = 3 → ∃ t, exec (.linkTrained l lanes rates) s = .next t ∧
      t.faults.stat.getLsbD 52 = true ∧ t.fabric = s.fabric)) ∧
  (∀ (l : Fin 18) (s : State), (s.link l.val).isUp = true →
    let down (t : State) := (t.link l.val).state = .down ∧ (t.link l.val).trainReq = false ∧ (t.link l.val).txKey = none ∧
      (t.link l.val).rxKey = none ∧ (t.link l.val).replay = [] ∧ t.faults.stat.getLsbD 49 = true
    (∃ t, exec (.laneLoss l) s = .next t ∧ down t) ∧
    ((s.link l.val).rxKey ≠ none → ∃ t, exec (.sealSilenceTimeout l) s = .next t ∧ down t) ∧
    ((s.link l.val).rxKey = none → exec (.sealSilenceTimeout l) s = .next s) ∧
    ((s.link l.val).replay ≠ [] → 16 ≤ (s.link l.val).replays → ∃ t, exec (.replayTimeout l) s = .next t ∧ down t) ∧
    ((s.link l.val).replay ≠ [] → (s.link l.val).replays < 16 → ∃ t, exec (.replayTimeout l) s = .next t ∧
      t.link l.val = { s.link l.val with replayAt := (s.link l.val).replay, replays := (s.link l.val).replays + 1 } ∧
      (∀ k, k ≠ l.val → t.link k = s.link k) ∧ OnlyChanges [.fabric] s t) ∧
    ((s.link l.val).replay = [] → exec (.replayTimeout l) s = .next s))) ∧
  ((∀ (l : Fin 18) (flit : Bytes) (s : State), isCtl flit 1 = true → (s.link l.val).isUp = true →
    ∃ t a b, exec (.echo l flit) s = .next t ∧ (s.link l.val).ctl = a ++ b ∧ (∀ f ∈ a, isCtl f 2 = true) ∧
      (∀ f, b.head? = some f → isCtl f 2 = false) ∧
      t.link l.val = { s.link l.val with ctl := a ++ [ctlFlit (leBytes 1 2 ++ slice flit 5 8)] ++ b } ∧
      (∀ k, k ≠ l.val → t.link k = s.link k) ∧ OnlyChanges [.fabric] s t) ∧
  (∀ (l : Fin 18) (flit : Bytes) (now : Word) (s : State), isCtl flit 2 = true → (s.link l.val).isUp = true →
    let x := s.link l.val
    let es := ((now - BitVec.ofNat 64 (leAt flit 5 8)).toNat :: x.echoes).take 8
    let top := es.foldl max 0
    (x.state = .measuring → es.length < 8 → ∃ t, exec (.echoReply l flit now) s = .next t ∧
      t.link l.val = { x with echoes := es } ∧ OnlyChanges [.fabric] s t) ∧
    (x.state = .measuring → es.length = 8 → x.rxKey = none → x.asmRec = none → x.record = [] →
      ∃ t, exec (.echoReply l flit now) s = .next t ∧ (t.link l.val).state = .waggle ∧ (t.link l.val).rtt = top ∧
        (t.link l.val).grant = grantOf x.rate top ∧
        (s.canWaggle = true → s.unitPassed (2 + quadrant l.val) = true →
          (t.link l.val).serial = x.serial + 1 ∧ (t.link l.val).record ≠ [] ∧ (t.link l.val).acked = false)) ∧
    (x.state = .service → es.length = 8 → ∃ t, exec (.echoReply l flit now) s = .next t ∧ (t.link l.val).rtt = top ∧
      (t.link l.val).state = .service)) ∧
  (∀ (l : Fin 18) (s : State), (s.link l.val).state = .service → s.power.failing = false → ∃ t, exec (.echoPeriodic l) s = .next t ∧
    t.link l.val = { s.link l.val with echoDue := (s.link l.val).echoDue + 1 } ∧ OnlyChanges [.fabric] s t))

/-- FLIT_SEND and SEAL_PERIODIC (R260, R262, R266, R271, R273, R275, R366): in each slot a port sends a queued echo reply, else a
seal that is due, else an idle flit that a test of its cipher units owes, else a queued control flit, else an echo that is
due, else a flit of a replay, else a message flit of the class whose turn it is, else the seal of an open run, else an idle
flit; each message flit and seal takes the next sequence number and is kept for replay. The spec orders the echo replies and
the seals; the rest of the order is the model's reading (DEDUCED, log entry 127). MESSAGE_FLIT_RECEIVE, SEAL_RECEIVE and
IDLE_FLIT_RECEIVE (R262, R265, R266, R270): a message flit in sequence is held for its seal and any other is discarded; a seal
that does not verify discards its run, asks for it again and raises source 50; one that does moves the sequence and the
counter on and releases what the run holds; an idle flit changes nothing. -/
def Obligations.FlitsGoOutAndRunsComeIn : Prop :=
  ((∀ (l : Fin 18) (now : Word) (s : State), (s.link l.val).txNext = none →
    let x := s.link l.val
    let sent (k : LinkKey) (t : State) : Prop :=
      let sl := x.sealHead ++ sealTag k x.txCtr.toNat x.txRun x.sealHead
      (t.link l.val).out = some sl ∧ (t.link l.val).txRun = [] ∧ (t.link l.val).sinceSeal = 0 ∧
        (t.link l.val).txSeq = x.txSeq + 1 ∧ (t.link l.val).replay = x.replay ++ [⟨x.txSeq, sl, []⟩]
    (∀ f, x.ctl.find? (isCtl · 2) = some f → ∃ t, exec (.flitSend l now) s = .next t ∧ (t.link l.val).out = some f ∧
      (t.link l.val).ctl = x.ctl.erase f ∧ (t.link l.val).txSeq = x.txSeq ∧ OnlyChanges [.fabric] s t) ∧
    (x.ctl.find? (isCtl · 2) = none →
      (∀ k, x.txKey = some k → x.sealDue = true → ∃ t, exec (.flitSend l now) s = .next t ∧ sent k t) ∧
      (x.sealDue = false → 0 < x.idleOwed → ∃ t, exec (.flitSend l now) s = .next t ∧ (t.link l.val).out = some idleFlit ∧
        (t.link l.val).idleOwed = x.idleOwed - 1 ∧ (t.link l.val).ctl = x.ctl ∧ (t.link l.val).txSeq = x.txSeq ∧
        OnlyChanges [.fabric] s t) ∧
      (x.sealDue = false → x.idleOwed = 0 →
        (∀ f r, x.ctl = f :: r → ∃ t, exec (.flitSend l now) s = .next t ∧ (t.link l.val).out = some f ∧
          (t.link l.val).ctl = r ∧ (t.link l.val).txSeq = x.txSeq ∧ OnlyChanges [.fabric] s t) ∧
        (x.ctl = [] → 0 < x.echoDue → ∃ t, exec (.flitSend l now) s = .next t ∧
          (t.link l.val).out = some (ctlFlit ([1] ++ leBytes 8 now.toNat)) ∧ (t.link l.val).echoDue = x.echoDue - 1 ∧
          (t.link l.val).txSeq = x.txSeq ∧ OnlyChanges [.fabric] s t) ∧
        (x.ctl = [] → x.echoDue = 0 →
          (∀ e r, x.replayAt = e :: r → ∃ t, exec (.flitSend l now) s = .next t ∧ (t.link l.val).out = some e.bytes ∧
            (t.link l.val).replayAt = r ∧ (t.link l.val).replay = x.replay ∧ (t.link l.val).txSeq = x.txSeq ∧
            OnlyChanges [.fabric] s t) ∧
          (x.replayAt = [] → x.txKey = none → ∃ t, exec (.flitSend l now) s = .next t ∧ (t.link l.val).out = some idleFlit ∧
            (t.link l.val).txSeq = x.txSeq ∧ OnlyChanges [.fabric] s t) ∧
          (∀ k, x.replayAt = [] → x.txKey = some k →
            (∀ c, x.nextClass s.faults.halted = some c → ∃ t f ms, exec (.flitSend l now) s = .next t ∧
              (t.link l.val).out = some f ∧ flKind f = 0 ∧ flSeq f = x.txSeq ∧ flClass f = c ∧
              (t.link l.val).txRun = x.txRun ++ [f] ∧ (t.link l.val).txSeq = x.txSeq + 1 ∧
              (t.link l.val).replay = x.replay ++ [⟨x.txSeq, f, ms⟩] ∧ (t.link l.val).txCr.sum + 1 = (x.txCr.take 6).sum) ∧
            (x.nextClass s.faults.halted = none → x.txRun ≠ [] → ∃ t, exec (.flitSend l now) s = .next t ∧ sent k t) ∧
            (x.nextClass s.faults.halted = none → x.txRun = [] → ∃ t, exec (.flitSend l now) s = .next t ∧
              (t.link l.val).out = some idleFlit ∧ (t.link l.val).txSeq = x.txSeq ∧ OnlyChanges [.fabric] s t)))))) ∧
  (∀ (l : Fin 18) (k : LinkKey) (s : State),
    let x := s.link l.val
    let sl := x.sealHead ++ sealTag k x.txCtr.toNat x.txRun x.sealHead
    x.txNext = none → x.txKey = some k → 63 ≤ x.sinceSeal →
    ∃ t, exec (.sealPeriodic l) s = .next t ∧ (t.link l.val).out = some sl ∧ (t.link l.val).txRun = [] ∧
      (t.link l.val).sinceSeal = 0 ∧ (t.link l.val).txSeq = x.txSeq + 1 ∧ (t.link l.val).replay = x.replay ++ [⟨x.txSeq, sl, []⟩])) ∧
  ((∀ (l : Fin 18) (flit : Bytes) (s : State),
    let x := s.link l.val
    let due := flit.length = 128 ∧ flKind flit = 0 ∧ x.rxKey ≠ none ∧ flSeq flit = x.rxSeq
    (due → ∃ t, exec (.messageFlitReceive l flit) s = .next t ∧
      t.link l.val = { x with rxRun := x.rxRun ++ [flit], rxSeq := x.rxSeq + 1 } ∧ OnlyChanges [.fabric] s t) ∧
    (¬ due → exec (.messageFlitReceive l flit) s = .next s)) ∧
  (∀ (l : Fin 18) (flit : Bytes) (s : State), ∃ t, exec (.idleFlitReceive l flit) s = .next t ∧ t = s) ∧
  (∀ (l : Fin 18) (flit : Bytes) (s : State),
    let x := s.link l.val
    let due := flit.length = 128 ∧ flKind flit = 1 ∧ x.rxKey ≠ none ∧ flSeq flit = x.rxSeq
    (¬ due → exec (.sealReceive l flit) s = .next s) ∧
    (due → x.verify flit = none → ∃ t, exec (.sealReceive l flit) s = .next t ∧ t.link l.val =
      { x with rxRun := [], rxSeq := x.rxSeq - BitVec.ofNat 12 x.rxRun.length, nak := true } ∧ t.faults.stat.getLsbD 50 = true) ∧
    (∀ k ctr how, due → x.verify flit = some (k, ctr, how) → bit (leAt flit 12 1) 1 = false →
      ∃ t, exec (.sealReceive l flit) s = .next t ∧ (t.link l.val).rxRun = [] ∧ (t.link l.val).rxSeq = x.rxSeq + 1 ∧
        (t.link l.val).rxKey = some k ∧ (t.link l.val).rxCtr = BitVec.ofNat 64 (ctr + 1) ∧
        (∀ f m rest, x.rxRun = [f] → x.rxPart.get [] (flClass f) = [] → x.rxPartIn.get [] (flClass f) = [] → flFirst f ≤ 124 →
          m.dst = s.inp.chipId →
          parseMsgs 16 ((runCrypt k ctr 0 (flBody f)).drop (flFirst f)) = (rest, [m], 0) →
          (t.link l.val).rxq = x.rxq ++ [(flClass f, { m with buf := [s.fabric.nextBuf] })] ∧ (t.link l.val).rxPart.get [] (flClass f) = rest))))

/-- WAGGLE_RECORD_PART, IDENTITY_PART, RECORD_ACKNOWLEDGEMENT, WAGGLE_REPEAT, WAGGLE_ACK_TIMEOUT, WAGGLE_RETRY, WAGGLE_RESEND and
REKEY (R269, R277, R278, R279): parts are put together and a whole record is acknowledged and judged: one that passes puts the
link into service, one that fails holds it with source 48; records not acknowledged are repeated and after 1 s fail check 1; a
held link is measured again; a changed record is sent again; the partner's answer to a rekey gives the new keys. -/
def Obligations.WaggleJudgesAndRepeats : Prop :=
  (∀ (l : Fin 18) (flit : Bytes) (s : State), (s.link l.val).isUp = true →
    let x := s.link l.val
    let chain : Link := { x with asmChain := some (takePart x.asmChain flit) }
    let record : Link := { x with asmRec := some (takePart x.asmRec flit) }
    let last := bit (leAt flit 5 1) 7
    let whole (y : Link) (again : Bool) : Prop := y.holdsRecord flit = true ∧ (x.holdsRecord flit = false ∨ again = true)
    (isCtl flit 4 = true → ¬ whole chain false → ∃ t, exec (.identityPart l flit) s = .next t ∧ t.link l.val = chain ∧
      OnlyChanges [.fabric] s t) ∧
    (isCtl flit 3 = true → ¬ whole record last → ∃ t, exec (.waggleRecordPart l flit) s = .next t ∧ t.link l.val = record ∧
      OnlyChanges [.fabric] s t) ∧
    (∀ i y r, (i = .identityPart l flit ∧ isCtl flit 4 = true ∧ y = chain ∧ whole y false) ∨
        (i = .waggleRecordPart l flit ∧ isCtl flit 3 = true ∧ y = record ∧ whole y last) → y.heldRecord = some r →
      let serial := BitVec.ofNat 64 (leAt r 24 8)
      let verdict := s.waggleCheck l.val r ((y.asmChain.bind Assembly.whole).getD [])
      (serial = x.judged → ∃ t, exec i s = .next t ∧ t.link l.val = { y with ctl := x.ctl ++ [ackFlit (leAt flit 8 4)] } ∧
        OnlyChanges [.fabric] s t) ∧
      (serial ≠ x.judged → x.state = .waggle → s.canWaggle = true → x.record ≠ [] → x.peerRec = [] →
        (∀ k, verdict = some k → ∃ t, exec i s = .next t ∧ (t.link l.val).state = .held ∧ t.faults.stat.getLsbD 48 = true) ∧
        (verdict = none → ∃ t, exec i s = .next t ∧ (t.link l.val).state = .service ∧
          (t.link l.val).partner = BitVec.ofNat 6 (leAt r 1 1) ∧ (t.link l.val).peerRec = r)))) ∧
  (∀ (l : Fin 18) (flit : Bytes) (s : State), isCtl flit 5 = true → (s.link l.val).record ≠ [] →
    leAt flit 8 4 = (s.link l.val).serial.toNat % 2 ^ 32 → ∃ t, exec (.recordAcknowledgement l flit) s = .next t ∧
      t.link l.val = { s.link l.val with acked := true } ∧ OnlyChanges [.fabric] s t) ∧
  (∀ (l : Fin 18) (s : State), (s.link l.val).record ≠ [] → (s.link l.val).acked = false →
    (∃ t, exec (.waggleRepeat l) s = .next t ∧
      t.link l.val = { s.link l.val with ctl := (s.link l.val).ctl ++ s.recordParts l.val } ∧ OnlyChanges [.fabric] s t) ∧
    ((s.link l.val).isUp = true → (s.link l.val).state ≠ .held → ∃ t, exec (.waggleAckTimeout l) s = .next t ∧
      t.link l.val = { s.link l.val with state := .held } ∧ t.faults.stat.getLsbD 48 = true)) ∧
  (∀ (l : Fin 18) (s : State), (s.link l.val).state = .held → ∃ t, exec (.waggleRetry l) s = .next t ∧
    t.link l.val = { s.link l.val with state := .measuring, echoes := [], echoDue := 8, judged := 0 } ∧ OnlyChanges [.fabric] s t) ∧
  (∀ (l : Fin 18) (s : State), (s.link l.val).state = .service → (s.link l.val).record ≠ [] → s.canWaggle = true →
    let same := leAt (s.link l.val).record 3 1 = s.wgState ∧ leAt (s.link l.val).record 8 8 = s.wgNeigh
    (same → exec (.waggleResend l) s = .next s) ∧
    (¬ same → ∃ t, exec (.waggleResend l) s = .next t ∧ (t.link l.val).serial = (s.link l.val).serial + 1 ∧
      (t.link l.val).acked = false ∧ leAt (t.link l.val).record 3 1 = s.wgState ∧ leAt (t.link l.val).record 8 8 = s.wgNeigh)) ∧
  (∀ (l : Fin 18) (r : Rekey) (c : Nat) (m : Msg) (rest : List (Nat × Msg)) (z : Bytes) (s : State),
    (s.link l.val).rekey = some r → r.answered = false → (s.link l.val).rxq = (c, m) :: rest → m.op = opRekey →
    let key := slice m.data 0 49
    let peer := (s.link l.val).partner
    let salt := pairSalt s.inp.chipId peer (pointEncode (pubKey r.priv)) key
    ecdh r.priv (pointDecode key) = some z → ∃ t, exec (.rekey l) s = .next t ∧
      (t.link l.val).txNext = some (directionKey z salt s.inp.chipId peer) ∧
      (t.link l.val).rxNext = some (directionKey z salt peer s.inp.chipId) ∧
      (t.link l.val).rekey = some { r with priv := 0, answered := true } ∧ (t.link l.val).rxq = rest ∧
      (∀ k, k ≠ l.val → t.link k = s.link k) ∧ OnlyChanges [.fabric] s t)

/-- WRITE, LID and READ (R282 to R285, R289, R290, R293, R294, R297): a released request that no check turns away enters the
serving frame, a LID is held for its count; one that a check refuses has no effect but the refusal of its group and the
REFUSE; the halted state refuses with 6; a partner not in service is queued. -/
def Obligations.RequestsAreCheckedThenServed : Prop :=
  (∀ (l : Fin 18) (k : Nat) (m : Msg) (rest : List (Nat × Msg)) (s : State), (s.link l.val).rxq = (k, m) :: rest →
    m.op = opWrite ∨ m.op = opLid ∨ m.op = opRead →
    let c : Instr := if m.op = opWrite then .write l else if m.op = opLid then .lid l else .read l
    let f := servingFrame m.src
    let x := s.rxGroup m.src m.group
    (∀ phys win, s.verdict m = .go phys win → m.op = opRead → ∃ t, exec c s = .next t ∧ (t.link l.val).rxq = rest ∧
      (t.frame f).fab = (s.frame f).fab ++ [⟨m, phys, m.tenant, win, none⟩] ∧ OnlyChanges [.frames, .fabric, .xlate] s t) ∧
    (∀ phys win n u, s.verdict m = .go phys win → s.takeFabSlot m = some (n, u) →
      let r : FabReq := ⟨m, phys, m.tenant, win, some n⟩
      (m.op = opWrite → ∃ t, exec c s = .next t ∧ (t.link l.val).rxq = rest ∧ (t.frame f).fab = (s.frame f).fab ++ [r] ∧
        t.rxGroup m.src m.group = { x with live := true, inFlight := x.inFlight + 1 } ∧
        OnlyChanges [.frames, .fabric, .faults, .xlate] s t) ∧
      (m.op = opLid → x.lidIssued = false → x.landed ≠ lidCount m.word → ∃ t, exec c s = .next t ∧ (t.link l.val).rxq = rest ∧
        (t.frame f).fab = (s.frame f).fab ∧ t.rxGroup m.src m.group = { x with live := true, lid := some r }) ∧
      (m.op = opLid → x.lidIssued = false → x.landed = lidCount m.word → m.len ≠ 0 → ∃ t, exec c s = .next t ∧
        (t.link l.val).rxq = rest ∧ (t.frame f).fab = (s.frame f).fab ++ [r] ∧ t.rxGroup m.src m.group =
          { x with live := true, lid := some r, lidIssued := true, inFlight := x.inFlight + 1 })) ∧
    (∀ reason, s.verdict m = .refuse reason → ∃ t, exec c s = .next t ∧ (t.link l.val).rxq = rest ∧
      (m.op ≠ opRead → (t.rxGroup m.src m.group).refused = true ∧ (t.rxGroup m.src m.group).lid = none) ∧
      (∀ q, s.routeSet m.src = [q] → ∃ a ∈ (t.link q).txq.get [] 3, a.op = opRefuse ∧ a.dst = m.src ∧ a.tag = m.tag ∧
        a.word = BitVec.ofNat 64 reason) ∧ t.tally.val = s.tally.val ∧ t.ctxs = s.ctxs) ∧
    (s.verdict m = .wait → rest = [] → exec c s = .next s) ∧
    (s.verdict m = .queue → ∃ t, exec c s = .next t ∧ (t.link l.val).rxq = rest ∧ (t.partner m.src).adm ≠ .unknown ∧
      OnlyChanges [.fabric] s t) ∧
    (s.faults.halted = true → s.verdict m = .refuse 6) ∧
    (s.faults.halted = false → s.fabricReady = false → s.verdict m = .notReady) ∧
    (s.faults.halted = false → s.fabricReady = true → ((s.partner m.src).inService = false → s.verdict m = .queue) ∧
      ((s.partner m.src).inService = true →
        (m.win = false → m.tenant = 0 ∨ s.tenantOpen m.tenant = false → s.verdict m = .refuse 1) ∧
        (m.win = true → s.windowOpen m = false → s.verdict m = .refuse 3) ∧
        (m.win = false → m.tenant ≠ 0 → s.tenantOpen m.tenant = true → s.inStackMap m.addr.toNat m.len = false →
          s.verdict m = .refuse 2))))

/-- LID_DATA_LANDED, GROUP_IDLE_TIMEOUT, ABANDON and RECEIVER_REQUEST_DROP (R293, R294, R296, R301): once a lid's data has landed
its increment is applied, held while the tally unit is off or has no clock (R323), and the group's counter is free; an idle
counter is freed; an abandoned group is refused and its lid dropped; a request not issued in time is dropped. READ_DATA,
LANDED, REFUSE, REMOTE_TIMEOUT and GROUP_NUMBER_REUSE (R289, R293, R296, R297, R298): the data fills the slot of its tag and
frees the tag, and data for an address that no read of its tag asked for is discarded; a landed group's number is free; a
refused or late request ends its group or read, also when a chip on the way refuses it; a number that rested is free. -/
def Obligations.RemoteGroupsAndReadsEnd : Prop :=
  ((∀ (chip : ChipNo) (g : BitVec 6) (r : FabReq) (s : State),
    let x := s.rxGroup chip g.toNat
    let w := r.msg.word
    x.lid = some r → x.lidIssued = true → x.inFlight = 0 → s.faults.halted = false →
    (lidEn w = true → s.tallyRuns = false → ∃ t, exec (.lidDataLanded chip g) s = .next t ∧ t.fabric = s.fabric ∧
      t.tally.val = s.tally.val ∧ t.tally.held = true ∧ OnlyChanges [.tally, .power] s t) ∧
    ((lidEn w = true → s.tallyRuns = true) → ∃ t, exec (.lidDataLanded chip g) s = .next t ∧ t.rxGroup chip g.toNat = {} ∧
      (lidEn w = false → t.tally = s.tally) ∧
      (lidEn w = true → s.tally.bars = [] → lidTally w ∉ s.tally.frozen → t.tally.val.get 0 (lidTally w) =
        BitVec.ofNat 64 (min ((s.tally.val.get 0 (lidTally w)).toNat + lidInc w) (2 ^ 64 - 1))) ∧
      (∀ q, s.routeSet r.msg.src = [q] → s.tally.bars = [] → t.faults.halted = false → ∃ a ∈ (t.link q).txq.get [] 3,
        a.op = opLanded ∧ a.dst = r.msg.src ∧ a.tag = r.msg.tag))) ∧
  (∀ (chip : ChipNo) (g : BitVec 6) (s : State),
    ((s.rxGroup chip g.toNat).live = true → ∃ t, exec (.groupIdleTimeout chip g) s = .next t ∧ t.rxGroup chip g.toNat = {} ∧
      OnlyChanges [.fabric, .frames] s t) ∧
    ((s.rxGroup chip g.toNat).live = false → exec (.groupIdleTimeout chip g) s = .next s)) ∧
  (∀ (l : Fin 18) (k : Nat) (m : Msg) (rest : List (Nat × Msg)) (s : State), (s.link l.val).rxq = (k, m) :: rest → m.op = opAbandon →
    ∃ t, exec (.abandon l) s = .next t ∧ (t.link l.val).rxq = rest ∧ OnlyChanges [.fabric, .frames] s t ∧
      ((s.rxGroup m.src m.group).live = true → (t.rxGroup m.src m.group).refused = true ∧ (t.rxGroup m.src m.group).lid = none ∧
        (t.rxGroup m.src m.group).landed = 0) ∧
      ((s.rxGroup m.src m.group).live = false → t.fabric.rxGroups = s.fabric.rxGroups ∧ t.frames = s.frames)) ∧
  (∀ (chip : ChipNo) (s : State),
    let f := servingFrame chip
    (∀ r, (s.frame f).fab.find? (fun r => r.msg.src == chip) = some r → ∃ t, exec (.receiverRequestDrop chip) s = .next t ∧
      (t.frame f).fab = (s.frame f).fab.erase r ∧ OnlyChanges [.fabric, .frames] s t) ∧
    (∀ g, (s.frame f).fab.find? (fun r => r.msg.src == chip) = none → (∀ l ∈ linkNos, (s.link l).rxq = []) → g < 64 →
      (s.rxGroup chip g).lid ≠ none → (s.rxGroup chip g).lidIssued = false →
      (∀ h, h < g → (s.rxGroup chip h).lid = none) → ∃ t, exec (.receiverRequestDrop chip) s = .next t ∧
        (t.rxGroup chip g).lid = none ∧ OnlyChanges [.fabric, .frames] s t))) ∧
  ((∀ (l : Fin 18) (k : Nat) (m q : Msg) (rest : List (Nat × Msg)) (s : State), (s.link l.val).rxq = (k, m) :: rest → m.op = opReadData →
    let x := s.txRead m.src m.tag.toNat
    let q₀ := s.slot x.frame x.slot
    (x.used = true → x.msg = some q → q.addr = m.addr → q₀.what ≠ .tag → q₀.flips = 0 → s.faults.flipPantry.get 0 x.frame = 0 →
      (s.work x.ctx x.work).isSome = true →
      ∃ t, exec (.readData l) s = .next t ∧ (t.link l.val).rxq = rest ∧ t.txRead m.src m.tag.toNat = {} ∧
        (t.slot x.frame x.slot).have_ = q₀.have_ ||| q₀.want ∧
        (∀ i, i < q.len → (t.slot x.frame x.slot).data.get 0 (q.addr.toNat % 256 + i) = m.data.getD i 0) ∧
        (∀ w, q₀.what = .data → (s.ctx x.ctx).works = [w] → w.id = x.work →
          (t.ctx x.ctx).works = [{ w with readsOut := w.readsOut - 1 }])) ∧
    (x.used = false ∨ (x.msg = some q ∧ q.addr ≠ m.addr) → ∃ t, exec (.readData l) s = .next t ∧ (t.link l.val).rxq = rest ∧
      t.txRead m.src m.tag.toNat = x ∧ OnlyChanges [.fabric] s t)) ∧
  (∀ (l : Fin 18) (k : Nat) (m : Msg) (rest : List (Nat × Msg)) (s : State), (s.link l.val).rxq = (k, m) :: rest → m.op = opLanded →
    let x := s.txGroup m.src m.group
    ∃ t, exec (.landed l) s = .next t ∧ (t.link l.val).rxq = rest ∧
      (x.used = true → x.closed = true → x.lidSent = true → t.txGroup m.src m.group = {}) ∧
      (x.used = false → t.fabric.txGroups = s.fabric.txGroups ∧ OnlyChanges [.fabric] s t)) ∧
  (∀ (l : Fin 18) (k : Nat) (m : Msg) (rest : List (Nat × Msg)) (s : State), (s.link l.val).rxq = (k, m) :: rest → m.op = opRefuse →
    let nine := bits m.word.toNat 7 0 = 9
    let ended (t : State) (c : ChipNo) : Prop :=
      let q : Msg := { m with src := c }
      (s.readNamed q = true → s.groupMsg q = none → (t.txRead c m.tag.toNat).used = false) ∧
      (s.readNamed q = false → (s.groupMsg q).isSome = true → (t.txGroup c m.tag.toNat).used = false)
    (¬ nine → ∃ t, exec (.refuse l) s = .next t ∧ (t.link l.val).rxq = rest ∧ ended t m.src) ∧
    (∀ c, nine → s.transitNamed m = some c → ∃ t, exec (.refuse l) s = .next t ∧ (t.link l.val).rxq = rest ∧ ended t c) ∧
    (nine → s.transitNamed m = none → ∃ t, exec (.refuse l) s = .next t ∧ (t.link l.val).rxq = rest ∧
      t.fabric.txGroups = s.fabric.txGroups ∧ t.fabric.txReads = s.fabric.txReads ∧ OnlyChanges [.fabric] s t)) ∧
  (∀ (chip : ChipNo) (tag : BitVec 10) (s : State),
    (tag.toNat < 64 → (s.txGroup chip tag.toNat).lidSent = true → ∃ t, exec (.remoteTimeout chip .group tag) s = .next t ∧
      (t.txGroup chip tag.toNat).used = false) ∧
    ((s.partner chip).out = [] → ∃ t, exec (.remoteTimeout chip .read tag) s = .next t ∧ (t.txRead chip tag.toNat).used = false) ∧
    ((s.partner chip).backing = true → ∃ t, exec (.remoteTimeout chip .notReady tag) s = .next t ∧
      ∀ r, r < 1024 → (t.txRead chip r).used = false) ∧
    ((s.partner chip).backing = false → exec (.remoteTimeout chip .notReady tag) s = .next s)) ∧
  (∀ (chip : ChipNo) (g : BitVec 6) (s : State), (s.txGroup chip g.toNat).cooling = true →
    ∃ t, exec (.groupNumberReuse chip g) s = .next t ∧ t.txGroup chip g.toNat = {} ∧
      (∀ h, h < 64 → h ≠ g.toNat → t.txGroup chip h = s.txGroup chip h) ∧ OnlyChanges [.fabric] s t))

/-- NOT_READY, NOT_READY_BACKOFF_END, CREDIT, CREDIT_RETURN_TIMER, PARTNER_ADMIT and PARTNER_RAMP (R283 to R285): a sender told
NOT_READY backs off with its wait doubled up to 1 ms and goes again after it; a credit resets the wait and lets requests go,
one credit each; unreturned credits go back; the head of the queue is admitted with 128 credits, which rise to 1,024.
TALLY_MESSAGE and KEEPER (R37, R342, R344): an arrive one above the child's last is counted and a release one above the last
is passed on with the release tally raised; a repeat of the last one taken has no effect; any other is discarded with source
45; the unit's clock is asked for first; a permitted relayed request becomes a verb in progress, one without permission ends
at once. -/
def Obligations.PartnersAreAdmittedAndHeard : Prop :=
  ((∀ (l : Fin 18) (k : Nat) (m : Msg) (rest : List (Nat × Msg)) (s : State), (s.link l.val).rxq = (k, m) :: rest →
    let p := s.partner m.src
    (m.op = opNotReady → ∃ t, exec (.notReady l) s = .next t ∧ (t.link l.val).rxq = rest ∧ (t.partner m.src).backing = true ∧
      (t.partner m.src).wait = min 1000 (2 * p.wait) ∧ (t.partner m.src).credits = 0 ∧
      (∀ q, s.readNamed m = false → s.groupMsg m = some q → (t.partner m.src).out = q :: p.out) ∧
      (∀ d, d ≠ m.src → t.partner d = s.partner d) ∧ OnlyChanges [.fabric] s t) ∧
    (m.op = opCredit → ∃ t, exec (.credit l) s = .next t ∧ (t.link l.val).rxq = rest ∧ (t.partner m.src).served = true ∧
      (t.partner m.src).wait = 1 ∧ (t.partner m.src).backing = false ∧
      (t.partner m.src).credits + p.out.length = p.credits + bits m.word.toNat 15 0 + (t.partner m.src).out.length ∧
      (∀ d, d ≠ m.src → t.partner d = s.partner d) ∧ OnlyChanges [.fabric] s t)) ∧
  (∀ (c : ChipNo) (s : State),
    let p := s.partner c
    (p.backing = true → p.ctlAgain = false → ∃ t, exec (.notReadyBackoffEnd c) s = .next t ∧ (t.partner c).backing = false ∧
      (∀ q r, p.out = q :: r → p.served = false → p.probing = false → s.faults.halted = false → s.remoteUp c = true →
        (t.partner c).out = r ∧ (t.partner c).probing = true) ∧ OnlyChanges [.fabric] s t) ∧
    (p.backing = false → exec (.notReadyBackoffEnd c) s = .next s) ∧
    (p.toReturn ≠ 0 → ∃ t, exec (.creditReturnTimer c) s = .next t ∧ t.partner c = { p with toReturn := 0 } ∧
      (∀ q, s.routeSet c = [q] → ∃ a ∈ (t.link q).txq.get [] 0, a.op = opCredit ∧ a.dst = c ∧ a.word = BitVec.ofNat 64 p.toReturn) ∧
      OnlyChanges [.fabric] s t) ∧
    (p.toReturn = 0 → exec (.creditReturnTimer c) s = .next s) ∧
    (s.fabricReady = true → s.faults.halted = false →
      (∀ rest, s.fabric.admitQ = c :: rest → ∃ t, exec .partnerAdmit s = .next t ∧ t.fabric.admitQ = rest ∧
        t.partner c = { p with adm := .ramping 0, granted := 128 } ∧ (t.partner c).inService = true ∧ OnlyChanges [.fabric] s t) ∧
      (∀ n g adm, (n, g, adm) ∈ [(0, 256, Admission.ramping 1), (1, 512, .ramping 2), (2, 768, .ramping 3), (3, 1024, .inService)] →
        p.adm = .ramping n → ∃ t, exec (.partnerRamp c) s = .next t ∧ t.partner c = { p with adm := adm, granted := g } ∧
          (∀ q, s.routeSet c = [q] → ∃ a ∈ (t.link q).txq.get [] 0, a.op = opCredit ∧ a.word = BitVec.ofNat 64 (g - p.granted)) ∧
          OnlyChanges [.fabric] s t)))) ∧
  ((∀ (l : Fin 18) (k : Nat) (m : Msg) (rest : List (Nat × Msg)) (s : State), (s.link l.val).rxq = (k, m) :: rest → m.op = opTally →
    s.fabricReady = true → s.faults.halted = false →
    let b := leAt m.data 1 1
    let ep := leAt m.data 8 8
    let x := s.barrier b
    let ok := b < 64 ∧ x.enabled = true ∧ m.tenant = x.tenant ∧ slice m.data 2 6 = zeros 6
    let up := leAt m.data 0 1 = 1 ∧ m.src.toNat ∈ x.children
    let down := leAt m.data 0 1 = 2 ∧ x.root = false ∧ x.parent = m.src
    let last := x.lastFrom (leAt m.data 0 1) m.src
    let again := b < 64 ∧ ep ≠ 0 ∧ ep = last
    (s.tallyOn = true → s.clockOn 16 = false → rest = [] → ∃ t, exec (.tallyMessage l) s = .next t ∧ OnlyChanges [.power] s t ∧
      (s.power.clkAck.getLsbD 16 = false → t.power.clkReq.getLsbD 16 = true)) ∧
    ((s.tallyOn = true → s.clockOn 16 = true) →
      (ok → up → ep = x.childRep.get 0 m.src.toNat + 1 → ∃ t, exec (.tallyMessage l) s = .next t ∧ (t.link l.val).rxq = rest ∧
        (t.barrier b).childRep.get 0 m.src.toNat = ep) ∧
      (ok → down → ep = x.released.toNat + 1 → ∃ t, exec (.tallyMessage l) s = .next t ∧ (t.link l.val).rxq = rest ∧
        (t.barrier b).released = BitVec.ofNat 31 ep ∧
        ((∀ d, d ≠ b → (s.barrier d).enabled = false) → x.release ∉ s.tally.frozen → t.tally.val.get 0 x.release =
          BitVec.ofNat 64 (min ((s.tally.val.get 0 x.release).toNat + 1) (2 ^ 64 - 1)))) ∧
      (again → ∃ t, exec (.tallyMessage l) s = .next t ∧ (t.link l.val).rxq = rest ∧ t.tally = s.tally ∧
        OnlyChanges [.fabric] s t) ∧
      (¬ again → ¬ (ok ∧ (up ∨ down) ∧ ep = last + 1) → ∃ t, exec (.tallyMessage l) s = .next t ∧ (t.link l.val).rxq = rest ∧
        t.tally = s.tally ∧ t.faults.stat.getLsbD 45 = true))) ∧
  (∀ (l : Fin 18) (k : Nat) (m : Msg) (rest : List (Nat × Msg)) (s : State), (s.link l.val).rxq = (k, m) :: rest → m.op = opKeeper →
    let req := slice m.data 0 128
    let idle := s.fabricReady = true ∧ s.keeperReady = true ∧ s.keeper.activating = false ∧ s.verb (.relay m.src) = none ∧
      s.keeper.relayMemo = []
    (m.tag ≠ 1 → idle → s.keeper.relayAllow.getLsbD m.src.toNat = true → reqRelay req = false →
      s.acceptFault (.relay m.src) req = none → ∃ t, exec (.keeper l) s = .next t ∧ (t.link l.val).rxq = rest ∧
        ∃ v ∈ t.keeper.verbs, v.origin = .relay m.src ∧ v.req = req ∧ v.stage = .run) ∧
    (m.tag ≠ 1 → idle → s.keeper.relayAllow.getLsbD m.src.toNat = false → ∃ t, exec (.keeper l) s = .next t ∧
      (t.link l.val).rxq = rest ∧ t.keeper.verbs.all (fun v => v.origin ≠ .relay m.src) = true) ∧
    (∀ v b, m.tag = 1 → s.keeper.verbs = [v] → v.stage = .relayed → reqTarget v.req = m.src → slice v.req 4 4 = slice m.data 4 4 →
      v.origin = .mbox b → (s.mbox b.val).rebind = none → ∃ t, exec (.keeper l) s = .next t ∧ (t.link l.val).rxq = rest ∧
        t.keeper.verbs = [] ∧ (t.mbox b.val).done = true ∧ (t.mbox b.val).busy = false) ∧
    (m.tag = 1 → s.keeper.verbs = [] → ∃ t, exec (.keeper l) s = .next t ∧ (t.link l.val).rxq = rest ∧ t.keeper = s.keeper ∧
      OnlyChanges [.fabric] s t)))

/-- FLT_STAT (R375): a raising of source n sets bit n whatever the severity, here by injection with the factory strap; a write of
1 clears the bit, except when source n raises in the same cycle, in which case the bit stays set. -/
def Obligations.FaultStatusBits : Prop :=
  (∀ (c : FaultCap) (ev : Option EvRec) (quiet : Bool) (n : Nat) (s : State), n < 64 →
    (s.raiseWith c ev quiet).faults.stat.getLsbD n = (s.faults.stat.getLsbD n || decide (n = c.src % 64))) ∧
  (∀ (w : BitVec 32) (s : State), s.inp.ftest = true → s.cpAwake = true → injectMode w = 0 →
    ∃ t, exec (.fltInjectCollector w) s = .next t ∧
      ∀ n, n < 64 → t.faults.stat.getLsbD n = (s.faults.stat.getLsbD n || decide (n = bits w.toNat 5 0))) ∧
  (∀ (w raised : Word) (s : State), s.cpAwake = true → ∃ t, exec (.fltStatClear w raised) s = .next t ∧
    (∀ n, n < 64 → t.faults.stat.getLsbD n = (s.faults.stat.getLsbD n && !(w.getLsbD n && !raised.getLsbD n))) ∧
    t.faults.cap0 = s.faults.cap0 ∧ t.faults.merges = s.faults.merges ∧ t.faults.corr = s.faults.corr ∧ OnlyChanges [.faults] s t)

/-- Merging and counting (R382): a recoverable or fatal fault raised while FC_VALID is 1 merges into the capture, which stays as
it is: its bit is set, FM_COUNT rises by 1 and saturates, its reactions and its event take place as for any fault, and a fatal
one still halts the engine; correctable and ignored faults never merge. Of faults latched in one always-on cycle the lowest
source is the captured one (R381; that equal FC_TIME is one cycle is the model's reading, DEDUCED, log entry 124). FLT_CORR counts the
correctable faults, and a read returns and clears it. Beside it: the first such fault is captured with the powered time, an
ignored one only sets its bit, an injection in mode 0 raises its source, and clearing FC_VALID clears the merges. -/
def Obligations.FaultsAreCapturedMergedAndCounted : Prop :=
  (∀ (c : FaultCap) (s : State), c.src < 64 →
    let sev := s.severity c.src
    let cfg := s.fltCfg c.src
    let lowest := s.faults.outranks c.src s.ptime = true
    let t := s.raise c
    (lowest ↔ s.faults.valid = true ∧ s.faults.cap2 = s.ptime ∧ c.src < bits s.faults.cap0.toNat 5 0) ∧
    t.faults.stat.getLsbD c.src = true ∧ t.ctxs = s.ctxs ∧ t.tally = s.tally ∧ t.fabric = s.fabric ∧ t.faults.cfg = s.faults.cfg ∧
      (sev = 0 → t = { s with faults := { s.faults with stat := t.faults.stat } }) ∧
      (sev = 1 → t.faults.corr = satAdd s.faults.corr 1) ∧ (sev ≠ 1 → t.faults.corr = s.faults.corr) ∧
      (sev < 2 → t.faults.merges = s.faults.merges ∧ t.faults.mergeSat = s.faults.mergeSat) ∧
      (sev < 2 ∨ (s.faults.valid = true ∧ ¬ lowest) →
        t.faults.cap0 = s.faults.cap0 ∧ t.faults.cap1 = s.faults.cap1 ∧ t.faults.cap2 = s.faults.cap2) ∧
      (2 ≤ sev → s.faults.valid = false ∨ lowest → t.faults.cap0 = cap0Word c true false ∧ t.faults.cap1 = cap1Word c ∧
        t.faults.cap2 = (if c.noTime then 0 else s.ptime)) ∧
      (s.faults.valid = false → t.faults.merges = s.faults.merges) ∧
      (2 ≤ sev → s.faults.valid = true → t.faults.merges = satAdd s.faults.merges 1 ∧
        (t.faults.mergeSat = true ↔ s.faults.mergeSat = true ∨ s.faults.merges = 0xFFFF)) ∧
      (1 ≤ sev → (cfg.getLsbD 4 = true → t.faultIrq = true) ∧ (cfg.getLsbD 5 = true → t.faultNmi = true) ∧
        (cfg.getLsbD 6 = true → s.faults.brstRun = false → t.faults.brst = true) ∧ (cfg.getLsbD 7 = true → t.faults.crst = true) ∧
        (cfg.getLsbD 8 = true → t.faults.pinLow = true)) ∧
      (1 ≤ sev → s.recd.queue.length < 64 → ∃ e,
        t.recd.queue = (if 2 ≤ sev ∧ lowest then s.recordMerged.recd.queue else s.recd.queue) ++ [e] ∧ e.src = BitVec.ofNat 8 c.src ∧
        e.sev = BitVec.ofNat 2 sev) ∧
      (2 ≤ sev → t.recd.flushAgain = true) ∧
      (t.faults.halted = true ↔ s.faults.halted = true ∨ sev = 3) ∧
      (sev = 3 → ∀ f ∈ frameNos, (t.frame f).draining = true ∨ (t.frame f).stopped = true) ∧ (sev ≠ 3 → t.frames = s.frames)) ∧
  (∀ (w : BitVec 32) (s : State), s.inp.ftest = true → s.cpAwake = true → injectMode w = 0 →
    exec (.fltInjectCollector w) s = .next (s.raise { src := bits w.toNat 5 0, mkind := 7, space := 0, noTime := true })) ∧
  (∀ (s : State),
    (s.cpAwake = true → ∃ t, exec .fltCorrRead s = .next t ∧ t.regs.reply = BitVec.ofNat 64 s.faults.corr.toNat ∧
      t.regs.replyErr = false ∧ t.faults = { s.faults with corr := 0 } ∧ OnlyChanges [.faults, .regs] s t) ∧
    (s.cpAwake = false → ∃ t, exec .fltCorrRead s = .next t ∧ t.regs.reply = 0 ∧ OnlyChanges [.regs] s t)) ∧
  (∀ (w : Word) (s : State), s.cpAwake = true →
    (w.getLsbD 6 = true → ∃ t, exec (.fcValidClear w) s = .next t ∧ t.faults.valid = false ∧ t.faults.merges = 0 ∧
      t.faults.mergeSat = false ∧ t.faults.stat = s.faults.stat ∧ t.faults.cap1 = s.faults.cap1 ∧ OnlyChanges [.faults] s t) ∧
    (w.getLsbD 6 = false → exec (.fcValidClear w) s = .next s))

/-- EP_RELEASE, ERR_PIN_MINIMUM_END, FRAME_RESTART, FLT_INJECT_SINGLE_FLIP, FLT_INJECT_DOUBLE_FLIP and FLT_INJECT_COLLECTOR (R384,
R386, R387): a held pin is released, during the minimum at its end; after it a pin is held or goes high; a stopped frame whose
bit is clear and whose drain has ended returns to idle, any other write is ignored with source 61; flips wait for the next
write of the memory named; without the strap an injection is ignored with source 61. -/
def Obligations.FaultRegistersAct : Prop :=
  (∀ (w : BitVec 32) (s : State), s.cpAwake = true → w.getLsbD 1 = true →
    let f := s.faults
    ∃ t, exec (.epRelease w) s = .next t ∧ t.faults.pinHold = w.getLsbD 0 ∧ t.faults.pinForce = w.getLsbD 2 ∧
      (f.pinLow = true → f.pinMin = false → t.faults.pinLow = false) ∧
      (f.pinLow = true → f.pinMin = true → t.faults.pinLow = true ∧ t.faults.pinMin = true ∧ t.faults.pinRelease = true) ∧
      t.faults.stat = f.stat ∧ OnlyChanges [.faults] s t) ∧
  (∀ (s : State),
    let f := s.faults
    (f.pinMin = true → ∃ t, exec .errPinMinimumEnd s = .next t ∧
      t.faults = { f with pinMin := false, pinRelease := false, pinLow := f.pinHold && !f.pinRelease } ∧ OnlyChanges [.faults] s t) ∧
    (f.pinMin = false → exec .errPinMinimumEnd s = .next s)) ∧
  (∀ (f : Fin 16) (s : State), s.cpAwake = true → s.faults.halted = false →
    let w : BitVec 32 := BitVec.ofNat 32 (2 ^ f.val)
    let may := (s.frame f.val).stopped = true ∧ s.faults.stat.getLsbD f.val = false ∧ (s.frame f.val).draining = false
    (may → ∃ t, exec (.frameRestart w) s = .next t ∧ (t.frame f.val).stopped = false ∧ (t.frame f.val).state = .idle ∧
      (∀ g, g ≠ f.val → t.frame g = s.frame g) ∧ OnlyChanges [.frames, .power] s t) ∧
    (¬ may → ∃ t, exec (.frameRestart w) s = .next t ∧ t.faults.stat.getLsbD 61 = true ∧ t.power = s.power ∧
      (s.severity 61 ≠ 3 → t.frames = s.frames))) ∧
  (∀ (w : BitVec 32) (s : State), s.cpAwake = true →
    let src := bits w.toNat 5 0
    let inject : Instr := if injectMode w = 1 then .fltInjectSingleFlip w else .fltInjectDoubleFlip w
    (injectMode w = 1 ∨ injectMode w = 2 →
      (s.inp.ftest = true → (16 ≤ src → src ≤ 32 → ∃ t, exec inject s = .next t ∧ t.faults = { s.faults with
          flipPantry := s.faults.flipPantry.set 0 (bits w.toNat 19 16) (injectMode w) } ∧ OnlyChanges [.faults] s t) ∧
        (src = 33 ∨ src = 34 → ∃ t, exec inject s = .next t ∧ t.faults = { s.faults with flipCtx := injectMode w } ∧ OnlyChanges [.faults] s t) ∧
        (src = 35 ∨ src = 36 → ∃ t, exec inject s = .next t ∧ t.faults = { s.faults with flipKeeper := injectMode w } ∧ OnlyChanges [.faults] s t) ∧
        (src = 37 ∨ src = 38 → ∃ t, exec inject s = .next t ∧ t.faults = { s.faults with flipTable := injectMode w } ∧ OnlyChanges [.faults] s t) ∧
        (src < 16 ∨ 38 < src → ∃ t, exec inject s = .next t ∧ t.faults.stat.getLsbD 61 = true ∧ t.faults.flipPantry = s.faults.flipPantry)) ∧
      (s.inp.ftest = false → ∃ t, exec inject s = .next t ∧ t.faults.stat.getLsbD 61 = true ∧ t.faults.flipPantry = s.faults.flipPantry ∧
        t.faults.flipCtx = s.faults.flipCtx ∧ t.faults.flipKeeper = s.faults.flipKeeper ∧ t.faults.flipTable = s.faults.flipTable)) ∧
    (injectMode w = 0 → s.inp.ftest = false → ∃ t, exec (.fltInjectCollector w) s = .next t ∧ t.faults.stat.getLsbD 61 = true))

/-- AO_RST_N, BLK_RST_N and BLOCK_RESET_REACTION (R379, R380, R413, R426, R439): the power-up of the always-on domain leaves reset
values, with domain 64 and the keeper clock requested; a block reset keeps the fault status, the capture, the recorder's
contents and powered time, and closes every context and swarm and takes every link down; a chip reset asked for drives
CHIP_RST_REQ_N. -/
def Obligations.ResetsKeepAndLose : Prop :=
  (∀ (i : StaticIn) (s : State), ∃ t, exec (.aoRstN i) s = .next t ∧ t.ptime = 0 ∧ t.ctxs = [] ∧ t.swarms = [] ∧ t.mboxes = [] ∧
    t.tally = {} ∧ t.fabric = {} ∧ t.keeper.phase = .alwaysOn ∧ t.power.req.getLsbD 64 = true ∧ t.power.clkReq.getLsbD 21 = true ∧
    t.power.ack = 0 ∧ t.recd.scanning = true ∧ t.recd.ring = [] ∧ t.inp = takenInputs i ∧ t.pending = s.pending ∧
    ((∀ p, p < 64 → (∃ e, i.rdCr.find? (fun e => e.1 = p) = some e ∧ e.2 ≠ 0) ∧
      (∃ e, i.wrCr.find? (fun e => e.1 = p) = some e ∧ e.2 ≠ 0)) → 16 ≤ i.spadLog2.toNat → i.spadLog2.toNat ≤ 32 →
      i.shcMib ≠ 0 → t.faults = {})) ∧
  (∀ (i : StaticIn) (s : State),
    let kept (t : State) := t.ptime = s.ptime ∧ t.recd.ring = s.recd.ring ∧ t.recd.head = s.recd.head ∧
      t.faults.stat &&& s.faults.stat = s.faults.stat ∧ (s.faults.valid = true → s.faults.cap2 ≠ s.ptime → t.faults.cap0 = s.faults.cap0 ∧
      t.faults.cap1 = s.faults.cap1 ∧ t.faults.cap2 = s.faults.cap2) ∧ t.ctxs = [] ∧ t.swarms = [] ∧ t.fabric = {} ∧ t.tally = {} ∧
      t.ksets = [] ∧ t.mods = [] ∧ t.keeper.verbs = [] ∧ t.faults.brstRun = true ∧ t.faults.brst = false ∧ t.power.ack = s.power.ack ∧
      t.pending = s.pending
    (s.keeper.phase ≠ .off → ∃ t, exec (.blkRstN i) s = .next t ∧ kept t ∧ t.faults.rstReq = false) ∧
    (s.keeper.phase = .off → exec (.blkRstN i) s = .next s) ∧
    (s.faults.brst = true → ∃ t, exec .blockResetReaction s = .next t ∧ kept t ∧
      t.faults.rstReq = (s.faults.rstReq || s.faults.crst)) ∧
    (s.faults.brst = false → s.faults.crst = true → ∃ t, exec .blockResetReaction s = .next t ∧
      t.faults = { s.faults with crst := false, rstReq := true } ∧ OnlyChanges [.faults] s t) ∧
    (s.faults.brst = false → s.faults.crst = false → exec .blockResetReaction s = .next s))

/-- REGISTER_WRITE, CONTROL_PORT_REFUSED, KNOCK_DROP_READ, SMOKER_STAT_READ, SNAP_STAT_READ and AF_CLEAR (R209, R225, R376, R395,
R401, R412, R436, R456, R465 to R467, R473): a written register reads back the bits it holds; a read-only register ignores a
write; an access that no register takes raises source 61 and a read of it answers an error; asleep, writes outside the always-
on registers do nothing; the registers that clear on a read answer and clear their counts. -/
def Obligations.RegisterAccessesAct : Prop :=
  (∀ (w : Word) (s : State), s.cpAwake = true → s.keeper.phase ≠ .off →
    (∀ off mask, (off, mask) ∈ [(0x31000, 0xFFFFFFFF), (0x31030, 0x00FFFFFFFFFFFF1F), (0x32000, 0x00070FFF03FF3FFF)] →
      ∃ t, exec (.registerWrite (BitVec.ofNat 24 off) 0xFF w) s = .next t ∧
        t.readReg off = some (8, (w &&& BitVec.ofNat 64 mask).toNat) ∧ t.faults = s.faults) ∧
    (∀ off mask, (off, mask) ∈ [(0x30008, 0x3F), (0x31020, 0xFFFFFF07), (0x32008, 0xFFFF0003), (0x33000, 0xFFFFFFFF)] →
      ∃ t, exec (.registerWrite (BitVec.ofNat 24 off) 0x0F w) s = .next t ∧
        t.readReg off = some (4, (w &&& BitVec.ofNat 64 mask).toNat)) ∧
    (∀ off mask, (off, mask) ∈ [(0x31024, 0xFFFF), (0x3200C, 0x7FF)] →
      ∃ t, exec (.registerWrite (BitVec.ofNat 24 off) 0xF0 w) s = .next t ∧
        t.readReg off = some (4, ((w >>> 32) &&& BitVec.ofNat 64 mask).toNat) ∧ t.faults = s.faults) ∧
    (∀ off, off ∈ [0x00000, 0x00008, 0x00010, 0x30018, 0x30020, 0x31008, 0x31010, 0x31018, 0x40000, 0x40020, 0x40028, 0x40030, 0x40038] →
      exec (.registerWrite (BitVec.ofNat 24 off) 0xFF w) s = .next s) ∧
    (let n := s.faults.sel.toNat
     let v : BitVec 9 := (w >>> 32).setWidth 9 &&& 0x1F3
     ∃ t, exec (.registerWrite 0x30008 0xF0 w) s = .next t ∧
      ((n ≠ 47 ∧ n ≠ 57) ∨ 2 ≤ bits v.toNat 1 0 → t.fltCfg n = v) ∧ (n = 47 ∨ n = 57 → 2 ≤ t.severity n) ∧
      (∀ k, k ≠ n → t.fltCfg k = s.fltCfg k) ∧ OnlyChanges [.faults] s t)) ∧
  (∀ (off : BitVec 24) (strobe : BitVec 8) (w : Word) (s : State), s.keeper.phase ≠ .off → s.accessOk (slotOf off) strobe = false →
    isKnock (slotOf off) = false →
    (∃ t, exec (.registerWrite off strobe w) s = .next t ∧ t.faults.stat.getLsbD 61 = true ∧ t.regs = s.regs ∧ t.ctxs = s.ctxs) ∧
    (∀ init, ∃ t, exec (.controlPortRefused false off strobe init) s = .next t ∧ t.faults.stat.getLsbD 61 = true ∧
      t.regs.replyErr = true ∧ t.regs.reply = 0 ∧ t.ctxs = s.ctxs)) ∧
  (∀ (off : BitVec 24) (strobe : BitVec 8) (w : Word) (s : State), s.cpAwake = false → slotOf off < 0x40000 →
    s.accessOk (slotOf off) strobe = true → exec (.registerWrite off strobe w) s = .next s) ∧
  (∀ (s : State),
    (s.cpAwake = true → (∃ t, exec .knockDropRead s = .next t ∧ t.regs = { s.regs with
        reply := BitVec.ofNat 64 s.rdKnockDrop, replyErr := false, knockDrop := { s.regs.knockDrop with count := 0 } } ∧
        OnlyChanges [.regs] s t) ∧
      (∃ t, exec .smokerStatRead s = .next t ∧ t.regs.reply = BitVec.ofNat 64 s.rdSmokerStat ∧
        t.power = { s.power with throtUs := 0 } ∧ OnlyChanges [.regs, .power] s t)) ∧
    (s.cpAwake = false → ∃ t, t.regs.reply = 0 ∧ t.regs.knockDrop = s.regs.knockDrop ∧ OnlyChanges [.regs] s t ∧
      exec .knockDropRead s = .next t ∧ exec .smokerStatRead s = .next t) ∧
    ∃ t, exec .snapStatRead s = .next t ∧ t.regs.reply = BitVec.ofNat 64 s.rdSnapStat ∧ t.snap = { s.snap with dropped := 0 } ∧
      OnlyChanges [.regs, .snap] s t) ∧
  (∀ (w : BitVec 32) (s : State), s.cpAwake = true →
    let f := s.regs.arbFrame.toNat
    let r := s.regs.arbReq.toNat
    let up := (s.frame f).state = .run ∨ (s.frame f).state = .idle
    (w.getLsbD 8 = true → up → ∃ t, exec (.afClear w) s = .next t ∧ (t.frame f).stats.get {} r = {} ∧
      (∀ k, k ≠ r → (t.frame f).stats.get {} k = (s.frame f).stats.get {} k) ∧ (∀ g, g ≠ f → t.frame g = s.frame g) ∧
      OnlyChanges [.frames] s t) ∧
    (w.getLsbD 8 = false ∨ ¬ up → exec (.afClear w) s = .next s))

/-- PWR_ACK, CLK_ACK, PWR_RET_ACK, HANDSHAKE_TIMEOUT, WAKE_REQ, PWR_WAKE and PWR_FAIL_N (R323, R390, R399, R403, R423, R441, R470,
R474): an acknowledgement is taken only as the answer to its request; the tally unit powers up with every tally at zero, and
the second level of translations is empty whenever its domain has gone up or down; a request that is not granted raises source
58 and stays; waking from asleep asks for domain 64 and the keeper clock; a power failure raises source 57, asks for a flush
and ends background work. -/
def Obligations.PowerRequestsAreAnswered : Prop :=
  (∀ (d : Fin 65) (up : Bool) (s : State),
    let req := s.power.req.getLsbD d.val
    let ack := s.power.ack.getLsbD d.val
    (req = up → ack = !up → ∃ t, exec (.pwrAck d up) s = .next t ∧
      (∀ k, k < 65 → t.power.ack.getLsbD k = if k = d.val then up else s.power.ack.getLsbD k) ∧
      (d.val = 61 → up = true → s.clockOn 16 = false ∨ s.tally.heldOps = [] → t.tally.val = [] ∧ t.tally.frozen = [] ∧ t.tally.slots = [] ∧
        t.tally.lentCores = [] ∧ ∀ c, (t.tally.credVal.get {} c).under = false) ∧
      (d.val = 64 → up = true → t.power.pkWake = false) ∧ (d.val = 56 → t.xlate.l2 = []) ∧
      (d.val ≠ 62 → d.val ≠ 63 → t.ctxs = s.ctxs)) ∧
    (req ≠ up ∨ ack = up → exec (.pwrAck d up) s = .next s)) ∧
  (∀ (i : Fin 22) (up : Bool) (s : State),
    (s.power.clkReq.getLsbD i.val = up → s.power.clkAck.getLsbD i.val = !up → ∃ t, exec (.clkAck i up) s = .next t ∧
      (∀ k, k < 22 → t.power.clkAck.getLsbD k = if k = i.val then up else s.power.clkAck.getLsbD k) ∧ t.ctxs = s.ctxs ∧
      (i.val ≠ 16 ∨ up = false ∨ s.tally.heldOps = [] → t.tally = s.tally)) ∧
    (s.power.clkReq.getLsbD i.val ≠ up ∨ s.power.clkAck.getLsbD i.val = up → exec (.clkAck i up) s = .next s)) ∧
  (∀ (d : Fin 48) (up : Bool) (s : State),
    (s.power.ret.getLsbD d.val = up → s.power.retAck.getLsbD d.val = !up → ∃ t, exec (.pwrRetAck d up) s = .next t ∧
      (∀ k, k < 48 → t.power.retAck.getLsbD k = if k = d.val then up else s.power.retAck.getLsbD k) ∧ t.ctxs = s.ctxs) ∧
    (s.power.ret.getLsbD d.val ≠ up ∨ s.power.retAck.getLsbD d.val = up → exec (.pwrRetAck d up) s = .next s)) ∧
  (∀ (clk : Bool) (n : Fin 66) (s : State),
    let waits := if clk = true then s.power.clkReq.getLsbD n.val = true ∧ s.power.clkAck.getLsbD n.val = false
                 else s.power.req.getLsbD n.val = true ∧ s.power.ack.getLsbD n.val = false
    (waits → ∃ t, exec (.handshakeTimeout clk n) s = .next t ∧ t.faults.stat.getLsbD 58 = true ∧ t.power = s.power) ∧
    (¬ waits → exec (.handshakeTimeout clk n) s = .next s)) ∧
  (∀ (w : BitVec 32) (s : State),
    let awake (t : State) := t.power.asleep = false ∧ (s.power.ack.getLsbD 64 = false → t.power.req.getLsbD 64 = true) ∧
      (s.power.clkAck.getLsbD 21 = false → t.power.clkReq.getLsbD 21 = true) ∧ OnlyChanges [.power] s t
    (s.power.asleep = true → (∃ t, exec .wakeReq s = .next t ∧ awake t ∧ t.power.pkWake = s.power.pkWake) ∧
      (w.getLsbD 0 = true → ∃ t, exec (.pwrWake w) s = .next t ∧ awake t ∧ t.power.pkWake = true)) ∧
    (s.power.asleep = false → exec .wakeReq s = .next s) ∧
    (s.power.asleep = false ∨ w.getLsbD 0 = false → exec (.pwrWake w) s = .next s)) ∧
  (∀ (s : State), s.keeper.phase ≠ .off → ∃ t, exec .pwrFailN s = .next t ∧ t.faults.stat.getLsbD 57 = true ∧
    t.recd.flushAgain = true ∧ t.power = { s.power with failing := true } ∧ t.ctxs = s.ctxs)

/-- FRAME_DEMAND_WAKE, FRAME_RUN_TO_IDLE, FRAME_IDLE_TO_NAP and FRAME_NAP_TO_OFF (R356, R394, R395, R397, R441): demand asks for
the frame's domains and clock, and with all of them granted the frame runs; without demand it is lowered by its policy; off,
its pantry, its translations and FP_SCALES are cleared. -/
def Obligations.FramesFollowTheirDemand : Prop :=
  (∀ (f : Fin 16) (s : State),
    let x := s.frame f.val
    let ds := frameDomains f.val
    let only (t : State) := (∀ g, g ≠ f.val → t.frame g = s.frame g) ∧ OnlyChanges [.frames, .power] s t
    (x.state ≠ .run → s.frameDemand f.val = true → s.domainOn 64 = true →
      (ds.all s.domainOn = true → (∀ d ∈ ds, s.power.ret.getLsbD d = false ∧ s.power.retAck.getLsbD d = false) →
        s.clockOn f.val = true → ∃ t, exec (.frameDemandWake f) s = .next t ∧ (t.frame f.val).state = .run ∧
          (t.frame f.val).waking = false ∧ (t.frame f.val).slots = x.slots ∧ only t) ∧
      (ds.all s.domainOn = false → ∃ t, exec (.frameDemandWake f) s = .next t ∧ t.frame f.val = { x with waking := true } ∧
        (∀ d ∈ ds, s.power.ack.getLsbD d = false → t.power.req.getLsbD d = true) ∧ only t)) ∧
    (x.state = .run → s.frameDemand f.val = false → ∃ t, exec (.frameRunToIdle f) s = .next t ∧
      t.frame f.val = { x with state := .idle } ∧ (s.power.clkAck.getLsbD f.val = true → t.power.clkReq.getLsbD f.val = false) ∧
      only t) ∧
    (x.state = .idle → x.waking = false → 2 ≤ x.policy.toNat → s.frameDemand f.val = false → ds.all s.domainOn = true →
      ∃ t, exec (.frameIdleToNap f) s = .next t ∧ t.frame f.val = { x with state := .nap } ∧
        (∀ d ∈ ds, s.power.retAck.getLsbD d = false → t.power.ret.getLsbD d = true) ∧ only t) ∧
    (x.state = .nap → x.waking = false → x.policy = 3 → s.frameDemand f.val = false → ∃ t, exec (.frameNapToOff f) s = .next t ∧
      (t.frame f.val).state = .off ∧ (t.frame f.val).slots = [] ∧ (t.frame f.val).tlb = [] ∧ (t.frame f.val).scales = false ∧
      (t.frame f.val).scaleRegs = [] ∧ (∀ d ∈ ds, s.power.ack.getLsbD d = true → t.power.req.getLsbD d = false) ∧ only t) ∧
    (s.frameDemand f.val = true → exec (.frameRunToIdle f) s = .next s ∧ exec (.frameIdleToNap f) s = .next s ∧
      exec (.frameNapToOff f) s = .next s) ∧
    (s.frameDemand f.val = false → exec (.frameDemandWake f) s = .next s))

/-- SUPPLY_WARNING, SUPPLY_DEEP, SUPPLY_ABOVE_WARNING, THROTTLE_ESCALATE, THROTTLE_RELEASE and DROOP_HELD_TIMEOUT (R401): below
warning the level becomes at least 2 and then rises by 1 up to 5, below deep it becomes 7, above warning it falls by 1;
SK_HELD notes a level above SM_CAP, and one held there for long raises source 56. PANTRY_SCRUB, CONTEXT_STORE_SCRUB,
DROOP_SENSOR_TRIM and TELEMETRY (R385, R403 to R406): a scrub checks the next slot or record: a corrected word raises source
32 or 34, an uncorrectable one 16 + f or 33, zeroises a free slot and marks an open record, and in a slot held for a partner
it stays until the slot is read; an idle frame is raised for its scrub step; one sensor is trimmed at a time; a telemetry
block goes to its slot, or is skipped while the last is not acknowledged, and TM_SEQ advances either way. -/
def Obligations.SmokerAndBackgroundWork : Prop :=
  ((∀ (src : Supply) (s : State),
    let rs := supplyRegions src
    let set (n : Nat → Nat) (t : State) := (∀ r ∈ rs, (t.region r).level = n r ∧
        ((t.region r).held = true ↔ (s.region r).held = true ∨ s.power.smCap.toNat < n r)) ∧
      (∀ r, r ∉ rs → t.region r = s.region r) ∧ t.faults = s.faults ∧ OnlyChanges [.power, .telem] s t
    (∃ t, exec (.supplyWarning src) s = .next t ∧ set (fun r => max 2 (s.region r).level) t ∧ ∀ r ∈ rs, t.belowWarn r = true) ∧
    (∃ t, exec (.supplyDeep src) s = .next t ∧ set (fun _ => 7) t ∧ ∀ r ∈ rs, t.belowWarn r = true) ∧
    (∃ t, exec (.supplyAboveWarning src) s = .next t ∧ (∀ r, (t.region r).level = (s.region r).level) ∧
      (∀ r ∈ rs, src = .monitor ∨ (t.region r).warn = false) ∧ (src = .monitor → t.power.monWarn = false) ∧
      OnlyChanges [.power] s t)) ∧
  (∀ (r : Fin 8) (s : State),
    let n := (s.region r.val).level
    (s.belowWarn r.val = true → n < 5 → ∃ t, exec (.throttleEscalate r) s = .next t ∧ (t.region r.val).level = n + 1 ∧
      (∀ q, q ≠ r.val → t.region q = s.region q) ∧ OnlyChanges [.power, .telem] s t) ∧
    (s.belowWarn r.val = false ∨ 5 ≤ n → exec (.throttleEscalate r) s = .next s) ∧
    (s.belowWarn r.val = false → 0 < n → ∃ t, exec (.throttleRelease r) s = .next t ∧
      t.region r.val = { s.region r.val with level := n - 1 } ∧ (∀ q, q ≠ r.val → t.region q = s.region q) ∧ OnlyChanges [.power] s t) ∧
    (s.belowWarn r.val = true ∨ n = 0 → exec (.throttleRelease r) s = .next s) ∧
    (s.power.smCap.toNat < n → ∃ t, exec (.droopHeldTimeout r) s = .next t ∧ t.faults.stat.getLsbD 56 = true ∧ t.power = s.power) ∧
    (n ≤ s.power.smCap.toNat → exec (.droopHeldTimeout r) s = .next s))) ∧
  ((∀ (f : Fin 16) (ecc : Ecc) (s : State), s.power.failing = false →
    let x := s.frame f.val
    let n := x.scrubAt
    let q := s.slot f.val n
    (frameDomains f.val).all s.domainOn = true →
    (x.state = .run → ∃ t, exec (.pantryScrub f ecc) s = .next t ∧ (t.frame f.val).scrubAt = (n + 1) % 8192 ∧
      (ecc = .clean → q.flips = 0 → t.frame f.val = { x with scrubAt := (n + 1) % 8192 } ∧ OnlyChanges [.frames] s t) ∧
      (ecc = .corrected → q.flips < 2 → t.faults.stat.getLsbD 32 = true ∧ (t.slot f.val n).data = q.data ∧
        (t.slot f.val n).flips = 0) ∧
      (ecc = .uncorrectable → t.faults.stat.getLsbD (16 + f.val) = true ∧ (q.holder = .free → (t.slot f.val n).data = []) ∧
        (∀ d tag, q.holder = .fabric d tag → (t.slot f.val n).flips = 2))) ∧
    (x.state = .idle → s.clockOn f.val = false → ∃ t, exec (.pantryScrub f ecc) s = .next t ∧ (t.frame f.val).waking = true ∧
      (t.frame f.val).scrubAt = n ∧ OnlyChanges [.frames, .power] s t)) ∧
  (∀ (bank word : Fin 8) (ecc : Ecc) (s : State), s.power.failing = false → s.domainOn (48 + bank.val) = true →
    let n := s.power.ctxScrub.get 0 bank.val
    let c : CtxNo := BitVec.ofNat 18 (32768 * bank.val + n)
    ∃ t, exec (.contextStoreScrub bank word ecc) s = .next t ∧ t.power.ctxScrub.get 0 bank.val = (n + 1) % 32768 ∧
      (ecc = .clean → OnlyChanges [.power] s t) ∧ (ecc = .corrected → t.faults.stat.getLsbD 34 = true ∧ t.ctxs = s.ctxs) ∧
      (ecc = .uncorrectable → t.faults.stat.getLsbD 33 = true ∧
        ((s.ctx c).isOpen = true → (t.ctx c).damaged.getLsbD word.val = true) ∧ ((s.ctx c).isOpen = false → t.ctxs = s.ctxs))) ∧
  (∀ (s : State), s.power.failing = false → s.keeper.phase ≠ .off → ∃ t, exec .droopSensorTrim s = .next t ∧
    t.power = { s.power with trimAt := (s.power.trimAt + 1) % 8 } ∧ OnlyChanges [.power] s t) ∧
  (∀ (s : State),
    let go := s.telem.en = true ∧ s.power.failing = false ∧ s.keeperReady = true
    let a := s.telem.base.toNat * 256 + 256 * (s.telem.seq.toNat % 2 ^ s.telem.log2.toNat)
    (go → ∃ t, exec .telemetry s = .next t ∧ t.telem.seq = s.telem.seq + 1 ∧ t.telem.busy = true ∧ t.telem.throt = 0 ∧
      (∀ f ∈ frameNos, (t.frame f).bursts = 0 ∧ (t.frame f).state = (s.frame f).state) ∧
      (s.telem.busy = false → t.keeper.kmq = s.keeper.kmq ++ [⟨.telemetry, a, 256, true, s.telemBlock⟩]) ∧
      (s.telem.busy = true → t.keeper = s.keeper)) ∧
    (¬ go → exec .telemetry s = .next s)))

/-- EVENT_RECORD_ACCEPT, FLUSH_START, FLUSH_AGE_TIMEOUT and FLUSH_DONE (R415 to R424): the oldest record waiting is appended at
the head, or merges into the last one, or is lost with source 60 when it does not fit; a flush takes the records from
REC_FLUSH to REC_HEAD as one block; its end moves REC_FLUSH and the write position. FLASH_SECTOR_ERASE, FLASH_OPERATION_DONE,
FLASH_LOG_SCAN_DONE, REC_CURSOR_FLASH_READ and FLASH_READ_DONE (R407, R420, R424, R425): with fewer than four sectors erased
ahead the next one is erased; a page or a sector that is done counts, one that fails is retired with source 59; the scan gives
the retired sectors, the write position and FB_BOOT, or sets RI_NOFLASH; a flash read fills the window. -/
def Obligations.TheRecorderAppendsFlushesAndErases : Prop :=
  ((∀ (e : EvRec) (rest : List EvRec) (s : State), s.recd.queue = e :: rest → s.recd.lossDue = false →
    let r := s.recd
    let b := recordBytes r e s.ptime r.lossMark
    let merge := ∃ last, r.ring.getLast? = some last ∧ r.merges last e s.ptime = true
    (¬ merge → r.fits b.length = true → r.head.toNat + b.length - r.tail.toNat ≤ 2 ^ 20 →
      ∃ t, exec .eventRecordAccept s = .next t ∧ t.recd.queue = rest ∧ t.recd.ring = r.ring ++ [(r.head.toNat, b)] ∧
        t.recd.head = BitVec.ofNat 48 (r.head.toNat + b.length) ∧ t.recd.tail = r.tail ∧ t.recd.gen = r.gen ∧
        t.recd.lost = r.lost ∧ OnlyChanges [.recd] s t) ∧
    (¬ merge → r.fits b.length = false → ∃ t, exec .eventRecordAccept s = .next t ∧ t.recd.queue = rest ∧ t.recd.ring = r.ring ∧
      t.recd.head = r.head ∧ t.recd.lost = satAdd r.lost 1 ∧ t.recd.lossDue = true ∧ t.faults.stat.getLsbD 60 = true) ∧
    (∀ last, r.ring.getLast? = some last → r.merges last e s.ptime = true → ∃ t, exec .eventRecordAccept s = .next t ∧
      t.recd.queue = rest ∧ t.recd.head = r.head ∧ t.recd.gen = r.gen + 2 ∧ t.recd.ring = r.ring.dropLast ++
        [(last.1, patch last.2 4 (leBytes 2 (recRepeat last.2 + 1)))] ∧ OnlyChanges [.recd] s t)) ∧
  (∀ (s : State), s.recd.queue = [] → s.recd.lossDue = false → exec .eventRecordAccept s = .next s) ∧
  (∀ (s : State), s.recd.flushAgain = true → s.recd.scanning = false → s.recd.flushing = none → s.recd.noFlash = false →
    let r := s.recd
    let block := flushBlock r.boot (r.seq + 1) r.flushed.toNat (recordsBetween r.ring r.flushed.toNat r.head.toNat)
    let p := r.blockPos block.length
    (p.2 = false ∨ r.erased ≠ 0 → ∃ t, exec .flushStart s = .next t ∧ t.recd.flushing = some r.head.toNat ∧ t.recd.seq = r.seq + 1 ∧
      t.recd.block = block ∧ t.recd.pos = p.1 ∧ t.recd.flushAgain = false ∧ t.recd.ring = r.ring ∧ t.recd.flushed = r.flushed ∧
      OnlyChanges [.recd] s t) ∧
    (p.2 = true → r.erased = 0 → exec .flushStart s = .next s)) ∧
  (∀ (s : State),
    (s.recd.unflushed ≠ 0 → ∃ t, exec .flushAgeTimeout s = .next t ∧ t.recd = { s.recd with flushAgain := true } ∧
      OnlyChanges [.recd] s t) ∧
    (s.recd.unflushed = 0 → exec .flushAgeTimeout s = .next s)) ∧
  (∀ (e : Nat) (s : State), s.recd.flushing = some e →
    (s.recd.pagesLeft = 0 → ∃ t, exec .flushDone s = .next t ∧ t.recd.flushing = none ∧ t.recd.flushed = BitVec.ofNat 48 e ∧
      (let p := s.recd.pos + s.recd.block.length
       t.recd.pos = (if p % 65536 = 0 then s.recd.pos else p) ∧ (t.recd.full = true ↔ p % 65536 = 0)) ∧ t.recd.ring = s.recd.ring ∧ t.recd.head = s.recd.head) ∧
    (s.recd.pagesLeft ≠ 0 → exec .flushDone s = .next s))) ∧
  ((∀ (s : State), s.recd.erased < 4 → s.recd.erasing = false → s.recd.noFlash = false → s.recd.scanning = false →
    s.power.failing = false → ∃ t, exec .flashSectorErase s = .next t ∧ t.recd = { s.recd with erasing := true } ∧
      OnlyChanges [.recd] s t) ∧
  (∀ (st : Byte) (s : State),
    let r := s.recd
    let page := r.flushing ≠ none ∧ r.pagesLeft ≠ 0 ∧ r.stalled = false
    let k := sectorOf r.pos
    let j := sectorAhead r.retired (r.erased + 1) k
    (page → (∃ t, exec (.flashOperationDone false st) s = .next t ∧ t.recd = { r with pagesLeft := r.pagesLeft - 1 } ∧
        OnlyChanges [.recd] s t) ∧
      ∃ t, exec (.flashOperationDone true st) s = .next t ∧ k ∈ t.recd.retired ∧ t.faults.stat.getLsbD 59 = true ∧
        t.recd.ring = r.ring) ∧
    (¬ page → r.erasing = true → (∃ t, exec (.flashOperationDone false st) s = .next t ∧ OnlyChanges [.recd] s t ∧ t.recd =
        if r.stalled then { r with erasing := false, stalled := false, pos := 65536 * j, full := false }
        else { r with erasing := false, erased := r.erased + 1 }) ∧
      ∃ t, exec (.flashOperationDone true st) s = .next t ∧ j ∈ t.recd.retired ∧ t.recd.erased = r.erased ∧
        t.faults.stat.getLsbD 59 = true) ∧
    (¬ page → r.erasing = false → ∀ fail, exec (.flashOperationDone fail st) s = .next s)) ∧
  (∀ (scan : FlashScan) (s : State),
    let r := s.recd
    (r.scanning = true → ∃ t, exec (.flashLogScanDone scan) s = .next t ∧ t.recd.scanning = false ∧ t.recd.ring = r.ring ∧
      (scan = .noFlash → t.recd.noFlash = true ∧ t.recd.flushed = r.head) ∧
      (∀ out, scan = .empty out → t.recd.boot = (if r.boot = 0 then 1 else r.boot) ∧ t.recd.flushAgain = true ∧
        t.recd.retired = (out.map (·.toNat)).eraseDups ∧ t.recd.pos = 65536 * nextSector t.recd.retired 1024 1023) ∧
      (∀ b q e out, scan = .newest b q e out → t.recd.boot = (if r.boot = 0 then b + 1 else r.boot) ∧ t.recd.pos = e.toNat ∧
        t.recd.retired = (out.map (·.toNat)).eraseDups ∧ t.recd.flushAgain = true)) ∧
    (r.scanning = false → exec (.flashLogScanDone scan) s = .next s)) ∧
  (∀ (w : Word) (s : State), w.getLsbD 63 = true → ∃ t, exec (.recCursorFlashRead w) s = .next t ∧
    t.recd = { s.recd with curOffset := w.setWidth 48, curFlash := true, ready := false } ∧ (∀ i, t.recWindow i = 0) ∧
    OnlyChanges [.recd] s t) ∧
  (∀ (data : Bytes) (s : State), s.recd.curFlash = true → s.recd.ready = false → data.length = 4096 →
    ∃ t, exec (.flashReadDone data) s = .next t ∧ t.recd.ready = true ∧ (∀ i, t.recWindow i = data.getD i 0) ∧
      t.recd.curOffset = s.recd.curOffset ∧ OnlyChanges [.recd] s t))

/-- SC_TRIG, SNAP_IN, SNAPSHOT_CAPTURE and SNAPSHOT_IMAGE_DONE (R408, R409, R411, R412): a trigger is sampled while snapshots are
enabled, the lowest cause winning, and dropped and counted while an image is being written; a capture freezes the image,
numbers it, records it and writes its header last; SN_BUSY falls when every write has been answered. PTIME_WRAP and the step
on an empty queue (R401, R413; the tick is the model's choice, DESIGN CHOICE, log entry 2): powered time counts one tick while the always-on
domain is powered, wraps with RI_EPOCH and source 63, and stands before the power-up; a tick takes no command. -/
def Obligations.SnapshotsAndPoweredTime : Prop :=
  ((∀ (w : Word) (s : State), w.getLsbD 1 = true → s.cpAwake = true →
    (w.getLsbD 0 = false → ∃ t, exec (.scTrig w) s = .next t ∧ t.snap.en = false ∧ t.snap.trig = s.snap.trig ∧
      t.snap.dropped = s.snap.dropped ∧ OnlyChanges [.snap] s t) ∧
    (w.getLsbD 0 = true → s.snap.busy = false → s.power.asleep = false → ∃ t, exec (.scTrig w) s = .next t ∧ t.snap.en = true ∧
      t.snap.base = BitVec.ofNat 38 (bits w.toNat 55 18) ∧ (s.snap.trig = none → t.snap.trig = some 2) ∧
      (∀ k, s.snap.trig = some k → t.snap.trig = some (BitVec.ofNat 8 (min k.toNat 2))) ∧ OnlyChanges [.snap] s t) ∧
    (w.getLsbD 0 = true → s.snap.busy = true → ∃ t, exec (.scTrig w) s = .next t ∧ t.snap.trig = s.snap.trig ∧
      t.snap.dropped = satAdd s.snap.dropped 1 ∧ OnlyChanges [.snap] s t)) ∧
  (∀ (s : State),
    (s.snap.inEn = true → s.snap.en = true → s.snap.busy = false → s.power.asleep = false → s.snap.trig = none →
      ∃ t, exec .snapIn s = .next t ∧ t.snap = { s.snap with trig := some 4 } ∧ OnlyChanges [.snap] s t) ∧
    (s.snap.inEn = false → exec .snapIn s = .next s)) ∧
  (∀ (fine : BitVec 16) (k : Byte) (s : State), s.snap.trig = some k →
    (s.clockOn 16 = true → ∃ t, exec (.snapshotCapture fine) s = .next t ∧ t.snap.busy = true ∧ t.snap.seq = s.snap.seq + 1 ∧
      t.snap.cause = BitVec.ofNat 4 k.toNat ∧ t.snap.trig = none ∧ t.snap.dropped = s.snap.dropped ∧
      (∃ r ∈ t.keeper.kmq, r.owner = .snapshot true) ∧ t.ctxs = s.ctxs ∧ t.tally = s.tally ∧ t.faults = s.faults) ∧
    (s.clockOn 16 = false → s.power.clkAck.getLsbD 16 = false → ∃ t, exec (.snapshotCapture fine) s = .next t ∧
      t.power.clkReq.getLsbD 16 = true ∧ t.snap = s.snap ∧ OnlyChanges [.power] s t)) ∧
  (∀ (s : State), s.snap.busy = true →
    ((∀ r ∈ s.keeper.kmq, r.owner ≠ .snapshot false ∧ r.owner ≠ .snapshot true) → ∃ t, exec .snapshotImageDone s = .next t ∧
      t.snap = { s.snap with busy := false } ∧ OnlyChanges [.snap] s t) ∧
    (∀ r b, r ∈ s.keeper.kmq → r.owner = .snapshot b → exec .snapshotImageDone s = .next s))) ∧
  ((∀ (s : State),
    (s.ptime = BitVec.allOnes 64 → ∃ t, exec .ptimeWrap s = .next t ∧ t.ptime = 0 ∧ t.recd.epoch = true ∧
      t.faults.stat.getLsbD 63 = true ∧ t.ctxs = s.ctxs) ∧
    (s.ptime ≠ BitVec.allOnes 64 → exec .ptimeWrap s = .next s)) ∧
  (∀ (s : State), s.pending = [] →
    (s.keeper.phase = .off → step s = .next s) ∧
    (s.keeper.phase ≠ .off → ∃ t, step s = .next t ∧ t.ptime = s.ptime + 1 ∧ t.pending = [] ∧ t.inp = s.inp ∧ t.ksets = s.ksets ∧
      t.mods = s.mods ∧ t.tally.val = s.tally.val ∧ (s.ptime = BitVec.allOnes 64 → t.faults.stat.getLsbD 63 = true) ∧
      (s.power.throtTick = 24 → (∃ r, r < 8 ∧ s.power.smCap.toNat < (s.region r).level) →
        t.power.throtUs = satAdd s.power.throtUs 1 ∧ t.power.throtTick = 0))))
end

