-- ==== Sys2Proof/Laws/Store.lean ====
section
/-! SUPPORT. Sparse tables: reading after writing, and that writes keep the canonical form. -/
namespace Sys2Proof.Machine

variable {α : Type}

theorem Store.get_erase_same (d : α) (m : Store α) (i : Nat) : (m.erase i).get d i = d := by
  induction m with
  | nil => rfl
  | cons e r ih =>
    obtain ⟨k, v⟩ := e
    by_cases h : k = i
    · simpa [Store.erase, h] using ih
    · simpa [Store.erase, Store.get, h] using ih

theorem Store.get_erase_other (d : α) (m : Store α) {i j : Nat} (h : j ≠ i) : (m.erase i).get d j = m.get d j := by
  induction m with
  | nil => rfl
  | cons e r ih =>
    obtain ⟨k, v⟩ := e
    by_cases hk : k = i
    · subst hk
      simpa [Store.erase, Store.get, Ne.symm h] using ih
    · by_cases hj : k = j
      · subst hj; simp [Store.erase, Store.get, hk]
      · simp [Store.erase, Store.get, hk, hj, ih]

theorem Store.get_insert_same (d : α) (m : Store α) (i : Nat) (v : α) : (m.insert i v).get d i = v := by
  induction m with
  | nil => simp [Store.insert, Store.get]
  | cons e r ih =>
    obtain ⟨k, w⟩ := e
    unfold Store.insert
    split
    · simp [Store.get]
    · split
      · simp [Store.get]
      · simp [Store.get, *]

theorem Store.get_insert_other (d : α) (m : Store α) {i j : Nat} (v : α) (h : j ≠ i) :
    (m.insert i v).get d j = m.get d j := by
  induction m with
  | nil => simp [Store.insert, Store.get, Ne.symm h]
  | cons e r ih =>
    obtain ⟨k, w⟩ := e
    unfold Store.insert
    split
    · simp [Store.get, Ne.symm h]
    · split
      · subst k; simp [Store.get, Ne.symm h]
      · simp [Store.get, ih]

variable [DecidableEq α]

omit [DecidableEq α] in
@[simp] theorem Store.get_nil (d : α) (i : Nat) : Store.get d ([] : Store α) i = d := rfl

/-- Reading the entry that was written gives the value written. -/
@[simp] theorem Store.get_set_same (d : α) (m : Store α) (i : Nat) (v : α) : (m.set d i v).get d i = v := by
  unfold Store.set
  split
  · rename_i h; rw [get_erase_same, h]
  · exact get_insert_same ..

/-- A write leaves every other entry alone. -/
theorem Store.get_set_other (d : α) (m : Store α) {i j : Nat} (v : α) (h : j ≠ i) :
    (m.set d i v).get d j = m.get d j := by
  unfold Store.set
  split
  · exact get_erase_other _ _ h
  · exact get_insert_other _ _ _ h

theorem Store.get_set (d : α) (m : Store α) (i j : Nat) (v : α) :
    (m.set d i v).get d j = if j = i then v else m.get d j := by
  split
  · subst j; simp
  · exact Store.get_set_other _ _ _ ‹_›

/-! ## The canonical form -/

omit [DecidableEq α] in
theorem Store.above_mono {lo hi : Nat} {m : Store α} (h : lo ≤ hi) (ha : Store.above hi m = true) :
    Store.above lo m = true := by
  cases m with
  | nil => rfl
  | cons e r =>
    obtain ⟨k, v⟩ := e
    simp only [Store.above, Bool.and_eq_true, decide_eq_true_eq] at ha ⊢
    exact ⟨by omega, ha.2⟩

omit [DecidableEq α] in
theorem Store.above_erase {lo i : Nat} {m : Store α} (h : Store.above lo m = true) : Store.above lo (m.erase i) = true := by
  induction m generalizing lo with
  | nil => rfl
  | cons e r ih =>
    obtain ⟨k, v⟩ := e
    simp only [Store.above, Bool.and_eq_true, decide_eq_true_eq] at h
    unfold Store.erase
    split
    · exact Store.above_mono (Nat.le_of_lt h.1) (ih h.2)
    · simp [Store.above, h.1, ih h.2]

omit [DecidableEq α] in
theorem Store.above_insert {lo i : Nat} {m : Store α} {v : α} (hl : lo < i) (h : Store.above lo m = true) :
    Store.above lo (m.insert i v) = true := by
  induction m generalizing lo with
  | nil => simp [Store.insert, Store.above, hl]
  | cons e r ih =>
    obtain ⟨k, w⟩ := e
    simp only [Store.above, Bool.and_eq_true, decide_eq_true_eq] at h
    unfold Store.insert
    split
    · rename_i hik
      simp [Store.above, hl, hik, h.2]
    · split
      · rename_i _ hk; subst hk; simp [Store.above, hl, h.2]
      · rename_i h1 h2
        simp [Store.above, h.1, ih (lo := k) (by omega) h.2]

/-- The keys of a table rise strictly. -/
def Store.rising (m : Store α) : Bool :=
  match m with
  | [] => true
  | (k, _) :: r => Store.above k r

theorem Store.wf_iff (d : α) (m : Store α) :
    m.wf d = true ↔ Store.rising m = true ∧ ∀ e ∈ m, e.2 ≠ d := by
  unfold Store.wf Store.rising
  cases m with
  | nil => simp
  | cons e r => simp [List.all_eq_true]

omit [DecidableEq α] in
theorem Store.rising_erase {m : Store α} {i : Nat} (h : Store.rising m = true) : Store.rising (m.erase i) = true := by
  cases m with
  | nil => rfl
  | cons e r =>
    obtain ⟨k, v⟩ := e
    simp only [Store.rising] at h
    unfold Store.erase
    split
    · have := Store.above_erase (i := i) h
      unfold Store.rising
      cases hr : Store.erase r i with
      | nil => rfl
      | cons e' r' =>
        obtain ⟨k', v'⟩ := e'
        rw [hr] at this
        simp only [Store.above, Bool.and_eq_true] at this
        exact this.2
    · simpa [Store.rising] using Store.above_erase h

omit [DecidableEq α] in
theorem Store.rising_insert {m : Store α} {i : Nat} {v : α} (h : Store.rising m = true) :
    Store.rising (m.insert i v) = true := by
  cases m with
  | nil => rfl
  | cons e r =>
    obtain ⟨k, w⟩ := e
    simp only [Store.rising] at h
    unfold Store.insert
    split
    · rename_i hik; simp [Store.rising, Store.above, hik, h]
    · split
      · rename_i _ hk; subst hk; simpa [Store.rising] using h
      · simp only [Store.rising]; exact Store.above_insert (by omega) h

omit [DecidableEq α] in
theorem Store.mem_erase {m : Store α} {i : Nat} {e : Nat × α} (h : e ∈ m.erase i) : e ∈ m := by
  induction m with
  | nil => exact h
  | cons x r ih =>
    obtain ⟨k, v⟩ := x
    unfold Store.erase at h
    split at h
    · exact List.mem_cons_of_mem _ (ih h)
    · rcases List.mem_cons.mp h with rfl | h
      · exact List.mem_cons_self
      · exact List.mem_cons_of_mem _ (ih h)

omit [DecidableEq α] in
theorem Store.mem_insert {m : Store α} {i : Nat} {v : α} {e : Nat × α} (h : e ∈ m.insert i v) : e = (i, v) ∨ e ∈ m := by
  induction m with
  | nil => simpa [Store.insert] using h
  | cons x r ih =>
    obtain ⟨k, w⟩ := x
    unfold Store.insert at h
    split at h
    · simpa using h
    · split at h
      · rcases List.mem_cons.mp h with rfl | h
        · exact .inl rfl
        · exact .inr (List.mem_cons_of_mem _ h)
      · rcases List.mem_cons.mp h with rfl | h
        · exact .inr List.mem_cons_self
        · exact (ih h).imp id (List.mem_cons_of_mem _)

/-- A write keeps the canonical form. -/
theorem Store.wf_set (d : α) (m : Store α) (i : Nat) (v : α) (h : m.wf d = true) : (m.set d i v).wf d = true := by
  rw [Store.wf_iff] at h ⊢
  unfold Store.set
  split
  · exact ⟨Store.rising_erase h.1, fun e he => h.2 e (Store.mem_erase he)⟩
  · refine ⟨Store.rising_insert h.1, fun e he => ?_⟩
    rcases Store.mem_insert he with rfl | he
    · assumption
    · exact h.2 e he

/-- Changing every entry gives a table in the canonical form. -/
theorem Store.wf_mapAll (d : α) (f : Nat → α → α) (m : Store α) : (m.mapAll d f).wf d = true := by
  have : ∀ (l : Store α) (acc : Store α), acc.wf d = true →
      (List.foldl (fun a e => Store.set d a e.1 (f e.1 e.2)) acc l).wf d = true := by
    intro l
    induction l with
    | nil => intro acc h; exact h
    | cons e r ih => intro acc h; exact ih _ (Store.wf_set d acc _ _ h)
  exact this m [] rfl

end Sys2Proof.Machine
end

