-- ==== Sys2Proof/Laws/State.lean ====
section
/-! SUPPORT. What each update of the state leaves alone and what reading after it gives: one lemma per field per
update. An operation that touches several fields has one equation that names them, from which the rest follows. -/
namespace Sys2Proof.Machine

@[simp] theorem State.setCtx_pending (s : State) (c : CtxNo) (x : Ctx) : (s.setCtx c x).pending = s.pending := rfl
@[simp] theorem State.setCtx_ptime (s : State) (c : CtxNo) (x : Ctx) : (s.setCtx c x).ptime = s.ptime := rfl
@[simp] theorem State.setCtx_inp (s : State) (c : CtxNo) (x : Ctx) : (s.setCtx c x).inp = s.inp := rfl
@[simp] theorem State.setCtx_keeper (s : State) (c : CtxNo) (x : Ctx) : (s.setCtx c x).keeper = s.keeper := rfl
@[simp] theorem State.setCtx_mboxes (s : State) (c : CtxNo) (x : Ctx) : (s.setCtx c x).mboxes = s.mboxes := rfl
@[simp] theorem State.setCtx_readyQ (s : State) (c : CtxNo) (x : Ctx) : (s.setCtx c x).readyQ = s.readyQ := rfl
@[simp] theorem State.setCtx_chans (s : State) (c : CtxNo) (x : Ctx) : (s.setCtx c x).chans = s.chans := rfl
@[simp] theorem State.setCtx_frames (s : State) (c : CtxNo) (x : Ctx) : (s.setCtx c x).frames = s.frames := rfl
@[simp] theorem State.setCtx_taps (s : State) (c : CtxNo) (x : Ctx) : (s.setCtx c x).taps = s.taps := rfl
@[simp] theorem State.setCtx_ports (s : State) (c : CtxNo) (x : Ctx) : (s.setCtx c x).ports = s.ports := rfl
@[simp] theorem State.setCtx_spine (s : State) (c : CtxNo) (x : Ctx) : (s.setCtx c x).spine = s.spine := rfl
@[simp] theorem State.setCtx_swarms (s : State) (c : CtxNo) (x : Ctx) : (s.setCtx c x).swarms = s.swarms := rfl
@[simp] theorem State.setCtx_expand (s : State) (c : CtxNo) (x : Ctx) : (s.setCtx c x).expand = s.expand := rfl
@[simp] theorem State.setCtx_expandAt (s : State) (c : CtxNo) (x : Ctx) : (s.setCtx c x).expandAt = s.expandAt := rfl
@[simp] theorem State.setCtx_ksets (s : State) (c : CtxNo) (x : Ctx) : (s.setCtx c x).ksets = s.ksets := rfl
@[simp] theorem State.setCtx_mods (s : State) (c : CtxNo) (x : Ctx) : (s.setCtx c x).mods = s.mods := rfl
@[simp] theorem State.setCtx_xlate (s : State) (c : CtxNo) (x : Ctx) : (s.setCtx c x).xlate = s.xlate := rfl
@[simp] theorem State.setCtx_tally (s : State) (c : CtxNo) (x : Ctx) : (s.setCtx c x).tally = s.tally := rfl
@[simp] theorem State.setCtx_fabric (s : State) (c : CtxNo) (x : Ctx) : (s.setCtx c x).fabric = s.fabric := rfl
@[simp] theorem State.setCtx_faults (s : State) (c : CtxNo) (x : Ctx) : (s.setCtx c x).faults = s.faults := rfl
@[simp] theorem State.setCtx_sec (s : State) (c : CtxNo) (x : Ctx) : (s.setCtx c x).sec = s.sec := rfl
@[simp] theorem State.setCtx_power (s : State) (c : CtxNo) (x : Ctx) : (s.setCtx c x).power = s.power := rfl
@[simp] theorem State.setCtx_ftest (s : State) (c : CtxNo) (x : Ctx) : (s.setCtx c x).ftest = s.ftest := rfl
@[simp] theorem State.setCtx_snap (s : State) (c : CtxNo) (x : Ctx) : (s.setCtx c x).snap = s.snap := rfl
@[simp] theorem State.setCtx_recd (s : State) (c : CtxNo) (x : Ctx) : (s.setCtx c x).recd = s.recd := rfl
@[simp] theorem State.setCtx_telem (s : State) (c : CtxNo) (x : Ctx) : (s.setCtx c x).telem = s.telem := rfl
@[simp] theorem State.setCtx_regs (s : State) (c : CtxNo) (x : Ctx) : (s.setCtx c x).regs = s.regs := rfl
@[simp] theorem State.setCtx_free (s : State) (c : CtxNo) (x : Ctx) : (s.setCtx c x).free = s.free := rfl
@[simp] theorem State.setCtx_nextId (s : State) (c : CtxNo) (x : Ctx) : (s.setCtx c x).nextId = s.nextId := rfl
@[simp] theorem State.setCtx_chan (s : State) (c : CtxNo) (x : Ctx) (d : Nat) : (s.setCtx c x).chan d = s.chan d := rfl
@[simp] theorem State.setCtx_frame (s : State) (c : CtxNo) (x : Ctx) (d : Nat) : (s.setCtx c x).frame d = s.frame d := rfl
@[simp] theorem State.setCtx_tap (s : State) (c : CtxNo) (x : Ctx) (d : Nat) : (s.setCtx c x).tap d = s.tap d := rfl
@[simp] theorem State.setCtx_port (s : State) (c : CtxNo) (x : Ctx) (d : Nat) : (s.setCtx c x).port d = s.port d := rfl
@[simp] theorem State.setCtx_mbox (s : State) (c : CtxNo) (x : Ctx) (d : Nat) : (s.setCtx c x).mbox d = s.mbox d := rfl
@[simp] theorem State.setCtx_swarm (s : State) (c : CtxNo) (x : Ctx) (d : Nat) : (s.setCtx c x).swarm d = s.swarm d := rfl
@[simp] theorem State.setCtx_kset (s : State) (c : CtxNo) (x : Ctx) (d : KsetNo) : (s.setCtx c x).kset d = s.kset d := rfl
@[simp] theorem State.setCtx_modulus (s : State) (c : CtxNo) (x : Ctx) (d : Nat) : (s.setCtx c x).modulus d = s.modulus d := rfl
@[simp] theorem State.setCtx_link (s : State) (c : CtxNo) (x : Ctx) (d : Nat) : (s.setCtx c x).link d = s.link d := rfl
@[simp] theorem State.setCtx_partner (s : State) (c : CtxNo) (x : Ctx) (d : ChipNo) : (s.setCtx c x).partner d = s.partner d := rfl
@[simp] theorem State.setCtx_region (s : State) (c : CtxNo) (x : Ctx) (d : Nat) : (s.setCtx c x).region d = s.region d := rfl
@[simp] theorem State.setCtx_fltCfg (s : State) (c : CtxNo) (x : Ctx) (d : Nat) : (s.setCtx c x).fltCfg d = s.fltCfg d := rfl
@[simp] theorem State.setCtx_severity (s : State) (c : CtxNo) (x : Ctx) (d : Nat) : (s.setCtx c x).severity d = s.severity d := rfl
@[simp] theorem State.setCtx_cpAwake (s : State) (c : CtxNo) (x : Ctx) : (s.setCtx c x).cpAwake = s.cpAwake := rfl
@[simp] theorem State.setCtx_keeperReady (s : State) (c : CtxNo) (x : Ctx) : (s.setCtx c x).keeperReady = s.keeperReady := rfl
@[simp] theorem State.setCtx_domainOn (s : State) (c : CtxNo) (x : Ctx) (d : Nat) : (s.setCtx c x).domainOn d = s.domainOn d := rfl
@[simp] theorem State.setCtx_verb (s : State) (c : CtxNo) (x : Ctx) (d : Origin) : (s.setCtx c x).verb d = s.verb d := rfl
@[simp] theorem State.setCtx_corePresent (s : State) (c : CtxNo) (x : Ctx) (d : Nat) : (s.setCtx c x).corePresent d = s.corePresent d := rfl
@[simp] theorem State.setCtx_ifMajor (s : State) (c : CtxNo) (x : Ctx) : (s.setCtx c x).ifMajor = s.ifMajor := rfl
@[simp] theorem State.modCtx_pending (s : State) (c : CtxNo) (f : Ctx → Ctx) : (s.modCtx c f).pending = s.pending := rfl
@[simp] theorem State.modCtx_ptime (s : State) (c : CtxNo) (f : Ctx → Ctx) : (s.modCtx c f).ptime = s.ptime := rfl
@[simp] theorem State.modCtx_inp (s : State) (c : CtxNo) (f : Ctx → Ctx) : (s.modCtx c f).inp = s.inp := rfl
@[simp] theorem State.modCtx_keeper (s : State) (c : CtxNo) (f : Ctx → Ctx) : (s.modCtx c f).keeper = s.keeper := rfl
@[simp] theorem State.modCtx_mboxes (s : State) (c : CtxNo) (f : Ctx → Ctx) : (s.modCtx c f).mboxes = s.mboxes := rfl
@[simp] theorem State.modCtx_readyQ (s : State) (c : CtxNo) (f : Ctx → Ctx) : (s.modCtx c f).readyQ = s.readyQ := rfl
@[simp] theorem State.modCtx_chans (s : State) (c : CtxNo) (f : Ctx → Ctx) : (s.modCtx c f).chans = s.chans := rfl
@[simp] theorem State.modCtx_frames (s : State) (c : CtxNo) (f : Ctx → Ctx) : (s.modCtx c f).frames = s.frames := rfl
@[simp] theorem State.modCtx_taps (s : State) (c : CtxNo) (f : Ctx → Ctx) : (s.modCtx c f).taps = s.taps := rfl
@[simp] theorem State.modCtx_ports (s : State) (c : CtxNo) (f : Ctx → Ctx) : (s.modCtx c f).ports = s.ports := rfl
@[simp] theorem State.modCtx_spine (s : State) (c : CtxNo) (f : Ctx → Ctx) : (s.modCtx c f).spine = s.spine := rfl
@[simp] theorem State.modCtx_swarms (s : State) (c : CtxNo) (f : Ctx → Ctx) : (s.modCtx c f).swarms = s.swarms := rfl
@[simp] theorem State.modCtx_expand (s : State) (c : CtxNo) (f : Ctx → Ctx) : (s.modCtx c f).expand = s.expand := rfl
@[simp] theorem State.modCtx_expandAt (s : State) (c : CtxNo) (f : Ctx → Ctx) : (s.modCtx c f).expandAt = s.expandAt := rfl
@[simp] theorem State.modCtx_ksets (s : State) (c : CtxNo) (f : Ctx → Ctx) : (s.modCtx c f).ksets = s.ksets := rfl
@[simp] theorem State.modCtx_mods (s : State) (c : CtxNo) (f : Ctx → Ctx) : (s.modCtx c f).mods = s.mods := rfl
@[simp] theorem State.modCtx_xlate (s : State) (c : CtxNo) (f : Ctx → Ctx) : (s.modCtx c f).xlate = s.xlate := rfl
@[simp] theorem State.modCtx_tally (s : State) (c : CtxNo) (f : Ctx → Ctx) : (s.modCtx c f).tally = s.tally := rfl
@[simp] theorem State.modCtx_fabric (s : State) (c : CtxNo) (f : Ctx → Ctx) : (s.modCtx c f).fabric = s.fabric := rfl
@[simp] theorem State.modCtx_faults (s : State) (c : CtxNo) (f : Ctx → Ctx) : (s.modCtx c f).faults = s.faults := rfl
@[simp] theorem State.modCtx_sec (s : State) (c : CtxNo) (f : Ctx → Ctx) : (s.modCtx c f).sec = s.sec := rfl
@[simp] theorem State.modCtx_power (s : State) (c : CtxNo) (f : Ctx → Ctx) : (s.modCtx c f).power = s.power := rfl
@[simp] theorem State.modCtx_ftest (s : State) (c : CtxNo) (f : Ctx → Ctx) : (s.modCtx c f).ftest = s.ftest := rfl
@[simp] theorem State.modCtx_snap (s : State) (c : CtxNo) (f : Ctx → Ctx) : (s.modCtx c f).snap = s.snap := rfl
@[simp] theorem State.modCtx_recd (s : State) (c : CtxNo) (f : Ctx → Ctx) : (s.modCtx c f).recd = s.recd := rfl
@[simp] theorem State.modCtx_telem (s : State) (c : CtxNo) (f : Ctx → Ctx) : (s.modCtx c f).telem = s.telem := rfl
@[simp] theorem State.modCtx_regs (s : State) (c : CtxNo) (f : Ctx → Ctx) : (s.modCtx c f).regs = s.regs := rfl
@[simp] theorem State.modCtx_free (s : State) (c : CtxNo) (f : Ctx → Ctx) : (s.modCtx c f).free = s.free := rfl
@[simp] theorem State.modCtx_nextId (s : State) (c : CtxNo) (f : Ctx → Ctx) : (s.modCtx c f).nextId = s.nextId := rfl
@[simp] theorem State.modCtx_chan (s : State) (c : CtxNo) (f : Ctx → Ctx) (d : Nat) : (s.modCtx c f).chan d = s.chan d := rfl
@[simp] theorem State.modCtx_frame (s : State) (c : CtxNo) (f : Ctx → Ctx) (d : Nat) : (s.modCtx c f).frame d = s.frame d := rfl
@[simp] theorem State.modCtx_tap (s : State) (c : CtxNo) (f : Ctx → Ctx) (d : Nat) : (s.modCtx c f).tap d = s.tap d := rfl
@[simp] theorem State.modCtx_port (s : State) (c : CtxNo) (f : Ctx → Ctx) (d : Nat) : (s.modCtx c f).port d = s.port d := rfl
@[simp] theorem State.modCtx_mbox (s : State) (c : CtxNo) (f : Ctx → Ctx) (d : Nat) : (s.modCtx c f).mbox d = s.mbox d := rfl
@[simp] theorem State.modCtx_swarm (s : State) (c : CtxNo) (f : Ctx → Ctx) (d : Nat) : (s.modCtx c f).swarm d = s.swarm d := rfl
@[simp] theorem State.modCtx_kset (s : State) (c : CtxNo) (f : Ctx → Ctx) (d : KsetNo) : (s.modCtx c f).kset d = s.kset d := rfl
@[simp] theorem State.modCtx_modulus (s : State) (c : CtxNo) (f : Ctx → Ctx) (d : Nat) : (s.modCtx c f).modulus d = s.modulus d := rfl
@[simp] theorem State.modCtx_link (s : State) (c : CtxNo) (f : Ctx → Ctx) (d : Nat) : (s.modCtx c f).link d = s.link d := rfl
@[simp] theorem State.modCtx_partner (s : State) (c : CtxNo) (f : Ctx → Ctx) (d : ChipNo) : (s.modCtx c f).partner d = s.partner d := rfl
@[simp] theorem State.modCtx_region (s : State) (c : CtxNo) (f : Ctx → Ctx) (d : Nat) : (s.modCtx c f).region d = s.region d := rfl
@[simp] theorem State.modCtx_fltCfg (s : State) (c : CtxNo) (f : Ctx → Ctx) (d : Nat) : (s.modCtx c f).fltCfg d = s.fltCfg d := rfl
@[simp] theorem State.modCtx_severity (s : State) (c : CtxNo) (f : Ctx → Ctx) (d : Nat) : (s.modCtx c f).severity d = s.severity d := rfl
@[simp] theorem State.modCtx_cpAwake (s : State) (c : CtxNo) (f : Ctx → Ctx) : (s.modCtx c f).cpAwake = s.cpAwake := rfl
@[simp] theorem State.modCtx_keeperReady (s : State) (c : CtxNo) (f : Ctx → Ctx) : (s.modCtx c f).keeperReady = s.keeperReady := rfl
@[simp] theorem State.modCtx_domainOn (s : State) (c : CtxNo) (f : Ctx → Ctx) (d : Nat) : (s.modCtx c f).domainOn d = s.domainOn d := rfl
@[simp] theorem State.modCtx_verb (s : State) (c : CtxNo) (f : Ctx → Ctx) (d : Origin) : (s.modCtx c f).verb d = s.verb d := rfl
@[simp] theorem State.modCtx_corePresent (s : State) (c : CtxNo) (f : Ctx → Ctx) (d : Nat) : (s.modCtx c f).corePresent d = s.corePresent d := rfl
@[simp] theorem State.modCtx_ifMajor (s : State) (c : CtxNo) (f : Ctx → Ctx) : (s.modCtx c f).ifMajor = s.ifMajor := rfl
@[simp] theorem State.setChan_pending (s : State) (n : Nat) (x : Chan) : (s.setChan n x).pending = s.pending := rfl
@[simp] theorem State.setChan_ptime (s : State) (n : Nat) (x : Chan) : (s.setChan n x).ptime = s.ptime := rfl
@[simp] theorem State.setChan_inp (s : State) (n : Nat) (x : Chan) : (s.setChan n x).inp = s.inp := rfl
@[simp] theorem State.setChan_keeper (s : State) (n : Nat) (x : Chan) : (s.setChan n x).keeper = s.keeper := rfl
@[simp] theorem State.setChan_mboxes (s : State) (n : Nat) (x : Chan) : (s.setChan n x).mboxes = s.mboxes := rfl
@[simp] theorem State.setChan_ctxs (s : State) (n : Nat) (x : Chan) : (s.setChan n x).ctxs = s.ctxs := rfl
@[simp] theorem State.setChan_readyQ (s : State) (n : Nat) (x : Chan) : (s.setChan n x).readyQ = s.readyQ := rfl
@[simp] theorem State.setChan_frames (s : State) (n : Nat) (x : Chan) : (s.setChan n x).frames = s.frames := rfl
@[simp] theorem State.setChan_taps (s : State) (n : Nat) (x : Chan) : (s.setChan n x).taps = s.taps := rfl
@[simp] theorem State.setChan_ports (s : State) (n : Nat) (x : Chan) : (s.setChan n x).ports = s.ports := rfl
@[simp] theorem State.setChan_spine (s : State) (n : Nat) (x : Chan) : (s.setChan n x).spine = s.spine := rfl
@[simp] theorem State.setChan_swarms (s : State) (n : Nat) (x : Chan) : (s.setChan n x).swarms = s.swarms := rfl
@[simp] theorem State.setChan_expand (s : State) (n : Nat) (x : Chan) : (s.setChan n x).expand = s.expand := rfl
@[simp] theorem State.setChan_expandAt (s : State) (n : Nat) (x : Chan) : (s.setChan n x).expandAt = s.expandAt := rfl
@[simp] theorem State.setChan_ksets (s : State) (n : Nat) (x : Chan) : (s.setChan n x).ksets = s.ksets := rfl
@[simp] theorem State.setChan_mods (s : State) (n : Nat) (x : Chan) : (s.setChan n x).mods = s.mods := rfl
@[simp] theorem State.setChan_xlate (s : State) (n : Nat) (x : Chan) : (s.setChan n x).xlate = s.xlate := rfl
@[simp] theorem State.setChan_tally (s : State) (n : Nat) (x : Chan) : (s.setChan n x).tally = s.tally := rfl
@[simp] theorem State.setChan_fabric (s : State) (n : Nat) (x : Chan) : (s.setChan n x).fabric = s.fabric := rfl
@[simp] theorem State.setChan_faults (s : State) (n : Nat) (x : Chan) : (s.setChan n x).faults = s.faults := rfl
@[simp] theorem State.setChan_sec (s : State) (n : Nat) (x : Chan) : (s.setChan n x).sec = s.sec := rfl
@[simp] theorem State.setChan_power (s : State) (n : Nat) (x : Chan) : (s.setChan n x).power = s.power := rfl
@[simp] theorem State.setChan_ftest (s : State) (n : Nat) (x : Chan) : (s.setChan n x).ftest = s.ftest := rfl
@[simp] theorem State.setChan_snap (s : State) (n : Nat) (x : Chan) : (s.setChan n x).snap = s.snap := rfl
@[simp] theorem State.setChan_recd (s : State) (n : Nat) (x : Chan) : (s.setChan n x).recd = s.recd := rfl
@[simp] theorem State.setChan_telem (s : State) (n : Nat) (x : Chan) : (s.setChan n x).telem = s.telem := rfl
@[simp] theorem State.setChan_regs (s : State) (n : Nat) (x : Chan) : (s.setChan n x).regs = s.regs := rfl
@[simp] theorem State.setChan_free (s : State) (n : Nat) (x : Chan) : (s.setChan n x).free = s.free := rfl
@[simp] theorem State.setChan_nextId (s : State) (n : Nat) (x : Chan) : (s.setChan n x).nextId = s.nextId := rfl
@[simp] theorem State.setChan_ctx (s : State) (n : Nat) (x : Chan) (d : CtxNo) : (s.setChan n x).ctx d = s.ctx d := rfl
@[simp] theorem State.setChan_frame (s : State) (n : Nat) (x : Chan) (d : Nat) : (s.setChan n x).frame d = s.frame d := rfl
@[simp] theorem State.setChan_tap (s : State) (n : Nat) (x : Chan) (d : Nat) : (s.setChan n x).tap d = s.tap d := rfl
@[simp] theorem State.setChan_port (s : State) (n : Nat) (x : Chan) (d : Nat) : (s.setChan n x).port d = s.port d := rfl
@[simp] theorem State.setChan_mbox (s : State) (n : Nat) (x : Chan) (d : Nat) : (s.setChan n x).mbox d = s.mbox d := rfl
@[simp] theorem State.setChan_swarm (s : State) (n : Nat) (x : Chan) (d : Nat) : (s.setChan n x).swarm d = s.swarm d := rfl
@[simp] theorem State.setChan_kset (s : State) (n : Nat) (x : Chan) (d : KsetNo) : (s.setChan n x).kset d = s.kset d := rfl
@[simp] theorem State.setChan_modulus (s : State) (n : Nat) (x : Chan) (d : Nat) : (s.setChan n x).modulus d = s.modulus d := rfl
@[simp] theorem State.setChan_link (s : State) (n : Nat) (x : Chan) (d : Nat) : (s.setChan n x).link d = s.link d := rfl
@[simp] theorem State.setChan_partner (s : State) (n : Nat) (x : Chan) (d : ChipNo) : (s.setChan n x).partner d = s.partner d := rfl
@[simp] theorem State.setChan_region (s : State) (n : Nat) (x : Chan) (d : Nat) : (s.setChan n x).region d = s.region d := rfl
@[simp] theorem State.setChan_fltCfg (s : State) (n : Nat) (x : Chan) (d : Nat) : (s.setChan n x).fltCfg d = s.fltCfg d := rfl
@[simp] theorem State.setChan_severity (s : State) (n : Nat) (x : Chan) (d : Nat) : (s.setChan n x).severity d = s.severity d := rfl
@[simp] theorem State.setChan_cpAwake (s : State) (n : Nat) (x : Chan) : (s.setChan n x).cpAwake = s.cpAwake := rfl
@[simp] theorem State.setChan_keeperReady (s : State) (n : Nat) (x : Chan) : (s.setChan n x).keeperReady = s.keeperReady := rfl
@[simp] theorem State.setChan_domainOn (s : State) (n : Nat) (x : Chan) (d : Nat) : (s.setChan n x).domainOn d = s.domainOn d := rfl
@[simp] theorem State.setChan_verb (s : State) (n : Nat) (x : Chan) (d : Origin) : (s.setChan n x).verb d = s.verb d := rfl
@[simp] theorem State.setChan_corePresent (s : State) (n : Nat) (x : Chan) (d : Nat) : (s.setChan n x).corePresent d = s.corePresent d := rfl
@[simp] theorem State.setChan_ifMajor (s : State) (n : Nat) (x : Chan) : (s.setChan n x).ifMajor = s.ifMajor := rfl
@[simp] theorem State.setFrame_pending (s : State) (n : Nat) (x : Frame) : (s.setFrame n x).pending = s.pending := rfl
@[simp] theorem State.setFrame_ptime (s : State) (n : Nat) (x : Frame) : (s.setFrame n x).ptime = s.ptime := rfl
@[simp] theorem State.setFrame_inp (s : State) (n : Nat) (x : Frame) : (s.setFrame n x).inp = s.inp := rfl
@[simp] theorem State.setFrame_keeper (s : State) (n : Nat) (x : Frame) : (s.setFrame n x).keeper = s.keeper := rfl
@[simp] theorem State.setFrame_mboxes (s : State) (n : Nat) (x : Frame) : (s.setFrame n x).mboxes = s.mboxes := rfl
@[simp] theorem State.setFrame_ctxs (s : State) (n : Nat) (x : Frame) : (s.setFrame n x).ctxs = s.ctxs := rfl
@[simp] theorem State.setFrame_readyQ (s : State) (n : Nat) (x : Frame) : (s.setFrame n x).readyQ = s.readyQ := rfl
@[simp] theorem State.setFrame_chans (s : State) (n : Nat) (x : Frame) : (s.setFrame n x).chans = s.chans := rfl
@[simp] theorem State.setFrame_taps (s : State) (n : Nat) (x : Frame) : (s.setFrame n x).taps = s.taps := rfl
@[simp] theorem State.setFrame_ports (s : State) (n : Nat) (x : Frame) : (s.setFrame n x).ports = s.ports := rfl
@[simp] theorem State.setFrame_spine (s : State) (n : Nat) (x : Frame) : (s.setFrame n x).spine = s.spine := rfl
@[simp] theorem State.setFrame_swarms (s : State) (n : Nat) (x : Frame) : (s.setFrame n x).swarms = s.swarms := rfl
@[simp] theorem State.setFrame_expand (s : State) (n : Nat) (x : Frame) : (s.setFrame n x).expand = s.expand := rfl
@[simp] theorem State.setFrame_expandAt (s : State) (n : Nat) (x : Frame) : (s.setFrame n x).expandAt = s.expandAt := rfl
@[simp] theorem State.setFrame_ksets (s : State) (n : Nat) (x : Frame) : (s.setFrame n x).ksets = s.ksets := rfl
@[simp] theorem State.setFrame_mods (s : State) (n : Nat) (x : Frame) : (s.setFrame n x).mods = s.mods := rfl
@[simp] theorem State.setFrame_xlate (s : State) (n : Nat) (x : Frame) : (s.setFrame n x).xlate = s.xlate := rfl
@[simp] theorem State.setFrame_tally (s : State) (n : Nat) (x : Frame) : (s.setFrame n x).tally = s.tally := rfl
@[simp] theorem State.setFrame_fabric (s : State) (n : Nat) (x : Frame) : (s.setFrame n x).fabric = s.fabric := rfl
@[simp] theorem State.setFrame_faults (s : State) (n : Nat) (x : Frame) : (s.setFrame n x).faults = s.faults := rfl
@[simp] theorem State.setFrame_sec (s : State) (n : Nat) (x : Frame) : (s.setFrame n x).sec = s.sec := rfl
@[simp] theorem State.setFrame_power (s : State) (n : Nat) (x : Frame) : (s.setFrame n x).power = s.power := rfl
@[simp] theorem State.setFrame_ftest (s : State) (n : Nat) (x : Frame) : (s.setFrame n x).ftest = s.ftest := rfl
@[simp] theorem State.setFrame_snap (s : State) (n : Nat) (x : Frame) : (s.setFrame n x).snap = s.snap := rfl
@[simp] theorem State.setFrame_recd (s : State) (n : Nat) (x : Frame) : (s.setFrame n x).recd = s.recd := rfl
@[simp] theorem State.setFrame_telem (s : State) (n : Nat) (x : Frame) : (s.setFrame n x).telem = s.telem := rfl
@[simp] theorem State.setFrame_regs (s : State) (n : Nat) (x : Frame) : (s.setFrame n x).regs = s.regs := rfl
@[simp] theorem State.setFrame_free (s : State) (n : Nat) (x : Frame) : (s.setFrame n x).free = s.free := rfl
@[simp] theorem State.setFrame_nextId (s : State) (n : Nat) (x : Frame) : (s.setFrame n x).nextId = s.nextId := rfl
@[simp] theorem State.setFrame_ctx (s : State) (n : Nat) (x : Frame) (d : CtxNo) : (s.setFrame n x).ctx d = s.ctx d := rfl
@[simp] theorem State.setFrame_chan (s : State) (n : Nat) (x : Frame) (d : Nat) : (s.setFrame n x).chan d = s.chan d := rfl
@[simp] theorem State.setFrame_tap (s : State) (n : Nat) (x : Frame) (d : Nat) : (s.setFrame n x).tap d = s.tap d := rfl
@[simp] theorem State.setFrame_port (s : State) (n : Nat) (x : Frame) (d : Nat) : (s.setFrame n x).port d = s.port d := rfl
@[simp] theorem State.setFrame_mbox (s : State) (n : Nat) (x : Frame) (d : Nat) : (s.setFrame n x).mbox d = s.mbox d := rfl
@[simp] theorem State.setFrame_swarm (s : State) (n : Nat) (x : Frame) (d : Nat) : (s.setFrame n x).swarm d = s.swarm d := rfl
@[simp] theorem State.setFrame_kset (s : State) (n : Nat) (x : Frame) (d : KsetNo) : (s.setFrame n x).kset d = s.kset d := rfl
@[simp] theorem State.setFrame_modulus (s : State) (n : Nat) (x : Frame) (d : Nat) : (s.setFrame n x).modulus d = s.modulus d := rfl
@[simp] theorem State.setFrame_link (s : State) (n : Nat) (x : Frame) (d : Nat) : (s.setFrame n x).link d = s.link d := rfl
@[simp] theorem State.setFrame_partner (s : State) (n : Nat) (x : Frame) (d : ChipNo) : (s.setFrame n x).partner d = s.partner d := rfl
@[simp] theorem State.setFrame_region (s : State) (n : Nat) (x : Frame) (d : Nat) : (s.setFrame n x).region d = s.region d := rfl
@[simp] theorem State.setFrame_fltCfg (s : State) (n : Nat) (x : Frame) (d : Nat) : (s.setFrame n x).fltCfg d = s.fltCfg d := rfl
@[simp] theorem State.setFrame_severity (s : State) (n : Nat) (x : Frame) (d : Nat) : (s.setFrame n x).severity d = s.severity d := rfl
@[simp] theorem State.setFrame_cpAwake (s : State) (n : Nat) (x : Frame) : (s.setFrame n x).cpAwake = s.cpAwake := rfl
@[simp] theorem State.setFrame_keeperReady (s : State) (n : Nat) (x : Frame) : (s.setFrame n x).keeperReady = s.keeperReady := rfl
@[simp] theorem State.setFrame_domainOn (s : State) (n : Nat) (x : Frame) (d : Nat) : (s.setFrame n x).domainOn d = s.domainOn d := rfl
@[simp] theorem State.setFrame_verb (s : State) (n : Nat) (x : Frame) (d : Origin) : (s.setFrame n x).verb d = s.verb d := rfl
@[simp] theorem State.setFrame_corePresent (s : State) (n : Nat) (x : Frame) (d : Nat) : (s.setFrame n x).corePresent d = s.corePresent d := rfl
@[simp] theorem State.setFrame_ifMajor (s : State) (n : Nat) (x : Frame) : (s.setFrame n x).ifMajor = s.ifMajor := rfl
@[simp] theorem State.modFrame_pending (s : State) (n : Nat) (f : Frame → Frame) : (s.modFrame n f).pending = s.pending := rfl
@[simp] theorem State.modFrame_ptime (s : State) (n : Nat) (f : Frame → Frame) : (s.modFrame n f).ptime = s.ptime := rfl
@[simp] theorem State.modFrame_inp (s : State) (n : Nat) (f : Frame → Frame) : (s.modFrame n f).inp = s.inp := rfl
@[simp] theorem State.modFrame_keeper (s : State) (n : Nat) (f : Frame → Frame) : (s.modFrame n f).keeper = s.keeper := rfl
@[simp] theorem State.modFrame_mboxes (s : State) (n : Nat) (f : Frame → Frame) : (s.modFrame n f).mboxes = s.mboxes := rfl
@[simp] theorem State.modFrame_ctxs (s : State) (n : Nat) (f : Frame → Frame) : (s.modFrame n f).ctxs = s.ctxs := rfl
@[simp] theorem State.modFrame_readyQ (s : State) (n : Nat) (f : Frame → Frame) : (s.modFrame n f).readyQ = s.readyQ := rfl
@[simp] theorem State.modFrame_chans (s : State) (n : Nat) (f : Frame → Frame) : (s.modFrame n f).chans = s.chans := rfl
@[simp] theorem State.modFrame_taps (s : State) (n : Nat) (f : Frame → Frame) : (s.modFrame n f).taps = s.taps := rfl
@[simp] theorem State.modFrame_ports (s : State) (n : Nat) (f : Frame → Frame) : (s.modFrame n f).ports = s.ports := rfl
@[simp] theorem State.modFrame_spine (s : State) (n : Nat) (f : Frame → Frame) : (s.modFrame n f).spine = s.spine := rfl
@[simp] theorem State.modFrame_swarms (s : State) (n : Nat) (f : Frame → Frame) : (s.modFrame n f).swarms = s.swarms := rfl
@[simp] theorem State.modFrame_expand (s : State) (n : Nat) (f : Frame → Frame) : (s.modFrame n f).expand = s.expand := rfl
@[simp] theorem State.modFrame_expandAt (s : State) (n : Nat) (f : Frame → Frame) : (s.modFrame n f).expandAt = s.expandAt := rfl
@[simp] theorem State.modFrame_ksets (s : State) (n : Nat) (f : Frame → Frame) : (s.modFrame n f).ksets = s.ksets := rfl
@[simp] theorem State.modFrame_mods (s : State) (n : Nat) (f : Frame → Frame) : (s.modFrame n f).mods = s.mods := rfl
@[simp] theorem State.modFrame_xlate (s : State) (n : Nat) (f : Frame → Frame) : (s.modFrame n f).xlate = s.xlate := rfl
@[simp] theorem State.modFrame_tally (s : State) (n : Nat) (f : Frame → Frame) : (s.modFrame n f).tally = s.tally := rfl
@[simp] theorem State.modFrame_fabric (s : State) (n : Nat) (f : Frame → Frame) : (s.modFrame n f).fabric = s.fabric := rfl
@[simp] theorem State.modFrame_faults (s : State) (n : Nat) (f : Frame → Frame) : (s.modFrame n f).faults = s.faults := rfl
@[simp] theorem State.modFrame_sec (s : State) (n : Nat) (f : Frame → Frame) : (s.modFrame n f).sec = s.sec := rfl
@[simp] theorem State.modFrame_power (s : State) (n : Nat) (f : Frame → Frame) : (s.modFrame n f).power = s.power := rfl
@[simp] theorem State.modFrame_ftest (s : State) (n : Nat) (f : Frame → Frame) : (s.modFrame n f).ftest = s.ftest := rfl
@[simp] theorem State.modFrame_snap (s : State) (n : Nat) (f : Frame → Frame) : (s.modFrame n f).snap = s.snap := rfl
@[simp] theorem State.modFrame_recd (s : State) (n : Nat) (f : Frame → Frame) : (s.modFrame n f).recd = s.recd := rfl
@[simp] theorem State.modFrame_telem (s : State) (n : Nat) (f : Frame → Frame) : (s.modFrame n f).telem = s.telem := rfl
@[simp] theorem State.modFrame_regs (s : State) (n : Nat) (f : Frame → Frame) : (s.modFrame n f).regs = s.regs := rfl
@[simp] theorem State.modFrame_free (s : State) (n : Nat) (f : Frame → Frame) : (s.modFrame n f).free = s.free := rfl
@[simp] theorem State.modFrame_nextId (s : State) (n : Nat) (f : Frame → Frame) : (s.modFrame n f).nextId = s.nextId := rfl
@[simp] theorem State.modFrame_ctx (s : State) (n : Nat) (f : Frame → Frame) (d : CtxNo) : (s.modFrame n f).ctx d = s.ctx d := rfl
@[simp] theorem State.modFrame_chan (s : State) (n : Nat) (f : Frame → Frame) (d : Nat) : (s.modFrame n f).chan d = s.chan d := rfl
@[simp] theorem State.modFrame_tap (s : State) (n : Nat) (f : Frame → Frame) (d : Nat) : (s.modFrame n f).tap d = s.tap d := rfl
@[simp] theorem State.modFrame_port (s : State) (n : Nat) (f : Frame → Frame) (d : Nat) : (s.modFrame n f).port d = s.port d := rfl
@[simp] theorem State.modFrame_mbox (s : State) (n : Nat) (f : Frame → Frame) (d : Nat) : (s.modFrame n f).mbox d = s.mbox d := rfl
@[simp] theorem State.modFrame_swarm (s : State) (n : Nat) (f : Frame → Frame) (d : Nat) : (s.modFrame n f).swarm d = s.swarm d := rfl
@[simp] theorem State.modFrame_kset (s : State) (n : Nat) (f : Frame → Frame) (d : KsetNo) : (s.modFrame n f).kset d = s.kset d := rfl
@[simp] theorem State.modFrame_modulus (s : State) (n : Nat) (f : Frame → Frame) (d : Nat) : (s.modFrame n f).modulus d = s.modulus d := rfl
@[simp] theorem State.modFrame_link (s : State) (n : Nat) (f : Frame → Frame) (d : Nat) : (s.modFrame n f).link d = s.link d := rfl
@[simp] theorem State.modFrame_partner (s : State) (n : Nat) (f : Frame → Frame) (d : ChipNo) : (s.modFrame n f).partner d = s.partner d := rfl
@[simp] theorem State.modFrame_region (s : State) (n : Nat) (f : Frame → Frame) (d : Nat) : (s.modFrame n f).region d = s.region d := rfl
@[simp] theorem State.modFrame_fltCfg (s : State) (n : Nat) (f : Frame → Frame) (d : Nat) : (s.modFrame n f).fltCfg d = s.fltCfg d := rfl
@[simp] theorem State.modFrame_severity (s : State) (n : Nat) (f : Frame → Frame) (d : Nat) : (s.modFrame n f).severity d = s.severity d := rfl
@[simp] theorem State.modFrame_cpAwake (s : State) (n : Nat) (f : Frame → Frame) : (s.modFrame n f).cpAwake = s.cpAwake := rfl
@[simp] theorem State.modFrame_keeperReady (s : State) (n : Nat) (f : Frame → Frame) : (s.modFrame n f).keeperReady = s.keeperReady := rfl
@[simp] theorem State.modFrame_domainOn (s : State) (n : Nat) (f : Frame → Frame) (d : Nat) : (s.modFrame n f).domainOn d = s.domainOn d := rfl
@[simp] theorem State.modFrame_verb (s : State) (n : Nat) (f : Frame → Frame) (d : Origin) : (s.modFrame n f).verb d = s.verb d := rfl
@[simp] theorem State.modFrame_corePresent (s : State) (n : Nat) (f : Frame → Frame) (d : Nat) : (s.modFrame n f).corePresent d = s.corePresent d := rfl
@[simp] theorem State.modFrame_ifMajor (s : State) (n : Nat) (f : Frame → Frame) : (s.modFrame n f).ifMajor = s.ifMajor := rfl
@[simp] theorem State.setTap_pending (s : State) (n : Nat) (x : Tap) : (s.setTap n x).pending = s.pending := rfl
@[simp] theorem State.setTap_ptime (s : State) (n : Nat) (x : Tap) : (s.setTap n x).ptime = s.ptime := rfl
@[simp] theorem State.setTap_inp (s : State) (n : Nat) (x : Tap) : (s.setTap n x).inp = s.inp := rfl
@[simp] theorem State.setTap_keeper (s : State) (n : Nat) (x : Tap) : (s.setTap n x).keeper = s.keeper := rfl
@[simp] theorem State.setTap_mboxes (s : State) (n : Nat) (x : Tap) : (s.setTap n x).mboxes = s.mboxes := rfl
@[simp] theorem State.setTap_ctxs (s : State) (n : Nat) (x : Tap) : (s.setTap n x).ctxs = s.ctxs := rfl
@[simp] theorem State.setTap_readyQ (s : State) (n : Nat) (x : Tap) : (s.setTap n x).readyQ = s.readyQ := rfl
@[simp] theorem State.setTap_chans (s : State) (n : Nat) (x : Tap) : (s.setTap n x).chans = s.chans := rfl
@[simp] theorem State.setTap_frames (s : State) (n : Nat) (x : Tap) : (s.setTap n x).frames = s.frames := rfl
@[simp] theorem State.setTap_ports (s : State) (n : Nat) (x : Tap) : (s.setTap n x).ports = s.ports := rfl
@[simp] theorem State.setTap_spine (s : State) (n : Nat) (x : Tap) : (s.setTap n x).spine = s.spine := rfl
@[simp] theorem State.setTap_swarms (s : State) (n : Nat) (x : Tap) : (s.setTap n x).swarms = s.swarms := rfl
@[simp] theorem State.setTap_expand (s : State) (n : Nat) (x : Tap) : (s.setTap n x).expand = s.expand := rfl
@[simp] theorem State.setTap_expandAt (s : State) (n : Nat) (x : Tap) : (s.setTap n x).expandAt = s.expandAt := rfl
@[simp] theorem State.setTap_ksets (s : State) (n : Nat) (x : Tap) : (s.setTap n x).ksets = s.ksets := rfl
@[simp] theorem State.setTap_mods (s : State) (n : Nat) (x : Tap) : (s.setTap n x).mods = s.mods := rfl
@[simp] theorem State.setTap_xlate (s : State) (n : Nat) (x : Tap) : (s.setTap n x).xlate = s.xlate := rfl
@[simp] theorem State.setTap_tally (s : State) (n : Nat) (x : Tap) : (s.setTap n x).tally = s.tally := rfl
@[simp] theorem State.setTap_fabric (s : State) (n : Nat) (x : Tap) : (s.setTap n x).fabric = s.fabric := rfl
@[simp] theorem State.setTap_faults (s : State) (n : Nat) (x : Tap) : (s.setTap n x).faults = s.faults := rfl
@[simp] theorem State.setTap_sec (s : State) (n : Nat) (x : Tap) : (s.setTap n x).sec = s.sec := rfl
@[simp] theorem State.setTap_power (s : State) (n : Nat) (x : Tap) : (s.setTap n x).power = s.power := rfl
@[simp] theorem State.setTap_ftest (s : State) (n : Nat) (x : Tap) : (s.setTap n x).ftest = s.ftest := rfl
@[simp] theorem State.setTap_snap (s : State) (n : Nat) (x : Tap) : (s.setTap n x).snap = s.snap := rfl
@[simp] theorem State.setTap_recd (s : State) (n : Nat) (x : Tap) : (s.setTap n x).recd = s.recd := rfl
@[simp] theorem State.setTap_telem (s : State) (n : Nat) (x : Tap) : (s.setTap n x).telem = s.telem := rfl
@[simp] theorem State.setTap_regs (s : State) (n : Nat) (x : Tap) : (s.setTap n x).regs = s.regs := rfl
@[simp] theorem State.setTap_free (s : State) (n : Nat) (x : Tap) : (s.setTap n x).free = s.free := rfl
@[simp] theorem State.setTap_nextId (s : State) (n : Nat) (x : Tap) : (s.setTap n x).nextId = s.nextId := rfl
@[simp] theorem State.setTap_ctx (s : State) (n : Nat) (x : Tap) (d : CtxNo) : (s.setTap n x).ctx d = s.ctx d := rfl
@[simp] theorem State.setTap_chan (s : State) (n : Nat) (x : Tap) (d : Nat) : (s.setTap n x).chan d = s.chan d := rfl
@[simp] theorem State.setTap_frame (s : State) (n : Nat) (x : Tap) (d : Nat) : (s.setTap n x).frame d = s.frame d := rfl
@[simp] theorem State.setTap_port (s : State) (n : Nat) (x : Tap) (d : Nat) : (s.setTap n x).port d = s.port d := rfl
@[simp] theorem State.setTap_mbox (s : State) (n : Nat) (x : Tap) (d : Nat) : (s.setTap n x).mbox d = s.mbox d := rfl
@[simp] theorem State.setTap_swarm (s : State) (n : Nat) (x : Tap) (d : Nat) : (s.setTap n x).swarm d = s.swarm d := rfl
@[simp] theorem State.setTap_kset (s : State) (n : Nat) (x : Tap) (d : KsetNo) : (s.setTap n x).kset d = s.kset d := rfl
@[simp] theorem State.setTap_modulus (s : State) (n : Nat) (x : Tap) (d : Nat) : (s.setTap n x).modulus d = s.modulus d := rfl
@[simp] theorem State.setTap_link (s : State) (n : Nat) (x : Tap) (d : Nat) : (s.setTap n x).link d = s.link d := rfl
@[simp] theorem State.setTap_partner (s : State) (n : Nat) (x : Tap) (d : ChipNo) : (s.setTap n x).partner d = s.partner d := rfl
@[simp] theorem State.setTap_region (s : State) (n : Nat) (x : Tap) (d : Nat) : (s.setTap n x).region d = s.region d := rfl
@[simp] theorem State.setTap_fltCfg (s : State) (n : Nat) (x : Tap) (d : Nat) : (s.setTap n x).fltCfg d = s.fltCfg d := rfl
@[simp] theorem State.setTap_severity (s : State) (n : Nat) (x : Tap) (d : Nat) : (s.setTap n x).severity d = s.severity d := rfl
@[simp] theorem State.setTap_cpAwake (s : State) (n : Nat) (x : Tap) : (s.setTap n x).cpAwake = s.cpAwake := rfl
@[simp] theorem State.setTap_keeperReady (s : State) (n : Nat) (x : Tap) : (s.setTap n x).keeperReady = s.keeperReady := rfl
@[simp] theorem State.setTap_domainOn (s : State) (n : Nat) (x : Tap) (d : Nat) : (s.setTap n x).domainOn d = s.domainOn d := rfl
@[simp] theorem State.setTap_verb (s : State) (n : Nat) (x : Tap) (d : Origin) : (s.setTap n x).verb d = s.verb d := rfl
@[simp] theorem State.setTap_corePresent (s : State) (n : Nat) (x : Tap) (d : Nat) : (s.setTap n x).corePresent d = s.corePresent d := rfl
@[simp] theorem State.setTap_ifMajor (s : State) (n : Nat) (x : Tap) : (s.setTap n x).ifMajor = s.ifMajor := rfl
@[simp] theorem State.setPort_pending (s : State) (n : Nat) (x : Port) : (s.setPort n x).pending = s.pending := rfl
@[simp] theorem State.setPort_ptime (s : State) (n : Nat) (x : Port) : (s.setPort n x).ptime = s.ptime := rfl
@[simp] theorem State.setPort_inp (s : State) (n : Nat) (x : Port) : (s.setPort n x).inp = s.inp := rfl
@[simp] theorem State.setPort_keeper (s : State) (n : Nat) (x : Port) : (s.setPort n x).keeper = s.keeper := rfl
@[simp] theorem State.setPort_mboxes (s : State) (n : Nat) (x : Port) : (s.setPort n x).mboxes = s.mboxes := rfl
@[simp] theorem State.setPort_ctxs (s : State) (n : Nat) (x : Port) : (s.setPort n x).ctxs = s.ctxs := rfl
@[simp] theorem State.setPort_readyQ (s : State) (n : Nat) (x : Port) : (s.setPort n x).readyQ = s.readyQ := rfl
@[simp] theorem State.setPort_chans (s : State) (n : Nat) (x : Port) : (s.setPort n x).chans = s.chans := rfl
@[simp] theorem State.setPort_frames (s : State) (n : Nat) (x : Port) : (s.setPort n x).frames = s.frames := rfl
@[simp] theorem State.setPort_taps (s : State) (n : Nat) (x : Port) : (s.setPort n x).taps = s.taps := rfl
@[simp] theorem State.setPort_spine (s : State) (n : Nat) (x : Port) : (s.setPort n x).spine = s.spine := rfl
@[simp] theorem State.setPort_swarms (s : State) (n : Nat) (x : Port) : (s.setPort n x).swarms = s.swarms := rfl
@[simp] theorem State.setPort_expand (s : State) (n : Nat) (x : Port) : (s.setPort n x).expand = s.expand := rfl
@[simp] theorem State.setPort_expandAt (s : State) (n : Nat) (x : Port) : (s.setPort n x).expandAt = s.expandAt := rfl
@[simp] theorem State.setPort_ksets (s : State) (n : Nat) (x : Port) : (s.setPort n x).ksets = s.ksets := rfl
@[simp] theorem State.setPort_mods (s : State) (n : Nat) (x : Port) : (s.setPort n x).mods = s.mods := rfl
@[simp] theorem State.setPort_xlate (s : State) (n : Nat) (x : Port) : (s.setPort n x).xlate = s.xlate := rfl
@[simp] theorem State.setPort_tally (s : State) (n : Nat) (x : Port) : (s.setPort n x).tally = s.tally := rfl
@[simp] theorem State.setPort_fabric (s : State) (n : Nat) (x : Port) : (s.setPort n x).fabric = s.fabric := rfl
@[simp] theorem State.setPort_faults (s : State) (n : Nat) (x : Port) : (s.setPort n x).faults = s.faults := rfl
@[simp] theorem State.setPort_sec (s : State) (n : Nat) (x : Port) : (s.setPort n x).sec = s.sec := rfl
@[simp] theorem State.setPort_power (s : State) (n : Nat) (x : Port) : (s.setPort n x).power = s.power := rfl
@[simp] theorem State.setPort_ftest (s : State) (n : Nat) (x : Port) : (s.setPort n x).ftest = s.ftest := rfl
@[simp] theorem State.setPort_snap (s : State) (n : Nat) (x : Port) : (s.setPort n x).snap = s.snap := rfl
@[simp] theorem State.setPort_recd (s : State) (n : Nat) (x : Port) : (s.setPort n x).recd = s.recd := rfl
@[simp] theorem State.setPort_telem (s : State) (n : Nat) (x : Port) : (s.setPort n x).telem = s.telem := rfl
@[simp] theorem State.setPort_regs (s : State) (n : Nat) (x : Port) : (s.setPort n x).regs = s.regs := rfl
@[simp] theorem State.setPort_free (s : State) (n : Nat) (x : Port) : (s.setPort n x).free = s.free := rfl
@[simp] theorem State.setPort_nextId (s : State) (n : Nat) (x : Port) : (s.setPort n x).nextId = s.nextId := rfl
@[simp] theorem State.setPort_ctx (s : State) (n : Nat) (x : Port) (d : CtxNo) : (s.setPort n x).ctx d = s.ctx d := rfl
@[simp] theorem State.setPort_chan (s : State) (n : Nat) (x : Port) (d : Nat) : (s.setPort n x).chan d = s.chan d := rfl
@[simp] theorem State.setPort_frame (s : State) (n : Nat) (x : Port) (d : Nat) : (s.setPort n x).frame d = s.frame d := rfl
@[simp] theorem State.setPort_tap (s : State) (n : Nat) (x : Port) (d : Nat) : (s.setPort n x).tap d = s.tap d := rfl
@[simp] theorem State.setPort_mbox (s : State) (n : Nat) (x : Port) (d : Nat) : (s.setPort n x).mbox d = s.mbox d := rfl
@[simp] theorem State.setPort_swarm (s : State) (n : Nat) (x : Port) (d : Nat) : (s.setPort n x).swarm d = s.swarm d := rfl
@[simp] theorem State.setPort_kset (s : State) (n : Nat) (x : Port) (d : KsetNo) : (s.setPort n x).kset d = s.kset d := rfl
@[simp] theorem State.setPort_modulus (s : State) (n : Nat) (x : Port) (d : Nat) : (s.setPort n x).modulus d = s.modulus d := rfl
@[simp] theorem State.setPort_link (s : State) (n : Nat) (x : Port) (d : Nat) : (s.setPort n x).link d = s.link d := rfl
@[simp] theorem State.setPort_partner (s : State) (n : Nat) (x : Port) (d : ChipNo) : (s.setPort n x).partner d = s.partner d := rfl
@[simp] theorem State.setPort_region (s : State) (n : Nat) (x : Port) (d : Nat) : (s.setPort n x).region d = s.region d := rfl
@[simp] theorem State.setPort_fltCfg (s : State) (n : Nat) (x : Port) (d : Nat) : (s.setPort n x).fltCfg d = s.fltCfg d := rfl
@[simp] theorem State.setPort_severity (s : State) (n : Nat) (x : Port) (d : Nat) : (s.setPort n x).severity d = s.severity d := rfl
@[simp] theorem State.setPort_cpAwake (s : State) (n : Nat) (x : Port) : (s.setPort n x).cpAwake = s.cpAwake := rfl
@[simp] theorem State.setPort_keeperReady (s : State) (n : Nat) (x : Port) : (s.setPort n x).keeperReady = s.keeperReady := rfl
@[simp] theorem State.setPort_domainOn (s : State) (n : Nat) (x : Port) (d : Nat) : (s.setPort n x).domainOn d = s.domainOn d := rfl
@[simp] theorem State.setPort_verb (s : State) (n : Nat) (x : Port) (d : Origin) : (s.setPort n x).verb d = s.verb d := rfl
@[simp] theorem State.setPort_corePresent (s : State) (n : Nat) (x : Port) (d : Nat) : (s.setPort n x).corePresent d = s.corePresent d := rfl
@[simp] theorem State.setPort_ifMajor (s : State) (n : Nat) (x : Port) : (s.setPort n x).ifMajor = s.ifMajor := rfl
@[simp] theorem State.setMbox_pending (s : State) (n : Nat) (x : Mailbox) : (s.setMbox n x).pending = s.pending := rfl
@[simp] theorem State.setMbox_ptime (s : State) (n : Nat) (x : Mailbox) : (s.setMbox n x).ptime = s.ptime := rfl
@[simp] theorem State.setMbox_inp (s : State) (n : Nat) (x : Mailbox) : (s.setMbox n x).inp = s.inp := rfl
@[simp] theorem State.setMbox_keeper (s : State) (n : Nat) (x : Mailbox) : (s.setMbox n x).keeper = s.keeper := rfl
@[simp] theorem State.setMbox_ctxs (s : State) (n : Nat) (x : Mailbox) : (s.setMbox n x).ctxs = s.ctxs := rfl
@[simp] theorem State.setMbox_readyQ (s : State) (n : Nat) (x : Mailbox) : (s.setMbox n x).readyQ = s.readyQ := rfl
@[simp] theorem State.setMbox_chans (s : State) (n : Nat) (x : Mailbox) : (s.setMbox n x).chans = s.chans := rfl
@[simp] theorem State.setMbox_frames (s : State) (n : Nat) (x : Mailbox) : (s.setMbox n x).frames = s.frames := rfl
@[simp] theorem State.setMbox_taps (s : State) (n : Nat) (x : Mailbox) : (s.setMbox n x).taps = s.taps := rfl
@[simp] theorem State.setMbox_ports (s : State) (n : Nat) (x : Mailbox) : (s.setMbox n x).ports = s.ports := rfl
@[simp] theorem State.setMbox_spine (s : State) (n : Nat) (x : Mailbox) : (s.setMbox n x).spine = s.spine := rfl
@[simp] theorem State.setMbox_swarms (s : State) (n : Nat) (x : Mailbox) : (s.setMbox n x).swarms = s.swarms := rfl
@[simp] theorem State.setMbox_expand (s : State) (n : Nat) (x : Mailbox) : (s.setMbox n x).expand = s.expand := rfl
@[simp] theorem State.setMbox_expandAt (s : State) (n : Nat) (x : Mailbox) : (s.setMbox n x).expandAt = s.expandAt := rfl
@[simp] theorem State.setMbox_ksets (s : State) (n : Nat) (x : Mailbox) : (s.setMbox n x).ksets = s.ksets := rfl
@[simp] theorem State.setMbox_mods (s : State) (n : Nat) (x : Mailbox) : (s.setMbox n x).mods = s.mods := rfl
@[simp] theorem State.setMbox_xlate (s : State) (n : Nat) (x : Mailbox) : (s.setMbox n x).xlate = s.xlate := rfl
@[simp] theorem State.setMbox_tally (s : State) (n : Nat) (x : Mailbox) : (s.setMbox n x).tally = s.tally := rfl
@[simp] theorem State.setMbox_fabric (s : State) (n : Nat) (x : Mailbox) : (s.setMbox n x).fabric = s.fabric := rfl
@[simp] theorem State.setMbox_faults (s : State) (n : Nat) (x : Mailbox) : (s.setMbox n x).faults = s.faults := rfl
@[simp] theorem State.setMbox_sec (s : State) (n : Nat) (x : Mailbox) : (s.setMbox n x).sec = s.sec := rfl
@[simp] theorem State.setMbox_power (s : State) (n : Nat) (x : Mailbox) : (s.setMbox n x).power = s.power := rfl
@[simp] theorem State.setMbox_ftest (s : State) (n : Nat) (x : Mailbox) : (s.setMbox n x).ftest = s.ftest := rfl
@[simp] theorem State.setMbox_snap (s : State) (n : Nat) (x : Mailbox) : (s.setMbox n x).snap = s.snap := rfl
@[simp] theorem State.setMbox_recd (s : State) (n : Nat) (x : Mailbox) : (s.setMbox n x).recd = s.recd := rfl
@[simp] theorem State.setMbox_telem (s : State) (n : Nat) (x : Mailbox) : (s.setMbox n x).telem = s.telem := rfl
@[simp] theorem State.setMbox_regs (s : State) (n : Nat) (x : Mailbox) : (s.setMbox n x).regs = s.regs := rfl
@[simp] theorem State.setMbox_free (s : State) (n : Nat) (x : Mailbox) : (s.setMbox n x).free = s.free := rfl
@[simp] theorem State.setMbox_nextId (s : State) (n : Nat) (x : Mailbox) : (s.setMbox n x).nextId = s.nextId := rfl
@[simp] theorem State.setMbox_ctx (s : State) (n : Nat) (x : Mailbox) (d : CtxNo) : (s.setMbox n x).ctx d = s.ctx d := rfl
@[simp] theorem State.setMbox_chan (s : State) (n : Nat) (x : Mailbox) (d : Nat) : (s.setMbox n x).chan d = s.chan d := rfl
@[simp] theorem State.setMbox_frame (s : State) (n : Nat) (x : Mailbox) (d : Nat) : (s.setMbox n x).frame d = s.frame d := rfl
@[simp] theorem State.setMbox_tap (s : State) (n : Nat) (x : Mailbox) (d : Nat) : (s.setMbox n x).tap d = s.tap d := rfl
@[simp] theorem State.setMbox_port (s : State) (n : Nat) (x : Mailbox) (d : Nat) : (s.setMbox n x).port d = s.port d := rfl
@[simp] theorem State.setMbox_swarm (s : State) (n : Nat) (x : Mailbox) (d : Nat) : (s.setMbox n x).swarm d = s.swarm d := rfl
@[simp] theorem State.setMbox_kset (s : State) (n : Nat) (x : Mailbox) (d : KsetNo) : (s.setMbox n x).kset d = s.kset d := rfl
@[simp] theorem State.setMbox_modulus (s : State) (n : Nat) (x : Mailbox) (d : Nat) : (s.setMbox n x).modulus d = s.modulus d := rfl
@[simp] theorem State.setMbox_link (s : State) (n : Nat) (x : Mailbox) (d : Nat) : (s.setMbox n x).link d = s.link d := rfl
@[simp] theorem State.setMbox_partner (s : State) (n : Nat) (x : Mailbox) (d : ChipNo) : (s.setMbox n x).partner d = s.partner d := rfl
@[simp] theorem State.setMbox_region (s : State) (n : Nat) (x : Mailbox) (d : Nat) : (s.setMbox n x).region d = s.region d := rfl
@[simp] theorem State.setMbox_fltCfg (s : State) (n : Nat) (x : Mailbox) (d : Nat) : (s.setMbox n x).fltCfg d = s.fltCfg d := rfl
@[simp] theorem State.setMbox_severity (s : State) (n : Nat) (x : Mailbox) (d : Nat) : (s.setMbox n x).severity d = s.severity d := rfl
@[simp] theorem State.setMbox_cpAwake (s : State) (n : Nat) (x : Mailbox) : (s.setMbox n x).cpAwake = s.cpAwake := rfl
@[simp] theorem State.setMbox_keeperReady (s : State) (n : Nat) (x : Mailbox) : (s.setMbox n x).keeperReady = s.keeperReady := rfl
@[simp] theorem State.setMbox_domainOn (s : State) (n : Nat) (x : Mailbox) (d : Nat) : (s.setMbox n x).domainOn d = s.domainOn d := rfl
@[simp] theorem State.setMbox_verb (s : State) (n : Nat) (x : Mailbox) (d : Origin) : (s.setMbox n x).verb d = s.verb d := rfl
@[simp] theorem State.setMbox_corePresent (s : State) (n : Nat) (x : Mailbox) (d : Nat) : (s.setMbox n x).corePresent d = s.corePresent d := rfl
@[simp] theorem State.setMbox_ifMajor (s : State) (n : Nat) (x : Mailbox) : (s.setMbox n x).ifMajor = s.ifMajor := rfl
@[simp] theorem State.modMbox_pending (s : State) (n : Nat) (f : Mailbox → Mailbox) : (s.modMbox n f).pending = s.pending := rfl
@[simp] theorem State.modMbox_ptime (s : State) (n : Nat) (f : Mailbox → Mailbox) : (s.modMbox n f).ptime = s.ptime := rfl
@[simp] theorem State.modMbox_inp (s : State) (n : Nat) (f : Mailbox → Mailbox) : (s.modMbox n f).inp = s.inp := rfl
@[simp] theorem State.modMbox_keeper (s : State) (n : Nat) (f : Mailbox → Mailbox) : (s.modMbox n f).keeper = s.keeper := rfl
@[simp] theorem State.modMbox_ctxs (s : State) (n : Nat) (f : Mailbox → Mailbox) : (s.modMbox n f).ctxs = s.ctxs := rfl
@[simp] theorem State.modMbox_readyQ (s : State) (n : Nat) (f : Mailbox → Mailbox) : (s.modMbox n f).readyQ = s.readyQ := rfl
@[simp] theorem State.modMbox_chans (s : State) (n : Nat) (f : Mailbox → Mailbox) : (s.modMbox n f).chans = s.chans := rfl
@[simp] theorem State.modMbox_frames (s : State) (n : Nat) (f : Mailbox → Mailbox) : (s.modMbox n f).frames = s.frames := rfl
@[simp] theorem State.modMbox_taps (s : State) (n : Nat) (f : Mailbox → Mailbox) : (s.modMbox n f).taps = s.taps := rfl
@[simp] theorem State.modMbox_ports (s : State) (n : Nat) (f : Mailbox → Mailbox) : (s.modMbox n f).ports = s.ports := rfl
@[simp] theorem State.modMbox_spine (s : State) (n : Nat) (f : Mailbox → Mailbox) : (s.modMbox n f).spine = s.spine := rfl
@[simp] theorem State.modMbox_swarms (s : State) (n : Nat) (f : Mailbox → Mailbox) : (s.modMbox n f).swarms = s.swarms := rfl
@[simp] theorem State.modMbox_expand (s : State) (n : Nat) (f : Mailbox → Mailbox) : (s.modMbox n f).expand = s.expand := rfl
@[simp] theorem State.modMbox_expandAt (s : State) (n : Nat) (f : Mailbox → Mailbox) : (s.modMbox n f).expandAt = s.expandAt := rfl
@[simp] theorem State.modMbox_ksets (s : State) (n : Nat) (f : Mailbox → Mailbox) : (s.modMbox n f).ksets = s.ksets := rfl
@[simp] theorem State.modMbox_mods (s : State) (n : Nat) (f : Mailbox → Mailbox) : (s.modMbox n f).mods = s.mods := rfl
@[simp] theorem State.modMbox_xlate (s : State) (n : Nat) (f : Mailbox → Mailbox) : (s.modMbox n f).xlate = s.xlate := rfl
@[simp] theorem State.modMbox_tally (s : State) (n : Nat) (f : Mailbox → Mailbox) : (s.modMbox n f).tally = s.tally := rfl
@[simp] theorem State.modMbox_fabric (s : State) (n : Nat) (f : Mailbox → Mailbox) : (s.modMbox n f).fabric = s.fabric := rfl
@[simp] theorem State.modMbox_faults (s : State) (n : Nat) (f : Mailbox → Mailbox) : (s.modMbox n f).faults = s.faults := rfl
@[simp] theorem State.modMbox_sec (s : State) (n : Nat) (f : Mailbox → Mailbox) : (s.modMbox n f).sec = s.sec := rfl
@[simp] theorem State.modMbox_power (s : State) (n : Nat) (f : Mailbox → Mailbox) : (s.modMbox n f).power = s.power := rfl
@[simp] theorem State.modMbox_ftest (s : State) (n : Nat) (f : Mailbox → Mailbox) : (s.modMbox n f).ftest = s.ftest := rfl
@[simp] theorem State.modMbox_snap (s : State) (n : Nat) (f : Mailbox → Mailbox) : (s.modMbox n f).snap = s.snap := rfl
@[simp] theorem State.modMbox_recd (s : State) (n : Nat) (f : Mailbox → Mailbox) : (s.modMbox n f).recd = s.recd := rfl
@[simp] theorem State.modMbox_telem (s : State) (n : Nat) (f : Mailbox → Mailbox) : (s.modMbox n f).telem = s.telem := rfl
@[simp] theorem State.modMbox_regs (s : State) (n : Nat) (f : Mailbox → Mailbox) : (s.modMbox n f).regs = s.regs := rfl
@[simp] theorem State.modMbox_free (s : State) (n : Nat) (f : Mailbox → Mailbox) : (s.modMbox n f).free = s.free := rfl
@[simp] theorem State.modMbox_nextId (s : State) (n : Nat) (f : Mailbox → Mailbox) : (s.modMbox n f).nextId = s.nextId := rfl
@[simp] theorem State.modMbox_ctx (s : State) (n : Nat) (f : Mailbox → Mailbox) (d : CtxNo) : (s.modMbox n f).ctx d = s.ctx d := rfl
@[simp] theorem State.modMbox_chan (s : State) (n : Nat) (f : Mailbox → Mailbox) (d : Nat) : (s.modMbox n f).chan d = s.chan d := rfl
@[simp] theorem State.modMbox_frame (s : State) (n : Nat) (f : Mailbox → Mailbox) (d : Nat) : (s.modMbox n f).frame d = s.frame d := rfl
@[simp] theorem State.modMbox_tap (s : State) (n : Nat) (f : Mailbox → Mailbox) (d : Nat) : (s.modMbox n f).tap d = s.tap d := rfl
@[simp] theorem State.modMbox_port (s : State) (n : Nat) (f : Mailbox → Mailbox) (d : Nat) : (s.modMbox n f).port d = s.port d := rfl
@[simp] theorem State.modMbox_swarm (s : State) (n : Nat) (f : Mailbox → Mailbox) (d : Nat) : (s.modMbox n f).swarm d = s.swarm d := rfl
@[simp] theorem State.modMbox_kset (s : State) (n : Nat) (f : Mailbox → Mailbox) (d : KsetNo) : (s.modMbox n f).kset d = s.kset d := rfl
@[simp] theorem State.modMbox_modulus (s : State) (n : Nat) (f : Mailbox → Mailbox) (d : Nat) : (s.modMbox n f).modulus d = s.modulus d := rfl
@[simp] theorem State.modMbox_link (s : State) (n : Nat) (f : Mailbox → Mailbox) (d : Nat) : (s.modMbox n f).link d = s.link d := rfl
@[simp] theorem State.modMbox_partner (s : State) (n : Nat) (f : Mailbox → Mailbox) (d : ChipNo) : (s.modMbox n f).partner d = s.partner d := rfl
@[simp] theorem State.modMbox_region (s : State) (n : Nat) (f : Mailbox → Mailbox) (d : Nat) : (s.modMbox n f).region d = s.region d := rfl
@[simp] theorem State.modMbox_fltCfg (s : State) (n : Nat) (f : Mailbox → Mailbox) (d : Nat) : (s.modMbox n f).fltCfg d = s.fltCfg d := rfl
@[simp] theorem State.modMbox_severity (s : State) (n : Nat) (f : Mailbox → Mailbox) (d : Nat) : (s.modMbox n f).severity d = s.severity d := rfl
@[simp] theorem State.modMbox_cpAwake (s : State) (n : Nat) (f : Mailbox → Mailbox) : (s.modMbox n f).cpAwake = s.cpAwake := rfl
@[simp] theorem State.modMbox_keeperReady (s : State) (n : Nat) (f : Mailbox → Mailbox) : (s.modMbox n f).keeperReady = s.keeperReady := rfl
@[simp] theorem State.modMbox_domainOn (s : State) (n : Nat) (f : Mailbox → Mailbox) (d : Nat) : (s.modMbox n f).domainOn d = s.domainOn d := rfl
@[simp] theorem State.modMbox_verb (s : State) (n : Nat) (f : Mailbox → Mailbox) (d : Origin) : (s.modMbox n f).verb d = s.verb d := rfl
@[simp] theorem State.modMbox_corePresent (s : State) (n : Nat) (f : Mailbox → Mailbox) (d : Nat) : (s.modMbox n f).corePresent d = s.corePresent d := rfl
@[simp] theorem State.modMbox_ifMajor (s : State) (n : Nat) (f : Mailbox → Mailbox) : (s.modMbox n f).ifMajor = s.ifMajor := rfl
@[simp] theorem State.setSwarm_pending (s : State) (n : Nat) (x : Swarm) : (s.setSwarm n x).pending = s.pending := rfl
@[simp] theorem State.setSwarm_ptime (s : State) (n : Nat) (x : Swarm) : (s.setSwarm n x).ptime = s.ptime := rfl
@[simp] theorem State.setSwarm_inp (s : State) (n : Nat) (x : Swarm) : (s.setSwarm n x).inp = s.inp := rfl
@[simp] theorem State.setSwarm_keeper (s : State) (n : Nat) (x : Swarm) : (s.setSwarm n x).keeper = s.keeper := rfl
@[simp] theorem State.setSwarm_mboxes (s : State) (n : Nat) (x : Swarm) : (s.setSwarm n x).mboxes = s.mboxes := rfl
@[simp] theorem State.setSwarm_ctxs (s : State) (n : Nat) (x : Swarm) : (s.setSwarm n x).ctxs = s.ctxs := rfl
@[simp] theorem State.setSwarm_readyQ (s : State) (n : Nat) (x : Swarm) : (s.setSwarm n x).readyQ = s.readyQ := rfl
@[simp] theorem State.setSwarm_chans (s : State) (n : Nat) (x : Swarm) : (s.setSwarm n x).chans = s.chans := rfl
@[simp] theorem State.setSwarm_frames (s : State) (n : Nat) (x : Swarm) : (s.setSwarm n x).frames = s.frames := rfl
@[simp] theorem State.setSwarm_taps (s : State) (n : Nat) (x : Swarm) : (s.setSwarm n x).taps = s.taps := rfl
@[simp] theorem State.setSwarm_ports (s : State) (n : Nat) (x : Swarm) : (s.setSwarm n x).ports = s.ports := rfl
@[simp] theorem State.setSwarm_spine (s : State) (n : Nat) (x : Swarm) : (s.setSwarm n x).spine = s.spine := rfl
@[simp] theorem State.setSwarm_expand (s : State) (n : Nat) (x : Swarm) : (s.setSwarm n x).expand = s.expand := rfl
@[simp] theorem State.setSwarm_expandAt (s : State) (n : Nat) (x : Swarm) : (s.setSwarm n x).expandAt = s.expandAt := rfl
@[simp] theorem State.setSwarm_ksets (s : State) (n : Nat) (x : Swarm) : (s.setSwarm n x).ksets = s.ksets := rfl
@[simp] theorem State.setSwarm_mods (s : State) (n : Nat) (x : Swarm) : (s.setSwarm n x).mods = s.mods := rfl
@[simp] theorem State.setSwarm_xlate (s : State) (n : Nat) (x : Swarm) : (s.setSwarm n x).xlate = s.xlate := rfl
@[simp] theorem State.setSwarm_tally (s : State) (n : Nat) (x : Swarm) : (s.setSwarm n x).tally = s.tally := rfl
@[simp] theorem State.setSwarm_fabric (s : State) (n : Nat) (x : Swarm) : (s.setSwarm n x).fabric = s.fabric := rfl
@[simp] theorem State.setSwarm_faults (s : State) (n : Nat) (x : Swarm) : (s.setSwarm n x).faults = s.faults := rfl
@[simp] theorem State.setSwarm_sec (s : State) (n : Nat) (x : Swarm) : (s.setSwarm n x).sec = s.sec := rfl
@[simp] theorem State.setSwarm_power (s : State) (n : Nat) (x : Swarm) : (s.setSwarm n x).power = s.power := rfl
@[simp] theorem State.setSwarm_ftest (s : State) (n : Nat) (x : Swarm) : (s.setSwarm n x).ftest = s.ftest := rfl
@[simp] theorem State.setSwarm_snap (s : State) (n : Nat) (x : Swarm) : (s.setSwarm n x).snap = s.snap := rfl
@[simp] theorem State.setSwarm_recd (s : State) (n : Nat) (x : Swarm) : (s.setSwarm n x).recd = s.recd := rfl
@[simp] theorem State.setSwarm_telem (s : State) (n : Nat) (x : Swarm) : (s.setSwarm n x).telem = s.telem := rfl
@[simp] theorem State.setSwarm_regs (s : State) (n : Nat) (x : Swarm) : (s.setSwarm n x).regs = s.regs := rfl
@[simp] theorem State.setSwarm_free (s : State) (n : Nat) (x : Swarm) : (s.setSwarm n x).free = s.free := rfl
@[simp] theorem State.setSwarm_nextId (s : State) (n : Nat) (x : Swarm) : (s.setSwarm n x).nextId = s.nextId := rfl
@[simp] theorem State.setSwarm_ctx (s : State) (n : Nat) (x : Swarm) (d : CtxNo) : (s.setSwarm n x).ctx d = s.ctx d := rfl
@[simp] theorem State.setSwarm_chan (s : State) (n : Nat) (x : Swarm) (d : Nat) : (s.setSwarm n x).chan d = s.chan d := rfl
@[simp] theorem State.setSwarm_frame (s : State) (n : Nat) (x : Swarm) (d : Nat) : (s.setSwarm n x).frame d = s.frame d := rfl
@[simp] theorem State.setSwarm_tap (s : State) (n : Nat) (x : Swarm) (d : Nat) : (s.setSwarm n x).tap d = s.tap d := rfl
@[simp] theorem State.setSwarm_port (s : State) (n : Nat) (x : Swarm) (d : Nat) : (s.setSwarm n x).port d = s.port d := rfl
@[simp] theorem State.setSwarm_mbox (s : State) (n : Nat) (x : Swarm) (d : Nat) : (s.setSwarm n x).mbox d = s.mbox d := rfl
@[simp] theorem State.setSwarm_kset (s : State) (n : Nat) (x : Swarm) (d : KsetNo) : (s.setSwarm n x).kset d = s.kset d := rfl
@[simp] theorem State.setSwarm_modulus (s : State) (n : Nat) (x : Swarm) (d : Nat) : (s.setSwarm n x).modulus d = s.modulus d := rfl
@[simp] theorem State.setSwarm_link (s : State) (n : Nat) (x : Swarm) (d : Nat) : (s.setSwarm n x).link d = s.link d := rfl
@[simp] theorem State.setSwarm_partner (s : State) (n : Nat) (x : Swarm) (d : ChipNo) : (s.setSwarm n x).partner d = s.partner d := rfl
@[simp] theorem State.setSwarm_region (s : State) (n : Nat) (x : Swarm) (d : Nat) : (s.setSwarm n x).region d = s.region d := rfl
@[simp] theorem State.setSwarm_fltCfg (s : State) (n : Nat) (x : Swarm) (d : Nat) : (s.setSwarm n x).fltCfg d = s.fltCfg d := rfl
@[simp] theorem State.setSwarm_severity (s : State) (n : Nat) (x : Swarm) (d : Nat) : (s.setSwarm n x).severity d = s.severity d := rfl
@[simp] theorem State.setSwarm_cpAwake (s : State) (n : Nat) (x : Swarm) : (s.setSwarm n x).cpAwake = s.cpAwake := rfl
@[simp] theorem State.setSwarm_keeperReady (s : State) (n : Nat) (x : Swarm) : (s.setSwarm n x).keeperReady = s.keeperReady := rfl
@[simp] theorem State.setSwarm_domainOn (s : State) (n : Nat) (x : Swarm) (d : Nat) : (s.setSwarm n x).domainOn d = s.domainOn d := rfl
@[simp] theorem State.setSwarm_verb (s : State) (n : Nat) (x : Swarm) (d : Origin) : (s.setSwarm n x).verb d = s.verb d := rfl
@[simp] theorem State.setSwarm_corePresent (s : State) (n : Nat) (x : Swarm) (d : Nat) : (s.setSwarm n x).corePresent d = s.corePresent d := rfl
@[simp] theorem State.setSwarm_ifMajor (s : State) (n : Nat) (x : Swarm) : (s.setSwarm n x).ifMajor = s.ifMajor := rfl
@[simp] theorem State.setKset_pending (s : State) (k : KsetNo) (x : KeySet) : (s.setKset k x).pending = s.pending := rfl
@[simp] theorem State.setKset_ptime (s : State) (k : KsetNo) (x : KeySet) : (s.setKset k x).ptime = s.ptime := rfl
@[simp] theorem State.setKset_inp (s : State) (k : KsetNo) (x : KeySet) : (s.setKset k x).inp = s.inp := rfl
@[simp] theorem State.setKset_keeper (s : State) (k : KsetNo) (x : KeySet) : (s.setKset k x).keeper = s.keeper := rfl
@[simp] theorem State.setKset_mboxes (s : State) (k : KsetNo) (x : KeySet) : (s.setKset k x).mboxes = s.mboxes := rfl
@[simp] theorem State.setKset_ctxs (s : State) (k : KsetNo) (x : KeySet) : (s.setKset k x).ctxs = s.ctxs := rfl
@[simp] theorem State.setKset_readyQ (s : State) (k : KsetNo) (x : KeySet) : (s.setKset k x).readyQ = s.readyQ := rfl
@[simp] theorem State.setKset_chans (s : State) (k : KsetNo) (x : KeySet) : (s.setKset k x).chans = s.chans := rfl
@[simp] theorem State.setKset_frames (s : State) (k : KsetNo) (x : KeySet) : (s.setKset k x).frames = s.frames := rfl
@[simp] theorem State.setKset_taps (s : State) (k : KsetNo) (x : KeySet) : (s.setKset k x).taps = s.taps := rfl
@[simp] theorem State.setKset_ports (s : State) (k : KsetNo) (x : KeySet) : (s.setKset k x).ports = s.ports := rfl
@[simp] theorem State.setKset_spine (s : State) (k : KsetNo) (x : KeySet) : (s.setKset k x).spine = s.spine := rfl
@[simp] theorem State.setKset_swarms (s : State) (k : KsetNo) (x : KeySet) : (s.setKset k x).swarms = s.swarms := rfl
@[simp] theorem State.setKset_expand (s : State) (k : KsetNo) (x : KeySet) : (s.setKset k x).expand = s.expand := rfl
@[simp] theorem State.setKset_expandAt (s : State) (k : KsetNo) (x : KeySet) : (s.setKset k x).expandAt = s.expandAt := rfl
@[simp] theorem State.setKset_mods (s : State) (k : KsetNo) (x : KeySet) : (s.setKset k x).mods = s.mods := rfl
@[simp] theorem State.setKset_xlate (s : State) (k : KsetNo) (x : KeySet) : (s.setKset k x).xlate = s.xlate := rfl
@[simp] theorem State.setKset_tally (s : State) (k : KsetNo) (x : KeySet) : (s.setKset k x).tally = s.tally := rfl
@[simp] theorem State.setKset_fabric (s : State) (k : KsetNo) (x : KeySet) : (s.setKset k x).fabric = s.fabric := rfl
@[simp] theorem State.setKset_faults (s : State) (k : KsetNo) (x : KeySet) : (s.setKset k x).faults = s.faults := rfl
@[simp] theorem State.setKset_sec (s : State) (k : KsetNo) (x : KeySet) : (s.setKset k x).sec = s.sec := rfl
@[simp] theorem State.setKset_power (s : State) (k : KsetNo) (x : KeySet) : (s.setKset k x).power = s.power := rfl
@[simp] theorem State.setKset_ftest (s : State) (k : KsetNo) (x : KeySet) : (s.setKset k x).ftest = s.ftest := rfl
@[simp] theorem State.setKset_snap (s : State) (k : KsetNo) (x : KeySet) : (s.setKset k x).snap = s.snap := rfl
@[simp] theorem State.setKset_recd (s : State) (k : KsetNo) (x : KeySet) : (s.setKset k x).recd = s.recd := rfl
@[simp] theorem State.setKset_telem (s : State) (k : KsetNo) (x : KeySet) : (s.setKset k x).telem = s.telem := rfl
@[simp] theorem State.setKset_regs (s : State) (k : KsetNo) (x : KeySet) : (s.setKset k x).regs = s.regs := rfl
@[simp] theorem State.setKset_free (s : State) (k : KsetNo) (x : KeySet) : (s.setKset k x).free = s.free := rfl
@[simp] theorem State.setKset_nextId (s : State) (k : KsetNo) (x : KeySet) : (s.setKset k x).nextId = s.nextId := rfl
@[simp] theorem State.setKset_ctx (s : State) (k : KsetNo) (x : KeySet) (d : CtxNo) : (s.setKset k x).ctx d = s.ctx d := rfl
@[simp] theorem State.setKset_chan (s : State) (k : KsetNo) (x : KeySet) (d : Nat) : (s.setKset k x).chan d = s.chan d := rfl
@[simp] theorem State.setKset_frame (s : State) (k : KsetNo) (x : KeySet) (d : Nat) : (s.setKset k x).frame d = s.frame d := rfl
@[simp] theorem State.setKset_tap (s : State) (k : KsetNo) (x : KeySet) (d : Nat) : (s.setKset k x).tap d = s.tap d := rfl
@[simp] theorem State.setKset_port (s : State) (k : KsetNo) (x : KeySet) (d : Nat) : (s.setKset k x).port d = s.port d := rfl
@[simp] theorem State.setKset_mbox (s : State) (k : KsetNo) (x : KeySet) (d : Nat) : (s.setKset k x).mbox d = s.mbox d := rfl
@[simp] theorem State.setKset_swarm (s : State) (k : KsetNo) (x : KeySet) (d : Nat) : (s.setKset k x).swarm d = s.swarm d := rfl
@[simp] theorem State.setKset_modulus (s : State) (k : KsetNo) (x : KeySet) (d : Nat) : (s.setKset k x).modulus d = s.modulus d := rfl
@[simp] theorem State.setKset_link (s : State) (k : KsetNo) (x : KeySet) (d : Nat) : (s.setKset k x).link d = s.link d := rfl
@[simp] theorem State.setKset_partner (s : State) (k : KsetNo) (x : KeySet) (d : ChipNo) : (s.setKset k x).partner d = s.partner d := rfl
@[simp] theorem State.setKset_region (s : State) (k : KsetNo) (x : KeySet) (d : Nat) : (s.setKset k x).region d = s.region d := rfl
@[simp] theorem State.setKset_fltCfg (s : State) (k : KsetNo) (x : KeySet) (d : Nat) : (s.setKset k x).fltCfg d = s.fltCfg d := rfl
@[simp] theorem State.setKset_severity (s : State) (k : KsetNo) (x : KeySet) (d : Nat) : (s.setKset k x).severity d = s.severity d := rfl
@[simp] theorem State.setKset_cpAwake (s : State) (k : KsetNo) (x : KeySet) : (s.setKset k x).cpAwake = s.cpAwake := rfl
@[simp] theorem State.setKset_keeperReady (s : State) (k : KsetNo) (x : KeySet) : (s.setKset k x).keeperReady = s.keeperReady := rfl
@[simp] theorem State.setKset_domainOn (s : State) (k : KsetNo) (x : KeySet) (d : Nat) : (s.setKset k x).domainOn d = s.domainOn d := rfl
@[simp] theorem State.setKset_verb (s : State) (k : KsetNo) (x : KeySet) (d : Origin) : (s.setKset k x).verb d = s.verb d := rfl
@[simp] theorem State.setKset_corePresent (s : State) (k : KsetNo) (x : KeySet) (d : Nat) : (s.setKset k x).corePresent d = s.corePresent d := rfl
@[simp] theorem State.setKset_ifMajor (s : State) (k : KsetNo) (x : KeySet) : (s.setKset k x).ifMajor = s.ifMajor := rfl
@[simp] theorem State.setModulus_pending (s : State) (n : Nat) (x : ModEntry) : (s.setModulus n x).pending = s.pending := rfl
@[simp] theorem State.setModulus_ptime (s : State) (n : Nat) (x : ModEntry) : (s.setModulus n x).ptime = s.ptime := rfl
@[simp] theorem State.setModulus_inp (s : State) (n : Nat) (x : ModEntry) : (s.setModulus n x).inp = s.inp := rfl
@[simp] theorem State.setModulus_keeper (s : State) (n : Nat) (x : ModEntry) : (s.setModulus n x).keeper = s.keeper := rfl
@[simp] theorem State.setModulus_mboxes (s : State) (n : Nat) (x : ModEntry) : (s.setModulus n x).mboxes = s.mboxes := rfl
@[simp] theorem State.setModulus_ctxs (s : State) (n : Nat) (x : ModEntry) : (s.setModulus n x).ctxs = s.ctxs := rfl
@[simp] theorem State.setModulus_readyQ (s : State) (n : Nat) (x : ModEntry) : (s.setModulus n x).readyQ = s.readyQ := rfl
@[simp] theorem State.setModulus_chans (s : State) (n : Nat) (x : ModEntry) : (s.setModulus n x).chans = s.chans := rfl
@[simp] theorem State.setModulus_frames (s : State) (n : Nat) (x : ModEntry) : (s.setModulus n x).frames = s.frames := rfl
@[simp] theorem State.setModulus_taps (s : State) (n : Nat) (x : ModEntry) : (s.setModulus n x).taps = s.taps := rfl
@[simp] theorem State.setModulus_ports (s : State) (n : Nat) (x : ModEntry) : (s.setModulus n x).ports = s.ports := rfl
@[simp] theorem State.setModulus_spine (s : State) (n : Nat) (x : ModEntry) : (s.setModulus n x).spine = s.spine := rfl
@[simp] theorem State.setModulus_swarms (s : State) (n : Nat) (x : ModEntry) : (s.setModulus n x).swarms = s.swarms := rfl
@[simp] theorem State.setModulus_expand (s : State) (n : Nat) (x : ModEntry) : (s.setModulus n x).expand = s.expand := rfl
@[simp] theorem State.setModulus_expandAt (s : State) (n : Nat) (x : ModEntry) : (s.setModulus n x).expandAt = s.expandAt := rfl
@[simp] theorem State.setModulus_ksets (s : State) (n : Nat) (x : ModEntry) : (s.setModulus n x).ksets = s.ksets := rfl
@[simp] theorem State.setModulus_xlate (s : State) (n : Nat) (x : ModEntry) : (s.setModulus n x).xlate = s.xlate := rfl
@[simp] theorem State.setModulus_tally (s : State) (n : Nat) (x : ModEntry) : (s.setModulus n x).tally = s.tally := rfl
@[simp] theorem State.setModulus_fabric (s : State) (n : Nat) (x : ModEntry) : (s.setModulus n x).fabric = s.fabric := rfl
@[simp] theorem State.setModulus_faults (s : State) (n : Nat) (x : ModEntry) : (s.setModulus n x).faults = s.faults := rfl
@[simp] theorem State.setModulus_sec (s : State) (n : Nat) (x : ModEntry) : (s.setModulus n x).sec = s.sec := rfl
@[simp] theorem State.setModulus_power (s : State) (n : Nat) (x : ModEntry) : (s.setModulus n x).power = s.power := rfl
@[simp] theorem State.setModulus_ftest (s : State) (n : Nat) (x : ModEntry) : (s.setModulus n x).ftest = s.ftest := rfl
@[simp] theorem State.setModulus_snap (s : State) (n : Nat) (x : ModEntry) : (s.setModulus n x).snap = s.snap := rfl
@[simp] theorem State.setModulus_recd (s : State) (n : Nat) (x : ModEntry) : (s.setModulus n x).recd = s.recd := rfl
@[simp] theorem State.setModulus_telem (s : State) (n : Nat) (x : ModEntry) : (s.setModulus n x).telem = s.telem := rfl
@[simp] theorem State.setModulus_regs (s : State) (n : Nat) (x : ModEntry) : (s.setModulus n x).regs = s.regs := rfl
@[simp] theorem State.setModulus_free (s : State) (n : Nat) (x : ModEntry) : (s.setModulus n x).free = s.free := rfl
@[simp] theorem State.setModulus_nextId (s : State) (n : Nat) (x : ModEntry) : (s.setModulus n x).nextId = s.nextId := rfl
@[simp] theorem State.setModulus_ctx (s : State) (n : Nat) (x : ModEntry) (d : CtxNo) : (s.setModulus n x).ctx d = s.ctx d := rfl
@[simp] theorem State.setModulus_chan (s : State) (n : Nat) (x : ModEntry) (d : Nat) : (s.setModulus n x).chan d = s.chan d := rfl
@[simp] theorem State.setModulus_frame (s : State) (n : Nat) (x : ModEntry) (d : Nat) : (s.setModulus n x).frame d = s.frame d := rfl
@[simp] theorem State.setModulus_tap (s : State) (n : Nat) (x : ModEntry) (d : Nat) : (s.setModulus n x).tap d = s.tap d := rfl
@[simp] theorem State.setModulus_port (s : State) (n : Nat) (x : ModEntry) (d : Nat) : (s.setModulus n x).port d = s.port d := rfl
@[simp] theorem State.setModulus_mbox (s : State) (n : Nat) (x : ModEntry) (d : Nat) : (s.setModulus n x).mbox d = s.mbox d := rfl
@[simp] theorem State.setModulus_swarm (s : State) (n : Nat) (x : ModEntry) (d : Nat) : (s.setModulus n x).swarm d = s.swarm d := rfl
@[simp] theorem State.setModulus_kset (s : State) (n : Nat) (x : ModEntry) (d : KsetNo) : (s.setModulus n x).kset d = s.kset d := rfl
@[simp] theorem State.setModulus_link (s : State) (n : Nat) (x : ModEntry) (d : Nat) : (s.setModulus n x).link d = s.link d := rfl
@[simp] theorem State.setModulus_partner (s : State) (n : Nat) (x : ModEntry) (d : ChipNo) : (s.setModulus n x).partner d = s.partner d := rfl
@[simp] theorem State.setModulus_region (s : State) (n : Nat) (x : ModEntry) (d : Nat) : (s.setModulus n x).region d = s.region d := rfl
@[simp] theorem State.setModulus_fltCfg (s : State) (n : Nat) (x : ModEntry) (d : Nat) : (s.setModulus n x).fltCfg d = s.fltCfg d := rfl
@[simp] theorem State.setModulus_severity (s : State) (n : Nat) (x : ModEntry) (d : Nat) : (s.setModulus n x).severity d = s.severity d := rfl
@[simp] theorem State.setModulus_cpAwake (s : State) (n : Nat) (x : ModEntry) : (s.setModulus n x).cpAwake = s.cpAwake := rfl
@[simp] theorem State.setModulus_keeperReady (s : State) (n : Nat) (x : ModEntry) : (s.setModulus n x).keeperReady = s.keeperReady := rfl
@[simp] theorem State.setModulus_domainOn (s : State) (n : Nat) (x : ModEntry) (d : Nat) : (s.setModulus n x).domainOn d = s.domainOn d := rfl
@[simp] theorem State.setModulus_verb (s : State) (n : Nat) (x : ModEntry) (d : Origin) : (s.setModulus n x).verb d = s.verb d := rfl
@[simp] theorem State.setModulus_corePresent (s : State) (n : Nat) (x : ModEntry) (d : Nat) : (s.setModulus n x).corePresent d = s.corePresent d := rfl
@[simp] theorem State.setModulus_ifMajor (s : State) (n : Nat) (x : ModEntry) : (s.setModulus n x).ifMajor = s.ifMajor := rfl
@[simp] theorem State.setLink_pending (s : State) (n : Nat) (x : Link) : (s.setLink n x).pending = s.pending := rfl
@[simp] theorem State.setLink_ptime (s : State) (n : Nat) (x : Link) : (s.setLink n x).ptime = s.ptime := rfl
@[simp] theorem State.setLink_inp (s : State) (n : Nat) (x : Link) : (s.setLink n x).inp = s.inp := rfl
@[simp] theorem State.setLink_keeper (s : State) (n : Nat) (x : Link) : (s.setLink n x).keeper = s.keeper := rfl
@[simp] theorem State.setLink_mboxes (s : State) (n : Nat) (x : Link) : (s.setLink n x).mboxes = s.mboxes := rfl
@[simp] theorem State.setLink_ctxs (s : State) (n : Nat) (x : Link) : (s.setLink n x).ctxs = s.ctxs := rfl
@[simp] theorem State.setLink_readyQ (s : State) (n : Nat) (x : Link) : (s.setLink n x).readyQ = s.readyQ := rfl
@[simp] theorem State.setLink_chans (s : State) (n : Nat) (x : Link) : (s.setLink n x).chans = s.chans := rfl
@[simp] theorem State.setLink_frames (s : State) (n : Nat) (x : Link) : (s.setLink n x).frames = s.frames := rfl
@[simp] theorem State.setLink_taps (s : State) (n : Nat) (x : Link) : (s.setLink n x).taps = s.taps := rfl
@[simp] theorem State.setLink_ports (s : State) (n : Nat) (x : Link) : (s.setLink n x).ports = s.ports := rfl
@[simp] theorem State.setLink_spine (s : State) (n : Nat) (x : Link) : (s.setLink n x).spine = s.spine := rfl
@[simp] theorem State.setLink_swarms (s : State) (n : Nat) (x : Link) : (s.setLink n x).swarms = s.swarms := rfl
@[simp] theorem State.setLink_expand (s : State) (n : Nat) (x : Link) : (s.setLink n x).expand = s.expand := rfl
@[simp] theorem State.setLink_expandAt (s : State) (n : Nat) (x : Link) : (s.setLink n x).expandAt = s.expandAt := rfl
@[simp] theorem State.setLink_ksets (s : State) (n : Nat) (x : Link) : (s.setLink n x).ksets = s.ksets := rfl
@[simp] theorem State.setLink_mods (s : State) (n : Nat) (x : Link) : (s.setLink n x).mods = s.mods := rfl
@[simp] theorem State.setLink_xlate (s : State) (n : Nat) (x : Link) : (s.setLink n x).xlate = s.xlate := rfl
@[simp] theorem State.setLink_tally (s : State) (n : Nat) (x : Link) : (s.setLink n x).tally = s.tally := rfl
@[simp] theorem State.setLink_faults (s : State) (n : Nat) (x : Link) : (s.setLink n x).faults = s.faults := rfl
@[simp] theorem State.setLink_sec (s : State) (n : Nat) (x : Link) : (s.setLink n x).sec = s.sec := rfl
@[simp] theorem State.setLink_power (s : State) (n : Nat) (x : Link) : (s.setLink n x).power = s.power := rfl
@[simp] theorem State.setLink_ftest (s : State) (n : Nat) (x : Link) : (s.setLink n x).ftest = s.ftest := rfl
@[simp] theorem State.setLink_snap (s : State) (n : Nat) (x : Link) : (s.setLink n x).snap = s.snap := rfl
@[simp] theorem State.setLink_recd (s : State) (n : Nat) (x : Link) : (s.setLink n x).recd = s.recd := rfl
@[simp] theorem State.setLink_telem (s : State) (n : Nat) (x : Link) : (s.setLink n x).telem = s.telem := rfl
@[simp] theorem State.setLink_regs (s : State) (n : Nat) (x : Link) : (s.setLink n x).regs = s.regs := rfl
@[simp] theorem State.setLink_free (s : State) (n : Nat) (x : Link) : (s.setLink n x).free = s.free := rfl
@[simp] theorem State.setLink_nextId (s : State) (n : Nat) (x : Link) : (s.setLink n x).nextId = s.nextId := rfl
@[simp] theorem State.setLink_ctx (s : State) (n : Nat) (x : Link) (d : CtxNo) : (s.setLink n x).ctx d = s.ctx d := rfl
@[simp] theorem State.setLink_chan (s : State) (n : Nat) (x : Link) (d : Nat) : (s.setLink n x).chan d = s.chan d := rfl
@[simp] theorem State.setLink_frame (s : State) (n : Nat) (x : Link) (d : Nat) : (s.setLink n x).frame d = s.frame d := rfl
@[simp] theorem State.setLink_tap (s : State) (n : Nat) (x : Link) (d : Nat) : (s.setLink n x).tap d = s.tap d := rfl
@[simp] theorem State.setLink_port (s : State) (n : Nat) (x : Link) (d : Nat) : (s.setLink n x).port d = s.port d := rfl
@[simp] theorem State.setLink_mbox (s : State) (n : Nat) (x : Link) (d : Nat) : (s.setLink n x).mbox d = s.mbox d := rfl
@[simp] theorem State.setLink_swarm (s : State) (n : Nat) (x : Link) (d : Nat) : (s.setLink n x).swarm d = s.swarm d := rfl
@[simp] theorem State.setLink_kset (s : State) (n : Nat) (x : Link) (d : KsetNo) : (s.setLink n x).kset d = s.kset d := rfl
@[simp] theorem State.setLink_modulus (s : State) (n : Nat) (x : Link) (d : Nat) : (s.setLink n x).modulus d = s.modulus d := rfl
@[simp] theorem State.setLink_region (s : State) (n : Nat) (x : Link) (d : Nat) : (s.setLink n x).region d = s.region d := rfl
@[simp] theorem State.setLink_fltCfg (s : State) (n : Nat) (x : Link) (d : Nat) : (s.setLink n x).fltCfg d = s.fltCfg d := rfl
@[simp] theorem State.setLink_severity (s : State) (n : Nat) (x : Link) (d : Nat) : (s.setLink n x).severity d = s.severity d := rfl
@[simp] theorem State.setLink_cpAwake (s : State) (n : Nat) (x : Link) : (s.setLink n x).cpAwake = s.cpAwake := rfl
@[simp] theorem State.setLink_keeperReady (s : State) (n : Nat) (x : Link) : (s.setLink n x).keeperReady = s.keeperReady := rfl
@[simp] theorem State.setLink_domainOn (s : State) (n : Nat) (x : Link) (d : Nat) : (s.setLink n x).domainOn d = s.domainOn d := rfl
@[simp] theorem State.setLink_verb (s : State) (n : Nat) (x : Link) (d : Origin) : (s.setLink n x).verb d = s.verb d := rfl
@[simp] theorem State.setLink_corePresent (s : State) (n : Nat) (x : Link) (d : Nat) : (s.setLink n x).corePresent d = s.corePresent d := rfl
@[simp] theorem State.setLink_ifMajor (s : State) (n : Nat) (x : Link) : (s.setLink n x).ifMajor = s.ifMajor := rfl
@[simp] theorem State.modLink_pending (s : State) (n : Nat) (f : Link → Link) : (s.modLink n f).pending = s.pending := rfl
@[simp] theorem State.modLink_ptime (s : State) (n : Nat) (f : Link → Link) : (s.modLink n f).ptime = s.ptime := rfl
@[simp] theorem State.modLink_inp (s : State) (n : Nat) (f : Link → Link) : (s.modLink n f).inp = s.inp := rfl
@[simp] theorem State.modLink_keeper (s : State) (n : Nat) (f : Link → Link) : (s.modLink n f).keeper = s.keeper := rfl
@[simp] theorem State.modLink_mboxes (s : State) (n : Nat) (f : Link → Link) : (s.modLink n f).mboxes = s.mboxes := rfl
@[simp] theorem State.modLink_ctxs (s : State) (n : Nat) (f : Link → Link) : (s.modLink n f).ctxs = s.ctxs := rfl
@[simp] theorem State.modLink_readyQ (s : State) (n : Nat) (f : Link → Link) : (s.modLink n f).readyQ = s.readyQ := rfl
@[simp] theorem State.modLink_chans (s : State) (n : Nat) (f : Link → Link) : (s.modLink n f).chans = s.chans := rfl
@[simp] theorem State.modLink_frames (s : State) (n : Nat) (f : Link → Link) : (s.modLink n f).frames = s.frames := rfl
@[simp] theorem State.modLink_taps (s : State) (n : Nat) (f : Link → Link) : (s.modLink n f).taps = s.taps := rfl
@[simp] theorem State.modLink_ports (s : State) (n : Nat) (f : Link → Link) : (s.modLink n f).ports = s.ports := rfl
@[simp] theorem State.modLink_spine (s : State) (n : Nat) (f : Link → Link) : (s.modLink n f).spine = s.spine := rfl
@[simp] theorem State.modLink_swarms (s : State) (n : Nat) (f : Link → Link) : (s.modLink n f).swarms = s.swarms := rfl
@[simp] theorem State.modLink_expand (s : State) (n : Nat) (f : Link → Link) : (s.modLink n f).expand = s.expand := rfl
@[simp] theorem State.modLink_expandAt (s : State) (n : Nat) (f : Link → Link) : (s.modLink n f).expandAt = s.expandAt := rfl
@[simp] theorem State.modLink_ksets (s : State) (n : Nat) (f : Link → Link) : (s.modLink n f).ksets = s.ksets := rfl
@[simp] theorem State.modLink_mods (s : State) (n : Nat) (f : Link → Link) : (s.modLink n f).mods = s.mods := rfl
@[simp] theorem State.modLink_xlate (s : State) (n : Nat) (f : Link → Link) : (s.modLink n f).xlate = s.xlate := rfl
@[simp] theorem State.modLink_tally (s : State) (n : Nat) (f : Link → Link) : (s.modLink n f).tally = s.tally := rfl
@[simp] theorem State.modLink_faults (s : State) (n : Nat) (f : Link → Link) : (s.modLink n f).faults = s.faults := rfl
@[simp] theorem State.modLink_sec (s : State) (n : Nat) (f : Link → Link) : (s.modLink n f).sec = s.sec := rfl
@[simp] theorem State.modLink_power (s : State) (n : Nat) (f : Link → Link) : (s.modLink n f).power = s.power := rfl
@[simp] theorem State.modLink_ftest (s : State) (n : Nat) (f : Link → Link) : (s.modLink n f).ftest = s.ftest := rfl
@[simp] theorem State.modLink_snap (s : State) (n : Nat) (f : Link → Link) : (s.modLink n f).snap = s.snap := rfl
@[simp] theorem State.modLink_recd (s : State) (n : Nat) (f : Link → Link) : (s.modLink n f).recd = s.recd := rfl
@[simp] theorem State.modLink_telem (s : State) (n : Nat) (f : Link → Link) : (s.modLink n f).telem = s.telem := rfl
@[simp] theorem State.modLink_regs (s : State) (n : Nat) (f : Link → Link) : (s.modLink n f).regs = s.regs := rfl
@[simp] theorem State.modLink_free (s : State) (n : Nat) (f : Link → Link) : (s.modLink n f).free = s.free := rfl
@[simp] theorem State.modLink_nextId (s : State) (n : Nat) (f : Link → Link) : (s.modLink n f).nextId = s.nextId := rfl
@[simp] theorem State.modLink_ctx (s : State) (n : Nat) (f : Link → Link) (d : CtxNo) : (s.modLink n f).ctx d = s.ctx d := rfl
@[simp] theorem State.modLink_chan (s : State) (n : Nat) (f : Link → Link) (d : Nat) : (s.modLink n f).chan d = s.chan d := rfl
@[simp] theorem State.modLink_frame (s : State) (n : Nat) (f : Link → Link) (d : Nat) : (s.modLink n f).frame d = s.frame d := rfl
@[simp] theorem State.modLink_tap (s : State) (n : Nat) (f : Link → Link) (d : Nat) : (s.modLink n f).tap d = s.tap d := rfl
@[simp] theorem State.modLink_port (s : State) (n : Nat) (f : Link → Link) (d : Nat) : (s.modLink n f).port d = s.port d := rfl
@[simp] theorem State.modLink_mbox (s : State) (n : Nat) (f : Link → Link) (d : Nat) : (s.modLink n f).mbox d = s.mbox d := rfl
@[simp] theorem State.modLink_swarm (s : State) (n : Nat) (f : Link → Link) (d : Nat) : (s.modLink n f).swarm d = s.swarm d := rfl
@[simp] theorem State.modLink_kset (s : State) (n : Nat) (f : Link → Link) (d : KsetNo) : (s.modLink n f).kset d = s.kset d := rfl
@[simp] theorem State.modLink_modulus (s : State) (n : Nat) (f : Link → Link) (d : Nat) : (s.modLink n f).modulus d = s.modulus d := rfl
@[simp] theorem State.modLink_region (s : State) (n : Nat) (f : Link → Link) (d : Nat) : (s.modLink n f).region d = s.region d := rfl
@[simp] theorem State.modLink_fltCfg (s : State) (n : Nat) (f : Link → Link) (d : Nat) : (s.modLink n f).fltCfg d = s.fltCfg d := rfl
@[simp] theorem State.modLink_severity (s : State) (n : Nat) (f : Link → Link) (d : Nat) : (s.modLink n f).severity d = s.severity d := rfl
@[simp] theorem State.modLink_cpAwake (s : State) (n : Nat) (f : Link → Link) : (s.modLink n f).cpAwake = s.cpAwake := rfl
@[simp] theorem State.modLink_keeperReady (s : State) (n : Nat) (f : Link → Link) : (s.modLink n f).keeperReady = s.keeperReady := rfl
@[simp] theorem State.modLink_domainOn (s : State) (n : Nat) (f : Link → Link) (d : Nat) : (s.modLink n f).domainOn d = s.domainOn d := rfl
@[simp] theorem State.modLink_verb (s : State) (n : Nat) (f : Link → Link) (d : Origin) : (s.modLink n f).verb d = s.verb d := rfl
@[simp] theorem State.modLink_corePresent (s : State) (n : Nat) (f : Link → Link) (d : Nat) : (s.modLink n f).corePresent d = s.corePresent d := rfl
@[simp] theorem State.modLink_ifMajor (s : State) (n : Nat) (f : Link → Link) : (s.modLink n f).ifMajor = s.ifMajor := rfl
@[simp] theorem State.setPartner_pending (s : State) (c : ChipNo) (x : Partner) : (s.setPartner c x).pending = s.pending := rfl
@[simp] theorem State.setPartner_ptime (s : State) (c : ChipNo) (x : Partner) : (s.setPartner c x).ptime = s.ptime := rfl
@[simp] theorem State.setPartner_inp (s : State) (c : ChipNo) (x : Partner) : (s.setPartner c x).inp = s.inp := rfl
@[simp] theorem State.setPartner_keeper (s : State) (c : ChipNo) (x : Partner) : (s.setPartner c x).keeper = s.keeper := rfl
@[simp] theorem State.setPartner_mboxes (s : State) (c : ChipNo) (x : Partner) : (s.setPartner c x).mboxes = s.mboxes := rfl
@[simp] theorem State.setPartner_ctxs (s : State) (c : ChipNo) (x : Partner) : (s.setPartner c x).ctxs = s.ctxs := rfl
@[simp] theorem State.setPartner_readyQ (s : State) (c : ChipNo) (x : Partner) : (s.setPartner c x).readyQ = s.readyQ := rfl
@[simp] theorem State.setPartner_chans (s : State) (c : ChipNo) (x : Partner) : (s.setPartner c x).chans = s.chans := rfl
@[simp] theorem State.setPartner_frames (s : State) (c : ChipNo) (x : Partner) : (s.setPartner c x).frames = s.frames := rfl
@[simp] theorem State.setPartner_taps (s : State) (c : ChipNo) (x : Partner) : (s.setPartner c x).taps = s.taps := rfl
@[simp] theorem State.setPartner_ports (s : State) (c : ChipNo) (x : Partner) : (s.setPartner c x).ports = s.ports := rfl
@[simp] theorem State.setPartner_spine (s : State) (c : ChipNo) (x : Partner) : (s.setPartner c x).spine = s.spine := rfl
@[simp] theorem State.setPartner_swarms (s : State) (c : ChipNo) (x : Partner) : (s.setPartner c x).swarms = s.swarms := rfl
@[simp] theorem State.setPartner_expand (s : State) (c : ChipNo) (x : Partner) : (s.setPartner c x).expand = s.expand := rfl
@[simp] theorem State.setPartner_expandAt (s : State) (c : ChipNo) (x : Partner) : (s.setPartner c x).expandAt = s.expandAt := rfl
@[simp] theorem State.setPartner_ksets (s : State) (c : ChipNo) (x : Partner) : (s.setPartner c x).ksets = s.ksets := rfl
@[simp] theorem State.setPartner_mods (s : State) (c : ChipNo) (x : Partner) : (s.setPartner c x).mods = s.mods := rfl
@[simp] theorem State.setPartner_xlate (s : State) (c : ChipNo) (x : Partner) : (s.setPartner c x).xlate = s.xlate := rfl
@[simp] theorem State.setPartner_tally (s : State) (c : ChipNo) (x : Partner) : (s.setPartner c x).tally = s.tally := rfl
@[simp] theorem State.setPartner_faults (s : State) (c : ChipNo) (x : Partner) : (s.setPartner c x).faults = s.faults := rfl
@[simp] theorem State.setPartner_sec (s : State) (c : ChipNo) (x : Partner) : (s.setPartner c x).sec = s.sec := rfl
@[simp] theorem State.setPartner_power (s : State) (c : ChipNo) (x : Partner) : (s.setPartner c x).power = s.power := rfl
@[simp] theorem State.setPartner_ftest (s : State) (c : ChipNo) (x : Partner) : (s.setPartner c x).ftest = s.ftest := rfl
@[simp] theorem State.setPartner_snap (s : State) (c : ChipNo) (x : Partner) : (s.setPartner c x).snap = s.snap := rfl
@[simp] theorem State.setPartner_recd (s : State) (c : ChipNo) (x : Partner) : (s.setPartner c x).recd = s.recd := rfl
@[simp] theorem State.setPartner_telem (s : State) (c : ChipNo) (x : Partner) : (s.setPartner c x).telem = s.telem := rfl
@[simp] theorem State.setPartner_regs (s : State) (c : ChipNo) (x : Partner) : (s.setPartner c x).regs = s.regs := rfl
@[simp] theorem State.setPartner_free (s : State) (c : ChipNo) (x : Partner) : (s.setPartner c x).free = s.free := rfl
@[simp] theorem State.setPartner_nextId (s : State) (c : ChipNo) (x : Partner) : (s.setPartner c x).nextId = s.nextId := rfl
@[simp] theorem State.setPartner_ctx (s : State) (c : ChipNo) (x : Partner) (d : CtxNo) : (s.setPartner c x).ctx d = s.ctx d := rfl
@[simp] theorem State.setPartner_chan (s : State) (c : ChipNo) (x : Partner) (d : Nat) : (s.setPartner c x).chan d = s.chan d := rfl
@[simp] theorem State.setPartner_frame (s : State) (c : ChipNo) (x : Partner) (d : Nat) : (s.setPartner c x).frame d = s.frame d := rfl
@[simp] theorem State.setPartner_tap (s : State) (c : ChipNo) (x : Partner) (d : Nat) : (s.setPartner c x).tap d = s.tap d := rfl
@[simp] theorem State.setPartner_port (s : State) (c : ChipNo) (x : Partner) (d : Nat) : (s.setPartner c x).port d = s.port d := rfl
@[simp] theorem State.setPartner_mbox (s : State) (c : ChipNo) (x : Partner) (d : Nat) : (s.setPartner c x).mbox d = s.mbox d := rfl
@[simp] theorem State.setPartner_swarm (s : State) (c : ChipNo) (x : Partner) (d : Nat) : (s.setPartner c x).swarm d = s.swarm d := rfl
@[simp] theorem State.setPartner_kset (s : State) (c : ChipNo) (x : Partner) (d : KsetNo) : (s.setPartner c x).kset d = s.kset d := rfl
@[simp] theorem State.setPartner_modulus (s : State) (c : ChipNo) (x : Partner) (d : Nat) : (s.setPartner c x).modulus d = s.modulus d := rfl
@[simp] theorem State.setPartner_region (s : State) (c : ChipNo) (x : Partner) (d : Nat) : (s.setPartner c x).region d = s.region d := rfl
@[simp] theorem State.setPartner_fltCfg (s : State) (c : ChipNo) (x : Partner) (d : Nat) : (s.setPartner c x).fltCfg d = s.fltCfg d := rfl
@[simp] theorem State.setPartner_severity (s : State) (c : ChipNo) (x : Partner) (d : Nat) : (s.setPartner c x).severity d = s.severity d := rfl
@[simp] theorem State.setPartner_cpAwake (s : State) (c : ChipNo) (x : Partner) : (s.setPartner c x).cpAwake = s.cpAwake := rfl
@[simp] theorem State.setPartner_keeperReady (s : State) (c : ChipNo) (x : Partner) : (s.setPartner c x).keeperReady = s.keeperReady := rfl
@[simp] theorem State.setPartner_domainOn (s : State) (c : ChipNo) (x : Partner) (d : Nat) : (s.setPartner c x).domainOn d = s.domainOn d := rfl
@[simp] theorem State.setPartner_verb (s : State) (c : ChipNo) (x : Partner) (d : Origin) : (s.setPartner c x).verb d = s.verb d := rfl
@[simp] theorem State.setPartner_corePresent (s : State) (c : ChipNo) (x : Partner) (d : Nat) : (s.setPartner c x).corePresent d = s.corePresent d := rfl
@[simp] theorem State.setPartner_ifMajor (s : State) (c : ChipNo) (x : Partner) : (s.setPartner c x).ifMajor = s.ifMajor := rfl
@[simp] theorem State.modPartner_pending (s : State) (c : ChipNo) (f : Partner → Partner) : (s.modPartner c f).pending = s.pending := rfl
@[simp] theorem State.modPartner_ptime (s : State) (c : ChipNo) (f : Partner → Partner) : (s.modPartner c f).ptime = s.ptime := rfl
@[simp] theorem State.modPartner_inp (s : State) (c : ChipNo) (f : Partner → Partner) : (s.modPartner c f).inp = s.inp := rfl
@[simp] theorem State.modPartner_keeper (s : State) (c : ChipNo) (f : Partner → Partner) : (s.modPartner c f).keeper = s.keeper := rfl
@[simp] theorem State.modPartner_mboxes (s : State) (c : ChipNo) (f : Partner → Partner) : (s.modPartner c f).mboxes = s.mboxes := rfl
@[simp] theorem State.modPartner_ctxs (s : State) (c : ChipNo) (f : Partner → Partner) : (s.modPartner c f).ctxs = s.ctxs := rfl
@[simp] theorem State.modPartner_readyQ (s : State) (c : ChipNo) (f : Partner → Partner) : (s.modPartner c f).readyQ = s.readyQ := rfl
@[simp] theorem State.modPartner_chans (s : State) (c : ChipNo) (f : Partner → Partner) : (s.modPartner c f).chans = s.chans := rfl
@[simp] theorem State.modPartner_frames (s : State) (c : ChipNo) (f : Partner → Partner) : (s.modPartner c f).frames = s.frames := rfl
@[simp] theorem State.modPartner_taps (s : State) (c : ChipNo) (f : Partner → Partner) : (s.modPartner c f).taps = s.taps := rfl
@[simp] theorem State.modPartner_ports (s : State) (c : ChipNo) (f : Partner → Partner) : (s.modPartner c f).ports = s.ports := rfl
@[simp] theorem State.modPartner_spine (s : State) (c : ChipNo) (f : Partner → Partner) : (s.modPartner c f).spine = s.spine := rfl
@[simp] theorem State.modPartner_swarms (s : State) (c : ChipNo) (f : Partner → Partner) : (s.modPartner c f).swarms = s.swarms := rfl
@[simp] theorem State.modPartner_expand (s : State) (c : ChipNo) (f : Partner → Partner) : (s.modPartner c f).expand = s.expand := rfl
@[simp] theorem State.modPartner_expandAt (s : State) (c : ChipNo) (f : Partner → Partner) : (s.modPartner c f).expandAt = s.expandAt := rfl
@[simp] theorem State.modPartner_ksets (s : State) (c : ChipNo) (f : Partner → Partner) : (s.modPartner c f).ksets = s.ksets := rfl
@[simp] theorem State.modPartner_mods (s : State) (c : ChipNo) (f : Partner → Partner) : (s.modPartner c f).mods = s.mods := rfl
@[simp] theorem State.modPartner_xlate (s : State) (c : ChipNo) (f : Partner → Partner) : (s.modPartner c f).xlate = s.xlate := rfl
@[simp] theorem State.modPartner_tally (s : State) (c : ChipNo) (f : Partner → Partner) : (s.modPartner c f).tally = s.tally := rfl
@[simp] theorem State.modPartner_faults (s : State) (c : ChipNo) (f : Partner → Partner) : (s.modPartner c f).faults = s.faults := rfl
@[simp] theorem State.modPartner_sec (s : State) (c : ChipNo) (f : Partner → Partner) : (s.modPartner c f).sec = s.sec := rfl
@[simp] theorem State.modPartner_power (s : State) (c : ChipNo) (f : Partner → Partner) : (s.modPartner c f).power = s.power := rfl
@[simp] theorem State.modPartner_ftest (s : State) (c : ChipNo) (f : Partner → Partner) : (s.modPartner c f).ftest = s.ftest := rfl
@[simp] theorem State.modPartner_snap (s : State) (c : ChipNo) (f : Partner → Partner) : (s.modPartner c f).snap = s.snap := rfl
@[simp] theorem State.modPartner_recd (s : State) (c : ChipNo) (f : Partner → Partner) : (s.modPartner c f).recd = s.recd := rfl
@[simp] theorem State.modPartner_telem (s : State) (c : ChipNo) (f : Partner → Partner) : (s.modPartner c f).telem = s.telem := rfl
@[simp] theorem State.modPartner_regs (s : State) (c : ChipNo) (f : Partner → Partner) : (s.modPartner c f).regs = s.regs := rfl
@[simp] theorem State.modPartner_free (s : State) (c : ChipNo) (f : Partner → Partner) : (s.modPartner c f).free = s.free := rfl
@[simp] theorem State.modPartner_nextId (s : State) (c : ChipNo) (f : Partner → Partner) : (s.modPartner c f).nextId = s.nextId := rfl
@[simp] theorem State.modPartner_ctx (s : State) (c : ChipNo) (f : Partner → Partner) (d : CtxNo) : (s.modPartner c f).ctx d = s.ctx d := rfl
@[simp] theorem State.modPartner_chan (s : State) (c : ChipNo) (f : Partner → Partner) (d : Nat) : (s.modPartner c f).chan d = s.chan d := rfl
@[simp] theorem State.modPartner_frame (s : State) (c : ChipNo) (f : Partner → Partner) (d : Nat) : (s.modPartner c f).frame d = s.frame d := rfl
@[simp] theorem State.modPartner_tap (s : State) (c : ChipNo) (f : Partner → Partner) (d : Nat) : (s.modPartner c f).tap d = s.tap d := rfl
@[simp] theorem State.modPartner_port (s : State) (c : ChipNo) (f : Partner → Partner) (d : Nat) : (s.modPartner c f).port d = s.port d := rfl
@[simp] theorem State.modPartner_mbox (s : State) (c : ChipNo) (f : Partner → Partner) (d : Nat) : (s.modPartner c f).mbox d = s.mbox d := rfl
@[simp] theorem State.modPartner_swarm (s : State) (c : ChipNo) (f : Partner → Partner) (d : Nat) : (s.modPartner c f).swarm d = s.swarm d := rfl
@[simp] theorem State.modPartner_kset (s : State) (c : ChipNo) (f : Partner → Partner) (d : KsetNo) : (s.modPartner c f).kset d = s.kset d := rfl
@[simp] theorem State.modPartner_modulus (s : State) (c : ChipNo) (f : Partner → Partner) (d : Nat) : (s.modPartner c f).modulus d = s.modulus d := rfl
@[simp] theorem State.modPartner_region (s : State) (c : ChipNo) (f : Partner → Partner) (d : Nat) : (s.modPartner c f).region d = s.region d := rfl
@[simp] theorem State.modPartner_fltCfg (s : State) (c : ChipNo) (f : Partner → Partner) (d : Nat) : (s.modPartner c f).fltCfg d = s.fltCfg d := rfl
@[simp] theorem State.modPartner_severity (s : State) (c : ChipNo) (f : Partner → Partner) (d : Nat) : (s.modPartner c f).severity d = s.severity d := rfl
@[simp] theorem State.modPartner_cpAwake (s : State) (c : ChipNo) (f : Partner → Partner) : (s.modPartner c f).cpAwake = s.cpAwake := rfl
@[simp] theorem State.modPartner_keeperReady (s : State) (c : ChipNo) (f : Partner → Partner) : (s.modPartner c f).keeperReady = s.keeperReady := rfl
@[simp] theorem State.modPartner_domainOn (s : State) (c : ChipNo) (f : Partner → Partner) (d : Nat) : (s.modPartner c f).domainOn d = s.domainOn d := rfl
@[simp] theorem State.modPartner_verb (s : State) (c : ChipNo) (f : Partner → Partner) (d : Origin) : (s.modPartner c f).verb d = s.verb d := rfl
@[simp] theorem State.modPartner_corePresent (s : State) (c : ChipNo) (f : Partner → Partner) (d : Nat) : (s.modPartner c f).corePresent d = s.corePresent d := rfl
@[simp] theorem State.modPartner_ifMajor (s : State) (c : ChipNo) (f : Partner → Partner) : (s.modPartner c f).ifMajor = s.ifMajor := rfl
@[simp] theorem State.setRegion_pending (s : State) (n : Nat) (x : Region) : (s.setRegion n x).pending = s.pending := rfl
@[simp] theorem State.setRegion_ptime (s : State) (n : Nat) (x : Region) : (s.setRegion n x).ptime = s.ptime := rfl
@[simp] theorem State.setRegion_inp (s : State) (n : Nat) (x : Region) : (s.setRegion n x).inp = s.inp := rfl
@[simp] theorem State.setRegion_keeper (s : State) (n : Nat) (x : Region) : (s.setRegion n x).keeper = s.keeper := rfl
@[simp] theorem State.setRegion_mboxes (s : State) (n : Nat) (x : Region) : (s.setRegion n x).mboxes = s.mboxes := rfl
@[simp] theorem State.setRegion_ctxs (s : State) (n : Nat) (x : Region) : (s.setRegion n x).ctxs = s.ctxs := rfl
@[simp] theorem State.setRegion_readyQ (s : State) (n : Nat) (x : Region) : (s.setRegion n x).readyQ = s.readyQ := rfl
@[simp] theorem State.setRegion_chans (s : State) (n : Nat) (x : Region) : (s.setRegion n x).chans = s.chans := rfl
@[simp] theorem State.setRegion_frames (s : State) (n : Nat) (x : Region) : (s.setRegion n x).frames = s.frames := rfl
@[simp] theorem State.setRegion_taps (s : State) (n : Nat) (x : Region) : (s.setRegion n x).taps = s.taps := rfl
@[simp] theorem State.setRegion_ports (s : State) (n : Nat) (x : Region) : (s.setRegion n x).ports = s.ports := rfl
@[simp] theorem State.setRegion_spine (s : State) (n : Nat) (x : Region) : (s.setRegion n x).spine = s.spine := rfl
@[simp] theorem State.setRegion_swarms (s : State) (n : Nat) (x : Region) : (s.setRegion n x).swarms = s.swarms := rfl
@[simp] theorem State.setRegion_expand (s : State) (n : Nat) (x : Region) : (s.setRegion n x).expand = s.expand := rfl
@[simp] theorem State.setRegion_expandAt (s : State) (n : Nat) (x : Region) : (s.setRegion n x).expandAt = s.expandAt := rfl
@[simp] theorem State.setRegion_ksets (s : State) (n : Nat) (x : Region) : (s.setRegion n x).ksets = s.ksets := rfl
@[simp] theorem State.setRegion_mods (s : State) (n : Nat) (x : Region) : (s.setRegion n x).mods = s.mods := rfl
@[simp] theorem State.setRegion_xlate (s : State) (n : Nat) (x : Region) : (s.setRegion n x).xlate = s.xlate := rfl
@[simp] theorem State.setRegion_tally (s : State) (n : Nat) (x : Region) : (s.setRegion n x).tally = s.tally := rfl
@[simp] theorem State.setRegion_fabric (s : State) (n : Nat) (x : Region) : (s.setRegion n x).fabric = s.fabric := rfl
@[simp] theorem State.setRegion_faults (s : State) (n : Nat) (x : Region) : (s.setRegion n x).faults = s.faults := rfl
@[simp] theorem State.setRegion_sec (s : State) (n : Nat) (x : Region) : (s.setRegion n x).sec = s.sec := rfl
@[simp] theorem State.setRegion_ftest (s : State) (n : Nat) (x : Region) : (s.setRegion n x).ftest = s.ftest := rfl
@[simp] theorem State.setRegion_snap (s : State) (n : Nat) (x : Region) : (s.setRegion n x).snap = s.snap := rfl
@[simp] theorem State.setRegion_recd (s : State) (n : Nat) (x : Region) : (s.setRegion n x).recd = s.recd := rfl
@[simp] theorem State.setRegion_telem (s : State) (n : Nat) (x : Region) : (s.setRegion n x).telem = s.telem := rfl
@[simp] theorem State.setRegion_regs (s : State) (n : Nat) (x : Region) : (s.setRegion n x).regs = s.regs := rfl
@[simp] theorem State.setRegion_free (s : State) (n : Nat) (x : Region) : (s.setRegion n x).free = s.free := rfl
@[simp] theorem State.setRegion_nextId (s : State) (n : Nat) (x : Region) : (s.setRegion n x).nextId = s.nextId := rfl
@[simp] theorem State.setRegion_ctx (s : State) (n : Nat) (x : Region) (d : CtxNo) : (s.setRegion n x).ctx d = s.ctx d := rfl
@[simp] theorem State.setRegion_chan (s : State) (n : Nat) (x : Region) (d : Nat) : (s.setRegion n x).chan d = s.chan d := rfl
@[simp] theorem State.setRegion_frame (s : State) (n : Nat) (x : Region) (d : Nat) : (s.setRegion n x).frame d = s.frame d := rfl
@[simp] theorem State.setRegion_tap (s : State) (n : Nat) (x : Region) (d : Nat) : (s.setRegion n x).tap d = s.tap d := rfl
@[simp] theorem State.setRegion_port (s : State) (n : Nat) (x : Region) (d : Nat) : (s.setRegion n x).port d = s.port d := rfl
@[simp] theorem State.setRegion_mbox (s : State) (n : Nat) (x : Region) (d : Nat) : (s.setRegion n x).mbox d = s.mbox d := rfl
@[simp] theorem State.setRegion_swarm (s : State) (n : Nat) (x : Region) (d : Nat) : (s.setRegion n x).swarm d = s.swarm d := rfl
@[simp] theorem State.setRegion_kset (s : State) (n : Nat) (x : Region) (d : KsetNo) : (s.setRegion n x).kset d = s.kset d := rfl
@[simp] theorem State.setRegion_modulus (s : State) (n : Nat) (x : Region) (d : Nat) : (s.setRegion n x).modulus d = s.modulus d := rfl
@[simp] theorem State.setRegion_link (s : State) (n : Nat) (x : Region) (d : Nat) : (s.setRegion n x).link d = s.link d := rfl
@[simp] theorem State.setRegion_partner (s : State) (n : Nat) (x : Region) (d : ChipNo) : (s.setRegion n x).partner d = s.partner d := rfl
@[simp] theorem State.setRegion_fltCfg (s : State) (n : Nat) (x : Region) (d : Nat) : (s.setRegion n x).fltCfg d = s.fltCfg d := rfl
@[simp] theorem State.setRegion_severity (s : State) (n : Nat) (x : Region) (d : Nat) : (s.setRegion n x).severity d = s.severity d := rfl
@[simp] theorem State.setRegion_keeperReady (s : State) (n : Nat) (x : Region) : (s.setRegion n x).keeperReady = s.keeperReady := rfl
@[simp] theorem State.setRegion_verb (s : State) (n : Nat) (x : Region) (d : Origin) : (s.setRegion n x).verb d = s.verb d := rfl
@[simp] theorem State.setRegion_corePresent (s : State) (n : Nat) (x : Region) (d : Nat) : (s.setRegion n x).corePresent d = s.corePresent d := rfl
@[simp] theorem State.setRegion_ifMajor (s : State) (n : Nat) (x : Region) : (s.setRegion n x).ifMajor = s.ifMajor := rfl
@[simp] theorem State.modKeeper_pending (s : State) (f : Keeper → Keeper) : (s.modKeeper f).pending = s.pending := rfl
@[simp] theorem State.modKeeper_ptime (s : State) (f : Keeper → Keeper) : (s.modKeeper f).ptime = s.ptime := rfl
@[simp] theorem State.modKeeper_inp (s : State) (f : Keeper → Keeper) : (s.modKeeper f).inp = s.inp := rfl
@[simp] theorem State.modKeeper_mboxes (s : State) (f : Keeper → Keeper) : (s.modKeeper f).mboxes = s.mboxes := rfl
@[simp] theorem State.modKeeper_ctxs (s : State) (f : Keeper → Keeper) : (s.modKeeper f).ctxs = s.ctxs := rfl
@[simp] theorem State.modKeeper_readyQ (s : State) (f : Keeper → Keeper) : (s.modKeeper f).readyQ = s.readyQ := rfl
@[simp] theorem State.modKeeper_chans (s : State) (f : Keeper → Keeper) : (s.modKeeper f).chans = s.chans := rfl
@[simp] theorem State.modKeeper_frames (s : State) (f : Keeper → Keeper) : (s.modKeeper f).frames = s.frames := rfl
@[simp] theorem State.modKeeper_taps (s : State) (f : Keeper → Keeper) : (s.modKeeper f).taps = s.taps := rfl
@[simp] theorem State.modKeeper_ports (s : State) (f : Keeper → Keeper) : (s.modKeeper f).ports = s.ports := rfl
@[simp] theorem State.modKeeper_spine (s : State) (f : Keeper → Keeper) : (s.modKeeper f).spine = s.spine := rfl
@[simp] theorem State.modKeeper_swarms (s : State) (f : Keeper → Keeper) : (s.modKeeper f).swarms = s.swarms := rfl
@[simp] theorem State.modKeeper_expand (s : State) (f : Keeper → Keeper) : (s.modKeeper f).expand = s.expand := rfl
@[simp] theorem State.modKeeper_expandAt (s : State) (f : Keeper → Keeper) : (s.modKeeper f).expandAt = s.expandAt := rfl
@[simp] theorem State.modKeeper_ksets (s : State) (f : Keeper → Keeper) : (s.modKeeper f).ksets = s.ksets := rfl
@[simp] theorem State.modKeeper_mods (s : State) (f : Keeper → Keeper) : (s.modKeeper f).mods = s.mods := rfl
@[simp] theorem State.modKeeper_xlate (s : State) (f : Keeper → Keeper) : (s.modKeeper f).xlate = s.xlate := rfl
@[simp] theorem State.modKeeper_tally (s : State) (f : Keeper → Keeper) : (s.modKeeper f).tally = s.tally := rfl
@[simp] theorem State.modKeeper_fabric (s : State) (f : Keeper → Keeper) : (s.modKeeper f).fabric = s.fabric := rfl
@[simp] theorem State.modKeeper_faults (s : State) (f : Keeper → Keeper) : (s.modKeeper f).faults = s.faults := rfl
@[simp] theorem State.modKeeper_sec (s : State) (f : Keeper → Keeper) : (s.modKeeper f).sec = s.sec := rfl
@[simp] theorem State.modKeeper_power (s : State) (f : Keeper → Keeper) : (s.modKeeper f).power = s.power := rfl
@[simp] theorem State.modKeeper_ftest (s : State) (f : Keeper → Keeper) : (s.modKeeper f).ftest = s.ftest := rfl
@[simp] theorem State.modKeeper_snap (s : State) (f : Keeper → Keeper) : (s.modKeeper f).snap = s.snap := rfl
@[simp] theorem State.modKeeper_recd (s : State) (f : Keeper → Keeper) : (s.modKeeper f).recd = s.recd := rfl
@[simp] theorem State.modKeeper_telem (s : State) (f : Keeper → Keeper) : (s.modKeeper f).telem = s.telem := rfl
@[simp] theorem State.modKeeper_regs (s : State) (f : Keeper → Keeper) : (s.modKeeper f).regs = s.regs := rfl
@[simp] theorem State.modKeeper_free (s : State) (f : Keeper → Keeper) : (s.modKeeper f).free = s.free := rfl
@[simp] theorem State.modKeeper_nextId (s : State) (f : Keeper → Keeper) : (s.modKeeper f).nextId = s.nextId := rfl
@[simp] theorem State.modKeeper_ctx (s : State) (f : Keeper → Keeper) (d : CtxNo) : (s.modKeeper f).ctx d = s.ctx d := rfl
@[simp] theorem State.modKeeper_chan (s : State) (f : Keeper → Keeper) (d : Nat) : (s.modKeeper f).chan d = s.chan d := rfl
@[simp] theorem State.modKeeper_frame (s : State) (f : Keeper → Keeper) (d : Nat) : (s.modKeeper f).frame d = s.frame d := rfl
@[simp] theorem State.modKeeper_tap (s : State) (f : Keeper → Keeper) (d : Nat) : (s.modKeeper f).tap d = s.tap d := rfl
@[simp] theorem State.modKeeper_port (s : State) (f : Keeper → Keeper) (d : Nat) : (s.modKeeper f).port d = s.port d := rfl
@[simp] theorem State.modKeeper_mbox (s : State) (f : Keeper → Keeper) (d : Nat) : (s.modKeeper f).mbox d = s.mbox d := rfl
@[simp] theorem State.modKeeper_swarm (s : State) (f : Keeper → Keeper) (d : Nat) : (s.modKeeper f).swarm d = s.swarm d := rfl
@[simp] theorem State.modKeeper_kset (s : State) (f : Keeper → Keeper) (d : KsetNo) : (s.modKeeper f).kset d = s.kset d := rfl
@[simp] theorem State.modKeeper_modulus (s : State) (f : Keeper → Keeper) (d : Nat) : (s.modKeeper f).modulus d = s.modulus d := rfl
@[simp] theorem State.modKeeper_link (s : State) (f : Keeper → Keeper) (d : Nat) : (s.modKeeper f).link d = s.link d := rfl
@[simp] theorem State.modKeeper_partner (s : State) (f : Keeper → Keeper) (d : ChipNo) : (s.modKeeper f).partner d = s.partner d := rfl
@[simp] theorem State.modKeeper_region (s : State) (f : Keeper → Keeper) (d : Nat) : (s.modKeeper f).region d = s.region d := rfl
@[simp] theorem State.modKeeper_fltCfg (s : State) (f : Keeper → Keeper) (d : Nat) : (s.modKeeper f).fltCfg d = s.fltCfg d := rfl
@[simp] theorem State.modKeeper_severity (s : State) (f : Keeper → Keeper) (d : Nat) : (s.modKeeper f).severity d = s.severity d := rfl
@[simp] theorem State.modKeeper_cpAwake (s : State) (f : Keeper → Keeper) : (s.modKeeper f).cpAwake = s.cpAwake := rfl
@[simp] theorem State.modKeeper_domainOn (s : State) (f : Keeper → Keeper) (d : Nat) : (s.modKeeper f).domainOn d = s.domainOn d := rfl
@[simp] theorem State.modKeeper_corePresent (s : State) (f : Keeper → Keeper) (d : Nat) : (s.modKeeper f).corePresent d = s.corePresent d := rfl
@[simp] theorem State.modRecd_pending (s : State) (f : Recorder → Recorder) : (s.modRecd f).pending = s.pending := rfl
@[simp] theorem State.modRecd_ptime (s : State) (f : Recorder → Recorder) : (s.modRecd f).ptime = s.ptime := rfl
@[simp] theorem State.modRecd_inp (s : State) (f : Recorder → Recorder) : (s.modRecd f).inp = s.inp := rfl
@[simp] theorem State.modRecd_keeper (s : State) (f : Recorder → Recorder) : (s.modRecd f).keeper = s.keeper := rfl
@[simp] theorem State.modRecd_mboxes (s : State) (f : Recorder → Recorder) : (s.modRecd f).mboxes = s.mboxes := rfl
@[simp] theorem State.modRecd_ctxs (s : State) (f : Recorder → Recorder) : (s.modRecd f).ctxs = s.ctxs := rfl
@[simp] theorem State.modRecd_readyQ (s : State) (f : Recorder → Recorder) : (s.modRecd f).readyQ = s.readyQ := rfl
@[simp] theorem State.modRecd_chans (s : State) (f : Recorder → Recorder) : (s.modRecd f).chans = s.chans := rfl
@[simp] theorem State.modRecd_frames (s : State) (f : Recorder → Recorder) : (s.modRecd f).frames = s.frames := rfl
@[simp] theorem State.modRecd_taps (s : State) (f : Recorder → Recorder) : (s.modRecd f).taps = s.taps := rfl
@[simp] theorem State.modRecd_ports (s : State) (f : Recorder → Recorder) : (s.modRecd f).ports = s.ports := rfl
@[simp] theorem State.modRecd_spine (s : State) (f : Recorder → Recorder) : (s.modRecd f).spine = s.spine := rfl
@[simp] theorem State.modRecd_swarms (s : State) (f : Recorder → Recorder) : (s.modRecd f).swarms = s.swarms := rfl
@[simp] theorem State.modRecd_expand (s : State) (f : Recorder → Recorder) : (s.modRecd f).expand = s.expand := rfl
@[simp] theorem State.modRecd_expandAt (s : State) (f : Recorder → Recorder) : (s.modRecd f).expandAt = s.expandAt := rfl
@[simp] theorem State.modRecd_ksets (s : State) (f : Recorder → Recorder) : (s.modRecd f).ksets = s.ksets := rfl
@[simp] theorem State.modRecd_mods (s : State) (f : Recorder → Recorder) : (s.modRecd f).mods = s.mods := rfl
@[simp] theorem State.modRecd_xlate (s : State) (f : Recorder → Recorder) : (s.modRecd f).xlate = s.xlate := rfl
@[simp] theorem State.modRecd_tally (s : State) (f : Recorder → Recorder) : (s.modRecd f).tally = s.tally := rfl
@[simp] theorem State.modRecd_fabric (s : State) (f : Recorder → Recorder) : (s.modRecd f).fabric = s.fabric := rfl
@[simp] theorem State.modRecd_faults (s : State) (f : Recorder → Recorder) : (s.modRecd f).faults = s.faults := rfl
@[simp] theorem State.modRecd_sec (s : State) (f : Recorder → Recorder) : (s.modRecd f).sec = s.sec := rfl
@[simp] theorem State.modRecd_power (s : State) (f : Recorder → Recorder) : (s.modRecd f).power = s.power := rfl
@[simp] theorem State.modRecd_ftest (s : State) (f : Recorder → Recorder) : (s.modRecd f).ftest = s.ftest := rfl
@[simp] theorem State.modRecd_snap (s : State) (f : Recorder → Recorder) : (s.modRecd f).snap = s.snap := rfl
@[simp] theorem State.modRecd_telem (s : State) (f : Recorder → Recorder) : (s.modRecd f).telem = s.telem := rfl
@[simp] theorem State.modRecd_regs (s : State) (f : Recorder → Recorder) : (s.modRecd f).regs = s.regs := rfl
@[simp] theorem State.modRecd_free (s : State) (f : Recorder → Recorder) : (s.modRecd f).free = s.free := rfl
@[simp] theorem State.modRecd_nextId (s : State) (f : Recorder → Recorder) : (s.modRecd f).nextId = s.nextId := rfl
@[simp] theorem State.modRecd_ctx (s : State) (f : Recorder → Recorder) (d : CtxNo) : (s.modRecd f).ctx d = s.ctx d := rfl
@[simp] theorem State.modRecd_chan (s : State) (f : Recorder → Recorder) (d : Nat) : (s.modRecd f).chan d = s.chan d := rfl
@[simp] theorem State.modRecd_frame (s : State) (f : Recorder → Recorder) (d : Nat) : (s.modRecd f).frame d = s.frame d := rfl
@[simp] theorem State.modRecd_tap (s : State) (f : Recorder → Recorder) (d : Nat) : (s.modRecd f).tap d = s.tap d := rfl
@[simp] theorem State.modRecd_port (s : State) (f : Recorder → Recorder) (d : Nat) : (s.modRecd f).port d = s.port d := rfl
@[simp] theorem State.modRecd_mbox (s : State) (f : Recorder → Recorder) (d : Nat) : (s.modRecd f).mbox d = s.mbox d := rfl
@[simp] theorem State.modRecd_swarm (s : State) (f : Recorder → Recorder) (d : Nat) : (s.modRecd f).swarm d = s.swarm d := rfl
@[simp] theorem State.modRecd_kset (s : State) (f : Recorder → Recorder) (d : KsetNo) : (s.modRecd f).kset d = s.kset d := rfl
@[simp] theorem State.modRecd_modulus (s : State) (f : Recorder → Recorder) (d : Nat) : (s.modRecd f).modulus d = s.modulus d := rfl
@[simp] theorem State.modRecd_link (s : State) (f : Recorder → Recorder) (d : Nat) : (s.modRecd f).link d = s.link d := rfl
@[simp] theorem State.modRecd_partner (s : State) (f : Recorder → Recorder) (d : ChipNo) : (s.modRecd f).partner d = s.partner d := rfl
@[simp] theorem State.modRecd_region (s : State) (f : Recorder → Recorder) (d : Nat) : (s.modRecd f).region d = s.region d := rfl
@[simp] theorem State.modRecd_fltCfg (s : State) (f : Recorder → Recorder) (d : Nat) : (s.modRecd f).fltCfg d = s.fltCfg d := rfl
@[simp] theorem State.modRecd_severity (s : State) (f : Recorder → Recorder) (d : Nat) : (s.modRecd f).severity d = s.severity d := rfl
@[simp] theorem State.modRecd_cpAwake (s : State) (f : Recorder → Recorder) : (s.modRecd f).cpAwake = s.cpAwake := rfl
@[simp] theorem State.modRecd_keeperReady (s : State) (f : Recorder → Recorder) : (s.modRecd f).keeperReady = s.keeperReady := rfl
@[simp] theorem State.modRecd_domainOn (s : State) (f : Recorder → Recorder) (d : Nat) : (s.modRecd f).domainOn d = s.domainOn d := rfl
@[simp] theorem State.modRecd_verb (s : State) (f : Recorder → Recorder) (d : Origin) : (s.modRecd f).verb d = s.verb d := rfl
@[simp] theorem State.modRecd_corePresent (s : State) (f : Recorder → Recorder) (d : Nat) : (s.modRecd f).corePresent d = s.corePresent d := rfl
@[simp] theorem State.modRecd_ifMajor (s : State) (f : Recorder → Recorder) : (s.modRecd f).ifMajor = s.ifMajor := rfl
@[simp] theorem State.modFaults_pending (s : State) (f : Faults → Faults) : (s.modFaults f).pending = s.pending := rfl
@[simp] theorem State.modFaults_ptime (s : State) (f : Faults → Faults) : (s.modFaults f).ptime = s.ptime := rfl
@[simp] theorem State.modFaults_inp (s : State) (f : Faults → Faults) : (s.modFaults f).inp = s.inp := rfl
@[simp] theorem State.modFaults_keeper (s : State) (f : Faults → Faults) : (s.modFaults f).keeper = s.keeper := rfl
@[simp] theorem State.modFaults_mboxes (s : State) (f : Faults → Faults) : (s.modFaults f).mboxes = s.mboxes := rfl
@[simp] theorem State.modFaults_ctxs (s : State) (f : Faults → Faults) : (s.modFaults f).ctxs = s.ctxs := rfl
@[simp] theorem State.modFaults_readyQ (s : State) (f : Faults → Faults) : (s.modFaults f).readyQ = s.readyQ := rfl
@[simp] theorem State.modFaults_chans (s : State) (f : Faults → Faults) : (s.modFaults f).chans = s.chans := rfl
@[simp] theorem State.modFaults_frames (s : State) (f : Faults → Faults) : (s.modFaults f).frames = s.frames := rfl
@[simp] theorem State.modFaults_taps (s : State) (f : Faults → Faults) : (s.modFaults f).taps = s.taps := rfl
@[simp] theorem State.modFaults_ports (s : State) (f : Faults → Faults) : (s.modFaults f).ports = s.ports := rfl
@[simp] theorem State.modFaults_spine (s : State) (f : Faults → Faults) : (s.modFaults f).spine = s.spine := rfl
@[simp] theorem State.modFaults_swarms (s : State) (f : Faults → Faults) : (s.modFaults f).swarms = s.swarms := rfl
@[simp] theorem State.modFaults_expand (s : State) (f : Faults → Faults) : (s.modFaults f).expand = s.expand := rfl
@[simp] theorem State.modFaults_expandAt (s : State) (f : Faults → Faults) : (s.modFaults f).expandAt = s.expandAt := rfl
@[simp] theorem State.modFaults_ksets (s : State) (f : Faults → Faults) : (s.modFaults f).ksets = s.ksets := rfl
@[simp] theorem State.modFaults_mods (s : State) (f : Faults → Faults) : (s.modFaults f).mods = s.mods := rfl
@[simp] theorem State.modFaults_xlate (s : State) (f : Faults → Faults) : (s.modFaults f).xlate = s.xlate := rfl
@[simp] theorem State.modFaults_tally (s : State) (f : Faults → Faults) : (s.modFaults f).tally = s.tally := rfl
@[simp] theorem State.modFaults_fabric (s : State) (f : Faults → Faults) : (s.modFaults f).fabric = s.fabric := rfl
@[simp] theorem State.modFaults_sec (s : State) (f : Faults → Faults) : (s.modFaults f).sec = s.sec := rfl
@[simp] theorem State.modFaults_power (s : State) (f : Faults → Faults) : (s.modFaults f).power = s.power := rfl
@[simp] theorem State.modFaults_ftest (s : State) (f : Faults → Faults) : (s.modFaults f).ftest = s.ftest := rfl
@[simp] theorem State.modFaults_snap (s : State) (f : Faults → Faults) : (s.modFaults f).snap = s.snap := rfl
@[simp] theorem State.modFaults_recd (s : State) (f : Faults → Faults) : (s.modFaults f).recd = s.recd := rfl
@[simp] theorem State.modFaults_telem (s : State) (f : Faults → Faults) : (s.modFaults f).telem = s.telem := rfl
@[simp] theorem State.modFaults_regs (s : State) (f : Faults → Faults) : (s.modFaults f).regs = s.regs := rfl
@[simp] theorem State.modFaults_free (s : State) (f : Faults → Faults) : (s.modFaults f).free = s.free := rfl
@[simp] theorem State.modFaults_nextId (s : State) (f : Faults → Faults) : (s.modFaults f).nextId = s.nextId := rfl
@[simp] theorem State.modFaults_ctx (s : State) (f : Faults → Faults) (d : CtxNo) : (s.modFaults f).ctx d = s.ctx d := rfl
@[simp] theorem State.modFaults_chan (s : State) (f : Faults → Faults) (d : Nat) : (s.modFaults f).chan d = s.chan d := rfl
@[simp] theorem State.modFaults_frame (s : State) (f : Faults → Faults) (d : Nat) : (s.modFaults f).frame d = s.frame d := rfl
@[simp] theorem State.modFaults_tap (s : State) (f : Faults → Faults) (d : Nat) : (s.modFaults f).tap d = s.tap d := rfl
@[simp] theorem State.modFaults_port (s : State) (f : Faults → Faults) (d : Nat) : (s.modFaults f).port d = s.port d := rfl
@[simp] theorem State.modFaults_mbox (s : State) (f : Faults → Faults) (d : Nat) : (s.modFaults f).mbox d = s.mbox d := rfl
@[simp] theorem State.modFaults_swarm (s : State) (f : Faults → Faults) (d : Nat) : (s.modFaults f).swarm d = s.swarm d := rfl
@[simp] theorem State.modFaults_kset (s : State) (f : Faults → Faults) (d : KsetNo) : (s.modFaults f).kset d = s.kset d := rfl
@[simp] theorem State.modFaults_modulus (s : State) (f : Faults → Faults) (d : Nat) : (s.modFaults f).modulus d = s.modulus d := rfl
@[simp] theorem State.modFaults_link (s : State) (f : Faults → Faults) (d : Nat) : (s.modFaults f).link d = s.link d := rfl
@[simp] theorem State.modFaults_partner (s : State) (f : Faults → Faults) (d : ChipNo) : (s.modFaults f).partner d = s.partner d := rfl
@[simp] theorem State.modFaults_region (s : State) (f : Faults → Faults) (d : Nat) : (s.modFaults f).region d = s.region d := rfl
@[simp] theorem State.modFaults_cpAwake (s : State) (f : Faults → Faults) : (s.modFaults f).cpAwake = s.cpAwake := rfl
@[simp] theorem State.modFaults_keeperReady (s : State) (f : Faults → Faults) : (s.modFaults f).keeperReady = s.keeperReady := rfl
@[simp] theorem State.modFaults_domainOn (s : State) (f : Faults → Faults) (d : Nat) : (s.modFaults f).domainOn d = s.domainOn d := rfl
@[simp] theorem State.modFaults_verb (s : State) (f : Faults → Faults) (d : Origin) : (s.modFaults f).verb d = s.verb d := rfl
@[simp] theorem State.modFaults_corePresent (s : State) (f : Faults → Faults) (d : Nat) : (s.modFaults f).corePresent d = s.corePresent d := rfl
@[simp] theorem State.modFaults_ifMajor (s : State) (f : Faults → Faults) : (s.modFaults f).ifMajor = s.ifMajor := rfl
@[simp] theorem State.askFlush_pending (s : State) : (s.askFlush).pending = s.pending := rfl
@[simp] theorem State.askFlush_ptime (s : State) : (s.askFlush).ptime = s.ptime := rfl
@[simp] theorem State.askFlush_inp (s : State) : (s.askFlush).inp = s.inp := rfl
@[simp] theorem State.askFlush_keeper (s : State) : (s.askFlush).keeper = s.keeper := rfl
@[simp] theorem State.askFlush_mboxes (s : State) : (s.askFlush).mboxes = s.mboxes := rfl
@[simp] theorem State.askFlush_ctxs (s : State) : (s.askFlush).ctxs = s.ctxs := rfl
@[simp] theorem State.askFlush_readyQ (s : State) : (s.askFlush).readyQ = s.readyQ := rfl
@[simp] theorem State.askFlush_chans (s : State) : (s.askFlush).chans = s.chans := rfl
@[simp] theorem State.askFlush_frames (s : State) : (s.askFlush).frames = s.frames := rfl
@[simp] theorem State.askFlush_taps (s : State) : (s.askFlush).taps = s.taps := rfl
@[simp] theorem State.askFlush_ports (s : State) : (s.askFlush).ports = s.ports := rfl
@[simp] theorem State.askFlush_spine (s : State) : (s.askFlush).spine = s.spine := rfl
@[simp] theorem State.askFlush_swarms (s : State) : (s.askFlush).swarms = s.swarms := rfl
@[simp] theorem State.askFlush_expand (s : State) : (s.askFlush).expand = s.expand := rfl
@[simp] theorem State.askFlush_expandAt (s : State) : (s.askFlush).expandAt = s.expandAt := rfl
@[simp] theorem State.askFlush_ksets (s : State) : (s.askFlush).ksets = s.ksets := rfl
@[simp] theorem State.askFlush_mods (s : State) : (s.askFlush).mods = s.mods := rfl
@[simp] theorem State.askFlush_xlate (s : State) : (s.askFlush).xlate = s.xlate := rfl
@[simp] theorem State.askFlush_tally (s : State) : (s.askFlush).tally = s.tally := rfl
@[simp] theorem State.askFlush_fabric (s : State) : (s.askFlush).fabric = s.fabric := rfl
@[simp] theorem State.askFlush_faults (s : State) : (s.askFlush).faults = s.faults := rfl
@[simp] theorem State.askFlush_sec (s : State) : (s.askFlush).sec = s.sec := rfl
@[simp] theorem State.askFlush_power (s : State) : (s.askFlush).power = s.power := rfl
@[simp] theorem State.askFlush_ftest (s : State) : (s.askFlush).ftest = s.ftest := rfl
@[simp] theorem State.askFlush_snap (s : State) : (s.askFlush).snap = s.snap := rfl
@[simp] theorem State.askFlush_telem (s : State) : (s.askFlush).telem = s.telem := rfl
@[simp] theorem State.askFlush_regs (s : State) : (s.askFlush).regs = s.regs := rfl
@[simp] theorem State.askFlush_free (s : State) : (s.askFlush).free = s.free := rfl
@[simp] theorem State.askFlush_nextId (s : State) : (s.askFlush).nextId = s.nextId := rfl
@[simp] theorem State.askFlush_ctx (s : State) (d : CtxNo) : (s.askFlush).ctx d = s.ctx d := rfl
@[simp] theorem State.askFlush_chan (s : State) (d : Nat) : (s.askFlush).chan d = s.chan d := rfl
@[simp] theorem State.askFlush_frame (s : State) (d : Nat) : (s.askFlush).frame d = s.frame d := rfl
@[simp] theorem State.askFlush_tap (s : State) (d : Nat) : (s.askFlush).tap d = s.tap d := rfl
@[simp] theorem State.askFlush_port (s : State) (d : Nat) : (s.askFlush).port d = s.port d := rfl
@[simp] theorem State.askFlush_mbox (s : State) (d : Nat) : (s.askFlush).mbox d = s.mbox d := rfl
@[simp] theorem State.askFlush_swarm (s : State) (d : Nat) : (s.askFlush).swarm d = s.swarm d := rfl
@[simp] theorem State.askFlush_kset (s : State) (d : KsetNo) : (s.askFlush).kset d = s.kset d := rfl
@[simp] theorem State.askFlush_modulus (s : State) (d : Nat) : (s.askFlush).modulus d = s.modulus d := rfl
@[simp] theorem State.askFlush_link (s : State) (d : Nat) : (s.askFlush).link d = s.link d := rfl
@[simp] theorem State.askFlush_partner (s : State) (d : ChipNo) : (s.askFlush).partner d = s.partner d := rfl
@[simp] theorem State.askFlush_region (s : State) (d : Nat) : (s.askFlush).region d = s.region d := rfl
@[simp] theorem State.askFlush_fltCfg (s : State) (d : Nat) : (s.askFlush).fltCfg d = s.fltCfg d := rfl
@[simp] theorem State.askFlush_severity (s : State) (d : Nat) : (s.askFlush).severity d = s.severity d := rfl
@[simp] theorem State.askFlush_cpAwake (s : State) : (s.askFlush).cpAwake = s.cpAwake := rfl
@[simp] theorem State.askFlush_keeperReady (s : State) : (s.askFlush).keeperReady = s.keeperReady := rfl
@[simp] theorem State.askFlush_domainOn (s : State) (d : Nat) : (s.askFlush).domainOn d = s.domainOn d := rfl
@[simp] theorem State.askFlush_verb (s : State) (d : Origin) : (s.askFlush).verb d = s.verb d := rfl
@[simp] theorem State.askFlush_corePresent (s : State) (d : Nat) : (s.askFlush).corePresent d = s.corePresent d := rfl
@[simp] theorem State.askFlush_ifMajor (s : State) : (s.askFlush).ifMajor = s.ifMajor := rfl
@[simp] theorem State.kmPush_pending (s : State) (r : KmReq) : (s.kmPush r).pending = s.pending := rfl
@[simp] theorem State.kmPush_ptime (s : State) (r : KmReq) : (s.kmPush r).ptime = s.ptime := rfl
@[simp] theorem State.kmPush_inp (s : State) (r : KmReq) : (s.kmPush r).inp = s.inp := rfl
@[simp] theorem State.kmPush_mboxes (s : State) (r : KmReq) : (s.kmPush r).mboxes = s.mboxes := rfl
@[simp] theorem State.kmPush_ctxs (s : State) (r : KmReq) : (s.kmPush r).ctxs = s.ctxs := rfl
@[simp] theorem State.kmPush_readyQ (s : State) (r : KmReq) : (s.kmPush r).readyQ = s.readyQ := rfl
@[simp] theorem State.kmPush_chans (s : State) (r : KmReq) : (s.kmPush r).chans = s.chans := rfl
@[simp] theorem State.kmPush_frames (s : State) (r : KmReq) : (s.kmPush r).frames = s.frames := rfl
@[simp] theorem State.kmPush_taps (s : State) (r : KmReq) : (s.kmPush r).taps = s.taps := rfl
@[simp] theorem State.kmPush_ports (s : State) (r : KmReq) : (s.kmPush r).ports = s.ports := rfl
@[simp] theorem State.kmPush_spine (s : State) (r : KmReq) : (s.kmPush r).spine = s.spine := rfl
@[simp] theorem State.kmPush_swarms (s : State) (r : KmReq) : (s.kmPush r).swarms = s.swarms := rfl
@[simp] theorem State.kmPush_expand (s : State) (r : KmReq) : (s.kmPush r).expand = s.expand := rfl
@[simp] theorem State.kmPush_expandAt (s : State) (r : KmReq) : (s.kmPush r).expandAt = s.expandAt := rfl
@[simp] theorem State.kmPush_ksets (s : State) (r : KmReq) : (s.kmPush r).ksets = s.ksets := rfl
@[simp] theorem State.kmPush_mods (s : State) (r : KmReq) : (s.kmPush r).mods = s.mods := rfl
@[simp] theorem State.kmPush_xlate (s : State) (r : KmReq) : (s.kmPush r).xlate = s.xlate := rfl
@[simp] theorem State.kmPush_tally (s : State) (r : KmReq) : (s.kmPush r).tally = s.tally := rfl
@[simp] theorem State.kmPush_fabric (s : State) (r : KmReq) : (s.kmPush r).fabric = s.fabric := rfl
@[simp] theorem State.kmPush_faults (s : State) (r : KmReq) : (s.kmPush r).faults = s.faults := rfl
@[simp] theorem State.kmPush_sec (s : State) (r : KmReq) : (s.kmPush r).sec = s.sec := rfl
@[simp] theorem State.kmPush_power (s : State) (r : KmReq) : (s.kmPush r).power = s.power := rfl
@[simp] theorem State.kmPush_ftest (s : State) (r : KmReq) : (s.kmPush r).ftest = s.ftest := rfl
@[simp] theorem State.kmPush_snap (s : State) (r : KmReq) : (s.kmPush r).snap = s.snap := rfl
@[simp] theorem State.kmPush_recd (s : State) (r : KmReq) : (s.kmPush r).recd = s.recd := rfl
@[simp] theorem State.kmPush_telem (s : State) (r : KmReq) : (s.kmPush r).telem = s.telem := rfl
@[simp] theorem State.kmPush_regs (s : State) (r : KmReq) : (s.kmPush r).regs = s.regs := rfl
@[simp] theorem State.kmPush_free (s : State) (r : KmReq) : (s.kmPush r).free = s.free := rfl
@[simp] theorem State.kmPush_nextId (s : State) (r : KmReq) : (s.kmPush r).nextId = s.nextId := rfl
@[simp] theorem State.kmPush_ctx (s : State) (r : KmReq) (d : CtxNo) : (s.kmPush r).ctx d = s.ctx d := rfl
@[simp] theorem State.kmPush_chan (s : State) (r : KmReq) (d : Nat) : (s.kmPush r).chan d = s.chan d := rfl
@[simp] theorem State.kmPush_frame (s : State) (r : KmReq) (d : Nat) : (s.kmPush r).frame d = s.frame d := rfl
@[simp] theorem State.kmPush_tap (s : State) (r : KmReq) (d : Nat) : (s.kmPush r).tap d = s.tap d := rfl
@[simp] theorem State.kmPush_port (s : State) (r : KmReq) (d : Nat) : (s.kmPush r).port d = s.port d := rfl
@[simp] theorem State.kmPush_mbox (s : State) (r : KmReq) (d : Nat) : (s.kmPush r).mbox d = s.mbox d := rfl
@[simp] theorem State.kmPush_swarm (s : State) (r : KmReq) (d : Nat) : (s.kmPush r).swarm d = s.swarm d := rfl
@[simp] theorem State.kmPush_kset (s : State) (r : KmReq) (d : KsetNo) : (s.kmPush r).kset d = s.kset d := rfl
@[simp] theorem State.kmPush_modulus (s : State) (r : KmReq) (d : Nat) : (s.kmPush r).modulus d = s.modulus d := rfl
@[simp] theorem State.kmPush_link (s : State) (r : KmReq) (d : Nat) : (s.kmPush r).link d = s.link d := rfl
@[simp] theorem State.kmPush_partner (s : State) (r : KmReq) (d : ChipNo) : (s.kmPush r).partner d = s.partner d := rfl
@[simp] theorem State.kmPush_region (s : State) (r : KmReq) (d : Nat) : (s.kmPush r).region d = s.region d := rfl
@[simp] theorem State.kmPush_fltCfg (s : State) (r : KmReq) (d : Nat) : (s.kmPush r).fltCfg d = s.fltCfg d := rfl
@[simp] theorem State.kmPush_severity (s : State) (r : KmReq) (d : Nat) : (s.kmPush r).severity d = s.severity d := rfl
@[simp] theorem State.kmPush_cpAwake (s : State) (r : KmReq) : (s.kmPush r).cpAwake = s.cpAwake := rfl
@[simp] theorem State.kmPush_domainOn (s : State) (r : KmReq) (d : Nat) : (s.kmPush r).domainOn d = s.domainOn d := rfl
@[simp] theorem State.kmPush_corePresent (s : State) (r : KmReq) (d : Nat) : (s.kmPush r).corePresent d = s.corePresent d := rfl

/-- event touches only recd. -/
theorem State.event_touches (s : State) (e : EvRec) : s.event e = { s with recd := (s.event e).recd } := by unfold State.event; split <;> rfl
@[simp] theorem State.event_pending (s : State) (e : EvRec) : (s.event e).pending = s.pending := by rw [State.event_touches]
@[simp] theorem State.event_ptime (s : State) (e : EvRec) : (s.event e).ptime = s.ptime := by rw [State.event_touches]
@[simp] theorem State.event_inp (s : State) (e : EvRec) : (s.event e).inp = s.inp := by rw [State.event_touches]
@[simp] theorem State.event_keeper (s : State) (e : EvRec) : (s.event e).keeper = s.keeper := by rw [State.event_touches]
@[simp] theorem State.event_mboxes (s : State) (e : EvRec) : (s.event e).mboxes = s.mboxes := by rw [State.event_touches]
@[simp] theorem State.event_ctxs (s : State) (e : EvRec) : (s.event e).ctxs = s.ctxs := by rw [State.event_touches]
@[simp] theorem State.event_readyQ (s : State) (e : EvRec) : (s.event e).readyQ = s.readyQ := by rw [State.event_touches]
@[simp] theorem State.event_chans (s : State) (e : EvRec) : (s.event e).chans = s.chans := by rw [State.event_touches]
@[simp] theorem State.event_frames (s : State) (e : EvRec) : (s.event e).frames = s.frames := by rw [State.event_touches]
@[simp] theorem State.event_taps (s : State) (e : EvRec) : (s.event e).taps = s.taps := by rw [State.event_touches]
@[simp] theorem State.event_ports (s : State) (e : EvRec) : (s.event e).ports = s.ports := by rw [State.event_touches]
@[simp] theorem State.event_spine (s : State) (e : EvRec) : (s.event e).spine = s.spine := by rw [State.event_touches]
@[simp] theorem State.event_swarms (s : State) (e : EvRec) : (s.event e).swarms = s.swarms := by rw [State.event_touches]
@[simp] theorem State.event_expand (s : State) (e : EvRec) : (s.event e).expand = s.expand := by rw [State.event_touches]
@[simp] theorem State.event_expandAt (s : State) (e : EvRec) : (s.event e).expandAt = s.expandAt := by rw [State.event_touches]
@[simp] theorem State.event_ksets (s : State) (e : EvRec) : (s.event e).ksets = s.ksets := by rw [State.event_touches]
@[simp] theorem State.event_mods (s : State) (e : EvRec) : (s.event e).mods = s.mods := by rw [State.event_touches]
@[simp] theorem State.event_xlate (s : State) (e : EvRec) : (s.event e).xlate = s.xlate := by rw [State.event_touches]
@[simp] theorem State.event_tally (s : State) (e : EvRec) : (s.event e).tally = s.tally := by rw [State.event_touches]
@[simp] theorem State.event_fabric (s : State) (e : EvRec) : (s.event e).fabric = s.fabric := by rw [State.event_touches]
@[simp] theorem State.event_faults (s : State) (e : EvRec) : (s.event e).faults = s.faults := by rw [State.event_touches]
@[simp] theorem State.event_sec (s : State) (e : EvRec) : (s.event e).sec = s.sec := by rw [State.event_touches]
@[simp] theorem State.event_power (s : State) (e : EvRec) : (s.event e).power = s.power := by rw [State.event_touches]
@[simp] theorem State.event_ftest (s : State) (e : EvRec) : (s.event e).ftest = s.ftest := by rw [State.event_touches]
@[simp] theorem State.event_snap (s : State) (e : EvRec) : (s.event e).snap = s.snap := by rw [State.event_touches]
@[simp] theorem State.event_telem (s : State) (e : EvRec) : (s.event e).telem = s.telem := by rw [State.event_touches]
@[simp] theorem State.event_regs (s : State) (e : EvRec) : (s.event e).regs = s.regs := by rw [State.event_touches]
@[simp] theorem State.event_free (s : State) (e : EvRec) : (s.event e).free = s.free := by rw [State.event_touches]
@[simp] theorem State.event_nextId (s : State) (e : EvRec) : (s.event e).nextId = s.nextId := by rw [State.event_touches]
@[simp] theorem State.event_ctx (s : State) (e : EvRec) (d : CtxNo) : (s.event e).ctx d = s.ctx d := by simp only [State.ctx, State.event_ctxs]
@[simp] theorem State.event_chan (s : State) (e : EvRec) (d : Nat) : (s.event e).chan d = s.chan d := by simp only [State.chan, State.event_chans]
@[simp] theorem State.event_frame (s : State) (e : EvRec) (d : Nat) : (s.event e).frame d = s.frame d := by simp only [State.frame, State.event_frames]
@[simp] theorem State.event_tap (s : State) (e : EvRec) (d : Nat) : (s.event e).tap d = s.tap d := by simp only [State.tap, State.event_taps]
@[simp] theorem State.event_port (s : State) (e : EvRec) (d : Nat) : (s.event e).port d = s.port d := by simp only [State.port, State.event_ports]
@[simp] theorem State.event_mbox (s : State) (e : EvRec) (d : Nat) : (s.event e).mbox d = s.mbox d := by simp only [State.mbox, State.event_mboxes]
@[simp] theorem State.event_swarm (s : State) (e : EvRec) (d : Nat) : (s.event e).swarm d = s.swarm d := by simp only [State.swarm, State.event_swarms]
@[simp] theorem State.event_kset (s : State) (e : EvRec) (d : KsetNo) : (s.event e).kset d = s.kset d := by simp only [State.kset, State.event_ksets]
@[simp] theorem State.event_modulus (s : State) (e : EvRec) (d : Nat) : (s.event e).modulus d = s.modulus d := by simp only [State.modulus, State.event_mods]
@[simp] theorem State.event_link (s : State) (e : EvRec) (d : Nat) : (s.event e).link d = s.link d := by simp only [State.link, State.event_fabric]
@[simp] theorem State.event_partner (s : State) (e : EvRec) (d : ChipNo) : (s.event e).partner d = s.partner d := by simp only [State.partner, State.event_fabric]
@[simp] theorem State.event_region (s : State) (e : EvRec) (d : Nat) : (s.event e).region d = s.region d := by simp only [State.region, State.event_power]
@[simp] theorem State.event_fltCfg (s : State) (e : EvRec) (d : Nat) : (s.event e).fltCfg d = s.fltCfg d := by simp only [State.fltCfg, State.event_faults]
@[simp] theorem State.event_severity (s : State) (e : EvRec) (d : Nat) : (s.event e).severity d = s.severity d := by simp only [State.severity, State.fltCfg, State.event_faults]
@[simp] theorem State.event_cpAwake (s : State) (e : EvRec) : (s.event e).cpAwake = s.cpAwake := by simp only [State.cpAwake, State.domainOn, State.event_power]
@[simp] theorem State.event_keeperReady (s : State) (e : EvRec) : (s.event e).keeperReady = s.keeperReady := by simp only [State.keeperReady, State.event_keeper]
@[simp] theorem State.event_domainOn (s : State) (e : EvRec) (d : Nat) : (s.event e).domainOn d = s.domainOn d := by simp only [State.domainOn, State.event_power]
@[simp] theorem State.event_verb (s : State) (e : EvRec) (d : Origin) : (s.event e).verb d = s.verb d := by simp only [State.verb, State.event_keeper]
@[simp] theorem State.event_corePresent (s : State) (e : EvRec) (d : Nat) : (s.event e).corePresent d = s.corePresent d := by simp only [State.corePresent, State.event_inp]
@[simp] theorem State.event_ifMajor (s : State) (e : EvRec) : (s.event e).ifMajor = s.ifMajor := by simp only [State.ifMajor, State.event_keeper]

/-- snapTrigger touches only snap. -/
theorem State.snapTrigger_touches (s : State) (n : Nat) : s.snapTrigger n = { s with snap := (s.snapTrigger n).snap } := by unfold State.snapTrigger; (repeat' split) <;> rfl
@[simp] theorem State.snapTrigger_pending (s : State) (n : Nat) : (s.snapTrigger n).pending = s.pending := by rw [State.snapTrigger_touches]
@[simp] theorem State.snapTrigger_ptime (s : State) (n : Nat) : (s.snapTrigger n).ptime = s.ptime := by rw [State.snapTrigger_touches]
@[simp] theorem State.snapTrigger_inp (s : State) (n : Nat) : (s.snapTrigger n).inp = s.inp := by rw [State.snapTrigger_touches]
@[simp] theorem State.snapTrigger_keeper (s : State) (n : Nat) : (s.snapTrigger n).keeper = s.keeper := by rw [State.snapTrigger_touches]
@[simp] theorem State.snapTrigger_mboxes (s : State) (n : Nat) : (s.snapTrigger n).mboxes = s.mboxes := by rw [State.snapTrigger_touches]
@[simp] theorem State.snapTrigger_ctxs (s : State) (n : Nat) : (s.snapTrigger n).ctxs = s.ctxs := by rw [State.snapTrigger_touches]
@[simp] theorem State.snapTrigger_readyQ (s : State) (n : Nat) : (s.snapTrigger n).readyQ = s.readyQ := by rw [State.snapTrigger_touches]
@[simp] theorem State.snapTrigger_chans (s : State) (n : Nat) : (s.snapTrigger n).chans = s.chans := by rw [State.snapTrigger_touches]
@[simp] theorem State.snapTrigger_frames (s : State) (n : Nat) : (s.snapTrigger n).frames = s.frames := by rw [State.snapTrigger_touches]
@[simp] theorem State.snapTrigger_taps (s : State) (n : Nat) : (s.snapTrigger n).taps = s.taps := by rw [State.snapTrigger_touches]
@[simp] theorem State.snapTrigger_ports (s : State) (n : Nat) : (s.snapTrigger n).ports = s.ports := by rw [State.snapTrigger_touches]
@[simp] theorem State.snapTrigger_spine (s : State) (n : Nat) : (s.snapTrigger n).spine = s.spine := by rw [State.snapTrigger_touches]
@[simp] theorem State.snapTrigger_swarms (s : State) (n : Nat) : (s.snapTrigger n).swarms = s.swarms := by rw [State.snapTrigger_touches]
@[simp] theorem State.snapTrigger_expand (s : State) (n : Nat) : (s.snapTrigger n).expand = s.expand := by rw [State.snapTrigger_touches]
@[simp] theorem State.snapTrigger_expandAt (s : State) (n : Nat) : (s.snapTrigger n).expandAt = s.expandAt := by rw [State.snapTrigger_touches]
@[simp] theorem State.snapTrigger_ksets (s : State) (n : Nat) : (s.snapTrigger n).ksets = s.ksets := by rw [State.snapTrigger_touches]
@[simp] theorem State.snapTrigger_mods (s : State) (n : Nat) : (s.snapTrigger n).mods = s.mods := by rw [State.snapTrigger_touches]
@[simp] theorem State.snapTrigger_xlate (s : State) (n : Nat) : (s.snapTrigger n).xlate = s.xlate := by rw [State.snapTrigger_touches]
@[simp] theorem State.snapTrigger_tally (s : State) (n : Nat) : (s.snapTrigger n).tally = s.tally := by rw [State.snapTrigger_touches]
@[simp] theorem State.snapTrigger_fabric (s : State) (n : Nat) : (s.snapTrigger n).fabric = s.fabric := by rw [State.snapTrigger_touches]
@[simp] theorem State.snapTrigger_faults (s : State) (n : Nat) : (s.snapTrigger n).faults = s.faults := by rw [State.snapTrigger_touches]
@[simp] theorem State.snapTrigger_sec (s : State) (n : Nat) : (s.snapTrigger n).sec = s.sec := by rw [State.snapTrigger_touches]
@[simp] theorem State.snapTrigger_power (s : State) (n : Nat) : (s.snapTrigger n).power = s.power := by rw [State.snapTrigger_touches]
@[simp] theorem State.snapTrigger_ftest (s : State) (n : Nat) : (s.snapTrigger n).ftest = s.ftest := by rw [State.snapTrigger_touches]
@[simp] theorem State.snapTrigger_recd (s : State) (n : Nat) : (s.snapTrigger n).recd = s.recd := by rw [State.snapTrigger_touches]
@[simp] theorem State.snapTrigger_telem (s : State) (n : Nat) : (s.snapTrigger n).telem = s.telem := by rw [State.snapTrigger_touches]
@[simp] theorem State.snapTrigger_regs (s : State) (n : Nat) : (s.snapTrigger n).regs = s.regs := by rw [State.snapTrigger_touches]
@[simp] theorem State.snapTrigger_free (s : State) (n : Nat) : (s.snapTrigger n).free = s.free := by rw [State.snapTrigger_touches]
@[simp] theorem State.snapTrigger_nextId (s : State) (n : Nat) : (s.snapTrigger n).nextId = s.nextId := by rw [State.snapTrigger_touches]
@[simp] theorem State.snapTrigger_ctx (s : State) (n : Nat) (d : CtxNo) : (s.snapTrigger n).ctx d = s.ctx d := by simp only [State.ctx, State.snapTrigger_ctxs]
@[simp] theorem State.snapTrigger_chan (s : State) (n : Nat) (d : Nat) : (s.snapTrigger n).chan d = s.chan d := by simp only [State.chan, State.snapTrigger_chans]
@[simp] theorem State.snapTrigger_frame (s : State) (n : Nat) (d : Nat) : (s.snapTrigger n).frame d = s.frame d := by simp only [State.frame, State.snapTrigger_frames]
@[simp] theorem State.snapTrigger_tap (s : State) (n : Nat) (d : Nat) : (s.snapTrigger n).tap d = s.tap d := by simp only [State.tap, State.snapTrigger_taps]
@[simp] theorem State.snapTrigger_port (s : State) (n : Nat) (d : Nat) : (s.snapTrigger n).port d = s.port d := by simp only [State.port, State.snapTrigger_ports]
@[simp] theorem State.snapTrigger_mbox (s : State) (n : Nat) (d : Nat) : (s.snapTrigger n).mbox d = s.mbox d := by simp only [State.mbox, State.snapTrigger_mboxes]
@[simp] theorem State.snapTrigger_swarm (s : State) (n : Nat) (d : Nat) : (s.snapTrigger n).swarm d = s.swarm d := by simp only [State.swarm, State.snapTrigger_swarms]
@[simp] theorem State.snapTrigger_kset (s : State) (n : Nat) (d : KsetNo) : (s.snapTrigger n).kset d = s.kset d := by simp only [State.kset, State.snapTrigger_ksets]
@[simp] theorem State.snapTrigger_modulus (s : State) (n : Nat) (d : Nat) : (s.snapTrigger n).modulus d = s.modulus d := by simp only [State.modulus, State.snapTrigger_mods]
@[simp] theorem State.snapTrigger_link (s : State) (n : Nat) (d : Nat) : (s.snapTrigger n).link d = s.link d := by simp only [State.link, State.snapTrigger_fabric]
@[simp] theorem State.snapTrigger_partner (s : State) (n : Nat) (d : ChipNo) : (s.snapTrigger n).partner d = s.partner d := by simp only [State.partner, State.snapTrigger_fabric]
@[simp] theorem State.snapTrigger_region (s : State) (n : Nat) (d : Nat) : (s.snapTrigger n).region d = s.region d := by simp only [State.region, State.snapTrigger_power]
@[simp] theorem State.snapTrigger_fltCfg (s : State) (n : Nat) (d : Nat) : (s.snapTrigger n).fltCfg d = s.fltCfg d := by simp only [State.fltCfg, State.snapTrigger_faults]
@[simp] theorem State.snapTrigger_severity (s : State) (n : Nat) (d : Nat) : (s.snapTrigger n).severity d = s.severity d := by simp only [State.severity, State.fltCfg, State.snapTrigger_faults]
@[simp] theorem State.snapTrigger_cpAwake (s : State) (n : Nat) : (s.snapTrigger n).cpAwake = s.cpAwake := by simp only [State.cpAwake, State.domainOn, State.snapTrigger_power]
@[simp] theorem State.snapTrigger_keeperReady (s : State) (n : Nat) : (s.snapTrigger n).keeperReady = s.keeperReady := by simp only [State.keeperReady, State.snapTrigger_keeper]
@[simp] theorem State.snapTrigger_domainOn (s : State) (n : Nat) (d : Nat) : (s.snapTrigger n).domainOn d = s.domainOn d := by simp only [State.domainOn, State.snapTrigger_power]
@[simp] theorem State.snapTrigger_verb (s : State) (n : Nat) (d : Origin) : (s.snapTrigger n).verb d = s.verb d := by simp only [State.verb, State.snapTrigger_keeper]
@[simp] theorem State.snapTrigger_corePresent (s : State) (n : Nat) (d : Nat) : (s.snapTrigger n).corePresent d = s.corePresent d := by simp only [State.corePresent, State.snapTrigger_inp]
@[simp] theorem State.snapTrigger_ifMajor (s : State) (n : Nat) : (s.snapTrigger n).ifMajor = s.ifMajor := by simp only [State.ifMajor, State.snapTrigger_keeper]

/-- powerUp touches only power. -/
theorem State.powerUp_touches (s : State) (n : Nat) : s.powerUp n = { s with power := (s.powerUp n).power } := by unfold State.powerUp; split <;> rfl
@[simp] theorem State.powerUp_pending (s : State) (n : Nat) : (s.powerUp n).pending = s.pending := by rw [State.powerUp_touches]
@[simp] theorem State.powerUp_ptime (s : State) (n : Nat) : (s.powerUp n).ptime = s.ptime := by rw [State.powerUp_touches]
@[simp] theorem State.powerUp_inp (s : State) (n : Nat) : (s.powerUp n).inp = s.inp := by rw [State.powerUp_touches]
@[simp] theorem State.powerUp_keeper (s : State) (n : Nat) : (s.powerUp n).keeper = s.keeper := by rw [State.powerUp_touches]
@[simp] theorem State.powerUp_mboxes (s : State) (n : Nat) : (s.powerUp n).mboxes = s.mboxes := by rw [State.powerUp_touches]
@[simp] theorem State.powerUp_ctxs (s : State) (n : Nat) : (s.powerUp n).ctxs = s.ctxs := by rw [State.powerUp_touches]
@[simp] theorem State.powerUp_readyQ (s : State) (n : Nat) : (s.powerUp n).readyQ = s.readyQ := by rw [State.powerUp_touches]
@[simp] theorem State.powerUp_chans (s : State) (n : Nat) : (s.powerUp n).chans = s.chans := by rw [State.powerUp_touches]
@[simp] theorem State.powerUp_frames (s : State) (n : Nat) : (s.powerUp n).frames = s.frames := by rw [State.powerUp_touches]
@[simp] theorem State.powerUp_taps (s : State) (n : Nat) : (s.powerUp n).taps = s.taps := by rw [State.powerUp_touches]
@[simp] theorem State.powerUp_ports (s : State) (n : Nat) : (s.powerUp n).ports = s.ports := by rw [State.powerUp_touches]
@[simp] theorem State.powerUp_spine (s : State) (n : Nat) : (s.powerUp n).spine = s.spine := by rw [State.powerUp_touches]
@[simp] theorem State.powerUp_swarms (s : State) (n : Nat) : (s.powerUp n).swarms = s.swarms := by rw [State.powerUp_touches]
@[simp] theorem State.powerUp_expand (s : State) (n : Nat) : (s.powerUp n).expand = s.expand := by rw [State.powerUp_touches]
@[simp] theorem State.powerUp_expandAt (s : State) (n : Nat) : (s.powerUp n).expandAt = s.expandAt := by rw [State.powerUp_touches]
@[simp] theorem State.powerUp_ksets (s : State) (n : Nat) : (s.powerUp n).ksets = s.ksets := by rw [State.powerUp_touches]
@[simp] theorem State.powerUp_mods (s : State) (n : Nat) : (s.powerUp n).mods = s.mods := by rw [State.powerUp_touches]
@[simp] theorem State.powerUp_xlate (s : State) (n : Nat) : (s.powerUp n).xlate = s.xlate := by rw [State.powerUp_touches]
@[simp] theorem State.powerUp_tally (s : State) (n : Nat) : (s.powerUp n).tally = s.tally := by rw [State.powerUp_touches]
@[simp] theorem State.powerUp_fabric (s : State) (n : Nat) : (s.powerUp n).fabric = s.fabric := by rw [State.powerUp_touches]
@[simp] theorem State.powerUp_faults (s : State) (n : Nat) : (s.powerUp n).faults = s.faults := by rw [State.powerUp_touches]
@[simp] theorem State.powerUp_sec (s : State) (n : Nat) : (s.powerUp n).sec = s.sec := by rw [State.powerUp_touches]
@[simp] theorem State.powerUp_ftest (s : State) (n : Nat) : (s.powerUp n).ftest = s.ftest := by rw [State.powerUp_touches]
@[simp] theorem State.powerUp_snap (s : State) (n : Nat) : (s.powerUp n).snap = s.snap := by rw [State.powerUp_touches]
@[simp] theorem State.powerUp_recd (s : State) (n : Nat) : (s.powerUp n).recd = s.recd := by rw [State.powerUp_touches]
@[simp] theorem State.powerUp_telem (s : State) (n : Nat) : (s.powerUp n).telem = s.telem := by rw [State.powerUp_touches]
@[simp] theorem State.powerUp_regs (s : State) (n : Nat) : (s.powerUp n).regs = s.regs := by rw [State.powerUp_touches]
@[simp] theorem State.powerUp_free (s : State) (n : Nat) : (s.powerUp n).free = s.free := by rw [State.powerUp_touches]
@[simp] theorem State.powerUp_nextId (s : State) (n : Nat) : (s.powerUp n).nextId = s.nextId := by rw [State.powerUp_touches]
@[simp] theorem State.powerUp_ctx (s : State) (n : Nat) (d : CtxNo) : (s.powerUp n).ctx d = s.ctx d := by simp only [State.ctx, State.powerUp_ctxs]
@[simp] theorem State.powerUp_chan (s : State) (n : Nat) (d : Nat) : (s.powerUp n).chan d = s.chan d := by simp only [State.chan, State.powerUp_chans]
@[simp] theorem State.powerUp_frame (s : State) (n : Nat) (d : Nat) : (s.powerUp n).frame d = s.frame d := by simp only [State.frame, State.powerUp_frames]
@[simp] theorem State.powerUp_tap (s : State) (n : Nat) (d : Nat) : (s.powerUp n).tap d = s.tap d := by simp only [State.tap, State.powerUp_taps]
@[simp] theorem State.powerUp_port (s : State) (n : Nat) (d : Nat) : (s.powerUp n).port d = s.port d := by simp only [State.port, State.powerUp_ports]
@[simp] theorem State.powerUp_mbox (s : State) (n : Nat) (d : Nat) : (s.powerUp n).mbox d = s.mbox d := by simp only [State.mbox, State.powerUp_mboxes]
@[simp] theorem State.powerUp_swarm (s : State) (n : Nat) (d : Nat) : (s.powerUp n).swarm d = s.swarm d := by simp only [State.swarm, State.powerUp_swarms]
@[simp] theorem State.powerUp_kset (s : State) (n : Nat) (d : KsetNo) : (s.powerUp n).kset d = s.kset d := by simp only [State.kset, State.powerUp_ksets]
@[simp] theorem State.powerUp_modulus (s : State) (n : Nat) (d : Nat) : (s.powerUp n).modulus d = s.modulus d := by simp only [State.modulus, State.powerUp_mods]
@[simp] theorem State.powerUp_link (s : State) (n : Nat) (d : Nat) : (s.powerUp n).link d = s.link d := by simp only [State.link, State.powerUp_fabric]
@[simp] theorem State.powerUp_partner (s : State) (n : Nat) (d : ChipNo) : (s.powerUp n).partner d = s.partner d := by simp only [State.partner, State.powerUp_fabric]
@[simp] theorem State.powerUp_fltCfg (s : State) (n : Nat) (d : Nat) : (s.powerUp n).fltCfg d = s.fltCfg d := by simp only [State.fltCfg, State.powerUp_faults]
@[simp] theorem State.powerUp_severity (s : State) (n : Nat) (d : Nat) : (s.powerUp n).severity d = s.severity d := by simp only [State.severity, State.fltCfg, State.powerUp_faults]
@[simp] theorem State.powerUp_keeperReady (s : State) (n : Nat) : (s.powerUp n).keeperReady = s.keeperReady := by simp only [State.keeperReady, State.powerUp_keeper]
@[simp] theorem State.powerUp_verb (s : State) (n : Nat) (d : Origin) : (s.powerUp n).verb d = s.verb d := by simp only [State.verb, State.powerUp_keeper]
@[simp] theorem State.powerUp_corePresent (s : State) (n : Nat) (d : Nat) : (s.powerUp n).corePresent d = s.corePresent d := by simp only [State.corePresent, State.powerUp_inp]
@[simp] theorem State.powerUp_ifMajor (s : State) (n : Nat) : (s.powerUp n).ifMajor = s.ifMajor := by simp only [State.ifMajor, State.powerUp_keeper]

/-- powerDown touches only power. -/
theorem State.powerDown_touches (s : State) (n : Nat) : s.powerDown n = { s with power := (s.powerDown n).power } := by unfold State.powerDown; split <;> rfl
@[simp] theorem State.powerDown_pending (s : State) (n : Nat) : (s.powerDown n).pending = s.pending := by rw [State.powerDown_touches]
@[simp] theorem State.powerDown_ptime (s : State) (n : Nat) : (s.powerDown n).ptime = s.ptime := by rw [State.powerDown_touches]
@[simp] theorem State.powerDown_inp (s : State) (n : Nat) : (s.powerDown n).inp = s.inp := by rw [State.powerDown_touches]
@[simp] theorem State.powerDown_keeper (s : State) (n : Nat) : (s.powerDown n).keeper = s.keeper := by rw [State.powerDown_touches]
@[simp] theorem State.powerDown_mboxes (s : State) (n : Nat) : (s.powerDown n).mboxes = s.mboxes := by rw [State.powerDown_touches]
@[simp] theorem State.powerDown_ctxs (s : State) (n : Nat) : (s.powerDown n).ctxs = s.ctxs := by rw [State.powerDown_touches]
@[simp] theorem State.powerDown_readyQ (s : State) (n : Nat) : (s.powerDown n).readyQ = s.readyQ := by rw [State.powerDown_touches]
@[simp] theorem State.powerDown_chans (s : State) (n : Nat) : (s.powerDown n).chans = s.chans := by rw [State.powerDown_touches]
@[simp] theorem State.powerDown_frames (s : State) (n : Nat) : (s.powerDown n).frames = s.frames := by rw [State.powerDown_touches]
@[simp] theorem State.powerDown_taps (s : State) (n : Nat) : (s.powerDown n).taps = s.taps := by rw [State.powerDown_touches]
@[simp] theorem State.powerDown_ports (s : State) (n : Nat) : (s.powerDown n).ports = s.ports := by rw [State.powerDown_touches]
@[simp] theorem State.powerDown_spine (s : State) (n : Nat) : (s.powerDown n).spine = s.spine := by rw [State.powerDown_touches]
@[simp] theorem State.powerDown_swarms (s : State) (n : Nat) : (s.powerDown n).swarms = s.swarms := by rw [State.powerDown_touches]
@[simp] theorem State.powerDown_expand (s : State) (n : Nat) : (s.powerDown n).expand = s.expand := by rw [State.powerDown_touches]
@[simp] theorem State.powerDown_expandAt (s : State) (n : Nat) : (s.powerDown n).expandAt = s.expandAt := by rw [State.powerDown_touches]
@[simp] theorem State.powerDown_ksets (s : State) (n : Nat) : (s.powerDown n).ksets = s.ksets := by rw [State.powerDown_touches]
@[simp] theorem State.powerDown_mods (s : State) (n : Nat) : (s.powerDown n).mods = s.mods := by rw [State.powerDown_touches]
@[simp] theorem State.powerDown_xlate (s : State) (n : Nat) : (s.powerDown n).xlate = s.xlate := by rw [State.powerDown_touches]
@[simp] theorem State.powerDown_tally (s : State) (n : Nat) : (s.powerDown n).tally = s.tally := by rw [State.powerDown_touches]
@[simp] theorem State.powerDown_fabric (s : State) (n : Nat) : (s.powerDown n).fabric = s.fabric := by rw [State.powerDown_touches]
@[simp] theorem State.powerDown_faults (s : State) (n : Nat) : (s.powerDown n).faults = s.faults := by rw [State.powerDown_touches]
@[simp] theorem State.powerDown_sec (s : State) (n : Nat) : (s.powerDown n).sec = s.sec := by rw [State.powerDown_touches]
@[simp] theorem State.powerDown_ftest (s : State) (n : Nat) : (s.powerDown n).ftest = s.ftest := by rw [State.powerDown_touches]
@[simp] theorem State.powerDown_snap (s : State) (n : Nat) : (s.powerDown n).snap = s.snap := by rw [State.powerDown_touches]
@[simp] theorem State.powerDown_recd (s : State) (n : Nat) : (s.powerDown n).recd = s.recd := by rw [State.powerDown_touches]
@[simp] theorem State.powerDown_telem (s : State) (n : Nat) : (s.powerDown n).telem = s.telem := by rw [State.powerDown_touches]
@[simp] theorem State.powerDown_regs (s : State) (n : Nat) : (s.powerDown n).regs = s.regs := by rw [State.powerDown_touches]
@[simp] theorem State.powerDown_free (s : State) (n : Nat) : (s.powerDown n).free = s.free := by rw [State.powerDown_touches]
@[simp] theorem State.powerDown_nextId (s : State) (n : Nat) : (s.powerDown n).nextId = s.nextId := by rw [State.powerDown_touches]
@[simp] theorem State.powerDown_ctx (s : State) (n : Nat) (d : CtxNo) : (s.powerDown n).ctx d = s.ctx d := by simp only [State.ctx, State.powerDown_ctxs]
@[simp] theorem State.powerDown_chan (s : State) (n : Nat) (d : Nat) : (s.powerDown n).chan d = s.chan d := by simp only [State.chan, State.powerDown_chans]
@[simp] theorem State.powerDown_frame (s : State) (n : Nat) (d : Nat) : (s.powerDown n).frame d = s.frame d := by simp only [State.frame, State.powerDown_frames]
@[simp] theorem State.powerDown_tap (s : State) (n : Nat) (d : Nat) : (s.powerDown n).tap d = s.tap d := by simp only [State.tap, State.powerDown_taps]
@[simp] theorem State.powerDown_port (s : State) (n : Nat) (d : Nat) : (s.powerDown n).port d = s.port d := by simp only [State.port, State.powerDown_ports]
@[simp] theorem State.powerDown_mbox (s : State) (n : Nat) (d : Nat) : (s.powerDown n).mbox d = s.mbox d := by simp only [State.mbox, State.powerDown_mboxes]
@[simp] theorem State.powerDown_swarm (s : State) (n : Nat) (d : Nat) : (s.powerDown n).swarm d = s.swarm d := by simp only [State.swarm, State.powerDown_swarms]
@[simp] theorem State.powerDown_kset (s : State) (n : Nat) (d : KsetNo) : (s.powerDown n).kset d = s.kset d := by simp only [State.kset, State.powerDown_ksets]
@[simp] theorem State.powerDown_modulus (s : State) (n : Nat) (d : Nat) : (s.powerDown n).modulus d = s.modulus d := by simp only [State.modulus, State.powerDown_mods]
@[simp] theorem State.powerDown_link (s : State) (n : Nat) (d : Nat) : (s.powerDown n).link d = s.link d := by simp only [State.link, State.powerDown_fabric]
@[simp] theorem State.powerDown_partner (s : State) (n : Nat) (d : ChipNo) : (s.powerDown n).partner d = s.partner d := by simp only [State.partner, State.powerDown_fabric]
@[simp] theorem State.powerDown_fltCfg (s : State) (n : Nat) (d : Nat) : (s.powerDown n).fltCfg d = s.fltCfg d := by simp only [State.fltCfg, State.powerDown_faults]
@[simp] theorem State.powerDown_severity (s : State) (n : Nat) (d : Nat) : (s.powerDown n).severity d = s.severity d := by simp only [State.severity, State.fltCfg, State.powerDown_faults]
@[simp] theorem State.powerDown_keeperReady (s : State) (n : Nat) : (s.powerDown n).keeperReady = s.keeperReady := by simp only [State.keeperReady, State.powerDown_keeper]
@[simp] theorem State.powerDown_verb (s : State) (n : Nat) (d : Origin) : (s.powerDown n).verb d = s.verb d := by simp only [State.verb, State.powerDown_keeper]
@[simp] theorem State.powerDown_corePresent (s : State) (n : Nat) (d : Nat) : (s.powerDown n).corePresent d = s.corePresent d := by simp only [State.corePresent, State.powerDown_inp]
@[simp] theorem State.powerDown_ifMajor (s : State) (n : Nat) : (s.powerDown n).ifMajor = s.ifMajor := by simp only [State.ifMajor, State.powerDown_keeper]

/-- clockUp touches only power. -/
theorem State.clockUp_touches (s : State) (n : Nat) : s.clockUp n = { s with power := (s.clockUp n).power } := by unfold State.clockUp; split <;> rfl
@[simp] theorem State.clockUp_pending (s : State) (n : Nat) : (s.clockUp n).pending = s.pending := by rw [State.clockUp_touches]
@[simp] theorem State.clockUp_ptime (s : State) (n : Nat) : (s.clockUp n).ptime = s.ptime := by rw [State.clockUp_touches]
@[simp] theorem State.clockUp_inp (s : State) (n : Nat) : (s.clockUp n).inp = s.inp := by rw [State.clockUp_touches]
@[simp] theorem State.clockUp_keeper (s : State) (n : Nat) : (s.clockUp n).keeper = s.keeper := by rw [State.clockUp_touches]
@[simp] theorem State.clockUp_mboxes (s : State) (n : Nat) : (s.clockUp n).mboxes = s.mboxes := by rw [State.clockUp_touches]
@[simp] theorem State.clockUp_ctxs (s : State) (n : Nat) : (s.clockUp n).ctxs = s.ctxs := by rw [State.clockUp_touches]
@[simp] theorem State.clockUp_readyQ (s : State) (n : Nat) : (s.clockUp n).readyQ = s.readyQ := by rw [State.clockUp_touches]
@[simp] theorem State.clockUp_chans (s : State) (n : Nat) : (s.clockUp n).chans = s.chans := by rw [State.clockUp_touches]
@[simp] theorem State.clockUp_frames (s : State) (n : Nat) : (s.clockUp n).frames = s.frames := by rw [State.clockUp_touches]
@[simp] theorem State.clockUp_taps (s : State) (n : Nat) : (s.clockUp n).taps = s.taps := by rw [State.clockUp_touches]
@[simp] theorem State.clockUp_ports (s : State) (n : Nat) : (s.clockUp n).ports = s.ports := by rw [State.clockUp_touches]
@[simp] theorem State.clockUp_spine (s : State) (n : Nat) : (s.clockUp n).spine = s.spine := by rw [State.clockUp_touches]
@[simp] theorem State.clockUp_swarms (s : State) (n : Nat) : (s.clockUp n).swarms = s.swarms := by rw [State.clockUp_touches]
@[simp] theorem State.clockUp_expand (s : State) (n : Nat) : (s.clockUp n).expand = s.expand := by rw [State.clockUp_touches]
@[simp] theorem State.clockUp_expandAt (s : State) (n : Nat) : (s.clockUp n).expandAt = s.expandAt := by rw [State.clockUp_touches]
@[simp] theorem State.clockUp_ksets (s : State) (n : Nat) : (s.clockUp n).ksets = s.ksets := by rw [State.clockUp_touches]
@[simp] theorem State.clockUp_mods (s : State) (n : Nat) : (s.clockUp n).mods = s.mods := by rw [State.clockUp_touches]
@[simp] theorem State.clockUp_xlate (s : State) (n : Nat) : (s.clockUp n).xlate = s.xlate := by rw [State.clockUp_touches]
@[simp] theorem State.clockUp_tally (s : State) (n : Nat) : (s.clockUp n).tally = s.tally := by rw [State.clockUp_touches]
@[simp] theorem State.clockUp_fabric (s : State) (n : Nat) : (s.clockUp n).fabric = s.fabric := by rw [State.clockUp_touches]
@[simp] theorem State.clockUp_faults (s : State) (n : Nat) : (s.clockUp n).faults = s.faults := by rw [State.clockUp_touches]
@[simp] theorem State.clockUp_sec (s : State) (n : Nat) : (s.clockUp n).sec = s.sec := by rw [State.clockUp_touches]
@[simp] theorem State.clockUp_ftest (s : State) (n : Nat) : (s.clockUp n).ftest = s.ftest := by rw [State.clockUp_touches]
@[simp] theorem State.clockUp_snap (s : State) (n : Nat) : (s.clockUp n).snap = s.snap := by rw [State.clockUp_touches]
@[simp] theorem State.clockUp_recd (s : State) (n : Nat) : (s.clockUp n).recd = s.recd := by rw [State.clockUp_touches]
@[simp] theorem State.clockUp_telem (s : State) (n : Nat) : (s.clockUp n).telem = s.telem := by rw [State.clockUp_touches]
@[simp] theorem State.clockUp_regs (s : State) (n : Nat) : (s.clockUp n).regs = s.regs := by rw [State.clockUp_touches]
@[simp] theorem State.clockUp_free (s : State) (n : Nat) : (s.clockUp n).free = s.free := by rw [State.clockUp_touches]
@[simp] theorem State.clockUp_nextId (s : State) (n : Nat) : (s.clockUp n).nextId = s.nextId := by rw [State.clockUp_touches]
@[simp] theorem State.clockUp_ctx (s : State) (n : Nat) (d : CtxNo) : (s.clockUp n).ctx d = s.ctx d := by simp only [State.ctx, State.clockUp_ctxs]
@[simp] theorem State.clockUp_chan (s : State) (n : Nat) (d : Nat) : (s.clockUp n).chan d = s.chan d := by simp only [State.chan, State.clockUp_chans]
@[simp] theorem State.clockUp_frame (s : State) (n : Nat) (d : Nat) : (s.clockUp n).frame d = s.frame d := by simp only [State.frame, State.clockUp_frames]
@[simp] theorem State.clockUp_tap (s : State) (n : Nat) (d : Nat) : (s.clockUp n).tap d = s.tap d := by simp only [State.tap, State.clockUp_taps]
@[simp] theorem State.clockUp_port (s : State) (n : Nat) (d : Nat) : (s.clockUp n).port d = s.port d := by simp only [State.port, State.clockUp_ports]
@[simp] theorem State.clockUp_mbox (s : State) (n : Nat) (d : Nat) : (s.clockUp n).mbox d = s.mbox d := by simp only [State.mbox, State.clockUp_mboxes]
@[simp] theorem State.clockUp_swarm (s : State) (n : Nat) (d : Nat) : (s.clockUp n).swarm d = s.swarm d := by simp only [State.swarm, State.clockUp_swarms]
@[simp] theorem State.clockUp_kset (s : State) (n : Nat) (d : KsetNo) : (s.clockUp n).kset d = s.kset d := by simp only [State.kset, State.clockUp_ksets]
@[simp] theorem State.clockUp_modulus (s : State) (n : Nat) (d : Nat) : (s.clockUp n).modulus d = s.modulus d := by simp only [State.modulus, State.clockUp_mods]
@[simp] theorem State.clockUp_link (s : State) (n : Nat) (d : Nat) : (s.clockUp n).link d = s.link d := by simp only [State.link, State.clockUp_fabric]
@[simp] theorem State.clockUp_partner (s : State) (n : Nat) (d : ChipNo) : (s.clockUp n).partner d = s.partner d := by simp only [State.partner, State.clockUp_fabric]
@[simp] theorem State.clockUp_fltCfg (s : State) (n : Nat) (d : Nat) : (s.clockUp n).fltCfg d = s.fltCfg d := by simp only [State.fltCfg, State.clockUp_faults]
@[simp] theorem State.clockUp_severity (s : State) (n : Nat) (d : Nat) : (s.clockUp n).severity d = s.severity d := by simp only [State.severity, State.fltCfg, State.clockUp_faults]
@[simp] theorem State.clockUp_keeperReady (s : State) (n : Nat) : (s.clockUp n).keeperReady = s.keeperReady := by simp only [State.keeperReady, State.clockUp_keeper]
@[simp] theorem State.clockUp_verb (s : State) (n : Nat) (d : Origin) : (s.clockUp n).verb d = s.verb d := by simp only [State.verb, State.clockUp_keeper]
@[simp] theorem State.clockUp_corePresent (s : State) (n : Nat) (d : Nat) : (s.clockUp n).corePresent d = s.corePresent d := by simp only [State.corePresent, State.clockUp_inp]
@[simp] theorem State.clockUp_ifMajor (s : State) (n : Nat) : (s.clockUp n).ifMajor = s.ifMajor := by simp only [State.ifMajor, State.clockUp_keeper]

/-- clockDown touches only power. -/
theorem State.clockDown_touches (s : State) (n : Nat) : s.clockDown n = { s with power := (s.clockDown n).power } := by unfold State.clockDown; split <;> rfl
@[simp] theorem State.clockDown_pending (s : State) (n : Nat) : (s.clockDown n).pending = s.pending := by rw [State.clockDown_touches]
@[simp] theorem State.clockDown_ptime (s : State) (n : Nat) : (s.clockDown n).ptime = s.ptime := by rw [State.clockDown_touches]
@[simp] theorem State.clockDown_inp (s : State) (n : Nat) : (s.clockDown n).inp = s.inp := by rw [State.clockDown_touches]
@[simp] theorem State.clockDown_keeper (s : State) (n : Nat) : (s.clockDown n).keeper = s.keeper := by rw [State.clockDown_touches]
@[simp] theorem State.clockDown_mboxes (s : State) (n : Nat) : (s.clockDown n).mboxes = s.mboxes := by rw [State.clockDown_touches]
@[simp] theorem State.clockDown_ctxs (s : State) (n : Nat) : (s.clockDown n).ctxs = s.ctxs := by rw [State.clockDown_touches]
@[simp] theorem State.clockDown_readyQ (s : State) (n : Nat) : (s.clockDown n).readyQ = s.readyQ := by rw [State.clockDown_touches]
@[simp] theorem State.clockDown_chans (s : State) (n : Nat) : (s.clockDown n).chans = s.chans := by rw [State.clockDown_touches]
@[simp] theorem State.clockDown_frames (s : State) (n : Nat) : (s.clockDown n).frames = s.frames := by rw [State.clockDown_touches]
@[simp] theorem State.clockDown_taps (s : State) (n : Nat) : (s.clockDown n).taps = s.taps := by rw [State.clockDown_touches]
@[simp] theorem State.clockDown_ports (s : State) (n : Nat) : (s.clockDown n).ports = s.ports := by rw [State.clockDown_touches]
@[simp] theorem State.clockDown_spine (s : State) (n : Nat) : (s.clockDown n).spine = s.spine := by rw [State.clockDown_touches]
@[simp] theorem State.clockDown_swarms (s : State) (n : Nat) : (s.clockDown n).swarms = s.swarms := by rw [State.clockDown_touches]
@[simp] theorem State.clockDown_expand (s : State) (n : Nat) : (s.clockDown n).expand = s.expand := by rw [State.clockDown_touches]
@[simp] theorem State.clockDown_expandAt (s : State) (n : Nat) : (s.clockDown n).expandAt = s.expandAt := by rw [State.clockDown_touches]
@[simp] theorem State.clockDown_ksets (s : State) (n : Nat) : (s.clockDown n).ksets = s.ksets := by rw [State.clockDown_touches]
@[simp] theorem State.clockDown_mods (s : State) (n : Nat) : (s.clockDown n).mods = s.mods := by rw [State.clockDown_touches]
@[simp] theorem State.clockDown_xlate (s : State) (n : Nat) : (s.clockDown n).xlate = s.xlate := by rw [State.clockDown_touches]
@[simp] theorem State.clockDown_tally (s : State) (n : Nat) : (s.clockDown n).tally = s.tally := by rw [State.clockDown_touches]
@[simp] theorem State.clockDown_fabric (s : State) (n : Nat) : (s.clockDown n).fabric = s.fabric := by rw [State.clockDown_touches]
@[simp] theorem State.clockDown_faults (s : State) (n : Nat) : (s.clockDown n).faults = s.faults := by rw [State.clockDown_touches]
@[simp] theorem State.clockDown_sec (s : State) (n : Nat) : (s.clockDown n).sec = s.sec := by rw [State.clockDown_touches]
@[simp] theorem State.clockDown_ftest (s : State) (n : Nat) : (s.clockDown n).ftest = s.ftest := by rw [State.clockDown_touches]
@[simp] theorem State.clockDown_snap (s : State) (n : Nat) : (s.clockDown n).snap = s.snap := by rw [State.clockDown_touches]
@[simp] theorem State.clockDown_recd (s : State) (n : Nat) : (s.clockDown n).recd = s.recd := by rw [State.clockDown_touches]
@[simp] theorem State.clockDown_telem (s : State) (n : Nat) : (s.clockDown n).telem = s.telem := by rw [State.clockDown_touches]
@[simp] theorem State.clockDown_regs (s : State) (n : Nat) : (s.clockDown n).regs = s.regs := by rw [State.clockDown_touches]
@[simp] theorem State.clockDown_free (s : State) (n : Nat) : (s.clockDown n).free = s.free := by rw [State.clockDown_touches]
@[simp] theorem State.clockDown_nextId (s : State) (n : Nat) : (s.clockDown n).nextId = s.nextId := by rw [State.clockDown_touches]
@[simp] theorem State.clockDown_ctx (s : State) (n : Nat) (d : CtxNo) : (s.clockDown n).ctx d = s.ctx d := by simp only [State.ctx, State.clockDown_ctxs]
@[simp] theorem State.clockDown_chan (s : State) (n : Nat) (d : Nat) : (s.clockDown n).chan d = s.chan d := by simp only [State.chan, State.clockDown_chans]
@[simp] theorem State.clockDown_frame (s : State) (n : Nat) (d : Nat) : (s.clockDown n).frame d = s.frame d := by simp only [State.frame, State.clockDown_frames]
@[simp] theorem State.clockDown_tap (s : State) (n : Nat) (d : Nat) : (s.clockDown n).tap d = s.tap d := by simp only [State.tap, State.clockDown_taps]
@[simp] theorem State.clockDown_port (s : State) (n : Nat) (d : Nat) : (s.clockDown n).port d = s.port d := by simp only [State.port, State.clockDown_ports]
@[simp] theorem State.clockDown_mbox (s : State) (n : Nat) (d : Nat) : (s.clockDown n).mbox d = s.mbox d := by simp only [State.mbox, State.clockDown_mboxes]
@[simp] theorem State.clockDown_swarm (s : State) (n : Nat) (d : Nat) : (s.clockDown n).swarm d = s.swarm d := by simp only [State.swarm, State.clockDown_swarms]
@[simp] theorem State.clockDown_kset (s : State) (n : Nat) (d : KsetNo) : (s.clockDown n).kset d = s.kset d := by simp only [State.kset, State.clockDown_ksets]
@[simp] theorem State.clockDown_modulus (s : State) (n : Nat) (d : Nat) : (s.clockDown n).modulus d = s.modulus d := by simp only [State.modulus, State.clockDown_mods]
@[simp] theorem State.clockDown_link (s : State) (n : Nat) (d : Nat) : (s.clockDown n).link d = s.link d := by simp only [State.link, State.clockDown_fabric]
@[simp] theorem State.clockDown_partner (s : State) (n : Nat) (d : ChipNo) : (s.clockDown n).partner d = s.partner d := by simp only [State.partner, State.clockDown_fabric]
@[simp] theorem State.clockDown_fltCfg (s : State) (n : Nat) (d : Nat) : (s.clockDown n).fltCfg d = s.fltCfg d := by simp only [State.fltCfg, State.clockDown_faults]
@[simp] theorem State.clockDown_severity (s : State) (n : Nat) (d : Nat) : (s.clockDown n).severity d = s.severity d := by simp only [State.severity, State.fltCfg, State.clockDown_faults]
@[simp] theorem State.clockDown_keeperReady (s : State) (n : Nat) : (s.clockDown n).keeperReady = s.keeperReady := by simp only [State.keeperReady, State.clockDown_keeper]
@[simp] theorem State.clockDown_verb (s : State) (n : Nat) (d : Origin) : (s.clockDown n).verb d = s.verb d := by simp only [State.verb, State.clockDown_keeper]
@[simp] theorem State.clockDown_corePresent (s : State) (n : Nat) (d : Nat) : (s.clockDown n).corePresent d = s.corePresent d := by simp only [State.corePresent, State.clockDown_inp]
@[simp] theorem State.clockDown_ifMajor (s : State) (n : Nat) : (s.clockDown n).ifMajor = s.ifMajor := by simp only [State.ifMajor, State.clockDown_keeper]

/-- retainUp touches only power. -/
theorem State.retainUp_touches (s : State) (n : Nat) : s.retainUp n = { s with power := (s.retainUp n).power } := by unfold State.retainUp; split <;> rfl
@[simp] theorem State.retainUp_pending (s : State) (n : Nat) : (s.retainUp n).pending = s.pending := by rw [State.retainUp_touches]
@[simp] theorem State.retainUp_ptime (s : State) (n : Nat) : (s.retainUp n).ptime = s.ptime := by rw [State.retainUp_touches]
@[simp] theorem State.retainUp_inp (s : State) (n : Nat) : (s.retainUp n).inp = s.inp := by rw [State.retainUp_touches]
@[simp] theorem State.retainUp_keeper (s : State) (n : Nat) : (s.retainUp n).keeper = s.keeper := by rw [State.retainUp_touches]
@[simp] theorem State.retainUp_mboxes (s : State) (n : Nat) : (s.retainUp n).mboxes = s.mboxes := by rw [State.retainUp_touches]
@[simp] theorem State.retainUp_ctxs (s : State) (n : Nat) : (s.retainUp n).ctxs = s.ctxs := by rw [State.retainUp_touches]
@[simp] theorem State.retainUp_readyQ (s : State) (n : Nat) : (s.retainUp n).readyQ = s.readyQ := by rw [State.retainUp_touches]
@[simp] theorem State.retainUp_chans (s : State) (n : Nat) : (s.retainUp n).chans = s.chans := by rw [State.retainUp_touches]
@[simp] theorem State.retainUp_frames (s : State) (n : Nat) : (s.retainUp n).frames = s.frames := by rw [State.retainUp_touches]
@[simp] theorem State.retainUp_taps (s : State) (n : Nat) : (s.retainUp n).taps = s.taps := by rw [State.retainUp_touches]
@[simp] theorem State.retainUp_ports (s : State) (n : Nat) : (s.retainUp n).ports = s.ports := by rw [State.retainUp_touches]
@[simp] theorem State.retainUp_spine (s : State) (n : Nat) : (s.retainUp n).spine = s.spine := by rw [State.retainUp_touches]
@[simp] theorem State.retainUp_swarms (s : State) (n : Nat) : (s.retainUp n).swarms = s.swarms := by rw [State.retainUp_touches]
@[simp] theorem State.retainUp_expand (s : State) (n : Nat) : (s.retainUp n).expand = s.expand := by rw [State.retainUp_touches]
@[simp] theorem State.retainUp_expandAt (s : State) (n : Nat) : (s.retainUp n).expandAt = s.expandAt := by rw [State.retainUp_touches]
@[simp] theorem State.retainUp_ksets (s : State) (n : Nat) : (s.retainUp n).ksets = s.ksets := by rw [State.retainUp_touches]
@[simp] theorem State.retainUp_mods (s : State) (n : Nat) : (s.retainUp n).mods = s.mods := by rw [State.retainUp_touches]
@[simp] theorem State.retainUp_xlate (s : State) (n : Nat) : (s.retainUp n).xlate = s.xlate := by rw [State.retainUp_touches]
@[simp] theorem State.retainUp_tally (s : State) (n : Nat) : (s.retainUp n).tally = s.tally := by rw [State.retainUp_touches]
@[simp] theorem State.retainUp_fabric (s : State) (n : Nat) : (s.retainUp n).fabric = s.fabric := by rw [State.retainUp_touches]
@[simp] theorem State.retainUp_faults (s : State) (n : Nat) : (s.retainUp n).faults = s.faults := by rw [State.retainUp_touches]
@[simp] theorem State.retainUp_sec (s : State) (n : Nat) : (s.retainUp n).sec = s.sec := by rw [State.retainUp_touches]
@[simp] theorem State.retainUp_ftest (s : State) (n : Nat) : (s.retainUp n).ftest = s.ftest := by rw [State.retainUp_touches]
@[simp] theorem State.retainUp_snap (s : State) (n : Nat) : (s.retainUp n).snap = s.snap := by rw [State.retainUp_touches]
@[simp] theorem State.retainUp_recd (s : State) (n : Nat) : (s.retainUp n).recd = s.recd := by rw [State.retainUp_touches]
@[simp] theorem State.retainUp_telem (s : State) (n : Nat) : (s.retainUp n).telem = s.telem := by rw [State.retainUp_touches]
@[simp] theorem State.retainUp_regs (s : State) (n : Nat) : (s.retainUp n).regs = s.regs := by rw [State.retainUp_touches]
@[simp] theorem State.retainUp_free (s : State) (n : Nat) : (s.retainUp n).free = s.free := by rw [State.retainUp_touches]
@[simp] theorem State.retainUp_nextId (s : State) (n : Nat) : (s.retainUp n).nextId = s.nextId := by rw [State.retainUp_touches]
@[simp] theorem State.retainUp_ctx (s : State) (n : Nat) (d : CtxNo) : (s.retainUp n).ctx d = s.ctx d := by simp only [State.ctx, State.retainUp_ctxs]
@[simp] theorem State.retainUp_chan (s : State) (n : Nat) (d : Nat) : (s.retainUp n).chan d = s.chan d := by simp only [State.chan, State.retainUp_chans]
@[simp] theorem State.retainUp_frame (s : State) (n : Nat) (d : Nat) : (s.retainUp n).frame d = s.frame d := by simp only [State.frame, State.retainUp_frames]
@[simp] theorem State.retainUp_tap (s : State) (n : Nat) (d : Nat) : (s.retainUp n).tap d = s.tap d := by simp only [State.tap, State.retainUp_taps]
@[simp] theorem State.retainUp_port (s : State) (n : Nat) (d : Nat) : (s.retainUp n).port d = s.port d := by simp only [State.port, State.retainUp_ports]
@[simp] theorem State.retainUp_mbox (s : State) (n : Nat) (d : Nat) : (s.retainUp n).mbox d = s.mbox d := by simp only [State.mbox, State.retainUp_mboxes]
@[simp] theorem State.retainUp_swarm (s : State) (n : Nat) (d : Nat) : (s.retainUp n).swarm d = s.swarm d := by simp only [State.swarm, State.retainUp_swarms]
@[simp] theorem State.retainUp_kset (s : State) (n : Nat) (d : KsetNo) : (s.retainUp n).kset d = s.kset d := by simp only [State.kset, State.retainUp_ksets]
@[simp] theorem State.retainUp_modulus (s : State) (n : Nat) (d : Nat) : (s.retainUp n).modulus d = s.modulus d := by simp only [State.modulus, State.retainUp_mods]
@[simp] theorem State.retainUp_link (s : State) (n : Nat) (d : Nat) : (s.retainUp n).link d = s.link d := by simp only [State.link, State.retainUp_fabric]
@[simp] theorem State.retainUp_partner (s : State) (n : Nat) (d : ChipNo) : (s.retainUp n).partner d = s.partner d := by simp only [State.partner, State.retainUp_fabric]
@[simp] theorem State.retainUp_fltCfg (s : State) (n : Nat) (d : Nat) : (s.retainUp n).fltCfg d = s.fltCfg d := by simp only [State.fltCfg, State.retainUp_faults]
@[simp] theorem State.retainUp_severity (s : State) (n : Nat) (d : Nat) : (s.retainUp n).severity d = s.severity d := by simp only [State.severity, State.fltCfg, State.retainUp_faults]
@[simp] theorem State.retainUp_keeperReady (s : State) (n : Nat) : (s.retainUp n).keeperReady = s.keeperReady := by simp only [State.keeperReady, State.retainUp_keeper]
@[simp] theorem State.retainUp_verb (s : State) (n : Nat) (d : Origin) : (s.retainUp n).verb d = s.verb d := by simp only [State.verb, State.retainUp_keeper]
@[simp] theorem State.retainUp_corePresent (s : State) (n : Nat) (d : Nat) : (s.retainUp n).corePresent d = s.corePresent d := by simp only [State.corePresent, State.retainUp_inp]
@[simp] theorem State.retainUp_ifMajor (s : State) (n : Nat) : (s.retainUp n).ifMajor = s.ifMajor := by simp only [State.ifMajor, State.retainUp_keeper]

/-- retainDown touches only power. -/
theorem State.retainDown_touches (s : State) (n : Nat) : s.retainDown n = { s with power := (s.retainDown n).power } := by unfold State.retainDown; split <;> rfl
@[simp] theorem State.retainDown_pending (s : State) (n : Nat) : (s.retainDown n).pending = s.pending := by rw [State.retainDown_touches]
@[simp] theorem State.retainDown_ptime (s : State) (n : Nat) : (s.retainDown n).ptime = s.ptime := by rw [State.retainDown_touches]
@[simp] theorem State.retainDown_inp (s : State) (n : Nat) : (s.retainDown n).inp = s.inp := by rw [State.retainDown_touches]
@[simp] theorem State.retainDown_keeper (s : State) (n : Nat) : (s.retainDown n).keeper = s.keeper := by rw [State.retainDown_touches]
@[simp] theorem State.retainDown_mboxes (s : State) (n : Nat) : (s.retainDown n).mboxes = s.mboxes := by rw [State.retainDown_touches]
@[simp] theorem State.retainDown_ctxs (s : State) (n : Nat) : (s.retainDown n).ctxs = s.ctxs := by rw [State.retainDown_touches]
@[simp] theorem State.retainDown_readyQ (s : State) (n : Nat) : (s.retainDown n).readyQ = s.readyQ := by rw [State.retainDown_touches]
@[simp] theorem State.retainDown_chans (s : State) (n : Nat) : (s.retainDown n).chans = s.chans := by rw [State.retainDown_touches]
@[simp] theorem State.retainDown_frames (s : State) (n : Nat) : (s.retainDown n).frames = s.frames := by rw [State.retainDown_touches]
@[simp] theorem State.retainDown_taps (s : State) (n : Nat) : (s.retainDown n).taps = s.taps := by rw [State.retainDown_touches]
@[simp] theorem State.retainDown_ports (s : State) (n : Nat) : (s.retainDown n).ports = s.ports := by rw [State.retainDown_touches]
@[simp] theorem State.retainDown_spine (s : State) (n : Nat) : (s.retainDown n).spine = s.spine := by rw [State.retainDown_touches]
@[simp] theorem State.retainDown_swarms (s : State) (n : Nat) : (s.retainDown n).swarms = s.swarms := by rw [State.retainDown_touches]
@[simp] theorem State.retainDown_expand (s : State) (n : Nat) : (s.retainDown n).expand = s.expand := by rw [State.retainDown_touches]
@[simp] theorem State.retainDown_expandAt (s : State) (n : Nat) : (s.retainDown n).expandAt = s.expandAt := by rw [State.retainDown_touches]
@[simp] theorem State.retainDown_ksets (s : State) (n : Nat) : (s.retainDown n).ksets = s.ksets := by rw [State.retainDown_touches]
@[simp] theorem State.retainDown_mods (s : State) (n : Nat) : (s.retainDown n).mods = s.mods := by rw [State.retainDown_touches]
@[simp] theorem State.retainDown_xlate (s : State) (n : Nat) : (s.retainDown n).xlate = s.xlate := by rw [State.retainDown_touches]
@[simp] theorem State.retainDown_tally (s : State) (n : Nat) : (s.retainDown n).tally = s.tally := by rw [State.retainDown_touches]
@[simp] theorem State.retainDown_fabric (s : State) (n : Nat) : (s.retainDown n).fabric = s.fabric := by rw [State.retainDown_touches]
@[simp] theorem State.retainDown_faults (s : State) (n : Nat) : (s.retainDown n).faults = s.faults := by rw [State.retainDown_touches]
@[simp] theorem State.retainDown_sec (s : State) (n : Nat) : (s.retainDown n).sec = s.sec := by rw [State.retainDown_touches]
@[simp] theorem State.retainDown_ftest (s : State) (n : Nat) : (s.retainDown n).ftest = s.ftest := by rw [State.retainDown_touches]
@[simp] theorem State.retainDown_snap (s : State) (n : Nat) : (s.retainDown n).snap = s.snap := by rw [State.retainDown_touches]
@[simp] theorem State.retainDown_recd (s : State) (n : Nat) : (s.retainDown n).recd = s.recd := by rw [State.retainDown_touches]
@[simp] theorem State.retainDown_telem (s : State) (n : Nat) : (s.retainDown n).telem = s.telem := by rw [State.retainDown_touches]
@[simp] theorem State.retainDown_regs (s : State) (n : Nat) : (s.retainDown n).regs = s.regs := by rw [State.retainDown_touches]
@[simp] theorem State.retainDown_free (s : State) (n : Nat) : (s.retainDown n).free = s.free := by rw [State.retainDown_touches]
@[simp] theorem State.retainDown_nextId (s : State) (n : Nat) : (s.retainDown n).nextId = s.nextId := by rw [State.retainDown_touches]
@[simp] theorem State.retainDown_ctx (s : State) (n : Nat) (d : CtxNo) : (s.retainDown n).ctx d = s.ctx d := by simp only [State.ctx, State.retainDown_ctxs]
@[simp] theorem State.retainDown_chan (s : State) (n : Nat) (d : Nat) : (s.retainDown n).chan d = s.chan d := by simp only [State.chan, State.retainDown_chans]
@[simp] theorem State.retainDown_frame (s : State) (n : Nat) (d : Nat) : (s.retainDown n).frame d = s.frame d := by simp only [State.frame, State.retainDown_frames]
@[simp] theorem State.retainDown_tap (s : State) (n : Nat) (d : Nat) : (s.retainDown n).tap d = s.tap d := by simp only [State.tap, State.retainDown_taps]
@[simp] theorem State.retainDown_port (s : State) (n : Nat) (d : Nat) : (s.retainDown n).port d = s.port d := by simp only [State.port, State.retainDown_ports]
@[simp] theorem State.retainDown_mbox (s : State) (n : Nat) (d : Nat) : (s.retainDown n).mbox d = s.mbox d := by simp only [State.mbox, State.retainDown_mboxes]
@[simp] theorem State.retainDown_swarm (s : State) (n : Nat) (d : Nat) : (s.retainDown n).swarm d = s.swarm d := by simp only [State.swarm, State.retainDown_swarms]
@[simp] theorem State.retainDown_kset (s : State) (n : Nat) (d : KsetNo) : (s.retainDown n).kset d = s.kset d := by simp only [State.kset, State.retainDown_ksets]
@[simp] theorem State.retainDown_modulus (s : State) (n : Nat) (d : Nat) : (s.retainDown n).modulus d = s.modulus d := by simp only [State.modulus, State.retainDown_mods]
@[simp] theorem State.retainDown_link (s : State) (n : Nat) (d : Nat) : (s.retainDown n).link d = s.link d := by simp only [State.link, State.retainDown_fabric]
@[simp] theorem State.retainDown_partner (s : State) (n : Nat) (d : ChipNo) : (s.retainDown n).partner d = s.partner d := by simp only [State.partner, State.retainDown_fabric]
@[simp] theorem State.retainDown_fltCfg (s : State) (n : Nat) (d : Nat) : (s.retainDown n).fltCfg d = s.fltCfg d := by simp only [State.fltCfg, State.retainDown_faults]
@[simp] theorem State.retainDown_severity (s : State) (n : Nat) (d : Nat) : (s.retainDown n).severity d = s.severity d := by simp only [State.severity, State.fltCfg, State.retainDown_faults]
@[simp] theorem State.retainDown_keeperReady (s : State) (n : Nat) : (s.retainDown n).keeperReady = s.keeperReady := by simp only [State.keeperReady, State.retainDown_keeper]
@[simp] theorem State.retainDown_verb (s : State) (n : Nat) (d : Origin) : (s.retainDown n).verb d = s.verb d := by simp only [State.verb, State.retainDown_keeper]
@[simp] theorem State.retainDown_corePresent (s : State) (n : Nat) (d : Nat) : (s.retainDown n).corePresent d = s.corePresent d := by simp only [State.corePresent, State.retainDown_inp]
@[simp] theorem State.retainDown_ifMajor (s : State) (n : Nat) : (s.retainDown n).ifMajor = s.ifMajor := by simp only [State.ifMajor, State.retainDown_keeper]

/-- stopAllFrames touches only frames. -/
theorem State.stopAllFrames_touches (s : State) : s.stopAllFrames = { s with frames := (s.stopAllFrames).frames } := by
  have h : ∀ (l : List Nat) (t : State), { t with frames := (l.foldl (fun t f => t.modFrame f fun x =>
      if x.stopped || x.draining then x else { x with draining := true, cause := {} }) t).frames } =
      l.foldl (fun t f => t.modFrame f fun x =>
      if x.stopped || x.draining then x else { x with draining := true, cause := {} }) t := by
    intro l
    induction l with
    | nil => intro t; rfl
    | cons a r ih => intro t; rw [List.foldl_cons, ← ih]; rfl
  exact (h frameNos s).symm
@[simp] theorem State.stopAllFrames_pending (s : State) : (s.stopAllFrames).pending = s.pending := by rw [State.stopAllFrames_touches]
@[simp] theorem State.stopAllFrames_ptime (s : State) : (s.stopAllFrames).ptime = s.ptime := by rw [State.stopAllFrames_touches]
@[simp] theorem State.stopAllFrames_inp (s : State) : (s.stopAllFrames).inp = s.inp := by rw [State.stopAllFrames_touches]
@[simp] theorem State.stopAllFrames_keeper (s : State) : (s.stopAllFrames).keeper = s.keeper := by rw [State.stopAllFrames_touches]
@[simp] theorem State.stopAllFrames_mboxes (s : State) : (s.stopAllFrames).mboxes = s.mboxes := by rw [State.stopAllFrames_touches]
@[simp] theorem State.stopAllFrames_ctxs (s : State) : (s.stopAllFrames).ctxs = s.ctxs := by rw [State.stopAllFrames_touches]
@[simp] theorem State.stopAllFrames_readyQ (s : State) : (s.stopAllFrames).readyQ = s.readyQ := by rw [State.stopAllFrames_touches]
@[simp] theorem State.stopAllFrames_chans (s : State) : (s.stopAllFrames).chans = s.chans := by rw [State.stopAllFrames_touches]
@[simp] theorem State.stopAllFrames_taps (s : State) : (s.stopAllFrames).taps = s.taps := by rw [State.stopAllFrames_touches]
@[simp] theorem State.stopAllFrames_ports (s : State) : (s.stopAllFrames).ports = s.ports := by rw [State.stopAllFrames_touches]
@[simp] theorem State.stopAllFrames_spine (s : State) : (s.stopAllFrames).spine = s.spine := by rw [State.stopAllFrames_touches]
@[simp] theorem State.stopAllFrames_swarms (s : State) : (s.stopAllFrames).swarms = s.swarms := by rw [State.stopAllFrames_touches]
@[simp] theorem State.stopAllFrames_expand (s : State) : (s.stopAllFrames).expand = s.expand := by rw [State.stopAllFrames_touches]
@[simp] theorem State.stopAllFrames_expandAt (s : State) : (s.stopAllFrames).expandAt = s.expandAt := by rw [State.stopAllFrames_touches]
@[simp] theorem State.stopAllFrames_ksets (s : State) : (s.stopAllFrames).ksets = s.ksets := by rw [State.stopAllFrames_touches]
@[simp] theorem State.stopAllFrames_mods (s : State) : (s.stopAllFrames).mods = s.mods := by rw [State.stopAllFrames_touches]
@[simp] theorem State.stopAllFrames_xlate (s : State) : (s.stopAllFrames).xlate = s.xlate := by rw [State.stopAllFrames_touches]
@[simp] theorem State.stopAllFrames_tally (s : State) : (s.stopAllFrames).tally = s.tally := by rw [State.stopAllFrames_touches]
@[simp] theorem State.stopAllFrames_fabric (s : State) : (s.stopAllFrames).fabric = s.fabric := by rw [State.stopAllFrames_touches]
@[simp] theorem State.stopAllFrames_faults (s : State) : (s.stopAllFrames).faults = s.faults := by rw [State.stopAllFrames_touches]
@[simp] theorem State.stopAllFrames_sec (s : State) : (s.stopAllFrames).sec = s.sec := by rw [State.stopAllFrames_touches]
@[simp] theorem State.stopAllFrames_power (s : State) : (s.stopAllFrames).power = s.power := by rw [State.stopAllFrames_touches]
@[simp] theorem State.stopAllFrames_ftest (s : State) : (s.stopAllFrames).ftest = s.ftest := by rw [State.stopAllFrames_touches]
@[simp] theorem State.stopAllFrames_snap (s : State) : (s.stopAllFrames).snap = s.snap := by rw [State.stopAllFrames_touches]
@[simp] theorem State.stopAllFrames_recd (s : State) : (s.stopAllFrames).recd = s.recd := by rw [State.stopAllFrames_touches]
@[simp] theorem State.stopAllFrames_telem (s : State) : (s.stopAllFrames).telem = s.telem := by rw [State.stopAllFrames_touches]
@[simp] theorem State.stopAllFrames_regs (s : State) : (s.stopAllFrames).regs = s.regs := by rw [State.stopAllFrames_touches]
@[simp] theorem State.stopAllFrames_free (s : State) : (s.stopAllFrames).free = s.free := by rw [State.stopAllFrames_touches]
@[simp] theorem State.stopAllFrames_nextId (s : State) : (s.stopAllFrames).nextId = s.nextId := by rw [State.stopAllFrames_touches]
@[simp] theorem State.stopAllFrames_ctx (s : State) (d : CtxNo) : (s.stopAllFrames).ctx d = s.ctx d := by simp only [State.ctx, State.stopAllFrames_ctxs]
@[simp] theorem State.stopAllFrames_chan (s : State) (d : Nat) : (s.stopAllFrames).chan d = s.chan d := by simp only [State.chan, State.stopAllFrames_chans]
@[simp] theorem State.stopAllFrames_tap (s : State) (d : Nat) : (s.stopAllFrames).tap d = s.tap d := by simp only [State.tap, State.stopAllFrames_taps]
@[simp] theorem State.stopAllFrames_port (s : State) (d : Nat) : (s.stopAllFrames).port d = s.port d := by simp only [State.port, State.stopAllFrames_ports]
@[simp] theorem State.stopAllFrames_mbox (s : State) (d : Nat) : (s.stopAllFrames).mbox d = s.mbox d := by simp only [State.mbox, State.stopAllFrames_mboxes]
@[simp] theorem State.stopAllFrames_swarm (s : State) (d : Nat) : (s.stopAllFrames).swarm d = s.swarm d := by simp only [State.swarm, State.stopAllFrames_swarms]
@[simp] theorem State.stopAllFrames_kset (s : State) (d : KsetNo) : (s.stopAllFrames).kset d = s.kset d := by simp only [State.kset, State.stopAllFrames_ksets]
@[simp] theorem State.stopAllFrames_modulus (s : State) (d : Nat) : (s.stopAllFrames).modulus d = s.modulus d := by simp only [State.modulus, State.stopAllFrames_mods]
@[simp] theorem State.stopAllFrames_link (s : State) (d : Nat) : (s.stopAllFrames).link d = s.link d := by simp only [State.link, State.stopAllFrames_fabric]
@[simp] theorem State.stopAllFrames_partner (s : State) (d : ChipNo) : (s.stopAllFrames).partner d = s.partner d := by simp only [State.partner, State.stopAllFrames_fabric]
@[simp] theorem State.stopAllFrames_region (s : State) (d : Nat) : (s.stopAllFrames).region d = s.region d := by simp only [State.region, State.stopAllFrames_power]
@[simp] theorem State.stopAllFrames_fltCfg (s : State) (d : Nat) : (s.stopAllFrames).fltCfg d = s.fltCfg d := by simp only [State.fltCfg, State.stopAllFrames_faults]
@[simp] theorem State.stopAllFrames_severity (s : State) (d : Nat) : (s.stopAllFrames).severity d = s.severity d := by simp only [State.severity, State.fltCfg, State.stopAllFrames_faults]
@[simp] theorem State.stopAllFrames_cpAwake (s : State) : (s.stopAllFrames).cpAwake = s.cpAwake := by simp only [State.cpAwake, State.domainOn, State.stopAllFrames_power]
@[simp] theorem State.stopAllFrames_keeperReady (s : State) : (s.stopAllFrames).keeperReady = s.keeperReady := by simp only [State.keeperReady, State.stopAllFrames_keeper]
@[simp] theorem State.stopAllFrames_domainOn (s : State) (d : Nat) : (s.stopAllFrames).domainOn d = s.domainOn d := by simp only [State.domainOn, State.stopAllFrames_power]
@[simp] theorem State.stopAllFrames_verb (s : State) (d : Origin) : (s.stopAllFrames).verb d = s.verb d := by simp only [State.verb, State.stopAllFrames_keeper]
@[simp] theorem State.stopAllFrames_corePresent (s : State) (d : Nat) : (s.stopAllFrames).corePresent d = s.corePresent d := by simp only [State.corePresent, State.stopAllFrames_inp]
@[simp] theorem State.stopAllFrames_ifMajor (s : State) : (s.stopAllFrames).ifMajor = s.ifMajor := by simp only [State.ifMajor, State.stopAllFrames_keeper]

/-- What a raising may touch. -/
def State.Raised (s t : State) : Prop := t = { s with frames := t.frames, faults := t.faults, recd := t.recd, snap := t.snap }

theorem State.Raised.refl (s : State) : s.Raised s := rfl
theorem State.Raised.trans {s t u : State} (h : s.Raised t) (k : t.Raised u) : s.Raised u := by
  unfold State.Raised at *
  rw [h] at k
  exact k
theorem State.Raised.modFaults {s t : State} (h : s.Raised t) (f : Faults → Faults) : s.Raised (t.modFaults f) := h.trans rfl
theorem State.Raised.askFlush {s t : State} (h : s.Raised t) : s.Raised t.askFlush := h.trans rfl
theorem State.Raised.event {s t : State} (h : s.Raised t) (e : EvRec) : s.Raised (t.event e) :=
  h.trans (by unfold State.event; split <;> rfl)
theorem State.Raised.recordMerged {s t : State} (h : s.Raised t) : s.Raised t.recordMerged :=
  h.trans rfl
theorem State.Raised.snapTrigger {s t : State} (h : s.Raised t) (n : Nat) : s.Raised (t.snapTrigger n) :=
  h.trans (by unfold State.snapTrigger; (repeat' split) <;> rfl)
theorem State.Raised.stopAllFrames {s t : State} (h : s.Raised t) : s.Raised t.stopAllFrames := by
  refine h.trans ?_
  have := State.stopAllFrames_touches t
  generalize t.stopAllFrames = u at *
  rw [this]
  rfl
theorem State.Raised.halt {s t : State} (h : s.Raised t) : s.Raised t.halt := (h.modFaults _).stopAllFrames
theorem State.Raised.ite {s t u : State} {c : Prop} [Decidable c] (h : s.Raised t) (k : s.Raised u) : s.Raised (if c then t else u) := by
  split <;> assumption
/-- A raising touches only the frames, the fault collector, the recorder and the snapshot trigger. -/
theorem State.raiseWith_raised (s : State) (c : FaultCap) (ev : Option EvRec) (q : Bool) :
   s.Raised (s.raiseWith c ev q) := by
  unfold State.raiseWith
  extract_lets sev cfg s1 lower first merged s0 s2 rec0 s3 s4 s5 s6
  have h1 : s.Raised s1 := rfl
  have h0 : s.Raised s0 := .ite h1.recordMerged h1
  have h2 : s.Raised s2 := .ite (h0.modFaults _) (h0.modFaults _)
  have h3 : s.Raised s3 := .ite h2 (h2.event _)
  have h5 : s.Raised s5 := .ite (h3.modFaults _).askFlush (h3.modFaults _)
  have h6 : s.Raised s6 := .ite (h5.snapTrigger _) h5
  exact .ite h1 (.ite h6.halt h6)

@[simp] theorem State.halt_pending (s : State) : (s.halt).pending = s.pending := (State.stopAllFrames_pending _).trans rfl
@[simp] theorem State.halt_ptime (s : State) : (s.halt).ptime = s.ptime := (State.stopAllFrames_ptime _).trans rfl
@[simp] theorem State.halt_inp (s : State) : (s.halt).inp = s.inp := (State.stopAllFrames_inp _).trans rfl
@[simp] theorem State.halt_keeper (s : State) : (s.halt).keeper = s.keeper := (State.stopAllFrames_keeper _).trans rfl
@[simp] theorem State.halt_mboxes (s : State) : (s.halt).mboxes = s.mboxes := (State.stopAllFrames_mboxes _).trans rfl
@[simp] theorem State.halt_ctxs (s : State) : (s.halt).ctxs = s.ctxs := (State.stopAllFrames_ctxs _).trans rfl
@[simp] theorem State.halt_readyQ (s : State) : (s.halt).readyQ = s.readyQ := (State.stopAllFrames_readyQ _).trans rfl
@[simp] theorem State.halt_chans (s : State) : (s.halt).chans = s.chans := (State.stopAllFrames_chans _).trans rfl
@[simp] theorem State.halt_taps (s : State) : (s.halt).taps = s.taps := (State.stopAllFrames_taps _).trans rfl
@[simp] theorem State.halt_ports (s : State) : (s.halt).ports = s.ports := (State.stopAllFrames_ports _).trans rfl
@[simp] theorem State.halt_spine (s : State) : (s.halt).spine = s.spine := (State.stopAllFrames_spine _).trans rfl
@[simp] theorem State.halt_swarms (s : State) : (s.halt).swarms = s.swarms := (State.stopAllFrames_swarms _).trans rfl
@[simp] theorem State.halt_expand (s : State) : (s.halt).expand = s.expand := (State.stopAllFrames_expand _).trans rfl
@[simp] theorem State.halt_expandAt (s : State) : (s.halt).expandAt = s.expandAt := (State.stopAllFrames_expandAt _).trans rfl
@[simp] theorem State.halt_ksets (s : State) : (s.halt).ksets = s.ksets := (State.stopAllFrames_ksets _).trans rfl
@[simp] theorem State.halt_mods (s : State) : (s.halt).mods = s.mods := (State.stopAllFrames_mods _).trans rfl
@[simp] theorem State.halt_xlate (s : State) : (s.halt).xlate = s.xlate := (State.stopAllFrames_xlate _).trans rfl
@[simp] theorem State.halt_tally (s : State) : (s.halt).tally = s.tally := (State.stopAllFrames_tally _).trans rfl
@[simp] theorem State.halt_fabric (s : State) : (s.halt).fabric = s.fabric := (State.stopAllFrames_fabric _).trans rfl
@[simp] theorem State.halt_sec (s : State) : (s.halt).sec = s.sec := (State.stopAllFrames_sec _).trans rfl
@[simp] theorem State.halt_power (s : State) : (s.halt).power = s.power := (State.stopAllFrames_power _).trans rfl
@[simp] theorem State.halt_ftest (s : State) : (s.halt).ftest = s.ftest := (State.stopAllFrames_ftest _).trans rfl
@[simp] theorem State.halt_snap (s : State) : (s.halt).snap = s.snap := (State.stopAllFrames_snap _).trans rfl
@[simp] theorem State.halt_recd (s : State) : (s.halt).recd = s.recd := (State.stopAllFrames_recd _).trans rfl
@[simp] theorem State.halt_telem (s : State) : (s.halt).telem = s.telem := (State.stopAllFrames_telem _).trans rfl
@[simp] theorem State.halt_regs (s : State) : (s.halt).regs = s.regs := (State.stopAllFrames_regs _).trans rfl
@[simp] theorem State.halt_free (s : State) : (s.halt).free = s.free := (State.stopAllFrames_free _).trans rfl
@[simp] theorem State.halt_nextId (s : State) : (s.halt).nextId = s.nextId := (State.stopAllFrames_nextId _).trans rfl
@[simp] theorem State.halt_ctx (s : State) (d : CtxNo) : (s.halt).ctx d = s.ctx d := (State.stopAllFrames_ctx _ d).trans rfl
@[simp] theorem State.halt_chan (s : State) (d : Nat) : (s.halt).chan d = s.chan d := (State.stopAllFrames_chan _ d).trans rfl
@[simp] theorem State.halt_tap (s : State) (d : Nat) : (s.halt).tap d = s.tap d := (State.stopAllFrames_tap _ d).trans rfl
@[simp] theorem State.halt_port (s : State) (d : Nat) : (s.halt).port d = s.port d := (State.stopAllFrames_port _ d).trans rfl
@[simp] theorem State.halt_mbox (s : State) (d : Nat) : (s.halt).mbox d = s.mbox d := (State.stopAllFrames_mbox _ d).trans rfl
@[simp] theorem State.halt_swarm (s : State) (d : Nat) : (s.halt).swarm d = s.swarm d := (State.stopAllFrames_swarm _ d).trans rfl
@[simp] theorem State.halt_kset (s : State) (d : KsetNo) : (s.halt).kset d = s.kset d := (State.stopAllFrames_kset _ d).trans rfl
@[simp] theorem State.halt_modulus (s : State) (d : Nat) : (s.halt).modulus d = s.modulus d := (State.stopAllFrames_modulus _ d).trans rfl
@[simp] theorem State.halt_link (s : State) (d : Nat) : (s.halt).link d = s.link d := (State.stopAllFrames_link _ d).trans rfl
@[simp] theorem State.halt_partner (s : State) (d : ChipNo) : (s.halt).partner d = s.partner d := (State.stopAllFrames_partner _ d).trans rfl
@[simp] theorem State.halt_region (s : State) (d : Nat) : (s.halt).region d = s.region d := (State.stopAllFrames_region _ d).trans rfl
@[simp] theorem State.halt_cpAwake (s : State) : (s.halt).cpAwake = s.cpAwake := (State.stopAllFrames_cpAwake _).trans rfl
@[simp] theorem State.halt_keeperReady (s : State) : (s.halt).keeperReady = s.keeperReady := (State.stopAllFrames_keeperReady _).trans rfl
@[simp] theorem State.halt_domainOn (s : State) (d : Nat) : (s.halt).domainOn d = s.domainOn d := (State.stopAllFrames_domainOn _ d).trans rfl
@[simp] theorem State.halt_verb (s : State) (d : Origin) : (s.halt).verb d = s.verb d := (State.stopAllFrames_verb _ d).trans rfl
@[simp] theorem State.halt_corePresent (s : State) (d : Nat) : (s.halt).corePresent d = s.corePresent d := (State.stopAllFrames_corePresent _ d).trans rfl
@[simp] theorem State.halt_ifMajor (s : State) : (s.halt).ifMajor = s.ifMajor := (State.stopAllFrames_ifMajor _).trans rfl
@[simp] theorem State.raiseWith_pending (s : State) (c : FaultCap) (ev : Option EvRec) (q : Bool) : (s.raiseWith c ev q).pending = s.pending := by
  have h := s.raiseWith_raised c ev q
  unfold State.Raised at h
  rw [h]
@[simp] theorem State.raiseWith_ptime (s : State) (c : FaultCap) (ev : Option EvRec) (q : Bool) : (s.raiseWith c ev q).ptime = s.ptime := by
  have h := s.raiseWith_raised c ev q
  unfold State.Raised at h
  rw [h]
@[simp] theorem State.raiseWith_inp (s : State) (c : FaultCap) (ev : Option EvRec) (q : Bool) : (s.raiseWith c ev q).inp = s.inp := by
  have h := s.raiseWith_raised c ev q
  unfold State.Raised at h
  rw [h]
@[simp] theorem State.raiseWith_keeper (s : State) (c : FaultCap) (ev : Option EvRec) (q : Bool) : (s.raiseWith c ev q).keeper = s.keeper := by
  have h := s.raiseWith_raised c ev q
  unfold State.Raised at h
  rw [h]
@[simp] theorem State.raiseWith_mboxes (s : State) (c : FaultCap) (ev : Option EvRec) (q : Bool) : (s.raiseWith c ev q).mboxes = s.mboxes := by
  have h := s.raiseWith_raised c ev q
  unfold State.Raised at h
  rw [h]
@[simp] theorem State.raiseWith_ctxs (s : State) (c : FaultCap) (ev : Option EvRec) (q : Bool) : (s.raiseWith c ev q).ctxs = s.ctxs := by
  have h := s.raiseWith_raised c ev q
  unfold State.Raised at h
  rw [h]
@[simp] theorem State.raiseWith_readyQ (s : State) (c : FaultCap) (ev : Option EvRec) (q : Bool) : (s.raiseWith c ev q).readyQ = s.readyQ := by
  have h := s.raiseWith_raised c ev q
  unfold State.Raised at h
  rw [h]
@[simp] theorem State.raiseWith_chans (s : State) (c : FaultCap) (ev : Option EvRec) (q : Bool) : (s.raiseWith c ev q).chans = s.chans := by
  have h := s.raiseWith_raised c ev q
  unfold State.Raised at h
  rw [h]
@[simp] theorem State.raiseWith_taps (s : State) (c : FaultCap) (ev : Option EvRec) (q : Bool) : (s.raiseWith c ev q).taps = s.taps := by
  have h := s.raiseWith_raised c ev q
  unfold State.Raised at h
  rw [h]
@[simp] theorem State.raiseWith_ports (s : State) (c : FaultCap) (ev : Option EvRec) (q : Bool) : (s.raiseWith c ev q).ports = s.ports := by
  have h := s.raiseWith_raised c ev q
  unfold State.Raised at h
  rw [h]
@[simp] theorem State.raiseWith_spine (s : State) (c : FaultCap) (ev : Option EvRec) (q : Bool) : (s.raiseWith c ev q).spine = s.spine := by
  have h := s.raiseWith_raised c ev q
  unfold State.Raised at h
  rw [h]
@[simp] theorem State.raiseWith_swarms (s : State) (c : FaultCap) (ev : Option EvRec) (q : Bool) : (s.raiseWith c ev q).swarms = s.swarms := by
  have h := s.raiseWith_raised c ev q
  unfold State.Raised at h
  rw [h]
@[simp] theorem State.raiseWith_expand (s : State) (c : FaultCap) (ev : Option EvRec) (q : Bool) : (s.raiseWith c ev q).expand = s.expand := by
  have h := s.raiseWith_raised c ev q
  unfold State.Raised at h
  rw [h]
@[simp] theorem State.raiseWith_expandAt (s : State) (c : FaultCap) (ev : Option EvRec) (q : Bool) : (s.raiseWith c ev q).expandAt = s.expandAt := by
  have h := s.raiseWith_raised c ev q
  unfold State.Raised at h
  rw [h]
@[simp] theorem State.raiseWith_ksets (s : State) (c : FaultCap) (ev : Option EvRec) (q : Bool) : (s.raiseWith c ev q).ksets = s.ksets := by
  have h := s.raiseWith_raised c ev q
  unfold State.Raised at h
  rw [h]
@[simp] theorem State.raiseWith_mods (s : State) (c : FaultCap) (ev : Option EvRec) (q : Bool) : (s.raiseWith c ev q).mods = s.mods := by
  have h := s.raiseWith_raised c ev q
  unfold State.Raised at h
  rw [h]
@[simp] theorem State.raiseWith_xlate (s : State) (c : FaultCap) (ev : Option EvRec) (q : Bool) : (s.raiseWith c ev q).xlate = s.xlate := by
  have h := s.raiseWith_raised c ev q
  unfold State.Raised at h
  rw [h]
@[simp] theorem State.raiseWith_tally (s : State) (c : FaultCap) (ev : Option EvRec) (q : Bool) : (s.raiseWith c ev q).tally = s.tally := by
  have h := s.raiseWith_raised c ev q
  unfold State.Raised at h
  rw [h]
@[simp] theorem State.raiseWith_fabric (s : State) (c : FaultCap) (ev : Option EvRec) (q : Bool) : (s.raiseWith c ev q).fabric = s.fabric := by
  have h := s.raiseWith_raised c ev q
  unfold State.Raised at h
  rw [h]
@[simp] theorem State.raiseWith_sec (s : State) (c : FaultCap) (ev : Option EvRec) (q : Bool) : (s.raiseWith c ev q).sec = s.sec := by
  have h := s.raiseWith_raised c ev q
  unfold State.Raised at h
  rw [h]
@[simp] theorem State.raiseWith_power (s : State) (c : FaultCap) (ev : Option EvRec) (q : Bool) : (s.raiseWith c ev q).power = s.power := by
  have h := s.raiseWith_raised c ev q
  unfold State.Raised at h
  rw [h]
@[simp] theorem State.raiseWith_ftest (s : State) (c : FaultCap) (ev : Option EvRec) (q : Bool) : (s.raiseWith c ev q).ftest = s.ftest := by
  have h := s.raiseWith_raised c ev q
  unfold State.Raised at h
  rw [h]
@[simp] theorem State.raiseWith_telem (s : State) (c : FaultCap) (ev : Option EvRec) (q : Bool) : (s.raiseWith c ev q).telem = s.telem := by
  have h := s.raiseWith_raised c ev q
  unfold State.Raised at h
  rw [h]
@[simp] theorem State.raiseWith_regs (s : State) (c : FaultCap) (ev : Option EvRec) (q : Bool) : (s.raiseWith c ev q).regs = s.regs := by
  have h := s.raiseWith_raised c ev q
  unfold State.Raised at h
  rw [h]
@[simp] theorem State.raiseWith_free (s : State) (c : FaultCap) (ev : Option EvRec) (q : Bool) : (s.raiseWith c ev q).free = s.free := by
  have h := s.raiseWith_raised c ev q
  unfold State.Raised at h
  rw [h]
@[simp] theorem State.raiseWith_nextId (s : State) (c : FaultCap) (ev : Option EvRec) (q : Bool) : (s.raiseWith c ev q).nextId = s.nextId := by
  have h := s.raiseWith_raised c ev q
  unfold State.Raised at h
  rw [h]
@[simp] theorem State.raiseWith_ctx (s : State) (c : FaultCap) (ev : Option EvRec) (q : Bool) (d : CtxNo) : (s.raiseWith c ev q).ctx d = s.ctx d := by simp only [State.ctx, State.raiseWith_ctxs]
@[simp] theorem State.raiseWith_chan (s : State) (c : FaultCap) (ev : Option EvRec) (q : Bool) (d : Nat) : (s.raiseWith c ev q).chan d = s.chan d := by simp only [State.chan, State.raiseWith_chans]
@[simp] theorem State.raiseWith_tap (s : State) (c : FaultCap) (ev : Option EvRec) (q : Bool) (d : Nat) : (s.raiseWith c ev q).tap d = s.tap d := by simp only [State.tap, State.raiseWith_taps]
@[simp] theorem State.raiseWith_port (s : State) (c : FaultCap) (ev : Option EvRec) (q : Bool) (d : Nat) : (s.raiseWith c ev q).port d = s.port d := by simp only [State.port, State.raiseWith_ports]
@[simp] theorem State.raiseWith_mbox (s : State) (c : FaultCap) (ev : Option EvRec) (q : Bool) (d : Nat) : (s.raiseWith c ev q).mbox d = s.mbox d := by simp only [State.mbox, State.raiseWith_mboxes]
@[simp] theorem State.raiseWith_swarm (s : State) (c : FaultCap) (ev : Option EvRec) (q : Bool) (d : Nat) : (s.raiseWith c ev q).swarm d = s.swarm d := by simp only [State.swarm, State.raiseWith_swarms]
@[simp] theorem State.raiseWith_kset (s : State) (c : FaultCap) (ev : Option EvRec) (q : Bool) (d : KsetNo) : (s.raiseWith c ev q).kset d = s.kset d := by simp only [State.kset, State.raiseWith_ksets]
@[simp] theorem State.raiseWith_modulus (s : State) (c : FaultCap) (ev : Option EvRec) (q : Bool) (d : Nat) : (s.raiseWith c ev q).modulus d = s.modulus d := by simp only [State.modulus, State.raiseWith_mods]
@[simp] theorem State.raiseWith_link (s : State) (c : FaultCap) (ev : Option EvRec) (q : Bool) (d : Nat) : (s.raiseWith c ev q).link d = s.link d := by simp only [State.link, State.raiseWith_fabric]
@[simp] theorem State.raiseWith_partner (s : State) (c : FaultCap) (ev : Option EvRec) (q : Bool) (d : ChipNo) : (s.raiseWith c ev q).partner d = s.partner d := by simp only [State.partner, State.raiseWith_fabric]
@[simp] theorem State.raiseWith_region (s : State) (c : FaultCap) (ev : Option EvRec) (q : Bool) (d : Nat) : (s.raiseWith c ev q).region d = s.region d := by simp only [State.region, State.raiseWith_power]
@[simp] theorem State.raiseWith_cpAwake (s : State) (c : FaultCap) (ev : Option EvRec) (q : Bool) : (s.raiseWith c ev q).cpAwake = s.cpAwake := by simp only [State.cpAwake, State.domainOn, State.raiseWith_power]
@[simp] theorem State.raiseWith_keeperReady (s : State) (c : FaultCap) (ev : Option EvRec) (q : Bool) : (s.raiseWith c ev q).keeperReady = s.keeperReady := by simp only [State.keeperReady, State.raiseWith_keeper]
@[simp] theorem State.raiseWith_domainOn (s : State) (c : FaultCap) (ev : Option EvRec) (q : Bool) (d : Nat) : (s.raiseWith c ev q).domainOn d = s.domainOn d := by simp only [State.domainOn, State.raiseWith_power]
@[simp] theorem State.raiseWith_verb (s : State) (c : FaultCap) (ev : Option EvRec) (q : Bool) (d : Origin) : (s.raiseWith c ev q).verb d = s.verb d := by simp only [State.verb, State.raiseWith_keeper]
@[simp] theorem State.raiseWith_corePresent (s : State) (c : FaultCap) (ev : Option EvRec) (q : Bool) (d : Nat) : (s.raiseWith c ev q).corePresent d = s.corePresent d := by simp only [State.corePresent, State.raiseWith_inp]
@[simp] theorem State.raiseWith_ifMajor (s : State) (c : FaultCap) (ev : Option EvRec) (q : Bool) : (s.raiseWith c ev q).ifMajor = s.ifMajor := by simp only [State.ifMajor, State.raiseWith_keeper]
@[simp] theorem State.raise_pending (s : State) (c : FaultCap) : (s.raise c).pending = s.pending := State.raiseWith_pending s c none false
@[simp] theorem State.raise_ptime (s : State) (c : FaultCap) : (s.raise c).ptime = s.ptime := State.raiseWith_ptime s c none false
@[simp] theorem State.raise_inp (s : State) (c : FaultCap) : (s.raise c).inp = s.inp := State.raiseWith_inp s c none false
@[simp] theorem State.raise_keeper (s : State) (c : FaultCap) : (s.raise c).keeper = s.keeper := State.raiseWith_keeper s c none false
@[simp] theorem State.raise_mboxes (s : State) (c : FaultCap) : (s.raise c).mboxes = s.mboxes := State.raiseWith_mboxes s c none false
@[simp] theorem State.raise_ctxs (s : State) (c : FaultCap) : (s.raise c).ctxs = s.ctxs := State.raiseWith_ctxs s c none false
@[simp] theorem State.raise_readyQ (s : State) (c : FaultCap) : (s.raise c).readyQ = s.readyQ := State.raiseWith_readyQ s c none false
@[simp] theorem State.raise_chans (s : State) (c : FaultCap) : (s.raise c).chans = s.chans := State.raiseWith_chans s c none false
@[simp] theorem State.raise_taps (s : State) (c : FaultCap) : (s.raise c).taps = s.taps := State.raiseWith_taps s c none false
@[simp] theorem State.raise_ports (s : State) (c : FaultCap) : (s.raise c).ports = s.ports := State.raiseWith_ports s c none false
@[simp] theorem State.raise_spine (s : State) (c : FaultCap) : (s.raise c).spine = s.spine := State.raiseWith_spine s c none false
@[simp] theorem State.raise_swarms (s : State) (c : FaultCap) : (s.raise c).swarms = s.swarms := State.raiseWith_swarms s c none false
@[simp] theorem State.raise_expand (s : State) (c : FaultCap) : (s.raise c).expand = s.expand := State.raiseWith_expand s c none false
@[simp] theorem State.raise_expandAt (s : State) (c : FaultCap) : (s.raise c).expandAt = s.expandAt := State.raiseWith_expandAt s c none false
@[simp] theorem State.raise_ksets (s : State) (c : FaultCap) : (s.raise c).ksets = s.ksets := State.raiseWith_ksets s c none false
@[simp] theorem State.raise_mods (s : State) (c : FaultCap) : (s.raise c).mods = s.mods := State.raiseWith_mods s c none false
@[simp] theorem State.raise_xlate (s : State) (c : FaultCap) : (s.raise c).xlate = s.xlate := State.raiseWith_xlate s c none false
@[simp] theorem State.raise_tally (s : State) (c : FaultCap) : (s.raise c).tally = s.tally := State.raiseWith_tally s c none false
@[simp] theorem State.raise_fabric (s : State) (c : FaultCap) : (s.raise c).fabric = s.fabric := State.raiseWith_fabric s c none false
@[simp] theorem State.raise_sec (s : State) (c : FaultCap) : (s.raise c).sec = s.sec := State.raiseWith_sec s c none false
@[simp] theorem State.raise_power (s : State) (c : FaultCap) : (s.raise c).power = s.power := State.raiseWith_power s c none false
@[simp] theorem State.raise_ftest (s : State) (c : FaultCap) : (s.raise c).ftest = s.ftest := State.raiseWith_ftest s c none false
@[simp] theorem State.raise_telem (s : State) (c : FaultCap) : (s.raise c).telem = s.telem := State.raiseWith_telem s c none false
@[simp] theorem State.raise_regs (s : State) (c : FaultCap) : (s.raise c).regs = s.regs := State.raiseWith_regs s c none false
@[simp] theorem State.raise_free (s : State) (c : FaultCap) : (s.raise c).free = s.free := State.raiseWith_free s c none false
@[simp] theorem State.raise_nextId (s : State) (c : FaultCap) : (s.raise c).nextId = s.nextId := State.raiseWith_nextId s c none false
@[simp] theorem State.raise_ctx (s : State) (c : FaultCap) (d : CtxNo) : (s.raise c).ctx d = s.ctx d := State.raiseWith_ctx s c none false d
@[simp] theorem State.raise_chan (s : State) (c : FaultCap) (d : Nat) : (s.raise c).chan d = s.chan d := State.raiseWith_chan s c none false d
@[simp] theorem State.raise_tap (s : State) (c : FaultCap) (d : Nat) : (s.raise c).tap d = s.tap d := State.raiseWith_tap s c none false d
@[simp] theorem State.raise_port (s : State) (c : FaultCap) (d : Nat) : (s.raise c).port d = s.port d := State.raiseWith_port s c none false d
@[simp] theorem State.raise_mbox (s : State) (c : FaultCap) (d : Nat) : (s.raise c).mbox d = s.mbox d := State.raiseWith_mbox s c none false d
@[simp] theorem State.raise_swarm (s : State) (c : FaultCap) (d : Nat) : (s.raise c).swarm d = s.swarm d := State.raiseWith_swarm s c none false d
@[simp] theorem State.raise_kset (s : State) (c : FaultCap) (d : KsetNo) : (s.raise c).kset d = s.kset d := State.raiseWith_kset s c none false d
@[simp] theorem State.raise_modulus (s : State) (c : FaultCap) (d : Nat) : (s.raise c).modulus d = s.modulus d := State.raiseWith_modulus s c none false d
@[simp] theorem State.raise_link (s : State) (c : FaultCap) (d : Nat) : (s.raise c).link d = s.link d := State.raiseWith_link s c none false d
@[simp] theorem State.raise_partner (s : State) (c : FaultCap) (d : ChipNo) : (s.raise c).partner d = s.partner d := State.raiseWith_partner s c none false d
@[simp] theorem State.raise_region (s : State) (c : FaultCap) (d : Nat) : (s.raise c).region d = s.region d := State.raiseWith_region s c none false d
@[simp] theorem State.raise_cpAwake (s : State) (c : FaultCap) : (s.raise c).cpAwake = s.cpAwake := State.raiseWith_cpAwake s c none false
@[simp] theorem State.raise_keeperReady (s : State) (c : FaultCap) : (s.raise c).keeperReady = s.keeperReady := State.raiseWith_keeperReady s c none false
@[simp] theorem State.raise_domainOn (s : State) (c : FaultCap) (d : Nat) : (s.raise c).domainOn d = s.domainOn d := State.raiseWith_domainOn s c none false d
@[simp] theorem State.raise_verb (s : State) (c : FaultCap) (d : Origin) : (s.raise c).verb d = s.verb d := State.raiseWith_verb s c none false d
@[simp] theorem State.raise_corePresent (s : State) (c : FaultCap) (d : Nat) : (s.raise c).corePresent d = s.corePresent d := State.raiseWith_corePresent s c none false d
@[simp] theorem State.raise_ifMajor (s : State) (c : FaultCap) : (s.raise c).ifMajor = s.ifMajor := State.raiseWith_ifMajor s c none false
@[simp] theorem State.tenantAlarm_pending (s : State) (r k m : Nat) (t : Tenant) (ks o : Nat) : (s.tenantAlarm r k m t ks o).pending = s.pending := State.raiseWith_pending s _ _ _
@[simp] theorem State.tenantAlarm_ptime (s : State) (r k m : Nat) (t : Tenant) (ks o : Nat) : (s.tenantAlarm r k m t ks o).ptime = s.ptime := State.raiseWith_ptime s _ _ _
@[simp] theorem State.tenantAlarm_inp (s : State) (r k m : Nat) (t : Tenant) (ks o : Nat) : (s.tenantAlarm r k m t ks o).inp = s.inp := State.raiseWith_inp s _ _ _
@[simp] theorem State.tenantAlarm_keeper (s : State) (r k m : Nat) (t : Tenant) (ks o : Nat) : (s.tenantAlarm r k m t ks o).keeper = s.keeper := State.raiseWith_keeper s _ _ _
@[simp] theorem State.tenantAlarm_mboxes (s : State) (r k m : Nat) (t : Tenant) (ks o : Nat) : (s.tenantAlarm r k m t ks o).mboxes = s.mboxes := State.raiseWith_mboxes s _ _ _
@[simp] theorem State.tenantAlarm_ctxs (s : State) (r k m : Nat) (t : Tenant) (ks o : Nat) : (s.tenantAlarm r k m t ks o).ctxs = s.ctxs := State.raiseWith_ctxs s _ _ _
@[simp] theorem State.tenantAlarm_readyQ (s : State) (r k m : Nat) (t : Tenant) (ks o : Nat) : (s.tenantAlarm r k m t ks o).readyQ = s.readyQ := State.raiseWith_readyQ s _ _ _
@[simp] theorem State.tenantAlarm_chans (s : State) (r k m : Nat) (t : Tenant) (ks o : Nat) : (s.tenantAlarm r k m t ks o).chans = s.chans := State.raiseWith_chans s _ _ _
@[simp] theorem State.tenantAlarm_taps (s : State) (r k m : Nat) (t : Tenant) (ks o : Nat) : (s.tenantAlarm r k m t ks o).taps = s.taps := State.raiseWith_taps s _ _ _
@[simp] theorem State.tenantAlarm_ports (s : State) (r k m : Nat) (t : Tenant) (ks o : Nat) : (s.tenantAlarm r k m t ks o).ports = s.ports := State.raiseWith_ports s _ _ _
@[simp] theorem State.tenantAlarm_spine (s : State) (r k m : Nat) (t : Tenant) (ks o : Nat) : (s.tenantAlarm r k m t ks o).spine = s.spine := State.raiseWith_spine s _ _ _
@[simp] theorem State.tenantAlarm_swarms (s : State) (r k m : Nat) (t : Tenant) (ks o : Nat) : (s.tenantAlarm r k m t ks o).swarms = s.swarms := State.raiseWith_swarms s _ _ _
@[simp] theorem State.tenantAlarm_expand (s : State) (r k m : Nat) (t : Tenant) (ks o : Nat) : (s.tenantAlarm r k m t ks o).expand = s.expand := State.raiseWith_expand s _ _ _
@[simp] theorem State.tenantAlarm_expandAt (s : State) (r k m : Nat) (t : Tenant) (ks o : Nat) : (s.tenantAlarm r k m t ks o).expandAt = s.expandAt := State.raiseWith_expandAt s _ _ _
@[simp] theorem State.tenantAlarm_ksets (s : State) (r k m : Nat) (t : Tenant) (ks o : Nat) : (s.tenantAlarm r k m t ks o).ksets = s.ksets := State.raiseWith_ksets s _ _ _
@[simp] theorem State.tenantAlarm_mods (s : State) (r k m : Nat) (t : Tenant) (ks o : Nat) : (s.tenantAlarm r k m t ks o).mods = s.mods := State.raiseWith_mods s _ _ _
@[simp] theorem State.tenantAlarm_xlate (s : State) (r k m : Nat) (t : Tenant) (ks o : Nat) : (s.tenantAlarm r k m t ks o).xlate = s.xlate := State.raiseWith_xlate s _ _ _
@[simp] theorem State.tenantAlarm_tally (s : State) (r k m : Nat) (t : Tenant) (ks o : Nat) : (s.tenantAlarm r k m t ks o).tally = s.tally := State.raiseWith_tally s _ _ _
@[simp] theorem State.tenantAlarm_fabric (s : State) (r k m : Nat) (t : Tenant) (ks o : Nat) : (s.tenantAlarm r k m t ks o).fabric = s.fabric := State.raiseWith_fabric s _ _ _
@[simp] theorem State.tenantAlarm_sec (s : State) (r k m : Nat) (t : Tenant) (ks o : Nat) : (s.tenantAlarm r k m t ks o).sec = s.sec := State.raiseWith_sec s _ _ _
@[simp] theorem State.tenantAlarm_power (s : State) (r k m : Nat) (t : Tenant) (ks o : Nat) : (s.tenantAlarm r k m t ks o).power = s.power := State.raiseWith_power s _ _ _
@[simp] theorem State.tenantAlarm_ftest (s : State) (r k m : Nat) (t : Tenant) (ks o : Nat) : (s.tenantAlarm r k m t ks o).ftest = s.ftest := State.raiseWith_ftest s _ _ _
@[simp] theorem State.tenantAlarm_telem (s : State) (r k m : Nat) (t : Tenant) (ks o : Nat) : (s.tenantAlarm r k m t ks o).telem = s.telem := State.raiseWith_telem s _ _ _
@[simp] theorem State.tenantAlarm_regs (s : State) (r k m : Nat) (t : Tenant) (ks o : Nat) : (s.tenantAlarm r k m t ks o).regs = s.regs := State.raiseWith_regs s _ _ _
@[simp] theorem State.tenantAlarm_free (s : State) (r k m : Nat) (t : Tenant) (ks o : Nat) : (s.tenantAlarm r k m t ks o).free = s.free := State.raiseWith_free s _ _ _
@[simp] theorem State.tenantAlarm_nextId (s : State) (r k m : Nat) (t : Tenant) (ks o : Nat) : (s.tenantAlarm r k m t ks o).nextId = s.nextId := State.raiseWith_nextId s _ _ _
@[simp] theorem State.tenantAlarm_ctx (s : State) (r k m : Nat) (t : Tenant) (ks o : Nat) (d : CtxNo) : (s.tenantAlarm r k m t ks o).ctx d = s.ctx d := State.raiseWith_ctx s _ _ _ d
@[simp] theorem State.tenantAlarm_chan (s : State) (r k m : Nat) (t : Tenant) (ks o : Nat) (d : Nat) : (s.tenantAlarm r k m t ks o).chan d = s.chan d := State.raiseWith_chan s _ _ _ d
@[simp] theorem State.tenantAlarm_tap (s : State) (r k m : Nat) (t : Tenant) (ks o : Nat) (d : Nat) : (s.tenantAlarm r k m t ks o).tap d = s.tap d := State.raiseWith_tap s _ _ _ d
@[simp] theorem State.tenantAlarm_port (s : State) (r k m : Nat) (t : Tenant) (ks o : Nat) (d : Nat) : (s.tenantAlarm r k m t ks o).port d = s.port d := State.raiseWith_port s _ _ _ d
@[simp] theorem State.tenantAlarm_mbox (s : State) (r k m : Nat) (t : Tenant) (ks o : Nat) (d : Nat) : (s.tenantAlarm r k m t ks o).mbox d = s.mbox d := State.raiseWith_mbox s _ _ _ d
@[simp] theorem State.tenantAlarm_swarm (s : State) (r k m : Nat) (t : Tenant) (ks o : Nat) (d : Nat) : (s.tenantAlarm r k m t ks o).swarm d = s.swarm d := State.raiseWith_swarm s _ _ _ d
@[simp] theorem State.tenantAlarm_kset (s : State) (r k m : Nat) (t : Tenant) (ks o : Nat) (d : KsetNo) : (s.tenantAlarm r k m t ks o).kset d = s.kset d := State.raiseWith_kset s _ _ _ d
@[simp] theorem State.tenantAlarm_modulus (s : State) (r k m : Nat) (t : Tenant) (ks o : Nat) (d : Nat) : (s.tenantAlarm r k m t ks o).modulus d = s.modulus d := State.raiseWith_modulus s _ _ _ d
@[simp] theorem State.tenantAlarm_link (s : State) (r k m : Nat) (t : Tenant) (ks o : Nat) (d : Nat) : (s.tenantAlarm r k m t ks o).link d = s.link d := State.raiseWith_link s _ _ _ d
@[simp] theorem State.tenantAlarm_partner (s : State) (r k m : Nat) (t : Tenant) (ks o : Nat) (d : ChipNo) : (s.tenantAlarm r k m t ks o).partner d = s.partner d := State.raiseWith_partner s _ _ _ d
@[simp] theorem State.tenantAlarm_region (s : State) (r k m : Nat) (t : Tenant) (ks o : Nat) (d : Nat) : (s.tenantAlarm r k m t ks o).region d = s.region d := State.raiseWith_region s _ _ _ d
@[simp] theorem State.tenantAlarm_cpAwake (s : State) (r k m : Nat) (t : Tenant) (ks o : Nat) : (s.tenantAlarm r k m t ks o).cpAwake = s.cpAwake := State.raiseWith_cpAwake s _ _ _
@[simp] theorem State.tenantAlarm_keeperReady (s : State) (r k m : Nat) (t : Tenant) (ks o : Nat) : (s.tenantAlarm r k m t ks o).keeperReady = s.keeperReady := State.raiseWith_keeperReady s _ _ _
@[simp] theorem State.tenantAlarm_domainOn (s : State) (r k m : Nat) (t : Tenant) (ks o : Nat) (d : Nat) : (s.tenantAlarm r k m t ks o).domainOn d = s.domainOn d := State.raiseWith_domainOn s _ _ _ d
@[simp] theorem State.tenantAlarm_verb (s : State) (r k m : Nat) (t : Tenant) (ks o : Nat) (d : Origin) : (s.tenantAlarm r k m t ks o).verb d = s.verb d := State.raiseWith_verb s _ _ _ d
@[simp] theorem State.tenantAlarm_corePresent (s : State) (r k m : Nat) (t : Tenant) (ks o : Nat) (d : Nat) : (s.tenantAlarm r k m t ks o).corePresent d = s.corePresent d := State.raiseWith_corePresent s _ _ _ d
@[simp] theorem State.tenantAlarm_ifMajor (s : State) (r k m : Nat) (t : Tenant) (ks o : Nat) : (s.tenantAlarm r k m t ks o).ifMajor = s.ifMajor := State.raiseWith_ifMajor s _ _ _
@[simp] theorem State.cpFault_pending (s : State) (w o : Nat) : (s.cpFault w o).pending = s.pending := State.raise_pending s _
@[simp] theorem State.cpFault_ptime (s : State) (w o : Nat) : (s.cpFault w o).ptime = s.ptime := State.raise_ptime s _
@[simp] theorem State.cpFault_inp (s : State) (w o : Nat) : (s.cpFault w o).inp = s.inp := State.raise_inp s _
@[simp] theorem State.cpFault_keeper (s : State) (w o : Nat) : (s.cpFault w o).keeper = s.keeper := State.raise_keeper s _
@[simp] theorem State.cpFault_mboxes (s : State) (w o : Nat) : (s.cpFault w o).mboxes = s.mboxes := State.raise_mboxes s _
@[simp] theorem State.cpFault_ctxs (s : State) (w o : Nat) : (s.cpFault w o).ctxs = s.ctxs := State.raise_ctxs s _
@[simp] theorem State.cpFault_readyQ (s : State) (w o : Nat) : (s.cpFault w o).readyQ = s.readyQ := State.raise_readyQ s _
@[simp] theorem State.cpFault_chans (s : State) (w o : Nat) : (s.cpFault w o).chans = s.chans := State.raise_chans s _
@[simp] theorem State.cpFault_taps (s : State) (w o : Nat) : (s.cpFault w o).taps = s.taps := State.raise_taps s _
@[simp] theorem State.cpFault_ports (s : State) (w o : Nat) : (s.cpFault w o).ports = s.ports := State.raise_ports s _
@[simp] theorem State.cpFault_spine (s : State) (w o : Nat) : (s.cpFault w o).spine = s.spine := State.raise_spine s _
@[simp] theorem State.cpFault_swarms (s : State) (w o : Nat) : (s.cpFault w o).swarms = s.swarms := State.raise_swarms s _
@[simp] theorem State.cpFault_expand (s : State) (w o : Nat) : (s.cpFault w o).expand = s.expand := State.raise_expand s _
@[simp] theorem State.cpFault_expandAt (s : State) (w o : Nat) : (s.cpFault w o).expandAt = s.expandAt := State.raise_expandAt s _
@[simp] theorem State.cpFault_ksets (s : State) (w o : Nat) : (s.cpFault w o).ksets = s.ksets := State.raise_ksets s _
@[simp] theorem State.cpFault_mods (s : State) (w o : Nat) : (s.cpFault w o).mods = s.mods := State.raise_mods s _
@[simp] theorem State.cpFault_xlate (s : State) (w o : Nat) : (s.cpFault w o).xlate = s.xlate := State.raise_xlate s _
@[simp] theorem State.cpFault_tally (s : State) (w o : Nat) : (s.cpFault w o).tally = s.tally := State.raise_tally s _
@[simp] theorem State.cpFault_fabric (s : State) (w o : Nat) : (s.cpFault w o).fabric = s.fabric := State.raise_fabric s _
@[simp] theorem State.cpFault_sec (s : State) (w o : Nat) : (s.cpFault w o).sec = s.sec := State.raise_sec s _
@[simp] theorem State.cpFault_power (s : State) (w o : Nat) : (s.cpFault w o).power = s.power := State.raise_power s _
@[simp] theorem State.cpFault_ftest (s : State) (w o : Nat) : (s.cpFault w o).ftest = s.ftest := State.raise_ftest s _
@[simp] theorem State.cpFault_telem (s : State) (w o : Nat) : (s.cpFault w o).telem = s.telem := State.raise_telem s _
@[simp] theorem State.cpFault_regs (s : State) (w o : Nat) : (s.cpFault w o).regs = s.regs := State.raise_regs s _
@[simp] theorem State.cpFault_free (s : State) (w o : Nat) : (s.cpFault w o).free = s.free := State.raise_free s _
@[simp] theorem State.cpFault_nextId (s : State) (w o : Nat) : (s.cpFault w o).nextId = s.nextId := State.raise_nextId s _
@[simp] theorem State.cpFault_ctx (s : State) (w o : Nat) (d : CtxNo) : (s.cpFault w o).ctx d = s.ctx d := State.raise_ctx s _ d
@[simp] theorem State.cpFault_chan (s : State) (w o : Nat) (d : Nat) : (s.cpFault w o).chan d = s.chan d := State.raise_chan s _ d
@[simp] theorem State.cpFault_tap (s : State) (w o : Nat) (d : Nat) : (s.cpFault w o).tap d = s.tap d := State.raise_tap s _ d
@[simp] theorem State.cpFault_port (s : State) (w o : Nat) (d : Nat) : (s.cpFault w o).port d = s.port d := State.raise_port s _ d
@[simp] theorem State.cpFault_mbox (s : State) (w o : Nat) (d : Nat) : (s.cpFault w o).mbox d = s.mbox d := State.raise_mbox s _ d
@[simp] theorem State.cpFault_swarm (s : State) (w o : Nat) (d : Nat) : (s.cpFault w o).swarm d = s.swarm d := State.raise_swarm s _ d
@[simp] theorem State.cpFault_kset (s : State) (w o : Nat) (d : KsetNo) : (s.cpFault w o).kset d = s.kset d := State.raise_kset s _ d
@[simp] theorem State.cpFault_modulus (s : State) (w o : Nat) (d : Nat) : (s.cpFault w o).modulus d = s.modulus d := State.raise_modulus s _ d
@[simp] theorem State.cpFault_link (s : State) (w o : Nat) (d : Nat) : (s.cpFault w o).link d = s.link d := State.raise_link s _ d
@[simp] theorem State.cpFault_partner (s : State) (w o : Nat) (d : ChipNo) : (s.cpFault w o).partner d = s.partner d := State.raise_partner s _ d
@[simp] theorem State.cpFault_region (s : State) (w o : Nat) (d : Nat) : (s.cpFault w o).region d = s.region d := State.raise_region s _ d
@[simp] theorem State.cpFault_cpAwake (s : State) (w o : Nat) : (s.cpFault w o).cpAwake = s.cpAwake := State.raise_cpAwake s _
@[simp] theorem State.cpFault_keeperReady (s : State) (w o : Nat) : (s.cpFault w o).keeperReady = s.keeperReady := State.raise_keeperReady s _
@[simp] theorem State.cpFault_domainOn (s : State) (w o : Nat) (d : Nat) : (s.cpFault w o).domainOn d = s.domainOn d := State.raise_domainOn s _ d
@[simp] theorem State.cpFault_verb (s : State) (w o : Nat) (d : Origin) : (s.cpFault w o).verb d = s.verb d := State.raise_verb s _ d
@[simp] theorem State.cpFault_corePresent (s : State) (w o : Nat) (d : Nat) : (s.cpFault w o).corePresent d = s.corePresent d := State.raise_corePresent s _ d
@[simp] theorem State.cpFault_ifMajor (s : State) (w o : Nat) : (s.cpFault w o).ifMajor = s.ifMajor := State.raise_ifMajor s _
/-! ## Reading what was written -/

@[simp] theorem State.setCtx_ctx_same (s : State) (c : CtxNo) (x : Ctx) : (s.setCtx c x).ctx c = x := by
  simp [State.ctx, State.setCtx]
theorem State.setCtx_ctx_other (s : State) {c d : CtxNo} (x : Ctx) (h : d ≠ c) : (s.setCtx c x).ctx d = s.ctx d :=
  Store.get_set_other _ _ _ (by simpa [BitVec.toNat_inj] using h)
@[simp] theorem State.modCtx_ctx_same (s : State) (c : CtxNo) (f : Ctx → Ctx) : (s.modCtx c f).ctx c = f (s.ctx c) := by
  simp [State.modCtx]
theorem State.modCtx_ctx_other (s : State) {c d : CtxNo} (f : Ctx → Ctx) (h : d ≠ c) :
    (s.modCtx c f).ctx d = s.ctx d := State.setCtx_ctx_other _ _ h
@[simp] theorem State.setFrame_frame_same (s : State) (c : Nat) (x : Frame) : (s.setFrame c x).frame c = x := by
  simp [State.frame, State.setFrame]
theorem State.setFrame_frame_other (s : State) {c d : Nat} (x : Frame) (h : d ≠ c) : (s.setFrame c x).frame d = s.frame d :=
  Store.get_set_other _ _ _ h
@[simp] theorem State.modFrame_frame_same (s : State) (c : Nat) (f : Frame → Frame) : (s.modFrame c f).frame c = f (s.frame c) := by
  simp [State.modFrame]
theorem State.modFrame_frame_other (s : State) {c d : Nat} (f : Frame → Frame) (h : d ≠ c) :
    (s.modFrame c f).frame d = s.frame d := State.setFrame_frame_other _ _ h
@[simp] theorem State.setMbox_mbox_same (s : State) (c : Nat) (x : Mailbox) : (s.setMbox c x).mbox c = x := by
  simp [State.mbox, State.setMbox]
theorem State.setMbox_mbox_other (s : State) {c d : Nat} (x : Mailbox) (h : d ≠ c) : (s.setMbox c x).mbox d = s.mbox d :=
  Store.get_set_other _ _ _ h
@[simp] theorem State.modMbox_mbox_same (s : State) (c : Nat) (f : Mailbox → Mailbox) : (s.modMbox c f).mbox c = f (s.mbox c) := by
  simp [State.modMbox]
theorem State.modMbox_mbox_other (s : State) {c d : Nat} (f : Mailbox → Mailbox) (h : d ≠ c) :
    (s.modMbox c f).mbox d = s.mbox d := State.setMbox_mbox_other _ _ h
@[simp] theorem State.setLink_link_same (s : State) (c : Nat) (x : Link) : (s.setLink c x).link c = x := by
  simp [State.link, State.setLink]
theorem State.setLink_link_other (s : State) {c d : Nat} (x : Link) (h : d ≠ c) : (s.setLink c x).link d = s.link d :=
  Store.get_set_other _ _ _ h
@[simp] theorem State.modLink_link_same (s : State) (c : Nat) (f : Link → Link) : (s.modLink c f).link c = f (s.link c) := by
  simp [State.modLink]
theorem State.modLink_link_other (s : State) {c d : Nat} (f : Link → Link) (h : d ≠ c) :
    (s.modLink c f).link d = s.link d := State.setLink_link_other _ _ h
@[simp] theorem State.setPartner_partner_same (s : State) (c : ChipNo) (x : Partner) : (s.setPartner c x).partner c = x := by
  simp [State.partner, State.setPartner]
theorem State.setPartner_partner_other (s : State) {c d : ChipNo} (x : Partner) (h : d ≠ c) : (s.setPartner c x).partner d = s.partner d :=
  Store.get_set_other _ _ _ (by simpa [BitVec.toNat_inj] using h)
@[simp] theorem State.modPartner_partner_same (s : State) (c : ChipNo) (f : Partner → Partner) : (s.modPartner c f).partner c = f (s.partner c) := by
  simp [State.modPartner]
theorem State.modPartner_partner_other (s : State) {c d : ChipNo} (f : Partner → Partner) (h : d ≠ c) :
    (s.modPartner c f).partner d = s.partner d := State.setPartner_partner_other _ _ h
@[simp] theorem State.setChan_chan_same (s : State) (c : Nat) (x : Chan) : (s.setChan c x).chan c = x := by
  simp [State.chan, State.setChan]
theorem State.setChan_chan_other (s : State) {c d : Nat} (x : Chan) (h : d ≠ c) : (s.setChan c x).chan d = s.chan d :=
  Store.get_set_other _ _ _ h
@[simp] theorem State.setTap_tap_same (s : State) (c : Nat) (x : Tap) : (s.setTap c x).tap c = x := by
  simp [State.tap, State.setTap]
theorem State.setTap_tap_other (s : State) {c d : Nat} (x : Tap) (h : d ≠ c) : (s.setTap c x).tap d = s.tap d :=
  Store.get_set_other _ _ _ h
@[simp] theorem State.setPort_port_same (s : State) (c : Nat) (x : Port) : (s.setPort c x).port c = x := by
  simp [State.port, State.setPort]
theorem State.setPort_port_other (s : State) {c d : Nat} (x : Port) (h : d ≠ c) : (s.setPort c x).port d = s.port d :=
  Store.get_set_other _ _ _ h
@[simp] theorem State.setSwarm_swarm_same (s : State) (c : Nat) (x : Swarm) : (s.setSwarm c x).swarm c = x := by
  simp [State.swarm, State.setSwarm]
theorem State.setSwarm_swarm_other (s : State) {c d : Nat} (x : Swarm) (h : d ≠ c) : (s.setSwarm c x).swarm d = s.swarm d :=
  Store.get_set_other _ _ _ h
@[simp] theorem State.setKset_kset_same (s : State) (c : KsetNo) (x : KeySet) : (s.setKset c x).kset c = x := by
  simp [State.kset, State.setKset]
theorem State.setKset_kset_other (s : State) {c d : KsetNo} (x : KeySet) (h : d ≠ c) : (s.setKset c x).kset d = s.kset d :=
  Store.get_set_other _ _ _ (by simpa [BitVec.toNat_inj] using h)
@[simp] theorem State.setModulus_modulus_same (s : State) (c : Nat) (x : ModEntry) : (s.setModulus c x).modulus c = x := by
  simp [State.modulus, State.setModulus]
theorem State.setModulus_modulus_other (s : State) {c d : Nat} (x : ModEntry) (h : d ≠ c) : (s.setModulus c x).modulus d = s.modulus d :=
  Store.get_set_other _ _ _ h
@[simp] theorem State.setRegion_region_same (s : State) (c : Nat) (x : Region) : (s.setRegion c x).region c = x := by
  simp [State.region, State.setRegion]
theorem State.setRegion_region_other (s : State) {c d : Nat} (x : Region) (h : d ≠ c) : (s.setRegion c x).region d = s.region d :=
  Store.get_set_other _ _ _ h
@[simp] theorem State.modKeeper_keeper (s : State) (f : Keeper → Keeper) : (s.modKeeper f).keeper = f s.keeper := rfl
@[simp] theorem State.modRecd_recd (s : State) (f : Recorder → Recorder) : (s.modRecd f).recd = f s.recd := rfl
@[simp] theorem State.modFaults_faults (s : State) (f : Faults → Faults) : (s.modFaults f).faults = f s.faults := rfl

end Sys2Proof.Machine
end

