-- ==== Sys2Proof/Laws/Frame.lean ====
section
/-! SUPPORT. How frames compose: nothing changes by itself, and what two steps leave alone is left alone by both. -/
namespace Sys2Proof.Machine

theorem Part.Same.refl (p : Part) (s : State) : p.Same s s := by cases p <;> rfl

theorem Part.Same.trans {p : Part} {s t u : State} (h : p.Same s t) (k : p.Same t u) : p.Same s u := by
  cases p <;> exact Eq.trans k h

theorem OnlyChanges.refl (ps : List Part) (s : State) : OnlyChanges ps s s := fun p _ => Part.Same.refl p s

theorem OnlyChanges.trans {ps : List Part} {s t u : State} (h : OnlyChanges ps s t) (k : OnlyChanges ps t u) :
    OnlyChanges ps s u := fun p hp => (h p hp).trans (k p hp)

theorem OnlyChanges.mono {ps qs : List Part} {s t : State} (h : OnlyChanges ps s t) (hs : ∀ p ∈ ps, p ∈ qs) :
    OnlyChanges qs s t := fun p hp => h p fun hq => hp (hs p hq)

theorem OnlyChanges.ite {ps : List Part} {s t u : State} {c : Prop} [Decidable c] (h : OnlyChanges ps s t)
    (k : OnlyChanges ps s u) : OnlyChanges ps s (if c then t else u) := by
  split <;> assumption

/-- A fold of operations that each change only the parts named changes only those. -/
theorem OnlyChanges.foldl {α : Type} {ps : List Part} {s : State} (f : State → α → State)
    (hf : ∀ t a, OnlyChanges ps t (f t a)) (l : List α) (t : State) (h : OnlyChanges ps s t) :
    OnlyChanges ps s (l.foldl f t) := by
  induction l generalizing t with
  | nil => exact h
  | cons a r ih => exact ih _ (h.trans (hf t a))

/-- One more operation, which changes only parts among those named. -/
theorem OnlyChanges.step {ps qs : List Part} {s t u : State} (h : OnlyChanges ps s t) (k : OnlyChanges qs t u)
    (hs : ∀ p ∈ qs, p ∈ ps) : OnlyChanges ps s u := h.trans (k.mono hs)

/-- A state built by changing another one, part by part. -/
theorem OnlyChanges.upd {ps : List Part} {s u : State} (t : State) (h : OnlyChanges ps s t)
    (k : ∀ p : Part, p ∉ ps → p.Same t u) : OnlyChanges ps s u := h.trans k

theorem OnlyChanges.dite {ps : List Part} {s : State} {c : Prop} [Decidable c] {t : c → State} {u : ¬c → State}
    (h : ∀ x, OnlyChanges ps s (t x)) (k : ∀ x, OnlyChanges ps s (u x)) : OnlyChanges ps s (if x : c then t x else u x) := by
  split
  · exact h _
  · exact k _

/-- What an operation that may answer no state changes when it answers one. -/
def MayChange (ps : List Part) (s : State) (o : Option State) : Prop := ∀ u, o = some u → OnlyChanges ps s u

theorem MayChange.none (ps : List Part) (s : State) : MayChange ps s Option.none := fun _ h => nomatch h

theorem MayChange.some {ps : List Part} {s u : State} (h : OnlyChanges ps s u) : MayChange ps s (Option.some u) := by
  intro v hv
  cases hv
  exact h

theorem MayChange.ite {ps : List Part} {s : State} {t u : Option State} {c : Prop} [Decidable c] (h : MayChange ps s t)
    (k : MayChange ps s u) : MayChange ps s (if c then t else u) := by
  split <;> assumption

theorem MayChange.step {ps qs : List Part} {s t : State} {o : Option State} (h : OnlyChanges ps s t)
    (k : MayChange qs t o) (hs : ∀ p ∈ qs, p ∈ ps) : MayChange ps s o := fun u hu => h.step (k u hu) hs

theorem MayChange.getD {ps : List Part} {s d : State} {o : Option State} (h : MayChange ps s o) (k : OnlyChanges ps s d) :
    OnlyChanges ps s (o.getD d) := by
  cases o with
  | none => exact k
  | some u => exact h u rfl

theorem MayChange.get {ps qs : List Part} {s t u : State} {o : Option State} (k : MayChange qs t o) (hu : o = Option.some u)
    (h : OnlyChanges ps s t) (hs : ∀ p ∈ qs, p ∈ ps) : OnlyChanges ps s u := h.step (k u hu) hs

theorem MayChange.map {α : Type} {ps : List Part} {s : State} {o : Option α} {f : α → State} (h : ∀ x, OnlyChanges ps s (f x)) :
    MayChange ps s (o.map f) := by
  cases o with
  | none => exact MayChange.none _ _
  | some x => exact MayChange.some (h x)

theorem MayChange.bind {α : Type} {ps : List Part} {s : State} {o : Option α} {f : α → Option State}
    (h : ∀ x, MayChange ps s (f x)) : MayChange ps s (o.bind f) := by
  cases o with
  | none => exact MayChange.none _ _
  | some x => exact h x

theorem MayChange.orElse {ps : List Part} {s : State} {o q : Option State} (h : MayChange ps s o) (k : MayChange ps s q) :
    MayChange ps s (o <|> q) := by
  cases o with
  | none => simpa using k
  | some x => simpa using h

theorem MayChange.findSome {α : Type} {ps : List Part} {s : State} {l : List α} {f : α → Option State}
    (h : ∀ x, MayChange ps s (f x)) : MayChange ps s (l.findSome? f) := by
  induction l with
  | nil => exact MayChange.none _ _
  | cons a r ih =>
    rw [List.findSome?_cons]
    split
    · rename_i u hu; exact fun v hv => h a v (hu.trans hv)
    · exact ih

theorem MayChange.mapS {ps : List Part} {s : State} {o : Option State} {f : State → State} (h : MayChange ps s o)
    (k : ∀ t, OnlyChanges ps s t → OnlyChanges ps s (f t)) : MayChange ps s (o.map f) := by
  cases o with
  | none => exact MayChange.none _ _
  | some t => exact MayChange.some (k t (h t rfl))

/-- What an operation that may answer a state with something beside it changes when it answers. -/
def PairMay {α : Type} (ps : List Part) (s : State) (o : Option (State × α)) : Prop :=
  ∀ r, o = Option.some r → OnlyChanges ps s r.1

theorem PairMay.none {α : Type} (ps : List Part) (s : State) : PairMay ps s (Option.none : Option (State × α)) :=
  fun _ h => nomatch h

theorem PairMay.some {α : Type} {ps : List Part} {s u : State} {b : α} (h : OnlyChanges ps s u) :
    PairMay ps s (Option.some (u, b)) := by
  intro v hv
  cases hv
  exact h

theorem PairMay.ite {α : Type} {ps : List Part} {s : State} {t u : Option (State × α)} {c : Prop} [Decidable c]
    (h : PairMay ps s t) (k : PairMay ps s u) : PairMay ps s (if c then t else u) := by
  split <;> assumption

theorem PairMay.map {α : Type} {ps : List Part} {s : State} {o : Option State} {b : α} (h : MayChange ps s o) :
    PairMay ps s (o.map fun t => (t, b)) := by
  cases o with
  | none => exact PairMay.none _ _
  | some u => exact PairMay.some (h u rfl)

theorem PairMay.step {α : Type} {ps qs : List Part} {s t : State} {o : Option (State × α)} (h : OnlyChanges ps s t)
    (k : PairMay qs t o) (hs : ∀ p ∈ qs, p ∈ ps) : PairMay ps s o := fun u hu => h.step (k u hu) hs

theorem OnlyChanges.put_pending {ps : List Part} {s t : State} (x : List Instr) (h : OnlyChanges ps s t) (hp : Part.pending ∈ ps) :
    OnlyChanges ps s { t with pending := x } :=
  h.trans fun p hn => by cases p <;> first | rfl | exact absurd hp hn

theorem OnlyChanges.put_ptime {ps : List Part} {s t : State} (x : Word) (h : OnlyChanges ps s t) (hp : Part.ptime ∈ ps) :
    OnlyChanges ps s { t with ptime := x } :=
  h.trans fun p hn => by cases p <;> first | rfl | exact absurd hp hn

theorem OnlyChanges.put_inp {ps : List Part} {s t : State} (x : StaticIn) (h : OnlyChanges ps s t) (hp : Part.inp ∈ ps) :
    OnlyChanges ps s { t with inp := x } :=
  h.trans fun p hn => by cases p <;> first | rfl | exact absurd hp hn

theorem OnlyChanges.put_keeper {ps : List Part} {s t : State} (x : Keeper) (h : OnlyChanges ps s t) (hp : Part.keeper ∈ ps) :
    OnlyChanges ps s { t with keeper := x } :=
  h.trans fun p hn => by cases p <;> first | rfl | exact absurd hp hn

theorem OnlyChanges.put_mboxes {ps : List Part} {s t : State} (x : Store Mailbox) (h : OnlyChanges ps s t) (hp : Part.mboxes ∈ ps) :
    OnlyChanges ps s { t with mboxes := x } :=
  h.trans fun p hn => by cases p <;> first | rfl | exact absurd hp hn

theorem OnlyChanges.put_ctxs {ps : List Part} {s t : State} (x : Store Ctx) (h : OnlyChanges ps s t) (hp : Part.ctxs ∈ ps) :
    OnlyChanges ps s { t with ctxs := x } :=
  h.trans fun p hn => by cases p <;> first | rfl | exact absurd hp hn

theorem OnlyChanges.put_readyQ {ps : List Part} {s t : State} (x : Store (List CtxNo)) (h : OnlyChanges ps s t) (hp : Part.readyQ ∈ ps) :
    OnlyChanges ps s { t with readyQ := x } :=
  h.trans fun p hn => by cases p <;> first | rfl | exact absurd hp hn

theorem OnlyChanges.put_chans {ps : List Part} {s t : State} (x : Store Chan) (h : OnlyChanges ps s t) (hp : Part.chans ∈ ps) :
    OnlyChanges ps s { t with chans := x } :=
  h.trans fun p hn => by cases p <;> first | rfl | exact absurd hp hn

theorem OnlyChanges.put_frames {ps : List Part} {s t : State} (x : Store Frame) (h : OnlyChanges ps s t) (hp : Part.frames ∈ ps) :
    OnlyChanges ps s { t with frames := x } :=
  h.trans fun p hn => by cases p <;> first | rfl | exact absurd hp hn

theorem OnlyChanges.put_taps {ps : List Part} {s t : State} (x : Store Tap) (h : OnlyChanges ps s t) (hp : Part.taps ∈ ps) :
    OnlyChanges ps s { t with taps := x } :=
  h.trans fun p hn => by cases p <;> first | rfl | exact absurd hp hn

theorem OnlyChanges.put_ports {ps : List Part} {s t : State} (x : Store Port) (h : OnlyChanges ps s t) (hp : Part.ports ∈ ps) :
    OnlyChanges ps s { t with ports := x } :=
  h.trans fun p hn => by cases p <;> first | rfl | exact absurd hp hn

theorem OnlyChanges.put_spine {ps : List Part} {s t : State} (x : List SpineBeat) (h : OnlyChanges ps s t) (hp : Part.spine ∈ ps) :
    OnlyChanges ps s { t with spine := x } :=
  h.trans fun p hn => by cases p <;> first | rfl | exact absurd hp hn

theorem OnlyChanges.put_swarms {ps : List Part} {s t : State} (x : Store Swarm) (h : OnlyChanges ps s t) (hp : Part.swarms ∈ ps) :
    OnlyChanges ps s { t with swarms := x } :=
  h.trans fun p hn => by cases p <;> first | rfl | exact absurd hp hn

theorem OnlyChanges.put_expand {ps : List Part} {s t : State} (x : Store Expand) (h : OnlyChanges ps s t) (hp : Part.expand ∈ ps) :
    OnlyChanges ps s { t with expand := x } :=
  h.trans fun p hn => by cases p <;> first | rfl | exact absurd hp hn

theorem OnlyChanges.put_expandAt {ps : List Part} {s t : State} (x : Nat) (h : OnlyChanges ps s t) (hp : Part.expandAt ∈ ps) :
    OnlyChanges ps s { t with expandAt := x } :=
  h.trans fun p hn => by cases p <;> first | rfl | exact absurd hp hn

theorem OnlyChanges.put_ksets {ps : List Part} {s t : State} (x : Store KeySet) (h : OnlyChanges ps s t) (hp : Part.ksets ∈ ps) :
    OnlyChanges ps s { t with ksets := x } :=
  h.trans fun p hn => by cases p <;> first | rfl | exact absurd hp hn

theorem OnlyChanges.put_mods {ps : List Part} {s t : State} (x : Store ModEntry) (h : OnlyChanges ps s t) (hp : Part.mods ∈ ps) :
    OnlyChanges ps s { t with mods := x } :=
  h.trans fun p hn => by cases p <;> first | rfl | exact absurd hp hn

theorem OnlyChanges.put_xlate {ps : List Part} {s t : State} (x : Xlate) (h : OnlyChanges ps s t) (hp : Part.xlate ∈ ps) :
    OnlyChanges ps s { t with xlate := x } :=
  h.trans fun p hn => by cases p <;> first | rfl | exact absurd hp hn

theorem OnlyChanges.put_tally {ps : List Part} {s t : State} (x : TallyUnit) (h : OnlyChanges ps s t) (hp : Part.tally ∈ ps) :
    OnlyChanges ps s { t with tally := x } :=
  h.trans fun p hn => by cases p <;> first | rfl | exact absurd hp hn

theorem OnlyChanges.put_fabric {ps : List Part} {s t : State} (x : Fabric) (h : OnlyChanges ps s t) (hp : Part.fabric ∈ ps) :
    OnlyChanges ps s { t with fabric := x } :=
  h.trans fun p hn => by cases p <;> first | rfl | exact absurd hp hn

theorem OnlyChanges.put_faults {ps : List Part} {s t : State} (x : Faults) (h : OnlyChanges ps s t) (hp : Part.faults ∈ ps) :
    OnlyChanges ps s { t with faults := x } :=
  h.trans fun p hn => by cases p <;> first | rfl | exact absurd hp hn

theorem OnlyChanges.put_sec {ps : List Part} {s t : State} (x : Sec) (h : OnlyChanges ps s t) (hp : Part.sec ∈ ps) :
    OnlyChanges ps s { t with sec := x } :=
  h.trans fun p hn => by cases p <;> first | rfl | exact absurd hp hn

theorem OnlyChanges.put_power {ps : List Part} {s t : State} (x : Power) (h : OnlyChanges ps s t) (hp : Part.power ∈ ps) :
    OnlyChanges ps s { t with power := x } :=
  h.trans fun p hn => by cases p <;> first | rfl | exact absurd hp hn

theorem OnlyChanges.put_ftest {ps : List Part} {s t : State} (x : Option FrameTest) (h : OnlyChanges ps s t) (hp : Part.ftest ∈ ps) :
    OnlyChanges ps s { t with ftest := x } :=
  h.trans fun p hn => by cases p <;> first | rfl | exact absurd hp hn

theorem OnlyChanges.put_snap {ps : List Part} {s t : State} (x : Snap) (h : OnlyChanges ps s t) (hp : Part.snap ∈ ps) :
    OnlyChanges ps s { t with snap := x } :=
  h.trans fun p hn => by cases p <;> first | rfl | exact absurd hp hn

theorem OnlyChanges.put_recd {ps : List Part} {s t : State} (x : Recorder) (h : OnlyChanges ps s t) (hp : Part.recd ∈ ps) :
    OnlyChanges ps s { t with recd := x } :=
  h.trans fun p hn => by cases p <;> first | rfl | exact absurd hp hn

theorem OnlyChanges.put_telem {ps : List Part} {s t : State} (x : Telem) (h : OnlyChanges ps s t) (hp : Part.telem ∈ ps) :
    OnlyChanges ps s { t with telem := x } :=
  h.trans fun p hn => by cases p <;> first | rfl | exact absurd hp hn

theorem OnlyChanges.put_regs {ps : List Part} {s t : State} (x : Regs) (h : OnlyChanges ps s t) (hp : Part.regs ∈ ps) :
    OnlyChanges ps s { t with regs := x } :=
  h.trans fun p hn => by cases p <;> first | rfl | exact absurd hp hn

theorem OnlyChanges.put_free {ps : List Part} {s t : State} (x : Nat) (h : OnlyChanges ps s t) (hp : Part.free ∈ ps) :
    OnlyChanges ps s { t with free := x } :=
  h.trans fun p hn => by cases p <;> first | rfl | exact absurd hp hn

theorem OnlyChanges.put_nextId {ps : List Part} {s t : State} (x : Nat) (h : OnlyChanges ps s t) (hp : Part.nextId ∈ ps) :
    OnlyChanges ps s { t with nextId := x } :=
  h.trans fun p hn => by cases p <;> first | rfl | exact absurd hp hn


end Sys2Proof.Machine
end

