-- ==== Sys2Proof/Laws/Changes.lean ====
section
/-! SUPPORT. What each operation of the model can change: for every function that answers a state, the parts of the state
that its result may differ in. Every other register, record, queue and counter is as before. -/
set_option linter.all false
namespace Sys2Proof.Machine

theorem State.setLink_changes (s : State) (l : ℕ) (x : Link) : OnlyChanges [.fabric] s (State.setLink s l x) := by
  unfold State.setLink
  extract_lets x3_0
  refine OnlyChanges.put_fabric _ ?_ (by decide)
  exact OnlyChanges.refl _ _

theorem State.modLink_changes (s : State) (l : ℕ) (f : Link → Link) : OnlyChanges [.fabric] s (State.modLink s l f) := by
  unfold State.modLink
  refine OnlyChanges.step ?_ (State.setLink_changes _ _ _) (by decide)
  · exact OnlyChanges.refl _ _

theorem State.modFaults_changes (s : State) (f : Faults → Faults) : OnlyChanges [.faults] s (State.modFaults s f) := by
  unfold State.modFaults
  refine OnlyChanges.put_faults _ ?_ (by decide)
  exact OnlyChanges.refl _ _

theorem State.setFrame_changes (s : State) (f : ℕ) (x : Frame) : OnlyChanges [.frames] s (State.setFrame s f x) := by
  unfold State.setFrame
  refine OnlyChanges.put_frames _ ?_ (by decide)
  exact OnlyChanges.refl _ _

theorem State.modFrame_changes (s : State) (f : ℕ) (g : Frame → Frame) : OnlyChanges [.frames] s (State.modFrame s f g) := by
  unfold State.modFrame
  refine OnlyChanges.step ?_ (State.setFrame_changes _ _ _) (by decide)
  · exact OnlyChanges.refl _ _

theorem State.stopAllFrames_changes (s : State) : OnlyChanges [.frames] s (State.stopAllFrames s) := by
  unfold State.stopAllFrames
  refine OnlyChanges.foldl _ (fun t1 _ => ?_) _ _ ?_
  · refine OnlyChanges.step ?_ (State.modFrame_changes _ _ _) (by decide)
    · exact OnlyChanges.refl _ _
  · exact OnlyChanges.refl _ _

theorem State.halt_changes (s : State) : OnlyChanges [.faults, .frames] s (State.halt s) := by
  unfold State.halt
  refine OnlyChanges.step ?_ (State.stopAllFrames_changes _) (by decide)
  · refine OnlyChanges.step ?_ (State.modFaults_changes _ _) (by decide)
    · exact OnlyChanges.refl _ _

theorem State.snapTrigger_changes (s : State) (cause : ℕ) : OnlyChanges [.snap] s (State.snapTrigger s cause) := by
  unfold State.snapTrigger
  extract_lets x2_0 x2_1
  refine OnlyChanges.ite ?_ ?_
  · exact OnlyChanges.refl _ _
  · refine OnlyChanges.ite ?_ ?_
    · refine OnlyChanges.put_snap _ ?_ (by decide)
      exact OnlyChanges.refl _ _
    · refine OnlyChanges.put_snap _ ?_ (by decide)
      exact OnlyChanges.refl _ _

theorem State.modRecd_changes (s : State) (f : Recorder → Recorder) : OnlyChanges [.recd] s (State.modRecd s f) := by
  unfold State.modRecd
  refine OnlyChanges.put_recd _ ?_ (by decide)
  exact OnlyChanges.refl _ _

theorem State.askFlush_changes (s : State) : OnlyChanges [.recd] s (State.askFlush s) := by
  unfold State.askFlush
  refine OnlyChanges.step ?_ (State.modRecd_changes _ _) (by decide)
  · exact OnlyChanges.refl _ _

theorem State.recordMerged_changes (s : State) : OnlyChanges [.recd] s (State.recordMerged s) := by
  unfold State.recordMerged
  extract_lets x1_0 x1_1
  refine OnlyChanges.step ?_ (State.modRecd_changes _ _) (by decide)
  · exact OnlyChanges.refl _ _

theorem State.event_changes (s : State) (e : EvRec) : OnlyChanges [.recd] s (State.event s e) := by
  unfold State.event
  refine OnlyChanges.ite ?_ ?_
  · refine OnlyChanges.step ?_ (State.modRecd_changes _ _) (by decide)
    · exact OnlyChanges.refl _ _
  · refine OnlyChanges.step ?_ (State.modRecd_changes _ _) (by decide)
    · exact OnlyChanges.refl _ _

theorem State.raiseWith_changes (s : State) (c : FaultCap) (ev : Option EvRec) (quiet : Bool) : OnlyChanges [.faults, .frames, .snap, .recd] s (State.raiseWith s c ev quiet) := by
  unfold State.raiseWith
  extract_lets x4_0 x4_1 x4_2 x4_3 x4_4 x4_5 x4_6 x4_7 x4_8 x4_9 x4_10 x4_11 x4_12
  have h17 : OnlyChanges [Part.faults, Part.frames, Part.snap, Part.recd] s x4_2 := by
    unfold x4_2
    refine OnlyChanges.step ?_ (State.modFaults_changes _ _) (by decide)
    · exact OnlyChanges.refl _ _
  have h18 : OnlyChanges [Part.faults, Part.frames, Part.snap, Part.recd] s x4_6 := by
    unfold x4_6
    refine OnlyChanges.ite ?_ ?_
    · refine OnlyChanges.step ?_ (State.recordMerged_changes _) (by decide)
      · exact h17
    · exact h17
  have h19 : OnlyChanges [Part.faults, Part.frames, Part.snap, Part.recd] s x4_7 := by
    unfold x4_7
    refine OnlyChanges.ite ?_ ?_
    · refine OnlyChanges.step ?_ (State.modFaults_changes _ _) (by decide)
      · exact h18
    · refine OnlyChanges.step ?_ (State.modFaults_changes _ _) (by decide)
      · exact h18
  have h20 : OnlyChanges [Part.faults, Part.frames, Part.snap, Part.recd] s x4_9 := by
    unfold x4_9
    refine OnlyChanges.ite ?_ ?_
    · exact h19
    · refine OnlyChanges.step ?_ (State.event_changes _ _) (by decide)
      · exact h19
  have h21 : OnlyChanges [Part.faults, Part.frames, Part.snap, Part.recd] s x4_10 := by
    unfold x4_10
    refine OnlyChanges.step ?_ (State.modFaults_changes _ _) (by decide)
    · exact h20
  have h22 : OnlyChanges [Part.faults, Part.frames, Part.snap, Part.recd] s x4_11 := by
    unfold x4_11
    refine OnlyChanges.ite ?_ ?_
    · refine OnlyChanges.step ?_ (State.askFlush_changes _) (by decide)
      · exact h21
    · exact h21
  have h23 : OnlyChanges [Part.faults, Part.frames, Part.snap, Part.recd] s x4_12 := by
    unfold x4_12
    refine OnlyChanges.ite ?_ ?_
    · refine OnlyChanges.step ?_ (State.snapTrigger_changes _ _) (by decide)
      · exact h22
    · exact h22
  refine OnlyChanges.ite ?_ ?_
  · exact h17
  · refine OnlyChanges.ite ?_ ?_
    · refine OnlyChanges.step ?_ (State.halt_changes _) (by decide)
      · exact h23
    · exact h23

theorem State.waggleFail_changes (s : State) (l : ℕ) (check : ℕ) : OnlyChanges [.fabric, .faults, .frames, .snap, .recd] s (State.waggleFail s l check) := by
  unfold State.waggleFail
  extract_lets x3_0
  have h4 : OnlyChanges [Part.fabric, Part.faults, Part.frames, Part.snap, Part.recd] s x3_0 := by
    unfold x3_0
    refine OnlyChanges.step ?_ (State.modLink_changes _ _ _) (by decide)
    · exact OnlyChanges.refl _ _
  refine OnlyChanges.step ?_ (State.raiseWith_changes _ _ _ _) (by decide)
  · exact h4

theorem execWaggleAckTimeout_changes (l : Fin 18) (s : State) : ∃ t, (execWaggleAckTimeout l s) = .next t ∧ OnlyChanges [.fabric, .faults, .frames, .snap, .recd] s t := by
  refine ⟨_, rfl, ?_⟩
  extract_lets x2_0
  refine OnlyChanges.ite ?_ ?_
  · refine OnlyChanges.step ?_ (State.waggleFail_changes _ _ _) (by decide)
    · exact OnlyChanges.refl _ _
  · exact OnlyChanges.refl _ _

theorem State.setCtx_changes (s : State) (c : CtxNo) (x : Ctx) : OnlyChanges [.ctxs] s (State.setCtx s c x) := by
  unfold State.setCtx
  refine OnlyChanges.put_ctxs _ ?_ (by decide)
  exact OnlyChanges.refl _ _

theorem State.modCtx_changes (s : State) (c : CtxNo) (f : Ctx → Ctx) : OnlyChanges [.ctxs] s (State.modCtx s c f) := by
  unfold State.modCtx
  refine OnlyChanges.step ?_ (State.setCtx_changes _ _ _) (by decide)
  · exact OnlyChanges.refl _ _

theorem State.modWork_changes (s : State) (c : CtxNo) (id : ℕ) (f : Work → Work) : OnlyChanges [.ctxs] s (State.modWork s c id f) := by
  unfold State.modWork
  refine OnlyChanges.step ?_ (State.modCtx_changes _ _ _) (by decide)
  · exact OnlyChanges.refl _ _

theorem State.svcWrite_changes (s : State) (c : CtxNo) (w : Work) (p : OutPiece) (st : DoneStage) : OnlyChanges [.frames, .ctxs] s (State.svcWrite s c w p st) := by
  unfold State.svcWrite
  split
  · exact OnlyChanges.refl _ _
  · refine OnlyChanges.step ?_ (State.modWork_changes _ _ _ _) (by decide)
    · refine OnlyChanges.step ?_ (State.modFrame_changes _ _ _) (by decide)
      · exact OnlyChanges.refl _ _

theorem State.modXlate_changes (s : State) (f : Xlate → Xlate) : OnlyChanges [.xlate] s (State.modXlate s f) := by
  unfold State.modXlate
  refine OnlyChanges.put_xlate _ ?_ (by decide)
  exact OnlyChanges.refl _ _

theorem State.install_changes (s : State) (f : ℕ) (l : Leaf) : OnlyChanges [.frames, .xlate] s (State.install s f l) := by
  unfold State.install
  extract_lets x3_0 x3_1
  have h5 : OnlyChanges [Part.frames, Part.xlate] s x3_1 := by
    unfold x3_1
    refine OnlyChanges.step ?_ (State.modXlate_changes _ _) (by decide)
    · exact OnlyChanges.refl _ _
  refine OnlyChanges.step ?_ (State.modFrame_changes _ _ _) (by decide)
  · exact h5

theorem State.touch_changes (s : State) (f : ℕ) (l : Leaf) : OnlyChanges [.frames, .xlate] s (State.touch s f l) := by
  unfold State.touch
  refine OnlyChanges.ite ?_ ?_
  · refine OnlyChanges.step ?_ (State.modFrame_changes _ _ _) (by decide)
    · exact OnlyChanges.refl _ _
  · refine OnlyChanges.step ?_ (State.install_changes _ _ _) (by decide)
    · exact OnlyChanges.refl _ _

theorem State.touchWindow_changes (s : State) (m : Msg) : OnlyChanges [.frames, .xlate] s (State.touchWindow s m) := by
  unfold State.touchWindow
  extract_lets x2_0
  refine OnlyChanges.ite ?_ ?_
  · exact OnlyChanges.refl _ _
  · split
    · refine OnlyChanges.step ?_ (State.touch_changes _ _ _) (by decide)
      · exact OnlyChanges.refl _ _
    · exact OnlyChanges.refl _ _

theorem State.enqueue_changes (s : State) (c : CtxNo) : OnlyChanges [.readyQ] s (State.enqueue s c) := by
  unfold State.enqueue
  extract_lets x2_0 x2_1
  refine OnlyChanges.put_readyQ _ ?_ (by decide)
  exact OnlyChanges.refl _ _

theorem State.used_changes (s : State) (f : ℕ) (a : Option Leaf) : OnlyChanges [.frames, .xlate] s (State.used s f a) := by
  unfold State.used
  split
  · refine OnlyChanges.step ?_ (State.touch_changes _ _ _) (by decide)
    · exact OnlyChanges.refl _ _
  · exact OnlyChanges.refl _ _

theorem State.modFabric_changes (s : State) (f : Fabric → Fabric) : OnlyChanges [.fabric] s (State.modFabric s f) := by
  unfold State.modFabric
  refine OnlyChanges.put_fabric _ ?_ (by decide)
  exact OnlyChanges.refl _ _

theorem State.setTxGroup_changes (s : State) (c : ChipNo) (g : ℕ) (x : TxGroup) : OnlyChanges [.fabric] s (State.setTxGroup s c g x) := by
  unfold State.setTxGroup
  refine OnlyChanges.step ?_ (State.modFabric_changes _ _) (by decide)
  · exact OnlyChanges.refl _ _

theorem State.setPartner_changes (s : State) (c : ChipNo) (x : Partner) : OnlyChanges [.fabric] s (State.setPartner s c x) := by
  unfold State.setPartner
  extract_lets x3_0
  refine OnlyChanges.put_fabric _ ?_ (by decide)
  exact OnlyChanges.refl _ _

theorem State.nextLink_changes (s : State) (d : ChipNo) (set : List ℕ) : OnlyChanges [.fabric] s (State.nextLink s d set).2 := by
  unfold State.nextLink
  extract_lets x3_0 x3_1
  dsimp only
  refine OnlyChanges.put_fabric _ ?_ (by decide)
  exact OnlyChanges.refl _ _

theorem State.sendMsg_changes (s : State) (m : Msg) : OnlyChanges [.fabric] s (State.sendMsg s m) := by
  unfold State.sendMsg
  extract_lets x2_0 x2_1
  have h4 : OnlyChanges [Part.fabric] s x2_1.2 := by
    unfold x2_1
    refine OnlyChanges.step ?_ (State.nextLink_changes _ _ _) (by decide)
    · exact OnlyChanges.refl _ _
  refine OnlyChanges.ite ?_ ?_
  · exact OnlyChanges.refl _ _
  · refine OnlyChanges.step ?_ (State.modLink_changes _ _ _) (by decide)
    · exact h4

theorem pumpPartner_changes (c : ChipNo) (n : Nat) (s : State) : OnlyChanges [.fabric] s (pumpPartner c n s) := by
  induction n generalizing s with
  | zero => exact OnlyChanges.refl _ _
  | succ n ih =>
    have hm : ∀ x m, OnlyChanges [.fabric] s ((s.setPartner c x).sendMsg m) := fun x m =>
      ((OnlyChanges.refl _ _).step (State.setPartner_changes _ _ _) (by decide)).step (State.sendMsg_changes _ _) (by decide)
    unfold pumpPartner
    extract_lets p
    split
    · exact OnlyChanges.refl _ _
    · exact .ite (OnlyChanges.refl _ _) (.ite (.ite (OnlyChanges.refl _ _) ((hm _ _).trans (ih _))) (.ite (OnlyChanges.refl _ _) (hm _ _)))

theorem State.pump_changes (s : State) (c : ChipNo) : OnlyChanges [.fabric] s (State.pump s c) := by
  unfold State.pump
  refine OnlyChanges.step ?_ (pumpPartner_changes _ _ _) (by decide)
  · exact OnlyChanges.refl _ _

theorem State.modPartner_changes (s : State) (c : ChipNo) (f : Partner → Partner) : OnlyChanges [.fabric] s (State.modPartner s c f) := by
  unfold State.modPartner
  refine OnlyChanges.step ?_ (State.setPartner_changes _ _ _) (by decide)
  · exact OnlyChanges.refl _ _

theorem State.request_changes (s : State) (m : Msg) : OnlyChanges [.fabric] s (State.request s m) := by
  unfold State.request
  refine OnlyChanges.step ?_ (State.pump_changes _ _) (by decide)
  · refine OnlyChanges.step ?_ (State.modPartner_changes _ _ _) (by decide)
    · exact OnlyChanges.refl _ _

theorem State.closeGroup_changes (s : State) (d : ChipNo) (g : ℕ) (tally : Option (TallyNo × ℕ)) : OnlyChanges [.fabric] s (State.closeGroup s d g tally) := by
  unfold State.closeGroup
  extract_lets x4_0
  split
  · exact OnlyChanges.refl _ _
  · extract_lets x10_0
    refine OnlyChanges.ite ?_ ?_
    · exact OnlyChanges.refl _ _
    · refine OnlyChanges.step ?_ (State.request_changes _ _) (by decide)
      · refine OnlyChanges.step ?_ (State.setTxGroup_changes _ _ _ _) (by decide)
        · exact OnlyChanges.refl _ _

theorem State.fltStatWrite_changes (s : State) (w : Word) : OnlyChanges [.faults] s (State.fltStatWrite s w) := by
  unfold State.fltStatWrite
  refine OnlyChanges.step ?_ (State.modFaults_changes _ _) (by decide)
  · exact OnlyChanges.refl _ _

theorem State.svcRead_changes (s : State) (f : ℕ) (c : CtxNo) (id : ℕ) (r : ReadReq) : OnlyChanges [.frames] s (State.svcRead s f c id r) := by
  unfold State.svcRead
  refine OnlyChanges.step ?_ (State.modFrame_changes _ _ _) (by decide)
  · exact OnlyChanges.refl _ _

theorem State.queuePartner_changes (s : State) (c : ChipNo) : OnlyChanges [.fabric] s (State.queuePartner s c) := by
  unfold State.queuePartner
  refine OnlyChanges.ite ?_ ?_
  · refine OnlyChanges.step ?_ (State.modFabric_changes _ _) (by decide)
    · refine OnlyChanges.step ?_ (State.modPartner_changes _ _ _) (by decide)
      · exact OnlyChanges.refl _ _
  · exact OnlyChanges.refl _ _

theorem State.modTally_changes (s : State) (f : TallyUnit → TallyUnit) : OnlyChanges [.tally] s (State.modTally s f) := by
  unfold State.modTally
  refine OnlyChanges.put_tally _ ?_ (by decide)
  exact OnlyChanges.refl _ _

theorem State.moved_changes (s : State) : OnlyChanges [.tally] s (State.moved s) := by
  unfold State.moved
  refine OnlyChanges.step ?_ (State.modTally_changes _ _) (by decide)
  · exact OnlyChanges.refl _ _

theorem State.leave_changes (s : State) (c : CtxNo) (id : ℕ) (n : ℕ) : OnlyChanges [.ctxs] s (State.leave s c id n) := by
  unfold State.leave
  refine OnlyChanges.step ?_ (State.modWork_changes _ _ _ _) (by decide)
  · exact OnlyChanges.refl _ _

theorem State.setChan_changes (s : State) (n : ℕ) (x : Chan) : OnlyChanges [.chans] s (State.setChan s n x) := by
  unfold State.setChan
  refine OnlyChanges.put_chans _ ?_ (by decide)
  exact OnlyChanges.refl _ _

theorem State.lendPresent_changes (s : State) (nch : ℕ) (nco : ℕ) : OnlyChanges [.tally] s (State.lendPresent s nch nco) := by
  unfold State.lendPresent
  refine OnlyChanges.ite ?_ ?_
  · exact OnlyChanges.refl _ _
  · refine OnlyChanges.step ?_ (State.modTally_changes _ _) (by decide)
    · exact OnlyChanges.refl _ _

theorem State.lendLower_changes (s : State) : OnlyChanges [.chans, .tally] s (State.lendLower s) := by
  unfold State.lendLower
  extract_lets x1_0 x1_1 x1_2 x1_3
  have h5 : OnlyChanges [Part.chans, Part.tally] s x1_2 := by
    unfold x1_2
    refine OnlyChanges.foldl _ (fun t5 _ => ?_) _ _ ?_
    · extract_lets x7_0
      refine OnlyChanges.step ?_ (State.setChan_changes _ _ _) (by decide)
      · exact OnlyChanges.refl _ _
    · exact OnlyChanges.refl _ _
  have h6 : OnlyChanges [Part.chans, Part.tally] s x1_3 := by
    unfold x1_3
    refine OnlyChanges.step ?_ (State.modTally_changes _ _) (by decide)
    · exact h5
  refine OnlyChanges.step ?_ (State.lendPresent_changes _ _ _) (by decide)
  · exact h6

theorem State.unbind_changes (s : State) (c : CtxNo) : OnlyChanges [.chans, .tally, .ctxs] s (State.unbind s c) := by
  unfold State.unbind
  extract_lets x2_0
  have h3 : OnlyChanges [Part.chans, Part.tally, Part.ctxs] s x2_0 := by
    unfold x2_0
    refine OnlyChanges.step ?_ (State.modCtx_changes _ _ _) (by decide)
    · exact OnlyChanges.refl _ _
  split
  · exact OnlyChanges.refl _ _
  · refine OnlyChanges.step ?_ (State.lendLower_changes _) (by decide)
    · refine OnlyChanges.step ?_ (State.setChan_changes _ _ _) (by decide)
      · exact h3

theorem State.dequeue_changes (s : State) (c : CtxNo) : OnlyChanges [.readyQ] s (State.dequeue s c) := by
  unfold State.dequeue
  extract_lets x2_0
  refine OnlyChanges.put_readyQ _ ?_ (by decide)
  exact OnlyChanges.refl _ _

theorem State.toState_changes (s : State) (c : CtxNo) (st : CtxState) : OnlyChanges [.readyQ, .ctxs] s (State.toState s c st) := by
  unfold State.toState
  extract_lets x3_0 x3_1
  have h5 : OnlyChanges [Part.readyQ, Part.ctxs] s x3_0 := by
    unfold x3_0
    refine OnlyChanges.ite ?_ ?_
    · refine OnlyChanges.step ?_ (State.dequeue_changes _ _) (by decide)
      · exact OnlyChanges.refl _ _
    · exact OnlyChanges.refl _ _
  have h6 : OnlyChanges [Part.readyQ, Part.ctxs] s x3_1 := by
    unfold x3_1
    refine OnlyChanges.ite ?_ ?_
    · refine OnlyChanges.step ?_ (State.enqueue_changes _ _) (by decide)
      · exact h5
    · exact h5
  refine OnlyChanges.step ?_ (State.modCtx_changes _ _ _) (by decide)
  · exact h6

theorem State.disarm_changes (s : State) (c : CtxNo) : OnlyChanges [.chans, .tally, .ctxs] s (State.disarm s c) := by
  unfold State.disarm
  refine OnlyChanges.step ?_ (State.lendLower_changes _) (by decide)
  · refine OnlyChanges.step ?_ (State.modCtx_changes _ _ _) (by decide)
    · exact OnlyChanges.refl _ _

theorem State.stopIfDone_changes (s : State) (c : CtxNo) : OnlyChanges [.chans, .tally, .ctxs, .readyQ] s (State.stopIfDone s c) := by
  unfold State.stopIfDone
  extract_lets x2_0
  refine OnlyChanges.ite ?_ ?_
  · refine OnlyChanges.step ?_ (State.disarm_changes _ _) (by decide)
    · refine OnlyChanges.step ?_ (State.modCtx_changes _ _ _) (by decide)
      · refine OnlyChanges.step ?_ (State.unbind_changes _ _) (by decide)
        · refine OnlyChanges.step ?_ (State.toState_changes _ _ _) (by decide)
          · exact OnlyChanges.refl _ _
  · exact OnlyChanges.refl _ _

theorem execIdleFlitReceive_changes (l : Fin 18) (flit : Bytes) (s : State) : ∃ t, (execIdleFlitReceive l flit s) = .next t ∧ OnlyChanges [] s t := by
  refine ⟨_, rfl, ?_⟩
  split
  · exact OnlyChanges.refl _ _

theorem State.retainDown_changes (s : State) (d : ℕ) : OnlyChanges [.power] s (State.retainDown s d) := by
  unfold State.retainDown
  extract_lets x2_0
  refine OnlyChanges.ite ?_ ?_
  · refine OnlyChanges.put_power _ ?_ (by decide)
    exact OnlyChanges.refl _ _
  · exact OnlyChanges.refl _ _

theorem State.clockUp_changes (s : State) (i : ℕ) : OnlyChanges [.power] s (State.clockUp s i) := by
  unfold State.clockUp
  extract_lets x2_0
  refine OnlyChanges.ite ?_ ?_
  · exact OnlyChanges.refl _ _
  · refine OnlyChanges.put_power _ ?_ (by decide)
    exact OnlyChanges.refl _ _

theorem State.powerUp_changes (s : State) (d : ℕ) : OnlyChanges [.power] s (State.powerUp s d) := by
  unfold State.powerUp
  extract_lets x2_0
  refine OnlyChanges.ite ?_ ?_
  · exact OnlyChanges.refl _ _
  · refine OnlyChanges.put_power _ ?_ (by decide)
    exact OnlyChanges.refl _ _

theorem State.raiseFrame_changes (s : State) (f : ℕ) : OnlyChanges [.power, .frames] s (State.raiseFrame s f) := by
  unfold State.raiseFrame
  extract_lets x2_0 x2_1
  refine OnlyChanges.ite ?_ ?_
  · exact OnlyChanges.refl _ _
  · refine OnlyChanges.ite ?_ ?_
    · refine OnlyChanges.step ?_ (State.modFrame_changes _ _ _) (by decide)
      · exact OnlyChanges.refl _ _
    · refine OnlyChanges.ite ?_ ?_
      · refine OnlyChanges.foldl _ (fun t4 _ => ?_) _ _ ?_
        · refine OnlyChanges.step ?_ (State.powerUp_changes _ _) (by decide)
          · exact OnlyChanges.refl _ _
        · exact OnlyChanges.refl _ _
      · refine OnlyChanges.ite ?_ ?_
        · refine OnlyChanges.foldl _ (fun t4 _ => ?_) _ _ ?_
          · refine OnlyChanges.step ?_ (State.retainDown_changes _ _) (by decide)
            · exact OnlyChanges.refl _ _
          · exact OnlyChanges.refl _ _
        · refine OnlyChanges.ite ?_ ?_
          · refine OnlyChanges.step ?_ (State.clockUp_changes _ _) (by decide)
            · exact OnlyChanges.refl _ _
          · refine OnlyChanges.step ?_ (State.modFrame_changes _ _ _) (by decide)
            · exact OnlyChanges.refl _ _

theorem State.powerDown_changes (s : State) (d : ℕ) : OnlyChanges [.power] s (State.powerDown s d) := by
  unfold State.powerDown
  extract_lets x2_0
  refine OnlyChanges.ite ?_ ?_
  · refine OnlyChanges.put_power _ ?_ (by decide)
    exact OnlyChanges.refl _ _
  · exact OnlyChanges.refl _ _

theorem State.retainUp_changes (s : State) (d : ℕ) : OnlyChanges [.power] s (State.retainUp s d) := by
  unfold State.retainUp
  extract_lets x2_0
  refine OnlyChanges.ite ?_ ?_
  · exact OnlyChanges.refl _ _
  · refine OnlyChanges.put_power _ ?_ (by decide)
    exact OnlyChanges.refl _ _

theorem State.settleFrame_changes (s : State) (f : ℕ) : OnlyChanges [.power, .frames] s (State.settleFrame s f) := by
  unfold State.settleFrame
  extract_lets x2_0 x2_1 x2_2
  have h5 : OnlyChanges [Part.power, Part.frames] s x2_0 := by
    unfold x2_0
    refine OnlyChanges.step ?_ (State.raiseFrame_changes _ _) (by decide)
    · exact OnlyChanges.refl _ _
  refine OnlyChanges.ite ?_ ?_
  · exact h5
  · split
    · refine OnlyChanges.foldl _ (fun t10 _ => ?_) _ _ ?_
      · refine OnlyChanges.step ?_ (State.powerDown_changes _ _) (by decide)
        · refine OnlyChanges.step ?_ (State.retainDown_changes _ _) (by decide)
          · exact OnlyChanges.refl _ _
      · exact h5
    · refine OnlyChanges.foldl _ (fun t10 _ => ?_) _ _ ?_
      · refine OnlyChanges.step ?_ (State.retainUp_changes _ _) (by decide)
        · exact OnlyChanges.refl _ _
      · exact h5
    · refine OnlyChanges.ite ?_ ?_
      · refine OnlyChanges.foldl _ (fun t11 _ => ?_) _ _ ?_
        · refine OnlyChanges.step ?_ (State.powerUp_changes _ _) (by decide)
          · refine OnlyChanges.step ?_ (State.retainDown_changes _ _) (by decide)
            · exact OnlyChanges.refl _ _
        · exact h5
      · refine OnlyChanges.ite ?_ ?_
        · refine OnlyChanges.foldl _ (fun t11 _ => ?_) _ _ ?_
          · refine OnlyChanges.step ?_ (State.powerDown_changes _ _) (by decide)
            · exact OnlyChanges.refl _ _
          · exact h5
        · exact h5

theorem State.xlateFault_changes (s : State) (c : CtxNo) (tenant : Tenant) (va : ℕ) (access : ℕ) (kind : ℕ) (level : ℕ) : OnlyChanges [.faults, .frames, .snap, .recd] s (State.xlateFault s c tenant va access kind level) := by
  unfold State.xlateFault
  refine OnlyChanges.step ?_ (State.raiseWith_changes _ _ _ _) (by decide)
  · exact OnlyChanges.refl _ _

theorem State.mapFrames_changes (s : State) (f : Frame → Frame) : OnlyChanges [.frames] s (State.mapFrames s f) := by
  unfold State.mapFrames
  refine OnlyChanges.put_frames _ ?_ (by decide)
  exact OnlyChanges.refl _ _

theorem State.dropSvc_changes (s : State) (c : CtxNo) (id : ℕ) : OnlyChanges [.frames] s (State.dropSvc s c id) := by
  unfold State.dropSvc
  extract_lets x3_0
  refine OnlyChanges.step ?_ (State.mapFrames_changes _ _) (by decide)
  · exact OnlyChanges.refl _ _

theorem State.setTxRead_changes (s : State) (c : ChipNo) (t : ℕ) (x : TxRead) : OnlyChanges [.fabric] s (State.setTxRead s c t x) := by
  unfold State.setTxRead
  refine OnlyChanges.step ?_ (State.modFabric_changes _ _) (by decide)
  · exact OnlyChanges.refl _ _

theorem State.dropReads_changes (s : State) (c : CtxNo) (id : ℕ) : OnlyChanges [.fabric, .frames] s (State.dropReads s c id) := by
  unfold State.dropReads
  refine OnlyChanges.foldl _ (fun t3 _ => ?_) _ _ ?_
  · extract_lets x5_0 x5_1 x5_2
    have h8 : OnlyChanges [Part.fabric, Part.frames] t3 x5_2 := by
      unfold x5_2
      refine OnlyChanges.step ?_ (State.modPartner_changes _ _ _) (by decide)
      · refine OnlyChanges.step ?_ (State.setTxRead_changes _ _ _ _) (by decide)
        · exact OnlyChanges.refl _ _
    refine OnlyChanges.ite ?_ ?_
    · refine OnlyChanges.step ?_ (State.modFrame_changes _ _ _) (by decide)
      · exact h8
    · refine OnlyChanges.step ?_ (State.setTxRead_changes _ _ _ _) (by decide)
      · exact OnlyChanges.refl _ _
  · exact OnlyChanges.refl _ _

theorem State.dropSlots_changes (s : State) (c : CtxNo) (id : ℕ) : OnlyChanges [.frames] s (State.dropSlots s c id) := by
  unfold State.dropSlots
  refine OnlyChanges.step ?_ (State.mapFrames_changes _ _) (by decide)
  · exact OnlyChanges.refl _ _

theorem State.dropGroupOut_changes (s : State) (d : ChipNo) (g : ℕ) : OnlyChanges [.fabric] s (State.dropGroupOut s d g) := by
  unfold State.dropGroupOut
  refine OnlyChanges.step ?_ (State.modPartner_changes _ _ _) (by decide)
  · exact OnlyChanges.refl _ _

theorem State.abandonGroup_changes (s : State) (d : ChipNo) (g : ℕ) : OnlyChanges [.fabric] s (State.abandonGroup s d g) := by
  unfold State.abandonGroup
  refine OnlyChanges.step ?_ (State.sendMsg_changes _ _) (by decide)
  · refine OnlyChanges.step ?_ (State.setTxGroup_changes _ _ _ _) (by decide)
    · refine OnlyChanges.step ?_ (State.dropGroupOut_changes _ _ _) (by decide)
      · exact OnlyChanges.refl _ _

theorem State.abandonGroups_changes (s : State) (c : CtxNo) (id : ℕ) : OnlyChanges [.fabric] s (State.abandonGroups s c id) := by
  unfold State.abandonGroups
  refine OnlyChanges.foldl _ (fun t3 _ => ?_) _ _ ?_
  · refine OnlyChanges.step ?_ (State.abandonGroup_changes _ _ _) (by decide)
    · exact OnlyChanges.refl _ _
  · exact OnlyChanges.refl _ _

theorem State.endWork_changes (s : State) (c : CtxNo) (id : ℕ) (status : ℕ) (detail : ℕ) : OnlyChanges [.frames, .fabric, .ctxs] s (State.endWork s c id status detail) := by
  unfold State.endWork
  extract_lets x5_0 x5_1
  have h7 : OnlyChanges [Part.frames, Part.fabric, Part.ctxs] s x5_0 := by
    unfold x5_0
    refine OnlyChanges.step ?_ (State.modWork_changes _ _ _ _) (by decide)
    · exact OnlyChanges.refl _ _
  have h8 : OnlyChanges [Part.frames, Part.fabric, Part.ctxs] s x5_1 := by
    unfold x5_1
    refine OnlyChanges.step ?_ (State.modCtx_changes _ _ _) (by decide)
    · exact h7
  split
  · exact OnlyChanges.refl _ _
  · refine OnlyChanges.ite ?_ ?_
    · exact OnlyChanges.refl _ _
    · refine OnlyChanges.step ?_ (State.abandonGroups_changes _ _ _) (by decide)
      · refine OnlyChanges.step ?_ (State.dropSlots_changes _ _ _) (by decide)
        · refine OnlyChanges.step ?_ (State.dropReads_changes _ _ _) (by decide)
          · refine OnlyChanges.step ?_ (State.dropSvc_changes _ _ _) (by decide)
            · exact h8

theorem State.failAccess_changes (s : State) (c : CtxNo) (id : ℕ) (detail : ℕ) (va : ℕ) (access : ℕ) (kind : ℕ) (level : ℕ) (entry : ℕ) : OnlyChanges [.faults, .frames, .snap, .recd, .fabric, .ctxs] s (State.failAccess s c id detail va access kind level entry) := by
  unfold State.failAccess
  extract_lets x9_0
  split
  · exact OnlyChanges.refl _ _
  · extract_lets x15_0 x15_1
    have h17 : OnlyChanges [Part.faults, Part.frames, Part.snap, Part.recd, Part.fabric, Part.ctxs] s x15_1 := by
      unfold x15_1
      refine OnlyChanges.step ?_ (State.xlateFault_changes _ _ _ _ _ _ _) (by decide)
      · exact OnlyChanges.refl _ _
    refine OnlyChanges.ite ?_ ?_
    · refine OnlyChanges.step ?_ (State.endWork_changes _ _ _ _ _) (by decide)
      · exact h17
    · refine OnlyChanges.step ?_ (State.endWork_changes _ _ _ _ _) (by decide)
      · exact h17

theorem State.raise_changes (s : State) (c : FaultCap) : OnlyChanges [.faults, .frames, .snap, .recd] s (State.raise s c) := by
  unfold State.raise
  refine OnlyChanges.step ?_ (State.raiseWith_changes _ _ _ _) (by decide)
  · exact OnlyChanges.refl _ _

theorem State.tableWritten_ho {ps : List Part} {s t : State} {i j : Nat} {gone : State → State} (hs : ∀ p ∈ [Part.faults, .frames, .recd, .snap], p ∈ ps)
    (h : OnlyChanges ps s t) (k : ∀ u, OnlyChanges ps s u → OnlyChanges ps s (gone u)) :
    OnlyChanges ps s (t.tableWritten i j gone) := by
  unfold State.tableWritten
  extract_lets n t1
  have h1 : OnlyChanges ps s t1 := h.step (State.modFaults_changes _ _) fun p hp => hs p (by simp_all)
  have h2 := fun c => h1.step (State.raise_changes t1 c) fun p hp => hs p (by revert hp; cases p <;> decide)
  exact .ite h (.ite (h2 _) (k _ (h2 _)))

theorem State.movedIf_changes (s : State) (b : Bool) : OnlyChanges [.tally] s (State.movedIf s b) := by
  unfold State.movedIf
  refine OnlyChanges.ite ?_ ?_
  · refine OnlyChanges.step ?_ (State.moved_changes _) (by decide)
    · exact OnlyChanges.refl _ _
  · exact OnlyChanges.refl _ _

theorem State.bump_changes (s : State) (t : ℕ) (n : ℕ) (who : Issuer) : OnlyChanges [.chans, .tally, .faults, .frames, .snap, .recd] s (State.bump s t n who) := by
  unfold State.bump
  extract_lets x4_0 x4_1 x4_2 x4_3
  have h8 : OnlyChanges [Part.chans, Part.tally, Part.faults, Part.frames, Part.snap, Part.recd] s x4_2 := by
    unfold x4_2
    refine OnlyChanges.step ?_ (State.lendLower_changes _) (by decide)
    · refine OnlyChanges.step ?_ (State.movedIf_changes _ _) (by decide)
      · refine OnlyChanges.step ?_ (State.modTally_changes _ _) (by decide)
        · exact OnlyChanges.refl _ _
  have h9 : OnlyChanges [Part.chans, Part.tally, Part.faults, Part.frames, Part.snap, Part.recd] s x4_3 := by
    unfold x4_3
    apply State.tableWritten_ho
    · decide
    · exact h8
    · intro a9
      intro a10
      refine OnlyChanges.step ?_ (State.modTally_changes _ _) (by decide)
      · exact a10
  refine OnlyChanges.ite ?_ ?_
  · exact OnlyChanges.refl _ _
  · refine OnlyChanges.ite ?_ ?_
    · refine OnlyChanges.step ?_ (State.raise_changes _ _) (by decide)
      · exact h9
    · exact h9

theorem State.setBarrier_changes (s : State) (b : ℕ) (x : Barrier) : OnlyChanges [.tally] s (State.setBarrier s b x) := by
  unfold State.setBarrier
  refine OnlyChanges.step ?_ (State.modTally_changes _ _) (by decide)
  · exact OnlyChanges.refl _ _

theorem State.realignCredits_changes (s : State) (x : Barrier) : OnlyChanges [.tally] s (State.realignCredits s x) := by
  unfold State.realignCredits
  extract_lets x2_0 x2_1 x2_2
  have h5 : OnlyChanges [Part.tally] s x2_2 := by
    unfold x2_2
    refine OnlyChanges.foldl _ (fun t5 _ => ?_) _ _ ?_
    · extract_lets x7_0 x7_1
      refine OnlyChanges.step ?_ (State.modTally_changes _ _) (by decide)
      · exact OnlyChanges.refl _ _
    · exact OnlyChanges.refl _ _
  refine OnlyChanges.step ?_ (State.movedIf_changes _ _) (by decide)
  · exact h5

theorem State.barrierSend_changes (s : State) (b : ℕ) (dst : ChipNo) (kind : ℕ) (episode : ℕ) : OnlyChanges [.tally, .fabric] s (State.barrierSend s b dst kind episode) := by
  unfold State.barrierSend
  extract_lets x5_0
  refine OnlyChanges.ite ?_ ?_
  · refine OnlyChanges.step ?_ (State.setBarrier_changes _ _ _) (by decide)
    · exact OnlyChanges.refl _ _
  · refine OnlyChanges.step ?_ (State.sendMsg_changes _ _) (by decide)
    · exact OnlyChanges.refl _ _

theorem State.releaseEpisode_changes (s : State) (b : ℕ) (k : ℕ) : OnlyChanges [.chans, .tally, .faults, .frames, .snap, .recd, .fabric] s (State.releaseEpisode s b k) := by
  unfold State.releaseEpisode
  extract_lets x3_0 x3_1 x3_2 x3_3 x3_4
  have h8 : OnlyChanges [Part.chans, Part.tally, Part.faults, Part.frames, Part.snap, Part.recd, Part.fabric] s x3_1 := by
    unfold x3_1
    refine OnlyChanges.ite ?_ ?_
    · refine OnlyChanges.step ?_ (State.realignCredits_changes _ _) (by decide)
      · exact OnlyChanges.refl _ _
    · exact OnlyChanges.refl _ _
  have h9 : OnlyChanges [Part.chans, Part.tally, Part.faults, Part.frames, Part.snap, Part.recd, Part.fabric] s x3_2 := by
    unfold x3_2
    refine OnlyChanges.step ?_ (State.bump_changes _ _ _ _) (by decide)
    · exact h8
  have h10 : OnlyChanges [Part.chans, Part.tally, Part.faults, Part.frames, Part.snap, Part.recd, Part.fabric] s x3_4 := by
    unfold x3_4
    refine OnlyChanges.step ?_ (State.setBarrier_changes _ _ _) (by decide)
    · exact h9
  refine OnlyChanges.foldl _ (fun t11 _ => ?_) _ _ ?_
  · refine OnlyChanges.step ?_ (State.barrierSend_changes _ _ _ _ _) (by decide)
    · exact OnlyChanges.refl _ _
  · exact h10

theorem State.episode_changes (s : State) (b : ℕ) : OnlyChanges [.chans, .tally, .faults, .frames, .snap, .recd, .fabric] s (State.episode s b) := by
  unfold State.episode
  extract_lets x2_0 x2_1 x2_2
  have h5 : OnlyChanges [Part.chans, Part.tally, Part.faults, Part.frames, Part.snap, Part.recd, Part.fabric] s x2_2 := by
    unfold x2_2
    refine OnlyChanges.step ?_ (State.setBarrier_changes _ _ _) (by decide)
    · exact OnlyChanges.refl _ _
  refine OnlyChanges.ite ?_ ?_
  · refine OnlyChanges.step ?_ (State.releaseEpisode_changes _ _ _) (by decide)
    · exact h5
  · refine OnlyChanges.step ?_ (State.barrierSend_changes _ _ _ _ _) (by decide)
    · exact h5

theorem settleBarriers_changes (n : Nat) (s : State) : OnlyChanges [.chans, .tally, .faults, .frames, .snap, .recd, .fabric] s (settleBarriers n s) := by
  induction n generalizing s with
  | zero => exact OnlyChanges.refl _ _
  | succ n ih =>
    unfold settleBarriers
    split
    · exact OnlyChanges.refl _ _
    · exact ((OnlyChanges.refl _ _).step (State.episode_changes _ _) (by decide)).trans (ih _)

theorem State.settle_changes (s : State) : OnlyChanges [.chans, .tally, .faults, .frames, .snap, .recd, .fabric] s (State.settle s) := by
  unfold State.settle
  refine OnlyChanges.ite ?_ ?_
  · exact OnlyChanges.refl _ _
  · refine OnlyChanges.step ?_ (settleBarriers_changes _ _) (by decide)
    · exact OnlyChanges.refl _ _

theorem State.increment_changes (s : State) (t : ℕ) (n : ℕ) (who : Issuer) : OnlyChanges [.chans, .tally, .faults, .frames, .snap, .recd, .fabric] s (State.increment s t n who) := by
  unfold State.increment
  refine OnlyChanges.step ?_ (State.settle_changes _) (by decide)
  · refine OnlyChanges.step ?_ (State.bump_changes _ _ _ _) (by decide)
    · exact OnlyChanges.refl _ _

theorem execPostRecordLanded_changes (c : CtxNo) (s : State) : ∃ t, (execPostRecordLanded c s) = .next t ∧ OnlyChanges [.chans, .tally, .faults, .frames, .snap, .recd, .fabric, .ctxs] s t := by
  refine ⟨_, rfl, ?_⟩
  split
  · refine OnlyChanges.step ?_ (State.increment_changes _ _ _ _) (by decide)
    · refine OnlyChanges.step ?_ (State.modCtx_changes _ _ _) (by decide)
      · exact OnlyChanges.refl _ _
  · exact OnlyChanges.refl _ _

theorem State.setMbox_changes (s : State) (m : ℕ) (x : Mailbox) : OnlyChanges [.mboxes] s (State.setMbox s m x) := by
  unfold State.setMbox
  refine OnlyChanges.put_mboxes _ ?_ (by decide)
  exact OnlyChanges.refl _ _

theorem State.copyRequest_changes (s : State) (m : ℕ) : OnlyChanges [.free, .mboxes] s (State.copyRequest s m).2 := by
  unfold State.copyRequest
  extract_lets x2_0 x2_1 x2_2
  have h5 : OnlyChanges [Part.free, Part.mboxes] s x2_2 := by
    unfold x2_2
    refine OnlyChanges.step ?_ (State.setMbox_changes _ _ _) (by decide)
    · exact OnlyChanges.refl _ _
  split
  · dsimp only
    exact OnlyChanges.refl _ _
  · extract_lets x11_0
    dsimp only
    refine OnlyChanges.put_free _ ?_ (by decide)
    exact h5

theorem State.modKeeper_changes (s : State) (f : Keeper → Keeper) : OnlyChanges [.keeper] s (State.modKeeper s f) := by
  unfold State.modKeeper
  refine OnlyChanges.put_keeper _ ?_ (by decide)
  exact OnlyChanges.refl _ _

theorem State.modMbox_changes (s : State) (m : ℕ) (f : Mailbox → Mailbox) : OnlyChanges [.mboxes] s (State.modMbox s m f) := by
  unfold State.modMbox
  refine OnlyChanges.step ?_ (State.setMbox_changes _ _ _) (by decide)
  · exact OnlyChanges.refl _ _

theorem State.relayRespond_changes (s : State) (chip : ChipNo) (seq : BitVec 32) (resp : Bytes) : OnlyChanges [.keeper, .fabric] s (State.relayRespond s chip seq resp) := by
  unfold State.relayRespond
  extract_lets x4_0 x4_1 x4_2
  have h7 : OnlyChanges [Part.keeper, Part.fabric] s x4_2 := by
    unfold x4_2
    refine OnlyChanges.step ?_ (State.modKeeper_changes _ _) (by decide)
    · exact OnlyChanges.refl _ _
  refine OnlyChanges.step ?_ (State.sendMsg_changes _ _) (by decide)
  · exact h7

theorem State.finishWith_changes (s : State) (v : VerbProg) (status : ℕ) (detail : ℕ) (resp : Bytes) : OnlyChanges [.mboxes, .keeper, .fabric, .recd] s (State.finishWith s v status detail resp) := by
  unfold State.finishWith
  extract_lets x5_0 x5_1 x5_2
  have h8 : OnlyChanges [Part.mboxes, Part.keeper, Part.fabric, Part.recd] s x5_1 := by
    unfold x5_1
    refine OnlyChanges.ite ?_ ?_
    · refine OnlyChanges.step ?_ (State.event_changes _ _) (by decide)
      · exact OnlyChanges.refl _ _
    · exact OnlyChanges.refl _ _
  have h9 : OnlyChanges [Part.mboxes, Part.keeper, Part.fabric, Part.recd] s x5_2 := by
    unfold x5_2
    refine OnlyChanges.step ?_ (State.modKeeper_changes _ _) (by decide)
    · exact h8
  split
  · refine OnlyChanges.step ?_ (State.modMbox_changes _ _ _) (by decide)
    · exact h9
  · refine OnlyChanges.step ?_ (State.relayRespond_changes _ _ _ _) (by decide)
    · exact h9

theorem State.finish_changes (s : State) (v : VerbProg) (status : ℕ) (detail : ℕ) (res : Bytes) : OnlyChanges [.mboxes, .keeper, .fabric, .recd] s (State.finish s v status detail res) := by
  unfold State.finish
  refine OnlyChanges.step ?_ (State.finishWith_changes _ _ _ _ _) (by decide)
  · exact OnlyChanges.refl _ _

theorem State.verbDone_changes (s : State) (o : Origin) (status : ℕ) (detail : ℕ) (res : Bytes) : OnlyChanges [.mboxes, .keeper, .fabric, .recd] s (State.verbDone s o status detail res) := by
  unfold State.verbDone
  split
  · refine OnlyChanges.step ?_ (State.finish_changes _ _ _ _ _) (by decide)
    · exact OnlyChanges.refl _ _
  · exact OnlyChanges.refl _ _

theorem State.modVerb_changes (s : State) (o : Origin) (f : VerbProg → VerbProg) : OnlyChanges [.keeper] s (State.modVerb s o f) := by
  unfold State.modVerb
  refine OnlyChanges.step ?_ (State.modKeeper_changes _ _) (by decide)
  · exact OnlyChanges.refl _ _

theorem State.relaySend_changes (s : State) (o : Origin) (v : VerbProg) : OnlyChanges [.mboxes, .keeper, .fabric, .recd] s (State.relaySend s o v) := by
  unfold State.relaySend
  extract_lets x3_0
  refine OnlyChanges.ite ?_ ?_
  · refine OnlyChanges.step ?_ (State.verbDone_changes _ _ _ _ _) (by decide)
    · exact OnlyChanges.refl _ _
  · refine OnlyChanges.ite ?_ ?_
    · exact OnlyChanges.refl _ _
    · refine OnlyChanges.step ?_ (State.modVerb_changes _ _ _) (by decide)
      · refine OnlyChanges.step ?_ (State.sendMsg_changes _ _) (by decide)
        · exact OnlyChanges.refl _ _

theorem State.accept_changes (s : State) (o : Origin) (r : Bytes) : OnlyChanges [.mboxes, .keeper, .fabric, .recd] s (State.accept s o r) := by
  unfold State.accept
  extract_lets x3_0 x3_1 x3_2
  have h6 : OnlyChanges [Part.mboxes, Part.keeper, Part.fabric, Part.recd] s x3_1 := by
    unfold x3_1
    refine OnlyChanges.step ?_ (State.modKeeper_changes _ _) (by decide)
    · exact OnlyChanges.refl _ _
  refine OnlyChanges.ite ?_ ?_
  · refine OnlyChanges.ite ?_ ?_
    · refine OnlyChanges.step ?_ (State.relaySend_changes _ _ _) (by decide)
      · exact h6
    · refine OnlyChanges.step ?_ (State.verbDone_changes _ _ _ _ _) (by decide)
      · exact h6
  · split
    · refine OnlyChanges.step ?_ (State.verbDone_changes _ _ _ _ _) (by decide)
      · exact h6
    · refine OnlyChanges.ite ?_ ?_
      · refine OnlyChanges.step ?_ (State.modKeeper_changes _ _) (by decide)
        · exact h6
      · exact h6

theorem execVerbAccept_changes (s : State) : ∃ t, (execVerbAccept s) = .next t ∧ OnlyChanges [.free, .mboxes, .keeper, .fabric, .recd] s t := by
  refine ⟨_, rfl, ?_⟩
  refine OnlyChanges.ite ?_ ?_
  · exact OnlyChanges.refl _ _
  · split
    · exact OnlyChanges.refl _ _
    · extract_lets x7_0
      have h8 : OnlyChanges [Part.free, Part.mboxes, Part.keeper, Part.fabric, Part.recd] s x7_0.2 := by
        unfold x7_0
        refine OnlyChanges.step ?_ (State.copyRequest_changes _ _) (by decide)
        · exact OnlyChanges.refl _ _
      split
      · refine OnlyChanges.step ?_ (State.accept_changes _ _ _) (by decide)
        · refine OnlyChanges.step ?_ (State.modKeeper_changes _ _) (by decide)
          · exact h8
      · refine OnlyChanges.step ?_ (State.modKeeper_changes _ _) (by decide)
        · exact OnlyChanges.refl _ _

theorem State.modChanged_changes (s : State) (i : ℕ) : OnlyChanges [.ctxs] s (State.modChanged s i) := by
  unfold State.modChanged
  extract_lets x2_0
  refine OnlyChanges.put_ctxs _ ?_ (by decide)
  exact OnlyChanges.refl _ _

theorem State.kmPush_changes (s : State) (r : KmReq) : OnlyChanges [.keeper] s (State.kmPush s r) := by
  unfold State.kmPush
  refine OnlyChanges.step ?_ (State.modKeeper_changes _ _) (by decide)
  · exact OnlyChanges.refl _ _

theorem State.askBytes_changes (s : State) (o : Origin) (addr : ℕ) (len : ℕ) : OnlyChanges [.keeper] s (State.askBytes s o addr len) := by
  unfold State.askBytes
  extract_lets x4_0
  refine OnlyChanges.foldl _ (fun t5 _ => ?_) _ _ ?_
  · refine OnlyChanges.ite ?_ ?_
    · exact OnlyChanges.refl _ _
    · refine OnlyChanges.step ?_ (State.kmPush_changes _ _) (by decide)
      · exact OnlyChanges.refl _ _
  · exact OnlyChanges.refl _ _

theorem State.withStruct_ho {ps : List Part} {s t : State} {o : Origin} {v : VerbProg} {a b c d : Nat} {f : Bytes → State} (hs : ∀ p ∈ [Part.keeper, .mboxes, .fabric, .recd], p ∈ ps)
    (h : OnlyChanges ps s t) (k : ∀ x, OnlyChanges ps s (f x)) : OnlyChanges ps s (t.withStruct o v a b c d f) := by
  unfold State.withStruct
  refine .ite (h.step (State.verbDone_changes _ _ _ _ _) fun p hp => hs p (by revert hp; cases p <;> decide)) ?_
  split
  · exact k _
  · exact h.step (State.askBytes_changes _ _ _ _) fun p hp => hs p (by revert hp; cases p <;> decide)

theorem State.verbHalted_changes (s : State) (o : Origin) (code : ℕ) : OnlyChanges [.keeper, .mboxes, .fabric, .recd] s (State.verbHalted s o code) := by
  unfold State.verbHalted
  split
  · refine OnlyChanges.ite ?_ ?_
    · refine OnlyChanges.step ?_ (State.finish_changes _ _ _ _ _) (by decide)
      · exact OnlyChanges.refl _ _
    · exact OnlyChanges.refl _ _
  · exact OnlyChanges.refl _ _

theorem State.runVerb_ho {ps : List Part} {s t : State} {o : Origin} {c : Nat} {f : VerbProg → State}
    (hs : ∀ p ∈ [Part.keeper, .mboxes, .fabric, .recd], p ∈ ps) (h : OnlyChanges ps s t)
    (k : ∀ v, OnlyChanges ps s (f v)) : OnlyChanges ps s (t.runVerb o c f) := by
  unfold State.runVerb
  split
  · exact k _
  · exact h.step (State.verbHalted_changes _ _ _) fun p hp => hs p (by revert hp; cases p <;> decide)

theorem State.setModulus_changes (s : State) (i : ℕ) (x : ModEntry) : OnlyChanges [.mods] s (State.setModulus s i x) := by
  unfold State.setModulus
  refine OnlyChanges.put_mods _ ?_ (by decide)
  exact OnlyChanges.refl _ _

theorem execModSet_changes (o : Origin) (s : State) : ∃ t, (execModSet o s) = .next t ∧ OnlyChanges [.ctxs, .mboxes, .keeper, .fabric, .recd, .mods, .faults, .frames, .snap] s t := by
  refine ⟨_, rfl, ?_⟩
  apply State.runVerb_ho
  · decide
  · exact OnlyChanges.refl _ _
  · intro a2
    extract_lets x3_0
    apply State.withStruct_ho
    · decide
    · exact OnlyChanges.refl _ _
    · intro a4
      split
      · refine OnlyChanges.step ?_ (State.verbDone_changes _ _ _ _ _) (by decide)
        · exact OnlyChanges.refl _ _
      · refine OnlyChanges.step ?_ (State.verbDone_changes _ _ _ _ _) (by decide)
        · apply State.tableWritten_ho
          · decide
          · refine OnlyChanges.step ?_ (State.modChanged_changes _ _) (by decide)
            · refine OnlyChanges.step ?_ (State.setModulus_changes _ _ _) (by decide)
              · exact OnlyChanges.refl _ _
          · intro a9
            intro a10
            refine OnlyChanges.step ?_ (State.modChanged_changes _ _) (by decide)
            · refine OnlyChanges.step ?_ (State.setModulus_changes _ _ _) (by decide)
              · exact a10

theorem execRecordAcknowledgement_changes (l : Fin 18) (flit : Bytes) (s : State) : ∃ t, (execRecordAcknowledgement l flit s) = .next t ∧ OnlyChanges [.fabric] s t := by
  refine ⟨_, rfl, ?_⟩
  extract_lets x3_0
  refine OnlyChanges.ite ?_ ?_
  · refine OnlyChanges.step ?_ (State.setLink_changes _ _ _) (by decide)
    · exact OnlyChanges.refl _ _
  · exact OnlyChanges.refl _ _

theorem State.tenantAlarm_changes (s : State) (rule : ℕ) (mkind : ℕ) (mid : ℕ) (tenant : Tenant) (kset : ℕ) (obj : ℕ) : OnlyChanges [.faults, .frames, .snap, .recd] s (State.tenantAlarm s rule mkind mid tenant kset obj) := by
  unfold State.tenantAlarm
  refine OnlyChanges.step ?_ (State.raiseWith_changes _ _ _ _) (by decide)
  · exact OnlyChanges.refl _ _

theorem State.refuseTenant_changes (s : State) (o : Origin) : OnlyChanges [.mboxes, .keeper, .fabric, .recd, .faults, .frames, .snap] s (State.refuseTenant s o) := by
  unfold State.refuseTenant
  extract_lets x2_0 x2_1
  split
  · exact OnlyChanges.refl _ _
  · refine OnlyChanges.step ?_ (State.verbDone_changes _ _ _ _ _) (by decide)
    · refine OnlyChanges.step ?_ (State.tenantAlarm_changes _ _ _ _ _ _ _) (by decide)
      · exact OnlyChanges.refl _ _

theorem State.onAnyCtx_ho {ps : List Part} {s t : State} {o : Origin} {c : CtxNo} {f : Ctx → State} (hs : ∀ p ∈ [Part.mboxes, .keeper, .fabric, .recd, .faults, .frames, .snap], p ∈ ps)
    (h : OnlyChanges ps s t) (k : ∀ x, OnlyChanges ps s (f x)) : OnlyChanges ps s (t.onAnyCtx o c f) := by
  have hv : ∀ a b r, OnlyChanges ps s (t.verbDone o a b r) := fun a b r =>
    h.step (State.verbDone_changes _ _ _ _ _) fun p hp => hs p (by revert hp; cases p <;> decide)
  unfold State.onAnyCtx
  exact .ite (hv _ _ _) (.ite (h.step (State.refuseTenant_changes _ _) hs) (k _))

theorem execCtxQuery_changes (o : Origin) (s : State) : ∃ t, (execCtxQuery o s) = .next t ∧ OnlyChanges [.mboxes, .keeper, .fabric, .recd, .faults, .frames, .snap] s t := by
  refine ⟨_, rfl, ?_⟩
  apply State.runVerb_ho
  · decide
  · exact OnlyChanges.refl _ _
  · intro a2
    apply State.onAnyCtx_ho
    · decide
    · exact OnlyChanges.refl _ _
    · intro a3
      refine OnlyChanges.step ?_ (State.verbDone_changes _ _ _ _ _) (by decide)
      · exact OnlyChanges.refl _ _

theorem execLinkInfo_changes (o : Origin) (s : State) : ∃ t, (execLinkInfo o s) = .next t ∧ OnlyChanges [.mboxes, .keeper, .fabric, .recd] s t := by
  refine ⟨_, rfl, ?_⟩
  apply State.runVerb_ho
  · decide
  · exact OnlyChanges.refl _ _
  · intro a2
    extract_lets x3_0
    refine OnlyChanges.step ?_ (State.verbDone_changes _ _ _ _ _) (by decide)
    · exact OnlyChanges.refl _ _

theorem execEchoPeriodic_changes (l : Fin 18) (s : State) : ∃ t, (execEchoPeriodic l s) = .next t ∧ OnlyChanges [.fabric] s t := by
  refine ⟨_, rfl, ?_⟩
  extract_lets x2_0
  refine OnlyChanges.ite ?_ ?_
  · refine OnlyChanges.step ?_ (State.setLink_changes _ _ _) (by decide)
    · exact OnlyChanges.refl _ _
  · exact OnlyChanges.refl _ _

theorem State.fresh_changes (s : State) : OnlyChanges [.nextId] s (State.fresh s).2 := by
  unfold State.fresh
  dsimp only
  refine OnlyChanges.put_nextId _ ?_ (by decide)
  exact OnlyChanges.refl _ _

theorem State.startWalk_changes (s : State) (f : ℕ) (root : XRoot) (va : ℕ) (why : WalkFor) : MayChange [.nextId, .frames, .xlate] s (State.startWalk s f root va why) := by
  unfold State.startWalk
  refine MayChange.map (fun _ => ?_)
  · split
    · extract_lets x12_0
      refine OnlyChanges.step ?_ (State.modFrame_changes _ _ _) (by decide)
      · refine OnlyChanges.step ?_ (State.modXlate_changes _ _) (by decide)
        · refine OnlyChanges.step ?_ (Eq.mp (congrArg (OnlyChanges _ _) (congrArg Prod.snd (by assumption : _ = (_, _)))) (State.fresh_changes _)) (by decide)
          exact OnlyChanges.refl _ _

theorem State.demandWalk_changes (s : State) (f : ℕ) (c : CtxNo) (id : ℕ) (detail : ℕ) (root : XRoot) (va : ℕ) : MayChange [.nextId, .frames, .xlate] s (State.demandWalk s f c id detail root va) := by
  unfold State.demandWalk
  refine MayChange.ite ?_ ?_
  · exact MayChange.none _ _
  · refine MayChange.step ?_ (State.startWalk_changes _ _ _ _ _) (by decide)
    · exact OnlyChanges.refl _ _

theorem execPwrFailN_changes (s : State) : ∃ t, (execPwrFailN s) = .next t ∧ OnlyChanges [.power, .recd, .faults, .frames, .snap] s t := by
  refine ⟨_, rfl, ?_⟩
  extract_lets x1_0 x1_1
  have h3 : OnlyChanges [Part.power, Part.recd, Part.faults, Part.frames, Part.snap] s x1_0 := by
    unfold x1_0
    refine OnlyChanges.step ?_ (State.askFlush_changes _) (by decide)
    · refine OnlyChanges.step ?_ (State.raise_changes _ _) (by decide)
      · exact OnlyChanges.refl _ _
  refine OnlyChanges.ite ?_ ?_
  · exact OnlyChanges.refl _ _
  · refine OnlyChanges.put_power _ ?_ (by decide)
    exact h3

theorem State.stopFrame_changes (s : State) (f : ℕ) (cause : StopCause) : OnlyChanges [.frames] s (State.stopFrame s f cause) := by
  unfold State.stopFrame
  refine OnlyChanges.step ?_ (State.modFrame_changes _ _ _) (by decide)
  · exact OnlyChanges.refl _ _

theorem State.returnCredits_changes (s : State) (c : ChipNo) : OnlyChanges [.fabric] s (State.returnCredits s c) := by
  unfold State.returnCredits
  extract_lets x2_0
  refine OnlyChanges.ite ?_ ?_
  · exact OnlyChanges.refl _ _
  · refine OnlyChanges.step ?_ (State.sendMsg_changes _ _) (by decide)
    · refine OnlyChanges.step ?_ (State.modPartner_changes _ _ _) (by decide)
      · exact OnlyChanges.refl _ _

theorem State.freeCredit_changes (s : State) (c : ChipNo) : OnlyChanges [.fabric] s (State.freeCredit s c) := by
  unfold State.freeCredit
  extract_lets x2_0
  have h3 : OnlyChanges [Part.fabric] s x2_0 := by
    unfold x2_0
    refine OnlyChanges.step ?_ (State.modPartner_changes _ _ _) (by decide)
    · exact OnlyChanges.refl _ _
  refine OnlyChanges.ite ?_ ?_
  · refine OnlyChanges.step ?_ (State.returnCredits_changes _ _) (by decide)
    · exact h3
  · exact h3

theorem State.endWalk_changes (s : State) (id : ℕ) : OnlyChanges [.xlate] s (State.endWalk s id) := by
  unfold State.endWalk
  refine OnlyChanges.step ?_ (State.modXlate_changes _ _) (by decide)
  · exact OnlyChanges.refl _ _

theorem State.walkOn_changes (s : State) (w : Walk) (level : ℕ) (table : ℕ) : OnlyChanges [.frames, .xlate] s (State.walkOn s w level table) := by
  unfold State.walkOn
  refine OnlyChanges.step ?_ (State.modFrame_changes _ _ _) (by decide)
  · refine OnlyChanges.step ?_ (State.modXlate_changes _ _) (by decide)
    · exact OnlyChanges.refl _ _

theorem State.lastErr_changes (s : State) (c : CtxNo) (code : ℕ) (idx : BitVec 16) : OnlyChanges [.ctxs] s (State.lastErr s c code idx) := by
  unfold State.lastErr
  refine OnlyChanges.step ?_ (State.modCtx_changes _ _ _) (by decide)
  · exact OnlyChanges.refl _ _

theorem State.ringFault_changes (s : State) (c : CtxNo) (code : ℕ) (access : ℕ) (idx : BitVec 16) (drop : ℕ) : OnlyChanges [.ctxs, .chans, .tally, .readyQ, .faults, .frames, .snap, .recd] s (State.ringFault s c code access idx drop) := by
  unfold State.ringFault
  extract_lets x6_0 x6_1 x6_2
  have h9 : OnlyChanges [Part.ctxs, Part.chans, Part.tally, Part.readyQ, Part.faults, Part.frames, Part.snap, Part.recd] s x6_1 := by
    unfold x6_1
    refine OnlyChanges.step ?_ (State.modCtx_changes _ _ _) (by decide)
    · refine OnlyChanges.step ?_ (State.lastErr_changes _ _ _ _) (by decide)
      · exact OnlyChanges.refl _ _
  have h10 : OnlyChanges [Part.ctxs, Part.chans, Part.tally, Part.readyQ, Part.faults, Part.frames, Part.snap, Part.recd] s x6_2 := by
    unfold x6_2
    refine OnlyChanges.step ?_ (State.raise_changes _ _) (by decide)
    · exact h9
  refine OnlyChanges.step ?_ (State.stopIfDone_changes _ _) (by decide)
  · exact h10

theorem State.answer_changes (s : State) (m : Msg) (op : BitVec 5) (word : ℕ) (data : Bytes) : OnlyChanges [.fabric] s (State.answer s m op word data) := by
  unfold State.answer
  extract_lets x5_0
  refine OnlyChanges.step ?_ (State.sendMsg_changes _ _) (by decide)
  · exact OnlyChanges.refl _ _

theorem State.setRxGroup_changes (s : State) (c : ChipNo) (g : ℕ) (x : RxGroup) : OnlyChanges [.fabric] s (State.setRxGroup s c g x) := by
  unfold State.setRxGroup
  refine OnlyChanges.step ?_ (State.modFabric_changes _ _) (by decide)
  · exact OnlyChanges.refl _ _

theorem State.setSlotAt_changes (s : State) (f : ℕ) (n : ℕ) (q : Slot) : OnlyChanges [.frames] s (State.setSlotAt s f n q) := by
  unfold State.setSlotAt
  refine OnlyChanges.step ?_ (State.modFrame_changes _ _ _) (by decide)
  · exact OnlyChanges.refl _ _

theorem State.dropFabSlot_changes (s : State) (r : FabReq) : OnlyChanges [.frames] s (State.dropFabSlot s r) := by
  unfold State.dropFabSlot
  extract_lets x2_0
  split
  · refine OnlyChanges.step ?_ (State.setSlotAt_changes _ _ _ _) (by decide)
    · exact OnlyChanges.refl _ _
  · exact OnlyChanges.refl _ _

theorem State.dropLid_changes (s : State) (c : ChipNo) (g : ℕ) : OnlyChanges [.fabric, .frames] s (State.dropLid s c g) := by
  unfold State.dropLid
  extract_lets x3_0
  split
  · exact OnlyChanges.refl _ _
  · extract_lets x9_0
    have h10 : OnlyChanges [Part.fabric, Part.frames] s x9_0 := by
      unfold x9_0
      refine OnlyChanges.ite ?_ ?_
      · exact OnlyChanges.refl _ _
      · refine OnlyChanges.step ?_ (State.dropFabSlot_changes _ _) (by decide)
        · exact OnlyChanges.refl _ _
    refine OnlyChanges.step ?_ (State.setRxGroup_changes _ _ _ _) (by decide)
    · exact h10

theorem State.refuseReq_changes (s : State) (m : Msg) (reason : ℕ) (freed : Bool) : OnlyChanges [.fabric, .frames, .faults, .snap, .recd] s (State.refuseReq s m reason freed) := by
  unfold State.refuseReq
  extract_lets x4_0 x4_1 x4_2 x4_3 x4_4 x4_5
  have h10 : OnlyChanges [Part.fabric, Part.frames, Part.faults, Part.snap, Part.recd] s x4_1 := by
    unfold x4_1
    refine OnlyChanges.ite ?_ ?_
    · refine OnlyChanges.step ?_ (State.event_changes _ _) (by decide)
      · exact OnlyChanges.refl _ _
    · exact OnlyChanges.refl _ _
  have h11 : OnlyChanges [Part.fabric, Part.frames, Part.faults, Part.snap, Part.recd] s x4_2 := by
    unfold x4_2
    refine OnlyChanges.ite ?_ ?_
    · refine OnlyChanges.step ?_ (State.tenantAlarm_changes _ _ _ _ _ _ _) (by decide)
      · exact h10
    · exact h10
  have h12 : OnlyChanges [Part.fabric, Part.frames, Part.faults, Part.snap, Part.recd] s x4_4 := by
    unfold x4_4
    refine OnlyChanges.ite ?_ ?_
    · exact h11
    · refine OnlyChanges.step ?_ (State.setRxGroup_changes _ _ _ _) (by decide)
      · refine OnlyChanges.step ?_ (State.dropLid_changes _ _ _) (by decide)
        · exact h11
  have h13 : OnlyChanges [Part.fabric, Part.frames, Part.faults, Part.snap, Part.recd] s x4_5 := by
    unfold x4_5
    refine OnlyChanges.step ?_ (State.answer_changes _ _ _ _ _) (by decide)
    · exact h12
  refine OnlyChanges.ite ?_ ?_
  · exact h13
  · refine OnlyChanges.step ?_ (State.freeCredit_changes _ _) (by decide)
    · exact h13

theorem State.refuseWaiting_changes (s : State) (m : Msg) : OnlyChanges [.fabric, .frames, .faults, .snap, .recd] s (State.refuseWaiting s m) := by
  unfold State.refuseWaiting
  split
  · refine OnlyChanges.step ?_ (State.refuseReq_changes _ _ _ _) (by decide)
    · refine OnlyChanges.step ?_ (State.modLink_changes _ _ _) (by decide)
      · exact OnlyChanges.refl _ _
  · exact OnlyChanges.refl _ _

theorem State.walkFails_changes (s : State) (w : Walk) (kind : ℕ) : OnlyChanges [.ctxs, .chans, .tally, .readyQ, .faults, .frames, .snap, .recd, .fabric, .xlate] s (State.walkFails s w kind) := by
  unfold State.walkFails
  extract_lets x3_0 x3_1 x3_2
  have h6 : OnlyChanges [Part.ctxs, Part.chans, Part.tally, Part.readyQ, Part.faults, Part.frames, Part.snap, Part.recd, Part.fabric, Part.xlate] s x3_0 := by
    unfold x3_0
    refine OnlyChanges.step ?_ (State.endWalk_changes _ _) (by decide)
    · exact OnlyChanges.refl _ _
  split
  · exact h6
  · extract_lets x12_0 x12_1
    have h14 : OnlyChanges [Part.ctxs, Part.chans, Part.tally, Part.readyQ, Part.faults, Part.frames, Part.snap, Part.recd, Part.fabric, Part.xlate] s x12_1 := by
      unfold x12_1
      refine OnlyChanges.ite ?_ ?_
      · refine OnlyChanges.step ?_ (State.raiseWith_changes _ _ _ _) (by decide)
        · exact h6
      · exact h6
    refine OnlyChanges.step ?_ (State.refuseWaiting_changes _ _) (by decide)
    · exact h14
  · extract_lets x13_0 x13_1
    have h15 : OnlyChanges [Part.ctxs, Part.chans, Part.tally, Part.readyQ, Part.faults, Part.frames, Part.snap, Part.recd, Part.fabric, Part.xlate] s x13_1 := by
      unfold x13_1
      refine OnlyChanges.step ?_ (State.xlateFault_changes _ _ _ _ _ _ _) (by decide)
      · exact h6
    refine OnlyChanges.ite ?_ ?_
    · refine OnlyChanges.step ?_ (State.ringFault_changes _ _ _ _ _ _) (by decide)
      · exact h15
    · split
      · refine OnlyChanges.step ?_ (State.ringFault_changes _ _ _ _ _ _) (by decide)
        · refine OnlyChanges.step ?_ (State.dropSvc_changes _ _ _) (by decide)
          · exact h15
      · refine OnlyChanges.step ?_ (State.ringFault_changes _ _ _ _ _ _) (by decide)
        · exact h15
  · extract_lets x14_0
    have h15 : OnlyChanges [Part.ctxs, Part.chans, Part.tally, Part.readyQ, Part.faults, Part.frames, Part.snap, Part.recd, Part.fabric, Part.xlate] s x14_0 := by
      unfold x14_0
      refine OnlyChanges.ite ?_ ?_
      · refine OnlyChanges.step ?_ (State.xlateFault_changes _ _ _ _ _ _ _) (by decide)
        · exact h6
      · exact h6
    refine OnlyChanges.ite ?_ ?_
    · refine OnlyChanges.step ?_ (State.endWork_changes _ _ _ _ _) (by decide)
      · exact h15
    · split
      · exact h6
      · extract_lets x21_0 x21_1
        have h23 : OnlyChanges [Part.ctxs, Part.chans, Part.tally, Part.readyQ, Part.faults, Part.frames, Part.snap, Part.recd, Part.fabric, Part.xlate] s x21_1 := by
          unfold x21_1
          refine OnlyChanges.step ?_ (State.failAccess_changes _ _ _ _ _ _ _ _ _) (by decide)
          · exact h6
        refine OnlyChanges.step ?_ (State.mapFrames_changes _ _) (by decide)
        · exact h23

theorem State.walkReturn_changes (s : State) (f : ℕ) (n : ℕ) (id : ℕ) : OnlyChanges [.xlate, .frames, .ctxs, .chans, .tally, .readyQ, .faults, .snap, .recd, .fabric] s (State.walkReturn s f n id) := by
  unfold State.walkReturn
  extract_lets x4_0 x4_1 x4_2
  have h7 : OnlyChanges [Part.xlate, Part.frames, Part.ctxs, Part.chans, Part.tally, Part.readyQ, Part.faults, Part.snap, Part.recd, Part.fabric] s x4_1 := by
    unfold x4_1
    refine OnlyChanges.step ?_ (State.setSlotAt_changes _ _ _ _) (by decide)
    · exact OnlyChanges.refl _ _
  split
  · exact h7
  · refine OnlyChanges.ite ?_ ?_
    · split
      · refine OnlyChanges.step ?_ (State.walkOn_changes _ _ _ _) (by decide)
        · exact h7
      · refine OnlyChanges.step ?_ (State.walkFails_changes _ _ _) (by decide)
        · exact h7
    · split
      · refine OnlyChanges.step ?_ (State.walkFails_changes _ _ _) (by decide)
        · exact h7
      · refine OnlyChanges.step ?_ (State.walkFails_changes _ _ _) (by decide)
        · exact h7
      · refine OnlyChanges.step ?_ (State.walkOn_changes _ _ _ _) (by decide)
        · exact h7
      · refine OnlyChanges.step ?_ (State.endWalk_changes _ _) (by decide)
        · refine OnlyChanges.step ?_ (State.install_changes _ _ _) (by decide)
          · exact h7

theorem State.wakeTally_changes (s : State) : OnlyChanges [.power] s (State.wakeTally s) := by
  unfold State.wakeTally
  refine OnlyChanges.step ?_ (State.clockUp_changes _ _) (by decide)
  · refine OnlyChanges.step ?_ (State.powerUp_changes _ _) (by decide)
    · exact OnlyChanges.refl _ _

theorem State.holdOp_changes (s : State) (n : ℕ) (op : Instr) : OnlyChanges [.tally, .power] s (State.holdOp s n op) := by
  unfold State.holdOp
  refine OnlyChanges.step ?_ (State.modTally_changes _ _) (by decide)
  · refine OnlyChanges.step ?_ (State.wakeTally_changes _) (by decide)
    · exact OnlyChanges.refl _ _

theorem State.tpAnswer_changes (s : State) (n : ℕ) (refused : Bool) (rdata : ℕ) : OnlyChanges [.tally] s (State.tpAnswer s n refused rdata) := by
  unfold State.tpAnswer
  refine OnlyChanges.step ?_ (State.modTally_changes _ _) (by decide)
  · exact OnlyChanges.refl _ _

theorem State.tpOp_ho {ps : List Part} {s t : State} {n : Nat} {op : Instr} {r b : Bool} {f : State → State} (hs : ∀ p ∈ [Part.tally, .power], p ∈ ps)
    (h : OnlyChanges ps s t) (k : ∀ u, OnlyChanges ps s u → OnlyChanges ps s (f u)) : OnlyChanges ps s (t.tpOp n op r b f) := by
  unfold State.tpOp
  exact .ite h (.ite (h.step (State.holdOp_changes _ _ _) fun p hp => hs p (by revert hp; cases p <;> decide))
    (.ite (h.step (State.tpAnswer_changes _ _ _ _) fun p hp => hs p (by revert hp; cases p <;> decide)) (k _ h)))

theorem State.setCredit_changes (s : State) (c : ℕ) (v : CredVal) : OnlyChanges [.chans, .tally] s (State.setCredit s c v) := by
  unfold State.setCredit
  refine OnlyChanges.step ?_ (State.lendLower_changes _) (by decide)
  · refine OnlyChanges.step ?_ (State.movedIf_changes _ _) (by decide)
    · refine OnlyChanges.step ?_ (State.modTally_changes _ _) (by decide)
      · exact OnlyChanges.refl _ _

theorem execTpCreditGive_changes (core : Fin 256) (id : TallyNo) (arg : Word) (s : State) : ∃ t, (execTpCreditGive core id arg s) = .next t ∧ OnlyChanges [.tally, .power, .chans, .faults, .frames, .snap, .recd] s t := by
  refine ⟨_, rfl, ?_⟩
  extract_lets x4_0
  apply State.tpOp_ho
  · decide
  · exact OnlyChanges.refl _ _
  · intro a5
    intro a6
    extract_lets x7_0 x7_1 x7_2 x7_3
    have h11 : OnlyChanges [Part.tally, Part.power, Part.chans, Part.faults, Part.frames, Part.snap, Part.recd] s x7_2 := by
      unfold x7_2
      refine OnlyChanges.step ?_ (State.setCredit_changes _ _ _) (by decide)
      · exact a6
    have h12 : OnlyChanges [Part.tally, Part.power, Part.chans, Part.faults, Part.frames, Part.snap, Part.recd] s x7_3 := by
      unfold x7_3
      refine OnlyChanges.ite ?_ ?_
      · refine OnlyChanges.step ?_ (State.raise_changes _ _) (by decide)
        · exact h11
      · exact h11
    refine OnlyChanges.step ?_ (State.tpAnswer_changes _ _ _ _) (by decide)
    · exact h12

theorem State.setSlot_changes (s : State) (n : ℕ) (k : ℕ) (c : SlotCond) : OnlyChanges [.chans, .tally] s (State.setSlot s n k c) := by
  unfold State.setSlot
  refine OnlyChanges.step ?_ (State.lendLower_changes _) (by decide)
  · refine OnlyChanges.step ?_ (State.modTally_changes _ _) (by decide)
    · exact OnlyChanges.refl _ _

theorem execTpDisarmSlot_changes (core : Fin 256) (slot : Fin 4) (arg : Word) (s : State) : ∃ t, (execTpDisarmSlot core slot arg s) = .next t ∧ OnlyChanges [.chans, .tally, .power] s t := by
  refine ⟨_, rfl, ?_⟩
  apply State.tpOp_ho
  · decide
  · exact OnlyChanges.refl _ _
  · intro a4
    intro a5
    refine OnlyChanges.step ?_ (State.tpAnswer_changes _ _ _ _) (by decide)
    · refine OnlyChanges.step ?_ (State.setSlot_changes _ _ _ _) (by decide)
      · exact a5

theorem execTpReadTally_changes (core : Fin 256) (id : TallyNo) (arg : Word) (s : State) : ∃ t, (execTpReadTally core id arg s) = .next t ∧ OnlyChanges [.tally, .power] s t := by
  refine ⟨_, rfl, ?_⟩
  apply State.tpOp_ho
  · decide
  · exact OnlyChanges.refl _ _
  · intro a4
    intro a5
    refine OnlyChanges.step ?_ (State.tpAnswer_changes _ _ _ _) (by decide)
    · exact a5

theorem execTpArmTallyWait_changes (core : Fin 256) (id : TallyNo) (slot : Fin 4) (arg : Word) (s : State) : ∃ t, (execTpArmTallyWait core id slot arg s) = .next t ∧ OnlyChanges [.chans, .tally, .power] s t := by
  refine ⟨_, rfl, ?_⟩
  apply State.tpOp_ho
  · decide
  · exact OnlyChanges.refl _ _
  · intro a5
    intro a6
    refine OnlyChanges.step ?_ (State.tpAnswer_changes _ _ _ _) (by decide)
    · refine OnlyChanges.step ?_ (State.setSlot_changes _ _ _ _) (by decide)
      · exact a6

theorem execTpArmCreditWait_changes (core : Fin 256) (id : TallyNo) (slot : Fin 4) (arg : Word) (s : State) : ∃ t, (execTpArmCreditWait core id slot arg s) = .next t ∧ OnlyChanges [.chans, .tally, .power] s t := by
  refine ⟨_, rfl, ?_⟩
  apply State.tpOp_ho
  · decide
  · exact OnlyChanges.refl _ _
  · intro a5
    intro a6
    refine OnlyChanges.step ?_ (State.tpAnswer_changes _ _ _ _) (by decide)
    · refine OnlyChanges.step ?_ (State.setSlot_changes _ _ _ _) (by decide)
      · exact a6

theorem execTpCreditTake_changes (core : Fin 256) (id : TallyNo) (arg : Word) (s : State) : ∃ t, (execTpCreditTake core id arg s) = .next t ∧ OnlyChanges [.tally, .power, .chans, .faults, .frames, .snap, .recd] s t := by
  refine ⟨_, rfl, ?_⟩
  extract_lets x4_0
  apply State.tpOp_ho
  · decide
  · exact OnlyChanges.refl _ _
  · intro a5
    intro a6
    extract_lets x7_0 x7_1 x7_2
    have h10 : OnlyChanges [Part.tally, Part.power, Part.chans, Part.faults, Part.frames, Part.snap, Part.recd] s x7_1 := by
      unfold x7_1
      refine OnlyChanges.step ?_ (State.modTally_changes _ _) (by decide)
      · exact a6
    refine OnlyChanges.ite ?_ ?_
    · refine OnlyChanges.step ?_ (State.tpAnswer_changes _ _ _ _) (by decide)
      · refine OnlyChanges.step ?_ (State.raise_changes _ _) (by decide)
        · exact h10
    · refine OnlyChanges.step ?_ (State.tpAnswer_changes _ _ _ _) (by decide)
      · refine OnlyChanges.step ?_ (State.setCredit_changes _ _ _) (by decide)
        · exact a6

theorem execTpIncrement_changes (core : Fin 256) (id : TallyNo) (arg : Word) (s : State) : ∃ t, (execTpIncrement core id arg s) = .next t ∧ OnlyChanges [.chans, .tally, .faults, .frames, .snap, .recd, .fabric, .power] s t := by
  refine ⟨_, rfl, ?_⟩
  apply State.tpOp_ho
  · decide
  · exact OnlyChanges.refl _ _
  · intro a4
    intro a5
    refine OnlyChanges.step ?_ (State.tpAnswer_changes _ _ _ _) (by decide)
    · refine OnlyChanges.step ?_ (State.increment_changes _ _ _ _) (by decide)
      · exact a5

theorem execTpReadCredit_changes (core : Fin 256) (id : TallyNo) (arg : Word) (s : State) : ∃ t, (execTpReadCredit core id arg s) = .next t ∧ OnlyChanges [.tally, .power] s t := by
  refine ⟨_, rfl, ?_⟩
  apply State.tpOp_ho
  · decide
  · exact OnlyChanges.refl _ _
  · intro a4
    intro a5
    refine OnlyChanges.step ?_ (State.tpAnswer_changes _ _ _ _) (by decide)
    · exact a5

theorem State.runHeld_changes (s : State) (op : Instr) : OnlyChanges [.chans, .frames, .tally, .fabric, .faults, .power, .snap, .recd] s (State.runHeld s op) := by
  have h : ∀ {qs r}, (∃ t, r = .next t ∧ OnlyChanges qs s t) → (∀ p ∈ qs, p ∈ [.chans, .frames, .tally, .fabric, .faults, .power, .snap, .recd]) → OnlyChanges [.chans, .frames, .tally, .fabric, .faults, .power, .snap, .recd] s (s.after r) := by
    rintro qs r ⟨t, rfl, k⟩ hq
    exact k.mono hq
  unfold State.runHeld
  split
  · exact h (execTpReadTally_changes _ _ _ _) (by decide)
  · exact h (execTpIncrement_changes _ _ _ _) (by decide)
  · exact h (execTpArmTallyWait_changes _ _ _ _ _) (by decide)
  · exact h (execTpCreditGive_changes _ _ _ _) (by decide)
  · exact h (execTpCreditTake_changes _ _ _ _) (by decide)
  · exact h (execTpArmCreditWait_changes _ _ _ _ _) (by decide)
  · exact h (execTpDisarmSlot_changes _ _ _ _) (by decide)
  · exact h (execTpReadCredit_changes _ _ _ _) (by decide)
  · exact OnlyChanges.refl _ _

theorem State.runHeldOps_changes (s : State) : OnlyChanges [.chans, .frames, .tally, .fabric, .faults, .power, .snap, .recd] s (State.runHeldOps s) := by
  unfold State.runHeldOps
  extract_lets x1_0
  refine OnlyChanges.foldl _ (fun t2 _ => ?_) _ _ ?_
  · refine OnlyChanges.step ?_ (State.runHeld_changes _ _) (by decide)
    · exact OnlyChanges.refl _ _
  · refine OnlyChanges.step ?_ (State.modTally_changes _ _) (by decide)
    · exact OnlyChanges.refl _ _

theorem State.tallyPowered_changes (s : State) : OnlyChanges [.tally] s (State.tallyPowered s) := by
  unfold State.tallyPowered
  refine OnlyChanges.step ?_ (State.modTally_changes _ _) (by decide)
  · exact OnlyChanges.refl _ _

theorem State.draw_changes (s : State) : OnlyChanges [.free] s (State.draw s).2 := by
  unfold State.draw
  dsimp only
  refine OnlyChanges.put_free _ ?_ (by decide)
  exact OnlyChanges.refl _ _

theorem State.lossCause_changes (s : State) (a : Option ℕ) : OnlyChanges [.free] s (State.lossCause s a).2 := by
  unfold State.lossCause
  split
  · dsimp only
    exact OnlyChanges.refl _ _
  · dsimp only
    refine OnlyChanges.step ?_ (State.draw_changes _) (by decide)
    · exact OnlyChanges.refl _ _

theorem State.partnerLost_changes (s : State) (c : ChipNo) : OnlyChanges [.fabric] s (State.partnerLost s c) := by
  unfold State.partnerLost
  refine OnlyChanges.ite ?_ ?_
  · exact OnlyChanges.refl _ _
  · refine OnlyChanges.step ?_ (State.modFabric_changes _ _) (by decide)
    · refine OnlyChanges.step ?_ (State.modPartner_changes _ _ _) (by decide)
      · exact OnlyChanges.refl _ _

theorem State.verbEnd_changes (s : State) (o : Origin) (code : ℕ) (status : ℕ) (detail : ℕ) (res : Bytes) : OnlyChanges [.mboxes, .keeper, .fabric, .recd] s (State.verbEnd s o code status detail res) := by
  unfold State.verbEnd
  split
  · refine OnlyChanges.ite ?_ ?_
    · exact OnlyChanges.refl _ _
    · refine OnlyChanges.ite ?_ ?_
      · refine OnlyChanges.step ?_ (State.finish_changes _ _ _ _ _) (by decide)
        · exact OnlyChanges.refl _ _
      · refine OnlyChanges.step ?_ (State.finish_changes _ _ _ _ _) (by decide)
        · exact OnlyChanges.refl _ _
  · exact OnlyChanges.refl _ _

theorem State.failRemote_changes (s : State) (c : CtxNo) (id : ℕ) (status : ℕ) (chip : ChipNo) : OnlyChanges [.frames, .fabric, .ctxs] s (State.failRemote s c id status chip) := by
  unfold State.failRemote
  refine OnlyChanges.step ?_ (State.endWork_changes _ _ _ _ _) (by decide)
  · exact OnlyChanges.refl _ _

theorem State.failRead_changes (s : State) (chip : ChipNo) (t : ℕ) (status : ℕ) (detail : ChipNo) : OnlyChanges [.frames, .fabric, .ctxs] s (State.failRead s chip t status detail) := by
  unfold State.failRead
  extract_lets x5_0 x5_1
  have h7 : OnlyChanges [Part.frames, Part.fabric, Part.ctxs] s x5_1 := by
    unfold x5_1
    refine OnlyChanges.step ?_ (State.setTxRead_changes _ _ _ _) (by decide)
    · refine OnlyChanges.step ?_ (State.failRemote_changes _ _ _ _ _) (by decide)
      · exact OnlyChanges.refl _ _
  refine OnlyChanges.ite ?_ ?_
  · exact OnlyChanges.refl _ _
  · refine OnlyChanges.step ?_ (State.setSlotAt_changes _ _ _ _) (by decide)
    · exact h7

theorem State.failGroup_changes (s : State) (chip : ChipNo) (g : ℕ) (status : ℕ) (detail : ChipNo) : OnlyChanges [.frames, .fabric, .ctxs] s (State.failGroup s chip g status detail) := by
  unfold State.failGroup
  extract_lets x5_0 x5_1
  have h7 : OnlyChanges [Part.frames, Part.fabric, Part.ctxs] s x5_1 := by
    unfold x5_1
    refine OnlyChanges.step ?_ (State.failRemote_changes _ _ _ _ _) (by decide)
    · exact OnlyChanges.refl _ _
  refine OnlyChanges.ite ?_ ?_
  · exact OnlyChanges.refl _ _
  · refine OnlyChanges.ite ?_ ?_
    · refine OnlyChanges.step ?_ (State.abandonGroup_changes _ _ _) (by decide)
      · exact h7
    · exact h7

theorem State.noRoute_changes (s : State) (c : ChipNo) : OnlyChanges [.frames, .fabric, .ctxs] s (State.noRoute s c) := by
  unfold State.noRoute
  refine OnlyChanges.ite ?_ ?_
  · exact OnlyChanges.refl _ _
  · refine OnlyChanges.foldl _ (fun t2 _ => ?_) _ _ ?_
    · refine OnlyChanges.ite ?_ ?_
      · refine OnlyChanges.step ?_ (State.failRead_changes _ _ _ _ _) (by decide)
        · exact OnlyChanges.refl _ _
      · refine OnlyChanges.step ?_ (State.failGroup_changes _ _ _ _ _) (by decide)
        · exact OnlyChanges.refl _ _
    · exact OnlyChanges.refl _ _

theorem State.readAgain_changes (s : State) (c : ChipNo) (t : ℕ) : OnlyChanges [.frames, .fabric, .ctxs] s (State.readAgain s c t) := by
  unfold State.readAgain
  extract_lets x3_0
  split
  · refine OnlyChanges.ite ?_ ?_
    · refine OnlyChanges.step ?_ (State.failRead_changes _ _ _ _ _) (by decide)
      · exact OnlyChanges.refl _ _
    · refine OnlyChanges.step ?_ (State.sendMsg_changes _ _) (by decide)
      · refine OnlyChanges.step ?_ (State.setTxRead_changes _ _ _ _) (by decide)
        · exact OnlyChanges.refl _ _
  · exact OnlyChanges.refl _ _

theorem State.dropTransit_changes (s : State) (x : Link) : OnlyChanges [.fabric] s (State.dropTransit s x) := by
  unfold State.dropTransit
  extract_lets x2_0 x2_1
  refine OnlyChanges.ite ?_ ?_
  · exact OnlyChanges.refl _ _
  · refine OnlyChanges.foldl _ (fun t4 _ => ?_) _ _ ?_
    · refine OnlyChanges.step ?_ (State.modLink_changes _ _ _) (by decide)
      · exact OnlyChanges.refl _ _
    · exact OnlyChanges.refl _ _

theorem State.bufSettle_changes (s : State) (l : ℕ) : OnlyChanges [.fabric] s (State.bufSettle s l) := by
  unfold State.bufSettle
  extract_lets x2_0
  refine OnlyChanges.ite ?_ ?_
  · exact OnlyChanges.refl _ _
  · refine OnlyChanges.step ?_ (State.setLink_changes _ _ _) (by decide)
    · exact OnlyChanges.refl _ _

theorem State.bufSettleAll_changes (s : State) : OnlyChanges [.fabric] s (State.bufSettleAll s) := by
  unfold State.bufSettleAll
  refine OnlyChanges.foldl _ (fun t1 _ => ?_) _ _ ?_
  · refine OnlyChanges.step ?_ (State.bufSettle_changes _ _) (by decide)
    · exact OnlyChanges.refl _ _
  · exact OnlyChanges.refl _ _

theorem State.linkLost_changes (s : State) (l : ℕ) (x : Link) (cause : ℕ) (fault : Bool) : OnlyChanges [.keeper, .mboxes, .ctxs, .frames, .fabric, .faults, .snap, .recd] s (State.linkLost s l x cause fault) := by
  unfold State.linkLost
  extract_lets x5_0 x5_1 x5_2 x5_3 x5_4 x5_5 x5_6 x5_7 x5_8 x5_9
  have h15 : OnlyChanges [Part.keeper, Part.mboxes, Part.ctxs, Part.frames, Part.fabric, Part.faults, Part.snap, Part.recd] s x5_4 := by
    unfold x5_4
    refine OnlyChanges.step ?_ (State.bufSettleAll_changes _) (by decide)
    · refine OnlyChanges.step ?_ (State.dropTransit_changes _ _) (by decide)
      · refine OnlyChanges.step ?_ (State.setLink_changes _ _ _) (by decide)
        · exact OnlyChanges.refl _ _
  have h16 : OnlyChanges [Part.keeper, Part.mboxes, Part.ctxs, Part.frames, Part.fabric, Part.faults, Part.snap, Part.recd] s x5_5 := by
    unfold x5_5
    refine OnlyChanges.ite ?_ ?_
    · refine OnlyChanges.step ?_ (State.raiseWith_changes _ _ _ _) (by decide)
      · exact h15
    · refine OnlyChanges.step ?_ (State.event_changes _ _) (by decide)
      · exact h15
  have h17 : OnlyChanges [Part.keeper, Part.mboxes, Part.ctxs, Part.frames, Part.fabric, Part.faults, Part.snap, Part.recd] s x5_6 := by
    unfold x5_6
    refine OnlyChanges.ite ?_ ?_
    · refine OnlyChanges.step ?_ (State.partnerLost_changes _ _) (by decide)
      · exact h16
    · exact h16
  have h18 : OnlyChanges [Part.keeper, Part.mboxes, Part.ctxs, Part.frames, Part.fabric, Part.faults, Part.snap, Part.recd] s x5_7 := by
    unfold x5_7
    refine OnlyChanges.foldl _ (fun t18 _ => ?_) _ _ ?_
    · refine OnlyChanges.step ?_ (State.failGroup_changes _ _ _ _ _) (by decide)
      · exact OnlyChanges.refl _ _
    · exact h17
  have h19 : OnlyChanges [Part.keeper, Part.mboxes, Part.ctxs, Part.frames, Part.fabric, Part.faults, Part.snap, Part.recd] s x5_8 := by
    unfold x5_8
    refine OnlyChanges.foldl _ (fun t19 _ => ?_) _ _ ?_
    · refine OnlyChanges.step ?_ (State.readAgain_changes _ _ _) (by decide)
      · exact OnlyChanges.refl _ _
    · exact h18
  have h20 : OnlyChanges [Part.keeper, Part.mboxes, Part.ctxs, Part.frames, Part.fabric, Part.faults, Part.snap, Part.recd] s x5_9 := by
    unfold x5_9
    refine OnlyChanges.foldl _ (fun t20 _ => ?_) _ _ ?_
    · refine OnlyChanges.step ?_ (State.noRoute_changes _ _) (by decide)
      · exact OnlyChanges.refl _ _
    · exact h19
  split
  · refine OnlyChanges.step ?_ (State.verbEnd_changes _ _ _ _ _ _) (by decide)
    · exact h20
  · exact h20

theorem State.linkDown_changes (s : State) (l : ℕ) (cause : Option ℕ) (fault : Bool) : OnlyChanges [.fabric, .free, .mboxes, .keeper, .recd, .frames, .ctxs, .faults, .snap] s (State.linkDown s l cause fault) := by
  unfold State.linkDown
  extract_lets x4_0 x4_1
  have h6 : OnlyChanges [Part.fabric, Part.free, Part.mboxes, Part.keeper, Part.recd, Part.frames, Part.ctxs, Part.faults, Part.snap] s x4_1.2 := by
    unfold x4_1
    refine OnlyChanges.step ?_ (State.lossCause_changes _ _) (by decide)
    · exact OnlyChanges.refl _ _
  refine OnlyChanges.ite ?_ ?_
  · exact OnlyChanges.refl _ _
  · refine OnlyChanges.step ?_ (State.linkLost_changes _ _ _ _ _) (by decide)
    · exact h6

theorem State.linkProtocol_changes (s : State) (l : ℕ) : OnlyChanges [.faults, .frames, .snap, .recd] s (State.linkProtocol s l) := by
  unfold State.linkProtocol
  refine OnlyChanges.step ?_ (State.raise_changes _ _) (by decide)
  · exact OnlyChanges.refl _ _

theorem State.deriveKeys_changes (s : State) (l : ℕ) : OnlyChanges [.fabric] s (State.deriveKeys s l) := by
  unfold State.deriveKeys
  extract_lets x2_0 x2_1 x2_2
  split
  · exact OnlyChanges.refl _ _
  · refine OnlyChanges.step ?_ (State.setLink_changes _ _ _) (by decide)
    · exact OnlyChanges.refl _ _

theorem State.barrierResend_changes (s : State) (c : ChipNo) : OnlyChanges [.tally, .fabric] s (State.barrierResend s c) := by
  unfold State.barrierResend
  refine OnlyChanges.foldl _ (fun t2 _ => ?_) _ _ ?_
  · extract_lets x4_0 x4_1 x4_2 x4_3 x4_4 x4_5 x4_6 x4_7 x4_8
    have h13 : OnlyChanges [Part.tally, Part.fabric] t2 x4_7 := by
      unfold x4_7
      refine OnlyChanges.step ?_ (State.setBarrier_changes _ _ _) (by decide)
      · exact OnlyChanges.refl _ _
    have h14 : OnlyChanges [Part.tally, Part.fabric] t2 x4_8 := by
      unfold x4_8
      refine OnlyChanges.ite ?_ ?_
      · exact h13
      · refine OnlyChanges.step ?_ (State.sendMsg_changes _ _) (by decide)
        · exact h13
    refine OnlyChanges.ite ?_ ?_
    · exact OnlyChanges.refl _ _
    · refine OnlyChanges.foldl _ (fun t15 _ => ?_) _ _ ?_
      · refine OnlyChanges.step ?_ (State.sendMsg_changes _ _) (by decide)
        · exact OnlyChanges.refl _ _
      · exact h14
  · exact OnlyChanges.refl _ _

theorem State.entropy_changes (s : State) : OnlyChanges [.free] s (State.entropy s).2 := by
  unfold State.entropy
  extract_lets x1_0 x1_1
  have h3 : OnlyChanges [Part.free] s x1_0.2 := by
    unfold x1_0
    refine OnlyChanges.step ?_ (State.draw_changes _) (by decide)
    · exact OnlyChanges.refl _ _
  dsimp only
  exact h3

theorem State.setSwarm_changes (s : State) (n : ℕ) (x : Swarm) : OnlyChanges [.swarms] s (State.setSwarm s n x) := by
  unfold State.setSwarm
  refine OnlyChanges.put_swarms _ ?_ (by decide)
  exact OnlyChanges.refl _ _

theorem State.zeroiseKeeper_changes (s : State) : OnlyChanges [.fabric, .keeper, .swarms] s (State.zeroiseKeeper s) := by
  unfold State.zeroiseKeeper
  extract_lets x1_0 x1_1
  have h3 : OnlyChanges [Part.fabric, Part.keeper, Part.swarms] s x1_0 := by
    unfold x1_0
    refine OnlyChanges.step ?_ (State.modKeeper_changes _ _) (by decide)
    · exact OnlyChanges.refl _ _
  have h4 : OnlyChanges [Part.fabric, Part.keeper, Part.swarms] s x1_1 := by
    unfold x1_1
    refine OnlyChanges.foldl _ (fun t4 _ => ?_) _ _ ?_
    · extract_lets x6_0
      refine OnlyChanges.step ?_ (State.setSwarm_changes _ _ _) (by decide)
      · exact OnlyChanges.refl _ _
    · exact h3
  refine OnlyChanges.foldl _ (fun t5 _ => ?_) _ _ ?_
  · refine OnlyChanges.step ?_ (State.modLink_changes _ _ _) (by decide)
    · exact OnlyChanges.refl _ _
  · exact h4

theorem State.healthFailed_changes (s : State) : OnlyChanges [.keeper, .frames, .swarms, .fabric, .faults, .sec, .snap, .recd] s (State.healthFailed s) := by
  unfold State.healthFailed
  extract_lets x1_0
  have h2 : OnlyChanges [Part.keeper, Part.frames, Part.swarms, Part.fabric, Part.faults, Part.sec, Part.snap, Part.recd] s x1_0 := by
    unfold x1_0
    refine OnlyChanges.put_sec _ ?_ (by decide)
    exact OnlyChanges.refl _ _
  refine OnlyChanges.step ?_ (State.zeroiseKeeper_changes _) (by decide)
  · refine OnlyChanges.step ?_ (State.raise_changes _ _) (by decide)
    · exact h2

theorem State.reseed_changes (s : State) : OnlyChanges [.keeper, .frames, .swarms, .fabric, .faults, .sec, .snap, .recd, .free] s (State.reseed s) := by
  unfold State.reseed
  extract_lets x1_0
  have h2 : OnlyChanges [Part.keeper, Part.frames, Part.swarms, Part.fabric, Part.faults, Part.sec, Part.snap, Part.recd, Part.free] s x1_0.2 := by
    unfold x1_0
    refine OnlyChanges.step ?_ (State.entropy_changes _) (by decide)
    · exact OnlyChanges.refl _ _
  refine OnlyChanges.ite ?_ ?_
  · refine OnlyChanges.step ?_ (State.modKeeper_changes _ _) (by decide)
    · exact h2
  · refine OnlyChanges.step ?_ (State.healthFailed_changes _) (by decide)
    · exact h2

theorem State.generate_changes (s : State) : OnlyChanges [.keeper, .frames, .swarms, .fabric, .faults, .sec, .snap, .recd, .free] s (State.generate s).2 := by
  unfold State.generate
  extract_lets x1_0 x1_1
  have h3 : OnlyChanges [Part.keeper, Part.frames, Part.swarms, Part.fabric, Part.faults, Part.sec, Part.snap, Part.recd, Part.free] s x1_1 := by
    unfold x1_1
    refine OnlyChanges.step ?_ (State.modKeeper_changes _ _) (by decide)
    · exact OnlyChanges.refl _ _
  dsimp only
  refine OnlyChanges.ite ?_ ?_
  · refine OnlyChanges.step ?_ (State.reseed_changes _) (by decide)
    · exact h3
  · exact h3

theorem State.sendRecord_changes (s : State) (l : ℕ) (epub : Bytes) : OnlyChanges [.free, .keeper, .fabric, .frames, .swarms, .faults, .sec, .snap, .recd] s (State.sendRecord s l epub) := by
  unfold State.sendRecord
  extract_lets x3_0 x3_1 x3_2 x3_3 x3_4
  have h8 : OnlyChanges [Part.free, Part.keeper, Part.fabric, Part.frames, Part.swarms, Part.faults, Part.sec, Part.snap, Part.recd] s x3_2.2 := by
    unfold x3_2
    refine OnlyChanges.step ?_ (State.generate_changes _) (by decide)
    · exact OnlyChanges.refl _ _
  have h9 : OnlyChanges [Part.free, Part.keeper, Part.fabric, Part.frames, Part.swarms, Part.faults, Part.sec, Part.snap, Part.recd] s x3_4 := by
    unfold x3_4
    refine OnlyChanges.step ?_ (State.setLink_changes _ _ _) (by decide)
    · exact h8
  refine OnlyChanges.step ?_ (State.modLink_changes _ _ _) (by decide)
  · exact h9

theorem State.waggleResend_changes (s : State) (l : ℕ) : OnlyChanges [.free, .keeper, .fabric, .frames, .swarms, .faults, .sec, .snap, .recd] s (State.waggleResend s l) := by
  unfold State.waggleResend
  extract_lets x2_0 x2_1
  refine OnlyChanges.ite ?_ ?_
  · refine OnlyChanges.step ?_ (State.sendRecord_changes _ _ _) (by decide)
    · exact OnlyChanges.refl _ _
  · exact OnlyChanges.refl _ _

theorem State.resendAll_changes (s : State) : OnlyChanges [.free, .keeper, .fabric, .frames, .swarms, .faults, .sec, .snap, .recd] s (State.resendAll s) := by
  unfold State.resendAll
  refine OnlyChanges.foldl _ (fun t1 _ => ?_) _ _ ?_
  · refine OnlyChanges.step ?_ (State.waggleResend_changes _ _) (by decide)
    · exact OnlyChanges.refl _ _
  · exact OnlyChanges.refl _ _

theorem State.wagglePass_changes (s : State) (l : ℕ) (r : Bytes) : OnlyChanges [.fabric, .tally, .free, .keeper, .recd, .ctxs, .frames, .swarms, .faults, .sec, .snap] s (State.wagglePass s l r) := by
  unfold State.wagglePass
  extract_lets x3_0 x3_1 x3_2 x3_3 x3_4 x3_5
  have h9 : OnlyChanges [Part.fabric, Part.tally, Part.free, Part.keeper, Part.recd, Part.ctxs, Part.frames, Part.swarms, Part.faults, Part.sec, Part.snap] s x3_3 := by
    unfold x3_3
    refine OnlyChanges.step ?_ (State.setLink_changes _ _ _) (by decide)
    · exact OnlyChanges.refl _ _
  have h10 : OnlyChanges [Part.fabric, Part.tally, Part.free, Part.keeper, Part.recd, Part.ctxs, Part.frames, Part.swarms, Part.faults, Part.sec, Part.snap] s x3_4 := by
    unfold x3_4
    refine OnlyChanges.ite ?_ ?_
    · refine OnlyChanges.step ?_ (State.deriveKeys_changes _ _) (by decide)
      · exact h9
    · exact h9
  have h11 : OnlyChanges [Part.fabric, Part.tally, Part.free, Part.keeper, Part.recd, Part.ctxs, Part.frames, Part.swarms, Part.faults, Part.sec, Part.snap] s x3_5 := by
    unfold x3_5
    refine OnlyChanges.step ?_ (State.modLink_changes _ _ _) (by decide)
    · exact h10
  refine OnlyChanges.ite ?_ ?_
  · refine OnlyChanges.step ?_ (State.noRoute_changes _ _) (by decide)
    · exact h10
  · refine OnlyChanges.step ?_ (State.resendAll_changes _) (by decide)
    · refine OnlyChanges.step ?_ (State.noRoute_changes _ _) (by decide)
      · refine OnlyChanges.step ?_ (State.pump_changes _ _) (by decide)
        · refine OnlyChanges.step ?_ (State.barrierResend_changes _ _) (by decide)
          · refine OnlyChanges.step ?_ (State.event_changes _ _) (by decide)
            · exact h11

theorem State.judge_changes (s : State) (l : ℕ) : OnlyChanges [.fabric, .free, .mboxes, .keeper, .recd, .frames, .ctxs, .faults, .snap, .tally, .swarms, .sec] s (State.judge s l) := by
  unfold State.judge
  extract_lets x2_0 x2_1
  split
  · exact OnlyChanges.refl _ _
  · extract_lets x9_0 x9_1
    have h11 : OnlyChanges [Part.fabric, Part.free, Part.mboxes, Part.keeper, Part.recd, Part.frames, Part.ctxs, Part.faults, Part.snap, Part.tally, Part.swarms, Part.sec] s x9_1 := by
      unfold x9_1
      refine OnlyChanges.step ?_ (State.modLink_changes _ _ _) (by decide)
      · exact OnlyChanges.refl _ _
    refine OnlyChanges.ite ?_ ?_
    · exact OnlyChanges.refl _ _
    · refine OnlyChanges.ite ?_ ?_
      · refine OnlyChanges.step ?_ (State.linkDown_changes _ _ _ _) (by decide)
        · refine OnlyChanges.step ?_ (State.linkProtocol_changes _ _) (by decide)
          · exact OnlyChanges.refl _ _
      · split
        · refine OnlyChanges.step ?_ (State.waggleFail_changes _ _ _) (by decide)
          · exact h11
        · refine OnlyChanges.step ?_ (State.wagglePass_changes _ _ _) (by decide)
          · exact h11

theorem State.ephemeral_changes (s : State) : OnlyChanges [.free, .keeper, .frames, .swarms, .fabric, .faults, .sec, .snap, .recd] s (State.ephemeral s).2 := by
  unfold State.ephemeral
  extract_lets x1_0
  have h2 : OnlyChanges [Part.free, Part.keeper, Part.frames, Part.swarms, Part.fabric, Part.faults, Part.sec, Part.snap, Part.recd] s x1_0.2 := by
    unfold x1_0
    refine OnlyChanges.step ?_ (State.generate_changes _) (by decide)
    · exact OnlyChanges.refl _ _
  dsimp only
  exact h2

theorem State.waggleStart_changes (s : State) (l : ℕ) : OnlyChanges [.fabric, .free, .keeper, .frames, .swarms, .faults, .sec, .snap, .recd] s (State.waggleStart s l) := by
  unfold State.waggleStart
  extract_lets x2_0 x2_1
  have h4 : OnlyChanges [Part.fabric, Part.free, Part.keeper, Part.frames, Part.swarms, Part.faults, Part.sec, Part.snap, Part.recd] s x2_1.2 := by
    unfold x2_1
    refine OnlyChanges.step ?_ (State.ephemeral_changes _) (by decide)
    · exact OnlyChanges.refl _ _
  refine OnlyChanges.ite ?_ ?_
  · exact OnlyChanges.refl _ _
  · refine OnlyChanges.ite ?_ ?_
    · refine OnlyChanges.step ?_ (State.sendRecord_changes _ _ _) (by decide)
      · exact OnlyChanges.refl _ _
    · refine OnlyChanges.step ?_ (State.sendRecord_changes _ _ _) (by decide)
      · refine OnlyChanges.step ?_ (State.modLink_changes _ _ _) (by decide)
        · exact h4

theorem State.enterWaggle_changes (s : State) (l : ℕ) : OnlyChanges [.fabric, .free, .mboxes, .keeper, .recd, .frames, .ctxs, .faults, .snap, .tally, .swarms, .sec] s (State.enterWaggle s l) := by
  unfold State.enterWaggle
  refine OnlyChanges.step ?_ (State.judge_changes _ _) (by decide)
  · refine OnlyChanges.step ?_ (State.waggleStart_changes _ _) (by decide)
    · exact OnlyChanges.refl _ _

theorem State.waggleAll_changes (s : State) : OnlyChanges [.fabric, .free, .mboxes, .keeper, .recd, .frames, .ctxs, .faults, .snap, .tally, .swarms, .sec] s (State.waggleAll s) := by
  unfold State.waggleAll
  refine OnlyChanges.foldl _ (fun t1 _ => ?_) _ _ ?_
  · refine OnlyChanges.ite ?_ ?_
    · refine OnlyChanges.step ?_ (State.enterWaggle_changes _ _) (by decide)
      · exact OnlyChanges.refl _ _
    · exact OnlyChanges.refl _ _
  · exact OnlyChanges.refl _ _

theorem State.idleQuadrant_changes (s : State) (q : ℕ) : OnlyChanges [.fabric] s (State.idleQuadrant s q) := by
  unfold State.idleQuadrant
  refine OnlyChanges.foldl _ (fun t2 _ => ?_) _ _ ?_
  · refine OnlyChanges.step ?_ (State.modLink_changes _ _ _) (by decide)
    · exact OnlyChanges.refl _ _
  · exact OnlyChanges.refl _ _

theorem State.linkStop_changes (s : State) (l : ℕ) : OnlyChanges [.fabric, .free, .mboxes, .keeper, .recd, .frames, .ctxs, .faults, .snap] s (State.linkStop s l) := by
  unfold State.linkStop
  extract_lets x2_0
  refine OnlyChanges.ite ?_ ?_
  · refine OnlyChanges.step ?_ (State.setLink_changes _ _ _) (by decide)
    · exact OnlyChanges.refl _ _
  · refine OnlyChanges.step ?_ (State.linkDown_changes _ _ _ _) (by decide)
    · exact OnlyChanges.refl _ _

theorem State.unitGone_changes (s : State) (u : ℕ) : OnlyChanges [.fabric, .keeper, .free, .mboxes, .recd, .frames, .ctxs, .faults, .snap, .swarms] s (State.unitGone s u) := by
  unfold State.unitGone
  extract_lets x2_0 x2_1
  have h4 : OnlyChanges [Part.fabric, Part.keeper, Part.free, Part.mboxes, Part.recd, Part.frames, Part.ctxs, Part.faults, Part.snap, Part.swarms] s x2_1 := by
    unfold x2_1
    refine OnlyChanges.foldl _ (fun t4 _ => ?_) _ _ ?_
    · refine OnlyChanges.step ?_ (State.linkStop_changes _ _) (by decide)
      · exact OnlyChanges.refl _ _
    · exact OnlyChanges.refl _ _
  refine OnlyChanges.ite ?_ ?_
  · refine OnlyChanges.step ?_ (State.zeroiseKeeper_changes _) (by decide)
    · exact h4
  · exact h4

theorem State.seedDrbg_changes (s : State) : OnlyChanges [.keeper, .free] s (State.seedDrbg s) := by
  unfold State.seedDrbg
  extract_lets x1_0
  have h2 : OnlyChanges [Part.keeper, Part.free] s x1_0.2 := by
    unfold x1_0
    refine OnlyChanges.step ?_ (State.entropy_changes _) (by decide)
    · exact OnlyChanges.refl _ _
  refine OnlyChanges.step ?_ (State.modKeeper_changes _ _) (by decide)
  · exact h2

theorem State.askTraining_changes (s : State) (l : ℕ) : OnlyChanges [.fabric, .power] s (State.askTraining s l) := by
  unfold State.askTraining
  extract_lets x2_0
  refine OnlyChanges.ite ?_ ?_
  · refine OnlyChanges.step ?_ (State.powerUp_changes _ _) (by decide)
    · refine OnlyChanges.step ?_ (State.powerUp_changes _ _) (by decide)
      · refine OnlyChanges.step ?_ (State.setLink_changes _ _ _) (by decide)
        · exact OnlyChanges.refl _ _
  · exact OnlyChanges.refl _ _

theorem State.testUnits_changes (s : State) (mask : ℕ) (pass : ℕ) (kind : ℕ) : OnlyChanges [.sec, .fabric, .free, .mboxes, .keeper, .recd, .frames, .ctxs, .faults, .snap, .tally, .power, .swarms] s (State.testUnits s mask pass kind) := by
  unfold State.testUnits
  extract_lets x4_0 x4_1 x4_2 x4_3 x4_4 x4_5 x4_6 x4_7 x4_8 x4_9 x4_10
  have h15 : OnlyChanges [Part.sec, Part.fabric, Part.free, Part.mboxes, Part.keeper, Part.recd, Part.frames, Part.ctxs, Part.faults, Part.snap, Part.tally, Part.power, Part.swarms] s x4_1 := by
    unfold x4_1
    refine OnlyChanges.foldl _ (fun t15 _ => ?_) _ _ ?_
    · refine OnlyChanges.step ?_ (State.idleQuadrant_changes _ _) (by decide)
      · exact OnlyChanges.refl _ _
    · exact OnlyChanges.refl _ _
  have h16 : OnlyChanges [Part.sec, Part.fabric, Part.free, Part.mboxes, Part.keeper, Part.recd, Part.frames, Part.ctxs, Part.faults, Part.snap, Part.tally, Part.power, Part.swarms] s x4_5 := by
    unfold x4_5
    refine OnlyChanges.foldl _ (fun t16 _ => ?_) _ _ ?_
    · refine OnlyChanges.put_sec _ ?_ (by decide)
      exact OnlyChanges.refl _ _
    · exact h15
  have h17 : OnlyChanges [Part.sec, Part.fabric, Part.free, Part.mboxes, Part.keeper, Part.recd, Part.frames, Part.ctxs, Part.faults, Part.snap, Part.tally, Part.power, Part.swarms] s x4_6 := by
    unfold x4_6
    refine OnlyChanges.foldl _ (fun t17 _ => ?_) _ _ ?_
    · refine OnlyChanges.put_sec _ ?_ (by decide)
      exact OnlyChanges.refl _ _
    · exact h16
  have h18 : OnlyChanges [Part.sec, Part.fabric, Part.free, Part.mboxes, Part.keeper, Part.recd, Part.frames, Part.ctxs, Part.faults, Part.snap, Part.tally, Part.power, Part.swarms] s x4_7 := by
    unfold x4_7
    clear_value x4_2
    split
    · refine OnlyChanges.step ?_ (State.event_changes _ _) (by decide)
      · exact h17
    · refine OnlyChanges.foldl _ (fun t28 _ => ?_) _ _ ?_
      · refine OnlyChanges.step ?_ (State.raiseWith_changes _ _ _ _) (by decide)
        · exact OnlyChanges.refl _ _
      · refine OnlyChanges.step ?_ (State.raiseWith_changes _ _ _ _) (by decide)
        · exact h17
  have h19 : OnlyChanges [Part.sec, Part.fabric, Part.free, Part.mboxes, Part.keeper, Part.recd, Part.frames, Part.ctxs, Part.faults, Part.snap, Part.tally, Part.power, Part.swarms] s x4_8 := by
    unfold x4_8
    refine OnlyChanges.foldl _ (fun t19 _ => ?_) _ _ ?_
    · refine OnlyChanges.step ?_ (State.unitGone_changes _ _) (by decide)
      · exact OnlyChanges.refl _ _
    · exact h18
  have h20 : OnlyChanges [Part.sec, Part.fabric, Part.free, Part.mboxes, Part.keeper, Part.recd, Part.frames, Part.ctxs, Part.faults, Part.snap, Part.tally, Part.power, Part.swarms] s x4_9 := by
    unfold x4_9
    refine OnlyChanges.ite ?_ ?_
    · refine OnlyChanges.step ?_ (State.seedDrbg_changes _) (by decide)
      · exact h19
    · exact h19
  have h21 : OnlyChanges [Part.sec, Part.fabric, Part.free, Part.mboxes, Part.keeper, Part.recd, Part.frames, Part.ctxs, Part.faults, Part.snap, Part.tally, Part.power, Part.swarms] s x4_10 := by
    unfold x4_10
    refine OnlyChanges.foldl _ (fun t21 _ => ?_) _ _ ?_
    · refine OnlyChanges.step ?_ (State.askTraining_changes _ _) (by decide)
      · exact OnlyChanges.refl _ _
    · exact h20
  refine OnlyChanges.step ?_ (State.waggleAll_changes _) (by decide)
  · exact h21

theorem State.katAgain_changes (s : State) (d : ℕ) : OnlyChanges [.keeper, .mboxes, .ctxs, .frames, .swarms, .tally, .fabric, .faults, .sec, .power, .snap, .recd, .free] s (State.katAgain s d) := by
  unfold State.katAgain
  extract_lets x2_0 x2_1 x2_2
  have h5 : OnlyChanges [Part.keeper, Part.mboxes, Part.ctxs, Part.frames, Part.swarms, Part.tally, Part.fabric, Part.faults, Part.sec, Part.power, Part.snap, Part.recd, Part.free] s x2_1.2 := by
    unfold x2_1
    refine OnlyChanges.step ?_ (State.draw_changes _) (by decide)
    · exact OnlyChanges.refl _ _
  refine OnlyChanges.ite ?_ ?_
  · exact OnlyChanges.refl _ _
  · refine OnlyChanges.ite ?_ ?_
    · exact h5
    · refine OnlyChanges.step ?_ (State.testUnits_changes _ _ _ _) (by decide)
      · exact h5

theorem State.domainPowered_changes (s : State) (d : ℕ) : OnlyChanges [.power, .tally, .xlate, .keeper, .mboxes, .ctxs, .chans, .frames, .swarms, .fabric, .faults, .sec, .snap, .recd, .free] s (State.domainPowered s d) := by
  unfold State.domainPowered
  extract_lets x2_0
  refine OnlyChanges.ite ?_ ?_
  · refine OnlyChanges.step ?_ (State.modXlate_changes _ _) (by decide)
    · exact OnlyChanges.refl _ _
  · refine OnlyChanges.ite ?_ ?_
    · refine OnlyChanges.ite ?_ ?_
      · refine OnlyChanges.step ?_ (State.runHeldOps_changes _) (by decide)
        · refine OnlyChanges.step ?_ (State.tallyPowered_changes _) (by decide)
          · exact OnlyChanges.refl _ _
      · refine OnlyChanges.step ?_ (State.tallyPowered_changes _) (by decide)
        · exact OnlyChanges.refl _ _
    · refine OnlyChanges.ite ?_ ?_
      · refine OnlyChanges.step ?_ (State.katAgain_changes _ _) (by decide)
        · exact OnlyChanges.refl _ _
      · refine OnlyChanges.ite ?_ ?_
        · refine OnlyChanges.put_power _ ?_ (by decide)
          exact OnlyChanges.refl _ _
        · exact OnlyChanges.refl _ _

theorem State.writeFailed_changes (s : State) (e : WEntry) : OnlyChanges [.ctxs, .frames, .fabric, .faults, .snap, .recd] s (State.writeFailed s e) := by
  unfold State.writeFailed
  split
  · split
    · refine OnlyChanges.step ?_ (State.modWork_changes _ _ _ _) (by decide)
      · exact OnlyChanges.refl _ _
    · refine OnlyChanges.step ?_ (State.modWork_changes _ _ _ _) (by decide)
      · exact OnlyChanges.refl _ _
    · refine OnlyChanges.step ?_ (State.modCtx_changes _ _ _) (by decide)
      · exact OnlyChanges.refl _ _
    · exact OnlyChanges.refl _ _
  · extract_lets x8_0
    refine OnlyChanges.step ?_ (State.refuseReq_changes _ _ _ _) (by decide)
    · exact OnlyChanges.refl _ _
  · exact OnlyChanges.refl _ _

theorem execHandshakeTimeout_changes (clk : Bool) (n : Fin 66) (s : State) : ∃ t, (execHandshakeTimeout clk n s) = .next t ∧ OnlyChanges [.faults, .frames, .snap, .recd] s t := by
  refine ⟨_, rfl, ?_⟩
  extract_lets x3_0
  refine OnlyChanges.ite ?_ ?_
  · refine OnlyChanges.step ?_ (State.raise_changes _ _) (by decide)
    · exact OnlyChanges.refl _ _
  · exact OnlyChanges.refl _ _

theorem State.clockDown_changes (s : State) (i : ℕ) : OnlyChanges [.power] s (State.clockDown s i) := by
  unfold State.clockDown
  extract_lets x2_0
  refine OnlyChanges.ite ?_ ?_
  · refine OnlyChanges.put_power _ ?_ (by decide)
    exact OnlyChanges.refl _ _
  · exact OnlyChanges.refl _ _

theorem State.frameOff_changes (s : State) (f : ℕ) : OnlyChanges [.power, .frames] s (State.frameOff s f) := by
  unfold State.frameOff
  extract_lets x2_0
  have h3 : OnlyChanges [Part.power, Part.frames] s x2_0 := by
    unfold x2_0
    refine OnlyChanges.step ?_ (State.modFrame_changes _ _ _) (by decide)
    · exact OnlyChanges.refl _ _
  refine OnlyChanges.foldl _ (fun t4 _ => ?_) _ _ ?_
  · refine OnlyChanges.step ?_ (State.powerDown_changes _ _) (by decide)
    · refine OnlyChanges.step ?_ (State.retainDown_changes _ _) (by decide)
      · exact OnlyChanges.refl _ _
  · refine OnlyChanges.step ?_ (State.clockDown_changes _ _) (by decide)
    · exact h3

theorem execFrameNapToOff_changes (f : Fin 16) (s : State) : ∃ t, (execFrameNapToOff f s) = .next t ∧ OnlyChanges [.power, .frames] s t := by
  refine ⟨_, rfl, ?_⟩
  extract_lets x2_0
  refine OnlyChanges.ite ?_ ?_
  · refine OnlyChanges.step ?_ (State.frameOff_changes _ _) (by decide)
    · exact OnlyChanges.refl _ _
  · exact OnlyChanges.refl _ _

theorem State.cursorWrite_changes (s : State) (w : Word) : OnlyChanges [.recd] s (State.cursorWrite s w) := by
  unfold State.cursorWrite
  refine OnlyChanges.step ?_ (State.modRecd_changes _ _) (by decide)
  · exact OnlyChanges.refl _ _

theorem execRecCursorFlashRead_changes (w : Word) (s : State) : ∃ t, (execRecCursorFlashRead w s) = .next t ∧ OnlyChanges [.recd] s t := by
  refine ⟨_, rfl, ?_⟩
  refine OnlyChanges.ite ?_ ?_
  · refine OnlyChanges.step ?_ (State.cursorWrite_changes _ _) (by decide)
    · exact OnlyChanges.refl _ _
  · exact OnlyChanges.refl _ _

theorem State.dbWrite_changes (s : State) (m : ℕ) (w : BitVec 32) : OnlyChanges [.mboxes, .keeper] s (State.dbWrite s m w) := by
  unfold State.dbWrite
  extract_lets x3_0 x3_1
  refine OnlyChanges.ite ?_ ?_
  · refine OnlyChanges.step ?_ (State.setMbox_changes _ _ _) (by decide)
    · exact OnlyChanges.refl _ _
  · refine OnlyChanges.ite ?_ ?_
    · refine OnlyChanges.step ?_ (State.setMbox_changes _ _ _) (by decide)
      · exact OnlyChanges.refl _ _
    · refine OnlyChanges.step ?_ (State.modKeeper_changes _ _) (by decide)
      · refine OnlyChanges.step ?_ (State.setMbox_changes _ _ _) (by decide)
        · exact OnlyChanges.refl _ _

theorem execMboxDoneClear_changes (m : Fin 32) (w : BitVec 32) (s : State) : ∃ t, (execMboxDoneClear m w s) = .next t ∧ OnlyChanges [.mboxes, .keeper] s t := by
  refine ⟨_, rfl, ?_⟩
  refine OnlyChanges.ite ?_ ?_
  · refine OnlyChanges.step ?_ (State.dbWrite_changes _ _ _) (by decide)
    · exact OnlyChanges.refl _ _
  · exact OnlyChanges.refl _ _

theorem State.romFailed_changes (s : State) : OnlyChanges [.keeper, .frames, .faults, .sec, .snap, .recd] s (State.romFailed s) := by
  unfold State.romFailed
  extract_lets x1_0 x1_1
  have h3 : OnlyChanges [Part.keeper, Part.frames, Part.faults, Part.sec, Part.snap, Part.recd] s x1_0 := by
    unfold x1_0
    refine OnlyChanges.step ?_ (State.modKeeper_changes _ _) (by decide)
    · exact OnlyChanges.refl _ _
  have h4 : OnlyChanges [Part.keeper, Part.frames, Part.faults, Part.sec, Part.snap, Part.recd] s x1_1 := by
    unfold x1_1
    refine OnlyChanges.put_sec _ ?_ (by decide)
    exact h3
  refine OnlyChanges.step ?_ (State.raiseWith_changes _ _ _ _) (by decide)
  · exact h4

theorem State.bootRom_changes (s : State) : OnlyChanges [.keeper, .recd, .frames, .faults, .sec, .snap, .free] s (State.bootRom s) := by
  unfold State.bootRom
  extract_lets x1_0 x1_1 x1_2 x1_3 x1_4 x1_5 x1_6
  have h8 : OnlyChanges [Part.keeper, Part.recd, Part.frames, Part.faults, Part.sec, Part.snap, Part.free] s x1_0.2 := by
    unfold x1_0
    refine OnlyChanges.step ?_ (State.draw_changes _) (by decide)
    · exact OnlyChanges.refl _ _
  have h9 : OnlyChanges [Part.keeper, Part.recd, Part.frames, Part.faults, Part.sec, Part.snap, Part.free] s x1_1 := by
    unfold x1_1
    exact h8
  have h10 : OnlyChanges [Part.keeper, Part.recd, Part.frames, Part.faults, Part.sec, Part.snap, Part.free] s x1_5 := by
    unfold x1_5
    refine OnlyChanges.step ?_ (State.modKeeper_changes _ _) (by decide)
    · exact h9
  have h11 : OnlyChanges [Part.keeper, Part.recd, Part.frames, Part.faults, Part.sec, Part.snap, Part.free] s x1_6 := by
    unfold x1_6
    refine OnlyChanges.ite ?_ ?_
    · exact h10
    · refine OnlyChanges.step ?_ (State.event_changes _ _) (by decide)
      · exact h10
  refine OnlyChanges.ite ?_ ?_
  · exact h11
  · refine OnlyChanges.step ?_ (State.romFailed_changes _) (by decide)
    · exact h11

theorem State.bootIfPowered_changes (s : State) : OnlyChanges [.keeper, .recd, .frames, .faults, .sec, .snap, .free] s (State.bootIfPowered s) := by
  unfold State.bootIfPowered
  refine OnlyChanges.ite ?_ ?_
  · refine OnlyChanges.step ?_ (State.bootRom_changes _) (by decide)
    · exact OnlyChanges.refl _ _
  · exact OnlyChanges.refl _ _

theorem State.setPort_changes (s : State) (p : ℕ) (x : Port) : OnlyChanges [.ports] s (State.setPort s p x) := by
  unfold State.setPort
  refine OnlyChanges.put_ports _ ?_ (by decide)
  exact OnlyChanges.refl _ _

theorem execFeedPortDeliver_changes (p : Fin 256) (s : State) : ∃ t, (execFeedPortDeliver p s) = .next t ∧ OnlyChanges [.ports, .tally, .swarms] s t := by
  refine ⟨_, rfl, ?_⟩
  extract_lets x2_0 x2_1
  refine OnlyChanges.ite ?_ ?_
  · exact OnlyChanges.refl _ _
  · split
    · refine OnlyChanges.step ?_ (State.moved_changes _) (by decide)
      · refine OnlyChanges.step ?_ (State.setSwarm_changes _ _ _) (by decide)
        · refine OnlyChanges.step ?_ (State.setPort_changes _ _ _) (by decide)
          · exact OnlyChanges.refl _ _
    · split
      · exact OnlyChanges.refl _ _
      · extract_lets x13_0
        refine OnlyChanges.step ?_ (State.moved_changes _) (by decide)
        · refine OnlyChanges.step ?_ (State.setPort_changes _ _ _) (by decide)
          · exact OnlyChanges.refl _ _

theorem execKeeperBeatTimeout_changes (s : State) : ∃ t, (execKeeperBeatTimeout s) = .next t ∧ OnlyChanges [.faults, .frames, .snap, .recd] s t := by
  refine ⟨_, rfl, ?_⟩
  refine OnlyChanges.ite ?_ ?_
  · refine OnlyChanges.step ?_ (State.raise_changes _ _) (by decide)
    · exact OnlyChanges.refl _ _
  · exact OnlyChanges.refl _ _

theorem State.holdTally_changes (s : State) : OnlyChanges [.tally, .power] s (State.holdTally s) := by
  unfold State.holdTally
  refine OnlyChanges.step ?_ (State.modTally_changes _ _) (by decide)
  · refine OnlyChanges.step ?_ (State.wakeTally_changes _) (by decide)
    · exact OnlyChanges.refl _ _

theorem State.barCfg0Write_changes (s : State) (b : ℕ) (w : Word) : OnlyChanges [.tally, .chans, .faults, .frames, .snap, .recd, .fabric] s (State.barCfg0Write s b w) := by
  unfold State.barCfg0Write
  extract_lets x3_0 x3_1 x3_2 x3_3 x3_4
  refine OnlyChanges.ite ?_ ?_
  · refine OnlyChanges.step ?_ (State.setBarrier_changes _ _ _) (by decide)
    · exact OnlyChanges.refl _ _
  · refine OnlyChanges.ite ?_ ?_
    · refine OnlyChanges.step ?_ (State.setBarrier_changes _ _ _) (by decide)
      · exact OnlyChanges.refl _ _
    · refine OnlyChanges.ite ?_ ?_
      · refine OnlyChanges.step ?_ (State.setBarrier_changes _ _ _) (by decide)
        · exact OnlyChanges.refl _ _
      · refine OnlyChanges.step ?_ (State.settle_changes _) (by decide)
        · refine OnlyChanges.step ?_ (State.setBarrier_changes _ _ _) (by decide)
          · exact OnlyChanges.refl _ _

theorem State.taken_changes (s : State) : OnlyChanges [.tally] s (State.taken s) := by
  unfold State.taken
  refine OnlyChanges.step ?_ (State.modTally_changes _ _) (by decide)
  · exact OnlyChanges.refl _ _

theorem State.barWrite_changes (s : State) (b : ℕ) (w : Word) : OnlyChanges [.tally, .power, .chans, .faults, .frames, .snap, .recd, .fabric] s (State.barWrite s b w) := by
  unfold State.barWrite
  refine OnlyChanges.ite ?_ ?_
  · refine OnlyChanges.step ?_ (State.holdTally_changes _) (by decide)
    · exact OnlyChanges.refl _ _
  · refine OnlyChanges.step ?_ (State.barCfg0Write_changes _ _ _) (by decide)
    · refine OnlyChanges.step ?_ (State.taken_changes _) (by decide)
      · exact OnlyChanges.refl _ _

theorem State.setTap_changes (s : State) (t : ℕ) (x : Tap) : OnlyChanges [.taps] s (State.setTap s t x) := by
  unfold State.setTap
  refine OnlyChanges.put_taps _ ?_ (by decide)
  exact OnlyChanges.refl _ _

theorem State.present_changes (s : State) (t : ℕ) (r : ℕ) (o : TapOut) : OnlyChanges [.taps, .frames, .tally] s (State.present s t r o) := by
  unfold State.present
  extract_lets x4_0 x4_1
  have h6 : OnlyChanges [Part.taps, Part.frames, Part.tally] s x4_1 := by
    unfold x4_1
    refine OnlyChanges.step ?_ (State.setTap_changes _ _ _) (by decide)
    · exact OnlyChanges.refl _ _
  refine OnlyChanges.step ?_ (State.movedIf_changes _ _) (by decide)
  · refine OnlyChanges.step ?_ (State.modFrame_changes _ _ _) (by decide)
    · exact h6

theorem State.claimSlot_changes (s : State) (f : ℕ) (n : ℕ) (a : Asker) (q : Slot) : OnlyChanges [.frames] s (State.claimSlot s f n a q) := by
  unfold State.claimSlot
  extract_lets x5_0
  have h6 : OnlyChanges [Part.frames] s x5_0 := by
    unfold x5_0
    refine OnlyChanges.step ?_ (State.setSlotAt_changes _ _ _ _) (by decide)
    · exact OnlyChanges.refl _ _
  refine OnlyChanges.ite ?_ ?_
  · refine OnlyChanges.step ?_ (State.modFrame_changes _ _ _) (by decide)
    · exact h6
  · exact h6

theorem State.readIssued_changes (s : State) (c : CtxNo) (w : Work) (n : ℕ) (q : Slot) : OnlyChanges [.ctxs, .frames] s (State.readIssued s c w n q) := by
  unfold State.readIssued
  refine OnlyChanges.step ?_ (State.modWork_changes _ _ _ _) (by decide)
  · refine OnlyChanges.step ?_ (State.claimSlot_changes _ _ _ _ _) (by decide)
    · exact OnlyChanges.refl _ _

theorem State.rateTake_changes (s : State) (c : CtxNo) (ch : ℕ) (n : ℕ) (wr : Bool) : OnlyChanges [.chans] s (State.rateTake s c ch n wr) := by
  unfold State.rateTake
  extract_lets x5_0
  refine OnlyChanges.ite ?_ ?_
  · exact OnlyChanges.refl _ _
  · refine OnlyChanges.step ?_ (State.setChan_changes _ _ _) (by decide)
    · exact OnlyChanges.refl _ _

theorem State.chanRead_changes (s : State) (t : ℕ) (ch : ℕ) (c : CtxNo) : MayChange [.frames, .xlate, .taps, .tally, .ctxs, .chans] s (State.chanRead s t ch c) := by
  unfold State.chanRead
  extract_lets x4_0
  split
  · exact MayChange.none _ _
  · split
    · exact MayChange.none _ _
    · extract_lets x16_0 x16_1 x16_2
      refine MayChange.ite ?_ ?_
      · exact MayChange.none _ _
      · split
        · extract_lets x32_0 x32_1
          have h34 : OnlyChanges [Part.frames, Part.xlate, Part.taps, Part.tally, Part.ctxs, Part.chans] s x32_1 := by
            unfold x32_1
            refine OnlyChanges.step ?_ (State.rateTake_changes _ _ _ _ _) (by decide)
            · refine OnlyChanges.step ?_ (State.readIssued_changes _ _ _ _ _) (by decide)
              · refine OnlyChanges.step ?_ (State.used_changes _ _ _) (by decide)
                · exact OnlyChanges.refl _ _
          refine MayChange.ite ?_ ?_
          · exact MayChange.none _ _
          · refine MayChange.some ?_
            refine OnlyChanges.step ?_ (State.present_changes _ _ _ _) (by decide)
            · exact h34
        · exact MayChange.none _ _

theorem State.invalDone_changes (s : State) (o : Origin) : OnlyChanges [.mboxes, .keeper, .fabric, .recd, .xlate] s (State.invalDone s o) := by
  unfold State.invalDone
  split
  · refine OnlyChanges.ite ?_ ?_
    · exact OnlyChanges.refl _ _
    · refine OnlyChanges.ite ?_ ?_
      · refine OnlyChanges.step ?_ (State.verbDone_changes _ _ _ _ _) (by decide)
        · refine OnlyChanges.step ?_ (State.modXlate_changes _ _) (by decide)
          · exact OnlyChanges.refl _ _
      · refine OnlyChanges.ite ?_ ?_
        · refine OnlyChanges.step ?_ (State.verbDone_changes _ _ _ _ _) (by decide)
          · exact OnlyChanges.refl _ _
        · exact OnlyChanges.refl _ _
  · exact OnlyChanges.refl _ _

theorem State.flushVerbs_changes (s : State) : OnlyChanges [.mboxes, .keeper, .fabric, .recd] s (State.flushVerbs s) := by
  unfold State.flushVerbs
  refine OnlyChanges.foldl _ (fun t1 _ => ?_) _ _ ?_
  · refine OnlyChanges.step ?_ (State.finish_changes _ _ _ _ _) (by decide)
    · exact OnlyChanges.refl _ _
  · exact OnlyChanges.refl _ _

theorem State.quiesceEnd_changes (s : State) (q : Quiesce) : OnlyChanges [.tally, .power, .mboxes, .keeper, .fabric, .recd, .frames, .chans] s (State.quiesceEnd s q) := by
  unfold State.quiesceEnd
  extract_lets x2_0 x2_1 x2_2 x2_3 x2_4 x2_5 x2_6 x2_7 x2_8
  have h11 : OnlyChanges [Part.tally, Part.power, Part.mboxes, Part.keeper, Part.fabric, Part.recd, Part.frames, Part.chans] s x2_0 := by
    unfold x2_0
    refine OnlyChanges.step ?_ (State.modKeeper_changes _ _) (by decide)
    · exact OnlyChanges.refl _ _
  have h12 : OnlyChanges [Part.tally, Part.power, Part.mboxes, Part.keeper, Part.fabric, Part.recd, Part.frames, Part.chans] s x2_1 := by
    unfold x2_1
    refine OnlyChanges.foldl _ (fun t12 _ => ?_) _ _ ?_
    · refine OnlyChanges.step ?_ (State.frameOff_changes _ _) (by decide)
      · exact OnlyChanges.refl _ _
    · exact h11
  have h13 : OnlyChanges [Part.tally, Part.power, Part.mboxes, Part.keeper, Part.fabric, Part.recd, Part.frames, Part.chans] s x2_2 := by
    unfold x2_2
    refine OnlyChanges.foldl _ (fun t13 _ => ?_) _ _ ?_
    · refine OnlyChanges.step ?_ (State.powerDown_changes _ _) (by decide)
      · exact OnlyChanges.refl _ _
    · exact h12
  have h14 : OnlyChanges [Part.tally, Part.power, Part.mboxes, Part.keeper, Part.fabric, Part.recd, Part.frames, Part.chans] s x2_4 := by
    unfold x2_4
    refine OnlyChanges.step ?_ (State.lendLower_changes _) (by decide)
    · refine OnlyChanges.put_tally _ ?_ (by decide)
      exact h13
  have h15 : OnlyChanges [Part.tally, Part.power, Part.mboxes, Part.keeper, Part.fabric, Part.recd, Part.frames, Part.chans] s x2_5 := by
    unfold x2_5
    refine OnlyChanges.step ?_ (State.modKeeper_changes _ _) (by decide)
    · exact h14
  have h16 : OnlyChanges [Part.tally, Part.power, Part.mboxes, Part.keeper, Part.fabric, Part.recd, Part.frames, Part.chans] s x2_7 := by
    unfold x2_7
    refine OnlyChanges.put_power _ ?_ (by decide)
    exact h15
  have h17 : OnlyChanges [Part.tally, Part.power, Part.mboxes, Part.keeper, Part.fabric, Part.recd, Part.frames, Part.chans] s x2_8 := by
    unfold x2_8
    refine OnlyChanges.ite ?_ ?_
    · refine OnlyChanges.step ?_ (State.modKeeper_changes _ _) (by decide)
      · exact h16
    · exact h15
  refine OnlyChanges.ite ?_ ?_
  · refine OnlyChanges.step ?_ (State.verbEnd_changes _ _ _ _ _ _) (by decide)
    · exact h11
  · refine OnlyChanges.step ?_ (State.verbEnd_changes _ _ _ _ _ _) (by decide)
    · exact h17

theorem State.flushEnd_changes (s : State) : OnlyChanges [.mboxes, .keeper, .fabric, .recd, .tally, .power, .frames, .chans] s (State.flushEnd s) := by
  unfold State.flushEnd
  extract_lets x1_0
  have h2 : OnlyChanges [Part.mboxes, Part.keeper, Part.fabric, Part.recd, Part.tally, Part.power, Part.frames, Part.chans] s x1_0 := by
    unfold x1_0
    refine OnlyChanges.step ?_ (State.flushVerbs_changes _) (by decide)
    · exact OnlyChanges.refl _ _
  split
  · refine OnlyChanges.ite ?_ ?_
    · refine OnlyChanges.step ?_ (State.quiesceEnd_changes _ _) (by decide)
      · exact h2
    · exact h2
  · exact h2

theorem execFlashLogScanDone_changes (scan : FlashScan) (s : State) : ∃ t, (execFlashLogScanDone scan s) = .next t ∧ OnlyChanges [.recd, .mboxes, .keeper, .fabric, .tally, .power, .frames, .chans] s t := by
  refine ⟨_, rfl, ?_⟩
  extract_lets x2_0 x2_1
  have h4 : OnlyChanges [Part.recd, Part.mboxes, Part.keeper, Part.fabric, Part.tally, Part.power, Part.frames, Part.chans] s x2_0 := by
    unfold x2_0
    refine OnlyChanges.step ?_ (State.modRecd_changes _ _) (by decide)
    · exact OnlyChanges.refl _ _
  refine OnlyChanges.ite ?_ ?_
  · exact OnlyChanges.refl _ _
  · split
    · refine OnlyChanges.step ?_ (State.flushEnd_changes _) (by decide)
      · refine OnlyChanges.step ?_ (State.modRecd_changes _ _) (by decide)
        · exact h4
    · extract_lets x7_0
      refine OnlyChanges.step ?_ (State.askFlush_changes _) (by decide)
      · refine OnlyChanges.step ?_ (State.modRecd_changes _ _) (by decide)
        · exact h4
    · refine OnlyChanges.step ?_ (State.askFlush_changes _) (by decide)
      · refine OnlyChanges.step ?_ (State.modRecd_changes _ _) (by decide)
        · exact h4

theorem State.fabDamaged_changes (s : State) (f : ℕ) (r : FabReq) (rest : List FabReq) : OnlyChanges [.frames, .fabric] s (State.fabDamaged s f r rest) := by
  unfold State.fabDamaged
  extract_lets x4_0 x4_1
  have h6 : OnlyChanges [Part.frames, Part.fabric] s x4_0 := by
    unfold x4_0
    refine OnlyChanges.step ?_ (State.modFrame_changes _ _ _) (by decide)
    · exact OnlyChanges.refl _ _
  refine OnlyChanges.step ?_ (State.setRxGroup_changes _ _ _ _) (by decide)
  · exact h6

theorem State.setRegion_changes (s : State) (r : ℕ) (x : Region) : OnlyChanges [.power] s (State.setRegion s r x) := by
  unfold State.setRegion
  extract_lets x3_0
  refine OnlyChanges.put_power _ ?_ (by decide)
  exact OnlyChanges.refl _ _

theorem State.report_changes (s : State) (src : Supply) (warn : Bool) (deep : Bool) : OnlyChanges [.power] s (State.report s src warn deep) := by
  unfold State.report
  extract_lets x4_0
  split
  · extract_lets x7_0
    refine OnlyChanges.step ?_ (State.setRegion_changes _ _ _) (by decide)
    · exact OnlyChanges.refl _ _
  · refine OnlyChanges.put_power _ ?_ (by decide)
    exact OnlyChanges.refl _ _

theorem State.noteLevels_changes (s : State) : OnlyChanges [.telem] s (State.noteLevels s) := by
  unfold State.noteLevels
  refine OnlyChanges.foldl _ (fun t1 _ => ?_) _ _ ?_
  · extract_lets x3_0
    refine OnlyChanges.put_telem _ ?_ (by decide)
    exact OnlyChanges.refl _ _
  · exact OnlyChanges.refl _ _

theorem State.setLevel_changes (s : State) (r : ℕ) (n : ℕ) : OnlyChanges [.telem, .power] s (State.setLevel s r n) := by
  unfold State.setLevel
  extract_lets x3_0
  refine OnlyChanges.step ?_ (State.noteLevels_changes _) (by decide)
  · refine OnlyChanges.step ?_ (State.setRegion_changes _ _ _) (by decide)
    · exact OnlyChanges.refl _ _

theorem execSupplyDeep_changes (src : Supply) (s : State) : ∃ t, (execSupplyDeep src s) = .next t ∧ OnlyChanges [.power, .telem] s t := by
  refine ⟨_, rfl, ?_⟩
  refine OnlyChanges.foldl _ (fun t2 _ => ?_) _ _ ?_
  · refine OnlyChanges.step ?_ (State.setLevel_changes _ _ _) (by decide)
    · exact OnlyChanges.refl _ _
  · refine OnlyChanges.step ?_ (State.report_changes _ _ _ _) (by decide)
    · exact OnlyChanges.refl _ _

theorem State.bootFailed_changes (s : State) : OnlyChanges [.keeper, .faults, .frames, .snap, .recd] s (State.bootFailed s) := by
  unfold State.bootFailed
  extract_lets x1_0
  have h2 : OnlyChanges [Part.keeper, Part.faults, Part.frames, Part.snap, Part.recd] s x1_0 := by
    unfold x1_0
    refine OnlyChanges.step ?_ (State.modKeeper_changes _ _) (by decide)
    · exact OnlyChanges.refl _ _
  refine OnlyChanges.step ?_ (State.raiseWith_changes _ _ _ _) (by decide)
  · exact h2

theorem execGroupIdleTimeout_changes (chip : ChipNo) (group : BitVec 6) (s : State) : ∃ t, (execGroupIdleTimeout chip group s) = .next t ∧ OnlyChanges [.fabric, .frames] s t := by
  refine ⟨_, rfl, ?_⟩
  extract_lets x3_0
  refine OnlyChanges.ite ?_ ?_
  · refine OnlyChanges.step ?_ (State.setRxGroup_changes _ _ _ _) (by decide)
    · refine OnlyChanges.step ?_ (State.dropLid_changes _ _ _) (by decide)
      · exact OnlyChanges.refl _ _
  · exact OnlyChanges.refl _ _

theorem State.evict_changes (s : State) (c : CtxNo) (w : Work) : MayChange [.ctxs, .frames] s (State.evict s c w) := by
  unfold State.evict
  extract_lets x3_0 x3_1
  refine MayChange.ite ?_ ?_
  · exact MayChange.none _ _
  · refine MayChange.ite ?_ ?_
    · exact MayChange.none _ _
    · split
      · exact MayChange.none _ _
      · extract_lets x11_0
        refine MayChange.some ?_
        refine OnlyChanges.step ?_ (State.modWork_changes _ _ _ _) (by decide)
        · refine OnlyChanges.step ?_ (State.setSlotAt_changes _ _ _ _) (by decide)
          · exact OnlyChanges.refl _ _

theorem State.paceWrite_changes (s : State) (n : ℕ) (w : BitVec 32) : OnlyChanges [.swarms] s (State.paceWrite s n w) := by
  unfold State.paceWrite
  extract_lets x3_0
  refine OnlyChanges.step ?_ (State.setSwarm_changes _ _ _) (by decide)
  · exact OnlyChanges.refl _ _

theorem State.knockDropped_changes (s : State) (c : CtxNo) : OnlyChanges [.regs] s (State.knockDropped s c) := by
  unfold State.knockDropped
  extract_lets x2_0 x2_1
  refine OnlyChanges.put_regs _ ?_ (by decide)
  exact OnlyChanges.refl _ _

theorem State.knock_changes (s : State) (w : Word) : OnlyChanges [.readyQ, .ctxs, .regs] s (State.knock s w) := by
  unfold State.knock
  extract_lets x2_0 x2_1 x2_2
  have h5 : OnlyChanges [Part.readyQ, Part.ctxs, Part.regs] s x2_2 := by
    unfold x2_2
    refine OnlyChanges.step ?_ (State.modCtx_changes _ _ _) (by decide)
    · exact OnlyChanges.refl _ _
  refine OnlyChanges.ite ?_ ?_
  · refine OnlyChanges.step ?_ (State.knockDropped_changes _ _) (by decide)
    · exact OnlyChanges.refl _ _
  · refine OnlyChanges.ite ?_ ?_
    · refine OnlyChanges.step ?_ (State.toState_changes _ _ _) (by decide)
      · exact h5
    · exact h5

theorem execKnock_changes (w : Word) (s : State) : ∃ t, (execKnock w s) = .next t ∧ OnlyChanges [.readyQ, .ctxs, .regs] s t := by
  refine ⟨_, rfl, ?_⟩
  refine OnlyChanges.ite ?_ ?_
  · refine OnlyChanges.step ?_ (State.knock_changes _ _) (by decide)
    · exact OnlyChanges.refl _ _
  · exact OnlyChanges.refl _ _

theorem State.noteFailure_changes (s : State) (c : CtxNo) (w : Work) (status : BitVec 16) (detail : BitVec 16) : OnlyChanges [.ctxs, .recd] s (State.noteFailure s c w status detail) := by
  unfold State.noteFailure
  refine OnlyChanges.step ?_ (State.event_changes _ _) (by decide)
  · refine OnlyChanges.step ?_ (State.lastErr_changes _ _ _ _) (by decide)
    · exact OnlyChanges.refl _ _

theorem State.applyDone_changes (s : State) (c : CtxNo) (w : Work) : OnlyChanges [.chans, .tally, .faults, .frames, .snap, .recd, .fabric, .ctxs] s (State.applyDone s c w) := by
  unfold State.applyDone
  extract_lets x3_0 x3_1 x3_2 x3_3
  have h7 : OnlyChanges [Part.chans, Part.tally, Part.faults, Part.frames, Part.snap, Part.recd, Part.fabric, Part.ctxs] s x3_3 := by
    unfold x3_3
    refine OnlyChanges.step ?_ (State.increment_changes _ _ _ _) (by decide)
    · exact OnlyChanges.refl _ _
  refine OnlyChanges.ite ?_ ?_
  · exact OnlyChanges.refl _ _
  · refine OnlyChanges.ite ?_ ?_
    · refine OnlyChanges.step ?_ (State.noteFailure_changes _ _ _ _ _) (by decide)
      · exact h7
    · exact h7

theorem State.takeLanded_changes (s : State) (m : Msg) : OnlyChanges [.fabric, .ctxs] s (State.takeLanded s m) := by
  unfold State.takeLanded
  extract_lets x2_0 x2_1
  have h4 : OnlyChanges [Part.fabric, Part.ctxs] s x2_1 := by
    unfold x2_1
    refine OnlyChanges.step ?_ (State.setTxGroup_changes _ _ _ _) (by decide)
    · exact OnlyChanges.refl _ _
  refine OnlyChanges.ite ?_ ?_
  · exact OnlyChanges.refl _ _
  · refine OnlyChanges.foldl _ (fun t5 _ => ?_) _ _ ?_
    · refine OnlyChanges.step ?_ (State.modCtx_changes _ _ _) (by decide)
      · exact OnlyChanges.refl _ _
    · exact h4

theorem State.wakeExpanders_changes (s : State) : OnlyChanges [.power] s (State.wakeExpanders s) := by
  unfold State.wakeExpanders
  refine OnlyChanges.foldl _ (fun t1 _ => ?_) _ _ ?_
  · refine OnlyChanges.ite ?_ ?_
    · refine OnlyChanges.step ?_ (State.powerUp_changes _ _) (by decide)
      · exact OnlyChanges.refl _ _
    · exact OnlyChanges.refl _ _
  · exact OnlyChanges.refl _ _

theorem State.begin_changes (s : State) (c : CtxNo) (w : Work) (n : ℕ) (bad : Option (ℕ × ℕ)) : OnlyChanges [.faults, .frames, .snap, .recd, .ctxs] s (State.begin s c w n bad) := by
  unfold State.begin
  extract_lets x5_0 x5_1 x5_2
  have h8 : OnlyChanges [Part.faults, Part.frames, Part.snap, Part.recd, Part.ctxs] s x5_1 := by
    unfold x5_1
    refine OnlyChanges.step ?_ (State.modCtx_changes _ _ _) (by decide)
    · exact OnlyChanges.refl _ _
  split
  · refine OnlyChanges.step ?_ (State.tenantAlarm_changes _ _ _ _ _ _ _) (by decide)
    · exact h8
  · exact h8
  · split
    · refine OnlyChanges.step ?_ (State.modCtx_changes _ _ _) (by decide)
      · exact h8
    · exact h8

theorem State.startHead_changes (s : State) (c : CtxNo) (f : ℕ) (h : Held) (rest : List Held) : OnlyChanges [.nextId, .faults, .frames, .snap, .recd, .ctxs] s (State.startHead s c f h rest) := by
  unfold State.startHead
  extract_lets x5_0 x5_1 x5_2 x5_3
  split
  · extract_lets x15_0 x15_1
    refine OnlyChanges.ite ?_ ?_
    · refine OnlyChanges.step ?_ (State.begin_changes _ _ _ _ _) (by decide)
      · refine OnlyChanges.step ?_ (Eq.mp (congrArg (OnlyChanges _ _) (congrArg Prod.snd (by assumption : _ = (_, _)))) (State.fresh_changes _)) (by decide)
        exact OnlyChanges.refl _ _
    · refine OnlyChanges.ite ?_ ?_
      · unfold x15_1
        extract_lets x17_0
        refine OnlyChanges.ite ?_ ?_
        · split
          · refine OnlyChanges.ite ?_ ?_
            · refine OnlyChanges.step ?_ (State.begin_changes _ _ _ _ _) (by decide)
              · refine OnlyChanges.step ?_ (Eq.mp (congrArg (OnlyChanges _ _) (congrArg Prod.snd (by assumption : _ = (_, _)))) (State.fresh_changes _)) (by decide)
                exact OnlyChanges.refl _ _
            · refine OnlyChanges.step ?_ (State.begin_changes _ _ _ _ _) (by decide)
              · refine OnlyChanges.step ?_ (Eq.mp (congrArg (OnlyChanges _ _) (congrArg Prod.snd (by assumption : _ = (_, _)))) (State.fresh_changes _)) (by decide)
                exact OnlyChanges.refl _ _
          · refine OnlyChanges.step ?_ (State.begin_changes _ _ _ _ _) (by decide)
            · refine OnlyChanges.step ?_ (Eq.mp (congrArg (OnlyChanges _ _) (congrArg Prod.snd (by assumption : _ = (_, _)))) (State.fresh_changes _)) (by decide)
              exact OnlyChanges.refl _ _
        · split
          · refine OnlyChanges.step ?_ (State.begin_changes _ _ _ _ _) (by decide)
            · refine OnlyChanges.step ?_ (Eq.mp (congrArg (OnlyChanges _ _) (congrArg Prod.snd (by assumption : _ = (_, _)))) (State.fresh_changes _)) (by decide)
              exact OnlyChanges.refl _ _
          · refine OnlyChanges.ite ?_ ?_
            · refine OnlyChanges.step ?_ (State.begin_changes _ _ _ _ _) (by decide)
              · refine OnlyChanges.step ?_ (Eq.mp (congrArg (OnlyChanges _ _) (congrArg Prod.snd (by assumption : _ = (_, _)))) (State.fresh_changes _)) (by decide)
                exact OnlyChanges.refl _ _
            · refine OnlyChanges.step ?_ (State.begin_changes _ _ _ _ _) (by decide)
              · refine OnlyChanges.step ?_ (Eq.mp (congrArg (OnlyChanges _ _) (congrArg Prod.snd (by assumption : _ = (_, _)))) (State.fresh_changes _)) (by decide)
                exact OnlyChanges.refl _ _
      · clear_value x5_3
        split
        · refine OnlyChanges.step ?_ (Eq.mp (congrArg (OnlyChanges _ _) (congrArg Prod.snd (by assumption : _ = (_, _)))) (State.fresh_changes _)) (by decide)
          exact OnlyChanges.refl _ _
        · refine OnlyChanges.ite ?_ ?_
          · refine OnlyChanges.step ?_ (State.begin_changes _ _ _ _ _) (by decide)
            · refine OnlyChanges.step ?_ (Eq.mp (congrArg (OnlyChanges _ _) (congrArg Prod.snd (by assumption : _ = (_, _)))) (State.fresh_changes _)) (by decide)
              exact OnlyChanges.refl _ _
          · unfold x15_1
            extract_lets x17_0
            refine OnlyChanges.ite ?_ ?_
            · split
              · refine OnlyChanges.ite ?_ ?_
                · refine OnlyChanges.step ?_ (State.begin_changes _ _ _ _ _) (by decide)
                  · refine OnlyChanges.step ?_ (Eq.mp (congrArg (OnlyChanges _ _) (congrArg Prod.snd (by assumption : _ = (_, _)))) (State.fresh_changes _)) (by decide)
                    exact OnlyChanges.refl _ _
                · refine OnlyChanges.step ?_ (State.begin_changes _ _ _ _ _) (by decide)
                  · refine OnlyChanges.step ?_ (Eq.mp (congrArg (OnlyChanges _ _) (congrArg Prod.snd (by assumption : _ = (_, _)))) (State.fresh_changes _)) (by decide)
                    exact OnlyChanges.refl _ _
              · refine OnlyChanges.step ?_ (State.begin_changes _ _ _ _ _) (by decide)
                · refine OnlyChanges.step ?_ (Eq.mp (congrArg (OnlyChanges _ _) (congrArg Prod.snd (by assumption : _ = (_, _)))) (State.fresh_changes _)) (by decide)
                  exact OnlyChanges.refl _ _
            · split
              · refine OnlyChanges.step ?_ (State.begin_changes _ _ _ _ _) (by decide)
                · refine OnlyChanges.step ?_ (Eq.mp (congrArg (OnlyChanges _ _) (congrArg Prod.snd (by assumption : _ = (_, _)))) (State.fresh_changes _)) (by decide)
                  exact OnlyChanges.refl _ _
              · refine OnlyChanges.ite ?_ ?_
                · refine OnlyChanges.step ?_ (State.begin_changes _ _ _ _ _) (by decide)
                  · refine OnlyChanges.step ?_ (Eq.mp (congrArg (OnlyChanges _ _) (congrArg Prod.snd (by assumption : _ = (_, _)))) (State.fresh_changes _)) (by decide)
                    exact OnlyChanges.refl _ _
                · refine OnlyChanges.step ?_ (State.begin_changes _ _ _ _ _) (by decide)
                  · refine OnlyChanges.step ?_ (Eq.mp (congrArg (OnlyChanges _ _) (congrArg Prod.snd (by assumption : _ = (_, _)))) (State.fresh_changes _)) (by decide)
                    exact OnlyChanges.refl _ _

theorem execDescriptorStart_changes (ch : Fin 1024) (s : State) : ∃ t, (execDescriptorStart ch s) = .next t ∧ OnlyChanges [.power, .nextId, .faults, .frames, .snap, .recd, .ctxs] s t := by
  refine ⟨_, rfl, ?_⟩
  extract_lets x2_0
  split
  · exact OnlyChanges.refl _ _
  · extract_lets x8_0
    split
    · exact OnlyChanges.refl _ _
    · refine OnlyChanges.ite ?_ ?_
      · refine OnlyChanges.step ?_ (State.startHead_changes _ _ _ _ _) (by decide)
        · exact OnlyChanges.refl _ _
      · refine OnlyChanges.ite ?_ ?_
        · refine OnlyChanges.step ?_ (State.wakeExpanders_changes _) (by decide)
          · exact OnlyChanges.refl _ _
        · exact OnlyChanges.refl _ _

theorem execWaitSatisfied_changes (c : CtxNo) (s : State) : ∃ t, (execWaitSatisfied c s) = .next t ∧ OnlyChanges [.readyQ, .ctxs, .chans, .tally] s t := by
  refine ⟨_, rfl, ?_⟩
  extract_lets x2_0 x2_1
  have h4 : OnlyChanges [Part.readyQ, Part.ctxs, Part.chans, Part.tally] s x2_1 := by
    unfold x2_1
    refine OnlyChanges.step ?_ (State.disarm_changes _ _) (by decide)
    · exact OnlyChanges.refl _ _
  refine OnlyChanges.ite ?_ ?_
  · exact OnlyChanges.refl _ _
  · refine OnlyChanges.ite ?_ ?_
    · refine OnlyChanges.step ?_ (State.modCtx_changes _ _ _) (by decide)
      · refine OnlyChanges.step ?_ (State.toState_changes _ _ _) (by decide)
        · exact h4
    · refine OnlyChanges.step ?_ (State.toState_changes _ _ _) (by decide)
      · exact h4

theorem State.judgeWaits_changes (s : State) (c : CtxNo) : OnlyChanges [.ctxs] s (State.judgeWaits s c) := by
  unfold State.judgeWaits
  refine OnlyChanges.step ?_ (State.modCtx_changes _ _ _) (by decide)
  · exact OnlyChanges.refl _ _

theorem State.afterDone_changes (s : State) (c : CtxNo) : OnlyChanges [.chans, .tally, .ctxs, .readyQ] s (State.afterDone s c) := by
  unfold State.afterDone
  extract_lets x2_0 x2_1
  have h4 : OnlyChanges [Part.chans, Part.tally, Part.ctxs, Part.readyQ] s x2_0 := by
    unfold x2_0
    refine OnlyChanges.step ?_ (State.stopIfDone_changes _ _) (by decide)
    · exact OnlyChanges.refl _ _
  refine OnlyChanges.ite ?_ ?_
  · refine OnlyChanges.step ?_ (State.unbind_changes _ _) (by decide)
    · refine OnlyChanges.step ?_ (State.toState_changes _ _ _) (by decide)
      · exact h4
  · exact h4

theorem State.bootStart_changes (s : State) (why : BootWhy) (addr : BitVec 56) : OnlyChanges [.keeper] s (State.bootStart s why addr) := by
  unfold State.bootStart
  refine OnlyChanges.step ?_ (State.kmPush_changes _ _) (by decide)
  · refine OnlyChanges.step ?_ (State.modKeeper_changes _ _) (by decide)
    · exact OnlyChanges.refl _ _

theorem State.backTo_changes (s : State) (f : ℕ) (was : FrameState) : OnlyChanges [.frames, .power] s (State.backTo s f was) := by
  unfold State.backTo
  refine OnlyChanges.ite ?_ ?_
  · exact OnlyChanges.refl _ _
  · split
    · refine OnlyChanges.foldl _ (fun t4 _ => ?_) _ _ ?_
      · refine OnlyChanges.step ?_ (State.retainUp_changes _ _) (by decide)
        · exact OnlyChanges.refl _ _
      · refine OnlyChanges.step ?_ (State.clockDown_changes _ _) (by decide)
        · refine OnlyChanges.step ?_ (State.modFrame_changes _ _ _) (by decide)
          · exact OnlyChanges.refl _ _
    · refine OnlyChanges.step ?_ (State.frameOff_changes _ _) (by decide)
      · exact OnlyChanges.refl _ _
    · exact OnlyChanges.refl _ _

theorem State.letStay_changes (s : State) (f : ℕ) : OnlyChanges [.ctxs] s (State.letStay s f) := by
  unfold State.letStay
  refine OnlyChanges.foldl _ (fun t2 _ => ?_) _ _ ?_
  · split
    · refine OnlyChanges.ite ?_ ?_
      · exact OnlyChanges.refl _ _
      · refine OnlyChanges.step ?_ (State.modCtx_changes _ _ _) (by decide)
        · exact OnlyChanges.refl _ _
    · exact OnlyChanges.refl _ _
  · exact OnlyChanges.refl _ _

theorem State.releaseFrame_changes (s : State) (f : ℕ) : OnlyChanges [.frames, .ctxs] s (State.releaseFrame s f) := by
  unfold State.releaseFrame
  refine OnlyChanges.step ?_ (State.letStay_changes _ _) (by decide)
  · refine OnlyChanges.step ?_ (State.modFrame_changes _ _ _) (by decide)
    · exact OnlyChanges.refl _ _

theorem State.endHeld_changes (s : State) (f : ℕ) (was : FrameState) : OnlyChanges [.ctxs, .frames, .power, .ftest] s (State.endHeld s f was) := by
  unfold State.endHeld
  refine OnlyChanges.step ?_ (State.backTo_changes _ _ _) (by decide)
  · refine OnlyChanges.step ?_ (State.releaseFrame_changes _ _) (by decide)
    · refine OnlyChanges.put_ftest _ ?_ (by decide)
      exact OnlyChanges.refl _ _

theorem State.endHeldTest_changes (s : State) : OnlyChanges [.ftest, .frames, .ctxs, .power] s (State.endHeldTest s) := by
  unfold State.endHeldTest
  split
  · refine OnlyChanges.step ?_ (State.endHeld_changes _ _ _) (by decide)
    · exact OnlyChanges.refl _ _
  · refine OnlyChanges.put_ftest _ ?_ (by decide)
    exact OnlyChanges.refl _ _

theorem State.keeperReset_changes (s : State) : OnlyChanges [.keeper, .fabric, .xlate, .ftest, .frames, .ctxs, .swarms, .faults, .sec, .power, .snap, .recd, .free] s (State.keeperReset s) := by
  unfold State.keeperReset
  extract_lets x1_0 x1_1 x1_2 x1_3
  have h5 : OnlyChanges [Part.keeper, Part.fabric, Part.xlate, Part.ftest, Part.frames, Part.ctxs, Part.swarms, Part.faults, Part.sec, Part.power, Part.snap, Part.recd, Part.free] s x1_0.2 := by
    unfold x1_0
    refine OnlyChanges.step ?_ (State.draw_changes _) (by decide)
    · exact OnlyChanges.refl _ _
  have h6 : OnlyChanges [Part.keeper, Part.fabric, Part.xlate, Part.ftest, Part.frames, Part.ctxs, Part.swarms, Part.faults, Part.sec, Part.power, Part.snap, Part.recd, Part.free] s x1_1 := by
    unfold x1_1
    refine OnlyChanges.step ?_ (State.zeroiseKeeper_changes _) (by decide)
    · refine OnlyChanges.step ?_ (State.endHeldTest_changes _) (by decide)
      · exact h5
  have h7 : OnlyChanges [Part.keeper, Part.fabric, Part.xlate, Part.ftest, Part.frames, Part.ctxs, Part.swarms, Part.faults, Part.sec, Part.power, Part.snap, Part.recd, Part.free] s x1_2 := by
    unfold x1_2
    refine OnlyChanges.step ?_ (State.modKeeper_changes _ _) (by decide)
    · exact h6
  have h8 : OnlyChanges [Part.keeper, Part.fabric, Part.xlate, Part.ftest, Part.frames, Part.ctxs, Part.swarms, Part.faults, Part.sec, Part.power, Part.snap, Part.recd, Part.free] s x1_3 := by
    unfold x1_3
    refine OnlyChanges.step ?_ (State.modXlate_changes _ _) (by decide)
    · exact h7
  refine OnlyChanges.ite ?_ ?_
  · refine OnlyChanges.step ?_ (State.romFailed_changes _) (by decide)
    · exact h8
  · refine OnlyChanges.ite ?_ ?_
    · refine OnlyChanges.step ?_ (State.modKeeper_changes _ _) (by decide)
      · exact h8
    · refine OnlyChanges.step ?_ (State.bootStart_changes _ _ _) (by decide)
      · exact h8

theorem State.knockDropWrite_changes (s : State) (w : Word) : OnlyChanges [.regs] s (State.knockDropWrite s w) := by
  unfold State.knockDropWrite
  extract_lets x2_0 x2_1
  refine OnlyChanges.ite ?_ ?_
  · refine OnlyChanges.put_regs _ ?_ (by decide)
    exact OnlyChanges.refl _ _
  · exact OnlyChanges.refl _ _

theorem State.cap0Write_changes (s : State) (w : Word) : OnlyChanges [.faults] s (State.cap0Write s w) := by
  unfold State.cap0Write
  refine OnlyChanges.ite ?_ ?_
  · refine OnlyChanges.step ?_ (State.modFaults_changes _ _) (by decide)
    · exact OnlyChanges.refl _ _
  · exact OnlyChanges.refl _ _

theorem execFcValidClear_changes (w : Word) (s : State) : ∃ t, (execFcValidClear w s) = .next t ∧ OnlyChanges [.faults] s t := by
  refine ⟨_, rfl, ?_⟩
  refine OnlyChanges.ite ?_ ?_
  · refine OnlyChanges.step ?_ (State.cap0Write_changes _ _) (by decide)
    · exact OnlyChanges.refl _ _
  · exact OnlyChanges.refl _ _

theorem State.onCtx_ho {ps : List Part} {s t : State} {o : Origin} {c : CtxNo} {f : Ctx → State} (hs : ∀ p ∈ [Part.mboxes, .keeper, .fabric, .recd, .faults, .frames, .snap], p ∈ ps)
    (h : OnlyChanges ps s t) (k : ∀ x, OnlyChanges ps s (f x)) : OnlyChanges ps s (t.onCtx o c f) := by
  have hv : ∀ a b r, OnlyChanges ps s (t.verbDone o a b r) := fun a b r =>
    h.step (State.verbDone_changes _ _ _ _ _) fun p hp => hs p (by revert hp; cases p <;> decide)
  unfold State.onCtx
  exact .ite (hv _ _ _) (.ite (h.step (State.refuseTenant_changes _ _) hs) (.ite (hv _ _ _) (k _)))

theorem execCtxResume_changes (o : Origin) (s : State) : ∃ t, (execCtxResume o s) = .next t ∧ OnlyChanges [.readyQ, .ctxs, .mboxes, .keeper, .fabric, .recd, .faults, .frames, .snap] s t := by
  refine ⟨_, rfl, ?_⟩
  apply State.runVerb_ho
  · decide
  · exact OnlyChanges.refl _ _
  · intro a2
    extract_lets x3_0
    apply State.onCtx_ho
    · decide
    · exact OnlyChanges.refl _ _
    · intro a4
      extract_lets x5_0
      refine OnlyChanges.ite ?_ ?_
      · refine OnlyChanges.step ?_ (State.verbDone_changes _ _ _ _ _) (by decide)
        · exact OnlyChanges.refl _ _
      · refine OnlyChanges.step ?_ (State.verbDone_changes _ _ _ _ _) (by decide)
        · refine OnlyChanges.step ?_ (State.toState_changes _ _ _) (by decide)
          · refine OnlyChanges.step ?_ (State.modCtx_changes _ _ _) (by decide)
            · exact OnlyChanges.refl _ _

theorem State.beatBack_changes (s : State) (w : CtxNo × ℕ) : OnlyChanges [.ctxs] s (State.beatBack s w) := by
  unfold State.beatBack
  refine OnlyChanges.step ?_ (State.modWork_changes _ _ _ _) (by decide)
  · exact OnlyChanges.refl _ _

theorem State.dropCrossing_changes (s : State) (p : ℕ) (b : Beat) : OnlyChanges [.ctxs, .ports] s (State.dropCrossing s p b) := by
  unfold State.dropCrossing
  extract_lets x3_0
  refine OnlyChanges.step ?_ (State.beatBack_changes _ _) (by decide)
  · refine OnlyChanges.step ?_ (State.setPort_changes _ _ _) (by decide)
    · exact OnlyChanges.refl _ _

theorem State.dropBeats_changes (s : State) (c : CtxNo) : OnlyChanges [.ports, .spine, .ctxs] s (State.dropBeats s c) := by
  unfold State.dropBeats
  extract_lets x2_0 x2_1 x2_2 x2_3 x2_4
  have h7 : OnlyChanges [Part.ports, Part.spine, Part.ctxs] s x2_1 := by
    unfold x2_1
    refine OnlyChanges.foldl _ (fun t7 _ => ?_) _ _ ?_
    · refine OnlyChanges.step ?_ (State.beatBack_changes _ _) (by decide)
      · exact OnlyChanges.refl _ _
    · exact OnlyChanges.refl _ _
  have h8 : OnlyChanges [Part.ports, Part.spine, Part.ctxs] s x2_2 := by
    unfold x2_2
    refine OnlyChanges.put_ports _ ?_ (by decide)
    exact h7
  have h9 : OnlyChanges [Part.ports, Part.spine, Part.ctxs] s x2_4 := by
    unfold x2_4
    refine OnlyChanges.put_spine _ ?_ (by decide)
    exact h8
  refine OnlyChanges.foldl _ (fun t10 _ => ?_) _ _ ?_
  · refine OnlyChanges.foldl _ (fun t12 _ => ?_) _ _ ?_
    · refine OnlyChanges.step ?_ (State.dropCrossing_changes _ _ _) (by decide)
      · exact OnlyChanges.refl _ _
    · exact OnlyChanges.refl _ _
  · exact h9

theorem State.kbWrite_changes (s : State) (w : Word) : OnlyChanges [.keeper, .faults, .frames, .snap, .recd] s (State.kbWrite s w) := by
  unfold State.kbWrite
  extract_lets x2_0 x2_1 x2_2 x2_3
  have h6 : OnlyChanges [Part.keeper, Part.faults, Part.frames, Part.snap, Part.recd] s x2_0 := by
    unfold x2_0
    refine OnlyChanges.step ?_ (State.modKeeper_changes _ _) (by decide)
    · exact OnlyChanges.refl _ _
  have h7 : OnlyChanges [Part.keeper, Part.faults, Part.frames, Part.snap, Part.recd] s x2_3 := by
    unfold x2_3
    refine OnlyChanges.step ?_ (State.modKeeper_changes _ _) (by decide)
    · exact h6
  refine OnlyChanges.ite ?_ ?_
  · exact h6
  · refine OnlyChanges.ite ?_ ?_
    · refine OnlyChanges.step ?_ (State.bootFailed_changes _) (by decide)
      · exact h7
    · refine OnlyChanges.step ?_ (State.bootStart_changes _ _ _) (by decide)
      · exact h7

theorem State.poolQueue_changes (s : State) (f : ℕ) (a : Asker) : OnlyChanges [.frames] s (State.poolQueue s f a) := by
  unfold State.poolQueue
  extract_lets x3_0
  refine OnlyChanges.ite ?_ ?_
  · refine OnlyChanges.step ?_ (State.modFrame_changes _ _ _) (by decide)
    · exact OnlyChanges.refl _ _
  · exact OnlyChanges.refl _ _

theorem State.poolWaiters_changes (s : State) (f : ℕ) : OnlyChanges [.frames] s (State.poolWaiters s f) := by
  unfold State.poolWaiters
  extract_lets x2_0 x2_1
  have h4 : OnlyChanges [Part.frames] s x2_1 := by
    unfold x2_1
    refine OnlyChanges.ite ?_ ?_
    · exact OnlyChanges.refl _ _
    · refine OnlyChanges.step ?_ (State.modFrame_changes _ _ _) (by decide)
      · exact OnlyChanges.refl _ _
  refine OnlyChanges.foldl _ (fun t5 _ => ?_) _ _ ?_
  · refine OnlyChanges.step ?_ (State.poolQueue_changes _ _ _) (by decide)
    · exact OnlyChanges.refl _ _
  · exact h4

theorem State.answerRead_changes (s : State) (v : ℕ) : OnlyChanges [.regs] s (State.answerRead s v) := by
  unfold State.answerRead
  extract_lets x2_0
  refine OnlyChanges.put_regs _ ?_ (by decide)
  exact OnlyChanges.refl _ _

theorem execSmokerStatRead_changes (s : State) : ∃ t, (execSmokerStatRead s) = .next t ∧ OnlyChanges [.power, .regs] s t := by
  refine ⟨_, rfl, ?_⟩
  extract_lets x1_0 x1_1
  have h3 : OnlyChanges [Part.power, Part.regs] s x1_0 := by
    unfold x1_0
    refine OnlyChanges.step ?_ (State.answerRead_changes _ _) (by decide)
    · exact OnlyChanges.refl _ _
  refine OnlyChanges.ite ?_ ?_
  · refine OnlyChanges.step ?_ (State.answerRead_changes _ _) (by decide)
    · exact OnlyChanges.refl _ _
  · refine OnlyChanges.put_power _ ?_ (by decide)
    exact h3

theorem execRekeyTimeout_changes (l : Fin 18) (s : State) : ∃ t, (execRekeyTimeout l s) = .next t ∧ OnlyChanges [.fabric, .free, .mboxes, .keeper, .recd, .frames, .ctxs, .faults, .snap] s t := by
  refine ⟨_, rfl, ?_⟩
  split
  · refine OnlyChanges.step ?_ (State.linkDown_changes _ _ _ _) (by decide)
    · exact OnlyChanges.refl _ _
  · exact OnlyChanges.refl _ _

theorem State.rebind_changes (s : State) (m : ℕ) (t : Option Tenant) : OnlyChanges [.mboxes] s (State.rebind s m t) := by
  unfold State.rebind
  refine OnlyChanges.step ?_ (State.modMbox_changes _ _ _) (by decide)
  · exact OnlyChanges.refl _ _

theorem State.relayNext_changes (s : State) (c : ChipNo) : OnlyChanges [.mboxes, .keeper, .fabric, .recd] s (State.relayNext s c) := by
  unfold State.relayNext
  refine OnlyChanges.foldl _ (fun t2 _ => ?_) _ _ ?_
  · refine OnlyChanges.step ?_ (State.relaySend_changes _ _ _) (by decide)
    · exact OnlyChanges.refl _ _
  · exact OnlyChanges.refl _ _

theorem execRelayTimeout_changes (m : Fin 32) (s : State) : ∃ t, (execRelayTimeout m s) = .next t ∧ OnlyChanges [.mboxes, .keeper, .fabric, .recd] s t := by
  refine ⟨_, rfl, ?_⟩
  split
  · refine OnlyChanges.ite ?_ ?_
    · refine OnlyChanges.step ?_ (State.relayNext_changes _ _) (by decide)
      · refine OnlyChanges.step ?_ (State.verbDone_changes _ _ _ _ _) (by decide)
        · exact OnlyChanges.refl _ _
    · exact OnlyChanges.refl _ _
  · exact OnlyChanges.refl _ _

theorem State.deliver_changes (s : State) (l : ℕ) (cls : ℕ) (m : Msg) : OnlyChanges [.fabric] s (State.deliver s l cls m) := by
  unfold State.deliver
  extract_lets x4_0 x4_1 x4_2
  have h7 : OnlyChanges [Part.fabric] s x4_2.2 := by
    unfold x4_2
    refine OnlyChanges.step ?_ (State.nextLink_changes _ _ _) (by decide)
    · exact OnlyChanges.refl _ _
  refine OnlyChanges.ite ?_ ?_
  · refine OnlyChanges.step ?_ (State.modLink_changes _ _ _) (by decide)
    · exact OnlyChanges.refl _ _
  · refine OnlyChanges.ite ?_ ?_
    · exact OnlyChanges.refl _ _
    · refine OnlyChanges.ite ?_ ?_
      · unfold x4_1
        extract_lets x8_0
        refine OnlyChanges.ite ?_ ?_
        · exact OnlyChanges.refl _ _
        · refine OnlyChanges.step ?_ (State.sendMsg_changes _ _) (by decide)
          · exact OnlyChanges.refl _ _
      · refine OnlyChanges.ite ?_ ?_
        · unfold x4_1
          extract_lets x8_0
          refine OnlyChanges.ite ?_ ?_
          · exact OnlyChanges.refl _ _
          · refine OnlyChanges.step ?_ (State.sendMsg_changes _ _) (by decide)
            · exact OnlyChanges.refl _ _
        · refine OnlyChanges.step ?_ (State.modLink_changes _ _ _) (by decide)
          · exact h7

theorem State.openFlit_changes (s : State) (l : ℕ) (f : Bytes) (body : Bytes) : OnlyChanges [.faults, .frames, .snap, .recd, .fabric] s (State.openFlit s l f body) := by
  unfold State.openFlit
  extract_lets x4_0 x4_1 x4_2 x4_3 x4_4 x4_5 x4_6 x4_7 x4_8 x4_9 x4_10 x4_11
  have h16 : OnlyChanges [Part.faults, Part.frames, Part.snap, Part.recd, Part.fabric] s x4_9 := by
    unfold x4_9
    refine OnlyChanges.step ?_ (State.setLink_changes _ _ _) (by decide)
    · exact OnlyChanges.refl _ _
  have h17 : OnlyChanges [Part.faults, Part.frames, Part.snap, Part.recd, Part.fabric] s x4_10 := by
    unfold x4_10
    refine OnlyChanges.step ?_ (State.modFabric_changes _ _) (by decide)
    · exact h16
  have h18 : OnlyChanges [Part.faults, Part.frames, Part.snap, Part.recd, Part.fabric] s x4_11 := by
    unfold x4_11
    refine OnlyChanges.foldl _ (fun t18 _ => ?_) _ _ ?_
    · refine OnlyChanges.step ?_ (State.deliver_changes _ _ _ _) (by decide)
      · exact OnlyChanges.refl _ _
    · exact h17
  refine OnlyChanges.foldl _ (fun t19 _ => ?_) _ _ ?_
  · refine OnlyChanges.step ?_ (State.linkProtocol_changes _ _) (by decide)
    · exact OnlyChanges.refl _ _
  · refine OnlyChanges.step ?_ (State.bufSettle_changes _ _) (by decide)
    · exact h18

theorem State.settleDomain_changes (s : State) (d : ℕ) : OnlyChanges [.power] s (State.settleDomain s d) := by
  unfold State.settleDomain
  refine OnlyChanges.ite ?_ ?_
  · refine OnlyChanges.step ?_ (State.powerDown_changes _ _) (by decide)
    · exact OnlyChanges.refl _ _
  · refine OnlyChanges.ite ?_ ?_
    · exact OnlyChanges.refl _ _
    · refine OnlyChanges.ite ?_ ?_
      · refine OnlyChanges.step ?_ (State.powerUp_changes _ _) (by decide)
        · exact OnlyChanges.refl _ _
      · exact OnlyChanges.refl _ _

theorem State.pinWrite_changes (s : State) (w : BitVec 32) : OnlyChanges [.faults] s (State.pinWrite s w) := by
  unfold State.pinWrite
  refine OnlyChanges.step ?_ (State.modFaults_changes _ _) (by decide)
  · exact OnlyChanges.refl _ _

theorem State.takeRefusal_changes (s : State) (m : Msg) (c : ChipNo) (by_ : ChipNo) : OnlyChanges [.ctxs, .frames, .fabric] s (State.takeRefusal s m c by_) := by
  unfold State.takeRefusal
  extract_lets x4_0
  refine OnlyChanges.ite ?_ ?_
  · refine OnlyChanges.step ?_ (State.failRead_changes _ _ _ _ _) (by decide)
    · exact OnlyChanges.refl _ _
  · refine OnlyChanges.ite ?_ ?_
    · refine OnlyChanges.step ?_ (State.failGroup_changes _ _ _ _ _) (by decide)
      · exact OnlyChanges.refl _ _
    · refine OnlyChanges.step ?_ (State.failRead_changes _ _ _ _ _) (by decide)
      · exact OnlyChanges.refl _ _

theorem State.takeRefuse_changes (s : State) (m : Msg) : OnlyChanges [.frames, .fabric, .ctxs] s (State.takeRefuse s m) := by
  unfold State.takeRefuse
  extract_lets x2_0
  refine OnlyChanges.ite ?_ ?_
  · refine OnlyChanges.step ?_ (State.takeRefusal_changes _ _ _ _) (by decide)
    · exact OnlyChanges.refl _ _
  · split
    · refine OnlyChanges.step ?_ (State.takeRefusal_changes _ _ _ _) (by decide)
      · exact OnlyChanges.refl _ _
    · refine OnlyChanges.ite ?_ ?_
      · exact OnlyChanges.refl _ _
      · refine OnlyChanges.step ?_ (State.takeRefusal_changes _ _ _ _) (by decide)
        · exact OnlyChanges.refl _ _

theorem State.takeMsg_ho {ps : List Part} {s t : State} {l : Nat} {op : BitVec 5} {f : Msg → Option (State × Bool)} (hs : ∀ p ∈ [Part.fabric], p ∈ ps)
    (h : OnlyChanges ps s t) (k : ∀ m, PairMay ps s (f m)) : OnlyChanges ps s (t.takeMsg l op f) := by
  unfold State.takeMsg
  split
  · exact h
  all_goals
    rename_i e u hu
    obtain ⟨a, b, x, hl, he, hb⟩ := List.findSome?_eq_some_iff.mp hu
    split at he
    · simp only [Option.map_eq_some_iff] at he
      obtain ⟨q, hq, hr⟩ := he
      have := k _ q hq
      cases hr
      first
        | exact this
        | exact (OnlyChanges.step this (State.modLink_changes _ _ _) hs).step (State.bufSettle_changes _ _) hs
    · exact nomatch he

theorem execRefuse_changes (l : Fin 18) (s : State) : ∃ t, (execRefuse l s) = .next t ∧ OnlyChanges [.frames, .fabric, .ctxs] s t := by
  refine ⟨_, rfl, ?_⟩
  apply State.takeMsg_ho
  · decide
  · exact OnlyChanges.refl _ _
  · intro a2
    refine PairMay.some ?_
    refine OnlyChanges.step ?_ (State.takeRefuse_changes _ _) (by decide)
    · exact OnlyChanges.refl _ _

theorem State.busError_changes (s : State) (f : ℕ) (tap : ℕ) (b : Blame) (wr : Bool) (access : ℕ) (sub : ℕ) (addr : ℕ) (space : ℕ) : OnlyChanges [.ctxs, .chans, .tally, .readyQ, .faults, .frames, .snap, .recd] s (State.busError s f tap b wr access sub addr space) := by
  unfold State.busError
  extract_lets x9_0 x9_1 x9_2
  have h12 : OnlyChanges [Part.ctxs, Part.chans, Part.tally, Part.readyQ, Part.faults, Part.frames, Part.snap, Part.recd] s x9_2 := by
    unfold x9_2
    refine OnlyChanges.step ?_ (State.stopFrame_changes _ _ _) (by decide)
    · refine OnlyChanges.step ?_ (State.raise_changes _ _) (by decide)
      · exact OnlyChanges.refl _ _
  split
  · refine OnlyChanges.step ?_ (State.ringFault_changes _ _ _ _ _ _) (by decide)
    · refine OnlyChanges.step ?_ (State.dropSvc_changes _ _ _) (by decide)
      · exact h12
  · exact h12

theorem State.ringBusError_changes (s : State) (f : ℕ) (p : ℕ) (c : CtxNo) (i : BitVec 16) : OnlyChanges [.ctxs, .chans, .tally, .readyQ, .faults, .frames, .snap, .recd] s (State.ringBusError s f p c i) := by
  unfold State.ringBusError
  refine OnlyChanges.step ?_ (State.busError_changes _ _ _ _ _ _ _ _ _) (by decide)
  · exact OnlyChanges.refl _ _

theorem State.withRing_ho {ps : List Part} {s t : State} {f : Nat} {c : CtxNo} {i : BitVec 16} {k : State → Nat → State} (hs : ∀ p ∈ [Part.ctxs, .chans, .tally, .readyQ, .faults, .frames, .snap, .recd, .xlate, .nextId], p ∈ ps)
    (h : OnlyChanges ps s t) (hk : ∀ u p, OnlyChanges ps s u → OnlyChanges ps s (k u p)) : OnlyChanges ps s (t.withRing f c i k) := by
  unfold State.withRing
  extract_lets x a
  split
  · exact hk _ _ (h.step (State.used_changes _ _ _) fun p hp => hs p (by revert hp; cases p <;> decide))
  · exact .ite h (MayChange.getD (.step h (State.startWalk_changes _ _ _ _ _) fun p hp => hs p (by revert hp; cases p <;> decide)) h)
  · exact (h.step (State.xlateFault_changes _ _ _ _ _ _ _) fun p hp => hs p (by revert hp; cases p <;> decide)).step
      (State.ringFault_changes _ _ _ _ _ _) fun p hp => hs p (by revert hp; cases p <;> decide)
  · exact h

theorem State.setEntry_changes (s : State) (f : ℕ) (n : ℕ) (e : WEntry) : OnlyChanges [.frames] s (State.setEntry s f n e) := by
  unfold State.setEntry
  refine OnlyChanges.step ?_ (State.modFrame_changes _ _ _) (by decide)
  · exact OnlyChanges.refl _ _

theorem State.chanWrite_changes (s : State) (t : ℕ) (ch : ℕ) (c : CtxNo) : MayChange [.frames, .xlate, .taps, .tally, .ctxs, .chans] s (State.chanWrite s t ch c) := by
  unfold State.chanWrite
  extract_lets x4_0
  split
  · exact MayChange.none _ _
  · split
    · exact MayChange.none _ _
    · extract_lets x16_0
      refine MayChange.ite ?_ ?_
      · exact MayChange.none _ _
      · split
        · extract_lets x24_0
          refine MayChange.ite ?_ ?_
          · exact MayChange.none _ _
          · split
            · exact MayChange.none _ _
            · extract_lets x30_0 x30_1
              have h32 : OnlyChanges [Part.frames, Part.xlate, Part.taps, Part.tally, Part.ctxs, Part.chans] s x30_0 := by
                unfold x30_0
                refine OnlyChanges.step ?_ (State.rateTake_changes _ _ _ _ _) (by decide)
                · refine OnlyChanges.step ?_ (State.setEntry_changes _ _ _ _) (by decide)
                  · refine OnlyChanges.step ?_ (State.used_changes _ _ _) (by decide)
                    · exact OnlyChanges.refl _ _
              have h33 : OnlyChanges [Part.frames, Part.xlate, Part.taps, Part.tally, Part.ctxs, Part.chans] s x30_1 := by
                unfold x30_1
                refine OnlyChanges.step ?_ (State.modWork_changes _ _ _ _) (by decide)
                · exact h32
              refine MayChange.ite ?_ ?_
              · exact MayChange.none _ _
              · refine MayChange.some ?_
                refine OnlyChanges.step ?_ (State.present_changes _ _ _ _) (by decide)
                · exact h33
        · exact MayChange.none _ _

theorem State.svcTaken_changes (s : State) (f : ℕ) (r : SvcReq) : OnlyChanges [.frames] s (State.svcTaken s f r) := by
  unfold State.svcTaken
  refine OnlyChanges.step ?_ (State.modFrame_changes _ _ _) (by decide)
  · exact OnlyChanges.refl _ _

theorem State.svcIssue_changes (s : State) (t : ℕ) (r : SvcReq) : MayChange [.frames, .xlate, .taps, .tally, .ctxs] s (State.svcIssue s t r) := by
  unfold State.svcIssue
  extract_lets x3_0
  split
  · split
    · extract_lets x13_0 x13_1 x13_2 x13_3
      refine MayChange.ite ?_ ?_
      · exact MayChange.none _ _
      · refine MayChange.some ?_
        refine OnlyChanges.step ?_ (State.present_changes _ _ _ _) (by decide)
        · refine OnlyChanges.step ?_ (State.claimSlot_changes _ _ _ _ _) (by decide)
          · refine OnlyChanges.step ?_ (State.svcTaken_changes _ _ _) (by decide)
            · exact OnlyChanges.refl _ _
    · exact MayChange.none _ _
  · extract_lets x8_0
    split
    · extract_lets x22_0
      refine MayChange.ite ?_ ?_
      · exact MayChange.none _ _
      · refine MayChange.some ?_
        refine OnlyChanges.step ?_ (State.present_changes _ _ _ _) (by decide)
        · refine OnlyChanges.step ?_ (State.claimSlot_changes _ _ _ _ _) (by decide)
          · refine OnlyChanges.step ?_ (State.used_changes _ _ _) (by decide)
            · refine OnlyChanges.step ?_ (State.svcTaken_changes _ _ _) (by decide)
              · exact OnlyChanges.refl _ _
    · exact MayChange.none _ _
  · split
    · extract_lets x21_0 x21_1
      have h23 : OnlyChanges [Part.frames, Part.xlate, Part.taps, Part.tally, Part.ctxs] s x21_1 := by
        unfold x21_1
        refine OnlyChanges.step ?_ (State.modWork_changes _ _ _ _) (by decide)
        · refine OnlyChanges.step ?_ (State.setEntry_changes _ _ _ _) (by decide)
          · refine OnlyChanges.step ?_ (State.used_changes _ _ _) (by decide)
            · refine OnlyChanges.step ?_ (State.svcTaken_changes _ _ _) (by decide)
              · exact OnlyChanges.refl _ _
      refine MayChange.ite ?_ ?_
      · exact MayChange.none _ _
      · refine MayChange.some ?_
        refine OnlyChanges.step ?_ (State.present_changes _ _ _ _) (by decide)
        · exact h23
    · exact MayChange.none _ _

theorem State.slotEcc_changes (s : State) (f : ℕ) (n : ℕ) : OnlyChanges [.frames, .faults, .snap, .recd, .fabric, .ctxs] s (State.slotEcc s f n).1 := by
  unfold State.slotEcc
  extract_lets x3_0 x3_1 x3_2 x3_3 x3_4
  have h8 : OnlyChanges [Part.frames, Part.faults, Part.snap, Part.recd, Part.fabric, Part.ctxs] s x3_1 := by
    unfold x3_1
    refine OnlyChanges.step ?_ (State.setSlotAt_changes _ _ _ _) (by decide)
    · exact OnlyChanges.refl _ _
  have h9 : OnlyChanges [Part.frames, Part.faults, Part.snap, Part.recd, Part.fabric, Part.ctxs] s x3_4 := by
    unfold x3_4
    refine OnlyChanges.step ?_ (State.raise_changes _ _) (by decide)
    · exact h8
  split
  · dsimp only
    exact OnlyChanges.refl _ _
  · split
    · dsimp only
      exact h9
    · split
      · dsimp only
        refine OnlyChanges.step ?_ (State.endWork_changes _ _ _ _ _) (by decide)
        · exact h9
      · dsimp only
        refine OnlyChanges.step ?_ (State.modFrame_changes _ _ _) (by decide)
        · refine OnlyChanges.step ?_ (State.setSlotAt_changes _ _ _ _) (by decide)
          · exact h9
      · dsimp only
        refine OnlyChanges.step ?_ (State.setSlotAt_changes _ _ _ _) (by decide)
        · exact h9

theorem State.fabIssue_changes (s : State) (t : ℕ) : MayChange [.taps, .frames, .tally, .fabric, .ctxs, .faults, .snap, .recd] s (State.fabIssue s t) := by
  unfold State.fabIssue
  extract_lets x2_0
  split
  · exact MayChange.none _ _
  · extract_lets x9_0 x9_1 x9_2 x9_3 x9_4 x9_5 x9_6
    have h16 : OnlyChanges [Part.taps, Part.frames, Part.tally, Part.fabric, Part.ctxs, Part.faults, Part.snap, Part.recd] s x9_3.1 := by
      unfold x9_3
      split
      · refine OnlyChanges.step ?_ (State.slotEcc_changes _ _ _) (by decide)
        · exact OnlyChanges.refl _ _
      · dsimp only
        exact OnlyChanges.refl _ _
    have h17 : OnlyChanges [Part.taps, Part.frames, Part.tally, Part.fabric, Part.ctxs, Part.faults, Part.snap, Part.recd] s x9_4 := by
      unfold x9_4
      exact h16
    refine MayChange.ite ?_ ?_
    · exact MayChange.none _ _
    · refine MayChange.ite ?_ ?_
      · split
        · exact MayChange.none _ _
        · extract_lets x24_0 x24_1
          refine MayChange.ite ?_ ?_
          · exact MayChange.none _ _
          · refine MayChange.some ?_
            refine OnlyChanges.step ?_ (State.present_changes _ _ _ _) (by decide)
            · refine OnlyChanges.step ?_ (State.freeCredit_changes _ _) (by decide)
              · refine OnlyChanges.step ?_ (State.claimSlot_changes _ _ _ _ _) (by decide)
                · refine OnlyChanges.step ?_ (State.modFrame_changes _ _ _) (by decide)
                  · exact OnlyChanges.refl _ _
      · split
        · exact MayChange.none _ _
        · refine MayChange.ite ?_ ?_
          · exact MayChange.none _ _
          · refine MayChange.ite ?_ ?_
            · refine MayChange.some ?_
              refine OnlyChanges.step ?_ (State.fabDamaged_changes _ _ _ _) (by decide)
              · exact h17
            · refine MayChange.some ?_
              refine OnlyChanges.step ?_ (State.present_changes _ _ _ _) (by decide)
              · refine OnlyChanges.step ?_ (State.setEntry_changes _ _ _ _) (by decide)
                · refine OnlyChanges.step ?_ (State.dropFabSlot_changes _ _) (by decide)
                  · refine OnlyChanges.step ?_ (State.modFrame_changes _ _ _) (by decide)
                    · exact h17

theorem State.tryIssue_changes (s : State) (t : ℕ) (r : ℕ) : MayChange [.frames, .xlate, .taps, .tally, .ctxs, .chans, .fabric, .faults, .snap, .recd] s (State.tryIssue s t r) := by
  unfold State.tryIssue
  extract_lets x3_0
  refine MayChange.ite ?_ ?_
  · exact MayChange.none _ _
  · refine MayChange.ite ?_ ?_
    · split
      · exact MayChange.none _ _
      · refine MayChange.ite ?_ ?_
        · exact MayChange.none _ _
        · refine MayChange.orElse ?_ ?_
          · refine MayChange.step ?_ (State.chanWrite_changes _ _ _ _) (by decide)
            · exact OnlyChanges.refl _ _
          · refine MayChange.step ?_ (State.chanRead_changes _ _ _ _) (by decide)
            · exact OnlyChanges.refl _ _
    · refine MayChange.ite ?_ ?_
      · refine MayChange.step ?_ (State.fabIssue_changes _ _) (by decide)
        · exact OnlyChanges.refl _ _
      · refine MayChange.findSome (fun _ => ?_)
        · refine MayChange.step ?_ (State.svcIssue_changes _ _ _) (by decide)
          · exact OnlyChanges.refl _ _

theorem State.ringRead_changes (s : State) (f : ℕ) (p : ℕ) (c : CtxNo) (n : ℕ) (data : Bytes) : MayChange [.ctxs, .chans, .frames, .taps, .xlate, .tally, .fabric, .faults, .snap, .recd] s (State.ringRead s f p c n data) := by
  unfold State.ringRead
  extract_lets x6_0 x6_1 x6_2 x6_3
  split
  · exact MayChange.none _ _
  · extract_lets x16_0 x16_1 x16_2 x16_3
    have h20 : OnlyChanges [Part.ctxs, Part.chans, Part.frames, Part.taps, Part.xlate, Part.tally, Part.fabric, Part.faults, Part.snap, Part.recd] s x16_3 := by
      unfold x16_3
      refine OnlyChanges.step ?_ (State.setSlotAt_changes _ _ _ _) (by decide)
      · refine OnlyChanges.step ?_ (State.present_changes _ _ _ _) (by decide)
        · refine OnlyChanges.step ?_ (State.claimSlot_changes _ _ _ _ _) (by decide)
          · exact OnlyChanges.refl _ _
    refine MayChange.ite ?_ ?_
    · exact MayChange.none _ _
    · refine MayChange.some ?_
      refine OnlyChanges.step ?_ (State.setTap_changes _ _ _) (by decide)
      · exact h20

theorem execWatchPoll_changes (c : CtxNo) (f : Fin 16) (data : Bytes) (fail : Bool) (s : State) : ∃ t, (execWatchPoll c f data fail s) = .next t ∧ OnlyChanges [.readyQ, .ctxs, .chans, .tally, .faults, .frames, .snap, .recd, .xlate, .nextId, .taps, .fabric] s t := by
  refine ⟨_, rfl, ?_⟩
  extract_lets x5_0
  refine OnlyChanges.ite ?_ ?_
  · exact OnlyChanges.refl _ _
  · refine OnlyChanges.ite ?_ ?_
    · refine OnlyChanges.step ?_ (State.modCtx_changes _ _ _) (by decide)
      · exact OnlyChanges.refl _ _
    · refine OnlyChanges.ite ?_ ?_
      · exact OnlyChanges.refl _ _
      · apply State.withRing_ho
        · decide
        · exact OnlyChanges.refl _ _
        · intro a6
          intro a7
          intro a8
          split
          · refine OnlyChanges.step ?_ (State.poolQueue_changes _ _ _) (by decide)
            · exact a8
          · refine OnlyChanges.ite ?_ ?_
            · refine OnlyChanges.step ?_ (State.ringBusError_changes _ _ _ _ _) (by decide)
              · refine MayChange.get (State.ringRead_changes _ _ _ _ _ _) (by assumption) ?_ (by decide)
                exact a8
            · refine OnlyChanges.ite ?_ ?_
              · refine OnlyChanges.step ?_ (State.toState_changes _ _ _) (by decide)
                · refine MayChange.get (State.ringRead_changes _ _ _ _ _ _) (by assumption) ?_ (by decide)
                  exact a8
              · refine MayChange.get (State.ringRead_changes _ _ _ _ _ _) (by assumption) ?_ (by decide)
                exact a8

theorem execLaneLoss_changes (l : Fin 18) (s : State) : ∃ t, (execLaneLoss l s) = .next t ∧ OnlyChanges [.fabric, .free, .mboxes, .keeper, .recd, .frames, .ctxs, .faults, .snap] s t := by
  refine ⟨_, rfl, ?_⟩
  refine OnlyChanges.step ?_ (State.linkDown_changes _ _ _ _) (by decide)
  · exact OnlyChanges.refl _ _

theorem execFlashSectorErase_changes (s : State) : ∃ t, (execFlashSectorErase s) = .next t ∧ OnlyChanges [.recd] s t := by
  refine ⟨_, rfl, ?_⟩
  refine OnlyChanges.ite ?_ ?_
  · refine OnlyChanges.step ?_ (State.modRecd_changes _ _) (by decide)
    · exact OnlyChanges.refl _ _
  · exact OnlyChanges.refl _ _

theorem State.sendBeat_changes (s : State) (f : ℕ) (p : ℕ) (b : Beat) : MayChange [.spine, .ports] s (State.sendBeat s f p b) := by
  unfold State.sendBeat
  extract_lets x4_0 x4_1
  have h6 : OnlyChanges [Part.spine, Part.ports] s x4_1 := by
    unfold x4_1
    refine OnlyChanges.step ?_ (State.setPort_changes _ _ _) (by decide)
    · exact OnlyChanges.refl _ _
  refine MayChange.ite ?_ ?_
  · exact MayChange.none _ _
  · refine MayChange.ite ?_ ?_
    · refine MayChange.some ?_
      refine OnlyChanges.step ?_ (State.setPort_changes _ _ _) (by decide)
      · exact OnlyChanges.refl _ _
    · refine MayChange.some ?_
      refine OnlyChanges.put_spine _ ?_ (by decide)
      exact h6

theorem execMessageFlitReceive_changes (l : Fin 18) (flit : Bytes) (s : State) : ∃ t, (execMessageFlitReceive l flit s) = .next t ∧ OnlyChanges [.fabric] s t := by
  refine ⟨_, rfl, ?_⟩
  extract_lets x3_0
  refine OnlyChanges.ite ?_ ?_
  · refine OnlyChanges.step ?_ (State.setLink_changes _ _ _) (by decide)
    · exact OnlyChanges.refl _ _
  · exact OnlyChanges.refl _ _

theorem State.closeAll_changes (s : State) (c : CtxNo) (w : Work) : MayChange [.ctxs, .frames, .fabric] s (State.closeAll s c w) := by
  unfold State.closeAll
  extract_lets x3_0 x3_1
  have h5 : OnlyChanges [Part.ctxs, Part.frames, Part.fabric] s x3_1 := by
    unfold x3_1
    refine OnlyChanges.step ?_ (State.modWork_changes _ _ _ _) (by decide)
    · exact OnlyChanges.refl _ _
  split
  · refine MayChange.some ?_
    refine OnlyChanges.step ?_ (State.endWork_changes _ _ _ _ _) (by decide)
    · exact OnlyChanges.refl _ _
  · refine MayChange.ite ?_ ?_
    · refine MayChange.some ?_
      refine OnlyChanges.foldl _ (fun t10 _ => ?_) _ _ ?_
      · refine OnlyChanges.step ?_ (State.closeGroup_changes _ _ _ _) (by decide)
        · exact OnlyChanges.refl _ _
      · exact OnlyChanges.refl _ _
    · split
      · refine MayChange.ite ?_ ?_
        · refine MayChange.some ?_
          refine OnlyChanges.step ?_ (State.endWork_changes _ _ _ _ _) (by decide)
          · exact OnlyChanges.refl _ _
        · refine MayChange.map (fun _ => ?_)
          · extract_lets x21_0
            refine OnlyChanges.step ?_ (State.request_changes _ _) (by decide)
            · refine OnlyChanges.step ?_ (State.setTxGroup_changes _ _ _ _) (by decide)
              · exact h5
      · refine MayChange.some ?_
        refine OnlyChanges.step ?_ (State.modWork_changes _ _ _ _) (by decide)
        · exact OnlyChanges.refl _ _
      · exact MayChange.none _ _

theorem State.queueStatus_changes (s : State) (c : CtxNo) (w : Work) : OnlyChanges [.frames, .ctxs] s (State.queueStatus s c w) := by
  unfold State.queueStatus
  extract_lets x3_0 x3_1 x3_2
  have h6 : OnlyChanges [Part.frames, Part.ctxs] s x3_2 := by
    unfold x3_2
    refine OnlyChanges.step ?_ (State.modWork_changes _ _ _ _) (by decide)
    · exact OnlyChanges.refl _ _
  refine OnlyChanges.step ?_ (State.svcWrite_changes _ _ _ _ _) (by decide)
  · exact h6

theorem State.queueSlot_changes (s : State) (c : CtxNo) (w : Work) : OnlyChanges [.frames, .ctxs] s (State.queueSlot s c w) := by
  unfold State.queueSlot
  extract_lets x3_0
  refine OnlyChanges.ite ?_ ?_
  · refine OnlyChanges.step ?_ (State.queueStatus_changes _ _ _) (by decide)
    · exact OnlyChanges.refl _ _
  · refine OnlyChanges.step ?_ (State.svcWrite_changes _ _ _ _ _) (by decide)
    · exact OnlyChanges.refl _ _

theorem State.afterCsum_changes (s : State) (c : CtxNo) (w : Work) : OnlyChanges [.ctxs, .frames, .fabric] s (State.afterCsum s c w) := by
  unfold State.afterCsum
  extract_lets x3_0
  split
  · refine MayChange.get (State.closeAll_changes _ _ _) (by assumption) ?_ (by decide)
    exact OnlyChanges.refl _ _
  · refine OnlyChanges.ite ?_ ?_
    · refine OnlyChanges.step ?_ (State.queueSlot_changes _ _ _) (by decide)
      · exact OnlyChanges.refl _ _
    · exact OnlyChanges.refl _ _

theorem State.complete_changes (s : State) (c : CtxNo) (w : Work) : OnlyChanges [.chans, .tally, .ctxs, .readyQ, .faults, .frames, .snap, .recd, .fabric] s (State.complete s c w) := by
  unfold State.complete
  extract_lets x3_0 x3_1
  have h5 : OnlyChanges [Part.chans, Part.tally, Part.ctxs, Part.readyQ, Part.faults, Part.frames, Part.snap, Part.recd, Part.fabric] s x3_0 := by
    unfold x3_0
    refine OnlyChanges.step ?_ (State.modCtx_changes _ _ _) (by decide)
    · exact OnlyChanges.refl _ _
  have h6 : OnlyChanges [Part.chans, Part.tally, Part.ctxs, Part.readyQ, Part.faults, Part.frames, Part.snap, Part.recd, Part.fabric] s x3_1 := by
    unfold x3_1
    refine OnlyChanges.ite ?_ ?_
    · refine OnlyChanges.step ?_ (State.noteFailure_changes _ _ _ _ _) (by decide)
      · exact h5
    · exact h5
  refine OnlyChanges.step ?_ (State.afterDone_changes _ _) (by decide)
  · refine OnlyChanges.step ?_ (State.applyDone_changes _ _ _) (by decide)
    · exact h6

theorem State.queueCsum_changes (s : State) (c : CtxNo) (w : Work) : OnlyChanges [.ctxs, .spine, .ports, .frames] s (State.queueCsum s c w) := by
  unfold State.queueCsum
  extract_lets x3_0 x3_1
  refine OnlyChanges.ite ?_ ?_
  · exact OnlyChanges.refl _ _
  · refine OnlyChanges.ite ?_ ?_
    · refine OnlyChanges.step ?_ (State.svcWrite_changes _ _ _ _ _) (by decide)
      · exact OnlyChanges.refl _ _
    · refine OnlyChanges.ite ?_ ?_
      · split
        · refine OnlyChanges.step ?_ (State.modWork_changes _ _ _ _) (by decide)
          · refine MayChange.get (State.sendBeat_changes _ _ _ _) (by assumption) ?_ (by decide)
            exact OnlyChanges.refl _ _
        · exact OnlyChanges.refl _ _
      · refine OnlyChanges.step ?_ (State.svcWrite_changes _ _ _ _ _) (by decide)
        · exact OnlyChanges.refl _ _

theorem State.settleStatus_changes (s : State) (c : CtxNo) (w : Work) : OnlyChanges [.ctxs, .frames, .spine, .ports] s (State.settleStatus s c w) := by
  unfold State.settleStatus
  extract_lets x3_0 x3_1 x3_2 x3_3
  have h7 : OnlyChanges [Part.ctxs, Part.frames, Part.spine, Part.ports] s x3_2 := by
    unfold x3_2
    refine OnlyChanges.step ?_ (State.modWork_changes _ _ _ _) (by decide)
    · exact OnlyChanges.refl _ _
  have h8 : OnlyChanges [Part.ctxs, Part.frames, Part.spine, Part.ports] s x3_3 := by
    unfold x3_3
    refine OnlyChanges.ite ?_ ?_
    · refine OnlyChanges.step ?_ (State.modCtx_changes _ _ _) (by decide)
      · exact h7
    · exact h7
  refine OnlyChanges.ite ?_ ?_
  · refine OnlyChanges.step ?_ (State.queueCsum_changes _ _ _) (by decide)
    · exact h8
  · refine OnlyChanges.step ?_ (State.queueSlot_changes _ _ _) (by decide)
    · exact h8

theorem State.completeStep_changes (s : State) (c : CtxNo) : OnlyChanges [.chans, .tally, .ctxs, .readyQ, .faults, .frames, .snap, .recd, .fabric, .spine, .ports] s (State.completeStep s c) := by
  unfold State.completeStep
  refine OnlyChanges.ite ?_ ?_
  · exact OnlyChanges.refl _ _
  · split
    · exact OnlyChanges.refl _ _
    · refine OnlyChanges.ite ?_ ?_
      · exact OnlyChanges.refl _ _
      · split
        · refine OnlyChanges.ite ?_ ?_
          · refine OnlyChanges.step ?_ (State.settleStatus_changes _ _ _) (by decide)
            · exact OnlyChanges.refl _ _
          · exact OnlyChanges.refl _ _
        · refine OnlyChanges.step ?_ (State.afterCsum_changes _ _ _) (by decide)
          · exact OnlyChanges.refl _ _
        · refine OnlyChanges.step ?_ (State.afterCsum_changes _ _ _) (by decide)
          · exact OnlyChanges.refl _ _
        · refine OnlyChanges.step ?_ (State.queueStatus_changes _ _ _) (by decide)
          · exact OnlyChanges.refl _ _
        · refine OnlyChanges.ite ?_ ?_
          · exact OnlyChanges.refl _ _
          · refine OnlyChanges.step ?_ (State.complete_changes _ _ _) (by decide)
            · exact OnlyChanges.refl _ _
        · refine OnlyChanges.ite ?_ ?_
          · exact OnlyChanges.refl _ _
          · refine OnlyChanges.step ?_ (State.complete_changes _ _ _) (by decide)
            · exact OnlyChanges.refl _ _
        · exact OnlyChanges.refl _ _
        · exact OnlyChanges.refl _ _
        · exact OnlyChanges.refl _ _
        · exact OnlyChanges.refl _ _

theorem State.endPoly_changes (s : State) (core : ℕ) (e : Expand) : OnlyChanges [.swarms, .expand] s (State.endPoly s core e) := by
  unfold State.endPoly
  extract_lets x3_0 x3_1 x3_2 x3_3 x3_4
  have h8 : OnlyChanges [Part.swarms, Part.expand] s x3_0 := by
    unfold x3_0
    refine OnlyChanges.put_expand _ ?_ (by decide)
    exact OnlyChanges.refl _ _
  refine OnlyChanges.ite ?_ ?_
  · exact h8
  · refine OnlyChanges.step ?_ (State.setSwarm_changes _ _ _) (by decide)
    · exact h8

theorem State.arbClear_changes (s : State) (w : BitVec 32) : OnlyChanges [.frames] s (State.arbClear s w) := by
  unfold State.arbClear
  extract_lets x2_0 x2_1
  refine OnlyChanges.ite ?_ ?_
  · exact OnlyChanges.refl _ _
  · refine OnlyChanges.step ?_ (State.modFrame_changes _ _ _) (by decide)
    · exact OnlyChanges.refl _ _

theorem execUntaggedFail_changes (tap : Fin 64) (s : State) : ∃ t, (execUntaggedFail tap s) = .next t ∧ OnlyChanges [.ctxs, .chans, .tally, .readyQ, .faults, .frames, .snap, .recd] s t := by
  refine ⟨_, rfl, ?_⟩
  refine OnlyChanges.step ?_ (State.busError_changes _ _ _ _ _ _ _ _ _) (by decide)
  · exact OnlyChanges.refl _ _

theorem State.portCredit_changes (s : State) (row : ℕ) (p : ℕ) : OnlyChanges [.faults, .frames, .snap, .recd] s (State.portCredit s row p) := by
  unfold State.portCredit
  refine OnlyChanges.step ?_ (State.raise_changes _ _) (by decide)
  · exact OnlyChanges.refl _ _

theorem execStrmCr_changes (p : Fin 256) (s : State) : ∃ t, (execStrmCr p s) = .next t ∧ OnlyChanges [.ports, .ctxs, .faults, .frames, .snap, .recd] s t := by
  refine ⟨_, rfl, ?_⟩
  extract_lets x2_0
  refine OnlyChanges.ite ?_ ?_
  · exact OnlyChanges.refl _ _
  · split
    · refine OnlyChanges.step ?_ (State.portCredit_changes _ _ _) (by decide)
      · exact OnlyChanges.refl _ _
    · refine OnlyChanges.step ?_ (State.beatBack_changes _ _) (by decide)
      · refine OnlyChanges.step ?_ (State.setPort_changes _ _ _) (by decide)
        · exact OnlyChanges.refl _ _

theorem State.credWrite_changes (s : State) (c : ℕ) (w : Word) : OnlyChanges [.tally, .power, .chans] s (State.credWrite s c w) := by
  unfold State.credWrite
  extract_lets x3_0 x3_1 x3_2
  have h6 : OnlyChanges [Part.tally, Part.power, Part.chans] s x3_0 := by
    unfold x3_0
    refine OnlyChanges.step ?_ (State.taken_changes _) (by decide)
    · exact OnlyChanges.refl _ _
  refine OnlyChanges.ite ?_ ?_
  · refine OnlyChanges.step ?_ (State.holdTally_changes _) (by decide)
    · exact OnlyChanges.refl _ _
  · refine OnlyChanges.step ?_ (State.lendLower_changes _) (by decide)
    · refine OnlyChanges.step ?_ (State.movedIf_changes _ _) (by decide)
      · refine OnlyChanges.step ?_ (State.modTally_changes _ _) (by decide)
        · exact h6

theorem execCredCfgWrite_changes (c : Fin 1024) (w : Word) (s : State) : ∃ t, (execCredCfgWrite c w s) = .next t ∧ OnlyChanges [.tally, .power, .chans] s t := by
  refine ⟨_, rfl, ?_⟩
  refine OnlyChanges.ite ?_ ?_
  · refine OnlyChanges.step ?_ (State.credWrite_changes _ _ _) (by decide)
    · exact OnlyChanges.refl _ _
  · exact OnlyChanges.refl _ _

theorem execPreempt_changes (c : CtxNo) (s : State) : ∃ t, (execPreempt c s) = .next t ∧ OnlyChanges [.chans, .tally, .ctxs, .readyQ] s t := by
  refine ⟨_, rfl, ?_⟩
  extract_lets x2_0 x2_1
  refine OnlyChanges.ite ?_ ?_
  · exact OnlyChanges.refl _ _
  · refine OnlyChanges.step ?_ (State.afterDone_changes _ _) (by decide)
    · refine OnlyChanges.step ?_ (State.modCtx_changes _ _ _) (by decide)
      · exact OnlyChanges.refl _ _

theorem State.bind_changes (s : State) (c : CtxNo) (ch : ℕ) : OnlyChanges [.readyQ, .ctxs, .chans, .swarms] s (State.bind s c ch) := by
  unfold State.bind
  extract_lets x3_0 x3_1 x3_2
  have h6 : OnlyChanges [Part.readyQ, Part.ctxs, Part.chans, Part.swarms] s x3_0 := by
    unfold x3_0
    refine OnlyChanges.step ?_ (State.toState_changes _ _ _) (by decide)
    · exact OnlyChanges.refl _ _
  have h7 : OnlyChanges [Part.readyQ, Part.ctxs, Part.chans, Part.swarms] s x3_1 := by
    unfold x3_1
    refine OnlyChanges.step ?_ (State.modCtx_changes _ _ _) (by decide)
    · exact h6
  have h8 : OnlyChanges [Part.readyQ, Part.ctxs, Part.chans, Part.swarms] s x3_2 := by
    unfold x3_2
    refine OnlyChanges.put_swarms _ ?_ (by decide)
    exact h7
  refine OnlyChanges.step ?_ (State.setChan_changes _ _ _) (by decide)
  · exact h8

theorem State.svcWriteFails_changes (s : State) (f : ℕ) (r : SvcReq) (c : CtxNo) (id : ℕ) (idx : BitVec 16) (p : OutPiece) (kind : ℕ) (level : ℕ) : OnlyChanges [.ctxs, .chans, .tally, .readyQ, .faults, .frames, .snap, .recd, .fabric] s (State.svcWriteFails s f r c id idx p kind level) := by
  unfold State.svcWriteFails
  extract_lets x9_0 x9_1
  have h11 : OnlyChanges [Part.ctxs, Part.chans, Part.tally, Part.readyQ, Part.faults, Part.frames, Part.snap, Part.recd, Part.fabric] s x9_0 := by
    unfold x9_0
    refine OnlyChanges.step ?_ (State.svcTaken_changes _ _ _) (by decide)
    · exact OnlyChanges.refl _ _
  have h12 : OnlyChanges [Part.ctxs, Part.chans, Part.tally, Part.readyQ, Part.faults, Part.frames, Part.snap, Part.recd, Part.fabric] s x9_1 := by
    unfold x9_1
    refine OnlyChanges.step ?_ (State.xlateFault_changes _ _ _ _ _ _ _) (by decide)
    · exact h11
  split
  · refine OnlyChanges.step ?_ (State.failAccess_changes _ _ _ _ _ _ _ _ _) (by decide)
    · exact h11
  · refine OnlyChanges.step ?_ (State.modCtx_changes _ _ _) (by decide)
    · refine OnlyChanges.step ?_ (State.failAccess_changes _ _ _ _ _ _ _ _ _) (by decide)
      · exact h11
  · refine OnlyChanges.step ?_ (State.ringFault_changes _ _ _ _ _ _) (by decide)
    · refine OnlyChanges.step ?_ (State.dropSvc_changes _ _ _) (by decide)
      · exact h12

theorem execLanded_changes (l : Fin 18) (s : State) : ∃ t, (execLanded l s) = .next t ∧ OnlyChanges [.fabric, .ctxs] s t := by
  refine ⟨_, rfl, ?_⟩
  apply State.takeMsg_ho
  · decide
  · exact OnlyChanges.refl _ _
  · intro a2
    refine PairMay.some ?_
    refine OnlyChanges.step ?_ (State.takeLanded_changes _ _) (by decide)
    · exact OnlyChanges.refl _ _

theorem State.txRatchet_changes (s : State) (l : ℕ) : OnlyChanges [.fabric, .recd] s (State.txRatchet s l) := by
  unfold State.txRatchet
  extract_lets x2_0
  split
  · refine OnlyChanges.ite ?_ ?_
    · refine OnlyChanges.step ?_ (State.event_changes _ _) (by decide)
      · refine OnlyChanges.step ?_ (State.setLink_changes _ _ _) (by decide)
        · exact OnlyChanges.refl _ _
    · exact OnlyChanges.refl _ _
  · exact OnlyChanges.refl _ _

theorem State.sendSeal_changes (s : State) (l : ℕ) (k : LinkKey) : OnlyChanges [.fabric, .recd] s (State.sendSeal s l k) := by
  unfold State.sendSeal
  extract_lets x3_0 x3_1 x3_2 x3_3
  refine OnlyChanges.step ?_ (State.txRatchet_changes _ _) (by decide)
  · refine OnlyChanges.step ?_ (State.setLink_changes _ _ _) (by decide)
    · exact OnlyChanges.refl _ _

theorem State.leftOn_changes (s : State) (l : ℕ) (m : Msg) : OnlyChanges [.fabric] s (State.leftOn s l m) := by
  unfold State.leftOn
  extract_lets x3_0 x3_1
  refine OnlyChanges.ite ?_ ?_
  · exact OnlyChanges.refl _ _
  · refine OnlyChanges.ite ?_ ?_
    · refine OnlyChanges.ite ?_ ?_
      · refine OnlyChanges.step ?_ (State.setTxGroup_changes _ _ _ _) (by decide)
        · exact OnlyChanges.refl _ _
      · exact OnlyChanges.refl _ _
    · refine OnlyChanges.ite ?_ ?_
      · refine OnlyChanges.ite ?_ ?_
        · refine OnlyChanges.step ?_ (State.setTxRead_changes _ _ _ _) (by decide)
          · exact OnlyChanges.refl _ _
        · exact OnlyChanges.refl _ _
      · exact OnlyChanges.refl _ _

theorem State.sendMessages_changes (s : State) (l : ℕ) (c : ℕ) (k : LinkKey) : OnlyChanges [.fabric] s (State.sendMessages s l c k) := by
  unfold State.sendMessages
  extract_lets x4_0 x4_1 x4_2 x4_3 x4_4 x4_5 x4_6
  have h11 : OnlyChanges [Part.fabric] s x4_6 := by
    unfold x4_6
    refine OnlyChanges.foldl _ (fun t11 _ => ?_) _ _ ?_
    · refine OnlyChanges.step ?_ (State.leftOn_changes _ _ _) (by decide)
      · exact OnlyChanges.refl _ _
    · refine OnlyChanges.step ?_ (State.setLink_changes _ _ _) (by decide)
      · exact OnlyChanges.refl _ _
  refine OnlyChanges.ite ?_ ?_
  · exact h11
  · refine OnlyChanges.step ?_ (State.bufSettleAll_changes _) (by decide)
    · exact h11

theorem execFlitSend_changes (l : Fin 18) (now : Word) (s : State) : ∃ t, (execFlitSend l now s) = .next t ∧ OnlyChanges [.fabric, .recd] s t := by
  refine ⟨_, rfl, ?_⟩
  extract_lets x3_0 x3_1 x3_2 x3_3
  have h7 : OnlyChanges [Part.fabric, Part.recd] s x3_0 := by
    unfold x3_0
    refine OnlyChanges.step ?_ (State.modLink_changes _ _ _) (by decide)
    · exact OnlyChanges.refl _ _
  have hl (n : Nat) (x : Link) : OnlyChanges [Part.fabric, Part.recd] s (x3_0.setLink n x) :=
    OnlyChanges.step h7 (State.setLink_changes _ _ _) (by decide)
  have hs (k : LinkKey) : OnlyChanges [Part.fabric, Part.recd] s (x3_0.sendSeal l.val k) :=
    OnlyChanges.step h7 (State.sendSeal_changes _ _ _) (by decide)
  split
  · exact hl _ _
  · split
    · exact hs _
    · refine OnlyChanges.ite (hl _ _) ?_
      split
      · exact hl _ _
      · refine OnlyChanges.ite (hl _ _) ?_
        split
        · exact hl _ _
        · exact hl _ _
        · split
          · exact OnlyChanges.step h7 (State.sendMessages_changes _ _ _ _) (by decide)
          · exact OnlyChanges.ite (hs _) (hl _ _)

theorem State.settleClock_changes (s : State) (i : ℕ) : OnlyChanges [.power] s (State.settleClock s i) := by
  unfold State.settleClock
  refine OnlyChanges.ite ?_ ?_
  · refine OnlyChanges.step ?_ (State.clockDown_changes _ _) (by decide)
    · exact OnlyChanges.refl _ _
  · refine OnlyChanges.ite ?_ ?_
    · exact OnlyChanges.refl _ _
    · refine OnlyChanges.step ?_ (State.clockUp_changes _ _) (by decide)
      · exact OnlyChanges.refl _ _

theorem execContextIdleUnbind_changes (c : CtxNo) (s : State) : ∃ t, (execContextIdleUnbind c s) = .next t ∧ OnlyChanges [.chans, .tally, .ctxs, .readyQ] s t := by
  refine ⟨_, rfl, ?_⟩
  extract_lets x2_0
  refine OnlyChanges.ite ?_ ?_
  · refine OnlyChanges.step ?_ (State.unbind_changes _ _) (by decide)
    · refine OnlyChanges.step ?_ (State.toState_changes _ _ _) (by decide)
      · exact OnlyChanges.refl _ _
  · exact OnlyChanges.refl _ _

theorem execFlushDone_changes (s : State) : ∃ t, (execFlushDone s) = .next t ∧ OnlyChanges [.recd, .mboxes, .keeper, .fabric, .tally, .power, .frames, .chans] s t := by
  refine ⟨_, rfl, ?_⟩
  split
  · exact OnlyChanges.refl _ _
  · refine OnlyChanges.ite ?_ ?_
    · exact OnlyChanges.refl _ _
    · refine OnlyChanges.step ?_ (State.flushEnd_changes _) (by decide)
      · refine OnlyChanges.step ?_ (State.modRecd_changes _ _) (by decide)
        · exact OnlyChanges.refl _ _

theorem State.verbDrains_changes (s : State) (o : Origin) : OnlyChanges [.keeper] s (State.verbDrains s o) := by
  unfold State.verbDrains
  refine OnlyChanges.step ?_ (State.modVerb_changes _ _ _) (by decide)
  · exact OnlyChanges.refl _ _

theorem State.dropLeaves_changes (s : State) (p : Leaf → Bool) : OnlyChanges [.frames, .xlate] s (State.dropLeaves s p) := by
  unfold State.dropLeaves
  extract_lets x2_0
  have h3 : OnlyChanges [Part.frames, Part.xlate] s x2_0 := by
    unfold x2_0
    refine OnlyChanges.step ?_ (State.modXlate_changes _ _) (by decide)
    · exact OnlyChanges.refl _ _
  refine OnlyChanges.put_frames _ ?_ (by decide)
  exact h3

theorem State.discardWalks_changes (s : State) (p : Walk → Bool) : OnlyChanges [.xlate] s (State.discardWalks s p) := by
  unfold State.discardWalks
  refine OnlyChanges.step ?_ (State.modXlate_changes _ _) (by decide)
  · exact OnlyChanges.refl _ _

theorem State.withdraw_changes (s : State) (t : Tenant) (lo : ℕ) (hi : ℕ) : OnlyChanges [.frames, .xlate] s (State.withdraw s t lo hi) := by
  unfold State.withdraw
  refine OnlyChanges.step ?_ (State.dropLeaves_changes _ _) (by decide)
  · refine OnlyChanges.step ?_ (State.discardWalks_changes _ _) (by decide)
    · exact OnlyChanges.refl _ _

theorem State.startBatch_changes (s : State) (os : List Origin) : OnlyChanges [.frames, .xlate] s (State.startBatch s os) := by
  unfold State.startBatch
  extract_lets x2_0
  have h3 : OnlyChanges [Part.frames, Part.xlate] s x2_0 := by
    unfold x2_0
    refine OnlyChanges.foldl _ (fun t3 _ => ?_) _ _ ?_
    · split
      · extract_lets x10_0
        refine OnlyChanges.step ?_ (State.withdraw_changes _ _ _ _) (by decide)
        · exact OnlyChanges.refl _ _
      · exact OnlyChanges.refl _ _
    · exact OnlyChanges.refl _ _
  refine OnlyChanges.step ?_ (State.modXlate_changes _ _) (by decide)
  · exact h3

theorem State.askInval_changes (s : State) (o : Origin) : OnlyChanges [.keeper, .frames, .xlate] s (State.askInval s o) := by
  unfold State.askInval
  extract_lets x2_0
  have h3 : OnlyChanges [Part.keeper, Part.frames, Part.xlate] s x2_0 := by
    unfold x2_0
    refine OnlyChanges.step ?_ (State.verbDrains_changes _ _) (by decide)
    · exact OnlyChanges.refl _ _
  refine OnlyChanges.ite ?_ ?_
  · refine OnlyChanges.step ?_ (State.startBatch_changes _ _) (by decide)
    · exact h3
  · refine OnlyChanges.step ?_ (State.modXlate_changes _ _) (by decide)
    · exact h3

theorem State.sendPiece_changes (s : State) (f : ℕ) (c : CtxNo) (w : Work) (t : Tenant) (p : OutPiece) : MayChange [.spine, .ports, .ctxs] s (State.sendPiece s f c w t p) := by
  unfold State.sendPiece
  extract_lets x6_0 x6_1 x6_2 x6_3 x6_4 x6_5 x6_6 x6_7
  have h14 : OnlyChanges [Part.spine, Part.ports, Part.ctxs] s x6_1 := by
    unfold x6_1
    refine OnlyChanges.foldl _ (fun t14 _ => ?_) _ _ ?_
    · extract_lets x16_0
      refine OnlyChanges.step ?_ (State.setPort_changes _ _ _) (by decide)
      · exact OnlyChanges.refl _ _
    · exact OnlyChanges.refl _ _
  have h15 : OnlyChanges [Part.spine, Part.ports, Part.ctxs] s x6_4 := by
    unfold x6_4
    refine OnlyChanges.foldl _ (fun t15 _ => ?_) _ _ ?_
    · extract_lets x17_0
      refine OnlyChanges.step ?_ (State.setPort_changes _ _ _) (by decide)
      · exact OnlyChanges.refl _ _
    · exact h14
  have h16 : OnlyChanges [Part.spine, Part.ports, Part.ctxs] s x6_6 := by
    unfold x6_6
    refine OnlyChanges.put_spine _ ?_ (by decide)
    exact h15
  have h17 : OnlyChanges [Part.spine, Part.ports, Part.ctxs] s x6_7 := by
    unfold x6_7
    refine OnlyChanges.ite ?_ ?_
    · refine OnlyChanges.step ?_ (State.leave_changes _ _ _ _) (by decide)
      · exact h16
    · exact h16
  refine MayChange.ite ?_ ?_
  · exact MayChange.none _ _
  · refine MayChange.some ?_
    refine OnlyChanges.step ?_ (State.modWork_changes _ _ _ _) (by decide)
    · exact h17

theorem State.remoteWrite_changes (s : State) (c : CtxNo) (id : ℕ) (m : Msg) (gen : Option ℕ) : MayChange [.fabric] s (State.remoteWrite s c id m gen) := by
  unfold State.remoteWrite
  extract_lets x5_0 x5_1 x5_2
  refine MayChange.map (fun _ => ?_)
  · extract_lets x9_0 x9_1 x9_2 x9_3
    split
    · refine OnlyChanges.step ?_ (State.setTxGroup_changes _ _ _ _) (by decide)
      · exact OnlyChanges.refl _ _
    · refine OnlyChanges.step ?_ (State.request_changes _ _) (by decide)
      · refine OnlyChanges.step ?_ (State.setTxGroup_changes _ _ _ _) (by decide)
        · exact OnlyChanges.refl _ _

theorem State.sendRemote_changes (s : State) (c : CtxNo) (w : Work) (p : OutPiece) (m : Msg) : MayChange [.ctxs, .frames, .fabric, .tally] s (State.sendRemote s c w p m) := by
  unfold State.sendRemote
  extract_lets x5_0 x5_1 x5_2 x5_3 x5_4
  refine MayChange.ite ?_ ?_
  · refine MayChange.some ?_
    refine OnlyChanges.step ?_ (State.endWork_changes _ _ _ _ _) (by decide)
    · exact OnlyChanges.refl _ _
  · refine MayChange.ite ?_ ?_
    · refine MayChange.some ?_
      refine OnlyChanges.step ?_ (State.endWork_changes _ _ _ _ _) (by decide)
      · exact OnlyChanges.refl _ _
    · refine MayChange.mapS ?_ (fun t10 ht10 => ?_)
      · refine MayChange.step ?_ (State.remoteWrite_changes _ _ _ _ _) (by decide)
        · exact OnlyChanges.refl _ _
      · refine OnlyChanges.step ?_ (State.moved_changes _) (by decide)
        · refine OnlyChanges.step ?_ (State.modWork_changes _ _ _ _) (by decide)
          · exact ht10

theorem State.handOut_changes (s : State) (c : CtxNo) (w : Work) : MayChange [.spine, .ports, .ctxs, .faults, .frames, .snap, .recd, .fabric, .nextId, .xlate, .tally] s (State.handOut s c w) := by
  unfold State.handOut
  extract_lets x3_0
  split
  · exact MayChange.none _ _
  · extract_lets x10_0
    refine MayChange.ite ?_ ?_
    · refine MayChange.step ?_ (State.sendPiece_changes _ _ _ _ _ _) (by decide)
      · exact OnlyChanges.refl _ _
    · split
      · refine MayChange.step ?_ (State.demandWalk_changes _ _ _ _ _ _ _) (by decide)
        · exact OnlyChanges.refl _ _
      · refine MayChange.some ?_
        refine OnlyChanges.step ?_ (State.failAccess_changes _ _ _ _ _ _ _ _ _) (by decide)
        · exact OnlyChanges.refl _ _
      · refine MayChange.some ?_
        refine OnlyChanges.step ?_ (State.endWork_changes _ _ _ _ _) (by decide)
        · exact OnlyChanges.refl _ _
      · refine MayChange.step ?_ (State.sendRemote_changes _ _ _ _ _) (by decide)
        · refine OnlyChanges.step ?_ (State.used_changes _ _ _) (by decide)
          · exact OnlyChanges.refl _ _
      · refine MayChange.ite ?_ ?_
        · exact MayChange.none _ _
        · split
          · refine MayChange.some ?_
            refine OnlyChanges.step ?_ (State.endWork_changes _ _ _ _ _) (by decide)
            · exact OnlyChanges.refl _ _
          · refine MayChange.some ?_
            refine OnlyChanges.step ?_ (State.endWork_changes _ _ _ _ _) (by decide)
            · exact OnlyChanges.refl _ _

theorem State.dropUnit_changes (s : State) (c : CtxNo) (w : Work) : OnlyChanges [.ctxs] s (State.dropUnit s c w) := by
  unfold State.dropUnit
  extract_lets x3_0
  refine OnlyChanges.ite ?_ ?_
  · exact OnlyChanges.refl _ _
  · refine OnlyChanges.step ?_ (State.modWork_changes _ _ _ _) (by decide)
    · exact OnlyChanges.refl _ _

theorem State.startPause_changes (s : State) (c : CtxNo) : OnlyChanges [.readyQ, .ctxs, .chans, .tally] s (State.startPause s c) := by
  unfold State.startPause
  extract_lets x2_0 x2_1 x2_2
  have h5 : OnlyChanges [Part.readyQ, Part.ctxs, Part.chans, Part.tally] s x2_0 := by
    unfold x2_0
    refine OnlyChanges.step ?_ (State.judgeWaits_changes _ _) (by decide)
    · exact OnlyChanges.refl _ _
  have h6 : OnlyChanges [Part.readyQ, Part.ctxs, Part.chans, Part.tally] s x2_1 := by
    unfold x2_1
    refine OnlyChanges.ite ?_ ?_
    · refine OnlyChanges.step ?_ (State.disarm_changes _ _) (by decide)
      · exact h5
    · exact h5
  have h7 : OnlyChanges [Part.readyQ, Part.ctxs, Part.chans, Part.tally] s x2_2 := by
    unfold x2_2
    refine OnlyChanges.step ?_ (State.modCtx_changes _ _ _) (by decide)
    · refine OnlyChanges.step ?_ (State.toState_changes _ _ _) (by decide)
      · exact h6
  refine OnlyChanges.foldl _ (fun t8 _ => ?_) _ _ ?_
  · refine OnlyChanges.step ?_ (State.dropUnit_changes _ _ _) (by decide)
    · exact OnlyChanges.refl _ _
  · exact h7

theorem execCtxPause_changes (o : Origin) (s : State) : ∃ t, (execCtxPause o s) = .next t ∧ OnlyChanges [.readyQ, .ctxs, .chans, .tally, .keeper, .mboxes, .fabric, .recd, .faults, .frames, .snap] s t := by
  refine ⟨_, rfl, ?_⟩
  apply State.runVerb_ho
  · decide
  · exact OnlyChanges.refl _ _
  · intro a2
    extract_lets x3_0 x3_1
    have h5 : OnlyChanges [Part.readyQ, Part.ctxs, Part.chans, Part.tally, Part.keeper, Part.mboxes, Part.fabric, Part.recd, Part.faults, Part.frames, Part.snap] s x3_1 := by
      unfold x3_1
      refine OnlyChanges.ite ?_ ?_
      · refine OnlyChanges.step ?_ (State.modCtx_changes _ _ _) (by decide)
        · exact OnlyChanges.refl _ _
      · exact OnlyChanges.refl _ _
    apply State.onCtx_ho
    · decide
    · exact OnlyChanges.refl _ _
    · intro a6
      refine OnlyChanges.ite ?_ ?_
      · refine OnlyChanges.step ?_ (State.verbDone_changes _ _ _ _ _) (by decide)
        · exact h5
      · refine OnlyChanges.step ?_ (State.verbDrains_changes _ _) (by decide)
        · refine OnlyChanges.step ?_ (State.startPause_changes _ _) (by decide)
          · exact OnlyChanges.refl _ _

theorem State.claim_changes (s : State) (t : ℕ) (consumed : ℕ) (size : ℕ) : OnlyChanges [.chans, .tally] s (State.claim s t consumed size).2 := by
  unfold State.claim
  extract_lets x4_0
  split
  · dsimp only
    exact OnlyChanges.refl _ _
  · split
    · dsimp only
      refine OnlyChanges.step ?_ (State.lendLower_changes _) (by decide)
      · refine OnlyChanges.step ?_ (State.movedIf_changes _ _) (by decide)
        · refine OnlyChanges.step ?_ (State.modTally_changes _ _) (by decide)
          · exact OnlyChanges.refl _ _
    · dsimp only
      exact OnlyChanges.refl _ _

theorem State.freeSlotsOf_changes (s : State) (f : ℕ) (c : CtxNo) (id : ℕ) (p : Slot → Bool) : OnlyChanges [.frames] s (State.freeSlotsOf s f c id p) := by
  unfold State.freeSlotsOf
  refine OnlyChanges.step ?_ (State.modFrame_changes _ _ _) (by decide)
  · exact OnlyChanges.refl _ _

theorem State.postTile_changes (s : State) (c : CtxNo) (w : Work) (ct : Ct) (claim : ℕ) (o : ℕ × ℕ) : OnlyChanges [.nextId, .frames, .ctxs] s (State.postTile s c w ct claim o) := by
  unfold State.postTile
  extract_lets x6_0 x6_1 x6_2 x6_3 x6_4 x6_5 x6_6 x6_7 x6_8
  have h15 : OnlyChanges [Part.nextId, Part.frames, Part.ctxs] s x6_2 := by
    unfold x6_2
    refine OnlyChanges.step ?_ (State.fresh_changes _) (by decide)
    · exact OnlyChanges.refl _ _
  have h16 : OnlyChanges [Part.nextId, Part.frames, Part.ctxs] s x6_5 := by
    unfold x6_5
    split
    · refine OnlyChanges.step ?_ (State.modFrame_changes _ _ _) (by decide)
      · exact h15
    · exact h15
  have h17 : OnlyChanges [Part.nextId, Part.frames, Part.ctxs] s x6_6 := by
    unfold x6_6
    refine OnlyChanges.step ?_ (State.modCtx_changes _ _ _) (by decide)
    · exact h16
  have h18 : OnlyChanges [Part.nextId, Part.frames, Part.ctxs] s x6_8 := by
    unfold x6_8
    refine OnlyChanges.step ?_ (State.modWork_changes _ _ _ _) (by decide)
    · exact h17
  refine OnlyChanges.step ?_ (State.modWork_changes _ _ _ _) (by decide)
  · refine OnlyChanges.step ?_ (State.freeSlotsOf_changes _ _ _ _ _) (by decide)
    · exact h18

theorem State.tileCheck_changes (s : State) (c : CtxNo) (id : ℕ) : OnlyChanges [.ctxs, .chans, .tally, .faults, .frames, .snap, .recd, .fabric, .nextId] s (State.tileCheck s c id) := by
  unfold State.tileCheck
  extract_lets x3_0
  split
  · exact OnlyChanges.refl _ _
  · extract_lets x9_0 x9_1
    have h11 : OnlyChanges [Part.ctxs, Part.chans, Part.tally, Part.faults, Part.frames, Part.snap, Part.recd, Part.fabric, Part.nextId] s x9_1 := by
      unfold x9_1
      refine OnlyChanges.step ?_ (State.freeSlotsOf_changes _ _ _ _ _) (by decide)
      · exact OnlyChanges.refl _ _
    split
    · refine OnlyChanges.ite ?_ ?_
      · exact OnlyChanges.refl _ _
      · split
        · exact OnlyChanges.refl _ _
        · split
          · exact OnlyChanges.refl _ _
          · extract_lets x32_0 x32_1 x32_2 x32_3
            have h36 : OnlyChanges [Part.ctxs, Part.chans, Part.tally, Part.faults, Part.frames, Part.snap, Part.recd, Part.fabric, Part.nextId] s x32_0 := by
              unfold x32_0
              refine OnlyChanges.step ?_ (State.modWork_changes _ _ _ _) (by decide)
              · exact h11
            split
            · extract_lets x42_0
              have h43 : OnlyChanges [Part.ctxs, Part.chans, Part.tally, Part.faults, Part.frames, Part.snap, Part.recd, Part.fabric, Part.nextId] s x42_0 := by
                unfold x42_0
                refine OnlyChanges.ite ?_ ?_
                · refine OnlyChanges.step ?_ (State.tenantAlarm_changes _ _ _ _ _ _ _) (by decide)
                  · exact h36
                · exact h36
              refine OnlyChanges.step ?_ (State.endWork_changes _ _ _ _ _) (by decide)
              · exact h43
            · refine OnlyChanges.ite ?_ ?_
              · refine OnlyChanges.step ?_ (State.modWork_changes _ _ _ _) (by decide)
                · exact h36
              · refine OnlyChanges.ite ?_ ?_
                · refine OnlyChanges.step ?_ (State.endWork_changes _ _ _ _ _) (by decide)
                  · exact h36
                · split
                  · refine OnlyChanges.step ?_ (State.endWork_changes _ _ _ _ _) (by decide)
                    · refine OnlyChanges.step ?_ (Eq.mp (congrArg (OnlyChanges _ _) (congrArg Prod.snd (by assumption : _ = (_, _)))) (State.claim_changes _ _ _ _)) (by decide)
                      exact h36
                  · refine OnlyChanges.step ?_ (State.settle_changes _) (by decide)
                    · refine OnlyChanges.step ?_ (State.postTile_changes _ _ _ _ _ _) (by decide)
                      · refine OnlyChanges.step ?_ (Eq.mp (congrArg (OnlyChanges _ _) (congrArg Prod.snd (by assumption : _ = (_, _)))) (State.claim_changes _ _ _ _)) (by decide)
                        exact h36
    · exact OnlyChanges.refl _ _

theorem State.slotFilled_changes (s : State) (f : ℕ) (n : ℕ) : OnlyChanges [.ctxs, .chans, .tally, .faults, .frames, .snap, .recd, .fabric, .nextId] s (State.slotFilled s f n) := by
  unfold State.slotFilled
  extract_lets x3_0
  split
  · refine OnlyChanges.ite ?_ ?_
    · refine OnlyChanges.step ?_ (State.tileCheck_changes _ _ _) (by decide)
      · exact OnlyChanges.refl _ _
    · exact OnlyChanges.refl _ _
  · exact OnlyChanges.refl _ _

theorem State.workSlotDone_changes (s : State) (f : ℕ) (n : ℕ) (c : CtxNo) (id : ℕ) : OnlyChanges [.ctxs, .chans, .frames, .tally, .fabric, .faults, .snap, .recd, .nextId] s (State.workSlotDone s f n c id) := by
  unfold State.workSlotDone
  extract_lets x5_0 x5_1 x5_2
  have h8 : OnlyChanges [Part.ctxs, Part.chans, Part.frames, Part.tally, Part.fabric, Part.faults, Part.snap, Part.recd, Part.nextId] s x5_1 := by
    unfold x5_1
    refine OnlyChanges.ite ?_ ?_
    · refine OnlyChanges.step ?_ (State.modWork_changes _ _ _ _) (by decide)
      · exact OnlyChanges.refl _ _
    · exact OnlyChanges.refl _ _
  have h9 : OnlyChanges [Part.ctxs, Part.chans, Part.frames, Part.tally, Part.fabric, Part.faults, Part.snap, Part.recd, Part.nextId] s x5_2.1 := by
    unfold x5_2
    refine OnlyChanges.step ?_ (State.slotEcc_changes _ _ _) (by decide)
    · exact h8
  refine OnlyChanges.ite ?_ ?_
  · refine OnlyChanges.step ?_ (State.setSlotAt_changes _ _ _ _) (by decide)
    · exact h9
  · refine OnlyChanges.ite ?_ ?_
    · refine OnlyChanges.step ?_ (State.slotFilled_changes _ _ _) (by decide)
      · exact h9
    · exact h9

theorem State.takeFlips_changes (s : State) (f : ℕ) : OnlyChanges [.faults] s (State.takeFlips s f).2 := by
  unfold State.takeFlips
  dsimp only
  refine OnlyChanges.step ?_ (State.modFaults_changes _ _) (by decide)
  · exact OnlyChanges.refl _ _

theorem State.fillSlot_changes (s : State) (f : ℕ) (n : ℕ) (off : ℕ) (beats : BitVec 4) (data : Bytes) : OnlyChanges [.frames, .faults] s (State.fillSlot s f n off beats data) := by
  unfold State.fillSlot
  extract_lets x6_0 x6_1 x6_2
  split
  · refine OnlyChanges.step ?_ (State.setSlotAt_changes _ _ _ _) (by decide)
    · refine OnlyChanges.step ?_ (Eq.mp (congrArg (OnlyChanges _ _) (congrArg Prod.snd (by assumption : _ = (_, _)))) (State.takeFlips_changes _ _)) (by decide)
      exact OnlyChanges.refl _ _

theorem State.takeReadData_changes (s : State) (m : Msg) : OnlyChanges [.ctxs, .fabric, .tally, .chans, .faults, .frames, .snap, .recd, .nextId] s (State.takeReadData s m) := by
  unfold State.takeReadData
  extract_lets x2_0 x2_1
  have h4 : OnlyChanges [Part.ctxs, Part.fabric, Part.tally, Part.chans, Part.faults, Part.frames, Part.snap, Part.recd, Part.nextId] s x2_1 := by
    unfold x2_1
    refine OnlyChanges.step ?_ (State.setTxRead_changes _ _ _ _) (by decide)
    · exact OnlyChanges.refl _ _
  split
  · extract_lets x14_0
    have h15 : OnlyChanges [Part.ctxs, Part.fabric, Part.tally, Part.chans, Part.faults, Part.frames, Part.snap, Part.recd, Part.nextId] s x14_0 := by
      unfold x14_0
      refine OnlyChanges.step ?_ (State.fillSlot_changes _ _ _ _ _ _) (by decide)
      · exact h4
    refine OnlyChanges.ite ?_ ?_
    · exact OnlyChanges.refl _ _
    · refine OnlyChanges.step ?_ (State.workSlotDone_changes _ _ _ _ _) (by decide)
      · exact h15
  · exact OnlyChanges.refl _ _

theorem execWaggleResend_changes (l : Fin 18) (s : State) : ∃ t, (execWaggleResend l s) = .next t ∧ OnlyChanges [.free, .keeper, .fabric, .frames, .swarms, .faults, .sec, .snap, .recd] s t := by
  refine ⟨_, rfl, ?_⟩
  refine OnlyChanges.step ?_ (State.waggleResend_changes _ _) (by decide)
  · exact OnlyChanges.refl _ _

theorem State.squeeze_changes (s : State) (e : Expand) : OnlyChanges [.free] s (State.squeeze s e).2 := by
  unfold State.squeeze
  extract_lets x2_0
  split
  · dsimp only
    refine OnlyChanges.put_free _ ?_ (by decide)
    exact OnlyChanges.refl _ _
  · dsimp only
    exact OnlyChanges.refl _ _

theorem execSnapTake_changes (o : Origin) (s : State) : ∃ t, (execSnapTake o s) = .next t ∧ OnlyChanges [.keeper, .mboxes, .fabric, .recd, .snap] s t := by
  refine ⟨_, rfl, ?_⟩
  apply State.runVerb_ho
  · decide
  · exact OnlyChanges.refl _ _
  · intro a2
    refine OnlyChanges.ite ?_ ?_
    · refine OnlyChanges.step ?_ (State.verbDone_changes _ _ _ _ _) (by decide)
      · exact OnlyChanges.refl _ _
    · refine OnlyChanges.ite ?_ ?_
      · refine OnlyChanges.step ?_ (State.verbDone_changes _ _ _ _ _) (by decide)
        · exact OnlyChanges.refl _ _
      · refine OnlyChanges.step ?_ (State.verbDrains_changes _ _) (by decide)
        · refine OnlyChanges.step ?_ (State.snapTrigger_changes _ _) (by decide)
          · exact OnlyChanges.refl _ _

theorem State.setKset_changes (s : State) (k : KsetNo) (x : KeySet) : OnlyChanges [.ksets] s (State.setKset s k x) := by
  unfold State.setKset
  refine OnlyChanges.put_ksets _ ?_ (by decide)
  exact OnlyChanges.refl _ _

theorem State.ksetRegister_changes (s : State) (o : Origin) (n : KsetNo) (b : Bytes) : OnlyChanges [.mboxes, .keeper, .fabric, .recd, .ksets, .faults, .frames, .snap] s (State.ksetRegister s o n b) := by
  unfold State.ksetRegister
  extract_lets x4_0
  refine OnlyChanges.ite ?_ ?_
  · refine OnlyChanges.step ?_ (State.verbDone_changes _ _ _ _ _) (by decide)
    · exact OnlyChanges.refl _ _
  · split
    · refine OnlyChanges.step ?_ (State.verbDone_changes _ _ _ _ _) (by decide)
      · exact OnlyChanges.refl _ _
    · refine OnlyChanges.ite ?_ ?_
      · refine OnlyChanges.step ?_ (State.verbDone_changes _ _ _ _ _) (by decide)
        · exact OnlyChanges.refl _ _
      · refine OnlyChanges.ite ?_ ?_
        · refine OnlyChanges.step ?_ (State.refuseTenant_changes _ _) (by decide)
          · exact OnlyChanges.refl _ _
        · split
          · refine OnlyChanges.step ?_ (State.verbDone_changes _ _ _ _ _) (by decide)
            · exact OnlyChanges.refl _ _
          · refine OnlyChanges.ite ?_ ?_
            · refine OnlyChanges.step ?_ (State.verbDone_changes _ _ _ _ _) (by decide)
              · exact OnlyChanges.refl _ _
            · split
              · refine OnlyChanges.step ?_ (State.verbDone_changes _ _ _ _ _) (by decide)
                · exact OnlyChanges.refl _ _
              · refine OnlyChanges.ite ?_ ?_
                · refine OnlyChanges.step ?_ (State.verbDone_changes _ _ _ _ _) (by decide)
                  · exact OnlyChanges.refl _ _
                · refine OnlyChanges.step ?_ (State.verbDone_changes _ _ _ _ _) (by decide)
                  · apply State.tableWritten_ho
                    · decide
                    · refine OnlyChanges.step ?_ (State.setKset_changes _ _ _) (by decide)
                      · exact OnlyChanges.refl _ _
                    · intro a17
                      intro a18
                      refine OnlyChanges.step ?_ (State.setKset_changes _ _ _) (by decide)
                      · exact a18

theorem execKsetRegister_changes (o : Origin) (s : State) : ∃ t, (execKsetRegister o s) = .next t ∧ OnlyChanges [.mboxes, .keeper, .fabric, .recd, .ksets, .faults, .frames, .snap] s t := by
  refine ⟨_, rfl, ?_⟩
  apply State.runVerb_ho
  · decide
  · exact OnlyChanges.refl _ _
  · intro a2
    extract_lets x3_0
    refine OnlyChanges.ite ?_ ?_
    · refine OnlyChanges.step ?_ (State.verbDone_changes _ _ _ _ _) (by decide)
      · exact OnlyChanges.refl _ _
    · apply State.withStruct_ho
      · decide
      · exact OnlyChanges.refl _ _
      · intro a4
        refine OnlyChanges.step ?_ (State.ksetRegister_changes _ _ _ _) (by decide)
        · exact OnlyChanges.refl _ _

theorem State.windowWrite_changes (s : State) (m : ℕ) (off : ℕ) (b : Bytes) : OnlyChanges [.mboxes] s (State.windowWrite s m off b) := by
  unfold State.windowWrite
  refine OnlyChanges.ite ?_ ?_
  · exact OnlyChanges.refl _ _
  · refine OnlyChanges.step ?_ (State.modMbox_changes _ _ _) (by decide)
    · exact OnlyChanges.refl _ _

theorem State.listAhead_changes (s : State) (c : CtxNo) (w : Work) : MayChange [.frames] s (State.listAhead s c w) := by
  unfold State.listAhead
  extract_lets x3_0 x3_1 x3_2
  refine MayChange.ite ?_ ?_
  · exact MayChange.none _ _
  · refine MayChange.map (fun _ => ?_)
    · refine OnlyChanges.step ?_ (State.svcRead_changes _ _ _ _ _) (by decide)
      · exact OnlyChanges.refl _ _

theorem execFlashOperationDone_changes (fail : Bool) (status : Byte) (s : State) : ∃ t, (execFlashOperationDone fail status s) = .next t ∧ OnlyChanges [.recd, .faults, .frames, .snap, .mboxes, .keeper, .fabric, .tally, .power, .chans] s t := by
  refine ⟨_, rfl, ?_⟩
  extract_lets x3_0 x3_1
  refine OnlyChanges.ite ?_ ?_
  · refine OnlyChanges.ite ?_ ?_
    · refine OnlyChanges.step ?_ (State.flushEnd_changes _) (by decide)
      · refine OnlyChanges.step ?_ (State.modRecd_changes _ _) (by decide)
        · refine OnlyChanges.step ?_ (State.raise_changes _ _) (by decide)
          · exact OnlyChanges.refl _ _
    · refine OnlyChanges.step ?_ (State.modRecd_changes _ _) (by decide)
      · exact OnlyChanges.refl _ _
  · refine OnlyChanges.ite ?_ ?_
    · refine OnlyChanges.ite ?_ ?_
      · refine OnlyChanges.step ?_ (State.flushEnd_changes _) (by decide)
        · refine OnlyChanges.step ?_ (State.modRecd_changes _ _) (by decide)
          · refine OnlyChanges.step ?_ (State.raise_changes _ _) (by decide)
            · exact OnlyChanges.refl _ _
      · refine OnlyChanges.step ?_ (State.modRecd_changes _ _) (by decide)
        · exact OnlyChanges.refl _ _
    · exact OnlyChanges.refl _ _

theorem State.landBeat_changes (s : State) (b : SpineBeat) : OnlyChanges [.ports, .ctxs] s (State.landBeat s b) := by
  unfold State.landBeat
  extract_lets x2_0
  have h3 : OnlyChanges [Part.ports, Part.ctxs] s x2_0 := by
    unfold x2_0
    refine OnlyChanges.foldl _ (fun t3 _ => ?_) _ _ ?_
    · extract_lets x5_0
      refine OnlyChanges.step ?_ (State.setPort_changes _ _ _) (by decide)
      · exact OnlyChanges.refl _ _
    · exact OnlyChanges.refl _ _
  refine OnlyChanges.ite ?_ ?_
  · refine OnlyChanges.step ?_ (State.leave_changes _ _ _ _) (by decide)
    · exact h3
  · exact h3

theorem execSpineTransfer_changes (dst : Fin 16) (src : Fin 16) (s : State) : ∃ t, (execSpineTransfer dst src s) = .next t ∧ OnlyChanges [.spine, .tally, .ports, .ctxs, .frames] s t := by
  refine ⟨_, rfl, ?_⟩
  split
  · exact OnlyChanges.refl _ _
  · extract_lets x8_0
    have h9 : OnlyChanges [Part.spine, Part.tally, Part.ports, Part.ctxs, Part.frames] s x8_0 := by
      unfold x8_0
      refine OnlyChanges.step ?_ (State.modFrame_changes _ _ _) (by decide)
      · refine OnlyChanges.step ?_ (State.modFrame_changes _ _ _) (by decide)
        · exact OnlyChanges.refl _ _
    refine OnlyChanges.ite ?_ ?_
    · exact OnlyChanges.refl _ _
    · refine OnlyChanges.step ?_ (State.moved_changes _) (by decide)
      · refine OnlyChanges.step ?_ (State.landBeat_changes _ _) (by decide)
        · refine OnlyChanges.put_spine _ ?_ (by decide)
          exact h9

theorem State.eject_changes (s : State) (n : ℕ) (p : ℕ) (cause : ℕ) : OnlyChanges [.faults, .frames, .snap, .recd, .swarms, .ctxs] s (State.eject s n p cause) := by
  unfold State.eject
  extract_lets x4_0 x4_1 x4_2 x4_3 x4_4 x4_5 x4_6
  have h11 : OnlyChanges [Part.faults, Part.frames, Part.snap, Part.recd, Part.swarms, Part.ctxs] s x4_5 := by
    unfold x4_5
    refine OnlyChanges.step ?_ (State.setSwarm_changes _ _ _) (by decide)
    · exact OnlyChanges.refl _ _
  have h12 : OnlyChanges [Part.faults, Part.frames, Part.snap, Part.recd, Part.swarms, Part.ctxs] s x4_6 := by
    unfold x4_6
    refine OnlyChanges.step ?_ (State.modCtx_changes _ _ _) (by decide)
    · exact h11
  refine OnlyChanges.step ?_ (State.raiseWith_changes _ _ _ _) (by decide)
  · exact h12

theorem execSwarmEject_changes (sw : Fin 4) (p : Fin 256) (s : State) : ∃ t, (execSwarmEject sw p s) = .next t ∧ OnlyChanges [.faults, .frames, .snap, .recd, .swarms, .ctxs] s t := by
  refine ⟨_, rfl, ?_⟩
  refine OnlyChanges.ite ?_ ?_
  · refine OnlyChanges.step ?_ (State.eject_changes _ _ _ _) (by decide)
    · exact OnlyChanges.refl _ _
  · exact OnlyChanges.refl _ _

theorem execSupplyAboveWarning_changes (src : Supply) (s : State) : ∃ t, (execSupplyAboveWarning src s) = .next t ∧ OnlyChanges [.power] s t := by
  refine ⟨_, rfl, ?_⟩
  refine OnlyChanges.step ?_ (State.report_changes _ _ _ _) (by decide)
  · exact OnlyChanges.refl _ _

theorem State.lidCheck_changes (s : State) (c : ChipNo) (g : ℕ) : OnlyChanges [.frames, .fabric] s (State.lidCheck s c g) := by
  unfold State.lidCheck
  extract_lets x3_0 x3_1
  split
  · exact OnlyChanges.refl _ _
  · refine OnlyChanges.ite ?_ ?_
    · exact OnlyChanges.refl _ _
    · refine OnlyChanges.ite ?_ ?_
      · refine OnlyChanges.step ?_ (State.setRxGroup_changes _ _ _ _) (by decide)
        · refine OnlyChanges.step ?_ (State.dropFabSlot_changes _ _) (by decide)
          · exact OnlyChanges.refl _ _
      · refine OnlyChanges.step ?_ (State.setRxGroup_changes _ _ _ _) (by decide)
        · refine OnlyChanges.step ?_ (State.modFrame_changes _ _ _) (by decide)
          · exact OnlyChanges.refl _ _

theorem State.groupWriteDone_changes (s : State) (c : ChipNo) (g : ℕ) : OnlyChanges [.fabric, .frames] s (State.groupWriteDone s c g) := by
  unfold State.groupWriteDone
  extract_lets x3_0
  refine OnlyChanges.ite ?_ ?_
  · exact OnlyChanges.refl _ _
  · refine OnlyChanges.ite ?_ ?_
    · refine OnlyChanges.step ?_ (State.setRxGroup_changes _ _ _ _) (by decide)
      · exact OnlyChanges.refl _ _
    · refine OnlyChanges.step ?_ (State.lidCheck_changes _ _ _) (by decide)
      · refine OnlyChanges.step ?_ (State.setRxGroup_changes _ _ _ _) (by decide)
        · exact OnlyChanges.refl _ _

theorem State.startLeaving_changes (s : State) (c : CtxNo) : OnlyChanges [.readyQ, .ctxs, .chans, .tally] s (State.startLeaving s c) := by
  unfold State.startLeaving
  extract_lets x2_0 x2_1 x2_2
  have h5 : OnlyChanges [Part.readyQ, Part.ctxs, Part.chans, Part.tally] s x2_0 := by
    unfold x2_0
    refine OnlyChanges.step ?_ (State.judgeWaits_changes _ _) (by decide)
    · exact OnlyChanges.refl _ _
  have h6 : OnlyChanges [Part.readyQ, Part.ctxs, Part.chans, Part.tally] s x2_1 := by
    unfold x2_1
    refine OnlyChanges.ite ?_ ?_
    · refine OnlyChanges.step ?_ (State.toState_changes _ _ _) (by decide)
      · refine OnlyChanges.step ?_ (State.disarm_changes _ _) (by decide)
        · exact h5
    · exact h5
  have h7 : OnlyChanges [Part.readyQ, Part.ctxs, Part.chans, Part.tally] s x2_2 := by
    unfold x2_2
    refine OnlyChanges.step ?_ (State.modCtx_changes _ _ _) (by decide)
    · exact h6
  refine OnlyChanges.ite ?_ ?_
  · exact OnlyChanges.refl _ _
  · refine OnlyChanges.foldl _ (fun t8 _ => ?_) _ _ ?_
    · refine OnlyChanges.step ?_ (State.dropUnit_changes _ _ _) (by decide)
      · exact OnlyChanges.refl _ _
    · exact h7

theorem State.pauseGroup_changes (s : State) (d : ChipNo) (g : ℕ) : OnlyChanges [.fabric] s (State.pauseGroup s d g) := by
  unfold State.pauseGroup
  extract_lets x3_0
  split
  · exact OnlyChanges.refl _ _
  · extract_lets x9_0
    refine OnlyChanges.ite ?_ ?_
    · exact OnlyChanges.refl _ _
    · refine OnlyChanges.step ?_ (State.request_changes _ _) (by decide)
      · refine OnlyChanges.step ?_ (State.request_changes _ _) (by decide)
        · refine OnlyChanges.step ?_ (State.setTxGroup_changes _ _ _ _) (by decide)
          · exact OnlyChanges.refl _ _

theorem State.pauseLid_changes (s : State) (c : CtxNo) (w : Work) (d : ChipNo) (g : ℕ) : OnlyChanges [.ctxs, .fabric] s (State.pauseLid s c w d g) := by
  unfold State.pauseLid
  extract_lets x5_0
  refine OnlyChanges.step ?_ (State.modWork_changes _ _ _ _) (by decide)
  · refine OnlyChanges.step ?_ (State.pauseGroup_changes _ _ _) (by decide)
    · exact OnlyChanges.refl _ _

theorem State.savePartial_changes (s : State) (c : CtxNo) (w : Work) : OnlyChanges [.frames, .ctxs] s (State.savePartial s c w) := by
  unfold State.savePartial
  extract_lets x3_0 x3_1
  have h5 : OnlyChanges [Part.frames, Part.ctxs] s x3_0 := by
    unfold x3_0
    refine OnlyChanges.step ?_ (State.dropSlots_changes _ _ _) (by decide)
    · refine OnlyChanges.step ?_ (State.dropSvc_changes _ _ _) (by decide)
      · exact OnlyChanges.refl _ _
  refine OnlyChanges.step ?_ (State.modCtx_changes _ _ _) (by decide)
  · exact h5

theorem State.drained_changes (s : State) (c : CtxNo) : OnlyChanges [.frames, .ctxs, .fabric] s (State.drained s c).1 := by
  unfold State.drained
  split
  · dsimp only
    exact OnlyChanges.refl _ _
  · extract_lets x7_0 x7_1
    split
    · dsimp only
      exact OnlyChanges.refl _ _
    · split
      · dsimp only
        refine OnlyChanges.foldl _ (fun t11 _ => ?_) _ _ ?_
        · refine OnlyChanges.step ?_ (State.pauseLid_changes _ _ _ _ _) (by decide)
          · exact OnlyChanges.refl _ _
        · exact OnlyChanges.refl _ _
      · split
        · dsimp only
          exact OnlyChanges.refl _ _
        · dsimp only
          refine OnlyChanges.step ?_ (State.savePartial_changes _ _ _) (by decide)
          · exact OnlyChanges.refl _ _
  · dsimp only
    exact OnlyChanges.refl _ _

theorem State.driveOut_changes (s : State) (c : CtxNo) : OnlyChanges [.chans, .tally, .ctxs, .readyQ, .frames, .fabric] s (State.driveOut s c) := by
  unfold State.driveOut
  extract_lets x2_0
  refine OnlyChanges.ite ?_ ?_
  · exact OnlyChanges.refl _ _
  · split
    · refine OnlyChanges.ite ?_ ?_
      · refine OnlyChanges.step ?_ (Eq.mp (congrArg (OnlyChanges _ _) (congrArg Prod.fst (by assumption : _ = (_, _)))) (State.drained_changes _ _)) (by decide)
        refine OnlyChanges.step ?_ (State.startLeaving_changes _ _) (by decide)
        · exact OnlyChanges.refl _ _
      · refine OnlyChanges.ite ?_ ?_
        · refine OnlyChanges.step ?_ (State.stopIfDone_changes _ _) (by decide)
          · refine OnlyChanges.step ?_ (Eq.mp (congrArg (OnlyChanges _ _) (congrArg Prod.fst (by assumption : _ = (_, _)))) (State.drained_changes _ _)) (by decide)
            refine OnlyChanges.step ?_ (State.startLeaving_changes _ _) (by decide)
            · exact OnlyChanges.refl _ _
        · refine OnlyChanges.step ?_ (State.unbind_changes _ _) (by decide)
          · refine OnlyChanges.step ?_ (State.toState_changes _ _ _) (by decide)
            · refine OnlyChanges.step ?_ (Eq.mp (congrArg (OnlyChanges _ _) (congrArg Prod.fst (by assumption : _ = (_, _)))) (State.drained_changes _ _)) (by decide)
              refine OnlyChanges.step ?_ (State.startLeaving_changes _ _) (by decide)
              · exact OnlyChanges.refl _ _

theorem State.driveFrame_changes (s : State) (f : ℕ) : OnlyChanges [.chans, .tally, .ctxs, .readyQ, .frames, .fabric] s (State.driveFrame s f) := by
  unfold State.driveFrame
  refine OnlyChanges.foldl _ (fun t2 _ => ?_) _ _ ?_
  · split
    · refine OnlyChanges.step ?_ (State.driveOut_changes _ _) (by decide)
      · exact OnlyChanges.refl _ _
    · exact OnlyChanges.refl _ _
  · exact OnlyChanges.refl _ _

theorem State.cpFault_changes (s : State) (width : ℕ) (off : ℕ) : OnlyChanges [.faults, .frames, .snap, .recd] s (State.cpFault s width off) := by
  unfold State.cpFault
  refine OnlyChanges.step ?_ (State.raise_changes _ _) (by decide)
  · exact OnlyChanges.refl _ _

theorem State.refuseAccess_changes (s : State) (wr : Bool) (slot : ℕ) (strobe : BitVec 8) : OnlyChanges [.regs, .faults, .frames, .snap, .recd] s (State.refuseAccess s wr slot strobe) := by
  unfold State.refuseAccess
  extract_lets x4_0 x4_1
  have h6 : OnlyChanges [Part.regs, Part.faults, Part.frames, Part.snap, Part.recd] s x4_0 := by
    unfold x4_0
    refine OnlyChanges.step ?_ (State.cpFault_changes _ _ _) (by decide)
    · exact OnlyChanges.refl _ _
  refine OnlyChanges.ite ?_ ?_
  · exact h6
  · refine OnlyChanges.put_regs _ ?_ (by decide)
    exact h6

theorem State.narrowKnock_changes (s : State) : OnlyChanges [.regs] s (State.narrowKnock s) := by
  unfold State.narrowKnock
  extract_lets x1_0 x1_1
  refine OnlyChanges.ite ?_ ?_
  · refine OnlyChanges.put_regs _ ?_ (by decide)
    exact OnlyChanges.refl _ _
  · exact OnlyChanges.refl _ _

theorem State.injectFlips_changes (s : State) (src : ℕ) (frame : ℕ) (n : ℕ) : MayChange [.faults] s (State.injectFlips s src frame n) := by
  unfold State.injectFlips
  refine MayChange.ite ?_ ?_
  · refine MayChange.some ?_
    refine OnlyChanges.step ?_ (State.modFaults_changes _ _) (by decide)
    · exact OnlyChanges.refl _ _
  · refine MayChange.ite ?_ ?_
    · refine MayChange.some ?_
      refine OnlyChanges.step ?_ (State.modFaults_changes _ _) (by decide)
      · exact OnlyChanges.refl _ _
    · refine MayChange.ite ?_ ?_
      · refine MayChange.some ?_
        refine OnlyChanges.step ?_ (State.modFaults_changes _ _) (by decide)
        · exact OnlyChanges.refl _ _
      · refine MayChange.ite ?_ ?_
        · refine MayChange.some ?_
          refine OnlyChanges.step ?_ (State.modFaults_changes _ _) (by decide)
          · exact OnlyChanges.refl _ _
        · exact MayChange.none _ _

theorem State.injectWrite_changes (s : State) (w : BitVec 32) : OnlyChanges [.faults, .frames, .snap, .recd] s (State.injectWrite s w) := by
  unfold State.injectWrite
  extract_lets x2_0 x2_1
  have h4 : OnlyChanges [Part.faults, Part.frames, Part.snap, Part.recd] s x2_1 := by
    unfold x2_1
    refine OnlyChanges.step ?_ (State.cpFault_changes _ _ _) (by decide)
    · exact OnlyChanges.refl _ _
  refine OnlyChanges.ite ?_ ?_
  · exact h4
  · refine OnlyChanges.ite ?_ ?_
    · refine OnlyChanges.step ?_ (State.raise_changes _ _) (by decide)
      · exact OnlyChanges.refl _ _
    · refine MayChange.getD ?_ ?_
      · refine MayChange.step ?_ (State.injectFlips_changes _ _ _ _) (by decide)
        · exact OnlyChanges.refl _ _
      · exact h4

theorem State.tallyStatWrite_changes (s : State) (w : BitVec 32) : OnlyChanges [.tally] s (State.tallyStatWrite s w) := by
  unfold State.tallyStatWrite
  refine OnlyChanges.ite ?_ ?_
  · refine OnlyChanges.step ?_ (State.modTally_changes _ _) (by decide)
    · exact OnlyChanges.refl _ _
  · exact OnlyChanges.refl _ _

theorem State.fltCfgWrite_changes (s : State) (w : BitVec 32) : OnlyChanges [.faults] s (State.fltCfgWrite s w) := by
  unfold State.fltCfgWrite
  extract_lets x2_0 x2_1 x2_2
  refine OnlyChanges.step ?_ (State.modFaults_changes _ _) (by decide)
  · exact OnlyChanges.refl _ _

theorem State.barStatWrite_changes (s : State) (b : ℕ) (w : Word) : OnlyChanges [.tally] s (State.barStatWrite s b w) := by
  unfold State.barStatWrite
  extract_lets x3_0
  refine OnlyChanges.ite ?_ ?_
  · refine OnlyChanges.step ?_ (State.setBarrier_changes _ _ _) (by decide)
    · exact OnlyChanges.refl _ _
  · exact OnlyChanges.refl _ _

theorem State.restartWrite_changes (s : State) (w : BitVec 32) : OnlyChanges [.power, .frames, .faults, .snap, .recd] s (State.restartWrite s w) := by
  unfold State.restartWrite
  extract_lets x2_0 x2_1 x2_2
  have h5 : OnlyChanges [Part.power, Part.frames, Part.faults, Part.snap, Part.recd] s x2_2 := by
    unfold x2_2
    refine OnlyChanges.foldl _ (fun t5 _ => ?_) _ _ ?_
    · refine OnlyChanges.step ?_ (State.clockDown_changes _ _) (by decide)
      · refine OnlyChanges.step ?_ (State.modFrame_changes _ _ _) (by decide)
        · exact OnlyChanges.refl _ _
    · exact OnlyChanges.refl _ _
  refine OnlyChanges.ite ?_ ?_
  · exact h5
  · refine OnlyChanges.step ?_ (State.cpFault_changes _ _ _) (by decide)
    · exact h5

theorem State.wake_changes (s : State) (pk : Bool) : OnlyChanges [.power] s (State.wake s pk) := by
  unfold State.wake
  extract_lets x2_0 x2_1
  have h4 : OnlyChanges [Part.power] s x2_1 := by
    unfold x2_1
    refine OnlyChanges.put_power _ ?_ (by decide)
    exact OnlyChanges.refl _ _
  refine OnlyChanges.ite ?_ ?_
  · exact OnlyChanges.refl _ _
  · refine OnlyChanges.step ?_ (State.clockUp_changes _ _) (by decide)
    · refine OnlyChanges.step ?_ (State.powerUp_changes _ _) (by decide)
      · exact h4

theorem State.arbSelWrite_changes (s : State) (w : BitVec 32) : OnlyChanges [.regs] s (State.arbSelWrite s w) := by
  unfold State.arbSelWrite
  extract_lets x2_0
  refine OnlyChanges.put_regs _ ?_ (by decide)
  exact OnlyChanges.refl _ _

theorem State.swarmCtrlWrite_changes (s : State) (w : BitVec 32) : OnlyChanges [.regs] s (State.swarmCtrlWrite s w) := by
  unfold State.swarmCtrlWrite
  extract_lets x2_0
  refine OnlyChanges.put_regs _ ?_ (by decide)
  exact OnlyChanges.refl _ _

theorem State.snapCtrlWrite_changes (s : State) (w : Word) : OnlyChanges [.snap] s (State.snapCtrlWrite s w) := by
  unfold State.snapCtrlWrite
  extract_lets x2_0 x2_1
  have h4 : OnlyChanges [Part.snap] s x2_1 := by
    unfold x2_1
    refine OnlyChanges.put_snap _ ?_ (by decide)
    exact OnlyChanges.refl _ _
  refine OnlyChanges.ite ?_ ?_
  · refine OnlyChanges.step ?_ (State.snapTrigger_changes _ _) (by decide)
    · exact h4
  · exact h4

theorem State.kcWrite_changes (s : State) (w : BitVec 32) : OnlyChanges [.keeper, .fabric, .xlate, .ftest, .frames, .ctxs, .swarms, .faults, .sec, .power, .snap, .recd, .free] s (State.kcWrite s w) := by
  unfold State.kcWrite
  extract_lets x2_0 x2_1 x2_2
  refine OnlyChanges.ite ?_ ?_
  · refine OnlyChanges.step ?_ (State.keeperReset_changes _) (by decide)
    · exact OnlyChanges.refl _ _
  · exact OnlyChanges.refl _ _

theorem State.telemWrite_changes (s : State) (w : Word) : OnlyChanges [.telem, .frames] s (State.telemWrite s w) := by
  unfold State.telemWrite
  extract_lets x2_0 x2_1 x2_2 x2_3 x2_4
  have h7 : OnlyChanges [Part.telem, Part.frames] s x2_2 := by
    unfold x2_2
    refine OnlyChanges.put_telem _ ?_ (by decide)
    exact OnlyChanges.refl _ _
  have h8 : OnlyChanges [Part.telem, Part.frames] s x2_3 := by
    unfold x2_3
    refine OnlyChanges.step ?_ (State.mapFrames_changes _ _) (by decide)
    · exact h7
  refine OnlyChanges.ite ?_ ?_
  · exact h7
  · refine OnlyChanges.step ?_ (State.noteLevels_changes _) (by decide)
    · refine OnlyChanges.put_telem _ ?_ (by decide)
      exact h8

theorem State.pwrCtrlWrite_changes (s : State) (w : Word) : OnlyChanges [.power] s (State.pwrCtrlWrite s w) := by
  unfold State.pwrCtrlWrite
  extract_lets x2_0
  refine OnlyChanges.put_power _ ?_ (by decide)
  exact OnlyChanges.refl _ _

theorem State.flowWrite_changes (s : State) (w : Word) : OnlyChanges [.regs] s (State.flowWrite s w) := by
  unfold State.flowWrite
  extract_lets x2_0
  refine OnlyChanges.put_regs _ ?_ (by decide)
  exact OnlyChanges.refl _ _

theorem State.credStatWrite_changes (s : State) (c : ℕ) (w : BitVec 32) : OnlyChanges [.tally] s (State.credStatWrite s c w) := by
  unfold State.credStatWrite
  refine OnlyChanges.ite ?_ ?_
  · refine OnlyChanges.step ?_ (State.modTally_changes _ _) (by decide)
    · exact OnlyChanges.refl _ _
  · exact OnlyChanges.refl _ _

theorem State.heldWrite_changes (s : State) (w : Word) : OnlyChanges [.power] s (State.heldWrite s w) := by
  unfold State.heldWrite
  refine OnlyChanges.foldl _ (fun t2 _ => ?_) _ _ ?_
  · extract_lets x4_0
    refine OnlyChanges.step ?_ (State.setRegion_changes _ _ _) (by decide)
    · exact OnlyChanges.refl _ _
  · exact OnlyChanges.refl _ _

theorem State.smokerWrite_changes (s : State) (w : BitVec 32) : OnlyChanges [.power, .telem] s (State.smokerWrite s w) := by
  unfold State.smokerWrite
  extract_lets x2_0 x2_1
  have h4 : OnlyChanges [Part.power, Part.telem] s x2_1 := by
    unfold x2_1
    refine OnlyChanges.put_power _ ?_ (by decide)
    exact OnlyChanges.refl _ _
  refine OnlyChanges.step ?_ (State.noteLevels_changes _) (by decide)
  · refine OnlyChanges.foldl _ (fun t5 _ => ?_) _ _ ?_
    · extract_lets x7_0
      refine OnlyChanges.ite ?_ ?_
      · refine OnlyChanges.step ?_ (State.setRegion_changes _ _ _) (by decide)
        · exact OnlyChanges.refl _ _
      · exact OnlyChanges.refl _ _
    · exact h4

theorem State.ownWrite_changes (s : State) (g : ℕ) (w : BitVec 32) : OnlyChanges [.tally] s (State.ownWrite s g w) := by
  unfold State.ownWrite
  refine OnlyChanges.step ?_ (State.modTally_changes _ _) (by decide)
  · exact OnlyChanges.refl _ _

theorem State.tallyCtrlWrite_changes (s : State) (w : BitVec 32) : OnlyChanges [.tally] s (State.tallyCtrlWrite s w) := by
  unfold State.tallyCtrlWrite
  refine OnlyChanges.step ?_ (State.modTally_changes _ _) (by decide)
  · exact OnlyChanges.refl _ _

theorem State.barCfgWrite_changes (s : State) (b : ℕ) (f : Barrier → Barrier) : OnlyChanges [.tally] s (State.barCfgWrite s b f) := by
  unfold State.barCfgWrite
  extract_lets x3_0
  refine OnlyChanges.step ?_ (State.setBarrier_changes _ _ _) (by decide)
  · exact OnlyChanges.refl _ _

theorem State.writeReg_changes (s : State) (off : ℕ) (w : Word) : OnlyChanges [.telem, .faults, .recd, .frames, .snap, .tally, .power, .regs, .keeper, .mboxes, .chans, .fabric, .xlate, .ftest, .ctxs, .swarms, .readyQ, .sec, .free] s (State.writeReg s off w) := by
  unfold State.writeReg
  extract_lets x3_0 x3_1 x3_2 x3_3 x3_4 x3_5
  refine OnlyChanges.ite ?_ ?_
  · clear_value x3_2
    split
    · refine OnlyChanges.step ?_ (State.dbWrite_changes _ _ _) (by decide)
      · exact OnlyChanges.refl _ _
    · refine OnlyChanges.step ?_ (State.knock_changes _ _) (by decide)
      · exact OnlyChanges.refl _ _
    · exact OnlyChanges.refl _ _
  · refine OnlyChanges.ite ?_ ?_
    · refine OnlyChanges.ite ?_ ?_
      · refine OnlyChanges.step ?_ (State.dbWrite_changes _ _ _) (by decide)
        · exact OnlyChanges.refl _ _
      · exact OnlyChanges.refl _ _
    · refine OnlyChanges.ite ?_ ?_
      · split
        · refine OnlyChanges.step ?_ (State.barWrite_changes _ _ _) (by decide)
          · exact OnlyChanges.refl _ _
        · refine OnlyChanges.step ?_ (State.barCfgWrite_changes _ _ _) (by decide)
          · exact OnlyChanges.refl _ _
        · refine OnlyChanges.step ?_ (State.barCfgWrite_changes _ _ _) (by decide)
          · exact OnlyChanges.refl _ _
        · refine OnlyChanges.step ?_ (State.barStatWrite_changes _ _ _) (by decide)
          · exact OnlyChanges.refl _ _
        · exact OnlyChanges.refl _ _
      · refine OnlyChanges.ite ?_ ?_
        · refine OnlyChanges.step ?_ (State.ownWrite_changes _ _ _) (by decide)
          · exact OnlyChanges.refl _ _
        · refine OnlyChanges.ite ?_ ?_
          · split
            · refine OnlyChanges.step ?_ (State.credWrite_changes _ _ _) (by decide)
              · exact OnlyChanges.refl _ _
            · refine OnlyChanges.step ?_ (State.credStatWrite_changes _ _ _) (by decide)
              · exact OnlyChanges.refl _ _
            · exact OnlyChanges.refl _ _
          · refine OnlyChanges.ite ?_ ?_
            · refine OnlyChanges.ite ?_ ?_
              · refine OnlyChanges.step ?_ (State.paceWrite_changes _ _ _) (by decide)
                · exact OnlyChanges.refl _ _
              · exact OnlyChanges.refl _ _
            · split
              · refine OnlyChanges.step ?_ (State.kcWrite_changes _ _) (by decide)
                · exact OnlyChanges.refl _ _
              · refine OnlyChanges.step ?_ (State.kbWrite_changes _ _) (by decide)
                · exact OnlyChanges.refl _ _
              · refine OnlyChanges.step ?_ (State.knock_changes _ _) (by decide)
                · exact OnlyChanges.refl _ _
              · refine OnlyChanges.step ?_ (State.knockDropWrite_changes _ _) (by decide)
                · exact OnlyChanges.refl _ _
              · refine OnlyChanges.step ?_ (State.fltStatWrite_changes _ _) (by decide)
                · exact OnlyChanges.refl _ _
              · refine OnlyChanges.step ?_ (State.modFaults_changes _ _) (by decide)
                · exact OnlyChanges.refl _ _
              · refine OnlyChanges.step ?_ (State.fltCfgWrite_changes _ _) (by decide)
                · exact OnlyChanges.refl _ _
              · refine OnlyChanges.step ?_ (State.cap0Write_changes _ _) (by decide)
                · exact OnlyChanges.refl _ _
              · refine OnlyChanges.step ?_ (State.pinWrite_changes _ _) (by decide)
                · exact OnlyChanges.refl _ _
              · refine OnlyChanges.step ?_ (State.restartWrite_changes _ _) (by decide)
                · exact OnlyChanges.refl _ _
              · refine OnlyChanges.step ?_ (State.injectWrite_changes _ _) (by decide)
                · exact OnlyChanges.refl _ _
              · refine OnlyChanges.step ?_ (State.snapCtrlWrite_changes _ _) (by decide)
                · exact OnlyChanges.refl _ _
              · refine OnlyChanges.step ?_ (State.pwrCtrlWrite_changes _ _) (by decide)
                · exact OnlyChanges.refl _ _
              · refine OnlyChanges.step ?_ (State.smokerWrite_changes _ _) (by decide)
                · exact OnlyChanges.refl _ _
              · refine OnlyChanges.put_telem _ ?_ (by decide)
                exact OnlyChanges.refl _ _
              · refine OnlyChanges.step ?_ (State.heldWrite_changes _ _) (by decide)
                · exact OnlyChanges.refl _ _
              · refine OnlyChanges.step ?_ (State.telemWrite_changes _ _) (by decide)
                · exact OnlyChanges.refl _ _
              · refine OnlyChanges.step ?_ (State.flowWrite_changes _ _) (by decide)
                · exact OnlyChanges.refl _ _
              · refine OnlyChanges.step ?_ (State.swarmCtrlWrite_changes _ _) (by decide)
                · exact OnlyChanges.refl _ _
              · refine OnlyChanges.step ?_ (State.arbSelWrite_changes _ _) (by decide)
                · exact OnlyChanges.refl _ _
              · refine OnlyChanges.step ?_ (State.arbClear_changes _ _) (by decide)
                · exact OnlyChanges.refl _ _
              · refine OnlyChanges.step ?_ (State.tallyCtrlWrite_changes _ _) (by decide)
                · exact OnlyChanges.refl _ _
              · refine OnlyChanges.step ?_ (State.tallyStatWrite_changes _ _) (by decide)
                · exact OnlyChanges.refl _ _
              · refine OnlyChanges.ite ?_ ?_
                · refine OnlyChanges.step ?_ (State.wake_changes _ _) (by decide)
                  · exact OnlyChanges.refl _ _
                · exact OnlyChanges.refl _ _
              · refine OnlyChanges.step ?_ (State.cursorWrite_changes _ _) (by decide)
                · exact OnlyChanges.refl _ _
              · exact OnlyChanges.refl _ _

theorem State.portWrite_changes (s : State) (slot : ℕ) (strobe : BitVec 8) (data : Word) : OnlyChanges [.regs, .faults, .frames, .snap, .recd, .mboxes, .telem, .tally, .power, .keeper, .chans, .fabric, .xlate, .ftest, .ctxs, .swarms, .readyQ, .sec, .free] s (State.portWrite s slot strobe data) := by
  unfold State.portWrite
  extract_lets x4_0 x4_1
  refine OnlyChanges.ite ?_ ?_
  · exact OnlyChanges.refl _ _
  · refine OnlyChanges.ite ?_ ?_
    · refine OnlyChanges.step ?_ (State.refuseAccess_changes _ _ _ _) (by decide)
      · refine OnlyChanges.ite ?_ ?_
        · refine OnlyChanges.step ?_ (State.narrowKnock_changes _) (by decide)
          · exact OnlyChanges.refl _ _
        · exact OnlyChanges.refl _ _
    · refine OnlyChanges.ite ?_ ?_
      · exact OnlyChanges.refl _ _
      · split
        · refine OnlyChanges.step ?_ (State.windowWrite_changes _ _ _ _) (by decide)
          · exact OnlyChanges.refl _ _
        · refine OnlyChanges.step ?_ (State.writeReg_changes _ _ _) (by decide)
          · exact OnlyChanges.refl _ _

theorem State.takeRelayed_changes (s : State) (m : Msg) : PairMay [.mboxes, .keeper, .fabric, .recd] s (State.takeRelayed s m) := by
  unfold State.takeRelayed
  extract_lets x2_0 x2_1 x2_2
  split
  · refine PairMay.some ?_
    refine OnlyChanges.step ?_ (State.sendMsg_changes _ _) (by decide)
    · exact OnlyChanges.refl _ _
  · refine PairMay.ite ?_ ?_
    · exact PairMay.none _ _
    · refine PairMay.ite ?_ ?_
      · refine PairMay.some ?_
        refine OnlyChanges.step ?_ (State.finish_changes _ _ _ _ _) (by decide)
        · exact OnlyChanges.refl _ _
      · refine PairMay.some ?_
        refine OnlyChanges.step ?_ (State.accept_changes _ _ _) (by decide)
        · exact OnlyChanges.refl _ _

theorem State.noteMode_changes (s : State) : OnlyChanges [.power, .recd] s (State.noteMode s) := by
  unfold State.noteMode
  extract_lets x1_0 x1_1 x1_2 x1_3
  have h5 : OnlyChanges [Part.power, Part.recd] s x1_3 := by
    unfold x1_3
    refine OnlyChanges.put_power _ ?_ (by decide)
    exact OnlyChanges.refl _ _
  refine OnlyChanges.ite ?_ ?_
  · exact OnlyChanges.refl _ _
  · clear_value x1_0
    split
    · refine OnlyChanges.ite ?_ ?_
      · refine OnlyChanges.step ?_ (State.event_changes _ _) (by decide)
        · exact h5
      · exact h5
    · exact h5

theorem State.settlePower_changes (s : State) : OnlyChanges [.power, .frames, .keeper, .recd, .faults, .sec, .snap, .free] s (State.settlePower s) := by
  unfold State.settlePower
  extract_lets x1_0 x1_1 x1_2 x1_3
  have h5 : OnlyChanges [Part.power, Part.frames, Part.keeper, Part.recd, Part.faults, Part.sec, Part.snap, Part.free] s x1_0 := by
    unfold x1_0
    refine OnlyChanges.ite ?_ ?_
    · refine OnlyChanges.step ?_ (State.powerUp_changes _ _) (by decide)
      · exact OnlyChanges.refl _ _
    · refine OnlyChanges.step ?_ (State.powerDown_changes _ _) (by decide)
      · exact OnlyChanges.refl _ _
  have h6 : OnlyChanges [Part.power, Part.frames, Part.keeper, Part.recd, Part.faults, Part.sec, Part.snap, Part.free] s x1_1 := by
    unfold x1_1
    refine OnlyChanges.foldl _ (fun t6 _ => ?_) _ _ ?_
    · refine OnlyChanges.step ?_ (State.settleFrame_changes _ _) (by decide)
      · exact OnlyChanges.refl _ _
    · exact h5
  have h7 : OnlyChanges [Part.power, Part.frames, Part.keeper, Part.recd, Part.faults, Part.sec, Part.snap, Part.free] s x1_2 := by
    unfold x1_2
    refine OnlyChanges.foldl _ (fun t7 _ => ?_) _ _ ?_
    · refine OnlyChanges.step ?_ (State.settleDomain_changes _ _) (by decide)
      · exact OnlyChanges.refl _ _
    · exact h6
  have h8 : OnlyChanges [Part.power, Part.frames, Part.keeper, Part.recd, Part.faults, Part.sec, Part.snap, Part.free] s x1_3 := by
    unfold x1_3
    refine OnlyChanges.foldl _ (fun t8 _ => ?_) _ _ ?_
    · refine OnlyChanges.step ?_ (State.settleClock_changes _ _) (by decide)
      · exact OnlyChanges.refl _ _
    · exact h7
  refine OnlyChanges.step ?_ (State.noteMode_changes _) (by decide)
  · refine OnlyChanges.step ?_ (State.bootIfPowered_changes _) (by decide)
    · exact h8

theorem State.domainDown_changes (s : State) (d : ℕ) : OnlyChanges [.xlate] s (State.domainDown s d) := by
  unfold State.domainDown
  refine OnlyChanges.ite ?_ ?_
  · refine OnlyChanges.step ?_ (State.modXlate_changes _ _) (by decide)
    · exact OnlyChanges.refl _ _
  · exact OnlyChanges.refl _ _

theorem execPwrAck_changes (d : Fin 65) (up : Bool) (s : State) : ∃ t, (execPwrAck d up s) = .next t ∧ OnlyChanges [.power, .frames, .keeper, .recd, .tally, .xlate, .mboxes, .ctxs, .chans, .swarms, .fabric, .faults, .sec, .snap, .free] s t := by
  refine ⟨_, rfl, ?_⟩
  extract_lets x3_0 x3_1 x3_2
  refine OnlyChanges.ite ?_ ?_
  · refine OnlyChanges.step ?_ (State.settlePower_changes _) (by decide)
    · refine OnlyChanges.step ?_ (State.domainPowered_changes _ _) (by decide)
      · refine OnlyChanges.put_power _ ?_ (by decide)
        exact OnlyChanges.refl _ _
  · refine OnlyChanges.ite ?_ ?_
    · refine OnlyChanges.step ?_ (State.settlePower_changes _) (by decide)
      · refine OnlyChanges.step ?_ (State.domainDown_changes _ _) (by decide)
        · refine OnlyChanges.put_power _ ?_ (by decide)
          exact OnlyChanges.refl _ _
    · exact OnlyChanges.refl _ _

theorem execKsetBind_changes (o : Origin) (s : State) : ∃ t, (execKsetBind o s) = .next t ∧ OnlyChanges [.mboxes, .keeper, .fabric, .recd, .faults, .frames, .snap, .ctxs] s t := by
  refine ⟨_, rfl, ?_⟩
  apply State.runVerb_ho
  · decide
  · exact OnlyChanges.refl _ _
  · intro a2
    extract_lets x3_0 x3_1 x3_2
    apply State.onCtx_ho
    · decide
    · exact OnlyChanges.refl _ _
    · intro a6
      refine OnlyChanges.ite ?_ ?_
      · refine OnlyChanges.step ?_ (State.verbDone_changes _ _ _ _ _) (by decide)
        · exact OnlyChanges.refl _ _
      · refine OnlyChanges.ite ?_ ?_
        · refine OnlyChanges.step ?_ (State.refuseTenant_changes _ _) (by decide)
          · exact OnlyChanges.refl _ _
        · refine OnlyChanges.ite ?_ ?_
          · refine OnlyChanges.step ?_ (State.verbDone_changes _ _ _ _ _) (by decide)
            · exact OnlyChanges.refl _ _
          · refine OnlyChanges.ite ?_ ?_
            · refine OnlyChanges.step ?_ (State.verbDone_changes _ _ _ _ _) (by decide)
              · exact OnlyChanges.refl _ _
            · refine OnlyChanges.step ?_ (State.verbDone_changes _ _ _ _ _) (by decide)
              · refine OnlyChanges.step ?_ (State.modCtx_changes _ _ _) (by decide)
                · exact OnlyChanges.refl _ _

theorem execKsetRetire_changes (o : Origin) (s : State) : ∃ t, (execKsetRetire o s) = .next t ∧ OnlyChanges [.keeper, .mboxes, .fabric, .recd, .ksets, .faults, .frames, .snap] s t := by
  refine ⟨_, rfl, ?_⟩
  apply State.runVerb_ho
  · decide
  · exact OnlyChanges.refl _ _
  · intro a2
    extract_lets x3_0 x3_1
    refine OnlyChanges.ite ?_ ?_
    · refine OnlyChanges.step ?_ (State.verbDone_changes _ _ _ _ _) (by decide)
      · exact OnlyChanges.refl _ _
    · refine OnlyChanges.ite ?_ ?_
      · refine OnlyChanges.step ?_ (State.refuseTenant_changes _ _) (by decide)
        · exact OnlyChanges.refl _ _
      · refine OnlyChanges.ite ?_ ?_
        · refine OnlyChanges.step ?_ (State.verbDone_changes _ _ _ _ _) (by decide)
          · exact OnlyChanges.refl _ _
        · refine OnlyChanges.step ?_ (State.verbDrains_changes _ _) (by decide)
          · refine OnlyChanges.step ?_ (State.setKset_changes _ _ _) (by decide)
            · exact OnlyChanges.refl _ _

theorem execSealSilenceTimeout_changes (l : Fin 18) (s : State) : ∃ t, (execSealSilenceTimeout l s) = .next t ∧ OnlyChanges [.fabric, .free, .mboxes, .keeper, .recd, .frames, .ctxs, .faults, .snap] s t := by
  refine ⟨_, rfl, ?_⟩
  refine OnlyChanges.ite ?_ ?_
  · refine OnlyChanges.step ?_ (State.linkDown_changes _ _ _ _) (by decide)
    · exact OnlyChanges.refl _ _
  · exact OnlyChanges.refl _ _

theorem State.stageStep_changes (s : State) (c : CtxNo) (w : Work) : MayChange [.frames, .ctxs] s (State.stageStep s c w) := by
  unfold State.stageStep
  extract_lets x3_0 x3_1
  refine MayChange.ite ?_ ?_
  · exact MayChange.none _ _
  · refine MayChange.ite ?_ ?_
    · refine MayChange.some ?_
      refine OnlyChanges.step ?_ (State.modFrame_changes _ _ _) (by decide)
      · exact OnlyChanges.refl _ _
    · refine MayChange.ite ?_ ?_
      · refine MayChange.some ?_
        refine OnlyChanges.step ?_ (State.modWork_changes _ _ _ _) (by decide)
        · refine OnlyChanges.step ?_ (State.modFrame_changes _ _ _) (by decide)
          · exact OnlyChanges.refl _ _
      · exact MayChange.none _ _

theorem State.layUnit_changes (s : State) (c : CtxNo) (w : Work) (e : Entry) : OnlyChanges [.ctxs, .frames, .fabric, .chans, .tally, .faults, .snap, .recd, .nextId] s (State.layUnit s c w e) := by
  unfold State.layUnit
  extract_lets x4_0 x4_1 x4_2
  refine OnlyChanges.ite ?_ ?_
  · unfold x4_2
    refine OnlyChanges.step ?_ (State.modWork_changes _ _ _ _) (by decide)
    · exact OnlyChanges.refl _ _
  · split
    · refine OnlyChanges.step ?_ (State.endWork_changes _ _ _ _ _) (by decide)
      · exact OnlyChanges.refl _ _
    · refine OnlyChanges.ite ?_ ?_
      · refine OnlyChanges.step ?_ (State.endWork_changes _ _ _ _ _) (by decide)
        · exact OnlyChanges.refl _ _
      · refine OnlyChanges.ite ?_ ?_
        · refine OnlyChanges.step ?_ (State.endWork_changes _ _ _ _ _) (by decide)
          · exact OnlyChanges.refl _ _
        · refine OnlyChanges.ite ?_ ?_
          · refine OnlyChanges.step ?_ (State.endWork_changes _ _ _ _ _) (by decide)
            · exact OnlyChanges.refl _ _
          · refine OnlyChanges.ite ?_ ?_
            · refine OnlyChanges.step ?_ (State.tileCheck_changes _ _ _) (by decide)
              · unfold x4_2
                refine OnlyChanges.step ?_ (State.modWork_changes _ _ _ _) (by decide)
                · exact OnlyChanges.refl _ _
            · unfold x4_2
              refine OnlyChanges.step ?_ (State.modWork_changes _ _ _ _) (by decide)
              · exact OnlyChanges.refl _ _
    · unfold x4_2
      refine OnlyChanges.step ?_ (State.modWork_changes _ _ _ _) (by decide)
      · exact OnlyChanges.refl _ _

theorem State.startUnit_changes (s : State) (c : CtxNo) (w : Work) : MayChange [.frames, .ctxs, .fabric, .chans, .tally, .faults, .snap, .recd, .nextId] s (State.startUnit s c w) := by
  unfold State.startUnit
  refine MayChange.ite ?_ ?_
  · exact MayChange.none _ _
  · refine MayChange.ite ?_ ?_
    · refine MayChange.step ?_ (State.stageStep_changes _ _ _) (by decide)
      · exact OnlyChanges.refl _ _
    · split
      · refine MayChange.ite ?_ ?_
        · exact MayChange.none _ _
        · refine MayChange.some ?_
          refine OnlyChanges.step ?_ (State.svcRead_changes _ _ _ _ _) (by decide)
          · exact OnlyChanges.refl _ _
      · refine MayChange.some ?_
        refine OnlyChanges.step ?_ (State.endWork_changes _ _ _ _ _) (by decide)
        · exact OnlyChanges.refl _ _
      · refine MayChange.some ?_
        refine OnlyChanges.step ?_ (State.layUnit_changes _ _ _ _) (by decide)
        · exact OnlyChanges.refl _ _

theorem execSwarmCloseFinish_changes (sw : Fin 4) (s : State) : ∃ t, (execSwarmCloseFinish sw s) = .next t ∧ OnlyChanges [.expand, .mboxes, .keeper, .fabric, .recd, .swarms] s t := by
  refine ⟨_, rfl, ?_⟩
  extract_lets x2_0 x2_1 x2_2
  have h5 : OnlyChanges [Part.expand, Part.mboxes, Part.keeper, Part.fabric, Part.recd, Part.swarms] s x2_1 := by
    unfold x2_1
    refine OnlyChanges.step ?_ (State.setSwarm_changes _ _ _) (by decide)
    · exact OnlyChanges.refl _ _
  have h6 : OnlyChanges [Part.expand, Part.mboxes, Part.keeper, Part.fabric, Part.recd, Part.swarms] s x2_2 := by
    unfold x2_2
    refine OnlyChanges.put_expand _ ?_ (by decide)
    exact h5
  split
  · exact OnlyChanges.refl _ _
  · refine OnlyChanges.ite ?_ ?_
    · exact OnlyChanges.refl _ _
    · refine OnlyChanges.step ?_ (State.verbEnd_changes _ _ _ _ _ _) (by decide)
      · exact h6

theorem State.sendCtlAgain_changes (s : State) (c : ChipNo) : OnlyChanges [.tally, .fabric] s (State.sendCtlAgain s c) := by
  unfold State.sendCtlAgain
  extract_lets x2_0
  have h3 : OnlyChanges [Part.tally, Part.fabric] s x2_0 := by
    unfold x2_0
    refine OnlyChanges.step ?_ (State.barrierResend_changes _ _) (by decide)
    · refine OnlyChanges.step ?_ (State.modPartner_changes _ _ _) (by decide)
      · exact OnlyChanges.refl _ _
  refine OnlyChanges.ite ?_ ?_
  · exact OnlyChanges.refl _ _
  · refine OnlyChanges.foldl _ (fun t4 _ => ?_) _ _ ?_
    · refine OnlyChanges.step ?_ (State.sendMsg_changes _ _) (by decide)
      · exact OnlyChanges.refl _ _
    · exact h3

theorem State.grant_changes (s : State) (c : ChipNo) (n : ℕ) (adm : Admission) : OnlyChanges [.fabric] s (State.grant s c n adm) := by
  unfold State.grant
  extract_lets x4_0
  refine OnlyChanges.step ?_ (State.sendMsg_changes _ _) (by decide)
  · refine OnlyChanges.step ?_ (State.modPartner_changes _ _ _) (by decide)
    · exact OnlyChanges.refl _ _

theorem execPartnerRamp_changes (chip : ChipNo) (s : State) : ∃ t, (execPartnerRamp chip s) = .next t ∧ OnlyChanges [.fabric] s t := by
  refine ⟨_, rfl, ?_⟩
  refine OnlyChanges.ite ?_ ?_
  · exact OnlyChanges.refl _ _
  · split
    · refine OnlyChanges.step ?_ (State.grant_changes _ _ _ _) (by decide)
      · exact OnlyChanges.refl _ _
    · refine OnlyChanges.step ?_ (State.grant_changes _ _ _ _) (by decide)
      · exact OnlyChanges.refl _ _
    · refine OnlyChanges.step ?_ (State.grant_changes _ _ _ _) (by decide)
      · exact OnlyChanges.refl _ _
    · refine OnlyChanges.step ?_ (State.grant_changes _ _ _ _) (by decide)
      · exact OnlyChanges.refl _ _
    · exact OnlyChanges.refl _ _

theorem State.hiveStart_changes (s : State) (i : FwImage) : OnlyChanges [.keeper, .power] s (State.hiveStart s i) := by
  unfold State.hiveStart
  extract_lets x2_0
  have h3 : OnlyChanges [Part.keeper, Part.power] s x2_0 := by
    unfold x2_0
    refine OnlyChanges.step ?_ (State.modKeeper_changes _ _) (by decide)
    · exact OnlyChanges.refl _ _
  refine OnlyChanges.step ?_ (State.powerUp_changes _ _) (by decide)
  · refine OnlyChanges.step ?_ (State.powerUp_changes _ _) (by decide)
    · exact h3

theorem State.bootVerdict_changes (s : State) (ok : Bool) (i : FwImage) : OnlyChanges [.mboxes, .keeper, .fabric, .recd, .power, .faults, .frames, .snap] s (State.bootVerdict s ok i) := by
  unfold State.bootVerdict
  extract_lets x3_0 x3_1
  have h5 : OnlyChanges [Part.mboxes, Part.keeper, Part.fabric, Part.recd, Part.power, Part.faults, Part.frames, Part.snap] s x3_0 := by
    unfold x3_0
    refine OnlyChanges.step ?_ (State.modKeeper_changes _ _) (by decide)
    · exact OnlyChanges.refl _ _
  have h6 : OnlyChanges [Part.mboxes, Part.keeper, Part.fabric, Part.recd, Part.power, Part.faults, Part.frames, Part.snap] s x3_1 := by
    unfold x3_1
    refine OnlyChanges.step ?_ (State.modKeeper_changes _ _) (by decide)
    · exact OnlyChanges.refl _ _
  split
  · refine OnlyChanges.ite ?_ ?_
    · refine OnlyChanges.step ?_ (State.modKeeper_changes _ _) (by decide)
      · refine OnlyChanges.step ?_ (State.hiveStart_changes _ _) (by decide)
        · exact OnlyChanges.refl _ _
    · refine OnlyChanges.step ?_ (State.bootFailed_changes _) (by decide)
      · exact OnlyChanges.refl _ _
  · refine OnlyChanges.ite ?_ ?_
    · refine OnlyChanges.step ?_ (State.hiveStart_changes _ _) (by decide)
      · exact OnlyChanges.refl _ _
    · refine OnlyChanges.step ?_ (State.bootFailed_changes _) (by decide)
      · exact OnlyChanges.refl _ _
  · refine OnlyChanges.ite ?_ ?_
    · refine OnlyChanges.step ?_ (State.verbDone_changes _ _ _ _ _) (by decide)
      · exact h5
    · refine OnlyChanges.step ?_ (State.bootStart_changes _ _ _) (by decide)
      · exact OnlyChanges.refl _ _
  · refine OnlyChanges.ite ?_ ?_
    · refine OnlyChanges.step ?_ (State.verbDone_changes _ _ _ _ _) (by decide)
      · exact h6
    · refine OnlyChanges.step ?_ (State.bootFailed_changes _) (by decide)
      · refine OnlyChanges.step ?_ (State.modKeeper_changes _ _) (by decide)
        · exact OnlyChanges.refl _ _

theorem State.takeCredit_changes (s : State) (m : Msg) : OnlyChanges [.fabric] s (State.takeCredit s m) := by
  unfold State.takeCredit
  refine OnlyChanges.step ?_ (State.pump_changes _ _) (by decide)
  · refine OnlyChanges.step ?_ (State.modPartner_changes _ _ _) (by decide)
    · exact OnlyChanges.refl _ _

theorem execTallyRead_changes (o : Origin) (s : State) : ∃ t, (execTallyRead o s) = .next t ∧ OnlyChanges [.mboxes, .keeper, .fabric, .recd] s t := by
  refine ⟨_, rfl, ?_⟩
  apply State.runVerb_ho
  · decide
  · exact OnlyChanges.refl _ _
  · intro a2
    refine OnlyChanges.step ?_ (State.verbDone_changes _ _ _ _ _) (by decide)
    · exact OnlyChanges.refl _ _

theorem State.remoteRead_changes (s : State) (c : CtxNo) (id : ℕ) (f : ℕ) (slot : ℕ) (t : ℕ) (m : Msg) : OnlyChanges [.fabric] s (State.remoteRead s c id f slot t m) := by
  unfold State.remoteRead
  extract_lets x7_0
  refine OnlyChanges.step ?_ (State.request_changes _ _) (by decide)
  · refine OnlyChanges.step ?_ (State.setTxRead_changes _ _ _ _) (by decide)
    · exact OnlyChanges.refl _ _

theorem State.readRemote_changes (s : State) (c : CtxNo) (w : Work) (r : ReadReq) (m : Msg) : MayChange [.fabric, .ctxs, .frames, .tally] s (State.readRemote s c w r m) := by
  unfold State.readRemote
  extract_lets x5_0 x5_1 x5_2 x5_3 x5_4 x5_5
  refine MayChange.ite ?_ ?_
  · refine MayChange.some ?_
    refine OnlyChanges.step ?_ (State.endWork_changes _ _ _ _ _) (by decide)
    · exact OnlyChanges.refl _ _
  · split
    · extract_lets x22_0
      refine MayChange.some ?_
      refine OnlyChanges.step ?_ (State.moved_changes _) (by decide)
      · refine OnlyChanges.step ?_ (State.remoteRead_changes _ _ _ _ _ _ _) (by decide)
        · refine OnlyChanges.step ?_ (State.readIssued_changes _ _ _ _ _) (by decide)
          · exact OnlyChanges.refl _ _
    · exact MayChange.none _ _

theorem execFlashReadDone_changes (data : Bytes) (s : State) : ∃ t, (execFlashReadDone data s) = .next t ∧ OnlyChanges [.recd] s t := by
  refine ⟨_, rfl, ?_⟩
  refine OnlyChanges.ite ?_ ?_
  · refine OnlyChanges.step ?_ (State.modRecd_changes _ _) (by decide)
    · exact OnlyChanges.refl _ _
  · exact OnlyChanges.refl _ _

theorem State.headRead_changes (s : State) (c : CtxNo) (w : Work) : MayChange [.faults, .frames, .snap, .recd, .fabric, .ctxs, .nextId, .xlate, .tally] s (State.headRead s c w) := by
  unfold State.headRead
  split
  · exact MayChange.none _ _
  · refine MayChange.ite ?_ ?_
    · exact MayChange.none _ _
    · split
      · refine MayChange.step ?_ (State.demandWalk_changes _ _ _ _ _ _ _) (by decide)
        · exact OnlyChanges.refl _ _
      · refine MayChange.some ?_
        refine OnlyChanges.step ?_ (State.failAccess_changes _ _ _ _ _ _ _ _ _) (by decide)
        · exact OnlyChanges.refl _ _
      · refine MayChange.some ?_
        refine OnlyChanges.step ?_ (State.endWork_changes _ _ _ _ _) (by decide)
        · exact OnlyChanges.refl _ _
      · refine MayChange.step ?_ (State.readRemote_changes _ _ _ _ _) (by decide)
        · refine OnlyChanges.step ?_ (State.used_changes _ _ _) (by decide)
          · exact OnlyChanges.refl _ _
      · exact MayChange.none _ _

theorem State.chanDemand_changes (s : State) (f : ℕ) : MayChange [.spine, .ports, .ctxs, .faults, .frames, .snap, .recd, .fabric, .nextId, .xlate, .tally] s (State.chanDemand s f) := by
  unfold State.chanDemand
  refine MayChange.ite ?_ ?_
  · exact MayChange.none _ _
  · refine MayChange.findSome (fun _ => ?_)
    · refine MayChange.ite ?_ ?_
      · exact MayChange.none _ _
      · refine MayChange.findSome (fun _ => ?_)
        · refine MayChange.ite ?_ ?_
          · exact MayChange.none _ _
          · refine MayChange.orElse ?_ ?_
            · split
              · refine MayChange.ite ?_ ?_
                · exact MayChange.none _ _
                · refine MayChange.step ?_ (State.handOut_changes _ _ _) (by decide)
                  · exact OnlyChanges.refl _ _
              · exact MayChange.none _ _
            · refine MayChange.step ?_ (State.headRead_changes _ _ _) (by decide)
              · exact OnlyChanges.refl _ _

theorem State.holdFrame_changes (s : State) (f : ℕ) : OnlyChanges [.frames, .chans, .tally, .ctxs, .readyQ, .fabric] s (State.holdFrame s f) := by
  unfold State.holdFrame
  refine OnlyChanges.step ?_ (State.driveFrame_changes _ _) (by decide)
  · refine OnlyChanges.step ?_ (State.modFrame_changes _ _ _) (by decide)
    · exact OnlyChanges.refl _ _

theorem State.endFrameTest_changes (s : State) (t : FrameTest) : OnlyChanges [.ftest, .mboxes, .keeper, .fabric, .recd] s (State.endFrameTest s t) := by
  unfold State.endFrameTest
  extract_lets x2_0 x2_1 x2_2
  have h5 : OnlyChanges [Part.ftest, Part.mboxes, Part.keeper, Part.fabric, Part.recd] s x2_0 := by
    unfold x2_0
    refine OnlyChanges.put_ftest _ ?_ (by decide)
    exact OnlyChanges.refl _ _
  have h6 : OnlyChanges [Part.ftest, Part.mboxes, Part.keeper, Part.fabric, Part.recd] s x2_1 := by
    unfold x2_1
    refine OnlyChanges.step ?_ (State.event_changes _ _) (by decide)
    · exact h5
  refine OnlyChanges.ite ?_ ?_
  · refine OnlyChanges.step ?_ (State.verbDone_changes _ _ _ _ _) (by decide)
    · exact h6
  · split
    · refine OnlyChanges.step ?_ (State.verbDone_changes _ _ _ _ _) (by decide)
      · exact h6
    · refine OnlyChanges.step ?_ (State.verbDone_changes _ _ _ _ _) (by decide)
      · exact h6

theorem State.nextFrameTest_changes (s : State) (t : FrameTest) : OnlyChanges [.ftest, .frames, .chans, .tally, .ctxs, .readyQ, .fabric, .mboxes, .keeper, .recd] s (State.nextFrameTest s t) := by
  unfold State.nextFrameTest
  split
  · refine OnlyChanges.step ?_ (State.endFrameTest_changes _ _) (by decide)
    · exact OnlyChanges.refl _ _
  · refine OnlyChanges.ite ?_ ?_
    · refine OnlyChanges.step ?_ (State.endFrameTest_changes _ _) (by decide)
      · exact OnlyChanges.refl _ _
    · refine OnlyChanges.step ?_ (State.holdFrame_changes _ _) (by decide)
      · refine OnlyChanges.put_ftest _ ?_ (by decide)
        exact OnlyChanges.refl _ _

theorem execFrameTestDrainTimeout_changes (s : State) : ∃ t, (execFrameTestDrainTimeout s) = .next t ∧ OnlyChanges [.ftest, .frames, .ctxs, .chans, .tally, .readyQ, .fabric, .mboxes, .keeper, .recd, .power] s t := by
  refine ⟨_, rfl, ?_⟩
  split
  · split
    · extract_lets x11_0
      have h12 : OnlyChanges [Part.ftest, Part.frames, Part.ctxs, Part.chans, Part.tally, Part.readyQ, Part.fabric, Part.mboxes, Part.keeper, Part.recd, Part.power] s x11_0 := by
        unfold x11_0
        refine OnlyChanges.step ?_ (State.releaseFrame_changes _ _) (by decide)
        · exact OnlyChanges.refl _ _
      refine OnlyChanges.ite ?_ ?_
      · exact OnlyChanges.refl _ _
      · refine OnlyChanges.ite ?_ ?_
        · refine OnlyChanges.step ?_ (State.nextFrameTest_changes _ _) (by decide)
          · refine OnlyChanges.step ?_ (State.endHeld_changes _ _ _) (by decide)
            · exact h12
        · refine OnlyChanges.put_ftest _ ?_ (by decide)
          exact h12
    · exact OnlyChanges.refl _ _
  · exact OnlyChanges.refl _ _

theorem State.barrierFault_changes (s : State) (m : Msg) (b : ℕ) (kind : ℕ) (episode : ℕ) : OnlyChanges [.faults, .frames, .snap, .recd] s (State.barrierFault s m b kind episode) := by
  unfold State.barrierFault
  refine OnlyChanges.step ?_ (State.raiseWith_changes _ _ _ _) (by decide)
  · exact OnlyChanges.refl _ _

theorem State.refuseFrame_changes (s : State) (f : ℕ) : OnlyChanges [.fabric, .frames, .faults, .snap, .recd] s (State.refuseFrame s f) := by
  unfold State.refuseFrame
  extract_lets x2_0 x2_1 x2_2 x2_3 x2_4 x2_5
  have h8 : OnlyChanges [Part.fabric, Part.frames, Part.faults, Part.snap, Part.recd] s x2_3 := by
    unfold x2_3
    refine OnlyChanges.step ?_ (State.modFrame_changes _ _ _) (by decide)
    · exact OnlyChanges.refl _ _
  have h9 : OnlyChanges [Part.fabric, Part.frames, Part.faults, Part.snap, Part.recd] s x2_4 := by
    unfold x2_4
    refine OnlyChanges.foldl _ (fun t9 _ => ?_) _ _ ?_
    · refine OnlyChanges.step ?_ (State.refuseReq_changes _ _ _ _) (by decide)
      · exact OnlyChanges.refl _ _
    · exact h8
  have h10 : OnlyChanges [Part.fabric, Part.frames, Part.faults, Part.snap, Part.recd] s x2_5 := by
    unfold x2_5
    refine OnlyChanges.foldl _ (fun t10 _ => ?_) _ _ ?_
    · refine OnlyChanges.step ?_ (State.refuseReq_changes _ _ _ _) (by decide)
      · exact OnlyChanges.refl _ _
    · exact h9
  refine OnlyChanges.foldl _ (fun t11 _ => ?_) _ _ ?_
  · refine OnlyChanges.step ?_ (State.refuseReq_changes _ _ _ _) (by decide)
    · exact OnlyChanges.refl _ _
  · exact h10

theorem execSwarmBeatIssue_changes (sw : Fin 4) (s : State) : ∃ t, (execSwarmBeatIssue sw s) = .next t ∧ OnlyChanges [.ctxs, .tally, .swarms] s t := by
  refine ⟨_, rfl, ?_⟩
  extract_lets x2_0 x2_1 x2_2
  split
  · exact OnlyChanges.refl _ _
  · extract_lets x10_0
    refine OnlyChanges.ite ?_ ?_
    · exact OnlyChanges.refl _ _
    · split
      · exact OnlyChanges.refl _ _
      · extract_lets x16_0 x16_1 x16_2 x16_3
        have h20 : OnlyChanges [Part.ctxs, Part.tally, Part.swarms] s x16_3 := by
          unfold x16_3
          refine OnlyChanges.step ?_ (State.setSwarm_changes _ _ _) (by decide)
          · exact OnlyChanges.refl _ _
        refine OnlyChanges.ite ?_ ?_
        · refine OnlyChanges.step ?_ (State.setSwarm_changes _ _ _) (by decide)
          · exact OnlyChanges.refl _ _
        · refine OnlyChanges.step ?_ (State.moved_changes _) (by decide)
          · refine OnlyChanges.step ?_ (State.modWork_changes _ _ _ _) (by decide)
            · exact h20

theorem execWaitEntryFreed_changes (c : CtxNo) (s : State) : ∃ t, (execWaitEntryFreed c s) = .next t ∧ OnlyChanges [.chans, .tally, .ctxs] s t := by
  refine ⟨_, rfl, ?_⟩
  extract_lets x2_0
  refine OnlyChanges.ite ?_ ?_
  · exact OnlyChanges.refl _ _
  · refine OnlyChanges.step ?_ (State.modCtx_changes _ _ _) (by decide)
    · refine OnlyChanges.step ?_ (State.unbind_changes _ _) (by decide)
      · exact OnlyChanges.refl _ _

theorem State.closePartial_changes (s : State) (n : ℕ) (c : CtxNo) : OnlyChanges [.ctxs, .frames, .fabric, .nextId] s (State.closePartial s n c) := by
  unfold State.closePartial
  extract_lets x3_0
  refine OnlyChanges.ite ?_ ?_
  · exact OnlyChanges.refl _ _
  · split
    · extract_lets x10_0 x10_1
      refine OnlyChanges.step ?_ (State.endWork_changes _ _ _ _ _) (by decide)
      · refine OnlyChanges.step ?_ (State.modCtx_changes _ _ _) (by decide)
        · refine OnlyChanges.step ?_ (Eq.mp (congrArg (OnlyChanges _ _) (congrArg Prod.snd (by assumption : _ = (_, _)))) (State.fresh_changes _)) (by decide)
          exact OnlyChanges.refl _ _

theorem execSwarmClose_changes (o : Origin) (s : State) : ∃ t, (execSwarmClose o s) = .next t ∧ OnlyChanges [.keeper, .mboxes, .fabric, .recd, .chans, .tally, .ctxs, .readyQ, .swarms, .faults, .frames, .snap, .nextId] s t := by
  refine ⟨_, rfl, ?_⟩
  apply State.runVerb_ho
  · decide
  · exact OnlyChanges.refl _ _
  · intro a2
    extract_lets x3_0 x3_1 x3_2 x3_3
    have h7 : OnlyChanges [Part.keeper, Part.mboxes, Part.fabric, Part.recd, Part.chans, Part.tally, Part.ctxs, Part.readyQ, Part.swarms, Part.faults, Part.frames, Part.snap, Part.nextId] s x3_2 := by
      unfold x3_2
      refine OnlyChanges.step ?_ (State.verbDrains_changes _ _) (by decide)
      · refine OnlyChanges.step ?_ (State.setSwarm_changes _ _ _) (by decide)
        · exact OnlyChanges.refl _ _
    have h8 : OnlyChanges [Part.keeper, Part.mboxes, Part.fabric, Part.recd, Part.chans, Part.tally, Part.ctxs, Part.readyQ, Part.swarms, Part.faults, Part.frames, Part.snap, Part.nextId] s x3_3 := by
      unfold x3_3
      refine OnlyChanges.step ?_ (State.modCtx_changes _ _ _) (by decide)
      · exact h7
    refine OnlyChanges.ite ?_ ?_
    · refine OnlyChanges.step ?_ (State.verbDone_changes _ _ _ _ _) (by decide)
      · exact OnlyChanges.refl _ _
    · refine OnlyChanges.ite ?_ ?_
      · refine OnlyChanges.step ?_ (State.refuseTenant_changes _ _) (by decide)
        · exact OnlyChanges.refl _ _
      · refine OnlyChanges.step ?_ (State.stopIfDone_changes _ _) (by decide)
        · refine OnlyChanges.step ?_ (State.closePartial_changes _ _ _) (by decide)
          · exact h8

theorem execThrottleEscalate_changes (r : Fin 8) (s : State) : ∃ t, (execThrottleEscalate r s) = .next t ∧ OnlyChanges [.telem, .power] s t := by
  refine ⟨_, rfl, ?_⟩
  extract_lets x2_0
  refine OnlyChanges.ite ?_ ?_
  · refine OnlyChanges.step ?_ (State.setLevel_changes _ _ _) (by decide)
    · exact OnlyChanges.refl _ _
  · exact OnlyChanges.refl _ _

theorem execKeeperPing_changes (o : Origin) (s : State) : ∃ t, (execKeeperPing o s) = .next t ∧ OnlyChanges [.mboxes, .keeper, .fabric, .recd] s t := by
  refine ⟨_, rfl, ?_⟩
  apply State.runVerb_ho
  · decide
  · exact OnlyChanges.refl _ _
  · intro a2
    refine OnlyChanges.step ?_ (State.verbDone_changes _ _ _ _ _) (by decide)
    · exact OnlyChanges.refl _ _

theorem execTestKat_changes (o : Origin) (pass : BitVec 8) (s : State) : ∃ t, (execTestKat o pass s) = .next t ∧ OnlyChanges [.sec, .fabric, .free, .mboxes, .keeper, .recd, .frames, .ctxs, .faults, .snap, .tally, .power, .swarms] s t := by
  refine ⟨_, rfl, ?_⟩
  apply State.runVerb_ho
  · decide
  · exact OnlyChanges.refl _ _
  · intro a3
    extract_lets x4_0 x4_1 x4_2 x4_3
    have h8 : OnlyChanges [Part.sec, Part.fabric, Part.free, Part.mboxes, Part.keeper, Part.recd, Part.frames, Part.ctxs, Part.faults, Part.snap, Part.tally, Part.power, Part.swarms] s x4_2 := by
      unfold x4_2
      refine OnlyChanges.step ?_ (State.testUnits_changes _ _ _ _) (by decide)
      · exact OnlyChanges.refl _ _
    refine OnlyChanges.ite ?_ ?_
    · refine OnlyChanges.foldl _ (fun t9 _ => ?_) _ _ ?_
      · refine OnlyChanges.ite ?_ ?_
        · refine OnlyChanges.step ?_ (State.powerUp_changes _ _) (by decide)
          · exact OnlyChanges.refl _ _
        · refine OnlyChanges.ite ?_ ?_
          · refine OnlyChanges.step ?_ (State.powerUp_changes _ _) (by decide)
            · exact OnlyChanges.refl _ _
          · exact OnlyChanges.refl _ _
      · exact OnlyChanges.refl _ _
    · split
      · refine OnlyChanges.step ?_ (State.verbDone_changes _ _ _ _ _) (by decide)
        · exact h8
      · refine OnlyChanges.step ?_ (State.verbDone_changes _ _ _ _ _) (by decide)
        · exact h8

theorem execTallyOwnWrite_changes (g : Fin 1024) (w : BitVec 32) (s : State) : ∃ t, (execTallyOwnWrite g w s) = .next t ∧ OnlyChanges [.tally] s t := by
  refine ⟨_, rfl, ?_⟩
  refine OnlyChanges.ite ?_ ?_
  · refine OnlyChanges.step ?_ (State.ownWrite_changes _ _ _) (by decide)
    · exact OnlyChanges.refl _ _
  · exact OnlyChanges.refl _ _

theorem State.tapCredits_changes (s : State) : OnlyChanges [.taps] s (State.tapCredits s) := by
  unfold State.tapCredits
  refine OnlyChanges.foldl _ (fun t1 _ => ?_) _ _ ?_
  · extract_lets x3_0
    refine OnlyChanges.step ?_ (State.setTap_changes _ _ _) (by decide)
    · exact OnlyChanges.refl _ _
  · exact OnlyChanges.refl _ _

theorem State.portCredits_changes (s : State) : OnlyChanges [.ports] s (State.portCredits s) := by
  unfold State.portCredits
  refine OnlyChanges.foldl _ (fun t1 _ => ?_) _ _ ?_
  · extract_lets x3_0
    refine OnlyChanges.ite ?_ ?_
    · refine OnlyChanges.step ?_ (State.setPort_changes _ _ _) (by decide)
      · exact OnlyChanges.refl _ _
    · exact OnlyChanges.refl _ _
  · exact OnlyChanges.refl _ _

theorem State.loseBlock_changes (s : State) (inp : StaticIn) (cause : Byte) : OnlyChanges [.inp, .keeper, .mboxes, .ctxs, .readyQ, .chans, .frames, .taps, .ports, .spine, .swarms, .expand, .expandAt, .ksets, .mods, .xlate, .tally, .fabric, .faults, .sec, .power, .ftest, .snap, .recd, .telem, .regs] s (s.loseBlock inp cause) := by
  unfold State.loseBlock
  extract_lets p src k sn pw t
  have h : OnlyChanges [.inp, .keeper, .mboxes, .ctxs, .readyQ, .chans, .frames, .taps, .ports, .spine, .swarms, .expand, .expandAt, .ksets, .mods, .xlate, .tally, .fabric, .faults, .sec, .power, .ftest, .snap, .recd, .telem, .regs] s t := fun q hq => by cases q <;> first | rfl | exact absurd (by decide) hq
  exact ((h.step (State.portCredits_changes _) (by decide)).step (State.tapCredits_changes _) (by decide)).step
    (State.askFlush_changes _) (by decide)

theorem execQuiesceSleepHoldEnd_changes (s : State) : ∃ t, (execQuiesceSleepHoldEnd s) = .next t ∧ OnlyChanges [.inp, .keeper, .mboxes, .ctxs, .readyQ, .chans, .frames, .taps, .ports, .spine, .swarms, .expand, .expandAt, .ksets, .mods, .xlate, .tally, .fabric, .faults, .sec, .power, .ftest, .snap, .recd, .telem, .regs] s t := by
  refine ⟨_, rfl, ?_⟩
  extract_lets u pw t
  refine OnlyChanges.ite (OnlyChanges.refl _ _) ?_
  have h : OnlyChanges [.inp, .keeper, .mboxes, .ctxs, .readyQ, .chans, .frames, .taps, .ports, .spine, .swarms, .expand, .expandAt, .ksets, .mods, .xlate, .tally, .fabric, .faults, .sec, .power, .ftest, .snap, .recd, .telem, .regs] s u := (OnlyChanges.refl _ _).step (State.loseBlock_changes _ _ _) (by decide)
  clear_value u
  have ht : OnlyChanges [.inp, .keeper, .mboxes, .ctxs, .readyQ, .chans, .frames, .taps, .ports, .spine, .swarms, .expand, .expandAt, .ksets, .mods, .xlate, .tally, .fabric, .faults, .sec, .power, .ftest, .snap, .recd, .telem, .regs] s t := h.trans fun q hq => by cases q <;> first | rfl | exact absurd (by decide) hq
  exact ((ht.step (State.powerDown_changes _ _) (by decide)).step (State.clockDown_changes _ _) (by decide)).step
    (State.noteMode_changes _) (by decide)

theorem State.startPoly_changes (s : State) (core : ℕ) (n : ℕ) (index : ℕ) (seed : Bytes) : OnlyChanges [.expandAt, .expand] s (State.startPoly s core n index seed) := by
  unfold State.startPoly
  extract_lets x5_0 x5_1 x5_2 x5_3
  refine OnlyChanges.upd (s) ?_ (fun p hp => by cases p <;> first | rfl | exact absurd (by decide) hp)
  exact OnlyChanges.refl _ _

theorem execSeedExpand_changes (core : Fin 48) (s : State) : ∃ t, (execSeedExpand core s) = .next t ∧ OnlyChanges [.expand, .expandAt, .free, .swarms, .power] s t := by
  refine ⟨_, rfl, ?_⟩
  extract_lets x2_0 x2_1
  refine OnlyChanges.ite ?_ ?_
  · exact OnlyChanges.refl _ _
  · refine OnlyChanges.ite ?_ ?_
    · refine OnlyChanges.ite ?_ ?_
      · refine OnlyChanges.step ?_ (State.powerUp_changes _ _) (by decide)
        · exact OnlyChanges.refl _ _
      · exact OnlyChanges.refl _ _
    · split
      · refine OnlyChanges.ite ?_ ?_
        · exact OnlyChanges.refl _ _
        · split
          · extract_lets x17_0 x17_1
            have h19 : OnlyChanges [Part.expand, Part.expandAt, Part.free, Part.swarms, Part.power] s x17_1 := by
              unfold x17_1
              refine OnlyChanges.step ?_ (State.setSwarm_changes _ _ _) (by decide)
              · refine OnlyChanges.put_expand _ ?_ (by decide)
                refine OnlyChanges.step ?_ (Eq.mp (congrArg (OnlyChanges _ _) (congrArg Prod.snd (by assumption : _ = (_, _)))) (State.squeeze_changes _ _)) (by decide)
                exact OnlyChanges.refl _ _
            refine OnlyChanges.ite ?_ ?_
            · exact h19
            · refine OnlyChanges.step ?_ (State.endPoly_changes _ _ _) (by decide)
              · exact h19
      · refine OnlyChanges.ite ?_ ?_
        · exact OnlyChanges.refl _ _
        · split
          · refine OnlyChanges.step ?_ (State.startPoly_changes _ _ _ _ _) (by decide)
            · exact OnlyChanges.refl _ _
          · exact OnlyChanges.refl _ _

theorem State.inputFaults_changes (s : State) (i : StaticIn) : OnlyChanges [.faults, .frames, .snap, .recd] s (State.inputFaults s i) := by
  unfold State.inputFaults
  extract_lets x2_0 x2_1
  have h4 : OnlyChanges [Part.faults, Part.frames, Part.snap, Part.recd] s x2_1 := by
    unfold x2_1
    refine OnlyChanges.foldl _ (fun t4 _ => ?_) _ _ ?_
    · refine OnlyChanges.ite ?_ ?_
      · refine OnlyChanges.step ?_ (State.raise_changes _ _) (by decide)
        · exact OnlyChanges.refl _ _
      · exact OnlyChanges.refl _ _
    · exact OnlyChanges.refl _ _
  refine OnlyChanges.ite ?_ ?_
  · refine OnlyChanges.step ?_ (State.raise_changes _ _) (by decide)
    · exact h4
  · exact h4

theorem State.blockReset_changes (s : State) (inp : StaticIn) : OnlyChanges [.inp, .keeper, .mboxes, .ctxs, .readyQ, .chans, .frames, .taps, .ports, .spine, .swarms, .expand, .expandAt, .ksets, .mods, .xlate, .tally, .fabric, .faults, .sec, .power, .ftest, .snap, .recd, .telem, .regs, .free] s (State.blockReset s inp) := by
  unfold State.blockReset
  extract_lets x2_0 x2_1 x2_2
  have h5 : OnlyChanges [Part.inp, Part.keeper, Part.mboxes, Part.ctxs, Part.readyQ, Part.chans, Part.frames, Part.taps, Part.ports, Part.spine, Part.swarms, Part.expand, Part.expandAt, Part.ksets, Part.mods, Part.xlate, Part.tally, Part.fabric, Part.faults, Part.sec, Part.power, Part.ftest, Part.snap, Part.recd, Part.telem, Part.regs, Part.free] s x2_1 := by
    unfold x2_1
    refine OnlyChanges.step ?_ (State.loseBlock_changes _ _ _) (by decide)
    · exact OnlyChanges.refl _ _
  have h6 : OnlyChanges [Part.inp, Part.keeper, Part.mboxes, Part.ctxs, Part.readyQ, Part.chans, Part.frames, Part.taps, Part.ports, Part.spine, Part.swarms, Part.expand, Part.expandAt, Part.ksets, Part.mods, Part.xlate, Part.tally, Part.fabric, Part.faults, Part.sec, Part.power, Part.ftest, Part.snap, Part.recd, Part.telem, Part.regs, Part.free] s x2_2 := by
    unfold x2_2
    refine OnlyChanges.put_faults _ ?_ (by decide)
    exact h5
  refine OnlyChanges.step ?_ (State.bootIfPowered_changes _) (by decide)
  · refine OnlyChanges.step ?_ (State.inputFaults_changes _ _) (by decide)
    · refine OnlyChanges.step ?_ (State.clockUp_changes _ _) (by decide)
      · refine OnlyChanges.step ?_ (State.powerUp_changes _ _) (by decide)
        · exact h6

theorem execBlkRstN_changes (inp : StaticIn) (s : State) : ∃ t, (execBlkRstN inp s) = .next t ∧ OnlyChanges [.inp, .keeper, .mboxes, .ctxs, .readyQ, .chans, .frames, .taps, .ports, .spine, .swarms, .expand, .expandAt, .ksets, .mods, .xlate, .tally, .fabric, .faults, .sec, .power, .ftest, .snap, .recd, .telem, .regs, .free] s t := by
  refine ⟨_, rfl, ?_⟩
  extract_lets x2_0 x2_1
  have h4 : OnlyChanges [Part.inp, Part.keeper, Part.mboxes, Part.ctxs, Part.readyQ, Part.chans, Part.frames, Part.taps, Part.ports, Part.spine, Part.swarms, Part.expand, Part.expandAt, Part.ksets, Part.mods, Part.xlate, Part.tally, Part.fabric, Part.faults, Part.sec, Part.power, Part.ftest, Part.snap, Part.recd, Part.telem, Part.regs, Part.free] s x2_1 := by
    unfold x2_1
    refine OnlyChanges.put_faults _ ?_ (by decide)
    exact OnlyChanges.refl _ _
  refine OnlyChanges.ite ?_ ?_
  · exact OnlyChanges.refl _ _
  · refine OnlyChanges.step ?_ (State.blockReset_changes _ _) (by decide)
    · exact h4

theorem State.kmWritten_changes (s : State) (r : KmReq) (fail : Bool) : OnlyChanges [.telem, .snap, .keeper] s (State.kmWritten s r fail) := by
  unfold State.kmWritten
  extract_lets x3_0 x3_1 x3_2
  have h6 : OnlyChanges [Part.telem, Part.snap, Part.keeper] s x3_2 := by
    unfold x3_2
    refine OnlyChanges.put_snap _ ?_ (by decide)
    exact OnlyChanges.refl _ _
  split
  · refine OnlyChanges.put_telem _ ?_ (by decide)
    exact OnlyChanges.refl _ _
  · refine OnlyChanges.ite ?_ ?_
    · exact OnlyChanges.refl _ _
    · refine OnlyChanges.step ?_ (State.modKeeper_changes _ _) (by decide)
      · exact h6
  · exact OnlyChanges.refl _ _

theorem State.kmRead_changes (s : State) (r : KmReq) (b : Bytes) (fail : Bool) : OnlyChanges [.keeper] s (State.kmRead s r b fail) := by
  unfold State.kmRead
  extract_lets x4_0 x4_1 x4_2 x4_3
  have h8 : OnlyChanges [Part.keeper] s x4_3 := by
    unfold x4_3
    refine OnlyChanges.step ?_ (State.modKeeper_changes _ _) (by decide)
    · exact OnlyChanges.refl _ _
  split
  · refine OnlyChanges.step ?_ (State.modVerb_changes _ _ _) (by decide)
    · exact OnlyChanges.refl _ _
  · refine OnlyChanges.ite ?_ ?_
    · exact h8
    · refine OnlyChanges.foldl _ (fun t13 _ => ?_) _ _ ?_
      · refine OnlyChanges.step ?_ (State.kmPush_changes _ _) (by decide)
        · exact OnlyChanges.refl _ _
      · exact h8
  · exact OnlyChanges.refl _ _

theorem execKeeperMemoryResponse_changes (data : Bytes) (last : Bool) (fail : Bool) (s : State) : ∃ t, (execKeeperMemoryResponse data last fail s) = .next t ∧ OnlyChanges [.telem, .snap, .keeper] s t := by
  refine ⟨_, rfl, ?_⟩
  extract_lets x4_0
  split
  · exact OnlyChanges.refl _ _
  · extract_lets x11_0
    have h12 : OnlyChanges [Part.telem, Part.snap, Part.keeper] s x11_0 := by
      unfold x11_0
      refine OnlyChanges.step ?_ (State.modKeeper_changes _ _) (by decide)
      · exact OnlyChanges.refl _ _
    refine OnlyChanges.ite ?_ ?_
    · refine OnlyChanges.step ?_ (State.modKeeper_changes _ _) (by decide)
      · exact OnlyChanges.refl _ _
    · refine OnlyChanges.ite ?_ ?_
      · refine OnlyChanges.step ?_ (State.kmWritten_changes _ _ _) (by decide)
        · exact h12
      · refine OnlyChanges.step ?_ (State.kmRead_changes _ _ _ _) (by decide)
        · exact h12

theorem execFrameRestart_changes (w : BitVec 32) (s : State) : ∃ t, (execFrameRestart w s) = .next t ∧ OnlyChanges [.power, .frames, .faults, .snap, .recd] s t := by
  refine ⟨_, rfl, ?_⟩
  refine OnlyChanges.ite ?_ ?_
  · refine OnlyChanges.step ?_ (State.restartWrite_changes _ _) (by decide)
    · exact OnlyChanges.refl _ _
  · exact OnlyChanges.refl _ _

theorem execContextBind_changes (ch : Fin 1024) (s : State) : ∃ t, (execContextBind ch s) = .next t ∧ OnlyChanges [.readyQ, .ctxs, .chans, .swarms] s t := by
  refine ⟨_, rfl, ?_⟩
  refine OnlyChanges.ite ?_ ?_
  · exact OnlyChanges.refl _ _
  · split
    · exact OnlyChanges.refl _ _
    · split
      · exact OnlyChanges.refl _ _
      · refine OnlyChanges.ite ?_ ?_
        · refine OnlyChanges.step ?_ (State.bind_changes _ _ _) (by decide)
          · exact OnlyChanges.refl _ _
        · exact OnlyChanges.refl _ _

theorem execTallyVirt_changes (o : Origin) (s : State) : ∃ t, (execTallyVirt o s) = .next t ∧ OnlyChanges [.mboxes, .keeper, .fabric, .recd, .faults, .frames, .snap, .ctxs] s t := by
  refine ⟨_, rfl, ?_⟩
  apply State.runVerb_ho
  · decide
  · exact OnlyChanges.refl _ _
  · intro a2
    extract_lets x3_0
    apply State.onCtx_ho
    · decide
    · exact OnlyChanges.refl _ _
    · intro a4
      refine OnlyChanges.ite ?_ ?_
      · refine OnlyChanges.step ?_ (State.verbDone_changes _ _ _ _ _) (by decide)
        · exact OnlyChanges.refl _ _
      · apply State.withStruct_ho
        · decide
        · exact OnlyChanges.refl _ _
        · intro a5
          extract_lets x6_0
          split
          · refine OnlyChanges.step ?_ (State.verbDone_changes _ _ _ _ _) (by decide)
            · exact OnlyChanges.refl _ _
          · refine OnlyChanges.ite ?_ ?_
            · refine OnlyChanges.step ?_ (State.verbDone_changes _ _ _ _ _) (by decide)
              · exact OnlyChanges.refl _ _
            · refine OnlyChanges.step ?_ (State.verbDone_changes _ _ _ _ _) (by decide)
              · refine OnlyChanges.step ?_ (State.modCtx_changes _ _ _) (by decide)
                · exact OnlyChanges.refl _ _

theorem execDroopHeldTimeout_changes (r : Fin 8) (s : State) : ∃ t, (execDroopHeldTimeout r s) = .next t ∧ OnlyChanges [.faults, .frames, .snap, .recd] s t := by
  refine ⟨_, rfl, ?_⟩
  extract_lets x2_0
  refine OnlyChanges.ite ?_ ?_
  · refine OnlyChanges.step ?_ (State.raiseWith_changes _ _ _ _) (by decide)
    · exact OnlyChanges.refl _ _
  · exact OnlyChanges.refl _ _

theorem execInvalDrainEnd_changes (s : State) : ∃ t, (execInvalDrainEnd s) = .next t ∧ OnlyChanges [.frames, .xlate, .mboxes, .keeper, .fabric, .recd] s t := by
  refine ⟨_, rfl, ?_⟩
  extract_lets x1_0 x1_1
  have h3 : OnlyChanges [Part.frames, Part.xlate, Part.mboxes, Part.keeper, Part.fabric, Part.recd] s x1_0 := by
    unfold x1_0
    refine OnlyChanges.foldl _ (fun t3 _ => ?_) _ _ ?_
    · refine OnlyChanges.step ?_ (State.invalDone_changes _ _) (by decide)
      · exact OnlyChanges.refl _ _
    · exact OnlyChanges.refl _ _
  refine OnlyChanges.ite ?_ ?_
  · exact OnlyChanges.refl _ _
  · refine OnlyChanges.ite ?_ ?_
    · refine OnlyChanges.step ?_ (State.modXlate_changes _ _) (by decide)
      · exact h3
    · refine OnlyChanges.step ?_ (State.startBatch_changes _ _) (by decide)
      · exact h3

theorem State.feedRowEnd_changes (s : State) (n : ℕ) (w : Work) : MayChange [.ctxs, .swarms, .frames, .fabric] s (State.feedRowEnd s n w) := by
  unfold State.feedRowEnd
  extract_lets x3_0 x3_1 x3_2 x3_3 x3_4 x3_5
  have h9 : OnlyChanges [Part.ctxs, Part.swarms, Part.frames, Part.fabric] s x3_3 := by
    unfold x3_3
    refine OnlyChanges.step ?_ (State.freeSlotsOf_changes _ _ _ _ _) (by decide)
    · exact OnlyChanges.refl _ _
  have h10 : OnlyChanges [Part.ctxs, Part.swarms, Part.frames, Part.fabric] s x3_4 := by
    unfold x3_4
    refine OnlyChanges.step ?_ (State.setSwarm_changes _ _ _) (by decide)
    · exact h9
  have h11 : OnlyChanges [Part.ctxs, Part.swarms, Part.frames, Part.fabric] s x3_5 := by
    unfold x3_5
    refine OnlyChanges.step ?_ (State.modWork_changes _ _ _ _) (by decide)
    · exact h10
  refine MayChange.ite ?_ ?_
  · exact MayChange.none _ _
  · refine MayChange.some ?_
    refine OnlyChanges.ite ?_ ?_
    · refine OnlyChanges.step ?_ (State.endWork_changes _ _ _ _ _) (by decide)
      · exact h11
    · exact h11

theorem State.takeSeed_changes (s : State) (n : ℕ) (w : Work) : MayChange [.swarms, .frames] s (State.takeSeed s n w) := by
  unfold State.takeSeed
  extract_lets x3_0 x3_1 x3_2
  refine MayChange.map (fun _ => ?_)
  · extract_lets x7_0 x7_1
    refine OnlyChanges.step ?_ (State.setSwarm_changes _ _ _) (by decide)
    · refine OnlyChanges.step ?_ (State.setSlotAt_changes _ _ _ _) (by decide)
      · exact OnlyChanges.refl _ _

theorem State.feedTrim_changes (s : State) (n : ℕ) (w : Work) : MayChange [.frames] s (State.feedTrim s n w) := by
  unfold State.feedTrim
  extract_lets x3_0 x3_1 x3_2 x3_3 x3_4
  have h8 : OnlyChanges [Part.frames] s x3_4 := by
    unfold x3_4
    refine OnlyChanges.step ?_ (State.freeSlotsOf_changes _ _ _ _ _) (by decide)
    · exact OnlyChanges.refl _ _
  refine MayChange.ite ?_ ?_
  · exact MayChange.none _ _
  · refine MayChange.some ?_
    exact h8

theorem State.askSeed_changes (s : State) (n : ℕ) (w : Work) : MayChange [.frames] s (State.askSeed s n w) := by
  unfold State.askSeed
  extract_lets x3_0 x3_1 x3_2 x3_3
  refine MayChange.ite ?_ ?_
  · exact MayChange.none _ _
  · refine MayChange.map (fun _ => ?_)
    · refine OnlyChanges.step ?_ (State.svcRead_changes _ _ _ _ _) (by decide)
      · exact OnlyChanges.refl _ _

theorem State.feedRowStart_changes (s : State) (n : ℕ) (w : Work) : MayChange [.ctxs] s (State.feedRowStart s n w) := by
  unfold State.feedRowStart
  extract_lets x3_0 x3_1 x3_2
  refine MayChange.ite ?_ ?_
  · exact MayChange.none _ _
  · refine MayChange.some ?_
    refine OnlyChanges.step ?_ (State.modWork_changes _ _ _ _) (by decide)
    · exact OnlyChanges.refl _ _

theorem State.feedTakes_changes (s : State) (n : ℕ) (w : Work) : MayChange [.expand, .swarms] s (State.feedTakes s n w) := by
  unfold State.feedTakes
  extract_lets x3_0 x3_1
  have h5 : OnlyChanges [Part.expand, Part.swarms] s x3_1 := by
    unfold x3_1
    refine OnlyChanges.step ?_ (State.setSwarm_changes _ _ _) (by decide)
    · exact OnlyChanges.refl _ _
  refine MayChange.ite ?_ ?_
  · exact MayChange.none _ _
  · refine MayChange.some ?_
    refine OnlyChanges.put_expand _ ?_ (by decide)
    exact h5

theorem State.feedStep_changes (s : State) (n : ℕ) (w : Work) : MayChange [.ctxs, .swarms, .frames, .fabric, .expand, .faults, .snap, .recd, .nextId, .xlate, .tally] s (State.feedStep s n w) := by
  unfold State.feedStep
  extract_lets x3_0
  refine MayChange.ite ?_ ?_
  · refine MayChange.some ?_
    refine OnlyChanges.step ?_ (State.endWork_changes _ _ _ _ _) (by decide)
    · exact OnlyChanges.refl _ _
  · refine MayChange.orElse ?_ ?_
    · refine MayChange.step ?_ (State.feedTakes_changes _ _ _) (by decide)
      · exact OnlyChanges.refl _ _
    · refine MayChange.orElse ?_ ?_
      · refine MayChange.step ?_ (State.headRead_changes _ _ _) (by decide)
        · exact OnlyChanges.refl _ _
      · refine MayChange.orElse ?_ ?_
        · refine MayChange.step ?_ (State.takeSeed_changes _ _ _) (by decide)
          · exact OnlyChanges.refl _ _
        · refine MayChange.orElse ?_ ?_
          · refine MayChange.step ?_ (State.feedTrim_changes _ _ _) (by decide)
            · exact OnlyChanges.refl _ _
          · refine MayChange.orElse ?_ ?_
            · refine MayChange.step ?_ (State.feedRowEnd_changes _ _ _) (by decide)
              · exact OnlyChanges.refl _ _
            · refine MayChange.orElse ?_ ?_
              · refine MayChange.step ?_ (State.feedRowStart_changes _ _ _) (by decide)
                · exact OnlyChanges.refl _ _
              · refine MayChange.step ?_ (State.askSeed_changes _ _ _) (by decide)
                · exact OnlyChanges.refl _ _

theorem execFeed_changes (ch : Fin 1024) (s : State) : ∃ t, (execFeed ch s) = .next t ∧ OnlyChanges [.ctxs, .swarms, .frames, .fabric, .expand, .faults, .snap, .recd, .nextId, .xlate, .tally] s t := by
  refine ⟨_, rfl, ?_⟩
  split
  · exact OnlyChanges.refl _ _
  · extract_lets x7_0
    refine OnlyChanges.ite ?_ ?_
    · exact OnlyChanges.refl _ _
    · split
      · refine MayChange.get ?_ (by assumption) (OnlyChanges.refl _ _) (fun _ h => h)
        refine MayChange.findSome (fun _ => ?_)
        · unfold x7_0
          refine MayChange.ite ?_ ?_
          · refine MayChange.bind (fun _ => ?_)
            · refine MayChange.step ?_ (State.feedStep_changes _ _ _) (by decide)
              · exact OnlyChanges.refl _ _
          · exact MayChange.none _ _
      · exact OnlyChanges.refl _ _

theorem execFwInfo_changes (o : Origin) (s : State) : ∃ t, (execFwInfo o s) = .next t ∧ OnlyChanges [.mboxes, .keeper, .fabric, .recd] s t := by
  refine ⟨_, rfl, ?_⟩
  apply State.runVerb_ho
  · decide
  · exact OnlyChanges.refl _ _
  · intro a2
    refine OnlyChanges.step ?_ (State.verbDone_changes _ _ _ _ _) (by decide)
    · exact OnlyChanges.refl _ _

theorem State.takeFabSlot_changes (s : State) (m : Msg) (r : Nat × State) (h : s.takeFabSlot m = some r) : OnlyChanges [.frames, .faults] s r.2 := by
  unfold State.takeFabSlot at h
  simp only [Option.map_eq_some_iff] at h
  obtain ⟨p, -, rfl⟩ := h
  have ht := State.takeFlips_changes s (servingFrame m.src)
  cases hx : s.takeFlips (servingFrame m.src) with
  | mk k t =>
    rw [hx] at ht
    exact ((OnlyChanges.refl _ _).step ht (by decide)).step (State.claimSlot_changes _ _ _ _ _) (by decide)

theorem State.acceptReq_changes (s : State) (m : Msg) (phys : Nat) (win : Option Nat) : MayChange [.frames, .fabric, .faults] s (s.acceptReq m phys win) := by
  unfold State.acceptReq
  extract_lets f
  refine MayChange.ite (MayChange.some ((OnlyChanges.refl _ _).step (State.modFrame_changes _ _ _) (by decide))) ?_
  intro u hu
  simp only [Option.map_eq_some_iff] at hu
  obtain ⟨p, hp, rfl⟩ := hu
  have h0 : OnlyChanges [.frames, .fabric, .faults] s p.2 := (OnlyChanges.refl _ _).step (State.takeFabSlot_changes s m p hp) (by decide)
  have h1 : OnlyChanges [.frames, .fabric, .faults] s (p.2.freeCredit m.src) := h0.step (State.freeCredit_changes _ _) (by decide)
  exact .ite ((h1.step (State.setRxGroup_changes _ _ _ _) (by decide)).step (State.lidCheck_changes _ _ _) (by decide))
    ((h1.step (State.modFrame_changes _ _ _) (by decide)).step (State.setRxGroup_changes _ _ _ _) (by decide))

theorem State.serve_changes (s : State) (m : Msg) : PairMay [.fabric, .frames, .faults, .snap, .recd, .nextId, .xlate] s (State.serve s m) := by
  unfold State.serve
  extract_lets x2_0
  have h3 : OnlyChanges [Part.fabric, Part.frames, Part.faults, Part.snap, Part.recd, Part.nextId, Part.xlate] s x2_0 := by
    unfold x2_0
    refine OnlyChanges.step ?_ (State.queuePartner_changes _ _) (by decide)
    · exact OnlyChanges.refl _ _
  split
  · refine PairMay.some ?_
    refine OnlyChanges.step ?_ (State.answer_changes _ _ _ _ _) (by decide)
    · exact OnlyChanges.refl _ _
  · refine PairMay.some ?_
    refine OnlyChanges.step ?_ (State.answer_changes _ _ _ _ _) (by decide)
    · exact h3
  · refine PairMay.some ?_
    refine OnlyChanges.step ?_ (State.refuseReq_changes _ _ _ _) (by decide)
    · refine OnlyChanges.step ?_ (State.touchWindow_changes _ _) (by decide)
      · exact OnlyChanges.refl _ _
  · exact PairMay.none _ _
  · refine PairMay.ite ?_ ?_
    · exact PairMay.none _ _
    · refine PairMay.map ?_
      refine MayChange.step ?_ (State.startWalk_changes _ _ _ _ _) (by decide)
      · exact OnlyChanges.refl _ _
  · refine PairMay.map ?_
    refine MayChange.step ?_ (State.acceptReq_changes _ _ _ _) (by decide)
    · refine OnlyChanges.step ?_ (State.touchWindow_changes _ _) (by decide)
      · exact OnlyChanges.refl _ _

theorem execRead_changes (l : Fin 18) (s : State) : ∃ t, (execRead l s) = .next t ∧ OnlyChanges [.fabric, .frames, .faults, .snap, .recd, .nextId, .xlate] s t := by
  refine ⟨_, rfl, ?_⟩
  apply State.takeMsg_ho
  · decide
  · exact OnlyChanges.refl _ _
  · intro a2
    refine PairMay.step ?_ (State.serve_changes _ _) (by decide)
    · exact OnlyChanges.refl _ _

theorem State.replay_changes (s : State) (l : ℕ) : OnlyChanges [.fabric, .free, .mboxes, .keeper, .recd, .frames, .ctxs, .faults, .snap] s (State.replay s l) := by
  unfold State.replay
  extract_lets x2_0
  refine OnlyChanges.ite ?_ ?_
  · exact OnlyChanges.refl _ _
  · refine OnlyChanges.ite ?_ ?_
    · refine OnlyChanges.step ?_ (State.linkDown_changes _ _ _ _) (by decide)
      · exact OnlyChanges.refl _ _
    · refine OnlyChanges.step ?_ (State.setLink_changes _ _ _) (by decide)
      · exact OnlyChanges.refl _ _

theorem State.rekeyCheck_changes (s : State) (l : ℕ) : OnlyChanges [.mboxes, .keeper, .fabric, .recd] s (State.rekeyCheck s l) := by
  unfold State.rekeyCheck
  extract_lets x2_0 x2_1
  have h4 : OnlyChanges [Part.mboxes, Part.keeper, Part.fabric, Part.recd] s x2_1 := by
    unfold x2_1
    refine OnlyChanges.step ?_ (State.event_changes _ _) (by decide)
    · refine OnlyChanges.step ?_ (State.setLink_changes _ _ _) (by decide)
      · exact OnlyChanges.refl _ _
  split
  · exact OnlyChanges.refl _ _
  · refine OnlyChanges.ite ?_ ?_
    · exact OnlyChanges.refl _ _
    · split
      · refine OnlyChanges.step ?_ (State.verbEnd_changes _ _ _ _ _ _) (by decide)
        · exact h4
      · exact h4

theorem execSealReceive_changes (l : Fin 18) (flit : Bytes) (s : State) : ∃ t, (execSealReceive l flit s) = .next t ∧ OnlyChanges [.fabric, .free, .mboxes, .keeper, .recd, .frames, .ctxs, .faults, .snap] s t := by
  refine ⟨_, rfl, ?_⟩
  extract_lets x3_0 x3_1 x3_2
  refine OnlyChanges.ite ?_ ?_
  · exact OnlyChanges.refl _ _
  · split
    · refine OnlyChanges.step ?_ (State.raise_changes _ _) (by decide)
      · refine OnlyChanges.step ?_ (State.setLink_changes _ _ _) (by decide)
        · exact OnlyChanges.refl _ _
    · extract_lets x13_0 x13_1 x13_2 x13_3 x13_4 x13_5
      have h19 : OnlyChanges [Part.fabric, Part.free, Part.mboxes, Part.keeper, Part.recd, Part.frames, Part.ctxs, Part.faults, Part.snap] s x13_3 := by
        unfold x13_3
        refine OnlyChanges.step ?_ (State.setLink_changes _ _ _) (by decide)
        · exact OnlyChanges.refl _ _
      have h20 : OnlyChanges [Part.fabric, Part.free, Part.mboxes, Part.keeper, Part.recd, Part.frames, Part.ctxs, Part.faults, Part.snap] s x13_4 := by
        unfold x13_4
        refine OnlyChanges.foldl _ (fun t20 _ => ?_) _ _ ?_
        · extract_lets x22_0
          refine OnlyChanges.step ?_ (State.openFlit_changes _ _ _ _) (by decide)
          · exact OnlyChanges.refl _ _
        · exact h19
      have h21 : OnlyChanges [Part.fabric, Part.free, Part.mboxes, Part.keeper, Part.recd, Part.frames, Part.ctxs, Part.faults, Part.snap] s x13_5 := by
        unfold x13_5
        refine OnlyChanges.step ?_ (State.rekeyCheck_changes _ _) (by decide)
        · exact h20
      refine OnlyChanges.ite ?_ ?_
      · refine OnlyChanges.step ?_ (State.replay_changes _ _) (by decide)
        · exact h21
      · exact h21

theorem State.tapProtocol_changes (s : State) (tap : ℕ) : OnlyChanges [.faults, .frames, .snap, .recd] s (State.tapProtocol s tap) := by
  unfold State.tapProtocol
  refine OnlyChanges.step ?_ (State.raise_changes _ _) (by decide)
  · exact OnlyChanges.refl _ _

theorem State.writeLanded_changes (s : State) (e : WEntry) : OnlyChanges [.fabric, .frames, .ctxs] s (State.writeLanded s e) := by
  unfold State.writeLanded
  split
  · split
    · refine OnlyChanges.step ?_ (State.modWork_changes _ _ _ _) (by decide)
      · exact OnlyChanges.refl _ _
    · refine OnlyChanges.step ?_ (State.modWork_changes _ _ _ _) (by decide)
      · exact OnlyChanges.refl _ _
    · refine OnlyChanges.step ?_ (State.modWork_changes _ _ _ _) (by decide)
      · exact OnlyChanges.refl _ _
    · refine OnlyChanges.step ?_ (State.modWork_changes _ _ _ _) (by decide)
      · exact OnlyChanges.refl _ _
    · refine OnlyChanges.step ?_ (State.modWork_changes _ _ _ _) (by decide)
      · exact OnlyChanges.refl _ _
    · refine OnlyChanges.step ?_ (State.modCtx_changes _ _ _) (by decide)
      · exact OnlyChanges.refl _ _
  · refine OnlyChanges.step ?_ (State.groupWriteDone_changes _ _ _) (by decide)
    · exact OnlyChanges.refl _ _
  · exact OnlyChanges.refl _ _

theorem execWriteDone_changes (tap : Fin 64) (entry : Fin 4096) (fail : Bool) (s : State) : ∃ t, (execWriteDone tap entry fail s) = .next t ∧ OnlyChanges [.ctxs, .chans, .tally, .readyQ, .faults, .frames, .snap, .recd, .fabric] s t := by
  refine ⟨_, rfl, ?_⟩
  extract_lets x4_0 x4_1 x4_2 x4_3
  have h8 : OnlyChanges [Part.ctxs, Part.chans, Part.tally, Part.readyQ, Part.faults, Part.frames, Part.snap, Part.recd, Part.fabric] s x4_2 := by
    unfold x4_2
    refine OnlyChanges.step ?_ (State.setEntry_changes _ _ _ _) (by decide)
    · exact OnlyChanges.refl _ _
  refine OnlyChanges.ite ?_ ?_
  · refine OnlyChanges.step ?_ (State.tapProtocol_changes _ _) (by decide)
    · exact OnlyChanges.refl _ _
  · refine OnlyChanges.ite ?_ ?_
    · refine OnlyChanges.step ?_ (State.writeFailed_changes _ _) (by decide)
      · refine OnlyChanges.step ?_ (State.busError_changes _ _ _ _ _ _ _ _ _) (by decide)
        · exact h8
    · refine OnlyChanges.step ?_ (State.writeLanded_changes _ _) (by decide)
      · exact h8

theorem execSnapshotImageDone_changes (s : State) : ∃ t, (execSnapshotImageDone s) = .next t ∧ OnlyChanges [.snap] s t := by
  refine ⟨_, rfl, ?_⟩
  extract_lets x1_0
  refine OnlyChanges.ite ?_ ?_
  · refine OnlyChanges.put_snap _ ?_ (by decide)
    exact OnlyChanges.refl _ _
  · exact OnlyChanges.refl _ _

theorem State.zeroSlotsOf_changes (s : State) (c : CtxNo) : OnlyChanges [.frames] s (State.zeroSlotsOf s c) := by
  unfold State.zeroSlotsOf
  refine OnlyChanges.step ?_ (State.mapFrames_changes _ _) (by decide)
  · exact OnlyChanges.refl _ _

theorem execCtxClose_changes (o : Origin) (s : State) : ∃ t, (execCtxClose o s) = .next t ∧ OnlyChanges [.mboxes, .keeper, .fabric, .recd, .faults, .frames, .snap, .ctxs] s t := by
  refine ⟨_, rfl, ?_⟩
  apply State.runVerb_ho
  · decide
  · exact OnlyChanges.refl _ _
  · intro a2
    extract_lets x3_0
    apply State.onAnyCtx_ho
    · decide
    · exact OnlyChanges.refl _ _
    · intro a4
      refine OnlyChanges.ite ?_ ?_
      · refine OnlyChanges.step ?_ (State.verbDone_changes _ _ _ _ _) (by decide)
        · exact OnlyChanges.refl _ _
      · refine OnlyChanges.ite ?_ ?_
        · exact OnlyChanges.refl _ _
        · refine OnlyChanges.step ?_ (State.verbDone_changes _ _ _ _ _) (by decide)
          · refine OnlyChanges.step ?_ (State.setCtx_changes _ _ _) (by decide)
            · refine OnlyChanges.step ?_ (State.zeroSlotsOf_changes _ _) (by decide)
              · exact OnlyChanges.refl _ _

theorem execStatusWriteAck_changes (c : CtxNo) (s : State) : ∃ t, (execStatusWriteAck c s) = .next t ∧ OnlyChanges [.chans, .tally, .ctxs, .readyQ, .faults, .frames, .snap, .recd, .fabric] s t := by
  refine ⟨_, rfl, ?_⟩
  split
  · refine OnlyChanges.ite ?_ ?_
    · refine OnlyChanges.step ?_ (State.complete_changes _ _ _) (by decide)
      · exact OnlyChanges.refl _ _
    · exact OnlyChanges.refl _ _
  · exact OnlyChanges.refl _ _

theorem State.runDrained_ho {ps : List Part} {s t : State} {o : Origin} {c : Nat} {f : VerbProg → State}
    (hs : ∀ p ∈ [Part.keeper, .mboxes, .fabric, .recd], p ∈ ps) (h : OnlyChanges ps s t)
    (k : ∀ v, OnlyChanges ps s (f v)) : OnlyChanges ps s (t.runDrained o c f) := by
  unfold State.runDrained
  split
  · exact k _
  · exact h.step (State.verbHalted_changes _ _ _) fun p hp => hs p (by revert hp; cases p <;> decide)

theorem execKsetRetireDrainEnd_changes (o : Origin) (s : State) : ∃ t, (execKsetRetireDrainEnd o s) = .next t ∧ OnlyChanges [.mboxes, .keeper, .fabric, .recd, .ksets] s t := by
  refine ⟨_, rfl, ?_⟩
  apply State.runDrained_ho
  · decide
  · exact OnlyChanges.refl _ _
  · intro a2
    extract_lets x3_0
    refine OnlyChanges.ite ?_ ?_
    · exact OnlyChanges.refl _ _
    · refine OnlyChanges.step ?_ (State.verbDone_changes _ _ _ _ _) (by decide)
      · refine OnlyChanges.step ?_ (State.setKset_changes _ _ _) (by decide)
        · exact OnlyChanges.refl _ _

theorem execMboxBind_changes (o : Origin) (s : State) : ∃ t, (execMboxBind o s) = .next t ∧ OnlyChanges [.mboxes, .keeper, .fabric, .recd] s t := by
  refine ⟨_, rfl, ?_⟩
  apply State.runVerb_ho
  · decide
  · exact OnlyChanges.refl _ _
  · intro a2
    extract_lets x3_0
    refine OnlyChanges.ite ?_ ?_
    · refine OnlyChanges.step ?_ (State.verbDone_changes _ _ _ _ _) (by decide)
      · exact OnlyChanges.refl _ _
    · refine OnlyChanges.step ?_ (State.verbDone_changes _ _ _ _ _) (by decide)
      · refine OnlyChanges.step ?_ (State.rebind_changes _ _ _) (by decide)
        · exact OnlyChanges.refl _ _

theorem execCtxPauseDrainEnd_changes (o : Origin) (s : State) : ∃ t, (execCtxPauseDrainEnd o s) = .next t ∧ OnlyChanges [.chans, .tally, .ctxs, .readyQ, .mboxes, .keeper, .fabric, .recd, .frames] s t := by
  refine ⟨_, rfl, ?_⟩
  apply State.runDrained_ho
  · decide
  · exact OnlyChanges.refl _ _
  · intro a2
    extract_lets x3_0 x3_1
    refine OnlyChanges.ite ?_ ?_
    · refine OnlyChanges.step ?_ (State.verbDone_changes _ _ _ _ _) (by decide)
      · exact OnlyChanges.refl _ _
    · split
      · extract_lets x11_0 x11_1
        have h13 : OnlyChanges [Part.chans, Part.tally, Part.ctxs, Part.readyQ, Part.mboxes, Part.keeper, Part.fabric, Part.recd, Part.frames] s x11_0 := by
          unfold x11_0
          refine OnlyChanges.step ?_ (State.unbind_changes _ _) (by decide)
          · refine OnlyChanges.step ?_ (State.toState_changes _ _ _) (by decide)
            · refine OnlyChanges.step ?_ (Eq.mp (congrArg (OnlyChanges _ _) (congrArg Prod.fst (by assumption : _ = (_, _)))) (State.drained_changes _ _)) (by decide)
              exact OnlyChanges.refl _ _
        have h14 : OnlyChanges [Part.chans, Part.tally, Part.ctxs, Part.readyQ, Part.mboxes, Part.keeper, Part.fabric, Part.recd, Part.frames] s x11_1 := by
          unfold x11_1
          refine OnlyChanges.step ?_ (State.modCtx_changes _ _ _) (by decide)
          · exact h13
        refine OnlyChanges.ite ?_ ?_
        · refine OnlyChanges.step ?_ (Eq.mp (congrArg (OnlyChanges _ _) (congrArg Prod.fst (by assumption : _ = (_, _)))) (State.drained_changes _ _)) (by decide)
          exact OnlyChanges.refl _ _
        · refine OnlyChanges.step ?_ (State.verbDone_changes _ _ _ _ _) (by decide)
          · exact h14

theorem State.startRekey_changes (s : State) (l : ℕ) (o : Option Origin) : OnlyChanges [.fabric, .keeper, .free, .frames, .swarms, .faults, .sec, .snap, .recd] s (State.startRekey s l o) := by
  unfold State.startRekey
  extract_lets x3_0 x3_1
  have h5 : OnlyChanges [Part.fabric, Part.keeper, Part.free, Part.frames, Part.swarms, Part.faults, Part.sec, Part.snap, Part.recd] s x3_0.2 := by
    unfold x3_0
    refine OnlyChanges.step ?_ (State.ephemeral_changes _) (by decide)
    · exact OnlyChanges.refl _ _
  refine OnlyChanges.step ?_ (State.modLink_changes _ _ _) (by decide)
  · exact h5

theorem State.rekeyAnswer_changes (s : State) (l : ℕ) (key : Bytes) : OnlyChanges [.fabric, .free, .mboxes, .keeper, .recd, .frames, .ctxs, .faults, .snap] s (State.rekeyAnswer s l key) := by
  unfold State.rekeyAnswer
  extract_lets x3_0 x3_1
  split
  · exact OnlyChanges.refl _ _
  · extract_lets x10_0
    split
    · refine OnlyChanges.step ?_ (State.linkDown_changes _ _ _ _) (by decide)
      · refine OnlyChanges.step ?_ (State.linkProtocol_changes _ _) (by decide)
        · exact OnlyChanges.refl _ _
    · refine OnlyChanges.step ?_ (State.setLink_changes _ _ _) (by decide)
      · exact OnlyChanges.refl _ _

theorem execRekey_changes (l : Fin 18) (s : State) : ∃ t, (execRekey l s) = .next t ∧ OnlyChanges [.fabric, .keeper, .free, .mboxes, .recd, .frames, .ctxs, .faults, .snap, .swarms, .sec] s t := by
  refine ⟨_, rfl, ?_⟩
  extract_lets x2_0
  have h3 : OnlyChanges [Part.fabric, Part.keeper, Part.free, Part.mboxes, Part.recd, Part.frames, Part.ctxs, Part.faults, Part.snap, Part.swarms, Part.sec] s x2_0 := by
    unfold x2_0
    refine OnlyChanges.step ?_ (State.reseed_changes _) (by decide)
    · exact OnlyChanges.refl _ _
  apply State.takeMsg_ho
  · decide
  · exact OnlyChanges.refl _ _
  · intro a4
    extract_lets x5_0
    split
    · refine PairMay.ite ?_ ?_
      · exact PairMay.none _ _
      · refine PairMay.some ?_
        refine OnlyChanges.step ?_ (State.rekeyAnswer_changes _ _ _) (by decide)
        · exact OnlyChanges.refl _ _
    · refine PairMay.ite ?_ ?_
      · exact PairMay.none _ _
      · refine PairMay.ite ?_ ?_
        · refine PairMay.some ?_
          exact h3
        · refine PairMay.some ?_
          refine OnlyChanges.step ?_ (State.rekeyAnswer_changes _ _ _) (by decide)
          · refine OnlyChanges.step ?_ (State.startRekey_changes _ _ _) (by decide)
            · exact h3

theorem execFltCorrRead_changes (s : State) : ∃ t, (execFltCorrRead s) = .next t ∧ OnlyChanges [.faults, .regs] s t := by
  refine ⟨_, rfl, ?_⟩
  refine OnlyChanges.ite ?_ ?_
  · refine OnlyChanges.step ?_ (State.answerRead_changes _ _) (by decide)
    · exact OnlyChanges.refl _ _
  · refine OnlyChanges.step ?_ (State.modFaults_changes _ _) (by decide)
    · refine OnlyChanges.step ?_ (State.answerRead_changes _ _) (by decide)
      · exact OnlyChanges.refl _ _

theorem execKbGo_changes (w : Word) (s : State) : ∃ t, (execKbGo w s) = .next t ∧ OnlyChanges [.keeper, .faults, .frames, .snap, .recd] s t := by
  refine ⟨_, rfl, ?_⟩
  refine OnlyChanges.ite ?_ ?_
  · refine OnlyChanges.step ?_ (State.kbWrite_changes _ _) (by decide)
    · exact OnlyChanges.refl _ _
  · exact OnlyChanges.refl _ _

theorem execMboxCancel_changes (m : Fin 32) (w : BitVec 32) (s : State) : ∃ t, (execMboxCancel m w s) = .next t ∧ OnlyChanges [.mboxes, .keeper] s t := by
  refine ⟨_, rfl, ?_⟩
  refine OnlyChanges.ite ?_ ?_
  · refine OnlyChanges.step ?_ (State.dbWrite_changes _ _ _) (by decide)
    · exact OnlyChanges.refl _ _
  · exact OnlyChanges.refl _ _

theorem execReplayTimeout_changes (l : Fin 18) (s : State) : ∃ t, (execReplayTimeout l s) = .next t ∧ OnlyChanges [.fabric, .free, .mboxes, .keeper, .recd, .frames, .ctxs, .faults, .snap] s t := by
  refine ⟨_, rfl, ?_⟩
  refine OnlyChanges.step ?_ (State.replay_changes _ _) (by decide)
  · exact OnlyChanges.refl _ _

theorem execSealPeriodic_changes (l : Fin 18) (s : State) : ∃ t, (execSealPeriodic l s) = .next t ∧ OnlyChanges [.fabric, .recd] s t := by
  refine ⟨_, rfl, ?_⟩
  extract_lets x2_0 x2_1
  have h4 : OnlyChanges [Part.fabric, Part.recd] s x2_0 := by
    unfold x2_0
    refine OnlyChanges.step ?_ (State.modLink_changes _ _ _) (by decide)
    · exact OnlyChanges.refl _ _
  split
  · refine OnlyChanges.ite ?_ ?_
    · refine OnlyChanges.step ?_ (State.sendSeal_changes _ _ _) (by decide)
      · exact h4
    · exact h4
  · exact h4

theorem execCtxRate_changes (o : Origin) (s : State) : ∃ t, (execCtxRate o s) = .next t ∧ OnlyChanges [.mboxes, .keeper, .fabric, .recd, .faults, .frames, .snap, .ctxs] s t := by
  refine ⟨_, rfl, ?_⟩
  apply State.runVerb_ho
  · decide
  · exact OnlyChanges.refl _ _
  · intro a2
    extract_lets x3_0
    apply State.onCtx_ho
    · decide
    · exact OnlyChanges.refl _ _
    · intro a4
      refine OnlyChanges.step ?_ (State.verbDone_changes _ _ _ _ _) (by decide)
      · refine OnlyChanges.step ?_ (State.modCtx_changes _ _ _) (by decide)
        · exact OnlyChanges.refl _ _

theorem State.svcWriteRemote_changes (s : State) (f : ℕ) (r : SvcReq) (c : CtxNo) (id : ℕ) (idx : BitVec 16) (p : OutPiece) (m : Msg) : MayChange [.fabric, .ctxs, .frames, .chans, .tally, .readyQ, .faults, .snap, .recd] s (State.svcWriteRemote s f r c id idx p m) := by
  unfold State.svcWriteRemote
  extract_lets x8_0 x8_1 x8_2 x8_3
  refine MayChange.ite ?_ ?_
  · refine MayChange.some ?_
    refine OnlyChanges.step ?_ (State.svcWriteFails_changes _ _ _ _ _ _ _ _ _) (by decide)
    · exact OnlyChanges.refl _ _
  · refine MayChange.ite ?_ ?_
    · refine MayChange.some ?_
      refine OnlyChanges.step ?_ (State.endWork_changes _ _ _ _ _) (by decide)
      · refine OnlyChanges.step ?_ (State.svcTaken_changes _ _ _) (by decide)
        · exact OnlyChanges.refl _ _
    · refine MayChange.ite ?_ ?_
      · refine MayChange.some ?_
        refine OnlyChanges.step ?_ (State.endWork_changes _ _ _ _ _) (by decide)
        · refine OnlyChanges.step ?_ (State.svcTaken_changes _ _ _) (by decide)
          · exact OnlyChanges.refl _ _
      · refine MayChange.mapS ?_ (fun t12 ht12 => ?_)
        · refine MayChange.step ?_ (State.remoteWrite_changes _ _ _ _ _) (by decide)
          · exact OnlyChanges.refl _ _
        · extract_lets x14_0
          have h15 : OnlyChanges [Part.fabric, Part.ctxs, Part.frames, Part.chans, Part.tally, Part.readyQ, Part.faults, Part.snap, Part.recd] s x14_0 := by
            unfold x14_0
            refine OnlyChanges.step ?_ (State.modWork_changes _ _ _ _) (by decide)
            · refine OnlyChanges.step ?_ (State.svcTaken_changes _ _ _) (by decide)
              · exact ht12
          split
          · extract_lets x26_0
            refine OnlyChanges.step ?_ (State.setTxGroup_changes _ _ _ _) (by decide)
            · exact h15
          · unfold x14_0
            refine OnlyChanges.step ?_ (State.modWork_changes _ _ _ _) (by decide)
            · refine OnlyChanges.step ?_ (State.svcTaken_changes _ _ _) (by decide)
              · exact ht12

theorem State.svcReadRemote_changes (s : State) (f : ℕ) (r : SvcReq) (c : CtxNo) (id : ℕ) (q : ReadReq) (m : Msg) : MayChange [.fabric, .frames, .ctxs] s (State.svcReadRemote s f r c id q m) := by
  unfold State.svcReadRemote
  extract_lets x7_0 x7_1 x7_2 x7_3
  refine MayChange.ite ?_ ?_
  · refine MayChange.some ?_
    refine OnlyChanges.step ?_ (State.endWork_changes _ _ _ _ _) (by decide)
    · refine OnlyChanges.step ?_ (State.svcTaken_changes _ _ _) (by decide)
      · exact OnlyChanges.refl _ _
  · split
    · extract_lets x22_0
      refine MayChange.some ?_
      refine OnlyChanges.step ?_ (State.remoteRead_changes _ _ _ _ _ _ _) (by decide)
      · refine OnlyChanges.step ?_ (State.claimSlot_changes _ _ _ _ _) (by decide)
        · refine OnlyChanges.step ?_ (State.svcTaken_changes _ _ _) (by decide)
          · exact OnlyChanges.refl _ _
    · exact MayChange.none _ _

theorem State.svcReadFails_changes (s : State) (f : ℕ) (r : SvcReq) (c : CtxNo) (id : ℕ) (q : ReadReq) (kind : ℕ) (level : ℕ) : OnlyChanges [.faults, .frames, .snap, .recd, .fabric, .ctxs] s (State.svcReadFails s f r c id q kind level) := by
  unfold State.svcReadFails
  extract_lets x8_0
  have h9 : OnlyChanges [Part.faults, Part.frames, Part.snap, Part.recd, Part.fabric, Part.ctxs] s x8_0 := by
    unfold x8_0
    refine OnlyChanges.step ?_ (State.svcTaken_changes _ _ _) (by decide)
    · exact OnlyChanges.refl _ _
  split
  · refine OnlyChanges.step ?_ (State.failAccess_changes _ _ _ _ _ _ _ _ _) (by decide)
    · exact h9
  · refine OnlyChanges.step ?_ (State.failAccess_changes _ _ _ _ _ _ _ _ _) (by decide)
    · exact h9
  · refine OnlyChanges.step ?_ (State.failAccess_changes _ _ _ _ _ _ _ _ _) (by decide)
    · exact h9

theorem State.svcDemandOf_changes (s : State) (f : ℕ) (r : SvcReq) : MayChange [.nextId, .frames, .xlate, .fabric, .ctxs, .chans, .tally, .readyQ, .faults, .snap, .recd] s (State.svcDemandOf s f r) := by
  unfold State.svcDemandOf
  split
  · refine MayChange.ite ?_ ?_
    · exact MayChange.none _ _
    · refine MayChange.some ?_
      refine OnlyChanges.step ?_ (State.svcTaken_changes _ _ _) (by decide)
      · exact OnlyChanges.refl _ _
  · extract_lets x7_0
    split
    · exact MayChange.none _ _
    · refine MayChange.step ?_ (State.demandWalk_changes _ _ _ _ _ _ _) (by decide)
      · exact OnlyChanges.refl _ _
    · refine MayChange.some ?_
      refine OnlyChanges.step ?_ (State.svcReadFails_changes _ _ _ _ _ _ _ _) (by decide)
      · exact OnlyChanges.refl _ _
    · refine MayChange.some ?_
      refine OnlyChanges.step ?_ (State.endWork_changes _ _ _ _ _) (by decide)
      · refine OnlyChanges.step ?_ (State.svcTaken_changes _ _ _) (by decide)
        · exact OnlyChanges.refl _ _
    · refine MayChange.step ?_ (State.svcReadRemote_changes _ _ _ _ _ _ _) (by decide)
      · refine OnlyChanges.step ?_ (State.used_changes _ _ _) (by decide)
        · exact OnlyChanges.refl _ _
  · split
    · exact MayChange.none _ _
    · split
      · refine MayChange.step ?_ (State.demandWalk_changes _ _ _ _ _ _ _) (by decide)
        · exact OnlyChanges.refl _ _
      · refine MayChange.step ?_ (State.demandWalk_changes _ _ _ _ _ _ _) (by decide)
        · exact OnlyChanges.refl _ _
      · refine MayChange.ite ?_ ?_
        · exact MayChange.none _ _
        · refine MayChange.step ?_ (State.startWalk_changes _ _ _ _ _) (by decide)
          · exact OnlyChanges.refl _ _
    · refine MayChange.some ?_
      refine OnlyChanges.step ?_ (State.svcWriteFails_changes _ _ _ _ _ _ _ _ _) (by decide)
      · exact OnlyChanges.refl _ _
    · refine MayChange.some ?_
      refine OnlyChanges.step ?_ (State.endWork_changes _ _ _ _ _) (by decide)
      · refine OnlyChanges.step ?_ (State.svcTaken_changes _ _ _) (by decide)
        · exact OnlyChanges.refl _ _
    · refine MayChange.step ?_ (State.svcWriteRemote_changes _ _ _ _ _ _ _ _) (by decide)
      · refine OnlyChanges.step ?_ (State.used_changes _ _ _) (by decide)
        · exact OnlyChanges.refl _ _

theorem State.demand_changes (s : State) (f : ℕ) : OnlyChanges [.nextId, .frames, .xlate, .fabric, .ctxs, .chans, .tally, .readyQ, .faults, .snap, .recd, .spine, .ports] s (State.demand s f) := by
  unfold State.demand
  extract_lets x2_0
  have h3 : OnlyChanges [Part.nextId, Part.frames, Part.xlate, Part.fabric, Part.ctxs, Part.chans, Part.tally, Part.readyQ, Part.faults, Part.snap, Part.recd, Part.spine, Part.ports] s x2_0 := by
    unfold x2_0
    split
    · refine MayChange.get ?_ (by assumption) (OnlyChanges.refl _ _) (fun _ h => h)
      refine MayChange.orElse ?_ ?_
      · refine MayChange.step ?_ (State.chanDemand_changes _ _) (by decide)
        · exact OnlyChanges.refl _ _
      · refine MayChange.findSome (fun _ => ?_)
        · refine MayChange.step ?_ (State.svcDemandOf_changes _ _ _) (by decide)
          · exact OnlyChanges.refl _ _
    · exact OnlyChanges.refl _ _
  refine OnlyChanges.ite ?_ ?_
  · exact OnlyChanges.refl _ _
  · refine OnlyChanges.step ?_ (State.poolWaiters_changes _ _) (by decide)
    · exact h3

theorem execTapArbitration_changes (tap : Fin 64) (s : State) : ∃ t, (execTapArbitration tap s) = .next t ∧ OnlyChanges [.taps, .nextId, .frames, .xlate, .fabric, .ctxs, .chans, .tally, .readyQ, .faults, .snap, .recd, .spine, .ports] s t := by
  refine ⟨_, rfl, ?_⟩
  extract_lets x2_0 x2_1 x2_2
  have h5 : OnlyChanges [Part.taps, Part.nextId, Part.frames, Part.xlate, Part.fabric, Part.ctxs, Part.chans, Part.tally, Part.readyQ, Part.faults, Part.snap, Part.recd, Part.spine, Part.ports] s x2_1 := by
    unfold x2_1
    refine OnlyChanges.step ?_ (State.demand_changes _ _) (by decide)
    · exact OnlyChanges.refl _ _
  split
  · exact h5
  · split
    · refine OnlyChanges.step ?_ (State.setTap_changes _ _ _) (by decide)
      · refine MayChange.get (State.tryIssue_changes _ _ _) (by assumption) ?_ (by decide)
        exact h5
    · exact h5

theorem execLinkRetrainingRequest_changes (l : Fin 18) (s : State) : ∃ t, (execLinkRetrainingRequest l s) = .next t ∧ OnlyChanges [.fabric, .power] s t := by
  refine ⟨_, rfl, ?_⟩
  refine OnlyChanges.step ?_ (State.askTraining_changes _ _) (by decide)
  · exact OnlyChanges.refl _ _

theorem State.beginFrameTest_changes (s : State) (o : Origin) (cal : Bool) (mask : ℕ) : OnlyChanges [.keeper, .ftest, .frames, .chans, .tally, .ctxs, .readyQ, .fabric, .mboxes, .recd] s (State.beginFrameTest s o cal mask) := by
  unfold State.beginFrameTest
  refine OnlyChanges.ite ?_ ?_
  · exact OnlyChanges.refl _ _
  · refine OnlyChanges.step ?_ (State.nextFrameTest_changes _ _) (by decide)
    · refine OnlyChanges.step ?_ (State.verbDrains_changes _ _) (by decide)
      · exact OnlyChanges.refl _ _

theorem execTestFrame_changes (o : Origin) (s : State) : ∃ t, (execTestFrame o s) = .next t ∧ OnlyChanges [.keeper, .ftest, .frames, .chans, .tally, .ctxs, .readyQ, .fabric, .mboxes, .recd] s t := by
  refine ⟨_, rfl, ?_⟩
  apply State.runVerb_ho
  · decide
  · exact OnlyChanges.refl _ _
  · intro a2
    refine OnlyChanges.step ?_ (State.beginFrameTest_changes _ _ _ _) (by decide)
    · exact OnlyChanges.refl _ _

theorem execFrameRunToIdle_changes (f : Fin 16) (s : State) : ∃ t, (execFrameRunToIdle f s) = .next t ∧ OnlyChanges [.power, .frames] s t := by
  refine ⟨_, rfl, ?_⟩
  refine OnlyChanges.ite ?_ ?_
  · refine OnlyChanges.step ?_ (State.clockDown_changes _ _) (by decide)
    · refine OnlyChanges.step ?_ (State.modFrame_changes _ _ _) (by decide)
      · exact OnlyChanges.refl _ _
  · exact OnlyChanges.refl _ _

theorem execLendUpdate_changes (s : State) : ∃ t, (execLendUpdate s) = .next t ∧ OnlyChanges [.tally] s t := by
  refine ⟨_, rfl, ?_⟩
  refine OnlyChanges.step ?_ (State.lendPresent_changes _ _ _) (by decide)
  · exact OnlyChanges.refl _ _

theorem execControlPortRefused_changes (wr : Bool) (off : BitVec 24) (strobe : BitVec 8) (_init : BitVec 6) (s : State) : ∃ t, (execControlPortRefused wr off strobe _init s) = .next t ∧ OnlyChanges [.regs, .faults, .frames, .snap, .recd] s t := by
  refine ⟨_, rfl, ?_⟩
  extract_lets x5_0
  refine OnlyChanges.ite ?_ ?_
  · exact OnlyChanges.refl _ _
  · refine OnlyChanges.step ?_ (State.refuseAccess_changes _ _ _ _) (by decide)
    · refine OnlyChanges.ite ?_ ?_
      · refine OnlyChanges.step ?_ (State.narrowKnock_changes _) (by decide)
        · exact OnlyChanges.refl _ _
      · exact OnlyChanges.refl _ _

theorem execFwActivateRestart_changes (s : State) : ∃ t, (execFwActivateRestart s) = .next t ∧ OnlyChanges [.keeper] s t := by
  refine ⟨_, rfl, ?_⟩
  split
  · refine OnlyChanges.ite ?_ ?_
    · refine OnlyChanges.step ?_ (State.bootStart_changes _ _ _) (by decide)
      · exact OnlyChanges.refl _ _
    · exact OnlyChanges.refl _ _
  · exact OnlyChanges.refl _ _

theorem execPartnerAdmit_changes (s : State) : ∃ t, (execPartnerAdmit s) = .next t ∧ OnlyChanges [.fabric] s t := by
  refine ⟨_, rfl, ?_⟩
  split
  · exact OnlyChanges.refl _ _
  · refine OnlyChanges.ite ?_ ?_
    · exact OnlyChanges.refl _ _
    · refine OnlyChanges.step ?_ (State.grant_changes _ _ _ _) (by decide)
      · refine OnlyChanges.step ?_ (State.modFabric_changes _ _) (by decide)
        · exact OnlyChanges.refl _ _

theorem execEcho_changes (l : Fin 18) (flit : Bytes) (s : State) : ∃ t, (execEcho l flit s) = .next t ∧ OnlyChanges [.fabric] s t := by
  refine ⟨_, rfl, ?_⟩
  extract_lets x3_0 x3_1
  refine OnlyChanges.ite ?_ ?_
  · exact OnlyChanges.refl _ _
  · refine OnlyChanges.step ?_ (State.setLink_changes _ _ _) (by decide)
    · exact OnlyChanges.refl _ _

theorem State.kmWrite_changes (s : State) (o : KmOwner) (addr : ℕ) (b : Bytes) : OnlyChanges [.keeper] s (State.kmWrite s o addr b) := by
  unfold State.kmWrite
  refine OnlyChanges.foldl _ (fun t4 _ => ?_) _ _ ?_
  · refine OnlyChanges.step ?_ (State.kmPush_changes _ _) (by decide)
    · exact OnlyChanges.refl _ _
  · exact OnlyChanges.refl _ _

theorem execSnapshotCapture_changes (fine : BitVec 16) (s : State) : ∃ t, (execSnapshotCapture fine s) = .next t ∧ OnlyChanges [.snap, .mboxes, .keeper, .fabric, .recd, .power] s t := by
  refine ⟨_, rfl, ?_⟩
  extract_lets x2_0 x2_1 x2_2
  split
  · exact OnlyChanges.refl _ _
  · extract_lets x10_0 x10_1 x10_2 x10_3 x10_4
    have h15 : OnlyChanges [Part.snap, Part.mboxes, Part.keeper, Part.fabric, Part.recd, Part.power] s x10_1 := by
      unfold x10_1
      refine OnlyChanges.put_snap _ ?_ (by decide)
      exact OnlyChanges.refl _ _
    have h16 : OnlyChanges [Part.snap, Part.mboxes, Part.keeper, Part.fabric, Part.recd, Part.power] s x10_2 := by
      unfold x10_2
      refine OnlyChanges.step ?_ (State.event_changes _ _) (by decide)
      · exact h15
    have h17 : OnlyChanges [Part.snap, Part.mboxes, Part.keeper, Part.fabric, Part.recd, Part.power] s x10_3 := by
      unfold x10_3
      refine OnlyChanges.step ?_ (State.kmWrite_changes _ _ _ _) (by decide)
      · exact h16
    have h18 : OnlyChanges [Part.snap, Part.mboxes, Part.keeper, Part.fabric, Part.recd, Part.power] s x10_4 := by
      unfold x10_4
      refine OnlyChanges.step ?_ (State.kmWrite_changes _ _ _ _) (by decide)
      · exact h17
    refine OnlyChanges.ite ?_ ?_
    · refine OnlyChanges.step ?_ (State.clockUp_changes _ _) (by decide)
      · exact OnlyChanges.refl _ _
    · refine OnlyChanges.foldl _ (fun t19 _ => ?_) _ _ ?_
      · refine OnlyChanges.step ?_ (State.finish_changes _ _ _ _ _) (by decide)
        · exact OnlyChanges.refl _ _
      · exact h18

theorem execBlockResetReaction_changes (s : State) : ∃ t, (execBlockResetReaction s) = .next t ∧ OnlyChanges [.inp, .keeper, .mboxes, .ctxs, .readyQ, .chans, .frames, .taps, .ports, .spine, .swarms, .expand, .expandAt, .ksets, .mods, .xlate, .tally, .fabric, .faults, .sec, .power, .ftest, .snap, .recd, .telem, .regs, .free] s t := by
  refine ⟨_, rfl, ?_⟩
  extract_lets x1_0 x1_1
  have h3 : OnlyChanges [Part.inp, Part.keeper, Part.mboxes, Part.ctxs, Part.readyQ, Part.chans, Part.frames, Part.taps, Part.ports, Part.spine, Part.swarms, Part.expand, Part.expandAt, Part.ksets, Part.mods, Part.xlate, Part.tally, Part.fabric, Part.faults, Part.sec, Part.power, Part.ftest, Part.snap, Part.recd, Part.telem, Part.regs, Part.free] s x1_1 := by
    unfold x1_1
    refine OnlyChanges.ite ?_ ?_
    · refine OnlyChanges.put_faults _ ?_ (by decide)
      exact OnlyChanges.refl _ _
    · exact OnlyChanges.refl _ _
  refine OnlyChanges.ite ?_ ?_
  · refine OnlyChanges.step ?_ (State.blockReset_changes _ _) (by decide)
    · exact h3
  · exact h3

theorem execLandCr_changes (p : Fin 256) (s : State) : ∃ t, (execLandCr p s) = .next t ∧ OnlyChanges [.ports, .ctxs, .faults, .frames, .snap, .recd] s t := by
  refine ⟨_, rfl, ?_⟩
  extract_lets x2_0
  refine OnlyChanges.ite ?_ ?_
  · exact OnlyChanges.refl _ _
  · split
    · refine OnlyChanges.step ?_ (State.portCredit_changes _ _ _) (by decide)
      · exact OnlyChanges.refl _ _
    · refine OnlyChanges.step ?_ (State.beatBack_changes _ _) (by decide)
      · refine OnlyChanges.step ?_ (State.setPort_changes _ _ _) (by decide)
        · exact OnlyChanges.refl _ _

theorem execMapInval_changes (o : Origin) (s : State) : ∃ t, (execMapInval o s) = .next t ∧ OnlyChanges [.mboxes, .keeper, .fabric, .recd, .frames, .xlate, .faults, .snap] s t := by
  refine ⟨_, rfl, ?_⟩
  apply State.runVerb_ho
  · decide
  · exact OnlyChanges.refl _ _
  · intro a2
    extract_lets x3_0 x3_1 x3_2
    refine OnlyChanges.ite ?_ ?_
    · refine OnlyChanges.step ?_ (State.refuseTenant_changes _ _) (by decide)
      · exact OnlyChanges.refl _ _
    · refine OnlyChanges.ite ?_ ?_
      · refine OnlyChanges.step ?_ (State.verbDone_changes _ _ _ _ _) (by decide)
        · exact OnlyChanges.refl _ _
      · refine OnlyChanges.ite ?_ ?_
        · refine OnlyChanges.step ?_ (State.verbDone_changes _ _ _ _ _) (by decide)
          · exact OnlyChanges.refl _ _
        · refine OnlyChanges.ite ?_ ?_
          · refine OnlyChanges.step ?_ (State.verbDone_changes _ _ _ _ _) (by decide)
            · exact OnlyChanges.refl _ _
          · refine OnlyChanges.step ?_ (State.askInval_changes _ _) (by decide)
            · exact OnlyChanges.refl _ _

theorem State.trim_changes (s : State) (c : CtxNo) (w : Work) : MayChange [.frames] s (State.trim s c w) := by
  unfold State.trim
  extract_lets x3_0 x3_1 x3_2
  have h6 : OnlyChanges [Part.frames] s x3_2 := by
    unfold x3_2
    refine OnlyChanges.step ?_ (State.freeSlotsOf_changes _ _ _ _ _) (by decide)
    · exact OnlyChanges.refl _ _
  refine MayChange.ite ?_ ?_
  · exact MayChange.none _ _
  · refine MayChange.ite ?_ ?_
    · exact MayChange.none _ _
    · refine MayChange.some ?_
      exact h6

theorem State.aheadTag_changes (s : State) (c : CtxNo) (w : Work) : MayChange [.ctxs] s (State.aheadTag s c w) := by
  unfold State.aheadTag
  extract_lets x3_0 x3_1
  refine MayChange.ite ?_ ?_
  · exact MayChange.none _ _
  · split
    · split
      · refine MayChange.ite ?_ ?_
        · exact MayChange.none _ _
        · refine MayChange.some ?_
          refine OnlyChanges.step ?_ (State.modWork_changes _ _ _ _) (by decide)
          · exact OnlyChanges.refl _ _
      · exact MayChange.none _ _
    · exact MayChange.none _ _

theorem State.closeGroups_changes (s : State) (c : CtxNo) (w : Work) : MayChange [.fabric, .ctxs, .frames] s (State.closeGroups s c w) := by
  unfold State.closeGroups
  refine MayChange.ite ?_ ?_
  · exact MayChange.none _ _
  · refine MayChange.step ?_ (State.closeAll_changes _ _ _) (by decide)
    · exact OnlyChanges.refl _ _

theorem State.endUnit_changes (s : State) (c : CtxNo) (w : Work) : MayChange [.ctxs, .frames] s (State.endUnit s c w) := by
  unfold State.endUnit
  extract_lets x3_0 x3_1
  refine MayChange.ite ?_ ?_
  · exact MayChange.none _ _
  · refine MayChange.some ?_
    refine OnlyChanges.step ?_ (State.modWork_changes _ _ _ _) (by decide)
    · refine OnlyChanges.step ?_ (State.freeSlotsOf_changes _ _ _ _ _) (by decide)
      · exact OnlyChanges.refl _ _

theorem State.emit_changes (s : State) (c : CtxNo) (w : Work) : MayChange [.free, .frames, .ctxs, .fabric] s (State.emit s c w) := by
  unfold State.emit
  extract_lets x3_0 x3_1 x3_2 x3_3 x3_4 x3_5 x3_6 x3_7 x3_8 x3_9 x3_10 x3_11 x3_12 x3_13 x3_14 x3_15
  have h19 : OnlyChanges [Part.free, Part.frames, Part.ctxs, Part.fabric] s x3_15 := by
    unfold x3_15
    refine OnlyChanges.step ?_ (State.modFrame_changes _ _ _) (by decide)
    · exact OnlyChanges.refl _ _
  refine MayChange.ite ?_ ?_
  · exact MayChange.none _ _
  · split
    · refine MayChange.some ?_
      refine OnlyChanges.step ?_ (State.endWork_changes _ _ _ _ _) (by decide)
      · exact OnlyChanges.refl _ _
    · refine MayChange.map (fun _ => ?_)
      · extract_lets x25_0 x25_1 x25_2
        have h28 : OnlyChanges [Part.free, Part.frames, Part.ctxs, Part.fabric] s x25_2 := by
          unfold x25_2
          refine OnlyChanges.put_free _ ?_ (by decide)
          exact h19
        refine OnlyChanges.step ?_ (State.modWork_changes _ _ _ _) (by decide)
        · exact h28

theorem State.copyStep_changes (s : State) (c : CtxNo) (w : Work) : MayChange [.frames, .spine, .ports, .ctxs, .faults, .snap, .recd, .fabric, .nextId, .xlate, .free, .chans, .tally] s (State.copyStep s c w) := by
  unfold State.copyStep
  refine MayChange.ite ?_ ?_
  · exact MayChange.none _ _
  · refine MayChange.orElse ?_ ?_
    · refine MayChange.step ?_ (State.handOut_changes _ _ _) (by decide)
      · exact OnlyChanges.refl _ _
    · refine MayChange.orElse ?_ ?_
      · refine MayChange.step ?_ (State.headRead_changes _ _ _) (by decide)
        · exact OnlyChanges.refl _ _
      · refine MayChange.orElse ?_ ?_
        · refine MayChange.step ?_ (State.trim_changes _ _ _) (by decide)
          · exact OnlyChanges.refl _ _
        · refine MayChange.orElse ?_ ?_
          · refine MayChange.step ?_ (State.emit_changes _ _ _) (by decide)
            · exact OnlyChanges.refl _ _
          · refine MayChange.orElse ?_ ?_
            · refine MayChange.step ?_ (State.aheadTag_changes _ _ _) (by decide)
              · exact OnlyChanges.refl _ _
            · refine MayChange.orElse ?_ ?_
              · refine MayChange.step ?_ (State.listAhead_changes _ _ _) (by decide)
                · exact OnlyChanges.refl _ _
              · refine MayChange.orElse ?_ ?_
                · refine MayChange.step ?_ (State.endUnit_changes _ _ _) (by decide)
                  · exact OnlyChanges.refl _ _
                · refine MayChange.orElse ?_ ?_
                  · refine MayChange.step ?_ (State.startUnit_changes _ _ _) (by decide)
                    · exact OnlyChanges.refl _ _
                  · refine MayChange.orElse ?_ ?_
                    · refine MayChange.step ?_ (State.evict_changes _ _ _) (by decide)
                      · exact OnlyChanges.refl _ _
                    · refine MayChange.step ?_ (State.closeGroups_changes _ _ _) (by decide)
                      · exact OnlyChanges.refl _ _

theorem execCopy_changes (ch : Fin 1024) (s : State) : ∃ t, (execCopy ch s) = .next t ∧ OnlyChanges [.frames, .spine, .ports, .ctxs, .faults, .snap, .recd, .fabric, .nextId, .xlate, .free, .chans, .tally] s t := by
  refine ⟨_, rfl, ?_⟩
  split
  · exact OnlyChanges.refl _ _
  · refine OnlyChanges.ite ?_ ?_
    · exact OnlyChanges.refl _ _
    · split
      · refine MayChange.get ?_ (by assumption) (OnlyChanges.refl _ _) (fun _ h => h)
        refine MayChange.findSome (fun _ => ?_)
        · refine MayChange.step ?_ (State.copyStep_changes _ _ _) (by decide)
          · exact OnlyChanges.refl _ _
      · exact OnlyChanges.refl _ _

theorem execForagerWalk_changes (ch : Fin 1024) (s : State) : ∃ t, (execForagerWalk ch s) = .next t ∧ OnlyChanges [.nextId, .frames, .xlate] s t := by
  refine ⟨_, rfl, ?_⟩
  extract_lets x2_0 x2_1 x2_2
  split
  · exact OnlyChanges.refl _ _
  · extract_lets x10_0 x10_1
    refine OnlyChanges.ite ?_ ?_
    · exact OnlyChanges.refl _ _
    · clear_value x10_1
      split
      · exact OnlyChanges.refl _ _
      · split
        · refine MayChange.get (State.startWalk_changes _ _ _ _ _) (by assumption) ?_ (by decide)
          exact OnlyChanges.refl _ _
        · exact OnlyChanges.refl _ _

theorem State.wrapTime_changes (s : State) : OnlyChanges [.ptime, .recd, .faults, .frames, .snap] s (State.wrapTime s) := by
  unfold State.wrapTime
  extract_lets x1_0
  refine OnlyChanges.step ?_ (State.raise_changes _ _) (by decide)
  · refine OnlyChanges.upd (s) ?_ (fun p hp => by cases p <;> first | rfl | exact absurd (by decide) hp)
    exact OnlyChanges.refl _ _

theorem execPtimeWrap_changes (s : State) : ∃ t, (execPtimeWrap s) = .next t ∧ OnlyChanges [.ptime, .recd, .faults, .frames, .snap] s t := by
  refine ⟨_, rfl, ?_⟩
  refine OnlyChanges.ite ?_ ?_
  · refine OnlyChanges.step ?_ (State.wrapTime_changes _) (by decide)
    · exact OnlyChanges.refl _ _
  · exact OnlyChanges.refl _ _

theorem State.holdFabric_changes (s : State) (f : ℕ) : OnlyChanges [.frames] s (State.holdFabric s f) := by
  unfold State.holdFabric
  refine OnlyChanges.ite ?_ ?_
  · refine OnlyChanges.step ?_ (State.modFrame_changes _ _ _) (by decide)
    · exact OnlyChanges.refl _ _
  · exact OnlyChanges.refl _ _

theorem execFrameTestDrainEnd_changes (pass : Bool) (s : State) : ∃ t, (execFrameTestDrainEnd pass s) = .next t ∧ OnlyChanges [.frames, .faults, .snap, .recd, .chans, .tally, .ctxs, .readyQ, .fabric, .ftest, .mboxes, .keeper, .power] s t := by
  refine ⟨_, rfl, ?_⟩
  split
  · extract_lets x7_0
    split
    · extract_lets x13_0 x13_1 x13_2 x13_3 x13_4
      have h18 : OnlyChanges [Part.frames, Part.faults, Part.snap, Part.recd, Part.chans, Part.tally, Part.ctxs, Part.readyQ, Part.fabric, Part.ftest, Part.mboxes, Part.keeper, Part.power] s x13_1 := by
        unfold x13_1
        refine OnlyChanges.ite ?_ ?_
        · exact OnlyChanges.refl _ _
        · refine OnlyChanges.step ?_ (State.holdFabric_changes _ _) (by decide)
          · refine OnlyChanges.step ?_ (State.driveFrame_changes _ _) (by decide)
            · exact OnlyChanges.refl _ _
      have h19 : OnlyChanges [Part.frames, Part.faults, Part.snap, Part.recd, Part.chans, Part.tally, Part.ctxs, Part.readyQ, Part.fabric, Part.ftest, Part.mboxes, Part.keeper, Part.power] s x13_2 := by
        unfold x13_2
        refine OnlyChanges.ite ?_ ?_
        · exact h18
        · refine OnlyChanges.step ?_ (State.modFrame_changes _ _ _) (by decide)
          · exact h18
      have h20 : OnlyChanges [Part.frames, Part.faults, Part.snap, Part.recd, Part.chans, Part.tally, Part.ctxs, Part.readyQ, Part.fabric, Part.ftest, Part.mboxes, Part.keeper, Part.power] s x13_3 := by
        unfold x13_3
        refine OnlyChanges.step ?_ (State.endHeld_changes _ _ _) (by decide)
        · exact h19
      have h21 : OnlyChanges [Part.frames, Part.faults, Part.snap, Part.recd, Part.chans, Part.tally, Part.ctxs, Part.readyQ, Part.fabric, Part.ftest, Part.mboxes, Part.keeper, Part.power] s x13_4 := by
        unfold x13_4
        refine OnlyChanges.ite ?_ ?_
        · exact h20
        · refine OnlyChanges.step ?_ (State.raise_changes _ _) (by decide)
          · exact h20
      refine OnlyChanges.ite ?_ ?_
      · exact OnlyChanges.refl _ _
      · refine OnlyChanges.ite ?_ ?_
        · exact h18
        · refine OnlyChanges.step ?_ (State.nextFrameTest_changes _ _) (by decide)
          · exact h21
    · exact OnlyChanges.refl _ _
  · exact OnlyChanges.refl _ _

theorem execScTrig_changes (w : Word) (s : State) : ∃ t, (execScTrig w s) = .next t ∧ OnlyChanges [.snap] s t := by
  refine ⟨_, rfl, ?_⟩
  refine OnlyChanges.ite ?_ ?_
  · refine OnlyChanges.step ?_ (State.snapCtrlWrite_changes _ _) (by decide)
    · exact OnlyChanges.refl _ _
  · exact OnlyChanges.refl _ _

theorem execMboxUnbind_changes (o : Origin) (s : State) : ∃ t, (execMboxUnbind o s) = .next t ∧ OnlyChanges [.mboxes, .keeper, .fabric, .recd] s t := by
  refine ⟨_, rfl, ?_⟩
  apply State.runVerb_ho
  · decide
  · exact OnlyChanges.refl _ _
  · intro a2
    refine OnlyChanges.step ?_ (State.verbDone_changes _ _ _ _ _) (by decide)
    · refine OnlyChanges.step ?_ (State.rebind_changes _ _ _) (by decide)
      · exact OnlyChanges.refl _ _

theorem execFwActivate_changes (o : Origin) (s : State) : ∃ t, (execFwActivate o s) = .next t ∧ OnlyChanges [.keeper, .mboxes, .fabric, .recd] s t := by
  refine ⟨_, rfl, ?_⟩
  apply State.runVerb_ho
  · decide
  · exact OnlyChanges.refl _ _
  · intro a2
    refine OnlyChanges.ite ?_ ?_
    · refine OnlyChanges.step ?_ (State.verbDone_changes _ _ _ _ _) (by decide)
      · refine OnlyChanges.step ?_ (State.modKeeper_changes _ _) (by decide)
        · exact OnlyChanges.refl _ _
    · refine OnlyChanges.step ?_ (State.verbDrains_changes _ _) (by decide)
      · exact OnlyChanges.refl _ _

theorem execTenantOpen_changes (o : Origin) (s : State) : ∃ t, (execTenantOpen o s) = .next t ∧ OnlyChanges [.mboxes, .keeper, .fabric, .recd, .xlate] s t := by
  refine ⟨_, rfl, ?_⟩
  apply State.runVerb_ho
  · decide
  · exact OnlyChanges.refl _ _
  · intro a2
    extract_lets x3_0 x3_1
    refine OnlyChanges.ite ?_ ?_
    · refine OnlyChanges.step ?_ (State.verbDone_changes _ _ _ _ _) (by decide)
      · exact OnlyChanges.refl _ _
    · refine OnlyChanges.ite ?_ ?_
      · refine OnlyChanges.step ?_ (State.verbDone_changes _ _ _ _ _) (by decide)
        · exact OnlyChanges.refl _ _
      · refine OnlyChanges.step ?_ (State.verbDone_changes _ _ _ _ _) (by decide)
        · refine OnlyChanges.step ?_ (State.modXlate_changes _ _) (by decide)
          · exact OnlyChanges.refl _ _

theorem execReadiness_changes (s : State) : ∃ t, (execReadiness s) = .next t ∧ OnlyChanges [.fabric, .faults, .keeper, .mboxes, .recd, .free, .frames, .swarms, .sec, .snap] s t := by
  refine ⟨_, rfl, ?_⟩
  extract_lets x1_0 x1_1 x1_2 x1_3 x1_4 x1_5
  have h7 : OnlyChanges [Part.fabric, Part.faults, Part.keeper, Part.mboxes, Part.recd, Part.free, Part.frames, Part.swarms, Part.sec, Part.snap] s x1_1 := by
    unfold x1_1
    refine OnlyChanges.step ?_ (State.modKeeper_changes _ _) (by decide)
    · exact OnlyChanges.refl _ _
  have h8 : OnlyChanges [Part.fabric, Part.faults, Part.keeper, Part.mboxes, Part.recd, Part.free, Part.frames, Part.swarms, Part.sec, Part.snap] s x1_4 := by
    unfold x1_4
    refine OnlyChanges.upd (x1_1) ?_ (fun p hp => by cases p <;> first | rfl | exact absurd (by decide) hp)
    exact h7
  have h9 : OnlyChanges [Part.fabric, Part.faults, Part.keeper, Part.mboxes, Part.recd, Part.free, Part.frames, Part.swarms, Part.sec, Part.snap] s x1_5 := by
    unfold x1_5
    refine OnlyChanges.step ?_ (State.event_changes _ _) (by decide)
    · refine OnlyChanges.step ?_ (State.resendAll_changes _) (by decide)
      · exact h8
  refine OnlyChanges.ite ?_ ?_
  · exact OnlyChanges.refl _ _
  · refine OnlyChanges.foldl _ (fun t10 _ => ?_) _ _ ?_
    · refine OnlyChanges.step ?_ (State.finish_changes _ _ _ _ _) (by decide)
      · exact OnlyChanges.refl _ _
    · exact h9

theorem execDeadlockTimeout_changes (s : State) : ∃ t, (execDeadlockTimeout s) = .next t ∧ OnlyChanges [.faults, .frames, .snap, .recd, .tally] s t := by
  refine ⟨_, rfl, ?_⟩
  extract_lets x1_0 x1_1 x1_2
  refine OnlyChanges.ite ?_ ?_
  · exact OnlyChanges.refl _ _
  · refine OnlyChanges.step ?_ (State.raiseWith_changes _ _ _ _) (by decide)
    · refine OnlyChanges.step ?_ (State.modTally_changes _ _) (by decide)
      · exact OnlyChanges.refl _ _

theorem State.linkQuiesce_changes (s : State) (l : ℕ) : OnlyChanges [.fabric, .free, .mboxes, .keeper, .recd, .frames, .ctxs, .faults, .snap] s (State.linkQuiesce s l) := by
  unfold State.linkQuiesce
  extract_lets x2_0
  refine OnlyChanges.ite ?_ ?_
  · refine OnlyChanges.step ?_ (State.setLink_changes _ _ _) (by decide)
    · exact OnlyChanges.refl _ _
  · refine OnlyChanges.step ?_ (State.linkDown_changes _ _ _ _) (by decide)
    · exact OnlyChanges.refl _ _

theorem execQuiesceRemoteDrained_changes (s : State) : ∃ t, (execQuiesceRemoteDrained s) = .next t ∧ OnlyChanges [.mboxes, .keeper, .fabric, .recd, .tally, .power, .frames, .free, .ctxs, .faults, .snap, .chans, .swarms, .sec] s t := by
  refine ⟨_, rfl, ?_⟩
  split
  · exact OnlyChanges.refl _ _
  · extract_lets x6_0 x6_1
    have h8 : OnlyChanges [Part.mboxes, Part.keeper, Part.fabric, Part.recd, Part.tally, Part.power, Part.frames, Part.free, Part.ctxs, Part.faults, Part.snap, Part.chans, Part.swarms, Part.sec] s x6_0 := by
      unfold x6_0
      refine OnlyChanges.step ?_ (State.modKeeper_changes _ _) (by decide)
      · exact OnlyChanges.refl _ _
    have h9 : OnlyChanges [Part.mboxes, Part.keeper, Part.fabric, Part.recd, Part.tally, Part.power, Part.frames, Part.free, Part.ctxs, Part.faults, Part.snap, Part.chans, Part.swarms, Part.sec] s x6_1 := by
      unfold x6_1
      refine OnlyChanges.foldl _ (fun t9 _ => ?_) _ _ ?_
      · refine OnlyChanges.step ?_ (State.linkQuiesce_changes _ _) (by decide)
        · exact OnlyChanges.refl _ _
      · exact h8
    refine OnlyChanges.ite ?_ ?_
    · exact OnlyChanges.refl _ _
    · refine OnlyChanges.ite ?_ ?_
      · refine OnlyChanges.step ?_ (State.verbEnd_changes _ _ _ _ _ _) (by decide)
        · refine OnlyChanges.step ?_ (State.resendAll_changes _) (by decide)
          · refine OnlyChanges.step ?_ (State.modKeeper_changes _ _) (by decide)
            · exact OnlyChanges.refl _ _
      · refine OnlyChanges.ite ?_ ?_
        · refine OnlyChanges.step ?_ (State.flushEnd_changes _) (by decide)
          · exact h9
        · refine OnlyChanges.step ?_ (State.askFlush_changes _) (by decide)
          · exact h9

theorem State.keeperEcc_changes (s : State) : OnlyChanges [.faults, .free, .keeper, .frames, .snap, .recd] s (State.keeperEcc s) := by
  unfold State.keeperEcc
  extract_lets x1_0 x1_1 x1_2 x1_3 x1_4
  have h6 : OnlyChanges [Part.faults, Part.free, Part.keeper, Part.frames, Part.snap, Part.recd] s x1_1.2 := by
    unfold x1_1
    refine OnlyChanges.step ?_ (State.draw_changes _) (by decide)
    · exact OnlyChanges.refl _ _
  have h7 : OnlyChanges [Part.faults, Part.free, Part.keeper, Part.frames, Part.snap, Part.recd] s x1_2 := by
    unfold x1_2
    refine OnlyChanges.step ?_ (State.modFaults_changes _ _) (by decide)
    · exact h6
  have h8 : OnlyChanges [Part.faults, Part.free, Part.keeper, Part.frames, Part.snap, Part.recd] s x1_4 := by
    unfold x1_4
    refine OnlyChanges.step ?_ (State.modKeeper_changes _ _) (by decide)
    · refine OnlyChanges.step ?_ (State.raise_changes _ _) (by decide)
      · exact h7
  refine OnlyChanges.ite ?_ ?_
  · exact OnlyChanges.refl _ _
  · refine OnlyChanges.ite ?_ ?_
    · refine OnlyChanges.step ?_ (State.raise_changes _ _) (by decide)
      · exact h7
    · refine OnlyChanges.step ?_ (State.raise_changes _ _) (by decide)
      · exact h8

theorem execKeeperBeatTick_changes (s : State) : ∃ t, (execKeeperBeatTick s) = .next t ∧ OnlyChanges [.keeper, .faults, .free, .frames, .snap, .recd] s t := by
  refine ⟨_, rfl, ?_⟩
  refine OnlyChanges.ite ?_ ?_
  · refine OnlyChanges.step ?_ (State.keeperEcc_changes _) (by decide)
    · refine OnlyChanges.step ?_ (State.modKeeper_changes _ _) (by decide)
      · exact OnlyChanges.refl _ _
  · exact OnlyChanges.refl _ _

theorem execLinkRekey_changes (o : Origin) (s : State) : ∃ t, (execLinkRekey o s) = .next t ∧ OnlyChanges [.keeper, .fabric, .free, .mboxes, .recd, .frames, .swarms, .faults, .sec, .snap] s t := by
  refine ⟨_, rfl, ?_⟩
  extract_lets x2_0
  have h3 : OnlyChanges [Part.keeper, Part.fabric, Part.free, Part.mboxes, Part.recd, Part.frames, Part.swarms, Part.faults, Part.sec, Part.snap] s x2_0 := by
    unfold x2_0
    refine OnlyChanges.step ?_ (State.reseed_changes _) (by decide)
    · exact OnlyChanges.refl _ _
  apply State.runVerb_ho
  · decide
  · exact OnlyChanges.refl _ _
  · intro a4
    extract_lets x5_0
    refine OnlyChanges.ite ?_ ?_
    · refine OnlyChanges.step ?_ (State.verbDone_changes _ _ _ _ _) (by decide)
      · exact OnlyChanges.refl _ _
    · refine OnlyChanges.ite ?_ ?_
      · refine OnlyChanges.step ?_ (State.verbDone_changes _ _ _ _ _) (by decide)
        · exact OnlyChanges.refl _ _
      · refine OnlyChanges.ite ?_ ?_
        · refine OnlyChanges.step ?_ (State.verbDone_changes _ _ _ _ _) (by decide)
          · exact OnlyChanges.refl _ _
        · refine OnlyChanges.ite ?_ ?_
          · exact OnlyChanges.refl _ _
          · refine OnlyChanges.ite ?_ ?_
            · refine OnlyChanges.step ?_ (State.verbDone_changes _ _ _ _ _) (by decide)
              · exact h3
            · refine OnlyChanges.step ?_ (State.verbDrains_changes _ _) (by decide)
              · refine OnlyChanges.step ?_ (State.startRekey_changes _ _ _) (by decide)
                · exact h3

theorem execEngineQuiesce_changes (o : Origin) (s : State) : ∃ t, (execEngineQuiesce o s) = .next t ∧ OnlyChanges [.keeper, .mboxes, .fabric, .recd, .free, .frames, .swarms, .faults, .sec, .snap] s t := by
  refine ⟨_, rfl, ?_⟩
  apply State.runVerb_ho
  · decide
  · exact OnlyChanges.refl _ _
  · intro a2
    extract_lets x3_0
    have h4 : OnlyChanges [Part.keeper, Part.mboxes, Part.fabric, Part.recd, Part.free, Part.frames, Part.swarms, Part.faults, Part.sec, Part.snap] s x3_0 := by
      unfold x3_0
      refine OnlyChanges.step ?_ (State.modKeeper_changes _ _) (by decide)
      · exact OnlyChanges.refl _ _
    refine OnlyChanges.ite ?_ ?_
    · refine OnlyChanges.step ?_ (State.verbDone_changes _ _ _ _ _) (by decide)
      · exact OnlyChanges.refl _ _
    · refine OnlyChanges.step ?_ (State.resendAll_changes _) (by decide)
      · refine OnlyChanges.step ?_ (State.verbDrains_changes _ _) (by decide)
        · exact h4

theorem execDescriptorComplete_changes (c : CtxNo) (s : State) : ∃ t, (execDescriptorComplete c s) = .next t ∧ OnlyChanges [.chans, .tally, .ctxs, .readyQ, .faults, .frames, .snap, .recd, .fabric, .spine, .ports] s t := by
  refine ⟨_, rfl, ?_⟩
  refine OnlyChanges.step ?_ (State.completeStep_changes _ _) (by decide)
  · exact OnlyChanges.refl _ _

theorem State.takeResponse_changes (s : State) (m : Msg) : OnlyChanges [.mboxes, .keeper, .fabric, .recd] s (State.takeResponse s m) := by
  unfold State.takeResponse
  split
  · exact OnlyChanges.refl _ _
  · extract_lets x7_0 x7_1
    refine OnlyChanges.step ?_ (State.relayNext_changes _ _) (by decide)
    · refine OnlyChanges.step ?_ (State.finishWith_changes _ _ _ _ _) (by decide)
      · exact OnlyChanges.refl _ _

theorem execKeeper_changes (l : Fin 18) (s : State) : ∃ t, (execKeeper l s) = .next t ∧ OnlyChanges [.fabric, .mboxes, .keeper, .recd] s t := by
  refine ⟨_, rfl, ?_⟩
  apply State.takeMsg_ho
  · decide
  · exact OnlyChanges.refl _ _
  · intro a2
    refine PairMay.ite ?_ ?_
    · refine PairMay.some ?_
      refine OnlyChanges.step ?_ (State.takeResponse_changes _ _) (by decide)
      · exact OnlyChanges.refl _ _
    · refine PairMay.ite ?_ ?_
      · refine PairMay.some ?_
        refine OnlyChanges.step ?_ (State.answer_changes _ _ _ _ _) (by decide)
        · exact OnlyChanges.refl _ _
      · refine PairMay.step ?_ (State.takeRelayed_changes _ _) (by decide)
        · exact OnlyChanges.refl _ _

theorem State.takeNotReady_changes (s : State) (m : Msg) : OnlyChanges [.fabric] s (State.takeNotReady s m) := by
  unfold State.takeNotReady
  extract_lets x2_0
  refine OnlyChanges.step ?_ (State.modPartner_changes _ _ _) (by decide)
  · exact OnlyChanges.refl _ _

theorem execNotReady_changes (l : Fin 18) (s : State) : ∃ t, (execNotReady l s) = .next t ∧ OnlyChanges [.fabric] s t := by
  refine ⟨_, rfl, ?_⟩
  apply State.takeMsg_ho
  · decide
  · exact OnlyChanges.refl _ _
  · intro a2
    refine PairMay.some ?_
    refine OnlyChanges.step ?_ (State.takeNotReady_changes _ _) (by decide)
    · exact OnlyChanges.refl _ _

theorem execPwrFrameDrainEnd_changes (o : Origin) (expired : Bool) (s : State) : ∃ t, (execPwrFrameDrainEnd o expired s) = .next t ∧ OnlyChanges [.mboxes, .keeper, .fabric, .recd, .chans, .tally, .ctxs, .readyQ, .frames] s t := by
  refine ⟨_, rfl, ?_⟩
  apply State.runDrained_ho
  · decide
  · exact OnlyChanges.refl _ _
  · intro a3
    extract_lets x4_0 x4_1
    have h6 : OnlyChanges [Part.mboxes, Part.keeper, Part.fabric, Part.recd, Part.chans, Part.tally, Part.ctxs, Part.readyQ, Part.frames] s x4_1 := by
      unfold x4_1
      refine OnlyChanges.foldl _ (fun t6 _ => ?_) _ _ ?_
      · refine OnlyChanges.step ?_ (State.driveFrame_changes _ _) (by decide)
        · exact OnlyChanges.refl _ _
      · exact OnlyChanges.refl _ _
    refine OnlyChanges.ite ?_ ?_
    · refine OnlyChanges.step ?_ (State.verbDone_changes _ _ _ _ _) (by decide)
      · exact h6
    · refine OnlyChanges.ite ?_ ?_
      · refine OnlyChanges.step ?_ (State.verbDone_changes _ _ _ _ _) (by decide)
        · exact h6
      · exact h6

theorem execFetReq_changes (p : Fin 256) (s : State) : ∃ t, (execFetReq p s) = .next t ∧ OnlyChanges [.ports, .ctxs, .frames] s t := by
  refine ⟨_, rfl, ?_⟩
  extract_lets x2_0 x2_1
  refine OnlyChanges.ite ?_ ?_
  · exact OnlyChanges.refl _ _
  · split
    · exact OnlyChanges.refl _ _
    · extract_lets x13_0 x13_1
      refine OnlyChanges.step ?_ (State.setPort_changes _ _ _) (by decide)
      · refine OnlyChanges.step ?_ (State.modWork_changes _ _ _ _) (by decide)
        · refine OnlyChanges.step ?_ (State.claimSlot_changes _ _ _ _ _) (by decide)
          · exact OnlyChanges.refl _ _

theorem execReceiverRequestDrop_changes (chip : ChipNo) (s : State) : ∃ t, (execReceiverRequestDrop chip s) = .next t ∧ OnlyChanges [.fabric, .frames] s t := by
  refine ⟨_, rfl, ?_⟩
  extract_lets x2_0 x2_1
  split
  · extract_lets x9_0 x9_1
    have h11 : OnlyChanges [Part.fabric, Part.frames] s x9_0 := by
      unfold x9_0
      refine OnlyChanges.step ?_ (State.modFrame_changes _ _ _) (by decide)
      · refine OnlyChanges.step ?_ (State.dropFabSlot_changes _ _) (by decide)
        · exact OnlyChanges.refl _ _
    refine OnlyChanges.ite ?_ ?_
    · refine OnlyChanges.step ?_ (State.freeCredit_changes _ _) (by decide)
      · exact h11
    · refine OnlyChanges.step ?_ (State.setRxGroup_changes _ _ _ _) (by decide)
      · exact h11
  · split
    · refine OnlyChanges.step ?_ (State.freeCredit_changes _ _) (by decide)
      · refine OnlyChanges.step ?_ (State.bufSettle_changes _ _) (by decide)
        · refine OnlyChanges.step ?_ (State.modLink_changes _ _ _) (by decide)
          · exact OnlyChanges.refl _ _
    · split
      · refine OnlyChanges.step ?_ (State.dropLid_changes _ _ _) (by decide)
        · exact OnlyChanges.refl _ _
      · exact OnlyChanges.refl _ _

theorem execCreditReturnTimer_changes (chip : ChipNo) (s : State) : ∃ t, (execCreditReturnTimer chip s) = .next t ∧ OnlyChanges [.fabric] s t := by
  refine ⟨_, rfl, ?_⟩
  refine OnlyChanges.step ?_ (State.returnCredits_changes _ _) (by decide)
  · exact OnlyChanges.refl _ _

theorem execLinkTrained_changes (l : Fin 18) (lanes : BitVec 8) (rates : BitVec 16) (s : State) : ∃ t, (execLinkTrained l lanes rates s) = .next t ∧ OnlyChanges [.faults, .frames, .snap, .recd, .fabric] s t := by
  refine ⟨_, rfl, ?_⟩
  extract_lets x4_0 x4_1 x4_2
  refine OnlyChanges.ite ?_ ?_
  · refine OnlyChanges.step ?_ (State.raise_changes _ _) (by decide)
    · exact OnlyChanges.refl _ _
  · refine OnlyChanges.ite ?_ ?_
    · refine OnlyChanges.step ?_ (State.setLink_changes _ _ _) (by decide)
      · exact OnlyChanges.refl _ _
    · exact OnlyChanges.refl _ _

theorem execStackMapRead_changes (s : State) : ∃ t, (execStackMapRead s) = .next t ∧ OnlyChanges [.keeper, .faults, .frames, .snap, .recd] s t := by
  refine ⟨_, rfl, ?_⟩
  extract_lets x1_0 x1_1
  have h3 : OnlyChanges [Part.keeper, Part.faults, Part.frames, Part.snap, Part.recd] s x1_1 := by
    unfold x1_1
    refine OnlyChanges.foldl _ (fun t3 _ => ?_) _ _ ?_
    · split
      · exact OnlyChanges.refl _ _
      · refine OnlyChanges.ite ?_ ?_
        · refine OnlyChanges.step ?_ (State.raise_changes _ _) (by decide)
          · exact OnlyChanges.refl _ _
        · refine OnlyChanges.step ?_ (State.modKeeper_changes _ _) (by decide)
          · exact OnlyChanges.refl _ _
    · exact OnlyChanges.refl _ _
  refine OnlyChanges.ite ?_ ?_
  · exact OnlyChanges.refl _ _
  · refine OnlyChanges.step ?_ (State.modKeeper_changes _ _) (by decide)
    · exact h3

theorem execNop_changes (ch : Fin 1024) (s : State) : ∃ t, (execNop ch s) = .next t ∧ OnlyChanges [.ctxs] s t := by
  refine ⟨_, rfl, ?_⟩
  split
  · exact OnlyChanges.refl _ _
  · refine OnlyChanges.ite ?_ ?_
    · exact OnlyChanges.refl _ _
    · refine OnlyChanges.step ?_ (State.modCtx_changes _ _ _) (by decide)
      · exact OnlyChanges.refl _ _

theorem execDescriptorFetchReturn_changes (ch : Fin 1024) (data : Bytes) (fail : Bool) (s : State) : ∃ t, (execDescriptorFetchReturn ch data fail s) = .next t ∧ OnlyChanges [.ctxs, .chans, .tally, .readyQ, .faults, .frames, .snap, .recd, .xlate, .nextId, .taps, .fabric] s t := by
  refine ⟨_, rfl, ?_⟩
  extract_lets x4_0
  split
  · exact OnlyChanges.refl _ _
  · extract_lets x10_0 x10_1
    refine OnlyChanges.ite ?_ ?_
    · exact OnlyChanges.refl _ _
    · apply State.withRing_ho
      · decide
      · exact OnlyChanges.refl _ _
      · intro a12
        intro a13
        intro a14
        split
        · refine OnlyChanges.step ?_ (State.poolQueue_changes _ _ _) (by decide)
          · exact a14
        · extract_lets x20_0
          have h21 : OnlyChanges [Part.ctxs, Part.chans, Part.tally, Part.readyQ, Part.faults, Part.frames, Part.snap, Part.recd, Part.xlate, Part.nextId, Part.taps, Part.fabric] s x20_0 := by
            unfold x20_0
            refine OnlyChanges.step ?_ (State.modCtx_changes _ _ _) (by decide)
            · refine MayChange.get (State.ringRead_changes _ _ _ _ _ _) (by assumption) ?_ (by decide)
              exact a14
          refine OnlyChanges.ite ?_ ?_
          · refine OnlyChanges.step ?_ (State.ringBusError_changes _ _ _ _ _) (by decide)
            · refine MayChange.get (State.ringRead_changes _ _ _ _ _ _) (by assumption) ?_ (by decide)
              exact a14
          · refine OnlyChanges.ite ?_ ?_
            · refine OnlyChanges.step ?_ (State.modCtx_changes _ _ _) (by decide)
              · exact h21
            · exact h21

theorem execEpRelease_changes (w : BitVec 32) (s : State) : ∃ t, (execEpRelease w s) = .next t ∧ OnlyChanges [.faults] s t := by
  refine ⟨_, rfl, ?_⟩
  refine OnlyChanges.ite ?_ ?_
  · refine OnlyChanges.step ?_ (State.pinWrite_changes _ _) (by decide)
    · exact OnlyChanges.refl _ _
  · exact OnlyChanges.refl _ _

theorem execKeeperReset_changes (w : BitVec 32) (s : State) : ∃ t, (execKeeperReset w s) = .next t ∧ OnlyChanges [.keeper, .fabric, .xlate, .ftest, .frames, .ctxs, .swarms, .faults, .sec, .power, .snap, .recd, .free] s t := by
  refine ⟨_, rfl, ?_⟩
  refine OnlyChanges.ite ?_ ?_
  · refine OnlyChanges.step ?_ (State.kcWrite_changes _ _) (by decide)
    · exact OnlyChanges.refl _ _
  · exact OnlyChanges.refl _ _

theorem execPwrWake_changes (w : BitVec 32) (s : State) : ∃ t, (execPwrWake w s) = .next t ∧ OnlyChanges [.power] s t := by
  refine ⟨_, rfl, ?_⟩
  refine OnlyChanges.ite ?_ ?_
  · refine OnlyChanges.step ?_ (State.wake_changes _ _) (by decide)
    · exact OnlyChanges.refl _ _
  · exact OnlyChanges.refl _ _

theorem execRemoteTimeout_changes (chip : ChipNo) (kind : RemoteKind) (tag : BitVec 10) (s : State) : ∃ t, (execRemoteTimeout chip kind tag s) = .next t ∧ OnlyChanges [.frames, .fabric, .ctxs] s t := by
  refine ⟨_, rfl, ?_⟩
  extract_lets x4_0 x4_1
  have h6 : OnlyChanges [Part.frames, Part.fabric, Part.ctxs] s x4_1 := by
    unfold x4_1
    refine OnlyChanges.foldl _ (fun t6 _ => ?_) _ _ ?_
    · refine OnlyChanges.step ?_ (State.failGroup_changes _ _ _ _ _) (by decide)
      · exact OnlyChanges.refl _ _
    · exact OnlyChanges.refl _ _
  split
  · refine OnlyChanges.ite ?_ ?_
    · refine OnlyChanges.step ?_ (State.failGroup_changes _ _ _ _ _) (by decide)
      · exact OnlyChanges.refl _ _
    · exact OnlyChanges.refl _ _
  · refine OnlyChanges.ite ?_ ?_
    · refine OnlyChanges.step ?_ (State.failRead_changes _ _ _ _ _) (by decide)
      · exact OnlyChanges.refl _ _
    · exact OnlyChanges.refl _ _
  · refine OnlyChanges.ite ?_ ?_
    · exact OnlyChanges.refl _ _
    · refine OnlyChanges.foldl _ (fun t8 _ => ?_) _ _ ?_
      · refine OnlyChanges.step ?_ (State.failRead_changes _ _ _ _ _) (by decide)
        · exact OnlyChanges.refl _ _
      · exact h6

theorem execLogFlush_changes (o : Origin) (s : State) : ∃ t, (execLogFlush o s) = .next t ∧ OnlyChanges [.mboxes, .keeper, .fabric, .recd] s t := by
  refine ⟨_, rfl, ?_⟩
  extract_lets x2_0
  have h3 : OnlyChanges [Part.mboxes, Part.keeper, Part.fabric, Part.recd] s x2_0 := by
    unfold x2_0
    refine OnlyChanges.step ?_ (State.modVerb_changes _ _ _) (by decide)
    · exact OnlyChanges.refl _ _
  apply State.runVerb_ho
  · decide
  · exact OnlyChanges.refl _ _
  · intro a4
    refine OnlyChanges.ite ?_ ?_
    · refine OnlyChanges.step ?_ (State.flushVerbs_changes _) (by decide)
      · exact h3
    · refine OnlyChanges.step ?_ (State.askFlush_changes _) (by decide)
      · exact h3

theorem State.abandoned_changes (s : State) (m : Msg) : OnlyChanges [.fabric, .frames] s (State.abandoned s m) := by
  unfold State.abandoned
  extract_lets x2_0 x2_1 x2_2 x2_3 x2_4
  have h7 : OnlyChanges [Part.fabric, Part.frames] s x2_0 := by
    unfold x2_0
    refine OnlyChanges.step ?_ (State.dropLid_changes _ _ _) (by decide)
    · exact OnlyChanges.refl _ _
  have h8 : OnlyChanges [Part.fabric, Part.frames] s x2_4 := by
    unfold x2_4
    refine OnlyChanges.foldl _ (fun t8 _ => ?_) _ _ ?_
    · refine OnlyChanges.step ?_ (State.dropFabSlot_changes _ _) (by decide)
      · exact OnlyChanges.refl _ _
    · exact h7
  refine OnlyChanges.ite ?_ ?_
  · exact OnlyChanges.refl _ _
  · refine OnlyChanges.step ?_ (State.setRxGroup_changes _ _ _ _) (by decide)
    · refine OnlyChanges.step ?_ (State.modFrame_changes _ _ _) (by decide)
      · exact h8

theorem execAbandon_changes (l : Fin 18) (s : State) : ∃ t, (execAbandon l s) = .next t ∧ OnlyChanges [.fabric, .frames] s t := by
  refine ⟨_, rfl, ?_⟩
  apply State.takeMsg_ho
  · decide
  · exact OnlyChanges.refl _ _
  · intro a2
    refine PairMay.some ?_
    refine OnlyChanges.step ?_ (State.abandoned_changes _ _) (by decide)
    · exact OnlyChanges.refl _ _

theorem execFwLoad_changes (o : Origin) (s : State) : ∃ t, (execFwLoad o s) = .next t ∧ OnlyChanges [.mboxes, .keeper, .fabric, .recd] s t := by
  refine ⟨_, rfl, ?_⟩
  apply State.runVerb_ho
  · decide
  · exact OnlyChanges.refl _ _
  · intro a2
    extract_lets x3_0 x3_1
    refine OnlyChanges.ite ?_ ?_
    · refine OnlyChanges.step ?_ (State.verbDone_changes _ _ _ _ _) (by decide)
      · exact OnlyChanges.refl _ _
    · refine OnlyChanges.ite ?_ ?_
      · exact OnlyChanges.refl _ _
      · apply State.withStruct_ho
        · decide
        · exact OnlyChanges.refl _ _
        · intro a5
          extract_lets x6_0
          split
          · refine OnlyChanges.step ?_ (State.verbDone_changes _ _ _ _ _) (by decide)
            · exact OnlyChanges.refl _ _
          · refine OnlyChanges.step ?_ (State.verbDone_changes _ _ _ _ _) (by decide)
            · refine OnlyChanges.step ?_ (State.modKeeper_changes _ _) (by decide)
              · exact OnlyChanges.refl _ _

theorem State.stopWork_changes (s : State) (c : CtxNo) (k : StopCause) (id : ℕ) : OnlyChanges [.ctxs, .frames, .fabric, .recd] s (State.stopWork s c k id) := by
  unfold State.stopWork
  extract_lets x4_0
  split
  · exact OnlyChanges.refl _ _
  · extract_lets x10_0
    have h11 : OnlyChanges [Part.ctxs, Part.frames, Part.fabric, Part.recd] s x10_0 := by
      unfold x10_0
      refine OnlyChanges.step ?_ (State.noteFailure_changes _ _ _ _ _) (by decide)
      · exact OnlyChanges.refl _ _
    refine OnlyChanges.ite ?_ ?_
    · refine OnlyChanges.step ?_ (State.modCtx_changes _ _ _) (by decide)
      · exact OnlyChanges.refl _ _
    · refine OnlyChanges.ite ?_ ?_
      · refine OnlyChanges.step ?_ (State.modCtx_changes _ _ _) (by decide)
        · exact h11
      · refine OnlyChanges.ite ?_ ?_
        · exact OnlyChanges.refl _ _
        · refine OnlyChanges.step ?_ (State.endWork_changes _ _ _ _ _) (by decide)
          · exact OnlyChanges.refl _ _

theorem State.stopCtx_changes (s : State) (c : CtxNo) (k : StopCause) : OnlyChanges [.chans, .tally, .ctxs, .readyQ, .frames, .fabric, .recd] s (State.stopCtx s c k) := by
  unfold State.stopCtx
  extract_lets x3_0 x3_1 x3_2 x3_3
  have h7 : OnlyChanges [Part.chans, Part.tally, Part.ctxs, Part.readyQ, Part.frames, Part.fabric, Part.recd] s x3_0 := by
    unfold x3_0
    refine OnlyChanges.foldl _ (fun t7 _ => ?_) _ _ ?_
    · refine OnlyChanges.step ?_ (State.stopWork_changes _ _ _ _) (by decide)
      · exact OnlyChanges.refl _ _
    · exact OnlyChanges.refl _ _
  have h8 : OnlyChanges [Part.chans, Part.tally, Part.ctxs, Part.readyQ, Part.frames, Part.fabric, Part.recd] s x3_2 := by
    unfold x3_2
    refine OnlyChanges.ite ?_ ?_
    · refine OnlyChanges.step ?_ (State.disarm_changes _ _) (by decide)
      · exact h7
    · exact h7
  have h9 : OnlyChanges [Part.chans, Part.tally, Part.ctxs, Part.readyQ, Part.frames, Part.fabric, Part.recd] s x3_3 := by
    unfold x3_3
    refine OnlyChanges.ite ?_ ?_
    · exact h8
    · refine OnlyChanges.ite ?_ ?_
      · refine OnlyChanges.step ?_ (State.modCtx_changes _ _ _) (by decide)
        · refine OnlyChanges.step ?_ (State.toState_changes _ _ _) (by decide)
          · exact h8
      · refine OnlyChanges.step ?_ (State.toState_changes _ _ _) (by decide)
        · exact h8
  refine OnlyChanges.step ?_ (State.unbind_changes _ _) (by decide)
  · exact h9

theorem State.dropSpine_changes (s : State) (f : ℕ) : OnlyChanges [.spine, .ports, .ctxs] s (State.dropSpine s f) := by
  unfold State.dropSpine
  extract_lets x2_0 x2_1
  have h4 : OnlyChanges [Part.spine, Part.ports, Part.ctxs] s x2_1 := by
    unfold x2_1
    refine OnlyChanges.put_spine _ ?_ (by decide)
    exact OnlyChanges.refl _ _
  refine OnlyChanges.foldl _ (fun t5 _ => ?_) _ _ ?_
  · refine OnlyChanges.foldl _ (fun t7 _ => ?_) _ _ ?_
    · refine OnlyChanges.step ?_ (State.dropCrossing_changes _ _ _) (by decide)
      · exact OnlyChanges.refl _ _
    · exact OnlyChanges.refl _ _
  · exact h4

theorem State.frameStopped_changes (s : State) (f : ℕ) : OnlyChanges [.fabric, .frames, .faults, .snap, .recd, .chans, .tally, .ctxs, .readyQ, .xlate, .spine, .ports] s (State.frameStopped s f) := by
  unfold State.frameStopped
  extract_lets x2_0 x2_1 x2_2 x2_3 x2_4 x2_5 x2_6 x2_7 x2_8 x2_9 x2_10
  have h13 : OnlyChanges [Part.fabric, Part.frames, Part.faults, Part.snap, Part.recd, Part.chans, Part.tally, Part.ctxs, Part.readyQ, Part.xlate, Part.spine, Part.ports] s x2_4 := by
    unfold x2_4
    refine OnlyChanges.step ?_ (State.refuseFrame_changes _ _) (by decide)
    · exact OnlyChanges.refl _ _
  have h14 : OnlyChanges [Part.fabric, Part.frames, Part.faults, Part.snap, Part.recd, Part.chans, Part.tally, Part.ctxs, Part.readyQ, Part.xlate, Part.spine, Part.ports] s x2_5 := by
    unfold x2_5
    refine OnlyChanges.step ?_ (State.modFrame_changes _ _ _) (by decide)
    · exact h13
  have h15 : OnlyChanges [Part.fabric, Part.frames, Part.faults, Part.snap, Part.recd, Part.chans, Part.tally, Part.ctxs, Part.readyQ, Part.xlate, Part.spine, Part.ports] s x2_6 := by
    unfold x2_6
    refine OnlyChanges.foldl _ (fun t15 _ => ?_) _ _ ?_
    · refine OnlyChanges.step ?_ (State.modCtx_changes _ _ _) (by decide)
      · exact OnlyChanges.refl _ _
    · exact h14
  have h16 : OnlyChanges [Part.fabric, Part.frames, Part.faults, Part.snap, Part.recd, Part.chans, Part.tally, Part.ctxs, Part.readyQ, Part.xlate, Part.spine, Part.ports] s x2_7 := by
    unfold x2_7
    refine OnlyChanges.step ?_ (State.modXlate_changes _ _) (by decide)
    · exact h15
  have h17 : OnlyChanges [Part.fabric, Part.frames, Part.faults, Part.snap, Part.recd, Part.chans, Part.tally, Part.ctxs, Part.readyQ, Part.xlate, Part.spine, Part.ports] s x2_8 := by
    unfold x2_8
    refine OnlyChanges.step ?_ (State.dropSpine_changes _ _) (by decide)
    · exact h16
  have h18 : OnlyChanges [Part.fabric, Part.frames, Part.faults, Part.snap, Part.recd, Part.chans, Part.tally, Part.ctxs, Part.readyQ, Part.xlate, Part.spine, Part.ports] s x2_10 := by
    unfold x2_10
    split
    · refine OnlyChanges.step ?_ (State.modFrame_changes _ _ _) (by decide)
      · exact h17
    · refine OnlyChanges.step ?_ (State.modFrame_changes _ _ _) (by decide)
      · exact h17
  refine OnlyChanges.foldl _ (fun t19 _ => ?_) _ _ ?_
  · refine OnlyChanges.step ?_ (State.stopCtx_changes _ _ _) (by decide)
    · exact OnlyChanges.refl _ _
  · exact h18

theorem execFrameStopDrainEnd_changes (f : Fin 16) (s : State) : ∃ t, (execFrameStopDrainEnd f s) = .next t ∧ OnlyChanges [.fabric, .frames, .faults, .snap, .recd, .chans, .tally, .ctxs, .readyQ, .xlate, .spine, .ports] s t := by
  refine ⟨_, rfl, ?_⟩
  refine OnlyChanges.ite ?_ ?_
  · refine OnlyChanges.step ?_ (State.frameStopped_changes _ _) (by decide)
    · exact OnlyChanges.refl _ _
  · exact OnlyChanges.refl _ _

theorem State.digestFault_changes (s : State) (t : Tenant) (a : DigestItem) : OnlyChanges [.faults, .frames, .snap, .recd] s (State.digestFault s t a) := by
  unfold State.digestFault
  split
  · exact OnlyChanges.refl _ _
  · refine OnlyChanges.step ?_ (State.raiseWith_changes _ _ _ _) (by decide)
    · exact OnlyChanges.refl _ _

theorem State.levelFaults_changes (s : State) (t : Tenant) (rd : ℕ → ℕ) (xs : List (ℕ × ℕ × ℕ)) : OnlyChanges [.frames, .faults, .snap, .recd] s (State.levelFaults s t rd xs) := by
  unfold State.levelFaults
  refine OnlyChanges.foldl _ (fun t4 _ => ?_) _ _ ?_
  · refine OnlyChanges.foldl _ (fun t6 _ => ?_) _ _ ?_
    · extract_lets x8_0
      split
      · refine OnlyChanges.step ?_ (State.digestFault_changes _ _ _) (by decide)
        · exact OnlyChanges.refl _ _
      · exact OnlyChanges.refl _ _
    · exact OnlyChanges.refl _ _
  · exact OnlyChanges.refl _ _

theorem State.digestLevel_changes (s : State) (o : Origin) (v : VerbProg) (t : Tenant) (rd : ℕ → ℕ) (lvl : ℕ) (xs : List (ℕ × ℕ × ℕ)) : OnlyChanges [.keeper, .frames, .faults, .snap, .recd] s (State.digestLevel s o v t rd lvl xs) := by
  unfold State.digestLevel
  refine OnlyChanges.ite ?_ ?_
  · refine OnlyChanges.step ?_ (State.modVerb_changes _ _ _) (by decide)
    · refine OnlyChanges.step ?_ (State.levelFaults_changes _ _ _ _) (by decide)
      · exact OnlyChanges.refl _ _
  · exact OnlyChanges.refl _ _

theorem execMapDigest_changes (o : Origin) (s : State) : ∃ t, (execMapDigest o s) = .next t ∧ OnlyChanges [.keeper, .mboxes, .fabric, .recd, .faults, .frames, .snap] s t := by
  refine ⟨_, rfl, ?_⟩
  extract_lets x2_0
  apply State.runVerb_ho
  · decide
  · exact OnlyChanges.refl _ _
  · intro a3
    extract_lets x4_0 x4_1 x4_2 x4_3
    split
    · refine OnlyChanges.step ?_ (State.verbDone_changes _ _ _ _ _) (by decide)
      · exact OnlyChanges.refl _ _
    · extract_lets x13_0 x13_1 x13_2 x13_3 x13_4 x13_5 x13_6
      have h20 : OnlyChanges [Part.keeper, Part.mboxes, Part.fabric, Part.recd, Part.faults, Part.frames, Part.snap] s x13_1 := by
        unfold x13_1
        refine OnlyChanges.step ?_ (State.digestLevel_changes _ _ _ _ _ _ _) (by decide)
        · exact OnlyChanges.refl _ _
      have h21 : OnlyChanges [Part.keeper, Part.mboxes, Part.fabric, Part.recd, Part.faults, Part.frames, Part.snap] s x13_3 := by
        unfold x13_3
        refine OnlyChanges.step ?_ (State.digestLevel_changes _ _ _ _ _ _ _) (by decide)
        · exact h20
      have h22 : OnlyChanges [Part.keeper, Part.mboxes, Part.fabric, Part.recd, Part.faults, Part.frames, Part.snap] s x13_5 := by
        unfold x13_5
        refine OnlyChanges.step ?_ (State.digestLevel_changes _ _ _ _ _ _ _) (by decide)
        · exact h21
      refine OnlyChanges.ite ?_ ?_
      · refine OnlyChanges.step ?_ (State.verbDone_changes _ _ _ _ _) (by decide)
        · exact OnlyChanges.refl _ _
      · refine OnlyChanges.ite ?_ ?_
        · refine OnlyChanges.step ?_ (State.verbDone_changes _ _ _ _ _) (by decide)
          · exact OnlyChanges.refl _ _
        · refine OnlyChanges.ite ?_ ?_
          · refine OnlyChanges.step ?_ (State.verbDone_changes _ _ _ _ _) (by decide)
            · exact OnlyChanges.refl _ _
          · refine OnlyChanges.ite ?_ ?_
            · unfold x2_0
              refine OnlyChanges.foldl _ (fun t23 _ => ?_) _ _ ?_
              · refine OnlyChanges.step ?_ (State.askBytes_changes _ _ _ _) (by decide)
                · exact OnlyChanges.refl _ _
              · exact OnlyChanges.refl _ _
            · refine OnlyChanges.ite ?_ ?_
              · unfold x2_0
                refine OnlyChanges.foldl _ (fun t23 _ => ?_) _ _ ?_
                · refine OnlyChanges.step ?_ (State.askBytes_changes _ _ _ _) (by decide)
                  · exact OnlyChanges.refl _ _
                · exact h20
              · refine OnlyChanges.ite ?_ ?_
                · unfold x2_0
                  refine OnlyChanges.foldl _ (fun t23 _ => ?_) _ _ ?_
                  · refine OnlyChanges.step ?_ (State.askBytes_changes _ _ _ _) (by decide)
                    · exact OnlyChanges.refl _ _
                  · exact h21
                · refine OnlyChanges.step ?_ (State.verbDone_changes _ _ _ _ _) (by decide)
                  · exact h22

theorem execSnapIn_changes (s : State) : ∃ t, (execSnapIn s) = .next t ∧ OnlyChanges [.snap] s t := by
  refine ⟨_, rfl, ?_⟩
  refine OnlyChanges.ite ?_ ?_
  · refine OnlyChanges.step ?_ (State.snapTrigger_changes _ _) (by decide)
    · exact OnlyChanges.refl _ _
  · exact OnlyChanges.refl _ _

theorem execWaggleRepeat_changes (l : Fin 18) (s : State) : ∃ t, (execWaggleRepeat l s) = .next t ∧ OnlyChanges [.fabric] s t := by
  refine ⟨_, rfl, ?_⟩
  extract_lets x2_0
  refine OnlyChanges.ite ?_ ?_
  · refine OnlyChanges.step ?_ (State.modLink_changes _ _ _) (by decide)
    · exact OnlyChanges.refl _ _
  · exact OnlyChanges.refl _ _

theorem execFlushStart_changes (s : State) : ∃ t, (execFlushStart s) = .next t ∧ OnlyChanges [.recd] s t := by
  refine ⟨_, rfl, ?_⟩
  extract_lets x1_0 x1_1 x1_2 x1_3
  refine OnlyChanges.ite ?_ ?_
  · exact OnlyChanges.refl _ _
  · refine OnlyChanges.ite ?_ ?_
    · refine OnlyChanges.step ?_ (State.modRecd_changes _ _) (by decide)
      · exact OnlyChanges.refl _ _
    · refine OnlyChanges.ite ?_ ?_
      · exact OnlyChanges.refl _ _
      · refine OnlyChanges.step ?_ (State.modRecd_changes _ _) (by decide)
        · exact OnlyChanges.refl _ _

theorem execTenantClose_changes (o : Origin) (s : State) : ∃ t, (execTenantClose o s) = .next t ∧ OnlyChanges [.mboxes, .keeper, .fabric, .recd, .frames, .xlate] s t := by
  refine ⟨_, rfl, ?_⟩
  apply State.runVerb_ho
  · decide
  · exact OnlyChanges.refl _ _
  · intro a2
    extract_lets x3_0
    refine OnlyChanges.ite ?_ ?_
    · refine OnlyChanges.step ?_ (State.verbDone_changes _ _ _ _ _) (by decide)
      · exact OnlyChanges.refl _ _
    · refine OnlyChanges.ite ?_ ?_
      · refine OnlyChanges.step ?_ (State.verbDone_changes _ _ _ _ _) (by decide)
        · exact OnlyChanges.refl _ _
      · refine OnlyChanges.step ?_ (State.askInval_changes _ _) (by decide)
        · exact OnlyChanges.refl _ _

theorem execWaggleRetry_changes (l : Fin 18) (s : State) : ∃ t, (execWaggleRetry l s) = .next t ∧ OnlyChanges [.fabric] s t := by
  refine ⟨_, rfl, ?_⟩
  extract_lets x2_0
  refine OnlyChanges.ite ?_ ?_
  · refine OnlyChanges.step ?_ (State.setLink_changes _ _ _) (by decide)
    · exact OnlyChanges.refl _ _
  · exact OnlyChanges.refl _ _

theorem execSupplyWarning_changes (src : Supply) (s : State) : ∃ t, (execSupplyWarning src s) = .next t ∧ OnlyChanges [.power, .telem] s t := by
  refine ⟨_, rfl, ?_⟩
  refine OnlyChanges.foldl _ (fun t2 _ => ?_) _ _ ?_
  · refine OnlyChanges.step ?_ (State.setLevel_changes _ _ _) (by decide)
    · exact OnlyChanges.refl _ _
  · refine OnlyChanges.step ?_ (State.report_changes _ _ _ _) (by decide)
    · exact OnlyChanges.refl _ _

theorem State.writeLost_changes (s : State) (e : WEntry) : OnlyChanges [.ctxs, .frames, .fabric, .faults, .snap, .recd] s (State.writeLost s e) := by
  unfold State.writeLost
  split
  · refine OnlyChanges.step ?_ (State.writeFailed_changes _ _) (by decide)
    · exact OnlyChanges.refl _ _
  · refine OnlyChanges.step ?_ (State.writeLanded_changes _ _) (by decide)
    · exact OnlyChanges.refl _ _

theorem execResponseLostTimeout_changes (f : Fin 16) (s : State) : ∃ t, (execResponseLostTimeout f s) = .next t ∧ OnlyChanges [.ports, .frames, .ctxs, .fabric, .faults, .snap, .recd] s t := by
  refine ⟨_, rfl, ?_⟩
  extract_lets x2_0 x2_1 x2_2
  have h5 : OnlyChanges [Part.ports, Part.frames, Part.ctxs, Part.fabric, Part.faults, Part.snap, Part.recd] s x2_1 := by
    unfold x2_1
    refine OnlyChanges.step ?_ (State.modFrame_changes _ _ _) (by decide)
    · exact OnlyChanges.refl _ _
  have h6 : OnlyChanges [Part.ports, Part.frames, Part.ctxs, Part.fabric, Part.faults, Part.snap, Part.recd] s x2_2 := by
    unfold x2_2
    refine OnlyChanges.foldl _ (fun t6 _ => ?_) _ _ ?_
    · refine OnlyChanges.step ?_ (State.writeLost_changes _ _) (by decide)
      · exact OnlyChanges.refl _ _
    · exact h5
  refine OnlyChanges.ite ?_ ?_
  · exact OnlyChanges.refl _ _
  · refine OnlyChanges.put_ports _ ?_ (by decide)
    exact h6

theorem execWinClear_changes (o : Origin) (s : State) : ∃ t, (execWinClear o s) = .next t ∧ OnlyChanges [.keeper, .mboxes, .fabric, .recd, .frames, .xlate] s t := by
  refine ⟨_, rfl, ?_⟩
  apply State.runVerb_ho
  · decide
  · exact OnlyChanges.refl _ _
  · intro a2
    extract_lets x3_0 x3_1 x3_2
    refine OnlyChanges.ite ?_ ?_
    · refine OnlyChanges.step ?_ (State.verbDone_changes _ _ _ _ _) (by decide)
      · exact OnlyChanges.refl _ _
    · refine OnlyChanges.step ?_ (State.verbDrains_changes _ _) (by decide)
      · refine OnlyChanges.step ?_ (State.dropLeaves_changes _ _) (by decide)
        · refine OnlyChanges.step ?_ (State.discardWalks_changes _ _) (by decide)
          · refine OnlyChanges.step ?_ (State.modXlate_changes _ _) (by decide)
            · exact OnlyChanges.refl _ _

theorem execKnockNarrow_changes (off : BitVec 24) (strobe : BitVec 8) (s : State) : ∃ t, (execKnockNarrow off strobe s) = .next t ∧ OnlyChanges [.regs, .faults, .frames, .snap, .recd] s t := by
  refine ⟨_, rfl, ?_⟩
  extract_lets x3_0
  refine OnlyChanges.ite ?_ ?_
  · exact OnlyChanges.refl _ _
  · refine OnlyChanges.step ?_ (State.cpFault_changes _ _ _) (by decide)
    · refine OnlyChanges.step ?_ (State.narrowKnock_changes _) (by decide)
      · exact OnlyChanges.refl _ _

theorem execPwrRetAck_changes (d : Fin 48) (up : Bool) (s : State) : ∃ t, (execPwrRetAck d up s) = .next t ∧ OnlyChanges [.power, .frames, .keeper, .recd, .faults, .sec, .snap, .free] s t := by
  refine ⟨_, rfl, ?_⟩
  extract_lets x3_0 x3_1 x3_2
  refine OnlyChanges.ite ?_ ?_
  · refine OnlyChanges.step ?_ (State.settlePower_changes _) (by decide)
    · refine OnlyChanges.put_power _ ?_ (by decide)
      exact OnlyChanges.refl _ _
  · refine OnlyChanges.ite ?_ ?_
    · refine OnlyChanges.step ?_ (State.settlePower_changes _) (by decide)
      · refine OnlyChanges.put_power _ ?_ (by decide)
        exact OnlyChanges.refl _ _
    · exact OnlyChanges.refl _ _

theorem State.damageRecord_changes (s : State) (c : CtxNo) (word : ℕ) (access : ℕ) : OnlyChanges [.chans, .tally, .ctxs, .readyQ, .faults, .frames, .snap, .recd, .fabric] s (State.damageRecord s c word access) := by
  unfold State.damageRecord
  extract_lets x4_0 x4_1 x4_2
  have h7 : OnlyChanges [Part.chans, Part.tally, Part.ctxs, Part.readyQ, Part.faults, Part.frames, Part.snap, Part.recd, Part.fabric] s x4_1 := by
    unfold x4_1
    refine OnlyChanges.step ?_ (State.raise_changes _ _) (by decide)
    · exact OnlyChanges.refl _ _
  have h8 : OnlyChanges [Part.chans, Part.tally, Part.ctxs, Part.readyQ, Part.faults, Part.frames, Part.snap, Part.recd, Part.fabric] s x4_2 := by
    unfold x4_2
    refine OnlyChanges.step ?_ (State.modCtx_changes _ _ _) (by decide)
    · exact h7
  refine OnlyChanges.ite ?_ ?_
  · exact h7
  · refine OnlyChanges.step ?_ (State.stopIfDone_changes _ _) (by decide)
    · refine OnlyChanges.foldl _ (fun t9 _ => ?_) _ _ ?_
      · refine OnlyChanges.step ?_ (State.endWork_changes _ _ _ _ _) (by decide)
        · exact OnlyChanges.refl _ _
      · exact h8

theorem State.recordFixed_changes (s : State) (c : CtxNo) (word : ℕ) (access : ℕ) : OnlyChanges [.faults, .frames, .snap, .recd] s (State.recordFixed s c word access) := by
  unfold State.recordFixed
  refine OnlyChanges.step ?_ (State.raise_changes _ _) (by decide)
  · exact OnlyChanges.refl _ _

theorem execContextStoreScrub_changes (bank : Fin 8) (word : Fin 8) (ecc : Ecc) (s : State) : ∃ t, (execContextStoreScrub bank word ecc s) = .next t ∧ OnlyChanges [.power, .chans, .tally, .ctxs, .readyQ, .faults, .frames, .snap, .recd, .fabric] s t := by
  refine ⟨_, rfl, ?_⟩
  extract_lets x4_0 x4_1 x4_2 x4_3
  have h8 : OnlyChanges [Part.power, Part.chans, Part.tally, Part.ctxs, Part.readyQ, Part.faults, Part.frames, Part.snap, Part.recd, Part.fabric] s x4_3 := by
    unfold x4_3
    refine OnlyChanges.put_power _ ?_ (by decide)
    exact OnlyChanges.refl _ _
  refine OnlyChanges.ite ?_ ?_
  · exact OnlyChanges.refl _ _
  · split
    · exact h8
    · refine OnlyChanges.step ?_ (State.recordFixed_changes _ _ _ _) (by decide)
      · exact h8
    · refine OnlyChanges.step ?_ (State.damageRecord_changes _ _ _ _) (by decide)
      · exact h8

theorem execWrite_changes (l : Fin 18) (s : State) : ∃ t, (execWrite l s) = .next t ∧ OnlyChanges [.fabric, .frames, .faults, .snap, .recd, .nextId, .xlate] s t := by
  refine ⟨_, rfl, ?_⟩
  apply State.takeMsg_ho
  · decide
  · exact OnlyChanges.refl _ _
  · intro a2
    refine PairMay.step ?_ (State.serve_changes _ _) (by decide)
    · exact OnlyChanges.refl _ _

theorem execBarrierEnable_changes (b : Fin 64) (w : Word) (s : State) : ∃ t, (execBarrierEnable b w s) = .next t ∧ OnlyChanges [.tally, .power, .chans, .faults, .frames, .snap, .recd, .fabric] s t := by
  refine ⟨_, rfl, ?_⟩
  refine OnlyChanges.ite ?_ ?_
  · exact OnlyChanges.refl _ _
  · refine OnlyChanges.step ?_ (State.barWrite_changes _ _ _) (by decide)
    · exact OnlyChanges.refl _ _

theorem execSwarmOpen_changes (o : Origin) (s : State) : ∃ t, (execSwarmOpen o s) = .next t ∧ OnlyChanges [.mboxes, .keeper, .fabric, .recd, .swarms, .faults, .frames, .snap] s t := by
  refine ⟨_, rfl, ?_⟩
  extract_lets x2_0
  apply State.runVerb_ho
  · decide
  · exact OnlyChanges.refl _ _
  · intro a3
    extract_lets x4_0 x4_1 x4_2 x4_3 x4_4 x4_5 x4_6 x4_7
    refine OnlyChanges.ite ?_ ?_
    · refine OnlyChanges.step ?_ (State.verbDone_changes _ _ _ _ _) (by decide)
      · exact OnlyChanges.refl _ _
    · split
      · refine OnlyChanges.step ?_ (State.verbDone_changes _ _ _ _ _) (by decide)
        · exact OnlyChanges.refl _ _
      · refine OnlyChanges.ite ?_ ?_
        · refine OnlyChanges.step ?_ (State.verbDone_changes _ _ _ _ _) (by decide)
          · exact OnlyChanges.refl _ _
        · refine OnlyChanges.ite ?_ ?_
          · refine OnlyChanges.step ?_ (State.refuseTenant_changes _ _) (by decide)
            · exact OnlyChanges.refl _ _
          · refine OnlyChanges.ite ?_ ?_
            · refine OnlyChanges.step ?_ (State.verbDone_changes _ _ _ _ _) (by decide)
              · exact OnlyChanges.refl _ _
            · refine OnlyChanges.ite ?_ ?_
              · refine OnlyChanges.step ?_ (State.refuseTenant_changes _ _) (by decide)
                · exact OnlyChanges.refl _ _
              · refine OnlyChanges.ite ?_ ?_
                · refine OnlyChanges.step ?_ (State.verbDone_changes _ _ _ _ _) (by decide)
                  · exact OnlyChanges.refl _ _
                · refine OnlyChanges.ite ?_ ?_
                  · refine OnlyChanges.step ?_ (State.refuseTenant_changes _ _) (by decide)
                    · exact OnlyChanges.refl _ _
                  · refine OnlyChanges.ite ?_ ?_
                    · refine OnlyChanges.step ?_ (State.verbDone_changes _ _ _ _ _) (by decide)
                      · exact OnlyChanges.refl _ _
                    · refine OnlyChanges.ite ?_ ?_
                      · refine OnlyChanges.step ?_ (State.verbDone_changes _ _ _ _ _) (by decide)
                        · exact OnlyChanges.refl _ _
                      · split
                        · refine OnlyChanges.step ?_ (State.verbDone_changes _ _ _ _ _) (by decide)
                          · exact OnlyChanges.refl _ _
                        · refine OnlyChanges.ite ?_ ?_
                          · refine OnlyChanges.step ?_ (State.verbDone_changes _ _ _ _ _) (by decide)
                            · exact OnlyChanges.refl _ _
                          · refine OnlyChanges.ite ?_ ?_
                            · refine OnlyChanges.step ?_ (State.verbDone_changes _ _ _ _ _) (by decide)
                              · exact OnlyChanges.refl _ _
                            · refine OnlyChanges.step ?_ (State.verbDone_changes _ _ _ _ _) (by decide)
                              · refine OnlyChanges.step ?_ (State.setSwarm_changes _ _ _) (by decide)
                                · exact OnlyChanges.refl _ _

theorem execFltInjectCollector_changes (w : BitVec 32) (s : State) : ∃ t, (execFltInjectCollector w s) = .next t ∧ OnlyChanges [.faults, .frames, .snap, .recd] s t := by
  refine ⟨_, rfl, ?_⟩
  refine OnlyChanges.ite ?_ ?_
  · refine OnlyChanges.step ?_ (State.injectWrite_changes _ _) (by decide)
    · exact OnlyChanges.refl _ _
  · exact OnlyChanges.refl _ _

theorem State.waitUnmet_changes (s : State) (c : CtxNo) (t : TallyNo × Word) : OnlyChanges [.chans, .tally, .ctxs, .readyQ] s (State.waitUnmet s c t) := by
  unfold State.waitUnmet
  extract_lets x3_0 x3_1
  have h5 : OnlyChanges [Part.chans, Part.tally, Part.ctxs, Part.readyQ] s x3_0 := by
    unfold x3_0
    refine OnlyChanges.step ?_ (State.toState_changes _ _ _) (by decide)
    · exact OnlyChanges.refl _ _
  have h6 : OnlyChanges [Part.chans, Part.tally, Part.ctxs, Part.readyQ] s x3_1 := by
    unfold x3_1
    refine OnlyChanges.step ?_ (State.modCtx_changes _ _ _) (by decide)
    · exact h5
  refine OnlyChanges.ite ?_ ?_
  · exact h6
  · refine OnlyChanges.ite ?_ ?_
    · refine OnlyChanges.step ?_ (State.modCtx_changes _ _ _) (by decide)
      · refine OnlyChanges.step ?_ (State.unbind_changes _ _) (by decide)
        · exact h6
    · refine OnlyChanges.step ?_ (State.modTally_changes _ _) (by decide)
      · exact h6

theorem execWait_changes (ch : Fin 1024) (s : State) : ∃ t, (execWait ch s) = .next t ∧ OnlyChanges [.chans, .tally, .ctxs, .readyQ] s t := by
  refine ⟨_, rfl, ?_⟩
  split
  · exact OnlyChanges.refl _ _
  · extract_lets x7_0
    split
    · extract_lets x14_0
      refine OnlyChanges.ite ?_ ?_
      · exact OnlyChanges.refl _ _
      · refine OnlyChanges.ite ?_ ?_
        · refine OnlyChanges.step ?_ (State.modWork_changes _ _ _ _) (by decide)
          · exact OnlyChanges.refl _ _
        · refine OnlyChanges.step ?_ (State.waitUnmet_changes _ _ _) (by decide)
          · exact OnlyChanges.refl _ _
    · exact OnlyChanges.refl _ _

theorem execHiveTestsDone_changes (pass : BitVec 8) (s : State) : ∃ t, (execHiveTestsDone pass s) = .next t ∧ OnlyChanges [.sec, .fabric, .free, .mboxes, .keeper, .recd, .frames, .ctxs, .faults, .snap, .tally, .power, .swarms] s t := by
  refine ⟨_, rfl, ?_⟩
  extract_lets x2_0
  have h3 : OnlyChanges [Part.sec, Part.fabric, Part.free, Part.mboxes, Part.keeper, Part.recd, Part.frames, Part.ctxs, Part.faults, Part.snap, Part.tally, Part.power, Part.swarms] s x2_0 := by
    unfold x2_0
    refine OnlyChanges.step ?_ (State.modKeeper_changes _ _) (by decide)
    · exact OnlyChanges.refl _ _
  refine OnlyChanges.ite ?_ ?_
  · exact OnlyChanges.refl _ _
  · refine OnlyChanges.step ?_ (State.testUnits_changes _ _ _ _) (by decide)
    · exact h3

theorem State.endAbort_changes (s : State) (c : CtxNo) : OnlyChanges [.chans, .tally, .ctxs, .readyQ] s (State.endAbort s c) := by
  unfold State.endAbort
  extract_lets x2_0
  have h3 : OnlyChanges [Part.chans, Part.tally, Part.ctxs, Part.readyQ] s x2_0 := by
    unfold x2_0
    refine OnlyChanges.step ?_ (State.disarm_changes _ _) (by decide)
    · refine OnlyChanges.step ?_ (State.unbind_changes _ _) (by decide)
      · refine OnlyChanges.step ?_ (State.toState_changes _ _ _) (by decide)
        · exact OnlyChanges.refl _ _
  refine OnlyChanges.step ?_ (State.modCtx_changes _ _ _) (by decide)
  · exact h3

theorem State.abortEntries_changes (s : State) (c : CtxNo) (f a n : Nat) (i : BitVec 16) (l : List Bytes) :
    OnlyChanges [.nextId, .ctxs] s (s.abortEntries c f a n i l).1 := by
  induction n generalizing s a i l with
  | zero => unfold State.abortEntries; exact OnlyChanges.refl _ _
  | succ n ih =>
    cases l with
    | nil => unfold State.abortEntries; exact OnlyChanges.refl _ _
    | cons e r =>
      have hs : ∀ x, OnlyChanges [.nextId, .ctxs] s (s.fresh.2.modCtx c x) := fun x =>
        ((OnlyChanges.refl _ _).step (State.fresh_changes _) (by decide)).step (State.modCtx_changes _ _ _) (by decide)
      unfold State.abortEntries
      dsimp only
      split
      · exact OnlyChanges.refl _ _
      · exact (hs _).trans (ih _ _ _ _)

theorem State.abortWork_changes (s : State) (c : CtxNo) (w : Work) : OnlyChanges [.ctxs, .frames, .fabric] s (State.abortWork s c w) := by
  unfold State.abortWork
  extract_lets x3_0 x3_1
  have h5 : OnlyChanges [Part.ctxs, Part.frames, Part.fabric] s x3_1 := by
    unfold x3_1
    refine OnlyChanges.step ?_ (State.mapFrames_changes _ _) (by decide)
    · exact OnlyChanges.refl _ _
  refine OnlyChanges.ite ?_ ?_
  · exact OnlyChanges.refl _ _
  · split
    · refine OnlyChanges.step ?_ (State.endWork_changes _ _ _ _ _) (by decide)
      · exact OnlyChanges.refl _ _
    · refine OnlyChanges.step ?_ (State.endWork_changes _ _ _ _ _) (by decide)
      · exact OnlyChanges.refl _ _
    · refine OnlyChanges.step ?_ (State.endWork_changes _ _ _ _ _) (by decide)
      · exact OnlyChanges.refl _ _
    · refine OnlyChanges.step ?_ (State.endWork_changes _ _ _ _ _) (by decide)
      · refine OnlyChanges.step ?_ (State.modWork_changes _ _ _ _) (by decide)
        · exact OnlyChanges.refl _ _
    · refine OnlyChanges.step ?_ (State.modWork_changes _ _ _ _) (by decide)
      · exact OnlyChanges.refl _ _
    · refine OnlyChanges.step ?_ (State.modWork_changes _ _ _ _) (by decide)
      · exact OnlyChanges.refl _ _
    · refine OnlyChanges.step ?_ (State.modWork_changes _ _ _ _) (by decide)
      · exact OnlyChanges.refl _ _
    · refine OnlyChanges.ite ?_ ?_
      · exact OnlyChanges.refl _ _
      · refine OnlyChanges.step ?_ (State.queueStatus_changes _ _ _) (by decide)
        · refine OnlyChanges.step ?_ (State.modWork_changes _ _ _ _) (by decide)
          · exact h5
    · exact OnlyChanges.refl _ _
    · exact OnlyChanges.refl _ _

theorem State.startAbort_changes (s : State) (o : Origin) (c : CtxNo) (entries : List Bytes) : OnlyChanges [.nextId, .ctxs, .chans, .tally, .keeper, .frames, .fabric, .ports, .spine] s (State.startAbort s o c entries) := by
  unfold State.startAbort
  extract_lets x4_0 x4_1 x4_2 x4_3 x4_4 x4_5 x4_6 x4_7
  have h12 : OnlyChanges [Part.nextId, Part.ctxs, Part.chans, Part.tally, Part.keeper, Part.frames, Part.fabric, Part.ports, Part.spine] s x4_4 := by
    unfold x4_4
    refine OnlyChanges.step ?_ (State.dropBeats_changes _ _) (by decide)
    · refine OnlyChanges.ite ?_ ?_
      · refine OnlyChanges.step ?_ (State.disarm_changes _ _) (by decide)
        · exact OnlyChanges.refl _ _
      · exact OnlyChanges.refl _ _
  have h13 : OnlyChanges [Part.nextId, Part.ctxs, Part.chans, Part.tally, Part.keeper, Part.frames, Part.fabric, Part.ports, Part.spine] s x4_5 := by
    unfold x4_5
    refine OnlyChanges.foldl _ (fun t13 _ => ?_) _ _ ?_
    · refine OnlyChanges.step ?_ (State.abortWork_changes _ _ _) (by decide)
      · exact OnlyChanges.refl _ _
    · exact h12
  split
  · extract_lets x20_0
    have h21 : OnlyChanges [Part.nextId, Part.ctxs, Part.chans, Part.tally, Part.keeper, Part.frames, Part.fabric, Part.ports, Part.spine] s x20_0 := by
      unfold x20_0
      refine OnlyChanges.step ?_ (State.modCtx_changes _ _ _) (by decide)
      · refine OnlyChanges.step ?_ (Eq.mp (congrArg (OnlyChanges _ _) (congrArg Prod.fst (by assumption : _ = (_, _)))) (State.abortEntries_changes _ _ _ _ _ _ _)) (by decide)
        exact h13
    refine OnlyChanges.step ?_ (State.modVerb_changes _ _ _) (by decide)
    · exact h21

theorem execCtxAbort_changes (o : Origin) (entries : List Bytes) (s : State) : ∃ t, (execCtxAbort o entries s) = .next t ∧ OnlyChanges [.mboxes, .keeper, .fabric, .recd, .chans, .tally, .ctxs, .readyQ, .nextId, .frames, .ports, .spine, .faults, .snap] s t := by
  refine ⟨_, rfl, ?_⟩
  apply State.runVerb_ho
  · decide
  · exact OnlyChanges.refl _ _
  · intro a3
    extract_lets x4_0
    apply State.onCtx_ho
    · decide
    · exact OnlyChanges.refl _ _
    · intro a5
      extract_lets x6_0 x6_1
      have h8 : OnlyChanges [Part.mboxes, Part.keeper, Part.fabric, Part.recd, Part.chans, Part.tally, Part.ctxs, Part.readyQ, Part.nextId, Part.frames, Part.ports, Part.spine, Part.faults, Part.snap] s x6_0 := by
        unfold x6_0
        refine OnlyChanges.ite ?_ ?_
        · exact OnlyChanges.refl _ _
        · refine OnlyChanges.step ?_ (State.startAbort_changes _ _ _ _) (by decide)
          · exact OnlyChanges.refl _ _
      refine OnlyChanges.ite ?_ ?_
      · exact h8
      · refine OnlyChanges.step ?_ (State.verbDone_changes _ _ _ _ _) (by decide)
        · refine OnlyChanges.step ?_ (State.endAbort_changes _ _) (by decide)
          · exact h8

theorem State.calLinks_changes (s : State) : OnlyChanges [.mboxes, .keeper, .fabric, .recd] s (State.calLinks s) := by
  unfold State.calLinks
  extract_lets x1_0
  refine OnlyChanges.ite ?_ ?_
  · refine OnlyChanges.foldl _ (fun t2 _ => ?_) _ _ ?_
    · refine OnlyChanges.step ?_ (State.verbDone_changes _ _ _ _ _) (by decide)
      · exact OnlyChanges.refl _ _
    · exact OnlyChanges.refl _ _
  · exact OnlyChanges.refl _ _

theorem execCalRun_changes (o : Origin) (s : State) : ∃ t, (execCalRun o s) = .next t ∧ OnlyChanges [.keeper, .fabric, .ftest, .frames, .chans, .tally, .ctxs, .readyQ, .mboxes, .recd] s t := by
  refine ⟨_, rfl, ?_⟩
  extract_lets x2_0
  have h3 : OnlyChanges [Part.keeper, Part.fabric, Part.ftest, Part.frames, Part.chans, Part.tally, Part.ctxs, Part.readyQ, Part.mboxes, Part.recd] s x2_0 := by
    unfold x2_0
    refine OnlyChanges.foldl _ (fun t3 _ => ?_) _ _ ?_
    · refine OnlyChanges.ite ?_ ?_
      · refine OnlyChanges.step ?_ (State.modLink_changes _ _ _) (by decide)
        · exact OnlyChanges.refl _ _
      · exact OnlyChanges.refl _ _
    · exact OnlyChanges.refl _ _
  apply State.runVerb_ho
  · decide
  · exact OnlyChanges.refl _ _
  · intro a4
    refine OnlyChanges.ite ?_ ?_
    · refine OnlyChanges.step ?_ (State.beginFrameTest_changes _ _ _ _) (by decide)
      · exact OnlyChanges.refl _ _
    · refine OnlyChanges.step ?_ (State.calLinks_changes _) (by decide)
      · refine OnlyChanges.step ?_ (State.verbDrains_changes _ _) (by decide)
        · exact h3

theorem execMboxRing_changes (m : Fin 32) (w : BitVec 32) (s : State) : ∃ t, (execMboxRing m w s) = .next t ∧ OnlyChanges [.mboxes, .keeper] s t := by
  refine ⟨_, rfl, ?_⟩
  refine OnlyChanges.ite ?_ ?_
  · refine OnlyChanges.step ?_ (State.dbWrite_changes _ _ _) (by decide)
    · exact OnlyChanges.refl _ _
  · exact OnlyChanges.refl _ _

theorem State.fabReadDone_changes (s : State) (f : ℕ) (n : ℕ) (chip : ChipNo) (tag : BitVec 16) : OnlyChanges [.fabric, .frames] s (State.fabReadDone s f n chip tag) := by
  unfold State.fabReadDone
  extract_lets x5_0 x5_1 x5_2 x5_3
  have h9 : OnlyChanges [Part.fabric, Part.frames] s x5_2 := by
    unfold x5_2
    refine OnlyChanges.step ?_ (State.setSlotAt_changes _ _ _ _) (by decide)
    · exact OnlyChanges.refl _ _
  refine OnlyChanges.step ?_ (State.sendMsg_changes _ _) (by decide)
  · exact h9

theorem State.slotDone_changes (s : State) (f : ℕ) (n : ℕ) : OnlyChanges [.frames, .faults, .snap, .recd, .fabric, .ctxs, .xlate, .chans, .tally, .readyQ, .nextId] s (State.slotDone s f n) := by
  unfold State.slotDone
  extract_lets x3_0
  have h4 : OnlyChanges [Part.frames, Part.faults, Part.snap, Part.recd, Part.fabric, Part.ctxs, Part.xlate, Part.chans, Part.tally, Part.readyQ, Part.nextId] s x3_0.1 := by
    unfold x3_0
    refine OnlyChanges.step ?_ (State.slotEcc_changes _ _ _) (by decide)
    · exact OnlyChanges.refl _ _
  split
  · refine OnlyChanges.step ?_ (State.workSlotDone_changes _ _ _ _ _) (by decide)
    · exact OnlyChanges.refl _ _
  · refine OnlyChanges.ite ?_ ?_
    · exact h4
    · split
      · refine OnlyChanges.step ?_ (State.walkReturn_changes _ _ _ _) (by decide)
        · exact h4
      · refine OnlyChanges.step ?_ (State.fabReadDone_changes _ _ _ _ _) (by decide)
        · exact h4
      · exact h4

theorem execReadDataReturn_changes (tap : Fin 64) (slot : Fin 8192) (half : Bool) (data : Bytes) (fail : Bool) (s : State) : ∃ t, (execReadDataReturn tap slot half data fail s) = .next t ∧ OnlyChanges [.ctxs, .chans, .tally, .readyQ, .faults, .frames, .snap, .recd, .fabric, .xlate, .nextId] s t := by
  refine ⟨_, rfl, ?_⟩
  extract_lets x6_0 x6_1 x6_2 x6_3 x6_4 x6_5 x6_6
  have h13 : OnlyChanges [Part.ctxs, Part.chans, Part.tally, Part.readyQ, Part.faults, Part.frames, Part.snap, Part.recd, Part.fabric, Part.xlate, Part.nextId] s x6_5 := by
    unfold x6_5
    refine OnlyChanges.step ?_ (State.setSlotAt_changes _ _ _ _) (by decide)
    · exact OnlyChanges.refl _ _
  have h14 : OnlyChanges [Part.ctxs, Part.chans, Part.tally, Part.readyQ, Part.faults, Part.frames, Part.snap, Part.recd, Part.fabric, Part.xlate, Part.nextId] s x6_6 := by
    unfold x6_6
    refine OnlyChanges.step ?_ (State.fillSlot_changes _ _ _ _ _ _) (by decide)
    · exact OnlyChanges.refl _ _
  refine OnlyChanges.ite ?_ ?_
  · refine OnlyChanges.step ?_ (State.tapProtocol_changes _ _) (by decide)
    · exact OnlyChanges.refl _ _
  · refine OnlyChanges.ite ?_ ?_
    · refine OnlyChanges.step ?_ (State.busError_changes _ _ _ _ _ _ _ _ _) (by decide)
      · exact h13
    · refine OnlyChanges.ite ?_ ?_
      · refine OnlyChanges.step ?_ (State.slotDone_changes _ _ _) (by decide)
        · exact h14
      · exact h14

theorem execWakeReq_changes (s : State) : ∃ t, (execWakeReq s) = .next t ∧ OnlyChanges [.power] s t := by
  refine ⟨_, rfl, ?_⟩
  refine OnlyChanges.step ?_ (State.wake_changes _ _) (by decide)
  · exact OnlyChanges.refl _ _

theorem execRelayAllow_changes (o : Origin) (s : State) : ∃ t, (execRelayAllow o s) = .next t ∧ OnlyChanges [.mboxes, .keeper, .fabric, .recd] s t := by
  refine ⟨_, rfl, ?_⟩
  apply State.runVerb_ho
  · decide
  · exact OnlyChanges.refl _ _
  · intro a2
    refine OnlyChanges.step ?_ (State.verbDone_changes _ _ _ _ _) (by decide)
    · refine OnlyChanges.step ?_ (State.modKeeper_changes _ _) (by decide)
      · exact OnlyChanges.refl _ _

theorem State.takeTally_changes (s : State) (m : Msg) : OnlyChanges [.chans, .tally, .faults, .frames, .snap, .recd, .fabric] s (State.takeTally s m) := by
  unfold State.takeTally
  extract_lets x2_0 x2_1 x2_2 x2_3 x2_4 x2_5 x2_6
  refine OnlyChanges.ite ?_ ?_
  · exact OnlyChanges.refl _ _
  · refine OnlyChanges.ite ?_ ?_
    · exact OnlyChanges.refl _ _
    · refine OnlyChanges.ite ?_ ?_
      · refine OnlyChanges.step ?_ (State.settle_changes _) (by decide)
        · refine OnlyChanges.ite ?_ ?_
          · refine OnlyChanges.step ?_ (State.setBarrier_changes _ _ _) (by decide)
            · exact OnlyChanges.refl _ _
          · refine OnlyChanges.step ?_ (State.releaseEpisode_changes _ _ _) (by decide)
            · exact OnlyChanges.refl _ _
      · refine OnlyChanges.step ?_ (State.barrierFault_changes _ _ _ _ _) (by decide)
        · exact OnlyChanges.refl _ _

theorem execTallyMessage_changes (l : Fin 18) (s : State) : ∃ t, (execTallyMessage l s) = .next t ∧ OnlyChanges [.fabric, .chans, .tally, .faults, .frames, .snap, .recd, .power] s t := by
  refine ⟨_, rfl, ?_⟩
  apply State.takeMsg_ho
  · decide
  · exact OnlyChanges.refl _ _
  · intro a2
    refine PairMay.ite ?_ ?_
    · refine PairMay.some ?_
      refine OnlyChanges.step ?_ (State.answer_changes _ _ _ _ _) (by decide)
      · exact OnlyChanges.refl _ _
    · refine PairMay.ite ?_ ?_
      · refine PairMay.some ?_
        refine OnlyChanges.step ?_ (State.clockUp_changes _ _) (by decide)
        · exact OnlyChanges.refl _ _
      · refine PairMay.some ?_
        refine OnlyChanges.step ?_ (State.takeTally_changes _ _) (by decide)
        · exact OnlyChanges.refl _ _

theorem execLid_changes (l : Fin 18) (s : State) : ∃ t, (execLid l s) = .next t ∧ OnlyChanges [.fabric, .frames, .faults, .snap, .recd, .nextId, .xlate] s t := by
  refine ⟨_, rfl, ?_⟩
  apply State.takeMsg_ho
  · decide
  · exact OnlyChanges.refl _ _
  · intro a2
    refine PairMay.step ?_ (State.serve_changes _ _) (by decide)
    · exact OnlyChanges.refl _ _

theorem execBootAuthDone_changes (s : State) : ∃ t, (execBootAuthDone s) = .next t ∧ OnlyChanges [.mboxes, .keeper, .fabric, .recd, .power, .faults, .frames, .snap] s t := by
  refine ⟨_, rfl, ?_⟩
  extract_lets x1_0 x1_1 x1_2 x1_3 x1_4 x1_5 x1_6
  have h8 : OnlyChanges [Part.mboxes, Part.keeper, Part.fabric, Part.recd, Part.power, Part.faults, Part.frames, Part.snap] s x1_6 := by
    unfold x1_6
    refine OnlyChanges.step ?_ (State.modKeeper_changes _ _) (by decide)
    · exact OnlyChanges.refl _ _
  refine OnlyChanges.ite ?_ ?_
  · exact OnlyChanges.refl _ _
  · refine OnlyChanges.step ?_ (State.bootVerdict_changes _ _ _) (by decide)
    · exact h8

theorem execSwarmCloseEjectTimeout_changes (sw : Fin 4) (s : State) : ∃ t, (execSwarmCloseEjectTimeout sw s) = .next t ∧ OnlyChanges [.faults, .frames, .snap, .recd, .swarms, .ctxs] s t := by
  refine ⟨_, rfl, ?_⟩
  extract_lets x2_0
  refine OnlyChanges.ite ?_ ?_
  · exact OnlyChanges.refl _ _
  · refine OnlyChanges.foldl _ (fun t3 _ => ?_) _ _ ?_
    · refine OnlyChanges.step ?_ (State.eject_changes _ _ _ _) (by decide)
      · exact OnlyChanges.refl _ _
    · exact OnlyChanges.refl _ _

theorem execMemInfo_changes (o : Origin) (s : State) : ∃ t, (execMemInfo o s) = .next t ∧ OnlyChanges [.mboxes, .keeper, .fabric, .recd] s t := by
  refine ⟨_, rfl, ?_⟩
  apply State.runVerb_ho
  · decide
  · exact OnlyChanges.refl _ _
  · intro a2
    extract_lets x3_0
    refine OnlyChanges.step ?_ (State.verbDone_changes _ _ _ _ _) (by decide)
    · exact OnlyChanges.refl _ _

theorem execTapCreditReturn_changes (tap : Fin 64) (wr : Bool) (s : State) : ∃ t, (execTapCreditReturn tap wr s) = .next t ∧ OnlyChanges [.taps, .faults, .frames, .snap, .recd] s t := by
  refine ⟨_, rfl, ?_⟩
  extract_lets x3_0 x3_1 x3_2
  refine OnlyChanges.ite ?_ ?_
  · refine OnlyChanges.step ?_ (State.raise_changes _ _) (by decide)
    · exact OnlyChanges.refl _ _
  · refine OnlyChanges.step ?_ (State.setTap_changes _ _ _) (by decide)
    · exact OnlyChanges.refl _ _

theorem execLidDataLanded_changes (chip : ChipNo) (group : BitVec 6) (s : State) : ∃ t, (execLidDataLanded chip group s) = .next t ∧ OnlyChanges [.fabric, .chans, .tally, .faults, .frames, .snap, .recd, .power] s t := by
  refine ⟨_, rfl, ?_⟩
  extract_lets x3_0 x3_1 x3_2
  have h6 : OnlyChanges [Part.fabric, Part.chans, Part.tally, Part.faults, Part.frames, Part.snap, Part.recd, Part.power] s x3_2 := by
    unfold x3_2
    refine OnlyChanges.step ?_ (State.setRxGroup_changes _ _ _ _) (by decide)
    · exact OnlyChanges.refl _ _
  split
  · exact OnlyChanges.refl _ _
  · extract_lets x12_0 x12_1
    have h14 : OnlyChanges [Part.fabric, Part.chans, Part.tally, Part.faults, Part.frames, Part.snap, Part.recd, Part.power] s x12_1 := by
      unfold x12_1
      refine OnlyChanges.ite ?_ ?_
      · refine OnlyChanges.step ?_ (State.increment_changes _ _ _ _) (by decide)
        · exact h6
      · exact h6
    refine OnlyChanges.ite ?_ ?_
    · exact OnlyChanges.refl _ _
    · refine OnlyChanges.ite ?_ ?_
      · refine OnlyChanges.step ?_ (State.holdTally_changes _) (by decide)
        · exact OnlyChanges.refl _ _
      · refine OnlyChanges.step ?_ (State.answer_changes _ _ _ _ _) (by decide)
        · exact h14

theorem State.loadScales_changes (s : State) (first : ℕ) (vals : List (BitVec 16)) (f : ℕ) : OnlyChanges [.ctxs, .nextId, .frames] s (State.loadScales s first vals f) := by
  unfold State.loadScales
  extract_lets x4_0
  refine OnlyChanges.ite ?_ ?_
  · exact OnlyChanges.refl _ _
  · split
    · extract_lets x11_0 x11_1
      have h13 : OnlyChanges [Part.ctxs, Part.nextId, Part.frames] s x11_0 := by
        unfold x11_0
        refine OnlyChanges.step ?_ (State.modFrame_changes _ _ _) (by decide)
        · refine OnlyChanges.step ?_ (Eq.mp (congrArg (OnlyChanges _ _) (congrArg Prod.snd (by assumption : _ = (_, _)))) (State.fresh_changes _)) (by decide)
          exact OnlyChanges.refl _ _
      refine OnlyChanges.put_ctxs _ ?_ (by decide)
      exact h13

theorem State.scaleGone_changes (s : State) (fs : List ℕ) (first : ℕ) : OnlyChanges [.ctxs, .nextId, .frames] s (State.scaleGone s fs first) := by
  unfold State.scaleGone
  refine OnlyChanges.foldl _ (fun t3 _ => ?_) _ _ ?_
  · refine OnlyChanges.step ?_ (State.loadScales_changes _ _ _ _) (by decide)
    · exact OnlyChanges.refl _ _
  · exact OnlyChanges.refl _ _

theorem execScaleLoad_changes (o : Origin) (s : State) : ∃ t, (execScaleLoad o s) = .next t ∧ OnlyChanges [.ctxs, .nextId, .frames, .mboxes, .keeper, .fabric, .recd, .faults, .snap] s t := by
  refine ⟨_, rfl, ?_⟩
  apply State.runVerb_ho
  · decide
  · exact OnlyChanges.refl _ _
  · intro a2
    extract_lets x3_0 x3_1 x3_2 x3_3
    refine OnlyChanges.ite ?_ ?_
    · refine OnlyChanges.step ?_ (State.verbDone_changes _ _ _ _ _) (by decide)
      · exact OnlyChanges.refl _ _
    · refine OnlyChanges.ite ?_ ?_
      · refine OnlyChanges.step ?_ (State.verbDone_changes _ _ _ _ _) (by decide)
        · exact OnlyChanges.refl _ _
      · apply State.withStruct_ho
        · decide
        · exact OnlyChanges.refl _ _
        · intro a7
          extract_lets x8_0
          split
          · refine OnlyChanges.step ?_ (State.verbDone_changes _ _ _ _ _) (by decide)
            · exact OnlyChanges.refl _ _
          · refine OnlyChanges.step ?_ (State.verbDone_changes _ _ _ _ _) (by decide)
            · apply State.tableWritten_ho
              · decide
              · refine OnlyChanges.foldl _ (fun t13 _ => ?_) _ _ ?_
                · refine OnlyChanges.step ?_ (State.loadScales_changes _ _ _ _) (by decide)
                  · exact OnlyChanges.refl _ _
                · exact OnlyChanges.refl _ _
              · intro a13
                intro a14
                refine OnlyChanges.step ?_ (State.scaleGone_changes _ _ _) (by decide)
                · exact a14

theorem execClkAck_changes (i : Fin 22) (up : Bool) (s : State) : ∃ t, (execClkAck i up s) = .next t ∧ OnlyChanges [.power, .frames, .keeper, .recd, .chans, .tally, .fabric, .faults, .sec, .snap, .free] s t := by
  refine ⟨_, rfl, ?_⟩
  extract_lets x3_0 x3_1 x3_2 x3_3
  have h7 : OnlyChanges [Part.power, Part.frames, Part.keeper, Part.recd, Part.chans, Part.tally, Part.fabric, Part.faults, Part.sec, Part.snap, Part.free] s x3_3 := by
    unfold x3_3
    refine OnlyChanges.put_power _ ?_ (by decide)
    exact OnlyChanges.refl _ _
  refine OnlyChanges.ite ?_ ?_
  · refine OnlyChanges.step ?_ (State.settlePower_changes _) (by decide)
    · refine OnlyChanges.ite ?_ ?_
      · refine OnlyChanges.step ?_ (State.runHeldOps_changes _) (by decide)
        · exact h7
      · exact h7
  · refine OnlyChanges.ite ?_ ?_
    · refine OnlyChanges.step ?_ (State.settlePower_changes _) (by decide)
      · refine OnlyChanges.put_power _ ?_ (by decide)
        exact OnlyChanges.refl _ _
    · exact OnlyChanges.refl _ _

theorem execThrottleRelease_changes (r : Fin 8) (s : State) : ∃ t, (execThrottleRelease r s) = .next t ∧ OnlyChanges [.power] s t := by
  refine ⟨_, rfl, ?_⟩
  extract_lets x2_0 x2_1
  refine OnlyChanges.ite ?_ ?_
  · refine OnlyChanges.step ?_ (State.setRegion_changes _ _ _) (by decide)
    · exact OnlyChanges.refl _ _
  · exact OnlyChanges.refl _ _

theorem execFrameIdleToNap_changes (f : Fin 16) (s : State) : ∃ t, (execFrameIdleToNap f s) = .next t ∧ OnlyChanges [.frames, .power] s t := by
  refine ⟨_, rfl, ?_⟩
  extract_lets x2_0
  refine OnlyChanges.ite ?_ ?_
  · refine OnlyChanges.foldl _ (fun t3 _ => ?_) _ _ ?_
    · refine OnlyChanges.step ?_ (State.retainUp_changes _ _) (by decide)
      · exact OnlyChanges.refl _ _
    · refine OnlyChanges.step ?_ (State.modFrame_changes _ _ _) (by decide)
      · exact OnlyChanges.refl _ _
  · exact OnlyChanges.refl _ _

theorem execTelemetry_changes (s : State) : ∃ t, (execTelemetry s) = .next t ∧ OnlyChanges [.telem, .free, .keeper, .frames] s t := by
  refine ⟨_, rfl, ?_⟩
  extract_lets x1_0 x1_1 x1_2 x1_3 x1_4 x1_5
  have h7 : OnlyChanges [Part.telem, Part.free, Part.keeper, Part.frames] s x1_1 := by
    unfold x1_1
    refine OnlyChanges.step ?_ (State.kmWrite_changes _ _ _ _) (by decide)
    · exact OnlyChanges.refl _ _
  have h8 : OnlyChanges [Part.telem, Part.free, Part.keeper, Part.frames] s x1_3 := by
    unfold x1_3
    refine OnlyChanges.ite ?_ ?_
    · exact OnlyChanges.refl _ _
    · refine OnlyChanges.upd (x1_1) ?_ (fun p hp => by cases p <;> first | rfl | exact absurd (by decide) hp)
      exact h7
  have h9 : OnlyChanges [Part.telem, Part.free, Part.keeper, Part.frames] s x1_4 := by
    unfold x1_4
    refine OnlyChanges.step ?_ (State.mapFrames_changes _ _) (by decide)
    · exact h8
  refine OnlyChanges.ite ?_ ?_
  · exact OnlyChanges.refl _ _
  · refine OnlyChanges.step ?_ (State.noteLevels_changes _) (by decide)
    · refine OnlyChanges.put_telem _ ?_ (by decide)
      exact h9

theorem execFltInjectSingleFlip_changes (w : BitVec 32) (s : State) : ∃ t, (execFltInjectSingleFlip w s) = .next t ∧ OnlyChanges [.faults, .frames, .snap, .recd] s t := by
  refine ⟨_, rfl, ?_⟩
  refine OnlyChanges.ite ?_ ?_
  · refine OnlyChanges.step ?_ (State.injectWrite_changes _ _) (by decide)
    · exact OnlyChanges.refl _ _
  · exact OnlyChanges.refl _ _

theorem execGroupNumberReuse_changes (chip : ChipNo) (group : BitVec 6) (s : State) : ∃ t, (execGroupNumberReuse chip group s) = .next t ∧ OnlyChanges [.fabric] s t := by
  refine ⟨_, rfl, ?_⟩
  refine OnlyChanges.ite ?_ ?_
  · refine OnlyChanges.step ?_ (State.setTxGroup_changes _ _ _ _) (by decide)
    · exact OnlyChanges.refl _ _
  · exact OnlyChanges.refl _ _

theorem execAoRstN_changes (inp : StaticIn) (s : State) : ∃ t, (execAoRstN inp s) = .next t ∧ OnlyChanges [.ptime, .inp, .keeper, .mboxes, .ctxs, .readyQ, .chans, .frames, .taps, .ports, .spine, .swarms, .expand, .expandAt, .ksets, .mods, .xlate, .tally, .fabric, .faults, .sec, .power, .ftest, .snap, .recd, .telem, .regs] s t := by
  refine ⟨_, rfl, ?_⟩
  extract_lets src k r t
  have h : OnlyChanges [.ptime, .inp, .keeper, .mboxes, .ctxs, .readyQ, .chans, .frames, .taps, .ports, .spine, .swarms, .expand, .expandAt, .ksets, .mods, .xlate, .tally, .fabric, .faults, .sec, .power, .ftest, .snap, .recd, .telem, .regs] s t := fun q hq => by cases q <;> first | rfl | exact absurd (by decide) hq
  exact ((((h.step (State.powerUp_changes _ _) (by decide)).step (State.clockUp_changes _ _) (by decide)).step
    (State.portCredits_changes _) (by decide)).step (State.tapCredits_changes _) (by decide)).step (State.inputFaults_changes _ _) (by decide)

theorem execFlushAgeTimeout_changes (s : State) : ∃ t, (execFlushAgeTimeout s) = .next t ∧ OnlyChanges [.recd] s t := by
  refine ⟨_, rfl, ?_⟩
  refine OnlyChanges.ite ?_ ?_
  · exact OnlyChanges.refl _ _
  · refine OnlyChanges.step ?_ (State.askFlush_changes _) (by decide)
    · exact OnlyChanges.refl _ _

theorem execFetV_changes (p : Fin 256) (data : Bytes) (fail : Bool) (s : State) : ∃ t, (execFetV p data fail s) = .next t ∧ OnlyChanges [.ports, .ctxs, .chans, .tally, .readyQ, .faults, .frames, .snap, .recd, .fabric, .xlate, .nextId] s t := by
  refine ⟨_, rfl, ?_⟩
  extract_lets x4_0
  refine OnlyChanges.ite ?_ ?_
  · exact OnlyChanges.refl _ _
  · split
    · refine OnlyChanges.step ?_ (State.raise_changes _ _) (by decide)
      · exact OnlyChanges.refl _ _
    · extract_lets x11_0 x11_1 x11_2 x11_3 x11_4 x11_5 x11_6
      have h18 : OnlyChanges [Part.ports, Part.ctxs, Part.chans, Part.tally, Part.readyQ, Part.faults, Part.frames, Part.snap, Part.recd, Part.fabric, Part.xlate, Part.nextId] s x11_0 := by
        unfold x11_0
        refine OnlyChanges.step ?_ (State.setPort_changes _ _ _) (by decide)
        · exact OnlyChanges.refl _ _
      have h19 : OnlyChanges [Part.ports, Part.ctxs, Part.chans, Part.tally, Part.readyQ, Part.faults, Part.frames, Part.snap, Part.recd, Part.fabric, Part.xlate, Part.nextId] s x11_4 := by
        unfold x11_4
        refine OnlyChanges.step ?_ (State.setSlotAt_changes _ _ _ _) (by decide)
        · exact h18
      have h20 : OnlyChanges [Part.ports, Part.ctxs, Part.chans, Part.tally, Part.readyQ, Part.faults, Part.frames, Part.snap, Part.recd, Part.fabric, Part.xlate, Part.nextId] s x11_5 := by
        unfold x11_5
        refine OnlyChanges.step ?_ (State.fillSlot_changes _ _ _ _ _ _) (by decide)
        · exact h18
      refine OnlyChanges.ite ?_ ?_
      · refine OnlyChanges.step ?_ (State.busError_changes _ _ _ _ _ _ _ _ _) (by decide)
        · exact h19
      · refine OnlyChanges.ite ?_ ?_
        · refine OnlyChanges.step ?_ (State.slotDone_changes _ _ _) (by decide)
          · exact h20
        · exact h20

theorem execRegisterWrite_changes (off : BitVec 24) (strobe : BitVec 8) (data : Word) (s : State) : ∃ t, (execRegisterWrite off strobe data s) = .next t ∧ OnlyChanges [.regs, .faults, .frames, .snap, .recd, .mboxes, .telem, .tally, .power, .keeper, .chans, .fabric, .xlate, .ftest, .ctxs, .swarms, .readyQ, .sec, .free] s t := by
  refine ⟨_, rfl, ?_⟩
  refine OnlyChanges.step ?_ (State.portWrite_changes _ _ _ _) (by decide)
  · exact OnlyChanges.refl _ _

theorem State.partTaken_changes (s : State) (l : ℕ) (f : Bytes) (was : Bool) : OnlyChanges [.fabric, .free, .mboxes, .keeper, .recd, .frames, .ctxs, .faults, .snap, .tally, .swarms, .sec] s (State.partTaken s l f was) := by
  unfold State.partTaken
  extract_lets x4_0
  refine OnlyChanges.ite ?_ ?_
  · refine OnlyChanges.step ?_ (State.judge_changes _ _) (by decide)
    · refine OnlyChanges.step ?_ (State.modLink_changes _ _ _) (by decide)
      · exact OnlyChanges.refl _ _
  · exact OnlyChanges.refl _ _

theorem execIdentityPart_changes (l : Fin 18) (flit : Bytes) (s : State) : ∃ t, (execIdentityPart l flit s) = .next t ∧ OnlyChanges [.fabric, .free, .mboxes, .keeper, .recd, .frames, .ctxs, .faults, .snap, .tally, .swarms, .sec] s t := by
  refine ⟨_, rfl, ?_⟩
  refine OnlyChanges.ite ?_ ?_
  · exact OnlyChanges.refl _ _
  · refine OnlyChanges.step ?_ (State.partTaken_changes _ _ _ _) (by decide)
    · refine OnlyChanges.step ?_ (State.modLink_changes _ _ _) (by decide)
      · exact OnlyChanges.refl _ _

theorem execReadData_changes (l : Fin 18) (s : State) : ∃ t, (execReadData l s) = .next t ∧ OnlyChanges [.fabric, .ctxs, .tally, .chans, .faults, .frames, .snap, .recd, .nextId] s t := by
  refine ⟨_, rfl, ?_⟩
  apply State.takeMsg_ho
  · decide
  · exact OnlyChanges.refl _ _
  · intro a2
    refine PairMay.some ?_
    refine OnlyChanges.step ?_ (State.takeReadData_changes _ _) (by decide)
    · exact OnlyChanges.refl _ _

theorem execAfClear_changes (w : BitVec 32) (s : State) : ∃ t, (execAfClear w s) = .next t ∧ OnlyChanges [.frames] s t := by
  refine ⟨_, rfl, ?_⟩
  refine OnlyChanges.ite ?_ ?_
  · refine OnlyChanges.step ?_ (State.arbClear_changes _ _) (by decide)
    · exact OnlyChanges.refl _ _
  · exact OnlyChanges.refl _ _

theorem execWinClearDrainEnd_changes (o : Origin) (s : State) : ∃ t, (execWinClearDrainEnd o s) = .next t ∧ OnlyChanges [.mboxes, .keeper, .fabric, .recd, .xlate] s t := by
  refine ⟨_, rfl, ?_⟩
  apply State.runDrained_ho
  · decide
  · exact OnlyChanges.refl _ _
  · intro a2
    extract_lets x3_0
    refine OnlyChanges.ite ?_ ?_
    · refine OnlyChanges.step ?_ (State.verbDone_changes _ _ _ _ _) (by decide)
      · refine OnlyChanges.step ?_ (State.modXlate_changes _ _) (by decide)
        · exact OnlyChanges.refl _ _
    · exact OnlyChanges.refl _ _

theorem State.loseRecord_changes (s : State) : OnlyChanges [.recd, .faults, .frames, .snap] s (State.loseRecord s) := by
  unfold State.loseRecord
  extract_lets x1_0
  have h2 : OnlyChanges [Part.recd, Part.faults, Part.frames, Part.snap] s x1_0 := by
    unfold x1_0
    refine OnlyChanges.step ?_ (State.modRecd_changes _ _) (by decide)
    · exact OnlyChanges.refl _ _
  refine OnlyChanges.step ?_ (State.raiseWith_changes _ _ _ _) (by decide)
  · exact h2

theorem State.flushIfFull_changes (s : State) : OnlyChanges [.recd] s (State.flushIfFull s) := by
  unfold State.flushIfFull
  refine OnlyChanges.ite ?_ ?_
  · refine OnlyChanges.step ?_ (State.askFlush_changes _) (by decide)
    · exact OnlyChanges.refl _ _
  · exact OnlyChanges.refl _ _

theorem execEventRecordAccept_changes (s : State) : ∃ t, (execEventRecordAccept s) = .next t ∧ OnlyChanges [.recd, .faults, .frames, .snap] s t := by
  refine ⟨_, rfl, ?_⟩
  extract_lets x1_0
  refine OnlyChanges.ite ?_ ?_
  · refine OnlyChanges.step ?_ (State.flushIfFull_changes _) (by decide)
    · refine OnlyChanges.step ?_ (State.modRecd_changes _ _) (by decide)
      · exact OnlyChanges.refl _ _
  · split
    · exact OnlyChanges.refl _ _
    · extract_lets x8_0 x8_1
      have h10 : OnlyChanges [Part.recd, Part.faults, Part.frames, Part.snap] s x8_0 := by
        unfold x8_0
        refine OnlyChanges.step ?_ (State.modRecd_changes _ _) (by decide)
        · exact OnlyChanges.refl _ _
      split
      · refine OnlyChanges.ite ?_ ?_
        · refine OnlyChanges.step ?_ (State.modRecd_changes _ _) (by decide)
          · exact h10
        · refine OnlyChanges.ite ?_ ?_
          · refine OnlyChanges.step ?_ (State.flushIfFull_changes _) (by decide)
            · refine OnlyChanges.step ?_ (State.modRecd_changes _ _) (by decide)
              · exact h10
          · refine OnlyChanges.step ?_ (State.loseRecord_changes _) (by decide)
            · exact h10
      · refine OnlyChanges.ite ?_ ?_
        · refine OnlyChanges.step ?_ (State.flushIfFull_changes _) (by decide)
          · refine OnlyChanges.step ?_ (State.modRecd_changes _ _) (by decide)
            · exact h10
        · refine OnlyChanges.step ?_ (State.loseRecord_changes _) (by decide)
          · exact h10

theorem execEchoReply_changes (l : Fin 18) (flit : Bytes) (now : Word) (s : State) : ∃ t, (execEchoReply l flit now s) = .next t ∧ OnlyChanges [.fabric, .free, .mboxes, .keeper, .recd, .frames, .ctxs, .faults, .snap, .tally, .swarms, .sec] s t := by
  refine ⟨_, rfl, ?_⟩
  extract_lets x4_0 x4_1 x4_2 x4_3 x4_4 x4_5
  refine OnlyChanges.ite ?_ ?_
  · exact OnlyChanges.refl _ _
  · refine OnlyChanges.ite ?_ ?_
    · refine OnlyChanges.ite ?_ ?_
      · refine OnlyChanges.step ?_ (State.setLink_changes _ _ _) (by decide)
        · exact OnlyChanges.refl _ _
      · refine OnlyChanges.step ?_ (State.enterWaggle_changes _ _) (by decide)
        · refine OnlyChanges.step ?_ (State.setLink_changes _ _ _) (by decide)
          · exact OnlyChanges.refl _ _
    · refine OnlyChanges.step ?_ (State.calLinks_changes _) (by decide)
      · refine OnlyChanges.step ?_ (State.setLink_changes _ _ _) (by decide)
        · exact OnlyChanges.refl _ _

theorem execPwrFrame_changes (o : Origin) (s : State) : ∃ t, (execPwrFrame o s) = .next t ∧ OnlyChanges [.keeper, .mboxes, .fabric, .recd, .frames, .chans, .tally, .ctxs, .readyQ] s t := by
  refine ⟨_, rfl, ?_⟩
  apply State.runVerb_ho
  · decide
  · exact OnlyChanges.refl _ _
  · intro a2
    extract_lets x3_0 x3_1 x3_2 x3_3 x3_4 x3_5 x3_6
    have h10 : OnlyChanges [Part.keeper, Part.mboxes, Part.fabric, Part.recd, Part.frames, Part.chans, Part.tally, Part.ctxs, Part.readyQ] s x3_3 := by
      unfold x3_3
      refine OnlyChanges.ite ?_ ?_
      · exact OnlyChanges.refl _ _
      · refine OnlyChanges.foldl _ (fun t10 _ => ?_) _ _ ?_
        · refine OnlyChanges.step ?_ (State.letStay_changes _ _) (by decide)
          · exact OnlyChanges.refl _ _
        · exact OnlyChanges.refl _ _
    have h11 : OnlyChanges [Part.keeper, Part.mboxes, Part.fabric, Part.recd, Part.frames, Part.chans, Part.tally, Part.ctxs, Part.readyQ] s x3_4 := by
      unfold x3_4
      refine OnlyChanges.foldl _ (fun t11 _ => ?_) _ _ ?_
      · refine OnlyChanges.step ?_ (State.modFrame_changes _ _ _) (by decide)
        · exact OnlyChanges.refl _ _
      · exact h10
    have h12 : OnlyChanges [Part.keeper, Part.mboxes, Part.fabric, Part.recd, Part.frames, Part.chans, Part.tally, Part.ctxs, Part.readyQ] s x3_5 := by
      unfold x3_5
      refine OnlyChanges.step ?_ (State.event_changes _ _) (by decide)
      · exact h11
    have h13 : OnlyChanges [Part.keeper, Part.mboxes, Part.fabric, Part.recd, Part.frames, Part.chans, Part.tally, Part.ctxs, Part.readyQ] s x3_6 := by
      unfold x3_6
      refine OnlyChanges.foldl _ (fun t13 _ => ?_) _ _ ?_
      · refine OnlyChanges.step ?_ (State.driveFrame_changes _ _) (by decide)
        · exact OnlyChanges.refl _ _
      · exact h12
    refine OnlyChanges.ite ?_ ?_
    · refine OnlyChanges.step ?_ (State.verbDone_changes _ _ _ _ _) (by decide)
      · exact h12
    · refine OnlyChanges.ite ?_ ?_
      · refine OnlyChanges.step ?_ (State.verbDone_changes _ _ _ _ _) (by decide)
        · exact h13
      · refine OnlyChanges.step ?_ (State.verbDrains_changes _ _) (by decide)
        · exact h13

theorem execNotReadyBackoffEnd_changes (chip : ChipNo) (s : State) : ∃ t, (execNotReadyBackoffEnd chip s) = .next t ∧ OnlyChanges [.fabric, .tally] s t := by
  refine ⟨_, rfl, ?_⟩
  refine OnlyChanges.ite ?_ ?_
  · exact OnlyChanges.refl _ _
  · refine OnlyChanges.step ?_ (State.pump_changes _ _) (by decide)
    · refine OnlyChanges.step ?_ (State.sendCtlAgain_changes _ _) (by decide)
      · refine OnlyChanges.step ?_ (State.modPartner_changes _ _ _) (by decide)
        · exact OnlyChanges.refl _ _

theorem execWinSet_changes (o : Origin) (s : State) : ∃ t, (execWinSet o s) = .next t ∧ OnlyChanges [.mboxes, .keeper, .fabric, .recd, .xlate] s t := by
  refine ⟨_, rfl, ?_⟩
  apply State.runVerb_ho
  · decide
  · exact OnlyChanges.refl _ _
  · intro a2
    extract_lets x3_0 x3_1 x3_2
    refine OnlyChanges.ite ?_ ?_
    · refine OnlyChanges.step ?_ (State.verbDone_changes _ _ _ _ _) (by decide)
      · exact OnlyChanges.refl _ _
    · refine OnlyChanges.ite ?_ ?_
      · refine OnlyChanges.step ?_ (State.verbDone_changes _ _ _ _ _) (by decide)
        · exact OnlyChanges.refl _ _
      · refine OnlyChanges.step ?_ (State.verbDone_changes _ _ _ _ _) (by decide)
        · refine OnlyChanges.step ?_ (State.modXlate_changes _ _) (by decide)
          · exact OnlyChanges.refl _ _

theorem execBarrierDisable_changes (b : Fin 64) (w : Word) (s : State) : ∃ t, (execBarrierDisable b w s) = .next t ∧ OnlyChanges [.tally, .power, .chans, .faults, .frames, .snap, .recd, .fabric] s t := by
  refine ⟨_, rfl, ?_⟩
  refine OnlyChanges.ite ?_ ?_
  · exact OnlyChanges.refl _ _
  · refine OnlyChanges.step ?_ (State.barWrite_changes _ _ _) (by decide)
    · exact OnlyChanges.refl _ _

theorem execLendTimeout_changes (who : Lender) (s : State) : ∃ t, (execLendTimeout who s) = .next t ∧ OnlyChanges [.chans, .tally] s t := by
  refine ⟨_, rfl, ?_⟩
  refine OnlyChanges.ite ?_ ?_
  · exact OnlyChanges.refl _ _
  · split
    · extract_lets x4_0
      refine OnlyChanges.ite ?_ ?_
      · refine OnlyChanges.step ?_ (State.setChan_changes _ _ _) (by decide)
        · exact OnlyChanges.refl _ _
      · exact OnlyChanges.refl _ _
    · refine OnlyChanges.ite ?_ ?_
      · refine OnlyChanges.step ?_ (State.modTally_changes _ _) (by decide)
        · exact OnlyChanges.refl _ _
      · exact OnlyChanges.refl _ _

theorem execFrameTestRetry_changes (s : State) : ∃ t, (execFrameTestRetry s) = .next t ∧ OnlyChanges [.ftest, .frames, .chans, .tally, .ctxs, .readyQ, .fabric] s t := by
  refine ⟨_, rfl, ?_⟩
  split
  · split
    · refine OnlyChanges.ite ?_ ?_
      · exact OnlyChanges.refl _ _
      · refine OnlyChanges.step ?_ (State.holdFrame_changes _ _) (by decide)
        · refine OnlyChanges.put_ftest _ ?_ (by decide)
          exact OnlyChanges.refl _ _
    · exact OnlyChanges.refl _ _
  · exact OnlyChanges.refl _ _

theorem execSnapStatRead_changes (s : State) : ∃ t, (execSnapStatRead s) = .next t ∧ OnlyChanges [.snap, .regs] s t := by
  refine ⟨_, rfl, ?_⟩
  extract_lets x1_0 x1_1
  have h3 : OnlyChanges [Part.snap, Part.regs] s x1_0 := by
    unfold x1_0
    refine OnlyChanges.step ?_ (State.answerRead_changes _ _) (by decide)
    · exact OnlyChanges.refl _ _
  refine OnlyChanges.put_snap _ ?_ (by decide)
  exact h3

theorem execErrPinMinimumEnd_changes (s : State) : ∃ t, (execErrPinMinimumEnd s) = .next t ∧ OnlyChanges [.faults] s t := by
  refine ⟨_, rfl, ?_⟩
  refine OnlyChanges.ite ?_ ?_
  · exact OnlyChanges.refl _ _
  · refine OnlyChanges.step ?_ (State.modFaults_changes _ _) (by decide)
    · exact OnlyChanges.refl _ _

theorem execLinkStartupTimeout_changes (s : State) : ∃ t, (execLinkStartupTimeout s) = .next t ∧ OnlyChanges [.keeper] s t := by
  refine ⟨_, rfl, ?_⟩
  extract_lets x1_0
  refine OnlyChanges.ite ?_ ?_
  · exact OnlyChanges.refl _ _
  · refine OnlyChanges.step ?_ (State.modKeeper_changes _ _) (by decide)
    · exact OnlyChanges.refl _ _

theorem State.recordWritten_changes (s : State) (c : CtxNo) : OnlyChanges [.faults, .chans, .tally, .ctxs, .readyQ, .frames, .snap, .recd, .fabric] s (State.recordWritten s c) := by
  unfold State.recordWritten
  extract_lets x2_0 x2_1
  have h4 : OnlyChanges [Part.faults, Part.chans, Part.tally, Part.ctxs, Part.readyQ, Part.frames, Part.snap, Part.recd, Part.fabric] s x2_1 := by
    unfold x2_1
    refine OnlyChanges.step ?_ (State.modFaults_changes _ _) (by decide)
    · exact OnlyChanges.refl _ _
  refine OnlyChanges.ite ?_ ?_
  · exact OnlyChanges.refl _ _
  · refine OnlyChanges.ite ?_ ?_
    · refine OnlyChanges.step ?_ (State.recordFixed_changes _ _ _ _) (by decide)
      · exact h4
    · refine OnlyChanges.step ?_ (State.damageRecord_changes _ _ _ _) (by decide)
      · exact h4

theorem State.openCtx_changes (s : State) (o : Origin) (c : CtxNo) (b : Bytes) : OnlyChanges [.mboxes, .keeper, .fabric, .recd, .faults, .chans, .tally, .ctxs, .readyQ, .frames, .snap, .power] s (State.openCtx s o c b) := by
  unfold State.openCtx
  refine OnlyChanges.ite ?_ ?_
  · refine OnlyChanges.step ?_ (State.refuseTenant_changes _ _) (by decide)
    · exact OnlyChanges.refl _ _
  · split
    · refine OnlyChanges.step ?_ (State.verbDone_changes _ _ _ _ _) (by decide)
      · exact OnlyChanges.refl _ _
    · refine OnlyChanges.ite ?_ ?_
      · refine OnlyChanges.step ?_ (State.verbDone_changes _ _ _ _ _) (by decide)
        · exact OnlyChanges.refl _ _
      · refine OnlyChanges.ite ?_ ?_
        · refine OnlyChanges.step ?_ (State.powerUp_changes _ _) (by decide)
          · refine OnlyChanges.step ?_ (State.powerUp_changes _ _) (by decide)
            · exact OnlyChanges.refl _ _
        · refine OnlyChanges.step ?_ (State.verbDone_changes _ _ _ _ _) (by decide)
          · refine OnlyChanges.step ?_ (State.recordWritten_changes _ _) (by decide)
            · refine OnlyChanges.step ?_ (State.setCtx_changes _ _ _) (by decide)
              · exact OnlyChanges.refl _ _

theorem execCtxOpen_changes (o : Origin) (s : State) : ∃ t, (execCtxOpen o s) = .next t ∧ OnlyChanges [.mboxes, .keeper, .fabric, .recd, .faults, .chans, .tally, .ctxs, .readyQ, .frames, .snap, .power] s t := by
  refine ⟨_, rfl, ?_⟩
  apply State.runVerb_ho
  · decide
  · exact OnlyChanges.refl _ _
  · intro a2
    extract_lets x3_0
    refine OnlyChanges.ite ?_ ?_
    · refine OnlyChanges.ite ?_ ?_
      · refine OnlyChanges.step ?_ (State.verbDone_changes _ _ _ _ _) (by decide)
        · exact OnlyChanges.refl _ _
      · refine OnlyChanges.step ?_ (State.refuseTenant_changes _ _) (by decide)
        · exact OnlyChanges.refl _ _
    · apply State.withStruct_ho
      · decide
      · exact OnlyChanges.refl _ _
      · intro a4
        refine OnlyChanges.step ?_ (State.openCtx_changes _ _ _ _) (by decide)
        · exact OnlyChanges.refl _ _

theorem execFltStatClear_changes (w : Word) (raised : Word) (s : State) : ∃ t, (execFltStatClear w raised s) = .next t ∧ OnlyChanges [.faults] s t := by
  refine ⟨_, rfl, ?_⟩
  refine OnlyChanges.ite ?_ ?_
  · refine OnlyChanges.step ?_ (State.modFaults_changes _ _) (by decide)
    · exact OnlyChanges.refl _ _
  · exact OnlyChanges.refl _ _

theorem execKnockDropRead_changes (s : State) : ∃ t, (execKnockDropRead s) = .next t ∧ OnlyChanges [.regs] s t := by
  refine ⟨_, rfl, ?_⟩
  extract_lets x1_0 x1_1 x1_2
  have h4 : OnlyChanges [Part.regs] s x1_0 := by
    unfold x1_0
    refine OnlyChanges.step ?_ (State.answerRead_changes _ _) (by decide)
    · exact OnlyChanges.refl _ _
  refine OnlyChanges.ite ?_ ?_
  · refine OnlyChanges.step ?_ (State.answerRead_changes _ _) (by decide)
    · exact OnlyChanges.refl _ _
  · refine OnlyChanges.put_regs _ ?_ (by decide)
    exact h4

theorem State.scrubSlot_changes (s : State) (f : ℕ) (ecc : Ecc) : OnlyChanges [.ctxs, .frames, .fabric, .faults, .snap, .recd] s (State.scrubSlot s f ecc) := by
  unfold State.scrubSlot
  extract_lets x3_0 x3_1 x3_2 x3_3 x3_4 x3_5 x3_6 x3_7
  have h11 : OnlyChanges [Part.ctxs, Part.frames, Part.fabric, Part.faults, Part.snap, Part.recd] s x3_1 := by
    unfold x3_1
    refine OnlyChanges.step ?_ (State.modFrame_changes _ _ _) (by decide)
    · exact OnlyChanges.refl _ _
  have h12 : OnlyChanges [Part.ctxs, Part.frames, Part.fabric, Part.faults, Part.snap, Part.recd] s x3_5 := by
    unfold x3_5
    refine OnlyChanges.step ?_ (State.setSlotAt_changes _ _ _ _) (by decide)
    · exact h11
  have h13 : OnlyChanges [Part.ctxs, Part.frames, Part.fabric, Part.faults, Part.snap, Part.recd] s x3_6 := by
    unfold x3_6
    refine OnlyChanges.step ?_ (State.raise_changes _ _) (by decide)
    · exact h12
  refine OnlyChanges.ite ?_ ?_
  · exact h11
  · refine OnlyChanges.ite ?_ ?_
    · exact h13
    · split
      · refine OnlyChanges.step ?_ (State.endWork_changes _ _ _ _ _) (by decide)
        · refine OnlyChanges.step ?_ (State.setSlotAt_changes _ _ _ _) (by decide)
          · exact h13
      · refine OnlyChanges.step ?_ (State.setSlotAt_changes _ _ _ _) (by decide)
        · exact h13
      · exact h13

theorem execPantryScrub_changes (f : Fin 16) (ecc : Ecc) (s : State) : ∃ t, (execPantryScrub f ecc s) = .next t ∧ OnlyChanges [.frames, .faults, .snap, .recd, .fabric, .ctxs, .power] s t := by
  refine ⟨_, rfl, ?_⟩
  extract_lets x3_0 x3_1
  have h5 : OnlyChanges [Part.frames, Part.faults, Part.snap, Part.recd, Part.fabric, Part.ctxs, Part.power] s x3_1 := by
    unfold x3_1
    refine OnlyChanges.ite ?_ ?_
    · refine OnlyChanges.step ?_ (State.raiseFrame_changes _ _) (by decide)
      · refine OnlyChanges.step ?_ (State.modFrame_changes _ _ _) (by decide)
        · exact OnlyChanges.refl _ _
    · exact OnlyChanges.refl _ _
  refine OnlyChanges.ite ?_ ?_
  · exact OnlyChanges.refl _ _
  · refine OnlyChanges.ite ?_ ?_
    · refine OnlyChanges.step ?_ (State.scrubSlot_changes _ _ _) (by decide)
      · exact h5
    · exact h5

theorem execFltInjectDoubleFlip_changes (w : BitVec 32) (s : State) : ∃ t, (execFltInjectDoubleFlip w s) = .next t ∧ OnlyChanges [.faults, .frames, .snap, .recd] s t := by
  refine ⟨_, rfl, ?_⟩
  refine OnlyChanges.ite ?_ ?_
  · refine OnlyChanges.step ?_ (State.injectWrite_changes _ _) (by decide)
    · exact OnlyChanges.refl _ _
  · exact OnlyChanges.refl _ _

theorem execLogAnchor_changes (o : Origin) (s : State) : ∃ t, (execLogAnchor o s) = .next t ∧ OnlyChanges [.recd, .mboxes, .keeper, .fabric] s t := by
  refine ⟨_, rfl, ?_⟩
  extract_lets x2_0
  apply State.runVerb_ho
  · decide
  · exact OnlyChanges.refl _ _
  · intro a3
    extract_lets x4_0 x4_1
    have h6 : OnlyChanges [Part.recd, Part.mboxes, Part.keeper, Part.fabric] s x4_1 := by
      unfold x4_1
      refine OnlyChanges.step ?_ (State.modRecd_changes _ _) (by decide)
      · exact OnlyChanges.refl _ _
    refine OnlyChanges.step ?_ (State.verbDone_changes _ _ _ _ _) (by decide)
    · refine OnlyChanges.step ?_ (State.event_changes _ _) (by decide)
      · exact h6

theorem execFrameDemandWake_changes (f : Fin 16) (s : State) : ∃ t, (execFrameDemandWake f s) = .next t ∧ OnlyChanges [.power, .frames] s t := by
  refine ⟨_, rfl, ?_⟩
  refine OnlyChanges.ite ?_ ?_
  · refine OnlyChanges.step ?_ (State.raiseFrame_changes _ _) (by decide)
    · refine OnlyChanges.step ?_ (State.modFrame_changes _ _ _) (by decide)
      · exact OnlyChanges.refl _ _
  · exact OnlyChanges.refl _ _

theorem execDroopSensorTrim_changes (s : State) : ∃ t, (execDroopSensorTrim s) = .next t ∧ OnlyChanges [.power] s t := by
  refine ⟨_, rfl, ?_⟩
  extract_lets x1_0
  refine OnlyChanges.ite ?_ ?_
  · exact OnlyChanges.refl _ _
  · refine OnlyChanges.put_power _ ?_ (by decide)
    exact OnlyChanges.refl _ _

theorem execCredit_changes (l : Fin 18) (s : State) : ∃ t, (execCredit l s) = .next t ∧ OnlyChanges [.fabric] s t := by
  refine ⟨_, rfl, ?_⟩
  apply State.takeMsg_ho
  · decide
  · exact OnlyChanges.refl _ _
  · intro a2
    refine PairMay.some ?_
    refine OnlyChanges.step ?_ (State.takeCredit_changes _ _) (by decide)
    · exact OnlyChanges.refl _ _

theorem execWaggleRecordPart_changes (l : Fin 18) (flit : Bytes) (s : State) : ∃ t, (execWaggleRecordPart l flit s) = .next t ∧ OnlyChanges [.fabric, .free, .mboxes, .keeper, .recd, .frames, .ctxs, .faults, .snap, .tally, .swarms, .sec] s t := by
  refine ⟨_, rfl, ?_⟩
  refine OnlyChanges.ite ?_ ?_
  · exact OnlyChanges.refl _ _
  · refine OnlyChanges.step ?_ (State.partTaken_changes _ _ _ _) (by decide)
    · refine OnlyChanges.step ?_ (State.modLink_changes _ _ _) (by decide)
      · exact OnlyChanges.refl _ _

theorem State.throttleTick_changes (s : State) : OnlyChanges [.power, .telem] s (State.throttleTick s) := by
  unfold State.throttleTick
  extract_lets x1_0 x1_1
  refine OnlyChanges.ite ?_ ?_
  · exact OnlyChanges.refl _ _
  · refine OnlyChanges.ite ?_ ?_
    · refine OnlyChanges.put_power _ ?_ (by decide)
      exact OnlyChanges.refl _ _
    · refine OnlyChanges.upd (s) ?_ (fun p hp => by cases p <;> first | rfl | exact absurd (by decide) hp)
      exact OnlyChanges.refl _ _

theorem State.rateGrow_changes (s : State) (k : ℕ) (ch : ℕ) : OnlyChanges [.chans] s (State.rateGrow s k ch) := by
  unfold State.rateGrow
  extract_lets x3_0
  split
  · exact OnlyChanges.refl _ _
  · extract_lets x9_0
    refine OnlyChanges.step ?_ (State.setChan_changes _ _ _) (by decide)
    · exact OnlyChanges.refl _ _

theorem timeTick_changes (s : State) : OnlyChanges [.ptime, .recd, .faults, .frames, .snap] s (timeTick s) := by
  unfold timeTick
  refine OnlyChanges.ite ?_ ?_
  · exact OnlyChanges.refl _ _
  · refine OnlyChanges.ite ?_ ?_
    · refine OnlyChanges.step ?_ (State.wrapTime_changes _) (by decide)
      · exact OnlyChanges.refl _ _
    · refine OnlyChanges.put_ptime _ ?_ (by decide)
      exact OnlyChanges.refl _ _

theorem State.drainOff_changes (s : State) : OnlyChanges [.chans, .tally, .ctxs, .readyQ, .frames, .fabric] s (State.drainOff s) := by
  unfold State.drainOff
  refine OnlyChanges.foldl _ (fun t1 _ => ?_) _ _ ?_
  · refine OnlyChanges.ite ?_ ?_
    · refine OnlyChanges.step ?_ (State.driveFrame_changes _ _) (by decide)
      · exact OnlyChanges.refl _ _
    · exact OnlyChanges.refl _ _
  · exact OnlyChanges.refl _ _

theorem State.frameWaits_changes (s : State) (f : ℕ) (n : ℕ) : OnlyChanges [.ctxs, .chans, .frames, .taps, .xlate, .tally, .fabric, .faults, .snap, .recd] s (State.frameWaits s f n) := by
  unfold State.frameWaits
  extract_lets x3_0 x3_1
  refine OnlyChanges.ite ?_ ?_
  · exact OnlyChanges.refl _ _
  · refine OnlyChanges.step ?_ (State.modFrame_changes _ _ _) (by decide)
    · exact OnlyChanges.refl _ _

theorem idleTick_changes (s : State) : OnlyChanges [.snap, .chans, .ptime, .recd, .faults, .frames, .power, .telem, .tally, .ctxs, .readyQ, .fabric, .keeper, .mboxes, .taps, .xlate, .sec, .free] s (idleTick s) := by
  unfold idleTick
  extract_lets x1_0 x1_1 x1_2 x1_3 x1_4
  have h6 : OnlyChanges [Part.snap, Part.chans, Part.ptime, Part.recd, Part.faults, Part.frames, Part.power, Part.telem, Part.tally, Part.ctxs, Part.readyQ, Part.fabric, Part.keeper, Part.mboxes, Part.taps, Part.xlate, Part.sec, Part.free] s x1_0 := by
    unfold x1_0
    refine OnlyChanges.step ?_ (State.throttleTick_changes _) (by decide)
    · refine OnlyChanges.step ?_ (timeTick_changes _) (by decide)
      · exact OnlyChanges.refl _ _
  have h7 : OnlyChanges [Part.snap, Part.chans, Part.ptime, Part.recd, Part.faults, Part.frames, Part.power, Part.telem, Part.tally, Part.ctxs, Part.readyQ, Part.fabric, Part.keeper, Part.mboxes, Part.taps, Part.xlate, Part.sec, Part.free] s x1_2 := by
    unfold x1_2
    refine OnlyChanges.put_snap _ ?_ (by decide)
    exact h6
  have h8 : OnlyChanges [Part.snap, Part.chans, Part.ptime, Part.recd, Part.faults, Part.frames, Part.power, Part.telem, Part.tally, Part.ctxs, Part.readyQ, Part.fabric, Part.keeper, Part.mboxes, Part.taps, Part.xlate, Part.sec, Part.free] s x1_3 := by
    unfold x1_3
    refine OnlyChanges.foldl _ (fun t8 _ => ?_) _ _ ?_
    · refine OnlyChanges.step ?_ (State.rateGrow_changes _ _ _) (by decide)
      · exact OnlyChanges.refl _ _
    · exact h7
  have h9 : OnlyChanges [Part.snap, Part.chans, Part.ptime, Part.recd, Part.faults, Part.frames, Part.power, Part.telem, Part.tally, Part.ctxs, Part.readyQ, Part.fabric, Part.keeper, Part.mboxes, Part.taps, Part.xlate, Part.sec, Part.free] s x1_4 := by
    unfold x1_4
    refine OnlyChanges.foldl _ (fun t9 _ => ?_) _ _ ?_
    · refine OnlyChanges.step ?_ (State.frameWaits_changes _ _ _) (by decide)
      · exact OnlyChanges.refl _ _
    · exact h8
  refine OnlyChanges.ite ?_ ?_
  · exact OnlyChanges.refl _ _
  · refine OnlyChanges.step ?_ (State.settlePower_changes _) (by decide)
    · refine OnlyChanges.step ?_ (State.calLinks_changes _) (by decide)
      · refine OnlyChanges.step ?_ (State.drainOff_changes _) (by decide)
        · exact h9

end Sys2Proof.Machine
end

