-- ==== Sys2Proof/WellFormed.lean ====
section
/-! DEFINITION. Which operands a command's signals can carry: a register write belongs to a row only with the bit that
gives the row its name set, a beat has the width of its port, and the static inputs have the sizes of their ports. The
meanings are total and do not rest on it. -/
namespace Sys2Proof

/-- FI_MODE, bits 9:8 of FLT_INJECT (R387). -/
def fiMode (w : BitVec 32) : Nat := (w.toNat >>> 8) % 4

/-- The identity store and the stack map have the sizes of their ports (R461, R462): a secret of 48 B, a root digest of 48 B, a
chain of at most 2,048 B, at most 32 map records; window, credit and tap inputs name ports and taps that exist. -/
def StaticIn.wf (i : StaticIn) : Bool :=
  decide (i.stackMap.length ≤ 32) && decide (i.idSecret.length ≤ 48) && decide (i.idRoot.length ≤ 48) &&
    decide (i.idChain.length ≤ 2048) && i.swin.all (fun p => decide (p.1 < 256)) &&
    i.rdCr.all (fun p => decide (p.1 < 64)) && i.wrCr.all (fun p => decide (p.1 < 64))

/-- Whether a command's operands are ones that its signals can carry. -/
def Instr.wf (i : Instr) : Bool :=
  match i with
  | .mboxRing _ w => w.getLsbD 0
  | .mboxCancel _ w => w.getLsbD 6
  | .mboxDoneClear _ w => w.getLsbD 2
  | .verbAccept => true
  | .keeperPing _ => true
  | .fwInfo _ => true
  | .fwLoad _ => true
  | .fwActivate _ => true
  | .fwActivateRestart => true
  | .mboxBind _ => true
  | .mboxUnbind _ => true
  | .tenantOpen _ => true
  | .tenantClose _ => true
  | .ctxOpen _ => true
  | .ctxClose _ => true
  | .ctxPause _ => true
  | .ctxPauseDrainEnd _ => true
  | .ctxResume _ => true
  | .ctxAbort _ entries => entries.all (fun e => e.length == 128)
  | .ctxQuery _ => true
  | .ctxRate _ => true
  | .mapInval _ => true
  | .invalDrainEnd => true
  | .mapDigest _ => true
  | .winSet _ => true
  | .winClear _ => true
  | .winClearDrainEnd _ => true
  | .memInfo _ => true
  | .ksetRegister _ => true
  | .ksetRetire _ => true
  | .ksetRetireDrainEnd _ => true
  | .ksetBind _ => true
  | .swarmOpen _ => true
  | .swarmClose _ => true
  | .swarmCloseFinish _ => true
  | .swarmCloseEjectTimeout _ => true
  | .modSet _ => true
  | .scaleLoad _ => true
  | .tallyVirt _ => true
  | .tallyRead _ => true
  | .testKat _ _ => true
  | .testFrame _ => true
  | .frameTestDrainEnd _ => true
  | .frameTestDrainTimeout => true
  | .calRun _ => true
  | .snapTake _ => true
  | .logAnchor _ => true
  | .logFlush _ => true
  | .linkInfo _ => true
  | .relayAllow _ => true
  | .linkRekey _ => true
  | .rekeyTimeout _ => true
  | .pwrFrame _ => true
  | .pwrFrameDrainEnd _ _ => true
  | .engineQuiesce _ => true
  | .quiesceRemoteDrained => true
  | .quiesceSleepHoldEnd => true
  | .relayTimeout _ => true
  | .keeperReset w => w.getLsbD 0
  | .keeperBeatTimeout => true
  | .keeperBeatTick => true
  | .knock _ => true
  | .knockNarrow _ strobe => strobe != 0xFF && strobe != 0
  | .watchPoll _ _ data fail => fail || data.length == 128
  | .contextBind _ => true
  | .contextIdleUnbind _ => true
  | .preempt _ => true
  | .descriptorFetchReturn _ data fail => fail || data.length == 128 || data.length == 256
  | .descriptorStart _ => true
  | .nop _ => true
  | .copy _ => true
  | .wait _ => true
  | .waitSatisfied _ => true
  | .waitEntryFreed _ => true
  | .feed _ => true
  | .tapArbitration _ => true
  | .readDataReturn _ _ _ data _ => data.length == 128
  | .writeDone _ _ _ => true
  | .tapCreditReturn _ _ => true
  | .untaggedFail _ => true
  | .frameStopDrainEnd _ => true
  | .responseLostTimeout _ => true
  | .descriptorComplete _ => true
  | .statusWriteAck _ => true
  | .postRecordLanded _ => true
  | .foragerWalk _ => true
  | .feedPortDeliver _ => true
  | .landCr _ => true
  | .strmCr _ => true
  | .fetReq _ => true
  | .fetV _ data _ => data.length == 64
  | .spineTransfer _ _ => true
  | .swarmBeatIssue _ => true
  | .swarmEject _ _ => true
  | .seedExpand _ => true
  | .tpReadTally _ _ _ => true
  | .tpIncrement _ _ _ => true
  | .tpArmTallyWait _ _ _ _ => true
  | .tpCreditGive _ _ _ => true
  | .tpCreditTake _ _ _ => true
  | .tpArmCreditWait _ _ _ _ => true
  | .tpDisarmSlot _ _ _ => true
  | .tpReadCredit _ _ _ => true
  | .deadlockTimeout => true
  | .lendUpdate => true
  | .lendTimeout _ => true
  | .barrierEnable _ w => w.getLsbD 55
  | .barrierDisable _ w => !w.getLsbD 55
  | .credCfgWrite _ _ => true
  | .tallyOwnWrite _ _ => true
  | .linkTrained _ _ _ => true
  | .laneLoss _ => true
  | .sealSilenceTimeout _ => true
  | .flitSend _ _ => true
  | .sealPeriodic _ => true
  | .messageFlitReceive _ flit => flit.length == 128
  | .sealReceive _ flit => flit.length == 128
  | .replayTimeout _ => true
  | .idleFlitReceive _ flit => flit.length == 128
  | .echo _ flit => flit.length == 128
  | .echoReply _ flit _ => flit.length == 128
  | .echoPeriodic _ => true
  | .waggleRecordPart _ flit => flit.length == 128
  | .identityPart _ flit => flit.length == 128
  | .recordAcknowledgement _ flit => flit.length == 128
  | .waggleRepeat _ => true
  | .waggleAckTimeout _ => true
  | .waggleRetry _ => true
  | .waggleResend _ => true
  | .write _ => true
  | .lid _ => true
  | .lidDataLanded _ _ => true
  | .read _ => true
  | .readData _ => true
  | .landed _ => true
  | .refuse _ => true
  | .notReady _ => true
  | .notReadyBackoffEnd _ => true
  | .abandon _ => true
  | .credit _ => true
  | .creditReturnTimer _ => true
  | .tallyMessage _ => true
  | .keeper _ => true
  | .rekey _ => true
  | .partnerAdmit => true
  | .partnerRamp _ => true
  | .groupIdleTimeout _ _ => true
  | .remoteTimeout _ kind tag => kind != .group || tag.toNat < 64
  | .receiverRequestDrop _ => true
  | .keeperMemoryResponse data _ _ => data.length == 64
  | .controlPortRefused _ _ _ _ => true
  | .registerWrite _ _ _ => true
  | .fltStatClear _ _ => true
  | .fcValidClear w => w.getLsbD 6
  | .fltCorrRead => true
  | .knockDropRead => true
  | .snapStatRead => true
  | .smokerStatRead => true
  | .afClear w => w.getLsbD 8
  | .frameRestart _ => true
  | .epRelease w => w.getLsbD 1
  | .fltInjectCollector w => fiMode w == 0
  | .fltInjectSingleFlip w => fiMode w == 1
  | .fltInjectDoubleFlip w => fiMode w == 2
  | .errPinMinimumEnd => true
  | .blockResetReaction => true
  | .aoRstN inp => inp.wf
  | .blkRstN inp => inp.wf
  | .kbGo w => w.getLsbD 63
  | .bootAuthDone => true
  | .hiveTestsDone _ => true
  | .stackMapRead => true
  | .linkStartupTimeout => true
  | .readiness => true
  | .pwrFailN => true
  | .wakeReq => true
  | .pwrWake w => w.getLsbD 0
  | .pwrAck _ _ => true
  | .clkAck _ _ => true
  | .pwrRetAck _ _ => true
  | .handshakeTimeout clk n => clk == false && n.val < 65 || n.val < 22
  | .frameDemandWake _ => true
  | .frameRunToIdle _ => true
  | .frameIdleToNap _ => true
  | .frameNapToOff _ => true
  | .supplyWarning _ => true
  | .supplyDeep _ => true
  | .throttleEscalate _ => true
  | .throttleRelease _ => true
  | .droopHeldTimeout _ => true
  | .pantryScrub _ _ => true
  | .contextStoreScrub _ _ _ => true
  | .droopSensorTrim => true
  | .telemetry => true
  | .flashSectorErase => true
  | .flashOperationDone _ _ => true
  | .flushStart => true
  | .flushAgeTimeout => true
  | .flushDone => true
  | .eventRecordAccept => true
  | .recCursorFlashRead w => w.getLsbD 63
  | .flashReadDone data => data.length == 4096
  | .scTrig w => w.getLsbD 1
  | .snapIn => true
  | .snapshotCapture _ => true
  | .snapshotImageDone => true
  | .ptimeWrap => true
  | .groupNumberReuse _ _ => true
  | .supplyAboveWarning _ => true
  | .flashLogScanDone _ => true
  | .frameTestRetry => true
  | .linkRetrainingRequest _ => true

end Sys2Proof
end

