-- ==== Sys2Proof/Tests/Slice0.lean ====
section
/-! SUPPORT. The tests of the model. For each statement of Obligations.lean that has premises one named theorem shows operands
and a small state that meet them, clause by clause; then come the checks of WellFormed and a few values that the spec states.
A theorem witness_x whose clause reads `MetN (fun (h : Obligations.X) hb1 ... => h ... )` states the conjunction of the N
premises that stand before the conclusion of that clause at these operands: MetN takes them from the statement itself, the
variables hb1, hb2, ... standing for the outer ones. -/
namespace Sys2Proof.Tests
open Sys2Proof.Machine

set_option linter.all false
set_option Elab.async false
set_option maxRecDepth 20000


/-- A state that runs: the keeper ready, every domain and clock granted, every core present, 1 GiB of stack. -/
def on (s : State) : State :=
  { s with inp := { s.inp with present := BitVec.allOnes 256, spadLog2 := 20, shcMib := 16 },
           keeper := { s.keeper with state := 2, phase := .ready, stackMap := [⟨0, 0, 2 ^ 30, 0⟩] },
           power := { s.power with req := BitVec.allOnes 65, ack := BitVec.allOnes 65, clkReq := BitVec.allOnes 22, clkAck := BitVec.allOnes 22 },
           fabric := { s.fabric with ready := true }, sec := { s.sec with passed := 0xFF } }
def base : State := on State.reset
/-- A request with the fields given as (offset, bytes, value). -/
def rq (code : Nat) (l : List (Nat × Nat × Nat)) : Bytes :=
  l.foldl (fun b e => patch b e.1 (leBytes e.2.1 e.2.2)) (patch (zeros 128) 0 (leBytes 2 code))
/-- A verb of mailbox 0 in progress. -/
def vb (code : Nat) (l : List (Nat × Nat × Nat) := []) : VerbProg :=
  { origin := .mbox 0, req := rq code l, accepted := 0, stage := .run, got := [], readFail := false, asked := [], acc := 0 }
def dr (v : VerbProg) : VerbProg := { v with stage := .draining }
/-- The verb with bytes it has read. -/
def rd (v : VerbProg) (addr : Nat) (b : Bytes) : VerbProg :=
  { v with got := (b.zip (List.range b.length)).foldl (fun m p => m.set 0 (addr + p.2) p.1) [],
           asked := (List.range (ceilDiv b.length 256 + 1)).map fun i => alignDown 256 addr + 256 * i }
/-- A state with one verb in progress. -/
def sv (v : VerbProg) (s : State := base) : State := { s with keeper := { s.keeper with verbs := [v] } }
def o0 : Origin := .mbox 0
/-- A descriptor in progress. -/
def wk (kind : WorkKind) (main : Bytes) : Work :=
  { id := 1, idx := 0, main := main, slot := zeros 128, kind := kind, frame := 0, kset := 0, tally := 0, rrTallies := [], unit := 0,
    asked := false, emitted := 0, tileOk := false, tileTag := [], reads := [], readsOut := 0, outs := [], writesOut := 0,
    lastRead := false, draining := false, staged := 0, left := 0, crc := 0, posted := 0, ending := none, ejected := none,
    changed := none, remoteChip := none, stage := .moving, status := 0, detail := 0, tallyDone := false, upto := 0, born := 0,
    waits := 0, accepted := true, ahead := false, postedBefore := false, opened := [], lidOwed := none }
/-- A key-set record. -/
def kb (tenant elem masks seeded mod etype logN addr rows len : Nat) (l : List (Nat × Nat × Nat) := []) : Bytes :=
  let b := l.foldl (fun b e => patch b e.1 (leBytes e.2.1 e.2.2)) (patch (patch (patch (patch (zeros 64) 0
    (leBytes 8 (tenant + elem * 2^16 + masks * 2^20 + seeded * 2^24 + mod * 2^32 + etype * 2^40 + logN * 2^48))) 8 (leBytes 8 addr)) 16 (leBytes 4 rows)) 24 (leBytes 8 len))
  patch b 60 (leBytes 4 (crc32c (slice b 0 60)).toNat)
def ks5 : KeySet := { tenant := 5, elem := 2, masks := 1, mod := 1, etype := 1, logN := 8, rows := 4, len := 8192 }
/-- Tenant 5 open, modulus 1 of 32 bits. -/
def s1 : State := { base with xlate := { base.xlate with roots := [(5, some 0)] }, mods := [(1, { kind := 2, width := 32 })] }
/-- `s1` with key set 3 of tenant 5. -/
def s3 : State := { s1 with ksets := [(3, ks5)] }
def c7 : CtxNo := 7
/-- A context of tenant 5. -/
def cx : Ctx := { state := .idle, tenant := 5 }
/-- `s3` with context 7. -/
def sc (x : Ctx) (s : State := s3) : State := { s with ctxs := [(7, x)] }
def sw : Swarm := { isOpen := true, kset := 3, src := 7, members := 3, win := 4, issued := 4, taken := [(1,4)], timers := 1, region := [(0,zeros 64),(1,[]),(2,[]),(3,[])], ejectUs := 50 }
def ssw (w : List Work) (x : Swarm := sw) : State := { sc { cx with state := .running, channel := 0, bound := true, works := w } with swarms := [(3, x)], chans := [(0, { ctx := some 7 })], frames := [(0, { state := .run })] }
def fw : Work := { wk (.feed 3) (rq 0x10 [(24,8,2),(32,4,256),(36,4,3)]) with kset := 3 }
/-- A privileged context with a ring of 16 entries. -/
def px : Ctx := { state := .running, priv := true, ringLog2 := 4, rateShare := 256, bound := true }
/-- Context 7 bound on channel 0 of frame 0, which runs; taps have credits. -/
def sb (x : Ctx) : State := { s3 with ctxs := [(7, x)], chans := [(0, { ctx := some 7, allowRd := 512, allowWr := 512 })], frames := [(0, { state := .run })], taps := [(0, { rdCr := 1, wrCr := 1 })] }
/-- A COPY of 256 bytes, one row, from stack 0 to stack 65,536. -/
def cpm : Bytes := rq 0x10 [(8,8,4 * 2^57), (16,8,4 * 2^57 + 65536), (24,8,1), (32,4,256)]
def cw : Work := wk .copy cpm
/-- The slot with the block that `cw` reads. -/
def cslot : Slot := { holder := .work 7 1, space := 4, want := 3, have_ := 3, data := (List.range 256).map fun i => (i, BitVec.ofNat 8 (i + 1)), len := 256 }
/-- A message from chip 3 of tenant 5. -/
def mg (op : BitVec 5) (tag : BitVec 16 := 0) (word : Word := 0) (data : Bytes := []) : Msg :=
  { op := op, win := false, dst := 0, src := 3, len := 64, tenant := 5, tag := tag, addr := 4096, word := word, data := data }
/-- Link 17 to chip 3 in service with messages received; chip 3 in service. -/
def sl (q : List Msg) (x : Link := {}) (p : Partner := { adm := .inService }) (s : State := s3) : State :=
  { s with fabric := { s.fabric with links := [(17, { x with state := .service, partner := 3, rxq := q.map fun m => (1, m) })], partners := [(3, p)] },
           frames := [(3, { state := .run })] }
/-- A state with tally values, an open context and a leaf in the second level. -/
def stp0 : State := { sb px with tally := { val := [(9, 7)], frozen := [3], slots := [(3, .tally 9 8)], credCfg := [(9, {tenant := 5, init := 3})], credVal := [(9, { value := 4, under := true })] },
                                 xlate := { s1.xlate with l2 := [(0, [])] } }
/-- A droop region above the cap while the throttled microsecond ends. -/
def srg0 : State := { s3 with power := { s3.power with regions := [(7, { level := 3 })], throtTick := 24 } }

/-- The 1 premise before a conclusion. -/
abbrev Met1 {a p1 c : Prop} (_ : a → p1 → c) : Prop := p1
/-- The 2 premises before a conclusion. -/
abbrev Met2 {a p1 p2 c : Prop} (_ : a → p1 → p2 → c) : Prop := p1 ∧ p2
/-- The 3 premises before a conclusion. -/
abbrev Met3 {a p1 p2 p3 c : Prop} (_ : a → p1 → p2 → p3 → c) : Prop := p1 ∧ p2 ∧ p3
/-- The 4 premises before a conclusion. -/
abbrev Met4 {a p1 p2 p3 p4 c : Prop} (_ : a → p1 → p2 → p3 → p4 → c) : Prop := p1 ∧ p2 ∧ p3 ∧ p4
/-- The 5 premises before a conclusion. -/
abbrev Met5 {a p1 p2 p3 p4 p5 c : Prop} (_ : a → p1 → p2 → p3 → p4 → p5 → c) : Prop := p1 ∧ p2 ∧ p3 ∧ p4 ∧ p5
/-- The 6 premises before a conclusion. -/
abbrev Met6 {a p1 p2 p3 p4 p5 p6 c : Prop} (_ : a → p1 → p2 → p3 → p4 → p5 → p6 → c) : Prop := p1 ∧ p2 ∧ p3 ∧ p4 ∧ p5 ∧ p6
/-- The 7 premises before a conclusion. -/
abbrev Met7 {a p1 p2 p3 p4 p5 p6 p7 c : Prop} (_ : a → p1 → p2 → p3 → p4 → p5 → p6 → p7 → c) : Prop := p1 ∧ p2 ∧ p3 ∧ p4 ∧ p5 ∧ p6 ∧ p7
/-- The 8 premises before a conclusion. -/
abbrev Met8 {a p1 p2 p3 p4 p5 p6 p7 p8 c : Prop} (_ : a → p1 → p2 → p3 → p4 → p5 → p6 → p7 → p8 → c) : Prop := p1 ∧ p2 ∧ p3 ∧ p4 ∧ p5 ∧ p6 ∧ p7 ∧ p8
/-- The 9 premises before a conclusion. -/
abbrev Met9 {a p1 p2 p3 p4 p5 p6 p7 p8 p9 c : Prop} (_ : a → p1 → p2 → p3 → p4 → p5 → p6 → p7 → p8 → p9 → c) : Prop := p1 ∧ p2 ∧ p3 ∧ p4 ∧ p5 ∧ p6 ∧ p7 ∧ p8 ∧ p9
/-- The 10 premises before a conclusion. -/
abbrev Met10 {a p1 p2 p3 p4 p5 p6 p7 p8 p9 p10 c : Prop} (_ : a → p1 → p2 → p3 → p4 → p5 → p6 → p7 → p8 → p9 → p10 → c) : Prop := p1 ∧ p2 ∧ p3 ∧ p4 ∧ p5 ∧ p6 ∧ p7 ∧ p8 ∧ p9 ∧ p10
/-- The 11 premises before a conclusion. -/
abbrev Met11 {a p1 p2 p3 p4 p5 p6 p7 p8 p9 p10 p11 c : Prop} (_ : a → p1 → p2 → p3 → p4 → p5 → p6 → p7 → p8 → p9 → p10 → p11 → c) : Prop := p1 ∧ p2 ∧ p3 ∧ p4 ∧ p5 ∧ p6 ∧ p7 ∧ p8 ∧ p9 ∧ p10 ∧ p11
/-- The 12 premises before a conclusion. -/
abbrev Met12 {a p1 p2 p3 p4 p5 p6 p7 p8 p9 p10 p11 p12 c : Prop} (_ : a → p1 → p2 → p3 → p4 → p5 → p6 → p7 → p8 → p9 → p10 → p11 → p12 → c) : Prop := p1 ∧ p2 ∧ p3 ∧ p4 ∧ p5 ∧ p6 ∧ p7 ∧ p8 ∧ p9 ∧ p10 ∧ p11 ∧ p12
/-- The 13 premises before a conclusion. -/
abbrev Met13 {a p1 p2 p3 p4 p5 p6 p7 p8 p9 p10 p11 p12 p13 c : Prop} (_ : a → p1 → p2 → p3 → p4 → p5 → p6 → p7 → p8 → p9 → p10 → p11 → p12 → p13 → c) : Prop := p1 ∧ p2 ∧ p3 ∧ p4 ∧ p5 ∧ p6 ∧ p7 ∧ p8 ∧ p9 ∧ p10 ∧ p11 ∧ p12 ∧ p13
/-- The 14 premises before a conclusion. -/
abbrev Met14 {a p1 p2 p3 p4 p5 p6 p7 p8 p9 p10 p11 p12 p13 p14 c : Prop} (_ : a → p1 → p2 → p3 → p4 → p5 → p6 → p7 → p8 → p9 → p10 → p11 → p12 → p13 → p14 → c) : Prop := p1 ∧ p2 ∧ p3 ∧ p4 ∧ p5 ∧ p6 ∧ p7 ∧ p8 ∧ p9 ∧ p10 ∧ p11 ∧ p12 ∧ p13 ∧ p14
/-- The 15 premises before a conclusion. -/
abbrev Met15 {a p1 p2 p3 p4 p5 p6 p7 p8 p9 p10 p11 p12 p13 p14 p15 c : Prop} (_ : a → p1 → p2 → p3 → p4 → p5 → p6 → p7 → p8 → p9 → p10 → p11 → p12 → p13 → p14 → p15 → c) : Prop := p1 ∧ p2 ∧ p3 ∧ p4 ∧ p5 ∧ p6 ∧ p7 ∧ p8 ∧ p9 ∧ p10 ∧ p11 ∧ p12 ∧ p13 ∧ p14 ∧ p15
/-- The 16 premises before a conclusion. -/
abbrev Met16 {a p1 p2 p3 p4 p5 p6 p7 p8 p9 p10 p11 p12 p13 p14 p15 p16 c : Prop} (_ : a → p1 → p2 → p3 → p4 → p5 → p6 → p7 → p8 → p9 → p10 → p11 → p12 → p13 → p14 → p15 → p16 → c) : Prop := p1 ∧ p2 ∧ p3 ∧ p4 ∧ p5 ∧ p6 ∧ p7 ∧ p8 ∧ p9 ∧ p10 ∧ p11 ∧ p12 ∧ p13 ∧ p14 ∧ p15 ∧ p16
/-- The 17 premises before a conclusion. -/
abbrev Met17 {a p1 p2 p3 p4 p5 p6 p7 p8 p9 p10 p11 p12 p13 p14 p15 p16 p17 c : Prop} (_ : a → p1 → p2 → p3 → p4 → p5 → p6 → p7 → p8 → p9 → p10 → p11 → p12 → p13 → p14 → p15 → p16 → p17 → c) : Prop := p1 ∧ p2 ∧ p3 ∧ p4 ∧ p5 ∧ p6 ∧ p7 ∧ p8 ∧ p9 ∧ p10 ∧ p11 ∧ p12 ∧ p13 ∧ p14 ∧ p15 ∧ p16 ∧ p17

namespace Verbs
theorem witness_ringSubmitsTheRequestOrOverruns :
    Met2 (fun (h : Obligations.RingSubmitsTheRequestOrOverruns) => h 0 1 base) ∧
    Met2 (fun (h : Obligations.RingSubmitsTheRequestOrOverruns) => h 0 5 { base with mboxes := base.mboxes.set {} 0 { done := true, overrun := true } }) ∧
    Met2 (fun (h : Obligations.RingSubmitsTheRequestOrOverruns) => h 31 1 { base with mboxes := base.mboxes.set {} 31 { busy := true } }) ∧
    Met2 (fun (h : Obligations.RingSubmitsTheRequestOrOverruns) => h 31 1 { base with mboxes := base.mboxes.set {} 31 { done := true } }) ∧
    Met2 (fun (h : Obligations.RingSubmitsTheRequestOrOverruns) => h 31 0x81 { base with mboxes := base.mboxes.set {} 31 { overrun := true } }) := by
  refine ⟨⟨?_, ?_⟩, ⟨?_, ?_⟩, ⟨?_, ?_⟩, ⟨?_, ?_⟩, ⟨?_, ?_⟩⟩ <;>
    first | decide +kernel | (unfold Turn; decide +kernel) | (unfold Waits; decide +kernel) | (unfold HasRead; decide +kernel)
theorem witness_cancelAndDoneWriteOneBit :
    Met3 (fun (h : Obligations.CancelAndDoneWriteOneBit) hb1 hb2 => (h 31 0x40 { base with mboxes := base.mboxes.set {} 31 { busy := true } } hb1 hb2).1) ∧
    Met3 (fun (h : Obligations.CancelAndDoneWriteOneBit) hb1 hb2 => (h 31 0x40 base hb1 hb2).1) ∧
    Met3 (fun (h : Obligations.CancelAndDoneWriteOneBit) hb1 hb2 => (h 31 0x24 { base with mboxes := base.mboxes.set {} 31 { done := true } } hb1 hb2).2) := by
  refine ⟨⟨?_, ?_, ?_⟩, ⟨?_, ?_, ?_⟩, ⟨?_, ?_, ?_⟩⟩ <;>
    first | decide +kernel | (unfold Turn; decide +kernel) | (unfold Waits; decide +kernel) | (unfold HasRead; decide +kernel)
def sAcc (code : Nat) (l : List (Nat × Nat × Nat)) : State := { base with keeper := { base.keeper with rung := [0, 3], running := { base.keeper.running with ifVer := 0 } }, mboxes := base.mboxes.set {} 0 { busy := true, window := ((rq code l).zip (List.range 128)).foldl (fun m p => m.set 0 p.2 p.1) [] } }
theorem witness_verbsAreAcceptedInRingOrder :
    Met8 (fun (h : Obligations.VerbsAreAcceptedInRingOrder) hb1 hb2 hb3 hb4 hb5 hb6 => (h.1 0 [3] (sAcc 0x0100 []) hb1 hb2 hb3 hb4 hb5 hb6).1) ∧
    Met8 (fun (h : Obligations.VerbsAreAcceptedInRingOrder) hb1 hb2 hb3 hb4 hb5 hb6 => (h.1 0 [3] (sAcc 0x0103 []) hb1 hb2 hb3 hb4 hb5 hb6).2.1) ∧
    Met7 (fun (h : Obligations.VerbsAreAcceptedInRingOrder) hb1 hb2 hb3 hb4 hb5 hb6 => (h.1 0 [3] (sAcc 0x0777 []) hb1 hb2 hb3 hb4 hb5 hb6).2.2 kUnknown 0) ∧
    Met2 (fun (h : Obligations.VerbsAreAcceptedInRingOrder) => h.2 0 { vb 0x0100 with stage := .relayed, req := rq 0x0100 [(3,1,1),(2,1,5)] } (sv { vb 0x0100 with stage := .relayed, req := rq 0x0100 [(3,1,1),(2,1,5)] })) := by
  refine ⟨⟨?_, ?_, ?_, ?_, ?_, ?_, ?_, ?_⟩, ⟨?_, ?_, ?_, ?_, ?_, ?_, ?_, ?_⟩, ⟨?_, ?_, ?_, ?_, ?_, ?_, ?_⟩, ⟨?_, ?_⟩⟩ <;>
    first | decide +kernel | (unfold Turn; decide +kernel) | (unfold Waits; decide +kernel) | (unfold HasRead; decide +kernel)
theorem witness_responsesAreWrittenAndLaidOut :
    Met3 (fun (h : Obligations.ResponsesAreWrittenAndLaidOut) => h.1 0 (vb 0x100) 1 2 [1,2,3] (sv (vb 0x100))) ∧
    Met3 (fun (h : Obligations.ResponsesAreWrittenAndLaidOut) => h.1 0 (vb 0x100) 1 2 (zeros 112) (sv (vb 0x100))) ∧
    Met3 (fun (h : Obligations.ResponsesAreWrittenAndLaidOut) => h.2 (vb 0x100) 0xFFFF 0xFFFF (zeros 255) (sv (vb 0x100))) ∧
    Met3 (fun (h : Obligations.ResponsesAreWrittenAndLaidOut) => h.2 (vb 0x100) 0xFFFF 0xFFFF (zeros 255) {sv (vb 0x100) with ptime := 25 * 2^40}) := by
  refine ⟨⟨?_, ?_, ?_⟩, ⟨?_, ?_, ?_⟩, ⟨?_, ?_, ?_⟩, ⟨?_, ?_, ?_⟩⟩ <;>
    first | decide +kernel | (unfold Turn; decide +kernel) | (unfold Waits; decide +kernel) | (unfold HasRead; decide +kernel)
theorem witness_queryVerbsAnswer :
    Met1 (fun (h : Obligations.QueryVerbsAnswer) => (h o0 (vb 0x100) (sv (vb 0x100))).1) ∧
    Met1 (fun (h : Obligations.QueryVerbsAnswer) => (h o0 (vb 0x101) (sv (vb 0x101))).2.1) ∧
    Met2 (fun (h : Obligations.QueryVerbsAnswer) hb1 => (h o0 (vb 0x404) (sv (vb 0x404))).2.2.1 hb1 ⟨0, 0, 2 ^ 30, 0⟩) ∧
    Met2 (fun (h : Obligations.QueryVerbsAnswer) => (h o0 (vb 0x404 [(16,1,31)]) (sv (vb 0x404 [(16,1,31)]))).2.2.2.1) ∧
    Met1 (fun (h : Obligations.QueryVerbsAnswer) => (h o0 (vb 0x701 [(16,2,16383)]) (sv (vb 0x701 [(16,2,16383)]))).2.2.2.2) := by
  refine ⟨?_, ?_, ⟨?_, ?_⟩, ⟨?_, ?_⟩, ?_⟩ <;>
    first | decide +kernel | (unfold Turn; decide +kernel) | (unfold Waits; decide +kernel) | (unfold HasRead; decide +kernel)
def vbi : VerbProg := vb 0x104 [(16,1,31),(18,2,5)]
def vfl : VerbProg := rd (vb 0x102 [(16,8,256),(24,4,256)]) 256 (zeros 256)
def sld : State := { base with keeper := { base.keeper with loaded := some {addr := 256, len := 256} } }
theorem witness_bindingAndFirmwareVerbs :
    Met2 (fun (h : Obligations.BindingAndFirmwareVerbs) => (h.1 o0 vbi (sv vbi)).1) ∧
    Met3 (fun (h : Obligations.BindingAndFirmwareVerbs) hb1 hb2 => ((h.1 o0 vbi (sv vbi s1)).2.1 hb1 hb2).1) ∧
    Met3 (fun (h : Obligations.BindingAndFirmwareVerbs) hb1 hb2 => ((h.1 o0 vbi (sv vbi { s1 with mboxes := [(31, {busy := true})] })).2.1 hb1 hb2).2) ∧
    Met2 (fun (h : Obligations.BindingAndFirmwareVerbs) hb1 => ((h.1 o0 (vb 0x105 [(16,1,31)]) (sv (vb 0x105 [(16,1,31)]) s1)).2.2.1 hb1).1) ∧
    Met2 (fun (h : Obligations.BindingAndFirmwareVerbs) hb1 => ((h.1 o0 (vb 0x105 [(16,1,31)]) (sv (vb 0x105 [(16,1,31)]) { s1 with mboxes := [(31, {busy := true})] })).2.2.1 hb1).2) ∧
    Met1 (fun (h : Obligations.BindingAndFirmwareVerbs) => (h.1 o0 (vb 0xA01 [(16,8,2^63)]) (sv (vb 0xA01 [(16,8,2^63)]))).2.2.2) ∧
    Met5 (fun (h : Obligations.BindingAndFirmwareVerbs) => (h.2 o0 vfl (sv vfl)).2.1 (zeros 256) kBadParam 0x100) ∧
    Met2 (fun (h : Obligations.BindingAndFirmwareVerbs) => (h.2 o0 (vb 0x103) (sv (vb 0x103))).2.2.1) ∧
    Met2 (fun (h : Obligations.BindingAndFirmwareVerbs) => (h.2 o0 (vb 0x103) (sv (vb 0x103) sld)).2.2.2.1) ∧
    Met5 (fun (h : Obligations.BindingAndFirmwareVerbs) => (h.2 o0 (dr (vb 0x103)) (sv (dr (vb 0x103)) sld)).2.2.2.2 {addr := 256, len := 256}) := by
  refine ⟨⟨?_, ?_⟩, ⟨?_, ?_, ?_⟩, ⟨?_, ?_, ?_⟩, ⟨?_, ?_⟩, ⟨?_, ?_⟩, ?_, ⟨?_, ?_, ?_, ?_, ?_⟩, ⟨?_, ?_⟩, ⟨?_, ?_⟩, ⟨?_, ?_, ?_, ?_, ?_⟩⟩ <;>
    first | decide +kernel | (unfold Turn; decide +kernel) | (unfold Waits; decide +kernel) | (unfold HasRead; decide +kernel)
def vto : VerbProg := vb 0x200 [(16,2,5),(24,8,65536)]
def vmi : VerbProg := vb 0x400 [(16,2,5),(24,8,2^57 - 2^25),(32,8,2^25)]
def sdr : State := { s1 with xlate := { s1.xlate with draining := [o0], gen := 1 } }
def scnt : State := { sdr with frames := [(0, { slots := [(0, { holder := .transfer, counted := true, gen := 0 })] })] }
theorem witness_translationVerbsDrainInBatches :
    Met3 (fun (h : Obligations.TranslationVerbsDrainInBatches) => (h.1 o0 vto (sv vto)).1) ∧
    Met3 (fun (h : Obligations.TranslationVerbsDrainInBatches) => (h.1 o0 vto (sv vto s1)).2.1) ∧
    Met4 (fun (h : Obligations.TranslationVerbsDrainInBatches) => (h.1 o0 (vb 0x201 [(16,2,5)]) (sv (vb 0x201 [(16,2,5)]) s1)).2.2.1) ∧
    Met2 (fun (h : Obligations.TranslationVerbsDrainInBatches) => (h.1 o0 (vb 0x201 [(16,2,5)]) (sv (vb 0x201 [(16,2,5)]))).2.2.2.1) ∧
    Met6 (fun (h : Obligations.TranslationVerbsDrainInBatches) => (h.1 o0 vmi (sv vmi s1)).2.2.2.2.1) ∧
    Met6 (fun (h : Obligations.TranslationVerbsDrainInBatches) => (h.1 o0 vmi (sv vmi { s1 with xlate := { s1.xlate with draining := [.mbox 3] } })).2.2.2.2.1) ∧
    Met4 (fun (h : Obligations.TranslationVerbsDrainInBatches) hb1 hb2 hb3 => (h.2 o0 (dr vmi) (sv (dr vmi) scnt) hb1 hb2 hb3).1) ∧
    Met6 (fun (h : Obligations.TranslationVerbsDrainInBatches) hb1 hb2 hb3 => (h.2 o0 (dr vmi) (sv (dr vmi) sdr) hb1 hb2 hb3).2.1) ∧
    Met6 (fun (h : Obligations.TranslationVerbsDrainInBatches) hb1 hb2 hb3 => (h.2 o0 (dr (vb 0x201 [(16,2,5)])) (sv (dr (vb 0x201 [(16,2,5)])) sdr) hb1 hb2 hb3).2.2) := by
  refine ⟨⟨?_, ?_, ?_⟩, ⟨?_, ?_, ?_⟩, ⟨?_, ?_, ?_, ?_⟩, ⟨?_, ?_⟩, ⟨?_, ?_, ?_, ?_, ?_, ?_⟩, ⟨?_, ?_, ?_, ?_, ?_, ?_⟩, ⟨?_, ?_, ?_, ?_⟩, ⟨?_, ?_, ?_, ?_, ?_, ?_⟩, ⟨?_, ?_, ?_, ?_, ?_, ?_⟩⟩ <;>
    first | decide +kernel | (unfold Turn; decide +kernel) | (unfold Waits; decide +kernel) | (unfold HasRead; decide +kernel)
def vws : VerbProg := vb 0x402 [(16,1,255),(24,8,32768),(32,8,3)]
def swn (w : Window) : State := { base with xlate := { base.xlate with wins := [(255, w)] } }
def vmd : VerbProg := { vb 0x401 [(16,2,5)] with asked := (List.range 256).map (256 * ·) }
theorem witness_windowVerbsAndMapDigest :
    Met3 (fun (h : Obligations.WindowVerbsAndMapDigest) => (h.1 o0 vws (sv vws)).1) ∧
    Met3 (fun (h : Obligations.WindowVerbsAndMapDigest) => (h.1 o0 vws (sv vws (swn ⟨true,0,3,false⟩))).2.1) ∧
    Met3 (fun (h : Obligations.WindowVerbsAndMapDigest) => (h.1 o0 (vb 0x403 [(16,1,255)]) (sv (vb 0x403 [(16,1,255)]) (swn ⟨true,0,3,false⟩))).2.2.1) ∧
    Met2 (fun (h : Obligations.WindowVerbsAndMapDigest) => (h.1 o0 (vb 0x403 [(16,1,255)]) (sv (vb 0x403 [(16,1,255)]))).2.2.2.1) ∧
    Met2 (fun (h : Obligations.WindowVerbsAndMapDigest) => (h.1 o0 (dr (vb 0x403 [(16,1,255)])) (sv (dr (vb 0x403 [(16,1,255)])) (swn ⟨true,0,3,true⟩))).2.2.2.2.1) ∧
    Met2 (fun (h : Obligations.WindowVerbsAndMapDigest) => (h.1 o0 (dr (vb 0x403 [(16,1,255)])) (sv (dr (vb 0x403 [(16,1,255)])) { swn ⟨true,0,3,true⟩ with frames := [(0, { slots := [(0, { holder := .fabric 3 4, win := some 255, want := 3 })] })] })).2.2.2.2.2) ∧
    Met2 (fun (h : Obligations.WindowVerbsAndMapDigest) hb1 => (h.2 o0 (vb 0x401 [(16,2,7)]) 0 (sv (vb 0x401 [(16,2,7)])) hb1).1) ∧
    Met3 (fun (h : Obligations.WindowVerbsAndMapDigest) hb1 => (h.2 o0 (vb 0x401 [(16,2,5)]) 0 (sv (vb 0x401 [(16,2,5)]) { s1 with mboxes := [(0, {busy := true, cancel := true})] }) hb1).2.1) ∧
    Met4 (fun (h : Obligations.WindowVerbsAndMapDigest) hb1 => (h.2 o0 (vb 0x401 [(16,2,5)]) 0 (sv (vb 0x401 [(16,2,5)]) { s1 with sec := { s1.sec with failed := 64 } }) hb1).2.2.1) := by
  refine ⟨⟨?_, ?_, ?_⟩, ⟨?_, ?_, ?_⟩, ⟨?_, ?_, ?_⟩, ⟨?_, ?_⟩, ⟨?_, ?_⟩, ⟨?_, ?_⟩, ⟨?_, ?_⟩, ⟨?_, ?_, ?_⟩, ⟨?_, ?_, ?_, ?_⟩⟩ <;>
    first | decide +kernel | (unfold Turn; decide +kernel) | (unfold Waits; decide +kernel) | (unfold HasRead; decide +kernel)
end Verbs

namespace Swarm
def vk (b : Bytes) : VerbProg := rd (vb 0x500 [(16,2,3)]) 0 b
def kOk : Bytes := kb 5 2 1 0 1 1 8 0 4 8192
def kRsv : Bytes := kb 5 2 1 0 1 1 8 0 4 8192 [(59,1,1)]
def kRng : Bytes := kb 5 2 5 0 1 1 8 0 4 8192
def kCmb : Bytes := kb 5 3 1 0 1 1 8 0 4 8192
def kPl : Bytes := kb 5 2 1 0 1 1 8 0 4 8191
def kSe : Bytes := kb 5 2 1 1 1 1 8 0 4 4224
def sx : State := { s1 with sec := {} }
def vrt : VerbProg := vb 0x501 [(16,2,3)]
def vbd : VerbProg := vb 0x502 [(16,4,7),(20,2,3)]
theorem witness_keySetsAreRegisteredRetiredAndBound :
    Met2 (fun (h : Obligations.KeySetsAreRegisteredRetiredAndBound) hb1 => (h.1 o0 (vk kOk) kOk (sv (vk kOk) s3) hb1).1) ∧
    Met3 (fun (h : Obligations.KeySetsAreRegisteredRetiredAndBound) hb1 => (h.1 o0 (vb 0x500 [(16,2,3),(24,8,1)]) [] (sv (vb 0x500 [(16,2,3),(24,8,1)]) s1) hb1).2.1) ∧
    Met4 (fun (h : Obligations.KeySetsAreRegisteredRetiredAndBound) hb1 hb2 hb3 => ((h.1 o0 (vk (zeros 64)) (zeros 64) (sv (vk (zeros 64)) s1) hb1).2.2 hb2 hb3).1) ∧
    Met5 (fun (h : Obligations.KeySetsAreRegisteredRetiredAndBound) hb1 hb2 hb3 hb4 => (((h.1 o0 (vk kRsv) kRsv (sv (vk kRsv) s1) hb1).2.2 hb2 hb3).2 hb4).1 59) ∧
    Met6 (fun (h : Obligations.KeySetsAreRegisteredRetiredAndBound) hb1 hb2 hb3 hb4 => (((h.1 o0 (vk kOk) kOk (sv (vk kOk)) hb1).2.2 hb2 hb3).2 hb4).2.1) ∧
    Met9 (fun (h : Obligations.KeySetsAreRegisteredRetiredAndBound) hb1 hb2 hb3 hb4 hb5 hb6 hb7 hb8 => ((((h.1 o0 (vk kRng) kRng (sv (vk kRng) s1) hb1).2.2 hb2 hb3).2 hb4).2.2 hb5 hb6 hb7 hb8).1 0x102) ∧
    Met10 (fun (h : Obligations.KeySetsAreRegisteredRetiredAndBound) hb1 hb2 hb3 hb4 hb5 hb6 hb7 hb8 => ((((h.1 o0 (vk kCmb) kCmb (sv (vk kCmb) s1) hb1).2.2 hb2 hb3).2 hb4).2.2 hb5 hb6 hb7 hb8).2.1) ∧
    Met11 (fun (h : Obligations.KeySetsAreRegisteredRetiredAndBound) hb1 hb2 hb3 hb4 hb5 hb6 hb7 hb8 hb9 hb10 => (((((h.1 o0 (vk kPl) kPl (sv (vk kPl) s1) hb1).2.2 hb2 hb3).2 hb4).2.2 hb5 hb6 hb7 hb8).2.2 hb9 hb10).1 0x118) ∧
    Met14 (fun (h : Obligations.KeySetsAreRegisteredRetiredAndBound) hb1 hb2 hb3 hb4 hb5 hb6 hb7 hb8 hb9 hb10 => (((((h.1 o0 (vk kSe) kSe (sv (vk kSe) sx) hb1).2.2 hb2 hb3).2 hb4).2.2 hb5 hb6 hb7 hb8).2.2 hb9 hb10).2.1) ∧
    Met13 (fun (h : Obligations.KeySetsAreRegisteredRetiredAndBound) hb1 hb2 hb3 hb4 hb5 hb6 hb7 hb8 hb9 hb10 => (((((h.1 o0 (vk kSe) kSe (sv (vk kSe) s1) hb1).2.2 hb2 hb3).2 hb4).2.2 hb5 hb6 hb7 hb8).2.2 hb9 hb10).2.2) ∧
    Met13 (fun (h : Obligations.KeySetsAreRegisteredRetiredAndBound) hb1 hb2 hb3 hb4 hb5 hb6 hb7 hb8 hb9 hb10 => (((((h.1 o0 (vk kOk) kOk (sv (vk kOk) s1) hb1).2.2 hb2 hb3).2 hb4).2.2 hb5 hb6 hb7 hb8).2.2 hb9 hb10).2.2) ∧
    Met2 (fun (h : Obligations.KeySetsAreRegisteredRetiredAndBound) => (h.2 o0 vrt (sv vrt s1)).1.1) ∧
    Met4 (fun (h : Obligations.KeySetsAreRegisteredRetiredAndBound) hb1 hb2 hb3 => ((h.2 o0 vrt (sv vrt (sc {cx with keySet := 3}))).1.2.1 hb1 hb2 hb3).1) ∧
    Met4 (fun (h : Obligations.KeySetsAreRegisteredRetiredAndBound) hb1 hb2 hb3 => ((h.2 o0 vrt (sv vrt (sc cx))).1.2.1 hb1 hb2 hb3).2) ∧
    Met2 (fun (h : Obligations.KeySetsAreRegisteredRetiredAndBound) hb1 => ((h.2 o0 (dr vrt) (sv (dr vrt) (sc { cx with works := [{ wk .copy (zeros 128) with kset := 3 }] }))).1.2.2 hb1).1) ∧
    Met2 (fun (h : Obligations.KeySetsAreRegisteredRetiredAndBound) hb1 => ((h.2 o0 (dr vrt) (sv (dr vrt) (sc cx))).1.2.2 hb1).2) ∧
    Met2 (fun (h : Obligations.KeySetsAreRegisteredRetiredAndBound) hb1 => ((h.2 o0 vbd (sv vbd s3)).2 hb1).1) ∧
    Met5 (fun (h : Obligations.KeySetsAreRegisteredRetiredAndBound) hb1 hb2 hb3 hb4 => (((h.2 o0 vbd (sv vbd (sc cx s1))).2 hb1).2 hb2 hb3 hb4).1) ∧
    Met7 (fun (h : Obligations.KeySetsAreRegisteredRetiredAndBound) hb1 hb2 hb3 hb4 hb5 hb6 => ((((h.2 o0 vbd (sv vbd (sc {cx with tenant := 6}))).2 hb1).2 hb2 hb3 hb4).2 hb5 hb6).1) ∧
    Met8 (fun (h : Obligations.KeySetsAreRegisteredRetiredAndBound) hb1 hb2 hb3 hb4 hb5 hb6 => ((((h.2 o0 vbd (sv vbd (sc {cx with state := .running}))).2 hb1).2 hb2 hb3 hb4).2 hb5 hb6).2.1) ∧
    Met8 (fun (h : Obligations.KeySetsAreRegisteredRetiredAndBound) hb1 hb2 hb3 hb4 hb5 hb6 => ((((h.2 o0 vbd (sv vbd (sc cx))).2 hb1).2 hb2 hb3 hb4).2 hb5 hb6).2.2) := by
  refine ⟨⟨?_, ?_⟩, ⟨?_, ?_, ?_⟩, ⟨?_, ?_, ?_, ?_⟩, ⟨?_, ?_, ?_, ?_, ?_⟩, ⟨?_, ?_, ?_, ?_, ?_, ?_⟩, ⟨?_, ?_, ?_, ?_, ?_, ?_, ?_, ?_, ?_⟩, ⟨?_, ?_, ?_, ?_, ?_, ?_, ?_, ?_, ?_, ?_⟩, ⟨?_, ?_, ?_, ?_, ?_, ?_, ?_, ?_, ?_, ?_, ?_⟩, ⟨?_, ?_, ?_, ?_, ?_, ?_, ?_, ?_, ?_, ?_, ?_, ?_, ?_, ?_⟩, ⟨?_, ?_, ?_, ?_, ?_, ?_, ?_, ?_, ?_, ?_, ?_, ?_, ?_⟩, ⟨?_, ?_, ?_, ?_, ?_, ?_, ?_, ?_, ?_, ?_, ?_, ?_, ?_⟩, ⟨?_, ?_⟩, ⟨?_, ?_, ?_, ?_⟩, ⟨?_, ?_, ?_, ?_⟩, ⟨?_, ?_⟩, ⟨?_, ?_⟩, ⟨?_, ?_⟩, ⟨?_, ?_, ?_, ?_, ?_⟩, ⟨?_, ?_, ?_, ?_, ?_, ?_, ?_⟩, ⟨?_, ?_, ?_, ?_, ?_, ?_, ?_, ?_⟩, ⟨?_, ?_, ?_, ?_, ?_, ?_, ?_, ?_⟩⟩ <;>
    first | decide +kernel | (unfold Turn; decide +kernel) | (unfold Waits; decide +kernel) | (unfold HasRead; decide +kernel)
def vso (m : Nat) : VerbProg := vb 0x503 [(16,1,1),(18,2,3),(20,4,7),(24,32,m)]
def op : Swarm := { isOpen := true }
def o1 : Origin := .mbox 9
def vsm : VerbProg := { vso (2^255) with origin := .mbox 9 }
def smgr : State := { sc cx with mboxes := [(9, { tenant := some 5 })], swarms := [(1, { op with kset := 4 })], ksets := [(3, ks5), (4, { ks5 with tenant := 6 })] }
def sopn (l : Store Swarm) : State := sv (vso (2^255)) { sc cx with swarms := l }
theorem witness_swarmOpenChecksAndOpens :
    Met2 (fun (h : Obligations.SwarmOpenChecksAndOpens) hb1 => (h o0 (vso 0) (sv (vso 0) (sc cx)) hb1).1) ∧
    Met6 (fun (h : Obligations.SwarmOpenChecksAndOpens) hb1 hb2 hb3 hb4 hb5 hb6 => ((h o0 (vso (2^255)) (sv (vso (2^255)) s3) hb1).2 hb2 hb3 hb4 hb5).1 hb6) ∧
    Met9 (fun (h : Obligations.SwarmOpenChecksAndOpens) hb1 hb2 hb3 hb4 hb5 => ((h o1 vsm (sv vsm smgr) hb1).2 hb2 hb3 hb4 hb5).2.1) ∧
    Met9 (fun (h : Obligations.SwarmOpenChecksAndOpens) hb1 hb2 hb3 hb4 hb5 hb6 hb7 hb8 => (((h o0 (vso (2^255)) (sopn [(0,op),(1,op),(2,op),(3,op)]) hb1).2 hb2 hb3 hb4 hb5).2.2 hb6 hb7 hb8).1) ∧
    Met11 (fun (h : Obligations.SwarmOpenChecksAndOpens) hb1 hb2 hb3 hb4 hb5 hb6 hb7 hb8 hb9 hb10 => ((((h o0 (vso (2^255)) (sopn [(1,op)]) hb1).2 hb2 hb3 hb4 hb5).2.2 hb6 hb7 hb8).2 3 hb9 hb10).1) ∧
    Met12 (fun (h : Obligations.SwarmOpenChecksAndOpens) hb1 hb2 hb3 hb4 hb5 hb6 hb7 hb8 hb9 hb10 hb11 => (((((h o0 (vso (2^255)) (sopn [(0,{op with members := 2^255})]) hb1).2 hb2 hb3 hb4 hb5).2.2 hb6 hb7 hb8).2 3 hb9 hb10).2 hb11).1 3) ∧
    Met13 (fun (h : Obligations.SwarmOpenChecksAndOpens) hb1 hb2 hb3 hb4 hb5 hb6 hb7 hb8 hb9 hb10 hb11 hb12 => ((((((h o0 (vso (2^255)) (sopn [(0,{op with src := 7})]) hb1).2 hb2 hb3 hb4 hb5).2.2 hb6 hb7 hb8).2 3 hb9 hb10).2 hb11).2 hb12).1) ∧
    Met14 (fun (h : Obligations.SwarmOpenChecksAndOpens) hb1 hb2 hb3 hb4 hb5 hb6 hb7 hb8 hb9 hb10 hb11 hb12 => ((((((h o0 (vso (2^255)) (sopn []) hb1).2 hb2 hb3 hb4 hb5).2.2 hb6 hb7 hb8).2 3 hb9 hb10).2 hb11).2 hb12).2) := by
  refine ⟨⟨?_, ?_⟩, ⟨?_, ?_, ?_, ?_, ?_, ?_⟩, ⟨?_, ?_, ?_, ?_, ?_, ?_, ?_, ?_, ?_⟩, ⟨?_, ?_, ?_, ?_, ?_, ?_, ?_, ?_, ?_⟩, ⟨?_, ?_, ?_, ?_, ?_, ?_, ?_, ?_, ?_, ?_, ?_⟩, ⟨?_, ?_, ?_, ?_, ?_, ?_, ?_, ?_, ?_, ?_, ?_, ?_⟩, ⟨?_, ?_, ?_, ?_, ?_, ?_, ?_, ?_, ?_, ?_, ?_, ?_, ?_⟩, ⟨?_, ?_, ?_, ?_, ?_, ?_, ?_, ?_, ?_, ?_, ?_, ?_, ?_, ?_⟩⟩ <;>
    first | decide +kernel | (unfold Turn; decide +kernel) | (unfold Waits; decide +kernel) | (unfold HasRead; decide +kernel)
def vsc : VerbProg := vb 0x504 [(16,1,3)]
theorem witness_swarmMembersAreEjectedAndSwarmsClosed :
    Met2 (fun (h : Obligations.SwarmMembersAreEjectedAndSwarmsClosed) hb1 => (h.1.1 o0 vsc (sv vsc s3) hb1).1) ∧
    Met3 (fun (h : Obligations.SwarmMembersAreEjectedAndSwarmsClosed) hb1 => (h.1.1 o0 vsc (sv vsc (ssw [fw])) hb1).2) ∧
    Met2 (fun (h : Obligations.SwarmMembersAreEjectedAndSwarmsClosed) hb1 => (h.1.2 3 o0 (sv (dr vsc) (ssw [fw] { sw with closing := some o0 })) hb1).1) ∧
    Met2 (fun (h : Obligations.SwarmMembersAreEjectedAndSwarmsClosed) hb1 => (h.1.2 3 o0 (sv (dr vsc) (ssw [] { sw with closing := some o0, members := 2 })) hb1).2) ∧
    Met2 (fun (h : Obligations.SwarmMembersAreEjectedAndSwarmsClosed) => h.2.1 3 0 (ssw [fw])) ∧
    Met1 (fun (h : Obligations.SwarmMembersAreEjectedAndSwarmsClosed) => h.2.2 3 o0 (sv (dr vsc) (ssw [fw] { sw with closing := some o0 }))) := by
  refine ⟨⟨?_, ?_⟩, ⟨?_, ?_, ?_⟩, ⟨?_, ?_⟩, ⟨?_, ?_⟩, ⟨?_, ?_⟩, ?_⟩ <;>
    first | decide +kernel | (unfold Turn; decide +kernel) | (unfold Waits; decide +kernel) | (unfold HasRead; decide +kernel)
def vms (b : Bytes) : VerbProg := rd (vb 0x600 [(16,1,255)]) 0 b
def m2 : Bytes := patch (zeros 64) 0 (leBytes 8 (2 + 256 * 64))
def m1 : Bytes := patch (patch (patch (patch (patch (zeros 64) 0 (leBytes 8 (1 + 256 * 13))) 8 (leBytes 8 7681)) 16 (leBytes 8 5367591850636746239)) 24 (leBytes 8 (2^64 % 7681))) 32 (leBytes 8 (2^128 % 7681))
def vsl (f n m : Nat) (b : Bytes) : VerbProg := rd (vb 0x601 [(16,1,f),(18,2,n),(20,2,m)]) 0 b
def sfr : State := { s1 with frames := [(15, { state := .off }), (14, { scaleRegs := [(4095, 9), (4094, 3)] })] }
theorem witness_tableLoads :
    Met3 (fun (h : Obligations.TableLoads) hb1 hb2 => ((h o0 (vms (zeros 63 ++ [1])) (zeros 63 ++ [1]) (sv (vms (zeros 63 ++ [1])) s1)).1 hb1 hb2).1 40) ∧
    Met4 (fun (h : Obligations.TableLoads) hb1 hb2 => ((h o0 (vms m2) m2 (sv (vms m2) (sc { cx with works := [{ wk .copy (zeros 128) with kset := 3 }] }))).1 hb1 hb2).2) ∧
    Met4 (fun (h : Obligations.TableLoads) hb1 hb2 => ((h o0 (vms m1) m1 (sv (vms m1) s1)).1 hb1 hb2).2) ∧
    Met3 (fun (h : Obligations.TableLoads) hb1 => ((h o0 (vsl 16 0 1 []) [] (sv (vsl 16 0 1 []) s1)).2 hb1).1) ∧
    Met3 (fun (h : Obligations.TableLoads) hb1 => ((h o0 (vsl 255 4095 2 []) [] (sv (vsl 255 4095 2 []) s1)).2 hb1).2.1) ∧
    Met8 (fun (h : Obligations.TableLoads) hb1 hb2 hb3 hb4 => (((h o0 (vsl 255 4095 1 [1,2,3,0]) [1,2,3,0] (sv (vsl 255 4095 1 [1,2,3,0]) s1)).2 hb1).2.2 hb2 hb3 hb4).1 2) ∧
    Met6 (fun (h : Obligations.TableLoads) hb1 hb2 hb3 hb4 => (((h o0 (vsl 255 4095 1 [1,2,0,0]) [1,2,0,0] (sv (vsl 255 4095 1 [1,2,0,0]) sfr)).2 hb1).2.2 hb2 hb3 hb4).2) ∧
    Met6 (fun (h : Obligations.TableLoads) hb1 hb2 hb3 hb4 => (((h o0 (vsl 15 4095 1 [1,2,0,0]) [1,2,0,0] (sv (vsl 15 4095 1 [1,2,0,0]) sfr)).2 hb1).2.2 hb2 hb3 hb4).2) := by
  refine ⟨⟨?_, ?_, ?_⟩, ⟨?_, ?_, ?_, ?_⟩, ⟨?_, ?_, ?_, ?_⟩, ⟨?_, ?_, ?_⟩, ⟨?_, ?_, ?_⟩, ⟨?_, ?_, ?_, ?_, ?_, ?_, ?_, ?_⟩, ⟨?_, ?_, ?_, ?_, ?_, ?_⟩, ⟨?_, ?_, ?_, ?_, ?_, ?_⟩⟩ <;>
    first | decide +kernel | (unfold Turn; decide +kernel) | (unfold Waits; decide +kernel) | (unfold HasRead; decide +kernel)
def sfd (w : Work) (x : Swarm := { sw with feeder := 1 }) : State := ssw [w] x
def fwe : Work := { fw with asked := true, emitted := 32 }
theorem witness_feedGoesRowByRow :
    Met9 (fun (h : Obligations.FeedGoesRowByRow) hb1 hb2 hb3 hb4 hb5 hb6 hb7 => (h 0 7 3 fw (sfd fw { sw with feeder := 1, closing := some o0 }) hb1 hb2 hb3 hb4 hb5 hb6 hb7).1) ∧
    Met12 (fun (h : Obligations.FeedGoesRowByRow) hb1 hb2 hb3 hb4 hb5 hb6 hb7 hb8 hb9 => ((h 0 7 3 fw (sfd fw) hb1 hb2 hb3 hb4 hb5 hb6 hb7).2 hb8 hb9).1) ∧
    Met15 (fun (h : Obligations.FeedGoesRowByRow) hb1 hb2 hb3 hb4 hb5 hb6 hb7 hb8 hb9 hb10 hb11 hb12 hb13 hb14 => (((h 0 7 3 fwe (sfd fwe { sw with feeder := 1, seeds := [(0,[]),(1,[])] }) hb1 hb2 hb3 hb4 hb5 hb6 hb7).2 hb8 hb9).2 hb10 hb11 hb12 hb13 hb14).1) ∧
    Met15 (fun (h : Obligations.FeedGoesRowByRow) hb1 hb2 hb3 hb4 hb5 hb6 hb7 hb8 hb9 hb10 hb11 hb12 hb13 hb14 => (((h 0 7 3 fwe (sfd fwe { sw with feeder := 1, closing := some o0 }) hb1 hb2 hb3 hb4 hb5 hb6 hb7).2 hb8 hb9).2 hb10 hb11 hb12 hb13 hb14).2) := by
  refine ⟨⟨?_, ?_, ?_, ?_, ?_, ?_, ?_, ?_, ?_⟩, ⟨?_, ?_, ?_, ?_, ?_, ?_, ?_, ?_, ?_, ?_, ?_, ?_⟩, ⟨?_, ?_, ?_, ?_, ?_, ?_, ?_, ?_, ?_, ?_, ?_, ?_, ?_, ?_, ?_⟩, ⟨?_, ?_, ?_, ?_, ?_, ?_, ?_, ?_, ?_, ?_, ?_, ?_, ?_, ?_, ?_⟩⟩ <;>
    first | decide +kernel | (unfold Turn; decide +kernel) | (unfold Waits; decide +kernel) | (unfold HasRead; decide +kernel)
def fwa : Work := { fw with asked := true }
def sbi (x : Swarm := { sw with feeder := 1 }) : State := { sfd fwa x with frames := [(0, { state := .run, slots := [(0, { holder := .work 7 1, addr := 0, want := 3, have_ := 3, data := (List.range 256).map fun i => (i, 1), len := 256 })] })] }
def ex0 : Expand := { sw := 3, index := 2, n := 50, mask := 0xFFFFFFFF, prime := none, lanes := List.replicate 25 7, got := 0, undef := false }
def sex (e : Expand) : State := { ssw [fw] with expand := [(47, e)] }
def full : Store (List Word) := [(0, List.replicate 16384 1)]
def fseed : Work := { fw with kset := 3 }
def ssd : State := { ssw [fseed] { sw with feeder := 1 , seeds := [(0, List.replicate 32 1)] } with ksets := [(3, { ks5 with seeded := true })], expand := [] }
def katv : VerbProg := vb 0x800 [(16,1,2)]
theorem witness_beatsAreIssuedAndSeedsExpanded :
    Met8 (fun (h : Obligations.BeatsAreIssuedAndSeedsExpanded) hb1 hb2 hb3 hb4 hb5 hb6 hb7 => (h.1 3 fwa (List.replicate 64 1) (sbi)  hb1 hb2 hb3 hb4 hb5 hb6 hb7).1) ∧
    Met8 (fun (h : Obligations.BeatsAreIssuedAndSeedsExpanded) hb1 hb2 hb3 hb4 hb5 hb6 hb7 => (h.1 3 fwa (List.replicate 64 1) (sbi { sw with feeder := 1, win := 5 })  hb1 hb2 hb3 hb4 hb5 hb6 hb7).2) ∧
    Met1 (fun (h : Obligations.BeatsAreIssuedAndSeedsExpanded) => (h.2 47 { s3 with sec := {} }).1) ∧
    Met6 (fun (h : Obligations.BeatsAreIssuedAndSeedsExpanded) hb1 hb2 hb3 hb4 hb5 hb6 => ((h.2 47 (sex ex0)).2.2 hb1 hb2 hb3).1 ex0 hb4 |>.2 hb5 hb6) ∧
    Met6 (fun (h : Obligations.BeatsAreIssuedAndSeedsExpanded) hb1 hb2 hb3 hb4 hb5 hb6 => ((h.2 47 (sex { ex0 with got := 40 })).2.2 hb1 hb2 hb3).1 { ex0 with got := 40 } hb4 |>.2 hb5 hb6) ∧
    Met5 (fun (h : Obligations.BeatsAreIssuedAndSeedsExpanded) hb1 hb2 hb3 hb4 => ((h.2 47 { sex { ex0 with index := 5 } with swarms := [(3, { sw with masks := full })] }).2.2 hb1 hb2 hb3).1 { ex0 with index := 5 } hb4 |>.1) ∧
    Met4 (fun (h : Obligations.BeatsAreIssuedAndSeedsExpanded) => (h.2 47 { ssd with power := { ssd.power with ack := 0 } }).2.1) ∧
    Met5 (fun (h : Obligations.BeatsAreIssuedAndSeedsExpanded) hb1 hb2 hb3 hb4 => ((h.2 47 (sv katv ssd)).2.2 hb1 hb2 hb3).2 hb4 |>.1) ∧
    Met6 (fun (h : Obligations.BeatsAreIssuedAndSeedsExpanded) hb1 hb2 hb3 hb4 => ((h.2 47 ssd).2.2 hb1 hb2 hb3).2 hb4 |>.2 3 0 (List.replicate 32 1)) := by
  refine ⟨⟨?_, ?_, ?_, ?_, ?_, ?_, ?_, ?_⟩, ⟨?_, ?_, ?_, ?_, ?_, ?_, ?_, ?_⟩, ?_, ⟨?_, ?_, ?_, ?_, ?_, ?_⟩, ⟨?_, ?_, ?_, ?_, ?_, ?_⟩, ⟨?_, ?_, ?_, ?_, ?_⟩, ⟨?_, ?_, ?_, ?_⟩, ⟨?_, ?_, ?_, ?_, ?_⟩, ⟨?_, ?_, ?_, ?_, ?_, ?_⟩⟩ <;>
    first | decide +kernel | (unfold Turn; decide +kernel) | (unfold Waits; decide +kernel) | (unfold HasRead; decide +kernel)
end Swarm

namespace Keeper
def cIm : Bytes := { cx with rateShare := 256, ringLog2 := 4, tail := 3, doneIdx := 3, fetchIdx := 3 : Ctx }.record
def cImg : Bytes := patch cIm 0 [0]
def vco (b : Bytes) : VerbProg := rd (vb 0x300 [(16,4,7)]) 0 b
def o9 : Origin := .mbox 9
def vc9 (b : Bytes) : VerbProg := { vco b with origin := o9 }
def s9 (s : State) : State := { s with mboxes := [(9, { tenant := some 6 })] }
def vcc : VerbProg := vb 0x301 [(16,4,7)]
theorem witness_contextsOpenAndClose :
    Met3 (fun (h : Obligations.ContextsOpenAndClose) hb1 => (h.1 o0 (vco cImg) cImg (sv (vco cImg) (sc cx)) hb1).1) ∧
    Met3 (fun (h : Obligations.ContextsOpenAndClose) hb1 => (h.1 o9 (vc9 cImg) cImg (sv (vc9 cImg) (s9 (sc cx))) hb1).2.1) ∧
    Met4 (fun (h : Obligations.ContextsOpenAndClose) hb1 hb2 hb3 => (h.1 o9 (vc9 cImg) cImg (sv (vc9 cImg) (s9 s3)) hb1).2.2.1 hb2 hb3) ∧
    Met5 (fun (h : Obligations.ContextsOpenAndClose) hb1 hb2 hb3 hb4 => ((h.1 o0 (vco (zeros 64)) (zeros 64) (sv (vco (zeros 64)) s3) hb1).2.2.2 hb2 hb3 hb4).1 3) ∧
    Met7 (fun (h : Obligations.ContextsOpenAndClose) hb1 hb2 hb3 hb4 hb5 => (((h.1 o0 (vco cImg) cImg (sv (vco cImg) { s3 with sec := {} }) hb1).2.2.2 hb2 hb3 hb4).2 hb5).1) ∧
    Met7 (fun (h : Obligations.ContextsOpenAndClose) hb1 hb2 hb3 hb4 hb5 hb6 => ((((h.1 o0 (vco cImg) cImg (sv (vco cImg) { s3 with power := {} }) hb1).2.2.2 hb2 hb3 hb4).2 hb5).2 hb6).1) ∧
    Met9 (fun (h : Obligations.ContextsOpenAndClose) hb1 hb2 hb3 hb4 hb5 hb6 => ((((h.1 o0 (vco cImg) cImg (sv (vco cImg) s3) hb1).2.2.2 hb2 hb3 hb4).2 hb5).2 hb6).2) ∧
    Met2 (fun (h : Obligations.ContextsOpenAndClose) hb1 => (h.2 o0 vcc (sv vcc s3) hb1).1) ∧
    Met4 (fun (h : Obligations.ContextsOpenAndClose) hb1 => (h.2 o0 vcc (sv vcc (sc {cx with state := .pausing})) hb1).2.1) ∧
    Met4 (fun (h : Obligations.ContextsOpenAndClose) hb1 => (h.2 o0 vcc (sv vcc (ssw [])) hb1).2.1) ∧
    Met6 (fun (h : Obligations.ContextsOpenAndClose) hb1 => (h.2 o0 vcc (sv vcc { sc cx with frames := [(3, { slots := [(5, { recCtx := 7, data := [(1,1)] })] })] }) hb1).2.2) := by
  refine ⟨⟨?_, ?_, ?_⟩, ⟨?_, ?_, ?_⟩, ⟨?_, ?_, ?_, ?_⟩, ⟨?_, ?_, ?_, ?_, ?_⟩, ⟨?_, ?_, ?_, ?_, ?_, ?_, ?_⟩, ⟨?_, ?_, ?_, ?_, ?_, ?_, ?_⟩, ⟨?_, ?_, ?_, ?_, ?_, ?_, ?_, ?_, ?_⟩, ⟨?_, ?_⟩, ⟨?_, ?_, ?_, ?_⟩, ⟨?_, ?_, ?_, ?_⟩, ⟨?_, ?_, ?_, ?_, ?_, ?_⟩⟩ <;>
    first | decide +kernel | (unfold Turn; decide +kernel) | (unfold Waits; decide +kernel) | (unfold HasRead; decide +kernel)
def vpa (k : Nat) : VerbProg := vb 0x302 [(16,4,7),(20,1,k)]
def sps (x : Ctx) : State := { sc { x with state := .pausing, channel := 0, bound := true } with chans := [(0, { ctx := some 7 })], frames := [(0, { state := .run })] }
def fwr : Work := { wk (.feed 3) (rq 0x10 [(24,8,2),(32,4,256),(36,4,3)]) with kset := 3, unit := 2 }
def vrs : VerbProg := vb 0x303 [(16,4,7)]
theorem witness_pauseDrainAndResume :
    Met4 (fun (h : Obligations.PauseDrainAndResume) hb1 hb2 hb3 => ((h o0 (vpa 0) fw (sv (vpa 0) (sc {cx with state := .stopped, part := true, doneIdx := 3, fetchIdx := 5}))).1 hb1 hb2 hb3).1) ∧
    Met4 (fun (h : Obligations.PauseDrainAndResume) hb1 hb2 hb3 => ((h o0 (vpa 1) fw (sv (vpa 1) (sc {cx with state := .paused, part := true, doneIdx := 3, fetchIdx := 5}))).1 hb1 hb2 hb3).1) ∧
    Met4 (fun (h : Obligations.PauseDrainAndResume) hb1 hb2 hb3 => ((h o0 (vpa 1) fw (sv (vpa 1) (sc {cx with state := .ready, tail := 1}))).1 hb1 hb2 hb3).2) ∧
    Met4 (fun (h : Obligations.PauseDrainAndResume) hb1 hb2 hb3 => ((h o0 (vpa 1) fw (sv (vpa 1) (sc {cx with state := .idle}))).1 hb1 hb2 hb3).2) ∧
    Met4 (fun (h : Obligations.PauseDrainAndResume) hb1 hb2 hb3 => ((h o0 (vpa 1) fw (sv (vpa 1) (ssw [fw]))).1 hb1 hb2 hb3).2) ∧
    Met4 (fun (h : Obligations.PauseDrainAndResume) hb1 hb2 hb3 => ((h o0 (vpa 1) fw (sv (vpa 1) (sc { cx with state := .waiting, waitTally := 3, waitValue := 9 }))).1 hb1 hb2 hb3).2) ∧
    Met3 (fun (h : Obligations.PauseDrainAndResume) hb1 => (h o0 (dr (vpa 0)) fw (sv (dr (vpa 0)) (sps {cx with fetchIdx := 5, doneIdx := 2, held := [⟨2,[]⟩]}))).2.1 hb1) ∧
    Met3 (fun (h : Obligations.PauseDrainAndResume) hb1 => (h o0 (dr (vpa 1)) fw (sv (dr (vpa 1)) (sps {cx with fetchIdx := 5, doneIdx := 2, part := true, cursor := 9, failStop := true}))).2.1 hb1) ∧
    Met5 (fun (h : Obligations.PauseDrainAndResume) hb1 hb2 hb3 hb4 hb5 => (h o0 (dr (vpa 1)) fwr (sv (dr (vpa 1)) (sps {cx with fetchIdx := 5, doneIdx := 2, works := [fwr]}))).2.2.1 hb1 hb2 hb3 hb4 hb5) ∧
    Met2 (fun (h : Obligations.PauseDrainAndResume) hb1 => (h o0 (dr (vpa 1)) fw (sv (dr (vpa 1)) (sc {cx with state := .stopped}))).2.2.2.1 hb1) ∧
    Met4 (fun (h : Obligations.PauseDrainAndResume) hb1 hb2 hb3 => ((h o0 vrs fw (sv vrs (sc cx))).2.2.2.2 hb1 hb2 hb3).1) ∧
    Met4 (fun (h : Obligations.PauseDrainAndResume) hb1 hb2 hb3 => ((h o0 vrs fw (sv vrs (sc {cx with state := .stopped, failStop := true}))).2.2.2.2 hb1 hb2 hb3).2) ∧
    Met4 (fun (h : Obligations.PauseDrainAndResume) hb1 hb2 hb3 => ((h o0 vrs fw (sv vrs (sc {cx with state := .paused, tail := 1}))).2.2.2.2 hb1 hb2 hb3).2) ∧
    Met4 (fun (h : Obligations.PauseDrainAndResume) hb1 hb2 hb3 => ((h o0 vrs fw (sv vrs (sc {cx with state := .paused, tail := 1, fetchIdx := 1}))).2.2.2.2 hb1 hb2 hb3).2) := by
  refine ⟨⟨?_, ?_, ?_, ?_⟩, ⟨?_, ?_, ?_, ?_⟩, ⟨?_, ?_, ?_, ?_⟩, ⟨?_, ?_, ?_, ?_⟩, ⟨?_, ?_, ?_, ?_⟩, ⟨?_, ?_, ?_, ?_⟩, ⟨?_, ?_, ?_⟩, ⟨?_, ?_, ?_⟩, ⟨?_, ?_, ?_, ?_, ?_⟩, ⟨?_, ?_⟩, ⟨?_, ?_, ?_, ?_⟩, ⟨?_, ?_, ?_, ?_⟩, ⟨?_, ?_, ?_, ?_⟩, ⟨?_, ?_, ?_, ?_⟩⟩ <;>
    first | decide +kernel | (unfold Turn; decide +kernel) | (unfold Waits; decide +kernel) | (unfold HasRead; decide +kernel)
def vab : VerbProg := vb 0x304 [(16,4,7)]
theorem witness_abortEndsIdle :
    Met2 (fun (h : Obligations.AbortEndsIdle) hb1 => (h o0 vab fw [] (sv vab s3) hb1).1) ∧
    Met6 (fun (h : Obligations.AbortEndsIdle) hb1 hb2 hb3 hb4 hb5 hb6 => (h o0 vab fw [] (sv vab (sc { cx with state := .stopped, failStop := true })) hb1).2.1 hb2 hb3 hb4 hb5 hb6 (by simp)) ∧
    Met7 (fun (h : Obligations.AbortEndsIdle) hb1 hb2 hb3 hb4 hb5 hb6 hb7 => (h o0 vab fw [zeros 128] (sv vab (sc { cx with state := .stopped, failStop := true, part := true, tail := 1 })) hb1).2.1 hb2 hb3 hb4 hb5 hb6 hb7) ∧
    Met9 (fun (h : Obligations.AbortEndsIdle) hb1 hb2 hb3 hb4 hb5 hb6 hb7 hb8 hb9 => (h o0 vab fw [] (sv vab (ssw [fw])) hb1).2.2.1 hb2 hb3 hb4 hb5 hb6 hb7 hb8 hb9) ∧
    Met6 (fun (h : Obligations.AbortEndsIdle) hb1 hb2 hb3 hb4 hb5 => ((h o0 vab fw [] (sv vab (sc { cx with aborting := true, works := [fw] })) hb1).2.2.2 hb2 hb3 hb4 hb5).1) ∧
    Met6 (fun (h : Obligations.AbortEndsIdle) hb1 hb2 hb3 hb4 hb5 => ((h o0 vab fw [] (sv vab (sc { cx with aborting := true })) hb1).2.2.2 hb2 hb3 hb4 hb5).2) := by
  refine ⟨⟨?_, ?_⟩, ⟨?_, ?_, ?_, ?_, ?_, ?_⟩, ⟨?_, ?_, ?_, ?_, ?_, ?_, ?_⟩, ⟨?_, ?_, ?_, ?_, ?_, ?_, ?_, ?_, ?_⟩, ⟨?_, ?_, ?_, ?_, ?_, ?_⟩, ⟨?_, ?_, ?_, ?_, ?_, ?_⟩⟩ <;>
    first | decide +kernel | (unfold Turn; decide +kernel) | (unfold Waits; decide +kernel) | (unfold HasRead; decide +kernel)
def vqq (n : Nat) : VerbProg := vb n [(16,4,7),(20,2,256)]
def vtv (b : Bytes) : VerbProg := rd (vb 0x700 [(16,4,7)]) 0 b
def tb (e : Nat) : Bytes := zeros 126 ++ leBytes 2 e
theorem witness_contextQueryRateAndMap :
    Met3 (fun (h : Obligations.ContextQueryRateAndMap) => (h o0 (vqq 0x305) [] (sv (vqq 0x305) (sc cx))).1) ∧
    Met2 (fun (h : Obligations.ContextQueryRateAndMap) => (h o0 (vqq 0x305) [] (sv (vqq 0x305) s3)).2.1) ∧
    Met4 (fun (h : Obligations.ContextQueryRateAndMap) => (h o0 (vqq 0x306) [] (sv (vqq 0x306) (sc cx))).2.2.1) ∧
    Met4 (fun (h : Obligations.ContextQueryRateAndMap) hb1 hb2 hb3 => ((h o0 (vtv []) [] (sv (vtv []) (sc {cx with state := .running}))).2.2.2 hb1 hb2 hb3).1) ∧
    Met6 (fun (h : Obligations.ContextQueryRateAndMap) hb1 hb2 hb3 hb4 hb5 => (((h o0 (vtv (tb 5)) (tb 5) (sv (vtv (tb 5)) (sc cx))).2.2.2 hb1 hb2 hb3).2 hb4 hb5).1 63) ∧
    Met7 (fun (h : Obligations.ContextQueryRateAndMap) hb1 hb2 hb3 hb4 hb5 => (((h o0 (vtv (tb 0x8005)) (tb 0x8005) (sv (vtv (tb 0x8005)) {sc cx with tally := { s3.tally with own := [(0, 5)] } })).2.2.2 hb1 hb2 hb3).2 hb4 hb5).2) := by
  refine ⟨⟨?_, ?_, ?_⟩, ⟨?_, ?_⟩, ⟨?_, ?_, ?_, ?_⟩, ⟨?_, ?_, ?_, ?_⟩, ⟨?_, ?_, ?_, ?_, ?_, ?_⟩, ⟨?_, ?_, ?_, ?_, ?_, ?_, ?_⟩⟩ <;>
    first | decide +kernel | (unfold Turn; decide +kernel) | (unfold Waits; decide +kernel) | (unfold HasRead; decide +kernel)
def vk8 : VerbProg := vb 0x800 [(16,1,0x83)]
theorem witness_testKatMarksTheUnits :
    Met2 (fun (h : Obligations.TestKatMarksTheUnits) hb1 => (h o0 0xFF vk8 (sv vk8 {s3 with power := {}}) hb1).1) ∧
    Met2 (fun (h : Obligations.TestKatMarksTheUnits) hb1 => (h o0 0xFD vk8 (sv vk8) hb1).2) := by
  refine ⟨⟨?_, ?_⟩, ⟨?_, ?_⟩⟩ <;>
    first | decide +kernel | (unfold Turn; decide +kernel) | (unfold Waits; decide +kernel) | (unfold HasRead; decide +kernel)
def vft : VerbProg := vb 0x801 [(16,2,0x8001)]
def vcal : VerbProg := vb 0x802 [(16,1,1)]
def vcl : VerbProg := vb 0x802 [(16,1,0)]
def ft : FrameTest := { origin := o0, cal := false, todo := [15], failed := [], retry := false, cur := some 3, started := true, wasState := .run, passed := 1, undrained := 0 }
def sft (x : FrameTest) : State := sv (dr vft) { s3 with ftest := some x, frames := [(3, { state := .run, noBind := true, testHold := true })] }
def sfh (x : FrameTest) : State := sv (dr vft) { s3 with ftest := some x, frames := [(3, { state := .run, noBind := true })] }
def sfs (x : FrameTest) : State := sv (dr vft) { s3 with ftest := some x, frames := [(3, { state := .run, noBind := true, stopped := true })] }
theorem witness_frameTestsGoFrameByFrame :
    Met4 (fun (h : Obligations.FrameTestsGoFrameByFrame) hb1 hb2 => ((h.1 o0 vft 0 [15] (sv vft { ssw [fw] with swarms := [] })) hb1 hb2).1) ∧
    Met6 (fun (h : Obligations.FrameTestsGoFrameByFrame) hb1 hb2 => ((h.1 o0 vcal 0 ((List.range 15).map (· + 1)) (sv vcal s3)) hb1 hb2).2) ∧
    Met3 (fun (h : Obligations.FrameTestsGoFrameByFrame) => h.2.1 o0 vcl (sv vcl { s3 with fabric := { s3.fabric with links := [(17, { state := .service })] } })) ∧
    Met5 (fun (h : Obligations.FrameTestsGoFrameByFrame) hb1 hb2 hb3 hb4 => (h.2.2.1 true ft 3 (sft ft) hb1 hb2 hb3 hb4).2.2.1) ∧
    Met5 (fun (h : Obligations.FrameTestsGoFrameByFrame) hb1 hb2 hb3 hb4 => (h.2.2.1 true ft 3 (sfs ft) hb1 hb2 hb3 hb4).2.2.1) ∧
    Met5 (fun (h : Obligations.FrameTestsGoFrameByFrame) hb1 hb2 hb3 hb4 => (h.2.2.1 true {ft with todo := []} 3 (sft {ft with todo := []}) hb1 hb2 hb3 hb4).2.2.1) ∧
    Met5 (fun (h : Obligations.FrameTestsGoFrameByFrame) hb1 hb2 hb3 hb4 => (h.2.2.1 true {ft with cal := true} 3 (sft {ft with cal := true}) hb1 hb2 hb3 hb4).2.2.1) ∧
    Met6 (fun (h : Obligations.FrameTestsGoFrameByFrame) hb1 hb2 hb3 hb4 => (h.2.2.1 false ft 3 (sft ft) hb1 hb2 hb3 hb4).2.2.2) ∧
    Met5 (fun (h : Obligations.FrameTestsGoFrameByFrame) hb1 hb2 hb3 => (h.2.2.2 ft 3 (sft ft) hb1 hb2 hb3).1) ∧
    Met6 (fun (h : Obligations.FrameTestsGoFrameByFrame) hb1 hb2 hb3 => (h.2.2.2 ft 3 (sfh ft) hb1 hb2 hb3).2.1) ∧
    Met6 (fun (h : Obligations.FrameTestsGoFrameByFrame) hb1 hb2 hb3 => (h.2.2.2 {ft with retry := true} 3 (sfh {ft with retry := true}) hb1 hb2 hb3).2.2.1) ∧
    Met5 (fun (h : Obligations.FrameTestsGoFrameByFrame) hb1 hb2 hb3 => (h.2.2.2 {ft with retry := true, started := false} 3 (sfh {ft with retry := true, started := false}) hb1 hb2 hb3).2.2.2) := by
  refine ⟨⟨?_, ?_, ?_, ?_⟩, ⟨?_, ?_, ?_, ?_, ?_, ?_⟩, ⟨?_, ?_, ?_⟩, ⟨?_, ?_, ?_, ?_, ?_⟩, ⟨?_, ?_, ?_, ?_, ?_⟩, ⟨?_, ?_, ?_, ?_, ?_⟩, ⟨?_, ?_, ?_, ?_, ?_⟩, ⟨?_, ?_, ?_, ?_, ?_, ?_⟩, ⟨?_, ?_, ?_, ?_, ?_⟩, ⟨?_, ?_, ?_, ?_, ?_, ?_⟩, ⟨?_, ?_, ?_, ?_, ?_, ?_⟩, ⟨?_, ?_, ?_, ?_, ?_⟩⟩ <;>
    first | decide +kernel | (unfold Turn; decide +kernel) | (unfold Waits; decide +kernel) | (unfold HasRead; decide +kernel)
def v9 (n : Nat) : VerbProg := vb n [(16,8,2^63+17)]
def vli (n : Nat) : VerbProg := vb n [(16,1,17)]
def slk (x : Link) : State := { s3 with fabric := { s3.fabric with links := [(17, x)] } }
def rk : Rekey := { origin := some o0, priv := 5, answered := false, txSeal := none, rxDone := false }
theorem witness_recordLinkAndRekeyVerbs :
    Met2 (fun (h : Obligations.RecordLinkAndRekeyVerbs) hb1 => (h.1.1 o0 (v9 0x900) (sv (v9 0x900) {s3 with snap := {busy := true}}) hb1).1) ∧
    Met3 (fun (h : Obligations.RecordLinkAndRekeyVerbs) hb1 => (h.1.1 o0 (v9 0x900) (sv (v9 0x900) {s3 with snap := {}}) hb1).2.1) ∧
    Met4 (fun (h : Obligations.RecordLinkAndRekeyVerbs) hb1 => (h.1.1 o0 (v9 0x900) (sv (v9 0x900) {s3 with snap := {en := true}}) hb1).2.2) ∧
    Met1 (fun (h : Obligations.RecordLinkAndRekeyVerbs) => h.1.2.1 o0 (v9 0x901) (sv (v9 0x901) s3)) ∧
    Met2 (fun (h : Obligations.RecordLinkAndRekeyVerbs) hb1 => (h.1.2.2.1 o0 (v9 0x902) (sv (v9 0x902) s3) hb1).1) ∧
    Met2 (fun (h : Obligations.RecordLinkAndRekeyVerbs) hb1 => (h.1.2.2.1 o0 (v9 0x902) (sv (v9 0x902) {s3 with recd := { noFlash := true } }) hb1).2) ∧
    Met1 (fun (h : Obligations.RecordLinkAndRekeyVerbs) => h.1.2.2.2 o0 (vli 0xA00) (sv (vli 0xA00) { s3 with fabric := { s3.fabric with links := [(17, { state := .service, partner := 3, rate := true, rtt := 101 })] } })) ∧
    Met2 (fun (h : Obligations.RecordLinkAndRekeyVerbs) hb1 => ((h.2.1 o0 (vli 0xA02) (sv (vli 0xA02) { s3 with sec := {passed := 0x3F, failed := 0xC0} })) hb1).1) ∧
    Met3 (fun (h : Obligations.RecordLinkAndRekeyVerbs) hb1 => ((h.2.1 o0 (vli 0xA02) (sv (vli 0xA02) { s3 with sec := {passed := 0x7F, failed := 0x80} })) hb1).2.1) ∧
    Met4 (fun (h : Obligations.RecordLinkAndRekeyVerbs) hb1 => (h.2.1 o0 (vli 0xA02) (sv (vli 0xA02) s3) hb1).2.2.1) ∧
    Met7 (fun (h : Obligations.RecordLinkAndRekeyVerbs) hb1 hb2 hb3 hb4 hb5 hb6 hb7 => (h.2.1 o0 (vli 0xA02) (sv (vli 0xA02) (slk { state := .service })) hb1).2.2.2 hb2 hb3 hb4 hb5 hb6 hb7) ∧
    Met2 (fun (h : Obligations.RecordLinkAndRekeyVerbs) => h.2.2 17 o0 5 none false (dr (vli 0xA02)) (sv (dr (vli 0xA02)) (slk { state := .service, txKey := some ⟨[1],[2]⟩, rekey := some rk }))) := by
  refine ⟨⟨?_, ?_⟩, ⟨?_, ?_, ?_⟩, ⟨?_, ?_, ?_, ?_⟩, ?_, ⟨?_, ?_⟩, ⟨?_, ?_⟩, ?_, ⟨?_, ?_⟩, ⟨?_, ?_, ?_⟩, ⟨?_, ?_, ?_, ?_⟩, ⟨?_, ?_, ?_, ?_, ?_, ?_, ?_⟩, ⟨?_, ?_⟩⟩ <;>
    first | decide +kernel | (unfold Turn; decide +kernel) | (unfold Waits; decide +kernel) | (unfold HasRead; decide +kernel)
def vpf (p : Nat) : VerbProg := vb 0xB00 [(16,2,0x8001),(18,1,p)]
def sdf : State := { ssw [{ fw with kind := .copy, main := rq 0x10 [(24,8,1),(32,4,256)], asked := true, readsOut := 1 }] with swarms := [] }
def veq : VerbProg := vb 0xB01 [(16,1,2)]
def sqz : State := { base with keeper := base.keeper }
def quz : Quiesce := ⟨o0, 2, 2⟩
def squ (s : State) : State := sv (dr veq) { s with keeper := { s.keeper with quiesce := some quz } } |> fun t => { t with keeper := { t.keeper with quiesce := some quz } }
theorem witness_powerPolicyAndQuiesce :
    Met2 (fun (h : Obligations.PowerPolicyAndQuiesce) => (h.1 o0 (vpf 2) true (sv (vpf 2) s3)).1) ∧
    Met3 (fun (h : Obligations.PowerPolicyAndQuiesce) => (h.1 o0 (vpf 3) true (sv (vpf 3) s3)).2.1) ∧
    Met2 (fun (h : Obligations.PowerPolicyAndQuiesce) => (h.1 o0 (vpf 3) true (sv (vpf 3) (ssw [fw]))).2.2.1) ∧
    Met2 (fun (h : Obligations.PowerPolicyAndQuiesce) => (h.1 o0 (dr (vpf 3)) true (sv (dr (vpf 3)) s3)).2.2.2.1) ∧
    Met2 (fun (h : Obligations.PowerPolicyAndQuiesce) => (h.1 o0 (dr (vpf 3)) true (sv (dr (vpf 3)) sdf)).2.2.2.2) ∧
    Met2 (fun (h : Obligations.PowerPolicyAndQuiesce) hb1 => (h.2.1 o0 veq (sv veq (sc cx)) hb1).1) ∧
    Met2 (fun (h : Obligations.PowerPolicyAndQuiesce) hb1 => (h.2.1 o0 veq (sv veq sqz) hb1).2) ∧
    Met3 (fun (h : Obligations.PowerPolicyAndQuiesce) hb1 hb2 => (h.2.2.1 quz (squ { base with fabric := { base.fabric with txReads := [(5, {used := true})] } }) hb1 hb2).1) ∧
    Met4 (fun (h : Obligations.PowerPolicyAndQuiesce) hb1 hb2 => (h.2.2.1 quz (squ { base with mboxes := [(0,{busy := true, cancel := true})] }) hb1 hb2).2.1) ∧
    Met5 (fun (h : Obligations.PowerPolicyAndQuiesce) hb1 hb2 => (h.2.2.1 quz (squ { base with fabric := { base.fabric with links := [(0, {state := .service}),(17,{state := .training})] } }) hb1 hb2).2.2) ∧
    Met1 (fun (h : Obligations.PowerPolicyAndQuiesce) => h.2.2.2 { base with power := { base.power with sleepHold := true } }) ∧
    Met1 (fun (h : Obligations.PowerPolicyAndQuiesce) => h.2.2.2 { ssw [fw] with power := { base.power with sleepHold := true } }) := by
  refine ⟨⟨?_, ?_⟩, ⟨?_, ?_, ?_⟩, ⟨?_, ?_⟩, ⟨?_, ?_⟩, ⟨?_, ?_⟩, ⟨?_, ?_⟩, ⟨?_, ?_⟩, ⟨?_, ?_, ?_⟩, ⟨?_, ?_, ?_, ?_⟩, ⟨?_, ?_, ?_, ?_, ?_⟩, ?_, ?_⟩ <;>
    first | decide +kernel | (unfold Turn; decide +kernel) | (unfold Waits; decide +kernel) | (unfold HasRead; decide +kernel)
def kq (r : KmReq) : State := sv (vb 0x102) { base with keeper := { base.keeper with kmq := [r, r], kmBuf := zeros 64 } } |> fun t => { t with keeper := { t.keeper with kmq := [r, r], kmBuf := List.replicate 64 3 } }
def kr1 : KmReq := ⟨.verb o0, 352, 70, false, []⟩
def kr2 : KmReq := ⟨.telemetry, 352, 70, true, []⟩
theorem witness_keeperResetsAndItsMemoryAnswers :
    Met4 (fun (h : Obligations.KeeperResetsAndItsMemoryAnswers) => h.1.1 1 (sv (vb 0x100) { ssw [fw] with keeper := { base.keeper with drbg := some ⟨[1], [2]⟩, rung := [3] }, ftest := some ft })) ∧
    Met4 (fun (h : Obligations.KeeperResetsAndItsMemoryAnswers) => h.1.1 1 (sv (vb 0x100) { base with keeper := { base.keeper with running := { len := 256, addr := 1024 } }, fabric := { base.fabric with links := [(3, {state := .service, ephPriv := 4, txKey := some ⟨[1],[2]⟩ })] } })) ∧
    Met1 (fun (h : Obligations.KeeperResetsAndItsMemoryAnswers) => h.1.2.1 base) ∧
    Met2 (fun (h : Obligations.KeeperResetsAndItsMemoryAnswers) => h.1.2.2.1 base) ∧
    Met2 (fun (h : Obligations.KeeperResetsAndItsMemoryAnswers) => h.1.2.2.2 { base with faults := { flipKeeper := 2 } }) ∧
    Met1 (fun (h : Obligations.KeeperResetsAndItsMemoryAnswers) hb1 => (h.2 (List.replicate 64 9) false kr1 [kr1] (kq kr1) hb1).1) ∧
    Met4 (fun (h : Obligations.KeeperResetsAndItsMemoryAnswers) hb1 => (h.2 (List.replicate 64 9) false kr1 [kr1] (kq kr1) hb1).2.1 o0 (vb 0x102)) ∧
    Met4 (fun (h : Obligations.KeeperResetsAndItsMemoryAnswers) hb1 => (h.2 (List.replicate 64 9) true kr1 [kr1] (kq kr1) hb1).2.1 o0 (vb 0x102)) ∧
    Met3 (fun (h : Obligations.KeeperResetsAndItsMemoryAnswers) hb1 => (h.2 (List.replicate 64 9) true kr2 [kr2] (kq kr2) hb1).2.2) := by
  refine ⟨⟨?_, ?_, ?_, ?_⟩, ⟨?_, ?_, ?_, ?_⟩, ?_, ⟨?_, ?_⟩, ⟨?_, ?_⟩, ?_, ⟨?_, ?_, ?_, ?_⟩, ⟨?_, ?_, ?_, ?_⟩, ⟨?_, ?_, ?_⟩⟩ <;>
    first | decide +kernel | (unfold Turn; decide +kernel) | (unfold Waits; decide +kernel) | (unfold HasRead; decide +kernel)
def kbs (n : Nat) : State := { base with keeper := { base.keeper with state := BitVec.ofNat 4 n, phase := .bootRom } }
def kbz (n : Nat) : State := { base with keeper := { base.keeper with state := BitVec.ofNat 4 n, phase := .auth } }
def bos (k : Keeper → Keeper) : State := { base with keeper := k { base.keeper with state := 1, phase := .auth, bootWhy := .kbGo } }
theorem witness_bootLoadsACheckedImage :
    Met3 (fun (h : Obligations.BootLoadsACheckedImage) => h.1 (2^63 + 256) (kbs 0)) ∧
    Met3 (fun (h : Obligations.BootLoadsACheckedImage) => h.1 (2^63 + 257) (kbz 3)) ∧
    Met3 (fun (h : Obligations.BootLoadsACheckedImage) => h.1 (2^63 + 2^50) (kbz 3)) ∧
    Met5 (fun (h : Obligations.BootLoadsACheckedImage) hb1 hb2 hb3 hb4 => (h.2 (bos fun k => { k with bootFail := true }) hb1 hb2 hb3 hb4).1) ∧
    Met7 (fun (h : Obligations.BootLoadsACheckedImage) hb1 hb2 hb3 hb4 hb5 hb6 hb7 => ((h.2 (bos fun k => { k with bootAsked := [0] }) hb1 hb2 hb3 hb4).2 hb5 hb6 hb7)) := by
  refine ⟨⟨?_, ?_, ?_⟩, ⟨?_, ?_, ?_⟩, ⟨?_, ?_, ?_⟩, ⟨?_, ?_, ?_, ?_, ?_⟩, ⟨?_, ?_, ?_, ?_, ?_, ?_, ?_⟩⟩ <;>
    first | decide +kernel | (unfold Turn; decide +kernel) | (unfold Waits; decide +kernel) | (unfold HasRead; decide +kernel)
end Keeper

namespace Work
def st0 : State := { base with keeper := { base.keeper with phase := .tests, stackMap := [] }, inp := { base.inp with stackMap := [⟨true,0,2^30,0⟩,⟨true,2^29,2^30,0⟩,⟨true,2^31+5,2^26,3⟩] ++ List.replicate 29 ⟨false,0,0,0⟩ } }
theorem witness_startUpReachesReadiness :
    Met3 (fun (h : Obligations.StartUpReachesReadiness) => h.1 0xFE st0) ∧
    Met3 (fun (h : Obligations.StartUpReachesReadiness) => h.1 0xFF st0) ∧
    Met4 (fun (h : Obligations.StartUpReachesReadiness) => h.2.1 st0) ∧
    Met2 (fun (h : Obligations.StartUpReachesReadiness) => h.2.2.1 { st0 with keeper := { st0.keeper with testsDone := true }, fabric := { st0.fabric with links := [(2,{state := .waggle}),(3,{state := .training})] } }) ∧
    Met4 (fun (h : Obligations.StartUpReachesReadiness) => h.2.2.2 { sv (vb 0x100) st0 with keeper := { st0.keeper with verbs := [vb 0x100, { vb 0x101 with stage := .interrupted }], testsDone := true, mapDone := true } }) := by
  refine ⟨⟨?_, ?_, ?_⟩, ⟨?_, ?_, ?_⟩, ⟨?_, ?_, ?_, ?_⟩, ⟨?_, ?_⟩, ⟨?_, ?_, ?_, ?_⟩⟩ <;>
    first | decide +kernel | (unfold Turn; decide +kernel) | (unfold Waits; decide +kernel) | (unfold HasRead; decide +kernel)
def kn (c t x : Nat) : Word := BitVec.ofNat 64 (c + t * 2^32 + x * 2^18)
def spo (hold : Bool) : State := sb { px with state := .idle, watch := true, watchUs := 3, bound := false, fetchHold := hold }
def spf : State := { spo true with taps := [(0, {})] }
def spu (hold : Bool) (d : Bytes) : State := ((spo hold).ringRead 0 0 7 1 d).getD {}
theorem witness_knocksAndPolls :
    Met2 (fun (h : Obligations.KnocksAndPolls) hb1 => (h.1 (kn 7 3 0) (sc {px with state := .idle} base) hb1).1) ∧
    Met2 (fun (h : Obligations.KnocksAndPolls) hb1 => (h.1 (kn 7 3 0) (sc {px with state := .paused, fetchHold := true} base) hb1).1) ∧
    Met2 (fun (h : Obligations.KnocksAndPolls) hb1 => (h.1 (kn 7 16 0) (sc px base) hb1).2) ∧
    Met2 (fun (h : Obligations.KnocksAndPolls) hb1 => (h.1 (kn 7 3 1) (sc px base) hb1).2) ∧
    Met2 (fun (h : Obligations.KnocksAndPolls) hb1 => (h.1 (kn (2^18-1) 3 0) (sc px base) hb1).2) ∧
    Met4 (fun (h : Obligations.KnocksAndPolls) => h.2.1 0x4000 0x0F (sc px base)) ∧
    Met4 (fun (h : Obligations.KnocksAndPolls) => h.2.1 0x10108 0x0F (sc px base)) ∧
    Met4 (fun (h : Obligations.KnocksAndPolls) hb1 hb2 hb3 => (h.2.2 7 0 (zeros 128) false 0 (sb { px with watch := true, fetchHold := true }) hb1 hb2 hb3).1) ∧
    Met7 (fun (h : Obligations.KnocksAndPolls) hb1 hb2 hb3 hb4 hb5 hb6 => ((h.2.2 7 0 (zeros 128) false 0 spf hb1 hb2 hb3).2 hb4 hb5 hb6).1) ∧
    Met8 (fun (h : Obligations.KnocksAndPolls) hb1 hb2 hb3 hb4 hb5 hb6 hb7 => (((h.2.2 7 0 (zeros 128) true 0 (spo true) hb1 hb2 hb3).2 hb4 hb5 hb6).2 (spu true (zeros 128)) hb7).2.1) ∧
    Met9 (fun (h : Obligations.KnocksAndPolls) hb1 hb2 hb3 hb4 hb5 hb6 hb7 => (((h.2.2 7 0 (zeros 127 ++ [0x80]) false 0 (spo true) hb1 hb2 hb3).2 hb4 hb5 hb6).2 (spu true (zeros 127 ++ [0x80])) hb7).2.2.1) ∧
    Met9 (fun (h : Obligations.KnocksAndPolls) hb1 hb2 hb3 hb4 hb5 hb6 hb7 => (((h.2.2 7 0 (zeros 128) false 0 (spo false) hb1 hb2 hb3).2 hb4 hb5 hb6).2 (spu false (zeros 128)) hb7).2.2.2) := by
  refine ⟨⟨?_, ?_⟩, ⟨?_, ?_⟩, ⟨?_, ?_⟩, ⟨?_, ?_⟩, ⟨?_, ?_⟩, ⟨?_, ?_, ?_, ?_⟩, ⟨?_, ?_, ?_, ?_⟩, ⟨?_, ?_, ?_, ?_⟩, ⟨?_, ?_, ?_, ?_, ?_, ?_, ?_⟩, ⟨?_, ?_, ?_, ?_, ?_, ?_, ?_, ?_⟩, ⟨?_, ?_, ?_, ?_, ?_, ?_, ?_, ?_, ?_⟩, ⟨?_, ?_, ?_, ?_, ?_, ?_, ?_, ?_, ?_⟩⟩ <;>
    first | decide +kernel | (unfold Turn; decide +kernel) | (unfold Waits; decide +kernel) | (unfold HasRead; decide +kernel)
def srd : State := { s3 with ctxs := [(7, {cx with state := .ready, basePrio := 3})], readyQ := [(3,[7])], frames := [(0,{state := .idle})] }
def spr (w : List Work) : State := { sb {px with works := w} with readyQ := [(0,[8])], frames := (List.range 16).map fun f => (f, {policy := 3}) }
theorem witness_schedulerBindsAndUnbinds :
    Met6 (fun (h : Obligations.SchedulerBindsAndUnbinds) => h.1 63 7 0 srd) ∧
    Met6 (fun (h : Obligations.SchedulerBindsAndUnbinds) => h.1 (15*64) 7 15 { srd with ctxs := [(7, {cx with state := .ready, basePrio := 3, hintValid := true, hintFrame := 15})], frames := [(15, {state := .nap})] }) ∧
    Met5 (fun (h : Obligations.SchedulerBindsAndUnbinds) hb1 hb2 hb3 hb4 => (h.2.1 7 (sb px) hb1 hb2 hb3 hb4).1) ∧
    Met5 (fun (h : Obligations.SchedulerBindsAndUnbinds) hb1 hb2 hb3 hb4 => (h.2.1 7 (sb {px with tail := 1}) hb1 hb2 hb3 hb4).2) ∧
    Met6 (fun (h : Obligations.SchedulerBindsAndUnbinds) => h.2.2 7 8 (spr [cw])) ∧
    Met6 (fun (h : Obligations.SchedulerBindsAndUnbinds) => h.2.2 7 8 (spr [])) := by
  refine ⟨⟨?_, ?_, ?_, ?_, ?_, ?_⟩, ⟨?_, ?_, ?_, ?_, ?_, ?_⟩, ⟨?_, ?_, ?_, ?_, ?_⟩, ⟨?_, ?_, ?_, ?_, ?_⟩, ⟨?_, ?_, ?_, ?_, ?_, ?_⟩, ⟨?_, ?_, ?_, ?_, ?_, ?_⟩⟩ <;>
    first | decide +kernel | (unfold Turn; decide +kernel) | (unfold Waits; decide +kernel) | (unfold HasRead; decide +kernel)
def ww (v : Nat) : Work := { wk .wait (rq 0x20 [(8,8,9),(16,8,v)]) with waits := 9 }
def sw8 (x : Ctx) : State := let s := sb x; { s with tally := { s.tally with own := [(0, 5)], val := [(9, 7)] } }
def sw9 (x : Ctx) : State := sw8 { x with state := .waiting, waitTally := 9, waitValue := 8 }
def sw7 (x : Ctx) : State := sw8 { x with state := .waiting, waitTally := 9, waitValue := 7 }
theorem witness_waitsOnTallies :
    Met9 (fun (h : Obligations.WaitsOnTallies) hb1 hb2 hb3 hb4 hb5 hb6 hb7 hb8 => (h.1 0 7 (ww 7) (sw8 {px with works := [ww 7]}) hb1 hb2 hb3 hb4 hb5 hb6 hb7 hb8).1) ∧
    Met9 (fun (h : Obligations.WaitsOnTallies) hb1 hb2 hb3 hb4 hb5 hb6 hb7 hb8 => (h.1 0 7 (ww 8) (sw8 {px with works := [ww 8]}) hb1 hb2 hb3 hb4 hb5 hb6 hb7 hb8).2) ∧
    Met9 (fun (h : Obligations.WaitsOnTallies) hb1 hb2 hb3 hb4 hb5 hb6 hb7 hb8 => (h.1 0 7 (ww 8) (sw8 {px with works := [ww 8], desched := true}) hb1 hb2 hb3 hb4 hb5 hb6 hb7 hb8).2) ∧
    Met4 (fun (h : Obligations.WaitsOnTallies) hb1 hb2 hb3 => (h.2.1 7 (sw9 px) hb1 hb2 hb3).1) ∧
    Met4 (fun (h : Obligations.WaitsOnTallies) hb1 hb2 hb3 => (h.2.1 7 (sw7 {px with works := [ww 7]}) hb1 hb2 hb3).2) ∧
    Met4 (fun (h : Obligations.WaitsOnTallies) hb1 hb2 hb3 => (h.2.1 7 (sw7 {px with bound := false, sharedWait := true, desched := true}) hb1 hb2 hb3).2) ∧
    Met7 (fun (h : Obligations.WaitsOnTallies) => h.2.2 7 (sw9 { px with desched := true, works := [ww 8] })) := by
  refine ⟨⟨?_, ?_, ?_, ?_, ?_, ?_, ?_, ?_, ?_⟩, ⟨?_, ?_, ?_, ?_, ?_, ?_, ?_, ?_, ?_⟩, ⟨?_, ?_, ?_, ?_, ?_, ?_, ?_, ?_, ?_⟩, ⟨?_, ?_, ?_, ?_⟩, ⟨?_, ?_, ?_, ?_⟩, ⟨?_, ?_, ?_, ?_⟩, ⟨?_, ?_, ?_, ?_, ?_, ?_, ?_⟩⟩ <;>
    first | decide +kernel | (unfold Turn; decide +kernel) | (unfold Waits; decide +kernel) | (unfold HasRead; decide +kernel)
def en (op b : Nat) : Bytes := rq op [(127,1,b)]
def fu (s : State) (p : Nat) (d : Bytes) : State := (s.ringRead 0 p 7 1 d).getD {}
def hd (e : Bytes) : Held := ⟨4, e⟩
def hn : Held := ⟨5, zeros 128⟩
def cpo : Bytes := patch cpm 127 [0x80]
theorem witness_fetchAndStart :
    Met13 (fun (h : Obligations.FetchAndStart) hb1 hb2 hb3 hb4 hb5 hb6 hb7 hb8 hb9 hb10 hb11 hb12 hb13 => (h.1 0 7 (en 1 0x80) false 0 (fu (sb {px with tail := 3}) 0 (en 1 0x80)) (sb {px with tail := 3}) hb1 hb2 hb3 hb4 hb5 hb6 hb7 hb8 hb9 hb10 hb11 hb12).2 hb13) ∧
    Met13 (fun (h : Obligations.FetchAndStart) hb1 hb2 hb3 hb4 hb5 hb6 hb7 hb8 hb9 hb10 hb11 hb12 => (h.1 0 7 (en 1 0x80) true 0 (fu (sb {px with tail := 3}) 0 (en 1 0x80)) (sb {px with tail := 3}) hb1 hb2 hb3 hb4 hb5 hb6 hb7 hb8 hb9 hb10 hb11 hb12).1) ∧
    Met13 (fun (h : Obligations.FetchAndStart) hb1 hb2 hb3 hb4 hb5 hb6 hb7 hb8 hb9 hb10 hb11 hb12 hb13 => (h.1 0 7 (en 1 0x80) false 128 (fu (sb {px with tail := 3, chanFetch := 1}) 128 (en 1 0x80)) (sb {px with tail := 3, chanFetch := 1}) hb1 hb2 hb3 hb4 hb5 hb6 hb7 hb8 hb9 hb10 hb11 hb12).2 hb13) ∧
    Met13 (fun (h : Obligations.FetchAndStart) hb1 hb2 hb3 hb4 hb5 hb6 hb7 hb8 hb9 hb10 hb11 hb12 hb13 => (h.1 0 7 (en 1 0x00) false (15*128) (fu { sb {px with tail := 0, doneIdx := 15, chanFetch := 15} with taps := (List.range 4).map fun i => (i, {rdCr := 1}) } (15*128) (en 1 0)) { sb {px with tail := 0, doneIdx := 15, chanFetch := 15} with taps := (List.range 4).map fun i => (i, {rdCr := 1}) } hb1 hb2 hb3 hb4 hb5 hb6 hb7 hb8 hb9 hb10 hb11 hb12).2 hb13) ∧
    Met14 (fun (h : Obligations.FetchAndStart) hb1 hb2 hb3 hb4 hb5 hb6 hb7 hb8 hb9 hb10 hb11 hb12 => (h.2.1 0 7 (hd (en 5 0x80)) [hn] (sb {px with held := [hd (en 5 0x80), hn]}) hb1 hb2 hb3 hb4 hb5 hb6 hb7 hb8 hb9 hb10 hb11 hb12).1 0x0101 0) ∧
    Met14 (fun (h : Obligations.FetchAndStart) hb1 hb2 hb3 hb4 hb5 hb6 hb7 hb8 hb9 hb10 hb11 hb12 => (h.2.1 0 7 (hd (en 1 0x80)) [hn] (sb {px with held := [hd (en 1 0x80), hn]}) hb1 hb2 hb3 hb4 hb5 hb6 hb7 hb8 hb9 hb10 hb11 hb12).2) ∧
    Met14 (fun (h : Obligations.FetchAndStart) hb1 hb2 hb3 hb4 hb5 hb6 hb7 hb8 hb9 hb10 hb11 hb12 => (h.2.1 0 7 (hd cpo) [hn] (sb {px with held := [hd cpo, hn]}) hb1 hb2 hb3 hb4 hb5 hb6 hb7 hb8 hb9 hb10 hb11 hb12).2) ∧
    Met4 (fun (h : Obligations.FetchAndStart) => h.2.2 0 7 (wk .nop (en 1 0x80)) (sb {px with works := [wk .nop (en 1 0x80)]})) := by
  refine ⟨⟨?_, ?_, ?_, ?_, ?_, ?_, ?_, ?_, ?_, ?_, ?_, ?_, ?_⟩, ⟨?_, ?_, ?_, ?_, ?_, ?_, ?_, ?_, ?_, ?_, ?_, ?_, ?_⟩, ⟨?_, ?_, ?_, ?_, ?_, ?_, ?_, ?_, ?_, ?_, ?_, ?_, ?_⟩, ⟨?_, ?_, ?_, ?_, ?_, ?_, ?_, ?_, ?_, ?_, ?_, ?_, ?_⟩, ⟨?_, ?_, ?_, ?_, ?_, ?_, ?_, ?_, ?_, ?_, ?_, ?_, ?_, ?_⟩, ⟨?_, ?_, ?_, ?_, ?_, ?_, ?_, ?_, ?_, ?_, ?_, ?_, ?_, ?_⟩, ⟨?_, ?_, ?_, ?_, ?_, ?_, ?_, ?_, ?_, ?_, ?_, ?_, ?_, ?_⟩, ⟨?_, ?_, ?_, ?_⟩⟩ <;>
    first | decide +kernel | (unfold Turn; decide +kernel) | (unfold Waits; decide +kernel) | (unfold HasRead; decide +kernel)
def scw (w : Work) (l : List Slot := []) : State := { sb {px with works := [w]} with frames := [(0, { state := .run, slots := (List.range l.length).zip l })], ports := [(9, {landCr := 1}), (10, {landCr := 5})] }
def cwa : Work := { cw with asked := true, tileOk := true }
def pc : OutPiece := { what := .data, space := 2, core := 9, coreLast := 10, stream := false, addr := 64, bytes := [(0,1)], pad := [] }
def cwo : Work := { cwa with outs := [pc, pc] }
def cwe : Work := { cwa with emitted := 256 }
theorem witness_copyMovesUnitByUnit :
    Met15 (fun (h : Obligations.CopyMovesUnitByUnit) hb1 hb2 hb3 hb4 hb5 hb6 => (h 0 7 cw (scw cw) hb1 hb2 hb3 hb4 hb5 hb6).1 .plain) ∧
    Met9 (fun (h : Obligations.CopyMovesUnitByUnit) hb1 hb2 hb3 hb4 hb5 hb6 => (h 0 7 cwo (scw cwo) hb1 hb2 hb3 hb4 hb5 hb6).2.2.1 pc [pc]) ∧
    Met15 (fun (h : Obligations.CopyMovesUnitByUnit) hb1 hb2 hb3 hb4 hb5 hb6 => (h 0 7 cwe (scw cwe) hb1 hb2 hb3 hb4 hb5 hb6).2.2.2) := by
  refine ⟨⟨?_, ?_, ?_, ?_, ?_, ?_, ?_, ?_, ?_, ?_, ?_, ?_, ?_, ?_, ?_⟩, ⟨?_, ?_, ?_, ?_, ?_, ?_, ?_, ?_, ?_⟩, ⟨?_, ?_, ?_, ?_, ?_, ?_, ?_, ?_, ?_, ?_, ?_, ?_, ?_, ?_, ?_⟩⟩ <;>
    first | decide +kernel | (unfold Turn; decide +kernel) | (unfold Waits; decide +kernel) | (unfold HasRead; decide +kernel)
def cwd : Work := { cwa with unit := 1, lastRead := true, slot := [], asked := false }
def nw (slot : Bytes) : Work := { wk .nop (en 1 0x80) with lastRead := true, slot := slot }
def fin (m : Bytes) (st : BitVec 16) (g : DoneStage) : Work := { cwd with main := m, status := st, stage := g, tally := 9, tallyDone := true }
def cpt : Bytes := patch (patch cpm 2 (leBytes 2 0x8)) 4 (leBytes 4 (9 + 2^16 * 3))
theorem witness_completionWritesTheStatus :
    Met8 (fun (h : Obligations.CompletionWritesTheStatus) hb1 hb2 hb3 hb4 hb5 hb6 hb7 => (h.1 7 (nw []) [cw] 0 (sb {px with works := [nw [], cw]}) hb1 hb2 hb3 hb4 hb5 hb6 hb7).1) ∧
    Met8 (fun (h : Obligations.CompletionWritesTheStatus) hb1 hb2 hb3 hb4 hb5 hb6 hb7 => (h.1 7 cwd [cw] 0 (sb {px with works := [cwd, cw]}) hb1 hb2 hb3 hb4 hb5 hb6 hb7).1) ∧
    Met8 (fun (h : Obligations.CompletionWritesTheStatus) hb1 hb2 hb3 hb4 hb5 hb6 hb7 => (h.1 7 (nw (zeros 128)) [cw] 0 (sb {px with works := [nw (zeros 128), cw]}) hb1 hb2 hb3 hb4 hb5 hb6 hb7).2) ∧
    Met5 (fun (h : Obligations.CompletionWritesTheStatus) hb1 hb2 => (h.2.1 7 (fin cpt 0 .statusOut) [{cw with id := 2}] (sb {px with works := [fin cpt 0 .statusOut, {cw with id := 2}]}) hb1 hb2).1) ∧
    Met5 (fun (h : Obligations.CompletionWritesTheStatus) hb1 hb2 => (h.2.1 7 (fin cpt 0x0101 .statusOut) [] (sb {px with works := [fin cpt 0x0101 .statusOut]}) hb1 hb2).1) ∧
    Met4 (fun (h : Obligations.CompletionWritesTheStatus) hb1 hb2 => (h.2.1 7 (fin (patch cpm 2 (leBytes 2 1)) 0 .statusLanded) [] (sb {px with works := [fin (patch cpm 2 (leBytes 2 1)) 0 .statusLanded]}) hb1 hb2).2) ∧
    Met2 (fun (h : Obligations.CompletionWritesTheStatus) => h.2.2 7 ⟨5, 9, true⟩ (sb {px with posts := [⟨5, 9, true⟩]})) := by
  refine ⟨⟨?_, ?_, ?_, ?_, ?_, ?_, ?_, ?_⟩, ⟨?_, ?_, ?_, ?_, ?_, ?_, ?_, ?_⟩, ⟨?_, ?_, ?_, ?_, ?_, ?_, ?_, ?_⟩, ⟨?_, ?_, ?_, ?_, ?_⟩, ⟨?_, ?_, ?_, ?_, ?_⟩, ⟨?_, ?_, ?_, ?_⟩, ⟨?_, ?_⟩⟩ <;>
    first | decide +kernel | (unfold Turn; decide +kernel) | (unfold Waits; decide +kernel) | (unfold HasRead; decide +kernel)
def rs : Slot := { holder := .work 7 1, space := 4, addr := 256, phys := 256, want := 3, len := 256 }
def srs (q : Slot) : State := { sb {px with works := [{cw with readsOut := 1}]} with frames := [(0, { state := .run, slots := [(8191, q)] })] }
def swe (e : WEntry) : State := { sb {px with works := [{cw with writesOut := 1}]} with frames := [(0, { state := .run, went := [(4095, e)] })] }
theorem witness_tapReturns :
    Met2 (fun (h : Obligations.TapReturns) => (h.1 1 8191 true (List.replicate 128 7) (srs rs)).1) ∧
    Met1 (fun (h : Obligations.TapReturns) => (h.1 1 8191 true (List.replicate 128 7) (srs rs)).2.1) ∧
    Met1 (fun (h : Obligations.TapReturns) hb1 => (h.1 1 8191 true (List.replicate 128 7) (srs {rs with have_ := 2})).2.2 hb1 false) ∧
    Met1 (fun (h : Obligations.TapReturns) hb1 => (h.1 2 8191 true (List.replicate 128 7) (srs rs)).2.2 hb1 true) ∧
    Met2 (fun (h : Obligations.TapReturns) => (h.2.1 3 4095 false (swe { holder := .work 7 1, addr := 768 })).1) ∧
    Met2 (fun (h : Obligations.TapReturns) => (h.2.1 3 4095 true (swe { holder := .work 7 1, addr := 768 })).2.1) ∧
    Met1 (fun (h : Obligations.TapReturns) => (h.2.1 3 4095 false (swe { holder := .work 7 1, addr := 512 })).2.2) ∧
    Met1 (fun (h : Obligations.TapReturns) => (h.2.1 3 4094 true (swe { holder := .work 7 1, addr := 768 })).2.2) ∧
    Met1 (fun (h : Obligations.TapReturns) => (h.2.2 63 true base).1) ∧
    Met1 (fun (h : Obligations.TapReturns) => (h.2.2 63 false { base with taps := [(63, {rdCr := 8191})] }).2) ∧
    Met1 (fun (h : Obligations.TapReturns) => (h.2.2 63 true { base with inp := { base.inp with wrCr := [] }, taps := [(63, {wrCr := 8191})] }).2) := by
  refine ⟨⟨?_, ?_⟩, ?_, ?_, ?_, ⟨?_, ?_⟩, ⟨?_, ?_⟩, ?_, ?_, ?_, ?_, ?_⟩ <;>
    first | decide +kernel | (unfold Turn; decide +kernel) | (unfold Waits; decide +kernel) | (unfold HasRead; decide +kernel)
def dfr (x : Frame) : State := { ssw [fw] with frames := [(0, { x with draining := true })], ports := [(3, {fetFly := [⟨0,1,2,3⟩,⟨1,1,2,3⟩]})], xlate := { s1.xlate with walks := [⟨1, 0, .tenant 5, 0, 0, 0, .forager, false⟩] } }
def sfo (t : List Leaf) : State := { sb {px with priv := false, tenant := 5, tail := 1} with frames := [(0, {state := .run, tlb := t})] }
theorem witness_frameStopsAndForages :
    Met1 (fun (h : Obligations.FrameStopsAndForages) => h.1 63 { base with frames := [(15,{state := .run})] }) ∧
    Met1 (fun (h : Obligations.FrameStopsAndForages) hb1 => (h.2.1 0 (dfr {slots := [(0, rs)], went := [(1, { holder := .work 7 1, addr := 768 })]}) hb1).1) ∧
    Met2 (fun (h : Obligations.FrameStopsAndForages) hb1 => (h.2.1 0 (dfr {slots := [(0, {rs with have_ := 3})]}) hb1).2.1) ∧
    Met2 (fun (h : Obligations.FrameStopsAndForages) hb1 => (h.2.1 0 (dfr {slots := [(0, rs)]}) hb1).2.2) ∧
    Met7 (fun (h : Obligations.FrameStopsAndForages) hb1 hb2 hb3 hb4 hb5 hb6 => (h.2.2 0 7 (sfo []) hb1 hb2 hb3).2 [] ((sfo []).foragerPages 7).tail (((sfo []).foragerPages 7).headD (0,0)) (.tenant 5) (((sfo []).rootTable (.tenant 5)).getD (0,0)) hb4 (by simp) hb5 hb6) ∧
    Met4 (fun (h : Obligations.FrameStopsAndForages) hb1 hb2 hb3 hb4 => (h.2.2 0 7 (sfo [⟨.tenant 5, false, 0, 0, true, true, true⟩]) hb1 hb2 hb3).1 hb4) := by
  refine ⟨?_, ?_, ⟨?_, ?_⟩, ⟨?_, ?_⟩, ⟨?_, ?_, ?_, ?_, ?_, ?_, ?_⟩, ⟨?_, ?_, ?_, ?_⟩⟩ <;>
    first | decide +kernel | (unfold Turn; decide +kernel) | (unfold Waits; decide +kernel) | (unfold HasRead; decide +kernel)
end Work

namespace Fabric
def b1 : Beat := { kind := 1, ofs := 0, ben := 1, pad := 0, data := [7], tenant := 5, ctx := 7, work := 1, count := true }
def spt (q : Port) (x : Swarm := {}) : State := { sb {px with works := [{cw with writesOut := 2}]} with frames := [(15, {state := .run})], ports := [(255, q)], swarms := [(3, x)] }
def swp : Swarm := { sw with members := 2 ^ 255, region := [(0, [5]), (1, [6])], taken := [], win := 2, timers := 2^255 }
def rr2 : ReadReq := ⟨.data, 2, 9, 128, 3⟩
def cwr : Work := { cw with reads := [rr2] }
def sfq : State := { sb {px with works := [cwr]} with ports := [(9, {rdCr := 1})] }
def fws : Slot := ((sfq.fetWant 9 0).map (·.2.2.2.2)).getD {}
def sfv (up : Bool) (q : Slot) : State := { sb {px with works := [{cw with readsOut := 1}]} with frames := [(0, {state := if up then .run else .idle, slots := [(5, q)]})], ports := [(9, {fetFly := [⟨0,5,128,5⟩,⟨0,6,128,5⟩]})] }
def fsh : Slot := { holder := .work 7 1, what := .data, space := 2, core := 9, addr := 128, want := 3 }
def fsl : Slot := { holder := .work 7 1, what := .data, space := 2, core := 9, addr := 128, want := 4 }
def spb : SpineBeat := ⟨0, 15, [240, 255], b1⟩
def ssp (l : List SpineBeat) : State := { sb px with frames := [(0,{state := .run}),(15,{state := .run})], spine := l, ports := [(255,{landing := [b1]})] }
theorem witness_portsDeliverAndReturn :
    Met5 (fun (h : Obligations.PortsDeliverAndReturn) hb1 hb2 => (h.1 255 b1 [b1] (spt {strmCr := 1, landing := [b1, b1]}) hb1 hb2).2) ∧
    Met5 (fun (h : Obligations.PortsDeliverAndReturn) hb1 hb2 => (h.1 255 {b1 with kind := 0} [b1] (spt {wrCr := 1, landing := [{b1 with kind := 0}, b1]}) hb1 hb2).2) ∧
    Met3 (fun (h : Obligations.PortsDeliverAndReturn) hb1 hb2 => (h.1 255 b1 [b1] (spt {strmCr := 1, landing := [b1, b1]} swp) hb1 hb2).1 3 [5]) ∧
    Met2 (fun (h : Obligations.PortsDeliverAndReturn) hb1 => (h.2.1 255 (7,1) [(7,1)] (spt {landFly := [(7,1),(7,1)]}) hb1).1) ∧
    Met2 (fun (h : Obligations.PortsDeliverAndReturn) hb1 => (h.2.1 255 (7,1) [(7,1)] (spt {strmFly := [(7,1),(7,1)]}) hb1).2.1) ∧
    Met2 (fun (h : Obligations.PortsDeliverAndReturn) hb1 => (h.2.1 255 (7,1) [(7,1)] (spt {}) hb1).2.2.1) ∧
    Met2 (fun (h : Obligations.PortsDeliverAndReturn) hb1 => (h.2.1 255 (7,1) [(7,1)] (spt {}) hb1).2.2.2) ∧
    Met4 (fun (h : Obligations.PortsDeliverAndReturn) => h.2.2.1 9 7 cwr rr2 0 fws sfq) ∧
    Met3 (fun (h : Obligations.PortsDeliverAndReturn) hb1 hb2 => (h.2.2.2.1 9 (List.replicate 64 3) ⟨0,5,128,5⟩ [⟨0,6,128,5⟩] (sfv false {}) hb1 hb2).1) ∧
    Met3 (fun (h : Obligations.PortsDeliverAndReturn) hb1 hb2 => (h.2.2.2.1 9 (List.replicate 64 3) ⟨0,5,128,5⟩ [⟨0,6,128,5⟩] (sfv true fsh) hb1 hb2).1) ∧
    Met11 (fun (h : Obligations.PortsDeliverAndReturn) hb1 hb2 hb3 hb4 hb5 hb6 hb7 hb8 hb9 hb10 hb11 => (h.2.2.2.1 9 (List.replicate 64 3) ⟨0,5,128,5⟩ [⟨0,6,128,5⟩] (sfv true fsl) hb1 hb2).2 7 {cw with readsOut := 1} hb3 hb4 hb5 hb6 hb7 hb8 hb9 hb10 hb11) ∧
    Met4 (fun (h : Obligations.PortsDeliverAndReturn) => (h.2.2.2.2 15 0 (ssp [spb, spb])).2.2 spb) ∧
    Met1 (fun (h : Obligations.PortsDeliverAndReturn) => (h.2.2.2.2 15 0 (ssp [spb, spb])).1 spb) := by
  refine ⟨⟨?_, ?_, ?_, ?_, ?_⟩, ⟨?_, ?_, ?_, ?_, ?_⟩, ⟨?_, ?_, ?_⟩, ⟨?_, ?_⟩, ⟨?_, ?_⟩, ⟨?_, ?_⟩, ⟨?_, ?_⟩, ⟨?_, ?_, ?_, ?_⟩, ⟨?_, ?_, ?_⟩, ⟨?_, ?_, ?_⟩, ⟨?_, ?_, ?_, ?_, ?_, ?_, ?_, ?_, ?_, ?_, ?_⟩, ⟨?_, ?_, ?_, ?_⟩, ?_⟩ <;>
    first | decide +kernel | (unfold Turn; decide +kernel) | (unfold Waits; decide +kernel) | (unfold HasRead; decide +kernel)
def stp : State := { s3 with tally := { s3.tally with own := [(0, 5), (1, 5), (6,6)], val := [(9, 7), (10, 2^64-1)], credCfg := [(9, {tenant := 5, init := 3}), (10, {tenant := 6})], credVal := [(9, {value := 10})], slots := [(3,.tally 9 8)] } }
def rfz : Host.Outcome State Fault Refusal → State := fun | .next t => t | _ => {}
def no61 : Power := { base.power with ack := base.power.ack &&& ~~~(1#65 <<< 61), req := base.power.req &&& ~~~(1#65 <<< 61) }
theorem witness_tallyPortsOperate :
    Met4 (fun (h : Obligations.TallyPortsOperate) hb1 hb2 => (h.1 0 9 0 3 stp hb1 hb2).1) ∧
    Met4 (fun (h : Obligations.TallyPortsOperate) hb1 hb2 => (h.1 0 9 0 3 stp hb1 hb2).2.1) ∧
    Met8 (fun (h : Obligations.TallyPortsOperate) hb1 hb2 => (h.1 0 9 65535 3 stp hb1 hb2).2.2.1) ∧
    Met8 (fun (h : Obligations.TallyPortsOperate) hb1 hb2 => (h.1 0 10 1 3 stp hb1 hb2).2.2.1) ∧
    Met4 (fun (h : Obligations.TallyPortsOperate) hb1 hb2 => (h.1 0 9 7 3 stp hb1 hb2).2.2.2.1) ∧
    Met4 (fun (h : Obligations.TallyPortsOperate) hb1 hb2 => (h.1 0 9 8 3 stp hb1 hb2).2.2.2.1) ∧
    Met6 (fun (h : Obligations.TallyPortsOperate) hb1 hb2 hb3 hb4 hb5 hb6 => ((h.1 0 9 10 3 stp hb1 hb2).2.2.2.2.1 hb3 hb4 hb5 hb6).1) ∧
    Met7 (fun (h : Obligations.TallyPortsOperate) hb1 hb2 hb3 hb4 hb5 hb6 => ((h.1 0 9 10 3 stp hb1 hb2).2.2.2.2.1 hb3 hb4 hb5 hb6).2.1) ∧
    Met7 (fun (h : Obligations.TallyPortsOperate) hb1 hb2 hb3 hb4 hb5 hb6 => ((h.1 0 9 11 3 stp hb1 hb2).2.2.2.2.1 hb3 hb4 hb5 hb6).2.2) ∧
    Met6 (fun (h : Obligations.TallyPortsOperate) hb1 hb2 hb3 hb4 hb5 hb6 => ((h.1 0 9 65535 3 {stp with tally := {stp.tally with credVal := [(9,{value := 65537})]}} hb1 hb2).2.2.2.2.1 hb3 hb4 hb5 hb6).1) ∧
    Met5 (fun (h : Obligations.TallyPortsOperate) hb1 hb2 => (h.1 0 9 11 3 stp hb1 hb2).2.2.2.2.2.1) ∧
    Met4 (fun (h : Obligations.TallyPortsOperate) hb1 hb2 => (h.1 0 9 0 3 stp hb1 hb2).2.2.2.2.2.2.1) ∧
    Met3 (fun (h : Obligations.TallyPortsOperate) hb1 hb2 => (h.1 0 96 5 3 stp hb1 hb2).2.2.2.2.2.2.2.1) ∧
    Met3 (fun (h : Obligations.TallyPortsOperate) hb1 hb2 => (h.1 0 10 5 3 stp hb1 hb2).2.2.2.2.2.2.2.2) ∧
    Met3 (fun (h : Obligations.TallyPortsOperate) hb1 hb2 => (h.1 0 9 5 3 {stp with faults := {halted := true}} hb1 hb2).2.2.2.2.2.2.2.2) ∧
    Met1 (fun (h : Obligations.TallyPortsOperate) => (h.2 0 9 2 5 (.tpIncrement 0 9 5) {stp with inp := {stp.inp with present := 0}} (by simp)).1) ∧
    Met2 (fun (h : Obligations.TallyPortsOperate) => (h.2 0 9 2 5 (.tpIncrement 0 9 5) {stp with power := no61} (by simp)).2) ∧
    Met2 (fun (h : Obligations.TallyPortsOperate) => (h.2 0 9 2 5 (.tpCreditTake 0 9 5) {stp with power := { base.power with clkAck := 0, clkReq := 0 }} (by simp)).2) := by
  refine ⟨⟨?_, ?_, ?_, ?_⟩, ⟨?_, ?_, ?_, ?_⟩, ⟨?_, ?_, ?_, ?_, ?_, ?_, ?_, ?_⟩, ⟨?_, ?_, ?_, ?_, ?_, ?_, ?_, ?_⟩, ⟨?_, ?_, ?_, ?_⟩, ⟨?_, ?_, ?_, ?_⟩, ⟨?_, ?_, ?_, ?_, ?_, ?_⟩, ⟨?_, ?_, ?_, ?_, ?_, ?_, ?_⟩, ⟨?_, ?_, ?_, ?_, ?_, ?_, ?_⟩, ⟨?_, ?_, ?_, ?_, ?_, ?_⟩, ⟨?_, ?_, ?_, ?_, ?_⟩, ⟨?_, ?_, ?_, ?_⟩, ⟨?_, ?_, ?_⟩, ⟨?_, ?_, ?_⟩, ⟨?_, ?_, ?_⟩, ?_, ⟨?_, ?_⟩, ⟨?_, ?_⟩⟩ <;>
    first | decide +kernel | (unfold Turn; decide +kernel) | (unfold Waits; decide +kernel) | (unfold HasRead; decide +kernel)
def sba (x : Barrier) : State := { stp with tally := { stp.tally with bars := [(63, x), (62, {cfg0 := 2^55})] } }
theorem witness_tallyUnitIsConfiguredAndTimed :
    Met1 (fun (h : Obligations.TallyUnitIsConfiguredAndTimed) => h.1.1 1023 0xFFFFF006 stp) ∧
    Met2 (fun (h : Obligations.TallyUnitIsConfiguredAndTimed) hb1 => (h.1.2.1 9 (5 + 0xFFFF * 2^16) stp hb1).1) ∧
    Met2 (fun (h : Obligations.TallyUnitIsConfiguredAndTimed) hb1 => (h.1.2.1 9 5 {stp with power := no61} hb1).1) ∧
    Met3 (fun (h : Obligations.TallyUnitIsConfiguredAndTimed) hb1 => (h.1.2.1 9 (5 + 2^16) {stp with power := no61} hb1).2) ∧
    Met5 (fun (h : Obligations.TallyUnitIsConfiguredAndTimed) hb1 hb2 hb3 hb4 => (h.1.2.2.1 63 (BitVec.ofNat 64 (9 + 10 * 2^16 + 2^55)) (sba {cfg2 := 5 * 2^32}) hb1 hb2 hb3 hb4).1) ∧
    Met5 (fun (h : Obligations.TallyUnitIsConfiguredAndTimed) hb1 hb2 hb3 hb4 => (h.1.2.2.1 63 (BitVec.ofNat 64 (9 + 10 * 2^16 + 2^55)) (sba {cfg2 := 6 * 2^32}) hb1 hb2 hb3 hb4).2) ∧
    Met3 (fun (h : Obligations.TallyUnitIsConfiguredAndTimed) => h.1.2.2.2 63 9 (sba {cfg0 := BitVec.ofNat 64 (9 + 10 * 2^16 + 2^55), reported := 3})) ∧
    Met3 (fun (h : Obligations.TallyUnitIsConfiguredAndTimed) => h.1.2.2.2 63 8 (sba {cfg0 := BitVec.ofNat 64 (9 + 10 * 2^16 + 2^55), reported := 3})) ∧
    Met3 (fun (h : Obligations.TallyUnitIsConfiguredAndTimed) hb1 hb2 => (h.2.1 (sb px) hb1 hb2).1) ∧
    Met3 (fun (h : Obligations.TallyUnitIsConfiguredAndTimed) hb1 hb2 => (h.2.1 { sb {px with state := .waiting} with tally := {dlQuiet := true} } hb1 hb2).2) ∧
    Met3 (fun (h : Obligations.TallyUnitIsConfiguredAndTimed) => h.2.2.1 0 (let s := sb {px with state := .waiting, waitTally := 3, waitValue := 9}; s)) ∧
    Met3 (fun (h : Obligations.TallyUnitIsConfiguredAndTimed) => h.2.2.2.1 0 { stp with tally := { stp.tally with slots := [(0,.tally 9 8),(1,.tally 9 8),(2,.tally 9 8),(3,.credit 9 11)], lentCores := [5] } }) := by
  refine ⟨?_, ⟨?_, ?_⟩, ⟨?_, ?_⟩, ⟨?_, ?_, ?_⟩, ⟨?_, ?_, ?_, ?_, ?_⟩, ⟨?_, ?_, ?_, ?_, ?_⟩, ⟨?_, ?_, ?_⟩, ⟨?_, ?_, ?_⟩, ⟨?_, ?_, ?_⟩, ⟨?_, ?_, ?_⟩, ⟨?_, ?_, ?_⟩, ⟨?_, ?_, ?_⟩⟩ <;>
    first | decide +kernel | (unfold Turn; decide +kernel) | (unfold Waits; decide +kernel) | (unfold HasRead; decide +kernel)
def slx (x : Link) (s : State := s3) : State := { s with fabric := { s.fabric with links := [(17, x), (3, {rtt := 5})] } }
def lk1 : Link := { state := .service, partner := 3, txKey := some ⟨[1],[2]⟩, rxKey := some ⟨[1],[2]⟩, replay := [⟨3, [1], []⟩], replays := 15 }
def ec (k n : Nat) : Bytes := ctlFlit (leBytes 1 k ++ leBytes 8 n)
theorem witness_linksTrainMeasureAndFall :
    Met2 (fun (h : Obligations.LinksTrainMeasureAndFall) => h.1.1 17 { s3 with keeper := { s3.keeper with trainAsked := true } }) ∧
    Met2 (fun (h : Obligations.LinksTrainMeasureAndFall) => h.1.1 17 { s3 with keeper := { s3.keeper with trainAsked := true }, power := {} }) ∧
    Met3 (fun (h : Obligations.LinksTrainMeasureAndFall) => (h.1.2.1 17 0xFF 0xAAAA (slx {state := .training, trainReq := true})).1) ∧
    Met3 (fun (h : Obligations.LinksTrainMeasureAndFall) => (h.1.2.1 17 0xFF 0x5555 (slx {state := .training, trainReq := true})).1) ∧
    Met3 (fun (h : Obligations.LinksTrainMeasureAndFall) => (h.1.2.1 17 0xFE 0xAAAA (slx {state := .training, trainReq := true})).2.1) ∧
    Met2 (fun (h : Obligations.LinksTrainMeasureAndFall) => (h.1.2.1 17 0xFF 0xC000 (slx {state := .training, trainReq := true})).2.2 7) ∧
    Met1 (fun (h : Obligations.LinksTrainMeasureAndFall) hb1 => (h.1.2.2 17 (slx lk1) hb1).1) ∧
    Met2 (fun (h : Obligations.LinksTrainMeasureAndFall) hb1 => (h.1.2.2 17 (slx lk1) hb1).2.1) ∧
    Met2 (fun (h : Obligations.LinksTrainMeasureAndFall) hb1 => (h.1.2.2 17 (slx {lk1 with rxKey := none}) hb1).2.2.1) ∧
    Met3 (fun (h : Obligations.LinksTrainMeasureAndFall) hb1 => (h.1.2.2 17 (slx {lk1 with replays := 16}) hb1).2.2.2.1) ∧
    Met3 (fun (h : Obligations.LinksTrainMeasureAndFall) hb1 => (h.1.2.2 17 (slx lk1) hb1).2.2.2.2.1) ∧
    Met2 (fun (h : Obligations.LinksTrainMeasureAndFall) hb1 => (h.1.2.2 17 (slx {lk1 with replay := []}) hb1).2.2.2.2.2) ∧
    Met4 (fun (h : Obligations.LinksTrainMeasureAndFall) hb1 hb2 => (h.2.2.1 17 (ec 2 40) 100 (slx {state := .measuring, echoes := [1,2,3,4,5,6]}) hb1 hb2).1) ∧
    Met7 (fun (h : Obligations.LinksTrainMeasureAndFall) hb1 hb2 => (h.2.2.1 17 (ec 2 40) 100 (slx {state := .measuring, echoes := [1,2,3,4,5,6,7]}) hb1 hb2).2.1) ∧
    Met4 (fun (h : Obligations.LinksTrainMeasureAndFall) hb1 hb2 => (h.2.2.1 17 (ec 2 40) 100 (slx {lk1 with echoes := [1,2,3,4,5,6,7,900]}) hb1 hb2).2.2) ∧
    Met2 (fun (h : Obligations.LinksTrainMeasureAndFall) => h.2.2.2 17 (slx lk1)) := by
  refine ⟨⟨?_, ?_⟩, ⟨?_, ?_⟩, ⟨?_, ?_, ?_⟩, ⟨?_, ?_, ?_⟩, ⟨?_, ?_, ?_⟩, ⟨?_, ?_⟩, ?_, ⟨?_, ?_⟩, ⟨?_, ?_⟩, ⟨?_, ?_, ?_⟩, ⟨?_, ?_, ?_⟩, ⟨?_, ?_⟩, ⟨?_, ?_, ?_, ?_⟩, ⟨?_, ?_, ?_, ?_, ?_, ?_, ?_⟩, ⟨?_, ?_, ?_, ?_⟩, ⟨?_, ?_⟩⟩ <;>
    first | decide +kernel | (unfold Turn; decide +kernel) | (unfold Waits; decide +kernel) | (unfold HasRead; decide +kernel)
def kk : LinkKey := ⟨List.replicate 32 1, [2,3,4,5]⟩
def lk2 : Link := { lk1 with txKey := some kk, txCr := [1,2,3,4,5,6], replay := [], txSeq := 4095, txRun := [zeros 128], sinceSeal := 5 }
def fq (x : Link) : State := slx x
def lkq : Link := { lk2 with txq := [(1, [mg opRead])] }
theorem witness_flitsGoOutAndRunsComeIn :
    Met2 (fun (h : Obligations.FlitsGoOutAndRunsComeIn) hb1 => (h.1.1 17 99 (slx {lk2 with ctl := [ec 4 5, ec 2 3], echoDue := 3}) hb1).1 (ec 2 3)) ∧
    Met4 (fun (h : Obligations.FlitsGoOutAndRunsComeIn) hb1 hb2 => ((h.1.1 17 99 (slx {lk2 with ctl := [ec 4 5], echoDue := 3, sinceSeal := 63}) hb1).2 hb2).1 kk) ∧
    Met5 (fun (h : Obligations.FlitsGoOutAndRunsComeIn) hb1 hb2 hb3 hb4 => ((((h.1.1 17 99 (slx {lk2 with ctl := [ec 4 5], echoDue := 3}) hb1).2 hb2).2.2 hb3 hb4).1 (ec 4 5) [])) ∧
    Met4 (fun (h : Obligations.FlitsGoOutAndRunsComeIn) hb1 hb2 hb3 hb4 => ((h.1.1 17 99 (slx {lk2 with ctl := [ec 4 5], idleOwed := 3}) hb1).2 hb2).2.1 hb3 hb4) ∧
    Met4 (fun (h : Obligations.FlitsGoOutAndRunsComeIn) hb1 hb2 hb3 hb4 => ((h.1.1 17 99 (slx {lk2 with idleOwed := 1}) hb1).2 hb2).2.1 hb3 hb4) ∧
    Met6 (fun (h : Obligations.FlitsGoOutAndRunsComeIn) hb1 hb2 hb3 hb4 hb5 hb6 => (((h.1.1 17 99 (slx {lk2 with echoDue := 3}) hb1).2 hb2).2.2 hb3 hb4).2.1 hb5 hb6) ∧
    Met7 (fun (h : Obligations.FlitsGoOutAndRunsComeIn) hb1 hb2 hb3 hb4 hb5 hb6 => ((((h.1.1 17 99 (slx {lk2 with replayAt := [⟨3,[9],[]⟩]}) hb1).2 hb2).2.2 hb3 hb4).2.2 hb5 hb6).1 ⟨3,[9],[]⟩ []) ∧
    Met8 (fun (h : Obligations.FlitsGoOutAndRunsComeIn) hb1 hb2 hb3 hb4 hb5 hb6 hb7 hb8 => ((((h.1.1 17 99 (slx {lk2 with txKey := none}) hb1).2 hb2).2.2 hb3 hb4).2.2 hb5 hb6).2.1 hb7 hb8) ∧
    Met9 (fun (h : Obligations.FlitsGoOutAndRunsComeIn) hb1 hb2 hb3 hb4 hb5 hb6 hb7 hb8 => ((((h.1.1 17 99 (slx lkq) hb1).2 hb2).2.2 hb3 hb4).2.2 hb5 hb6).2.2 kk hb7 hb8 |>.1 1) ∧
    Met10 (fun (h : Obligations.FlitsGoOutAndRunsComeIn) hb1 hb2 hb3 hb4 hb5 hb6 hb7 hb8 hb9 hb10 => ((((h.1.1 17 99 (slx lk2) hb1).2 hb2).2.2 hb3 hb4).2.2 hb5 hb6).2.2 kk hb7 hb8 |>.2.1 hb9 hb10) ∧
    Met10 (fun (h : Obligations.FlitsGoOutAndRunsComeIn) hb1 hb2 hb3 hb4 hb5 hb6 hb7 hb8 hb9 hb10 => ((((h.1.1 17 99 (slx {lk2 with txRun := []}) hb1).2 hb2).2.2 hb3 hb4).2.2 hb5 hb6).2.2 kk hb7 hb8 |>.2.2 hb9 hb10) ∧
    Met3 (fun (h : Obligations.FlitsGoOutAndRunsComeIn) => h.1.2 17 kk (slx {lk2 with sinceSeal := 63})) ∧
    Met1 (fun (h : Obligations.FlitsGoOutAndRunsComeIn) => (h.2.1 17 (zeros 128) (slx {lk1 with rxSeq := 0, rxRun := [[1]]})).1) ∧
    Met1 (fun (h : Obligations.FlitsGoOutAndRunsComeIn) => (h.2.1 17 (zeros 128) (slx {lk1 with rxSeq := 1, rxRun := [[1]]})).2) ∧
    Met1 (fun (h : Obligations.FlitsGoOutAndRunsComeIn) => (h.2.2.2 17 (zeros 128) (slx {lk1 with rxSeq := 0, rxRun := [[1]]})).1) := by
  refine ⟨⟨?_, ?_⟩, ⟨?_, ?_, ?_, ?_⟩, ⟨?_, ?_, ?_, ?_, ?_⟩, ⟨?_, ?_, ?_, ?_⟩, ⟨?_, ?_, ?_, ?_⟩, ⟨?_, ?_, ?_, ?_, ?_, ?_⟩, ⟨?_, ?_, ?_, ?_, ?_, ?_, ?_⟩, ⟨?_, ?_, ?_, ?_, ?_, ?_, ?_, ?_⟩, ⟨?_, ?_, ?_, ?_, ?_, ?_, ?_, ?_, ?_⟩, ⟨?_, ?_, ?_, ?_, ?_, ?_, ?_, ?_, ?_, ?_⟩, ⟨?_, ?_, ?_, ?_, ?_, ?_, ?_, ?_, ?_, ?_⟩, ⟨?_, ?_, ?_⟩, ?_, ?_, ?_⟩ <;>
    first | decide +kernel | (unfold Turn; decide +kernel) | (unfold Waits; decide +kernel) | (unfold HasRead; decide +kernel)
def st3 : State := sl [mg opWrite 5 0 [1,2,3]]
def st4 (w : Word) : State := sl [mg opLid 5 w [1,2,3]]
def sid : State := { sl [mg opRead] with frames := [(3, {state := .idle})] }
theorem witness_requestsAreCheckedThenServed :
    Met4 (fun (h : Obligations.RequestsAreCheckedThenServed) hb1 hb2 => (h 17 1 (mg opRead) [(1, mg opRead)] (sl [mg opRead, mg opRead]) hb1 hb2).1 4096 none) ∧
    Met5 (fun (h : Obligations.RequestsAreCheckedThenServed) hb1 hb2 hb3 hb4 => (h 17 1 (mg opWrite 5 0 [1,2,3]) [] st3 hb1 hb2).2.1 4096 none (((st3.takeFabSlot (mg opWrite 5 0 [1,2,3])).map (·.1)).getD 0) (((st3.takeFabSlot (mg opWrite 5 0 [1,2,3])).map (·.2)).getD {}) hb3 hb4 |>.1) ∧
    Met7 (fun (h : Obligations.RequestsAreCheckedThenServed) hb1 hb2 hb3 hb4 => (h 17 1 (mg opLid 5 1 [1,2,3]) [] (st4 1) hb1 hb2).2.1 4096 none ((((st4 1).takeFabSlot (mg opLid 5 1 [1,2,3])).map (·.1)).getD 0) ((((st4 1).takeFabSlot (mg opLid 5 1 [1,2,3])).map (·.2)).getD {}) hb3 hb4 |>.2.1) ∧
    Met8 (fun (h : Obligations.RequestsAreCheckedThenServed) hb1 hb2 hb3 hb4 => (h 17 1 (mg opLid 5 0 [1,2,3]) [] (st4 0) hb1 hb2).2.1 4096 none ((((st4 0).takeFabSlot (mg opLid 5 0 [1,2,3])).map (·.1)).getD 0) ((((st4 0).takeFabSlot (mg opLid 5 0 [1,2,3])).map (·.2)).getD {}) hb3 hb4 |>.2.2) ∧
    Met3 (fun (h : Obligations.RequestsAreCheckedThenServed) hb1 hb2 => (h 17 1 {mg opWrite 5 with tenant := 6} [] (sl [{mg opWrite 5 with tenant := 6}]) hb1 hb2).2.2.1 1) ∧
    Met3 (fun (h : Obligations.RequestsAreCheckedThenServed) hb1 hb2 => (h 17 1 {mg opRead 5 with tenant := 6} [] (sl [{mg opRead 5 with tenant := 6}]) hb1 hb2).2.2.1 1) ∧
    Met3 (fun (h : Obligations.RequestsAreCheckedThenServed) hb1 hb2 => (h 17 1 (mg opRead) [] (sl [mg opRead] {} {adm := .unknown}) hb1 hb2).2.2.2.2.1) ∧
    Met3 (fun (h : Obligations.RequestsAreCheckedThenServed) hb1 hb2 => (h 17 1 (mg opRead) [] (sl [mg opRead] {} {} {s3 with faults := {halted := true}}) hb1 hb2).2.2.2.2.2.1) ∧
    Met4 (fun (h : Obligations.RequestsAreCheckedThenServed) hb1 hb2 => (h 17 1 (mg opRead) [] (sl [mg opRead] {} {} {s3 with fabric := {}}) hb1 hb2).2.2.2.2.2.2.1) ∧
    Met5 (fun (h : Obligations.RequestsAreCheckedThenServed) hb1 hb2 hb3 hb4 => ((h 17 1 (mg opRead) [] (sl [mg opRead] {} {}) hb1 hb2).2.2.2.2.2.2.2 hb3 hb4).1) ∧
    Met7 (fun (h : Obligations.RequestsAreCheckedThenServed) hb1 hb2 hb3 hb4 hb5 => ((h 17 1 {mg opRead with tenant := 6} [] (sl [{mg opRead with tenant := 6}]) hb1 hb2).2.2.2.2.2.2.2 hb3 hb4).2 hb5 |>.1) ∧
    Met7 (fun (h : Obligations.RequestsAreCheckedThenServed) hb1 hb2 hb3 hb4 hb5 => ((h 17 1 {mg opRead with win := true} [] (sl [{mg opRead with win := true}]) hb1 hb2).2.2.2.2.2.2.2 hb3 hb4).2 hb5 |>.2.1) ∧
    Met9 (fun (h : Obligations.RequestsAreCheckedThenServed) hb1 hb2 hb3 hb4 hb5 => ((h 17 1 {mg opRead with addr := 2^40} [] (sl [{mg opRead with addr := 2^40}]) hb1 hb2).2.2.2.2.2.2.2 hb3 hb4).2 hb5 |>.2.2) ∧
    Met4 (fun (h : Obligations.RequestsAreCheckedThenServed) hb1 hb2 => (h 17 1 (mg opRead) [] sid hb1 hb2).2.2.2.1) := by
  refine ⟨⟨?_, ?_, ?_, ?_⟩, ⟨?_, ?_, ?_, ?_, ?_⟩, ⟨?_, ?_, ?_, ?_, ?_, ?_, ?_⟩, ⟨?_, ?_, ?_, ?_, ?_, ?_, ?_, ?_⟩, ⟨?_, ?_, ?_⟩, ⟨?_, ?_, ?_⟩, ⟨?_, ?_, ?_⟩, ⟨?_, ?_, ?_⟩, ⟨?_, ?_, ?_, ?_⟩, ⟨?_, ?_, ?_, ?_, ?_⟩, ⟨?_, ?_, ?_, ?_, ?_, ?_, ?_⟩, ⟨?_, ?_, ?_, ?_, ?_, ?_, ?_⟩, ⟨?_, ?_, ?_, ?_, ?_, ?_, ?_, ?_, ?_⟩, ⟨?_, ?_, ?_, ?_⟩⟩ <;>
    first | decide +kernel | (unfold Turn; decide +kernel) | (unfold Waits; decide +kernel) | (unfold HasRead; decide +kernel)
end Fabric

namespace Partner
def wp (k part serial : Nat) : Bytes := ctlFlit (leBytes 1 k ++ leBytes 1 part ++ zeros 2 ++ leBytes 4 serial)
def slx (x : Link) (s : State := s3) : State := { s with fabric := { s.fabric with links := [(17, x), (3, {rtt := 5})] } }
def idk (s : State) : State := { s with keeper := { s.keeper with chainOk := true, idKey := some 5, idLock := true } }
def wl (serial : Nat) : Bytes := ctlFlit (leBytes 1 3 ++ leBytes 1 0x82 ++ leBytes 2 24 ++ leBytes 4 serial)
def wasm : Assembly := { serial := 9, parts := [(0, patch (zeros 116) 24 (leBytes 8 9)), (1, zeros 116)] }
def wy (x : Link) (f : Bytes) : Link := { x with asmRec := some (takePart x.asmRec f) }
def wx (j : Word) : Link := { state := .waggle, judged := j, asmRec := some wasm, record := [1] }
def wrec : Bytes := patch (zeros 256) 24 (leBytes 8 9)
def wi9 : Instr := .waggleRecordPart 17 (wl 9)
def wid : Bytes := ctlFlit (leBytes 1 4 ++ leBytes 1 0x80 ++ leBytes 2 24 ++ leBytes 4 1)
def was1 : Assembly := { serial := 1, parts := [(0, patch (zeros 116) 24 (leBytes 8 1)), (1, zeros 116), (2, zeros 24)], total := some 3 }
def wx1 (j : Word) : Link := { state := .waggle, judged := j, asmRec := some was1, record := [1] }
def wrec1 : Bytes := patch (zeros 256) 24 (leBytes 8 1)
theorem witness_waggleJudgesAndRepeats :
    Met3 (fun (h : Obligations.WaggleJudgesAndRepeats) hb1 => (h.1 17 (wp 4 1 9) (slx {state := .waggle}) hb1).1) ∧
    Met3 (fun (h : Obligations.WaggleJudgesAndRepeats) hb1 => (h.1 17 (wp 3 1 9) (slx {state := .waggle}) hb1).2.1) ∧
    Met3 (fun (h : Obligations.WaggleJudgesAndRepeats) => h.2.1 17 (wp 5 0 9) (slx {state := .waggle, serial := 9, record := [1]})) ∧
    Met2 (fun (h : Obligations.WaggleJudgesAndRepeats) hb1 hb2 => (h.2.2.1 17 (slx {state := .waggle, serial := 9, record := zeros 200}) hb1 hb2).1) ∧
    Met4 (fun (h : Obligations.WaggleJudgesAndRepeats) hb1 hb2 => (h.2.2.1 17 (slx {state := .waggle, serial := 9, record := zeros 200}) hb1 hb2).2) ∧
    Met1 (fun (h : Obligations.WaggleJudgesAndRepeats) => h.2.2.2.1 17 (slx {state := .held, record := [1]})) ∧
    Met4 (fun (h : Obligations.WaggleJudgesAndRepeats) hb1 hb2 hb3 hb4 => (h.1 17 (wl 9) (slx (wx 9)) hb1).2.2 wi9 (wy (wx 9) (wl 9)) wrec hb2 hb3 |>.1 hb4) ∧
    Met9 (fun (h : Obligations.WaggleJudgesAndRepeats) hb1 hb2 hb3 hb4 hb5 hb6 hb7 hb8 => (h.1 17 (wl 9) (slx (wx 8) (idk s3)) hb1).2.2 wi9 (wy (wx 8) (wl 9)) wrec hb2 hb3 |>.2 hb4 hb5 hb6 hb7 hb8 |>.1 1) ∧
    Met4 (fun (h : Obligations.WaggleJudgesAndRepeats) hb1 hb2 hb3 hb4 => (h.1 17 wid (slx (wx1 1)) hb1).2.2 (.identityPart 17 wid) { wx1 1 with asmChain := some (takePart none wid) } wrec1 hb2 hb3 |>.1 hb4) := by
  refine ⟨⟨?_, ?_, ?_⟩, ⟨?_, ?_, ?_⟩, ⟨?_, ?_, ?_⟩, ⟨?_, ?_⟩, ⟨?_, ?_, ?_, ?_⟩, ?_, ⟨?_, ?_, ?_, ?_⟩, ⟨?_, ?_, ?_, ?_, ?_, ?_, ?_, ?_, ?_⟩, ⟨?_, ?_, ?_, ?_⟩⟩ <;>
    first | decide +kernel | (unfold Turn; decide +kernel) | (unfold Waits; decide +kernel) | (unfold HasRead; decide +kernel)
def fr1 (w : Word) : FabReq := ⟨mg opLid 5 w, 4096, 5, none, none⟩
def srx (x : RxGroup) (s : State := sl []) : State := { s with fabric := { s.fabric with rxGroups := [(3 * 64 + 5, x)] } }
def lw : Word := BitVec.ofNat 64 (9 * 2^32 + 2^46 + 7 * 2^47)
def nt (s : State) : State := { s with power := { s.power with ack := 0, req := 0 } }
def rdm : Msg := { mg opReadData 9 with len := 64, data := List.replicate 64 6 }
def srd2 (ms : List Msg) : State := let s := sl ms; { s with fabric := { s.fabric with txReads := [(3 * 1024 + 9, { used := true, ctx := 7, work := 1, frame := 0, slot := 4, msg := some (mg opRead 9), via := some 17 })] }, ctxs := [(7, {px with works := [{cw with readsOut := 1}]})], frames := [(0, {state := .run, slots := [(4, { cslot with have_ := 0, remote := some 3 })]}),(3,{state := .run})] }
def stx (g : TxGroup) (ms : List Msg) : State := let s := sl ms; { s with fabric := { s.fabric with txGroups := [(3 * 64 + 9, g)] }, ctxs := [(7, {px with works := [cw]})] }
def r9 : Msg := { mg opRefuse 9 9 with src := 4, data := leBytes 2 3 }
def sr9 : State := { srd2 [r9] with fabric := { (srd2 [r9]).fabric with links := [(17, { state := .service, partner := 4, rxq := [(1, r9)] })] } }
theorem witness_remoteGroupsAndReadsEnd :
    Met5 (fun (h : Obligations.RemoteGroupsAndReadsEnd) hb1 hb2 hb3 hb4 hb5 => (h.1.1 3 5 (fr1 0) (srx {live := true, lid := some (fr1 0), lidIssued := true, landed := 4}) hb1 hb2 hb3 hb4).2 hb5) ∧
    Met5 (fun (h : Obligations.RemoteGroupsAndReadsEnd) hb1 hb2 hb3 hb4 hb5 => (h.1.1 3 5 (fr1 lw) (srx {live := true, lid := some (fr1 lw), lidIssued := true, landed := 4}) hb1 hb2 hb3 hb4).2 hb5) ∧
    Met6 (fun (h : Obligations.RemoteGroupsAndReadsEnd) hb1 hb2 hb3 hb4 hb5 hb6 => (h.1.1 3 5 (fr1 lw) (nt (srx {live := true, lid := some (fr1 lw), lidIssued := true, landed := 4})) hb1 hb2 hb3 hb4).1 hb5 hb6) ∧
    Met1 (fun (h : Obligations.RemoteGroupsAndReadsEnd) => (h.1.2.1 3 5 (srx {live := true, landed := 4, inFlight := 2})).1) ∧
    Met1 (fun (h : Obligations.RemoteGroupsAndReadsEnd) => (h.1.2.1 3 5 (srx {})).2) ∧
    Met2 (fun (h : Obligations.RemoteGroupsAndReadsEnd) => h.1.2.2.1 17 1 (mg opAbandon 5) [] (srx {live := true, landed := 4} (sl [mg opAbandon 5]))) ∧
    Met2 (fun (h : Obligations.RemoteGroupsAndReadsEnd) => h.1.2.2.1 17 1 (mg opAbandon 5) [] (sl [mg opAbandon 5])) ∧
    Met1 (fun (h : Obligations.RemoteGroupsAndReadsEnd) => (h.1.2.2.2 3 { sl [] with frames := [(3, {fab := [fr1 0, fr1 lw]})] }).1 (fr1 0)) ∧
    Met6 (fun (h : Obligations.RemoteGroupsAndReadsEnd) => (h.1.2.2.2 3 (srx {live := true, lid := some (fr1 0)})).2 5) ∧
    Met9 (fun (h : Obligations.RemoteGroupsAndReadsEnd) hb1 hb2 hb3 hb4 hb5 hb6 hb7 hb8 hb9 => (h.2.1 17 1 rdm (mg opRead 9) [] (srd2 [rdm]) hb1 hb2).1 hb3 hb4 hb5 hb6 hb7 hb8 hb9) ∧
    Met3 (fun (h : Obligations.RemoteGroupsAndReadsEnd) hb1 hb2 hb3 => (h.2.1 17 1 rdm (mg opRead 9) [] (sl [rdm]) hb1 hb2).2 hb3) ∧
    Met3 (fun (h : Obligations.RemoteGroupsAndReadsEnd) hb1 hb2 hb3 => (h.2.1 17 1 { rdm with addr := 8192 } (mg opRead 9) [] (srd2 [{ rdm with addr := 8192 }]) hb1 hb2).2 hb3) ∧
    Met2 (fun (h : Obligations.RemoteGroupsAndReadsEnd) => h.2.2.1 17 1 (mg opLanded 9) [] (stx { used := true, ctx := 7, work := 1, closed := true, lidSent := true } [mg opLanded 9])) ∧
    Met2 (fun (h : Obligations.RemoteGroupsAndReadsEnd) => h.2.2.1 17 1 (mg opLanded 9) [] (stx {} [mg opLanded 9])) ∧
    Met3 (fun (h : Obligations.RemoteGroupsAndReadsEnd) hb1 hb2 hb3 => (h.2.2.2.1 17 1 (mg opRefuse 9 6) [] (srd2 [mg opRefuse 9 6]) hb1 hb2).1 hb3) ∧
    Met3 (fun (h : Obligations.RemoteGroupsAndReadsEnd) hb1 hb2 hb3 => (h.2.2.2.1 17 1 (mg opRefuse 9 6) [] (stx { used := true, ctx := 7, work := 1, closed := true, lidSent := true } [mg opRefuse 9 6]) hb1 hb2).1 hb3) ∧
    Met4 (fun (h : Obligations.RemoteGroupsAndReadsEnd) hb1 hb2 hb3 hb4 => (h.2.2.2.1 17 1 r9 [] sr9 hb1 hb2).2.1 3 hb3 hb4) ∧
    Met4 (fun (h : Obligations.RemoteGroupsAndReadsEnd) hb1 hb2 hb3 hb4 => (h.2.2.2.1 17 1 r9 [] (sl [r9]) hb1 hb2).2.2 hb3 hb4) ∧
    Met2 (fun (h : Obligations.RemoteGroupsAndReadsEnd) => (h.2.2.2.2.1 3 9 (stx { used := true, ctx := 7, work := 1, closed := true, lidSent := true } [])).1) ∧
    Met1 (fun (h : Obligations.RemoteGroupsAndReadsEnd) => (h.2.2.2.2.1 3 9 (srd2 [])).2.1) ∧
    Met1 (fun (h : Obligations.RemoteGroupsAndReadsEnd) => (h.2.2.2.2.1 3 9 { srd2 [] with fabric := { (srd2 []).fabric with partners := [(3, {backing := true, adm := .inService})] } }).2.2.1) ∧
    Met1 (fun (h : Obligations.RemoteGroupsAndReadsEnd) => (h.2.2.2.2.1 3 9 (srd2 [])).2.2.2) ∧
    Met1 (fun (h : Obligations.RemoteGroupsAndReadsEnd) => h.2.2.2.2.2 3 9 (stx { used := true, cooling := true, ctx := 7, work := 1, closed := true, lidSent := true } [])) := by
  refine ⟨⟨?_, ?_, ?_, ?_, ?_⟩, ⟨?_, ?_, ?_, ?_, ?_⟩, ⟨?_, ?_, ?_, ?_, ?_, ?_⟩, ?_, ?_, ⟨?_, ?_⟩, ⟨?_, ?_⟩, ?_, ⟨?_, ?_, ?_, ?_, ?_, ?_⟩, ⟨?_, ?_, ?_, ?_, ?_, ?_, ?_, ?_, ?_⟩, ⟨?_, ?_, ?_⟩, ⟨?_, ?_, ?_⟩, ⟨?_, ?_⟩, ⟨?_, ?_⟩, ⟨?_, ?_, ?_⟩, ⟨?_, ?_, ?_⟩, ⟨?_, ?_, ?_, ?_⟩, ⟨?_, ?_, ?_, ?_⟩, ⟨?_, ?_⟩, ?_, ?_, ?_, ?_⟩ <;>
    first | decide +kernel | (unfold Turn; decide +kernel) | (unfold Waits; decide +kernel) | (unfold HasRead; decide +kernel)
def tm (k b ep : Nat) : Msg := { mg opTally with data := leBytes 1 k ++ leBytes 1 b ++ zeros 6 ++ leBytes 8 ep }
def sbr (m : Msg) : State := let s := sl [m]; { s with tally := { s.tally with own := [(0, 5)], bars := [(63, { cfg0 := BitVec.ofNat 64 (9 + 10 * 2^16 + 3 * 2^48 + 2^55), cfg1 := 8, cfg2 := 5 * 2^32, released := 4, childRep := [(3, 6)] })] } }
def noClk (s : State) : State := { s with power := { s.power with clkAck := 0, clkReq := 0 } }
def kq1 : Bytes := rq 0x0100 [(4,4,77)]
def km (tag : BitVec 16) : Msg := { mg opKeeper tag with data := kq1 }
def skp (t : BitVec 16) (a : Word) : State := let s := sl [km t]; { s with keeper := { s.keeper with relayAllow := a } }
def vrl : VerbProg := { vb 0x100 with stage := .relayed, req := rq 0x100 [(4,4,77),(3,1,1),(2,1,3)] }
theorem witness_partnersAreAdmittedAndHeard :
    Met2 (fun (h : Obligations.PartnersAreAdmittedAndHeard) hb1 => (h.1.1 17 1 (mg opNotReady 70) [] (sl [mg opNotReady 70] {} {wait := 600, credits := 5}) hb1).1) ∧
    Met2 (fun (h : Obligations.PartnersAreAdmittedAndHeard) hb1 => (h.1.1 17 1 (mg opNotReady 9) [] (stx { used := true, ctx := 7, work := 1, closed := true, lidSent := true, msgs := [mg opLid 9] } [mg opNotReady 9]) hb1).1) ∧
    Met2 (fun (h : Obligations.PartnersAreAdmittedAndHeard) hb1 => (h.1.1 17 1 (mg opCredit 0 130) [] (sl [mg opCredit 0 130] {} {wait := 600, backing := true, out := [mg opRead 4, mg opRead 5]}) hb1).2) ∧
    Met2 (fun (h : Obligations.PartnersAreAdmittedAndHeard) => (h.1.2 3 (sl [] {} {backing := true, out := [mg opRead 4, mg opRead 5]})).1) ∧
    Met1 (fun (h : Obligations.PartnersAreAdmittedAndHeard) => (h.1.2 3 (sl [] {} {})).2.1) ∧
    Met1 (fun (h : Obligations.PartnersAreAdmittedAndHeard) => (h.1.2 3 (sl [] {} {toReturn := 5})).2.2.1) ∧
    Met1 (fun (h : Obligations.PartnersAreAdmittedAndHeard) => (h.1.2 3 (sl [] {} {})).2.2.2.1) ∧
    Met3 (fun (h : Obligations.PartnersAreAdmittedAndHeard) hb1 hb2 => ((h.1.2 3 (let s := sl [] {} {adm := .queued}; { s with fabric := { s.fabric with admitQ := [3,4] } })).2.2.2.2 hb1 hb2).1 [4]) ∧
    Met4 (fun (h : Obligations.PartnersAreAdmittedAndHeard) hb1 hb2 => ((h.1.2 3 (sl [] {} {adm := .ramping 3, granted := 768})).2.2.2.2 hb1 hb2).2 3 1024 .inService) ∧
    Met4 (fun (h : Obligations.PartnersAreAdmittedAndHeard) hb1 hb2 => ((h.1.2 3 (sl [] {} {adm := .ramping 0, granted := 128})).2.2.2.2 hb1 hb2).2 0 256 (.ramping 1)) ∧
    Met7 (fun (h : Obligations.PartnersAreAdmittedAndHeard) hb1 hb2 hb3 hb4 => (h.2.1 17 1 (tm 1 63 7) [] (noClk (sbr (tm 1 63 7))) hb1 hb2 hb3 hb4).1) ∧
    Met8 (fun (h : Obligations.PartnersAreAdmittedAndHeard) hb1 hb2 hb3 hb4 hb5 => ((h.2.1 17 1 (tm 1 63 7) [] (sbr (tm 1 63 7)) hb1 hb2 hb3 hb4).2 hb5).1) ∧
    Met8 (fun (h : Obligations.PartnersAreAdmittedAndHeard) hb1 hb2 hb3 hb4 hb5 => ((h.2.1 17 1 (tm 2 63 5) [] (sbr (tm 2 63 5)) hb1 hb2 hb3 hb4).2 hb5).2.1) ∧
    Met6 (fun (h : Obligations.PartnersAreAdmittedAndHeard) hb1 hb2 hb3 hb4 hb5 => ((h.2.1 17 1 (tm 1 63 6) [] (sbr (tm 1 63 6)) hb1 hb2 hb3 hb4).2 hb5).2.2.1) ∧
    Met6 (fun (h : Obligations.PartnersAreAdmittedAndHeard) hb1 hb2 hb3 hb4 hb5 => ((h.2.1 17 1 (tm 2 63 4) [] (sbr (tm 2 63 4)) hb1 hb2 hb3 hb4).2 hb5).2.2.1) ∧
    Met7 (fun (h : Obligations.PartnersAreAdmittedAndHeard) hb1 hb2 hb3 hb4 hb5 => ((h.2.1 17 1 (tm 3 63 4) [] (sbr (tm 3 63 4)) hb1 hb2 hb3 hb4).2 hb5).2.2.2) ∧
    Met7 (fun (h : Obligations.PartnersAreAdmittedAndHeard) hb1 hb2 hb3 hb4 hb5 => ((h.2.1 17 1 (tm 1 64 4) [] (sbr (tm 1 64 4)) hb1 hb2 hb3 hb4).2 hb5).2.2.2) ∧
    Met7 (fun (h : Obligations.PartnersAreAdmittedAndHeard) hb1 hb2 => (h.2.2 17 1 (km 0) [] (skp 0 8) hb1 hb2).1) ∧
    Met5 (fun (h : Obligations.PartnersAreAdmittedAndHeard) hb1 hb2 => (h.2.2 17 1 (km 0) [] (skp 0 0) hb1 hb2).2.1) ∧
    Met9 (fun (h : Obligations.PartnersAreAdmittedAndHeard) hb1 hb2 => (h.2.2 17 1 (km 1) [] (let s := sl [km 1]; sv vrl { s with mboxes := [(0,{busy := true})] }) hb1 hb2).2.2.1 vrl 0) ∧
    Met4 (fun (h : Obligations.PartnersAreAdmittedAndHeard) hb1 hb2 => (h.2.2 17 1 (km 1) [] (sl [km 1]) hb1 hb2).2.2.2) := by
  refine ⟨⟨?_, ?_⟩, ⟨?_, ?_⟩, ⟨?_, ?_⟩, ⟨?_, ?_⟩, ?_, ?_, ?_, ⟨?_, ?_, ?_⟩, ⟨?_, ?_, ?_, ?_⟩, ⟨?_, ?_, ?_, ?_⟩, ⟨?_, ?_, ?_, ?_, ?_, ?_, ?_⟩, ⟨?_, ?_, ?_, ?_, ?_, ?_, ?_, ?_⟩, ⟨?_, ?_, ?_, ?_, ?_, ?_, ?_, ?_⟩, ⟨?_, ?_, ?_, ?_, ?_, ?_⟩, ⟨?_, ?_, ?_, ?_, ?_, ?_⟩, ⟨?_, ?_, ?_, ?_, ?_, ?_, ?_⟩, ⟨?_, ?_, ?_, ?_, ?_, ?_, ?_⟩, ⟨?_, ?_, ?_, ?_, ?_, ?_, ?_⟩, ⟨?_, ?_, ?_, ?_, ?_⟩, ⟨?_, ?_, ?_, ?_, ?_, ?_, ?_, ?_, ?_⟩, ⟨?_, ?_, ?_, ?_⟩⟩ <;>
    first | decide +kernel | (unfold Turn; decide +kernel) | (unfold Waits; decide +kernel) | (unfold HasRead; decide +kernel)
theorem witness_faultStatusBits :
    Met1 (fun (h : Obligations.FaultStatusBits) => h.1 { src := 47 } none false 47 s3) ∧
    Met3 (fun (h : Obligations.FaultStatusBits) => h.2.1 63 { s3 with inp := { s3.inp with ftest := true } }) ∧
    Met1 (fun (h : Obligations.FaultStatusBits) => h.2.2 0xFFFFFFFFFFFFFFFF 1 { s3 with faults := { stat := 7 } }) := by
  refine ⟨?_, ⟨?_, ?_, ?_⟩, ?_⟩ <;>
    first | decide +kernel | (unfold Turn; decide +kernel) | (unfold Waits; decide +kernel) | (unfold HasRead; decide +kernel)
end Partner

namespace Engine
def cfs (l : List (Nat × BitVec 9)) (f : Faults := {}) : State := { sb px with faults := { f with cfg := l }, ptime := 77 }
theorem witness_faultsAreCapturedMergedAndCounted :
    Met1 (fun (h : Obligations.FaultsAreCapturedMergedAndCounted) => h.1 { src := 47 } (cfs [])) ∧
    Met1 (fun (h : Obligations.FaultsAreCapturedMergedAndCounted) => h.1 { src := 32 } (cfs [])) ∧
    Met1 (fun (h : Obligations.FaultsAreCapturedMergedAndCounted) => h.1 { src := 40 } (cfs [(40, 0x1F1)])) ∧
    Met1 (fun (h : Obligations.FaultsAreCapturedMergedAndCounted) => h.1 { src := 40 } (cfs [(40, 0x1F0)])) ∧
    Met1 (fun (h : Obligations.FaultsAreCapturedMergedAndCounted) => h.1 { src := 40 } (cfs [(40, 0x1F3)] { cap0 := 0x40, merges := 0xFFFF })) ∧
    Met1 (fun (h : Obligations.FaultsAreCapturedMergedAndCounted) => h.1 { src := 40 } (cfs [(40, 0x1F2)] { cap0 := 0x40, merges := 0xFFFE, brstRun := true })) ∧
    Met1 (fun (h : Obligations.FaultsAreCapturedMergedAndCounted) => h.1 { src := 40 } (cfs [(40, 0x1F2)] { cap0 := 0x40 + 47, cap2 := 77, merges := 3 })) ∧
    Met1 (fun (h : Obligations.FaultsAreCapturedMergedAndCounted) => h.1 { src := 57 } (cfs [(57, 0)])) ∧
    Met1 (fun (h : Obligations.FaultsAreCapturedMergedAndCounted) => h.1 { src := 60 } { cfs [] with recd := { queue := List.replicate 64 (evInfo 1 0 []) } }) ∧
    Met3 (fun (h : Obligations.FaultsAreCapturedMergedAndCounted) => h.2.1 63 { s3 with inp := { s3.inp with ftest := true } }) ∧
    Met1 (fun (h : Obligations.FaultsAreCapturedMergedAndCounted) => (h.2.2.1 { s3 with faults := { corr := 9 } }).1) ∧
    Met1 (fun (h : Obligations.FaultsAreCapturedMergedAndCounted) => (h.2.2.1 { State.reset with faults := { corr := 9 } }).2) ∧
    Met2 (fun (h : Obligations.FaultsAreCapturedMergedAndCounted) hb1 => (h.2.2.2 0x40 { s3 with faults := { cap0 := 0xFFFF, merges := 9, mergeSat := true } } hb1).1) ∧
    Met2 (fun (h : Obligations.FaultsAreCapturedMergedAndCounted) hb1 => (h.2.2.2 0x80 s3 hb1).2) := by
  refine ⟨?_, ?_, ?_, ?_, ?_, ?_, ?_, ?_, ?_, ⟨?_, ?_, ?_⟩, ?_, ?_, ⟨?_, ?_⟩, ⟨?_, ?_⟩⟩ <;>
    first | decide +kernel | (unfold Turn; decide +kernel) | (unfold Waits; decide +kernel) | (unfold HasRead; decide +kernel)
def stf (b : Bool) : State := { s3 with inp := { s3.inp with ftest := b } }
def ij (src mode f : Nat) : BitVec 32 := BitVec.ofNat 32 (src + 256 * mode + 65536 * f)
theorem witness_faultRegistersAct :
    Met2 (fun (h : Obligations.FaultRegistersAct) => h.1 2 { s3 with faults := { pinLow := true, pinMin := true } }) ∧
    Met2 (fun (h : Obligations.FaultRegistersAct) => h.1 7 { s3 with faults := { pinLow := true } }) ∧
    Met1 (fun (h : Obligations.FaultRegistersAct) => (h.2.1 { s3 with faults := { pinLow := true, pinMin := true } }).1) ∧
    Met1 (fun (h : Obligations.FaultRegistersAct) => (h.2.1 { s3 with faults := { pinLow := true, pinMin := true, pinHold := false } }).1) ∧
    Met1 (fun (h : Obligations.FaultRegistersAct) => (h.2.1 s3).2) ∧
    Met3 (fun (h : Obligations.FaultRegistersAct) hb1 hb2 => (h.2.2.1 15 { s3 with frames := [(15, {state := .run, stopped := true})] } hb1 hb2).1) ∧
    Met3 (fun (h : Obligations.FaultRegistersAct) hb1 hb2 => (h.2.2.1 15 { s3 with frames := [(15, {state := .run, stopped := true})], faults := { stat := 0x8000 } } hb1 hb2).2) ∧
    Met3 (fun (h : Obligations.FaultRegistersAct) hb1 hb2 => (h.2.2.1 0 s3 hb1 hb2).2) ∧
    Met5 (fun (h : Obligations.FaultRegistersAct) hb1 hb2 hb3 => ((h.2.2.2 (ij 32 1 15) (stf true) hb1).1 hb2).1 hb3 |>.1) ∧
    Met5 (fun (h : Obligations.FaultRegistersAct) hb1 hb2 hb3 => ((h.2.2.2 (ij 16 2 0) (stf true) hb1).1 hb2).1 hb3 |>.1) ∧
    Met4 (fun (h : Obligations.FaultRegistersAct) hb1 hb2 hb3 => ((h.2.2.2 (ij 34 2 0) (stf true) hb1).1 hb2).1 hb3 |>.2.1) ∧
    Met4 (fun (h : Obligations.FaultRegistersAct) hb1 hb2 hb3 => ((h.2.2.2 (ij 35 1 0) (stf true) hb1).1 hb2).1 hb3 |>.2.2.1) ∧
    Met4 (fun (h : Obligations.FaultRegistersAct) hb1 hb2 hb3 => ((h.2.2.2 (ij 38 1 0) (stf true) hb1).1 hb2).1 hb3 |>.2.2.2.1) ∧
    Met4 (fun (h : Obligations.FaultRegistersAct) hb1 hb2 hb3 => ((h.2.2.2 (ij 39 1 0) (stf true) hb1).1 hb2).1 hb3 |>.2.2.2.2) ∧
    Met4 (fun (h : Obligations.FaultRegistersAct) hb1 hb2 hb3 => ((h.2.2.2 (ij 15 2 0) (stf true) hb1).1 hb2).1 hb3 |>.2.2.2.2) ∧
    Met3 (fun (h : Obligations.FaultRegistersAct) hb1 hb2 => ((h.2.2.2 (ij 32 1 15) (stf false) hb1).1 hb2).2) ∧
    Met3 (fun (h : Obligations.FaultRegistersAct) hb1 => (h.2.2.2 (ij 32 0 15) (stf false) hb1).2) := by
  refine ⟨⟨?_, ?_⟩, ⟨?_, ?_⟩, ?_, ?_, ?_, ⟨?_, ?_, ?_⟩, ⟨?_, ?_, ?_⟩, ⟨?_, ?_, ?_⟩, ⟨?_, ?_, ?_, ?_, ?_⟩, ⟨?_, ?_, ?_, ?_, ?_⟩, ⟨?_, ?_, ?_, ?_⟩, ⟨?_, ?_, ?_, ?_⟩, ⟨?_, ?_, ?_, ?_⟩, ⟨?_, ?_, ?_, ?_⟩, ⟨?_, ?_, ?_, ?_⟩, ⟨?_, ?_, ?_⟩, ⟨?_, ?_, ?_⟩⟩ <;>
    first | decide +kernel | (unfold Turn; decide +kernel) | (unfold Waits; decide +kernel) | (unfold HasRead; decide +kernel)
def goodIn : StaticIn := { spadLog2 := 32, shcMib := 1, rdCr := (List.range 64).map fun i => (i, 1), wrCr := (List.range 64).map fun i => (i, 255) }
def sbl (f : Faults) : State := { sv (vb 0x100) (sb px) with faults := f, ptime := 99, recd := { head := 64, ring := [(0, zeros 64)] } }
theorem witness_resetsKeepAndLose :
    Met1 (fun (h : Obligations.ResetsKeepAndLose) => (h.2 goodIn (sbl { stat := 5, cap0 := 0x47, crst := true })).1) ∧
    Met1 (fun (h : Obligations.ResetsKeepAndLose) => (h.2 {} (sbl { stat := 5, cap0 := 0x47, crst := true })).1) ∧
    Met1 (fun (h : Obligations.ResetsKeepAndLose) => (h.2 {} (sbl { stat := 5 })).1) ∧
    Met1 (fun (h : Obligations.ResetsKeepAndLose) => (h.2 {} State.reset).2.1) ∧
    Met1 (fun (h : Obligations.ResetsKeepAndLose) => (h.2 {} (sbl { stat := 5, cap0 := 0x47, crst := true, brst := true })).2.2.1) ∧
    Met2 (fun (h : Obligations.ResetsKeepAndLose) => (h.2 {} (sbl { stat := 5, crst := true })).2.2.2.1) ∧
    Met2 (fun (h : Obligations.ResetsKeepAndLose) => (h.2 {} (sbl { stat := 5 })).2.2.2.2) := by
  refine ⟨?_, ?_, ?_, ?_, ?_, ⟨?_, ?_⟩, ⟨?_, ?_⟩⟩ <;>
    first | decide +kernel | (unfold Turn; decide +kernel) | (unfold Waits; decide +kernel) | (unfold HasRead; decide +kernel)
theorem witness_registerAccessesAct :
    Met2 (fun (h : Obligations.RegisterAccessesAct) hb1 hb2 => (h.1 0xFFFFFFFFFFFFFFFF s3 hb1 hb2).1) ∧
    Met2 (fun (h : Obligations.RegisterAccessesAct) hb1 hb2 => (h.1 0xFFFFFFFFFFFFFFFF s3 hb1 hb2).2.1) ∧
    Met2 (fun (h : Obligations.RegisterAccessesAct) hb1 hb2 => (h.1 0xFFFFFFFFFFFFFFFF s3 hb1 hb2).2.2.1) ∧
    Met2 (fun (h : Obligations.RegisterAccessesAct) hb1 hb2 => (h.1 0xFFFFFFFFFFFFFFFF s3 hb1 hb2).2.2.2.1) ∧
    Met2 (fun (h : Obligations.RegisterAccessesAct) hb1 hb2 => (h.1 0xFFFFFFFFFFFFFFFF s3 hb1 hb2).2.2.2.2) ∧
    Met2 (fun (h : Obligations.RegisterAccessesAct) hb1 hb2 => (h.1 0x123456789ABCDEF0 s3 hb1 hb2).1) ∧
    Met2 (fun (h : Obligations.RegisterAccessesAct) hb1 hb2 => (h.1 0x123456789ABCDEF0 s3 hb1 hb2).2.1) ∧
    Met2 (fun (h : Obligations.RegisterAccessesAct) hb1 hb2 => (h.1 0x123456789ABCDEF0 s3 hb1 hb2).2.2.1) ∧
    Met2 (fun (h : Obligations.RegisterAccessesAct) hb1 hb2 => (h.1 0 {s3 with faults := {sel := 47}} hb1 hb2).2.2.2.2) ∧
    Met3 (fun (h : Obligations.RegisterAccessesAct) hb1 hb2 hb3 => (h.2.1 0x30000 0x10 3 s3 hb1 hb2 hb3).1) ∧
    Met3 (fun (h : Obligations.RegisterAccessesAct) hb1 hb2 hb3 => (h.2.1 0x30000 0x10 3 s3 hb1 hb2 hb3).2) ∧
    Met3 (fun (h : Obligations.RegisterAccessesAct) hb1 hb2 hb3 => (h.2.1 0xFFFFF8 0xFF 3 { s3 with power := {} } hb1 hb2 hb3).1) ∧
    Met3 (fun (h : Obligations.RegisterAccessesAct) => h.2.2.1 0x30000 0xFF 3 { s3 with power := {} }) ∧
    Met1 (fun (h : Obligations.RegisterAccessesAct) => (h.2.2.2.1 { s3 with power := { s3.power with throtUs := 7 }, regs := { knockDrop := { count := 8, last := 5, narrow := true } } }).1) ∧
    Met1 (fun (h : Obligations.RegisterAccessesAct) => (h.2.2.2.1 { s3 with power := { throtUs := 7 }, regs := { knockDrop := { count := 8, last := 5, narrow := true } } }).2.1) ∧
    Met3 (fun (h : Obligations.RegisterAccessesAct) hb1 => (h.2.2.2.2 0x100 { s3 with regs := { arbFrame := 15, arbReq := 65 }, frames := [(15, { stats := [(64, {grants := 1}), (65, {grants := 2})] })] } hb1).1) ∧
    Met2 (fun (h : Obligations.RegisterAccessesAct) hb1 => (h.2.2.2.2 0x100 { s3 with regs := { arbFrame := 15, arbReq := 65 }, frames := [(15, { state := .nap })] } hb1).2) := by
  refine ⟨⟨?_, ?_⟩, ⟨?_, ?_⟩, ⟨?_, ?_⟩, ⟨?_, ?_⟩, ⟨?_, ?_⟩, ⟨?_, ?_⟩, ⟨?_, ?_⟩, ⟨?_, ?_⟩, ⟨?_, ?_⟩, ⟨?_, ?_, ?_⟩, ⟨?_, ?_, ?_⟩, ⟨?_, ?_, ?_⟩, ⟨?_, ?_, ?_⟩, ?_, ?_, ⟨?_, ?_, ?_⟩, ⟨?_, ?_⟩⟩ <;>
    first | decide +kernel | (unfold Turn; decide +kernel) | (unfold Waits; decide +kernel) | (unfold HasRead; decide +kernel)
def pw (p : Power → Power) : State := { stp0 with power := p stp0.power }
theorem witness_powerRequestsAreAnswered :
    Met2 (fun (h : Obligations.PowerRequestsAreAnswered) => (h.1 61 true (pw fun p => { p with ack := 0 })).1) ∧
    Met2 (fun (h : Obligations.PowerRequestsAreAnswered) => (h.1 64 true (pw fun p => { p with ack := 0, pkWake := true })).1) ∧
    Met2 (fun (h : Obligations.PowerRequestsAreAnswered) => (h.1 56 true (pw fun p => { p with ack := 0 })).1) ∧
    Met2 (fun (h : Obligations.PowerRequestsAreAnswered) => (h.1 0 false (pw fun p => { p with req := 0 })).1) ∧
    Met1 (fun (h : Obligations.PowerRequestsAreAnswered) => (h.1 0 false (pw id)).2) ∧
    Met2 (fun (h : Obligations.PowerRequestsAreAnswered) => (h.2.1 21 true (pw fun p => { p with clkAck := 0 })).1) ∧
    Met1 (fun (h : Obligations.PowerRequestsAreAnswered) => (h.2.1 0 false (pw id)).2) ∧
    Met2 (fun (h : Obligations.PowerRequestsAreAnswered) => (h.2.2.1 47 true (pw fun p => { p with ret := 0x800000000000 })).1) ∧
    Met2 (fun (h : Obligations.PowerRequestsAreAnswered) => (h.2.2.1 47 false (pw fun p => { p with retAck := 0x800000000000 })).1) ∧
    Met1 (fun (h : Obligations.PowerRequestsAreAnswered) => (h.2.2.1 0 false (pw id)).2) ∧
    Met1 (fun (h : Obligations.PowerRequestsAreAnswered) => (h.2.2.2.1 false 64 (pw fun p => { p with ack := 0 })).1) ∧
    Met1 (fun (h : Obligations.PowerRequestsAreAnswered) => (h.2.2.2.1 true 21 (pw fun p => { p with clkAck := 0 })).1) ∧
    Met1 (fun (h : Obligations.PowerRequestsAreAnswered) => (h.2.2.2.1 true 65 (pw id)).2) ∧
    Met1 (fun (h : Obligations.PowerRequestsAreAnswered) => (h.2.2.2.2.1 1 (pw fun p => { ({} : Power) with asleep := true })).1) ∧
    Met1 (fun (h : Obligations.PowerRequestsAreAnswered) => (h.2.2.2.2.1 1 (pw id)).2.1) ∧
    Met1 (fun (h : Obligations.PowerRequestsAreAnswered) => (h.2.2.2.2.1 0 (pw fun p => { ({} : Power) with asleep := true })).2.2) ∧
    Met1 (fun (h : Obligations.PowerRequestsAreAnswered) => h.2.2.2.2.2 s3) := by
  refine ⟨⟨?_, ?_⟩, ⟨?_, ?_⟩, ⟨?_, ?_⟩, ⟨?_, ?_⟩, ?_, ⟨?_, ?_⟩, ?_, ⟨?_, ?_⟩, ⟨?_, ?_⟩, ?_, ?_, ?_, ?_, ?_, ?_, ?_, ?_⟩ <;>
    first | decide +kernel | (unfold Turn; decide +kernel) | (unfold Waits; decide +kernel) | (unfold HasRead; decide +kernel)
def fdm (x : Frame) (p : Power := base.power) : State := { s3 with frames := [(15, x)], power := p }
def idl : State := let s := fdm {state := .idle, policy := 0}; s
theorem witness_framesFollowTheirDemand :
    Met6 (fun (h : Obligations.FramesFollowTheirDemand) hb1 hb2 hb3 => ((h 15 (fdm {state := .idle, policy := 0})).1 hb1 hb2 hb3).1) ∧
    Met4 (fun (h : Obligations.FramesFollowTheirDemand) hb1 hb2 hb3 => ((h 15 (fdm {state := .off, policy := 0} { base.power with ack := base.power.ack &&& ~~~(1#65 <<< 47) })).1 hb1 hb2 hb3).2) ∧
    Met2 (fun (h : Obligations.FramesFollowTheirDemand) => (h 15 (fdm {state := .run})).2.1) ∧
    Met5 (fun (h : Obligations.FramesFollowTheirDemand) => (h 15 (fdm {state := .idle})).2.2.1) ∧
    Met4 (fun (h : Obligations.FramesFollowTheirDemand) => (h 15 (fdm {state := .nap, policy := 3, scales := true, scaleRegs := [(1,1)]})).2.2.2.1) ∧
    Met1 (fun (h : Obligations.FramesFollowTheirDemand) => (h 15 (fdm {state := .nap, policy := 0})).2.2.2.2.1) ∧
    Met1 (fun (h : Obligations.FramesFollowTheirDemand) => (h 15 (fdm {state := .nap, policy := 3})).2.2.2.2.2) := by
  refine ⟨⟨?_, ?_, ?_, ?_, ?_, ?_⟩, ⟨?_, ?_, ?_, ?_⟩, ⟨?_, ?_⟩, ⟨?_, ?_, ?_, ?_, ?_⟩, ⟨?_, ?_, ?_, ?_⟩, ?_, ?_⟩ <;>
    first | decide +kernel | (unfold Turn; decide +kernel) | (unfold Waits; decide +kernel) | (unfold HasRead; decide +kernel)
def srg (p : Power → Power) : State := { s3 with power := p { s3.power with regions := [(7, { level := 3 }), (0, {level := 6})] } }
def fsc (q : Slot) : State := { s3 with frames := [(15, { scrubAt := 8191, slots := [(8191, q)] })] }
def fscr (q : Slot) : State := { s3 with frames := [(15, { state := .run, scrubAt := 8191, slots := [(8191, q)] })] }
def ctn : State := { s3 with ctxs := [(32768 * 7 + 32767, px)], power := { s3.power with ctxScrub := [(7, 32767)] } }
theorem witness_smokerAndBackgroundWork :
    Met2 (fun (h : Obligations.SmokerAndBackgroundWork) => (h.1.2 7 (srg fun p => {p with monWarn := true})).1) ∧
    Met1 (fun (h : Obligations.SmokerAndBackgroundWork) => (h.1.2 7 (srg id)).2.1) ∧
    Met2 (fun (h : Obligations.SmokerAndBackgroundWork) => (h.1.2 7 (srg id)).2.2.1) ∧
    Met1 (fun (h : Obligations.SmokerAndBackgroundWork) => (h.1.2 6 (srg id)).2.2.2.1) ∧
    Met1 (fun (h : Obligations.SmokerAndBackgroundWork) => (h.1.2 7 (srg id)).2.2.2.2.1) ∧
    Met1 (fun (h : Obligations.SmokerAndBackgroundWork) => (h.1.2 7 (srg fun p => { p with smCap := 7 })).2.2.2.2.2) ∧
    Met3 (fun (h : Obligations.SmokerAndBackgroundWork) hb1 hb2 hb3 => (h.2.1 15 .clean (fscr { data := [(1,1)] }) hb1 hb2).1 hb3) ∧
    Met3 (fun (h : Obligations.SmokerAndBackgroundWork) hb1 hb2 hb3 => (h.2.1 15 .corrected (fscr { data := [(1,1)], flips := 1 }) hb1 hb2).1 hb3) ∧
    Met3 (fun (h : Obligations.SmokerAndBackgroundWork) hb1 hb2 hb3 => (h.2.1 15 .uncorrectable (fscr { data := [(1,1)], holder := .free }) hb1 hb2).1 hb3) ∧
    Met3 (fun (h : Obligations.SmokerAndBackgroundWork) hb1 hb2 hb3 => (h.2.1 15 .uncorrectable (fscr { data := [(1,1)], holder := .fabric 3 7 }) hb1 hb2).1 hb3) ∧
    Met4 (fun (h : Obligations.SmokerAndBackgroundWork) hb1 hb2 => (h.2.1 15 .clean { s3 with frames := [(15, { state := .idle, scrubAt := 8191 })], power := { s3.power with clkAck := 0, clkReq := 0 } } hb1 hb2).2) ∧
    Met2 (fun (h : Obligations.SmokerAndBackgroundWork) => h.2.2.1 7 3 .clean ctn) ∧
    Met2 (fun (h : Obligations.SmokerAndBackgroundWork) => h.2.2.1 7 3 .corrected ctn) ∧
    Met2 (fun (h : Obligations.SmokerAndBackgroundWork) => h.2.2.1 7 3 .uncorrectable ctn) ∧
    Met2 (fun (h : Obligations.SmokerAndBackgroundWork) => h.2.2.1 6 3 .uncorrectable ctn) ∧
    Met2 (fun (h : Obligations.SmokerAndBackgroundWork) => h.2.2.2.1 { s3 with power := { s3.power with trimAt := 7 } }) ∧
    Met1 (fun (h : Obligations.SmokerAndBackgroundWork) => (h.2.2.2.2 { s3 with telem := { en := true, seq := 0xFFFFFFFFFFFFFFFF, busy := true, throt := 4 } }).1) ∧
    Met1 (fun (h : Obligations.SmokerAndBackgroundWork) => (h.2.2.2.2 { s3 with telem := { en := true, seq := 17, base := 9 }, frames := [(3, {bursts := 9})] }).1) ∧
    Met1 (fun (h : Obligations.SmokerAndBackgroundWork) => (h.2.2.2.2 s3).2) := by
  refine ⟨⟨?_, ?_⟩, ?_, ⟨?_, ?_⟩, ?_, ?_, ?_, ⟨?_, ?_, ?_⟩, ⟨?_, ?_, ?_⟩, ⟨?_, ?_, ?_⟩, ⟨?_, ?_, ?_⟩, ⟨?_, ?_, ?_, ?_⟩, ⟨?_, ?_⟩, ⟨?_, ?_⟩, ⟨?_, ?_⟩, ⟨?_, ?_⟩, ⟨?_, ?_⟩, ?_, ?_, ?_⟩ <;>
    first | decide +kernel | (unfold Turn; decide +kernel) | (unfold Waits; decide +kernel) | (unfold HasRead; decide +kernel)
def ev : EvRec := evInfo 1 5 (zeros 20)
def sre (r : Recorder → Recorder) : State := { s3 with recd := r { queue := [ev, ev], head := 64, flushed := 64 }, ptime := 88 }
def rec1 : Bytes := recordBytes {} ev 88 false
theorem witness_theRecorderAppendsFlushesAndErases :
    Met5 (fun (h : Obligations.TheRecorderAppendsFlushesAndErases) hb1 hb2 => (h.1.1 ev [ev] (sre id) hb1 hb2).1) ∧
    Met4 (fun (h : Obligations.TheRecorderAppendsFlushesAndErases) hb1 hb2 => (h.1.1 ev [ev] (sre fun r => { r with head := 2^20, flushed := 0 }) hb1 hb2).2.1) ∧
    Met4 (fun (h : Obligations.TheRecorderAppendsFlushesAndErases) hb1 hb2 => (h.1.1 ev [ev] (sre fun r => { r with ring := [(64, rec1)], head := 128 }) hb1 hb2).2.2 (64, rec1)) ∧
    Met2 (fun (h : Obligations.TheRecorderAppendsFlushesAndErases) => h.1.2.1 s3) ∧
    Met5 (fun (h : Obligations.TheRecorderAppendsFlushesAndErases) hb1 hb2 hb3 hb4 => (h.1.2.2.1 (sre fun r => { r with flushAgain := true, erased := 1, boot := 3, seq := 5, ring := [(0, zeros 32), (64, rec1)], head := 128 }) hb1 hb2 hb3 hb4).1) ∧
    Met6 (fun (h : Obligations.TheRecorderAppendsFlushesAndErases) hb1 hb2 hb3 hb4 => (h.1.2.2.1 (sre fun r => { r with flushAgain := true, erased := 0, pos := 65536 - 64, boot := 3, seq := 5, ring := [(64, rec1)], head := 128 }) hb1 hb2 hb3 hb4).2) ∧
    Met1 (fun (h : Obligations.TheRecorderAppendsFlushesAndErases) => (h.1.2.2.2.1 (sre fun r => { r with head := 128 })).1) ∧
    Met1 (fun (h : Obligations.TheRecorderAppendsFlushesAndErases) => (h.1.2.2.2.1 (sre id)).2) ∧
    Met2 (fun (h : Obligations.TheRecorderAppendsFlushesAndErases) hb1 => (h.1.2.2.2.2 128 (sre fun r => { r with flushing := some 128, block := zeros 300, pos := 2^26 - 256, head := 256 }) hb1).1) ∧
    Met2 (fun (h : Obligations.TheRecorderAppendsFlushesAndErases) hb1 => (h.1.2.2.2.2 128 (sre fun r => { r with flushing := some 128, block := zeros 300, pagesLeft := 2 }) hb1).2) ∧
    Met5 (fun (h : Obligations.TheRecorderAppendsFlushesAndErases) => h.2.1 (sre fun r => { r with erased := 3 })) ∧
    Met1 (fun (h : Obligations.TheRecorderAppendsFlushesAndErases) hb1 => ((h.2.2.1 1 (sre fun r => { r with flushing := some 128, block := zeros 300, pagesLeft := 2 })).1 hb1).1) ∧
    Met1 (fun (h : Obligations.TheRecorderAppendsFlushesAndErases) hb1 => ((h.2.2.1 1 (sre fun r => { r with flushing := some 128, block := zeros 300, pagesLeft := 2 })).1 hb1).2) ∧
    Met2 (fun (h : Obligations.TheRecorderAppendsFlushesAndErases) hb1 hb2 => ((h.2.2.1 1 (sre fun r => { r with erasing := true, erased := 2 })).2.1 hb1 hb2).1) ∧
    Met2 (fun (h : Obligations.TheRecorderAppendsFlushesAndErases) hb1 hb2 => ((h.2.2.1 1 (sre fun r => { r with erasing := true, erased := 2 })).2.1 hb1 hb2).2) ∧
    Met2 (fun (h : Obligations.TheRecorderAppendsFlushesAndErases) hb1 hb2 => ((h.2.2.1 1 (sre fun r => { r with erasing := true, stalled := true, pos := 65536 * 7, full := true })).2.1 hb1 hb2).1) ∧
    Met2 (fun (h : Obligations.TheRecorderAppendsFlushesAndErases) hb1 hb2 => (h.2.2.1 1 (sre id)).2.2 hb1 hb2 true) ∧
    Met1 (fun (h : Obligations.TheRecorderAppendsFlushesAndErases) => (h.2.2.2.1 .noFlash (sre fun r => { r with scanning := true })).1) ∧
    Met1 (fun (h : Obligations.TheRecorderAppendsFlushesAndErases) => (h.2.2.2.1 (.empty [1023]) (sre fun r => { r with scanning := true })).1) ∧
    Met1 (fun (h : Obligations.TheRecorderAppendsFlushesAndErases) => (h.2.2.2.1 (.newest 5 6 7 [3]) (sre fun r => { r with scanning := true })).1) ∧
    Met1 (fun (h : Obligations.TheRecorderAppendsFlushesAndErases) => (h.2.2.2.1 (.newest 5 6 7 [3]) (sre fun r => { r with scanning := true, boot := 9 })).1) ∧
    Met1 (fun (h : Obligations.TheRecorderAppendsFlushesAndErases) => (h.2.2.2.1 (.empty []) (sre id)).2) ∧
    Met1 (fun (h : Obligations.TheRecorderAppendsFlushesAndErases) => h.2.2.2.2.1 (2^63 + 5) (sre fun r => { r with flashWin := [1], ready := true })) ∧
    Met3 (fun (h : Obligations.TheRecorderAppendsFlushesAndErases) => h.2.2.2.2.2 (List.replicate 4096 7) (sre fun r => { r with curFlash := true })) := by
  refine ⟨⟨?_, ?_, ?_, ?_, ?_⟩, ⟨?_, ?_, ?_, ?_⟩, ⟨?_, ?_, ?_, ?_⟩, ⟨?_, ?_⟩, ⟨?_, ?_, ?_, ?_, ?_⟩, ⟨?_, ?_, ?_, ?_, ?_, ?_⟩, ?_, ?_, ⟨?_, ?_⟩, ⟨?_, ?_⟩, ⟨?_, ?_, ?_, ?_, ?_⟩, ?_, ?_, ⟨?_, ?_⟩, ⟨?_, ?_⟩, ⟨?_, ?_⟩, ⟨?_, ?_⟩, ?_, ?_, ?_, ?_, ?_, ?_, ⟨?_, ?_, ?_⟩⟩ <;>
    first | decide +kernel | (unfold Turn; decide +kernel) | (unfold Waits; decide +kernel) | (unfold HasRead; decide +kernel)
def ssn (n : Snap) : State := { s3 with snap := n }
def ssk : State := let s := ssn {busy := true}; { s with keeper := { s.keeper with kmq := [⟨.snapshot true, 0, 0, true, []⟩] } }
theorem witness_snapshotsAndPoweredTime :
    Met3 (fun (h : Obligations.SnapshotsAndPoweredTime) hb1 hb2 => (h.1.1 2 (ssn {en := true, trig := some 4}) hb1 hb2).1) ∧
    Met5 (fun (h : Obligations.SnapshotsAndPoweredTime) hb1 hb2 => (h.1.1 (3 + 5 * 2^18) (ssn {}) hb1 hb2).2.1) ∧
    Met5 (fun (h : Obligations.SnapshotsAndPoweredTime) hb1 hb2 => (h.1.1 3 (ssn {trig := some 4}) hb1 hb2).2.1) ∧
    Met5 (fun (h : Obligations.SnapshotsAndPoweredTime) hb1 hb2 => (h.1.1 3 (ssn {trig := some 1}) hb1 hb2).2.1) ∧
    Met4 (fun (h : Obligations.SnapshotsAndPoweredTime) hb1 hb2 => (h.1.1 3 (ssn {busy := true, dropped := 255}) hb1 hb2).2.2) ∧
    Met5 (fun (h : Obligations.SnapshotsAndPoweredTime) => (h.1.2.1 (ssn {en := true, inEn := true})).1) ∧
    Met1 (fun (h : Obligations.SnapshotsAndPoweredTime) => (h.1.2.1 (ssn {en := true})).2) ∧
    Met3 (fun (h : Obligations.SnapshotsAndPoweredTime) hb1 => (h.1.2.2.1 5 2 (let s := ssn {en := true, trig := some 2}; { s with power := { s.power with clkReq := 0, clkAck := 0 } }) hb1).2) ∧
    Met2 (fun (h : Obligations.SnapshotsAndPoweredTime) hb1 => (h.1.2.2.1 5 2 (ssn {en := true, trig := some 2}) hb1).1) ∧
    Met2 (fun (h : Obligations.SnapshotsAndPoweredTime) hb1 => (h.1.2.2.2 (ssn {busy := true}) hb1).1) ∧
    Met3 (fun (h : Obligations.SnapshotsAndPoweredTime) hb1 => (h.1.2.2.2 ssk hb1).2 ⟨.snapshot true, 0, 0, true, []⟩ true) ∧
    Met1 (fun (h : Obligations.SnapshotsAndPoweredTime) => (h.2.1 { s3 with ptime := BitVec.allOnes 64 }).1) ∧
    Met1 (fun (h : Obligations.SnapshotsAndPoweredTime) => (h.2.1 s3).2) ∧
    Met2 (fun (h : Obligations.SnapshotsAndPoweredTime) hb1 => (h.2.2 State.reset hb1).1) ∧
    Met2 (fun (h : Obligations.SnapshotsAndPoweredTime) hb1 => (h.2.2 { srg0 with ptime := BitVec.allOnes 64 } hb1).2) ∧
    Met2 (fun (h : Obligations.SnapshotsAndPoweredTime) hb1 => (h.2.2 srg0 hb1).2) ∧
    Met2 (fun (h : Obligations.SnapshotsAndPoweredTime) hb1 => (h.2.2 s3 hb1).2) := by
  refine ⟨⟨?_, ?_, ?_⟩, ⟨?_, ?_, ?_, ?_, ?_⟩, ⟨?_, ?_, ?_, ?_, ?_⟩, ⟨?_, ?_, ?_, ?_, ?_⟩, ⟨?_, ?_, ?_, ?_⟩, ⟨?_, ?_, ?_, ?_, ?_⟩, ?_, ⟨?_, ?_, ?_⟩, ⟨?_, ?_⟩, ⟨?_, ?_⟩, ⟨?_, ?_, ?_⟩, ?_, ?_, ⟨?_, ?_⟩, ⟨?_, ?_⟩, ⟨?_, ?_⟩, ⟨?_, ?_⟩⟩ <;>
    first | decide +kernel | (unfold Turn; decide +kernel) | (unfold Waits; decide +kernel) | (unfold HasRead; decide +kernel)
end Engine

namespace Fabric2
def arb : State := sb {px with works := [{cw with asked := true, tileOk := true, reads := [⟨.data, 4, 0, 0, 0xFF⟩]}]}
theorem witness_arbiterPicksTheHighestPriority :
    Met2 (fun (h : Obligations.ArbiterPicksTheHighestPriority) => h 0 { arb with taps := [(0, { rdCr := 1, wrCr := 1, ptr := 65 })] }) := by
  refine ⟨?_, ?_⟩ <;>
    first | decide +kernel | (unfold Turn; decide +kernel) | (unfold Waits; decide +kernel) | (unfold HasRead; decide +kernel)
def lkx : Link := { state := .service, partner := 3, ctl := [ctlFlit ([2] ++ zeros 8), ctlFlit ([4] ++ zeros 8)] }
def lns (x : Link) : State := { s3 with fabric := { s3.fabric with links := [(17, x)] } }
theorem witness_linksTrainMeasureAndFall :
    Met2 (fun (h : Obligations.LinksTrainMeasureAndFall) => h.2.1 17 (ctlFlit ([1] ++ leBytes 8 77)) (lns lkx)) := by
  refine ⟨?_, ?_⟩ <;>
    first | decide +kernel | (unfold Turn; decide +kernel) | (unfold Waits; decide +kernel) | (unfold HasRead; decide +kernel)
def kk : LinkKey := ⟨List.replicate 32 1, [2,3,4,5]⟩
def lk2 : Link := { state := .service, partner := 3, txKey := some kk, rxKey := some kk, txCr := [1,2,3,4,5,6], txSeq := 4095, rxSeq := 4095, sinceSeal := 5, txq := [(1,[mg opRead 4])] }
def sealOf (x : Link) : Bytes := x.sealHead ++ sealTag kk x.txCtr.toNat x.txRun x.sealHead
def noSeal : Bytes := patch (sealOf lk2) 112 (zeros 16)
def sntS : State := match exec (.flitSend 17 99) (lns { lk2 with txq := [(1,[{ mg opRead 4 with dst := 0 }])] }) with | .next t => t | _ => {}
def snt : Link := sntS.link 17
def fl1 : Bytes := snt.out.getD []
def lkr : Link := { lk2 with rxRun := [fl1], rxSeq := snt.txSeq, txq := [] }
def prs : Bytes × List Msg × Nat := parseMsgs 16 ((runCrypt kk 0 0 (flBody fl1)).drop (flFirst fl1))
def lkv : LinkKey × Nat × Nat := ((lkr.verify (sealOf snt)).map fun v => (v.1, v.2.1, 0)).getD (kk, 0, 0)
theorem witness_flitsGoOutAndRunsComeIn :
    Met9 (fun (h : Obligations.FlitsGoOutAndRunsComeIn) hb1 hb2 hb3 hb4 hb5 hb6 hb7 hb8 => ((((h.1.1 17 99 (lns lk2) hb1).2 hb2).2.2 hb3 hb4).2.2 hb5 hb6).2.2 kk hb7 hb8 |>.1 1) ∧
    Met2 (fun (h : Obligations.FlitsGoOutAndRunsComeIn) hb1 hb2 => (h.2.2.2 17 noSeal (lns lk2)).2.1 hb1 hb2) ∧
    Met3 (fun (h : Obligations.FlitsGoOutAndRunsComeIn) hb1 hb2 hb3 => (h.2.2.2 17 (sealOf lk2) (lns lk2)).2.2 ((((lk2).verify (sealOf lk2)).map (·.1)).getD kk) ((((lk2).verify (sealOf lk2)).map (·.2.1)).getD 0) ((((lk2).verify (sealOf lk2)).map (·.2.2)).getD default) hb1 hb2 hb3) ∧
    Met3 (fun (h : Obligations.FlitsGoOutAndRunsComeIn) hb1 hb2 hb3 => (h.2.2.2 17 (sealOf snt) (lns lkr)).2.2 lkv.1 lkv.2.1 (((lkr.verify (sealOf snt)).map (·.2.2)).getD default) hb1 hb2 hb3) := by
  refine ⟨⟨?_, ?_, ?_, ?_, ?_, ?_, ?_, ?_, ?_⟩, ⟨?_, ?_⟩, ⟨?_, ?_, ?_⟩, ⟨?_, ?_, ?_⟩⟩ <;>
    first | decide +kernel | (unfold Turn; decide +kernel) | (unfold Waits; decide +kernel) | (unfold HasRead; decide +kernel)
def idk (s : State) : State := { s with keeper := { s.keeper with chainOk := true, idKey := some 5, idLock := true } }
def same9 : Bytes := patch (patch (zeros 256) 3 (leBytes 1 (idk (lns {state := .service})).wgState)) 8 (leBytes 8 (idk (lns {state := .service})).wgNeigh)
def gen : Bytes := pointEncode (pubKey 1)
def rkm : Msg := { mg opRekey with data := gen ++ zeros 15 }
def rk1 : Rekey := { origin := none, priv := 1, answered := false, txSeal := none, rxDone := false }
theorem witness_waggleJudgesAndRepeats :
    Met4 (fun (h : Obligations.WaggleJudgesAndRepeats) hb1 hb2 hb3 => (h.2.2.2.2.1 17 (idk (lns {state := .service, serial := 9, record := zeros 256})) hb1 hb2 hb3).2) ∧
    Met4 (fun (h : Obligations.WaggleJudgesAndRepeats) hb1 hb2 hb3 => (h.2.2.2.2.1 17 (idk (lns {state := .service, serial := 9, record := same9})) hb1 hb2 hb3).1) ∧
    Met5 (fun (h : Obligations.WaggleJudgesAndRepeats) => h.2.2.2.2.2 17 rk1 1 rkm [] ((ecdh 1 (pointDecode (slice rkm.data 0 49))).getD []) (lns {state := .service, partner := 3, rekey := some rk1, rxq := [(1, rkm)]})) := by
  refine ⟨⟨?_, ?_, ?_, ?_⟩, ⟨?_, ?_, ?_, ?_⟩, ⟨?_, ?_, ?_, ?_, ?_⟩⟩ <;>
    first | decide +kernel | (unfold Turn; decide +kernel) | (unfold Waits; decide +kernel) | (unfold HasRead; decide +kernel)
end Fabric2

/-- The last clause of map.digest, whose tables are in hand, with a table of 8,192 zero entries. -/
theorem witness_mapDigestInHand :
    Met8 (fun (h : Obligations.WindowVerbsAndMapDigest) hb1 => ((h.2 o0 Verbs.vmd 0 (sv Verbs.vmd s1) hb1).2.2.2)) := by
  have hin : (Verbs.vmd.bytes 0 65536).isSome = true := by
    have : (List.range 65536).all (fun i => Verbs.vmd.asked.contains (alignDown 256 (0 + i))) = true := by
      rw [List.all_eq_true]
      intro i hi
      rw [List.mem_range] at hi
      rw [List.contains_iff_mem]
      exact List.mem_map.2 ⟨i / 256, List.mem_range.2 (by omega), by simp [alignDown]; omega⟩
    simp only [VerbProg.bytes]
    rw [if_pos this]
    rfl
  have hz : ∀ a : Nat, leNat ((List.range 8).map fun i => Verbs.vmd.got.get 0 (a + i)) = 0 := by
    intro a
    rfl
  have hs : ∀ t, (sv Verbs.vmd s1).subTables t (fun a => leNat ((List.range 8).map fun i => Verbs.vmd.got.get 0 (a + i))) (1, 0, 0) = [] := by
    intro t
    simp only [State.subTables, hz]
    rw [List.filterMap_eq_nil_iff]
    intro i _
    rfl
  refine ⟨by unfold Turn; decide +kernel, by decide +kernel, by decide +kernel, by decide +kernel, by decide +kernel, ?_, ?_, ?_⟩
  · show (Verbs.vmd.bytes 0 65536).isSome && true = true
    rw [hin]; rfl
  · simp only [List.flatMap_cons, List.flatMap_nil, hs]; rfl
  · simp only [List.flatMap_cons, List.flatMap_nil, hs]; rfl

/-- The clause of COPY that passes a chunk on, with the block that the copy reads in hand. -/
theorem witness_copyPassesOn :
    let s := Work.scw Work.cwa [cslot]
    Met16 (fun (h : Obligations.CopyMovesUnitByUnit) hb1 hb2 hb3 hb4 hb5 hb6 =>
      (h 0 7 Work.cwa s hb1 hb2 hb3 hb4 hb5 hb6).2.1 ((s.chunkElems 7 Work.cwa (s.chunk Work.cwa .plain)).getD [])) := by
  refine ⟨?_, ?_, ?_, ?_, ?_, ?_, ?_, ?_, ?_, ?_, ?_, ?_, ?_, ?_, ?_, ?_⟩
  all_goals first | decide +kernel | skip
  intro p st d hp
  obtain rfl := Option.some.inj (hp.symm.trans
    (by decide +kernel : _ = some (([255, 0, 0, 0, 0, 0] : List Nat), Place.move 255 0 65791 0)))
  exact nofun

/-! ## The statements about every command and every step -/

/-- The state that an answer carries. -/
def stateOf (o : Host.Outcome State Fault Refusal) (d : State) : State := match o with | .next t => t | _ => d

/-- A command with an effect: tallies 80 to 95 get tenant 7 as their owner. -/
theorem witness_commandsTouchOnlyTheirParts :
    let c : Instr := .tallyOwnWrite 5 7
    Met1 (fun (h : Obligations.CommandsTouchOnlyTheirParts) => h c base (stateOf (exec c base) base)) := rfl

/-- A table with one modulus of 32 bits, and one registered key set of tenant 5. -/
def tables : State :=
  { s3 with mods := [(1, { kind := 2, width := 32 })], ksets := [(3, { ks5 with crc := 9 })], pending := [.sealPeriodic 0] }

theorem tables_mods : tables.ModsSound := by
  intro i
  by_cases h : i = 1
  · subst h
    unfold ModEntry.Sound
    decide +kernel
  · have e : tables.modulus i = {} := by
      show Store.get {} [(1, ({ kind := 2, width := 32 } : ModEntry))] i = {}
      simp [Store.get, List.find?, Ne.symm h]
    rw [e]
    unfold ModEntry.Sound
    decide +kernel

theorem tables_ksets : tables.RegistrySound := by
  intro n
  by_cases h : n = 3
  · subst h
    unfold KeySet.Sound
    decide +kernel
  · have e : tables.kset n = {} := by
      have h' : ¬ 3 = n.toNat := fun he => h (BitVec.eq_of_toNat_eq (by simpa using he.symm))
      show Store.get {} [(3, ({ ks5 with crc := 9 } : KeySet))] n.toNat = {}
      simp [Store.get, List.find?, h']
    rw [e]
    intro ht
    exact absurd rfl ht

theorem witness_stepsKeepTheModulusTableSound :
    Met2 (fun (h : Obligations.StepsKeepTheModulusTableSound) => h tables (stateOf (step tables) base)) := ⟨tables_mods, rfl⟩

theorem witness_stepsKeepTheRegistrySound :
    Met2 (fun (h : Obligations.StepsKeepTheRegistrySound) => h tables (stateOf (step tables) base)) := ⟨tables_ksets, rfl⟩

/-! ## Well-formed commands: each check refuses an operand that its signals cannot carry -/

theorem test_wf_mailbox : (Instr.mboxRing 0 2).wf = false ∧ (Instr.mboxRing 0 1).wf = true ∧ (Instr.mboxCancel 0 1).wf = false ∧
    (Instr.mboxDoneClear 0 1).wf = false ∧ (Instr.keeperReset 2).wf = false := by decide +kernel

theorem test_wf_entries : (Instr.ctxAbort o0 [zeros 127]).wf = false ∧ (Instr.ctxAbort o0 [zeros 128]).wf = true ∧
    (Instr.watchPoll 0 0 (zeros 127) false).wf = false ∧ (Instr.descriptorFetchReturn 0 (zeros 129) false).wf = false ∧
    (Instr.descriptorFetchReturn 0 (zeros 256) false).wf = true ∧ (Instr.readDataReturn 0 0 false (zeros 127) false).wf = false ∧
    (Instr.fetV 0 (zeros 63) false).wf = false ∧ (Instr.keeperMemoryResponse (zeros 63) false false).wf = false ∧
    (Instr.flashReadDone (zeros 4095)).wf = false := by decide +kernel

theorem test_wf_strobes : (Instr.knockNarrow 0x4000 0xFF).wf = false ∧ (Instr.knockNarrow 0x4000 0).wf = false ∧
    (Instr.barrierEnable 0 0).wf = false ∧ (Instr.barrierDisable 0 (2 ^ 55)).wf = false ∧ (Instr.fcValidClear 0x80).wf = false ∧
    (Instr.afClear 1).wf = false ∧ (Instr.epRelease 1).wf = false ∧ (Instr.fltInjectCollector 0x100).wf = false ∧
    (Instr.fltInjectSingleFlip 0).wf = false ∧ (Instr.fltInjectDoubleFlip 0x100).wf = false ∧ (Instr.kbGo 1).wf = false ∧
    (Instr.pwrWake 2).wf = false ∧ (Instr.recCursorFlashRead 1).wf = false ∧ (Instr.scTrig 1).wf = false ∧
    (Instr.remoteTimeout 3 .group 64).wf = false ∧ (Instr.handshakeTimeout true 22).wf = false ∧
    (Instr.handshakeTimeout false 65).wf = false ∧ (Instr.handshakeTimeout false 64).wf = true := by decide +kernel

theorem test_wf_flits : (Instr.messageFlitReceive 0 (zeros 127)).wf = false ∧ (Instr.messageFlitReceive 0 (zeros 128)).wf = true ∧
    (Instr.sealReceive 0 (zeros 127)).wf = false ∧ (Instr.idleFlitReceive 0 (zeros 127)).wf = false ∧
    (Instr.echo 0 (zeros 127)).wf = false ∧ (Instr.echoReply 0 (zeros 127) 0).wf = false ∧
    (Instr.waggleRecordPart 0 (zeros 127)).wf = false ∧ (Instr.identityPart 0 (zeros 127)).wf = false ∧
    (Instr.recordAcknowledgement 0 (zeros 127)).wf = false := by decide +kernel

theorem test_wf_inputs : (Instr.aoRstN { stackMap := List.replicate 33 ⟨false, 0, 0, 0⟩ }).wf = false ∧
    (Instr.aoRstN { idSecret := zeros 49 }).wf = false ∧ (Instr.aoRstN { idRoot := zeros 49 }).wf = false ∧
    (Instr.blkRstN { idChain := zeros 2049 }).wf = false ∧ (Instr.blkRstN { swin := [(256, 16)] }).wf = false ∧
    (Instr.blkRstN { rdCr := [(64, 1)] }).wf = false ∧ (Instr.blkRstN { wrCr := [(64, 1)] }).wf = false ∧
    (Instr.blkRstN {}).wf = true := by decide +kernel

/-! ## Reset, and the word that spells nothing -/

/-- The registers of R209, R347, R340, R395, R401 and R406 hold the reset values that their tables give. -/
theorem test_reset_values : State.reset.regs.fcCap = 2048 ∧ State.reset.regs.fcFabRes = 128 ∧ State.reset.regs.fcWcap = 1024 ∧
    State.reset.regs.swEjectUs = 50 ∧ State.reset.tally.deadlockUs = 1000 ∧ State.reset.tally.lendUs = 20 ∧
    State.reset.power.smWarn = 25 ∧ State.reset.power.smDeep = 45 ∧ State.reset.telem.period = 1000 ∧
    State.reset.pending = [] := by decide +kernel

/-- The table gives no row any bits. -/
theorem test_no_row_has_bits : decodeTableWord 32 0xFFFFFFFF = none ∧ State.withFetchWord base 32 1 = base := ⟨rfl, rfl⟩

/-- The first command in the queue runs, and the rest waits. -/
theorem test_step_takes_the_front :
    (stateOf (step { base with pending := [.sealPeriodic 0, .deadlockTimeout] }) {}).pending = [.deadlockTimeout] := by decide +kernel

/-- The check values that R162 and R230 give for the nine bytes 123456789. -/
theorem test_checksums :
    let b : Bytes := [0x31, 0x32, 0x33, 0x34, 0x35, 0x36, 0x37, 0x38, 0x39]
    crc32c b = 0xE3069283#32 ∧ crc64From 0 b = 0x6C40DF5F0B497347#64 := by decide +kernel

/-- The innermost clause of SEAL: the one message of a verified run of one flit, as FLIT_SEND makes them at the sender. -/
theorem witness_sealDeliversAMessage :
    Fabric2.lkr.rxRun = [Fabric2.fl1] ∧ Fabric2.lkr.rxPart.get [] (flClass Fabric2.fl1) = [] ∧
    Fabric2.lkr.rxPartIn.get [] (flClass Fabric2.fl1) = [] ∧ flFirst Fabric2.fl1 ≤ 124 ∧
    (Fabric2.prs.2.1.headD (mg opRead)).dst = (Fabric2.lns Fabric2.lkr).inp.chipId ∧
    parseMsgs 16 ((runCrypt Fabric2.lkv.1 Fabric2.lkv.2.1 0 (flBody Fabric2.fl1)).drop (flFirst Fabric2.fl1)) =
      (Fabric2.prs.1, [Fabric2.prs.2.1.headD (mg opRead)], 0) := by
  refine ⟨?_, ?_, ?_, ?_, ?_, ?_⟩ <;> decide +kernel

end Sys2Proof.Tests
end

/-! # Proofs: the scheduler (R11, R52, R68, R69, R187, R226)

What binding, unbinding and a move between context states leave behind, and from that what CONTEXT_BIND, CONTEXT_IDLE_UNBIND
and PREEMPT do. The statement `Obligations.SchedulerBindsAndUnbinds` speaks of every state, so also of one whose swarm table
lists an index twice; there its clause about the swarms fails. With the swarm table in the canonical form (`Store.wf`), which
`Store.wf_set` and `Store.wf_mapAll` keep, the clauses hold. -/
namespace Sys2Proof.Machine

/-! ## Tables changed entry by entry -/

theorem Store.lt_of_above_of_mem_keys {α : Type} {lo i : Nat} {m : Store α} (h : Store.above lo m = true) (hi : i ∈ m.keys) :
    lo < i := by
  induction m generalizing lo with
  | nil => simp [Store.keys] at hi
  | cons e r ih =>
    obtain ⟨k, v⟩ := e
    simp only [Store.above, Bool.and_eq_true, decide_eq_true_eq] at h
    obtain ⟨hlo, hr⟩ := h
    rcases List.mem_cons.mp hi with rfl | hi
    · exact hlo
    · exact hlo.trans (ih hr hi)

theorem Store.nodup_keys_of_above {α : Type} {lo : Nat} {m : Store α} (h : Store.above lo m = true) : m.keys.Nodup := by
  induction m generalizing lo with
  | nil => exact List.nodup_nil
  | cons e r ih =>
    obtain ⟨k, v⟩ := e
    simp only [Store.above, Bool.and_eq_true, decide_eq_true_eq] at h
    obtain ⟨-, hr⟩ := h
    exact List.nodup_cons.mpr ⟨fun hk => (Store.lt_of_above_of_mem_keys hr hk).false, ih hr⟩

/-- The canonical form lists no index twice. -/
theorem Store.nodup_keys_of_wf {α : Type} [DecidableEq α] {d : α} {m : Store α} (h : m.wf d = true) : m.keys.Nodup := by
  obtain ⟨hr, -⟩ := (Store.wf_iff d m).mp h
  cases m with
  | nil => exact List.nodup_nil
  | cons e r =>
    exact List.nodup_cons.mpr ⟨fun hk => (Store.lt_of_above_of_mem_keys hr hk).false, Store.nodup_keys_of_above hr⟩

theorem Store.get_of_not_mem_keys {α : Type} {d : α} {m : Store α} {i : Nat} (h : i ∉ m.keys) : m.get d i = d := by
  induction m with
  | nil => rfl
  | cons e r ih =>
    obtain ⟨hk, hr⟩ := not_or.mp (mt List.mem_cons.mpr h)
    simp [Store.get, Ne.symm hk, ih hr]

/-- The accumulating form of `Store.get_mapAll`: listed indices are written, the others stay as they were accumulated. -/
theorem Store.get_foldl_set {α : Type} [DecidableEq α] {d : α} {f : Nat → α → α} {m : Store α} (hm : m.keys.Nodup)
    (acc : Store α) (i : Nat) :
    (m.foldl (fun a e => a.set d e.1 (f e.1 e.2)) acc).get d i = if i ∈ m.keys then f i (m.get d i) else acc.get d i := by
  induction m generalizing acc with
  | nil => rfl
  | cons e r ih =>
    obtain ⟨k, v⟩ := e
    obtain ⟨hk, hr⟩ := List.nodup_cons.mp hm
    have hmem : i ∈ Store.keys ((k, v) :: r) ↔ i = k ∨ i ∈ Store.keys r := List.mem_cons
    rw [List.foldl_cons, ih hr]
    by_cases hik : i = k
    · subst hik
      have hir : i ∉ Store.keys r := hk
      simp [hmem, hir, Store.get]
    · simp [hmem, hik, Ne.symm hik, Store.get, Store.get_set_other]

/-- Reading a table whose entries have all been changed, where no index is listed twice and the default stays. -/
theorem Store.get_mapAll {α : Type} [DecidableEq α] {d : α} {f : Nat → α → α} {m : Store α} (hm : m.keys.Nodup) (i : Nat)
    (hd : f i d = d) : (m.mapAll d f).get d i = f i (m.get d i) := by
  rw [Store.mapAll, Store.get_foldl_set hm]
  split
  · rfl
  · rename_i hi
    rw [Store.get_of_not_mem_keys hi, hd, Store.get_nil]

/-! ## Moving between context states (R52) -/

@[simp] theorem State.enqueue_ctx (s : State) (c d : CtxNo) : (s.enqueue c).ctx d = s.ctx d := rfl
@[simp] theorem State.dequeue_ctx (s : State) (c d : CtxNo) : (s.dequeue c).ctx d = s.ctx d := rfl

@[simp] theorem State.toState_ctx_same (s : State) (c : CtxNo) (st : CtxState) :
    (s.toState c st).ctx c = { s.ctx c with state := st } := by
  unfold State.toState
  rw [State.modCtx_ctx_same]
  split <;> split <;> simp

theorem State.toState_ctx_other (s : State) {c d : CtxNo} (st : CtxState) (h : d ≠ c) :
    (s.toState c st).ctx d = s.ctx d := by
  unfold State.toState
  rw [State.modCtx_ctx_other _ _ h]
  split <;> split <;> simp

@[simp] theorem State.toState_chans (s : State) (c : CtxNo) (st : CtxState) : (s.toState c st).chans = s.chans :=
  State.toState_changes s c st .chans (by decide)

@[simp] theorem State.toState_swarms (s : State) (c : CtxNo) (st : CtxState) : (s.toState c st).swarms = s.swarms :=
  State.toState_changes s c st .swarms (by decide)

theorem State.not_mem_readyQ_dequeue (s : State) (c : CtxNo) :
    c ∉ (s.dequeue c).readyQ.get [] (s.ctx c).basePrio.toNat := by
  simp [State.dequeue]

/-- A Ready context that leaves for another state leaves its Ready queue. -/
theorem State.not_mem_readyQ_toState {s : State} {c : CtxNo} {st : CtxState} (hr : (s.ctx c).state = .ready) (hst : st ≠ .ready) :
    c ∉ (s.toState c st).readyQ.get [] (s.ctx c).basePrio.toNat := by
  have : (s.toState c st).readyQ = (s.dequeue c).readyQ := by simp [State.toState, hr, hst]
  rw [this]
  exact s.not_mem_readyQ_dequeue c

/-! ## Unbinding (R68) -/

@[simp] theorem State.lendLower_ctx (s : State) (d : CtxNo) : s.lendLower.ctx d = s.ctx d := by
  have : s.lendLower.ctxs = s.ctxs := State.lendLower_changes s .ctxs (by decide)
  simp [State.ctx, this]

theorem State.foldl_notLent_chan_ctx (l : List Nat) (s : State) (n : Nat) :
    ((l.foldl (fun t ch => t.setChan ch { (t.chan ch) with lent := false }) s).chan n).ctx = (s.chan n).ctx := by
  induction l generalizing s with
  | nil => rfl
  | cons ch r ih =>
    rw [List.foldl_cons, ih]
    by_cases h : n = ch
    · subst h; simp
    · rw [State.setChan_chan_other _ _ h]

@[simp] theorem State.lendPresent_chan (s : State) (a b n : Nat) : (s.lendPresent a b).chan n = s.chan n := by
  unfold State.lendPresent
  split <;> rfl

/-- Lending counts channels; it binds and unbinds none. -/
@[simp] theorem State.lendLower_chan_ctx (s : State) (n : Nat) : (s.lendLower.chan n).ctx = (s.chan n).ctx := by
  unfold State.lendLower
  rw [State.lendPresent_chan]
  exact State.foldl_notLent_chan_ctx _ s n

theorem State.unbind_of_not_bound {s : State} {c : CtxNo} (h : (s.ctx c).bound = false) : s.unbind c = s := by
  simp [State.unbind, State.chanOf, h]

theorem State.unbind_of_bound {s : State} {c : CtxNo} (h : (s.ctx c).bound = true) :
    s.unbind c = ((s.modCtx c fun x => { x with bound := false, channel := 0, held := [], leave := .no }).setChan
      (s.ctx c).channel.toNat {}).lendLower := by
  simp [State.unbind, State.chanOf, h]

@[simp] theorem State.unbind_ctx_bound (s : State) (c : CtxNo) : ((s.unbind c).ctx c).bound = false := by
  cases h : (s.ctx c).bound with
  | false => rw [State.unbind_of_not_bound h, h]
  | true => simp [State.unbind_of_bound h]

@[simp] theorem State.unbind_ctx_state (s : State) (c : CtxNo) : ((s.unbind c).ctx c).state = (s.ctx c).state := by
  cases h : (s.ctx c).bound with
  | false => rw [State.unbind_of_not_bound h]
  | true => simp [State.unbind_of_bound h]

theorem State.unbind_ctx_other (s : State) {c d : CtxNo} (hd : d ≠ c) : (s.unbind c).ctx d = s.ctx d := by
  cases h : (s.ctx c).bound with
  | false => rw [State.unbind_of_not_bound h]
  | true => simp [State.unbind_of_bound h, State.modCtx_ctx_other _ _ hd]

theorem State.unbind_frees_channel {s : State} {c : CtxNo} (h : (s.ctx c).bound = true) :
    ((s.unbind c).chan (s.ctx c).channel.toNat).ctx = none := by
  simp [State.unbind_of_bound h]

/-! ## Binding (R68, R187, R226) -/

/-- What R187 makes of a swarm when context `c` binds in frame `f`: a swarm whose source `c` is takes the frame. -/
def Swarm.boundIn (c : CtxNo) (f : Nat) (x : Swarm) : Swarm :=
  if x.isOpen && x.src == c then { x with srcFrame := some f } else x

/-- A context as it is bound to channel `ch`. -/
def Ctx.boundTo (ch : Nat) (x : Ctx) : Ctx :=
  { x with bound := true, channel := BitVec.ofNat 10 ch, held := [], chanFetch := x.startIdx, leave := .no }

theorem State.bind_eq (s : State) (c : CtxNo) (ch : Nat) :
    s.bind c ch = ({ (s.toState c .running).modCtx c (Ctx.boundTo ch) with
        swarms := s.swarms.mapAll {} fun _ => Swarm.boundIn c (chanFrame ch) } : State).setChan ch
      { ctx := some c, allowRd := 512, allowWr := 512, lent := false } := by
  rw [← s.toState_swarms c .running]
  rfl

theorem State.bind_ctx (s : State) (c d : CtxNo) (ch : Nat) :
    (s.bind c ch).ctx d = ((s.toState c .running).modCtx c (Ctx.boundTo ch)).ctx d := by
  rw [State.bind_eq, State.setChan_ctx]
  rfl

@[simp] theorem State.bind_ctx_same (s : State) (c : CtxNo) (ch : Nat) :
    (s.bind c ch).ctx c = Ctx.boundTo ch { s.ctx c with state := .running } := by
  rw [State.bind_ctx, State.modCtx_ctx_same, State.toState_ctx_same]

theorem State.bind_ctx_other (s : State) {c d : CtxNo} (ch : Nat) (h : d ≠ c) : (s.bind c ch).ctx d = s.ctx d := by
  rw [State.bind_ctx, State.modCtx_ctx_other _ _ h, State.toState_ctx_other _ _ h]

@[simp] theorem State.bind_chan_same (s : State) (c : CtxNo) (ch : Nat) :
    (s.bind c ch).chan ch = { ctx := some c, allowRd := 512, allowWr := 512, lent := false } :=
  State.setChan_chan_same _ _ _

theorem State.bind_chan_other (s : State) (c : CtxNo) {ch n : Nat} (h : n ≠ ch) : (s.bind c ch).chan n = s.chan n := by
  rw [State.bind_eq, State.setChan_chan_other _ _ h]
  exact congrArg (fun m => Store.get {} m n) (s.toState_chans c .running)

theorem State.bind_readyQ (s : State) (c : CtxNo) (ch : Nat) : (s.bind c ch).readyQ = (s.toState c .running).readyQ := rfl

theorem State.bind_swarms (s : State) (c : CtxNo) (ch : Nat) :
    (s.bind c ch).swarms = s.swarms.mapAll {} fun _ => Swarm.boundIn c (chanFrame ch) := by
  rw [State.bind_eq]
  rfl

theorem State.bind_swarm {s : State} (hs : s.swarms.wf {} = true) (c : CtxNo) (ch n : Nat) :
    (s.bind c ch).swarm n = (s.swarm n).boundIn c (chanFrame ch) := by
  rw [State.swarm, State.bind_swarms]
  exact Store.get_mapAll (Store.nodup_keys_of_wf hs) n rfl

/-! ## The commands -/

/-- CONTEXT_BIND binds the head of the highest Ready queue where the frame chosen for it has this channel free (R11, R68). -/
theorem exec_contextBind {ch : Fin 1024} {c : CtxNo} {f : Nat} {s : State} (hh : s.faults.halted = false)
    (hclk : s.clockOn 16 = true) (hc : s.nextReady = some c) (hf : s.placeFrame (s.ctx c) = some f) (hch : chanFrame ch.val = f)
    (hb : s.canBind true ch.val = true) : exec (.contextBind ch) s = .next (s.bind c ch.val) := by
  change execContextBind ch s = _
  simp [execContextBind, hh, hclk, hc, hf, hch, hb]

/-- The first part of `Obligations.SchedulerBindsAndUnbinds`, for a swarm table in the canonical form. -/
theorem contextBind_binds_of_wf_swarms {ch : Fin 1024} {c : CtxNo} {f : Nat} {s : State} (hwf : s.swarms.wf {} = true)
    (hh : s.faults.halted = false) (hclk : s.clockOn 16 = true) (hc : s.nextReady = some c)
    (hf : s.placeFrame (s.ctx c) = some f) (hch : chanFrame ch.val = f) (hb : s.canBind true ch.val = true) :
    ∃ t, exec (.contextBind ch) s = .next t ∧ t.ctx c = Ctx.boundTo ch.val { s.ctx c with state := .running } ∧
      t.chan ch.val = { ctx := some c, allowRd := 512, allowWr := 512, lent := false } ∧
      (∀ d, d ≠ c → t.ctx d = s.ctx d) ∧ (∀ n, n ≠ ch.val → t.chan n = s.chan n) ∧
      ((s.ctx c).state = .ready → c ∉ t.readyQ.get [] (s.ctx c).basePrio.toNat) ∧
      (∀ n, t.swarm n = (s.swarm n).boundIn c f) ∧ OnlyChanges [.ctxs, .readyQ, .chans, .swarms] s t := by
  refine ⟨_, exec_contextBind hh hclk hc hf hch hb, s.bind_ctx_same c _, s.bind_chan_same c _, fun _ => s.bind_ctx_other _,
    fun _ => s.bind_chan_other c, fun hr => ?_, fun n => ?_, (s.bind_changes c ch.val).mono (by decide)⟩
  · rw [State.bind_readyQ]
    exact State.not_mem_readyQ_toState hr (by decide)
  · rw [State.bind_swarm hwf, hch]

/-- CONTEXT_IDLE_UNBIND takes a context with nothing left to Idle and frees its channel (R52). -/
theorem contextIdleUnbind_of_spent {c : CtxNo} {s : State} (hrun : (s.ctx c).state = .running) (hleave : (s.ctx c).leave = .no)
    (hfail : (s.ctx c).failStop = false) (habort : (s.ctx c).aborting = false) (hspent : (s.ctx c).spent = true) :
    ∃ t, exec (.contextIdleUnbind c) s = .next t ∧ (t.ctx c).state = .idle ∧ (t.ctx c).bound = false ∧
      (∀ d, d ≠ c → t.ctx d = s.ctx d) ∧ ((s.ctx c).bound = true → (t.chan (s.ctx c).channel.toNat).ctx = none) := by
  refine ⟨(s.toState c .idle).unbind c, ?_, by simp, by simp, fun d hd => ?_, fun hb => ?_⟩
  · change execContextIdleUnbind c s = _
    simp [execContextIdleUnbind, hrun, hleave, hfail, habort, hspent]
  · rw [State.unbind_ctx_other _ hd, State.toState_ctx_other _ _ hd]
  · have := State.unbind_frees_channel (s := s.toState c .idle) (c := c) (by simpa using hb)
    simpa using this

/-- CONTEXT_IDLE_UNBIND leaves a context that has something left (R52). -/
theorem contextIdleUnbind_of_not_spent {c : CtxNo} {s : State} (hspent : (s.ctx c).spent = false) :
    exec (.contextIdleUnbind c) s = .next s := by
  change execContextIdleUnbind c s = _
  simp [execContextIdleUnbind, hspent]

theorem State.stopIfDone_of_not_failStop {s : State} {c : CtxNo} (h : (s.ctx c).failStop = false) : s.stopIfDone c = s := by
  simp [State.stopIfDone, h]

/-- PREEMPT asks a Running context to leave, for a rival of no lower priority and no channel free (R69). -/
theorem exec_preempt {c d : CtxNo} {s : State} (hrun : (s.ctx c).state = .running) (hleave : (s.ctx c).leave = .no)
    (hd : s.nextReady = some d) (hprio : (s.ctx c).basePrio.toNat ≤ (s.ctx d).basePrio.toNat)
    (hfull : ∀ f ∈ frameNos, s.hasFree false f = false) :
    exec (.preempt c) s = .next ((s.modCtx c fun x => { x with leave := .boundary }).afterDone c) := by
  have hany : frameNos.any (s.hasFree false) = false := by simpa using hfull
  change execPreempt c s = _
  simp [execPreempt, hrun, hleave, hd, hprio, hany]

/-- A preempted context leaves at its next descriptor boundary, at once when it has nothing started (R69). -/
theorem preempt_leaves {c d : CtxNo} {s : State} (hrun : (s.ctx c).state = .running) (hleave : (s.ctx c).leave = .no)
    (hfail : (s.ctx c).failStop = false) (hd : s.nextReady = some d)
    (hprio : (s.ctx c).basePrio.toNat ≤ (s.ctx d).basePrio.toNat) (hfull : ∀ f ∈ frameNos, s.hasFree false f = false) :
    ∃ t, exec (.preempt c) s = .next t ∧ ((s.ctx c).works ≠ [] → t.ctx c = { s.ctx c with leave := .boundary }) ∧
      ((s.ctx c).works = [] → (t.ctx c).state = .ready ∧ (t.ctx c).bound = false) := by
  refine ⟨_, exec_preempt hrun hleave hd hprio hfull, ?_⟩
  rw [State.afterDone, State.stopIfDone_of_not_failStop (by simpa using hfail)]
  constructor
  · intro hw
    simp [hw]
  · intro hw
    simp [hw, hrun]

/-! ## The statement over every state -/

/-- Channel 0 may bind context 7, the source of swarm 0, which the swarm table lists twice: open first, then as after reset. -/
def twiceListedSwarm : State :=
  { State.reset with
    power := { State.reset.power with clkReq := BitVec.allOnes 22, clkAck := BitVec.allOnes 22 }
    ctxs := [(7, { state := .ready })]
    readyQ := [(0, [7])]
    frames := [(0, { state := .idle })]
    swarms := [(0, { isOpen := true, src := 7 }), (0, {})] }

theorem twiceListedSwarm_isOpen : (twiceListedSwarm.swarm 0).isOpen = true := rfl

/-- Binding rewrites the table from its last entry of each index, so the swarm that was read before is gone. -/
theorem twiceListedSwarm_bind_not_isOpen : ((twiceListedSwarm.bind 7 0).swarm 0).isOpen = false := by
  rw [State.swarm, State.bind_swarms]
  decide

/-- Refutes O33: on a swarm table that lists an index twice (no table in the canonical form does) CONTEXT_BIND changes a swarm
otherwise than R187 says: here the open swarm 0, whose source binds, becomes closed. Its other clauses, and this one for a table
in the canonical form, are `contextBind_binds_of_wf_swarms`, `contextIdleUnbind_of_spent`, `contextIdleUnbind_of_not_spent`
and `preempt_leaves`. -/
theorem not_schedulerBindsAndUnbinds : ¬ Obligations.SchedulerBindsAndUnbinds := by
  intro h
  have hbind : exec (.contextBind 0) twiceListedSwarm = .next (twiceListedSwarm.bind 7 0) :=
    exec_contextBind (f := 0) rfl (by decide) (by decide) (by decide) rfl (by decide)
  obtain ⟨t, ht, -, -, -, -, -, -, -, -, -, -, hswarm, -⟩ :=
    h.1 0 7 0 twiceListedSwarm rfl (by decide) (by decide) (by decide) rfl (by decide)
  obtain rfl : twiceListedSwarm.bind 7 0 = t := Host.Outcome.next.inj (hbind.symm.trans ht)
  have hopen : ((twiceListedSwarm.bind 7 0).swarm 0).isOpen = true := by
    rw [hswarm 0 (by decide)]
    split
    · exact twiceListedSwarm_isOpen
    · exact twiceListedSwarm_isOpen
  exact absurd (hopen.symm.trans twiceListedSwarm_bind_not_isOpen) (by decide)

end Sys2Proof.Machine

/-! # Proofs: the keeper and its mailboxes (R20 to R45, R362, R363, R365, R372, R434, R472, R476)

Doorbells and acceptance first, then what the completion of a verb writes, then the verbs that answer, bind and load, and last
the keeper's reset and its memory port. -/
namespace Sys2Proof.Machine

/-! ## Doorbells (R25, R27, R31) -/

/-- A mailbox after the bits of a write of MBOX_DB that take effect before RING is judged (R27). -/
def Mailbox.dbBits (b : Mailbox) (w : BitVec 32) : Mailbox :=
  { b with overrun := b.overrun && !w.getLsbD 7, done := b.done && !w.getLsbD 2, irqEn := w.getLsbD 5,
           cancel := b.cancel || (w.getLsbD 6 && b.busy) }

theorem State.dbWrite_of_not_ring {s : State} {m : Nat} {w : BitVec 32} (hw : w.getLsbD 0 = false) :
    s.dbWrite m w = s.setMbox m ((s.mbox m).dbBits w) := by
  rw [State.dbWrite, hw]
  rfl

theorem State.dbWrite_of_taken {s : State} {m : Nat} {w : BitVec 32} (hw : w.getLsbD 0 = true)
    (h : (s.mbox m).busy = true ∨ ((s.mbox m).done = true ∧ w.getLsbD 2 = false)) :
    s.dbWrite m w = s.setMbox m { (s.mbox m).dbBits w with overrun := true } := by
  have htaken : (((s.mbox m).dbBits w).busy || ((s.mbox m).dbBits w).done) = true := by
    simpa only [Mailbox.dbBits, Bool.or_eq_true, Bool.and_eq_true, Bool.not_eq_true'] using h
  rw [State.dbWrite, hw]
  exact if_pos htaken

theorem State.dbWrite_of_free {s : State} {m : Nat} {w : BitVec 32} (hw : w.getLsbD 0 = true) (hb : (s.mbox m).busy = false)
    (hd : (s.mbox m).done = true → w.getLsbD 2 = true) :
    s.dbWrite m w =
      (s.setMbox m { (s.mbox m).dbBits w with busy := true }).modKeeper fun k => { k with rung := k.rung ++ [m] } := by
  have hfree : ¬ (((s.mbox m).dbBits w).busy || ((s.mbox m).dbBits w).done) = true := by
    simp only [Mailbox.dbBits, hb, Bool.false_or, Bool.and_eq_true, Bool.not_eq_true', not_and, Bool.not_eq_false]
    exact hd
  rw [State.dbWrite, hw]
  exact if_neg hfree

/-- A ring finds its mailbox taken or free. -/
theorem Mailbox.taken_or_free (b : Mailbox) (w : BitVec 32) :
    (b.busy = true ∨ (b.done = true ∧ w.getLsbD 2 = false)) ∨ (b.busy = false ∧ (b.done = true → w.getLsbD 2 = true)) := by
  cases b.busy <;> cases b.done <;> cases w.getLsbD 2 <;> decide

theorem State.dbWrite_mbox_other (s : State) {m n : Nat} (w : BitVec 32) (hn : n ≠ m) : (s.dbWrite m w).mbox n = s.mbox n := by
  cases hw : w.getLsbD 0 with
  | false => rw [State.dbWrite_of_not_ring hw, State.setMbox_mbox_other _ _ hn]
  | true =>
    rcases (s.mbox m).taken_or_free w with h | ⟨hb, hd⟩
    · rw [State.dbWrite_of_taken hw h, State.setMbox_mbox_other _ _ hn]
    · rw [State.dbWrite_of_free hw hb hd, State.modKeeper_mbox, State.setMbox_mbox_other _ _ hn]

/-- A write of MBOX_DB leaves the window and the binding of its mailbox alone. -/
theorem State.dbWrite_mbox_keeps (s : State) (m : Nat) (w : BitVec 32) :
    ((s.dbWrite m w).mbox m).window = (s.mbox m).window ∧ ((s.dbWrite m w).mbox m).tenant = (s.mbox m).tenant := by
  cases hw : w.getLsbD 0 with
  | false => simp [State.dbWrite_of_not_ring hw, Mailbox.dbBits]
  | true =>
    rcases (s.mbox m).taken_or_free w with h | ⟨hb, hd⟩
    · simp [State.dbWrite_of_taken hw h, Mailbox.dbBits]
    · simp [State.dbWrite_of_free hw hb hd, Mailbox.dbBits]

theorem exec_mboxRing {m : Fin 32} {w : BitVec 32} {s : State} (hs : s.cpAwake = true) (hw : w.getLsbD 0 = true) :
    exec (.mboxRing m w) s = .next (s.dbWrite m.val w) := by
  change execMboxRing m w s = _
  simp [execMboxRing, hs, hw]

theorem exec_mboxCancel {m : Fin 32} {w : BitVec 32} {s : State} (hs : s.cpAwake = true) (hw : w.getLsbD 6 = true) :
    exec (.mboxCancel m w) s = .next (s.dbWrite m.val w) := by
  change execMboxCancel m w s = _
  simp [execMboxCancel, hs, hw]

theorem exec_mboxDoneClear {m : Fin 32} {w : BitVec 32} {s : State} (hs : s.cpAwake = true) (hw : w.getLsbD 2 = true) :
    exec (.mboxDoneClear m w) s = .next (s.dbWrite m.val w) := by
  change execMboxDoneClear m w s = _
  simp [execMboxDoneClear, hs, hw]

/-- Settles O7: a ring finds its mailbox free or taken, and each case is one equation of the doorbell's write. -/
theorem ringSubmitsTheRequestOrOverruns : Obligations.RingSubmitsTheRequestOrOverruns := by
  intro m w s hs hw
  obtain ⟨hwin, htenant⟩ := s.dbWrite_mbox_keeps m.val w
  refine ⟨_, exec_mboxRing hs hw, hwin, htenant, fun n => s.dbWrite_mbox_other w, s.dbWrite_changes m.val w, ?_, ?_⟩
  · intro hb hd
    rw [State.dbWrite_of_free hw hb hd]
    simpa [Mailbox.dbBits] using hd
  · intro h
    rw [State.dbWrite_of_taken hw h]
    simp [Mailbox.dbBits]

/-- Settles O8: without RING the write of MBOX_DB only replaces the mailbox by itself with the written bits in effect. -/
theorem cancelAndDoneWriteOneBit : Obligations.CancelAndDoneWriteOneBit := by
  intro m w s hs hw
  have hwrite := State.dbWrite_of_not_ring (s := s) (m := m.val) hw
  have hother : ∀ n, n ≠ m.val → (s.setMbox m.val ((s.mbox m.val).dbBits w)).mbox n = s.mbox n :=
    fun n => s.setMbox_mbox_other _
  constructor
  · intro hcancel
    refine ⟨_, exec_mboxCancel hs hcancel, ?_⟩
    rw [hwrite]
    exact ⟨by simp [Mailbox.dbBits, hcancel], by simp [Mailbox.dbBits], by simp [Mailbox.dbBits], hother, s.setMbox_changes _ _⟩
  · intro hdone
    refine ⟨_, exec_mboxDoneClear hs hdone, ?_⟩
    rw [hwrite]
    exact ⟨by simp [Mailbox.dbBits, hdone], by simp [Mailbox.dbBits], by simp [Mailbox.dbBits], by simp [Mailbox.dbBits], hother,
      s.setMbox_changes _ _⟩

/-! ## The verb in progress (R33, R38) -/

theorem State.verbDone_of_verb {s : State} {o : Origin} {v : VerbProg} (h : s.verb o = some v) (st d : Nat) (res : Bytes) :
    s.verbDone o st d res = s.finish v st d res := by
  simp [State.verbDone, h]

/-- The verb in progress as a request enters the keeper (R26, R33). -/
def State.newVerb (s : State) (o : Origin) (r : Bytes) : VerbProg :=
  { origin := o, req := r, accepted := s.ptime, stage := .run, got := [], readFail := false, asked := [], acc := 0 }

/-- The request is the newest verb in progress. -/
def State.withVerb (s : State) (o : Origin) (r : Bytes) : State :=
  s.modKeeper fun k => { k with verbs := k.verbs ++ [s.newVerb o r] }

theorem State.not_isRelay {s : State} {v : VerbProg} (h : reqRelay v.req = false) : s.isRelay v = false := by
  simp [State.isRelay, h]

/-- A request that is not to be relayed and fails a check is answered at once (R39). -/
theorem State.accept_of_fault {s : State} {o : Origin} {r : Bytes} {st d : Nat} (hr : reqRelay r = false)
    (hf : (s.withVerb o r).acceptFault o r = some (st, d)) : s.accept o r = (s.withVerb o r).verbDone o st d := by
  have hlocal : (s.withVerb o r).isRelay (s.newVerb o r) = false := State.not_isRelay hr
  unfold State.withVerb State.newVerb at hf hlocal
  simp [State.accept, State.withVerb, State.newVerb, hf, hlocal]

/-- A request that is not to be relayed and passes every check is in progress; fw.activate holds acceptance (R33, R35). -/
theorem State.accept_of_no_fault {s : State} {o : Origin} {r : Bytes} (hr : reqRelay r = false)
    (hf : (s.withVerb o r).acceptFault o r = none) :
    s.accept o r =
      if reqVerb r = 0x0103 then (s.withVerb o r).modKeeper fun k => { k with activating := true } else s.withVerb o r := by
  have hlocal : (s.withVerb o r).isRelay (s.newVerb o r) = false := State.not_isRelay hr
  unfold State.withVerb State.newVerb at hf hlocal
  simp [State.accept, State.withVerb, State.newVerb, hf, hlocal]

/-- `rest` are the mailboxes that stay rung. -/
def State.leaveRung (s : State) (rest : List Nat) : State := s.modKeeper fun k => { k with rung := rest }

/-- VERB_ACCEPT takes the mailbox rung first, with its request as it stands (R26, R33). -/
theorem exec_verbAccept {m : Fin 32} {rest : List Nat} {s : State} (hready : s.keeperReady = true)
    (hact : s.keeper.activating = false) (hint : (s.keeper.verbs.any (·.stage == .interrupted)) = false)
    (hrung : s.keeper.rung = m.val :: rest) (has : (s.mbox m.val).rungAs = none) :
    exec .verbAccept s =
      .next ((s.leaveRung rest).accept (.mbox m) (s.mbox m.val).request) := by
  have hcopy : s.copyRequest m.val = ((s.mbox m.val).request, s) := by simp [State.copyRequest, has]
  change execVerbAccept s = _
  simp [execVerbAccept, hready, hact, hint, hrung, hcopy, m.isLt, State.leaveRung]

theorem exec_relayTimeout {m : Fin 32} {v : VerbProg} {s : State} (hv : s.verb (.mbox m) = some v) (hst : v.stage = .relayed) :
    exec (.relayTimeout m) s = .next ((s.finish v kRelayTimeout 0 []).relayNext (reqTarget v.req)) := by
  change execRelayTimeout m s = _
  simp [execRelayTimeout, hv, hst, State.verbDone_of_verb hv]

/-- Settles O9: the mailbox rung first leaves the queue, and acceptance of its request is one of the cases of `State.accept`. -/
theorem verbsAreAcceptedInRingOrder : Obligations.VerbsAreAcceptedInRingOrder := by
  refine ⟨?_, fun m v s hv hst => exec_relayTimeout hv hst⟩
  intro m rest s hready hact hint hrung has r v u hrelay
  have hexec := exec_verbAccept hready hact hint hrung has
  have hu : (s.leaveRung rest).withVerb (.mbox m) r = u := rfl
  have hpass := State.accept_of_no_fault (s := s.leaveRung rest) (o := .mbox m) hrelay
  rw [hu] at hpass
  refine ⟨fun hf hne => ?_, fun hf he => ?_, fun st d hf => ?_⟩
  · rw [hexec, hpass hf, if_neg hne]
  · rw [hexec, hpass hf, if_pos he]
    rfl
  · rw [hexec, State.accept_of_fault (s := s.leaveRung rest) hrelay hf, hu]

/-! ## Bytes (R3, R23, R24) -/

@[simp] theorem leBytes_length (n w : Nat) : (leBytes n w).length = n := by
  induction n generalizing w with
  | zero => rfl
  | succ n ih => simp [leBytes, ih]

theorem leNat_leBytes (n w : Nat) : leNat (leBytes n w) = w % 256 ^ n := by
  induction n generalizing w with
  | zero => simp [leBytes, leNat, Nat.mod_one]
  | succ n ih => simp [leBytes, leNat, ih, Nat.pow_succ', Nat.mod_mul]

theorem leNat_lt (b : Bytes) : leNat b < 256 ^ b.length := by
  induction b with
  | nil => simp [leNat]
  | cons x r ih =>
    have hx : x.toNat < 256 := x.isLt
    simp only [leNat, List.length_cons, Nat.pow_succ]
    omega

@[simp] theorem zeros_length (n : Nat) : (zeros n).length = n := List.length_replicate

@[simp] theorem slice_length (b : Bytes) (off n : Nat) : (slice b off n).length = n := by
  simp only [slice, List.length_append, zeros_length, List.length_take]
  omega

theorem leAt_lt (b : Bytes) (off n : Nat) : leAt b off n < 256 ^ n := by
  simpa [leAt] using leNat_lt (slice b off n)

theorem slice_zero_of_length {b : Bytes} {n : Nat} (h : b.length = n) : slice b 0 n = b := by
  subst h
  simp [slice, zeros]

theorem slice_append_left {a : Bytes} (b : Bytes) {off n : Nat} (h : off + n ≤ a.length) :
    slice (a ++ b) off n = slice a off n := by
  have hn : n ≤ (a.drop off).length := by
    rw [List.length_drop]
    omega
  simp [slice, List.drop_append_of_le_length (show off ≤ a.length by omega), List.take_append_of_le_length hn]

theorem slice_append_right {a : Bytes} (b : Bytes) {off : Nat} (n : Nat) (h : a.length ≤ off) :
    slice (a ++ b) off n = slice b (off - a.length) n := by
  simp [slice, List.drop_append, List.drop_eq_nil_of_le h]

/-- The number in a field of `n` bytes that holds `w`, when it fits. -/
theorem leNat_slice_leBytes {n w : Nat} (h : w < 256 ^ n) : leNat (slice (leBytes n w) 0 n) = w := by
  rw [slice_zero_of_length (leBytes_length n w), leNat_leBytes, Nat.mod_eq_of_lt h]

theorem slice_getD (b : Bytes) (off n i : Nat) (h : i < n) : (slice b off n).getD i 0 = b.getD (off + i) 0 := by
  by_cases hi : off + i < b.length
  · have htake : i < ((b.drop off).take n).length := by
      rw [List.length_take, List.length_drop]
      omega
    rw [slice, List.getD_eq_getElem?_getD, List.getElem?_append_left htake, List.getElem?_take_of_lt h, List.getElem?_drop,
      List.getD_eq_getElem?_getD]
  · have htake : ((b.drop off).take n).length ≤ i := by
      rw [List.length_take, List.length_drop]
      omega
    have hb : b[off + i]? = none := List.getElem?_eq_none (by omega)
    rw [slice, List.getD_eq_getElem?_getD, List.getD_eq_getElem?_getD, List.getElem?_append_right htake, hb, zeros,
      List.getElem?_replicate]
    split <;> rfl

/-- Bytes put into a sparse table from `off` on. -/
def Store.putBytes (m : Store Byte) (off : Nat) (x : Bytes) : Store Byte :=
  (x.zip (List.range x.length)).foldl (fun w p => w.set 0 (off + p.2) p.1) m

theorem Store.putBytes_concat (m : Store Byte) (off : Nat) (x : Bytes) (a : Byte) :
    m.putBytes off (x ++ [a]) = (m.putBytes off x).set 0 (off + x.length) a := by
  simp [Store.putBytes, List.range_succ, List.zip_append]

theorem Store.get_putBytes_of_outside {m : Store Byte} {off i : Nat} {x : Bytes} (h : i < off ∨ off + x.length ≤ i) :
    (m.putBytes off x).get 0 i = m.get 0 i := by
  induction x using List.reverseRecOn with
  | nil => rfl
  | append_singleton x a ih =>
    rw [List.length_append, List.length_singleton] at h
    rw [Store.putBytes_concat, Store.get_set_other _ _ _ (by omega), ih (by omega)]

theorem Store.get_putBytes {m : Store Byte} {off i : Nat} {x : Bytes} (h : i < x.length) :
    (m.putBytes off x).get 0 (off + i) = x.getD i 0 := by
  induction x using List.reverseRecOn with
  | nil => simp at h
  | append_singleton x a ih =>
    rw [List.length_append, List.length_singleton] at h
    rw [Store.putBytes_concat, Store.get_set]
    split
    · have hi : i = x.length := by omega
      simp [hi]
    · have hi : i < x.length := by omega
      rw [ih hi, List.getD_append _ _ _ _ hi]

theorem Mailbox.write_eq (b : Mailbox) (off : Nat) (x : Bytes) : b.write off x = { b with window := b.window.putBytes off x } := rfl

/-! ## Completion (R24, R26, R28) -/

theorem Mailbox.respond_of_no_rebind {b : Mailbox} (h : b.rebind = none) (resp : Bytes) :
    b.respond resp = { b with window := b.window.putBytes 0x80 resp, done := true, busy := false, cancel := false } := by
  simp [Mailbox.respond, Mailbox.write_eq, h]

/-- The verb event is recorded, for a verb that records one (R416). -/
def State.logVerb (s : State) (v : VerbProg) (st d : Nat) : State :=
  if (match verbInfo (reqVerb v.req) with | some i => i.event | none => true) then
    s.event (verbEvent v (s.originTenant v.origin) st d)
  else s

theorem State.logVerb_changes (s : State) (v : VerbProg) (st d : Nat) : OnlyChanges [.recd] s (s.logVerb v st d) :=
  OnlyChanges.ite (State.event_changes _ _) (OnlyChanges.refl _ _)

@[simp] theorem State.logVerb_keeper (s : State) (v : VerbProg) (st d : Nat) : (s.logVerb v st d).keeper = s.keeper :=
  State.logVerb_changes s v st d .keeper (by decide)

@[simp] theorem State.logVerb_mbox (s : State) (v : VerbProg) (st d n : Nat) : (s.logVerb v st d).mbox n = s.mbox n :=
  congrArg (fun m => Store.get ({} : Mailbox) m n) (State.logVerb_changes s v st d .mboxes (by decide))

/-- The keeper once the verb from `o` has ended: the verb is no longer in progress, its requests are nobody's (R28). -/
def Keeper.endVerb (k : Keeper) (o : Origin) : Keeper :=
  { k with verbs := k.verbs.filter (·.origin ≠ o),
           kmq := k.kmq.map fun r => if r.owner = .verb o then { r with owner := .gone } else r }

theorem State.finish_of_mbox {v : VerbProg} {m : Fin 32} (hv : v.origin = .mbox m) (s : State) (st d : Nat) (res : Bytes) :
    s.finish v st d res = ((s.logVerb v st d).modKeeper fun k => k.endVerb (.mbox m)).modMbox m.val fun b =>
      b.respond (responseBytes s v st d res) := by
  cases v
  cases hv
  rfl

theorem State.finish_changes_of_mbox {v : VerbProg} {m : Fin 32} (hv : v.origin = .mbox m) (s : State) (st d : Nat) (res : Bytes) :
    OnlyChanges [.mboxes, .keeper, .recd] s (s.finish v st d res) := by
  rw [State.finish_of_mbox hv]
  exact (((s.logVerb_changes v st d).mono (by decide)).step (State.modKeeper_changes _ _) (by decide)).step
    (State.modMbox_changes _ _ _) (by decide)

theorem Keeper.find?_endVerb (k : Keeper) (o : Origin) : (k.endVerb o).verbs.find? (·.origin = o) = none := by
  simp [Keeper.endVerb]

/-- The response block of R24, field by field. -/
theorem responseBytes_fields {v : VerbProg} {st d : Nat} {res : Bytes} (s : State) (hst : st < 2 ^ 16) (hd : d < 2 ^ 16)
    (hres : res.length < 256) :
    let b := responseBytes s v st d res
    b.length = 16 + res.length ∧ leAt b 0 2 = st ∧ leAt b 2 2 = d ∧ slice b 4 4 = slice v.req 4 4 ∧
      leAt b 8 1 = s.ifMajor ∧ leAt b 9 1 = res.length ∧ leAt b 10 1 = s.inp.chipId.toNat ∧
      leAt b 12 4 = min ((s.ptime - v.accepted).toNat / 25) (2 ^ 32 - 1) ∧ b.drop 16 = res := by
  have hmajor : s.ifMajor < 256 ^ 1 := Nat.mod_lt _ (by decide)
  have hchip : s.inp.chipId.toNat < 256 ^ 1 := lt_trans s.inp.chipId.isLt (by decide)
  have htime : satNat 32 ((s.ptime - v.accepted).toNat / 25) < 256 ^ 4 := lt_of_le_of_lt (Nat.min_le_right _ _) (by decide)
  refine ⟨?_, ?_, ?_, ?_, ?_, ?_, ?_, ?_, ?_⟩
  · simp only [responseBytes, List.length_append, leBytes_length, slice_length]
  · simp [responseBytes, leAt, slice_append_left, leNat_slice_leBytes (n := 2) hst]
  · simp [responseBytes, leAt, slice_append_left, slice_append_right, leNat_slice_leBytes (n := 2) hd]
  · simp [responseBytes, slice_append_left, slice_append_right, slice_zero_of_length]
  · simp [responseBytes, leAt, slice_append_left, slice_append_right, leNat_slice_leBytes hmajor]
  · simp [responseBytes, leAt, slice_append_left, slice_append_right, leNat_slice_leBytes (n := 1) hres]
  · simp [responseBytes, leAt, slice_append_left, slice_append_right, leNat_slice_leBytes hchip]
  · simp [-BitVec.toNat_sub, responseBytes, leAt, slice_append_left, slice_append_right, leNat_slice_leBytes htime]
    rfl
  · exact List.drop_left' (by simp)

/-- Settles O10: completion writes the response into the mailbox's window (`Mailbox.respond_of_no_rebind`), and the fields of
the response are those of R24. -/
theorem responsesAreWrittenAndLaidOut : Obligations.ResponsesAreWrittenAndLaidOut := by
  refine ⟨?_, fun v st d res s hst hd hres => responseBytes_fields s hst hd hres⟩
  intro m v st d res s hv _ hrebind t
  have ht : t = _ := State.finish_of_mbox hv s st d res
  have hmbox : t.mbox m.val = (s.mbox m.val).respond (responseBytes s v st d res) := by rw [ht]; simp
  have hkeeper : t.keeper = s.keeper.endVerb (.mbox m) := by rw [ht]; simp
  rw [Mailbox.respond_of_no_rebind hrebind] at hmbox
  refine ⟨by rw [hmbox], by rw [hmbox], by rw [hmbox], fun i hi => ?_, fun i hi => ?_, fun n hn => ?_, ?_, hkeeper,
    State.finish_changes_of_mbox hv s st d res⟩
  · rw [hmbox]
    exact Store.get_putBytes hi
  · rw [hmbox]
    exact Store.get_putBytes_of_outside (.inl hi)
  · rw [ht, State.modMbox_mbox_other _ _ hn]
    simp
  · rw [State.verb, hkeeper]
    exact Keeper.find?_endVerb _ _

/-! ## A verb at its turn (R33, R34, R42) -/

/-- The verb whose turn has come is the one in progress from its origin. -/
theorem Turn.verb_eq {s : State} {o : Origin} {code : Nat} {v : VerbProg} (h : Turn s o code v) : s.verb o = some v := by
  simp only [Turn, State.verbAt] at h
  split at h
  · rename_i w hw
    split at h
    · rw [hw, h]
    · cases h
  · cases h

theorem State.runVerb_of_turn {s : State} {o : Origin} {code : Nat} {v : VerbProg} (h : Turn s o code v) (f : VerbProg → State) :
    s.runVerb o code f = f v := by
  rw [Turn] at h
  simp [State.runVerb, h]

/-- What a verb does at its turn, for a command that runs it. -/
theorem next_runVerb_of_turn {s t : State} {o : Origin} {code : Nat} {v : VerbProg} {f : VerbProg → State}
    (h : Turn s o code v) (hf : f v = t) :
    (.next (s.runVerb o code f) : Host.Outcome State Fault Refusal) = .next t := by
  rw [State.runVerb_of_turn h, hf]

/-- A verb at its turn that only answers. -/
theorem Turn.verbDone_eq {s : State} {o : Origin} {code : Nat} {v : VerbProg} (h : Turn s o code v) (st d : Nat) (res : Bytes) :
    s.verbDone o st d res = s.finish v st d res := State.verbDone_of_verb h.verb_eq st d res

/-- A verb that completes once it has written registers of the keeper. -/
theorem State.verbDone_modKeeper {s : State} {o : Origin} {v : VerbProg} {f : Keeper → Keeper} (h : s.verb o = some v)
    (hf : (f s.keeper).verbs = s.keeper.verbs) (st d : Nat) (res : Bytes) :
    (s.modKeeper f).verbDone o st d res = (s.modKeeper f).finish v st d res := by
  refine State.verbDone_of_verb ?_ st d res
  rw [← h, State.verb, State.modKeeper_keeper, hf, State.verb]

/-! ## Verbs that only ask (R42, R349, R430, R477) -/

theorem exec_keeperPing {o : Origin} {v : VerbProg} {s : State} (h : Turn s o 0x0100 v) :
    exec (.keeperPing o) s = .next (s.finish v kOK 0 (leBytes 8 s.ptime.toNat ++ leBytes 4 s.keeper.verbs.length)) := by
  refine next_runVerb_of_turn h ?_
  rw [h.verbDone_eq]
  simp [results, packResults, alignUp, zeros]

theorem State.fwInfo_eq (s : State) :
    s.fwInfo = leBytes 4 Config.romVersion.toNat ++ leBytes 4 s.keeper.running.fwVer.toNat ++
      leBytes 2 s.keeper.running.ifVer.toNat ++ zeros 2 ++ leBytes 4 s.keeper.running.secVer.toNat ++
      slice s.keeper.running.digest 0 16 := by
  simp [State.fwInfo, results, packResults, alignUp, zeros]

theorem exec_fwInfo {o : Origin} {v : VerbProg} {s : State} (h : Turn s o 0x0101 v) :
    exec (.fwInfo o) s = .next (s.finish v kOK 0 s.fwInfo) :=
  next_runVerb_of_turn h (h.verbDone_eq _ _ _)

theorem exec_memInfo_of_range {o : Origin} {v : VerbProg} {s : State} {r : MapRange} (h : Turn s o 0x0404 v)
    (hr : s.keeper.stackMap.find? (·.idx = par v.req 16 1) = some r) :
    exec (.memInfo o) s = .next (s.finish v kOK 0
      (leBytes 8 (s.inp.chipId.toNat * 2 ^ 50 + r.base) ++ leBytes 8 r.len ++ leBytes 4 r.out.toNat)) := by
  refine next_runVerb_of_turn h ?_
  rw [h.verbDone_eq, hr]
  simp [results, packResults, alignUp, zeros]

theorem exec_memInfo_of_absent {o : Origin} {v : VerbProg} {s : State} (h : Turn s o 0x0404 v)
    (hr : s.keeper.stackMap.find? (·.idx = par v.req 16 1) = none) :
    exec (.memInfo o) s = .next (s.finish v kOK 0 (zeros 20)) := by
  refine next_runVerb_of_turn h ?_
  rw [h.verbDone_eq, hr]
  rfl

theorem exec_tallyRead {o : Origin} {v : VerbProg} {s : State} (h : Turn s o 0x0701 v) :
    exec (.tallyRead o) s = .next (s.finish v kOK 0 (leBytes 8 (s.tallyVal (par v.req 16 2)))) := by
  refine next_runVerb_of_turn h ?_
  rw [h.verbDone_eq]
  simp [results, packResults, alignUp, zeros]

/-- Settles O11: each query verb at its turn is one completion with its packed results. -/
theorem queryVerbsAnswer : Obligations.QueryVerbsAnswer := by
  intro o v s
  refine ⟨exec_keeperPing, fun h => ?_, fun h r => exec_memInfo_of_range h, exec_memInfo_of_absent, exec_tallyRead⟩
  rw [exec_fwInfo h, State.fwInfo_eq]

/-! ## Bindings and relays (R32, R37, R354) -/

theorem State.rebind_of_idle {s : State} {m : Nat} (h : (s.mbox m).busy = false) (t : Option Tenant) :
    s.rebind m t = s.setMbox m ((s.mbox m).rebound t) := by
  simp [State.rebind, State.modMbox, h]

theorem State.rebind_of_busy {s : State} {m : Nat} (h : (s.mbox m).busy = true) (t : Option Tenant) :
    s.rebind m t = s.setMbox m { s.mbox m with rebind := some t } := by
  simp [State.rebind, State.modMbox, h]

theorem State.verbDone_rebind {s : State} {o : Origin} {v : VerbProg} (h : s.verb o = some v) (m : Nat) (t : Option Tenant)
    (st d : Nat) (res : Bytes) : (s.rebind m t).verbDone o st d res = (s.rebind m t).finish v st d res :=
  State.verbDone_of_verb (by rw [State.rebind, State.modMbox_verb, h]) st d res

theorem exec_mboxBind_of_closed {o : Origin} {v : VerbProg} {s : State} (h : Turn s o 0x0104 v)
    (ht : s.tenantOpen (BitVec.ofNat 12 (par v.req 18 2)) = false) :
    exec (.mboxBind o) s = .next (s.finish v kNoObject 18 []) := by
  refine next_runVerb_of_turn h ?_
  simp [ht, h.verbDone_eq]

theorem exec_mboxBind_of_open {o : Origin} {v : VerbProg} {s : State} (h : Turn s o 0x0104 v)
    (ht : s.tenantOpen (BitVec.ofNat 12 (par v.req 18 2)) = true) :
    exec (.mboxBind o) s =
      .next ((s.rebind (par v.req 16 1) (some (BitVec.ofNat 12 (par v.req 18 2)))).finish v kOK 0 []) := by
  refine next_runVerb_of_turn h ?_
  simp [ht, State.verbDone_rebind h.verb_eq]

theorem exec_mboxUnbind {o : Origin} {v : VerbProg} {s : State} (h : Turn s o 0x0105 v) :
    exec (.mboxUnbind o) s = .next ((s.rebind (par v.req 16 1) none).finish v kOK 0 []) :=
  next_runVerb_of_turn h (State.verbDone_rebind h.verb_eq _ _ _ _ _)

theorem exec_relayAllow {o : Origin} {v : VerbProg} {s : State} (h : Turn s o 0x0A01 v) :
    exec (.relayAllow o) s =
      .next ((s.modKeeper fun k => { k with relayAllow := BitVec.ofNat 64 (par v.req 16 8) }).finish v kOK 0 []) :=
  next_runVerb_of_turn h (State.verbDone_modKeeper h.verb_eq rfl _ _ _)

/-! ## Firmware (R35, R362, R363) -/

/-- A verb that has read its structure goes on with its bytes (R45). -/
theorem State.withStruct_of_hasRead {s : State} {o : Origin} {v : VerbProg} {off addr len align : Nat} {b : Bytes}
    (h : HasRead s v addr len align b) (f : Bytes → State) : s.withStruct o v off addr len align f = f b := by
  obtain ⟨hmap, halign, hok, hbytes⟩ := h
  simp [State.withStruct, hmap, halign, hok, hbytes]

theorem imageOf_secVer_toNat (addr len : Nat) (b : Bytes) : (imageOf addr len b).secVer.toNat = leAt b 16 4 :=
  Nat.mod_eq_of_lt (leAt_lt b 16 4)

theorem exec_fwLoad_of_fault {o : Origin} {v : VerbProg} {s : State} {b : Bytes} {st d : Nat} (h : Turn s o 0x0102 v)
    (hfail : s.unitFailed 6 = false) (hpass : s.unitPassed 6 = true) (hread : HasRead s v (par v.req 16 8) (par v.req 24 4) 256 b)
    (himage : s.imageFault b (par v.req 24 4) (some s.keeper.running.secVer.toNat) = some (st, d)) :
    exec (.fwLoad o) s = .next (s.finish v st d []) := by
  refine next_runVerb_of_turn h ?_
  simp [hfail, hpass, State.withStruct_of_hasRead hread, himage, h.verbDone_eq]

theorem exec_fwLoad_of_sound {o : Origin} {v : VerbProg} {s : State} {b : Bytes} (h : Turn s o 0x0102 v)
    (hfail : s.unitFailed 6 = false) (hpass : s.unitPassed 6 = true) (hread : HasRead s v (par v.req 16 8) (par v.req 24 4) 256 b)
    (himage : s.imageFault b (par v.req 24 4) (some s.keeper.running.secVer.toNat) = none) :
    exec (.fwLoad o) s =
      .next ((s.modKeeper fun k => { k with loaded := some (imageOf (par v.req 16 8) (par v.req 24 4) b) }).finish v kOK 0
        (leBytes 4 (leAt b 16 4))) := by
  refine next_runVerb_of_turn h ?_
  simp [hfail, hpass, State.withStruct_of_hasRead hread, himage, State.verbDone_modKeeper h.verb_eq, results, packResults, alignUp,
    zeros, imageOf_secVer_toNat]

theorem exec_fwActivate_of_none {o : Origin} {v : VerbProg} {s : State} (h : Turn s o 0x0103 v) (hl : s.keeper.loaded = none) :
    exec (.fwActivate o) s = .next ((s.modKeeper fun k => { k with activating := false }).finish v kNoObject 0 []) := by
  refine next_runVerb_of_turn h ?_
  simp [hl, State.verbDone_modKeeper h.verb_eq]

theorem exec_fwActivate_of_loaded {o : Origin} {v : VerbProg} {s : State} (h : Turn s o 0x0103 v) (hl : s.keeper.loaded ≠ none) :
    exec (.fwActivate o) s = .next (s.verbDrains o) := by
  refine next_runVerb_of_turn h ?_
  simp [hl]

theorem exec_fwActivateRestart {v : VerbProg} {i : FwImage} {s : State} (hv : s.keeper.verbs = [v]) (hl : s.keeper.loaded = some i)
    (hcode : reqVerb v.req = 0x0103) (hst : v.stage = .draining) (hready : s.keeperReady = true) :
    exec .fwActivateRestart s = .next (s.bootStart (.activate v.origin) i.addr) := by
  change execFwActivateRestart s = _
  simp [execFwActivateRestart, hv, hl, hcode, hst, hready]

/-- Settles O12: what each verb does at its turn, from the equations of `State.rebind` and the verdict on the image. -/
theorem bindingAndFirmwareVerbs : Obligations.BindingAndFirmwareVerbs := by
  refine ⟨fun o v s => ⟨exec_mboxBind_of_closed, fun h ht => ⟨fun hb => ?_, fun hb => ?_⟩,
    fun h => ⟨fun hb => ?_, fun hb => ?_⟩, exec_relayAllow⟩, fun o v s => ⟨fun b => exec_fwLoad_of_sound,
    fun b st d => exec_fwLoad_of_fault, exec_fwActivate_of_none, exec_fwActivate_of_loaded, ?_⟩⟩
  · rw [exec_mboxBind_of_open h ht, State.rebind_of_idle hb]
    rfl
  · rw [exec_mboxBind_of_open h ht, State.rebind_of_busy hb]
  · rw [exec_mboxUnbind h, State.rebind_of_idle hb]
    rfl
  · rw [exec_mboxUnbind h, State.rebind_of_busy hb]
  · intro i hv hl hcode hst hready
    exact ⟨_, exec_fwActivateRestart hv hl hcode hst hready, rfl, rfl, rfl, rfl, rfl, s.bootStart_changes _ _⟩

/-! ## What a raising leaves in the fault collector (R375, R377, R381) -/

@[simp] theorem Faults.fill_stat (f : Faults) (c : FaultCap) (now : Word) : (f.fill c now).stat = f.stat := by
  rw [Faults.fill]

@[simp] theorem Faults.fill_flipKeeper (f : Faults) (c : FaultCap) (now : Word) : (f.fill c now).flipKeeper = f.flipKeeper := by
  rw [Faults.fill]

@[simp] theorem Faults.capture_stat (f : Faults) (c : FaultCap) (now : Word) : (f.capture c now).stat = f.stat := by
  simp [Faults.capture, apply_ite Faults.stat]

@[simp] theorem Faults.capture_flipKeeper (f : Faults) (c : FaultCap) (now : Word) :
    (f.capture c now).flipKeeper = f.flipKeeper := by
  simp [Faults.capture, apply_ite Faults.flipKeeper]

@[simp] theorem Faults.pinFault_stat (f : Faults) : f.pinFault.stat = f.stat := by
  unfold Faults.pinFault
  split <;> rfl

@[simp] theorem Faults.pinFault_flipKeeper (f : Faults) : f.pinFault.flipKeeper = f.flipKeeper := by
  unfold Faults.pinFault
  split <;> rfl

@[simp] theorem Faults.react_stat (f : Faults) (cfg : BitVec 9) : (f.react cfg).stat = f.stat := by
  simp [Faults.react, apply_ite Faults.stat]

@[simp] theorem Faults.react_flipKeeper (f : Faults) (cfg : BitVec 9) : (f.react cfg).flipKeeper = f.flipKeeper := by
  simp [Faults.react, apply_ite Faults.flipKeeper]

@[simp] theorem State.halt_stat (s : State) : s.halt.faults.stat = s.faults.stat := by
  rw [State.halt, State.stopAllFrames_faults, State.modFaults_faults]

@[simp] theorem State.halt_flipKeeper (s : State) : s.halt.faults.flipKeeper = s.faults.flipKeeper := by
  rw [State.halt, State.stopAllFrames_faults, State.modFaults_faults]

@[simp] theorem State.recordMerged_faults (s : State) : s.recordMerged.faults = s.faults :=
  s.recordMerged_changes .faults (by decide)

/-- A raising sets the status bit of its source, and no other (R375). -/
@[simp] theorem State.raiseWith_stat (s : State) (c : FaultCap) (ev : Option EvRec) (q : Bool) :
    (s.raiseWith c ev q).faults.stat = s.faults.stat ||| BitVec.ofNat 64 (2 ^ (c.src % 64)) := by
  simp [State.raiseWith, apply_ite State.faults, apply_ite Faults.stat]

@[simp] theorem State.raiseWith_flipKeeper (s : State) (c : FaultCap) (ev : Option EvRec) (q : Bool) :
    (s.raiseWith c ev q).faults.flipKeeper = s.faults.flipKeeper := by
  simp [State.raiseWith, apply_ite State.faults, apply_ite Faults.flipKeeper]

theorem State.raiseWith_stat_self {s : State} {c : FaultCap} {ev : Option EvRec} {q : Bool} (h : c.src < 64) :
    (s.raiseWith c ev q).faults.stat.getLsbD c.src = true := by
  rw [State.raiseWith_stat, Nat.mod_eq_of_lt h, BitVec.getLsbD_or, BitVec.getLsbD_ofNat, Nat.testBit_two_pow_self]
  simp [h]

/-- A raising leaves the status bits that are set (R375). -/
theorem State.raiseWith_stat_keeps {s : State} {n : Nat} (h : s.faults.stat.getLsbD n = true) (c : FaultCap) (ev : Option EvRec)
    (q : Bool) : (s.raiseWith c ev q).faults.stat.getLsbD n = true := by
  rw [State.raiseWith_stat, BitVec.getLsbD_or, h, Bool.true_or]

/-! ## Operations that run over numbered entries -/

theorem OnlyChanges.link_eq {ps : List Part} {s t : State} (h : OnlyChanges ps s t) (hp : Part.fabric ∉ ps) (l : Nat) :
    t.link l = s.link l := by
  have hf : t.fabric = s.fabric := h .fabric hp
  rw [State.link, State.link, hf]

theorem OnlyChanges.swarm_eq {ps : List Part} {s t : State} (h : OnlyChanges ps s t) (hp : Part.swarms ∉ ps) (n : Nat) :
    t.swarm n = s.swarm n := by
  have hs : t.swarms = s.swarms := h .swarms hp
  rw [State.swarm, State.swarm, hs]

/-- Reading entry `n` once `upd` has changed the entries listed, each once, by `f`. -/
theorem foldl_upd_get {β : Type} {get : State → Nat → β} {upd : State → Nat → State} {f : β → β}
    (hsame : ∀ t i, get (upd t i) i = f (get t i)) (hother : ∀ t i j, j ≠ i → get (upd t i) j = get t j) {l : List Nat}
    (hl : l.Nodup) (s : State) (n : Nat) : get (l.foldl upd s) n = if n ∈ l then f (get s n) else get s n := by
  induction l generalizing s with
  | nil => rfl
  | cons i r ih =>
    obtain ⟨hi, hr⟩ := List.nodup_cons.mp hl
    rw [List.foldl_cons, ih hr]
    by_cases hn : n = i
    · subst hn
      simp [hi, hsame]
    · simp [hn, hother _ _ _ hn]

/-! ## What a keeper reset clears (R30, R372) -/

/-- A link whose ephemeral keys are zeroised. -/
def Link.dropEphemeral (x : Link) : Link :=
  let x := if x.ephPriv = 0 then x else { x with ephPriv := 0, record := [] }
  match x.rekey with
  | some r => { x with rekey := some { r with priv := 0 } }
  | none => x

/-- The zeroised link has no ephemeral key; its state and the keys in use stay. -/
theorem Link.dropEphemeral_fields (x : Link) :
    x.dropEphemeral.ephPriv = 0 ∧ x.dropEphemeral.txKey = x.txKey ∧ x.dropEphemeral.rxKey = x.rxKey ∧
      x.dropEphemeral.state = x.state := by
  by_cases he : x.ephPriv = 0
  · cases hr : x.rekey <;> simp [Link.dropEphemeral, he, hr]
  · cases hr : x.rekey <;> simp [Link.dropEphemeral, he, hr]

/-- The seeds in swarm `n`'s input registers are zeroised. -/
def State.dropSeeds (s : State) (n : Nat) : State := s.setSwarm n { s.swarm n with seeds := [] }

theorem State.zeroiseKeeper_eq (s : State) :
    s.zeroiseKeeper = linkNos.foldl (fun t l => t.modLink l Link.dropEphemeral)
      ((List.range 4).foldl State.dropSeeds (s.modKeeper fun k => { k with drbg := none, drbgCalls := 0 })) := rfl

theorem State.foldl_dropSeeds_changes (l : List Nat) (s : State) : OnlyChanges [.swarms] s (l.foldl State.dropSeeds s) :=
  OnlyChanges.foldl _ (fun _ _ => State.setSwarm_changes _ _ _) l s (OnlyChanges.refl _ _)

theorem State.foldl_modLink_changes (f : Link → Link) (l : List Nat) (s : State) :
    OnlyChanges [.fabric] s (l.foldl (fun t i => t.modLink i f) s) :=
  OnlyChanges.foldl _ (fun _ _ => State.modLink_changes _ _ _) l s (OnlyChanges.refl _ _)

@[simp] theorem State.zeroiseKeeper_keeper (s : State) :
    s.zeroiseKeeper.keeper = { s.keeper with drbg := none, drbgCalls := 0 } := by
  rw [State.zeroiseKeeper_eq, State.foldl_modLink_changes _ _ _ .keeper (by decide),
    State.foldl_dropSeeds_changes _ _ .keeper (by decide), State.modKeeper_keeper]

theorem State.zeroiseKeeper_seeds (s : State) {n : Nat} (hn : n < 4) : (s.zeroiseKeeper.swarm n).seeds = [] := by
  have hseeds (t : State) : (((List.range 4).foldl State.dropSeeds t).swarm n) = { t.swarm n with seeds := [] } := by
    rw [foldl_upd_get (get := State.swarm) (upd := State.dropSeeds) (f := fun x => { x with seeds := [] })
      (fun t i => State.setSwarm_swarm_same _ _ _) (fun t i j hj => State.setSwarm_swarm_other _ _ hj) List.nodup_range,
      if_pos (List.mem_range.mpr hn)]
  rw [State.zeroiseKeeper_eq, (State.foldl_modLink_changes _ _ _).swarm_eq (by decide), hseeds]

theorem State.zeroiseKeeper_link (s : State) {l : Nat} (hl : l ∈ linkNos) :
    s.zeroiseKeeper.link l = (s.link l).dropEphemeral := by
  have hlinks (t : State) : (linkNos.foldl (fun t l => t.modLink l Link.dropEphemeral) t).link l = (t.link l).dropEphemeral := by
    rw [foldl_upd_get (get := State.link) (upd := fun t l => t.modLink l Link.dropEphemeral) (f := Link.dropEphemeral)
      (fun t i => State.modLink_link_same _ _ _) (fun t i j hj => State.modLink_link_other _ _ hj)
      (show linkNos.Nodup from List.nodup_range), if_pos hl]
  rw [State.zeroiseKeeper_eq, hlinks, (State.foldl_dropSeeds_changes _ _).link_eq (by decide), State.modKeeper_link]

@[simp] theorem State.endHeld_ftest (s : State) (f : Nat) (was : FrameState) : (s.endHeld f was).ftest = none := by
  rw [State.endHeld, State.backTo_changes _ f was .ftest (by decide), State.releaseFrame_changes _ f .ftest (by decide)]

@[simp] theorem State.endHeldTest_ftest (s : State) : s.endHeldTest.ftest = none := by
  unfold State.endHeldTest
  split
  · exact State.endHeld_ftest _ _ _
  · rfl

/-- The keeper's own registers as a reset leaves them: its verbs are interrupted, and their reads are nobody's (R30, R434). -/
def Keeper.interrupt (k : Keeper) : Keeper :=
  { k with
    verbs := k.verbs.map (fun v => { v with stage := .interrupted }), activating := false, quiesce := none, loaded := none,
    beat := 0, startCause := 2, phase := .auth, testsDone := false, relayMemo := [],
    kmq := k.kmq.map fun r => match r.owner with | .verb _ | .boot => { r with owner := .gone } | _ => r }

/-- No invalidation drains or waits: the verbs that asked for them are interrupted. -/
def Xlate.dropBatches (x : Xlate) : Xlate := { x with draining := [], waiting := [] }

/-- The state of a keeper reset before its boot ROM has run: what it gives up and zeroises (R30, R372, R434). -/
def State.keeperCleared (s : State) : State :=
  (s.draw.2.endHeldTest.zeroiseKeeper.modKeeper Keeper.interrupt).modXlate Xlate.dropBatches

theorem State.keeperCleared_changes (s : State) :
    OnlyChanges [.keeper, .ctxs, .frames, .swarms, .xlate, .fabric, .power, .ftest, .free] s s.keeperCleared :=
  ((((s.draw_changes.mono (by decide)).step (State.endHeldTest_changes _) (by decide)).step (State.zeroiseKeeper_changes _)
    (by decide)).step (State.modKeeper_changes _ _) (by decide)).step (State.modXlate_changes _ _) (by decide)

theorem State.keeperCleared_keeper (s : State) :
    s.keeperCleared.keeper = Keeper.interrupt { s.keeper with drbg := none, drbgCalls := 0 } := by
  rw [State.keeperCleared, State.modXlate_changes _ _ .keeper (by decide), State.modKeeper_keeper, State.zeroiseKeeper_keeper,
    State.endHeldTest_changes _ .keeper (by decide), State.draw_changes _ .keeper (by decide)]

theorem State.keeperCleared_xlate (s : State) : s.keeperCleared.xlate = s.xlate.dropBatches := by
  rw [State.keeperCleared, State.modXlate, State.modKeeper_xlate, State.zeroiseKeeper_changes _ .xlate (by decide),
    State.endHeldTest_changes _ .xlate (by decide), State.draw_changes _ .xlate (by decide)]

theorem State.keeperCleared_ftest (s : State) : s.keeperCleared.ftest = none := by
  rw [State.keeperCleared, State.modXlate_changes _ _ .ftest (by decide), State.modKeeper_ftest,
    State.zeroiseKeeper_changes _ .ftest (by decide), State.endHeldTest_ftest]

theorem State.keeperCleared_seeds (s : State) {n : Nat} (hn : n < 4) : (s.keeperCleared.swarm n).seeds = [] := by
  rw [State.keeperCleared, (State.modXlate_changes _ _).swarm_eq (by decide), State.modKeeper_swarm, State.zeroiseKeeper_seeds _ hn]

theorem State.keeperCleared_link (s : State) {l : Nat} (hl : l ∈ linkNos) :
    s.keeperCleared.link l = (s.link l).dropEphemeral := by
  rw [State.keeperCleared, (State.modXlate_changes _ _).link_eq (by decide), State.modKeeper_link, State.zeroiseKeeper_link _ hl,
    (State.endHeldTest_changes _).link_eq (by decide), s.draw_changes.link_eq (by decide)]

/-! ## The boot ROM after a keeper reset (R365, R434) -/

theorem State.keeperReset_eq (s : State) :
    s.keeperReset =
      if !Config.romTestsPass s.free then s.keeperCleared.romFailed
      else if s.keeperCleared.keeper.running.len = 0 then
        s.keeperCleared.modKeeper fun k => { k with state := 0, phase := .bootRom }
      else s.keeperCleared.bootStart .keeperReset s.keeperCleared.keeper.running.addr := rfl

@[simp] theorem State.keeperCleared_running (s : State) : s.keeperCleared.keeper.running = s.keeper.running := by
  rw [State.keeperCleared_keeper, Keeper.interrupt]

theorem State.keeperReset_of_tests_failed {s : State} (h : Config.romTestsPass s.free = false) :
    s.keeperReset = s.keeperCleared.romFailed := by
  rw [State.keeperReset_eq, h]
  rfl

theorem State.keeperReset_of_no_image {s : State} (h : Config.romTestsPass s.free = true) (hlen : s.keeper.running.len = 0) :
    s.keeperReset = s.keeperCleared.modKeeper fun k => { k with state := 0, phase := .bootRom } := by
  rw [State.keeperReset_eq, h, State.keeperCleared_running, if_pos hlen]
  rfl

theorem State.keeperReset_of_image {s : State} (h : Config.romTestsPass s.free = true) (hlen : s.keeper.running.len ≠ 0) :
    s.keeperReset = s.keeperCleared.bootStart .keeperReset s.keeper.running.addr := by
  rw [State.keeperReset_eq, h, State.keeperCleared_running, if_neg hlen]
  rfl

@[simp] theorem State.romFailed_keeper (s : State) :
    s.romFailed.keeper = { s.keeper with state := 3, phase := .bootRom, kbGo := false } := by
  rw [State.romFailed, State.raiseWith_keeper, State.modKeeper_keeper]

theorem State.romFailed_sec (s : State) :
    s.romFailed.sec = { passed := clearBit s.sec.passed 6, failed := setBit s.sec.failed 6 } := by
  rw [State.romFailed, State.raiseWith_sec]
  rfl

theorem State.romFailed_stat (s : State) : s.romFailed.faults.stat.getLsbD 47 = true :=
  State.raiseWith_stat_self (c := { src := 47, mid := 6, sub := 6 }) (by decide)

/-- What a keeper reset has cleared stays as it is while the boot ROM starts: only its own registers, its request and what a
failure raises differ. -/
def BootRomOnly (s t : State) : Prop :=
  t.keeper = { s.keeper with
    state := t.keeper.state, phase := t.keeper.phase, kbGo := t.keeper.kbGo, bootWhy := t.keeper.bootWhy,
    bootAddr := t.keeper.bootAddr, bootGot := t.keeper.bootGot, bootFail := t.keeper.bootFail, bootAsked := t.keeper.bootAsked,
    kmq := t.keeper.kmq } ∧
  OnlyChanges [.keeper, .frames, .faults, .sec, .snap, .recd] s t

theorem State.keeperReset_bootRomOnly (s : State) : BootRomOnly s.keeperCleared s.keeperReset := by
  cases h : Config.romTestsPass s.free with
  | false =>
    rw [State.keeperReset_of_tests_failed h]
    exact ⟨by rw [State.romFailed_keeper], State.romFailed_changes _⟩
  | true =>
    by_cases hlen : s.keeper.running.len = 0
    · rw [State.keeperReset_of_no_image h hlen]
      exact ⟨rfl, (State.modKeeper_changes _ _).mono (by decide)⟩
    · rw [State.keeperReset_of_image h hlen]
      exact ⟨rfl, (State.bootStart_changes _ _ _).mono (by decide)⟩

theorem State.keeperReset_changes_of_tests_pass {s : State} (h : Config.romTestsPass s.free = true) :
    OnlyChanges [.keeper, .ctxs, .frames, .swarms, .xlate, .fabric, .power, .ftest, .free] s s.keeperReset := by
  by_cases hlen : s.keeper.running.len = 0
  · rw [State.keeperReset_of_no_image h hlen]
    exact s.keeperCleared_changes.step (State.modKeeper_changes _ _) (by decide)
  · rw [State.keeperReset_of_image h hlen]
    exact s.keeperCleared_changes.step (State.bootStart_changes _ _ _) (by decide)

theorem exec_keeperReset {w : BitVec 32} {s : State} (hw : w.getLsbD 0 = true) (hs : s.cpAwake = true)
    (hon : s.keeper.phase ∉ [.off, .alwaysOn]) (hidle : s.keeper.startCause ≠ 2 ∨ s.keeper.state ≠ 1) :
    exec (.keeperReset w) s = .next s.keeperReset := by
  have hphase : (s.keeper.phase != .off && s.keeper.phase != .alwaysOn) = true := by simpa using hon
  have hrun : (decide (s.keeper.startCause = 2) && decide (s.keeper.state = 1)) = false := by
    rcases hidle with h | h
    · simp only [h, decide_false, Bool.false_and]
    · simp only [h, decide_false, Bool.and_false]
  change execKeeperReset w s = _
  simp only [execKeeperReset, State.kcWrite, hw, hs, hphase, hrun]
  rfl

/-! ## The beat (R30, R385, R472) -/

theorem exec_keeperBeatTimeout {s : State} (h : s.keeper.state = 2) :
    exec .keeperBeatTimeout s = .next (s.raise { src := 54 }) := by
  change execKeeperBeatTimeout s = _
  rw [execKeeperBeatTimeout, if_pos h]

theorem exec_keeperBeatTick {s : State} (h : s.keeper.state = 2) :
    exec .keeperBeatTick s = .next (s.modKeeper fun k => { k with beat := k.beat + 1 }).keeperEcc := by
  change execKeeperBeatTick s = _
  rw [execKeeperBeatTick, if_pos h]

theorem State.keeperEcc_of_no_flip {s : State} (h : s.faults.flipKeeper = 0) : s.keeperEcc = s := by
  rw [State.keeperEcc, h]
  rfl

/-- The capture of source 35 for a word of the keeper's memory with two flips. -/
def State.keeperEccCap (s : State) : FaultCap := { src := 35, sub := 1, addr := (Config.freeWord s.free).toNat % 2 ^ 32 }

/-- The capture of source 53 for the keeper that halts on it. -/
def State.keeperHaltCap (s : State) : FaultCap := { src := 53, addr := (Config.keeperPc s.free).toNat }

/-- Two flips in a word of the keeper's memory raise source 35 and halt the keeper, with source 53 (R385, R387). -/
theorem State.keeperEcc_of_two_flips {s : State} (h : s.faults.flipKeeper = 2) :
    s.keeperEcc = (((s.draw.2.modFaults fun f => { f with flipKeeper := 0 }).raise s.keeperEccCap).modKeeper fun k =>
      { k with state := 4 }).raise s.keeperHaltCap := by
  unfold State.keeperEcc
  rw [h]
  rfl

theorem State.keeperEcc_two_flips_outcome {s : State} (h : s.faults.flipKeeper = 2) :
    s.keeperEcc.keeper.state = 4 ∧ s.keeperEcc.faults.flipKeeper = 0 ∧ s.keeperEcc.faults.stat.getLsbD 35 = true ∧
      s.keeperEcc.faults.stat.getLsbD 53 = true := by
  have h35 (t : State) : (t.raiseWith s.keeperEccCap none).faults.stat.getLsbD 35 = true :=
    State.raiseWith_stat_self (c := s.keeperEccCap) (show 35 < 64 by decide)
  have h53 (t : State) : (t.raiseWith s.keeperHaltCap none).faults.stat.getLsbD 53 = true :=
    State.raiseWith_stat_self (c := s.keeperHaltCap) (show 53 < 64 by decide)
  rw [State.keeperEcc_of_two_flips h]
  generalize s.keeperEccCap = c35 at *
  generalize s.keeperHaltCap = c53 at *
  refine ⟨?_, ?_, State.raiseWith_stat_keeps ?_ _ _ _, h53 _⟩
  · rw [State.raise_keeper, State.modKeeper_keeper]
  · rw [State.raise, State.raiseWith_flipKeeper, State.modKeeper_faults, State.raise, State.raiseWith_flipKeeper,
      State.modFaults_faults]
  · rw [State.modKeeper_faults]
    exact h35 _

/-! ## The keeper memory port (R45, R476) -/

theorem find?_updateFirst {α : Type} {p : α → Bool} {f : α → α} (hf : ∀ x, p x = true → p (f x) = true) (l : List α) :
    (updateFirst p f l).find? p = (l.find? p).map f := by
  induction l with
  | nil => rfl
  | cons x r ih =>
    cases hx : p x with
    | true => simp [updateFirst, hx, hf x hx]
    | false => simp [updateFirst, hx, ih]

/-- The verb from `o` after a change that leaves its origin alone. -/
theorem State.modVerb_verb {s : State} {o : Origin} {f : VerbProg → VerbProg} {v : VerbProg} (h : s.verb o = some v)
    (hf : ∀ v, (f v).origin = v.origin) : (s.modVerb o f).verb o = some (f v) := by
  have hp : ∀ x : VerbProg, decide (x.origin = o) = true → decide ((f x).origin = o) = true := fun x hx => by rwa [hf]
  rw [State.verb] at h
  rw [State.verb, State.modVerb, State.modKeeper_keeper, find?_updateFirst hp, h, Option.map_some]

/-- A verb that has been brought `b`, the bytes of request `r`, or whose read has failed (R45). -/
def VerbProg.receive (v : VerbProg) (r : KmReq) (b : Bytes) (fail : Bool) : VerbProg :=
  { v with asked := alignDown 256 r.addr :: v.asked, readFail := v.readFail || fail,
           got := if fail then v.got else v.got.putBytes r.addr b }

theorem State.kmRead_of_verb {s : State} {r : KmReq} {o : Origin} {b : Bytes} (ho : r.owner = .verb o) (hb : b.length = r.len)
    (fail : Bool) : s.kmRead r b fail = s.modVerb o fun v => v.receive r b fail := by
  simp only [State.kmRead, ho, ← hb]
  rfl

/-- The oldest request has ended: those behind it wait on. -/
def State.popRequest (s : State) (rest : List KmReq) : State := s.modKeeper fun k => { k with kmq := rest, kmBuf := [] }

theorem exec_keeperMemoryResponse_of_beat {data : Bytes} {fail : Bool} {r : KmReq} {rest : List KmReq} {s : State}
    (h : s.keeper.kmq = r :: rest) :
    exec (.keeperMemoryResponse data false fail) s =
      .next (s.modKeeper fun k => { k with kmBuf := s.keeper.kmBuf ++ slice data 0 64 }) := by
  change execKeeperMemoryResponse data false fail s = _
  simp [execKeeperMemoryResponse, h]

theorem exec_keeperMemoryResponse_of_read {data : Bytes} {fail : Bool} {r : KmReq} {rest : List KmReq} {s : State}
    (h : s.keeper.kmq = r :: rest) (hr : r.write = false) :
    exec (.keeperMemoryResponse data true fail) s =
      .next ((s.popRequest rest).kmRead r (slice (s.keeper.kmBuf ++ slice data 0 64) (r.addr % 64) r.len) fail) := by
  change execKeeperMemoryResponse data true fail s = _
  simp [execKeeperMemoryResponse, h, hr, State.popRequest]

theorem exec_keeperMemoryResponse_of_write {data : Bytes} {fail : Bool} {r : KmReq} {rest : List KmReq} {s : State}
    (h : s.keeper.kmq = r :: rest) (hr : r.write = true) :
    exec (.keeperMemoryResponse data true fail) s = .next ((s.popRequest rest).kmWritten r fail) := by
  change execKeeperMemoryResponse data true fail s = _
  simp [execKeeperMemoryResponse, h, hr, State.popRequest]

/-- The last beat of a verb's read brings it the request's bytes, by address, or marks the read as failed (R45). -/
theorem keeperMemoryResponse_of_verb_read {data : Bytes} {fail : Bool} {r : KmReq} {rest : List KmReq} {s : State} {o : Origin}
    {v : VerbProg} (h : s.keeper.kmq = r :: rest) (hr : r.write = false) (ho : r.owner = .verb o) (hv : s.verb o = some v) :
    ∃ t u, exec (.keeperMemoryResponse data true fail) s = .next t ∧ t.verb o = some u ∧ t.keeper.kmq = rest ∧
      t.keeper.kmBuf = [] ∧ u.req = v.req ∧ u.stage = v.stage ∧ u.readFail = (v.readFail || fail) ∧
      u.asked = alignDown 256 r.addr :: v.asked ∧ (fail = true → u.got = v.got) ∧
      (fail = false → (∀ i, i < r.len → u.got.get 0 (r.addr + i) = (s.keeper.kmBuf ++ slice data 0 64).getD (r.addr % 64 + i) 0) ∧
        (∀ a, a < r.addr ∨ r.addr + r.len ≤ a → u.got.get 0 a = v.got.get 0 a)) ∧ OnlyChanges [.keeper] s t := by
  have hlen := slice_length (s.keeper.kmBuf ++ slice data 0 64) (r.addr % 64) r.len
  have hexec := exec_keeperMemoryResponse_of_read (data := data) (fail := fail) h hr
  rw [State.kmRead_of_verb ho hlen] at hexec
  refine ⟨_, _, hexec, State.modVerb_verb (s := s.popRequest rest) hv fun _ => rfl, rfl, rfl, rfl, rfl, rfl, rfl, ?_, ?_, ?_⟩
  · rintro rfl
    rfl
  · rintro rfl
    refine ⟨fun i hi => ?_, fun a ha => ?_⟩
    · rw [← slice_getD _ _ _ _ hi]
      exact Store.get_putBytes (by rwa [hlen])
    · exact Store.get_putBytes_of_outside (by rwa [hlen])
  · exact (State.modKeeper_changes _ _).trans (State.modVerb_changes _ _ _)

/-! ## The statement (R30, R365, R372, R434, R472, R476) -/

/-- What a keeper reset leaves, whatever the boot ROM's tests find. -/
theorem keeperReset_clears (s : State) :
    s.keeperReset.keeper.verbs = s.keeper.verbs.map (fun v => { v with stage := .interrupted }) ∧
      s.keeperReset.keeper.startCause = 2 ∧ s.keeperReset.keeper.beat = 0 ∧ s.keeperReset.keeper.drbg = none ∧
      s.keeperReset.keeper.idKey = s.keeper.idKey ∧ s.keeperReset.keeper.rung = s.keeper.rung ∧
      s.keeperReset.keeper.stackMap = s.keeper.stackMap ∧ s.keeperReset.xlate.roots = s.xlate.roots ∧
      s.keeperReset.ftest = none ∧ (∀ n < 4, (s.keeperReset.swarm n).seeds = []) ∧
      (∀ l ∈ linkNos, (s.keeperReset.link l).ephPriv = 0 ∧ (s.keeperReset.link l).txKey = (s.link l).txKey ∧
        (s.keeperReset.link l).rxKey = (s.link l).rxKey ∧ (s.keeperReset.link l).state = (s.link l).state) := by
  obtain ⟨hkeeper, hothers⟩ := s.keeperReset_bootRomOnly
  have hxlate : s.keeperReset.xlate = s.keeperCleared.xlate := hothers .xlate (by decide)
  have hftest : s.keeperReset.ftest = s.keeperCleared.ftest := hothers .ftest (by decide)
  rw [State.keeperCleared_keeper] at hkeeper
  refine ⟨(congrArg Keeper.verbs hkeeper :), (congrArg Keeper.startCause hkeeper :), (congrArg Keeper.beat hkeeper :),
    (congrArg Keeper.drbg hkeeper :), (congrArg Keeper.idKey hkeeper :), (congrArg Keeper.rung hkeeper :),
    (congrArg Keeper.stackMap hkeeper :), ?_, ?_, fun n hn => ?_, fun l hl => ?_⟩
  · rw [hxlate, State.keeperCleared_xlate]
    rfl
  · rw [hftest, State.keeperCleared_ftest]
  · rw [hothers.swarm_eq (by decide), State.keeperCleared_seeds _ hn]
  · rw [hothers.link_eq (by decide), State.keeperCleared_link _ hl]
    exact Link.dropEphemeral_fields _

/-- The image started last is loaded again; without one KB_GO is awaited (R434). -/
theorem keeperReset_loads {s : State} (h : Config.romTestsPass s.free = true) :
    (s.keeper.running.len ≠ 0 → s.keeperReset.keeper.state = 1 ∧ s.keeperReset.keeper.phase = .auth ∧
      s.keeperReset.keeper.bootAddr = s.keeper.running.addr) ∧
    (s.keeper.running.len = 0 → s.keeperReset.keeper.state = 0 ∧ s.keeperReset.keeper.phase = .bootRom) := by
  refine ⟨fun hlen => ?_, fun hlen => ?_⟩
  · rw [State.keeperReset_of_image h hlen]
    exact ⟨rfl, congrArg Keeper.phase s.keeperCleared_keeper, rfl⟩
  · rw [State.keeperReset_of_no_image h hlen]
    exact ⟨rfl, rfl⟩

/-- A boot ROM whose own tests fail ends the reset (R365, R367). -/
theorem keeperReset_fails {s : State} (h : Config.romTestsPass s.free = false) :
    s.keeperReset.keeper.state = 3 ∧ s.keeperReset.keeper.phase = .bootRom ∧ s.keeperReset.sec.failed.getLsbD 6 = true ∧
      s.keeperReset.sec.passed.getLsbD 6 = false ∧ s.keeperReset.faults.stat.getLsbD 47 = true := by
  rw [State.keeperReset_of_tests_failed h, State.romFailed_keeper, State.romFailed_sec]
  exact ⟨rfl, rfl, by simp [setBit], by simp [clearBit], State.romFailed_stat _⟩

/-- Settles O29: the three outcomes of a reset share what `keeperReset_clears` says; the beat and the memory port are the
equations above. -/
theorem keeperResetsAndItsMemoryAnswers : Obligations.KeeperResetsAndItsMemoryAnswers := by
  refine ⟨⟨fun w s hw hs hon hidle => ?_, fun s => exec_keeperBeatTimeout, fun s hst hflip => ?_, fun s hst hflip => ?_⟩,
    fun data fail r rest s hq => ⟨exec_keeperMemoryResponse_of_beat hq, fun o v => keeperMemoryResponse_of_verb_read hq,
      fun hr ho => ?_⟩⟩
  · obtain ⟨hverbs, hcause, hbeat, hdrbg, hid, hrung, hmap, hroots, hftest, hseeds, hlinks⟩ := keeperReset_clears s
    refine ⟨_, exec_keeperReset hw hs hon hidle, hverbs, hcause, hbeat, hdrbg, hid, hrung, hmap, hroots, hftest, hseeds, hlinks,
      fun hpass => ?_, keeperReset_fails⟩
    obtain ⟨himage, hwait⟩ := keeperReset_loads hpass
    exact ⟨himage, hwait, State.keeperReset_changes_of_tests_pass hpass⟩
  · rw [exec_keeperBeatTick hst, State.keeperEcc_of_no_flip (by simpa using hflip)]
    rfl
  · exact ⟨_, exec_keeperBeatTick hst, State.keeperEcc_two_flips_outcome (by simpa using hflip)⟩
  · rw [exec_keeperMemoryResponse_of_write hq hr, State.kmWritten, ho]
    rfl

end Sys2Proof.Machine

/-! # Proofs: context verbs that open, close, ask and configure (R32, R46 to R48, R53, R82, R327)

The ends of verbs and of drains first, for an origin of either kind, and the guard of a verb that names a context; then the
verbs. -/
namespace Sys2Proof.Machine

/-! ## What an operation that leaves a part alone leaves readable -/

theorem OnlyChanges.ctx_eq {ps : List Part} {s t : State} (h : OnlyChanges ps s t) (hp : Part.ctxs ∉ ps) (c : CtxNo) :
    t.ctx c = s.ctx c := by
  have hc : t.ctxs = s.ctxs := h .ctxs hp
  rw [State.ctx, State.ctx, hc]

theorem OnlyChanges.verb_eq {ps : List Part} {s t : State} (h : OnlyChanges ps s t) (hp : Part.keeper ∉ ps) (o : Origin) :
    t.verb o = s.verb o := by
  have hk : t.keeper = s.keeper := h .keeper hp
  rw [State.verb, State.verb, hk]

/-! ## The end of a verb, from whichever origin (R24, R28, R37) -/

theorem State.origin_of_verb {s : State} {o : Origin} {v : VerbProg} (h : s.verb o = some v) : v.origin = o := by
  simpa using List.find?_some h

@[simp] theorem State.finish_ctx (s : State) (v : VerbProg) (st d : Nat) (res : Bytes) (c : CtxNo) :
    (s.finish v st d res).ctx c = s.ctx c :=
  (s.finish_changes v st d res).ctx_eq (by decide) c

theorem State.relayRespond_verbs (s : State) (chip : ChipNo) (seq : BitVec 32) (resp : Bytes) :
    (s.relayRespond chip seq resp).keeper.verbs = s.keeper.verbs := by
  rw [State.relayRespond, State.sendMsg_changes _ _ .keeper (by decide)]
  rfl

/-- The verb that ends is in progress no longer; the others are. -/
theorem State.finish_verbs (s : State) (v : VerbProg) (st d : Nat) (res : Bytes) :
    (s.finish v st d res).keeper.verbs = s.keeper.verbs.filter (·.origin ≠ v.origin) := by
  have hlog : (s.logVerb v st d).keeper.verbs = s.keeper.verbs := by rw [State.logVerb_keeper]
  rw [← hlog]
  cases ho : v.origin with
  | mbox m =>
    rw [State.finish_of_mbox ho]
    rfl
  | relay chip =>
    have hend : s.finish v st d res = ((s.logVerb v st d).modKeeper fun k => k.endVerb v.origin).relayRespond chip
        (reqSeq v.req) (responseBytes s v st d res) := by
      cases v
      cases ho
      rfl
    rw [hend, State.relayRespond_verbs, ho]
    rfl

/-- No verb from an origin is in progress once the one that was has ended. -/
theorem State.finish_verb {v : VerbProg} {o : Origin} (ho : v.origin = o) (s : State) (st d : Nat) (res : Bytes) :
    (s.finish v st d res).verb o = none := by
  simp [State.verb, State.finish_verbs, ho]

/-! ## A verb whose drain ends (R34) -/

theorem Waits.verb_eq {s : State} {o : Origin} {code : Nat} {v : VerbProg} (h : Waits s o code v) : s.verb o = some v := by
  simp only [Waits, State.verbAt] at h
  split at h
  · rename_i w hw
    split at h
    · rw [hw, h]
    · cases h
  · cases h

/-- What the end of a drain does, for a command that runs it. -/
theorem next_runDrained_of_waits {s t : State} {o : Origin} {code : Nat} {v : VerbProg} {f : VerbProg → State}
    (h : Waits s o code v) (hf : f v = t) :
    (.next (s.runDrained o code f) : Host.Outcome State Fault Refusal) = .next t := by
  rw [Waits] at h
  simp [State.runDrained, h, hf]

/-! ## The context that a verb names (R32, R385) -/

/-- The context that byte 16 of a request names (R43). -/
abbrev VerbProg.ctxNo (v : VerbProg) : CtxNo := BitVec.ofNat 18 (par v.req 16 4)

theorem Ctx.isOpen_iff (x : Ctx) : x.isOpen = true ↔ x.state ≠ .closed := by simp [Ctx.isOpen]

theorem Ctx.atRest_iff (x : Ctx) : x.atRest = true ↔ x.state ∈ [CtxState.idle, .paused, .stopped] := by
  simp [Ctx.atRest, or_assoc]

/-- A context in a state other than Closed is open. -/
theorem Ctx.isOpen_of_atRest {x : Ctx} (h : x.atRest = true) : x.isOpen = true := by
  rw [Ctx.isOpen_iff]
  rintro hs
  simp [Ctx.atRest, hs] at h

theorem State.onCtx_of_closed {s : State} {o : Origin} {c : CtxNo} {f : Ctx → State} (h : (s.ctx c).isOpen = false) :
    s.onCtx o c f = s.verbDone o kNoObject 16 := by
  simp [State.onCtx, h]

theorem State.onCtx_of_open {s : State} {o : Origin} {c : CtxNo} {f : Ctx → State} (h : (s.ctx c).isOpen = true)
    (hact : s.mayAct o (s.ctx c).tenant = true) (hd : (s.ctx c).damaged = 0) : s.onCtx o c f = f (s.ctx c) := by
  simp [State.onCtx, h, hact, hd]

theorem State.onAnyCtx_of_closed {s : State} {o : Origin} {c : CtxNo} {f : Ctx → State} (h : (s.ctx c).isOpen = false) :
    s.onAnyCtx o c f = s.verbDone o kNoObject 16 := by
  simp [State.onAnyCtx, h]

theorem State.onAnyCtx_of_open {s : State} {o : Origin} {c : CtxNo} {f : Ctx → State} (h : (s.ctx c).isOpen = true)
    (hact : s.mayAct o (s.ctx c).tenant = true) : s.onAnyCtx o c f = f (s.ctx c) := by
  simp [State.onAnyCtx, h, hact]

/-- A verb that completes once it has replaced a context. -/
theorem Turn.verbDone_setCtx {s : State} {o : Origin} {code : Nat} {v : VerbProg} (h : Turn s o code v) (c : CtxNo) (x : Ctx)
    (st d : Nat) (res : Bytes) : (s.setCtx c x).verbDone o st d res = (s.setCtx c x).finish v st d res :=
  State.verbDone_of_verb (by rw [State.setCtx_verb, h.verb_eq]) st d res

/-! ## Opening a context (R46, R48) -/

theorem exec_ctxOpen_of_open {o : Origin} {v : VerbProg} {s : State} (h : Turn s o 0x0300 v)
    (hopen : (s.ctx v.ctxNo).isOpen = true) :
    exec (.ctxOpen o) s = .next (if s.mayAct o (s.ctx v.ctxNo).tenant then s.finish v kBusy 16 []
      else s.refuseTenant o) := by
  refine next_runVerb_of_turn h ?_
  simp [hopen, h.verbDone_eq]

/-- An image that has been read is judged (R48). -/
theorem exec_ctxOpen_of_read {o : Origin} {v : VerbProg} {b : Bytes} {s : State} (h : Turn s o 0x0300 v)
    (hopen : (s.ctx v.ctxNo).isOpen = false) (hread : HasRead s v (par v.req 24 8) 64 64 b) :
    exec (.ctxOpen o) s = .next (s.openCtx o v.ctxNo b) := by
  refine next_runVerb_of_turn h ?_
  simp [hopen, State.withStruct_of_hasRead hread]

/-- An origin that may not act on an object acts for a tenant. -/
theorem State.originPriv_of_not_mayAct {s : State} {o : Origin} {t : Tenant} (h : s.mayAct o t = false) :
    originPriv o = false := by
  rw [State.mayAct, Bool.or_eq_false_iff] at h
  exact h.1

theorem State.openCtx_of_not_mayAct {s : State} {o : Origin} {c : CtxNo} {b : Bytes}
    (h : s.mayAct o (parseCtx b).tenant = false) : s.openCtx o c b = s.refuseTenant o := by
  simp [State.openCtx, h, State.originPriv_of_not_mayAct h]

theorem State.openCtx_of_offence {s : State} {o : Origin} {c : CtxNo} {b : Bytes} {i : Nat}
    (hact : s.mayAct o (parseCtx b).tenant = true) (hi : s.ctxOffence o b = some i) :
    s.openCtx o c b = s.verbDone o kBadParam (0x0100 + i) := by
  simp [State.openCtx, hact, hi]

/-- What the opening does with an image that passes every check. -/
theorem State.openCtx_of_sound {s : State} {o : Origin} {c : CtxNo} {b : Bytes}
    (hact : s.mayAct o (parseCtx b).tenant = true) (hno : s.ctxOffence o b = none) :
    s.openCtx o c b =
      if !s.sec.passed.getLsbD 0 && !s.sec.passed.getLsbD 1 then s.verbDone o kNotReady 0
      else if !s.domainOn (48 + ctxBank c) || !s.tallyOn then (s.powerUp (48 + ctxBank c)).powerUp 61
      else ((s.setCtx c (parseCtx b)).recordWritten c).verbDone o kOK 0 := by
  simp [State.openCtx, hact, hno]

theorem State.recordWritten_of_no_flip {s : State} {c : CtxNo} (h : s.faults.flipCtx = 0) : s.recordWritten c = s := by
  simp [State.recordWritten, h]

/-- An image with no offending byte names an empty ring (R48). -/
theorem State.parseCtx_ring_empty {s : State} {o : Origin} {b : Bytes} (h : s.ctxOffence o b = none) :
    (parseCtx b).tail = (parseCtx b).doneIdx ∧ (parseCtx b).fetchIdx = (parseCtx b).doneIdx := by
  simp only [State.ctxOffence, List.min?_eq_none_iff, List.append_eq_nil_iff, ite_eq_right_iff, List.cons_ne_nil, imp_false,
    decide_eq_true_eq, ne_eq, not_not] at h
  grind


/-- An image that passes every check, once an expander has passed its test: the bank and the tally unit come first (R46, R48). -/
theorem exec_ctxOpen_of_sound {o : Origin} {v : VerbProg} {b : Bytes} {s : State} (h : Turn s o 0x0300 v)
    (hopen : (s.ctx v.ctxNo).isOpen = false) (hread : HasRead s v (par v.req 24 8) 64 64 b)
    (hact : s.mayAct o (parseCtx b).tenant = true) (hno : s.ctxOffence o b = none)
    (hpass : s.sec.passed.getLsbD 0 = true ∨ s.sec.passed.getLsbD 1 = true) :
    let c := v.ctxNo
    (s.domainOn (48 + ctxBank c) = false ∨ s.tallyOn = false →
      exec (.ctxOpen o) s = .next ((s.powerUp (48 + ctxBank c)).powerUp 61)) ∧
    (s.domainOn (48 + ctxBank c) = true → s.tallyOn = true → s.faults.flipCtx = 0 →
      exec (.ctxOpen o) s = .next ((s.setCtx c (parseCtx b)).finish v kOK 0 [])) := by
  intro c
  have htested : (!s.sec.passed.getLsbD 0 && !s.sec.passed.getLsbD 1) = false := by
    rw [← Bool.not_or, Bool.not_eq_false', Bool.or_eq_true]
    exact hpass
  rw [exec_ctxOpen_of_read h hopen hread, State.openCtx_of_sound hact hno, htested]
  constructor
  · intro hoff
    have hwait : (!s.domainOn (48 + ctxBank c) || !s.tallyOn) = true := by
      rw [← Bool.not_and, Bool.not_eq_true', Bool.and_eq_false_iff]
      exact hoff
    simp [c, hwait]
  · intro hbank htally hflip
    have hset : (s.setCtx c (parseCtx b)).recordWritten c = s.setCtx c (parseCtx b) := State.recordWritten_of_no_flip hflip
    simp [c, hbank, htally, hset, h.verbDone_setCtx]

/-! ## Closing a context (R53) -/

@[simp] theorem State.zeroSlotsOf_ctx (s : State) (c d : CtxNo) : (s.zeroSlotsOf c).ctx d = s.ctx d := rfl

@[simp] theorem State.zeroSlotsOf_verb (s : State) (c : CtxNo) (o : Origin) : (s.zeroSlotsOf c).verb o = s.verb o := rfl

theorem exec_ctxClose_of_closed {o : Origin} {v : VerbProg} {s : State} (h : Turn s o 0x0301 v)
    (hclosed : (s.ctx v.ctxNo).isOpen = false) :
    exec (.ctxClose o) s = .next (s.finish v kNoObject 16 []) := by
  refine next_runVerb_of_turn h ?_
  rw [State.onAnyCtx_of_closed hclosed, h.verbDone_eq]

/-- A context that is not at rest, or feeds an open swarm, stays open (R53). -/
theorem exec_ctxClose_of_busy {o : Origin} {v : VerbProg} {s : State} (h : Turn s o 0x0301 v)
    (hopen : (s.ctx v.ctxNo).isOpen = true)
    (hact : s.mayAct o (s.ctx v.ctxNo).tenant = true)
    (hbusy : (!(s.ctx v.ctxNo).atRest ||
      s.swarms.any fun e => e.2.isOpen && e.2.src == v.ctxNo) = true) :
    exec (.ctxClose o) s = .next (s.finish v kBusy 16 []) := by
  refine next_runVerb_of_turn h ?_
  rw [State.onAnyCtx_of_open hopen hact, if_pos hbusy, h.verbDone_eq]

theorem exec_ctxClose_of_free {o : Origin} {v : VerbProg} {s : State} (h : Turn s o 0x0301 v)
    (hact : s.mayAct o (s.ctx v.ctxNo).tenant = true)
    (hrest : (s.ctx v.ctxNo).atRest = true)
    (hfeeds : (s.swarms.any fun e => e.2.isOpen && e.2.src == v.ctxNo) = false)
    (hworks : (s.ctx v.ctxNo).works = [])
    (hposts : (s.ctx v.ctxNo).posts = []) :
    exec (.ctxClose o) s = .next (((s.zeroSlotsOf v.ctxNo).setCtx
      v.ctxNo {}).finish v kOK 0 []) := by
  refine next_runVerb_of_turn h ?_
  rw [State.onAnyCtx_of_open (Ctx.isOpen_of_atRest hrest) hact, hrest, hfeeds, hworks, hposts]
  exact State.verbDone_of_verb (by rw [State.setCtx_verb, State.zeroSlotsOf_verb, h.verb_eq]) _ _ _

/-- Settles O21: each outcome of ctx.open and of ctx.close is one of the equations above. -/
theorem contextsOpenAndClose : Obligations.ContextsOpenAndClose := by
  constructor
  · intro o v b s h c
    refine ⟨fun hopen hact => ?_, fun hopen hact => ?_, fun hopen hread hact => ?_, fun hopen hread hact =>
      ⟨fun i hi => ?_, fun hno => ⟨fun h0 h1 => ?_, fun hpass => ?_⟩⟩⟩
    · rw [exec_ctxOpen_of_open h hopen, if_pos hact]
    · rw [exec_ctxOpen_of_open h hopen, hact]
      rfl
    · rw [exec_ctxOpen_of_read h hopen hread, State.openCtx_of_not_mayAct hact]
    · rw [exec_ctxOpen_of_read h hopen hread, State.openCtx_of_offence hact hi, h.verbDone_eq]
    · rw [exec_ctxOpen_of_read h hopen hread, State.openCtx_of_sound hact hno, h0, h1, ← h.verbDone_eq]
      rfl
    · obtain ⟨hwait, hset⟩ := exec_ctxOpen_of_sound h hopen hread hact hno hpass
      exact ⟨hwait, fun hbank htally hflip => ⟨hset hbank htally hflip, rfl, State.parseCtx_ring_empty hno⟩⟩
  · intro o v s h c x feeds
    refine ⟨exec_ctxClose_of_closed h, fun hopen hact hbusy => exec_ctxClose_of_busy h hopen hact ?_,
      fun hact hrest hfeeds hworks hposts => ⟨?_, ?_, fun d hd => ?_⟩⟩
    · rw [Bool.or_eq_true, Bool.not_eq_true', ← Bool.not_eq_true, Ctx.atRest_iff]
      exact hbusy
    · exact exec_ctxClose_of_free h hact ((Ctx.atRest_iff _).mpr hrest) hfeeds hworks hposts
    · rw [State.finish_ctx, State.setCtx_ctx_same]
    · rw [State.finish_ctx, State.setCtx_ctx_other _ _ hd, State.zeroSlotsOf_ctx]

/-! ## Asking about a context, its rate and its tally map (R47, R82, R327) -/

theorem Ctx.record_length (x : Ctx) : x.record.length = 64 := by
  simp [Ctx.record, Ctx.words, List.range_succ]

/-- A result of bytes is packed as it is (R24). -/
theorem results_bytes (b : Bytes) : results [(1, b)] = b := by simp [results, packResults, alignUp, zeros]

/-- A result of one 4 B number is packed as it is (R24). -/
theorem results_word (b : Bytes) : results [(4, b)] = b := by simp [results, packResults, alignUp, zeros]

theorem exec_ctxQuery_of_open {o : Origin} {v : VerbProg} {s : State} (h : Turn s o 0x0305 v)
    (hopen : (s.ctx v.ctxNo).isOpen = true)
    (hact : s.mayAct o (s.ctx v.ctxNo).tenant = true) :
    exec (.ctxQuery o) s = .next (s.finish v kOK 0 (s.ctx v.ctxNo).record) := by
  refine next_runVerb_of_turn h ?_
  rw [State.onAnyCtx_of_open hopen hact, results_bytes, h.verbDone_eq]

theorem exec_ctxQuery_of_closed {o : Origin} {v : VerbProg} {s : State} (h : Turn s o 0x0305 v)
    (hclosed : (s.ctx v.ctxNo).isOpen = false) :
    exec (.ctxQuery o) s = .next (s.finish v kNoObject 16 []) := by
  refine next_runVerb_of_turn h ?_
  rw [State.onAnyCtx_of_closed hclosed, h.verbDone_eq]

theorem exec_ctxRate {o : Origin} {v : VerbProg} {s : State} (h : Turn s o 0x0306 v)
    (hopen : (s.ctx v.ctxNo).isOpen = true)
    (hact : s.mayAct o (s.ctx v.ctxNo).tenant = true)
    (hd : (s.ctx v.ctxNo).damaged = 0) :
    exec (.ctxRate o) s = .next ((s.setCtx v.ctxNo
      { s.ctx v.ctxNo with rateShare := BitVec.ofNat 9 (par v.req 20 2) }).finish v kOK 0 []) := by
  refine next_runVerb_of_turn h ?_
  rw [State.onCtx_of_open hopen hact hd]
  exact h.verbDone_setCtx _ _ _ _ _

/-- tally.virt needs a context at rest (R327). -/
theorem exec_tallyVirt_of_busy {o : Origin} {v : VerbProg} {s : State} (h : Turn s o 0x0700 v)
    (hopen : (s.ctx v.ctxNo).isOpen = true)
    (hact : s.mayAct o (s.ctx v.ctxNo).tenant = true)
    (hd : (s.ctx v.ctxNo).damaged = 0)
    (hbusy : (s.ctx v.ctxNo).atRest = false) :
    exec (.tallyVirt o) s = .next (s.finish v kBusy 16 []) := by
  refine next_runVerb_of_turn h ?_
  rw [State.onCtx_of_open hopen hact hd, ← Ctx.atRest, hbusy, h.verbDone_eq]
  rfl

/-- What tally.virt does with a map that it has read: it refuses the first entry that is not in order, else the map is the
context's. -/
theorem exec_tallyVirt_of_read {o : Origin} {v : VerbProg} {b : Bytes} {s : State} (h : Turn s o 0x0700 v)
    (hact : s.mayAct o (s.ctx v.ctxNo).tenant = true)
    (hd : (s.ctx v.ctxNo).damaged = 0)
    (hrest : (s.ctx v.ctxNo).atRest = true) (hread : HasRead s v (par v.req 24 8) 128 128 b) :
    let c := v.ctxNo
    (∀ i, s.mapOffence (s.ctx c) b = some i → exec (.tallyVirt o) s = .next (s.finish v kBadParam (0x0100 + 2 * i) [])) ∧
    (s.mapOffence (s.ctx c) b = none → (s.ctx c).vmap ≠ none ∨ (s.ctxs.filter fun e => e.2.vmap.isSome).length < 256 →
      exec (.tallyVirt o) s = .next ((s.setCtx c { s.ctx c with
        vmap := some ((List.range 64).map fun i => BitVec.ofNat 16 (leAt b (2 * i) 2)), tallyVirt := true }).finish v kOK 0 [])) := by
  intro c
  refine ⟨fun i hi => next_runVerb_of_turn h ?_, fun hno hroom => next_runVerb_of_turn h ?_⟩
  · rw [State.onCtx_of_open (Ctx.isOpen_of_atRest hrest) hact hd, ← Ctx.atRest, hrest, State.withStruct_of_hasRead hread, hi,
      ← h.verbDone_eq]
    rfl
  · have hfree : ((s.ctx c).vmap.isNone && 256 ≤ (s.ctxs.filter fun e => e.2.vmap.isSome).length) = false := by
      rcases hroom with hmap | hlen
      · rw [Option.isNone_eq_false_iff.mpr (Option.isSome_iff_ne_none.mpr hmap), Bool.false_and]
      · rw [decide_eq_false (Nat.not_le.mpr hlen), Bool.and_false]
    rw [State.onCtx_of_open (Ctx.isOpen_of_atRest hrest) hact hd, ← Ctx.atRest, hrest, State.withStruct_of_hasRead hread, hno,
      hfree]
    exact h.verbDone_setCtx _ _ _ _ _

/-- Settles O24: one equation per verb and outcome; the record is eight words of 8 B. -/
theorem contextQueryRateAndMap : Obligations.ContextQueryRateAndMap := by
  intro o v b s c x
  refine ⟨fun h hopen hact => ⟨exec_ctxQuery_of_open h hopen hact, x.record_length⟩, exec_ctxQuery_of_closed, exec_ctxRate,
    fun h hact hd => ⟨fun hbusy => ?_, fun hrest hread => ?_⟩⟩
  · have hopen : x.isOpen = true := (Ctx.isOpen_iff x).mpr fun hs => hbusy (by simp [hs])
    refine exec_tallyVirt_of_busy h hopen hact hd (Bool.eq_false_iff.mpr fun hrest => hbusy ?_)
    exact List.mem_cons_of_mem _ ((Ctx.atRest_iff x).mp hrest)
  · exact exec_tallyVirt_of_read h hact hd ((Ctx.atRest_iff x).mpr hrest) hread

end Sys2Proof.Machine

/-! # Proofs: how contexts wait and run on (R52, R64 to R70, R335 to R337, R473)

What arming, disarming, unbinding and a move to Ready leave in a context and in the Ready queues; from that WAIT and its end,
knocks and watch polls. -/
namespace Sys2Proof.Machine

/-! ## A descriptor in progress changed -/

@[simp] theorem State.modWork_ctx_same (s : State) (c : CtxNo) (id : Nat) (f : Work → Work) :
    (s.modWork c id f).ctx c =
      { s.ctx c with works := updateFirst (fun w => decide (w.id = id)) f (s.ctx c).works } :=
  State.modCtx_ctx_same _ _ _

/-- The oldest descriptor changed. -/
theorem State.modWork_head {s : State} {c : CtxNo} {w : Work} {rest : List Work} (h : (s.ctx c).works = w :: rest)
    (f : Work → Work) : s.modWork c w.id f = s.setCtx c { s.ctx c with works := f w :: rest } := by
  simp [State.modWork, State.modCtx, h, updateFirst]

/-! ## Ready queues (R68) -/

theorem State.mem_readyQ_enqueue (s : State) (c : CtxNo) : c ∈ (s.enqueue c).readyQ.get [] (s.ctx c).basePrio.toNat := by
  by_cases h : c ∈ s.readyQ.get [] (s.ctx c).basePrio.toNat <;> simp [State.enqueue, h]

/-- A context that becomes Ready joins the Ready queue of its priority. -/
theorem State.mem_readyQ_toState {s : State} {c : CtxNo} (h : (s.ctx c).state ≠ .ready) :
    c ∈ (s.toState c .ready).readyQ.get [] (s.ctx c).basePrio.toNat := by
  have hq : (s.toState c .ready).readyQ = (s.enqueue c).readyQ := by simp [State.toState, h]
  rw [hq]
  exact s.mem_readyQ_enqueue c

theorem State.toState_ctxs (s : State) (c : CtxNo) (st : CtxState) :
    (s.toState c st).ctxs = s.ctxs.set {} c.toNat { s.ctx c with state := st } := by
  simp only [State.toState]
  split <;> split <;> rfl

/-! ## Disarming and unbinding (R68, R335) -/

@[simp] theorem State.disarm_ctx_same (s : State) (c : CtxNo) :
    (s.disarm c).ctx c = { s.ctx c with waitTally := 0, waitValue := 0, sharedWait := false } := by
  rw [State.disarm, State.lendLower_ctx, State.modCtx_ctx_same]

theorem State.disarm_ctx_other (s : State) {c d : CtxNo} (h : d ≠ c) : (s.disarm c).ctx d = s.ctx d := by
  rw [State.disarm, State.lendLower_ctx, State.modCtx_ctx_other _ _ h]

/-- A context once it has left its channel, if it was bound: its fetched entries are dropped (R68, R85). -/
def Ctx.unbound (x : Ctx) : Ctx :=
  if x.bound then { x with bound := false, channel := 0, held := [], leave := .no } else x

theorem State.unbind_ctx_same (s : State) (c : CtxNo) : (s.unbind c).ctx c = (s.ctx c).unbound := by
  cases h : (s.ctx c).bound with
  | false => simp [State.unbind_of_not_bound h, Ctx.unbound, h]
  | true => simp [State.unbind_of_bound h, Ctx.unbound, h]

section
variable (x : Ctx)

/-- What leaving a channel keeps of a context. -/
theorem Ctx.unbound_eq : x.unbound = { x with
    bound := false, channel := x.unbound.channel, held := x.unbound.held, leave := x.unbound.leave } := by
  cases h : x.bound with
  | false =>
    cases x
    cases h
    rfl
  | true => rw [Ctx.unbound, h, if_pos rfl]

@[simp] theorem Ctx.unbound_bound : x.unbound.bound = false := by rw [x.unbound_eq]
@[simp] theorem Ctx.unbound_state : x.unbound.state = x.state := by rw [x.unbound_eq]
@[simp] theorem Ctx.unbound_tail : x.unbound.tail = x.tail := by rw [x.unbound_eq]
@[simp] theorem Ctx.unbound_doneIdx : x.unbound.doneIdx = x.doneIdx := by rw [x.unbound_eq]
@[simp] theorem Ctx.unbound_fetchIdx : x.unbound.fetchIdx = x.fetchIdx := by rw [x.unbound_eq]
@[simp] theorem Ctx.unbound_part : x.unbound.part = x.part := by rw [x.unbound_eq]
@[simp] theorem Ctx.unbound_cursor : x.unbound.cursor = x.cursor := by rw [x.unbound_eq]
@[simp] theorem Ctx.unbound_crcPartial : x.unbound.crcPartial = x.crcPartial := by rw [x.unbound_eq]
@[simp] theorem Ctx.unbound_kept : x.unbound.kept = x.kept := by rw [x.unbound_eq]
@[simp] theorem Ctx.unbound_works : x.unbound.works = x.works := by rw [x.unbound_eq]
@[simp] theorem Ctx.unbound_waitTally : x.unbound.waitTally = x.waitTally := by rw [x.unbound_eq]
@[simp] theorem Ctx.unbound_waitValue : x.unbound.waitValue = x.waitValue := by rw [x.unbound_eq]

end

/-! ## Shared wait entries (R335) -/

/-- Rewriting an entry that a count leaves out by one that it leaves out too changes no count. -/
theorem Store.length_filter_insert {α : Type} {d : α} {q : α → Bool} {m : Store α} {i : Nat} {v : α} (hv : q v = false)
    (hm : q (m.get d i) = false) :
    ((m.insert i v).filter fun e => q e.2).length = (m.filter fun e => q e.2).length := by
  induction m with
  | nil => simp [Store.insert, hv]
  | cons e r ih =>
    obtain ⟨k, w⟩ := e
    by_cases hlt : i < k
    · simp [Store.insert, hlt, hv]
    · by_cases hk : k = i
      · have hw : q w = false := by simpa [Store.get, hk] using hm
        simp [Store.insert, hk, hv, hw]
      · have hr := ih (by simpa [Store.get, hk] using hm)
        cases hw : q w <;> simp [Store.insert, hlt, hk, hw, hr]

/-- A context that holds no shared entry before and after takes and frees none. -/
theorem State.waitEntryFree_of_ctxs {s t : State} {c : CtxNo} {x : Ctx} (ht : t.ctxs = s.ctxs.set {} c.toNat x) (hx : x ≠ {})
    (hold : (s.ctx c).sharedWait = false) (hnew : x.sharedWait = false) : t.waitEntryFree = s.waitEntryFree := by
  rw [State.waitEntryFree, State.waitEntryFree, ht, Store.set, if_neg hx,
    Store.length_filter_insert (q := Ctx.sharedWait) hnew hold]

/-! ## WAIT (R70, R335, R336) -/

/-- The state in which a context has entered Waiting with a tally and a value. -/
def State.armed (s : State) (c : CtxNo) (t : TallyNo × Word) : State :=
  (s.toState c .waiting).modCtx c fun x => { x with waitTally := t.1, waitValue := t.2 }

@[simp] theorem State.armed_ctx_same (s : State) (c : CtxNo) (t : TallyNo × Word) :
    (s.armed c t).ctx c = { s.ctx c with state := .waiting, waitTally := t.1, waitValue := t.2 } := by
  simp [State.armed]

theorem State.armed_waitEntryFree {s : State} {c : CtxNo} (t : TallyNo × Word) (h : (s.ctx c).sharedWait = false) :
    (s.armed c t).waitEntryFree = s.waitEntryFree := by
  have hmoved : (s.toState c .waiting).waitEntryFree = s.waitEntryFree :=
    State.waitEntryFree_of_ctxs (s.toState_ctxs c .waiting) (fun he => by simpa using congrArg Ctx.state he) h h
  rw [← hmoved]
  exact State.waitEntryFree_of_ctxs (c := c) rfl (fun he => by simpa using congrArg Ctx.state he) (by simpa using h)
    (by simpa using h)

theorem State.waitUnmet_of_not_desched {s : State} {c : CtxNo} (t : TallyNo × Word) (h : (s.ctx c).desched = false) :
    s.waitUnmet c t = s.armed c t := by
  have hd : ((s.armed c t).ctx c).desched = false := by simpa using h
  unfold State.armed at hd
  simp only [State.waitUnmet, hd]
  rfl

theorem State.waitUnmet_of_entry {s : State} {c : CtxNo} (t : TallyNo × Word) (h : (s.ctx c).desched = true)
    (hw : (s.ctx c).sharedWait = false) (hfree : s.waitEntryFree = true) :
    s.waitUnmet c t = ((s.armed c t).unbind c).modCtx c fun x => { x with sharedWait := true, works := [] } := by
  have hd : ((s.armed c t).ctx c).desched = true := by simpa using h
  have hf : (s.armed c t).waitEntryFree = true := by rw [State.armed_waitEntryFree t hw, hfree]
  unfold State.armed at hd hf
  simp only [State.waitUnmet, hd, hf]
  rfl

theorem State.waitUnmet_of_full {s : State} {c : CtxNo} (t : TallyNo × Word) (h : (s.ctx c).desched = true)
    (hw : (s.ctx c).sharedWait = false) (hfull : s.waitEntryFree = false) :
    s.waitUnmet c t = (s.armed c t).modTally fun u => { u with waitFull := true } := by
  have hd : ((s.armed c t).ctx c).desched = true := by simpa using h
  have hf : (s.armed c t).waitEntryFree = false := by rw [State.armed_waitEntryFree t hw, hfull]
  unfold State.armed at hd hf
  simp only [State.waitUnmet, hd, hf]
  rfl

@[simp] theorem State.modTally_ctx (s : State) (f : TallyUnit → TallyUnit) (c : CtxNo) : (s.modTally f).ctx c = s.ctx c := rfl

/-- What an unmet wait leaves of its context. -/
theorem State.waitUnmet_ctx {s : State} {c : CtxNo} (t : TallyNo × Word) (hw : (s.ctx c).sharedWait = false) :
    ((s.waitUnmet c t).ctx c).state = .waiting ∧ ((s.waitUnmet c t).ctx c).waitTally = t.1 ∧
      ((s.waitUnmet c t).ctx c).waitValue = t.2 := by
  cases hd : (s.ctx c).desched with
  | false => simp [State.waitUnmet_of_not_desched t hd]
  | true =>
    cases hf : s.waitEntryFree with
    | true => simp [State.waitUnmet_of_entry t hd hw hf, State.unbind_ctx_same]
    | false => simp [State.waitUnmet_of_full t hd hw hf]

theorem exec_wait {ch : Fin 1024} {c : CtxNo} {w : Work} {s : State} (hch : (s.chan ch.val).ctx = some c)
    (hworks : (s.ctx c).works = [w]) (hkind : w.kind = .wait) (hread : w.lastRead = false) (hend : w.ending = none)
    (hrun : (s.ctx c).state = .running) (hmov : s.moving c (chanFrame ch.val) = true) :
    exec (.wait ch) s = .next (if s.waitMet w.waitFor.1.toNat w.waitFor.2.toNat then
      s.modWork c w.id fun w => { w with lastRead := true } else s.waitUnmet c w.waitFor) := by
  change execWait ch s = _
  simp [execWait, hch, hworks, hkind, hread, hend, hrun, hmov]

/-- WAIT_SATISFIED does nothing while the tally is below its value. -/
theorem exec_waitSatisfied_of_not_met {c : CtxNo} {s : State}
    (hmet : s.waitMet (s.ctx c).waitTally.toNat (s.ctx c).waitValue.toNat = false) : exec (.waitSatisfied c) s = .next s := by
  change execWaitSatisfied c s = _
  simp [execWaitSatisfied, hmet]

/-- A satisfied wait lets a bound context run on and makes a descheduled one Ready (R52, R336). -/
theorem exec_waitSatisfied_of_met {c : CtxNo} {s : State} (hwait : (s.ctx c).state = .waiting)
    (habort : (s.ctx c).aborting = false) (hhalt : s.faults.halted = false)
    (hmet : s.waitMet (s.ctx c).waitTally.toNat (s.ctx c).waitValue.toNat = true) :
    exec (.waitSatisfied c) s = .next (if (s.ctx c).bound then
      ((s.disarm c).toState c .running).modCtx c fun x =>
        { x with works := x.works.map fun w => if w.kind == .wait then { w with lastRead := true } else w }
      else (s.disarm c).toState c .ready) := by
  change execWaitSatisfied c s = _
  simp [execWaitSatisfied, hwait, habort, hhalt, hmet]

/-- The clause of `Obligations.WaitsOnTallies` on the end of a wait. -/
theorem waitSatisfied_ends {c : CtxNo} {s : State} (hwait : (s.ctx c).state = .waiting)
    (habort : (s.ctx c).aborting = false) (hhalt : s.faults.halted = false)
    (hmet : s.waitMet (s.ctx c).waitTally.toNat (s.ctx c).waitValue.toNat = true) :
    ∃ t, exec (.waitSatisfied c) s = .next t ∧ (t.ctx c).sharedWait = false ∧ (∀ d, d ≠ c → t.ctx d = s.ctx d) ∧
      ((s.ctx c).bound = true → (t.ctx c).state = .running ∧ ∀ w ∈ (t.ctx c).works, w.kind = .wait → w.lastRead = true) ∧
      ((s.ctx c).bound = false → (t.ctx c).state = .ready ∧ c ∈ t.readyQ.get [] (s.ctx c).basePrio.toNat) := by
  refine ⟨_, exec_waitSatisfied_of_met hwait habort hhalt hmet, ?_⟩
  cases hb : (s.ctx c).bound with
  | true =>
    refine ⟨by simp, fun d hd => ?_, fun _ => ⟨by simp, fun w hw => ?_⟩, nofun⟩
    · rw [if_pos rfl, State.modCtx_ctx_other _ _ hd, State.toState_ctx_other _ _ hd, State.disarm_ctx_other _ hd]
    · rw [if_pos rfl, State.modCtx_ctx_same] at hw
      obtain ⟨v, -, rfl⟩ := List.mem_map.mp hw
      cases hv : v.kind == .wait with
      | true => simp
      | false => exact fun hk => absurd hk (by simpa using hv)
  | false =>
    refine ⟨by simp, fun d hd => ?_, nofun, fun _ => ⟨by simp, ?_⟩⟩
    · rw [if_neg nofun, State.toState_ctx_other _ _ hd, State.disarm_ctx_other _ hd]
    · have hq := State.mem_readyQ_toState (s := s.disarm c) (c := c) (by simp [hwait])
      simpa using hq

/-- A context made to sleep bound moves to a shared entry that has become free and leaves its channel (R337). -/
theorem exec_waitEntryFreed {c : CtxNo} {s : State} (hwait : (s.ctx c).state = .waiting) (hdesched : (s.ctx c).desched = true)
    (hbound : (s.ctx c).bound = true) (hshared : (s.ctx c).sharedWait = false) (habort : (s.ctx c).aborting = false)
    (hfree : s.waitEntryFree = true) (hmet : s.waitMet (s.ctx c).waitTally.toNat (s.ctx c).waitValue.toNat = false) :
    exec (.waitEntryFreed c) s = .next ((s.unbind c).modCtx c fun x => { x with sharedWait := true, works := [] }) := by
  change execWaitEntryFreed c s = _
  simp [execWaitEntryFreed, hwait, hdesched, hbound, hshared, habort, hfree, hmet]

/-- Settles O34: a WAIT is judged once (`exec_wait`); an unmet one arms its context, which a shared entry may then take. -/
theorem waitsOnTallies : Obligations.WaitsOnTallies := by
  refine ⟨?_, fun c s hwait habort hhalt => ⟨exec_waitSatisfied_of_not_met, waitSatisfied_ends hwait habort hhalt⟩, ?_⟩
  · intro ch c w s hch hworks hkind hread hend hrun hshared hmov y
    have hexec := exec_wait hch hworks hkind hread hend hrun hmov
    refine ⟨fun hmet => ⟨_, hexec, ?_⟩, fun hmet => ?_⟩
    · rw [if_pos hmet, State.modWork_head hworks]
      exact ⟨State.setCtx_ctx_same _ _ _, State.setCtx_changes _ _ _⟩
    · rw [hmet, if_neg nofun] at hexec
      obtain ⟨hstate, htally, hvalue⟩ := s.waitUnmet_ctx y hshared
      refine ⟨_, hexec, hstate, htally, hvalue, fun hd => ?_, fun hd hf => ?_, fun hd hf => ?_⟩
      · rw [State.waitUnmet_of_not_desched _ hd]
        simp [hworks]
      · rw [State.waitUnmet_of_entry _ hd hshared hf]
        simp
      · rw [State.waitUnmet_of_full _ hd hshared hf]
        exact ⟨by simp, by simp [hworks], rfl⟩
  · intro c s hwait hdesched hbound hshared habort hfree hmet
    refine ⟨_, exec_waitEntryFreed hwait hdesched hbound hshared habort hfree hmet, ?_⟩
    rw [State.modCtx_chan, State.unbind_frees_channel hbound, State.modCtx_ctx_same, State.unbind_ctx_same]
    simp [hwait]

/-! ## Knocks (R64 to R66, R473) -/

theorem exec_knock {w : Word} {s : State} (h : s.cpAwake = true) : exec (.knock w) s = .next (s.knock w) := by
  change execKnock w s = _
  simp [execKnock, h]

/-- The context that a write of KNOCK names (R64). -/
def knockCtx (w : Word) : CtxNo := BitVec.ofNat 18 (bits w.toNat 17 0)

/-- What a knock that has an effect must be: its reserved bits are clear, and its context takes the tail (R64, R65). -/
def State.takesKnock (s : State) (w : Word) : Prop :=
  bits w.toNat 31 18 = 0 ∧ bits w.toNat 63 48 = 0 ∧ (s.ctx (knockCtx w)).takesTail (bits w.toNat 47 32) = true

theorem State.knock_of_dropped {s : State} {w : Word} (h : ¬ s.takesKnock w) : s.knock w = s.knockDropped (knockCtx w) := by
  refine if_pos ?_
  simp only [Bool.or_eq_true, decide_eq_true_eq, Bool.not_eq_true', ← Bool.not_eq_true]
  rw [State.takesKnock, not_and_or, not_and_or] at h
  exact or_assoc.mpr h

/-- The state in which a context has a new TAIL and fetching may go on. -/
def State.setTail (s : State) (c : CtxNo) (t : Nat) : State :=
  s.modCtx c fun x => { x with tail := BitVec.ofNat 16 t, fetchHold := false }

theorem State.knock_of_taken {s : State} {w : Word} (h : s.takesKnock w) :
    s.knock w = if (s.ctx (knockCtx w)).state = .idle then (s.setTail (knockCtx w) (bits w.toNat 47 32)).toState (knockCtx w) .ready
      else s.setTail (knockCtx w) (bits w.toNat 47 32) := by
  obtain ⟨hlow, hhigh, htail⟩ := h
  rw [knockCtx] at htail
  by_cases hidle : (s.ctx (BitVec.ofNat 18 (bits w.toNat 17 0))).state = .idle <;>
    simp [State.knock, hlow, hhigh, htail, State.setTail, knockCtx, hidle]

/-- A knock that the context takes (R65, R66). -/
theorem State.knock_takes {s : State} {w : Word} {c : CtxNo} (hc : knockCtx w = c) (h : s.takesKnock w) :
    (s.knock w).ctx c = { s.ctx c with tail := BitVec.ofNat 16 (bits w.toNat 47 32), fetchHold := false,
                                       state := if (s.ctx c).state = .idle then .ready else (s.ctx c).state } ∧
      ((s.ctx c).state = .idle → c ∈ (s.knock w).readyQ.get [] (s.ctx c).basePrio.toNat) ∧
      (∀ d, d ≠ c → (s.knock w).ctx d = s.ctx d) ∧ (s.knock w).regs = s.regs := by
  have hother : ∀ d, d ≠ c → (s.setTail c (bits w.toNat 47 32)).ctx d = s.ctx d := fun d => s.modCtx_ctx_other _
  rw [State.knock_of_taken h, hc]
  by_cases hidle : (s.ctx c).state = .idle
  · rw [if_pos hidle, if_pos hidle]
    refine ⟨by simp [State.setTail], fun _ => ?_, fun d hd => ?_, ?_⟩
    · have hq := State.mem_readyQ_toState (s := s.setTail c (bits w.toNat 47 32)) (c := c) (by simp [State.setTail, hidle])
      simpa [State.setTail] using hq
    · rw [State.toState_ctx_other _ _ hd, hother d hd]
    · rw [State.toState_changes _ _ _ .regs (by decide)]
      rfl
  · rw [if_neg hidle, if_neg hidle]
    exact ⟨by simp [State.setTail], fun h => absurd h hidle, hother, rfl⟩

/-- A narrower write of KNOCK is noted and refused (R64, R456, R473). -/
theorem exec_knockNarrow {off : BitVec 24} {strobe : BitVec 8} {s : State} (hk : isKnock (alignDown 8 off.toNat) = true)
    (hn : strobe ≠ 0xFF) (hs : s.cpAwake = true) (hon : s.keeper.phase ≠ .off) :
    ∃ width at_, exec (.knockNarrow off strobe) s = .next
      (({ s with regs := { s.regs with knockDrop := { s.regs.knockDrop with narrow := true } } } : State).cpFault width at_) := by
  refine ⟨popcount 8 strobe.toNat, if strobe = 0xF0 then alignDown 8 off.toNat + 4 else alignDown 8 off.toNat, ?_⟩
  have hgo : (!isKnock (alignDown 8 off.toNat) || strobe = 0xFF || s.keeper.phase == .off) = false := by
    rw [hk, decide_eq_false hn, beq_false_of_ne hon]
    rfl
  change execKnockNarrow off strobe s = _
  dsimp only [execKnockNarrow]
  rw [hgo, State.narrowKnock, hs]
  rfl

/-! ## Watch polls (R67, R79) -/

/-- A ring entry whose address needs no walk and no leaf is read where it lies. -/
theorem State.withRing_of_tap {s : State} {f p : Nat} {c : CtxNo} {i : BitVec 16} {shc : Bool} (k : State → Nat → State)
    (h : s.ringRoute f (s.ctx c) ((s.ctx c).entryAddr i.toNat) = .tap p shc none) : s.withRing f c i k = k s p := by
  simp [State.withRing, h, State.used]

/-- A ring read takes and gives back a slot, uses the tap and counts as a movement; it changes no context. -/
theorem State.ringRead_changes_of_some {s u : State} {f p n : Nat} {c : CtxNo} {data : Bytes}
    (h : s.ringRead f p c n data = some u) : OnlyChanges [.frames, .taps, .tally] s u := by
  unfold State.ringRead at h
  split at h
  · cases h
  · dsimp only at h
    split at h
    · cases h
    · cases h
      refine OnlyChanges.step ?_ (State.setTap_changes _ _ _) (by decide)
      refine OnlyChanges.step ?_ (State.setSlotAt_changes _ _ _ _) (by decide)
      refine OnlyChanges.step ?_ (State.present_changes _ _ _ _) (by decide)
      exact (State.claimSlot_changes _ _ _ _ _).mono (by decide)

theorem exec_watchPoll_of_running {c : CtxNo} {f : Fin 16} {data : Bytes} {fail : Bool} {s : State}
    (hwatch : (s.ctx c).watch = true) (habort : (s.ctx c).aborting = false) (hhalt : s.faults.halted = false)
    (hrun : (s.ctx c).state = .running) :
    exec (.watchPoll c f data fail) s = .next (s.setCtx c { s.ctx c with fetchHold := false }) := by
  change execWatchPoll c f data fail s = _
  simp [execWatchPoll, hwatch, habort, hhalt, hrun, State.modCtx]

/-- What a poll does with the ring entry `i` of a context, at physical address `p` (R67, R79). -/
def pollRead (f : Nat) (c : CtxNo) (data : Bytes) (fail : Bool) (i : BitVec 16) (s : State) (p : Nat) : State :=
  match s.ringRead f p c 1 data with
  | none => s.poolQueue f .service
  | some u =>
    if fail then u.ringBusError f p c i else if bit (leAt data 127 1) 7 then u.toState c .ready else u

/-- A poll of an Idle watch-mode context reads the entry at FETCH_IDX. -/
theorem exec_watchPoll_of_idle {c : CtxNo} {f : Fin 16} {data : Bytes} {fail : Bool} {p : Nat} {s : State}
    (hwatch : (s.ctx c).watch = true) (habort : (s.ctx c).aborting = false) (hhalt : s.faults.halted = false)
    (hidle : (s.ctx c).state = .idle) (hup : s.frameUp f.val = true)
    (hroute : s.ringRoute f.val (s.ctx c) ((s.ctx c).entryAddr (s.ctx c).fetchIdx.toNat) = .tap p false none) :
    exec (.watchPoll c f data fail) s = .next (pollRead f.val c data fail (s.ctx c).fetchIdx s p) := by
  change execWatchPoll c f data fail s = _
  have hrun : ((s.ctx c).state == .running) = false := by simp [hidle]
  have hgo : ((s.ctx c).state != .idle || !s.frameUp f.val) = false := by simp [hidle, hup]
  dsimp only [execWatchPoll]
  rw [hwatch, habort, hhalt, hrun, hgo]
  exact congrArg Host.Outcome.next (State.withRing_of_tap (pollRead f.val c data fail (s.ctx c).fetchIdx) hroute)

/-- Settles O32: a knock is taken or dropped; a poll is one ring read, judged by the OWN bit of what it returned. -/
theorem knocksAndPolls : Obligations.KnocksAndPolls := by
  refine ⟨fun w s hs => ⟨fun hgood => ?_, fun hbad => ?_⟩, fun off strobe s hk hn hs hon => ?_,
    fun c f data fail p s hwatch habort hhalt => ⟨exec_watchPoll_of_running hwatch habort hhalt, fun hidle hup hroute => ?_⟩⟩
  · exact ⟨_, exec_knock hs, State.knock_takes rfl hgood⟩
  · rw [exec_knock hs, State.knock_of_dropped hbad]
    rfl
  · obtain ⟨width, at_, hexec⟩ := exec_knockNarrow hk hn hs hon
    exact ⟨_, hexec, by simp, State.raiseWith_stat_self (c := { src := 61, sub := width, addr := at_, access := 13 })
      (show 61 < 64 by decide),
      by simp⟩
  · have hexec := exec_watchPoll_of_idle (data := data) (fail := fail) hwatch habort hhalt hidle hup hroute
    refine ⟨fun hnone => ?_, fun u hu => ⟨State.ringRead_changes_of_some hu .ctxs (by decide), fun hf => ?_, fun hf hown => ?_, fun hf hown => ?_⟩⟩
    · rw [hexec, pollRead, hnone]
    · rw [hexec, pollRead, hu, hf]
      rfl
    · rw [hexec, pollRead, hu, hf, hown]
      rfl
    · rw [hexec, pollRead, hu, hf, hown]
      rfl

end Sys2Proof.Machine

/-! # Proofs: context verbs that drain and abort (R52, R83 to R87, R475)

Pausing and aborting change the descriptors of one context one after another, and beats that come back count against them. The
relation `State.WorksVia` says once what such a step leaves alone; the outcomes of ctx.pause, of its drain, of ctx.resume and
of ctx.abort follow. -/
namespace Sys2Proof.Machine

/-! ## Steps that change descriptors of one context only -/

/-- The descriptors of context `c` have changed, each as `r` allows; the rest of `c` and every other context is as before. -/
def State.WorksVia (r : Work → Work → Prop) (c : CtxNo) (s t : State) : Prop :=
  (∃ l, t.ctx c = { s.ctx c with works := l } ∧ List.Forall₂ r (s.ctx c).works l) ∧ ∀ d, d ≠ c → t.ctx d = s.ctx d

theorem forall₂_updateFirst {α : Type} {r : α → α → Prop} {p : α → Bool} {f : α → α} (hrefl : ∀ a, r a a)
    (hf : ∀ a, r a (f a)) (l : List α) : List.Forall₂ r l (updateFirst p f l) := by
  induction l with
  | nil => exact .nil
  | cons a l ih =>
    cases h : p a with
    | true => simpa [updateFirst, h] using List.Forall₂.cons (hf a) (List.forall₂_same.mpr fun a _ => hrefl a)
    | false => simpa [updateFirst, h] using List.Forall₂.cons (hrefl a) ih

theorem forall₂_trans {α : Type} {r : α → α → Prop} (htrans : ∀ a b c, r a b → r b c → r a c) {l m n : List α}
    (h : List.Forall₂ r l m) (k : List.Forall₂ r m n) : List.Forall₂ r l n := by
  induction h generalizing n with
  | nil => exact k
  | cons hab _ ih =>
    obtain ⟨c, n', hbc, hmn, rfl⟩ := List.forall₂_cons_left_iff.mp k
    exact .cons (htrans _ _ _ hab hbc) (ih hmn)

section
variable {r : Work → Work → Prop} {c : CtxNo} {s t u : State}

theorem State.WorksVia.of_ctx (hrefl : ∀ w, r w w) (h : ∀ d, t.ctx d = s.ctx d) : State.WorksVia r c s t :=
  ⟨⟨(s.ctx c).works, h c, List.forall₂_same.mpr fun w _ => hrefl w⟩, fun d _ => h d⟩

theorem State.WorksVia.trans (htrans : ∀ a b c, r a b → r b c → r a c) (h : State.WorksVia r c s t)
    (k : State.WorksVia r c t u) : State.WorksVia r c s u := by
  obtain ⟨⟨l, hl, hsl⟩, hothers⟩ := h
  obtain ⟨⟨m, hm, htm⟩, kothers⟩ := k
  rw [hl] at hm htm
  exact ⟨⟨m, hm, forall₂_trans htrans hsl htm⟩, fun d hd => (kothers d hd).trans (hothers d hd)⟩

theorem State.WorksVia.modWork (hrefl : ∀ w, r w w) {f : Work → Work} (hf : ∀ w, r w (f w)) (s : State) (id : Nat) :
    State.WorksVia r c s (s.modWork c id f) :=
  ⟨⟨_, s.modWork_ctx_same c id f, forall₂_updateFirst hrefl hf _⟩, fun _ => State.modCtx_ctx_other _ _⟩

theorem State.WorksVia.foldl {α : Type} (hrefl : ∀ w, r w w) (htrans : ∀ a b c, r a b → r b c → r a c) {f : State → α → State}
    (l : List α) (hf : ∀ t, ∀ a ∈ l, State.WorksVia r c t (f t a)) (s : State) : State.WorksVia r c s (l.foldl f s) := by
  induction l generalizing s with
  | nil => exact .of_ctx hrefl fun _ => rfl
  | cons a l ih =>
    exact .trans htrans (hf s a List.mem_cons_self) (ih (fun t b hb => hf t b (List.mem_cons_of_mem a hb)) _)

/-- A context with no descriptor in progress keeps all. -/
theorem State.WorksVia.ctx_of_no_works (h : State.WorksVia r c s t) (hw : (s.ctx c).works = []) : t.ctx c = s.ctx c := by
  obtain ⟨⟨l, hl, hsl⟩, -⟩ := h
  rw [hw] at hsl
  rw [hl, List.forall₂_nil_left_iff.mp hsl, ← hw]

/-- A context with one descriptor in progress has one after, related to it. -/
theorem State.WorksVia.works_of_singleton {w : Work} (h : State.WorksVia r c s t) (hw : (s.ctx c).works = [w]) :
    ∃ w', (t.ctx c).works = [w'] ∧ r w w' := by
  obtain ⟨⟨l, hl, hsl⟩, -⟩ := h
  rw [hw, List.forall₂_cons_left_iff] at hsl
  obtain ⟨w', m, hww', hm, rfl⟩ := hsl
  rw [List.forall₂_nil_left_iff.mp hm] at hl
  exact ⟨w', by rw [hl], hww'⟩

end

/-! ## The verb in progress, changed -/

@[simp] theorem State.modVerb_ctx (s : State) (o : Origin) (f : VerbProg → VerbProg) (c : CtxNo) :
    (s.modVerb o f).ctx c = s.ctx c := rfl

@[simp] theorem State.verbDrains_ctx (s : State) (o : Origin) (c : CtxNo) : (s.verbDrains o).ctx c = s.ctx c := rfl

/-! ## ctx.pause (R83, R475) -/

theorem Ctx.pauseResult_eq (x : Ctx) : x.pauseResult = leBytes 4 (x.doneIdx.toNat + 2 ^ 31 * b2n x.part) := results_word _

/-- A context in which nothing may be in progress any more is answered at once (R475). -/
theorem exec_ctxPause_of_paused {o : Origin} {v : VerbProg} {s : State} (h : Turn s o 0x0302 v)
    (hact : s.mayAct o (s.ctx v.ctxNo).tenant = true) (hd : (s.ctx v.ctxNo).damaged = 0)
    (hst : (s.ctx v.ctxNo).state ∈ [CtxState.paused, .stopped]) :
    exec (.ctxPause o) s = .next ((if par v.req 20 1 = 0 then
      s.setCtx v.ctxNo { s.ctx v.ctxNo with fetchIdx := (s.ctx v.ctxNo).doneIdx } else s).finish v kOK 0
        (leBytes 4 ((s.ctx v.ctxNo).doneIdx.toNat + 2 ^ 31 * b2n (s.ctx v.ctxNo).part))) := by
  have hopen : (s.ctx v.ctxNo).isOpen = true := by
    rw [Ctx.isOpen_iff]
    rintro hc
    simp [hc] at hst
  have hnow : ((s.ctx v.ctxNo).state == .paused || (s.ctx v.ctxNo).state == .stopped) = true := by simpa using hst
  refine next_runVerb_of_turn h ?_
  rw [State.onCtx_of_open hopen hact hd, if_pos hnow, Ctx.pauseResult_eq]
  by_cases hk : par v.req 20 1 = 0
  · rw [if_pos hk, if_pos hk]
    exact h.verbDone_setCtx _ _ _ _ _
  · rw [if_neg hk, if_neg hk, h.verbDone_eq]

theorem exec_ctxPause_of_going {o : Origin} {v : VerbProg} {s : State} (h : Turn s o 0x0302 v)
    (hact : s.mayAct o (s.ctx v.ctxNo).tenant = true) (hd : (s.ctx v.ctxNo).damaged = 0)
    (hst : (s.ctx v.ctxNo).state ∉ [CtxState.closed, .paused, .stopped]) :
    exec (.ctxPause o) s = .next ((s.startPause v.ctxNo).verbDrains o) := by
  simp only [List.mem_cons, List.not_mem_nil, or_false, not_or] at hst
  obtain ⟨hclosed, hpaused, hstopped⟩ := hst
  refine next_runVerb_of_turn h ?_
  rw [State.onCtx_of_open ((Ctx.isOpen_iff _).mpr hclosed) hact hd, beq_false_of_ne hpaused, beq_false_of_ne hstopped]
  rfl

theorem State.dropUnit_worksVia (s : State) (c : CtxNo) (w : Work) : State.WorksVia (fun _ _ => True) c s (s.dropUnit c w) := by
  dsimp only [State.dropUnit]
  split
  · exact .of_ctx (fun _ => trivial) fun _ => rfl
  · exact .modWork (fun _ => trivial) (fun _ => trivial) _ _

/-- The state in which a context is Pausing, before descriptors give up the units they have not begun. -/
def State.pausing (s : State) (c : CtxNo) : State :=
  let s := s.judgeWaits c
  let s := if (s.ctx c).state == .waiting then s.disarm c else s
  (s.toState c .pausing).modCtx c fun x => { x with leave := .resume, works := unwaited x.works }

theorem State.startPause_worksVia (s : State) (c : CtxNo) :
    State.WorksVia (fun _ _ => True) c (s.pausing c) (s.startPause c) :=
  .foldl (fun _ => trivial) (fun _ _ _ _ _ => trivial) _ (fun t w _ => t.dropUnit_worksVia c w) _

theorem State.pausing_ctx (s : State) (c : CtxNo) :
    ((s.pausing c).ctx c).state = .pausing ∧ ((s.pausing c).ctx c).leave = .resume ∧
      ∀ d, d ≠ c → (s.pausing c).ctx d = s.ctx d := by
  refine ⟨by simp [State.pausing], by simp [State.pausing], fun d hd => ?_⟩
  have hjudge : (s.judgeWaits c).ctx d = s.ctx d := State.modCtx_ctx_other _ _ hd
  dsimp only [State.pausing]
  rw [State.modCtx_ctx_other _ _ hd, State.toState_ctx_other _ _ hd]
  split
  · rw [State.disarm_ctx_other _ hd, hjudge]
  · exact hjudge

/-- A context that starts to pause is Pausing and leaves at its next resume point (R83). -/
theorem State.startPause_ctx (s : State) (c : CtxNo) :
    ((s.startPause c).ctx c).state = .pausing ∧ ((s.startPause c).ctx c).leave = .resume ∧
      ∀ d, d ≠ c → (s.startPause c).ctx d = s.ctx d := by
  obtain ⟨hstate, hleave, hothers⟩ := s.pausing_ctx c
  obtain ⟨⟨l, hl, -⟩, hsame⟩ := s.startPause_worksVia c
  exact ⟨by rw [hl, ← hstate], by rw [hl, ← hleave], fun d hd => (hsame d hd).trans (hothers d hd)⟩

theorem State.startPause_verb (s : State) (c : CtxNo) (o : Origin) : (s.startPause c).verb o = s.verb o :=
  (s.startPause_changes c).verb_eq (by decide) o

/-- The clause of `Obligations.PauseDrainAndResume` on a context that starts to pause. -/
theorem ctxPause_starts {o : Origin} {v : VerbProg} {s : State} (h : Turn s o 0x0302 v)
    (hact : s.mayAct o (s.ctx v.ctxNo).tenant = true) (hd : (s.ctx v.ctxNo).damaged = 0)
    (hst : (s.ctx v.ctxNo).state ∉ [CtxState.closed, .paused, .stopped]) :
    ∃ t, exec (.ctxPause o) s = .next t ∧ (t.ctx v.ctxNo).state = .pausing ∧ (t.ctx v.ctxNo).leave = .resume ∧
      t.verb o = some { v with stage := .draining } ∧ (∀ d, d ≠ v.ctxNo → t.ctx d = s.ctx d) ∧
      OnlyChanges [.ctxs, .readyQ, .tally, .chans, .keeper] s t := by
  obtain ⟨hstate, hleave, hothers⟩ := s.startPause_ctx v.ctxNo
  have hverb : (s.startPause v.ctxNo).verb o = some v := by rw [State.startPause_verb, h.verb_eq]
  refine ⟨_, exec_ctxPause_of_going h hact hd hst, ?_⟩
  simp only [State.verbDrains_ctx]
  exact ⟨hstate, hleave, State.modVerb_verb hverb fun _ => rfl, hothers,
    ((s.startPause_changes _).mono (by decide)).step (State.verbDrains_changes _ _) (by decide)⟩

/-! ## The end of a pause's drain (R52, R84, R85) -/

theorem State.drained_of_no_works {s : State} {c : CtxNo} (h : (s.ctx c).works = []) : s.drained c = (s, true) := by
  simp [State.drained, h]

theorem State.drained_of_resume {s : State} {c : CtxNo} {w : Work} (h : (s.ctx c).works = [w]) (hres : s.atResume c w = true)
    (hgroups : s.groupsOf c w.id = []) : s.drained c = (s.savePartial c w, true) := by
  simp [State.drained, h, hres, hgroups]

/-- What a partial descriptor leaves in its record (R84). -/
theorem State.savePartial_ctx_same (s : State) (c : CtxNo) (w : Work) :
    (s.savePartial c w).ctx c =
      { s.ctx c with works := [], part := decide (0 < w.unit), cursor := if 0 < w.unit then BitVec.ofNat 40 w.unit else 0,
                     crcPartial := if 0 < w.unit then w.crc else 0, kept := if 0 < w.unit then s.keptOf w else {} } := by
  simp only [State.savePartial, State.modCtx_ctx_same, decide_eq_true_eq]
  rfl

/-- The context of a pause whose drain has ended: Paused, or Stopped after a failure, unbound (R52, R84, R85). -/
def State.pauseEnded (u : State) (c : CtxNo) (fail : Bool) (v : VerbProg) : State :=
  ((u.toState c (if fail then .stopped else .paused)).unbind c).modCtx c fun x =>
    { x with failStop := false, leave := .no, fetchIdx := if par v.req 20 1 = 0 then x.doneIdx else x.fetchIdx }

theorem State.pauseEnded_ctx_same (u : State) (c : CtxNo) (fail : Bool) (v : VerbProg) :
    (u.pauseEnded c fail v).ctx c =
      { ({ u.ctx c with state := if fail then .stopped else .paused } : Ctx).unbound with
        failStop := false, leave := .no, fetchIdx := if par v.req 20 1 = 0 then (u.ctx c).doneIdx else (u.ctx c).fetchIdx } := by
  simp [State.pauseEnded, State.unbind_ctx_same]

theorem State.pauseEnded_ctx_other (u : State) {c d : CtxNo} (fail : Bool) (v : VerbProg) (hd : d ≠ c) :
    (u.pauseEnded c fail v).ctx d = u.ctx d := by
  rw [State.pauseEnded, State.modCtx_ctx_other _ _ hd, State.unbind_ctx_other _ hd, State.toState_ctx_other _ _ hd]

theorem State.pauseEnded_verb (u : State) (c : CtxNo) (fail : Bool) (v : VerbProg) (o : Origin) :
    (u.pauseEnded c fail v).verb o = u.verb o := by
  rw [State.pauseEnded, State.modCtx_verb, (State.unbind_changes _ _).verb_eq (by decide),
    (State.toState_changes _ _ _).verb_eq (by decide)]

/-- The verb answers DONE_IDX and PARTIAL once what is drained of its context, the state `u`, has let it go. -/
theorem exec_ctxPauseDrainEnd_of_drained {o : Origin} {v : VerbProg} {s u : State} (h : Waits s o 0x0302 v)
    (hst : (s.ctx v.ctxNo).state = .pausing) (hu : s.drained v.ctxNo = (u, true)) :
    ∃ t, exec (.ctxPauseDrainEnd o) s = .next t ∧
      (∀ d, t.ctx d = (u.pauseEnded v.ctxNo (s.ctx v.ctxNo).failStop v).ctx d) ∧ t.verb o = none := by
  have huverb : u.verb o = some v := by
    have hchanges := s.drained_changes v.ctxNo
    rw [hu] at hchanges
    rw [hchanges.verb_eq (by decide), h.verb_eq]
  have hverb : (u.pauseEnded v.ctxNo (s.ctx v.ctxNo).failStop v).verb o = some v := by rw [State.pauseEnded_verb, huverb]
  refine ⟨_, next_runDrained_of_waits h ?_, fun d => State.finish_ctx _ v kOK 0
    ((u.pauseEnded v.ctxNo (s.ctx v.ctxNo).failStop v).ctx v.ctxNo).pauseResult d, State.finish_verb (State.origin_of_verb h.verb_eq) _ _ _ _⟩
  dsimp only
  rw [hst, hu]
  exact State.verbDone_of_verb hverb _ _ _

/-- A verb whose context has ended its pause otherwise is answered (R475). -/
theorem exec_ctxPauseDrainEnd_of_not_pausing {o : Origin} {v : VerbProg} {s : State} (h : Waits s o 0x0302 v)
    (hst : (s.ctx v.ctxNo).state ≠ .pausing) :
    exec (.ctxPauseDrainEnd o) s = .next
      (s.finish v kOK 0 (leBytes 4 ((s.ctx v.ctxNo).doneIdx.toNat + 2 ^ 31 * b2n (s.ctx v.ctxNo).part))) := by
  refine next_runDrained_of_waits h ?_
  rw [if_pos (by simpa using hst), Ctx.pauseResult_eq, State.verbDone_of_verb h.verb_eq]

/-! ## ctx.resume (R52, R86, R475) -/

theorem exec_ctxResume_of_going {o : Origin} {v : VerbProg} {s : State} (h : Turn s o 0x0303 v)
    (hact : s.mayAct o (s.ctx v.ctxNo).tenant = true) (hd : (s.ctx v.ctxNo).damaged = 0)
    (hst : (s.ctx v.ctxNo).state ∉ [CtxState.closed, .paused, .stopped]) :
    exec (.ctxResume o) s = .next (s.finish v kOK 0 []) := by
  simp only [List.mem_cons, List.not_mem_nil, or_false, not_or] at hst
  obtain ⟨hclosed, hpaused, hstopped⟩ := hst
  refine next_runVerb_of_turn h ?_
  rw [State.onCtx_of_open ((Ctx.isOpen_iff _).mpr hclosed) hact hd, if_pos (by simp [hpaused, hstopped]), h.verbDone_eq]

/-- Where resuming takes a context: Ready while it has entries left, Idle otherwise (R52). -/
def Ctx.resumeState (x : Ctx) : CtxState := if x.doneIdx = x.fetchIdx ∧ x.fetchIdx = x.tail then .idle else .ready

/-- The context of a pause that has been resumed. -/
def State.resumed (s : State) (c : CtxNo) : State :=
  (s.modCtx c fun x => { x with failStop := false }).toState c (s.ctx c).resumeState

theorem State.resumed_verb (s : State) (c : CtxNo) (o : Origin) : (s.resumed c).verb o = s.verb o := by
  rw [State.resumed, (State.toState_changes _ _ _).verb_eq (by decide), State.modCtx_verb]

theorem exec_ctxResume_of_paused {o : Origin} {v : VerbProg} {s : State} (h : Turn s o 0x0303 v)
    (hact : s.mayAct o (s.ctx v.ctxNo).tenant = true) (hd : (s.ctx v.ctxNo).damaged = 0)
    (hst : (s.ctx v.ctxNo).state ∈ [CtxState.paused, .stopped]) :
    exec (.ctxResume o) s = .next ((s.resumed v.ctxNo).finish v kOK 0 []) := by
  have hopen : (s.ctx v.ctxNo).isOpen = true := by
    rw [Ctx.isOpen_iff]
    rintro hc
    simp [hc] at hst
  have hrest : ((s.ctx v.ctxNo).state != .paused && (s.ctx v.ctxNo).state != .stopped) = false := by
    rcases List.mem_pair.mp hst with hst | hst <;> rw [hst] <;> rfl
  refine next_runVerb_of_turn h ?_
  rw [State.onCtx_of_open hopen hact hd, hrest,
    ← State.verbDone_of_verb (o := o) (by rw [State.resumed_verb, h.verb_eq]), State.resumed, Ctx.resumeState]
  by_cases hdone : (s.ctx v.ctxNo).doneIdx = (s.ctx v.ctxNo).fetchIdx <;>
    by_cases hall : (s.ctx v.ctxNo).fetchIdx = (s.ctx v.ctxNo).tail <;> simp [hdone, hall]

/-- The clause of `Obligations.PauseDrainAndResume` on a Paused or Stopped context that is resumed. -/
theorem ctxResume_of_paused {o : Origin} {v : VerbProg} {s : State} (h : Turn s o 0x0303 v)
    (hact : s.mayAct o (s.ctx v.ctxNo).tenant = true) (hd : (s.ctx v.ctxNo).damaged = 0)
    (hst : (s.ctx v.ctxNo).state ∈ [CtxState.paused, .stopped]) :
    ∃ t, exec (.ctxResume o) s = .next t ∧
      t.ctx v.ctxNo = { s.ctx v.ctxNo with failStop := false, state := (s.ctx v.ctxNo).resumeState } ∧
      (∀ d, d ≠ v.ctxNo → t.ctx d = s.ctx d) ∧ t.verb o = none := by
  refine ⟨_, exec_ctxResume_of_paused h hact hd hst, ?_, fun d hd => ?_, State.finish_verb (State.origin_of_verb h.verb_eq) _ _ _ _⟩
  · simp [State.resumed]
  · rw [State.finish_ctx, State.resumed, State.toState_ctx_other _ _ hd, State.modCtx_ctx_other _ _ hd]

/-! ## The statement on pauses -/

/-- The drain of a context with nothing in progress keeps its ring and its partial descriptor (R84, R85). -/
theorem ctxPauseDrainEnd_of_no_works {o : Origin} {v : VerbProg} {s : State} (h : Waits s o 0x0302 v)
    (hst : (s.ctx v.ctxNo).state = .pausing) (hworks : (s.ctx v.ctxNo).works = []) :
    let c := v.ctxNo
    let x := s.ctx c
    ∃ t, exec (.ctxPauseDrainEnd o) s = .next t ∧
      (t.ctx c).state = (if x.failStop then .stopped else .paused) ∧ (t.ctx c).bound = false ∧
      (t.ctx c).doneIdx = x.doneIdx ∧ (t.ctx c).part = x.part ∧ (t.ctx c).cursor = x.cursor ∧
      (t.ctx c).crcPartial = x.crcPartial ∧ (t.ctx c).tail = x.tail ∧
      (t.ctx c).fetchIdx = (if par v.req 20 1 = 0 then x.doneIdx else x.fetchIdx) ∧
      (∀ d, d ≠ c → t.ctx d = s.ctx d) ∧ t.verb o = none := by
  intro c x
  obtain ⟨t, hexec, hctx, hverb⟩ := exec_ctxPauseDrainEnd_of_drained h hst (State.drained_of_no_works hworks)
  have hsame : t.ctx c = _ := (hctx c).trans (State.pauseEnded_ctx_same _ _ _ _)
  have hothers (d : CtxNo) (hd : d ≠ c) : t.ctx d = s.ctx d := (hctx d).trans (State.pauseEnded_ctx_other _ _ _ hd)
  refine ⟨t, hexec, ?_⟩
  rw [hsame]
  dsimp only [x, c]
  exact ⟨by simp, by simp, by simp, by simp, by simp, by simp, by simp, by simp, hothers, hverb⟩

/-- The drain of a context whose one descriptor stands at a resume point saves it (R84). -/
theorem ctxPauseDrainEnd_of_resume {o : Origin} {v : VerbProg} {w : Work} {s : State} (h : Waits s o 0x0302 v)
    (hst : (s.ctx v.ctxNo).state = .pausing) (hworks : (s.ctx v.ctxNo).works = [w]) (hres : s.atResume v.ctxNo w = true)
    (hgroups : s.groupsOf v.ctxNo w.id = []) :
    let c := v.ctxNo
    ∃ t, exec (.ctxPauseDrainEnd o) s = .next t ∧ (t.ctx c).works = [] ∧ (t.ctx c).part = decide (0 < w.unit) ∧
      (0 < w.unit → (t.ctx c).cursor = BitVec.ofNat 40 w.unit ∧ (t.ctx c).crcPartial = w.crc ∧
        (t.ctx c).kept = s.keptOf w) ∧ t.verb o = none := by
  intro c
  obtain ⟨t, hexec, hctx, hverb⟩ := exec_ctxPauseDrainEnd_of_drained h hst (State.drained_of_resume hworks hres hgroups)
  refine ⟨t, hexec, ?_⟩
  rw [hctx c, State.pauseEnded_ctx_same, State.savePartial_ctx_same]
  exact ⟨by simp, by simp, fun hmoved => by simp [hmoved], hverb⟩

/-- Settles O22: pausing is `State.startPause_ctx`, the end of the drain is `State.pauseEnded_ctx_same` over what
`State.drained` leaves, and resuming is one move between states. -/
theorem pauseDrainAndResume : Obligations.PauseDrainAndResume := by
  intro o v w s c x
  exact ⟨fun h hact hd => ⟨exec_ctxPause_of_paused h hact hd, ctxPause_starts h hact hd⟩, ctxPauseDrainEnd_of_no_works,
    ctxPauseDrainEnd_of_resume, exec_ctxPauseDrainEnd_of_not_pausing,
    fun h hact hd => ⟨exec_ctxResume_of_going h hact hd, ctxResume_of_paused h hact hd⟩⟩

end Sys2Proof.Machine

/-! # Proofs: ctx.abort (R75, R87)

The abort's start takes back the beats on their way, ends what has started and appends the owned entries that had not; each of
these steps changes only the descriptors of the context. -/
namespace Sys2Proof.Machine

/-! ## Beats that come back -/

/-- The descriptor as it was, but for its count of writes in flight. -/
def SameButWrites (w w' : Work) : Prop := w' = { w with writesOut := w'.writesOut }

theorem SameButWrites.refl (w : Work) : SameButWrites w w := rfl

theorem SameButWrites.trans (a b c : Work) (h : SameButWrites a b) (k : SameButWrites b c) : SameButWrites a c := by
  rw [SameButWrites] at h k ⊢
  rw [k, h]

theorem State.WorksVia.foldl_writes {α : Type} {c : CtxNo} {f : State → α → State} {l : List α}
    (hf : ∀ t, ∀ a ∈ l, State.WorksVia SameButWrites c t (f t a)) (s : State) :
    State.WorksVia SameButWrites c s (l.foldl f s) :=
  .foldl SameButWrites.refl SameButWrites.trans l hf s

theorem State.beatBack_worksVia (s : State) (c : CtxNo) (id : Nat) : State.WorksVia SameButWrites c s (s.beatBack (c, id)) :=
  .modWork SameButWrites.refl (f := fun v => { v with writesOut := v.writesOut - 1 }) (fun _ => rfl) s id

theorem State.dropCrossing_worksVia (s : State) (p : Nat) (b : Beat) :
    State.WorksVia SameButWrites b.ctx s (s.dropCrossing p b) :=
  .trans SameButWrites.trans (.of_ctx SameButWrites.refl fun _ => rfl) (State.beatBack_worksVia _ b.ctx b.work)

/-- Taking back a context's beats counts only against its own descriptors (R87, R356). -/
theorem State.dropBeats_worksVia (s : State) (c : CtxNo) : State.WorksVia SameButWrites c s (s.dropBeats c) := by
  have hlanding (b : Beat) (hb : b ∈ s.ports.flatMap fun e => e.2.landing.filter fun b => b.ctx == c) : b.ctx = c := by
    obtain ⟨e, -, he⟩ := List.mem_flatMap.mp hb
    simpa using (List.mem_filter.mp he).2
  have hback : State.WorksVia SameButWrites c s ((s.ports.flatMap fun e => e.2.landing.filter fun b => b.ctx == c).foldl
      (fun t b => t.beatBack (b.ctx, b.work)) s) :=
    .foldl_writes (fun t b hb => by rw [hlanding b hb]; exact t.beatBack_worksVia c b.work) s
  dsimp only [State.dropBeats]
  refine .trans SameButWrites.trans (.trans SameButWrites.trans hback (.of_ctx SameButWrites.refl fun _ => rfl))
    (.foldl_writes (fun t b hb => ?_) _)
  have hcross : b.beat.ctx = c := by simpa using (List.mem_filter.mp hb).2
  exact .foldl_writes (fun u p _ => hcross ▸ u.dropCrossing_worksVia p b.beat) t

/-! ## An early end (R75) -/

/-- A descriptor whose data moves and that an ending condition meets. -/
def Work.ended (w : Work) (status detail : Nat) : Work :=
  { w with ending := some (BitVec.ofNat 16 status, BitVec.ofNat 16 (min detail 0xFFFF)), stage := .moving, reads := [],
           outs := [], opened := [], staged := 0, lastRead := true }

/-- What an early end drops beside the descriptor's own lists: queued requests, remote reads, slots and groups. -/
def State.dropHeld (s : State) (c : CtxNo) (id : Nat) : State :=
  (((s.dropSvc c id).dropReads c id).dropSlots c id).abandonGroups c id

theorem State.dropHeld_changes (s : State) (c : CtxNo) (id : Nat) : OnlyChanges [.frames, .fabric] s (s.dropHeld c id) := by
  have h := (State.dropSvc_changes s c id).mono (qs := [.frames, .fabric]) (by decide)
  exact ((h.step (State.dropReads_changes _ c id) (by decide)).step (State.dropSlots_changes _ c id) (by decide)).step
    (State.abandonGroups_changes _ c id) (by decide)

/-- An ending condition ends the oldest descriptor while its data moves; no other context changes. -/
theorem State.endWork_of_moving {s : State} {c : CtxNo} {w : Work} {rest : List Work} (hw : (s.ctx c).works = w :: rest)
    (hend : w.ending = none) (hst : w.stage = .moving) (status detail : Nat) :
    ((s.endWork c w.id status detail).ctx c).works = w.ended status detail :: rest ∧
      ∀ d, d ≠ c → (s.endWork c w.id status detail).ctx d = s.ctx d := by
  have hfind : s.work c w.id = some w := by simp [State.work, hw]
  have heq : s.endWork c w.id status detail =
      ((s.modWork c w.id fun w => w.ended status detail).modCtx c fun x =>
        if x.errCont || x.state == .stopped then x else { x with failStop := true }).dropHeld c w.id := by
    simp only [State.endWork, hfind, hend, hst]
    rfl
  rw [heq, State.modWork_head hw]
  refine ⟨?_, fun d hd => ?_⟩
  · rw [(State.dropHeld_changes _ _ _).ctx_eq (by decide), State.modCtx_ctx_same, State.setCtx_ctx_same]
    split <;> rfl
  · rw [(State.dropHeld_changes _ _ _).ctx_eq (by decide), State.modCtx_ctx_other _ _ hd, State.setCtx_ctx_other _ _ hd]

/-- A started descriptor whose data moves ends ABORTED with D_DETAIL 0 (R87). -/
theorem State.abortWork_of_moving {s : State} {c : CtxNo} {w : Work} (hend : w.ending = none) (hst : w.stage = .moving)
    (hok : failed w.status = false) : s.abortWork c w = s.endWork c w.id 0x0901 0 := by
  simp [State.abortWork, hend, hst, hok]

/-! ## Entries that had not started (R87) -/

/-- Descriptors join those of context `c` as its newest; the rest of `c` and every other context is as before. -/
def State.Appends (c : CtxNo) (s t : State) : Prop :=
  (∃ l, t.ctx c = { s.ctx c with works := (s.ctx c).works ++ l }) ∧ ∀ d, d ≠ c → t.ctx d = s.ctx d

theorem State.Appends.refl (c : CtxNo) (s : State) : State.Appends c s s := ⟨⟨[], by rw [List.append_nil]⟩, fun _ _ => rfl⟩

theorem State.Appends.trans {c : CtxNo} {s t u : State} (h : State.Appends c s t) (k : State.Appends c t u) :
    State.Appends c s u := by
  obtain ⟨⟨l, hl⟩, hothers⟩ := h
  obtain ⟨⟨m, hm⟩, kothers⟩ := k
  refine ⟨⟨l ++ m, ?_⟩, fun d hd => (kothers d hd).trans (hothers d hd)⟩
  rw [hm, hl, List.append_assoc]

theorem State.Appends.modCtx {s t : State} (ht : ∀ d, t.ctx d = s.ctx d) (c : CtxNo) (w : Work) :
    State.Appends c s (t.modCtx c fun x => { x with works := x.works ++ [w] }) := by
  refine ⟨⟨[w], ?_⟩, fun d hd => ?_⟩
  · rw [State.modCtx_ctx_same, ht]
  · rw [State.modCtx_ctx_other _ _ hd, ht]

theorem State.abortEntries_appends (s : State) (c : CtxNo) (f first n : Nat) (i : BitVec 16) (l : List Bytes) :
    State.Appends c s (s.abortEntries c f first n i l).1 := by
  induction n generalizing s first i l with
  | zero => simpa [State.abortEntries] using State.Appends.refl c s
  | succ n ih =>
    cases l with
    | nil => exact State.Appends.refl c s
    | cons e rest =>
      simp only [State.abortEntries]
      split
      · exact State.Appends.refl c s
      · exact .trans (.modCtx (s := s) (fun _ => rfl) c _) (ih _ _ _ _)

/-- Without an owned entry below TAIL to begin with none is appended. -/
theorem State.abortEntries_of_not_given {s : State} {c : CtxNo} {i : BitVec 16} {l : List Bytes}
    (h : ∀ e ∈ l, (s.ctx c).given i e = false) (f first n : Nat) : s.abortEntries c f first n i l = (s, 0) := by
  cases n with
  | zero => simp [State.abortEntries]
  | succ n =>
    cases l with
    | nil => rfl
    | cons e rest => simp [State.abortEntries, h e List.mem_cons_self]

/-! ## The start and the end of an abort (R87) -/

/-- A waiting context waits no longer. -/
def State.disarmIfWaiting (s : State) (c : CtxNo) : State := if (s.ctx c).state == .waiting then s.disarm c else s

theorem State.disarmIfWaiting_ctx_same (s : State) (c : CtxNo) :
    (s.disarmIfWaiting c).ctx c = { s.ctx c with
      waitTally := ((s.disarmIfWaiting c).ctx c).waitTally, waitValue := ((s.disarmIfWaiting c).ctx c).waitValue,
      sharedWait := ((s.disarmIfWaiting c).ctx c).sharedWait } := by
  unfold State.disarmIfWaiting
  split
  · rw [State.disarm_ctx_same]
  · rfl

theorem State.disarmIfWaiting_ctx_other (s : State) {c d : CtxNo} (h : d ≠ c) : (s.disarmIfWaiting c).ctx d = s.ctx d := by
  unfold State.disarmIfWaiting
  split
  · exact State.disarm_ctx_other _ h
  · rfl

theorem State.disarmIfWaiting_works (s : State) (c : CtxNo) : ((s.disarmIfWaiting c).ctx c).works = (s.ctx c).works := by
  rw [State.disarmIfWaiting_ctx_same]

/-- The state of an abort once what has started has been ended. -/
def State.abortStarted (s : State) (c : CtxNo) : State :=
  (s.ctx c).works.foldl (fun t w => t.abortWork c w) ((s.disarmIfWaiting c).dropBeats c)

/-- The entries that had not started, as the abort reads them: the state with their descriptors, and how many there are. -/
def State.abortUnstarted (s : State) (c : CtxNo) (entries : List Bytes) : State × Nat :=
  (s.abortStarted c).abortEntries c ((s.chanOf c).elim 0 chanFrame)
    (if (s.ctx c).works = [] && ((s.ctx c).part || (s.ctx c).state == .waiting) then 0 else 1) entries.length
    (s.ctx c).startIdx (entries.drop ((s.ctx c).dist (s.ctx c).startIdx.toNat))

theorem State.startAbort_eq (s : State) (o : Origin) (c : CtxNo) (entries : List Bytes) :
    s.startAbort o c entries =
      ((s.abortUnstarted c entries).1.modCtx c fun x => { x with aborting := true, held := [] }).modVerb o fun v =>
        { v with acc := ((s.ctx c).works.filter (s.abortCounts c)).length + (s.abortUnstarted c entries).2 } := rfl

theorem State.startAbort_ctx_same (s : State) (o : Origin) (c : CtxNo) (entries : List Bytes) :
    (s.startAbort o c entries).ctx c = { (s.abortUnstarted c entries).1.ctx c with aborting := true, held := [] } := by
  rw [State.startAbort_eq, State.modVerb_ctx, State.modCtx_ctx_same]

theorem State.startAbort_ctx_other (s : State) (o : Origin) {c d : CtxNo} (entries : List Bytes) (hd : d ≠ c) :
    (s.startAbort o c entries).ctx d = (s.abortUnstarted c entries).1.ctx d := by
  rw [State.startAbort_eq, State.modVerb_ctx, State.modCtx_ctx_other _ _ hd]

theorem State.abortUnstarted_verb (s : State) (c : CtxNo) (entries : List Bytes) (o : Origin) :
    (s.abortUnstarted c entries).1.verb o = s.verb o := by
  have hdisarm : (s.disarmIfWaiting c).verb o = s.verb o := by
    unfold State.disarmIfWaiting
    split
    · exact (State.disarm_changes _ _).verb_eq (by decide) o
    · rfl
  have hstarted : (s.abortStarted c).verb o = ((s.disarmIfWaiting c).dropBeats c).verb o := by
    refine OnlyChanges.verb_eq (ps := [.ctxs, .frames, .fabric]) (OnlyChanges.foldl _ (fun t w => ?_) _ _ (OnlyChanges.refl _ _))
      (by decide) o
    exact (State.abortWork_changes t c w).mono (by decide)
  rw [State.abortUnstarted, (State.abortEntries_changes _ _ _ _ _ _ _).verb_eq (by decide), hstarted,
    (State.dropBeats_changes _ _).verb_eq (by decide), hdisarm]

/-- The verb counts the descriptors that the abort ends. -/
theorem State.startAbort_verb {s : State} {o : Origin} {v : VerbProg} (h : s.verb o = some v) (c : CtxNo) (entries : List Bytes) :
    (s.startAbort o c entries).verb o =
      some { v with acc := ((s.ctx c).works.filter (s.abortCounts c)).length + (s.abortUnstarted c entries).2 } := by
  rw [State.startAbort_eq]
  refine State.modVerb_verb ?_ fun _ => rfl
  rw [State.modCtx_verb, State.abortUnstarted_verb, h]

/-- With nothing started the contexts are as they were, but that `c` waits no longer. -/
theorem State.abortStarted_ctx_of_no_works {s : State} {c : CtxNo} (h : (s.ctx c).works = []) :
    (s.abortStarted c).ctx c = (s.disarmIfWaiting c).ctx c := by
  rw [State.abortStarted, h, List.foldl_nil]
  exact (State.dropBeats_worksVia _ c).ctx_of_no_works (by rw [State.disarmIfWaiting_works, h])

/-- With nothing started and no owned entry below TAIL an abort starts nothing. -/
theorem State.abortUnstarted_of_nothing {s : State} {c : CtxNo} {entries : List Bytes} (h : (s.ctx c).works = [])
    (hgiven : ∀ e ∈ entries, (s.ctx c).given (s.ctx c).startIdx e = false) :
    s.abortUnstarted c entries = (s.abortStarted c, 0) := by
  refine State.abortEntries_of_not_given (fun e he => ?_) _ _ _
  rw [← hgiven e (List.mem_of_mem_drop he), State.abortStarted_ctx_of_no_works h, State.disarmIfWaiting_ctx_same]
  rfl

/-- The descriptor in progress while its data moves ends ABORTED; no other context changes. -/
theorem State.abortStarted_of_moving {s : State} {c : CtxNo} {w : Work} (hw : (s.ctx c).works = [w]) (hst : w.stage = .moving)
    (hend : w.ending = none) (hok : failed w.status = false) :
    (∃ w', ((s.abortStarted c).ctx c).works = [w'] ∧ w'.id = w.id ∧ w'.ending = some (0x0901, 0)) ∧
      ∀ d, d ≠ c → (s.abortStarted c).ctx d = s.ctx d := by
  obtain ⟨w', hw', hsame⟩ := (State.dropBeats_worksVia (s.disarmIfWaiting c) c).works_of_singleton (w := w)
    (by rw [State.disarmIfWaiting_works, hw])
  have hid : w'.id = w.id := by rw [hsame]
  obtain ⟨hworks, hothers⟩ := State.endWork_of_moving hw' (by rw [hsame, hend]) (by rw [hsame, hst]) 0x0901 0
  rw [State.abortStarted, hw, List.foldl_cons, List.foldl_nil, State.abortWork_of_moving hend hst hok, ← hid]
  refine ⟨⟨_, hworks, rfl, rfl⟩, fun d hd => ?_⟩
  rw [hothers d hd, (State.dropBeats_worksVia _ c).2 d hd, State.disarmIfWaiting_ctx_other _ hd]

/-- A channel that is left drops what it has fetched. -/
theorem Ctx.unbound_held {x : Ctx} (h : x.held = []) : x.unbound.held = [] := by
  cases hb : x.bound <;> simp [Ctx.unbound, hb, h]

/-- The context of an abort that has ended: Idle and unbound, its ring empty at DONE_IDX (R87). -/
theorem State.endAbort_ctx_same (s : State) (c : CtxNo) :
    (s.endAbort c).ctx c =
      { ({ s.ctx c with state := .idle } : Ctx).unbound with
        waitTally := 0, waitValue := 0, sharedWait := false, aborting := false, failStop := false, fetchHold := false,
        leave := .no, part := false, cursor := 0, crcPartial := 0, kept := {}, tail := (s.ctx c).doneIdx,
        fetchIdx := (s.ctx c).doneIdx } := by
  simp [State.endAbort, State.unbind_ctx_same]

theorem State.endAbort_verb (s : State) (c : CtxNo) (o : Origin) : (s.endAbort c).verb o = s.verb o :=
  (s.endAbort_changes c).verb_eq (by decide) o

/-! ## ctx.abort -/

theorem exec_ctxAbort_of_closed {o : Origin} {v : VerbProg} {entries : List Bytes} {s : State} (h : Turn s o 0x0304 v)
    (hclosed : (s.ctx v.ctxNo).isOpen = false) : exec (.ctxAbort o entries) s = .next (s.finish v kNoObject 16 []) := by
  refine next_runVerb_of_turn h ?_
  rw [State.onCtx_of_closed hclosed, h.verbDone_eq]

/-- One step of an abort that has started, in the state `u`: it waits for what is in progress, then ends (R87). -/
def State.abortStep (u : State) (o : Origin) (c : CtxNo) : State :=
  if (u.ctx c).works ≠ [] then u
  else (u.endAbort c).verbDone o kOK 0 (results [(4, leBytes 4 (match u.verb o with | some v => v.acc | none => 0))])

theorem exec_ctxAbort {o : Origin} {v : VerbProg} {entries : List Bytes} {s : State} (h : Turn s o 0x0304 v)
    (hopen : (s.ctx v.ctxNo).isOpen = true) (hact : s.mayAct o (s.ctx v.ctxNo).tenant = true)
    (hd : (s.ctx v.ctxNo).damaged = 0) :
    exec (.ctxAbort o entries) s =
      .next ((if (s.ctx v.ctxNo).aborting then s else s.startAbort o v.ctxNo entries).abortStep o v.ctxNo) := by
  refine next_runVerb_of_turn h ?_
  rw [State.onCtx_of_open hopen hact hd]
  rfl

theorem State.abortStep_of_works {u : State} {o : Origin} {c : CtxNo} (h : (u.ctx c).works ≠ []) : u.abortStep o c = u :=
  if_pos h

theorem State.abortStep_of_no_works {u : State} {o : Origin} {c : CtxNo} {v : VerbProg} (hv : u.verb o = some v)
    (h : (u.ctx c).works = []) : u.abortStep o c = (u.endAbort c).finish v kOK 0 (leBytes 4 v.acc) := by
  rw [State.abortStep, if_neg (not_not.mpr h), hv, results_word, State.verbDone_of_verb (v := v) (by rw [State.endAbort_verb, hv])]

/-- The clause of `Obligations.AbortEndsIdle` on a context with nothing to end. -/
theorem ctxAbort_of_nothing {o : Origin} {v : VerbProg} {entries : List Bytes} {s : State} (h : Turn s o 0x0304 v)
    (hopen : (s.ctx v.ctxNo).isOpen = true) (hact : s.mayAct o (s.ctx v.ctxNo).tenant = true)
    (hd : (s.ctx v.ctxNo).damaged = 0) (habort : (s.ctx v.ctxNo).aborting = false) (hworks : (s.ctx v.ctxNo).works = [])
    (hgiven : ∀ e ∈ entries, (s.ctx v.ctxNo).given (s.ctx v.ctxNo).startIdx e = false) :
    let c := v.ctxNo
    ∃ t, exec (.ctxAbort o entries) s = .next t ∧
      t = ((s.startAbort o c entries).endAbort c).finish { v with acc := 0 } kOK 0 (leBytes 4 0) ∧
      (t.ctx c).state = .idle ∧ (t.ctx c).bound = false ∧ (t.ctx c).doneIdx = (s.ctx c).doneIdx ∧
      (t.ctx c).fetchIdx = (s.ctx c).doneIdx ∧ (t.ctx c).tail = (s.ctx c).doneIdx ∧ (t.ctx c).part = false ∧
      (t.ctx c).works = [] ∧ (t.ctx c).held = [] ∧ t.verb o = none := by
  intro c
  have hctx : (s.startAbort o c entries).ctx c = { (s.disarmIfWaiting c).ctx c with aborting := true, held := [] } := by
    rw [State.startAbort_ctx_same, State.abortUnstarted_of_nothing hworks hgiven, State.abortStarted_ctx_of_no_works hworks]
  have hverb : (s.startAbort o c entries).verb o = some { v with acc := 0 } := by
    rw [State.startAbort_verb h.verb_eq, hworks, State.abortUnstarted_of_nothing hworks hgiven]
    rfl
  have hstarted : ((s.startAbort o c entries).ctx c).works = [] := by rw [hctx, State.disarmIfWaiting_ctx_same, hworks]
  have hexec := exec_ctxAbort (entries := entries) h hopen hact hd
  rw [habort, if_neg nofun, State.abortStep_of_no_works hverb hstarted] at hexec
  refine ⟨_, hexec, rfl, ?_⟩
  rw [State.finish_ctx, State.endAbort_ctx_same, hctx, State.disarmIfWaiting_ctx_same]
  exact ⟨by simp, by simp, by simp, by simp, by simp, by simp, by simpa [c] using hworks, Ctx.unbound_held rfl,
    State.finish_verb (State.origin_of_verb h.verb_eq) _ _ _ _⟩

/-- The clause of `Obligations.AbortEndsIdle` on a started descriptor whose data moves. -/
theorem ctxAbort_of_moving {o : Origin} {v : VerbProg} {w : Work} {entries : List Bytes} {s : State} (h : Turn s o 0x0304 v)
    (hopen : (s.ctx v.ctxNo).isOpen = true) (hact : s.mayAct o (s.ctx v.ctxNo).tenant = true)
    (hd : (s.ctx v.ctxNo).damaged = 0) (habort : (s.ctx v.ctxNo).aborting = false) (hworks : (s.ctx v.ctxNo).works = [w])
    (hst : w.stage = .moving) (hend : w.ending = none) (hok : failed w.status = false) :
    let c := v.ctxNo
    ∃ t w' rest u, exec (.ctxAbort o entries) s = .next t ∧ (t.ctx c).works = w' :: rest ∧ w'.id = w.id ∧
      w'.ending = some (0x0901, 0) ∧ (t.ctx c).aborting = true ∧ (t.ctx c).held = [] ∧ t.verb o = some u ∧ 1 ≤ u.acc ∧
      (∀ d, d ≠ c → (t.ctx d).state = (s.ctx d).state) := by
  intro c
  obtain ⟨⟨w', hw', hid, hended⟩, hstarted⟩ := State.abortStarted_of_moving hworks hst hend hok
  obtain ⟨⟨l, hl⟩, hunstarted⟩ : State.Appends c (s.abortStarted c) (s.abortUnstarted c entries).1 :=
    State.abortEntries_appends _ _ _ _ _ _ _
  have hctx : ((s.startAbort o c entries).ctx c).works = w' :: l := by
    rw [State.startAbort_ctx_same, hl, hw']
    rfl
  have hcounts : s.abortCounts c w = true := by simp [State.abortCounts, hst]
  have hexec := exec_ctxAbort (entries := entries) h hopen hact hd
  rw [habort, if_neg nofun, State.abortStep_of_works (by rw [hctx]; exact List.cons_ne_nil _ _)] at hexec
  refine ⟨_, w', l, _, hexec, hctx, hid, hended, ?_, ?_, State.startAbort_verb h.verb_eq c entries, ?_, fun d hd => ?_⟩
  · rw [State.startAbort_ctx_same]
  · rw [State.startAbort_ctx_same]
  · simp [show (s.ctx c).works = [w] from hworks, hcounts]
  · rw [State.startAbort_ctx_other _ _ _ hd, hunstarted d hd, hstarted d hd]

/-- Settles O23: an abort that has started is `State.abortStep` in the state that its start leaves. -/
theorem abortEndsIdle : Obligations.AbortEndsIdle := by
  intro o v w entries s h c x
  refine ⟨exec_ctxAbort_of_closed h, ctxAbort_of_nothing h, ctxAbort_of_moving h, fun hopen hact hd habort => ?_⟩
  have hexec := exec_ctxAbort (entries := entries) h hopen hact hd
  rw [habort, if_pos rfl] at hexec
  refine ⟨fun hworks => ?_, fun hworks => ?_⟩
  · rw [hexec, State.abortStep_of_works hworks]
  · rw [hexec, State.abortStep_of_no_works h.verb_eq hworks]

end Sys2Proof.Machine

/-! # Proofs: fetching and starting descriptors (R66, R71 to R74, R78, R79)

A fetch is one ring read whose entry is held or stops the channel; a start is one step of the acceptance checks. -/
namespace Sys2Proof.Machine

/-! ## A fetch's data (R66, R71) -/

/-- What the return of one fetched entry does: `i` is its index and `p` its physical address. -/
def fetchRead (f : Nat) (c : CtxNo) (data : Bytes) (fail : Bool) (i : BitVec 16) (s : State) (p : Nat) : State :=
  match s.ringRead f p c 1 data with
  | none => s.poolQueue f .service
  | some u => if fail then u.ringBusError f p c i else u.modCtx c fun x => x.fetched (slice data 0 128)

/-- What lets a channel's context fetch (R66, R71). -/
structure State.MayFetch (s : State) (f : Nat) (x : Ctx) : Prop where
  running : x.state = .running
  stays : x.leave = .no
  going : x.failStop = false
  kept : x.aborting = false
  open_ : x.blocked = false
  up : s.frameUp f = true
  awake : s.faults.halted = false
  room : 0 < x.fetchRoom

/-- Fewer than 256 bytes hold one entry. -/
theorem exec_descriptorFetchReturn {ch : Fin 1024} {c : CtxNo} {data : Bytes} {fail : Bool} {p : Nat} {s : State}
    (hch : (s.chan ch.val).ctx = some c) (hmay : s.MayFetch (chanFrame ch.val) (s.ctx c)) (hlen : data.length < 256)
    (hroute : s.ringRoute (chanFrame ch.val) (s.ctx c) ((s.ctx c).entryAddr (s.ctx c).chanFetch.toNat) = .tap p false none) :
    exec (.descriptorFetchReturn ch data fail) s =
      .next (fetchRead (chanFrame ch.val) c data fail (s.ctx c).chanFetch s p) := by
  obtain ⟨hrun, hleave, hfail, habort, hblocked, hup, hhalt, hroom⟩ := hmay
  have hgo : ((s.ctx c).state != .running || (s.ctx c).leave != .no || (s.ctx c).failStop || (s.ctx c).aborting ||
      (s.ctx c).blocked || !s.frameUp (chanFrame ch.val) || s.faults.halted || (s.ctx c).fetchRoom = 0) = false := by
    simp [hrun, hleave, hfail, habort, hblocked, hup, hhalt, hroom.ne']
  have hone : (2 ≤ (s.ctx c).fetchRoom && (s.ctx c).chanFetch.toNat % 2 = 0 && 256 ≤ data.length) = false := by
    rw [decide_eq_false (Nat.not_le.mpr hlen), Bool.and_false]
  change execDescriptorFetchReturn ch data fail s = _
  dsimp only [execDescriptorFetchReturn]
  rw [hch]
  dsimp only
  rw [hgo, hone]
  exact congrArg Host.Outcome.next
    (State.withRing_of_tap (fetchRead (chanFrame ch.val) c data fail (s.ctx c).chanFetch) hroute)

theorem fetchRead_of_some {f p : Nat} {c : CtxNo} {data : Bytes} {fail : Bool} {i : BitVec 16} {s u : State}
    (hu : s.ringRead f p c 1 data = some u) :
    fetchRead f c data fail i s p =
      if fail then u.ringBusError f p c i else u.modCtx c fun x => x.fetched (slice data 0 128) := by
  rw [fetchRead, hu]

theorem Ctx.fetched_of_owned {x : Ctx} {e : Bytes} (hb : x.blocked = false) (hown : bit (leAt e 127 1) 7 = true) :
    (x.fetched e).held = x.held ++ [⟨x.chanFetch, e⟩] ∧ (x.fetched e).chanFetch = x.next x.chanFetch.toNat 1 ∧
      (x.fetched e).fetchHold = x.fetchHold := by
  simp [Ctx.fetched, hb, hown]

theorem Ctx.fetched_of_unowned {x : Ctx} {e : Bytes} (hb : x.blocked = false) (hown : bit (leAt e 127 1) 7 = false) :
    x.fetched e = { x with fetchHold := true, holdIdx := x.chanFetch } := by
  simp [Ctx.fetched, hb, hown]

/-! ## A start (R72 to R74) -/

/-- What lets the entry at the head of a channel's held entries start (R73). -/
structure State.MayBegin (s : State) (c : CtxNo) (f : Nat) (h : Held) : Prop where
  running : (s.ctx c).state = .running
  stays : (s.ctx c).leave = .no
  going : (s.ctx c).failStop = false
  kept : (s.ctx c).aborting = false
  up : s.frameUp f = true
  free : s.mayStart c (s.ctx c) h.bytes = true
  ready : s.feedWaits c h.bytes = false

theorem exec_descriptorStart {ch : Fin 1024} {c : CtxNo} {h : Held} {rest : List Held} {s : State}
    (hch : (s.chan ch.val).ctx = some c) (hheld : (s.ctx c).held = h :: rest) (hmay : s.MayBegin c (chanFrame ch.val) h) :
    exec (.descriptorStart ch) s = .next (s.startHead c (chanFrame ch.val) h rest) := by
  obtain ⟨hrun, hleave, hfail, habort, hup, hfree, hready⟩ := hmay
  change execDescriptorStart ch s = _
  simp [execDescriptorStart, hch, hheld, hrun, hleave, hfail, habort, hup, hfree, hready]

/-- The state in which the next descriptor has its identity. -/
def State.numbered (s : State) : State := { s with nextId := s.nextId + 1 }

/-- The descriptor that the entry `h` starts as. -/
def State.nextWork (s : State) (c : CtxNo) (f : Nat) (h : Held) : Work :=
  s.numbered.newWork c (s.ctx c) f (s.nextId + 1) h.idx h.bytes []

/-- An entry without an extension slot that no partial descriptor stands at is checked, and fails or starts (R74). -/
theorem State.startHead_of_plain {s : State} {c : CtxNo} {f : Nat} {h : Held} {rest : List Held}
    (hslot : bit (leAt h.bytes 127 1) 6 = false) (hext : bit (leAt h.bytes 2 2) 1 = false) (hpart : (s.ctx c).part = false) :
    s.startHead c f h rest =
      match s.numbered.acceptance c (s.ctx c) f h.bytes [] with
      | some r => s.numbered.begin c (s.nextWork c f h) 1 (some r)
      | none => if s.numbered.feedEmpty (s.nextWork c f h) then
          s.numbered.begin c (s.nextWork c f h) 1 (some (0x0601, 0xFFFF)) else s.numbered.begin c (s.nextWork c f h) 1 none := by
  dsimp only [State.startHead]
  rw [hslot, hext, hpart]
  rfl

/-- A descriptor that fails a check other than that of its key sets is in progress with its status (R74, R78). -/
theorem State.begin_of_bad (s : State) (c : CtxNo) (w : Work) (n : Nat) {st d : Nat} (h : st ≠ 0x0203) :
    s.begin c w n (some (st, d)) = s.modCtx c fun x =>
      { x with held := x.held.drop n,
               works := x.works ++ [{ w with ending := some (BitVec.ofNat 16 st, BitVec.ofNat 16 (min d 0xFFFF)),
                                             lastRead := true }],
               failStop := x.failStop || !x.errCont } := by
  simp only [State.begin]
  split
  · rename_i heq
    cases heq
    exact absurd rfl h
  · rfl
  · contradiction

/-- The state in which a descriptor that passed every check is in progress. -/
def State.begun (s : State) (c : CtxNo) (w : Work) (n : Nat) : State :=
  s.modCtx c fun x => { x with held := x.held.drop n, works := x.works ++ [{ w with accepted := true }],
                               failStop := x.failStop || (false && !x.errCont) }

theorem State.begin_of_sound (s : State) (c : CtxNo) (w : Work) (n : Nat) :
    s.begin c w n none = match hintOf w.main with
      | some g => (s.begun c w n).modCtx c fun x => { x with hintFrame := g, hintValid := true }
      | none => s.begun c w n := rfl

/-- A descriptor that starts is its context's newest, and sets its frame hint if it has one (R11, R72). -/
theorem State.begin_ctx {s : State} {c : CtxNo} {w : Work} {n : Nat} :
    ((s.begin c w n none).ctx c).held = (s.ctx c).held.drop n ∧
      ((s.begin c w n none).ctx c).works = (s.ctx c).works ++ [{ w with accepted := true }] ∧
      ((s.begin c w n none).ctx c).failStop = (s.ctx c).failStop ∧ ((s.begin c w n none).ctx c).state = (s.ctx c).state ∧
      (∀ g, hintOf w.main = some g → ((s.begin c w n none).ctx c).hintFrame = g) ∧
      (∀ d, d ≠ c → (s.begin c w n none).ctx d = s.ctx d) ∧ OnlyChanges [.ctxs] s (s.begin c w n none) := by
  have hbegun : OnlyChanges [.ctxs] s (s.begun c w n) := State.modCtx_changes _ _ _
  have hothers (d : CtxNo) (hd : d ≠ c) : (s.begun c w n).ctx d = s.ctx d := State.modCtx_ctx_other _ _ hd
  rw [State.begin_of_sound]
  cases hhint : hintOf w.main with
  | none => exact ⟨by simp [State.begun], by simp [State.begun], by simp [State.begun], by simp [State.begun], nofun, hothers, hbegun⟩
  | some g =>
    refine ⟨by simp [State.begun], by simp [State.begun], by simp [State.begun], by simp [State.begun], fun g' hg => ?_,
      fun d hd => ?_, hbegun.step (State.modCtx_changes _ _ _) (by decide)⟩
    · rw [State.modCtx_ctx_same]
      exact Option.some.inj hg
    · exact (State.modCtx_ctx_other _ _ hd).trans (hothers d hd)

/-! ## NOP (R56, R77) -/

theorem exec_nop {ch : Fin 1024} {c : CtxNo} {w : Work} {s : State} (hch : (s.chan ch.val).ctx = some c)
    (hmov : s.moving c (chanFrame ch.val) = true) (hworks : (s.ctx c).works = [w]) (hkind : w.kind = .nop) :
    exec (.nop ch) s = .next (s.setCtx c { s.ctx c with works := [{ w with lastRead := true }] }) := by
  change execNop ch s = _
  cases hread : w.lastRead with
  | false => simp [execNop, hch, hmov, State.modCtx, hworks, updateFirst, hkind, hread]
  | true =>
    have hsame : ({ w with lastRead := true } : Work) = w := by rw [← hread]
    simp [execNop, hch, hmov, State.modCtx, hworks, updateFirst, hread, hsame]

/-- Settles O35: a fetched entry is `Ctx.fetched`, a start one of the cases of `State.startHead_of_plain`. -/
theorem fetchAndStart : Obligations.FetchAndStart := by
  refine ⟨?_, ?_, fun ch c w s => exec_nop⟩
  · intro ch c data fail p u s hch x e hrun hleave hfail habort hblocked hup hhalt hroom hlen hroute hu
    have hexec := exec_descriptorFetchReturn (fail := fail) hch ⟨hrun, hleave, hfail, habort, hblocked, hup, hhalt, hroom⟩ hlen hroute
    rw [fetchRead_of_some hu] at hexec
    have hctx (d : CtxNo) : u.ctx d = s.ctx d := (State.ringRead_changes_of_some hu).ctx_eq (by decide) d
    refine ⟨fun hf => ?_, fun hf => ?_⟩
    · rw [hexec, if_pos hf]
    · rw [hf, if_neg nofun] at hexec
      rw [hf]
      refine ⟨_, hexec, fun d hd => ?_, ?_⟩
      · rw [State.modCtx_ctx_other _ _ hd, hctx]
      · rw [State.modCtx_ctx_same, hctx]
        exact ⟨Ctx.fetched_of_owned hblocked, Ctx.fetched_of_unowned hblocked⟩
  · intro ch c h rest s hch x u w hheld hrun hleave hfail habort hup hfree hready hslot hext hpart
    have hexec := exec_descriptorStart hch hheld ⟨hrun, hleave, hfail, habort, hup, hfree, hready⟩
    rw [State.startHead_of_plain hslot hext hpart] at hexec
    refine ⟨fun st d hbad hst => ?_, fun hok hfeed => ?_⟩
    · have hbad' : s.numbered.acceptance c (s.ctx c) (chanFrame ch.val) h.bytes [] = some (st, d) := hbad
      rw [hexec, hbad']
      dsimp only
      rw [State.begin_of_bad _ _ _ _ hst]
      have hctx : s.numbered.ctx c = x := rfl
      rw [State.modCtx, hctx, hheld, hfail]
      rfl
    · have hok' : s.numbered.acceptance c (s.ctx c) (chanFrame ch.val) h.bytes [] = none := hok
      have hfeed' : s.numbered.feedEmpty (s.nextWork c (chanFrame ch.val) h) = false := hfeed
      rw [hok'] at hexec
      dsimp only at hexec
      rw [hfeed', if_neg nofun] at hexec
      obtain ⟨hheld', hworks, hstop, hstate, hhint, hothers, hchanges⟩ :=
        State.begin_ctx (s := s.numbered) (c := c) (w := s.nextWork c (chanFrame ch.val) h) (n := 1)
      have hctx (d : CtxNo) : s.numbered.ctx d = s.ctx d := rfl
      rw [hctx] at hheld' hworks hstop hstate
      refine ⟨_, hexec, ?_, hworks, hstop.trans hfail, hstate.trans hrun, hhint, hothers, ?_⟩
      · rw [hheld', hheld]
        rfl
      · exact (OnlyChanges.put_nextId _ (OnlyChanges.refl _ _) (by decide)).step hchanges (by decide)

end Sys2Proof.Machine

/-! # Proofs: COPY, one step at a time (R63, R96, R208, R216, R230)

A copy's step is the first of its ten possible ones. The lemmas say when a possible step is not taken and what the laying out
of a unit, the passing on of a chunk, the sending of a piece to ports and the end of a unit each leave. -/
namespace Sys2Proof.Machine

/-! ## Which step it is -/

theorem State.copyStep_of_moving {s : State} {c : CtxNo} {w : Work} (hk : w.kind = .copy) (hend : w.ending = none)
    (hst : w.stage = .moving) :
    s.copyStep c w =
      (s.handOut c w <|> s.headRead c w <|> s.trim c w <|> s.emit c w <|> s.aheadTag c w <|> s.listAhead c w <|>
        s.endUnit c w <|> s.startUnit c w <|> s.evict c w <|> s.closeGroups c w) := by
  simp [State.copyStep, hk, hend, hst]

theorem exec_copy {ch : Fin 1024} {c : CtxNo} {w : Work} {s t : State} (hch : (s.chan ch.val).ctx = some c)
    (hmov : s.moving c (chanFrame ch.val) = true) (hw : (s.ctx c).works = [w]) (h : s.copyStep c w = some t) :
    exec (.copy ch) s = .next t := by
  change execCopy ch s = _
  simp [execCopy, hch, hmov, hw, h]

theorem State.handOut_of_no_outs {s : State} {c : CtxNo} {w : Work} (h : w.outs = []) : s.handOut c w = none := by
  simp [State.handOut, h]

theorem State.headRead_of_no_reads {s : State} {c : CtxNo} {w : Work} (h : w.reads = []) : s.headRead c w = none := by
  simp [State.headRead, h]

theorem State.trim_of_not_asked {s : State} {c : CtxNo} {w : Work} (h : w.asked = false) : s.trim c w = none := by
  simp [State.trim, h]

theorem State.emit_of_not_asked {s : State} {c : CtxNo} {w : Work} (h : w.asked = false) : s.emit c w = none := by
  simp [State.emit, h]

theorem State.emit_of_all_emitted {s : State} {c : CtxNo} {w : Work} (h : w.size ≤ w.emitted) : s.emit c w = none := by
  simp [State.emit, h]

theorem State.aheadTag_of_not_asked {s : State} {c : CtxNo} {w : Work} (h : w.asked = false) : s.aheadTag c w = none := by
  simp [State.aheadTag, h]

theorem State.listAhead_of_not_asked {s : State} {c : CtxNo} {w : Work} (h : w.asked = false) : s.listAhead c w = none := by
  simp [State.listAhead, h]

theorem State.endUnit_of_not_asked {s : State} {c : CtxNo} {w : Work} (h : w.asked = false) : s.endUnit c w = none := by
  simp [State.endUnit, h]

/-! ## The next unit's reads (R96, R208) -/

theorem State.startUnit_of_entry {s : State} {c : CtxNo} {w : Work} {e : Entry} (hask : w.asked = false)
    (hunit : w.unit < w.units) (hleave : (s.ctx c).leave ≠ .resume) (hstage : s.stageNeed w = 0)
    (huse : s.listUse c w = .entry e) : s.startUnit c w = some (s.layUnit c w e) := by
  simp [State.startUnit, hask, Nat.not_le.mpr hunit, hleave, hstage, huse]

/-- The descriptor once the reads of an untagged unit are laid out. -/
def State.laidOut (s : State) (w : Work) (e : Entry) : Work :=
  Work.noteIssued { w with asked := true, emitted := 0, tileOk := true, tileTag := [], ahead := false,
                           reads := s.unitReads w e 0 }

theorem State.layUnit_of_untagged {s : State} {c : CtxNo} {w : Work} {e : Entry} {rest : List Work}
    (hw : (s.ctx c).works = w :: rest) (hreads : w.reads = []) (hin : w.tagIn = false) (hout : w.tagOut = false) :
    s.layUnit c w e = s.setCtx c { s.ctx c with works := s.laidOut w e :: rest } := by
  simp [State.layUnit, hin, hout, State.modWork_head hw, State.laidOut, hreads]

/-- A copy with nothing in hand and nothing asked for lays out its next unit. -/
theorem State.copyStep_lays {s : State} {c : CtxNo} {w : Work} {e : Entry} (hk : w.kind = .copy) (hend : w.ending = none)
    (hst : w.stage = .moving) (hask : w.asked = false) (houts : w.outs = []) (hreads : w.reads = [])
    (hstart : s.startUnit c w = some (s.layUnit c w e)) : s.copyStep c w = some (s.layUnit c w e) := by
  simp [State.copyStep_of_moving hk hend hst, State.handOut_of_no_outs houts, State.headRead_of_no_reads hreads,
    State.trim_of_not_asked hask, State.emit_of_not_asked hask, State.aheadTag_of_not_asked hask,
    State.listAhead_of_not_asked hask, State.endUnit_of_not_asked hask, hstart]

/-! ## The end of a unit -/

/-- The descriptor at the start of its next unit. -/
def Work.unitEnded (w : Work) : Work :=
  { w with unit := w.unit + 1, asked := false, emitted := 0, tileOk := false, tileTag := [] }

/-- Whether a slot is not needed once the descriptor stands at its next unit. -/
def Work.slotUsed (w : Work) (q : Slot) : Bool :=
  q.what == .data || (q.what == .list && (decide (w.units ≤ w.unit) || decide (q.addr < w.listRead.addr)))

theorem State.endUnit_of_left {s : State} {c : CtxNo} {w : Work} (hask : w.asked = true) (houts : w.outs = [])
    (hreads : w.reads = []) (hfly : s.dataFlying c w = false) (hcross : s.crossing c w = false) (hsize : w.size ≤ w.emitted) :
    s.endUnit c w = some ((s.freeSlotsOf w.frame c w.id w.unitEnded.slotUsed).modWork c w.id fun _ => w.unitEnded) := by
  rw [State.endUnit, if_neg (by simp [hask, houts, hreads, hfly, hcross, hsize])]
  rfl

/-- A copy whose unit's positions have all left ends the unit when it has nothing else to do. -/
theorem State.copyStep_ends {s t : State} {c : CtxNo} {w : Work} (hk : w.kind = .copy) (hend : w.ending = none)
    (hst : w.stage = .moving) (houts : w.outs = []) (hreads : w.reads = []) (hsize : w.size ≤ w.emitted)
    (htrim : s.trim c w = none) (hahead : s.aheadTag c w = none) (hlist : s.listAhead c w = none)
    (h : s.endUnit c w = some t) : s.copyStep c w = some t := by
  simp [State.copyStep_of_moving hk hend hst, State.handOut_of_no_outs houts, State.headRead_of_no_reads hreads, htrim,
    State.emit_of_all_emitted hsize, hahead, hlist, h]

/-! ## The chunk in hand (R100, R230) -/

/-- The checksum does not change over no bytes. -/
theorem Work.sum_sum_nil (w : Work) (x : Bytes) : ({ w with crc := w.sum [] } : Work).sum x = w.sum x := by
  have hmode (v : Word) : ({ w with crc := v } : Work).csumMode = w.csumMode := rfl
  obtain h | h | h : w.csumMode = 1 ∨ w.csumMode = 2 ∨ w.csumMode ≠ 1 ∧ w.csumMode ≠ 2 := by omega
  · simp [Work.sum, hmode, h, crc32cFrom]
  · simp [Work.sum, hmode, h, crc64From]
  · simp [Work.sum, hmode, h]

/-- The pieces of a chunk that leave, and those that stay open. -/
def Work.leaving (w : Work) (out : List OutByte) (more : Bool) : List OutPiece × Store OutPiece :=
  if w.box.stream then (if out = [] then [] else [w.box.streamPiece out], []) else w.box.gatherPieces w.opened out more

/-- The descriptor once a chunk of `n` positions is passed on as the bytes `out` in the pieces `g`. -/
def Work.passedOn (w : Work) (n : Nat) (out : List OutByte) (g : List OutPiece × Store OutPiece) : Work :=
  { w with emitted := w.emitted + n, crc := w.sum (out.map (·.byte)), opened := g.2, outs := g.1 }

/-- The draws of stochastic rounding and the arbitrary bits once a chunk of `n` positions and `k` bytes is passed on. -/
def State.drawn (s : State) (w : Work) (n k : Nat) : State :=
  let rounds := w.ct.isNone && (parseXf w.main).round = 2
  { s.modFrame w.frame fun f => { f with draws := if rounds then f.draws + n else f.draws } with free := s.free + n + k }

theorem State.drawn_changes (s : State) (w : Work) (n k : Nat) : OnlyChanges [.frames, .free] s (s.drawn w n k) :=
  OnlyChanges.put_free _ ((State.modFrame_changes s _ _).mono (by decide)) (by decide)

/-- What `emit` asks of a descriptor and its chunk `l`: the elements `xs` of an untagged byte destination are in hand. -/
structure State.InHand (s : State) (c : CtxNo) (w : Work) (l : List (List Nat × Place)) (xs : List OutElem) : Prop where
  asked : w.asked = true
  tileOk : w.tileOk = true
  outs : w.outs = []
  reads : w.reads = []
  landed : s.dataFlying c w = false
  left : w.emitted < w.size
  noCt : w.ct = none
  bytes : isPlanar w.box.delem = false
  chunk : s.chunk w (s.entryOf c w) = l
  sound : ∀ p st d, l.getLast? = some p → p.2 ≠ .bad st d
  elems : s.chunkElems c w l = some xs

theorem State.emit_of_inHand {s : State} {c : CtxNo} {w : Work} {rest : List Work} {l : List (List Nat × Place)}
    {xs : List OutElem} (h : s.InHand c w l xs) (hw : (s.ctx c).works = w :: rest) :
    let out := byteOut (elemBytes w.box.delem) xs
    let more := decide (l.length < w.box.rowLeft w.unitKind w.unit w.emitted) && decide (l.length = scanLimit)
    s.emit c w = some ((s.drawn w l.length out.length).setCtx c
      { s.ctx c with works := w.passedOn l.length out (w.leaving out more) :: rest }) := by
  obtain ⟨hask, htile, houts, hreads, hfly, hsize, hct, hbyte, rfl, hsound, helems⟩ := h
  intro out more
  have hfill : s.filling c w = false := by simp [State.filling, hreads, hfly]
  unfold State.emit
  extract_lets b e l x free last more' tag o tp crc0 w' pre post rounds s₁
  have hmore : more' = more := by simp [more', more, b, l, e, hbyte]
  have htag : tag = [] := by simp [tag, hct]
  have hpre : pre = [] := by simp [pre, tp, htag]
  have hpost : post = [] := by simp [post, tp, htag]
  have hsum (x : Bytes) : w'.sum x = w.sum x := by
    simp only [w', crc0, htag]
    split
    · exact w.sum_sum_nil x
    · rfl
  rw [if_neg (by simp [hask, htile, houts, hfill, hsize])]
  split
  next q st d hlast => exact absurd rfl (hsound _ st d hlast)
  next =>
    rw [show s.chunkElems c w l = some xs from helems, Option.map_some]
    refine congrArg some ?_
    extract_lets out' lv s₂
    have hout : out' = out := if_neg (by simp [b, hbyte])
    have hlv : lv = w.leaving out more := by simp only [lv, hout, hmore]; rfl
    have hs₂ : s₂ = s.drawn w l.length out.length := by simp only [s₂, hout]; rfl
    have hd : ((s.drawn w l.length out.length).ctx c).works = w :: rest := hw
    rw [hs₂, State.modWork_head hd, hsum, hout, hlv, hpre, hpost, List.nil_append, List.append_nil]
    rfl

/-! ## A piece toward ports (R107, R216, R220) -/

/-- One landing credit taken of each port listed. -/
def State.takeCredits (s : State) (ps : List Nat) : State :=
  ps.foldl (fun s n => s.setPort n { s.port n with landCr := (s.port n).landCr - 1 }) s

/-- Beats that arrive at the ports listed. -/
def State.landAt (s : State) (own : List Nat) (b : Nat → Beat) : State :=
  own.foldl (fun s n => s.setPort n { s.port n with landing := (s.port n).landing ++ [b n] }) s

theorem State.takeCredits_changes (s : State) (ps : List Nat) : OnlyChanges [.ports] s (s.takeCredits ps) :=
  OnlyChanges.foldl _ (fun t n => State.setPort_changes t n _) _ _ (.refl _ _)

theorem State.landAt_changes (s : State) (own : List Nat) (b : Nat → Beat) : OnlyChanges [.ports] s (s.landAt own b) :=
  OnlyChanges.foldl _ (fun t n => State.setPort_changes t n _) _ _ (.refl _ _)

theorem State.takeCredits_port {ps : List Nat} (h : ps.Nodup) (s : State) (n : Nat) :
    (s.takeCredits ps).port n = if n ∈ ps then { s.port n with landCr := (s.port n).landCr - 1 } else s.port n :=
  foldl_upd_get (get := State.port) (f := fun x => { x with landCr := x.landCr - 1 })
    (fun t i => t.setPort_port_same i _) (fun t _ _ hj => t.setPort_port_other _ hj) h s n

theorem State.landAt_port_of_not_mem {own : List Nat} {b : Nat → Beat} {n : Nat} (h : n ∉ own) (s : State) :
    (s.landAt own b).port n = s.port n := by
  refine List.foldlRecOn own _ (motive := fun (t : State) => t.port n = s.port n) rfl fun t ht i hi => ?_
  have hne : n ≠ i := fun hn => h (hn ▸ hi)
  rw [State.setPort_port_other _ _ hne, ht]

theorem State.landAt_landCr (s : State) (own : List Nat) (b : Nat → Beat) (n : Nat) :
    ((s.landAt own b).port n).landCr = (s.port n).landCr := by
  refine List.foldlRecOn own _ (motive := fun (t : State) => (t.port n).landCr = (s.port n).landCr) rfl fun t ht i _ => ?_
  by_cases hn : n = i
  · subst hn
    simpa using ht
  · rw [State.setPort_port_other _ _ hn, ht]

theorem OutPiece.nodup_cores (p : OutPiece) : p.cores.Nodup := List.nodup_range.map (add_right_injective p.core)

/-- A piece is sent when each of its ports has a landing credit. -/
theorem State.sendPiece_of_credits {s : State} {f : Nat} {c : CtxNo} {w : Work} {rest : List Work} {t : Tenant} {p : OutPiece}
    (hw : (s.ctx c).works = w :: rest) (hcr : ∀ n ∈ p.cores, 0 < (s.port n).landCr) :
    ∃ u v, s.sendPiece f c w t p = some u ∧ (u.ctx c).works = v :: rest ∧ v.outs = w.outs.drop 1 ∧
      v.writesOut = w.writesOut + p.cores.length ∧ (∀ n ∈ p.cores, (u.port n).landCr + 1 = (s.port n).landCr) ∧
      ∀ n, n ∉ p.cores → u.port n = s.port n := by
  have hany : ¬(p.cores.any fun n => decide ((s.port n).landCr = 0)) = true := by
    simpa [Nat.pos_iff_ne_zero] using hcr
  unfold State.sendPiece
  extract_lets ps s₁ first own s₂ others s₃ s₄
  have hs₂ : s₂ = (s.takeCredits p.cores).landAt own fun n => p.beat c w.id t (n = first) := rfl
  have hctx : s₃.ctx c = s.ctx c := by
    have h : OnlyChanges [.ports] s s₂ := hs₂ ▸ (State.takeCredits_changes s p.cores).trans (State.landAt_changes _ own _)
    exact h.ctx_eq (by decide) c
  have hport (n : Nat) : s₄.port n = s₂.port n := by
    simp only [s₄]
    split <;> rfl
  obtain ⟨v, hv, hid, houts, hwr⟩ : ∃ v, (s₄.ctx c).works = v :: rest ∧ v.id = w.id ∧ v.outs = w.outs ∧
      v.writesOut = w.writesOut := by
    have hw₃ : (s₃.ctx c).works = w :: rest := hctx ▸ hw
    simp only [s₄]
    split
    · rw [State.leave, State.modWork_head hw₃]
      exact ⟨{ w with left := w.left + p.bytes.length }, by simp, rfl, rfl, rfl⟩
    · exact ⟨w, hw₃, rfl, rfl, rfl⟩
  rw [if_neg hany, ← hid, State.modWork_head hv]
  refine ⟨_, { v with outs := v.outs.drop 1, writesOut := v.writesOut + p.cores.length }, rfl, by simp; rfl, by rw [houts],
    by rw [hwr], fun n hn => ?_, fun n hn => ?_⟩
  · have := hcr n hn
    rw [State.setCtx_port, hport, hs₂, State.landAt_landCr, State.takeCredits_port p.nodup_cores, if_pos hn]
    dsimp only
    omega
  · have hown : n ∉ own := fun h => hn (List.mem_filter.mp h).1
    rw [State.setCtx_port, hport, hs₂, State.landAt_port_of_not_mem hown, State.takeCredits_port p.nodup_cores, if_neg hn]

theorem State.copyStep_of_handOut {s t : State} {c : CtxNo} {w : Work} (hk : w.kind = .copy) (hend : w.ending = none)
    (hst : w.stage = .moving) (h : s.handOut c w = some t) : s.copyStep c w = some t := by
  simp [State.copyStep_of_moving hk hend hst, h]

theorem State.copyStep_of_emit {s t : State} {c : CtxNo} {w : Work} (hk : w.kind = .copy) (hend : w.ending = none)
    (hst : w.stage = .moving) (houts : w.outs = []) (hreads : w.reads = []) (htrim : s.trim c w = none)
    (h : s.emit c w = some t) : s.copyStep c w = some t := by
  simp [State.copyStep_of_moving hk hend hst, State.handOut_of_no_outs houts, State.headRead_of_no_reads hreads, htrim, h]

/-- A context changed after steps that keep it. -/
theorem OnlyChanges.setCtx {ps : List Part} {s t : State} (h : OnlyChanges ps s t) (hp : Part.ctxs ∈ ps) (c : CtxNo) (x : Ctx) :
    OnlyChanges ps s (t.setCtx c x) :=
  h.step (State.setCtx_changes t c x) (by simpa using hp)

/-- Settles O36: each clause names the step that the copy makes, and its lemma says what the step leaves. -/
theorem copyMovesUnitByUnit : Obligations.CopyMovesUnitByUnit := by
  unfold Obligations.CopyMovesUnitByUnit
  intro ch c w s hch hmov hw hk hend hst goesOn
  have hexec {t : State} (h : s.copyStep c w = some t) : exec (.copy ch) s = .next t := exec_copy hch hmov hw h
  refine ⟨fun e hask houts hreads hunit hleave hstage huse hin hout => ?_, ?_,
    fun p rest houts hspace hcr => ?_, fun hask houts hreads hfly hcross hsize htrim hahead hlist => ?_⟩
  · have hstart := State.startUnit_of_entry (c := c) hask hunit hleave hstage huse
    have hstep := State.copyStep_lays hk hend hst hask houts hreads hstart
    rw [State.layUnit_of_untagged hw hreads hin hout] at hstep
    exact ⟨_, ⟨hexec hstep, State.setCtx_ctx_same _ _ _⟩, State.setCtx_changes _ _ _⟩
  · intro xs hask htile houts hreads hfly hsize htrim hct hbyte l out more hsound helems
    have hemit := State.emit_of_inHand ⟨hask, htile, houts, hreads, hfly, hsize, hct, hbyte, rfl, hsound, helems⟩ hw
    have hnext := hexec (State.copyStep_of_emit hk hend hst houts hreads htrim hemit)
    have hdrawn : OnlyChanges [.ctxs, .frames, .free] s (s.drawn w l.length out.length) :=
      (State.drawn_changes _ _ _ _).mono (by decide)
    have hgo : ∃ t, goesOn t (w.passedOn l.length out (w.leaving out more)) ∧ OnlyChanges [.ctxs, .frames, .free] s t :=
      ⟨_, ⟨hnext, State.setCtx_ctx_same _ _ _⟩, hdrawn.setCtx (by decide) c _⟩
    refine ⟨fun hstream hne => ?_, fun hstream => ?_⟩
    · rw [Work.leaving, if_pos hstream, if_neg hne] at hgo
      exact hgo
    · rw [Work.leaving, if_neg (by simp [hstream])] at hgo
      exact hgo
  · obtain ⟨u, v, hu, hv, hvo, hvw, hin, hout⟩ := State.sendPiece_of_credits (f := w.frame) (t := (s.ctx c).tenant) hw hcr
    have hhand : s.handOut c w = some u := by simp [State.handOut, houts, hspace, hu]
    refine ⟨u, hexec (State.copyStep_of_handOut hk hend hst hhand), ?_, hin, hout, ?_⟩
    · rw [hv]
      simp [hvo, houts, hvw]
    · exact OnlyChanges.mono (State.sendPiece_changes s w.frame c w _ p u hu) (by decide)
  · have hstep := State.endUnit_of_left hask houts hreads hfly hcross hsize
    rw [State.modWork_head (show ((s.freeSlotsOf _ _ _ _).ctx c).works = [w] from hw)] at hstep
    refine ⟨_, ⟨hexec (State.copyStep_ends hk hend hst houts hreads hsize htrim hahead hlist hstep), State.setCtx_ctx_same _ _ _⟩,
      OnlyChanges.setCtx ((State.freeSlotsOf_changes _ _ _ _ _).mono (by decide)) (by decide) c _⟩

end Sys2Proof.Machine

/-! # Proofs: completion (R59, R63, R76, R78, R80, R169)

What the settling of a status and the completion of a descriptor each leave: the service request queued, the context's
account of its descriptors, and the tally on done. -/
namespace Sys2Proof.Machine

/-! ## The status is settled (R63, R75) -/

/-- The descriptor with the status and detail that it completes with. -/
def Work.judged (w : Work) : Work := { w with status := w.outcome.1, detail := w.outcome.2 }

theorem Work.settled_judged (w : Work) : w.judged.settled = w.judged := by
  rw [Work.settled]
  split <;> rfl

/-- The state once the oldest descriptor's status is settled: a failed one without ERR_CONT stops its context. -/
def State.judged (s : State) (c : CtxNo) (w : Work) : State :=
  let t := s.modWork c w.id fun _ => w.judged
  if failed w.outcome.1 && !(t.ctx c).errCont && (t.ctx c).state != .stopped then t.modCtx c fun x => { x with failStop := true }
  else t

theorem State.judged_changes (s : State) (c : CtxNo) (w : Work) : OnlyChanges [.ctxs] s (s.judged c w) := by
  have h := State.modWork_changes s c w.id fun _ => w.judged
  dsimp only [State.judged]
  split
  · exact h.step (State.modCtx_changes _ _ _) (by decide)
  · exact h

theorem State.judged_frame (s : State) (c : CtxNo) (w : Work) (f : Nat) : (s.judged c w).frame f = s.frame f := by
  dsimp only [State.judged]
  split <;> rfl

theorem State.judged_ctx {s : State} {c : CtxNo} {w : Work} {rest : List Work} (hw : (s.ctx c).works = w :: rest) :
    ∃ b, (s.judged c w).ctx c = { s.ctx c with works := w.judged :: rest, failStop := b } := by
  have ht : (s.modWork c w.id fun _ => w.judged).ctx c = { s.ctx c with works := w.judged :: rest } := by
    rw [State.modWork_head hw, State.setCtx_ctx_same]
  dsimp only [State.judged]
  split
  · exact ⟨true, by rw [State.modCtx_ctx_same, ht]⟩
  · exact ⟨(s.ctx c).failStop, ht⟩

/-- Without a checksum result to send, the slot or the status follows at once. -/
theorem State.settleStatus_of_no_csum {s : State} {c : CtxNo} {w : Work}
    (h : failed w.outcome.1 = true ∨ w.csumMode = 0 ∨ w.kind = .nop ∨ w.kind = .wait) :
    s.settleStatus c w = (s.judged c w).queueSlot c w.judged := by
  have hwants : ¬(w.judged.wantsCsum && w.judged.kind != .nop && w.judged.kind != .wait) = true := by
    have ho : w.judged.outcome = w.outcome := rfl
    have hm : w.judged.csumMode = w.csumMode := rfl
    have hk : w.judged.kind = w.kind := rfl
    rw [Work.wantsCsum, ho, hm, hk]
    obtain h | h | h | h := h <;> simp [h]
  exact if_neg hwants

theorem exec_descriptorComplete_of_done {c : CtxNo} {w : Work} {rest : List Work} {s : State} (hhalt : s.faults.halted = false)
    (hw : (s.ctx c).works = w :: rest) (hst : w.stage = .moving) (hdrain : (s.frame w.frame).draining = false)
    (hdone : s.dataDone c w = true) : exec (.descriptorComplete c) s = .next (s.settleStatus c w) := by
  change execDescriptorComplete c s = _
  simp [execDescriptorComplete, State.completeStep, hhalt, hw, hst, hdrain, hdone]

/-- The state once a completing write `p` of the oldest descriptor is queued in frame `g`, that descriptor standing as `v`. -/
def State.queued (s : State) (c : CtxNo) (g : Nat) (p : OutPiece) (v : Work) (rest : List Work) : State :=
  (s.modFrame g fun x => { x with svc := x.svc ++ [.write c v.id v.idx p] }).setCtx c { s.ctx c with works := v :: rest }

theorem State.svcWrite_head {s : State} {c : CtxNo} {w : Work} {rest : List Work} {g : Nat} (p : OutPiece) (st : DoneStage)
    (hw : (s.ctx c).works = w :: rest) (hg : s.svcFrame w.frame = some g) :
    s.svcWrite c w p st = s.queued c g p { w with stage := st } rest := by
  have hm : ((s.modFrame g fun x => { x with svc := x.svc ++ [.write c w.id w.idx p] }).ctx c).works = w :: rest := hw
  rw [State.svcWrite, hg]
  exact State.modWork_head hm _

/-- A descriptor without an extension slot, its status settled: its status write is queued. -/
theorem State.queueSlot_of_no_slot {s : State} {c : CtxNo} {w : Work} {rest : List Work} {g : Nat}
    (hw : (s.ctx c).works = w :: rest) (hg : s.svcFrame w.frame = some g) (hset : w.settled = w) (hslot : w.slot = []) :
    s.queueSlot c w = (s.setCtx c (s.ctx c)).queued c g
      (piece .status (s.ctx c).ringSpace ((s.ctx c).entryAddr w.idx.toNat + 120) w.statusBytes)
      { w with stage := .status } rest := by
  have hmod : (s.modWork c w.id fun v => { v with status := w.status, detail := w.detail }) = s.setCtx c (s.ctx c) := by
    rw [State.modWork_head hw]
    simp only [← hw]
  have hw' : ((s.setCtx c (s.ctx c)).ctx c).works = w :: rest := by rw [State.setCtx_ctx_same, hw]
  rw [State.queueSlot, if_pos hslot, State.queueStatus, hset, hmod]
  exact State.svcWrite_head _ _ hw' hg

/-- A descriptor with an extension slot: the slot is freed first. -/
theorem State.queueSlot_of_slot {s : State} {c : CtxNo} {w : Work} {rest : List Work} {g : Nat}
    (hw : (s.ctx c).works = w :: rest) (hg : s.svcFrame w.frame = some g) (hslot : w.slot ≠ []) :
    s.queueSlot c w = s.queued c g
      (piece .slotFree (s.ctx c).ringSpace ((s.ctx c).entryAddr ((s.ctx c).next w.idx.toNat 1).toNat + 127) [0x40])
      { w with stage := .slot } rest := by
  rw [State.queueSlot, if_neg hslot]
  exact State.svcWrite_head _ _ hw hg

/-- What a queued write leaves, seen from the state `s` before the status was settled. -/
theorem State.queued_spec {s u : State} {c : CtxNo} (hframe : ∀ f, u.frame f = s.frame f) (hch : OnlyChanges [.ctxs] s u)
    (g : Nat) (p : OutPiece) (v : Work) (rest : List Work) :
    ((u.queued c g p v rest).ctx c).works = v :: rest ∧
      (u.queued c g p v rest).frame g = { s.frame g with svc := (s.frame g).svc ++ [.write c v.id v.idx p] } ∧
      (∀ f, f ≠ g → (u.queued c g p v rest).frame f = s.frame f) ∧
      OnlyChanges [.ctxs, .frames] s (u.queued c g p v rest) := by
  refine ⟨?_, ?_, fun f hf => ?_, ?_⟩
  · rw [State.queued, State.setCtx_ctx_same]
  · rw [State.queued, State.setCtx_frame, State.modFrame_frame_same, hframe]
  · rw [State.queued, State.setCtx_frame, State.modFrame_frame_other _ _ hf, hframe]
  · exact OnlyChanges.setCtx ((hch.mono (by decide)).step (State.modFrame_changes _ _ _) (by decide)) (by decide) c _

/-- The frame that carries a descriptor's last writes does not depend on its status. -/
theorem State.judged_svcFrame (s : State) (c : CtxNo) (w : Work) (f : Nat) : (s.judged c w).svcFrame f = s.svcFrame f := by
  simp only [State.svcFrame, State.judged_frame]

/-- A settled descriptor without an extension slot waits for its status write to leave. -/
theorem State.settleStatus_queues_status {s : State} {c : CtxNo} {w : Work} {rest : List Work} {g : Nat}
    (hw : (s.ctx c).works = w :: rest) (hg : s.svcFrame w.frame = some g)
    (hcsum : failed w.outcome.1 = true ∨ w.csumMode = 0 ∨ w.kind = .nop ∨ w.kind = .wait) (hslot : w.slot = []) :
    ∃ u, (∀ f, u.frame f = s.frame f) ∧ OnlyChanges [.ctxs] s u ∧ s.settleStatus c w =
      u.queued c g (piece .status (s.ctx c).ringSpace ((s.ctx c).entryAddr w.idx.toNat + 120) w.judged.statusBytes)
        { w.judged with stage := .status } rest := by
  obtain ⟨b, hb⟩ := State.judged_ctx hw
  have hj : ((s.judged c w).ctx c).works = w.judged :: rest := by rw [hb]
  have hg' := (s.judged_svcFrame c w w.frame).trans hg
  refine ⟨(s.judged c w).setCtx c ((s.judged c w).ctx c), s.judged_frame c w,
    (State.judged_changes s c w).setCtx (by decide) c _, ?_⟩
  rw [State.settleStatus_of_no_csum hcsum, State.queueSlot_of_no_slot hj hg' w.settled_judged hslot, hb]
  rfl

/-- One with an extension slot waits for the write that frees the slot. -/
theorem State.settleStatus_queues_slot {s : State} {c : CtxNo} {w : Work} {rest : List Work} {g : Nat}
    (hw : (s.ctx c).works = w :: rest) (hg : s.svcFrame w.frame = some g)
    (hcsum : failed w.outcome.1 = true ∨ w.csumMode = 0 ∨ w.kind = .nop ∨ w.kind = .wait) (hslot : w.slot ≠ []) :
    s.settleStatus c w = (s.judged c w).queued c g
      (piece .slotFree (s.ctx c).ringSpace ((s.ctx c).entryAddr ((s.ctx c).next w.idx.toNat 1).toNat + 127) [0x40])
      { w.judged with stage := .slot } rest := by
  obtain ⟨b, hb⟩ := State.judged_ctx hw
  have hj : ((s.judged c w).ctx c).works = w.judged :: rest := by rw [hb]
  have hg' := (s.judged_svcFrame c w w.frame).trans hg
  rw [State.settleStatus_of_no_csum hcsum, State.queueSlot_of_slot hj hg' hslot, hb]
  rfl

/-! ## What follows a completion (R68, R78, R79) -/

/-- What a context records of its descriptors. -/
def Ctx.account (x : Ctx) : BitVec 16 × List Work × Bool × BitVec 40 × BitVec 31 × BitVec 16 × BitVec 16 :=
  (x.doneIdx, x.works, x.part, x.cursor, x.descDone, x.lastErr, x.lastErrIdx)

/-- The tallies and barriers of two states are the same. -/
def SameTallies (s t : State) : Prop := t.tally.val = s.tally.val ∧ t.tally.bars = s.tally.bars

theorem SameTallies.trans {s t u : State} (h : SameTallies s t) (k : SameTallies t u) : SameTallies s u :=
  ⟨k.1.trans h.1, k.2.trans h.2⟩

theorem SameTallies.of_changes {ps : List Part} {s t : State} (h : OnlyChanges ps s t) (hp : Part.tally ∉ ps) : SameTallies s t := by
  have ht : t.tally = s.tally := h .tally hp
  exact ⟨by rw [ht], by rw [ht]⟩

theorem State.lendPresent_sameTallies (s : State) (a b : Nat) : SameTallies s (s.lendPresent a b) := by
  unfold State.lendPresent
  split <;> exact ⟨rfl, rfl⟩

theorem State.lendLower_sameTallies (s : State) : SameTallies s s.lendLower := by
  unfold State.lendLower
  extract_lets gone goneC s₁ s₂
  have h₁ : SameTallies s s₁ :=
    .of_changes (OnlyChanges.foldl _ (fun t ch => State.setChan_changes t ch _) gone s (.refl [.chans] s)) (by decide)
  have h₂ : SameTallies s₁ s₂ := ⟨rfl, rfl⟩
  exact (h₁.trans h₂).trans (State.lendPresent_sameTallies _ _ _)

theorem State.movedIf_sameTallies (s : State) (b : Bool) : SameTallies s (s.movedIf b) := by
  unfold State.movedIf
  split <;> exact ⟨rfl, rfl⟩

theorem State.unbind_sameTallies (s : State) (c : CtxNo) : SameTallies s (s.unbind c) := by
  cases h : (s.ctx c).bound with
  | false => rw [State.unbind_of_not_bound h]; exact ⟨rfl, rfl⟩
  | true =>
    rw [State.unbind_of_bound h]
    exact SameTallies.trans ⟨rfl, rfl⟩ (State.lendLower_sameTallies _)

theorem State.disarm_sameTallies (s : State) (c : CtxNo) : SameTallies s (s.disarm c) :=
  SameTallies.trans ⟨rfl, rfl⟩ (State.lendLower_sameTallies _)

theorem State.toState_sameTallies (s : State) (c : CtxNo) (st : CtxState) : SameTallies s (s.toState c st) :=
  .of_changes (State.toState_changes s c st) (by decide)

/-- The context's account and the tallies as they were. -/
def KeepsAccount (c : CtxNo) (s t : State) : Prop := (t.ctx c).account = (s.ctx c).account ∧ SameTallies s t

theorem KeepsAccount.trans {c : CtxNo} {s t u : State} (h : KeepsAccount c s t) (k : KeepsAccount c t u) : KeepsAccount c s u :=
  ⟨k.1.trans h.1, h.2.trans k.2⟩

theorem Ctx.unbound_account (x : Ctx) : x.unbound.account = x.account := by
  rw [x.unbound_eq]
  rfl

theorem State.unbind_keepsAccount (s : State) (c : CtxNo) : KeepsAccount c s (s.unbind c) :=
  ⟨by rw [State.unbind_ctx_same, Ctx.unbound_account], s.unbind_sameTallies c⟩

theorem State.toState_keepsAccount (s : State) (c : CtxNo) (st : CtxState) : KeepsAccount c s (s.toState c st) :=
  ⟨by rw [State.toState_ctx_same]; rfl, s.toState_sameTallies c st⟩

theorem State.disarm_keepsAccount (s : State) (c : CtxNo) : KeepsAccount c s (s.disarm c) :=
  ⟨by rw [State.disarm_ctx_same]; rfl, s.disarm_sameTallies c⟩

theorem State.stopIfDone_keepsAccount (s : State) (c : CtxNo) : KeepsAccount c s (s.stopIfDone c) := by
  unfold State.stopIfDone
  extract_lets x
  split
  · have hstop (t : State) : KeepsAccount c t (t.modCtx c fun x => { x with failStop := false }) :=
      ⟨by rw [State.modCtx_ctx_same]; rfl, rfl, rfl⟩
    exact (((State.toState_keepsAccount s c _).trans (State.unbind_keepsAccount _ c)).trans (hstop _)).trans
      (State.disarm_keepsAccount _ c)
  · exact ⟨rfl, rfl, rfl⟩

theorem State.afterDone_keepsAccount (s : State) (c : CtxNo) : KeepsAccount c s (s.afterDone c) := by
  have h := s.stopIfDone_keepsAccount c
  unfold State.afterDone
  extract_lets t x
  split
  · exact (h.trans (State.toState_keepsAccount _ c _)).trans (State.unbind_keepsAccount _ c)
  · exact h

/-! ## The tally on done (R59, R80, R329) -/

theorem settleBarriers_of_no_bars (n : Nat) {s : State} (h : s.tally.bars = []) : settleBarriers n s = s := by
  cases n with
  | zero => rfl
  | succ n => simp [settleBarriers, h, Store.keys]

theorem State.settle_of_no_bars {s : State} (h : s.tally.bars = []) : s.settle = s := by
  rw [State.settle, settleBarriers_of_no_bars _ h, ite_self]

/-- The tally of a successful increment set, before what it makes others do. -/
def State.raised (s : State) (t n : Nat) : State :=
  s.modTally fun u => { u with val := u.val.set 0 t (BitVec.ofNat 64 (satNat 64 ((s.tally.val.get 0 t).toNat + n))) }

/-- An increment of a tally that is not frozen and has room. -/
theorem State.bump_sameTallies {s : State} {t n : Nat} (who : Issuer) (hhalt : s.faults.halted = false)
    (hfrozen : s.tally.frozen.contains t = false) (hflip : s.faults.flipTable = 0)
    (hroom : (s.tally.val.get 0 t).toNat + n < 2 ^ 64) : SameTallies (s.raised t n) (s.bump t n who) := by
  unfold State.bump
  extract_lets sat v s₁ s₂
  have hsat : ¬sat = true := by simp only [sat, State.wouldSaturate, Nat.not_le.mpr hroom]; simp
  have hch : OnlyChanges [.tally, .chans] s s₁ :=
    (((State.modTally_changes s _).mono (by decide)).step (State.movedIf_changes _ _) (by decide)).step
      (State.lendLower_changes _) (by decide)
  have hfaults : s₁.faults = s.faults := hch .faults (by decide)
  have hs₂ : s₂ = s₁ := if_pos (by rw [hfaults, hflip])
  rw [if_neg (by rw [hhalt, hfrozen]; decide), if_neg hsat, hs₂]
  exact (State.movedIf_sameTallies _ _).trans (State.lendLower_sameTallies _)

/-- With no barrier set up an increment adds to its tally. -/
theorem State.increment_val {s : State} {t n : Nat} (who : Issuer) (hhalt : s.faults.halted = false)
    (hfrozen : s.tally.frozen.contains t = false) (hflip : s.faults.flipTable = 0) (hbars : s.tally.bars = [])
    (hroom : (s.tally.val.get 0 t).toNat + n < 2 ^ 64) :
    ((s.increment t n who).tally.val.get 0 t).toNat = (s.tally.val.get 0 t).toNat + n := by
  obtain ⟨hval, hb⟩ := State.bump_sameTallies who hhalt hfrozen hflip hroom
  rw [State.increment, State.settle_of_no_bars (hb.trans hbars), hval]
  simp only [State.raised, State.modTally, Store.get_set_same, BitVec.toNat_ofNat, satNat]
  omega

/-! ## The descriptor completes (R47, R76, R78) -/

theorem satAdd_toNat {w : Nat} (c : BitVec w) (n : Nat) : (satAdd c n).toNat = min (c.toNat + n) (2 ^ w - 1) := by
  have := Nat.two_pow_pos w
  rw [satAdd, BitVec.toNat_ofNat, satNat, Nat.mod_eq_of_lt (by omega)]

/-- The context once descriptor `w` is off its list. -/
def Ctx.completed (x : Ctx) (w : Work) : Ctx :=
  { x with works := x.works.filter (fun v => v.id ≠ w.id), doneIdx := x.next w.idx.toNat w.entries, part := false,
           cursor := 0, crcPartial := 0, kept := {},
           descDone := satAdd x.descDone 1, doneSat := x.doneSat || x.descDone = 0x7FFFFFFF }

/-- The state once the completion is recorded in the context, and its failure noted. -/
def State.recorded (s : State) (c : CtxNo) (w : Work) : State :=
  let t := s.modCtx c fun x => x.completed w
  if failed w.status then t.noteFailure c w w.status w.detail else t

theorem State.complete_eq (s : State) (c : CtxNo) (w : Work) : s.complete c w = ((s.recorded c w).applyDone c w).afterDone c := rfl

theorem State.noteFailure_ctx (s : State) (c : CtxNo) (w : Work) (status detail : BitVec 16) :
    (s.noteFailure c w status detail).ctx c = { s.ctx c with lastErr := status, lastErrIdx := w.idx } := by
  rw [State.noteFailure, State.event_ctx, State.lastErr, State.modCtx_ctx_same, BitVec.ofNat_toNat, BitVec.setWidth_eq]

theorem State.noteFailure_sameTallies (s : State) (c : CtxNo) (w : Work) (status detail : BitVec 16) :
    SameTallies s (s.noteFailure c w status detail) :=
  .of_changes (State.noteFailure_changes s c w status detail) (by decide)

theorem State.recorded_of_failed {s : State} {c : CtxNo} {w : Work} (h : failed w.status = true) :
    (s.recorded c w).ctx c = { (s.ctx c).completed w with lastErr := w.status, lastErrIdx := w.idx } := by
  rw [State.recorded, if_pos h, State.noteFailure_ctx, State.modCtx_ctx_same]

theorem State.recorded_of_sound {s : State} {c : CtxNo} {w : Work} (h : failed w.status = false) :
    s.recorded c w = s.modCtx c fun x => x.completed w := by
  rw [State.recorded, if_neg (by simp [h])]

theorem State.recorded_sameTallies (s : State) (c : CtxNo) (w : Work) : SameTallies s (s.recorded c w) := by
  unfold State.recorded
  extract_lets t
  split
  · exact SameTallies.trans (t := t) ⟨rfl, rfl⟩ (State.noteFailure_sameTallies _ _ _ _ _)
  · exact ⟨rfl, rfl⟩

/-- Recording and the tally on done touch no more of a context than its completion and its last error. -/
theorem State.recorded_ctx (s : State) (c : CtxNo) (w : Work) :
    ∃ e i, (s.recorded c w).ctx c = { (s.ctx c).completed w with lastErr := e, lastErrIdx := i } := by
  cases h : failed w.status with
  | false => exact ⟨(s.ctx c).lastErr, (s.ctx c).lastErrIdx, by rw [State.recorded_of_sound h, State.modCtx_ctx_same]; rfl⟩
  | true => exact ⟨w.status, w.idx, State.recorded_of_failed h⟩

theorem State.applyDone_ctx (s : State) (c : CtxNo) (w : Work) :
    ∃ e i, (s.applyDone c w).ctx c = { s.ctx c with lastErr := e, lastErrIdx := i } := by
  unfold State.applyDone
  extract_lets x here sat t
  have ht : t.ctx c = s.ctx c := (State.increment_changes s _ _ _).ctx_eq (by decide) c
  split
  · exact ⟨(s.ctx c).lastErr, (s.ctx c).lastErrIdx, rfl⟩
  · split
    · exact ⟨_, _, by rw [State.noteFailure_ctx, ht]⟩
    · exact ⟨(s.ctx c).lastErr, (s.ctx c).lastErrIdx, ht⟩

/-- A failed descriptor without TALLY_ON_ERR leaves its tally alone. -/
theorem State.applyDone_of_failed {s : State} {c : CtxNo} {w : Work} (h : failed w.status = true) (herr : w.tallyOnErr = false) :
    s.applyDone c w = s := by
  simp [State.applyDone, h, herr]

/-- A local tally on done that has room is incremented. -/
theorem State.applyDone_of_sound {s : State} {c : CtxNo} {w : Work} (h : failed w.status = false) (hen : w.doneEn = true)
    (hdone : w.tallyDone = true) (hlocal : w.doneRemote = false)
    (hroom : (s.tally.val.get 0 w.tally.toNat).toNat + w.doneInc < 2 ^ 64) :
    s.applyDone c w = s.increment w.tally.toNat w.doneInc { mkind := 1, mid := c.toNat, tenant := (s.ctx c).tenant } := by
  have hsat : s.wouldSaturate w.tally.toNat w.doneInc = false := by
    simp only [State.wouldSaturate, Nat.not_le.mpr hroom]
    simp
  simp [State.applyDone, h, hen, hdone, hlocal, hsat]

/-- DONE_IDX and DESC_DONE after a completion. -/
theorem State.complete_progress (s : State) (c : CtxNo) (w : Work) :
    let x := s.ctx c
    let y := (s.complete c w).ctx c
    y.doneIdx = x.next w.idx.toNat w.entries ∧ y.works = x.works.filter (fun v => v.id ≠ w.id) ∧ y.part = false ∧
      y.cursor = 0 ∧ y.descDone.toNat = min (x.descDone.toNat + 1) 0x7FFFFFFF := by
  intro x y
  obtain ⟨hacc, -⟩ := State.afterDone_keepsAccount ((s.recorded c w).applyDone c w) c
  obtain ⟨e, i, happ⟩ := State.applyDone_ctx (s.recorded c w) c w
  obtain ⟨e', i', hrec⟩ := State.recorded_ctx s c w
  rw [← State.complete_eq, happ, hrec] at hacc
  simp only [Ctx.account, Ctx.completed, Prod.mk.injEq] at hacc
  obtain ⟨hidx, hworks, hpart, hcursor, hcount, -, -⟩ := hacc
  exact ⟨hidx, hworks, hpart, hcursor, (congrArg BitVec.toNat hcount).trans (satAdd_toNat _ _)⟩

/-- A failure is the context's last error, and without TALLY_ON_ERR no tally changes. -/
theorem State.complete_of_failed {s : State} {c : CtxNo} {w : Work} (h : failed w.status = true) (herr : w.tallyOnErr = false) :
    ((s.complete c w).ctx c).lastErr = w.status ∧ ((s.complete c w).ctx c).lastErrIdx = w.idx ∧
      (s.complete c w).tally.val = s.tally.val := by
  obtain ⟨hacc, hval, -⟩ := State.afterDone_keepsAccount ((s.recorded c w).applyDone c w) c
  rw [← State.complete_eq, State.applyDone_of_failed h herr] at hacc hval
  rw [State.recorded_of_failed h] at hacc
  simp only [Ctx.account, Prod.mk.injEq] at hacc
  obtain ⟨-, -, -, -, -, herr, hidx⟩ := hacc
  exact ⟨herr, hidx, hval.trans (s.recorded_sameTallies c w).1⟩

/-- A sound completion raises its local tally on done. -/
theorem State.complete_of_sound {s : State} {c : CtxNo} {w : Work} (hhalt : s.faults.halted = false)
    (h : failed w.status = false) (hen : w.doneEn = true) (hdone : w.tallyDone = true) (hlocal : w.doneRemote = false)
    (hbars : s.tally.bars = []) (hfrozen : s.tally.frozen.contains w.tally.toNat = false) (hflip : s.faults.flipTable = 0)
    (hroom : (s.tally.val.get 0 w.tally.toNat).toNat + w.doneInc < 2 ^ 64) :
    ((s.complete c w).tally.val.get 0 w.tally.toNat).toNat = (s.tally.val.get 0 w.tally.toNat).toNat + w.doneInc := by
  obtain ⟨-, hval, -⟩ := State.afterDone_keepsAccount ((s.recorded c w).applyDone c w) c
  rw [← State.complete_eq, State.recorded_of_sound h,
    State.applyDone_of_sound (s := s.modCtx c fun x => x.completed w) h hen hdone hlocal hroom] at hval
  rw [hval]
  exact State.increment_val _ hhalt hfrozen hflip hbars hroom

/-! ## The commands -/

theorem exec_descriptorComplete_of_status {c : CtxNo} {w : Work} {rest : List Work} {s : State}
    (hhalt : s.faults.halted = false) (hw : (s.ctx c).works = w :: rest) (hland : w.landed = false)
    (hdrain : (s.frame w.frame).draining = false) (hst : w.stage = .statusOut ∨ w.stage = .statusLanded) :
    exec (.descriptorComplete c) s = .next (s.complete c w) := by
  change execDescriptorComplete c s = _
  obtain hst | hst := hst <;> simp [execDescriptorComplete, State.completeStep, hhalt, hw, hst, hdrain, hland]

theorem exec_statusWriteAck_of_landed {c : CtxNo} {w : Work} {rest : List Work} {s : State}
    (hhalt : s.faults.halted = false) (hw : (s.ctx c).works = w :: rest) (hland : w.landed = true)
    (hst : w.stage = .statusLanded) : exec (.statusWriteAck c) s = .next (s.complete c w) := by
  change execStatusWriteAck c s = _
  simp [execStatusWriteAck, hhalt, hw, hst, hland]

theorem exec_postRecordLanded_of_landed {c : CtxNo} {p : Post} {s : State} (hp : (s.ctx c).posts = [p]) (hland : p.landed = true) :
    exec (.postRecordLanded c) s = .next ((s.setCtx c { s.ctx c with posts := [] }).increment p.tally.toNat 1
      { mkind := 1, mid := c.toNat, tenant := (s.ctx c).tenant }) := by
  change execPostRecordLanded c s = _
  simp [execPostRecordLanded, hp, hland, State.modCtx, removeFirst]

/-- Settles O37: the first command queues a completing write, the second and third complete the descriptor, the last raises
the post's tally. -/
theorem completionWritesTheStatus : Obligations.CompletionWritesTheStatus := by
  unfold Obligations.CompletionWritesTheStatus
  refine ⟨?_, ?_, fun c p s hp hland => exec_postRecordLanded_of_landed hp hland⟩
  · intro c w rest g s hhalt x hw hst hdrain hdone hg hcsum w'
    have hexec := exec_descriptorComplete_of_done hhalt hw hst hdrain hdone
    refine ⟨fun hslot => ?_, fun hslot => ?_⟩
    · obtain ⟨u, hframe, hch, hu⟩ := State.settleStatus_queues_status hw hg hcsum hslot
      exact ⟨_, hu ▸ hexec, State.queued_spec hframe hch g _ _ rest⟩
    · have hq := State.settleStatus_queues_slot hw hg hcsum hslot
      obtain ⟨hworks, hframe, -, hch⟩ := State.queued_spec (s.judged_frame c w) (State.judged_changes s c w) g
        (piece .slotFree x.ringSpace (x.entryAddr (x.next w.idx.toNat 1).toNat + 127) [0x40]) { w' with stage := .slot } rest
      exact ⟨_, hq ▸ hexec, hworks, congrArg Frame.svc hframe, hch⟩
  · intro c w rest s hhalt x done hw
    have hcomplete : done (s.complete c w) := by
      obtain ⟨hidx, hworks, hpart, hcursor, hcount⟩ := State.complete_progress s c w
      exact ⟨hidx, hworks, hpart, hcursor, hcount, State.complete_of_failed,
        State.complete_of_sound hhalt⟩
    exact ⟨fun hland hdrain hst => ⟨_, exec_descriptorComplete_of_status hhalt hw hland hdrain hst, hcomplete⟩,
      fun hland hst => ⟨_, exec_statusWriteAck_of_landed hhalt hw hland hst, hcomplete⟩⟩

end Sys2Proof.Machine

/-! # Proofs: the modulus table and the scale registers (R131, R132, R146, R147)

A run of entries written into a table first, then what a load of scale registers leaves in one frame and in every frame, then
the two verbs. -/
namespace Sys2Proof.Machine

/-! ## A run of entries written into a table -/

/-- Values put into a sparse table at the indices from `first` on. -/
def Store.putFrom {α : Type} [DecidableEq α] (d : α) (m : Store α) (first : Nat) (l : List α) : Store α :=
  (l.zip ((List.range l.length).map (first + ·))).foldl (fun m p => m.set d p.2 p.1) m

theorem Store.putFrom_cons {α : Type} [DecidableEq α] (d : α) (m : Store α) (first : Nat) (a : α) (l : List α) :
    m.putFrom d first (a :: l) = (m.set d first a).putFrom d (first + 1) l := by
  simp [Store.putFrom, ← List.range'_eq_map_range, List.range'_succ]

theorem Store.get_putFrom {α : Type} [DecidableEq α] (d : α) (m : Store α) (first : Nat) (l : List α) (j : Nat) :
    (m.putFrom d first l).get d j = if first ≤ j ∧ j < first + l.length then l.getD (j - first) d else m.get d j := by
  induction l generalizing m first with
  | nil => exact (if_neg (by simp)).symm
  | cons a l ih =>
    rw [Store.putFrom_cons, ih, Store.get_set, List.length_cons]
    rcases lt_trichotomy j first with hlt | rfl | hgt
    · rw [if_neg (by omega), if_neg (by omega), if_neg (by omega)]
    · simp
    · have hidx : j - first = j - (first + 1) + 1 := by omega
      have hin : (first ≤ j ∧ j < first + (l.length + 1)) ↔ (first + 1 ≤ j ∧ j < first + 1 + l.length) := by omega
      simp only [if_neg hgt.ne', hidx, List.getD_cons_succ, hin]

/-! ## The scale registers of a frame (R132, R134) -/

/-- A frame whose scale registers from `first` on have been loaded; `marks` is what it then notes of which registers changed when
(R134). -/
def Frame.withScales (x : Frame) (first : Nat) (vals : List (BitVec 16)) (marks : Store Nat) : Frame :=
  { x with scales := true, scaleRegs := x.scaleRegs.putFrom 0 first vals, scaleAt := marks }

/-- What a load of scale registers makes of a frame: one in off state stays as it is, any other takes the values (R132). -/
def Frame.TakesScales (first : Nat) (vals : List (BitVec 16)) (x y : Frame) : Prop :=
  if x.state = .off then y = x else ∃ marks, y = x.withScales first vals marks

theorem State.loadScales_of_off {s : State} {f : Nat} (h : (s.frame f).state = .off) (first : Nat) (vals : List (BitVec 16)) :
    s.loadScales first vals f = s := by
  simp [State.loadScales, h]

theorem State.loadScales_frames_of_on {s : State} {f : Nat} (h : (s.frame f).state ≠ .off) (first : Nat)
    (vals : List (BitVec 16)) : ∃ marks,
      (s.loadScales first vals f).frames = (s.setFrame f ((s.frame f).withScales first vals marks)).frames := by
  rw [State.loadScales, if_neg (by simpa using h)]
  exact ⟨_, rfl⟩

theorem State.frame_congr {s t : State} (h : t.frames = s.frames) (g : Nat) : t.frame g = s.frame g := by
  rw [State.frame, State.frame, h]

theorem State.loadScales_frame_same (s : State) (first : Nat) (vals : List (BitVec 16)) (f : Nat) :
    Frame.TakesScales first vals (s.frame f) ((s.loadScales first vals f).frame f) := by
  unfold Frame.TakesScales
  split
  · rename_i hoff
    rw [State.loadScales_of_off hoff]
  · rename_i hon
    obtain ⟨marks, hframes⟩ := State.loadScales_frames_of_on hon first vals
    exact ⟨marks, by rw [State.frame_congr hframes, State.setFrame_frame_same]⟩

theorem State.loadScales_frame_other (s : State) (first : Nat) (vals : List (BitVec 16)) {f g : Nat} (h : g ≠ f) :
    (s.loadScales first vals f).frame g = s.frame g := by
  by_cases hoff : (s.frame f).state = .off
  · rw [State.loadScales_of_off hoff]
  · obtain ⟨marks, hframes⟩ := State.loadScales_frames_of_on hoff first vals
    rw [State.frame_congr hframes, State.setFrame_frame_other _ _ h]

/-- Entry `n` once `upd` has changed the entries listed, each once, as `R` relates: it is changed so, or as it was. -/
theorem foldl_upd_rel {β : Type} {get : State → Nat → β} {upd : State → Nat → State} {R : β → β → Prop}
    (hsame : ∀ t i, R (get t i) (get (upd t i) i)) (hother : ∀ t i j, j ≠ i → get (upd t i) j = get t j) {l : List Nat}
    (hl : l.Nodup) (s : State) (n : Nat) :
    if n ∈ l then R (get s n) (get (l.foldl upd s) n) else get (l.foldl upd s) n = get s n := by
  induction l generalizing s with
  | nil => rfl
  | cons i r ih =>
    obtain ⟨hi, hr⟩ := List.nodup_cons.mp hl
    have hrest := ih hr (upd s i)
    rw [List.foldl_cons]
    by_cases hn : n = i
    · subst hn
      rw [if_neg hi] at hrest
      rw [if_pos List.mem_cons_self, hrest]
      exact hsame s n
    · rw [hother _ _ _ hn] at hrest
      simpa [hn] using hrest

/-- The frames that scale.load names: one, or all with 0xFF (R132). -/
def scaleFrames (f : Nat) : List Nat := if f = 0xFF then frameNos else [f]

theorem mem_scaleFrames {f g : Nat} (hg : g < 16) : g ∈ scaleFrames f ↔ f = 0xFF ∨ f = g := by
  by_cases hf : f = 0xFF
  · simp [scaleFrames, hf, frameNos, hg]
  · simp [scaleFrames, hf, eq_comm]

theorem scaleFrames_nodup (f : Nat) : (scaleFrames f).Nodup := by
  unfold scaleFrames
  split
  · exact List.nodup_range
  · exact List.nodup_singleton f

/-- The registers of every frame named by scale.load written. -/
def State.loadAllScales (s : State) (f first : Nat) (vals : List (BitVec 16)) : State :=
  (scaleFrames f).foldl (fun t g => t.loadScales first vals g) s

theorem State.loadAllScales_changes (s : State) (f first : Nat) (vals : List (BitVec 16)) :
    OnlyChanges [.ctxs, .nextId, .frames] s (s.loadAllScales f first vals) :=
  OnlyChanges.foldl _ (fun t g => t.loadScales_changes first vals g) _ _ (OnlyChanges.refl _ _)

/-- A frame named takes the values, any other is as it was (R132). -/
theorem State.loadAllScales_frame (s : State) (f first : Nat) (vals : List (BitVec 16)) (g : Nat) :
    if g ∈ scaleFrames f then Frame.TakesScales first vals (s.frame g) ((s.loadAllScales f first vals).frame g)
    else (s.loadAllScales f first vals).frame g = s.frame g :=
  foldl_upd_rel (get := State.frame) (fun t g => t.loadScales_frame_same first vals g)
    (fun t _ _ => t.loadScales_frame_other first vals) (scaleFrames_nodup f) s g

/-- A frame named that is not off holds the values from `first` on, its other registers as they were. -/
theorem State.loadAllScales_frame_on {s : State} {f g : Nat} (first : Nat) (vals : List (BitVec 16)) (hg : g < 16)
    (hf : f = 0xFF ∨ f = g) (hon : (s.frame g).state ≠ .off) :
    ((s.loadAllScales f first vals).frame g).scales = true ∧
      ∀ j, ((s.loadAllScales f first vals).frame g).scaleRegs.get 0 j =
        if first ≤ j ∧ j < first + vals.length then vals.getD (j - first) 0 else (s.frame g).scaleRegs.get 0 j := by
  have h := s.loadAllScales_frame f first vals g
  rw [if_pos ((mem_scaleFrames hg).mpr hf), Frame.TakesScales, if_neg hon] at h
  obtain ⟨marks, hframe⟩ := h
  rw [hframe]
  exact ⟨rfl, Store.get_putFrom _ _ _ _⟩

/-- A frame that is off or not named is as it was. -/
theorem State.loadAllScales_frame_unchanged {s : State} {f g : Nat} (first : Nat) (vals : List (BitVec 16)) (hg : g < 16)
    (h : (s.frame g).state = .off ∨ (f ≠ 0xFF ∧ f ≠ g)) : (s.loadAllScales f first vals).frame g = s.frame g := by
  have hframe := s.loadAllScales_frame f first vals g
  split at hframe
  · rename_i hmem
    have hoff : (s.frame g).state = .off :=
      h.resolve_right fun hno => ((mem_scaleFrames hg).mp hmem).elim hno.1 hno.2
    rwa [Frame.TakesScales, if_pos hoff] at hframe
  · exact hframe

/-! ## The verbs (R44, R131, R146, R147) -/

theorem State.tableWritten_of_no_flip {s : State} (h : s.faults.flipTable = 0) (sub idx : Nat) (gone : State → State) :
    s.tableWritten sub idx gone = s := by
  simp [State.tableWritten, h]

/-- A verb at its turn that completes after a write of a table that no injected flip spoils, where the write leaves the keeper and
the fault collector alone. -/
theorem Turn.verbDone_tableWritten {s t : State} {o : Origin} {code : Nat} {v : VerbProg} {ps : List Part} (h : Turn s o code v)
    (hch : OnlyChanges ps s t) (hk : Part.keeper ∉ ps) (hfl : Part.faults ∉ ps) (hflip : s.faults.flipTable = 0)
    {sub idx : Nat} {gone : State → State} {st d : Nat} {res : Bytes} :
    (t.tableWritten sub idx gone).verbDone o st d res = t.finish v st d res := by
  have hfaults : t.faults = s.faults := hch .faults hfl
  rw [State.tableWritten_of_no_flip (by rw [hfaults, hflip]), State.verbDone_of_verb (by rw [hch.verb_eq hk, h.verb_eq])]

theorem exec_modSet_of_offence {o : Origin} {v : VerbProg} {b : Bytes} {s : State} {i : Nat} (h : Turn s o 0x0600 v)
    (hread : HasRead s v (par v.req 24 8) 64 64 b) (hi : modulusOffence b = some i) :
    exec (.modSet o) s = .next (s.finish v kBadParam (0x0100 + i) []) := by
  refine next_runVerb_of_turn h ?_
  simp only [State.withStruct_of_hasRead hread, hi, h.verbDone_eq]

theorem exec_modSet_of_sound {o : Origin} {v : VerbProg} {b : Bytes} {s : State} (h : Turn s o 0x0600 v)
    (hread : HasRead s v (par v.req 24 8) 64 64 b) (hno : modulusOffence b = none) (hflip : s.faults.flipTable = 0) :
    exec (.modSet o) s =
      .next (((s.setModulus (par v.req 16 1) (parseModulus b)).modChanged (par v.req 16 1)).finish v kOK 0 []) := by
  have hch : OnlyChanges [.mods, .ctxs] s ((s.setModulus (par v.req 16 1) (parseModulus b)).modChanged (par v.req 16 1)) :=
    ((s.setModulus_changes _ _).mono (by decide)).step (State.modChanged_changes _ _) (by decide)
  refine next_runVerb_of_turn h ?_
  simp only [State.withStruct_of_hasRead hread, hno]
  exact h.verbDone_tableWritten hch (by decide) (by decide) hflip

theorem exec_scaleLoad_of_no_frame {o : Origin} {v : VerbProg} {s : State} (h : Turn s o 0x0601 v)
    (hf : 16 ≤ par v.req 16 1) (hall : par v.req 16 1 ≠ 0xFF) :
    exec (.scaleLoad o) s = .next (s.finish v kBadParam 16 []) := by
  refine next_runVerb_of_turn h ?_
  simp [hf, hall, h.verbDone_eq]

theorem not_frameOutside {f : Nat} (h : f < 16 ∨ f = 0xFF) : (decide (16 ≤ f) && decide (f ≠ 0xFF)) = false := by
  rw [← Bool.decide_and, decide_eq_false_iff_not]
  omega

theorem exec_scaleLoad_of_past_end {o : Origin} {v : VerbProg} {s : State} (h : Turn s o 0x0601 v)
    (hf : par v.req 16 1 < 16 ∨ par v.req 16 1 = 0xFF) (hend : 4096 < par v.req 18 2 + par v.req 20 2) :
    exec (.scaleLoad o) s = .next (s.finish v kBadParam 20 []) := by
  refine next_runVerb_of_turn h ?_
  simp only [not_frameOutside hf, Bool.false_eq_true, if_false, if_pos hend, h.verbDone_eq]

/-- The values of `n` entries of 4 B (R131). -/
def scaleValues (n : Nat) (b : Bytes) : List (BitVec 16) := (List.range n).map fun i => BitVec.ofNat 16 (leAt b (4 * i) 2)

/-- The first reserved byte of `n` entries that is not zero, if any (R131). -/
def scaleOffence (n : Nat) (b : Bytes) : Option Nat :=
  (List.range (4 * n)).find? fun i => decide (2 ≤ i % 4) && leAt b i 1 ≠ 0

/-- scale.load judges the entries that it has read, then loads them (R131, R132). -/
theorem exec_scaleLoad_of_read {o : Origin} {v : VerbProg} {b : Bytes} {s : State} (h : Turn s o 0x0601 v)
    (hf : par v.req 16 1 < 16 ∨ par v.req 16 1 = 0xFF) (hend : par v.req 18 2 + par v.req 20 2 ≤ 4096)
    (hread : HasRead s v (par v.req 24 8) (4 * par v.req 20 2) 4 b) :
    (∀ i, scaleOffence (par v.req 20 2) b = some i → exec (.scaleLoad o) s = .next (s.finish v kBadParam (0x0100 + i) [])) ∧
    (scaleOffence (par v.req 20 2) b = none → s.faults.flipTable = 0 → exec (.scaleLoad o) s =
      .next ((s.loadAllScales (par v.req 16 1) (par v.req 18 2) (scaleValues (par v.req 20 2) b)).finish v kOK 0 [])) := by
  refine ⟨fun i hi => next_runVerb_of_turn h ?_, fun hno hflip => next_runVerb_of_turn h ?_⟩
  · rw [scaleOffence] at hi
    simp only [not_frameOutside hf, Bool.false_eq_true, if_false, if_neg hend.not_gt, State.withStruct_of_hasRead hread, hi, h.verbDone_eq]
  · rw [scaleOffence] at hno
    simp only [not_frameOutside hf, Bool.false_eq_true, if_false, if_neg hend.not_gt, State.withStruct_of_hasRead hread, hno]
    exact h.verbDone_tableWritten (State.loadAllScales_changes s _ _ _) (by decide) (by decide) hflip

/-- Whether byte `i` of the entries is no offence: it is zero if it is reserved. -/
theorem not_reservedSet_iff (b : Bytes) (i : Nat) :
    (!(decide (2 ≤ i % 4) && decide (leAt b i 1 ≠ 0))) = true ↔ (2 ≤ i % 4 → leAt b i 1 = 0) := by
  by_cases h : 2 ≤ i % 4 <;> simp [h]

theorem scaleOffence_eq_some {n i : Nat} {b : Bytes} (hi : i < 4 * n) (hrsv : 2 ≤ i % 4) (hbad : leAt b i 1 ≠ 0)
    (hfirst : ∀ j < i, 2 ≤ j % 4 → leAt b j 1 = 0) : scaleOffence n b = some i := by
  rw [scaleOffence, List.find?_range_eq_some]
  exact ⟨by simp [hrsv, hbad], List.mem_range.mpr hi, fun j hj => (not_reservedSet_iff b j).mpr (hfirst j hj)⟩

theorem scaleOffence_eq_none {n : Nat} {b : Bytes} (h : ∀ i < 4 * n, 2 ≤ i % 4 → leAt b i 1 = 0) : scaleOffence n b = none := by
  rw [scaleOffence, List.find?_range_eq_none]
  exact fun i hi => (not_reservedSet_iff b i).mpr (h i hi)

/-- Settles O18: each outcome of mod.set and of scale.load is one of the equations above; what a load leaves in each frame is
`State.loadAllScales_frame`. -/
theorem tableLoads : Obligations.TableLoads := by
  intro o v b s
  refine ⟨fun h hread => ⟨fun i => exec_modSet_of_offence h hread, exec_modSet_of_sound h hread⟩, fun h => ?_⟩
  intro f first n
  refine ⟨exec_scaleLoad_of_no_frame h, exec_scaleLoad_of_past_end h, fun hf hend hread => ?_⟩
  obtain ⟨hrefuse, hload⟩ := exec_scaleLoad_of_read h hf hend hread
  refine ⟨fun i hi hrsv hbad hfirst => hrefuse i (scaleOffence_eq_some hi hrsv hbad hfirst), fun hzero hflip => ?_⟩
  have hch := s.loadAllScales_changes f first (scaleValues n b)
  have hfin := (s.loadAllScales f first (scaleValues n b)).finish_changes v kOK 0 []
  have hframe (g : Nat) : ((s.loadAllScales f first (scaleValues n b)).finish v kOK 0 []).frame g =
      (s.loadAllScales f first (scaleValues n b)).frame g := State.frame_congr (hfin .frames (by decide)) g
  have hlen : (scaleValues n b).length = n := by simp [scaleValues]
  refine ⟨_, hload (scaleOffence_eq_none hzero) hflip, State.finish_verb (State.origin_of_verb h.verb_eq) _ _ _ _,
    (hch.mono (by decide)).step hfin (by decide), fun g hg hnamed hon => ?_, fun g hg hno => ?_⟩
  · obtain ⟨hscales, hregs⟩ := State.loadAllScales_frame_on first (scaleValues n b) hg hnamed hon
    rw [hframe]
    refine ⟨hscales, fun i hi => ?_, fun j hj => ?_⟩
    · rw [hregs, hlen, if_pos (by omega)]
      simp [scaleValues, hi]
    · rw [hregs, hlen, if_neg (by omega)]
  · rw [hframe, State.loadAllScales_frame_unchanged first _ hg hno]

end Sys2Proof.Machine

/-! # Proofs: the modulus table over a step (R145, R146, R147)

The frame of every command at once, then what the commands that reach the modulus table leave in it: mod.set writes only an
image without an offence, and the resets empty it. -/
namespace Sys2Proof.Machine

/-! ## The frame of a command -/

/-- An outcome that changes only the parts of one list changes only those of a longer one. -/
theorem next_within {o : Host.Outcome State Fault Refusal} {s : State} {ps qs : List Part}
    (h : ∃ t, o = .next t ∧ OnlyChanges ps s t) (hsub : ps.all (fun p => decide (p ∈ qs)) = true) :
    ∃ t, o = .next t ∧ OnlyChanges qs s t := by
  obtain ⟨t, ho, hch⟩ := h
  exact ⟨t, ho, hch.mono fun p hp => of_decide_eq_true (List.all_eq_true.mp hsub p hp)⟩

/-- A command goes on and changes only the parts of the state that `mayTouch` lists for it. -/
theorem exec_changes (c : Instr) (s : State) : ∃ t, exec c s = .next t ∧ OnlyChanges (mayTouch c) s t :=
  match c with
  | .mboxRing m w => next_within (execMboxRing_changes m w s) rfl
  | .mboxCancel m w => next_within (execMboxCancel_changes m w s) rfl
  | .mboxDoneClear m w => next_within (execMboxDoneClear_changes m w s) rfl
  | .verbAccept => next_within (execVerbAccept_changes s) rfl
  | .keeperPing o => next_within (execKeeperPing_changes o s) rfl
  | .fwInfo o => next_within (execFwInfo_changes o s) rfl
  | .fwLoad o => next_within (execFwLoad_changes o s) rfl
  | .fwActivate o => next_within (execFwActivate_changes o s) rfl
  | .fwActivateRestart => next_within (execFwActivateRestart_changes s) rfl
  | .mboxBind o => next_within (execMboxBind_changes o s) rfl
  | .mboxUnbind o => next_within (execMboxUnbind_changes o s) rfl
  | .tenantOpen o => next_within (execTenantOpen_changes o s) rfl
  | .tenantClose o => next_within (execTenantClose_changes o s) rfl
  | .ctxOpen o => next_within (execCtxOpen_changes o s) rfl
  | .ctxClose o => next_within (execCtxClose_changes o s) rfl
  | .ctxPause o => next_within (execCtxPause_changes o s) rfl
  | .ctxPauseDrainEnd o => next_within (execCtxPauseDrainEnd_changes o s) rfl
  | .ctxResume o => next_within (execCtxResume_changes o s) rfl
  | .ctxAbort o entries => next_within (execCtxAbort_changes o entries s) rfl
  | .ctxQuery o => next_within (execCtxQuery_changes o s) rfl
  | .ctxRate o => next_within (execCtxRate_changes o s) rfl
  | .mapInval o => next_within (execMapInval_changes o s) rfl
  | .invalDrainEnd => next_within (execInvalDrainEnd_changes s) rfl
  | .mapDigest o => next_within (execMapDigest_changes o s) rfl
  | .winSet o => next_within (execWinSet_changes o s) rfl
  | .winClear o => next_within (execWinClear_changes o s) rfl
  | .winClearDrainEnd o => next_within (execWinClearDrainEnd_changes o s) rfl
  | .memInfo o => next_within (execMemInfo_changes o s) rfl
  | .ksetRegister o => next_within (execKsetRegister_changes o s) rfl
  | .ksetRetire o => next_within (execKsetRetire_changes o s) rfl
  | .ksetRetireDrainEnd o => next_within (execKsetRetireDrainEnd_changes o s) rfl
  | .ksetBind o => next_within (execKsetBind_changes o s) rfl
  | .swarmOpen o => next_within (execSwarmOpen_changes o s) rfl
  | .swarmClose o => next_within (execSwarmClose_changes o s) rfl
  | .swarmCloseFinish sw => next_within (execSwarmCloseFinish_changes sw s) rfl
  | .swarmCloseEjectTimeout sw => next_within (execSwarmCloseEjectTimeout_changes sw s) rfl
  | .modSet o => next_within (execModSet_changes o s) rfl
  | .scaleLoad o => next_within (execScaleLoad_changes o s) rfl
  | .tallyVirt o => next_within (execTallyVirt_changes o s) rfl
  | .tallyRead o => next_within (execTallyRead_changes o s) rfl
  | .testKat o pass => next_within (execTestKat_changes o pass s) rfl
  | .testFrame o => next_within (execTestFrame_changes o s) rfl
  | .frameTestDrainEnd pass => next_within (execFrameTestDrainEnd_changes pass s) rfl
  | .frameTestDrainTimeout => next_within (execFrameTestDrainTimeout_changes s) rfl
  | .calRun o => next_within (execCalRun_changes o s) rfl
  | .snapTake o => next_within (execSnapTake_changes o s) rfl
  | .logAnchor o => next_within (execLogAnchor_changes o s) rfl
  | .logFlush o => next_within (execLogFlush_changes o s) rfl
  | .linkInfo o => next_within (execLinkInfo_changes o s) rfl
  | .relayAllow o => next_within (execRelayAllow_changes o s) rfl
  | .linkRekey o => next_within (execLinkRekey_changes o s) rfl
  | .rekeyTimeout l => next_within (execRekeyTimeout_changes l s) rfl
  | .pwrFrame o => next_within (execPwrFrame_changes o s) rfl
  | .pwrFrameDrainEnd o expired => next_within (execPwrFrameDrainEnd_changes o expired s) rfl
  | .engineQuiesce o => next_within (execEngineQuiesce_changes o s) rfl
  | .quiesceRemoteDrained => next_within (execQuiesceRemoteDrained_changes s) rfl
  | .quiesceSleepHoldEnd => next_within (execQuiesceSleepHoldEnd_changes s) rfl
  | .relayTimeout m => next_within (execRelayTimeout_changes m s) rfl
  | .keeperReset w => next_within (execKeeperReset_changes w s) rfl
  | .keeperBeatTimeout => next_within (execKeeperBeatTimeout_changes s) rfl
  | .keeperBeatTick => next_within (execKeeperBeatTick_changes s) rfl
  | .knock w => next_within (execKnock_changes w s) rfl
  | .knockNarrow off strobe => next_within (execKnockNarrow_changes off strobe s) rfl
  | .watchPoll c f data fail => next_within (execWatchPoll_changes c f data fail s) rfl
  | .contextBind ch => next_within (execContextBind_changes ch s) rfl
  | .contextIdleUnbind c => next_within (execContextIdleUnbind_changes c s) rfl
  | .preempt c => next_within (execPreempt_changes c s) rfl
  | .descriptorFetchReturn ch data fail => next_within (execDescriptorFetchReturn_changes ch data fail s) rfl
  | .descriptorStart ch => next_within (execDescriptorStart_changes ch s) rfl
  | .nop ch => next_within (execNop_changes ch s) rfl
  | .copy ch => next_within (execCopy_changes ch s) rfl
  | .wait ch => next_within (execWait_changes ch s) rfl
  | .waitSatisfied c => next_within (execWaitSatisfied_changes c s) rfl
  | .waitEntryFreed c => next_within (execWaitEntryFreed_changes c s) rfl
  | .feed ch => next_within (execFeed_changes ch s) rfl
  | .tapArbitration tap => next_within (execTapArbitration_changes tap s) rfl
  | .readDataReturn tap slot half data fail => next_within (execReadDataReturn_changes tap slot half data fail s) rfl
  | .writeDone tap entry fail => next_within (execWriteDone_changes tap entry fail s) rfl
  | .tapCreditReturn tap wr => next_within (execTapCreditReturn_changes tap wr s) rfl
  | .untaggedFail tap => next_within (execUntaggedFail_changes tap s) rfl
  | .frameStopDrainEnd f => next_within (execFrameStopDrainEnd_changes f s) rfl
  | .responseLostTimeout f => next_within (execResponseLostTimeout_changes f s) rfl
  | .descriptorComplete c => next_within (execDescriptorComplete_changes c s) rfl
  | .statusWriteAck c => next_within (execStatusWriteAck_changes c s) rfl
  | .postRecordLanded c => next_within (execPostRecordLanded_changes c s) rfl
  | .foragerWalk ch => next_within (execForagerWalk_changes ch s) rfl
  | .feedPortDeliver p => next_within (execFeedPortDeliver_changes p s) rfl
  | .landCr p => next_within (execLandCr_changes p s) rfl
  | .strmCr p => next_within (execStrmCr_changes p s) rfl
  | .fetReq p => next_within (execFetReq_changes p s) rfl
  | .fetV p data fail => next_within (execFetV_changes p data fail s) rfl
  | .spineTransfer dst src => next_within (execSpineTransfer_changes dst src s) rfl
  | .swarmBeatIssue sw => next_within (execSwarmBeatIssue_changes sw s) rfl
  | .swarmEject sw p => next_within (execSwarmEject_changes sw p s) rfl
  | .seedExpand core => next_within (execSeedExpand_changes core s) rfl
  | .tpReadTally core id arg => next_within (execTpReadTally_changes core id arg s) rfl
  | .tpIncrement core id arg => next_within (execTpIncrement_changes core id arg s) rfl
  | .tpArmTallyWait core id slot arg => next_within (execTpArmTallyWait_changes core id slot arg s) rfl
  | .tpCreditGive core id arg => next_within (execTpCreditGive_changes core id arg s) rfl
  | .tpCreditTake core id arg => next_within (execTpCreditTake_changes core id arg s) rfl
  | .tpArmCreditWait core id slot arg => next_within (execTpArmCreditWait_changes core id slot arg s) rfl
  | .tpDisarmSlot core slot arg => next_within (execTpDisarmSlot_changes core slot arg s) rfl
  | .tpReadCredit core id arg => next_within (execTpReadCredit_changes core id arg s) rfl
  | .deadlockTimeout => next_within (execDeadlockTimeout_changes s) rfl
  | .lendUpdate => next_within (execLendUpdate_changes s) rfl
  | .lendTimeout who => next_within (execLendTimeout_changes who s) rfl
  | .barrierEnable b w => next_within (execBarrierEnable_changes b w s) rfl
  | .barrierDisable b w => next_within (execBarrierDisable_changes b w s) rfl
  | .credCfgWrite c w => next_within (execCredCfgWrite_changes c w s) rfl
  | .tallyOwnWrite g w => next_within (execTallyOwnWrite_changes g w s) rfl
  | .linkTrained l lanes rates => next_within (execLinkTrained_changes l lanes rates s) rfl
  | .laneLoss l => next_within (execLaneLoss_changes l s) rfl
  | .sealSilenceTimeout l => next_within (execSealSilenceTimeout_changes l s) rfl
  | .flitSend l now => next_within (execFlitSend_changes l now s) rfl
  | .sealPeriodic l => next_within (execSealPeriodic_changes l s) rfl
  | .messageFlitReceive l flit => next_within (execMessageFlitReceive_changes l flit s) rfl
  | .sealReceive l flit => next_within (execSealReceive_changes l flit s) rfl
  | .replayTimeout l => next_within (execReplayTimeout_changes l s) rfl
  | .idleFlitReceive l flit => next_within (execIdleFlitReceive_changes l flit s) rfl
  | .echo l flit => next_within (execEcho_changes l flit s) rfl
  | .echoReply l flit now => next_within (execEchoReply_changes l flit now s) rfl
  | .echoPeriodic l => next_within (execEchoPeriodic_changes l s) rfl
  | .waggleRecordPart l flit => next_within (execWaggleRecordPart_changes l flit s) rfl
  | .identityPart l flit => next_within (execIdentityPart_changes l flit s) rfl
  | .recordAcknowledgement l flit => next_within (execRecordAcknowledgement_changes l flit s) rfl
  | .waggleRepeat l => next_within (execWaggleRepeat_changes l s) rfl
  | .waggleAckTimeout l => next_within (execWaggleAckTimeout_changes l s) rfl
  | .waggleRetry l => next_within (execWaggleRetry_changes l s) rfl
  | .waggleResend l => next_within (execWaggleResend_changes l s) rfl
  | .write l => next_within (execWrite_changes l s) rfl
  | .lid l => next_within (execLid_changes l s) rfl
  | .lidDataLanded chip group => next_within (execLidDataLanded_changes chip group s) rfl
  | .read l => next_within (execRead_changes l s) rfl
  | .readData l => next_within (execReadData_changes l s) rfl
  | .landed l => next_within (execLanded_changes l s) rfl
  | .refuse l => next_within (execRefuse_changes l s) rfl
  | .notReady l => next_within (execNotReady_changes l s) rfl
  | .notReadyBackoffEnd chip => next_within (execNotReadyBackoffEnd_changes chip s) rfl
  | .abandon l => next_within (execAbandon_changes l s) rfl
  | .credit l => next_within (execCredit_changes l s) rfl
  | .creditReturnTimer chip => next_within (execCreditReturnTimer_changes chip s) rfl
  | .tallyMessage l => next_within (execTallyMessage_changes l s) rfl
  | .keeper l => next_within (execKeeper_changes l s) rfl
  | .rekey l => next_within (execRekey_changes l s) rfl
  | .partnerAdmit => next_within (execPartnerAdmit_changes s) rfl
  | .partnerRamp chip => next_within (execPartnerRamp_changes chip s) rfl
  | .groupIdleTimeout chip group => next_within (execGroupIdleTimeout_changes chip group s) rfl
  | .remoteTimeout chip kind tag => next_within (execRemoteTimeout_changes chip kind tag s) rfl
  | .receiverRequestDrop chip => next_within (execReceiverRequestDrop_changes chip s) rfl
  | .keeperMemoryResponse data last fail => next_within (execKeeperMemoryResponse_changes data last fail s) rfl
  | .controlPortRefused wr off strobe init => next_within (execControlPortRefused_changes wr off strobe init s) rfl
  | .registerWrite off strobe data => next_within (execRegisterWrite_changes off strobe data s) rfl
  | .fltStatClear w raised => next_within (execFltStatClear_changes w raised s) rfl
  | .fcValidClear w => next_within (execFcValidClear_changes w s) rfl
  | .fltCorrRead => next_within (execFltCorrRead_changes s) rfl
  | .knockDropRead => next_within (execKnockDropRead_changes s) rfl
  | .snapStatRead => next_within (execSnapStatRead_changes s) rfl
  | .smokerStatRead => next_within (execSmokerStatRead_changes s) rfl
  | .afClear w => next_within (execAfClear_changes w s) rfl
  | .frameRestart w => next_within (execFrameRestart_changes w s) rfl
  | .epRelease w => next_within (execEpRelease_changes w s) rfl
  | .fltInjectCollector w => next_within (execFltInjectCollector_changes w s) rfl
  | .fltInjectSingleFlip w => next_within (execFltInjectSingleFlip_changes w s) rfl
  | .fltInjectDoubleFlip w => next_within (execFltInjectDoubleFlip_changes w s) rfl
  | .errPinMinimumEnd => next_within (execErrPinMinimumEnd_changes s) rfl
  | .blockResetReaction => next_within (execBlockResetReaction_changes s) rfl
  | .aoRstN inp => next_within (execAoRstN_changes inp s) rfl
  | .blkRstN inp => next_within (execBlkRstN_changes inp s) rfl
  | .kbGo w => next_within (execKbGo_changes w s) rfl
  | .bootAuthDone => next_within (execBootAuthDone_changes s) rfl
  | .hiveTestsDone pass => next_within (execHiveTestsDone_changes pass s) rfl
  | .stackMapRead => next_within (execStackMapRead_changes s) rfl
  | .linkStartupTimeout => next_within (execLinkStartupTimeout_changes s) rfl
  | .readiness => next_within (execReadiness_changes s) rfl
  | .pwrFailN => next_within (execPwrFailN_changes s) rfl
  | .wakeReq => next_within (execWakeReq_changes s) rfl
  | .pwrWake w => next_within (execPwrWake_changes w s) rfl
  | .pwrAck d up => next_within (execPwrAck_changes d up s) rfl
  | .clkAck branch up => next_within (execClkAck_changes branch up s) rfl
  | .pwrRetAck d up => next_within (execPwrRetAck_changes d up s) rfl
  | .handshakeTimeout clk n => next_within (execHandshakeTimeout_changes clk n s) rfl
  | .frameDemandWake f => next_within (execFrameDemandWake_changes f s) rfl
  | .frameRunToIdle f => next_within (execFrameRunToIdle_changes f s) rfl
  | .frameIdleToNap f => next_within (execFrameIdleToNap_changes f s) rfl
  | .frameNapToOff f => next_within (execFrameNapToOff_changes f s) rfl
  | .supplyWarning src => next_within (execSupplyWarning_changes src s) rfl
  | .supplyDeep src => next_within (execSupplyDeep_changes src s) rfl
  | .throttleEscalate r => next_within (execThrottleEscalate_changes r s) rfl
  | .throttleRelease r => next_within (execThrottleRelease_changes r s) rfl
  | .droopHeldTimeout r => next_within (execDroopHeldTimeout_changes r s) rfl
  | .pantryScrub f ecc => next_within (execPantryScrub_changes f ecc s) rfl
  | .contextStoreScrub bank word ecc => next_within (execContextStoreScrub_changes bank word ecc s) rfl
  | .droopSensorTrim => next_within (execDroopSensorTrim_changes s) rfl
  | .telemetry => next_within (execTelemetry_changes s) rfl
  | .flashSectorErase => next_within (execFlashSectorErase_changes s) rfl
  | .flashOperationDone fail status => next_within (execFlashOperationDone_changes fail status s) rfl
  | .flushStart => next_within (execFlushStart_changes s) rfl
  | .flushAgeTimeout => next_within (execFlushAgeTimeout_changes s) rfl
  | .flushDone => next_within (execFlushDone_changes s) rfl
  | .eventRecordAccept => next_within (execEventRecordAccept_changes s) rfl
  | .recCursorFlashRead w => next_within (execRecCursorFlashRead_changes w s) rfl
  | .flashReadDone data => next_within (execFlashReadDone_changes data s) rfl
  | .scTrig w => next_within (execScTrig_changes w s) rfl
  | .snapIn => next_within (execSnapIn_changes s) rfl
  | .snapshotCapture fine => next_within (execSnapshotCapture_changes fine s) rfl
  | .snapshotImageDone => next_within (execSnapshotImageDone_changes s) rfl
  | .ptimeWrap => next_within (execPtimeWrap_changes s) rfl
  | .groupNumberReuse chip group => next_within (execGroupNumberReuse_changes chip group s) rfl
  | .supplyAboveWarning src => next_within (execSupplyAboveWarning_changes src s) rfl
  | .flashLogScanDone scan => next_within (execFlashLogScanDone_changes scan s) rfl
  | .frameTestRetry => next_within (execFrameTestRetry_changes s) rfl
  | .linkRetrainingRequest l => next_within (execLinkRetrainingRequest_changes l s) rfl

/-! ## What becomes of a state in the operations that verbs share -/

/-- A verb in progress at its turn runs; any other only halts. -/
theorem State.runVerb_elim {P : State → Prop} {s : State} {o : Origin} {code : Nat} {f : VerbProg → State}
    (hhalt : P (s.verbHalted o code)) (hrun : ∀ v, P (f v)) : P (s.runVerb o code f) := by
  unfold State.runVerb
  split
  · exact hrun _
  · exact hhalt

/-- A verb that names a structure is refused, or asks for the bytes that it lacks, or goes on with them (R45). -/
theorem State.withStruct_elim {P : State → Prop} {s : State} {o : Origin} {v : VerbProg} {off addr len align : Nat}
    {f : Bytes → State} (hrefuse : P (s.verbDone o kBadParam off)) (hask : P (s.askBytes o addr len)) (hread : ∀ b, P (f b)) :
    P (s.withStruct o v off addr len align f) := by
  unfold State.withStruct
  split
  · exact hrefuse
  · split
    · exact hread _
    · exact hask

/-- A table write that no flip spoils stays; one flip is only reported, and two lose the entry (R385, R387). -/
theorem State.tableWritten_elim {P : State → Prop} {s : State} {sub idx : Nat} {gone : State → State} (hclean : P s)
    (hcorrected : ∀ t, OnlyChanges [.faults, .frames, .snap, .recd] s t → P t)
    (hlost : ∀ t, OnlyChanges [.faults, .frames, .snap, .recd] s t → P (gone t)) : P (s.tableWritten sub idx gone) := by
  have hraise (f : Faults → Faults) (c : FaultCap) : OnlyChanges [.faults, .frames, .snap, .recd] s ((s.modFaults f).raise c) :=
    ((s.modFaults_changes f).mono (by decide)).step ((s.modFaults f).raise_changes c) (by decide)
  unfold State.tableWritten
  extract_lets n u
  split
  · exact hclean
  · split
    · exact hcorrected _ (hraise _ _)
    · exact hlost _ (hraise _ _)

/-! ## Sound entries (R145, R146) -/

theorem ModEntry.sound_empty : ({} : ModEntry).Sound := by
  unfold ModEntry.Sound
  decide

/-- An image without an offence spells a sound entry: every demand of R146 on its kind is one of the checks. -/
theorem parseModulus_sound {b : Bytes} (h : modulusOffence b = none) : (parseModulus b).Sound := by
  simp only [modulusOffence, List.min?_eq_none_iff, List.append_eq_nil_iff] at h
  obtain ⟨-, hfields⟩ := h
  generalize parseModulus b = m at hfields ⊢
  refine ⟨fun hkind => ?_, fun hkind => ?_, fun hkind => ?_⟩
  · simp [hkind] at hfields
  · simp only [hkind, BitVec.ofNat_eq_ofNat, BitVec.toNat_ofNat, Nat.reducePow, Nat.one_mod, Bool.not_and, Bool.or_eq_true,
      Bool.not_eq_eq_eq_not, Bool.not_true, decide_eq_false_iff_not, not_le, not_lt, ne_eq, decide_not, Order.lt_two_iff,
      decide_eq_true_eq, ite_not, List.append_assoc, List.append_eq_nil_iff, ite_eq_right_iff, List.cons_ne_self, imp_false,
      not_or, Bool.not_eq_false, Decidable.not_not, ite_eq_left_iff] at hfields
    obtain ⟨⟨⟨hlow, hhigh⟩, hprime⟩, ⟨⟨hwidth, -⟩, -⟩, hpinv, ⟨hp, hrmod⟩, -, hrsq⟩ := hfields
    exact ⟨hlow, hhigh, hprime, by rw [hwidth, if_neg hp], hpinv, hrmod, hrsq⟩
  · simpa [hkind, or_iff_not_imp_left] using hfields

/-! ## Sound tables -/

theorem State.ModsSound.of_changes {s t : State} {ps : List Part} (h : s.ModsSound) (hch : OnlyChanges ps s t)
    (hp : Part.mods ∉ ps) : t.ModsSound := by
  have hmods : t.mods = s.mods := hch .mods hp
  intro i
  rw [State.modulus, hmods]
  exact h i

theorem State.modsSound_of_mods_nil {s : State} (h : s.mods = []) : s.ModsSound := by
  intro i
  rw [State.modulus, h]
  exact ModEntry.sound_empty

theorem State.ModsSound.setModulus {s : State} {e : ModEntry} (h : s.ModsSound) (he : e.Sound) (i : Nat) :
    (s.setModulus i e).ModsSound := by
  intro j
  by_cases hj : j = i
  · rw [hj, State.setModulus_modulus_same]
    exact he
  · rw [State.setModulus_modulus_other _ _ hj]
    exact h j

theorem State.ModsSound.modChanged {s : State} (h : s.ModsSound) (i : Nat) : (s.modChanged i).ModsSound :=
  h.of_changes (s.modChanged_changes i) (by decide)

theorem State.ModsSound.verbDone {s : State} (h : s.ModsSound) (o : Origin) (st d : Nat) (res : Bytes) :
    (s.verbDone o st d res).ModsSound :=
  h.of_changes (s.verbDone_changes o st d res) (by decide)

/-- mod.set writes an image only when it has no offence; a write that two flips spoil leaves the entry empty. -/
theorem exec_modSet_modsSound {s : State} (h : s.ModsSound) (o : Origin) : ∃ t, exec (.modSet o) s = .next t ∧ t.ModsSound := by
  refine ⟨_, rfl, State.runVerb_elim (h.of_changes (State.verbHalted_changes _ _ _) (by decide)) fun v => ?_⟩
  refine State.withStruct_elim (h.verbDone _ _ _ _) (h.of_changes (State.askBytes_changes _ _ _ _) (by decide)) fun b => ?_
  split
  · exact h.verbDone _ _ _ _
  · next hno =>
    have hset := (h.setModulus (parseModulus_sound hno) (par v.req 16 1)).modChanged (par v.req 16 1)
    refine State.ModsSound.verbDone (State.tableWritten_elim hset (fun t hch => hset.of_changes hch (by decide)) fun t hch => ?_) _ _ _ _
    exact ((hset.of_changes hch (by decide)).setModulus ModEntry.sound_empty _).modChanged _

/-! ## The resets empty the table (R372, R380, R399, R439) -/

@[simp] theorem State.loseBlock_mods (s : State) (inp : StaticIn) (cause : Byte) : (s.loseBlock inp cause).mods = [] := by
  unfold State.loseBlock
  extract_lets p t
  have ht : t.mods = [] := rfl
  clear_value t
  rw [State.askFlush_mods, State.tapCredits_changes _ .mods (by decide), State.portCredits_changes _ .mods (by decide), ht]

@[simp] theorem State.blockReset_mods (s : State) (inp : StaticIn) : (s.blockReset inp).mods = [] := by
  unfold State.blockReset
  extract_lets f t
  have ht : t.mods = [] := s.loseBlock_mods inp 1
  clear_value t
  rw [State.bootIfPowered_changes _ .mods (by decide), State.inputFaults_changes _ _ .mods (by decide),
    State.clockUp_changes _ _ .mods (by decide), State.powerUp_changes _ _ .mods (by decide), ht]

/-- The hold before sleep, where it is due, ends in the loss of everything outside the always-on domain (R372, R436). -/
theorem exec_quiesceSleepHoldEnd_modsSound {s : State} (h : s.ModsSound) :
    ∃ t, exec .quiesceSleepHoldEnd s = .next t ∧ t.ModsSound := by
  refine ⟨_, rfl, ?_⟩
  extract_lets t pw u
  split
  · exact h
  · refine State.modsSound_of_mods_nil ?_
    have ht : t.mods = [] := s.loseBlock_mods s.inp 3
    clear_value t
    rw [State.noteMode_changes _ .mods (by decide), State.clockDown_changes _ _ .mods (by decide),
      State.powerDown_changes _ _ .mods (by decide)]
    exact ht

/-- The resets that faults have called for: the chip reset request touches no table, a block reset empties it (R379). -/
theorem exec_blockResetReaction_modsSound {s : State} (h : s.ModsSound) :
    ∃ t, exec .blockResetReaction s = .next t ∧ t.ModsSound := by
  refine ⟨_, rfl, ?_⟩
  extract_lets f u
  have hu : u.ModsSound := by
    unfold u
    split <;> exact h
  split
  · exact State.modsSound_of_mods_nil (u.blockReset_mods _)
  · exact hu

theorem exec_blkRstN_modsSound {s : State} (h : s.ModsSound) (inp : StaticIn) :
    ∃ t, exec (.blkRstN inp) s = .next t ∧ t.ModsSound := by
  refine ⟨_, rfl, ?_⟩
  split
  · exact h
  · exact State.modsSound_of_mods_nil (State.blockReset_mods _ _)

theorem exec_aoRstN_modsSound (s : State) (inp : StaticIn) : ∃ t, exec (.aoRstN inp) s = .next t ∧ t.ModsSound := by
  refine ⟨_, rfl, State.modsSound_of_mods_nil ?_⟩
  extract_lets t
  have ht : t.mods = [] := rfl
  clear_value t
  rw [State.inputFaults_changes _ _ .mods (by decide), State.tapCredits_changes _ .mods (by decide),
    State.portCredits_changes _ .mods (by decide), State.clockUp_changes _ _ .mods (by decide),
    State.powerUp_changes _ _ .mods (by decide), ht]

/-! ## Every step (R145, R146) -/

/-- A command that cannot touch the modulus table leaves it sound. -/
theorem exec_modsSound_of_untouched {s : State} (h : s.ModsSound) {c : Instr} (hc : Part.mods ∉ mayTouch c) :
    ∃ t, exec c s = .next t ∧ t.ModsSound := by
  obtain ⟨t, hexec, hch⟩ := exec_changes c s
  exact ⟨t, hexec, h.of_changes hch hc⟩

/-- Only mod.set and the four resets reach the modulus table, and each leaves a sound one. -/
theorem exec_modsSound {s : State} (h : s.ModsSound) (c : Instr) : ∃ t, exec c s = .next t ∧ t.ModsSound := by
  cases c with
  | modSet o => exact exec_modSet_modsSound h o
  | quiesceSleepHoldEnd => exact exec_quiesceSleepHoldEnd_modsSound h
  | blockResetReaction => exact exec_blockResetReaction_modsSound h
  | aoRstN inp => exact exec_aoRstN_modsSound s inp
  | blkRstN inp => exact exec_blkRstN_modsSound h inp
  | _ => exact exec_modsSound_of_untouched h (by simp [mayTouch])

/-- Settles O4: a step is a tick, which leaves the table alone, or a command, by `exec_modsSound`. -/
theorem stepsKeepTheModulusTableSound : Obligations.StepsKeepTheModulusTableSound := by
  intro s t h hstep
  unfold step at hstep
  split at hstep
  · cases hstep
    exact h.of_changes (idleTick_changes s) (by decide)
  · next c rest _ =>
    obtain ⟨u, hexec, hu⟩ := exec_modsSound (s := { s with pending := rest }) h c
    cases hexec.symm.trans hstep
    exact hu

/-! ## Reset (R145, R175) -/

theorem KeySet.sound_of_unregistered {k : KeySet} (h : k.tenant = 0) : k.Sound := fun hreg => absurd h hreg

/-- Settles O6: both tables are empty after reset, and an empty entry is sound. -/
theorem resetTablesAreSound : Obligations.ResetTablesAreSound :=
  ⟨State.modsSound_of_mods_nil rfl, fun _ => KeySet.sound_of_unregistered rfl, fun _ => rfl, fun _ => rfl⟩

end Sys2Proof.Machine

/-! # Proofs: the key-set registry (R43, R175 to R182)

The registration's checks and the verbs of a key set first, one equation per outcome; then what a record owes to the checks that
let it in, and the registry over a step. -/
namespace Sys2Proof.Machine

/-! ## Registration (R44, R45, R175, R177, R180) -/

/-- The key set that a request names in bytes 16 and 17. -/
abbrev VerbProg.ksetNo (v : VerbProg) : KsetNo := BitVec.ofNat 14 (par v.req 16 2)

theorem exec_ksetRegister_of_registered {o : Origin} {v : VerbProg} {s : State} (h : Turn s o 0x0500 v)
    (hreg : (s.kset v.ksetNo).tenant ≠ 0) : exec (.ksetRegister o) s = .next (s.finish v kBusy 16 []) := by
  refine next_runVerb_of_turn h ?_
  rw [if_pos hreg, h.verbDone_eq]

theorem State.withStruct_of_refused {s : State} {o : Origin} {v : VerbProg} {off addr len align : Nat} {f : Bytes → State}
    (h : s.inStackMap addr len = false ∨ addr % align ≠ 0 ∨ v.readFail = true) :
    s.withStruct o v off addr len align f = s.verbDone o kBadParam off := by
  have hcond : (!s.inStackMap addr len || decide (addr % align ≠ 0) || v.readFail) = true := by
    rw [Bool.or_eq_true, Bool.or_eq_true, Bool.not_eq_true', decide_eq_true_iff, or_assoc]
    exact h
  rw [State.withStruct, if_pos hcond]

theorem exec_ksetRegister_of_refused {o : Origin} {v : VerbProg} {s : State} (h : Turn s o 0x0500 v)
    (hfree : (s.kset v.ksetNo).tenant = 0)
    (hbad : s.inStackMap (par v.req 24 8) 64 = false ∨ par v.req 24 8 % 64 ≠ 0 ∨ v.readFail = true) :
    exec (.ksetRegister o) s = .next (s.finish v kBadParam 24 []) := by
  refine next_runVerb_of_turn h ?_
  rw [if_neg (not_not.mpr hfree), State.withStruct_of_refused hbad, h.verbDone_eq]

/-- A record that has been read is judged (R180). -/
theorem exec_ksetRegister_of_read {o : Origin} {v : VerbProg} {b : Bytes} {s : State} (h : Turn s o 0x0500 v)
    (hfree : (s.kset v.ksetNo).tenant = 0) (hread : HasRead s v (par v.req 24 8) 64 64 b) :
    exec (.ksetRegister o) s = .next (s.ksetRegister o v.ksetNo b) := by
  refine next_runVerb_of_turn h ?_
  rw [if_neg (not_not.mpr hfree), State.withStruct_of_hasRead hread]

section
variable {s : State} {o : Origin} {n : KsetNo} {b : Bytes}

theorem State.ksetRegister_of_bad_crc (hcrc : (parseKset b).crc ≠ crc32c (slice b 0 60)) :
    s.ksetRegister o n b = s.verbDone o kBadParam 0x013C := by
  simp [State.ksetRegister, hcrc]

variable (hcrc : (parseKset b).crc = crc32c (slice b 0 60))
include hcrc

theorem State.ksetRegister_of_reserved {i : Nat} (hi : ksetRsv b = some i) :
    s.ksetRegister o n b = s.verbDone o kBadParam (0x0100 + i) := by
  simp [State.ksetRegister, hcrc, hi]

variable (hrsv : ksetRsv b = none)
include hrsv

theorem State.ksetRegister_of_no_tenant (ht : (parseKset b).tenant = 0 ∨ s.tenantOpen (parseKset b).tenant = false) :
    s.ksetRegister o n b = s.verbDone o kNoObject 0x0100 := by
  obtain ht | ht := ht <;> simp [State.ksetRegister, hcrc, hrsv, ht]

variable (ht : (parseKset b).tenant ≠ 0#12) (hopen : s.tenantOpen (parseKset b).tenant = true)
  (hact : s.mayAct o (parseKset b).tenant = true)
include ht hopen hact

theorem State.ksetRegister_of_range {d : Nat} (hd : ksetRange o (parseKset b) = some d) :
    s.ksetRegister o n b = s.verbDone o kBadParam d := by
  simp [State.ksetRegister, hcrc, hrsv, ht, hopen, hact, hd]

variable (hrange : ksetRange o (parseKset b) = none)
include hrange

theorem State.ksetRegister_of_no_combination
    (hcombo : ksetCombo (parseKset b).etype.toNat (parseKset b).elem.toNat (s.modulus (parseKset b).mod.toNat) = false) :
    s.ksetRegister o n b = s.verbDone o kBadParam 0x0104 := by
  simp [State.ksetRegister, hcrc, hrsv, ht, hopen, hact, hrange, hcombo]

variable (hcombo : ksetCombo (parseKset b).etype.toNat (parseKset b).elem.toNat (s.modulus (parseKset b).mod.toNat) = true)
include hcombo

theorem State.ksetRegister_of_place {d : Nat} (hd : ksetPlace s.inp (parseKset b) = some d) :
    s.ksetRegister o n b = s.verbDone o kBadParam d := by
  simp [State.ksetRegister, hcrc, hrsv, ht, hopen, hact, hrange, hcombo, hd]

variable (hplace : ksetPlace s.inp (parseKset b) = none)
include hplace

theorem State.ksetRegister_of_untested (hseed : (parseKset b).seeded = true) (h0 : s.sec.passed.getLsbD 0 = false)
    (h1 : s.sec.passed.getLsbD 1 = false) : s.ksetRegister o n b = s.verbDone o kNotReady 0 := by
  simp [State.ksetRegister, hcrc, hrsv, ht, hopen, hact, hrange, hcombo, hplace, hseed, h0, h1, -BitVec.getLsbD_eq_getElem]

theorem State.ksetRegister_of_sound
    (hpass : (parseKset b).seeded = true → s.sec.passed.getLsbD 0 = true ∨ s.sec.passed.getLsbD 1 = true) :
    s.ksetRegister o n b =
      ((s.setKset n (parseKset b)).tableWritten 0 n.toNat fun s => s.setKset n {}).verbDone o kOK 0 := by
  cases hseed : (parseKset b).seeded with
  | false => simp [State.ksetRegister, hcrc, hrsv, ht, hopen, hact, hrange, hcombo, hplace, hseed]
  | true =>
    obtain hp | hp := hpass hseed <;>
      simp [State.ksetRegister, hcrc, hrsv, ht, hopen, hact, hrange, hcombo, hplace, hp, -BitVec.getLsbD_eq_getElem]

end

/-! ## Retirement (R182) -/

theorem exec_ksetRetire_of_unregistered {o : Origin} {v : VerbProg} {s : State} (h : Turn s o 0x0501 v)
    (hfree : (s.kset v.ksetNo).tenant = 0) : exec (.ksetRetire o) s = .next (s.finish v kNoObject 16 []) := by
  refine next_runVerb_of_turn h ?_
  rw [if_pos hfree, h.verbDone_eq]

theorem exec_ksetRetire_of_registered {o : Origin} {v : VerbProg} {s : State} (h : Turn s o 0x0501 v)
    (hreg : (s.kset v.ksetNo).tenant ≠ 0) (hact : s.mayAct o (s.kset v.ksetNo).tenant = true) :
    exec (.ksetRetire o) s = .next (if s.ksetHeld v.ksetNo then s.finish v kBusy 16 []
      else (s.setKset v.ksetNo { s.kset v.ksetNo with retiring := true }).verbDrains o) := by
  refine next_runVerb_of_turn h ?_
  rw [if_neg hreg, hact, h.verbDone_eq]
  rfl

theorem exec_ksetRetireDrainEnd {o : Origin} {v : VerbProg} {s : State} (h : Waits s o 0x0501 v) :
    exec (.ksetRetireDrainEnd o) s =
      .next (if s.ksetUsed v.ksetNo then s else (s.setKset v.ksetNo {}).finish v kOK 0 []) := by
  refine next_runDrained_of_waits h ?_
  have hverb : (s.setKset v.ksetNo {}).verb o = some v := h.verb_eq
  simp only [State.verbDone_of_verb hverb]

/-! ## Binding (R181) -/

theorem exec_ksetBind_of_closed {o : Origin} {v : VerbProg} {s : State} (h : Turn s o 0x0502 v)
    (hclosed : (s.ctx v.ctxNo).isOpen = false) : exec (.ksetBind o) s = .next (s.finish v kNoObject 16 []) := by
  refine next_runVerb_of_turn h ?_
  rw [State.onCtx_of_closed hclosed, h.verbDone_eq]

/-- The key set that a binding names in bytes 20 and 21. -/
abbrev VerbProg.boundKset (v : VerbProg) : KsetNo := BitVec.ofNat 14 (par v.req 20 2)

section
variable {o : Origin} {v : VerbProg} {s : State} (h : Turn s o 0x0502 v) (hopen : (s.ctx v.ctxNo).isOpen = true)
  (hctx : s.mayAct o (s.ctx v.ctxNo).tenant = true) (hd : (s.ctx v.ctxNo).damaged = 0)
include h hopen hctx hd

theorem exec_ksetBind_of_unregistered (hfree : (s.kset v.boundKset).tenant = 0) :
    exec (.ksetBind o) s = .next (s.finish v kNoObject 20 []) := by
  refine next_runVerb_of_turn h ?_
  rw [State.onCtx_of_open hopen hctx hd, if_pos hfree, h.verbDone_eq]

/-- A registered key set is bound to a context of its tenant at rest, and to no other. -/
theorem exec_ksetBind_of_registered (hreg : (s.kset v.boundKset).tenant ≠ 0)
    (hact : s.mayAct o (s.kset v.boundKset).tenant = true) :
    exec (.ksetBind o) s = .next (
      if (s.kset v.boundKset).tenant ≠ (s.ctx v.ctxNo).tenant then s.finish v kNotPermitted 0 []
      else if !(s.ctx v.ctxNo).atRest then s.finish v kBusy 16 []
      else (s.setCtx v.ctxNo { s.ctx v.ctxNo with keySet := v.boundKset }).finish v kOK 0 []) := by
  refine next_runVerb_of_turn h ?_
  rw [State.onCtx_of_open hopen hctx hd, if_neg hreg, hact, h.verbDone_eq, h.verbDone_eq, State.modCtx, h.verbDone_setCtx]
  rfl

end

/-- Settles O15: each outcome of kset.register, kset.retire, its drain and kset.bind is one of the equations above. -/
theorem keySetsAreRegisteredRetiredAndBound : Obligations.KeySetsAreRegisteredRetiredAndBound := by
  refine ⟨fun o v b s h => ⟨exec_ksetRegister_of_registered h, exec_ksetRegister_of_refused h, fun hfree hread => ?_⟩,
    fun o v s => ⟨⟨exec_ksetRetire_of_unregistered, fun h hreg hact => ?_, fun h => ?_⟩, fun h =>
      ⟨exec_ksetBind_of_closed h, fun hopen hctx hd => ⟨exec_ksetBind_of_unregistered h hopen hctx hd, fun hreg hact => ?_⟩⟩⟩⟩
  · have hdone (st d : Nat) : s.verbDone o st d = s.finish v st d [] := h.verbDone_eq st d []
    rw [exec_ksetRegister_of_read h hfree hread]
    refine ⟨fun hcrc => ?_, fun hcrc => ⟨fun i hi => ?_, fun hrsv ht => ?_, fun hrsv ht hopen hact =>
      ⟨fun d hd => ?_, fun hrange hcombo => ?_, fun hrange hcombo => ⟨fun d hd => ?_, fun hplace hseed h0 h1 => ?_,
        fun hplace hpass hflip => ?_⟩⟩⟩⟩
    · rw [State.ksetRegister_of_bad_crc hcrc, hdone]
    · rw [State.ksetRegister_of_reserved hcrc hi, hdone]
    · rw [State.ksetRegister_of_no_tenant hcrc hrsv ht, hdone]
    · rw [State.ksetRegister_of_range hcrc hrsv ht hopen hact hd, hdone]
    · rw [State.ksetRegister_of_no_combination hcrc hrsv ht hopen hact hrange hcombo, hdone]
    · rw [State.ksetRegister_of_place hcrc hrsv ht hopen hact hrange hcombo hd, hdone]
    · rw [State.ksetRegister_of_untested hcrc hrsv ht hopen hact hrange hcombo hplace hseed h0 h1, hdone]
    · rw [State.ksetRegister_of_sound hcrc hrsv ht hopen hact hrange hcombo hplace hpass,
        h.verbDone_tableWritten (State.setKset_changes _ _ _) (by decide) (by decide) hflip]
  · rw [exec_ksetRetire_of_registered h hreg hact]
    exact ⟨fun hheld => by rw [if_pos hheld], fun hheld => by rw [hheld, if_neg Bool.false_ne_true]⟩
  · rw [exec_ksetRetireDrainEnd h]
    exact ⟨fun hused => by rw [if_pos hused], fun hused => by rw [hused, if_neg Bool.false_ne_true]⟩
  · rw [exec_ksetBind_of_registered h hopen hctx hd hreg hact]
    refine ⟨fun hne => by rw [if_pos hne], fun heq hst => ?_, fun heq hst => ?_⟩
    · rw [if_neg (not_not.mpr heq), if_pos (by rwa [Bool.not_eq_true', ← Bool.not_eq_true, Ctx.atRest_iff])]
    · rw [if_neg (not_not.mpr heq), (Ctx.atRest_iff _).mpr hst, if_neg (by decide)]

/-! ## Sound records (R175 to R177) -/

/-- What orders 8 and 10 of the checks let in is sound. -/
theorem KeySet.sound_of_checks {o : Origin} {inp : StaticIn} {k : KeySet} (hrange : ksetRange o k = none)
    (hplace : ksetPlace inp k = none) : k.Sound := by
  intro _
  unfold ksetRange at hrange
  split_ifs at hrange with hmasks hring hspace hrows
  unfold ksetPlace at hplace
  extract_lets size at hplace
  split_ifs at hplace with haddr hlen
  simp only [Bool.or_eq_true, decide_eq_true_eq, not_or, not_lt, not_not] at hmasks hring haddr hlen
  have hword : k.word.space = 0 ∨ k.word.space = 4 ∧ originPriv o = true := by simpa [or_iff_not_imp_left] using hspace
  exact ⟨by bv_omega, hmasks.2, hring.1, hring.2, hrows, hword.imp_right And.left, haddr.1, hlen.1⟩

/-! ## A sound registry -/

theorem State.RegistrySound.of_ksets {s t : State} (h : s.RegistrySound) (ht : t.ksets = s.ksets ∨ t.ksets = []) :
    t.RegistrySound := by
  intro n
  rw [State.kset]
  obtain ht | ht := ht
  · rw [ht]
    exact h n
  · rw [ht]
    exact KeySet.sound_of_unregistered rfl

theorem State.RegistrySound.of_changes {s t : State} {ps : List Part} (h : s.RegistrySound) (hch : OnlyChanges ps s t)
    (hp : Part.ksets ∉ ps) : t.RegistrySound :=
  h.of_ksets (.inl (hch .ksets hp))

theorem State.RegistrySound.setKset {s : State} {k : KeySet} (h : s.RegistrySound) (hk : k.Sound) (n : KsetNo) :
    (s.setKset n k).RegistrySound := by
  intro m
  by_cases hm : m = n
  · rw [hm, State.setKset_kset_same]
    exact hk
  · rw [State.setKset_kset_other _ _ hm]
    exact h m

theorem State.RegistrySound.verbDone {s : State} (h : s.RegistrySound) (o : Origin) (st d : Nat) (res : Bytes) :
    (s.verbDone o st d res).RegistrySound :=
  h.of_changes (s.verbDone_changes o st d res) (by decide)

theorem State.RegistrySound.refuseTenant {s : State} (h : s.RegistrySound) (o : Origin) : (s.refuseTenant o).RegistrySound :=
  h.of_changes (s.refuseTenant_changes o) (by decide)

theorem State.RegistrySound.verbHalted {s : State} (h : s.RegistrySound) (o : Origin) (code : Nat) :
    (s.verbHalted o code).RegistrySound :=
  h.of_changes (s.verbHalted_changes o code) (by decide)

/-! ## The verbs that write the registry (R180, R182) -/

/-- Only a record that meets every check is written, and two flips of the write leave an unregistered one (R385, R387). -/
theorem State.RegistrySound.ksetRegister {s : State} (h : s.RegistrySound) (o : Origin) (n : KsetNo) (b : Bytes) :
    (s.ksetRegister o n b).RegistrySound := by
  unfold State.ksetRegister
  extract_lets k
  split
  · exact h.verbDone _ _ _ _
  split
  · exact h.verbDone _ _ _ _
  split
  · exact h.verbDone _ _ _ _
  split
  · exact h.refuseTenant o
  split
  · exact h.verbDone _ _ _ _
  next hrange =>
  split
  · exact h.verbDone _ _ _ _
  split
  · exact h.verbDone _ _ _ _
  next hplace =>
  split
  · exact h.verbDone _ _ _ _
  have hset : (s.setKset n k).RegistrySound := h.setKset (KeySet.sound_of_checks hrange hplace) n
  refine State.RegistrySound.verbDone (State.tableWritten_elim hset (fun t hch => hset.of_changes hch (by decide)) fun t hch => ?_)
    _ _ _ _
  exact (hset.of_changes hch (by decide)).setKset (KeySet.sound_of_unregistered rfl) n

theorem exec_ksetRegister_registrySound {s : State} (h : s.RegistrySound) (o : Origin) :
    ∃ t, exec (.ksetRegister o) s = .next t ∧ t.RegistrySound := by
  refine ⟨_, rfl, State.runVerb_elim (h.verbHalted _ _) fun v => ?_⟩
  extract_lets n
  split
  · exact h.verbDone _ _ _ _
  · exact State.withStruct_elim (h.verbDone _ _ _ _) (h.of_changes (State.askBytes_changes _ _ _ _) (by decide))
      fun b => h.ksetRegister _ _ _

/-- A key set that is retiring keeps its record until its drain ends (R182). -/
theorem exec_ksetRetire_registrySound {s : State} (h : s.RegistrySound) (o : Origin) :
    ∃ t, exec (.ksetRetire o) s = .next t ∧ t.RegistrySound := by
  refine ⟨_, rfl, State.runVerb_elim (h.verbHalted _ _) fun v => ?_⟩
  extract_lets n k
  split
  · exact h.verbDone _ _ _ _
  split
  · exact h.refuseTenant o
  split
  · exact h.verbDone _ _ _ _
  · have hk : ({ k with retiring := true } : KeySet).Sound := h n
    exact (h.setKset hk n).of_changes (State.verbDrains_changes _ _) (by decide)

/-- The end of a drain that a verb waits for runs, or the verb only halts. -/
theorem State.runDrained_elim {P : State → Prop} {s : State} {o : Origin} {code : Nat} {f : VerbProg → State}
    (hhalt : P (s.verbHalted o code)) (hrun : ∀ v, P (f v)) : P (s.runDrained o code f) := by
  unfold State.runDrained
  split
  · exact hrun _
  · exact hhalt

theorem exec_ksetRetireDrainEnd_registrySound {s : State} (h : s.RegistrySound) (o : Origin) :
    ∃ t, exec (.ksetRetireDrainEnd o) s = .next t ∧ t.RegistrySound := by
  refine ⟨_, rfl, State.runDrained_elim (h.verbHalted _ _) fun v => ?_⟩
  extract_lets n
  split
  · exact h
  · exact (h.setKset (KeySet.sound_of_unregistered rfl) n).verbDone _ _ _ _

/-! ## The resets empty the registry (R372, R380, R399, R439) -/

@[simp] theorem State.loseBlock_ksets (s : State) (inp : StaticIn) (cause : Byte) : (s.loseBlock inp cause).ksets = [] := by
  unfold State.loseBlock
  extract_lets p t
  have ht : t.ksets = [] := rfl
  clear_value t
  rw [State.askFlush_ksets, State.tapCredits_changes _ .ksets (by decide), State.portCredits_changes _ .ksets (by decide), ht]

@[simp] theorem State.blockReset_ksets (s : State) (inp : StaticIn) : (s.blockReset inp).ksets = [] := by
  unfold State.blockReset
  extract_lets f t
  have ht : t.ksets = [] := s.loseBlock_ksets inp 1
  clear_value t
  rw [State.bootIfPowered_changes _ .ksets (by decide), State.inputFaults_changes _ _ .ksets (by decide), State.clockUp_ksets,
    State.powerUp_ksets, ht]

/-- A command whose only way to the registry is a loss of the block's state. -/
def LosesBlock (c : Instr) : Prop :=
  match c with
  | .quiesceSleepHoldEnd | .blockResetReaction | .aoRstN _ | .blkRstN _ => True
  | _ => False

/-- A loss of the block's state, where it is due, leaves no key set registered. -/
theorem exec_ksets_of_losesBlock {c : Instr} (hc : LosesBlock c) (s : State) :
    ∃ t, exec c s = .next t ∧ (t.ksets = s.ksets ∨ t.ksets = []) := by
  cases c with
  | quiesceSleepHoldEnd =>
    refine ⟨_, rfl, ?_⟩
    extract_lets t pw u
    split
    · exact .inl rfl
    · right
      have ht : t.ksets = [] := s.loseBlock_ksets s.inp 3
      clear_value t
      rw [State.noteMode_changes _ .ksets (by decide), State.clockDown_ksets, State.powerDown_ksets]
      exact ht
  | blockResetReaction =>
    refine ⟨_, rfl, ?_⟩
    extract_lets f u
    split
    · exact .inr (u.blockReset_ksets _)
    · left
      unfold u
      split <;> rfl
  | aoRstN inp =>
    refine ⟨_, rfl, .inr ?_⟩
    extract_lets t
    have ht : t.ksets = [] := rfl
    clear_value t
    rw [State.inputFaults_changes _ _ .ksets (by decide), State.tapCredits_changes _ .ksets (by decide),
      State.portCredits_changes _ .ksets (by decide), State.clockUp_ksets, State.powerUp_ksets, ht]
  | blkRstN inp =>
    refine ⟨_, rfl, ?_⟩
    split
    · exact .inl rfl
    · exact .inr (State.blockReset_ksets _ _)
  | _ => cases hc

/-! ## Every step (R175 to R177, R180) -/

theorem exec_registrySound_of_losesBlock {s : State} (h : s.RegistrySound) {c : Instr} (hc : LosesBlock c) :
    ∃ t, exec c s = .next t ∧ t.RegistrySound := by
  obtain ⟨t, hexec, ht⟩ := exec_ksets_of_losesBlock hc s
  exact ⟨t, hexec, h.of_ksets ht⟩

/-- A command that cannot touch the registry leaves it sound. -/
theorem exec_registrySound_of_untouched {s : State} (h : s.RegistrySound) {c : Instr} (hc : Part.ksets ∉ mayTouch c) :
    ∃ t, exec c s = .next t ∧ t.RegistrySound := by
  obtain ⟨t, hexec, hch⟩ := exec_changes c s
  exact ⟨t, hexec, h.of_changes hch hc⟩

/-- The registry is reached by kset.register, by kset.retire and its drain, and by what loses the block's state. -/
theorem exec_registrySound {s : State} (h : s.RegistrySound) (c : Instr) : ∃ t, exec c s = .next t ∧ t.RegistrySound := by
  cases c with
  | ksetRegister o => exact exec_ksetRegister_registrySound h o
  | ksetRetire o => exact exec_ksetRetire_registrySound h o
  | ksetRetireDrainEnd o => exact exec_ksetRetireDrainEnd_registrySound h o
  | quiesceSleepHoldEnd | blockResetReaction | aoRstN inp | blkRstN inp => exact exec_registrySound_of_losesBlock h trivial
  | _ => exact exec_registrySound_of_untouched h (by simp [mayTouch])

/-- Settles O5: a step is a tick, which leaves the registry alone, or a command, by `exec_registrySound`. -/
theorem stepsKeepTheRegistrySound : Obligations.StepsKeepTheRegistrySound := by
  intro s t h hstep
  unfold step at hstep
  split at hstep
  · cases hstep
    exact h.of_changes (idleTick_changes s) (by decide)
  · next c rest _ =>
    obtain ⟨u, hexec, hu⟩ := exec_registrySound (s := { s with pending := rest }) h c
    cases hexec.symm.trans hstep
    exact hu

end Sys2Proof.Machine

/-! # Proofs: swarms open, close and lose members (R186, R187, R197, R199, R200, R202)

Opening first, one equation per outcome; then what a close leaves in its source context, and what an ejection leaves in its
swarm. -/
namespace Sys2Proof.Machine

/-! ## Opening (R43, R186, R187, R197) -/

/-- The swarm that byte 16 of a request names. -/
abbrev VerbProg.swarmNo (v : VerbProg) : Nat := par v.req 16 1

/-- The key set of a swarm to open. -/
abbrev VerbProg.feedKset (v : VerbProg) : KsetNo := BitVec.ofNat 14 (par v.req 18 2)

/-- The source context of a swarm to open. -/
abbrev VerbProg.srcNo (v : VerbProg) : CtxNo := BitVec.ofNat 18 (par v.req 20 4)

theorem exec_swarmOpen_of_no_ports {o : Origin} {v : VerbProg} {s : State} (h : Turn s o 0x0503 v) (hports : maskPorts v.req = []) :
    exec (.swarmOpen o) s = .next (s.finish v kBadParam 24 []) := by
  refine next_runVerb_of_turn h ?_
  simp only [hports, if_true, h.verbDone_eq]

/-- A request whose ports are all present and whose key set is registered, for a tenant that its origin may act for. -/
structure SwarmNamed (s : State) (o : Origin) (v : VerbProg) : Prop where
  turn : Turn s o 0x0503 v
  ports : maskPorts v.req ≠ []
  present : ∀ p ∈ maskPorts v.req, s.corePresent p = true
  registered : (s.kset v.feedKset).tenant ≠ 0#12
  mayAct : s.mayAct o (s.kset v.feedKset).tenant = true

theorem SwarmNamed.none_absent {s : State} {o : Origin} {v : VerbProg} (h : SwarmNamed s o v) :
    ((maskPorts v.req).find? fun p => !s.corePresent p) = none := by
  rw [List.find?_eq_none]
  intro p hp
  simp [h.present p hp]

/-- Its source context is open and of the key set's tenant, and a swarm open in its place is not foreign to the origin. -/
structure SwarmSourced (s : State) (o : Origin) (v : VerbProg) : Prop extends SwarmNamed s o v where
  source : (s.ctx v.srcNo).isOpen = true
  tenant : (s.ctx v.srcNo).tenant = (s.kset v.feedKset).tenant
  own : (s.swarm v.swarmNo).isOpen = true → s.mayAct o (s.kset (s.swarm v.swarmNo).kset).tenant = true

theorem SwarmSourced.not_foreign {s : State} {o : Origin} {v : VerbProg} (h : SwarmSourced s o v) :
    ((s.swarm v.swarmNo).isOpen && !s.mayAct o (s.kset (s.swarm v.swarmNo).kset).tenant) = false := by
  cases hopen : (s.swarm v.swarmNo).isOpen with
  | false => rfl
  | true => simp [h.own hopen]

theorem exec_swarmOpen_of_closed_source {s : State} {o : Origin} {v : VerbProg} (h : SwarmNamed s o v)
    (hclosed : (s.ctx v.srcNo).isOpen = false) : exec (.swarmOpen o) s = .next (s.finish v kNoObject 20 []) := by
  refine next_runVerb_of_turn h.turn ?_
  simp [h.ports, h.none_absent, h.registered, h.mayAct, hclosed, h.turn.verbDone_eq]

theorem exec_swarmOpen_of_foreign_swarm {s : State} {o : Origin} {v : VerbProg} (h : SwarmNamed s o v)
    (hsrc : (s.ctx v.srcNo).isOpen = true) (ht : (s.ctx v.srcNo).tenant = (s.kset v.feedKset).tenant)
    (hopen : (s.swarm v.swarmNo).isOpen = true) (hforeign : s.mayAct o (s.kset (s.swarm v.swarmNo).kset).tenant = false) :
    exec (.swarmOpen o) s = .next (s.refuseTenant o) := by
  refine next_runVerb_of_turn h.turn ?_
  simp [h.ports, h.none_absent, h.registered, h.mayAct, hsrc, ht, hopen, hforeign]

/-- Every frame that holds a member has slots for its region (R197). -/
theorem State.regions_fit {s : State} {ps : List Nat} {w : Nat} (hfit : ∀ p ∈ ps, p < 256 ∧ w / 4 ≤ s.freeSlots (p / 16)) :
    ((frameNos.filter fun f => ps.any fun p => p / 16 = f).any fun f => decide (s.freeSlots f < w / 4)) = false := by
  rw [List.any_eq_false]
  intro f hf
  obtain ⟨-, hmember⟩ := List.mem_filter.mp hf
  obtain ⟨p, hp, hpf⟩ := List.any_eq_true.mp hmember
  have hroom := (hfit p hp).2
  rw [of_decide_eq_true hpf] at hroom
  simpa using hroom

/-- The swarm that an opening leaves. -/
def State.opened (s : State) (v : VerbProg) : Swarm :=
  { isOpen := true, kset := v.feedKset, src := v.srcNo, members := BitVec.ofNat 256 (par v.req 24 32),
    win := 256 * 2 ^ s.regs.swWin.toNat, pace := (s.swarm v.swarmNo).pace,
    srcFrame := if (s.ctx v.srcNo).bound then some (chanFrame (s.ctx v.srcNo).channel.toNat)
                else if (s.ctx v.srcNo).hintValid then some (s.ctx v.srcNo).hintFrame.toNat else none,
    ejectUs := if s.regs.swEjectUs = 0 then 1 else s.regs.swEjectUs }

section
variable {s : State} {o : Origin} {v : VerbProg} (h : SwarmSourced s o v)
include h

theorem exec_swarmOpen_of_all_open (hall : ∀ i < 4, (s.swarm i).isOpen = true) :
    exec (.swarmOpen o) s = .next (s.finish v kNoResource 0 []) := by
  have hfull : ((List.range 4).all fun i => (s.swarm i).isOpen) = true := by simpa using hall
  refine next_runVerb_of_turn h.turn ?_
  simp [h.ports, h.none_absent, h.registered, h.mayAct, h.source, h.tenant, h.not_foreign, hfull, h.turn.verbDone_eq]

variable (hsome : ((List.range 4).all fun i => (s.swarm i).isOpen) = false)
include hsome

theorem exec_swarmOpen_of_open (hopen : (s.swarm v.swarmNo).isOpen = true) :
    exec (.swarmOpen o) s = .next (s.finish v kBusy 16 []) := by
  refine next_runVerb_of_turn h.turn ?_
  simp [h.ports, h.none_absent, h.registered, h.mayAct, h.source, h.tenant, h.own hopen, hsome, hopen, h.turn.verbDone_eq]

variable (hfree : (s.swarm v.swarmNo).isOpen = false)
include hfree

theorem exec_swarmOpen_of_taken_port {q : Nat} (hq : s.portTaken (s.kset v.feedKset).tenant (maskPorts v.req) = some q) :
    exec (.swarmOpen o) s = .next (s.finish v kBusy (24 + 8 * q) []) := by
  refine next_runVerb_of_turn h.turn ?_
  simp [h.ports, h.none_absent, h.registered, h.mayAct, h.source, h.tenant, hsome, hfree, hq, h.turn.verbDone_eq]

variable (hports : s.portTaken (s.kset v.feedKset).tenant (maskPorts v.req) = none)
include hports

theorem exec_swarmOpen_of_feeding_source (hfeeds : (s.swarms.any fun e => e.2.isOpen && e.2.src == v.srcNo) = true) :
    exec (.swarmOpen o) s = .next (s.finish v kBusy 20 []) := by
  refine next_runVerb_of_turn h.turn ?_
  simp only [h.ports, h.none_absent, h.mayAct, h.source, h.tenant, hsome, hfree, hports, hfeeds, h.turn.verbDone_eq]
  simp [h.registered]

theorem exec_swarmOpen_of_free (hfeeds : (s.swarms.any fun e => e.2.isOpen && e.2.src == v.srcNo) = false)
    (hfit : ∀ p ∈ maskPorts v.req, p < 256 ∧ s.swarmWin / 4 ≤ s.freeSlots (p / 16)) :
    exec (.swarmOpen o) s = .next ((s.setSwarm v.swarmNo (s.opened v)).finish v kOK 0 []) := by
  have hverb : (s.setSwarm v.swarmNo (s.opened v)).verb o = some v := h.turn.verb_eq
  refine next_runVerb_of_turn h.turn ?_
  rw [← State.verbDone_of_verb hverb]
  simp only [h.ports, h.none_absent, h.mayAct, h.source, h.tenant, hsome, hfree, hports, hfeeds, State.regions_fit hfit]
  simp [h.registered, State.opened, State.swarmWin]

end

/-- Settles O16: each outcome of swarm.open is one of the equations above. -/
theorem swarmOpenChecksAndOpens : Obligations.SwarmOpenChecksAndOpens := by
  intro o v s h
  refine ⟨exec_swarmOpen_of_no_ports h, fun hports hpresent hreg hact => ?_⟩
  have hnamed : SwarmNamed s o v := ⟨h, hports, hpresent, hreg, hact⟩
  refine ⟨exec_swarmOpen_of_closed_source hnamed, exec_swarmOpen_of_foreign_swarm hnamed, fun hsrc ht hown => ?_⟩
  have hsourced : SwarmSourced s o v := ⟨hnamed, hsrc, ht, hown⟩
  refine ⟨exec_swarmOpen_of_all_open hsourced, fun i hi hclosed => ?_⟩
  have hsome : ((List.range 4).all fun i => (s.swarm i).isOpen) = false :=
    List.all_eq_false.mpr ⟨i, List.mem_range.mpr hi, by simp [hclosed]⟩
  exact ⟨exec_swarmOpen_of_open hsourced hsome, fun hfree => ⟨fun q hq => exec_swarmOpen_of_taken_port hsourced hsome hfree hq,
    fun hnone => ⟨exec_swarmOpen_of_feeding_source hsourced hsome hfree hnone, exec_swarmOpen_of_free hsourced hsome hfree hnone⟩⟩⟩

end Sys2Proof.Machine

/-! # Proofs: swarms close and lose members (R75, R78, R199, R200, R202)

What a close leaves in its source context and in its swarm first, then what an ejection leaves in its swarm, and a run of
ejections. -/
namespace Sys2Proof.Machine

/-! ## A context that is to stop (R75, R78) -/

/-- An early end meets the descriptor where it moves, or changes nothing. -/
theorem State.endWork_cases (s : State) (c : CtxNo) (id status detail : Nat) :
    s.endWork c id status detail = s ∨
      s.endWork c id status detail = ((s.modWork c id fun w => w.ended status detail).modCtx c fun x =>
        if x.errCont || x.state == .stopped then x else { x with failStop := true }).dropHeld c id := by
  unfold State.endWork
  split
  · exact .inl rfl
  · split
    · exact .inl rfl
    · exact .inr rfl

theorem State.endWork_ctx_other (s : State) {c d : CtxNo} (hd : d ≠ c) (id status detail : Nat) :
    (s.endWork c id status detail).ctx d = s.ctx d := by
  obtain h | h := s.endWork_cases c id status detail <;> rw [h]
  rw [(State.dropHeld_changes _ _ _).ctx_eq (by decide), State.modCtx_ctx_other _ _ hd, State.modWork,
    State.modCtx_ctx_other _ _ hd]

/-- A context that is to stop still is after an early end of one of its descriptors. -/
theorem State.endWork_failStop {s : State} {c : CtxNo} (h : (s.ctx c).failStop = true) (id status detail : Nat) :
    ((s.endWork c id status detail).ctx c).failStop = true := by
  obtain h' | h' := s.endWork_cases c id status detail <;> rw [h']
  · exact h
  · rw [(State.dropHeld_changes _ _ _).ctx_eq (by decide), State.modCtx_ctx_same, State.modWork_ctx_same]
    split
    · exact h
    · rfl

theorem State.stopIfDone_ctx_other (s : State) {c d : CtxNo} (hd : d ≠ c) : (s.stopIfDone c).ctx d = s.ctx d := by
  unfold State.stopIfDone
  extract_lets x
  split
  · rw [State.disarm_ctx_other _ hd, State.modCtx_ctx_other _ _ hd, State.unbind_ctx_other _ hd, State.toState_ctx_other _ _ hd]
  · rfl

theorem State.stopIfDone_works (s : State) (c : CtxNo) : ((s.stopIfDone c).ctx c).works = (s.ctx c).works :=
  congrArg (fun a => a.2.1) (s.stopIfDone_keepsAccount c).1

/-- A context that is to stop has stopped, or is to stop still. -/
theorem State.stopIfDone_stops {s : State} {c : CtxNo} (h : (s.ctx c).failStop = true) :
    ((s.stopIfDone c).ctx c).state = .stopped ∨ ((s.stopIfDone c).ctx c).failStop = true := by
  unfold State.stopIfDone
  extract_lets x
  split
  · left
    rw [State.disarm_ctx_same, State.modCtx_ctx_same]
    exact (State.unbind_ctx_state _ _).trans (by rw [State.toState_ctx_same])
  · exact .inr h

/-! ## The source context of a swarm that closes (R202) -/

theorem State.closePartial_of_not_part {s : State} {c : CtxNo} (h : (s.ctx c).part = false) (n : Nat) : s.closePartial n c = s := by
  simp [State.closePartial, h]

/-- A partial feed of the swarm is in progress again and ends; else nothing changes. -/
theorem State.closePartial_cases (s : State) (n : Nat) (c : CtxNo) :
    s.closePartial n c = s ∨
      ∃ w : Work, s.closePartial n c = (s.fresh.2.modCtx c fun x => { x with works := [w] }).endWork c w.id 0x0602 n := by
  unfold State.closePartial
  extract_lets x
  split
  · exact .inl rfl
  · exact .inr ⟨_, rfl⟩

theorem State.closePartial_ctx_other (s : State) (n : Nat) {c d : CtxNo} (hd : d ≠ c) : (s.closePartial n c).ctx d = s.ctx d := by
  obtain h | ⟨w, h⟩ := s.closePartial_cases n c <;> rw [h]
  rw [State.endWork_ctx_other _ hd, State.modCtx_ctx_other _ _ hd]
  rfl

theorem State.closePartial_failStop {s : State} {c : CtxNo} (h : (s.ctx c).failStop = true) (n : Nat) :
    ((s.closePartial n c).ctx c).failStop = true := by
  obtain hp | ⟨w, hp⟩ := s.closePartial_cases n c <;> rw [hp]
  · exact h
  · refine State.endWork_failStop ?_ _ _ _
    rw [State.modCtx_ctx_same]
    exact h

/-- The source of a swarm that closes: to stop, unless it has, and without its unmet waits. -/
def Ctx.toStop (x : Ctx) : Ctx :=
  { x with failStop := x.state != .stopped, works := x.works.filter fun w => !(w.kind == .wait && !w.lastRead) }

/-- The close is noted, the verb waits, and the source is to stop. -/
def State.closeNoted (s : State) (o : Origin) (n : Nat) : State :=
  ((s.setSwarm n { s.swarm n with closing := some o }).verbDrains o).modCtx (s.swarm n).src Ctx.toStop

theorem State.closeNoted_ctx_same (s : State) (o : Origin) (n : Nat) :
    (s.closeNoted o n).ctx (s.swarm n).src = (s.ctx (s.swarm n).src).toStop := State.modCtx_ctx_same _ _ _

theorem State.closeNoted_ctx_other (s : State) (o : Origin) (n : Nat) {d : CtxNo} (hd : d ≠ (s.swarm n).src) :
    (s.closeNoted o n).ctx d = s.ctx d := State.modCtx_ctx_other _ _ hd

theorem State.closeNoted_verb {s : State} {o : Origin} {v : VerbProg} (h : s.verb o = some v) (n : Nat) :
    (s.closeNoted o n).verb o = some { v with stage := .draining } :=
  State.modVerb_verb (s := s.setSwarm n { s.swarm n with closing := some o }) h fun _ => rfl

theorem State.closeNoted_swarm_same (s : State) (o : Origin) (n : Nat) :
    (s.closeNoted o n).swarm n = { s.swarm n with closing := some o } :=
  State.setSwarm_swarm_same s n { s.swarm n with closing := some o }

theorem State.closeNoted_swarm_other (s : State) (o : Origin) {n m : Nat} (hm : m ≠ n) : (s.closeNoted o n).swarm m = s.swarm m :=
  State.setSwarm_swarm_other s { s.swarm n with closing := some o } hm

/-! ## swarm.close and its end (R202) -/

theorem exec_swarmClose_of_closed {o : Origin} {v : VerbProg} {s : State} (h : Turn s o 0x0504 v)
    (hclosed : (s.swarm v.swarmNo).isOpen = false) : exec (.swarmClose o) s = .next (s.finish v kNoObject 16 []) := by
  refine next_runVerb_of_turn h ?_
  simp [hclosed, h.verbDone_eq]

/-- The state in which the source of a closing swarm stops once nothing of it is in progress. -/
def State.closeStarted (s : State) (o : Origin) (n : Nat) : State :=
  ((s.closeNoted o n).closePartial n (s.swarm n).src).stopIfDone (s.swarm n).src

theorem exec_swarmClose_of_open {o : Origin} {v : VerbProg} {s : State} (h : Turn s o 0x0504 v)
    (hopen : (s.swarm v.swarmNo).isOpen = true) (hact : s.mayAct o (s.kset (s.swarm v.swarmNo).kset).tenant = true) :
    exec (.swarmClose o) s = .next (s.closeStarted o v.swarmNo) := by
  refine next_runVerb_of_turn h ?_
  dsimp only
  rw [if_neg (by simp [hopen]), if_neg (by simp [hact])]
  rfl

theorem State.closeStarted_changes (s : State) (o : Origin) (n : Nat) :
    OnlyChanges [.ctxs, .frames, .fabric, .nextId, .chans, .tally, .readyQ] (s.closeNoted o n) (s.closeStarted o n) :=
  ((State.closePartial_changes _ n _).mono (by decide)).step (State.stopIfDone_changes _ _) (by decide)

theorem State.closeStarted_ctx_other (s : State) (o : Origin) (n : Nat) {d : CtxNo} (hd : d ≠ (s.swarm n).src) :
    (s.closeStarted o n).ctx d = s.ctx d := by
  rw [State.closeStarted, State.stopIfDone_ctx_other _ hd, State.closePartial_ctx_other _ _ hd, State.closeNoted_ctx_other _ _ _ hd]

theorem State.closeStarted_works {s : State} {n : Nat} (h : (s.ctx (s.swarm n).src).part = false) (o : Origin) :
    ((s.closeStarted o n).ctx (s.swarm n).src).works = (s.ctx (s.swarm n).src).toStop.works := by
  rw [State.closeStarted, State.stopIfDone_works, State.closePartial_of_not_part (by rw [State.closeNoted_ctx_same]; exact h),
    State.closeNoted_ctx_same]

/-- The source has stopped, or is to stop. -/
theorem State.closeStarted_stops (s : State) (o : Origin) (n : Nat) :
    ((s.closeStarted o n).ctx (s.swarm n).src).state = .stopped ∨ ((s.closeStarted o n).ctx (s.swarm n).src).failStop = true ∨
      (s.ctx (s.swarm n).src).state = .stopped := by
  by_cases hst : (s.ctx (s.swarm n).src).state = .stopped
  · exact .inr (.inr hst)
  · have hnoted : ((s.closeNoted o n).ctx (s.swarm n).src).failStop = true := by
      rw [State.closeNoted_ctx_same]
      exact bne_iff_ne.mpr hst
    obtain h | h := State.stopIfDone_stops (State.closePartial_failStop hnoted n)
    · exact .inl h
    · exact .inr (.inl h)

/-- Whichever way a draining verb ends, it is in progress no longer (R378). -/
theorem State.verbEnd_verb {s : State} {o : Origin} {v : VerbProg} {code : Nat} (h : s.verb o = some v) (hcode : reqVerb v.req = code)
    (hst : v.stage = .draining) (status detail : Nat) (res : Bytes) : (s.verbEnd o code status detail res).verb o = none := by
  simp only [State.verbEnd, h, hcode, hst]
  split
  · contradiction
  · split <;> exact State.finish_verb (State.origin_of_verb h) _ _ _ _

/-- A quiet swarm that closes returns to its reset values but for its pace, and its polynomials leave the cores. -/
def State.closeFinished (s : State) (n : Nat) : State :=
  { s.setSwarm n { pace := (s.swarm n).pace } with expand := s.expand.filter fun e => e.2.sw ≠ n }

theorem exec_swarmCloseFinish {sw : Fin 4} {o : Origin} {s : State} (h : (s.swarm sw.val).closing = some o) :
    exec (.swarmCloseFinish sw) s =
      .next (if s.swarmQuiet sw.val then (s.closeFinished sw.val).verbEnd o 0x0504 kOK 0 else s) := by
  change execSwarmCloseFinish sw s = _
  cases hq : s.swarmQuiet sw.val <;> simp [execSwarmCloseFinish, h, hq, State.closeFinished]

/-! ## An ejection (R199, R200) -/

section
variable {w : Nat} (b : BitVec w) {i j : Nat} (hj : j < w)
include hj

theorem getLsbD_setBit : (setBit b i).getLsbD j = true ↔ b.getLsbD j = true ∨ i = j := by
  simp only [setBit, BitVec.getLsbD_or, BitVec.getLsbD_ofNat, hj, decide_true, Bool.true_and, Nat.testBit_two_pow,
    Bool.or_eq_true, decide_eq_true_eq]

theorem getLsbD_clearBit_same : (clearBit b j).getLsbD j = false := by
  simp only [clearBit, BitVec.getLsbD_and, BitVec.getLsbD_not, BitVec.getLsbD_ofNat, hj, decide_true, Bool.true_and,
    Nat.testBit_two_pow_self, Bool.not_true, Bool.and_false]

end

/-- A swarm once a member has been ejected. -/
def Swarm.eject (x : Swarm) (p : Nat) : Swarm :=
  let y := { x with ejected := setBit x.ejected p, timers := clearBit x.timers p, ejects := satAdd x.ejects 1 }
  { y.settle with held := y.held && decide (y.win ≤ y.issued - y.floor) }

theorem State.eject_swarm_same (s : State) (n p cause : Nat) : (s.eject n p cause).swarm n = (s.swarm n).eject p := by
  simp only [State.eject, State.raiseWith_swarm, State.modCtx_swarm, State.setSwarm_swarm_same]
  rfl

theorem State.eject_swarm_other (s : State) {n m : Nat} (hm : m ≠ n) (p cause : Nat) :
    (s.eject n p cause).swarm m = s.swarm m := by
  simp only [State.eject, State.raiseWith_swarm, State.modCtx_swarm, State.setSwarm_swarm_other _ _ hm]

theorem Swarm.eject_held (x : Swarm) (p : Nat) :
    (x.eject p).held = true ↔ x.held = true ∧ (x.eject p).win ≤ (x.eject p).issued - (x.eject p).floor := by
  rw [← decide_eq_true_iff (p := (x.eject p).win ≤ _), ← Bool.and_eq_true]
  rfl

/-- The regions keep what some remaining live member still has to take. -/
theorem Swarm.eject_region {x : Swarm} {p : Nat} {e : Nat × Bytes} (h : e ∈ (x.eject p).region) :
    e ∈ x.region ∧ (x.eject p).floor ≤ e.1 := by
  obtain ⟨hmem, hfloor⟩ := List.mem_filter.mp h
  exact ⟨hmem, of_decide_eq_true hfloor⟩

theorem exec_swarmEject {sw : Fin 4} {p : Fin 256} {s : State} (hopen : (s.swarm sw.val).isOpen = true)
    (ht : (s.swarm sw.val).timers.getLsbD p.val = true) : exec (.swarmEject sw p) s = .next (s.eject sw.val p.val 0) := by
  change execSwarmEject sw p s = _
  rw [execSwarmEject, hopen, ht]
  rfl

/-! ## A run of ejections (R202) -/

/-- The members listed are ejected, one after another. -/
def State.ejectAll (s : State) (n cause : Nat) (l : List Nat) : State := l.foldl (fun t p => t.eject n p cause) s

theorem State.ejectAll_ejected {p : Nat} (hp : p < 256) (s : State) (n cause : Nat) (l : List Nat) :
    ((s.ejectAll n cause l).swarm n).ejected.getLsbD p = true ↔ (s.swarm n).ejected.getLsbD p = true ∨ p ∈ l := by
  induction l generalizing s with
  | nil => simp [State.ejectAll]
  | cons q l ih =>
    have hq : ((s.eject n q cause).swarm n).ejected.getLsbD p = true ↔ (s.swarm n).ejected.getLsbD p = true ∨ q = p := by
      rw [State.eject_swarm_same]
      exact getLsbD_setBit _ hp
    refine (ih (s.eject n q cause)).trans ?_
    rw [hq, or_assoc, List.mem_cons, @eq_comm _ p q]

theorem State.ejectAll_swarm_other (s : State) {n m : Nat} (hm : m ≠ n) (cause : Nat) (l : List Nat) :
    (s.ejectAll n cause l).swarm m = s.swarm m := by
  induction l generalizing s with
  | nil => rfl
  | cons q l ih => exact (ih (s.eject n q cause)).trans (s.eject_swarm_other hm q cause)

theorem exec_swarmCloseEjectTimeout {sw : Fin 4} {o : Origin} {s : State} (h : (s.swarm sw.val).closing = some o) :
    exec (.swarmCloseEjectTimeout sw) s =
      .next (s.ejectAll sw.val 1 ((s.swarm sw.val).live.filter (s.behind sw.val))) := by
  change execSwarmCloseEjectTimeout sw s = _
  simp [execSwarmCloseEjectTimeout, h, State.ejectAll]

/-! ## The statement -/

theorem next_changes {c : Instr} {s t : State} (h : exec c s = .next t) : OnlyChanges (mayTouch c) s t := by
  obtain ⟨u, hexec, hch⟩ := exec_changes c s
  cases hexec.symm.trans h
  exact hch

/-- Settles O17: a close is `State.closeStarted`, its end `State.closeFinished`, and each ejection `Swarm.eject`. -/
theorem swarmMembersAreEjectedAndSwarmsClosed : Obligations.SwarmMembersAreEjectedAndSwarmsClosed := by
  refine ⟨⟨fun o v s h => ⟨exec_swarmClose_of_closed h, fun hopen hact => ?_⟩,
    fun sw o s hclosing => ⟨fun hq => ?_, fun hq => ?_⟩⟩, fun sw p s hopen ht => ?_, fun sw o s hclosing => ?_⟩
  · have hexec := exec_swarmClose_of_open h hopen hact
    have hch := s.closeStarted_changes o v.swarmNo
    refine ⟨_, hexec, ?_, fun m hm => ?_, fun d hd => s.closeStarted_ctx_other o _ hd,
      fun hpart => State.closeStarted_works hpart o, s.closeStarted_stops o _, ?_, next_changes hexec⟩
    · rw [hch.swarm_eq (by decide), State.closeNoted_swarm_same]
    · rw [hch.swarm_eq (by decide), State.closeNoted_swarm_other _ _ hm]
    · rw [hch.verb_eq (by decide), State.closeNoted_verb h.verb_eq]
  · rw [exec_swarmCloseFinish hclosing, hq, if_neg Bool.false_ne_true]
  · have hend := State.verbEnd_changes (s.closeFinished sw.val) o 0x0504 kOK 0 []
    refine ⟨_, (exec_swarmCloseFinish hclosing).trans (by rw [if_pos hq]), ?_, fun m hm => ?_, hend .expand (by decide),
      fun v hv hcode hst => State.verbEnd_verb (s := s.closeFinished sw.val) hv hcode hst _ _ _⟩
    · rw [hend.swarm_eq (by decide)]
      exact State.setSwarm_swarm_same _ _ _
    · rw [hend.swarm_eq (by decide)]
      exact State.setSwarm_swarm_other _ _ hm
  · have hexec := exec_swarmEject hopen ht
    refine ⟨_, hexec, ?_⟩
    rw [State.eject_swarm_same]
    exact ⟨rfl, getLsbD_clearBit_same _ p.isLt, satAdd_toNat _ 1, rfl, Swarm.eject_held _ _, fun e he => Swarm.eject_region he,
      fun m hm => s.eject_swarm_other hm _ _, (next_changes hexec).mono (by simp [mayTouch])⟩
  · have hexec := exec_swarmCloseEjectTimeout hclosing
    refine ⟨_, hexec, fun p hp => ?_, fun m hm => s.ejectAll_swarm_other hm _ _, (next_changes hexec).mono (by simp [mayTouch])⟩
    rw [State.ejectAll_ejected hp, List.mem_filter]

end Sys2Proof.Machine

/-! # Proofs: a feed, one step at a time (R190 to R193, R202)

A feed's step is the first of its possible ones. The lemmas say which feed a channel runs, when a possible step is not taken, and
what the start of a row, its end and the end under a close each leave. -/
namespace Sys2Proof.Machine

/-! ## Which feed a channel runs (R187, R190) -/

theorem findSome?_of_unique {α β : Type} {f : α → Option β} {a : α} {l : List α} (ha : a ∈ l) (h : ∀ b ∈ l, b ≠ a → f b = none) :
    l.findSome? f = f a := by
  induction l with
  | nil => cases ha
  | cons b l ih =>
    by_cases hba : b = a
    · subst hba
      cases hf : f b with
      | some y => rw [List.findSome?_cons, hf]
      | none =>
        rw [List.findSome?_cons, hf, List.findSome?_eq_none_iff]
        intro d hd
        by_cases hdb : d = b
        · rw [hdb, hf]
        · exact h d (List.mem_cons_of_mem b hd) hdb
    · rw [List.findSome?_cons, h b List.mem_cons_self hba]
      exact ih ((List.mem_cons.mp ha).resolve_left (Ne.symm hba)) fun d hd => h d (List.mem_cons_of_mem b hd)

/-- The feed that a step names: a channel whose context is the source of swarm `n` alone runs that swarm's feed in progress. -/
theorem exec_feed {ch : Fin 1024} {c : CtxNo} {n : Fin 4} {w : Work} {s t : State} (hch : (s.chan ch.val).ctx = some c)
    (hmov : s.moving c (chanFrame ch.val) = true) (hopen : (s.swarm n.val).isOpen = true) (hsrc : (s.swarm n.val).src = c)
    (hothers : ∀ m < 4, m ≠ n.val → (s.swarm m).isOpen = false ∨ (s.swarm m).src ≠ c) (hw : s.feedWork n.val = some w)
    (hstep : s.feedStep n.val w = some t) : exec (.feed ch) s = .next t := by
  have hfind : (List.range 4).findSome? (fun m => if (s.swarm m).isOpen && (s.swarm m).src == c then
      (s.feedWork m).bind (s.feedStep m) else none) = some t := by
    rw [findSome?_of_unique (List.mem_range.mpr n.isLt)]
    · simp [hopen, hsrc, hw, hstep]
    · intro m hm hne
      obtain h | h := hothers m (List.mem_range.mp hm) hne <;> simp [h]
  change execFeed ch s = _
  simp only [execFeed, hch, hmov, hfind]
  rfl

/-! ## Which step it is -/

theorem State.feedTakes_of_feeder {s : State} {n : Nat} {w : Work} (h : (s.swarm n).feeder = w.id) : s.feedTakes n w = none := by
  simp [State.feedTakes, h]

theorem State.feedTrim_of_not_asked {s : State} {n : Nat} {w : Work} (h : w.asked = false) : s.feedTrim n w = none := by
  simp [State.feedTrim, h]

theorem State.feedRowEnd_of_not_asked {s : State} {n : Nat} {w : Work} (h : w.asked = false) : s.feedRowEnd n w = none := by
  simp [State.feedRowEnd, h]

theorem State.feedStep_of_closing {s : State} {n : Nat} {w : Work} (hclosing : (s.swarm n).closing.isSome = true)
    (hask : w.asked = false) : s.feedStep n w = some (s.endWork (s.swarm n).src w.id 0x0602 n) := by
  simp [State.feedStep, hclosing, hask]

/-- No close ends the feed at once, and no read or seed of it is at hand. -/
theorem State.feedStep_of_no_reads {s : State} {n : Nat} {w : Work} (hgoes : ((s.swarm n).closing.isSome && !w.asked) = false)
    (hfeeder : (s.swarm n).feeder = w.id) (hread : s.headRead (s.swarm n).src w = none) (hseed : s.takeSeed n w = none) :
    s.feedStep n w = (s.feedTrim n w <|> s.feedRowEnd n w <|> s.feedRowStart n w <|> s.askSeed n w) := by
  simp [State.feedStep, hgoes, State.feedTakes_of_feeder hfeeder, hread, hseed]

/-! ## A row starts and ends (R192, R193) -/

/-- The reads of a row's stored polynomials, in order (R177, R192). -/
def KeySet.rowReads (k : KeySet) (r : Nat) : List ReadReq :=
  rangeReads k.word.space (k.rowAt r + (if k.seeded then 32 else 0)) (k.rowAt r + k.row)

/-- The state in which a row of the feed `w` has started. -/
def State.rowStarted (s : State) (n : Nat) (w : Work) : State :=
  s.modWork (s.swarm n).src w.id fun v =>
    Work.noteIssued { v with asked := true, emitted := 0,
                             reads := (s.kset (s.swarm n).kset).rowReads (w.feedAbs (s.kset (s.swarm n).kset)) }

theorem State.feedRowStart_of_not_asked {s : State} {n : Nat} {w : Work} (hask : w.asked = false)
    (hleave : (s.ctx (s.swarm n).src).leave ≠ .resume) : s.feedRowStart n w = some (s.rowStarted n w) := by
  simp only [State.feedRowStart, hask, beq_false_of_ne hleave]
  rfl

/-- The state in which a row of the feed `w` has been issued whole: its slots, its seed and its masks are given back. -/
def State.rowEnded (s : State) (n : Nat) (w : Work) : State :=
  let x := s.swarm n
  let k := s.kset x.kset
  ((s.freeSlotsOf w.frame x.src w.id fun q => q.what == .data).setSwarm n
    { x with seeds := x.seeds.erase (w.feedAbs k),
             masks := x.masks.filter fun e => decide ((w.feedAbs k + 1) * k.masks.toNat ≤ e.1) }).modWork x.src w.id
    fun v => { v with unit := v.unit + 1, asked := false, emitted := 0 }

theorem State.feedRowEnd_of_issued {s : State} {n : Nat} {w : Work} (hask : w.asked = true) (hreads : w.reads = [])
    (hout : w.readsOut = 0) (hall : (s.kset (s.swarm n).kset).wide ≤ w.emitted * 64) :
    s.feedRowEnd n w = some (if (s.swarm n).closing.isSome then (s.rowEnded n w).endWork (s.swarm n).src w.id 0x0602 n
      else s.rowEnded n w) := by
  simp [State.feedRowEnd, State.rowEnded, hask, hreads, hout, hall]

/-- Settles O19: each clause names the step that the feed makes, and its lemma says what the step leaves. -/
theorem feedGoesRowByRow : Obligations.FeedGoesRowByRow := by
  intro ch c n w s hch hmov hopen hsrc hothers hw hfeeder
  have hexec {t : State} (hstep : s.feedStep n.val w = some t) : exec (.feed ch) s = .next t :=
    exec_feed hch hmov hopen hsrc hothers hw hstep
  subst hsrc
  refine ⟨fun hclosing hask => hexec (State.feedStep_of_closing hclosing hask), fun hread hseed =>
    ⟨fun hclosing hask hleave => hexec ?_, fun hask hreads hout hall htrim => ?_⟩⟩
  · rw [State.feedStep_of_no_reads (by rw [hclosing]; rfl) hfeeder hread hseed, State.feedTrim_of_not_asked hask,
      State.feedRowEnd_of_not_asked hask, State.feedRowStart_of_not_asked hask hleave]
    rfl
  · have hends : s.feedStep n.val w = some (if (s.swarm n.val).closing.isSome then
        (s.rowEnded n.val w).endWork (s.swarm n.val).src w.id 0x0602 n.val else s.rowEnded n.val w) := by
      rw [State.feedStep_of_no_reads (by simp [hask]) hfeeder hread hseed, htrim, State.feedRowEnd_of_issued hask hreads hout hall]
      rfl
    refine ⟨fun hclosing => ?_, fun hclosing => ?_⟩ <;> rw [hexec hends, hclosing] <;> rfl

end Sys2Proof.Machine

/-! # Proofs: the arbiter of a tap (R213, R221 to R224)

The requesters stand in the round's order, so the winner is the argmax of the effective priority over those that are ready, and
the first of equals. -/
namespace Sys2Proof.Machine

/-! ## The arbiter's winner (R222) -/

/-- The effective priority of a requester (R222): base plus age, 15 at most. -/
def Tap.eff (x : Tap) (base : Nat → Nat) (r : Nat) : Nat := min (base r + x.age.get 0 r) 15

/-- The place of a requester in the round that starts after the pointer. -/
def turnAfter (ptr r : Nat) : Nat := (r + 65 - ptr) % 66

theorem rotation_pairwise_turn {ptr : Nat} (h : ptr < 66) :
    (rotation ptr).Pairwise fun q r => turnAfter ptr q < turnAfter ptr r := by
  have hturn {i : Nat} (hi : i < 66) : turnAfter ptr ((ptr + 1 + i) % 66) = i := by
    unfold turnAfter
    omega
  refine List.pairwise_map.mpr (List.pairwise_lt_range.imp_of_mem fun ha hb hab => ?_)
  rwa [hturn (List.mem_range.mp ha), hturn (List.mem_range.mp hb)]

theorem mem_rotation {ptr r : Nat} (hptr : ptr < 66) (hr : r < 66) : r ∈ rotation ptr :=
  List.mem_map.mpr ⟨(r + 65 - ptr) % 66, List.mem_range.mpr (Nat.mod_lt _ (by decide)), by omega⟩

theorem Tap.winner_eq_argmax (x : Tap) (base : Nat → Nat) (ready : List Nat) :
    x.winner base ready = List.argmax (x.eff base) ((rotation x.ptr).filter ready.contains) := by
  rw [Tap.winner, List.argmax]
  congr 1
  funext best r
  cases best <;> rfl

/-- In a list whose elements come in the order of `g`, the argmax comes first among those of its value. -/
theorem argmax_first {g f : Nat → Nat} {l : List Nat} {m q : Nat} (hl : l.Pairwise fun a b => g a < g b)
    (hm : m ∈ l.argmax f) (hq : q ∈ l) : f q < f m ∨ (f q = f m ∧ g m ≤ g q) := by
  obtain hlt | heq := Nat.lt_or_eq_of_le (List.le_of_mem_argmax hq hm)
  · exact .inl hlt
  · refine .inr ⟨heq, ?_⟩
    have hidx : l.idxOf m ≤ l.idxOf q := List.index_of_argmax hm hq heq.ge
    have hml : m ∈ l := List.argmax_mem hm
    obtain hlt | hsame := Nat.lt_or_eq_of_le hidx
    · have := List.pairwise_iff_getElem.mp hl _ _ (List.idxOf_lt_length_iff.mpr hml) (List.idxOf_lt_length_iff.mpr hq) hlt
      rw [List.getElem_idxOf, List.getElem_idxOf] at this
      exact this.le
    · rw [(List.idxOf_inj hml).mp hsame]

/-- The winner among ready requesters is one of the highest effective priority, the first such after the pointer (R222). -/
theorem Tap.winner_spec {x : Tap} {base : Nat → Nat} {ready : List Nat} (hptr : x.ptr < 66) (hready : ready ≠ [])
    (hlt : ∀ q ∈ ready, q < 66) :
    ∃ r ∈ ready, x.winner base ready = some r ∧
      ∀ q ∈ ready, x.eff base q < x.eff base r ∨ (x.eff base q = x.eff base r ∧ turnAfter x.ptr r ≤ turnAfter x.ptr q) := by
  have hmem {q : Nat} : q ∈ (rotation x.ptr).filter ready.contains ↔ q ∈ ready := by
    simpa using fun hq => mem_rotation hptr (hlt q hq)
  cases hw : x.winner base ready with
  | none =>
    rw [Tap.winner_eq_argmax, List.argmax_eq_none] at hw
    obtain ⟨q, hq⟩ := List.exists_mem_of_ne_nil ready hready
    exact absurd (hmem.mpr hq) (hw ▸ List.not_mem_nil)
  | some r =>
    rw [Tap.winner_eq_argmax] at hw
    exact ⟨r, hmem.mp (List.argmax_mem hw), rfl, fun q hq =>
      argmax_first ((rotation_pairwise_turn hptr).filter _) hw (hmem.mpr hq)⟩

/-! ## The ages after a decision (R222) -/

theorem get_foldl_ages {best q : Nat} (hne : q ≠ best) {l : List Nat} (hnd : l.Nodup) (a : Store Nat) :
    (l.foldl (fun a r => if r = best then a else a.set 0 r (min (a.get 0 r + 1) 15)) a).get 0 q =
      if q ∈ l then min (a.get 0 q + 1) 15 else a.get 0 q := by
  induction l generalizing a with
  | nil => rfl
  | cons r l ih =>
    obtain ⟨hr, hl⟩ := List.nodup_cons.mp hnd
    rw [List.foldl_cons, ih hl]
    by_cases hq : q = r
    · subst hq
      simp [hr, hne]
    · have hget : (if r = best then a else a.set 0 r (min (a.get 0 r + 1) 15)).get 0 q = a.get 0 q := by
        split
        · rfl
        · exact Store.get_set_other _ _ _ hq
      simp [hget, hq]

theorem Tap.decided_age_winner (x : Tap) (ready : List Nat) (best : Nat) : (x.decided ready best).age.get 0 best = 0 := by
  rw [Tap.decided, Store.get_set_same]

/-- The other ready requesters age by 1, up to 15. -/
theorem Tap.decided_age_other {x : Tap} {ready : List Nat} {best q : Nat} (hnd : ready.Nodup) (hq : q ∈ ready) (hne : q ≠ best) :
    (x.decided ready best).age.get 0 q = min (x.age.get 0 q + 1) 15 := by
  rw [Tap.decided, Store.get_set_other _ _ _ hne, get_foldl_ages hne hnd, if_pos hq]

/-! ## The command (R221 to R223) -/

/-- The requesters of tap `t`'s frame that are ready there (R221). -/
def State.readyOn (s : State) (t : Nat) : List Nat := (List.range 66).filter fun r => (s.tryIssue t r).isSome

theorem exec_tapArbitration {tap : Fin 64} {s v : State} {r : Nat}
    (hwin : ((s.demand (tap.val / 4)).tap tap.val).winner ((s.demand (tap.val / 4)).basePrio (tap.val / 4))
      ((s.demand (tap.val / 4)).readyOn tap.val) = some r)
    (hissue : (s.demand (tap.val / 4)).tryIssue tap.val r = some v) :
    exec (.tapArbitration tap) s =
      .next (v.setTap tap.val ((v.tap tap.val).decided ((s.demand (tap.val / 4)).readyOn tap.val) r)) := by
  change execTapArbitration tap s = _
  rw [State.readyOn] at hwin
  simp only [execTapArbitration, hwin, hissue]
  rfl

/-- Settles O38: the winner is the first of the round with the highest effective priority, and the decision follows from it. -/
theorem arbiterPicksTheHighestPriority : Obligations.ArbiterPicksTheHighestPriority := by
  intro tap s t u ready eff turn hready hptr
  have hrange (q : Nat) (hq : q ∈ ready) : q < 66 := List.mem_range.mp (List.mem_filter.mp hq).1
  have hnodup : ready.Nodup := List.nodup_range.filter _
  obtain ⟨r, hr, hwin, hbest⟩ := Tap.winner_spec (base := u.basePrio (t / 4)) hptr hready hrange
  obtain ⟨v, hv⟩ := Option.isSome_iff_exists.mp (List.mem_filter.mp hr).2
  exact ⟨r, v, hr, hv, hbest, exec_tapArbitration hwin hv, rfl, rfl, Tap.decided_age_winner _ _ _,
    fun q hq hne => Tap.decided_age_other hnodup hq hne⟩

end Sys2Proof.Machine

/-! # Proofs: register accesses (R209, R225, R376, R395, R401, R412, R436, R456, R465 to R467, R473)

What an access of the control port does in each of its cases comes first. What a register reads back is then arithmetic: the
fields that a write splits its word into, put together again, are the bits of the word under the register's mask. -/
namespace Sys2Proof.Machine

/-! ## An access of the control port (R436, R456, R466, R467) -/

/-- An access that fits a register writes it. -/
theorem exec_registerWrite {off : BitVec 24} {strobe : BitVec 8} {w : Word} {s : State} (hawake : s.cpAwake = true)
    (hphase : s.keeper.phase ≠ .off) (hok : s.accessOk (slotOf off) strobe = true)
    (hbox : mailboxAt (accessOff (slotOf off) strobe) = none) :
    exec (.registerWrite off strobe w) s = .next (s.writeReg (accessOff (slotOf off) strobe) (accessData strobe w)) := by
  change Host.Outcome.next (s.portWrite (slotOf off) strobe w) = _
  simp [State.portWrite, hphase, hok, hawake, hbox]

/-- A refused access: nothing is written. -/
theorem exec_registerWrite_of_refused {off : BitVec 24} {strobe : BitVec 8} {w : Word} {s : State}
    (hphase : s.keeper.phase ≠ .off) (hok : s.accessOk (slotOf off) strobe = false) (hknock : isKnock (slotOf off) = false) :
    exec (.registerWrite off strobe w) s = .next (s.refuseAccess true (slotOf off) strobe) := by
  change Host.Outcome.next (s.portWrite (slotOf off) strobe w) = _
  simp [State.portWrite, hphase, hok, hknock]

/-- Asleep, only the always-on registers take a write (R436). -/
theorem exec_registerWrite_of_asleep {off : BitVec 24} {strobe : BitVec 8} {w : Word} {s : State} (hasleep : s.cpAwake = false)
    (hslot : slotOf off < 0x40000) (hok : s.accessOk (slotOf off) strobe = true) :
    exec (.registerWrite off strobe w) s = .next s := by
  change Host.Outcome.next (s.portWrite (slotOf off) strobe w) = _
  simp [State.portWrite, hok, hasleep, hslot]

theorem exec_controlPortRefused_read {off : BitVec 24} {strobe : BitVec 8} {init : BitVec 6} {s : State}
    (hphase : s.keeper.phase ≠ .off) (hok : s.accessOk (slotOf off) strobe = false) :
    exec (.controlPortRefused false off strobe init) s = .next (s.refuseAccess false (slotOf off) strobe) := by
  change execControlPortRefused false off strobe init s = _
  simp [execControlPortRefused, hphase, hok]

theorem State.cpFault_stat (s : State) (width off : Nat) : (s.cpFault width off).faults.stat.getLsbD 61 = true :=
  State.raiseWith_stat_self (c := { src := 61, sub := width, addr := off, access := 13 }) (show 61 < 64 by decide)

theorem State.accessOk_of_readReg {s : State} {slot n v : Nat} {strobe : BitVec 8} (hn : strobeWidth strobe = some n)
    (hreg : s.readReg (accessOff slot strobe) = some (n, v)) : s.accessOk slot strobe = true := by
  simp [State.accessOk, hn, hreg]

/-! ## Words under a mask -/

/-- A word under a mask whose lowest field has `j` bits and whose further fields start at bit `k`. -/
theorem and_field (j k : Nat) (hjk : j ≤ k) (x m : Nat) :
    x &&& (2 ^ k * m + (2 ^ j - 1)) = 2 ^ k * (x / 2 ^ k &&& m) + x % 2 ^ j := by
  have hpos : 0 < 2 ^ j := Nat.two_pow_pos j
  have hlt : 2 ^ j - 1 < 2 ^ k := by
    have := Nat.pow_le_pow_right (n := 2) (by decide) hjk
    omega
  rw [← Nat.div_add_mod (x &&& (2 ^ k * m + (2 ^ j - 1))) (2 ^ k), Nat.and_div_two_pow, Nat.and_mod_two_pow,
    Nat.mul_add_div (Nat.two_pow_pos k), Nat.div_eq_of_lt hlt, Nat.add_zero, Nat.mul_add_mod, Nat.mod_eq_of_lt hlt,
    Nat.and_two_pow_sub_one_eq_mod, Nat.mod_mod_of_dvd _ (Nat.pow_dvd_pow 2 hjk)]

/-- A word under a mask of two fields: `j` bits from bit 0 on and `l` bits from bit `k` on. -/
theorem and_two_fields (j k l : Nat) (hjk : j ≤ k) (x : Nat) :
    x &&& (2 ^ k * (2 ^ l - 1) + (2 ^ j - 1)) = x % 2 ^ j + 2 ^ k * (x / 2 ^ k % 2 ^ l) := by
  rw [and_field j k hjk, Nat.and_two_pow_sub_one_eq_mod, Nat.add_comm]

/-- FLOW_CTRL's bits (R209). -/
theorem and_flowMask (x : Nat) :
    x &&& 0x00070FFF03FF3FFF = x % 2 ^ 14 + 2 ^ 16 * (x / 2 ^ 16 % 2 ^ 10) + 2 ^ 32 * (x / 2 ^ 32 % 2 ^ 12) +
      2 ^ 48 * (x / 2 ^ 48 % 2 ^ 3) := by
  have hcap : x &&& 0x00070FFF03FF3FFF = 2 ^ 16 * (x / 2 ^ 16 &&& 0x00070FFF03FF) + x % 2 ^ 14 :=
    and_field 14 16 (by decide) x 0x00070FFF03FF
  have hres : x / 2 ^ 16 &&& 0x00070FFF03FF = 2 ^ 16 * (x / 2 ^ 16 / 2 ^ 16 &&& 0x00070FFF) + x / 2 ^ 16 % 2 ^ 10 :=
    and_field 10 16 (by decide) _ 0x00070FFF
  have hhigh : x / 2 ^ 16 / 2 ^ 16 &&& 0x00070FFF =
      x / 2 ^ 16 / 2 ^ 16 % 2 ^ 12 + 2 ^ 16 * (x / 2 ^ 16 / 2 ^ 16 / 2 ^ 16 % 2 ^ 3) := and_two_fields 12 16 3 (by decide) _
  omega

/-! ## What a written register reads (R209, R225, R395, R401, R406) -/

theorem State.pwrCtrlWrite_reads (s : State) (w : Word) :
    (s.pwrCtrlWrite w).power.napUs.toNat + 2 ^ 16 * (s.pwrCtrlWrite w).power.offMs.toNat =
      (w &&& BitVec.ofNat 64 0xFFFFFFFF).toNat := by
  have hmask : w.toNat &&& 0xFFFFFFFF = w.toNat % 2 ^ 32 := Nat.and_two_pow_sub_one_eq_mod _ 32
  simp [State.pwrCtrlWrite, Nat.shiftRight_eq_div_pow]
  omega

theorem State.flowWrite_reads (s : State) (w : Word) :
    (s.flowWrite w).rdFlowCtrl = (w &&& BitVec.ofNat 64 0x00070FFF03FF3FFF).toNat := by
  have hmask := and_flowMask w.toNat
  simp [State.flowWrite, State.rdFlowCtrl, Nat.shiftRight_eq_div_pow]
  omega

theorem State.telemWrite_fields (s : State) (w : Word) : (s.telemWrite w).telem.en = w.getLsbD 0 ∧
    (s.telemWrite w).telem.log2 = (w >>> 1).setWidth 4 ∧ (s.telemWrite w).telem.base = (w >>> 8).setWidth 48 := by
  have hlevels (t : State) : t.noteLevels.telem = { t.telem with levels := t.noteLevels.telem.levels } :=
    List.foldlRecOn (List.range 8) _ (motive := fun (u : State) => u.telem = { t.telem with levels := u.telem.levels }) rfl
      fun u hu r _ => by rw [hu]
  rw [State.telemWrite]
  split
  · exact ⟨rfl, rfl, rfl⟩
  · rw [hlevels]
    exact ⟨rfl, rfl, rfl⟩

theorem State.telemWrite_reads (s : State) (w : Word) :
    (s.telemWrite w).rdTelemCtrl = (w &&& BitVec.ofNat 64 0x00FFFFFFFFFFFF1F).toNat := by
  have hmask : w.toNat &&& 0x00FFFFFFFFFFFF1F = w.toNat % 2 ^ 5 + 2 ^ 8 * (w.toNat / 2 ^ 8 % 2 ^ 48) :=
    and_two_fields 5 8 48 (by decide) _
  have hen : b2n (w.getLsbD 0) = w.toNat % 2 := by
    rw [b2n, BitVec.getLsbD, Nat.testBit_zero]
    split <;> simp_all
  obtain ⟨he, hl, hb⟩ := s.telemWrite_fields w
  rw [State.rdTelemCtrl, he, hl, hb, hen]
  simp [Nat.shiftRight_eq_div_pow]
  omega

theorem State.smokerWrite_reads (s : State) (w : BitVec 32) :
    (s.smokerWrite w).rdSmokerCtrl = (w &&& BitVec.ofNat 32 0xFFFFFF07).toNat := by
  have hmask : w.toNat &&& 0xFFFFFF07 = w.toNat % 2 ^ 3 + 2 ^ 8 * (w.toNat / 2 ^ 8 % 2 ^ 24) :=
    and_two_fields 3 8 24 (by decide) _
  have hpower : ∃ rs, (s.smokerWrite w).power = { s.power with
      smCap := w.setWidth 3, smWarn := (w >>> 8).setWidth 8, smDeep := (w >>> 16).setWidth 8, smRelease := (w >>> 24).setWidth 8,
      regions := rs } := by
    rw [State.smokerWrite, State.noteLevels_changes _ .power (by decide)]
    refine List.foldlRecOn (List.range 8) _ (motive := fun (u : State) => ∃ rs, u.power = { s.power with
      smCap := w.setWidth 3, smWarn := (w >>> 8).setWidth 8, smDeep := (w >>> 16).setWidth 8, smRelease := (w >>> 24).setWidth 8,
      regions := rs }) ⟨_, rfl⟩ fun u ⟨rs, hu⟩ r _ => ?_
    dsimp only
    split
    · exact ⟨_, by rw [State.setRegion, hu]⟩
    · exact ⟨rs, hu⟩
  obtain ⟨rs, hrs⟩ := hpower
  rw [State.rdSmokerCtrl, hrs]
  simp [Nat.shiftRight_eq_div_pow]
  omega

theorem State.swarmCtrlWrite_reads (s : State) (w : BitVec 32) :
    (s.swarmCtrlWrite w).rdSwarmCtrl = (w &&& BitVec.ofNat 32 0xFFFF0003).toNat := by
  have hmask : w.toNat &&& 0xFFFF0003 = w.toNat % 2 ^ 2 + 2 ^ 16 * (w.toNat / 2 ^ 16 % 2 ^ 16) :=
    and_two_fields 2 16 16 (by decide) _
  simp [State.swarmCtrlWrite, State.rdSwarmCtrl, Nat.shiftRight_eq_div_pow]
  omega

theorem State.tallyCtrlWrite_reads (s : State) (w : BitVec 32) :
    (s.tallyCtrlWrite w).rdTallyCtrl = (w &&& BitVec.ofNat 32 0xFFFFFFFF).toNat := by
  have hmask : w.toNat &&& 0xFFFFFFFF = w.toNat % 2 ^ 32 := Nat.and_two_pow_sub_one_eq_mod _ 32
  simp [State.tallyCtrlWrite, State.modTally, State.rdTallyCtrl, Nat.shiftRight_eq_div_pow]
  omega

/-- ARB_SEL's value (R225). -/
theorem State.arbSelWrite_reads (s : State) (w : Word) :
    (s.arbSelWrite (w.setWidth 32)).regs.arbFrame.toNat + 16 * (s.arbSelWrite (w.setWidth 32)).regs.arbReq.toNat =
      (w &&& BitVec.ofNat 64 0x7FF).toNat := by
  have hmask : w.toNat &&& 0x7FF = w.toNat % 2 ^ 11 := Nat.and_two_pow_sub_one_eq_mod _ 11
  simp [State.arbSelWrite, Nat.shiftRight_eq_div_pow]
  omega

/-- A word's low `k` bits are the word under their mask. -/
theorem toNat_setWidth_eq_and {k : Nat} (hk : k ≤ 64) (w : Word) :
    (w.setWidth k).toNat = (w &&& BitVec.ofNat 64 (2 ^ k - 1)).toNat := by
  have hlt : 2 ^ k - 1 < 2 ^ 64 := by
    have := Nat.pow_le_pow_right (n := 2) (by decide) hk
    have := Nat.two_pow_pos k
    omega
  rw [BitVec.toNat_setWidth, BitVec.toNat_and, BitVec.toNat_ofNat, Nat.mod_eq_of_lt hlt, Nat.and_two_pow_sub_one_eq_mod]

/-- A 32-bit access carries the low half of its word, and a field of it is the same field of the word. -/
theorem setWidth_accessData_low {k : Nat} (hk : k ≤ 32) (w : Word) : (accessData 0x0F w).setWidth k = w.setWidth k := by
  change (w &&& 0xFFFFFFFF).setWidth k = _
  apply BitVec.eq_of_toNat_eq
  rw [BitVec.toNat_setWidth, BitVec.toNat_and, show w.toNat &&& BitVec.toNat (0xFFFFFFFF : Word) = w.toNat % 2 ^ 32 from
    Nat.and_two_pow_sub_one_eq_mod _ 32, BitVec.toNat_setWidth, Nat.mod_mod_of_dvd _ (Nat.pow_dvd_pow 2 hk)]

/-- The half word that a 32-bit access carries, under a mask that lies in it. -/
theorem accessData_low_and (w : Word) {m : Nat} (hm : m < 2 ^ 32) :
    ((accessData 0x0F w).setWidth 32 &&& BitVec.ofNat 32 m).toNat = (w &&& BitVec.ofNat 64 m).toNat := by
  have hle : w.toNat &&& m ≤ m := Nat.and_le_right
  rw [setWidth_accessData_low le_rfl, BitVec.toNat_and, BitVec.toNat_setWidth, BitVec.toNat_ofNat, ← Nat.and_mod_two_pow,
    BitVec.toNat_and, BitVec.toNat_ofNat, Nat.mod_eq_of_lt (show m < 2 ^ 64 by omega), Nat.mod_eq_of_lt (by omega)]

/-- The registers of 64 bits read back what a write of the whole slot leaves in them. -/
theorem registerWrite_reads_whole {w : Word} {s : State} (hawake : s.cpAwake = true) (hphase : s.keeper.phase ≠ .off)
    {off mask : Nat} (hreg : (off, mask) ∈ [(0x31000, 0xFFFFFFFF), (0x31030, 0x00FFFFFFFFFFFF1F), (0x32000, 0x00070FFF03FF3FFF)]) :
    ∃ t, exec (.registerWrite (BitVec.ofNat 24 off) 0xFF w) s = .next t ∧
      t.readReg off = some (8, (w &&& BitVec.ofNat 64 mask).toNat) ∧ t.faults = s.faults := by
  have hexec := @exec_registerWrite (BitVec.ofNat 24 off) 0xFF w s hawake hphase
  simp only [List.mem_cons, List.not_mem_nil, or_false, Prod.mk.injEq] at hreg
  obtain ⟨rfl, rfl⟩ | ⟨rfl, rfl⟩ | ⟨rfl, rfl⟩ := hreg
  · exact ⟨_, hexec (State.accessOk_of_readReg rfl rfl) rfl, congrArg (fun n => some (8, n)) (s.pwrCtrlWrite_reads w), rfl⟩
  · exact ⟨_, hexec (State.accessOk_of_readReg rfl rfl) rfl, congrArg (fun n => some (8, n)) (s.telemWrite_reads w),
      s.telemWrite_changes w .faults (by decide)⟩
  · exact ⟨_, hexec (State.accessOk_of_readReg rfl rfl) rfl, congrArg (fun n => some (8, n)) (s.flowWrite_reads w), rfl⟩

/-- The registers of 32 bits in the lower half of their slot. -/
theorem registerWrite_reads_low {w : Word} {s : State} (hawake : s.cpAwake = true) (hphase : s.keeper.phase ≠ .off)
    {off mask : Nat} (hreg : (off, mask) ∈ [(0x30008, 0x3F), (0x31020, 0xFFFFFF07), (0x32008, 0xFFFF0003), (0x33000, 0xFFFFFFFF)]) :
    ∃ t, exec (.registerWrite (BitVec.ofNat 24 off) 0x0F w) s = .next t ∧
      t.readReg off = some (4, (w &&& BitVec.ofNat 64 mask).toNat) := by
  have hexec := @exec_registerWrite (BitVec.ofNat 24 off) 0x0F w s hawake hphase
  simp only [List.mem_cons, List.not_mem_nil, or_false, Prod.mk.injEq] at hreg
  obtain ⟨rfl, rfl⟩ | ⟨rfl, rfl⟩ | ⟨rfl, rfl⟩ | ⟨rfl, rfl⟩ := hreg
  · refine ⟨_, hexec (State.accessOk_of_readReg rfl rfl) rfl, congrArg (fun n => some (4, n)) ?_⟩
    exact (congrArg BitVec.toNat (setWidth_accessData_low (k := 6) (by decide) w)).trans (toNat_setWidth_eq_and (by decide) w)
  · exact ⟨_, hexec (State.accessOk_of_readReg rfl rfl) rfl, congrArg (fun n => some (4, n))
      ((s.smokerWrite_reads ((accessData 0x0F w).setWidth 32)).trans (accessData_low_and w (by decide)))⟩
  · exact ⟨_, hexec (State.accessOk_of_readReg rfl rfl) rfl, congrArg (fun n => some (4, n))
      ((s.swarmCtrlWrite_reads ((accessData 0x0F w).setWidth 32)).trans (accessData_low_and w (by decide)))⟩
  · exact ⟨_, hexec (State.accessOk_of_readReg rfl rfl) rfl, congrArg (fun n => some (4, n))
      ((s.tallyCtrlWrite_reads ((accessData 0x0F w).setWidth 32)).trans (accessData_low_and w (by decide)))⟩

/-- The registers of 32 bits in the upper half of their slot. -/
theorem registerWrite_reads_high {w : Word} {s : State} (hawake : s.cpAwake = true) (hphase : s.keeper.phase ≠ .off)
    {off mask : Nat} (hreg : (off, mask) ∈ [(0x31024, 0xFFFF), (0x3200C, 0x7FF)]) :
    ∃ t, exec (.registerWrite (BitVec.ofNat 24 off) 0xF0 w) s = .next t ∧
      t.readReg off = some (4, ((w >>> 32) &&& BitVec.ofNat 64 mask).toNat) ∧ t.faults = s.faults := by
  have hexec := @exec_registerWrite (BitVec.ofNat 24 off) 0xF0 w s hawake hphase
  simp only [List.mem_cons, List.not_mem_nil, or_false, Prod.mk.injEq] at hreg
  obtain ⟨rfl, rfl⟩ | ⟨rfl, rfl⟩ := hreg
  · exact ⟨_, hexec (State.accessOk_of_readReg rfl rfl) rfl,
      congrArg (fun n => some (4, n)) (toNat_setWidth_eq_and (k := 16) (by decide) (w >>> 32)), rfl⟩
  · exact ⟨_, hexec (State.accessOk_of_readReg rfl rfl) rfl, congrArg (fun n => some (4, n)) (s.arbSelWrite_reads (w >>> 32)), rfl⟩

/-! ## Read-only registers (R467) -/

/-- The 64-bit registers that take no write. -/
def readOnlyRegs : List Nat :=
  [0x00000, 0x00008, 0x00010, 0x30018, 0x30020, 0x31008, 0x31010, 0x31018, 0x40000, 0x40020, 0x40028, 0x40030, 0x40038]

theorem State.writeReg_of_readOnly (s : State) (w : Word) : ∀ off ∈ readOnlyRegs, s.writeReg off w = s := by
  simp only [readOnlyRegs, List.forall_mem_cons]
  exact ⟨rfl, rfl, rfl, rfl, rfl, rfl, rfl, rfl, rfl, rfl, rfl, rfl, rfl, nofun⟩

theorem State.accessOk_of_readOnly (s : State) : ∀ off ∈ readOnlyRegs, s.accessOk off 0xFF = true := by
  have hreg {off v : Nat} (h : s.readReg off = some (8, v)) : s.accessOk off 0xFF = true := State.accessOk_of_readReg rfl h
  simp only [readOnlyRegs, List.forall_mem_cons]
  exact ⟨hreg rfl, hreg rfl, hreg rfl, hreg rfl, hreg rfl, hreg rfl, hreg rfl, hreg rfl, hreg rfl, hreg rfl, hreg rfl, hreg rfl,
    hreg rfl, nofun⟩

theorem exec_registerWrite_of_readOnly {w : Word} {s : State} (hawake : s.cpAwake = true) (hphase : s.keeper.phase ≠ .off)
    {off : Nat} (h : off ∈ readOnlyRegs) : exec (.registerWrite (BitVec.ofNat 24 off) 0xFF w) s = .next s := by
  have hslot : slotOf (BitVec.ofNat 24 off) = off ∧ mailboxAt off = none := by
    revert off
    decide
  have hexec := @exec_registerWrite (BitVec.ofNat 24 off) 0xFF w s hawake hphase
  rw [hslot.1] at hexec
  rw [hexec (s.accessOk_of_readOnly off h) hslot.2]
  exact congrArg _ (s.writeReg_of_readOnly w off h)

/-! ## FLT_CFG (R376) -/

/-- A write leaves every other entry alone, whichever the default it is read with. -/
theorem Store.get_set_other_default {α : Type} [DecidableEq α] (d e : α) (m : Store α) {i j : Nat} (v : α) (h : j ≠ i) :
    (m.set d i v).get e j = m.get e j := by
  unfold Store.set
  split
  · exact Store.get_erase_other _ _ h
  · exact Store.get_insert_other _ _ _ h

/-- The bits of FLT_CFG that a written half word carries. -/
def fltCfgBits (w : BitVec 32) : BitVec 9 := w.setWidth 9 &&& 0x1F3

/-- The configuration that source `n` takes from a write (R376). -/
def fltCfgTaken (n : Nat) (w : BitVec 32) : BitVec 9 :=
  if (n = 47 || n = 57) && bits (fltCfgBits w).toNat 1 0 < 2 then fltCfgBits w &&& 0x1F0 ||| 2 else fltCfgBits w

theorem fltCfgTaken_of_allowed {n : Nat} {w : BitVec 32} (h : (n ≠ 47 ∧ n ≠ 57) ∨ 2 ≤ bits (fltCfgBits w).toNat 1 0) :
    fltCfgTaken n w = fltCfgBits w := by
  refine if_neg fun hlow => ?_
  simp only [Bool.and_eq_true, Bool.or_eq_true, decide_eq_true_eq] at hlow
  omega

/-- Sources 47 and 57 are recoverable at least. -/
theorem fltCfgTaken_severity {n : Nat} (h : n = 47 ∨ n = 57) (w : BitVec 32) : 2 ≤ bits (fltCfgTaken n w).toNat 1 0 := by
  have hraised : ∀ v : BitVec 9, 2 ≤ bits (v &&& 0x1F0 ||| 2).toNat 1 0 := by decide
  rw [fltCfgTaken]
  split
  · exact hraised _
  next hlow =>
    simp only [Bool.and_eq_true, Bool.or_eq_true, decide_eq_true_eq] at hlow
    omega

theorem State.fltCfgWrite_eq (s : State) (w : BitVec 32) :
    s.fltCfgWrite w = s.modFaults fun f => { f with
      cfg := f.cfg.set (fltCfgReset s.faults.sel.toNat) s.faults.sel.toNat (fltCfgTaken s.faults.sel.toNat w) } := rfl

theorem State.fltCfgWrite_fltCfg_same (s : State) (w : BitVec 32) :
    (s.fltCfgWrite w).fltCfg s.faults.sel.toNat = fltCfgTaken s.faults.sel.toNat w := by
  rw [State.fltCfgWrite_eq]
  exact Store.get_set_same _ _ _ _

theorem State.fltCfgWrite_fltCfg_other (s : State) (w : BitVec 32) {k : Nat} (h : k ≠ s.faults.sel.toNat) :
    (s.fltCfgWrite w).fltCfg k = s.fltCfg k := by
  rw [State.fltCfgWrite_eq]
  exact Store.get_set_other_default _ _ _ _ h

theorem exec_registerWrite_fltCfg {w : Word} {s : State} (hawake : s.cpAwake = true) (hphase : s.keeper.phase ≠ .off) :
    exec (.registerWrite 0x30008 0xF0 w) s = .next (s.fltCfgWrite ((w >>> 32).setWidth 32)) :=
  exec_registerWrite (off := 0x30008) (strobe := 0xF0) hawake hphase (State.accessOk_of_readReg rfl rfl) rfl

/-! ## Registers that clear on a read, and AF_CLEAR (R225, R401, R412, R473) -/

theorem exec_knockDropRead {s : State} (hawake : s.cpAwake = true) :
    exec .knockDropRead s = .next { s.answerRead s.rdKnockDrop with
      regs := { (s.answerRead s.rdKnockDrop).regs with knockDrop := { s.regs.knockDrop with count := 0 } } } :=
  congrArg Host.Outcome.next (if_neg (by simp [hawake]))

theorem exec_smokerStatRead {s : State} (hawake : s.cpAwake = true) :
    exec .smokerStatRead s = .next { s.answerRead s.rdSmokerStat with power := { s.power with throtUs := 0 } } :=
  congrArg Host.Outcome.next (if_neg (by simp [hawake]))

theorem exec_knockDropRead_of_asleep {s : State} (hasleep : s.cpAwake = false) : exec .knockDropRead s = .next (s.answerRead 0) :=
  congrArg Host.Outcome.next (if_pos (by simp [hasleep]))

theorem exec_smokerStatRead_of_asleep {s : State} (hasleep : s.cpAwake = false) :
    exec .smokerStatRead s = .next (s.answerRead 0) :=
  congrArg Host.Outcome.next (if_pos (by simp [hasleep]))

theorem exec_afClear {w : BitVec 32} {s : State} (hawake : s.cpAwake = true) : exec (.afClear w) s = .next (s.arbClear w) :=
  congrArg Host.Outcome.next (if_pos hawake)

theorem State.arbClear_of_up {s : State} {w : BitVec 32} (hw : w.getLsbD 8 = true)
    (hup : (s.frame s.regs.arbFrame.toNat).state = .run ∨ (s.frame s.regs.arbFrame.toNat).state = .idle) :
    s.arbClear w = s.modFrame s.regs.arbFrame.toNat fun x => { x with stats := x.stats.set {} s.regs.arbReq.toNat {} } := by
  obtain h | h := hup <;> simp [State.arbClear, hw, h]

theorem State.arbClear_of_ignored {s : State} {w : BitVec 32} (h : w.getLsbD 8 = false ∨
    ¬((s.frame s.regs.arbFrame.toNat).state = .run ∨ (s.frame s.regs.arbFrame.toNat).state = .idle)) : s.arbClear w = s := by
  refine if_pos ?_
  obtain h | h := h
  · simp only [h, Bool.not_false, Bool.true_or]
  · cases hst : (s.frame s.regs.arbFrame.toNat).state <;> simp_all

/-! ## The statement -/

/-- Settles O54: each clause is one of the accesses above. -/
theorem registerAccessesAct : Obligations.RegisterAccessesAct := by
  refine ⟨fun w s hawake hphase => ⟨fun off mask h => registerWrite_reads_whole hawake hphase h,
      fun off mask h => registerWrite_reads_low hawake hphase h, fun off mask h => registerWrite_reads_high hawake hphase h,
      fun off h => exec_registerWrite_of_readOnly hawake hphase h, ?_⟩, fun off strobe w s hphase hok hknock => ⟨?_, fun init => ?_⟩,
    fun off strobe w s hasleep hslot hok => exec_registerWrite_of_asleep hasleep hslot hok,
    fun s => ⟨fun hawake => ⟨?_, ?_⟩, fun hasleep => ?_, ?_⟩, fun w s hawake => ⟨fun hw hup => ?_, fun h => ?_⟩⟩
  · have hv : (w >>> 32).setWidth 9 &&& (0x1F3 : BitVec 9) = fltCfgBits ((w >>> 32).setWidth 32) := by
      rw [fltCfgBits, BitVec.setWidth_setWidth_of_le _ (by decide)]
    refine ⟨_, exec_registerWrite_fltCfg hawake hphase, fun h => ?_, fun h => ?_, fun k hk => s.fltCfgWrite_fltCfg_other _ hk,
      State.fltCfgWrite_changes _ _⟩
    · rw [hv] at h ⊢
      rw [State.fltCfgWrite_fltCfg_same, fltCfgTaken_of_allowed h]
    · rw [State.severity, State.fltCfgWrite_fltCfg_same]
      exact fltCfgTaken_severity h _
  · exact ⟨_, exec_registerWrite_of_refused hphase hok hknock, s.cpFault_stat _ _, s.cpFault_regs _ _, s.cpFault_ctxs _ _⟩
  · exact ⟨_, exec_controlPortRefused_read hphase hok, s.cpFault_stat _ _, rfl, rfl, s.cpFault_ctxs _ _⟩
  · have hexec := exec_knockDropRead hawake
    exact ⟨_, hexec, rfl, (next_changes hexec).mono (by simp [mayTouch])⟩
  · have hexec := exec_smokerStatRead hawake
    exact ⟨_, hexec, rfl, rfl, (next_changes hexec).mono (by simp [mayTouch])⟩
  · exact ⟨s.answerRead 0, rfl, rfl, State.answerRead_changes _ _, exec_knockDropRead_of_asleep hasleep,
      exec_smokerStatRead_of_asleep hasleep⟩
  · have hexec : exec .snapStatRead s = .next { s.answerRead s.rdSnapStat with snap := { s.snap with dropped := 0 } } := rfl
    exact ⟨_, hexec, rfl, rfl, (next_changes hexec).mono (by simp [mayTouch])⟩
  · refine ⟨_, (exec_afClear hawake).trans (by rw [State.arbClear_of_up hw hup]), ?_, fun k hk => ?_,
      fun g hg => State.modFrame_frame_other _ _ hg, State.modFrame_changes _ _ _⟩
    · rw [State.modFrame_frame_same, Store.get_set_same]
    · rw [State.modFrame_frame_same, Store.get_set_other _ _ _ hk]
  · rw [exec_afClear hawake, State.arbClear_of_ignored h]

end Sys2Proof.Machine

/-! # Proofs: pantry slots (R206, R207, R210, R254, R385)

What a slot holds after it has been set, claimed or filled, and what a filled slot of a descriptor does. -/
namespace Sys2Proof.Machine

/-! ## Slots of a frame's pantry -/

@[simp] theorem State.setSlotAt_slot_same (s : State) (f n : Nat) (q : Slot) : (s.setSlotAt f n q).slot f n = q := by
  rw [State.slot, State.setSlotAt, State.modFrame_frame_same, Store.get_set_same]

theorem State.setSlotAt_slot_other (s : State) {f n m : Nat} (q : Slot) (h : m ≠ n) : (s.setSlotAt f n q).slot f m = s.slot f m := by
  rw [State.slot, State.setSlotAt, State.modFrame_frame_same, Store.get_set_other _ _ _ h, State.slot]

theorem State.setSlotAt_frame_other (s : State) {f g : Nat} (n : Nat) (q : Slot) (h : g ≠ f) :
    (s.setSlotAt f n q).frame g = s.frame g := State.modFrame_frame_other _ _ h

@[simp] theorem State.claimSlot_slot_same (s : State) (f n : Nat) (a : Asker) (q : Slot) : (s.claimSlot f n a q).slot f n = q := by
  rw [State.claimSlot]
  split
  · rw [State.slot, State.modFrame_frame_same]
    exact State.setSlotAt_slot_same s f n q
  · exact State.setSlotAt_slot_same s f n q

theorem State.slot_congr {s t : State} {f : Nat} (h : t.frame f = s.frame f) (n : Nat) : t.slot f n = s.slot f n := by
  rw [State.slot, State.slot, h]

/-! ## A beat that fills its slot (R210, R217, R254) -/

/-- The slot once `beats` have come with their bytes, and the `k` flips that injection asked for. -/
def Slot.filled (q : Slot) (off : Nat) (beats : BitVec 4) (data : Bytes) (k : Nat) : Slot :=
  { q with data := q.data.putBytes off data, have_ := q.have_ ||| beats,
           counted := q.counted && (q.have_ ||| beats) != q.want, flips := (if q.have_ = 0 then 0 else q.flips) + k }

theorem State.fillSlot_eq (s : State) (f n off : Nat) (beats : BitVec 4) (data : Bytes) :
    s.fillSlot f n off beats data = (s.modFaults fun x => { x with flipPantry := x.flipPantry.erase f }).setSlotAt f n
      ((s.slot f n).filled off beats data (s.faults.flipPantry.get 0 f)) := rfl

@[simp] theorem State.fillSlot_slot_same (s : State) (f n off : Nat) (beats : BitVec 4) (data : Bytes) :
    (s.fillSlot f n off beats data).slot f n = (s.slot f n).filled off beats data (s.faults.flipPantry.get 0 f) := by
  rw [State.fillSlot_eq, State.setSlotAt_slot_same]

theorem State.fillSlot_slot_other (s : State) {f n m : Nat} (off : Nat) (beats : BitVec 4) (data : Bytes) (h : m ≠ n) :
    (s.fillSlot f n off beats data).slot f m = s.slot f m := by
  rw [State.fillSlot_eq, State.setSlotAt_slot_other _ _ h]
  rfl

theorem State.fillSlot_frame_other (s : State) {f g : Nat} (n off : Nat) (beats : BitVec 4) (data : Bytes) (h : g ≠ f) :
    (s.fillSlot f n off beats data).frame g = s.frame g := by
  rw [State.fillSlot_eq, State.setSlotAt_frame_other _ _ _ h]
  rfl

@[simp] theorem State.fillSlot_frameUp (s : State) (f n off : Nat) (beats : BitVec 4) (data : Bytes) (g : Nat) :
    (s.fillSlot f n off beats data).frameUp g = s.frameUp g := by
  by_cases hg : g = f
  · subst hg
    rw [State.frameUp, State.fillSlot_eq, State.setSlotAt, State.modFrame_frame_same]
    rfl
  · rw [State.frameUp, State.fillSlot_frame_other _ _ _ _ _ hg, State.frameUp]

/-- The slot's bytes where the beat came. -/
theorem Slot.filled_data_inside {q : Slot} {off : Nat} {beats : BitVec 4} {data : Bytes} {k len i : Nat} (hi : i < len) :
    (q.filled off beats (slice data 0 len) k).data.get 0 (off + i) = data.getD i 0 := by
  rw [Slot.filled, Store.get_putBytes (by rwa [slice_length]), slice_getD _ _ _ _ hi, Nat.zero_add]

/-- The slot's other bytes. -/
theorem Slot.filled_data_outside {q : Slot} {off : Nat} {beats : BitVec 4} {data : Bytes} {k len i : Nat}
    (hi : i < off ∨ off + len ≤ i) : (q.filled off beats (slice data 0 len) k).data.get 0 i = q.data.get 0 i := by
  rw [Slot.filled, Store.get_putBytes_of_outside (by rwa [slice_length])]

theorem Slot.filled_not_full {q : Slot} {off : Nat} {beats : BitVec 4} {data : Bytes} {k : Nat} (h : q.have_ ||| beats ≠ q.want) :
    (q.filled off beats data k).full = false := by
  simp [Slot.full, Slot.filled, h]

/-! ## A slot that has its last beat (R210) -/

/-- A descriptor one of whose reads is no longer in flight. -/
def Work.readBack (w : Work) : Work := { w with readsOut := w.readsOut - 1 }

theorem State.workSlotDone_of_data {s : State} {f n : Nat} (c : CtxNo) (id : Nat) (hwhat : (s.slot f n).what = .data)
    (hflips : (s.slot f n).flips = 0) (hwork : ((s.modWork c id Work.readBack).work c id).isNone = false) :
    s.workSlotDone f n c id = (s.modWork c id Work.readBack).slotFilled f n := by
  have hecc : (s.modWork c id Work.readBack).slotEcc f n = (s.modWork c id Work.readBack, true) := by
    rw [State.slotEcc]
    exact if_pos hflips
  have hback : (if (s.slot f n).what == .data || (s.slot f n).what == .tag then s.modWork c id Work.readBack else s) =
      s.modWork c id Work.readBack := if_pos (by simp [hwhat])
  unfold State.workSlotDone
  extract_lets q t r
  have hr : r = (s.modWork c id Work.readBack, true) := by
    rw [← hecc, ← hback]
    rfl
  rw [hr, hwork]
  rfl

/-- A full slot of data, whose check code holds, is one read less in flight for its descriptor. -/
theorem State.slotDone_of_data {s : State} {f n : Nat} {c : CtxNo} {w : Work} (hhold : (s.slot f n).holder = .work c w.id)
    (hwhat : (s.slot f n).what = .data) (hflips : (s.slot f n).flips = 0) (hw : (s.ctx c).works = [w]) :
    s.slotDone f n = s.setCtx c { s.ctx c with works := [w.readBack] } := by
  have hback : s.modWork c w.id Work.readBack = s.setCtx c { s.ctx c with works := [w.readBack] } := State.modWork_head hw _
  have hwork : ((s.modWork c w.id Work.readBack).work c w.id).isNone = false := by
    rw [hback, State.work, State.setCtx_ctx_same]
    simp [Work.readBack]
  have hslot : (s.modWork c w.id Work.readBack).slot f n = s.slot f n := rfl
  rw [← hback, State.slotDone, hhold]
  dsimp only
  rw [State.workSlotDone_of_data c w.id hwhat hflips hwork]
  simp [State.slotFilled, hslot, hhold, hwhat]

end Sys2Proof.Machine

/-! # Proofs: feed ports and the spine (R215 to R220, R446 to R448)

One section per crossing. A port's own record is read back after each; what else a crossing changes is the frame of its command. -/
namespace Sys2Proof.Machine

/-! ## Deliveries (R218, R448) -/

theorem exec_feedPortDeliver_of_swarm {p : Fin 256} {s : State} {sw : Nat} {d : Bytes} (hcore : s.corePresent p.val = true)
    (hrun : (s.frame (p.val / 16)).state = .run) (hbeat : s.swarmBeatFor p.val = some (sw, d)) :
    exec (.feedPortDeliver p) s =
      .next (((s.setPort p.val ((s.port p.val).present (s.swarmBeat sw d))).setSwarm sw ((s.swarm sw).take p.val)).moved) := by
  change execFeedPortDeliver p s = _
  simp [execFeedPortDeliver, hcore, hrun, hbeat]

theorem exec_feedPortDeliver_of_landing {p : Fin 256} {s : State} {b : Beat} {rest : List Beat}
    (hcore : s.corePresent p.val = true) (hrun : (s.frame (p.val / 16)).state = .run) (hbeat : s.swarmBeatFor p.val = none)
    (hland : (s.port p.val).landing = b :: rest) (hmay : (s.port p.val).mayDeliver b = true) :
    exec (.feedPortDeliver p) s =
      .next (s.setPort p.val { (s.port p.val).present b with landing := rest, landCr := (s.port p.val).landCr + 1 }).moved := by
  change execFeedPortDeliver p s = _
  simp [execFeedPortDeliver, hcore, hrun, hbeat, hland, hmay, removeFirst]

/-! ## Credits that cores return (R215, R448) -/

theorem exec_landCr_of_awaited {p : Fin 256} {s : State} {w : CtxNo × Nat} {rest : List (CtxNo × Nat)}
    (hcore : s.corePresent p.val = true) (hfly : (s.port p.val).landFly = w :: rest) :
    exec (.landCr p) s = .next ((s.setPort p.val { s.port p.val with landFly := rest, wrCr := (s.port p.val).wrCr + 1 }).beatBack w) := by
  change execLandCr p s = _
  simp [execLandCr, hcore, hfly]

theorem exec_landCr_of_none {p : Fin 256} {s : State} (hcore : s.corePresent p.val = true) (hfly : (s.port p.val).landFly = []) :
    exec (.landCr p) s = .next (s.portCredit 2 p.val) := by
  change execLandCr p s = _
  simp [execLandCr, hcore, hfly]

theorem exec_strmCr_of_awaited {p : Fin 256} {s : State} {w : CtxNo × Nat} {rest : List (CtxNo × Nat)}
    (hcore : s.corePresent p.val = true) (hfly : (s.port p.val).strmFly = w :: rest) :
    exec (.strmCr p) s =
      .next ((s.setPort p.val { s.port p.val with strmFly := rest, strmCr := (s.port p.val).strmCr + 1 }).beatBack w) := by
  change execStrmCr p s = _
  simp [execStrmCr, hcore, hfly]

theorem exec_strmCr_of_none {p : Fin 256} {s : State} (hcore : s.corePresent p.val = true) (hfly : (s.port p.val).strmFly = []) :
    exec (.strmCr p) s = .next (s.portCredit 4 p.val) := by
  change execStrmCr p s = _
  simp [execStrmCr, hcore, hfly]

/-! ## Scratchpad reads (R217, R446, R447) -/

/-- The 64 B beat of a block that a read asks for next. -/
def ReadReq.nextBeat (r : ReadReq) : Nat := (setBits 4 (quarters r.sect).toNat).headD 0

/-- The slot with the read's next beat asked for. -/
def Slot.asking (q : Slot) (r : ReadReq) : Slot := { q with want := q.want ||| BitVec.ofNat 4 (2 ^ r.nextBeat) }

/-- The port with the read on its fetch lane. -/
def Port.fetching (q : Port) (a : Fetch) : Port := { q with rdCr := q.rdCr - 1, fetFly := q.fetFly ++ [a] }

theorem exec_fetReq {p : Fin 256} {c : CtxNo} {w : Work} {r : ReadReq} {m : Nat} {sl : Slot} {s : State}
    (hcore : s.corePresent p.val = true) (hrun : (s.frame (p.val / 16)).state = .run) (hcr : 0 < (s.port p.val).rdCr)
    (hwant : s.chans.keys.findSome? (s.fetWant p.val) = some (c, w, r, m, sl)) :
    exec (.fetReq p) s =
      .next (((s.claimSlot w.frame m (.chan c) (sl.asking r)).modWork c w.id fun v => v.beatIssued r r.nextBeat).setPort p.val
        ((s.port p.val).fetching ⟨w.frame, m, r.addr + 64 * r.nextBeat, (s.ctx c).tenant⟩)) := by
  change execFetReq p s = _
  simp only [execFetReq, hcore, hrun, hwant, Nat.pos_iff_ne_zero.mp hcr]
  rfl

/-- The state in which the oldest scratchpad read of port `p` has come back with its beat. -/
def State.fetched (s : State) (p : Nat) (r : Fetch) (rest : List Fetch) (data : Bytes) : State :=
  (s.setPort p { s.port p with fetFly := rest, rdCr := (s.port p).rdCr + 1 }).fillSlot r.frame r.slot (r.ofs % 256)
    (BitVec.ofNat 4 (2 ^ (r.ofs % 256 / 64))) (slice data 0 64)

theorem State.fetched_port_same (s : State) (p : Nat) (r : Fetch) (rest : List Fetch) (data : Bytes) :
    (s.fetched p r rest data).port p = { s.port p with fetFly := rest, rdCr := (s.port p).rdCr + 1 } := by
  rw [State.fetched]
  exact State.setPort_port_same _ _ _

theorem State.fetched_slot_same (s : State) (p : Nat) (r : Fetch) (rest : List Fetch) (data : Bytes) :
    (s.fetched p r rest data).slot r.frame r.slot = (s.slot r.frame r.slot).filled (r.ofs % 256)
      (BitVec.ofNat 4 (2 ^ (r.ofs % 256 / 64))) (slice data 0 64) (s.faults.flipPantry.get 0 r.frame) :=
  State.fillSlot_slot_same _ _ _ _ _ _

theorem State.fetched_changes (s : State) (p : Nat) (r : Fetch) (rest : List Fetch) (data : Bytes) :
    OnlyChanges [.frames, .ports, .faults] s (s.fetched p r rest data) :=
  ((State.setPort_changes s p _).mono (by decide)).step (State.fillSlot_changes _ _ _ _ _ _) (by decide)

theorem exec_fetV {p : Fin 256} {data : Bytes} {r : Fetch} {rest : List Fetch} {s : State} (hcore : s.corePresent p.val = true)
    (hfly : (s.port p.val).fetFly = r :: rest) :
    exec (.fetV p data false) s = .next (
      let t := s.fetched p.val r rest data
      if t.frameUp r.frame && (t.slot r.frame r.slot).full && !t.fetMore (t.slot r.frame r.slot) then t.slotDone r.frame r.slot
      else t) := by
  change execFetV p data false s = _
  simp only [execFetV, hcore, hfly]
  rfl

/-- A beat that is not its slot's last, or that comes to a frame that is not up, is taken in. -/
theorem exec_fetV_of_partial {p : Fin 256} {data : Bytes} {r : Fetch} {rest : List Fetch} {s : State}
    (hcore : s.corePresent p.val = true) (hfly : (s.port p.val).fetFly = r :: rest)
    (h : s.frameUp r.frame = false ∨
      (s.slot r.frame r.slot).have_ ||| BitVec.ofNat 4 (2 ^ (r.ofs % 256 / 64)) ≠ (s.slot r.frame r.slot).want) :
    exec (.fetV p data false) s = .next (s.fetched p.val r rest data) := by
  refine (exec_fetV hcore hfly).trans (congrArg Host.Outcome.next (if_neg ?_))
  obtain hdown | hmore := h
  · have hup : (s.fetched p.val r rest data).frameUp r.frame = false := (State.fillSlot_frameUp _ _ _ _ _ _ _).trans hdown
    simp [hup]
  · rw [State.fetched_slot_same, Slot.filled_not_full hmore]
    simp

/-- The last beat of a descriptor's last read of data. -/
theorem exec_fetV_of_last {p : Fin 256} {data : Bytes} {r : Fetch} {rest : List Fetch} {s : State} {c : CtxNo} {w : Work}
    (hcore : s.corePresent p.val = true) (hfly : (s.port p.val).fetFly = r :: rest) (hup : s.frameUp r.frame = true)
    (hwant : (s.slot r.frame r.slot).want ≠ 0)
    (hgot : (s.slot r.frame r.slot).have_ ||| BitVec.ofNat 4 (2 ^ (r.ofs % 256 / 64)) = (s.slot r.frame r.slot).want)
    (hw : (s.ctx c).works = [w]) (hreads : w.reads = []) (hhold : (s.slot r.frame r.slot).holder = .work c w.id)
    (hwhat : (s.slot r.frame r.slot).what = .data) (hflips : (s.slot r.frame r.slot).flips = 0)
    (hpantry : s.faults.flipPantry.get 0 r.frame = 0) :
    exec (.fetV p data false) s =
      .next ((s.fetched p.val r rest data).setCtx c { s.ctx c with works := [w.readBack] }) := by
  have hctx : (s.fetched p.val r rest data).ctx c = s.ctx c := rfl
  have hslot := s.fetched_slot_same p.val r rest data
  rw [hpantry] at hslot
  have hfull : ((s.fetched p.val r rest data).slot r.frame r.slot).full = true := by
    rw [hslot]
    change ((s.slot r.frame r.slot).want != 0 && (_ ||| _) == (s.slot r.frame r.slot).want) = true
    rw [hgot]
    simpa using hwant
  have hmore : (s.fetched p.val r rest data).fetMore ((s.fetched p.val r rest data).slot r.frame r.slot) = false := by
    simp [State.fetMore, hslot, Slot.filled, hhold, State.work, hctx, hw, hreads]
  have hframe : (s.fetched p.val r rest data).frameUp r.frame = true := (State.fillSlot_frameUp _ _ _ _ _ _ _).trans hup
  refine (exec_fetV hcore hfly).trans (congrArg Host.Outcome.next ((if_pos (by simp [hframe, hfull, hmore])).trans ?_))
  rw [State.slotDone_of_data (by rw [hslot]; exact hhold) (by rw [hslot]; exact hwhat) (by simp [hslot, Slot.filled, hflips])
    (hctx ▸ hw), hctx]

/-! ## The spine (R216, R220) -/

theorem State.egress_spec {s : State} {src dst : Nat} {b : SpineBeat} (h : s.egress src dst = some b) :
    b ∈ s.spine ∧ b.src = src ∧ b.dst = dst := by
  obtain ⟨ch, -, hch⟩ := List.exists_of_findSome?_eq_some h
  split at hch
  next b' hfind =>
    split at hch
    next hdst =>
      cases hch
      have hsrc := List.find?_some hfind
      simp only [Bool.and_eq_true, decide_eq_true_eq] at hsrc
      exact ⟨List.mem_of_find?_eq_some hfind, hsrc.1, hdst⟩
    next => cases hch
  next => cases hch

/-- The beat that a frame takes waits for it, and its sender is up. -/
theorem State.ingress_spec {s : State} {dst : Nat} {b : SpineBeat} (h : s.ingress dst = some b) :
    b ∈ s.spine ∧ b.dst = dst ∧ s.frameUp b.src = true := by
  obtain ⟨src, -, hsrc⟩ := List.exists_of_findSome?_eq_some h
  split at hsrc
  next hup =>
    obtain ⟨hmem, rfl, hdst⟩ := State.egress_spec hsrc
    exact ⟨hmem, hdst, hup⟩
  next => cases hsrc

theorem State.landAt_port {own : List Nat} (h : own.Nodup) (s : State) (b : Beat) (n : Nat) :
    (s.landAt own fun _ => b).port n = if n ∈ own then { s.port n with landing := (s.port n).landing ++ [b] } else s.port n :=
  foldl_upd_get (get := State.port) (f := fun x => { x with landing := x.landing ++ [b] })
    (fun t i => t.setPort_port_same i _) (fun t _ _ hj => t.setPort_port_other _ hj) h s n

theorem State.landBeat_port {b : SpineBeat} (h : b.ports.Nodup) (s : State) (n : Nat) :
    (s.landBeat b).port n =
      if n ∈ b.ports then { s.port n with landing := (s.port n).landing ++ [b.beat] } else s.port n := by
  rw [← State.landAt_port h, State.landBeat]
  split <;> rfl

/-- The state in which the beat's sender and receiver have taken their turns, before the beat crosses. -/
def State.turned (s : State) (dst src : Nat) (b : SpineBeat) : State :=
  (s.modFrame dst fun x => { x with spineFrom := src }).modFrame src fun x => { x with spineChan := s.beatChan b }

@[simp] theorem State.turned_port (s : State) (dst src : Nat) (b : SpineBeat) (n : Nat) : (s.turned dst src b).port n = s.port n := rfl

/-- The state in which the beat has left the spine for its ports' landing buffers. -/
def State.crossed (s : State) (dst src : Nat) (b : SpineBeat) : State :=
  (({ s.turned dst src b with spine := s.spine.erase b } : State).landBeat b).moved

theorem State.crossed_port {b : SpineBeat} (h : b.ports.Nodup) (s : State) (dst src n : Nat) :
    (s.crossed dst src b).port n =
      if n ∈ b.ports then { s.port n with landing := (s.port n).landing ++ [b.beat] } else s.port n := by
  have hmoved (t : State) : t.moved.port n = t.port n := rfl
  have hspine (t : State) (l : List SpineBeat) : ({ t with spine := l } : State).port n = t.port n := rfl
  rw [State.crossed, hmoved, State.landBeat_port h, hspine, State.turned_port]

theorem State.crossed_spine (s : State) (dst src : Nat) (b : SpineBeat) : (s.crossed dst src b).spine = s.spine.erase b := by
  have hmoved (t : State) : t.moved.spine = t.spine := rfl
  rw [State.crossed, hmoved, State.landBeat_changes _ _ .spine (by decide)]

theorem exec_spineTransfer_of_turn {dst src : Fin 16} {s : State} {b : SpineBeat} (hin : s.ingress dst.val = some b)
    (hsrc : b.src = src.val) (hrun : (s.frame dst.val).state = .run) :
    exec (.spineTransfer dst src) s = .next (s.crossed dst.val src.val b) := by
  change execSpineTransfer dst src s = _
  simp only [execSpineTransfer, hin, State.crossed, State.turned]
  exact congrArg Host.Outcome.next (if_neg (by simp [hsrc, hrun]))

theorem exec_spineTransfer_of_other {dst src : Fin 16} {s : State} (h : ∀ b, s.ingress dst.val = some b → b.src ≠ src.val) :
    exec (.spineTransfer dst src) s = .next s := by
  change execSpineTransfer dst src s = _
  cases hin : s.ingress dst.val with
  | none => simp only [execSpineTransfer, hin]
  | some b => simp [execSpineTransfer, hin, h b hin]

/-! ## The statement -/

/-- Settles O41: each clause is one of the crossings above. -/
theorem portsDeliverAndReturn : Obligations.PortsDeliverAndReturn := by
  refine ⟨fun p b rest s hcore hrun => ⟨fun sw d => exec_feedPortDeliver_of_swarm hcore hrun, fun hswarm hland hmay => ?_⟩,
    fun p w rest s hcore => ⟨exec_landCr_of_awaited hcore, exec_strmCr_of_awaited hcore, exec_landCr_of_none hcore,
      exec_strmCr_of_none hcore⟩,
    fun p c w r m sl s hcore hrun hcr hwant => ?_, fun p data r rest s hcore hfly => ?_,
    fun dst src s => ⟨fun b => State.ingress_spec, exec_spineTransfer_of_other, fun b hin hsrc hrun hports => ?_⟩⟩
  · have hexec := exec_feedPortDeliver_of_landing hcore hrun hswarm hland hmay
    exact ⟨_, hexec, State.setPort_port_same _ _ _, fun n hn => State.setPort_port_other _ _ hn,
      ((State.setPort_changes s p.val _).mono (by decide)).step (State.moved_changes _) (by decide)⟩
  · refine ⟨_, exec_fetReq hcore hrun hcr hwant, State.setPort_port_same _ _ _, State.claimSlot_slot_same _ _ _ _ _,
      fun n hn => (State.setPort_port_other _ _ hn).trans ?_, ?_⟩
    · rw [State.modWork, State.modCtx_port, State.port, State.claimSlot_changes _ _ _ _ _ .ports (by decide), State.port]
    · have hexec := exec_fetReq hcore hrun hcr hwant
      exact (next_changes hexec).mono (by simp [mayTouch])
  · have htaken {u : State} (hu : u.slot r.frame r.slot = (s.fetched p.val r rest data).slot r.frame r.slot) :
        (∀ j < 64, (u.slot r.frame r.slot).data.get 0 (r.ofs % 256 + j) = data.getD j 0) ∧ (u.slot r.frame r.slot).have_ =
          (s.slot r.frame r.slot).have_ ||| BitVec.ofNat 4 (2 ^ (r.ofs % 256 / 64)) := by
      rw [hu, State.fetched_slot_same]
      exact ⟨fun j hj => Slot.filled_data_inside hj, rfl⟩
    refine ⟨fun h => ⟨_, exec_fetV_of_partial hcore hfly h, ⟨s.fetched_port_same _ _ _ _, htaken rfl⟩, s.fetched_changes _ _ _ _⟩,
      fun c w hup hwant hgot hw hreads hhold hwhat hflips hpantry =>
        ⟨_, exec_fetV_of_last hcore hfly hup hwant hgot hw hreads hhold hwhat hflips hpantry,
          ⟨?_, htaken (State.slot_congr (State.setCtx_frame _ _ _ _) _)⟩, ?_⟩⟩
    · rw [State.setCtx_port, State.fetched_port_same]
    · rw [State.setCtx_ctx_same]
      rfl
  · have hexec := exec_spineTransfer_of_turn hin hsrc hrun
    refine ⟨_, hexec, s.crossed_spine _ _ _, fun q hq => ?_, fun q hq => ?_, (next_changes hexec).mono (by simp [mayTouch])⟩
    · rw [State.crossed_port hports, if_pos hq]
    · rw [State.crossed_port hports, if_neg hq]

end Sys2Proof.Machine

/-! # Proofs: operations that change every frame in one way (R75, R232, R378)

A relation between a frame before and after that each step of an operation keeps, on frame tables in the canonical form: there
an operation over all frames changes each of them once. -/
namespace Sys2Proof.Machine

/-! ## Frames related step by step -/

/-- From a frame table in the canonical form to another, each frame related to what it was. -/
def State.FramesVia (r : Frame → Frame → Prop) (s t : State) : Prop :=
  s.frames.wf {} = true → t.frames.wf {} = true ∧ ∀ g, r (s.frame g) (t.frame g)

/-- A frame that starts to stop, unless it stops already (R232). -/
def Frame.halting (x : Frame) (cause : StopCause) : Frame :=
  if x.stopped || x.draining then x else { x with draining := true, cause := cause }

/-- A relation that holds step by step, and of a frame that starts to stop. -/
structure Frame.Steady (r : Frame → Frame → Prop) : Prop where
  refl (x : Frame) : r x x
  trans {x y z : Frame} : r x y → r y z → r x z
  halting (x : Frame) (cause : StopCause) : r x (x.halting cause)

section
variable {r : Frame → Frame → Prop} (hr : Frame.Steady r) {s t u : State}
include hr

theorem State.FramesVia.of_frames (h : t.frames = s.frames) : State.FramesVia r s t := fun hwf =>
  ⟨h ▸ hwf, fun g => State.frame_congr h g ▸ hr.refl _⟩

theorem State.FramesVia.of_changes {ps : List Part} (h : OnlyChanges ps s t) (hp : Part.frames ∉ ps) : State.FramesVia r s t :=
  .of_frames hr (h .frames hp)

theorem State.FramesVia.trans (h : State.FramesVia r s t) (k : State.FramesVia r t u) : State.FramesVia r s u := fun hwf =>
  ⟨(k (h hwf).1).1, fun g => hr.trans ((h hwf).2 g) ((k (h hwf).1).2 g)⟩

theorem State.FramesVia.modFrame {f : Nat} {k : Frame → Frame} (hk : r (s.frame f) (k (s.frame f))) :
    State.FramesVia r s (s.modFrame f k) := by
  refine fun hwf => ⟨Store.wf_set _ _ _ _ hwf, fun g => ?_⟩
  by_cases hg : g = f
  · subst hg
    rwa [State.modFrame_frame_same]
  · rw [State.modFrame_frame_other _ _ hg]
    exact hr.refl _

theorem State.FramesVia.foldl {α : Type} {k : State → α → State} (l : List α) (hk : ∀ t, ∀ a ∈ l, State.FramesVia r t (k t a)) :
    State.FramesVia r s (l.foldl k s) :=
  List.foldlRecOn l k (motive := fun t => State.FramesVia r s t) (.of_frames hr rfl) fun t ht a ha => .trans hr ht (hk t a ha)

theorem State.FramesVia.stopFrame (s : State) (f : Nat) (cause : StopCause) : State.FramesVia r s (s.stopFrame f cause) :=
  .modFrame hr (hr.halting _ _)

theorem State.FramesVia.stopAllFrames (s : State) : State.FramesVia r s s.stopAllFrames :=
  .foldl hr _ fun _ _ _ => .modFrame hr (hr.halting _ _)

end

theorem State.FramesVia.mapFrames {r : Frame → Frame → Prop} {s : State} {k : Frame → Frame} (hk : ∀ x, r x (k x)) (h0 : k {} = {}) :
    State.FramesVia r s (s.mapFrames k) := by
  refine fun hwf => ⟨Store.wf_mapAll {} (fun _ x => k x) s.frames, fun g => ?_⟩
  have hget : (s.mapFrames k).frame g = k (s.frame g) :=
    Store.get_mapAll (d := ({} : Frame)) (f := fun _ x => k x) (Store.nodup_keys_of_wf hwf) g h0
  exact hget ▸ hk _

/-- A raising leaves the frames, or stops them all (R378). -/
theorem State.raiseWith_halts (s : State) (c : FaultCap) (ev : Option EvRec) (q : Bool) :
    ∃ t, t.frames = s.frames ∧ (s.raiseWith c ev q = t ∨ s.raiseWith c ev q = t.stopAllFrames) := by
  have hmerged (t : State) : t.recordMerged.frames = t.frames := rfl
  unfold State.raiseWith
  extract_lets sev cfg s₁ lower first merged s₀ s₂ rec0 s₃ s₄ s₅ s₆
  have h₁ : s₁.frames = s.frames := rfl
  have h₆ : s₆.frames = s.frames := by
    simp [s₆, s₅, s₄, s₃, s₂, s₀, apply_ite State.frames, hmerged, h₁]
  split
  · exact ⟨s₁, h₁, .inl rfl⟩
  · split
    · exact ⟨s₆.modFaults fun f => { f with halted := true }, h₆, .inr rfl⟩
    · exact ⟨s₆, h₆, .inl rfl⟩

section
variable {r : Frame → Frame → Prop} (hr : Frame.Steady r)
include hr

theorem State.FramesVia.raiseWith (s : State) (c : FaultCap) (ev : Option EvRec) (q : Bool) :
    State.FramesVia r s (s.raiseWith c ev q) := by
  obtain ⟨t, ht, h | h⟩ := s.raiseWith_halts c ev q
  · exact h ▸ .of_frames hr ht
  · exact h ▸ .trans hr (.of_frames hr ht) (.stopAllFrames hr t)

theorem State.FramesVia.raise (s : State) (c : FaultCap) : State.FramesVia r s (s.raise c) := .raiseWith hr s c none false

theorem State.FramesVia.ringFault (s : State) (c : CtxNo) (code access : Nat) (idx : BitVec 16) (drop : Nat) :
    State.FramesVia r s (s.ringFault c code access idx drop) := by
  unfold State.ringFault
  extract_lets x s₁ s₂
  have h₁ : State.FramesVia r s s₁ :=
    .of_changes hr ((s.lastErr_changes c code idx).trans (State.modCtx_changes _ _ _)) (by decide)
  exact .trans hr (.trans hr h₁ (.raise hr s₁ _)) (.of_changes hr (s₂.stopIfDone_changes c) (by decide))

end

/-! ## What a stop keeps (R232, R233) -/

/-- A frame that stops, or has stopped. -/
def Frame.stopping (x : Frame) : Bool := x.stopped || x.draining

/-- The second frame has the first one's writes in flight and requests in progress, and is as stopped as it was. -/
structure Frame.KeepsStop (x y : Frame) : Prop where
  went : y.went = x.went
  fab : y.fab = x.fab
  stopping : x.stopping = true → y.stopping = true
  stopped : x.stopped = true → y.stopped = true ∧ y.draining = x.draining

/-- What is more, a pantry without slots in use stays so. -/
def Frame.StaysStopped (x y : Frame) : Prop := x.KeepsStop y ∧ (x.slots = [] → y.slots = [])

theorem Frame.halting_stopping (x : Frame) (cause : StopCause) : (x.halting cause).stopping = true := by
  unfold Frame.halting Frame.stopping
  split
  next h => exact h
  next => exact Bool.or_true _

theorem Frame.halting_of_stopped {x : Frame} (h : x.stopped = true) (cause : StopCause) : x.halting cause = x :=
  if_pos (by rw [h, Bool.true_or])

theorem Frame.keepsStop_steady : Frame.Steady Frame.KeepsStop where
  refl x := ⟨rfl, rfl, id, fun h => ⟨h, rfl⟩⟩
  trans h k := ⟨k.went.trans h.went, k.fab.trans h.fab, k.stopping ∘ h.stopping, fun hx =>
    ⟨(k.stopped (h.stopped hx).1).1, (k.stopped (h.stopped hx).1).2.trans (h.stopped hx).2⟩⟩
  halting x cause := by
    refine ⟨?_, ?_, fun _ => x.halting_stopping cause, fun h => ?_⟩
    · rw [Frame.halting]; split <;> rfl
    · rw [Frame.halting]; split <;> rfl
    · rw [Frame.halting_of_stopped h]; exact ⟨h, rfl⟩

theorem Frame.staysStopped_steady : Frame.Steady Frame.StaysStopped where
  refl x := ⟨Frame.keepsStop_steady.refl x, id⟩
  trans h k := ⟨Frame.keepsStop_steady.trans h.1 k.1, k.2 ∘ h.2⟩
  halting x cause := by
    refine ⟨Frame.keepsStop_steady.halting x cause, fun h => ?_⟩
    rw [Frame.halting]; split <;> exact h

theorem State.FramesVia.keepsStop {s t : State} (h : State.FramesVia Frame.StaysStopped s t) : State.FramesVia Frame.KeepsStop s t :=
  fun hwf => ⟨(h hwf).1, fun g => ((h hwf).2 g).1⟩

/-- A change of the service requester and of the slots alone. -/
theorem Frame.KeepsStop.of_service {x y : Frame} (h : y = { x with svc := y.svc, poolWait := y.poolWait, slots := y.slots }) :
    x.KeepsStop y := by
  rw [h]
  exact ⟨rfl, rfl, id, fun h => ⟨h, rfl⟩⟩

theorem State.dropSvc_staysStopped (s : State) (c : CtxNo) (id : Nat) : State.FramesVia Frame.StaysStopped s (s.dropSvc c id) :=
  .mapFrames (fun _ => ⟨.of_service rfl, fun h => h⟩) rfl

theorem State.dropSlots_staysStopped (s : State) (c : CtxNo) (id : Nat) :
    State.FramesVia Frame.StaysStopped s (s.dropSlots c id) :=
  .mapFrames (fun _ => ⟨.of_service rfl, fun h => by rw [h]; rfl⟩) rfl

/-! ## Bus errors (R232) -/

/-- On a frame table in the canonical form a bus error keeps that form, starts the stop of its frame, and leaves the writes in
flight. -/
theorem State.busError_stops {s : State} (hwf : s.frames.wf {} = true) (f tap : Nat) (b : Blame) (wr : Bool)
    (access sub addr space : Nat) :
    let t := s.busError f tap b wr access sub addr space
    t.frames.wf {} = true ∧ (t.frame f).stopping = true ∧ (t.frame f).went = (s.frame f).went := by
  have hr := Frame.keepsStop_steady
  unfold State.busError
  extract_lets named cap s₁ t
  have h₁ : State.FramesVia Frame.KeepsStop s s₁ := .trans hr (.raise hr s cap) (.stopFrame hr _ _ _)
  have hstop : (s₁.frame f).stopping = true := by
    rw [show s₁.frame f = ((s.raise cap).frame f).halting _ from State.modFrame_frame_same _ _ _]
    exact Frame.halting_stopping _ _
  obtain ⟨hwf₁, hs₁⟩ := h₁ hwf
  unfold t
  split
  next c i _ _ =>
    obtain ⟨hwf₂, h₂⟩ :=
      (State.FramesVia.trans hr (s₁.dropSvc_staysStopped c b.drop).keepsStop (.ringFault hr _ c 0x0801 access i b.drop)) hwf₁
    exact ⟨hwf₂, (h₂ f).stopping hstop, (h₂ f).went.trans (hs₁ f).went⟩
  next => exact ⟨hwf₁, hstop, (hs₁ f).went⟩

theorem State.stat_of_changes {ps : List Part} {s t : State} (h : OnlyChanges ps s t) (hp : Part.faults ∉ ps) :
    t.faults.stat = s.faults.stat := congrArg Faults.stat (h .faults hp)

theorem State.busError_stat {s : State} {f : Nat} (hf : f < 64) (tap : Nat) (b : Blame) (wr : Bool) (access sub addr space : Nat) :
    (s.busError f tap b wr access sub addr space).faults.stat.getLsbD f = true := by
  unfold State.busError
  extract_lets named cap s₁
  have h₁ : s₁.faults.stat.getLsbD f = true := State.raiseWith_stat_self (c := cap) hf
  split
  next c i _ _ =>
    unfold State.ringFault
    extract_lets x s₂ s₃
    have h₂ : s₂.faults.stat.getLsbD f = true := by rwa [show s₂.faults.stat = s₁.faults.stat from rfl]
    rw [State.stat_of_changes (s₃.stopIfDone_changes c) (by decide)]
    exact State.raiseWith_stat_keeps h₂ _ _ _
  next => exact h₁

/-! ## Requests of partners refused with reason 6 (R234) -/

/-- The frames stay, or one frame has a slot given back (R355). -/
def State.FreesSlot (s t : State) : Prop :=
  t.frames = s.frames ∨ ∃ f n, t.frames = (s.setSlotAt f n (s.slot f n).release).frames

theorem State.FreesSlot.of_changes {ps : List Part} {s t u : State} (h : State.FreesSlot s t) (k : OnlyChanges ps t u)
    (hp : Part.frames ∉ ps) : State.FreesSlot s u := by
  rwa [State.FreesSlot, show u.frames = t.frames from k .frames hp]

theorem State.FreesSlot.keepsStop {s t : State} (h : State.FreesSlot s t) : State.FramesVia Frame.KeepsStop s t := by
  have hr := Frame.keepsStop_steady
  obtain h | ⟨f, n, h⟩ := h
  · exact .of_frames hr h
  · exact .trans hr (.modFrame hr (.of_service rfl)) (.of_frames hr h)

theorem State.dropLid_freesSlot (s : State) (c : ChipNo) (g : Nat) : State.FreesSlot s (s.dropLid c g) := by
  unfold State.dropLid State.dropFabSlot
  extract_lets x
  split
  · exact .inl rfl
  · extract_lets f s₁
    refine .of_changes (t := s₁) ?_ (State.setRxGroup_changes _ _ _ _) (by decide)
    unfold s₁
    split
    · exact .inl rfl
    · split
      · exact .inr ⟨_, _, rfl⟩
      · exact .inl rfl

/-- Reason 6 raises nothing. -/
theorem State.refuseReq_six (s : State) (m : Msg) (freed : Bool) :
    s.refuseReq m 6 freed =
      let t := (if m.op == opRead then s else (s.dropLid m.src m.group).setRxGroup m.src m.group { s.rxGroup m.src m.group with
        live := true, refused := true, lid := none, lidIssued := false }).answer m opRefuse 6
      if freed then t else t.freeCredit m.src := rfl

theorem State.refuseReq_six_changes (s : State) (m : Msg) (freed : Bool) :
    OnlyChanges [.fabric, .frames] s (s.refuseReq m 6 freed) := by
  rw [State.refuseReq_six]
  extract_lets x t
  have ht : OnlyChanges [.fabric, .frames] s t := by
    refine OnlyChanges.step ?_ (State.answer_changes _ _ _ _ _) (by decide)
    exact .ite (.refl _ _) (.step (s.dropLid_changes _ _) (State.setRxGroup_changes _ _ _ _) (by decide))
  exact .ite ht (.step ht (t.freeCredit_changes _) (by decide))

theorem State.refuseReq_six_freesSlot (s : State) (m : Msg) (freed : Bool) : State.FreesSlot s (s.refuseReq m 6 freed) := by
  rw [State.refuseReq_six]
  extract_lets x t
  have ht : State.FreesSlot s t := by
    refine .of_changes ?_ (State.answer_changes _ _ _ _ _) (by decide)
    split
    · exact .inl rfl
    · exact (s.dropLid_freesSlot _ _).of_changes (State.setRxGroup_changes _ _ _ _) (by decide)
  split
  · exact ht
  · exact ht.of_changes (t.freeCredit_changes _) (by decide)

/-- A write that failed: the descriptor waits for it no longer, or the partner's request is refused (R232, R234). -/
theorem State.writeFailed_keepsStop (s : State) (e : WEntry) : State.FramesVia Frame.KeepsStop s (s.writeFailed e) := by
  have hr := Frame.keepsStop_steady
  unfold State.writeFailed
  split
  · split
    · exact .of_changes hr (State.modWork_changes _ _ _ _) (by decide)
    · exact .of_changes hr (State.modWork_changes _ _ _ _) (by decide)
    · exact .of_changes hr (State.modCtx_changes _ _ _) (by decide)
    · exact .of_frames hr rfl
  · exact (s.refuseReq_six_freesSlot _ _).keepsStop
  · exact .of_frames hr rfl

theorem State.writeFailed_faults (s : State) (e : WEntry) : (s.writeFailed e).faults = s.faults := by
  unfold State.writeFailed
  split
  · split <;> rfl
  · exact s.refuseReq_six_changes _ _ .faults (by decide)
  · rfl

/-! ## Descriptors that end with their frame (R75, R233) -/

theorem State.dropReads_staysStopped (s : State) (c : CtxNo) (id : Nat) :
    State.FramesVia Frame.StaysStopped s (s.dropReads c id) := by
  have hr := Frame.staysStopped_steady
  refine .foldl hr _ fun t e _ => ?_
  extract_lets x mine t₁
  split
  · refine .trans hr (.of_changes hr (t := t₁) (ps := [.fabric]) ?_ (by decide)) (.modFrame hr ⟨.of_service rfl, fun h => ?_⟩)
    · exact (t.setTxRead_changes _ _ _).trans (State.modPartner_changes _ _ _)
    · rw [h]; rfl
  · exact .of_changes hr (t.setTxRead_changes _ _ _) (by decide)

theorem State.dropHeld_staysStopped (s : State) (c : CtxNo) (id : Nat) :
    State.FramesVia Frame.StaysStopped s (s.dropHeld c id) := by
  have hr := Frame.staysStopped_steady
  refine .trans hr ?_ (.of_changes hr (State.abandonGroups_changes _ _ _) (by decide))
  exact .trans hr (.trans hr (s.dropSvc_staysStopped _ _) (State.dropReads_staysStopped _ _ _)) (State.dropSlots_staysStopped _ _ _)

theorem State.endWork_staysStopped (s : State) (c : CtxNo) (id status detail : Nat) :
    State.FramesVia Frame.StaysStopped s (s.endWork c id status detail) := by
  have hr := Frame.staysStopped_steady
  obtain h | h := s.endWork_cases c id status detail <;> rw [h]
  · exact .of_frames hr rfl
  · exact .trans hr (.of_changes hr ((State.modWork_changes _ _ _ _).trans (State.modCtx_changes _ _ _)) (by decide))
      (State.dropHeld_staysStopped _ _ _)

theorem State.stopWork_staysStopped (s : State) (c : CtxNo) (k : StopCause) (id : Nat) :
    State.FramesVia Frame.StaysStopped s (s.stopWork c k id) := by
  have hr := Frame.staysStopped_steady
  unfold State.stopWork
  split
  · exact .of_frames hr rfl
  · extract_lets o
    split
    · exact .of_frames hr rfl
    · split
      · exact .of_changes hr ((State.noteFailure_changes _ _ _ _ _).step (State.modCtx_changes _ _ _) (by decide)) (by decide)
      · split
        · exact .of_frames hr rfl
        · exact s.endWork_staysStopped _ _ _ _

theorem State.stopCtx_staysStopped (s : State) (c : CtxNo) (k : StopCause) :
    State.FramesVia Frame.StaysStopped s (s.stopCtx c k) := by
  have hr := Frame.staysStopped_steady
  unfold State.stopCtx
  extract_lets s₁ x s₂ s₃
  have h₁ : State.FramesVia Frame.StaysStopped s s₁ := .foldl hr _ fun t w _ => t.stopWork_staysStopped c k w.id
  have h₂ : OnlyChanges [.chans, .tally, .ctxs] s₁ s₂ := .ite (s₁.disarm_changes c) (.refl _ _)
  have h₃ : OnlyChanges [.chans, .tally, .ctxs, .readyQ] s₁ s₃ := by
    refine .trans (h₂.mono (by decide)) (.ite (.refl _ _) (.ite ?_ ?_))
    · exact ((s₂.toState_changes c _).step (State.modCtx_changes _ _ _) (by decide)).mono (by decide)
    · exact (s₂.toState_changes c _).mono (by decide)
  exact .trans hr h₁ (.of_changes hr (h₃.step (s₃.unbind_changes c) (by decide)) (by decide))

theorem State.noteFailure_ctx_other (s : State) {c d : CtxNo} (h : d ≠ c) (w : Work) (status detail : BitVec 16) :
    (s.noteFailure c w status detail).ctx d = s.ctx d :=
  (State.event_ctx _ _ _).trans (State.modCtx_ctx_other _ _ h)

theorem State.stopWork_ctx_other (s : State) {c d : CtxNo} (h : d ≠ c) (k : StopCause) (id : Nat) :
    (s.stopWork c k id).ctx d = s.ctx d := by
  unfold State.stopWork
  split
  · rfl
  · extract_lets o
    split
    · exact State.modCtx_ctx_other _ _ h
    · split
      · exact (State.modCtx_ctx_other _ _ h).trans (s.noteFailure_ctx_other h _ _ _)
      · split
        · rfl
        · exact s.endWork_ctx_other h _ _ _

theorem State.stopCtx_ctx_bound (s : State) (c : CtxNo) (k : StopCause) : ((s.stopCtx c k).ctx c).bound = false :=
  State.unbind_ctx_bound _ c

theorem State.stopCtx_ctx_other (s : State) {c d : CtxNo} (h : d ≠ c) (k : StopCause) : (s.stopCtx c k).ctx d = s.ctx d := by
  unfold State.stopCtx
  extract_lets s₁ x s₂ s₃
  have h₁ : s₁.ctx d = s.ctx d := List.foldlRecOn _ _ (motive := fun t => State.ctx t d = s.ctx d) rfl fun t ht w _ =>
    (t.stopWork_ctx_other h k w.id).trans ht
  have h₂ : s₂.ctx d = s₁.ctx d := by
    unfold s₂
    split
    · exact s₁.disarm_ctx_other h
    · rfl
  have h₃ : s₃.ctx d = s₂.ctx d := by
    unfold s₃
    split
    · rfl
    · split
      · rw [State.modCtx_ctx_other _ _ h, s₂.toState_ctx_other _ h]
      · exact s₂.toState_ctx_other _ h
  rw [s₃.unbind_ctx_other h, h₃, h₂, h₁]

/-- Every context of the list that is stopped is unbound. -/
theorem State.foldl_stopCtx_bound (cs : List CtxNo) (k : StopCause) {s : State} {d : CtxNo} (h : d ∈ cs ∨ (s.ctx d).bound = false) :
    ((cs.foldl (fun t c => t.stopCtx c k) s).ctx d).bound = false := by
  induction cs generalizing s with
  | nil => exact h.resolve_left (List.not_mem_nil)
  | cons c cs ih =>
    refine ih ?_
    by_cases hdc : d = c
    · exact .inr (hdc ▸ s.stopCtx_ctx_bound c k)
    · rw [s.stopCtx_ctx_other hdc]
      exact h.imp_left fun hd => (List.mem_cons.mp hd).resolve_left hdc

end Sys2Proof.Machine

/-! # Proofs: what comes back on a tap (R210 to R212, R215, R232, R446)

What READ_DATA_RETURN, WRITE_DONE and TAP_CREDIT_RETURN do in each of their cases, and a frame table on which a failed write does
not stop its frame. -/
namespace Sys2Proof.Machine

/-! ## READ_DATA_RETURN (R210, R446) -/

/-- Whether beat `half` of slot `slot` is waited for on tap `tap`. -/
def State.awaits (s : State) (tap : Fin 64) (slot : Fin 8192) (half : Bool) : Prop :=
  let q := s.slot (tap.val / 4) slot.val
  q.inFlight = true ∧ q.space ≠ 2 ∧ q.want.getLsbD (b2n half) = true ∧ q.have_.getLsbD (b2n half) = false ∧
    tapOf (tap.val / 4) q.phys = tap.val

/-- What READ_DATA_RETURN tests first: the beat is a stray one. -/
def State.stray (s : State) (tap : Fin 64) (slot : Fin 8192) (half : Bool) : Bool :=
  let q := s.slot (tap.val / 4) slot.val
  !q.inFlight || q.space = 2 || !q.want.getLsbD (b2n half) || q.have_.getLsbD (b2n half) || tapOf (tap.val / 4) q.phys ≠ tap.val

theorem State.stray_iff (s : State) (tap : Fin 64) (slot : Fin 8192) (half : Bool) :
    s.stray tap slot half = true ↔ ¬ s.awaits tap slot half := by
  simp only [State.stray, State.awaits, Bool.or_eq_true, Bool.not_eq_true', decide_eq_true_eq, ← Bool.not_eq_true]
  tauto

theorem State.awaits.not_stray {s : State} {tap : Fin 64} {slot : Fin 8192} {half : Bool} (h : s.awaits tap slot half) :
    ¬ s.stray tap slot half = true := fun hstray => (s.stray_iff tap slot half).mp hstray h

theorem exec_readDataReturn_of_stray {tap : Fin 64} {slot : Fin 8192} {half : Bool} {data : Bytes} {fail : Bool} {s : State}
    (h : ¬ s.awaits tap slot half) : exec (.readDataReturn tap slot half data fail) s = .next (s.tapProtocol tap.val) :=
  congrArg Host.Outcome.next (if_pos ((s.stray_iff tap slot half).mpr h))

/-- A beat that is waited for and is not its slot's last. -/
theorem exec_readDataReturn_of_partial {tap : Fin 64} {slot : Fin 8192} {half : Bool} {data : Bytes} {s : State}
    (h : s.awaits tap slot half)
    (hmore : (s.slot (tap.val / 4) slot.val).have_ ||| BitVec.ofNat 4 (2 ^ b2n half) ≠ (s.slot (tap.val / 4) slot.val).want) :
    exec (.readDataReturn tap slot half data false) s = .next (s.fillSlot (tap.val / 4) slot.val (128 * b2n half)
      (BitVec.ofNat 4 (2 ^ b2n half)) (slice data 0 128)) := by
  refine congrArg Host.Outcome.next ((if_neg h.not_stray).trans ((if_neg Bool.false_ne_true).trans (if_neg ?_)))
  rw [State.fillSlot_slot_same, Slot.filled_not_full hmore]
  simp

/-- A beat that failed. -/
def State.readFails (s : State) (tap : Fin 64) (slot : Fin 8192) (half : Bool) : State :=
  let f := tap.val / 4
  let q := s.slot f slot.val
  (s.setSlotAt f slot.val { q with have_ := q.have_ ||| BitVec.ofNat 4 (2 ^ b2n half) }).busError f tap.val (s.slotBlame q).1 false
    (s.slotBlame q).2 tap.val (firstBeat q.phys q.want) (if q.space = 1 then 1 else 4)

theorem exec_readDataReturn_of_failed {tap : Fin 64} {slot : Fin 8192} {half : Bool} {data : Bytes} {s : State}
    (h : s.awaits tap slot half) : exec (.readDataReturn tap slot half data true) s = .next (s.readFails tap slot half) :=
  congrArg Host.Outcome.next ((if_neg h.not_stray).trans (if_pos rfl))

/-- A beat that is waited for fills its half of its slot. -/
theorem readDataReturn_fills {tap : Fin 64} {slot : Fin 8192} {half : Bool} {data : Bytes} {s : State} (h : s.awaits tap slot half)
    (hmore : (s.slot (tap.val / 4) slot.val).have_ ||| BitVec.ofNat 4 (2 ^ b2n half) ≠ (s.slot (tap.val / 4) slot.val).want) :
    ∃ t, exec (.readDataReturn tap slot half data false) s = .next t ∧
      (t.slot (tap.val / 4) slot.val).have_ = (s.slot (tap.val / 4) slot.val).have_ ||| BitVec.ofNat 4 (2 ^ b2n half) ∧
      (t.slot (tap.val / 4) slot.val).holder = (s.slot (tap.val / 4) slot.val).holder ∧
      (∀ i < 128, (t.slot (tap.val / 4) slot.val).data.get 0 (128 * b2n half + i) = data.getD i 0) ∧
      (∀ i, i < 128 * b2n half ∨ 128 * b2n half + 128 ≤ i →
        (t.slot (tap.val / 4) slot.val).data.get 0 i = (s.slot (tap.val / 4) slot.val).data.get 0 i) ∧
      (∀ n, n ≠ slot.val → t.slot (tap.val / 4) n = s.slot (tap.val / 4) n) ∧
      (∀ g, g ≠ tap.val / 4 → t.frame g = s.frame g) ∧ OnlyChanges [.frames, .faults] s t := by
  refine ⟨_, exec_readDataReturn_of_partial h hmore, ?_, ?_, fun i hi => ?_, fun i hi => ?_,
    fun n hn => State.fillSlot_slot_other _ _ _ _ hn, fun g hg => State.fillSlot_frame_other _ _ _ _ _ hg,
    (State.fillSlot_changes _ _ _ _ _ _).mono (by decide)⟩ <;> rw [State.fillSlot_slot_same]
  · rfl
  · rfl
  · exact Slot.filled_data_inside hi
  · exact Slot.filled_data_outside hi

/-- On a frame table in the canonical form a failed beat raises the frame's source and the frame stops. -/
theorem readDataReturn_failed_stops_of_wf_frames {tap : Fin 64} {slot : Fin 8192} {half : Bool} {data : Bytes} {s : State}
    (hwf : s.frames.wf {} = true) (h : s.awaits tap slot half) :
    ∃ t, exec (.readDataReturn tap slot half data true) s = .next t ∧ t.faults.stat.getLsbD (tap.val / 4) = true ∧
      ((t.frame (tap.val / 4)).stopped = true ∨ (t.frame (tap.val / 4)).draining = true) := by
  refine ⟨_, exec_readDataReturn_of_failed h, State.busError_stat (by omega) _ _ _ _ _ _ _, ?_⟩
  rw [← Bool.or_eq_true]
  exact (State.busError_stops (Store.wf_set _ _ _ _ hwf) _ _ _ _ _ _ _ _).2.1

/-! ## WRITE_DONE (R211, R446) -/

/-- A change of other parts of a frame. -/
theorem State.modFrame_entry {s : State} {f : Nat} {k : Frame → Frame} (hk : (k (s.frame f)).went = (s.frame f).went) (g n : Nat) :
    (s.modFrame f k).entry g n = s.entry g n := by
  by_cases hg : g = f
  · subst hg
    rw [State.entry, State.modFrame_frame_same, hk, State.entry]
  · rw [State.entry, State.modFrame_frame_other _ _ hg, State.entry]

@[simp] theorem State.setEntry_entry_same (s : State) (f n : Nat) (e : WEntry) : (s.setEntry f n e).entry f n = e := by
  rw [State.entry, State.setEntry, State.modFrame_frame_same, Store.get_set_same]

theorem State.setEntry_entry_other (s : State) {f n m : Nat} (e : WEntry) (h : m ≠ n) :
    (s.setEntry f n e).entry f m = s.entry f m := by
  rw [State.entry, State.setEntry, State.modFrame_frame_same, Store.get_set_other _ _ _ h, State.entry]

theorem State.dropFabSlot_entry (s : State) (r : FabReq) (f n : Nat) : (s.dropFabSlot r).entry f n = s.entry f n := by
  unfold State.dropFabSlot
  split
  · exact State.modFrame_entry rfl f n
  · rfl

theorem State.lidCheck_entry (s : State) (c : ChipNo) (g f n : Nat) : (s.lidCheck c g).entry f n = s.entry f n := by
  unfold State.lidCheck
  extract_lets x
  split
  · rfl
  next r _ =>
    split
    · rfl
    · split
      · exact s.dropFabSlot_entry r f n
      · rw [← State.modFrame_entry (s := s) (k := fun y => { y with fab := y.fab ++ [r] }) (f := servingFrame c) rfl f n]
        rfl

/-- A write that landed counts for its descriptor or its group, and takes no other entry. -/
theorem State.writeLanded_entry (s : State) (e : WEntry) (f n : Nat) : (s.writeLanded e).entry f n = s.entry f n := by
  unfold State.writeLanded
  split
  · split <;> rfl
  · unfold State.groupWriteDone
    extract_lets x
    split
    · rfl
    · split
      · rfl
      · exact State.lidCheck_entry _ _ _ f n
  · rfl

theorem State.writeLanded_of_data {s : State} {e : WEntry} {c : CtxNo} {w : Work} (hhold : e.holder = .work c w.id)
    (hwhat : e.what = .data) (hw : (s.ctx c).works = [w]) :
    ((s.writeLanded e).ctx c).works = [{ w with writesOut := w.writesOut - 1 }] := by
  have hland : s.writeLanded e = s.modWork c w.id fun w => { w with writesOut := w.writesOut - 1 } := by
    rw [State.writeLanded, hhold, hwhat]
  rw [hland, State.modWork_head hw, State.setCtx_ctx_same]

theorem exec_writeDone_of_stray {tap : Fin 64} {entry : Fin 4096} {fail : Bool} {s : State}
    (h : (s.entry (tap.val / 4) entry.val).holder = .free ∨ tapOf (tap.val / 4) (s.entry (tap.val / 4) entry.val).addr ≠ tap.val) :
    exec (.writeDone tap entry fail) s = .next (s.tapProtocol tap.val) :=
  congrArg Host.Outcome.next (if_pos (by simpa using h))

theorem exec_writeDone_of_landed {tap : Fin 64} {entry : Fin 4096} {s : State}
    (hheld : (s.entry (tap.val / 4) entry.val).holder ≠ .free)
    (htap : tapOf (tap.val / 4) (s.entry (tap.val / 4) entry.val).addr = tap.val) :
    exec (.writeDone tap entry false) s =
      .next ((s.setEntry (tap.val / 4) entry.val {}).writeLanded (s.entry (tap.val / 4) entry.val)) :=
  congrArg Host.Outcome.next ((if_neg (by simp [hheld, htap])).trans (if_neg Bool.false_ne_true))

/-- The report of a landed write frees its entry and counts for its descriptor. -/
theorem writeDone_frees {tap : Fin 64} {entry : Fin 4096} {s : State} (hheld : (s.entry (tap.val / 4) entry.val).holder ≠ .free)
    (htap : tapOf (tap.val / 4) (s.entry (tap.val / 4) entry.val).addr = tap.val) :
    ∃ t, exec (.writeDone tap entry false) s = .next t ∧ t.entry (tap.val / 4) entry.val = {} ∧
      (∀ n, n ≠ entry.val → t.entry (tap.val / 4) n = s.entry (tap.val / 4) n) ∧
      (∀ c w, (s.entry (tap.val / 4) entry.val).holder = .work c w.id → (s.entry (tap.val / 4) entry.val).what = .data →
        (s.ctx c).works = [w] → (t.ctx c).works = [{ w with writesOut := w.writesOut - 1 }]) := by
  refine ⟨_, exec_writeDone_of_landed hheld htap, ?_, fun n hn => ?_, fun c w hhold hwhat hw => ?_⟩
  · rw [State.writeLanded_entry, State.setEntry_entry_same]
  · rw [State.writeLanded_entry, State.setEntry_entry_other _ _ hn]
  · exact State.writeLanded_of_data hhold hwhat hw

/-- The report of write entry `n` says that it failed. -/
def State.writeFails (s : State) (tap : Fin 64) (n : Nat) : State :=
  let f := tap.val / 4
  let e := s.entry f n
  ((s.setEntry f n {}).busError f tap.val e.blame.1 true e.blame.2 tap.val e.first e.space.toNat).writeFailed e

theorem exec_writeDone_of_failed {tap : Fin 64} {entry : Fin 4096} {s : State}
    (hheld : (s.entry (tap.val / 4) entry.val).holder ≠ .free)
    (htap : tapOf (tap.val / 4) (s.entry (tap.val / 4) entry.val).addr = tap.val) :
    exec (.writeDone tap entry true) s = .next (s.writeFails tap entry.val) :=
  congrArg Host.Outcome.next ((if_neg (by simp [hheld, htap])).trans (if_pos rfl))

/-- On a frame table in the canonical form a failed write frees its entry, raises the frame's source, and the frame stops. -/
theorem writeDone_failed_stops_of_wf_frames {tap : Fin 64} {entry : Fin 4096} {s : State} (hwf : s.frames.wf {} = true)
    (hheld : (s.entry (tap.val / 4) entry.val).holder ≠ .free)
    (htap : tapOf (tap.val / 4) (s.entry (tap.val / 4) entry.val).addr = tap.val) :
    ∃ t, exec (.writeDone tap entry true) s = .next t ∧ t.entry (tap.val / 4) entry.val = {} ∧
      t.faults.stat.getLsbD (tap.val / 4) = true ∧
      ((t.frame (tap.val / 4)).stopped = true ∨ (t.frame (tap.val / 4)).draining = true) := by
  refine ⟨_, exec_writeDone_of_failed hheld htap, ?_⟩
  rw [← Bool.or_eq_true]
  unfold State.writeFails
  extract_lets f e
  have hwf₁ : (s.setEntry f entry.val {}).frames.wf {} = true := Store.wf_set _ _ _ _ hwf
  obtain ⟨hwf₂, hstop, hwent⟩ := State.busError_stops hwf₁ f tap.val e.blame.1 true e.blame.2 tap.val e.first e.space.toNat
  obtain ⟨-, hk⟩ := State.writeFailed_keepsStop _ e hwf₂
  refine ⟨?_, ?_, (hk f).stopping hstop⟩
  · rw [State.entry, (hk f).went, hwent]
    exact State.setEntry_entry_same s f entry.val {}
  · rw [State.writeFailed_faults]
    exact State.busError_stat (by omega) _ _ _ _ _ _ _

/-! ## TAP_CREDIT_RETURN (R215) -/

theorem exec_tapCreditReturn_of_room {tap : Fin 64} {wr : Bool} {s : State}
    (h : (if wr then (s.tap tap.val).wrCr else (s.tap tap.val).rdCr) < tapInit (if wr then s.inp.wrCr else s.inp.rdCr) tap.val) :
    exec (.tapCreditReturn tap wr) s = .next (s.setTap tap.val (if wr then
      { s.tap tap.val with wrCr := (s.tap tap.val).wrCr + 1 } else { s.tap tap.val with rdCr := (s.tap tap.val).rdCr + 1 })) := by
  refine congrArg Host.Outcome.next ((if_neg (Nat.not_le.mpr h)).trans ?_)
  cases wr <;> rfl

theorem exec_tapCreditReturn_of_full {tap : Fin 64} {wr : Bool} {s : State}
    (h : tapInit (if wr then s.inp.wrCr else s.inp.rdCr) tap.val ≤ (if wr then (s.tap tap.val).wrCr else (s.tap tap.val).rdCr)) :
    exec (.tapCreditReturn tap wr) s =
      .next (s.raise { src := 51, mkind := 4, mid := tap.val, sub := b2n wr, addr := tap.val }) :=
  congrArg Host.Outcome.next (if_pos h)

/-- One credit more than granted raises source 51. -/
theorem tapCreditReturn_of_full {tap : Fin 64} {wr : Bool} {s : State}
    (h : tapInit (if wr then s.inp.wrCr else s.inp.rdCr) tap.val ≤ (if wr then (s.tap tap.val).wrCr else (s.tap tap.val).rdCr)) :
    ∃ t, exec (.tapCreditReturn tap wr) s = .next t ∧ t.faults.stat.getLsbD 51 = true ∧ t.taps = s.taps :=
  ⟨_, exec_tapCreditReturn_of_full h, State.raiseWith_stat_self (show 51 < 64 by decide), State.raise_taps _ _⟩

/-! ## The statement over every state -/

/-- Frame 0, which the frame table lists twice: running, with the status write of a descriptor of context 0 in flight, then as
after reset. -/
def twiceListedFrame : State :=
  { State.reset with frames := [(0, { state := .run, went := [(0, { holder := .work 0 1, what := .status })] }), (0, {})] }

/-- Dropping the descriptor's requests rewrites the table from its last entry of each index, so the frame that was to stop is
gone. -/
theorem twiceListedFrame_writeFails_frame : (twiceListedFrame.writeFails 0 0).frame 0 = {} := by decide

/-- Refutes O39: on a frame table that lists an index twice (no table in the canonical form does) a failed write does not stop its
frame: dropping the requests of its descriptor rewrites the table from the last entry of each index. The other clauses, and this
one for a table in the canonical form, are `readDataReturn_fills`, `readDataReturn_failed_stops_of_wf_frames`,
`exec_readDataReturn_of_stray`, `writeDone_frees`, `writeDone_failed_stops_of_wf_frames`, `exec_writeDone_of_stray`,
`exec_tapCreditReturn_of_room` and `tapCreditReturn_of_full`. -/
theorem not_tapReturns : ¬ Obligations.TapReturns := by
  intro h
  obtain ⟨t, ht, -, -, hstops⟩ := (h.2.1 0 0 true twiceListedFrame).2.1 (by decide) (by decide)
  have hexec : exec (.writeDone 0 0 true) twiceListedFrame = .next (twiceListedFrame.writeFails 0 0) :=
    exec_writeDone_of_failed (entry := 0) (by decide) (by decide)
  obtain rfl : twiceListedFrame.writeFails 0 0 = t := Host.Outcome.next.inj (hexec.symm.trans ht)
  rw [show ((0 : Fin 64).val / 4) = 0 from rfl, twiceListedFrame_writeFails_frame] at hstops
  exact absurd hstops (by decide)

end Sys2Proof.Machine

/-! # Proofs: frames that stop, and the forager (R232, R233, R245, R446)

What UNTAGGED_FAIL, RESPONSE_LOST_TIMEOUT, FRAME_STOP_DRAIN_END and FORAGER_WALK do in each of their cases, and a frame table on
which a drained frame does not stay stopped. -/
namespace Sys2Proof.Machine

/-! ## UNTAGGED_FAIL (R232, R446) -/

theorem Frame.halting_stopped (x : Frame) (cause : StopCause) : (x.halting cause).stopped = x.stopped := by
  rw [Frame.halting]
  split <;> rfl

theorem Frame.halting_draining {x : Frame} (h : x.stopped = false) (cause : StopCause) : (x.halting cause).draining = true := by
  have hstop := x.halting_stopping cause
  rwa [Frame.stopping, Frame.halting_stopped, h, Bool.false_or] at hstop

theorem State.stopAllFrames_frame_stopped (s : State) (f : Nat) : (s.stopAllFrames.frame f).stopped = (s.frame f).stopped := by
  refine List.foldlRecOn frameNos _ (motive := fun t => (State.frame t f).stopped = (s.frame f).stopped) rfl fun t ht g _ => ?_
  by_cases hfg : f = g
  · subst hfg
    rw [State.modFrame_frame_same, ← ht]
    exact Frame.halting_stopped _ _
  · rw [State.modFrame_frame_other _ _ hfg, ht]

/-- A raising stops no frame at once. -/
theorem State.raise_frame_stopped (s : State) (c : FaultCap) (f : Nat) : ((s.raise c).frame f).stopped = (s.frame f).stopped := by
  obtain ⟨t, ht, h | h⟩ := s.raiseWith_halts c none false <;> rw [State.raise, h]
  · rw [State.frame_congr ht]
  · rw [State.stopAllFrames_frame_stopped, State.frame_congr ht]

/-- An error that names no request stops the frame. -/
theorem untaggedFail_stops {tap : Fin 64} {s : State} (h : (s.frame (tap.val / 4)).stopped = false) :
    ∃ t, exec (.untaggedFail tap) s = .next t ∧ (t.frame (tap.val / 4)).draining = true ∧
      t.faults.stat.getLsbD (tap.val / 4) = true := by
  refine ⟨s.busError (tap.val / 4) tap.val {} false 0 tap.val 0 7, rfl, ?_, State.busError_stat (by omega) _ _ _ _ _ _ _⟩
  rw [State.busError]
  refine (congrArg Frame.draining (State.modFrame_frame_same _ _ _)).trans ?_
  exact Frame.halting_draining ((s.raise_frame_stopped _ _).trans h) _

/-! ## RESPONSE_LOST_TIMEOUT (R232, R446) -/

theorem Store.mem_set {α : Type} [DecidableEq α] {d : α} {m : Store α} {i : Nat} {v : α} {e : Nat × α} (h : e ∈ m.set d i v) :
    e = (i, v) ∨ e ∈ m := by
  unfold Store.set at h
  split at h
  · exact .inr (Store.mem_erase h)
  · exact Store.mem_insert h

theorem Store.forall_mem_mapAll {α : Type} [DecidableEq α] {p : α → Prop} (d : α) {f : Nat → α → α} (hf : ∀ i v, p (f i v))
    (m : Store α) :
    ∀ e : Nat × α, e ∈ m.mapAll d f → p e.2 := by
  refine List.foldlRecOn m _ (motive := fun acc => ∀ e : Nat × α, e ∈ acc → p e.2) (by simp) fun acc hacc a _ e he => ?_
  obtain rfl | he := Store.mem_set he
  · exact hf _ _
  · exact hacc e he

theorem Store.forall_get_mapAll {α : Type} [DecidableEq α] {p : α → Prop} {d : α} (hd : p d) {f : Nat → α → α}
    (hf : ∀ i v, p (f i v)) (m : Store α) (i : Nat) : p ((m.mapAll d f).get d i) := by
  refine List.foldlRecOn m _ (motive := fun acc => p (Store.get d acc i)) hd fun acc hacc a _ => ?_
  rw [Store.get_set]
  split
  · exact hf _ _
  · exact hacc

/-- A slot whose missing beats are taken as lost. -/
def Slot.givenUp (q : Slot) : Slot := if q.inFlight then { q with have_ := q.want } else q

theorem Slot.givenUp_not_inFlight (q : Slot) : q.givenUp.inFlight = false := by
  unfold Slot.givenUp
  split
  · simp [Slot.inFlight]
  next h => simpa using h

theorem Slot.release_not_inFlight (q : Slot) : q.release.inFlight = false := rfl

/-- A frame that is to stop and waits for no response. -/
def Frame.Drains (x : Frame) : Prop := x.drained = true ∧ x.draining = true

theorem Frame.drained_iff (x : Frame) : x.drained = true ↔ x.went = [] ∧ ∀ e ∈ x.slots, e.2.inFlight = false := by
  simp [Frame.drained]

/-- A slot that is given back is waited for no longer. -/
theorem State.FreesSlot.drains {s t : State} {f : Nat} (h : State.FreesSlot s t) (hs : (s.frame f).Drains) : (t.frame f).Drains := by
  obtain h | ⟨g, n, h⟩ := h <;> rw [State.frame_congr h]
  · exact hs
  · by_cases hfg : f = g
    · subst hfg
      rw [Frame.Drains, Frame.drained_iff] at hs ⊢
      obtain ⟨⟨hwent, hslots⟩, hdrain⟩ := hs
      rw [State.setSlotAt, State.modFrame_frame_same]
      refine ⟨⟨hwent, fun e he => ?_⟩, hdrain⟩
      obtain rfl | he := Store.mem_set he
      · exact Slot.release_not_inFlight _
      · exact hslots e he
    · rwa [State.setSlotAt_frame_other _ _ _ hfg]

theorem State.writeLost_of_fabric (s : State) {e : WEntry} {chip : ChipNo} {tag : BitVec 16} (h : e.holder = .fabric chip tag) :
    State.FreesSlot s (s.writeLost e) := by
  rw [State.writeLost, h]
  dsimp only
  rw [State.writeFailed, h]
  exact s.refuseReq_six_freesSlot _ _

theorem State.writeLost_of_not_fabric (s : State) {e : WEntry} (h : ∀ chip tag, e.holder ≠ .fabric chip tag) :
    (s.writeLost e).frames = s.frames := by
  have hlanded : s.writeLost e = s.writeLanded e := by
    cases hhold : e.holder with
    | fabric chip tag => exact absurd hhold (h chip tag)
    | _ => rw [State.writeLost, hhold]
  rw [hlanded]
  unfold State.writeLanded
  split
  · split <;> rfl
  next chip tag hhold => exact absurd hhold (h chip tag)
  · rfl

/-- A port once the scratchpad reads of frame `f` are given up. -/
def Port.dropFetches (q : Port) (f : Nat) : Port := { q with fetFly := q.fetFly.filter fun r => r.frame ≠ f }

theorem Port.frame_ne_of_mem_dropFetches {q : Port} {f : Nat} {r : Fetch} (h : r ∈ (q.dropFetches f).fetFly) : r.frame ≠ f := by
  simpa using (List.mem_filter.mp h).2

/-- The responses that frame `f` still waits for are taken as lost. -/
def State.lostTaken (s : State) (f : Nat) : State :=
  (s.frame f).went.foldl (fun t e => t.writeLost e.2)
    (s.modFrame f fun x => { x with went := [], slots := x.slots.mapAll {} fun _ q => q.givenUp })

theorem exec_responseLostTimeout_of_draining {f : Fin 16} {s : State} (h : (s.frame f.val).draining = true) :
    exec (.responseLostTimeout f) s = .next (let t := s.lostTaken f.val
      { t with ports := t.ports.mapAll {} fun _ q => q.dropFetches f.val }) :=
  congrArg Host.Outcome.next (if_neg (by simp [h]))

theorem State.lostTaken_drains {s : State} {f : Nat} (h : (s.frame f).draining = true) : ((s.lostTaken f).frame f).Drains := by
  refine List.foldlRecOn _ _ (motive := fun t => (State.frame t f).Drains) ?_ fun t ht e _ => ?_
  · rw [State.modFrame_frame_same, Frame.Drains, Frame.drained_iff]
    exact ⟨⟨rfl, Store.forall_mem_mapAll (p := fun q : Slot => q.inFlight = false) {} (fun _ q => q.givenUp_not_inFlight) _⟩, h⟩
  · by_cases hfab : ∃ chip tag, e.2.holder = .fabric chip tag
    · obtain ⟨chip, tag, hhold⟩ := hfab
      exact (t.writeLost_of_fabric hhold).drains ht
    · rwa [State.frame_congr (t.writeLost_of_not_fabric fun chip tag hhold => hfab ⟨chip, tag, hhold⟩)]

theorem State.lostTaken_frame_other {s : State} {f g : Nat} (hg : g ≠ f)
    (h : ∀ e ∈ (s.frame f).went, ∀ chip tag, e.2.holder ≠ .fabric chip tag) : (s.lostTaken f).frame g = s.frame g := by
  refine List.foldlRecOn _ _ (motive := fun t => State.frame t g = s.frame g) (State.modFrame_frame_other _ _ hg) fun t ht e he => ?_
  rw [State.frame_congr (t.writeLost_of_not_fabric (h e he)), ht]

/-- Lost responses are given up: the frame is drained, and no scratchpad read of it is in flight. -/
theorem responseLostTimeout_drains {f : Fin 16} {s : State} (h : (s.frame f.val).draining = true) :
    ∃ t, exec (.responseLostTimeout f) s = .next t ∧ (t.frame f.val).drained = true ∧ (t.frame f.val).draining = true ∧
      ((∀ e ∈ (s.frame f.val).went, ∀ d tag, e.2.holder ≠ .fabric d tag) → ∀ g, g ≠ f.val → t.frame g = s.frame g) ∧
      (∀ p, ∀ r ∈ (t.port p).fetFly, r.frame ≠ f.val) := by
  obtain ⟨hdone, hdrain⟩ := State.lostTaken_drains h
  have hports (p : Nat) : ∀ r ∈ (((s.lostTaken f.val).ports.mapAll {} fun _ q => q.dropFetches f.val).get {} p).fetFly,
      r.frame ≠ f.val :=
    Store.forall_get_mapAll (p := fun q : Port => ∀ r ∈ q.fetFly, r.frame ≠ f.val) (by simp)
      (fun _ _ _ => Port.frame_ne_of_mem_dropFetches) _ p
  exact ⟨_, exec_responseLostTimeout_of_draining h, hdone, hdrain, fun hfab g hg => State.lostTaken_frame_other hg hfab, hports⟩

/-! ## FRAME_STOP_DRAIN_END (R232, R233) -/

theorem exec_frameStopDrainEnd_of_drained {f : Fin 16} {s : State} (hdrain : (s.frame f.val).draining = true)
    (hdone : (s.frame f.val).drained = true) : exec (.frameStopDrainEnd f) s = .next (s.frameStopped f.val) :=
  congrArg Host.Outcome.next (if_pos (by simp [hdrain, hdone]))

theorem exec_frameStopDrainEnd_of_not_drained {f : Fin 16} {s : State} (h : (s.frame f.val).drained = false) :
    exec (.frameStopDrainEnd f) s = .next s :=
  congrArg Host.Outcome.next (if_neg (by simp [h]))

/-- A frame that is stopped, with its pantry zeroised and no request of a partner. -/
def Frame.Stopped (x : Frame) : Prop := x.stopped = true ∧ x.draining = false ∧ x.slots = [] ∧ x.fab = []

theorem Frame.StaysStopped.stopped {x y : Frame} (h : x.StaysStopped y) (hx : x.Stopped) : y.Stopped := by
  obtain ⟨hstop, hdrain, hslots, hfab⟩ := hx
  obtain ⟨hstop', hdrain'⟩ := h.1.stopped hstop
  exact ⟨hstop', hdrain'.trans hdrain, h.2 hslots, h.1.fab.trans hfab⟩

/-- The partner requests of the frame are refused: none is left, and the frame table keeps the canonical form. -/
theorem State.refuseFrame_of_wf {s : State} (hwf : s.frames.wf {} = true) (f : Nat) :
    (s.refuseFrame f).frames.wf {} = true ∧ ((s.refuseFrame f).frame f).fab = [] := by
  have hr := Frame.keepsStop_steady
  unfold State.refuseFrame
  extract_lets fab reads lids s₁ s₂ s₃
  have hrefuse {α : Type} (l : List α) (m : α → Msg) (freed : α → Bool) (t : State) :
      State.FramesVia Frame.KeepsStop t (l.foldl (fun u a => u.refuseReq (m a) 6 (freed a)) t) :=
    .foldl hr l fun u a _ => (u.refuseReq_six_freesSlot _ _).keepsStop
  have hall : State.FramesVia Frame.KeepsStop s₁ (lids.foldl (fun t m => t.refuseReq m 6 true) s₃) :=
    .trans hr (.trans hr (hrefuse fab FabReq.msg _ s₁) (hrefuse reads id _ s₂)) (hrefuse lids id _ s₃)
  obtain ⟨hwf', hk⟩ := hall (Store.wf_set _ _ _ _ hwf)
  refine ⟨hwf', (hk f).fab.trans ?_⟩
  rw [State.modFrame_frame_same]

/-- On a frame table in the canonical form the stop of a drained frame ends: it is stopped, its pantry zeroised, nothing bound to
it and no walk left. -/
theorem State.frameStopped_of_wf {s : State} (hwf : s.frames.wf {} = true) (f : Nat) :
    ((s.frameStopped f).frame f).Stopped ∧ (∀ c ∈ s.ctxsIn f, ((s.frameStopped f).ctx c).bound = false) ∧
      ∀ w ∈ (s.frameStopped f).xlate.walks, w.frame ≠ f := by
  have hr := Frame.staysStopped_steady
  unfold State.frameStopped
  extract_lets k cs svc lost s₁ s₂ s₃ s₄ s₅ move s₆
  obtain ⟨hwf₁, hfab⟩ := State.refuseFrame_of_wf hwf f
  have hwf₂ : s₂.frames.wf {} = true := Store.wf_set _ _ _ _ hwf₁
  have hstop : (s₂.frame f).Stopped := by
    rw [State.modFrame_frame_same]
    exact ⟨rfl, rfl, rfl, hfab⟩
  have h₃ : OnlyChanges [.ctxs] s₂ s₃ := .foldl _ (fun _ _ => State.modCtx_changes _ _ _) _ _ (.refl _ _)
  have h₅ : OnlyChanges [.ctxs, .xlate, .spine, .ports] s₂ s₅ :=
    ((h₃.mono (by decide)).step (s₃.modXlate_changes _) (by decide)).step (s₄.dropSpine_changes f) (by decide)
  have h₆ : OnlyChanges [.frames] s₅ s₆ ∧ State.FramesVia Frame.StaysStopped s₅ s₆ := by
    unfold s₆
    split
    · exact ⟨State.modFrame_changes _ _ _, .modFrame hr ⟨.of_service rfl, id⟩⟩
    · exact ⟨State.modFrame_changes _ _ _, .modFrame hr ⟨.of_service rfl, id⟩⟩
  have hends : State.FramesVia Frame.StaysStopped s₆ (cs.foldl (fun t c => t.stopCtx c k) s₆) :=
    .foldl hr cs fun t c _ => t.stopCtx_staysStopped c k
  obtain ⟨-, hk⟩ := State.FramesVia.trans hr (.trans hr (.of_changes hr h₅ (by decide)) h₆.2) hends hwf₂
  refine ⟨(hk f).stopped hstop, fun c hc => State.foldl_stopCtx_bound cs k (.inl hc), fun w hw => ?_⟩
  have hx : (cs.foldl (fun t c => t.stopCtx c k) s₆).xlate = s₄.xlate := by
    have h : OnlyChanges [.chans, .tally, .ctxs, .readyQ, .frames, .fabric, .recd] s₆ (cs.foldl (fun t c => t.stopCtx c k) s₆) :=
      .foldl _ (fun t c => t.stopCtx_changes c k) _ _ (.refl _ _)
    have hmove : s₆.xlate = s₅.xlate := h₆.1 .xlate (by decide)
    have hspine : s₅.xlate = s₄.xlate := s₄.dropSpine_changes f .xlate (by decide)
    exact Eq.trans (h .xlate (by decide)) (hmove.trans hspine)
  rw [hx] at hw
  simpa using (List.mem_filter.mp hw).2

theorem frameStopDrainEnd_stops_of_wf_frames {f : Fin 16} {s : State} (hwf : s.frames.wf {} = true)
    (hdrain : (s.frame f.val).draining = true) (hdone : (s.frame f.val).drained = true) :
    ∃ t, exec (.frameStopDrainEnd f) s = .next t ∧ (t.frame f.val).stopped = true ∧ (t.frame f.val).draining = false ∧
      (t.frame f.val).slots = [] ∧ (t.frame f.val).fab = [] ∧ (∀ c ∈ s.ctxsIn f.val, (t.ctx c).bound = false) ∧
      ∀ w ∈ t.xlate.walks, w.frame ≠ f.val := by
  obtain ⟨⟨hstop, hnot, hslots, hfab⟩, hbound, hwalks⟩ := State.frameStopped_of_wf hwf f.val
  exact ⟨_, exec_frameStopDrainEnd_of_drained hdrain hdone, hstop, hnot, hslots, hfab, hbound, hwalks⟩

/-! ## FORAGER_WALK (R245, R246) -/

/-- A walk seeks the page of an address. -/
def State.sought (s : State) (root : XRoot) (va : Nat) : Bool :=
  s.xlate.walks.any fun w => w.root == root && decide (w.va >>> 25 = va >>> 25)

/-- What the forager would walk for one of the pages of context `c`'s coming work. -/
def State.foragerNeed (s : State) (c : CtxNo) (f : Nat) (p : KsetNo × Nat) : Option (XRoot × Nat) :=
  (s.xroot (s.ctx c) p.1).bind fun root =>
    if p.2 < 2 ^ 57 && (s.lookup f root p.2).isNone && !s.sought root p.2 then some (root, p.2) else none

/-- A page outside the translated range, held by a buffer, or sought by a walk. -/
def State.foragerHeld (s : State) (c : CtxNo) (f : Nat) (p : KsetNo × Nat) : Prop :=
  ∀ root, s.xroot (s.ctx c) p.1 = some root → 2 ^ 57 ≤ p.2 ∨ (s.lookup f root p.2).isSome = true ∨ s.sought root p.2 = true

theorem State.foragerNeed_eq_none_iff (s : State) (c : CtxNo) (f : Nat) (p : KsetNo × Nat) :
    s.foragerNeed c f p = none ↔ s.foragerHeld c f p := by
  unfold State.foragerNeed State.foragerHeld
  cases s.xroot (s.ctx c) p.1 with
  | none => simp
  | some root =>
    rw [Option.bind_some, ite_eq_right_iff]
    simp only [Option.some.injEq, forall_eq', reduceCtorEq, imp_false, Bool.and_eq_true, decide_eq_true_eq, Bool.not_eq_true',
      Option.isNone_iff_eq_none, Option.isSome_iff_ne_none, ← Nat.not_lt, ← Bool.not_eq_true]
    tauto

theorem State.foragerNeed_of_not_held {s : State} {c : CtxNo} {f : Nat} {p : KsetNo × Nat} {root : XRoot}
    (hp : ¬ s.foragerHeld c f p) (hroot : s.xroot (s.ctx c) p.1 = some root) : s.foragerNeed c f p = some (root, p.2) := by
  rw [← State.foragerNeed_eq_none_iff, State.foragerNeed, hroot, Option.bind_some] at hp
  rw [State.foragerNeed, hroot, Option.bind_some]
  split at hp
  next h => rw [if_pos h]
  next => exact absurd rfl hp

section
variable {ch : Fin 1024} {c : CtxNo} {s : State} (hctx : (s.chan ch.val).ctx = some c)
  (hmoves : s.moving c (chanFrame ch.val) = true)
  (hroom : (s.xlate.walks.filter fun w => w.frame = chanFrame ch.val && w.why == .forager).length < 16)
include hctx hmoves hroom

theorem exec_foragerWalk_of_none (h : (s.foragerPages c).findSome? (s.foragerNeed c (chanFrame ch.val)) = none) :
    exec (.foragerWalk ch) s = .next s := by
  show execForagerWalk ch s = _
  unfold State.foragerNeed State.sought at h
  simp only [execForagerWalk, hctx, hmoves, Nat.not_le.mpr hroom, h]
  rfl

theorem exec_foragerWalk_of_some {root : XRoot} {va : Nat} {t : State}
    (h : (s.foragerPages c).findSome? (s.foragerNeed c (chanFrame ch.val)) = some (root, va))
    (ht : s.startWalk (chanFrame ch.val) root va .forager = some t) : exec (.foragerWalk ch) s = .next t := by
  show execForagerWalk ch s = _
  unfold State.foragerNeed State.sought at h
  simp only [execForagerWalk, hctx, hmoves, Nat.not_le.mpr hroom, h, ht]
  rfl

theorem foragerWalk_of_all_held (h : ∀ p ∈ s.foragerPages c, s.foragerHeld c (chanFrame ch.val) p) :
    exec (.foragerWalk ch) s = .next s :=
  exec_foragerWalk_of_none hctx hmoves hroom
    (List.findSome?_eq_none_iff.mpr fun p hp => (s.foragerNeed_eq_none_iff c _ p).mpr (h p hp))

/-- The forager starts a walk for the first page that no buffer holds. -/
theorem foragerWalk_walks_first {before after : List (KsetNo × Nat)} {p : KsetNo × Nat} {root : XRoot} {r : Nat × Nat}
    (hpages : s.foragerPages c = before ++ p :: after) (hbefore : ∀ q ∈ before, s.foragerHeld c (chanFrame ch.val) q)
    (hp : ¬ s.foragerHeld c (chanFrame ch.val) p) (hroot : s.xroot (s.ctx c) p.1 = some root) (hr : s.rootTable root = some r) :
    ∃ t, exec (.foragerWalk ch) s = .next t ∧
      t.xlate = { s.xlate with walks := s.xlate.walks ++ [⟨s.nextId, chanFrame ch.val, root, p.2, r.1, r.2, .forager, false⟩] } ∧
      (t.frame (chanFrame ch.val)).svc = (s.frame (chanFrame ch.val)).svc ++ [.walk s.nextId] ∧
      OnlyChanges [.frames, .xlate, .nextId] s t := by
  have hfirst : (s.foragerPages c).findSome? (s.foragerNeed c (chanFrame ch.val)) = some (root, p.2) := by
    rw [hpages, List.findSome?_append, List.findSome?_cons, State.foragerNeed_of_not_held hp hroot,
      List.findSome?_eq_none_iff.mpr fun q hq => (s.foragerNeed_eq_none_iff c _ q).mpr (hbefore q hq)]
    rfl
  have hexec := exec_foragerWalk_of_some hctx hmoves hroom hfirst (congrArg (Option.map _) hr)
  refine ⟨_, hexec, rfl, ?_, next_changes hexec⟩
  rw [State.modFrame_frame_same]
  rfl

end

/-! ## The statement over every state -/

/-- Frame 0, which the frame table lists twice: drained, with a copy of context 0 bound to it, then as after reset. -/
def twiceListedStop : State :=
  { State.reset with
    frames := [(0, { state := .run, draining := true }), (0, {})]
    chans := [(0, { ctx := some 0 })]
    ctxs := [(0, { state := .running, bound := true, works := [State.reset.newWork 0 {} 0 1 0 (zeros 128) []] })] }

/-- Ending the copy rewrites the table from its last entry of each index, so the frame that was to be stopped is gone. -/
theorem twiceListedStop_frameStopped_frame : (twiceListedStop.frameStopped 0).frame 0 = {} := by decide

/-- Refutes O40: on a frame table that lists an index twice (no table in the canonical form does) the frame whose drain ends is not
stopped: ending its descriptors rewrites the table from the last entry of each index. The other clauses, and this one for a table
in the canonical form, are `untaggedFail_stops`, `responseLostTimeout_drains`, `frameStopDrainEnd_stops_of_wf_frames`,
`exec_frameStopDrainEnd_of_not_drained`, `foragerWalk_of_all_held` and `foragerWalk_walks_first`. -/
theorem not_frameStopsAndForages : ¬ Obligations.FrameStopsAndForages := by
  intro h
  have hdrain : (twiceListedStop.frame 0).draining = true := rfl
  have hdone : (twiceListedStop.frame 0).drained = true := rfl
  obtain ⟨t, ht, hstopped, -⟩ := (h.2.1 0 twiceListedStop hdrain).2.1 hdone
  have hexec : exec (.frameStopDrainEnd 0) twiceListedStop = .next (twiceListedStop.frameStopped 0) :=
    exec_frameStopDrainEnd_of_drained (f := 0) hdrain hdone
  obtain rfl : twiceListedStop.frameStopped 0 = t := Host.Outcome.next.inj (hexec.symm.trans ht)
  rw [Fin.val_zero, twiceListedStop_frameStopped_frame] at hstopped
  exact absurd hstopped (by decide)

end Sys2Proof.Machine

/-! # Proofs: what sending and settling leave of the links (R262, R274, R280) -/
namespace Sys2Proof.Machine

/-! ## A link apart from its send queues and the account of its receive buffer -/

/-- A link without its send queues and the account of its receive buffer: what sending a message, or one that leaves the receive
buffer, does not touch. -/
def Link.core (x : Link) : Link := { x with txq := [], rxBuf := [], rxFree := [], rxOwe := 0 }

/-- Every link keeps what `f` reads of it. -/
def State.KeepsLinks {α : Type} (f : Link → α) (s t : State) : Prop := ∀ k, f (t.link k) = f (s.link k)

/-- Every link keeps all but its send queues and the account of its receive buffer. -/
abbrev State.KeepsCore (s t : State) : Prop := s.KeepsLinks Link.core t

/-- A message queued for a link is queued there still. -/
def State.KeepsQueued (s t : State) : Prop := ∀ k c m, m ∈ (s.link k).txq.get [] c → m ∈ (t.link k).txq.get [] c

namespace State.KeepsLinks
variable {α : Type} {f : Link → α} {s t u : State}

theorem refl (s : State) : s.KeepsLinks f s := fun _ => rfl

theorem trans (h : s.KeepsLinks f t) (h' : t.KeepsLinks f u) : s.KeepsLinks f u := fun k => (h' k).trans (h k)

theorem of_changes {ps : List Part} (h : OnlyChanges ps s t) (hp : .fabric ∉ ps) : s.KeepsLinks f t :=
  fun k => congrArg f (h.link_eq hp k)

theorem of_links_eq (h : t.fabric.links = s.fabric.links) : s.KeepsLinks f t :=
  fun k => by rw [State.link, State.link, h]

theorem ite {c : Prop} [Decidable c] (h : s.KeepsLinks f t) (h' : s.KeepsLinks f u) : s.KeepsLinks f (if c then t else u) := by
  split <;> assumption

theorem foldl {β : Type} {g : State → β → State} (hg : ∀ (t : State) a, t.KeepsLinks f (g t a)) (l : List β) (s : State) :
    s.KeepsLinks f (l.foldl g s) := by
  induction l generalizing s with
  | nil => exact refl s
  | cons a r ih => exact (hg s a).trans (ih _)

/-- One link replaced by one of which `f` reads the same. -/
theorem setLink (s : State) (l : Nat) {x : Link} (hx : f x = f (s.link l)) : s.KeepsLinks f (s.setLink l x) := fun k => by
  rcases eq_or_ne k l with rfl | hk
  · rw [s.setLink_link_same, hx]
  · rw [s.setLink_link_other x hk]

theorem modLink (s : State) (l : Nat) {g : Link → Link} (hg : ∀ x, f (g x) = f x) : s.KeepsLinks f (s.modLink l g) :=
  setLink s l (hg _)

end State.KeepsLinks

namespace State.KeepsCore
variable {s t : State}

theorem rxq (h : s.KeepsCore t) (k : Nat) : (t.link k).rxq = (s.link k).rxq := congrArg (·.rxq) (h k)

theorem state (h : s.KeepsCore t) (k : Nat) : (t.link k).state = (s.link k).state := congrArg (·.state) (h k)

end State.KeepsCore

namespace State.KeepsQueued
variable {s t u : State}

theorem refl (s : State) : s.KeepsQueued s := fun _ _ _ h => h

theorem trans (h : s.KeepsQueued t) (h' : t.KeepsQueued u) : s.KeepsQueued u := fun k c m hm => h' k c m (h k c m hm)

theorem of_link_eq (h : ∀ k, (t.link k).txq = (s.link k).txq) : s.KeepsQueued t := fun k c m hm => by rwa [h k]

theorem of_changes {ps : List Part} (h : OnlyChanges ps s t) (hp : .fabric ∉ ps) : s.KeepsQueued t :=
  of_link_eq fun k => congrArg Link.txq (h.link_eq hp k)

theorem foldl {α : Type} {f : State → α → State} (hf : ∀ (t : State) a, t.KeepsQueued (f t a)) (l : List α) (s : State) :
    s.KeepsQueued (l.foldl f s) := by
  induction l generalizing s with
  | nil => exact refl s
  | cons a r ih => exact (hf s a).trans (ih _)

end State.KeepsQueued

theorem State.modLink_keepsQueued (s : State) (l : Nat) {f : Link → Link} (hf : ∀ x c m, m ∈ x.txq.get [] c → m ∈ (f x).txq.get [] c) :
    s.KeepsQueued (s.modLink l f) := fun k c m hm => by
  rcases eq_or_ne k l with rfl | hk
  · rw [s.modLink_link_same]; exact hf _ c m hm
  · rwa [s.modLink_link_other f hk]

theorem Link.mem_queue_of_mem (x : Link) (d c : Nat) (n m : Msg) (h : m ∈ x.txq.get [] c) : m ∈ (x.queue d n).txq.get [] c := by
  rcases eq_or_ne c d with rfl | hc
  · simp [Link.queue, h]
  · simpa [Link.queue, Store.get_set_other _ _ _ hc] using h

theorem Link.mem_queue (x : Link) (c : Nat) (m : Msg) : m ∈ (x.queue c m).txq.get [] c := by simp [Link.queue]

/-! ## Sending -/

theorem State.nextLink_keepsCore (s : State) (d : ChipNo) (set : List Nat) : s.KeepsCore (s.nextLink d set).2 := fun _ => rfl

theorem State.nextLink_keepsQueued (s : State) (d : ChipNo) (set : List Nat) : s.KeepsQueued (s.nextLink d set).2 := fun _ _ _ h => h

theorem State.sendMsg_keepsCore (s : State) (m : Msg) : s.KeepsCore (s.sendMsg m) := by
  unfold State.sendMsg
  extract_lets set p
  exact .ite (.refl s) ((s.nextLink_keepsCore _ _).trans (.modLink p.2 _ fun _ => rfl))

theorem State.sendMsg_keepsQueued (s : State) (m : Msg) : s.KeepsQueued (s.sendMsg m) := by
  unfold State.sendMsg
  extract_lets set p
  split
  · exact .refl s
  · exact (s.nextLink_keepsQueued _ _).trans (p.2.modLink_keepsQueued _ fun x c n => x.mem_queue_of_mem _ c m n)

/-- Sending touches the links and the turns of the routes alone. -/
theorem State.sendMsg_fabric (s : State) (m : Msg) :
    ∃ ls rr, s.sendMsg m = { s with fabric := { s.fabric with links := ls, rr := rr } } := by
  unfold State.sendMsg
  extract_lets set p
  split
  · exact ⟨s.fabric.links, s.fabric.rr, rfl⟩
  · exact ⟨_, _, rfl⟩

@[simp] theorem State.sendMsg_partner (s : State) (m : Msg) (c : ChipNo) : (s.sendMsg m).partner c = s.partner c := by
  obtain ⟨ls, rr, h⟩ := s.sendMsg_fabric m
  rw [h]; rfl

@[simp] theorem State.sendMsg_rxGroup (s : State) (m : Msg) (c : ChipNo) (g : Nat) : (s.sendMsg m).rxGroup c g = s.rxGroup c g := by
  obtain ⟨ls, rr, h⟩ := s.sendMsg_fabric m
  rw [h]; rfl

@[simp] theorem State.answer_rxGroup (s : State) (m : Msg) (op : BitVec 5) (w : Nat) (d : Bytes) (c : ChipNo) (g : Nat) :
    (s.answer m op w d).rxGroup c g = s.rxGroup c g := s.sendMsg_rxGroup _ c g

@[simp] theorem State.answer_partner (s : State) (m : Msg) (op : BitVec 5) (w : Nat) (d : Bytes) (c : ChipNo) :
    (s.answer m op w d).partner c = s.partner c := s.sendMsg_partner _ c

/-- The route to a chip is read off what sending leaves of the links. -/
theorem State.KeepsCore.routeSet {s t : State} (h : s.KeepsCore t) (hinp : t.inp = s.inp) (d : ChipNo) :
    t.routeSet d = s.routeSet d := by
  have hstate k : (t.link k).state = (s.link k).state := h.state k
  have hpartner k : (t.link k).partner = (s.link k).partner := congrArg (·.partner) (h k)
  have hneigh k : (t.link k).neigh = (s.link k).neigh :=
    show (t.link k).core.neigh = (s.link k).core.neigh by rw [h k]
  have hdirect : t.directSet d = s.directSet d := by simp only [State.directSet, hstate, hpartner]
  have hvia : t.viaSet d = s.viaSet d := by simp only [State.viaSet, hstate, hneigh]
  rw [State.routeSet, State.routeSet, hdirect, hvia, hinp]

/-- A message that only one link can take lies in that link's queue of its class. -/
theorem State.mem_txq_sendMsg (s : State) (m : Msg) {q : Nat} (hq : s.routeSet m.dst = [q])
    (hopen : (s.faults.halted && msgClass m.op != 0 && m.op != opRefuse) = false) :
    m ∈ ((s.sendMsg m).link q).txq.get [] (msgClass m.op) := by
  have hlink : (s.nextLink m.dst [q]).1 = q := by simp [State.nextLink, Nat.mod_one]
  have hsend : ¬ ([q] = [] ∨ (s.faults.halted && msgClass m.op != 0 && m.op != opRefuse) = true) := by simp [hopen]
  unfold State.sendMsg
  rw [hq]
  dsimp only
  rw [if_neg (by simpa using hsend), hlink, State.modLink_link_same]
  exact Link.mem_queue _ _ _

theorem State.answer_keepsCore (s : State) (m : Msg) (op : BitVec 5) (w : Nat) (d : Bytes) : s.KeepsCore (s.answer m op w d) :=
  s.sendMsg_keepsCore _

/-! ## Settling a receive buffer -/

theorem Link.freeFlit_core (x : Link) (c : Nat) : (x.freeFlit c).core = x.core := rfl

theorem Link.freeFlit_txq (x : Link) (c : Nat) : (x.freeFlit c).txq = x.txq := rfl

theorem Link.bufStep_core (f : Nat → Bool) (x : Link) (e : BufFlit) : (x.bufStep f e).core = x.core := by
  unfold Link.bufStep
  split
  · rfl
  · split <;> split <;> rfl

theorem Link.bufStep_txq (f : Nat → Bool) (x : Link) (e : BufFlit) : (x.bufStep f e).txq = x.txq := by
  unfold Link.bufStep
  split
  · rfl
  · split <;> split <;> rfl

theorem Link.foldl_bufStep_core (f : Nat → Bool) (es : List BufFlit) (x : Link) : (es.foldl (Link.bufStep f) x).core = x.core := by
  induction es generalizing x with
  | nil => rfl
  | cons e r ih => exact (ih _).trans (x.bufStep_core f e)

theorem Link.foldl_bufStep_txq (f : Nat → Bool) (es : List BufFlit) (x : Link) : (es.foldl (Link.bufStep f) x).txq = x.txq := by
  induction es generalizing x with
  | nil => rfl
  | cons e r ih => exact (ih _).trans (x.bufStep_txq f e)

theorem State.bufSettle_keepsCore (s : State) (l : Nat) : s.KeepsCore (s.bufSettle l) := by
  unfold State.bufSettle
  extract_lets x
  exact .ite (.refl s) (.setLink s l (Link.foldl_bufStep_core _ _ _))

theorem State.bufSettle_txq (s : State) (l k : Nat) : ((s.bufSettle l).link k).txq = (s.link k).txq := by
  unfold State.bufSettle
  extract_lets x
  split
  · rfl
  · rcases eq_or_ne k l with rfl | hk
    · rw [s.setLink_link_same, Link.foldl_bufStep_txq]
    · rw [s.setLink_link_other _ hk]

theorem State.bufSettle_keepsQueued (s : State) (l : Nat) : s.KeepsQueued (s.bufSettle l) := .of_link_eq (s.bufSettle_txq l)

theorem State.bufSettle_link_other (s : State) {l k : Nat} (hk : k ≠ l) : (s.bufSettle l).link k = s.link k := by
  unfold State.bufSettle
  extract_lets x
  split
  · rfl
  · exact s.setLink_link_other _ hk

/-- Settling a receive buffer touches the links alone. -/
theorem State.bufSettle_fabric (s : State) (l : Nat) : ∃ ls, s.bufSettle l = { s with fabric := { s.fabric with links := ls } } := by
  unfold State.bufSettle
  extract_lets x
  split
  · exact ⟨s.fabric.links, rfl⟩
  · exact ⟨_, rfl⟩

/-! ## A message taken from a link's receive buffer (R274) -/

/-- What is left of a link and of the state once the message at the head of its buffer has been acted on. -/
structure State.TookHead (s t u : State) (l : Nat) (rest : List (Nat × Msg)) : Prop where
  rxq : (u.link l).rxq = rest
  core : (u.link l).core = { (t.link l).core with rxq := rest }
  other : ∀ k, k ≠ l → u.link k = t.link k
  links : ∃ ls, u = { t with fabric := { t.fabric with links := ls } }
  queued : t.KeepsQueued u

namespace State.TookHead
variable {s t u : State} {l : Nat} {rest : List (Nat × Msg)} (h : s.TookHead t u l rest)
include h

theorem changes : OnlyChanges [.fabric] t u := by
  obtain ⟨ls, rfl⟩ := h.links
  exact .put_fabric _ (.refl _ _) (by decide)

theorem partner (c : ChipNo) : u.partner c = t.partner c := by
  obtain ⟨ls, rfl⟩ := h.links
  rfl

theorem rxGroup (c : ChipNo) (g : Nat) : u.rxGroup c g = t.rxGroup c g := by
  obtain ⟨ls, rfl⟩ := h.links
  rfl

theorem txGroup (c : ChipNo) (g : Nat) : u.txGroup c g = t.txGroup c g := by
  obtain ⟨ls, rfl⟩ := h.links
  rfl

theorem txRead (c : ChipNo) (g : Nat) : u.txRead c g = t.txRead c g := by
  obtain ⟨ls, rfl⟩ := h.links
  rfl

theorem frame (f : Nat) : u.frame f = t.frame f := by
  obtain ⟨ls, rfl⟩ := h.links
  rfl

theorem tally : u.tally = t.tally := h.changes .tally (by decide)

theorem barrier (b : Nat) : u.barrier b = t.barrier b := by rw [State.barrier, State.barrier, h.tally]

end State.TookHead

variable {s t : State} {l k : Nat} {m : Msg} {rest : List (Nat × Msg)} {op : BitVec 5} {f : Msg → Option (State × Bool)}

theorem State.takeMsg_of_head {r : State × Bool} (hrxq : (s.link l).rxq = (k, m) :: rest) (hop : m.op = op) (hf : f m = some r) :
    s.takeMsg l op f =
      if r.2 then (r.1.modLink l fun x => { x with rxq := x.rxq.erase (k, m) }).bufSettle l else r.1 := by
  obtain ⟨t, _ | _⟩ := r <;> simp [State.takeMsg, hrxq, hop, hf]

/-- The message at the head is acted on and leaves, when acting on it kept the buffer. -/
theorem State.takeMsg_takes (hrxq : (s.link l).rxq = (k, m) :: rest) (hop : m.op = op) (hf : f m = some (t, true))
    (ht : (t.link l).rxq = (s.link l).rxq) : s.TookHead t (s.takeMsg l op f) l rest := by
  rw [State.takeMsg_of_head hrxq hop hf]
  simp only [if_true]
  have hbuf := (t.modLink l fun x => { x with rxq := x.rxq.erase (k, m) }).bufSettle_keepsCore l
  have herase : (t.link l).rxq.erase (k, m) = rest := by simp [ht, hrxq]
  refine ⟨?_, ?_, fun j hj => ?_, ?_, ?_⟩
  · rw [hbuf.rxq, t.modLink_link_same, herase]
  · rw [hbuf l, t.modLink_link_same, herase]
    rfl
  · rw [State.bufSettle_link_other _ hj, t.modLink_link_other _ hj]
  · obtain ⟨ls, hls⟩ := (t.modLink l fun x => { x with rxq := x.rxq.erase (k, m) }).bufSettle_fabric l
    exact ⟨ls, hls⟩
  · exact (t.modLink_keepsQueued (f := fun x => { x with rxq := x.rxq.erase (k, m) }) l fun _ _ _ h => h).trans
      (State.bufSettle_keepsQueued _ l)

/-- The message at the head stays, and what acting on it made of the state is what is left. -/
theorem State.takeMsg_keeps (hrxq : (s.link l).rxq = (k, m) :: rest) (hop : m.op = op) (hf : f m = some (t, false)) :
    s.takeMsg l op f = t := by rw [State.takeMsg_of_head hrxq hop hf]; rfl

/-- The only message of the buffer has to wait. -/
theorem State.takeMsg_waits (hrxq : (s.link l).rxq = [(k, m)]) (hf : f m = none) : s.takeMsg l op f = s := by
  simp [State.takeMsg, hrxq, hf]

end Sys2Proof.Machine

/-! # Proofs: requests checked and served (R282 to R294, R297) -/
namespace Sys2Proof.Machine

/-! ## The use of a window's leaf (R243) -/

/-- Using the leaf of a window touches its frame's translation buffer and no more of any frame. -/
theorem State.touchWindow_frame (s : State) (m : Msg) (f : Nat) :
    ∃ b, (s.touchWindow m).frame f = { s.frame f with tlb := b } := by
  have hself : ∃ b, s.frame f = { s.frame f with tlb := b } := ⟨_, rfl⟩
  have hput (u : State) (hu : u.frame f = s.frame f) (g : Nat) (l : Leaf) :
      ∃ b, (u.modFrame g fun x => { x with tlb := toFront 48 l x.tlb }).frame f = { s.frame f with tlb := b } := by
    rcases eq_or_ne f g with rfl | hg
    · rw [u.modFrame_frame_same, hu]; exact ⟨_, rfl⟩
    · rw [u.modFrame_frame_other _ hg, hu]; exact hself
  unfold State.touchWindow
  extract_lets g
  split
  · exact hself
  · split
    · unfold State.touch
      split
      · exact hput s rfl _ _
      · exact hput _ rfl _ _
    · exact hself

theorem State.touchWindow_keepsCore (s : State) (m : Msg) : s.KeepsCore (s.touchWindow m) :=
  .of_changes (s.touchWindow_changes m) (by decide)

/-- The slot a read takes does not depend on the translation buffers. -/
theorem State.takeSlot_of_touched {s t : State} (hch : OnlyChanges [.frames, .xlate] s t) {f : Nat}
    (hframe : ∃ b, t.frame f = { s.frame f with tlb := b }) (a : Asker) (staged : Bool) :
    t.takeSlot f a staged = s.takeSlot f a staged := by
  obtain ⟨b, hb⟩ := hframe
  have hslots : (t.frame f).slots = (s.frame f).slots := by rw [hb]
  have hwait : (t.frame f).poolWait = (s.frame f).poolWait := by rw [hb]
  have hfab : (t.frame f).fab = (s.frame f).fab := by rw [hb]
  have hsvc : (t.frame f).svc = (s.frame f).svc := by rw [hb]
  have hstate : (t.frame f).state = (s.frame f).state := by rw [hb]
  have hregs : t.regs = s.regs := hch .regs (by decide)
  have hchans : t.chans = s.chans := hch .chans (by decide)
  have hchan : t.chan = s.chan := by funext n; rw [State.chan, State.chan, hchans]
  have hctx : t.ctx = s.ctx := funext (hch.ctx_eq (by decide))
  have hswarm : t.swarm = s.swarm := funext (hch.swarm_eq (by decide))
  have hheld : t.heldSlots f = s.heldSlots f := by funext p; rw [State.heldSlots, State.heldSlots, hslots]
  have hbound : t.boundIn f = s.boundIn f := by rw [State.boundIn, State.boundIn, hchans, hchan]
  have hin : t.ctxsIn f = s.ctxsIn f := by rw [State.ctxsIn, State.ctxsIn, hbound, hchan]
  have hof : t.stagedOf f = s.stagedOf f := by funext c w; rw [State.stagedOf, State.stagedOf, hheld]
  have hby : t.stagedBy f = s.stagedBy f := by funext c; rw [State.stagedBy, State.stagedBy, hctx, hof]
  have hstaged : t.stagedSlots f = s.stagedSlots f := by rw [State.stagedSlots, State.stagedSlots, hin, hby]
  have hports n : t.swarmPorts n f = s.swarmPorts n f := by rw [State.swarmPorts, State.swarmPorts, hswarm]
  have hregion : t.regionSlots f = s.regionSlots f := by simp only [State.regionSlots, hswarm, hports]
  have hfree : t.freeSlots f = s.freeSlots f := by rw [State.freeSlots, State.freeSlots, hregion, hheld, hstaged]
  have hres : t.fcFabRes = s.fcFabRes := by rw [State.fcFabRes, State.fcFabRes, hregs]
  have hreserve : t.reserveOf = s.reserveOf := by funext a; cases a <;> simp only [State.reserveOf, hres]
  have hused : t.reserveUsed f = s.reserveUsed f := by funext a; rw [State.reserveUsed, State.reserveUsed, hheld]
  have hsize : t.poolSize f = s.poolSize f := by simp only [State.poolSize, hregion, hbound, hstate, hres]
  have hpool : t.poolUsed f = s.poolUsed f := by rw [State.poolUsed, State.poolUsed, hheld, hstaged]
  have hwhole : t.wholeSlots f = s.wholeSlots f := by simp only [State.wholeSlots, hin, hctx]
  have htaken : t.reservesTaken f = s.reservesTaken f := by
    simp only [State.reservesTaken, hwhole, hsize, hpool, hin, hreserve, hused]
  have hlive : t.poolLive f = s.poolLive f := by
    funext r; cases r <;> simp only [State.poolLive, hin, hctx, hused, hres, hfab, hsvc]
  have hhead : t.poolHead f = s.poolHead f := by rw [State.poolHead, State.poolHead, hwait, hlive]
  have hpooled : t.pooled f = s.pooled f := by funext a; simp only [State.pooled, hheld, hby]
  have hroom : t.poolRoom f = s.poolRoom f := by
    funext a; rw [State.poolRoom, State.poolRoom, hpool, hsize, hpooled, State.fcCap, State.fcCap, hregs]
  unfold State.takeSlot
  rw [hslots, hfree, htaken, hused, hreserve, hroom, hhead]

/-! ## The verdict on a request (R282, R289) -/

/-- A request that the late checks let through belongs to no refused group. -/
theorem State.not_refused_of_lateChecks {s : State} {m : Msg} {phys p : Nat} {win w : Option Nat} (hop : m.op ≠ opRead)
    (h : s.lateChecks m phys win = .go p w) : (s.rxGroup m.src m.group).refused = false := by
  unfold State.lateChecks at h
  extract_lets f at h
  split at h
  · cases h
  · split at h
    · cases h
    · split at h
      · cases h
      · rename_i hr
        simpa [hop] using hr

theorem State.not_refused_of_go {s : State} {m : Msg} {phys : Nat} {win : Option Nat} (hop : m.op ≠ opRead)
    (h : s.verdict m = .go phys win) : (s.rxGroup m.src m.group).refused = false := by
  unfold State.verdict at h
  extract_lets f root off at h
  split at h
  · cases h
  split at h
  · cases h
  split at h
  · cases h
  split at h
  · split at h
    · cases h
    split at h
    · cases h
    exact State.not_refused_of_lateChecks hop h
  split at h
  · cases h
  split at h
  · next leaf _ =>
    by_cases hmay : (if m.op == opRead then leaf.r else leaf.w) = true
    · rw [if_pos hmay] at h
      exact State.not_refused_of_lateChecks hop h
    · rw [if_neg hmay] at h
      cases h
  · split at h
    · cases h
    split at h
    · cases h
    split at h <;> cases h

/-! ## A request credit freed (R285) -/

/-- Freeing a credit touches the links, the turns of the routes and the partners alone. -/
theorem State.freeCredit_fabric (s : State) (c : ChipNo) : ∃ ls rr ps,
    s.freeCredit c = { s with fabric := { s.fabric with links := ls, rr := rr, partners := ps } } := by
  unfold State.freeCredit State.returnCredits
  extract_lets t n
  split
  · split
    · exact ⟨_, _, _, rfl⟩
    · obtain ⟨ls, rr, h⟩ := (t.modPartner c fun p => { p with toReturn := 0 }).sendMsg_fabric (t.msg opCredit c 0 (BitVec.ofNat 64 n))
      exact ⟨ls, rr, _, h⟩
  · exact ⟨_, _, _, rfl⟩

theorem State.freeCredit_rxGroup (s : State) (c d : ChipNo) (g : Nat) : (s.freeCredit c).rxGroup d g = s.rxGroup d g := by
  obtain ⟨ls, rr, ps, h⟩ := s.freeCredit_fabric c
  rw [h]; rfl

theorem State.freeCredit_frame (s : State) (c : ChipNo) (f : Nat) : (s.freeCredit c).frame f = s.frame f :=
  State.frame_congr (s.freeCredit_changes c .frames (by decide)) f

theorem State.modPartner_keepsCore (s : State) (c : ChipNo) (f : Partner → Partner) : s.KeepsCore (s.modPartner c f) := fun _ => rfl

theorem State.returnCredits_keepsCore (s : State) (c : ChipNo) : s.KeepsCore (s.returnCredits c) := by
  unfold State.returnCredits
  extract_lets n
  exact .ite (.refl s) ((s.modPartner_keepsCore c _).trans (State.sendMsg_keepsCore _ _))

theorem State.returnCredits_keepsQueued (s : State) (c : ChipNo) : s.KeepsQueued (s.returnCredits c) := by
  unfold State.returnCredits
  extract_lets n
  split
  · exact .refl s
  · exact State.sendMsg_keepsQueued (s.modPartner c fun p => { p with toReturn := 0 }) _

theorem State.freeCredit_keepsCore (s : State) (c : ChipNo) : s.KeepsCore (s.freeCredit c) := by
  unfold State.freeCredit
  extract_lets t
  exact .ite ((s.modPartner_keepsCore c _).trans (t.returnCredits_keepsCore c)) (s.modPartner_keepsCore c _)

theorem State.freeCredit_keepsQueued (s : State) (c : ChipNo) : s.KeepsQueued (s.freeCredit c) := by
  unfold State.freeCredit
  extract_lets t
  split
  · exact t.returnCredits_keepsQueued c
  · exact .refl s

/-! ## Groups at the receiver (R293, R294) -/

@[simp] theorem State.setRxGroup_rxGroup_same (s : State) (c : ChipNo) (g : Nat) (x : RxGroup) : (s.setRxGroup c g x).rxGroup c g = x :=
  Store.get_set_same _ _ _ _

@[simp] theorem State.setRxGroup_frame (s : State) (c : ChipNo) (g : Nat) (x : RxGroup) (f : Nat) :
    (s.setRxGroup c g x).frame f = s.frame f := rfl

theorem State.setRxGroup_keepsCore (s : State) (c : ChipNo) (g : Nat) (x : RxGroup) : s.KeepsCore (s.setRxGroup c g x) := fun _ => rfl

theorem State.dropFabSlot_keepsCore (s : State) (r : FabReq) : s.KeepsCore (s.dropFabSlot r) :=
  .of_changes (s.dropFabSlot_changes r) (by decide)

theorem State.dropLid_keepsCore (s : State) (c : ChipNo) (g : Nat) : s.KeepsCore (s.dropLid c g) := by
  unfold State.dropLid
  extract_lets x
  split
  · exact .refl s
  · extract_lets u
    refine .trans ?_ (u.setRxGroup_keepsCore c g _)
    exact .ite (.refl s) (s.dropFabSlot_keepsCore _)

theorem State.lidCheck_keepsCore (s : State) (c : ChipNo) (g : Nat) : s.KeepsCore (s.lidCheck c g) := by
  unfold State.lidCheck
  extract_lets x
  split
  · exact .refl s
  · split
    · exact .refl s
    · split
      · exact (s.dropFabSlot_keepsCore _).trans (State.setRxGroup_keepsCore _ c g _)
      · exact fun _ => rfl

section
variable {s : State} {c : ChipNo} {g : Nat} {r : FabReq} (hlid : (s.rxGroup c g).lid = some r)
include hlid

/-- A lid whose count has not been reached waits. -/
theorem State.lidCheck_of_short (h : (s.rxGroup c g).landed ≠ lidCount r.msg.word) : s.lidCheck c g = s := by
  simp [State.lidCheck, hlid, h]

/-- A lid whose count is reached goes to the fabric requester. -/
theorem State.lidCheck_of_reached (hissued : (s.rxGroup c g).lidIssued = false) (href : (s.rxGroup c g).refused = false)
    (h : (s.rxGroup c g).landed = lidCount r.msg.word) (hlen : r.msg.len ≠ 0) :
    s.lidCheck c g = (s.modFrame (servingFrame c) fun y => { y with fab := y.fab ++ [r] }).setRxGroup c g
      { s.rxGroup c g with lidIssued := true, inFlight := (s.rxGroup c g).inFlight + 1 } := by
  simp [State.lidCheck, hlid, hissued, href, h, hlen]

end

theorem State.modFrame_fab (s : State) (f g : Nat) {k : Frame → Frame} (hk : ∀ x, (k x).fab = x.fab) :
    ((s.modFrame f k).frame g).fab = (s.frame g).fab := by
  rcases eq_or_ne g f with rfl | hg
  · rw [s.modFrame_frame_same, hk]
  · rw [s.modFrame_frame_other _ hg]

theorem State.claimSlot_fab (s : State) (f n : Nat) (a : Asker) (q : Slot) (g : Nat) :
    ((s.claimSlot f n a q).frame g).fab = (s.frame g).fab := by
  have hput : ((s.setSlotAt f n q).frame g).fab = (s.frame g).fab := s.modFrame_fab f g fun _ => rfl
  unfold State.claimSlot
  extract_lets u
  split
  · refine (u.modFrame_fab f g ?_).trans hput
    exact fun _ => rfl
  · exact hput

/-! ## An accepted request (R290, R293, R297) -/

/-- The slot for a partner's data is the same one whatever the translation buffers hold, and its frame keeps what it serves. -/
theorem State.takeFabSlot_of_touched {s t u : State} {m : Msg} {n : Nat} (hch : OnlyChanges [.frames, .xlate] s t)
    (hframe : ∃ b, t.frame (servingFrame m.src) = { s.frame (servingFrame m.src) with tlb := b })
    (h : s.takeFabSlot m = some (n, u)) :
    ∃ v, t.takeFabSlot m = some (n, v) ∧ (v.frame (servingFrame m.src)).fab = (s.frame (servingFrame m.src)).fab ∧
      OnlyChanges [.frames, .faults] t v := by
  unfold State.takeFabSlot at h
  extract_lets f at h
  rw [← State.takeSlot_of_touched hch hframe] at h
  obtain ⟨p, hp, hpn⟩ := Option.map_eq_some_iff.mp h
  have hn : p.1 = n := congrArg Prod.fst hpn
  have htake : ∃ v, t.takeFabSlot m = some (n, v) ∧ (v.frame (servingFrame m.src)).fab = (t.frame (servingFrame m.src)).fab := by
    simp only [State.takeFabSlot, hp, Option.map_some, hn]
    exact ⟨_, rfl, State.claimSlot_fab _ _ _ _ _ _⟩
  obtain ⟨v, hv, hfab⟩ := htake
  obtain ⟨b, hb⟩ := hframe
  exact ⟨v, hv, hfab.trans (by rw [hb]), t.takeFabSlot_changes m _ hv⟩


/-! ## A refused request (R289, R294) -/

/-- A request refused and not yet answered: the event and the alarm of its reason, and the refusal of its group. -/
def State.refusing (s : State) (m : Msg) (reason : Nat) : State :=
  let ev := evInfo 0x09 m.tenant ([BitVec.ofNat 8 reason] ++ leBytes 1 m.src.toNat ++ leBytes 2 m.op.toNat ++
    leBytes 8 m.addr.toNat ++ zeros 4)
  let s := if 1 ≤ reason && reason ≤ 5 then s.event ev else s
  let s := if reason = 1 || reason = 3 then s.tenantAlarm 4 3 m.src.toNat m.tenant 0 m.addr.toNat else s
  if m.op == opRead then s
  else (s.dropLid m.src m.group).setRxGroup m.src m.group { (s.rxGroup m.src m.group) with
    live := true, refused := true, lid := none, lidIssued := false }

section
variable (s : State) (m : Msg) (reason : Nat)

/-- A refusal ends with its answer and the return of its credit. -/
theorem State.refuseReq_eq : s.refuseReq m reason = ((s.refusing m reason).answer m opRefuse reason).freeCredit m.src := rfl

theorem State.refusing_changes : OnlyChanges [.fabric, .frames, .faults, .snap, .recd] s (s.refusing m reason) := by
  unfold State.refusing
  extract_lets ev s₁ s₂ x
  have h₁ : OnlyChanges [.fabric, .frames, .faults, .snap, .recd] s s₁ :=
    .ite (.step (.refl _ _) (s.event_changes _) (by decide)) (.refl _ _)
  have h₂ : OnlyChanges [.fabric, .frames, .faults, .snap, .recd] s s₂ :=
    .ite (.step h₁ (State.tenantAlarm_changes _ _ _ _ _ _ _) (by decide)) h₁
  exact .ite h₂ ((h₂.step (s₂.dropLid_changes _ _) (by decide)).step (State.setRxGroup_changes _ _ _ _) (by decide))

theorem State.refusing_keepsCore : s.KeepsCore (s.refusing m reason) := by
  unfold State.refusing
  extract_lets ev s₁ s₂ x
  have h₁ : s.KeepsCore s₁ := .ite (.of_changes (s.event_changes _) (by decide)) (.refl s)
  have h₂ : s.KeepsCore s₂ := .ite (h₁.trans (.of_changes (State.tenantAlarm_changes _ _ _ _ _ _ _) (by decide))) h₁
  exact .ite h₂ (h₂.trans ((s₂.dropLid_keepsCore _ _).trans (State.setRxGroup_keepsCore _ _ _ _)))

theorem State.refuseReq_keepsCore : s.KeepsCore (s.refuseReq m reason) :=
  ((s.refusing_keepsCore m reason).trans (State.answer_keepsCore _ _ _ _ _)).trans (State.freeCredit_keepsCore _ _)

variable {m}

/-- A refusal marks the group of the request unless it is a read. -/
theorem State.refuseReq_group (hop : m.op ≠ opRead) :
    ((s.refuseReq m reason).rxGroup m.src m.group).refused = true ∧ ((s.refuseReq m reason).rxGroup m.src m.group).lid = none := by
  have hop' : ¬ (m.op == opRead) = true := by simpa using hop
  rw [State.refuseReq_eq, State.freeCredit_rxGroup, State.answer_rxGroup]
  unfold State.refusing
  extract_lets ev s₁ s₂ x
  rw [if_neg hop', State.setRxGroup_rxGroup_same]
  exact ⟨rfl, rfl⟩

/-- The refusal lies in the queue of the one link that leads to the sender. -/
theorem State.refuseReq_sends {q : Nat} (hq : s.routeSet m.src = [q]) :
    ∃ a ∈ ((s.refuseReq m reason).link q).txq.get [] 3, a.op = opRefuse ∧ a.dst = m.src ∧ a.tag = m.tag ∧
      a.word = BitVec.ofNat 64 reason := by
  let u := s.refusing m reason
  let a : Msg := { u.msg opRefuse m.src m.tag (BitVec.ofNat 64 reason) with addr := m.addr }
  have hinp : u.inp = s.inp := s.refusing_changes m reason .inp (by decide)
  have hroute : u.routeSet a.dst = [q] := ((s.refusing_keepsCore m reason).routeSet hinp m.src).trans hq
  have hmem : a ∈ ((u.sendMsg a).link q).txq.get [] 3 := u.mem_txq_sendMsg a hroute (by simp [a, State.msg])
  exact ⟨a, State.freeCredit_keepsQueued _ m.src q 3 a hmem, rfl, rfl, rfl, rfl⟩

end

/-! ## What a request does (R282, R289) -/

/-- The command that takes a request of an operation. -/
theorem exec_request (l : Fin 18) (s : State) {m : Msg} (hop : m.op = opWrite ∨ m.op = opLid ∨ m.op = opRead) :
    exec (if m.op = opWrite then .write l else if m.op = opLid then .lid l else .read l) s =
      .next (s.takeMsg l.val m.op s.serve) := by
  obtain h | h | h := hop <;> rw [h] <;> rfl

/-- The first request of a partner queues it. -/
theorem State.queuePartner_adm (s : State) (c : ChipNo) : ((s.queuePartner c).partner c).adm ≠ .unknown := by
  unfold State.queuePartner
  split
  · change ((s.modPartner c fun p => { p with adm := .queued }).partner c).adm ≠ .unknown
    rw [s.modPartner_partner_same]
    nofun
  · rename_i h
    simpa using h

section
variable {s : State} {l k : Nat} {m : Msg} {rest : List (Nat × Msg)} (hrxq : (s.link l).rxq = (k, m) :: rest)
include hrxq

/-- A request that is served and keeps the links is acted on and leaves the buffer. -/
theorem State.serve_takes {t : State} (h : s.serve m = some (t, true)) (hcore : s.KeepsCore t) :
    s.TookHead t (s.takeMsg l m.op s.serve) l rest := State.takeMsg_takes hrxq rfl h (hcore.rxq l)

/-- A READ that no check turns away waits in its serving frame. -/
theorem State.serve_read {phys : Nat} {win : Option Nat} (hv : s.verdict m = .go phys win) (hop : m.op = opRead) :
    let t := s.takeMsg l m.op s.serve
    let f := servingFrame m.src
    (t.link l).rxq = rest ∧ (t.frame f).fab = (s.frame f).fab ++ [⟨m, phys, m.tenant, win, none⟩] ∧
      OnlyChanges [.frames, .fabric, .xlate] s t := by
  extract_lets t f
  let u := (s.touchWindow m).modFrame f fun x => { x with fab := x.fab ++ [⟨m, phys, m.tenant, win, none⟩] }
  have hserve : s.serve m = some (u, true) := by
    simp only [State.serve, hv, State.acceptReq, hop, beq_self_eq_true, if_true, Option.map_some]
    rfl
  have hch : OnlyChanges [.frames, .xlate] s u := (s.touchWindow_changes m).step (State.modFrame_changes _ _ _) (by decide)
  have htook : s.TookHead u t l rest := State.serve_takes hrxq hserve (.of_changes hch (by decide))
  refine ⟨htook.rxq, ?_, (hch.mono (by decide)).step htook.changes (by decide)⟩
  obtain ⟨b, hb⟩ := s.touchWindow_frame m f
  rw [htook.frame, State.modFrame_frame_same, hb]

omit hrxq in
/-- A request with data that no check turns away has its slot and has freed its credit; then its group takes it. -/
theorem State.serve_stored {phys n : Nat} {win : Option Nat} {v : State} (hv : s.verdict m = .go phys win)
    (hslot : s.takeFabSlot m = some (n, v)) (hop : m.op ≠ opRead) :
    let f := servingFrame m.src
    let x := s.rxGroup m.src m.group
    let r : FabReq := ⟨m, phys, m.tenant, win, some n⟩
    ∃ w : State, (w.frame f).fab = (s.frame f).fab ∧ s.KeepsCore w ∧ OnlyChanges [.frames, .fabric, .faults, .xlate] s w ∧
      s.serve m = some (if m.op = opLid then (w.setRxGroup m.src m.group { x with live := true, lid := some r }).lidCheck m.src m.group
        else (w.modFrame f fun y => { y with fab := y.fab ++ [r] }).setRxGroup m.src m.group
          { x with live := true, inFlight := x.inFlight + 1 }, true) := by
  extract_lets f x r
  have htouch := s.touchWindow_changes m
  obtain ⟨w, hw, hfab, hwch⟩ := State.takeFabSlot_of_touched htouch (s.touchWindow_frame m f) hslot
  have hkeep : OnlyChanges [.frames, .faults, .xlate] s w := (htouch.mono (by decide)).step hwch (by decide)
  have hgroup : (w.freeCredit m.src).rxGroup m.src m.group = x := by
    rw [State.freeCredit_rxGroup, State.rxGroup, hkeep .fabric (by decide)]; rfl
  have hop' : (m.op == opRead) = false := by simpa using hop
  refine ⟨w.freeCredit m.src, ?_, (KeepsLinks.of_changes hkeep (by decide)).trans (w.freeCredit_keepsCore m.src),
    (hkeep.mono (by decide)).step (w.freeCredit_changes m.src) (by decide), ?_⟩
  · rw [State.freeCredit_frame, hfab]
  · simp only [State.serve, hv, State.acceptReq, hop', hw, Option.map_some, hgroup, beq_iff_eq]
    rfl

/-- A WRITE that no check turns away enters its serving frame with its slot, and counts for its group. -/
theorem State.serve_write {phys n : Nat} {win : Option Nat} {v : State} (hv : s.verdict m = .go phys win)
    (hslot : s.takeFabSlot m = some (n, v)) (hop : m.op = opWrite) :
    let t := s.takeMsg l m.op s.serve
    let f := servingFrame m.src
    let x := s.rxGroup m.src m.group
    (t.link l).rxq = rest ∧ (t.frame f).fab = (s.frame f).fab ++ [⟨m, phys, m.tenant, win, some n⟩] ∧
      t.rxGroup m.src m.group = { x with live := true, inFlight := x.inFlight + 1 } ∧
      OnlyChanges [.frames, .fabric, .faults, .xlate] s t := by
  extract_lets t f x
  obtain ⟨w, hfab, hcore, hch, hserve⟩ := State.serve_stored hv hslot (by rw [hop]; decide)
  rw [if_neg (by rw [hop]; decide)] at hserve
  have htook : s.TookHead _ t l rest := State.serve_takes hrxq hserve (hcore.trans fun _ => rfl)
  refine ⟨htook.rxq, ?_, ?_, ?_⟩
  · rw [htook.frame, State.setRxGroup_frame, State.modFrame_frame_same, hfab]
  · rw [htook.rxGroup, State.setRxGroup_rxGroup_same]
  · exact ((hch.step (State.modFrame_changes _ _ _) (by decide)).step (State.setRxGroup_changes _ _ _ _) (by decide)).step
      htook.changes (by decide)

section
variable {phys n : Nat} {win : Option Nat} {v : State} (hv : s.verdict m = .go phys win)
  (hslot : s.takeFabSlot m = some (n, v)) (hop : m.op = opLid) (hissued : (s.rxGroup m.src m.group).lidIssued = false)
include hv hslot hop hissued

omit hissued in
/-- A LID whose count has not been reached is held for its group. -/
theorem State.serve_lid_short (hshort : (s.rxGroup m.src m.group).landed ≠ lidCount m.word) :
    let t := s.takeMsg l m.op s.serve
    let f := servingFrame m.src
    (t.link l).rxq = rest ∧ (t.frame f).fab = (s.frame f).fab ∧
      t.rxGroup m.src m.group = { s.rxGroup m.src m.group with live := true, lid := some ⟨m, phys, m.tenant, win, some n⟩ } := by
  extract_lets t f
  obtain ⟨w, hfab, hcore, hch, hserve⟩ := State.serve_stored hv hslot (by rw [hop]; decide)
  rw [if_pos hop, State.lidCheck_of_short (by rw [State.setRxGroup_rxGroup_same])
    (by rw [State.setRxGroup_rxGroup_same]; exact hshort)] at hserve
  have htook : s.TookHead _ t l rest := State.serve_takes hrxq hserve (hcore.trans fun _ => rfl)
  exact ⟨htook.rxq, by rw [htook.frame, State.setRxGroup_frame, hfab], by rw [htook.rxGroup, State.setRxGroup_rxGroup_same]⟩

/-- A LID with data whose count is reached goes to the fabric requester. -/
theorem State.serve_lid_reached (hreached : (s.rxGroup m.src m.group).landed = lidCount m.word) (hlen : m.len ≠ 0) :
    let t := s.takeMsg l m.op s.serve
    let f := servingFrame m.src
    let x := s.rxGroup m.src m.group
    let r : FabReq := ⟨m, phys, m.tenant, win, some n⟩
    (t.link l).rxq = rest ∧ (t.frame f).fab = (s.frame f).fab ++ [r] ∧
      t.rxGroup m.src m.group = { x with live := true, lid := some r, lidIssued := true, inFlight := x.inFlight + 1 } := by
  extract_lets t f x r
  have hread : m.op ≠ opRead := by rw [hop]; decide
  obtain ⟨w, hfab, hcore, hch, hserve⟩ := State.serve_stored hv hslot hread
  rw [if_pos hop, State.lidCheck_of_reached (r := r) (by rw [State.setRxGroup_rxGroup_same])
    (by rw [State.setRxGroup_rxGroup_same]; exact hissued)
    (by rw [State.setRxGroup_rxGroup_same]; exact State.not_refused_of_go hread hv)
    (by rw [State.setRxGroup_rxGroup_same]; exact hreached) hlen, State.setRxGroup_rxGroup_same] at hserve
  have htook : s.TookHead _ t l rest := State.serve_takes hrxq hserve (hcore.trans fun _ => rfl)
  refine ⟨htook.rxq, ?_, by rw [htook.rxGroup, State.setRxGroup_rxGroup_same]⟩
  rw [htook.frame, State.setRxGroup_frame, State.modFrame_frame_same, State.setRxGroup_frame, hfab]

end

/-- A refused request has no effect but the refusal of its group and the REFUSE. -/
theorem State.serve_refused {reason : Nat} (hv : s.verdict m = .refuse reason) :
    let t := s.takeMsg l m.op s.serve
    (t.link l).rxq = rest ∧
      (m.op ≠ opRead → (t.rxGroup m.src m.group).refused = true ∧ (t.rxGroup m.src m.group).lid = none) ∧
      (∀ q, s.routeSet m.src = [q] → ∃ a ∈ (t.link q).txq.get [] 3, a.op = opRefuse ∧ a.dst = m.src ∧ a.tag = m.tag ∧
        a.word = BitVec.ofNat 64 reason) ∧ t.tally.val = s.tally.val ∧ t.ctxs = s.ctxs := by
  extract_lets t
  let w := s.touchWindow m
  have hserve : s.serve m = some (w.refuseReq m reason, true) := by rw [State.serve, hv]
  have hwch := s.touchWindow_changes m
  have hwcore := s.touchWindow_keepsCore m
  have htook : s.TookHead (w.refuseReq m reason) t l rest :=
    State.serve_takes hrxq hserve (hwcore.trans (w.refuseReq_keepsCore m reason))
  have hch : OnlyChanges [.fabric, .frames, .faults, .snap, .recd, .xlate] s t :=
    ((hwch.mono (by decide)).step (State.refuseReq_changes _ _ _ _) (by decide)).step htook.changes (by decide)
  refine ⟨htook.rxq, fun hop => ?_, fun q hq => ?_, congrArg (·.val) (hch .tally (by decide)), hch .ctxs (by decide)⟩
  · rw [htook.rxGroup]
    exact w.refuseReq_group reason hop
  · obtain ⟨a, ha, hfields⟩ := w.refuseReq_sends reason (m := m) ((hwcore.routeSet (hwch .inp (by decide)) m.src).trans hq)
    exact ⟨a, htook.queued q 3 a ha, hfields⟩

/-- A partner that is not in service is queued and answered. -/
theorem State.serve_queued (hv : s.verdict m = .queue) :
    let t := s.takeMsg l m.op s.serve
    (t.link l).rxq = rest ∧ (t.partner m.src).adm ≠ .unknown ∧ OnlyChanges [.fabric] s t := by
  extract_lets t
  let w := s.queuePartner m.src
  let u := w.answer m opNotReady (250 * (w.fabric.admitQ.idxOf m.src + 1))
  have hserve : s.serve m = some (u, true) := by rw [State.serve, hv]
  have hcore : s.KeepsCore w := .ite (fun _ => rfl) (.refl s)
  have htook : s.TookHead u t l rest := State.serve_takes hrxq hserve (hcore.trans (w.answer_keepsCore _ _ _ _))
  refine ⟨htook.rxq, ?_, ((s.queuePartner_changes m.src).trans (w.answer_changes _ _ _ _)).trans htook.changes⟩
  rw [htook.partner, State.answer_partner]
  exact s.queuePartner_adm m.src

end

/-- Settles O47: a request is judged by the checks in their order, and each verdict has one effect. -/
theorem requestsAreCheckedThenServed : Obligations.RequestsAreCheckedThenServed := by
  unfold Obligations.RequestsAreCheckedThenServed
  intro l k m rest s hrxq hop c f x
  have hexec : exec c s = .next (s.takeMsg l.val m.op s.serve) := exec_request l s hop
  refine ⟨fun phys win hv hread => ⟨_, hexec, State.serve_read hrxq hv hread⟩, fun phys win n u hv hslot => ?_,
    fun reason hv => ⟨_, hexec, State.serve_refused hrxq hv⟩, fun hv hrest => ?_, fun hv => ⟨_, hexec, State.serve_queued hrxq hv⟩,
    fun hhalt => ?_, fun hhalt hready => ?_, fun hhalt hready => ⟨fun hin => ?_, fun hin => ⟨fun hwin hbad => ?_, fun hwin hshut => ?_,
      fun hwin hten hopen hmap => ?_⟩⟩⟩
  · intro r
    exact ⟨fun hw => ⟨_, hexec, State.serve_write hrxq hv hslot hw⟩,
      fun hl _ hshort => ⟨_, hexec, State.serve_lid_short hrxq hv hslot hl hshort⟩,
      fun hl hissued hreached hlen => ⟨_, hexec, State.serve_lid_reached hrxq hv hslot hl hissued hreached hlen⟩⟩
  · rw [hexec, State.takeMsg_waits (hrest ▸ hrxq) (by rw [State.serve, hv])]
  · simp [State.verdict, hhalt]
  · simp [State.verdict, hhalt, hready]
  · simp [State.verdict, hhalt, hready, hin]
  · obtain hten | hshut := hbad
    · simp [State.verdict, hhalt, hready, hin, hwin, hten]
    · simp [State.verdict, hhalt, hready, hin, hwin, hshut]
  · simp [State.verdict, hhalt, hready, hin, hwin, hshut]
  · have hten' : ¬ m.tenant = 0#12 := hten
    simp [State.verdict, hhalt, hready, hin, hwin, hten', hopen, hmap]

end Sys2Proof.Machine

/-! # Proofs: partners admitted, barrier messages and relayed verbs (R37, R283 to R285, R342, R344) -/
namespace Sys2Proof.Machine

/-! ## Requests that wait for a partner (R284, R285) -/

theorem State.setPartner_keepsCore (s : State) (c : ChipNo) (x : Partner) : s.KeepsCore (s.setPartner c x) := fun _ => rfl

/-- The requests that a pump may send leave a partner's other fields and send one for each credit. -/
def Partner.Pumped (p q : Partner) : Prop :=
  (∃ o cr pr, q = { p with out := o, credits := cr, probing := pr }) ∧
    (p.served = true → q.credits + p.out.length = p.credits + q.out.length)

theorem Partner.Pumped.refl (p : Partner) : p.Pumped p := ⟨⟨_, _, _, rfl⟩, fun _ => rfl⟩

/-- Pumping a partner sends messages and moves that partner alone. -/
theorem pumpPartner_keepsCore (c : ChipNo) (n : Nat) (s : State) : s.KeepsCore (pumpPartner c n s) := by
  induction n generalizing s with
  | zero => exact .refl s
  | succ n ih =>
    unfold pumpPartner
    extract_lets p
    split
    · exact .refl s
    · refine .ite (.refl s) (.ite (.ite (.refl s) ?_) (.ite (.refl s) ?_))
      · exact ((s.setPartner_keepsCore c _).trans (State.sendMsg_keepsCore _ _)).trans (ih _)
      · exact (s.setPartner_keepsCore c _).trans (State.sendMsg_keepsCore _ _)

theorem State.pump_keepsCore (s : State) (c : ChipNo) : s.KeepsCore (s.pump c) := pumpPartner_keepsCore c _ s

theorem pumpPartner_partner_other (c : ChipNo) {d : ChipNo} (hd : d ≠ c) (n : Nat) (s : State) :
    (pumpPartner c n s).partner d = s.partner d := by
  induction n generalizing s with
  | zero => rfl
  | succ n ih =>
    unfold pumpPartner
    extract_lets p
    split
    · rfl
    · split
      · rfl
      · split
        · split
          · rfl
          · rw [ih, State.sendMsg_partner, s.setPartner_partner_other _ hd]
        · split
          · rfl
          · rw [State.sendMsg_partner, s.setPartner_partner_other _ hd]

theorem pumpPartner_partner_same (c : ChipNo) (n : Nat) (s : State) : (s.partner c).Pumped ((pumpPartner c n s).partner c) := by
  induction n generalizing s with
  | zero => exact .refl _
  | succ n ih =>
    unfold pumpPartner
    extract_lets p
    split
    · exact .refl _
    · next m rest hout =>
      split
      · exact .refl _
      · split
        · split
          · exact .refl _
          · next hserved hcredit =>
            obtain ⟨⟨o, cr, pr, hq⟩, hcount⟩ := ih ((s.setPartner c { p with out := rest, credits := p.credits - 1 }).sendMsg m)
            rw [State.sendMsg_partner, s.setPartner_partner_same] at hq hcount
            refine ⟨⟨o, cr, pr, hq⟩, fun _ => ?_⟩
            have hcount := hcount hserved
            have hlen : p.out.length = rest.length + 1 := by rw [hout]; rfl
            show _ + p.out.length = p.credits + _
            simp only at hcount
            omega
        · next hserved =>
          split
          · exact .refl _
          · rw [State.sendMsg_partner, s.setPartner_partner_same]
            exact ⟨⟨_, _, _, rfl⟩, fun h => absurd h hserved⟩

theorem State.pump_partner_same (s : State) (c : ChipNo) : (s.partner c).Pumped ((s.pump c).partner c) :=
  pumpPartner_partner_same c _ s

theorem State.pump_partner_other (s : State) {c d : ChipNo} (hd : d ≠ c) : (s.pump c).partner d = s.partner d :=
  pumpPartner_partner_other c hd _ s

/-- Before its first grant one request goes to a partner, whose answer decides. -/
theorem State.pump_probes {s : State} {c : ChipNo} {q : Msg} {r : List Msg} (hout : (s.partner c).out = q :: r)
    (hbacking : (s.partner c).backing = false) (hserved : (s.partner c).served = false) (hprobing : (s.partner c).probing = false)
    (hhalt : s.faults.halted = false) (hup : s.remoteUp c = true) :
    (s.pump c).partner c = { s.partner c with out := r, probing := true } := by
  have hpump : s.pump c = (s.setPartner c { s.partner c with out := r, probing := true }).sendMsg q := by
    simp only [State.pump, hout, List.length_cons, pumpPartner, hbacking, hhalt, hup, hserved, hprobing]
    rfl
  rw [hpump, State.sendMsg_partner, s.setPartner_partner_same]

/-! ## Answers of a partner (R284, R285) -/

section
variable {s : State} {l : Fin 18} {k : Nat} {m : Msg} {rest : List (Nat × Msg)} (hrxq : (s.link l.val).rxq = (k, m) :: rest)
include hrxq

theorem exec_notReady_of_head (hop : m.op = opNotReady) :
    let p := s.partner m.src
    ∃ t, exec (.notReady l) s = .next t ∧ (t.link l.val).rxq = rest ∧ (t.partner m.src).backing = true ∧
      (t.partner m.src).wait = min 1000 (2 * p.wait) ∧ (t.partner m.src).credits = 0 ∧
      (∀ q, s.readNamed m = false → s.groupMsg m = some q → (t.partner m.src).out = q :: p.out) ∧
      (∀ d, d ≠ m.src → t.partner d = s.partner d) ∧ OnlyChanges [.fabric] s t := by
  intro p
  have htook := State.takeMsg_takes (t := s.takeNotReady m) (f := fun m => some (s.takeNotReady m, true)) hrxq hop rfl rfl
  have hsame : (s.takeNotReady m).partner m.src = _ := s.modPartner_partner_same m.src _
  refine ⟨_, rfl, htook.rxq, ?_, ?_, ?_, fun q hread hgroup => ?_, fun d hd => ?_, .trans (s.takeNotReady_changes m) htook.changes⟩
  · rw [htook.partner, hsame]
  · rw [htook.partner, hsame]
  · rw [htook.partner, hsame]
  · rw [htook.partner, hsame]
    simp [hread, hgroup, p]
  · rw [htook.partner]
    exact s.modPartner_partner_other _ hd

/-- A partner that has returned `n` credits, before the requests that wait for it go. -/
def Partner.credited (p : Partner) (n : Nat) : Partner :=
  { p with served := true, credits := p.credits + n, wait := 1, backing := false, probing := false }

theorem exec_credit_of_head (hop : m.op = opCredit) :
    let p := s.partner m.src
    ∃ t, exec (.credit l) s = .next t ∧ (t.link l.val).rxq = rest ∧ (t.partner m.src).served = true ∧
      (t.partner m.src).wait = 1 ∧ (t.partner m.src).backing = false ∧
      (t.partner m.src).credits + p.out.length = p.credits + bits m.word.toNat 15 0 + (t.partner m.src).out.length ∧
      (∀ d, d ≠ m.src → t.partner d = s.partner d) ∧ OnlyChanges [.fabric] s t := by
  intro p
  let u := s.modPartner m.src (Partner.credited · (bits m.word.toNat 15 0))
  have htook := State.takeMsg_takes (t := u.pump m.src) (f := fun m => some (s.takeCredit m, true)) hrxq hop rfl
    ((u.pump_keepsCore m.src).rxq l.val)
  have hpumped := u.pump_partner_same m.src
  rw [s.modPartner_partner_same] at hpumped
  obtain ⟨⟨o, cr, pr, hq⟩, hcount⟩ := hpumped
  refine ⟨_, rfl, htook.rxq, ?_, ?_, ?_, ?_, fun d hd => ?_, .trans (s.takeCredit_changes m) htook.changes⟩
  · rw [htook.partner, hq]; rfl
  · rw [htook.partner, hq]; rfl
  · rw [htook.partner, hq]; rfl
  · rw [htook.partner]; exact hcount rfl
  · rw [htook.partner, u.pump_partner_other hd]
    exact s.modPartner_partner_other _ hd

end

/-! ## Admission and the return of credits (R283 to R285) -/

section
variable {s : State} {c : ChipNo}

/-- A control message to a chip that one link leads to lies in that link's control queue. -/
theorem State.sendMsg_control (s : State) {m : Msg} {q : Nat} (hq : s.routeSet m.dst = [q]) (hop : msgClass m.op = 0) :
    m ∈ ((s.sendMsg m).link q).txq.get [] 0 := by
  have hmem := s.mem_txq_sendMsg m hq (by simp [hop])
  rwa [hop] at hmem

theorem State.returnCredits_of_none (h : (s.partner c).toReturn = 0) : s.returnCredits c = s := by
  simp [State.returnCredits, h]

theorem exec_creditReturnTimer_of_some (h : (s.partner c).toReturn ≠ 0) :
    ∃ t, exec (.creditReturnTimer c) s = .next t ∧ t.partner c = { s.partner c with toReturn := 0 } ∧
      (∀ q, s.routeSet c = [q] → ∃ a ∈ (t.link q).txq.get [] 0, a.op = opCredit ∧ a.dst = c ∧
        a.word = BitVec.ofNat 64 (s.partner c).toReturn) ∧ OnlyChanges [.fabric] s t := by
  let u := s.modPartner c fun p => { p with toReturn := 0 }
  let a := s.msg opCredit c 0 (BitVec.ofNat 64 (s.partner c).toReturn)
  have hsent : s.returnCredits c = u.sendMsg a := by simp only [State.returnCredits, h, if_false]; rfl
  refine ⟨s.returnCredits c, rfl, ?_, fun q hq => ⟨a, ?_, rfl, rfl, rfl⟩, s.returnCredits_changes c⟩
  · rw [hsent, State.sendMsg_partner, s.modPartner_partner_same]
  · rw [hsent]
    exact u.sendMsg_control (m := a) hq rfl

theorem State.grant_partner (s : State) (c : ChipNo) (n : Nat) (adm : Admission) :
    (s.grant c n adm).partner c = { s.partner c with adm := adm, granted := n } := by
  unfold State.grant
  extract_lets more
  rw [State.sendMsg_partner, s.modPartner_partner_same]

theorem State.grant_sends (s : State) {c : ChipNo} (n : Nat) (adm : Admission) {q : Nat} (hq : s.routeSet c = [q]) :
    ∃ a ∈ ((s.grant c n adm).link q).txq.get [] 0, a.op = opCredit ∧ a.word = BitVec.ofNat 64 (n - (s.partner c).granted) :=
  ⟨s.msg opCredit c 0 (BitVec.ofNat 64 (n - (s.partner c).granted)),
    State.sendMsg_control (s.modPartner c fun p => { p with adm := adm, granted := n }) hq rfl, rfl, rfl⟩

theorem State.grant_admitQ (s : State) (c : ChipNo) (n : Nat) (adm : Admission) :
    (s.grant c n adm).fabric.admitQ = s.fabric.admitQ := by
  unfold State.grant
  extract_lets more
  obtain ⟨ls, rr, h⟩ := State.sendMsg_fabric (s.modPartner c fun p => { p with adm := adm, granted := n })
    (s.msg opCredit c 0 (BitVec.ofNat 64 more))
  rw [h]; rfl

section
variable (hready : s.fabricReady = true) (hhalt : s.faults.halted = false)
include hready hhalt

/-- The partner at the head of the queue is granted 128 credits. -/
theorem exec_partnerAdmit_of_head {rest : List ChipNo} (hq : s.fabric.admitQ = c :: rest) :
    ∃ t, exec .partnerAdmit s = .next t ∧ t.fabric.admitQ = rest ∧
      t.partner c = { s.partner c with adm := .ramping 0, granted := 128 } ∧ (t.partner c).inService = true ∧ OnlyChanges [.fabric] s t := by
  let u := s.modFabric fun f => { f with admitQ := rest }
  have hexec : exec .partnerAdmit s = .next (u.grant c 128 (.ramping 0)) := by
    show execPartnerAdmit s = _
    simp only [execPartnerAdmit, hq, hready, hhalt]
    rfl
  have hpartner := u.grant_partner c 128 (.ramping 0)
  exact ⟨_, hexec, u.grant_admitQ _ _ _, hpartner, by rw [hpartner]; rfl, next_changes hexec⟩

/-- The grant of a partner rises by 256. -/
theorem exec_partnerRamp_of_ramping {n g : Nat} {adm : Admission}
    (hn : (n, g, adm) ∈ [(0, 256, Admission.ramping 1), (1, 512, .ramping 2), (2, 768, .ramping 3), (3, 1024, .inService)])
    (hadm : (s.partner c).adm = .ramping n) : exec (.partnerRamp c) s = .next (s.grant c g adm) := by
  show execPartnerRamp c s = _
  fin_cases hn <;> simp [execPartnerRamp, hready, hhalt, hadm]

end

/-- The wait of a partner told to back off has ended. -/
theorem exec_notReadyBackoffEnd_of_backing (hbacking : (s.partner c).backing = true) (hctl : (s.partner c).ctlAgain = false) :
    exec (.notReadyBackoffEnd c) s = .next ((s.modPartner c fun p => { p with backing := false }).pump c) := by
  let u := s.modPartner c fun p => { p with backing := false }
  have hsame : u.sendCtlAgain c = u := by
    unfold State.sendCtlAgain
    rw [s.modPartner_partner_same]
    simp only [hctl]
    rfl
  show execNotReadyBackoffEnd c s = _
  simp only [execNotReadyBackoffEnd, hbacking]
  exact congrArg (fun v : State => Host.Outcome.next (v.pump c)) hsame

end

/-! ## Tallies and barriers (R331, R342, R343) -/

/-- An increment moves its tally alone, and no barrier. -/
theorem State.bump_bars (s : State) (t n : Nat) (who : Issuer) : (s.bump t n who).tally.bars = s.tally.bars := by
  unfold State.bump
  extract_lets sat v s₁ s₂
  split
  · rfl
  · have h₁ : s₁.tally.bars = s.tally.bars := ((State.movedIf_sameTallies _ _).trans (State.lendLower_sameTallies _)).2
    have h₂ : s₂.tally.bars = s.tally.bars :=
      State.tableWritten_elim (P := fun u => u.tally.bars = s.tally.bars) h₁
        (fun u hu => (congrArg (·.bars) (hu .tally (by decide))).trans h₁)
        (fun u hu => (congrArg (·.bars) (hu .tally (by decide))).trans h₁)
    split
    · rw [State.raise_tally, h₂]
    · exact h₂

/-- An increment of a tally that is not frozen, whatever spoils its write and whether it saturates. -/
theorem State.bump_val {s : State} {t n : Nat} (who : Issuer) (hhalt : s.faults.halted = false)
    (hfrozen : t ∉ s.tally.frozen) : (s.bump t n who).tally.val = (s.raised t n).tally.val := by
  unfold State.bump
  extract_lets sat v s₁ s₂
  have h₁ : s₁.tally.val = (s.raised t n).tally.val := ((State.movedIf_sameTallies _ _).trans (State.lendLower_sameTallies _)).1
  have h₂ : s₂.tally.val = (s.raised t n).tally.val :=
    State.tableWritten_elim (P := fun u => u.tally.val = (s.raised t n).tally.val) h₁
      (fun u hu => (congrArg (·.val) (hu .tally (by decide))).trans h₁)
      (fun u hu => (congrArg (·.val) (hu .tally (by decide))).trans h₁)
  rw [if_neg (by simpa [hhalt] using hfrozen)]
  split
  · rw [State.raise_tally, h₂]
  · exact h₂

theorem State.raised_val_same (s : State) (t n : Nat) :
    (s.raised t n).tally.val.get 0 t = BitVec.ofNat 64 (min ((s.tally.val.get 0 t).toNat + n) (2 ^ 64 - 1)) :=
  Store.get_set_same _ _ _ _

/-- A barrier that took part in episodes: its configuration and what its children reported stay, and a barrier that is no root
keeps its last release. -/
def Barrier.Ran (x y : Barrier) : Prop :=
  (∃ rep rel due, y = { x with reported := rep, released := rel, due := due }) ∧ (x.root = false → y.released = x.released)

theorem Barrier.Ran.refl (x : Barrier) : x.Ran x := ⟨⟨_, _, _, rfl⟩, fun _ => rfl⟩

theorem Barrier.Ran.trans {x y z : Barrier} (h : x.Ran y) (k : y.Ran z) : x.Ran z := by
  obtain ⟨⟨rep, rel, due, rfl⟩, hrel⟩ := h
  obtain ⟨⟨rep', rel', due', rfl⟩, hrel'⟩ := k
  exact ⟨⟨_, _, _, rfl⟩, fun hx => (hrel' hx).trans (hrel hx)⟩

/-- Every barrier took part in no more than episodes. -/
def State.BarriersRan (s t : State) : Prop := ∀ b, (s.barrier b).Ran (t.barrier b)

namespace State.BarriersRan
variable {s t u : State}

theorem of_bars (h : t.tally.bars = s.tally.bars) : s.BarriersRan t := fun b => by
  rw [State.barrier, State.barrier, h]
  exact .refl _

theorem of_changes {ps : List Part} (h : OnlyChanges ps s t) (hp : .tally ∉ ps) : s.BarriersRan t :=
  of_bars (congrArg (·.bars) (h .tally hp))

theorem trans (h : s.BarriersRan t) (k : t.BarriersRan u) : s.BarriersRan u := fun b => (h b).trans (k b)

theorem foldl {α : Type} {f : State → α → State} (hf : ∀ (t : State) a, t.BarriersRan (f t a)) (l : List α) (s : State) :
    s.BarriersRan (l.foldl f s) := by
  induction l generalizing s with
  | nil => exact of_bars rfl
  | cons a r ih => exact (hf s a).trans (ih _)

end State.BarriersRan

@[simp] theorem State.setBarrier_barrier_same (s : State) (b : Nat) (x : Barrier) : (s.setBarrier b x).barrier b = x :=
  Store.get_set_same _ _ _ _

theorem State.setBarrier_barrier_other (s : State) {b d : Nat} (x : Barrier) (h : d ≠ b) : (s.setBarrier b x).barrier d = s.barrier d :=
  Store.get_set_other _ _ _ h

theorem State.setBarrier_ran (s : State) {b : Nat} {x : Barrier} (h : (s.barrier b).Ran x) : s.BarriersRan (s.setBarrier b x) :=
  fun d => by
    rcases eq_or_ne d b with rfl | hd
    · rwa [s.setBarrier_barrier_same]
    · rw [s.setBarrier_barrier_other x hd]
      exact .refl _

theorem State.BarriersRan.of_one {s t : State} {b : Nat} (hb : (s.barrier b).Ran (t.barrier b))
    (hother : ∀ d, d ≠ b → t.barrier d = s.barrier d) : s.BarriersRan t := fun d => by
  rcases eq_or_ne d b with rfl | hd
  · exact hb
  · rw [hother d hd]
    exact .refl _

/-- One barrier of two states differs by what is due to be sent, and the others are the same. -/
def State.OnlyDue (b : Nat) (s t : State) : Prop :=
  (∃ due, t.barrier b = { s.barrier b with due := due }) ∧ ∀ d, d ≠ b → t.barrier d = s.barrier d

theorem State.OnlyDue.trans {b : Nat} {s t u : State} (h : State.OnlyDue b s t) (k : State.OnlyDue b t u) : State.OnlyDue b s u := by
  obtain ⟨⟨due, h⟩, ho⟩ := h
  obtain ⟨⟨due', k⟩, ko⟩ := k
  exact ⟨⟨due', by rw [k, h]⟩, fun d hd => (ko d hd).trans (ho d hd)⟩

/-- A barrier message makes no more than an entry due. -/
theorem State.barrierSend_onlyDue (s : State) (b : Nat) (dst : ChipNo) (kind ep : Nat) :
    State.OnlyDue b s (s.barrierSend b dst kind ep) := by
  unfold State.barrierSend
  extract_lets x
  split
  · exact ⟨⟨_, s.setBarrier_barrier_same b _⟩, fun d hd => s.setBarrier_barrier_other _ hd⟩
  · have htally : (s.sendMsg (s.tallyMsg b x dst kind ep)).tally = s.tally := s.sendMsg_changes _ .tally (by decide)
    have hbar d : (s.sendMsg (s.tallyMsg b x dst kind ep)).barrier d = s.barrier d := by rw [State.barrier, htally]; rfl
    exact ⟨⟨_, hbar b⟩, fun d _ => hbar d⟩

theorem State.barrierSend_val (s : State) (b : Nat) (dst : ChipNo) (kind ep : Nat) :
    (s.barrierSend b dst kind ep).tally.val = s.tally.val := by
  unfold State.barrierSend
  extract_lets x
  split
  · rfl
  · exact congrArg (·.val) (s.sendMsg_changes _ .tally (by decide))

theorem State.barrierSend_keepsCore (s : State) (b : Nat) (dst : ChipNo) (kind ep : Nat) : s.KeepsCore (s.barrierSend b dst kind ep) := by
  unfold State.barrierSend
  extract_lets x
  exact .ite (fun _ => rfl) (s.sendMsg_keepsCore _)

theorem State.realignCredits_sameTallies (s : State) (x : Barrier) : SameTallies s (s.realignCredits x) := by
  unfold State.realignCredits
  extract_lets lo hi t
  refine SameTallies.trans ?_ (State.movedIf_sameTallies _ _)
  exact List.foldlRecOn _ _ (motive := fun u => SameTallies s u) ⟨rfl, rfl⟩ fun u hu a _ => hu.trans ⟨rfl, rfl⟩

theorem State.movedIf_frozen (s : State) (b : Bool) : (s.movedIf b).tally.frozen = s.tally.frozen := by
  unfold State.movedIf
  split <;> rfl

theorem State.realignCredits_frozen (s : State) (x : Barrier) : (s.realignCredits x).tally.frozen = s.tally.frozen := by
  unfold State.realignCredits
  extract_lets lo hi t
  rw [State.movedIf_frozen]
  exact List.foldlRecOn _ _ (motive := fun u : State => u.tally.frozen = s.tally.frozen) rfl fun u hu a _ => hu

/-! ## The release of an episode (R342) -/

/-- The state in which a release is noted: credits realigned where that is due, and the release tally raised. -/
def State.releaseRaised (s : State) (b k : Nat) : State :=
  let x := s.barrier b
  (if x.realign ≠ 0 && k % x.realign = 0 then s.realignCredits x else s).bump x.release 1 ⟨6, 0, x.tenant⟩

section
variable (s : State) (b k : Nat)

theorem State.releaseEpisode_eq : s.releaseEpisode b k = (s.barrier b).children.foldl
    (fun t c => t.barrierSend b (BitVec.ofNat 6 c) 2 k)
    ((s.releaseRaised b k).setBarrier b { (s.releaseRaised b k).barrier b with released := BitVec.ofNat 31 k }) := rfl

theorem State.releaseRaised_barrier (d : Nat) : (s.releaseRaised b k).barrier d = s.barrier d := by
  have hbars : (s.releaseRaised b k).tally.bars = s.tally.bars := by
    unfold State.releaseRaised
    extract_lets x
    rw [State.bump_bars]
    split
    · exact (s.realignCredits_sameTallies x).2
    · rfl
  rw [State.barrier, State.barrier, hbars]

/-- The barrier has its last release, and no other barrier moves. -/
theorem State.releaseEpisode_barrier :
    (∃ due, (s.releaseEpisode b k).barrier b = { s.barrier b with released := BitVec.ofNat 31 k, due := due }) ∧
      ∀ d, d ≠ b → (s.releaseEpisode b k).barrier d = s.barrier d := by
  let u := (s.releaseRaised b k).setBarrier b { (s.releaseRaised b k).barrier b with released := BitVec.ofNat 31 k }
  have hdue : State.OnlyDue b u (s.releaseEpisode b k) :=
    List.foldlRecOn _ _ (motive := State.OnlyDue b u) ⟨⟨_, rfl⟩, fun _ _ => rfl⟩ fun v hv c _ => hv.trans (v.barrierSend_onlyDue _ _ _ _)
  obtain ⟨⟨due, hb⟩, hother⟩ := hdue
  refine ⟨⟨due, ?_⟩, fun d hd => ?_⟩
  · rw [hb, State.setBarrier_barrier_same, State.releaseRaised_barrier]
  · rw [hother d hd, State.setBarrier_barrier_other _ _ hd, State.releaseRaised_barrier]

/-- The release tally rises by one. -/
theorem State.releaseEpisode_val (hhalt : s.faults.halted = false) (hfrozen : (s.barrier b).release ∉ s.tally.frozen) :
    (s.releaseEpisode b k).tally.val = (s.raised (s.barrier b).release 1).tally.val := by
  have hsend : (s.releaseEpisode b k).tally.val = (s.releaseRaised b k).tally.val :=
    List.foldlRecOn _ _ (motive := fun v : State => v.tally.val = (s.releaseRaised b k).tally.val) rfl
      fun v hv c _ => (v.barrierSend_val _ _ _ _).trans hv
  rw [hsend]
  unfold State.releaseRaised
  extract_lets x
  split
  · have hsame := (s.realignCredits_sameTallies x).1
    rw [State.bump_val _ (by rw [s.realignCredits_changes x .faults (by decide)]; exact hhalt)
      (by rw [State.realignCredits_frozen]; exact hfrozen)]
    simp only [State.raised, State.modTally, hsame]
    rfl
  · exact State.bump_val _ hhalt hfrozen

theorem State.bump_keepsCore (t n : Nat) (who : Issuer) : s.KeepsCore (s.bump t n who) :=
  .of_changes (s.bump_changes t n who) (by decide)

theorem State.releaseEpisode_keepsCore : s.KeepsCore (s.releaseEpisode b k) := by
  have hrel : s.KeepsCore (s.releaseRaised b k) :=
    (KeepsLinks.ite (.of_changes (s.realignCredits_changes _) (by decide)) (.refl s)).trans (State.bump_keepsCore _ _ _ _)
  rw [State.releaseEpisode_eq]
  exact (hrel.trans fun _ => rfl).trans (.foldl (fun t c => t.barrierSend_keepsCore _ _ _ _) _ _)

end

/-! ## Episodes taken until none is complete (R342) -/

section
variable (s : State) (b : Nat)

/-- A chip that is no root reports its episode to its parent. -/
theorem State.episode_of_not_root {s : State} {b : Nat} (h : (s.barrier b).root = false) :
    ∃ rep, s.episode b = (s.setBarrier b { s.barrier b with reported := rep }).barrierSend b (s.barrier b).parent 1
      ((s.barrier b).reported.toNat + 1) := by
  unfold State.episode
  extract_lets x k u
  exact ⟨_, if_neg (by rw [h]; decide)⟩

theorem State.episode_ran : s.BarriersRan (s.episode b) := by
  have hreport (rep : BitVec 31) : s.BarriersRan (s.setBarrier b { s.barrier b with reported := rep }) :=
    s.setBarrier_ran ⟨⟨_, _, _, rfl⟩, fun _ => rfl⟩
  cases hroot : (s.barrier b).root with
  | false =>
    obtain ⟨rep, h⟩ := State.episode_of_not_root hroot
    obtain ⟨⟨due, hdue⟩, hother⟩ := State.barrierSend_onlyDue (s.setBarrier b { s.barrier b with reported := rep }) b
      (s.barrier b).parent 1 ((s.barrier b).reported.toNat + 1)
    rw [h]
    exact (hreport rep).trans (.of_one ⟨⟨_, _, due, hdue⟩, fun _ => by rw [hdue]⟩ hother)
  | true =>
    unfold State.episode
    extract_lets x k u
    rw [if_pos hroot]
    obtain ⟨⟨due, hdue⟩, hother⟩ := u.releaseEpisode_barrier b k
    have hroot' : (u.barrier b).root = true := by rw [s.setBarrier_barrier_same]; exact hroot
    exact (hreport _).trans (.of_one ⟨⟨_, _, due, hdue⟩, fun h => absurd (hroot'.symm.trans h) (by decide)⟩ hother)

theorem State.episode_keepsCore : s.KeepsCore (s.episode b) := by
  unfold State.episode
  extract_lets x k u
  have hu : s.KeepsCore u := fun _ => rfl
  exact .ite (hu.trans (u.releaseEpisode_keepsCore b k)) (hu.trans (u.barrierSend_keepsCore _ _ _ _))

theorem settleBarriers_ran (n : Nat) (s : State) : s.BarriersRan (settleBarriers n s) := by
  induction n generalizing s with
  | zero => exact .of_bars rfl
  | succ n ih =>
    unfold settleBarriers
    split
    · exact .of_bars rfl
    · exact (s.episode_ran _).trans (ih _)

theorem settleBarriers_keepsCore (n : Nat) (s : State) : s.KeepsCore (settleBarriers n s) := by
  induction n generalizing s with
  | zero => exact .refl s
  | succ n ih =>
    unfold settleBarriers
    split
    · exact .refl s
    · exact (s.episode_keepsCore _).trans (ih _)

theorem State.settle_ran : s.BarriersRan s.settle := by
  unfold State.settle
  split
  · exact .of_bars rfl
  · exact settleBarriers_ran _ s

theorem State.settle_keepsCore : s.KeepsCore s.settle := .ite (.refl s) (settleBarriers_keepsCore _ s)

/-- One barrier alone is enabled, and it is no root. -/
def State.OnlyLeaf (s : State) (b : Nat) : Prop := (∀ d, d ≠ b → (s.barrier d).enabled = false) ∧ (s.barrier b).root = false

variable {s b}

theorem State.OnlyLeaf.of_ran {t : State} (h : s.OnlyLeaf b) (k : s.BarriersRan t) : t.OnlyLeaf b := by
  have hcfg d : (t.barrier d).cfg0 = (s.barrier d).cfg0 := by
    obtain ⟨⟨rep, rel, due, hd⟩, -⟩ := k d
    rw [hd]
  refine ⟨fun d hd => ?_, ?_⟩
  · rw [Barrier.enabled, hcfg]; exact h.1 d hd
  · rw [Barrier.root, hcfg]; exact h.2

/-- A chip whose only barrier is no root raises no tally by the episodes it completes. -/
theorem settleBarriers_val_of_onlyLeaf (n : Nat) (h : s.OnlyLeaf b) : (settleBarriers n s).tally.val = s.tally.val := by
  induction n generalizing s with
  | zero => rfl
  | succ n ih =>
    unfold settleBarriers
    split
    · rfl
    · next d hd =>
      have hready : s.episodeReady d = true := by simpa using List.find?_some hd
      have hdb : d = b := by
        by_contra hne
        simp [State.episodeReady, h.1 d hne] at hready
      subst hdb
      obtain ⟨rep, hep⟩ := State.episode_of_not_root h.2
      have hval : (s.episode d).tally.val = s.tally.val := by rw [hep, State.barrierSend_val]; rfl
      rw [ih (h.of_ran (s.episode_ran d)), hval]

theorem State.settle_val_of_onlyLeaf (h : s.OnlyLeaf b) : s.settle.tally.val = s.tally.val := by
  unfold State.settle
  split
  · rfl
  · exact settleBarriers_val_of_onlyLeaf _ h

end

/-! ## A TALLY message (R344) -/

section
variable {s : State} {m : Msg}

theorem State.takeTally_keepsCore (s : State) (m : Msg) : s.KeepsCore (s.takeTally m) := by
  unfold State.takeTally
  extract_lets kind b ep x up down last
  refine .ite (.refl s) (.ite (.refl s) (.ite (.trans (.ite ?_ ?_) (State.settle_keepsCore _)) ?_))
  · exact fun _ => rfl
  · exact s.releaseEpisode_keepsCore b ep
  · exact .of_changes (s.barrierFault_changes m b kind ep) (by decide)

/-- A repeat of the last message taken has no effect. -/
theorem State.takeTally_of_again (hb : leAt m.data 1 1 < 64) (hep : leAt m.data 8 8 ≠ 0)
    (hlast : leAt m.data 8 8 = (s.barrier (leAt m.data 1 1)).lastFrom (leAt m.data 0 1) m.src) : s.takeTally m = s := by
  unfold State.takeTally
  extract_lets kind b ep x up down last
  split
  · rfl
  · exact if_pos (by simpa using ⟨⟨hb, hep⟩, hlast⟩)

variable (hhalt : s.faults.halted = false)
include hhalt

section
variable (hb : leAt m.data 1 1 < 64) (hen : (s.barrier (leAt m.data 1 1)).enabled = true)
  (hten : m.tenant = (s.barrier (leAt m.data 1 1)).tenant) (hzero : slice m.data 2 6 = zeros 6)
include hb hen hten hzero

/-- The next message of a child or of the parent is taken, and the episodes it completes follow. -/
theorem State.takeTally_of_next
    (hdir : leAt m.data 0 1 = 1 ∧ m.src.toNat ∈ (s.barrier (leAt m.data 1 1)).children ∨
      leAt m.data 0 1 = 2 ∧ (s.barrier (leAt m.data 1 1)).root = false ∧ (s.barrier (leAt m.data 1 1)).parent = m.src)
    (hnext : leAt m.data 8 8 = (s.barrier (leAt m.data 1 1)).lastFrom (leAt m.data 0 1) m.src + 1) :
    let x := s.barrier (leAt m.data 1 1)
    s.takeTally m = (if leAt m.data 0 1 = 1 && x.children.contains m.src.toNat then
      s.setBarrier (leAt m.data 1 1) { x with childRep := x.childRep.set 0 m.src.toNat (leAt m.data 8 8) }
      else s.releaseEpisode (leAt m.data 1 1) (leAt m.data 8 8)).settle := by
  intro x
  unfold State.takeTally
  extract_lets kind b ep y up down last
  have hlast : ep = last + 1 := hnext
  rw [if_neg (by rw [hhalt]; decide), if_neg, if_pos]
  · simp only [Bool.and_eq_true, Bool.or_eq_true, decide_eq_true_eq, beq_iff_eq, up, down, List.contains_iff_mem,
      Bool.not_eq_true']
    exact ⟨⟨⟨⟨⟨hb, hen⟩, hten⟩, hdir.imp id fun ⟨hk, hr, hp⟩ => ⟨⟨hk, hr⟩, hp⟩⟩, hzero⟩, hlast⟩
  · intro h
    simp only [Bool.and_eq_true, decide_eq_true_eq] at h
    omega

theorem State.takeTally_of_up (hkind : leAt m.data 0 1 = 1) (hchild : m.src.toNat ∈ (s.barrier (leAt m.data 1 1)).children)
    (hnext : leAt m.data 8 8 = (s.barrier (leAt m.data 1 1)).childRep.get 0 m.src.toNat + 1) :
    let x := s.barrier (leAt m.data 1 1)
    s.takeTally m = (s.setBarrier (leAt m.data 1 1) { x with childRep := x.childRep.set 0 m.src.toNat (leAt m.data 8 8) }).settle := by
  intro x
  rw [State.takeTally_of_next hhalt hb hen hten hzero (.inl ⟨hkind, hchild⟩) (by rw [hnext, Barrier.lastFrom, if_pos hkind]),
    if_pos (by simpa [hkind] using hchild)]

theorem State.takeTally_of_down (hkind : leAt m.data 0 1 = 2) (hroot : (s.barrier (leAt m.data 1 1)).root = false)
    (hparent : (s.barrier (leAt m.data 1 1)).parent = m.src)
    (hnext : leAt m.data 8 8 = (s.barrier (leAt m.data 1 1)).released.toNat + 1) :
    s.takeTally m = (s.releaseEpisode (leAt m.data 1 1) (leAt m.data 8 8)).settle := by
  rw [State.takeTally_of_next hhalt hb hen hten hzero (.inr ⟨hkind, hroot, hparent⟩)
    (by simp [hnext, Barrier.lastFrom, hkind, hroot, hparent]), if_neg (by simp [hkind])]

end

/-- Any other message raises source 45 and has no other effect. -/
theorem State.takeTally_of_other
    (hagain : ¬ (leAt m.data 1 1 < 64 ∧ leAt m.data 8 8 ≠ 0 ∧
      leAt m.data 8 8 = (s.barrier (leAt m.data 1 1)).lastFrom (leAt m.data 0 1) m.src))
    (hbad : let x := s.barrier (leAt m.data 1 1)
      ¬ ((leAt m.data 1 1 < 64 ∧ x.enabled = true ∧ m.tenant = x.tenant ∧ slice m.data 2 6 = zeros 6) ∧
        (leAt m.data 0 1 = 1 ∧ m.src.toNat ∈ x.children ∨ leAt m.data 0 1 = 2 ∧ x.root = false ∧ x.parent = m.src) ∧
        leAt m.data 8 8 = x.lastFrom (leAt m.data 0 1) m.src + 1)) :
    s.takeTally m = s.barrierFault m (leAt m.data 1 1) (leAt m.data 0 1) (leAt m.data 8 8) := by
  unfold State.takeTally
  extract_lets kind b ep y up down last
  rw [if_neg (by rw [hhalt]; decide), if_neg, if_neg]
  · intro h
    simp only [Bool.and_eq_true, Bool.or_eq_true, decide_eq_true_eq, beq_iff_eq, up, down, List.contains_iff_mem,
      Bool.not_eq_true'] at h
    obtain ⟨⟨⟨⟨⟨hb, hen⟩, hten⟩, hdir⟩, hzero⟩, hnext⟩ := h
    refine hbad ⟨⟨hb, hen, hten, hzero⟩, ?_, hnext⟩
    obtain h | ⟨⟨hk, hr⟩, hp⟩ := hdir
    · exact .inl h
    · exact .inr ⟨hk, hr, hp⟩
  · intro h
    simp only [Bool.and_eq_true, decide_eq_true_eq] at h
    exact hagain ⟨h.1.1, h.1.2, h.2⟩

end

theorem State.barrierFault_stat (s : State) (m : Msg) (b kind ep : Nat) :
    (s.barrierFault m b kind ep).faults.stat.getLsbD 45 = true := by
  unfold State.barrierFault
  exact State.raiseWith_stat_self (show 45 < 64 by decide)

/-- A clock that is not acknowledged is requested. -/
theorem State.clockUp_clkReq (s : State) {i : Nat} (hi : i < 22) (hack : s.power.clkAck.getLsbD i = false) :
    (s.clockUp i).power.clkReq.getLsbD i = true := by
  unfold State.clockUp
  split
  next h => simpa [hack] using h
  next => exact (getLsbD_setBit _ hi).mpr (.inr rfl)

section
variable {s : State} {l : Fin 18} {k : Nat} {m : Msg} {rest : List (Nat × Msg)} (hrxq : (s.link l.val).rxq = (k, m) :: rest)
  (hop : m.op = opTally) (hready : s.fabricReady = true)
include hrxq hop hready

/-- The unit's clock is asked for before a message is taken. -/
theorem exec_tallyMessage_of_no_clock (hon : s.tallyOn = true) (hclock : s.clockOn 16 = false) :
    exec (.tallyMessage l) s = .next (s.clockUp 16) := by
  show execTallyMessage l s = _
  unfold execTallyMessage
  rw [State.takeMsg_keeps (t := s.clockUp 16) hrxq hop]
  simp [hready, hon, hclock]

/-- With its clock the unit takes the message, which leaves the link's buffer. -/
theorem exec_tallyMessage_of_head (hclock : s.tallyOn = true → s.clockOn 16 = true) :
    ∃ t, exec (.tallyMessage l) s = .next t ∧ s.TookHead (s.takeTally m) t l.val rest := by
  refine ⟨_, rfl, State.takeMsg_takes hrxq hop ?_ ((s.takeTally_keepsCore m).rxq l.val)⟩
  cases hon : s.tallyOn with
  | false => simp [hready]
  | true => simp [hready, hclock hon]

end

/-! ## The end of a verb, seen from the links (R24, R28) -/

/-- The end of a verb from a mailbox with its response block. -/
theorem State.finishWith_of_mbox {v : VerbProg} {b : Fin 32} (hv : v.origin = .mbox b) (s : State) (st d : Nat) (resp : Bytes) :
    s.finishWith v st d resp =
      ((s.logVerb v st d).modKeeper fun k => k.endVerb (.mbox b)).modMbox b.val fun x => x.respond resp := by
  cases v
  cases hv
  rfl

theorem State.relayRespond_keepsCore (s : State) (chip : ChipNo) (seq : BitVec 32) (resp : Bytes) :
    s.KeepsCore (s.relayRespond chip seq resp) := by
  unfold State.relayRespond
  extract_lets mine rest u
  exact KeepsLinks.trans (t := u) (fun _ => rfl) (u.sendMsg_keepsCore _)

theorem State.finishWith_keepsCore (s : State) (v : VerbProg) (st d : Nat) (resp : Bytes) : s.KeepsCore (s.finishWith v st d resp) := by
  unfold State.finishWith
  extract_lets ev s₁ s₂
  have h₁ : s.KeepsCore s₁ := .ite (.of_changes (s.event_changes _) (by decide)) (.refl s)
  have h₂ : s.KeepsCore s₂ := h₁.trans fun _ => rfl
  split
  · exact h₂.trans (.of_changes (State.modMbox_changes _ _ _) (by decide))
  · exact h₂.trans (s₂.relayRespond_keepsCore _ _ _)

theorem State.finish_keepsCore (s : State) (v : VerbProg) (st d : Nat) (res : Bytes) : s.KeepsCore (s.finish v st d res) :=
  s.finishWith_keepsCore v st d _

/-! ## A KEEPER message (R36 to R39) -/

section
variable {s : State} {m : Msg}

/-- No relay waits for a chip when no verb is in progress. -/
theorem State.relayNext_of_no_verbs {c : ChipNo} (h : s.keeper.verbs = []) : s.relayNext c = s := by
  simp [State.relayNext, h]

/-- With nothing remembered of its sender, a relayed request runs when its chip has permission, and ends at once otherwise. -/
theorem State.takeRelayed_of_idle (hready : s.keeperReady = true) (hact : s.keeper.activating = false)
    (hverb : s.verb (.relay m.src) = none) (hmemo : s.keeper.relayMemo = []) :
    s.takeRelayed m = some (if !s.keeper.relayAllow.getLsbD m.src.toNat || reqRelay (slice m.data 0 128) then
      s.finish (s.newVerb (.relay m.src) (slice m.data 0 128)) kRelayRefused 0 []
      else s.accept (.relay m.src) (slice m.data 0 128), true) := by
  unfold State.takeRelayed
  simp only [hmemo, List.find?_nil]
  rw [if_neg (by simp [hready, hact, hverb])]
  split
  · rfl
  · rfl

/-- A request accepted without fault is in progress, and the links are as they were. -/
theorem State.accept_runs {o : Origin} {r : Bytes} (hrelay : reqRelay r = false) (hfault : s.acceptFault o r = none) :
    s.newVerb o r ∈ (s.accept o r).keeper.verbs ∧ s.KeepsCore (s.accept o r) := by
  have hmem : s.newVerb o r ∈ (s.withVerb o r).keeper.verbs := by simp [State.withVerb]
  rw [State.accept_of_no_fault hrelay hfault]
  split
  · exact ⟨hmem, fun _ => rfl⟩
  · exact ⟨hmem, fun _ => rfl⟩

/-- The response of a chip ends the one verb that was relayed there. -/
theorem State.takeResponse_of_relayed {v : VerbProg} {b : Fin 32} (hverbs : s.keeper.verbs = [v]) (hstage : v.stage = .relayed)
    (htarget : reqTarget v.req = m.src) (hseq : slice v.req 4 4 = slice m.data 4 4) (ho : v.origin = .mbox b)
    (hbind : (s.mbox b.val).rebind = none) :
    (s.takeResponse m).keeper.verbs = [] ∧ ((s.takeResponse m).mbox b.val).done = true ∧
      ((s.takeResponse m).mbox b.val).busy = false ∧ s.KeepsCore (s.takeResponse m) := by
  let us := satNat 32 ((s.ptime - v.accepted).toNat / 25)
  let u := s.finishWith v (leAt m.data 0 2) (leAt m.data 2 2) (patch (slice m.data 0 128) 12 (leBytes 4 us))
  have hu : u = ((s.logVerb v (leAt m.data 0 2) (leAt m.data 2 2)).modKeeper fun k => k.endVerb (.mbox b)).modMbox b.val
      fun x => x.respond (patch (slice m.data 0 128) 12 (leBytes 4 us)) := State.finishWith_of_mbox ho _ _ _ _
  have hnone : u.keeper.verbs = [] := by
    rw [hu]
    simp [Keeper.endVerb, hverbs, ho]
  have htake : s.takeResponse m = u := by
    unfold State.takeResponse
    simp only [hverbs, hstage, htarget, hseq, List.find?_cons, beq_self_eq_true, Bool.and_true]
    exact State.relayNext_of_no_verbs hnone
  have hbox : (s.logVerb v (leAt m.data 0 2) (leAt m.data 2 2)).mbox b.val = s.mbox b.val := State.logVerb_mbox _ _ _ _ _
  have hmbox : u.mbox b.val = (s.mbox b.val).respond (patch (slice m.data 0 128) 12 (leBytes 4 us)) := by
    rw [hu, State.modMbox_mbox_same]
    exact congrArg (Mailbox.respond · _) hbox
  rw [htake, hmbox, Mailbox.respond_of_no_rebind hbind]
  exact ⟨hnone, rfl, rfl, s.finishWith_keepsCore _ _ _ _⟩

theorem State.takeResponse_of_no_verbs (h : s.keeper.verbs = []) : s.takeResponse m = s := by
  simp [State.takeResponse, h]

end

section
variable {s : State} {l : Fin 18} {k : Nat} {m : Msg} {rest : List (Nat × Msg)} (hrxq : (s.link l.val).rxq = (k, m) :: rest)
  (hop : m.op = opKeeper)
include hrxq hop

/-- A response is taken and leaves the buffer. -/
theorem exec_keeper_of_response (htag : m.tag = 1) (hcore : s.KeepsCore (s.takeResponse m)) :
    ∃ t, exec (.keeper l) s = .next t ∧ s.TookHead (s.takeResponse m) t l.val rest :=
  ⟨_, rfl, State.takeMsg_takes hrxq hop (if_pos htag) (hcore.rxq l.val)⟩

/-- A request that is taken leaves the buffer. -/
theorem exec_keeper_of_request {u : State} (htag : m.tag ≠ 1) (hready : s.fabricReady = true)
    (htake : s.takeRelayed m = some (u, true)) (hcore : s.KeepsCore u) :
    ∃ t, exec (.keeper l) s = .next t ∧ s.TookHead u t l.val rest := by
  refine ⟨_, rfl, State.takeMsg_takes hrxq hop ?_ (hcore.rxq l.val)⟩
  rw [if_neg htag, hready]
  exact htake

end

/-- Settles O49: the answers of a partner by what each leaves of it, TALLY and KEEPER messages by what is taken of them. -/
theorem partnersAreAdmittedAndHeard : Obligations.PartnersAreAdmittedAndHeard := by
  unfold Obligations.PartnersAreAdmittedAndHeard
  refine ⟨⟨?_, ?_⟩, ?_, ?_⟩
  · intro l k m rest s hrxq p
    exact ⟨exec_notReady_of_head hrxq, exec_credit_of_head hrxq⟩
  · intro c s p
    refine ⟨fun hbacking hctl => ?_, fun hbacking => ?_, exec_creditReturnTimer_of_some,
      fun h => congrArg Host.Outcome.next (State.returnCredits_of_none h), fun hready hhalt =>
        ⟨fun rest hq => exec_partnerAdmit_of_head hready hhalt hq, fun n g adm hn hadm => ?_⟩⟩
    · have hexec := exec_notReadyBackoffEnd_of_backing hbacking hctl
      let u := s.modPartner c fun p => { p with backing := false }
      have hu : u.partner c = { p with backing := false } := s.modPartner_partner_same c _
      refine ⟨_, hexec, ?_, fun q r hout hserved hprobing hhalt hup => ?_,
        (s.modPartner_changes c _).trans (u.pump_changes c)⟩
      · obtain ⟨⟨o, cr, pr, h⟩, -⟩ := u.pump_partner_same c
        rw [h, hu]
      · rw [State.pump_probes (s := u) (q := q) (r := r) (by rw [hu]; exact hout) (by rw [hu]) (by rw [hu]; exact hserved)
          (by rw [hu]; exact hprobing) hhalt hup]
        exact ⟨rfl, rfl⟩
    · show execNotReadyBackoffEnd c s = _
      simp only [execNotReadyBackoffEnd]
      rw [if_pos (by rw [show (s.partner c).backing = false from hbacking]; rfl)]
    · exact ⟨_, exec_partnerRamp_of_ramping hready hhalt hn hadm, s.grant_partner c g adm, fun q hq => s.grant_sends g adm hq,
        s.grant_changes c g adm⟩
  · intro l k m rest s hrxq hop hready hhalt b ep x ok up down last again
    refine ⟨fun hon hclock hrest => ?_, fun hclock => ⟨?_, ?_, ?_, ?_⟩⟩
    · refine ⟨_, exec_tallyMessage_of_no_clock hrxq hop hready hon hclock, s.clockUp_changes 16, fun hack => ?_⟩
      exact s.clockUp_clkReq (by decide) hack
    · rintro ⟨hb, hen, hten, hzero⟩ ⟨hkind, hchild⟩ hnext
      obtain ⟨t, hexec, htook⟩ := exec_tallyMessage_of_head hrxq hop hready hclock
      refine ⟨t, hexec, htook.rxq, ?_⟩
      rw [htook.barrier, State.takeTally_of_up hhalt hb hen hten hzero hkind hchild hnext]
      obtain ⟨⟨rep, rel, due, hran⟩, -⟩ := State.settle_ran
        (s.setBarrier b { x with childRep := x.childRep.set 0 m.src.toNat ep }) b
      rw [hran, State.setBarrier_barrier_same]
      exact Store.get_set_same _ _ _ _
    · rintro ⟨hb, hen, hten, hzero⟩ ⟨hkind, hroot, hparent⟩ hnext
      obtain ⟨t, hexec, htook⟩ := exec_tallyMessage_of_head hrxq hop hready hclock
      have htake := State.takeTally_of_down hhalt hb hen hten hzero hkind hroot hparent hnext
      obtain ⟨⟨due, hreleased⟩, hother⟩ := s.releaseEpisode_barrier b ep
      have hleaf : ((s.releaseEpisode b ep).barrier b).root = false := by rw [hreleased]; exact hroot
      refine ⟨t, hexec, htook.rxq, ?_, fun halone hfrozen => ?_⟩
      · obtain ⟨-, hkeep⟩ := (s.releaseEpisode b ep).settle_ran b
        rw [htook.barrier, htake, hkeep hleaf, hreleased]
      · rw [htook.tally, htake, State.settle_val_of_onlyLeaf (b := b) ⟨fun d hd => by rw [hother d hd]; exact halone d hd, hleaf⟩,
          State.releaseEpisode_val s b ep hhalt hfrozen, State.raised_val_same]
    · rintro ⟨hb, hep, hlast⟩
      obtain ⟨t, hexec, htook⟩ := exec_tallyMessage_of_head hrxq hop hready hclock
      rw [State.takeTally_of_again hb hep hlast] at htook
      exact ⟨t, hexec, htook.rxq, htook.tally, htook.changes⟩
    · intro hagain hbad
      obtain ⟨t, hexec, htook⟩ := exec_tallyMessage_of_head hrxq hop hready hclock
      rw [State.takeTally_of_other hhalt hagain hbad] at htook
      refine ⟨t, hexec, htook.rxq, ?_, ?_⟩
      · rw [htook.tally]
        exact s.barrierFault_changes _ _ _ _ .tally (by decide)
      · rw [htook.changes .faults (by decide)]
        exact s.barrierFault_stat _ _ _ _
  · intro l k m rest s hrxq hop req idle
    refine ⟨?_, ?_, ?_, ?_⟩
    · rintro htag ⟨hready, hkeeper, hact, hverb, hmemo⟩ hallow hrelay hfault
      have htake := State.takeRelayed_of_idle hkeeper hact hverb hmemo
      obtain ⟨hmem, hcore⟩ := State.accept_runs hrelay hfault
      rw [hallow, show reqRelay (slice m.data 0 128) = false from hrelay] at htake
      obtain ⟨t, hexec, htook⟩ := exec_keeper_of_request hrxq hop htag hready htake hcore
      refine ⟨t, hexec, htook.rxq, s.newVerb (.relay m.src) req, ?_, rfl, rfl, rfl⟩
      rw [htook.changes .keeper (by decide)]
      exact hmem
    · rintro htag ⟨hready, hkeeper, hact, hverb, hmemo⟩ hallow
      have htake := State.takeRelayed_of_idle hkeeper hact hverb hmemo
      rw [hallow] at htake
      obtain ⟨t, hexec, htook⟩ := exec_keeper_of_request hrxq hop htag hready htake (s.finish_keepsCore _ _ _ _)
      refine ⟨t, hexec, htook.rxq, ?_⟩
      rw [htook.changes .keeper (by decide)]
      simp [State.finish_verbs, State.newVerb]
    · intro v b htag hverbs hstage htarget hseq ho hbind
      obtain ⟨hnone, hdone, hbusy, hcore⟩ := State.takeResponse_of_relayed hverbs hstage htarget hseq ho hbind
      obtain ⟨t, hexec, htook⟩ := exec_keeper_of_response hrxq hop htag hcore
      have hboxes : t.mbox b.val = (s.takeResponse m).mbox b.val := by rw [State.mbox, htook.changes .mboxes (by decide)]; rfl
      refine ⟨t, hexec, htook.rxq, ?_, by rw [hboxes]; exact hdone, by rw [hboxes]; exact hbusy⟩
      rw [htook.changes .keeper (by decide)]
      exact hnone
    · intro htag hverbs
      have hsame := State.takeResponse_of_no_verbs (m := m) hverbs
      obtain ⟨t, hexec, htook⟩ := exec_keeper_of_response hrxq hop htag (hsame.symm ▸ .refl s)
      rw [hsame] at htook
      exact ⟨t, hexec, htook.rxq, htook.changes .keeper (by decide), htook.changes⟩

end Sys2Proof.Machine

/-! # Proofs: remote groups and reads end (R289, R293 to R298, R301) -/
namespace Sys2Proof.Machine

/-! ## What barrier episodes leave of the fabric transport (R342, R343) -/

/-- The fabric transport but for the links and the turns of the routes. -/
def Fabric.settled (f : Fabric) : Fabric := { f with links := [], rr := [] }

/-- Of the fabric transport no more than messages moved. -/
def State.OnlySends (s t : State) : Prop := t.fabric.settled = s.fabric.settled

namespace State.OnlySends
variable {s t u : State}

theorem of_changes {ps : List Part} (h : OnlyChanges ps s t) (hp : .fabric ∉ ps) : s.OnlySends t :=
  congrArg Fabric.settled (h .fabric hp)

theorem trans (h : s.OnlySends t) (k : t.OnlySends u) : s.OnlySends u := Eq.trans k h

theorem ite {c : Prop} [Decidable c] (h : s.OnlySends t) (k : s.OnlySends u) : s.OnlySends (if c then t else u) := by
  split <;> assumption

theorem rxGroup (h : s.OnlySends t) (c : ChipNo) (g : Nat) : t.rxGroup c g = s.rxGroup c g := by
  show t.fabric.settled.rxGroups.get {} _ = s.fabric.settled.rxGroups.get {} _
  rw [show t.fabric.settled = s.fabric.settled from h]

end State.OnlySends

theorem State.sendMsg_onlySends (s : State) (m : Msg) : s.OnlySends (s.sendMsg m) := by
  obtain ⟨ls, rr, h⟩ := s.sendMsg_fabric m
  rw [h]; rfl

theorem State.barrierSend_onlySends (s : State) (b : Nat) (dst : ChipNo) (kind ep : Nat) : s.OnlySends (s.barrierSend b dst kind ep) :=
  .ite rfl (s.sendMsg_onlySends _)

theorem State.releaseEpisode_onlySends (s : State) (b k : Nat) : s.OnlySends (s.releaseEpisode b k) := by
  have hraised : s.OnlySends (s.releaseRaised b k) :=
    .trans (.ite (.of_changes (s.realignCredits_changes _) (by decide)) rfl) (.of_changes (State.bump_changes _ _ _ _) (by decide))
  rw [State.releaseEpisode_eq]
  exact List.foldlRecOn _ _ (motive := fun t => s.OnlySends t) hraised fun t ht c _ => ht.trans (t.barrierSend_onlySends _ _ _ _)

theorem State.episode_onlySends (s : State) (b : Nat) : s.OnlySends (s.episode b) := by
  unfold State.episode
  extract_lets x k u
  exact .ite (u.releaseEpisode_onlySends b k) (u.barrierSend_onlySends _ _ _ _)

theorem settleBarriers_onlySends (n : Nat) (s : State) : s.OnlySends (settleBarriers n s) := by
  induction n generalizing s with
  | zero => rfl
  | succ n ih =>
    unfold settleBarriers
    split
    · rfl
    · exact (s.episode_onlySends _).trans (ih _)

theorem State.increment_onlySends (s : State) (t n : Nat) (who : Issuer) : s.OnlySends (s.increment t n who) :=
  .trans (.of_changes (s.bump_changes t n who) (by decide)) (.ite rfl (settleBarriers_onlySends _ _))

theorem State.increment_keepsCore (s : State) (t n : Nat) (who : Issuer) : s.KeepsCore (s.increment t n who) :=
  (s.bump_keepsCore t n who).trans (State.settle_keepsCore _)

/-! ## The end of a group at the receiver (R293, R294, R296) -/

section
variable {s : State} {chip : ChipNo} {g : BitVec 6} {r : FabReq} (hlid : (s.rxGroup chip g.toNat).lid = some r)
  (hissued : (s.rxGroup chip g.toNat).lidIssued = true) (hflight : (s.rxGroup chip g.toNat).inFlight = 0)
  (hhalt : s.faults.halted = false)
include hlid hissued hflight hhalt

/-- While the tally unit does not work the increment waits. -/
theorem exec_lidDataLanded_of_held (hen : lidEn r.msg.word = true) (hruns : s.tallyRuns = false) :
    exec (.lidDataLanded chip g) s = .next s.holdTally := by
  show execLidDataLanded chip g s = _
  simp [execLidDataLanded, hlid, hissued, hflight, hhalt, hen, hruns]

/-- The state once the lid's increment has been applied, before it is answered. -/
def State.lidApplied (s : State) (chip : ChipNo) (g : Nat) (r : FabReq) : State :=
  let w := r.msg.word
  let s := s.setRxGroup chip g {}
  if lidEn w then s.increment (lidTally w) (lidInc w) { mkind := 3, mid := chip.toNat, tenant := r.msg.tenant } else s

theorem exec_lidDataLanded_of_runs (hruns : lidEn r.msg.word = true → s.tallyRuns = true) :
    exec (.lidDataLanded chip g) s = .next ((s.lidApplied chip g.toNat r).answer r.msg opLanded 0) := by
  show execLidDataLanded chip g s = _
  cases hen : lidEn r.msg.word with
  | false => simp [execLidDataLanded, State.lidApplied, hlid, hissued, hflight, hhalt, hen]
  | true => simp [execLidDataLanded, State.lidApplied, hlid, hissued, hflight, hhalt, hen, hruns hen]

end

section
variable (s : State) (chip : ChipNo) (g : Nat) (r : FabReq)

theorem State.lidApplied_rxGroup : (s.lidApplied chip g r).rxGroup chip g = {} := by
  unfold State.lidApplied
  extract_lets w u
  have hu : u.rxGroup chip g = {} := s.setRxGroup_rxGroup_same chip g {}
  split
  · rw [(u.increment_onlySends _ _ _).rxGroup, hu]
  · exact hu

theorem State.lidApplied_keepsCore : s.KeepsCore (s.lidApplied chip g r) := by
  unfold State.lidApplied
  extract_lets w u
  have hu : s.KeepsCore u := s.setRxGroup_keepsCore chip g {}
  exact .ite (hu.trans (u.increment_keepsCore _ _ _)) hu

theorem State.lidApplied_inp : (s.lidApplied chip g r).inp = s.inp := by
  unfold State.lidApplied
  extract_lets w u
  split
  · exact u.increment_changes _ _ _ .inp (by decide)
  · rfl

variable {s r}

theorem State.lidApplied_tally (hen : lidEn r.msg.word = false) : (s.lidApplied chip g r).tally = s.tally := by
  simp only [State.lidApplied, hen]
  rfl

/-- With no barrier set up the lid's tally rises by its increment. -/
theorem State.lidApplied_val (hen : lidEn r.msg.word = true) (hhalt : s.faults.halted = false) (hbars : s.tally.bars = [])
    (hfrozen : lidTally r.msg.word ∉ s.tally.frozen) :
    (s.lidApplied chip g r).tally.val.get 0 (lidTally r.msg.word) = BitVec.ofNat 64
      (min ((s.tally.val.get 0 (lidTally r.msg.word)).toNat + lidInc r.msg.word) (2 ^ 64 - 1)) := by
  unfold State.lidApplied
  extract_lets w u
  rw [if_pos hen, State.increment, State.settle_of_no_bars ((u.bump_bars _ _ _).trans hbars), State.bump_val (s := u) _ hhalt hfrozen,
    State.raised_val_same]
  rfl

end

/-! ## A group given up by its receiver (R294, R296) -/

theorem State.dropFabSlot_fabric (s : State) (r : FabReq) : (s.dropFabSlot r).fabric = s.fabric :=
  s.dropFabSlot_changes r .fabric (by decide)

theorem State.dropFabSlot_fab (s : State) (r : FabReq) (f : Nat) : ((s.dropFabSlot r).frame f).fab = (s.frame f).fab := by
  unfold State.dropFabSlot
  split
  · exact s.modFrame_fab _ f fun _ => rfl
  · rfl

theorem State.dropLid_lid (s : State) (c : ChipNo) (g : Nat) : ((s.dropLid c g).rxGroup c g).lid = none := by
  unfold State.dropLid
  extract_lets x
  split
  · assumption
  · extract_lets u
    rw [State.setRxGroup_rxGroup_same]

theorem State.foldl_dropFabSlot_changes (s : State) (rs : List FabReq) : OnlyChanges [.frames] s (rs.foldl State.dropFabSlot s) :=
  .foldl _ (fun t r => t.dropFabSlot_changes r) rs s (.refl _ _)

/-- A group without a counter has nothing to abandon. -/
theorem State.abandoned_of_not_live {s : State} {m : Msg} (h : (s.rxGroup m.src m.group).live = false) : s.abandoned m = s := by
  simp [State.abandoned, h]

theorem State.abandoned_rxGroup {s : State} {m : Msg} (h : (s.rxGroup m.src m.group).live = true) :
    ((s.abandoned m).rxGroup m.src m.group).refused = true ∧ ((s.abandoned m).rxGroup m.src m.group).lid = none ∧
      ((s.abandoned m).rxGroup m.src m.group).landed = 0 := by
  unfold State.abandoned
  rw [if_neg (by rw [h]; decide)]
  extract_lets u x f mine v
  rw [State.setRxGroup_rxGroup_same]
  exact ⟨rfl, s.dropLid_lid _ _, rfl⟩

theorem State.abandoned_keepsCore (s : State) (m : Msg) : s.KeepsCore (s.abandoned m) := by
  unfold State.abandoned
  split
  · exact .refl s
  · extract_lets u x f mine v
    have hu : s.KeepsCore u := s.dropLid_keepsCore _ _
    have hv : u.KeepsCore v := .of_changes (u.foldl_dropFabSlot_changes _) (by decide)
    exact (hu.trans hv).trans fun _ => rfl

/-! ## A request dropped before it is issued (R301) -/

section
variable {s : State} {chip : ChipNo}

/-- The oldest request of the partner in the serving frame goes. -/
theorem exec_receiverRequestDrop_of_frame {r : FabReq}
    (hfind : (s.frame (servingFrame chip)).fab.find? (fun r => r.msg.src == chip) = some r) :
    ∃ t, exec (.receiverRequestDrop chip) s = .next t ∧
      (t.frame (servingFrame chip)).fab = (s.frame (servingFrame chip)).fab.erase r ∧ OnlyChanges [.fabric, .frames] s t := by
  let f := servingFrame chip
  let u := (s.dropFabSlot r).modFrame f fun y => { y with fab := y.fab.erase r }
  have hfab : (u.frame f).fab = (s.frame f).fab.erase r := by
    rw [State.modFrame_frame_same, s.dropFabSlot_fab]
  have hch : OnlyChanges [.fabric, .frames] s u :=
    ((s.dropFabSlot_changes r).step (State.modFrame_changes _ _ _) (by decide)).mono (by decide)
  have hexec : exec (.receiverRequestDrop chip) s = .next (if r.msg.op == opRead then u.freeCredit chip else
      u.setRxGroup chip r.msg.group { u.rxGroup chip r.msg.group with
        inFlight := (u.rxGroup chip r.msg.group).inFlight - 1,
        lid := if r.msg.op == opLid then none else (u.rxGroup chip r.msg.group).lid,
        lidIssued := (u.rxGroup chip r.msg.group).lidIssued && r.msg.op != opLid }) := by
    show execReceiverRequestDrop chip s = _
    simp only [execReceiverRequestDrop, hfind]
    rfl
  refine ⟨_, hexec, ?_, ?_⟩
  · split
    · rw [State.freeCredit_frame]; exact hfab
    · exact hfab
  · exact .ite (hch.step (u.freeCredit_changes chip) (by decide)) (hch.step (State.setRxGroup_changes _ _ _ _) (by decide))

/-- With nothing in the frame and nothing in the buffers the first held lid goes. -/
theorem exec_receiverRequestDrop_of_lid {g : Nat}
    (hfind : (s.frame (servingFrame chip)).fab.find? (fun r => r.msg.src == chip) = none) (hempty : ∀ l ∈ linkNos, (s.link l).rxq = [])
    (hg : g < 64) (hlid : (s.rxGroup chip g).lid ≠ none) (hissued : (s.rxGroup chip g).lidIssued = false)
    (hfirst : ∀ h, h < g → (s.rxGroup chip h).lid = none) : exec (.receiverRequestDrop chip) s = .next (s.dropLid chip g) := by
  have hlinks (p : Nat × Msg → Bool) : linkNos.find? (fun l => (s.link l).rxq.any p) = none :=
    List.find?_eq_none.mpr fun l hl => by simp [hempty l hl]
  have hgroup : (List.range 64).find? (fun g => (s.rxGroup chip g).lid.isSome && !(s.rxGroup chip g).lidIssued) = some g := by
    rw [List.find?_range_eq_some]
    refine ⟨?_, List.mem_range.mpr hg, fun h hh => ?_⟩
    · simp [hissued, Option.isSome_iff_ne_none.mpr hlid]
    · simp [hfirst h hh]
  show execReceiverRequestDrop chip s = _
  simp only [execReceiverRequestDrop, hfind, hlinks, hgroup]

end

/-! ## No group and no read is taken by an early end (R75, R298) -/

/-- No group number and no read tag is taken that was free. -/
def State.TakesNone (s t : State) : Prop :=
  (∀ k, (t.fabric.txGroups.get {} k).used = true → (s.fabric.txGroups.get {} k).used = true) ∧
    ∀ k, (t.fabric.txReads.get {} k).used = true → (s.fabric.txReads.get {} k).used = true

namespace State.TakesNone
variable {s t u : State}

theorem refl (s : State) : s.TakesNone s := ⟨fun _ => id, fun _ => id⟩

theorem trans (h : s.TakesNone t) (k : t.TakesNone u) : s.TakesNone u :=
  ⟨fun i hi => h.1 i (k.1 i hi), fun i hi => h.2 i (k.2 i hi)⟩

theorem of_eq (hg : t.fabric.txGroups = s.fabric.txGroups) (hr : t.fabric.txReads = s.fabric.txReads) : s.TakesNone t := by
  rw [State.TakesNone, hg, hr]
  exact ⟨fun _ => id, fun _ => id⟩

theorem of_changes {ps : List Part} (h : OnlyChanges ps s t) (hp : .fabric ∉ ps) : s.TakesNone t :=
  .of_eq (congrArg (·.txGroups) (h .fabric hp)) (congrArg (·.txReads) (h .fabric hp))

theorem foldl {α : Type} {f : State → α → State} (hf : ∀ (t : State) a, t.TakesNone (f t a)) (l : List α) (s : State) :
    s.TakesNone (l.foldl f s) := by
  induction l generalizing s with
  | nil => exact refl s
  | cons a r ih => exact (hf s a).trans (ih _)

theorem txGroup (h : s.TakesNone t) {c : ChipNo} {g : Nat} (hs : (s.txGroup c g).used = false) : (t.txGroup c g).used = false := by
  by_contra ht
  exact absurd (h.1 _ (by simpa [State.txGroup] using ht)) (by simpa [State.txGroup] using hs)

theorem txRead (h : s.TakesNone t) {c : ChipNo} {i : Nat} (hs : (s.txRead c i).used = false) : (t.txRead c i).used = false := by
  by_contra ht
  exact absurd (h.2 _ (by simpa [State.txRead] using ht)) (by simpa [State.txRead] using hs)

end State.TakesNone

@[simp] theorem State.setTxGroup_txGroup_same (s : State) (c : ChipNo) (g : Nat) (x : TxGroup) : (s.setTxGroup c g x).txGroup c g = x :=
  Store.get_set_same _ _ _ _

theorem State.setTxGroup_txGroup_other (s : State) (c : ChipNo) {g h : Nat} (x : TxGroup) (hne : h ≠ g) :
    (s.setTxGroup c g x).txGroup c h = s.txGroup c h :=
  Store.get_set_other _ _ _ (by omega)

@[simp] theorem State.setTxRead_txRead_same (s : State) (c : ChipNo) (g : Nat) (x : TxRead) : (s.setTxRead c g x).txRead c g = x :=
  Store.get_set_same _ _ _ _

/-- A group number given an entry that is in use no more than the one it had. -/
theorem State.setTxGroup_takesNone (s : State) (c : ChipNo) (g : Nat) {x : TxGroup} (h : x.used = true → (s.txGroup c g).used = true) :
    s.TakesNone (s.setTxGroup c g x) := by
  refine ⟨fun k hk => ?_, fun k hk => hk⟩
  rcases eq_or_ne k (c.toNat * 64 + g) with rfl | hne
  · exact h (by simpa [State.setTxGroup, State.modFabric] using hk)
  · simpa [State.setTxGroup, State.modFabric, Store.get_set_other _ _ _ hne] using hk

theorem State.setTxRead_takesNone (s : State) (c : ChipNo) (i : Nat) {x : TxRead} (h : x.used = true → (s.txRead c i).used = true) :
    s.TakesNone (s.setTxRead c i x) := by
  refine ⟨fun k hk => hk, fun k hk => ?_⟩
  rcases eq_or_ne k (c.toNat * 1024 + i) with rfl | hne
  · exact h (by simpa [State.setTxRead, State.modFabric] using hk)
  · simpa [State.setTxRead, State.modFabric, Store.get_set_other _ _ _ hne] using hk

theorem State.sendMsg_takesNone (s : State) (m : Msg) : s.TakesNone (s.sendMsg m) := by
  obtain ⟨ls, rr, h⟩ := s.sendMsg_fabric m
  rw [h]
  exact .of_eq rfl rfl

/-! ## An early end, seen from the fabric transport (R75, R298) -/

section
variable (s : State)

theorem State.dropGroupOut_keepsCore (d : ChipNo) (g : Nat) : s.KeepsCore (s.dropGroupOut d g) := fun _ => rfl

theorem State.abandonGroup_keepsCore (d : ChipNo) (g : Nat) : s.KeepsCore (s.abandonGroup d g) :=
  KeepsLinks.trans (t := (s.dropGroupOut d g).setTxGroup d g { cooling := true }) (fun _ => rfl) (State.sendMsg_keepsCore _ _)

theorem State.abandonGroup_takesNone (d : ChipNo) (g : Nat) : s.TakesNone (s.abandonGroup d g) :=
  ((TakesNone.of_eq rfl rfl).trans ((s.dropGroupOut d g).setTxGroup_takesNone d g (x := { cooling := true }) fun h => nomatch h)).trans
    (State.sendMsg_takesNone _ _)

/-- The number of an abandoned group is not in use. -/
theorem State.abandonGroup_used (d : ChipNo) (g : Nat) : ((s.abandonGroup d g).txGroup d g).used = false := by
  have hrests := ((s.dropGroupOut d g).setTxGroup_txGroup_same d g { cooling := true })
  exact (State.sendMsg_takesNone _ _).txGroup (by rw [hrests])

theorem State.dropReads_keepsCore (c : CtxNo) (id : Nat) : s.KeepsCore (s.dropReads c id) := by
  unfold State.dropReads
  refine .foldl (fun t e => ?_) _ s
  extract_lets x mine u
  exact .ite (fun _ => rfl) fun _ => rfl

theorem State.dropReads_takesNone (c : CtxNo) (id : Nat) : s.TakesNone (s.dropReads c id) := by
  unfold State.dropReads
  refine .foldl (fun t e => ?_) _ s
  extract_lets x mine u
  split
  · exact (t.setTxRead_takesNone e.1 e.2 (x := {}) fun h => nomatch h).trans (.of_eq rfl rfl)
  · exact t.setTxRead_takesNone e.1 e.2 fun h => h

theorem State.dropHeld_keepsCore (c : CtxNo) (id : Nat) : s.KeepsCore (s.dropHeld c id) :=
  (((KeepsLinks.of_changes (s.dropSvc_changes c id) (by decide)).trans (State.dropReads_keepsCore _ c id)).trans
    (.of_changes (State.dropSlots_changes _ c id) (by decide))).trans
      (.foldl (fun t e => t.abandonGroup_keepsCore _ _) _ _)

theorem State.dropHeld_takesNone (c : CtxNo) (id : Nat) : s.TakesNone (s.dropHeld c id) :=
  (((TakesNone.of_changes (s.dropSvc_changes c id) (by decide)).trans (State.dropReads_takesNone _ c id)).trans
    (.of_changes (State.dropSlots_changes _ c id) (by decide))).trans
      (.foldl (fun t e => t.abandonGroup_takesNone _ _) _ _)

variable (c : CtxNo) (id status detail : Nat)

theorem State.endWork_keepsCore : s.KeepsCore (s.endWork c id status detail) := by
  obtain h | h := s.endWork_cases c id status detail <;> rw [h]
  · exact .refl s
  · exact KeepsLinks.trans (fun _ => rfl) (State.dropHeld_keepsCore _ c id)

theorem State.endWork_takesNone : s.TakesNone (s.endWork c id status detail) := by
  obtain h | h := s.endWork_cases c id status detail <;> rw [h]
  · exact .refl s
  · exact TakesNone.trans (.of_eq rfl rfl) (State.dropHeld_takesNone _ c id)

end

/-! ## A group or a read that fails (R298) -/

section
variable (s : State) (chip : ChipNo) (g status : Nat) (detail : ChipNo)

theorem State.failGroup_keepsCore : s.KeepsCore (s.failGroup chip g status detail) := by
  unfold State.failGroup
  extract_lets x u
  have hu : s.KeepsCore u := s.endWork_keepsCore _ _ _ _
  exact .ite (.refl s) (.ite (hu.trans (u.abandonGroup_keepsCore _ _)) hu)

theorem State.failGroup_takesNone : s.TakesNone (s.failGroup chip g status detail) := by
  unfold State.failGroup
  extract_lets x u
  have hu : s.TakesNone u := s.endWork_takesNone _ _ _ _
  split
  · exact .refl s
  · split
    · exact hu.trans (u.abandonGroup_takesNone _ _)
    · exact hu

/-- The number of a group that failed is not in use. -/
theorem State.failGroup_used : ((s.failGroup chip g status detail).txGroup chip g).used = false := by
  unfold State.failGroup
  extract_lets x u
  split
  next h => simpa using h
  next =>
    split
    · exact u.abandonGroup_used chip g
    next h => simpa using h

theorem State.failRead_keepsCore : s.KeepsCore (s.failRead chip g status detail) := by
  unfold State.failRead
  extract_lets x u
  have hu : s.KeepsCore u := (s.endWork_keepsCore _ _ _ _).trans fun _ => rfl
  exact .ite (.refl s) (hu.trans fun _ => rfl)

theorem State.failRead_takesNone : s.TakesNone (s.failRead chip g status detail) := by
  unfold State.failRead
  extract_lets x u
  split
  · exact .refl s
  · exact ((s.endWork_takesNone _ _ _ _).trans (State.setTxRead_takesNone _ chip g (x := {}) fun h => nomatch h)).trans (.of_eq rfl rfl)

/-- The tag of a read that failed is not in use. -/
theorem State.failRead_used : ((s.failRead chip g status detail).txRead chip g).used = false := by
  unfold State.failRead
  extract_lets x u
  split
  next h => simpa using h
  next =>
    show (u.txRead chip g).used = false
    exact congrArg TxRead.used (State.setTxRead_txRead_same _ chip g {})

end

/-! ## A READ_DATA message (R297) -/

/-- A slot that is no tile tag and whose check code holds is one read less in flight for its descriptor when it holds data. -/
theorem State.workSlotDone_of_no_tag {s : State} {f n : Nat} {c : CtxNo} {id : Nat} (hwhat : (s.slot f n).what ≠ .tag)
    (hflips : (s.slot f n).flips = 0) (hwork : (s.work c id).isSome = true) :
    s.workSlotDone f n c id = if (s.slot f n).what = .data then s.modWork c id Work.readBack else s := by
  let u := if (s.slot f n).what = .data then s.modWork c id Work.readBack else s
  have hslot : u.slot f n = s.slot f n := by unfold u; split <;> rfl
  have hlive : (u.work c id).isNone = false := by
    unfold u
    split
    · rw [State.work, State.modWork_ctx_same]
      have hfind := find?_updateFirst (p := fun w : Work => w.id = id) (f := Work.readBack) (fun _ h => h) (s.ctx c).works
      rw [hfind, Option.isNone_map]
      simpa [State.work] using hwork
    · simpa using hwork
  have hecc : u.slotEcc f n = (u, true) := by
    rw [State.slotEcc, hslot]
    exact if_pos hflips
  have hfilled : u.slotFilled f n = u := by
    unfold State.slotFilled
    rw [hslot]
    simp only [beq_eq_false_iff_ne.mpr hwhat, Bool.and_false]
    split <;> rfl
  have hback : (if (s.slot f n).what == .data || (s.slot f n).what == .tag then s.modWork c id Work.readBack else s) = u := by
    rw [beq_eq_false_iff_ne.mpr hwhat, Bool.or_false]
    simp only [beq_iff_eq]
    rfl
  unfold State.workSlotDone
  extract_lets q t r
  have hr : r = (u, true) := by
    rw [← hecc, ← hback]
    rfl
  rw [hr, hlive, if_neg (by decide), if_pos rfl]
  exact hfilled

section
variable {s : State} {m q : Msg}

/-- Data for a read in flight fills its slot and frees its tag. -/
theorem State.takeReadData_of_named (hused : (s.txRead m.src m.tag.toNat).used = true)
    (hmsg : (s.txRead m.src m.tag.toNat).msg = some q) (haddr : q.addr = m.addr) :
    let x := s.txRead m.src m.tag.toNat
    s.takeReadData m = ((s.setTxRead m.src m.tag.toNat {}).fillSlot x.frame x.slot (q.addr.toNat % 256) (s.slot x.frame x.slot).want
      (slice m.data 0 q.len)).workSlotDone x.frame x.slot x.ctx x.work := by
  intro x
  simp only [State.takeReadData, hused, hmsg]
  rw [if_neg (by simp [haddr]), show (s.setTxRead m.src m.tag.toNat {}).slot = s.slot from rfl]

/-- Data for an address that no read of its tag asked for is discarded. -/
theorem State.takeReadData_of_unnamed
    (h : (s.txRead m.src m.tag.toNat).used = false ∨ ((s.txRead m.src m.tag.toNat).msg = some q ∧ q.addr ≠ m.addr)) :
    s.takeReadData m = s := by
  unfold State.takeReadData
  extract_lets x
  obtain hused | ⟨hmsg, haddr⟩ := h
  · have hx : x.used = false := hused
    rw [hx]
  · have hx : x.msg = some q := hmsg
    rw [hx]
    cases x.used with
    | false => rfl
    | true => exact if_pos (by simpa using haddr)

end

section
variable {s : State} {l : Fin 18} {k : Nat} {m q : Msg} {rest : List (Nat × Msg)} (hrxq : (s.link l.val).rxq = (k, m) :: rest)
include hrxq

theorem exec_readData_of_named (hop : m.op = opReadData) :
    let x := s.txRead m.src m.tag.toNat
    let q₀ := s.slot x.frame x.slot
    x.used = true → x.msg = some q → q.addr = m.addr → q₀.what ≠ .tag → q₀.flips = 0 → s.faults.flipPantry.get 0 x.frame = 0 →
      (s.work x.ctx x.work).isSome = true →
      ∃ t, exec (.readData l) s = .next t ∧ (t.link l.val).rxq = rest ∧ t.txRead m.src m.tag.toNat = {} ∧
        (t.slot x.frame x.slot).have_ = q₀.have_ ||| q₀.want ∧
        (∀ i, i < q.len → (t.slot x.frame x.slot).data.get 0 (q.addr.toNat % 256 + i) = m.data.getD i 0) ∧
        (∀ w, q₀.what = .data → (s.ctx x.ctx).works = [w] → w.id = x.work →
          (t.ctx x.ctx).works = [{ w with readsOut := w.readsOut - 1 }]) := by
  intro x q₀ hused hmsg haddr hwhat hflips hpantry hwork
  let u := (s.setTxRead m.src m.tag.toNat {}).fillSlot x.frame x.slot (q.addr.toNat % 256) q₀.want (slice m.data 0 q.len)
  let v := if q₀.what = .data then u.modWork x.ctx x.work Work.readBack else u
  have hslot : u.slot x.frame x.slot = q₀.filled (q.addr.toNat % 256) q₀.want (slice m.data 0 q.len) 0 := by
    rw [State.fillSlot_slot_same, show (s.setTxRead m.src m.tag.toNat {}).faults.flipPantry.get 0 x.frame = 0 from hpantry]
    rfl
  have hdone : s.takeReadData m = v := by
    rw [State.takeReadData_of_named hused hmsg haddr]
    refine (State.workSlotDone_of_no_tag (s := u) ?_ ?_ hwork).trans ?_
    · rw [hslot]; exact hwhat
    · rw [hslot]; simp [Slot.filled, hflips]
    · rw [hslot]; rfl
  have hv : OnlyChanges [.ctxs] u v := .ite (u.modWork_changes _ _ _) (.refl _ _)
  have hcore : s.KeepsCore v := State.KeepsLinks.trans (t := u) (fun _ => rfl) (.of_changes hv (by decide))
  have htook := State.takeMsg_takes (f := fun m => some (s.takeReadData m, true)) hrxq hop (by rw [hdone]) (hcore.rxq l.val)
  have hslotv : (s.takeMsg l.val opReadData fun m => some (s.takeReadData m, true)).slot x.frame x.slot = u.slot x.frame x.slot :=
    State.slot_congr ((htook.frame _).trans (State.frame_congr (hv .frames (by decide)) _)) _
  refine ⟨_, rfl, htook.rxq, ?_, ?_, fun i hi => ?_, fun w hdata hw hid => ?_⟩
  · rw [htook.txRead, State.txRead, hv .fabric (by decide)]
    exact s.setTxRead_txRead_same _ _ _
  · rw [hslotv, hslot]; rfl
  · rw [hslotv, hslot]; exact Slot.filled_data_inside hi
  · have huw : (u.ctx x.ctx).works = w :: [] := hw
    rw [htook.changes.ctx_eq (by decide), show v = u.modWork x.ctx x.work Work.readBack from if_pos hdata, ← hid,
      State.modWork_head huw, State.setCtx_ctx_same]
    rfl

theorem exec_readData_of_unnamed (hop : m.op = opReadData) :
    let x := s.txRead m.src m.tag.toNat
    x.used = false ∨ (x.msg = some q ∧ q.addr ≠ m.addr) → ∃ t, exec (.readData l) s = .next t ∧ (t.link l.val).rxq = rest ∧
      t.txRead m.src m.tag.toNat = x ∧ OnlyChanges [.fabric] s t := by
  intro x h
  have hsame := State.takeReadData_of_unnamed h
  have htook := State.takeMsg_takes (f := fun m => some (s.takeReadData m, true)) hrxq hop (by rw [hsame]) rfl
  exact ⟨_, rfl, htook.rxq, htook.txRead _ _, htook.changes⟩

end

/-! ## A LANDED message (R293) -/

/-- An answer that no group closed with its lid sent waits for changes nothing. -/
theorem State.takeLanded_of_unused {s : State} {m : Msg} (h : (s.txGroup m.src m.group).used = false) : s.takeLanded m = s := by
  simp [State.takeLanded, h]

/-- The posts of a landed group are marked in its context alone. -/
theorem State.takeLanded_changes_ctxs {s : State} {m : Msg} (hused : (s.txGroup m.src m.group).used = true)
    (hclosed : (s.txGroup m.src m.group).closed = true) (hlid : (s.txGroup m.src m.group).lidSent = true) :
    OnlyChanges [.ctxs] (s.setTxGroup m.src m.group {}) (s.takeLanded m) := by
  simp only [State.takeLanded, hused, hclosed, hlid]
  exact .foldl _ (fun t p => t.modCtx_changes _ _) _ _ (.refl _ _)

theorem State.takeLanded_keepsCore (s : State) (m : Msg) : s.KeepsCore (s.takeLanded m) := by
  unfold State.takeLanded
  extract_lets x u
  refine .ite (.refl s) (KeepsLinks.trans (t := u) (fun _ => rfl) ?_)
  exact .of_changes (.foldl _ (fun t p => t.modCtx_changes _ _) _ _ (.refl [.ctxs] _)) (by decide)

/-! ## A REFUSE message (R281, R289) -/

section
variable (s : State) (m : Msg) (c by_ : ChipNo)

theorem State.takeRefusal_keepsCore : s.KeepsCore (s.takeRefusal m c by_) :=
  .ite (s.failRead_keepsCore _ _ _ _) (.ite (s.failGroup_keepsCore _ _ _ _) (s.failRead_keepsCore _ _ _ _))

/-- A refused read ends. -/
theorem State.takeRefusal_read (hread : s.readNamed { m with src := c } = true) (hgroup : s.groupMsg { m with src := c } = none) :
    ((s.takeRefusal m c by_).txRead c m.tag.toNat).used = false := by
  simp only [State.takeRefusal, hread, hgroup]
  exact s.failRead_used _ _ _ _

/-- A refused group ends. -/
theorem State.takeRefusal_group (hread : s.readNamed { m with src := c } = false)
    (hgroup : (s.groupMsg { m with src := c }).isSome = true) : ((s.takeRefusal m c by_).txGroup c m.tag.toNat).used = false := by
  have htag : m.tag.toNat < 64 := by
    by_contra h
    simp [State.groupMsg, Nat.not_lt.mp h] at hgroup
  unfold State.takeRefusal
  extract_lets q
  rw [if_neg (by simp [q, hread])]
  split
  · exact s.failGroup_used _ _ _ _
  next h =>
    have hfree : (s.txGroup c m.tag.toNat).used = false := by simpa [htag] using h
    exact (s.failRead_takesNone _ _ _ _).txGroup hfree

variable {s m c}

theorem State.takeRefuse_of_direct (hnine : ¬ bits m.word.toNat 7 0 = 9) (hnamed : s.readNamed m = true ∨ (s.groupMsg m).isSome = true) :
    s.takeRefuse m = s.takeRefusal m m.src m.src := by
  unfold State.takeRefuse
  extract_lets transit
  exact if_pos (by simpa [transit, hnine] using hnamed)

theorem State.takeRefuse_of_transit (hnine : bits m.word.toNat 7 0 = 9) (hnamed : s.transitNamed m = some c) :
    s.takeRefuse m = s.takeRefusal m c m.src := by
  simp [State.takeRefuse, hnine, hnamed]

theorem State.takeRefuse_of_unknown (hnine : bits m.word.toNat 7 0 = 9) (hnamed : s.transitNamed m = none) : s.takeRefuse m = s := by
  simp [State.takeRefuse, hnine, hnamed]

theorem State.takeRefuse_keepsCore (s : State) (m : Msg) : s.KeepsCore (s.takeRefuse m) := by
  unfold State.takeRefuse
  extract_lets transit
  refine .ite (s.takeRefusal_keepsCore _ _ _) ?_
  split
  · exact s.takeRefusal_keepsCore _ _ _
  · exact .ite (.refl s) (s.takeRefusal_keepsCore _ _ _)

end

/-! ## REMOTE_TIMEOUT (R298) -/

/-- What a step brings about for its index and no other step undoes holds for every index that was stepped through. -/
theorem foldl_settles {f : State → Nat → State} {P : Nat → State → Prop} (hset : ∀ s a, P a (f s a))
    (hkeep : ∀ s a b, P b s → P b (f s a)) (l : List Nat) (s : State) {a : Nat} (ha : a ∈ l) : P a (l.foldl f s) := by
  induction l generalizing s with
  | nil => exact absurd ha List.not_mem_nil
  | cons b r ih =>
    obtain rfl | ha := List.mem_cons.mp ha
    · exact List.foldlRecOn r f (motive := P a) (hset s a) fun t ht c _ => hkeep t c a ht
    · exact ih _ ha

section
variable {s : State} {chip : ChipNo} {tag : BitVec 10}

theorem exec_remoteTimeout_group (htag : tag.toNat < 64) (hsent : (s.txGroup chip tag.toNat).lidSent = true) :
    exec (.remoteTimeout chip .group tag) s = .next (s.failGroup chip tag.toNat 0x0806) := by
  show execRemoteTimeout chip .group tag s = _
  simp [execRemoteTimeout, htag, hsent]

/-- A read that has left and is late ends; one that does not exist has ended. -/
theorem exec_remoteTimeout_read (hout : (s.partner chip).out = []) :
    ∃ t, exec (.remoteTimeout chip .read tag) s = .next t ∧ (t.txRead chip tag.toNat).used = false := by
  refine ⟨_, rfl, ?_⟩
  simp only [hout, List.any_nil, Bool.not_false, Bool.and_true]
  split
  · exact s.failRead_used _ _ _ _
  next h => simpa using h

theorem exec_remoteTimeout_notReady (hbacking : (s.partner chip).backing = true) :
    ∃ t, exec (.remoteTimeout chip .notReady tag) s = .next t ∧ ∀ r, r < 1024 → (t.txRead chip r).used = false := by
  refine ⟨_, rfl, fun r hr => ?_⟩
  simp only [hbacking, Bool.not_true]
  exact foldl_settles (P := fun r t => (t.txRead chip r).used = false) (fun t a => t.failRead_used _ _ _ _)
    (fun t a b hb => (t.failRead_takesNone _ _ _ _).txRead hb) _ _ (List.mem_range.mpr hr)

end

/-! ## The statement over every state -/

theorem State.holdTally_held (s : State) : s.holdTally.tally.held = true := rfl

theorem State.holdTally_val (s : State) : s.holdTally.tally.val = s.tally.val :=
  congrArg (·.val) (s.wakeTally_changes .tally (by decide))

section
variable {s : State} {l : Fin 18} {k : Nat} {m : Msg} {rest : List (Nat × Msg)} (hrxq : (s.link l.val).rxq = (k, m) :: rest)
include hrxq

/-- An abandoned group is refused and its lid dropped. -/
theorem exec_abandon_of_head (hop : m.op = opAbandon) :
    ∃ t, exec (.abandon l) s = .next t ∧ (t.link l.val).rxq = rest ∧ OnlyChanges [.fabric, .frames] s t ∧
      ((s.rxGroup m.src m.group).live = true → (t.rxGroup m.src m.group).refused = true ∧ (t.rxGroup m.src m.group).lid = none ∧
        (t.rxGroup m.src m.group).landed = 0) ∧
      ((s.rxGroup m.src m.group).live = false → t.fabric.rxGroups = s.fabric.rxGroups ∧ t.frames = s.frames) := by
  have htook := State.takeMsg_takes (f := fun m => some (s.abandoned m, true)) hrxq hop rfl ((s.abandoned_keepsCore m).rxq l.val)
  refine ⟨_, rfl, htook.rxq, ((s.abandoned_changes m).mono (by decide)).step htook.changes (by decide), fun hlive => ?_, fun hlive => ?_⟩
  · rw [htook.rxGroup]
    exact State.abandoned_rxGroup hlive
  · obtain ⟨ls, hls⟩ := htook.links
    rw [hls, State.abandoned_of_not_live hlive]
    exact ⟨rfl, rfl⟩

/-- A landed group's number is free. -/
theorem exec_landed_of_head (hop : m.op = opLanded) :
    let x := s.txGroup m.src m.group
    ∃ t, exec (.landed l) s = .next t ∧ (t.link l.val).rxq = rest ∧
      (x.used = true → x.closed = true → x.lidSent = true → t.txGroup m.src m.group = {}) ∧
      (x.used = false → t.fabric.txGroups = s.fabric.txGroups ∧ OnlyChanges [.fabric] s t) := by
  intro x
  have htook := State.takeMsg_takes (f := fun m => some (s.takeLanded m, true)) hrxq hop rfl ((s.takeLanded_keepsCore m).rxq l.val)
  refine ⟨_, rfl, htook.rxq, fun hused hclosed hlid => ?_, fun hused => ?_⟩
  · rw [htook.txGroup, State.txGroup, State.takeLanded_changes_ctxs hused hclosed hlid .fabric (by decide)]
    exact s.setTxGroup_txGroup_same _ _ _
  · have hsame := State.takeLanded_of_unused hused
    have hch := htook.changes
    rw [hsame] at hch
    obtain ⟨ls, hls⟩ := htook.links
    exact ⟨by rw [hls, hsame], hch⟩

/-- A refusal is taken and leaves the buffer. -/
theorem exec_refuse_of_head (hop : m.op = opRefuse) :
    ∃ t, exec (.refuse l) s = .next t ∧ s.TookHead (s.takeRefuse m) t l.val rest :=
  ⟨_, rfl, State.takeMsg_takes (f := fun m => some (s.takeRefuse m, true)) hrxq hop rfl ((s.takeRefuse_keepsCore m).rxq l.val)⟩

end

/-- Settles O48: each end of a group or read at its receiver and at its sender, by what it leaves of the group's or read's entry. -/
theorem remoteGroupsAndReadsEnd : Obligations.RemoteGroupsAndReadsEnd := by
  unfold Obligations.RemoteGroupsAndReadsEnd
  refine ⟨⟨?_, ?_, fun l k m rest s hrxq hop => exec_abandon_of_head hrxq hop, ?_⟩,
    fun l k m q rest s hrxq hop => ⟨exec_readData_of_named hrxq hop, exec_readData_of_unnamed hrxq hop⟩,
    fun l k m rest s hrxq hop => exec_landed_of_head hrxq hop, ?_, ?_, ?_⟩
  · intro chip g r s x w hlid hissued hflight hhalt
    refine ⟨fun hen hruns => ⟨_, exec_lidDataLanded_of_held hlid hissued hflight hhalt hen hruns,
      s.holdTally_changes .fabric (by decide), s.holdTally_val, s.holdTally_held, s.holdTally_changes⟩, fun hruns => ?_⟩
    let u := s.lidApplied chip g.toNat r
    have hanswer : OnlyChanges [.fabric] u (u.answer r.msg opLanded 0) := u.answer_changes _ _ _ _
    refine ⟨_, exec_lidDataLanded_of_runs hlid hissued hflight hhalt hruns, ?_, fun hen => ?_, fun hen hbars hfrozen => ?_,
      fun q hq _ hgoes => ?_⟩
    · rw [State.answer_rxGroup, State.lidApplied_rxGroup]
    · rw [hanswer .tally (by decide), State.lidApplied_tally chip g.toNat hen]
    · rw [hanswer .tally (by decide)]
      exact State.lidApplied_val chip g.toNat hen hhalt hbars hfrozen
    · rw [hanswer .faults (by decide)] at hgoes
      let a : Msg := { u.msg opLanded r.msg.src r.msg.tag (BitVec.ofNat 64 0) with addr := r.msg.addr }
      have hroute : u.routeSet a.dst = [q] :=
        ((s.lidApplied_keepsCore chip g.toNat r).routeSet (s.lidApplied_inp chip g.toNat r) _).trans hq
      exact ⟨a, u.mem_txq_sendMsg a hroute (by simp [hgoes]), rfl, rfl, rfl⟩
  · intro chip g s
    refine ⟨fun hlive => ?_, fun hlive => ?_⟩
    · have hexec : exec (.groupIdleTimeout chip g) s = .next ((s.dropLid chip g.toNat).setRxGroup chip g.toNat {}) :=
        congrArg Host.Outcome.next (if_pos hlive)
      exact ⟨_, hexec, State.setRxGroup_rxGroup_same _ _ _ _,
        (s.dropLid_changes _ _).step (State.setRxGroup_changes _ _ _ _) (by decide)⟩
    · exact congrArg Host.Outcome.next (if_neg (by rw [hlive]; decide))
  · intro chip s f
    exact ⟨fun r => exec_receiverRequestDrop_of_frame, fun g hfind hempty hg hlid hissued hfirst =>
      ⟨_, exec_receiverRequestDrop_of_lid hfind hempty hg hlid hissued hfirst, s.dropLid_lid chip g, s.dropLid_changes chip g⟩⟩
  · intro l k m rest s hrxq hop nine ended
    obtain ⟨t, hexec, htook⟩ := exec_refuse_of_head hrxq hop
    have hends {c by_ : ChipNo} (htake : s.takeRefuse m = s.takeRefusal m c by_) : ended t c := by
      refine ⟨fun hread hgroup => ?_, fun hread hgroup => ?_⟩
      · rw [htook.txRead, htake]
        exact s.takeRefusal_read m c by_ hread hgroup
      · rw [htook.txGroup, htake]
        exact s.takeRefusal_group m c by_ hread hgroup
    refine ⟨fun hnine => ⟨t, hexec, htook.rxq, ?_⟩, fun c hnine hnamed =>
      ⟨t, hexec, htook.rxq, hends (State.takeRefuse_of_transit hnine hnamed)⟩, fun hnine hnamed => ?_⟩
    · exact ⟨fun hread => (hends (State.takeRefuse_of_direct hnine (.inl hread))).1 hread,
        fun hread hgroup => (hends (State.takeRefuse_of_direct hnine (.inr hgroup))).2 hread hgroup⟩
    · rw [State.takeRefuse_of_unknown hnine hnamed] at htook
      obtain ⟨ls, hls⟩ := htook.links
      exact ⟨t, hexec, htook.rxq, by rw [hls], by rw [hls], htook.changes⟩
  · intro chip tag s
    exact ⟨fun htag hsent => ⟨_, exec_remoteTimeout_group htag hsent, s.failGroup_used _ _ _ _⟩, exec_remoteTimeout_read,
      exec_remoteTimeout_notReady, fun hbacking => congrArg Host.Outcome.next (if_pos (by rw [hbacking]; rfl))⟩
  · intro chip g s hcooling
    have hexec : exec (.groupNumberReuse chip g) s = .next (s.setTxGroup chip g.toNat {}) :=
      congrArg Host.Outcome.next (if_pos hcooling)
    exact ⟨_, hexec, s.setTxGroup_txGroup_same _ _ _, fun h _ hne => s.setTxGroup_txGroup_other chip {} hne, s.setTxGroup_changes _ _ _⟩

end Sys2Proof.Machine

/-! # Proofs: waggle judges and repeats (R269, R276 to R279) -/
namespace Sys2Proof.Machine

/-! ## What the keys and the records of waggle leave of a link (R268, R276, R372) -/

/-- A link's core without the record it sends, its ephemeral keys and its control flits. -/
def Link.standing (x : Link) : Link :=
  { x.core with serial := 0, record := [], acked := false, ephPriv := 0, rekey := none, ctl := [] }

/-- Every link keeps all that neither messages, records nor ephemeral keys change. -/
abbrev State.KeepsStanding (s t : State) : Prop := s.KeepsLinks Link.standing t

namespace State.KeepsStanding
variable {s t : State}

theorem state (h : s.KeepsStanding t) (k : Nat) : (t.link k).state = (s.link k).state := congrArg (·.state) (h k)

theorem partner (h : s.KeepsStanding t) (k : Nat) : (t.link k).partner = (s.link k).partner := congrArg (·.partner) (h k)

theorem peerRec (h : s.KeepsStanding t) (k : Nat) : (t.link k).peerRec = (s.link k).peerRec := congrArg (·.peerRec) (h k)

end State.KeepsStanding

theorem State.KeepsCore.standing {s t : State} (h : s.KeepsCore t) : s.KeepsStanding t := fun k => by
  show { (t.link k).core with serial := 0, record := [], acked := false, ephPriv := 0, rekey := none, ctl := [] } = _
  rw [h k]; rfl

/-- Zeroising a link's ephemeral keys keeps what neither the record nor the rekey tells. -/
theorem Link.dropEphemeral_keeps {α : Type} {f : Link → α} (hpriv : ∀ x : Link, f { x with ephPriv := 0, record := [] } = f x)
    (hrekey : ∀ (x : Link) r, f { x with rekey := r } = f x) (x : Link) : f x.dropEphemeral = f x := by
  unfold Link.dropEphemeral
  extract_lets y
  have hy : f y = f x := by
    unfold y
    split
    · rfl
    · exact hpriv x
  split
  · exact (hrekey y _).trans hy
  · exact hy

theorem Link.dropEphemeral_standing : ∀ x : Link, x.dropEphemeral.standing = x.standing :=
  Link.dropEphemeral_keeps (fun _ => rfl) fun _ _ => rfl

/-! ## The DRBG (R357, R358, R372) -/

section
variable (s : State)

section
variable {α : Type} {f : Link → α} (hf : ∀ x : Link, f x.dropEphemeral = f x)
include hf

/-- Zeroising the parameters keeps what the ephemeral keys do not tell. -/
theorem State.zeroiseKeeper_keeps : s.KeepsLinks f s.zeroiseKeeper := by
  rw [State.zeroiseKeeper_eq]
  refine .trans ?_ (.foldl (fun t l => .modLink t l hf) _ _)
  exact .trans (t := s.modKeeper fun k => { k with drbg := none, drbgCalls := 0 }) (fun _ => rfl)
    (.of_changes (State.foldl_dropSeeds_changes _ _) (by decide))

theorem State.reseed_keeps : s.KeepsLinks f s.reseed := by
  unfold State.reseed
  extract_lets p
  have hp : s.KeepsLinks f p.2 := .of_changes s.entropy_changes (by decide)
  refine .ite (hp.trans fun _ => rfl) (hp.trans ?_)
  unfold State.healthFailed
  extract_lets u
  exact .trans (.trans (t := u) (fun _ => rfl) (.of_changes (u.raise_changes _) (by decide))) (State.zeroiseKeeper_keeps _ hf)

theorem State.generate_keeps : s.KeepsLinks f s.generate.2 := by
  unfold State.generate
  extract_lets g u
  exact .ite (.trans (t := u) (fun _ => rfl) (u.reseed_keeps hf)) fun _ => rfl

end

theorem State.generate_keepsStanding : s.KeepsStanding s.generate.2 := s.generate_keeps Link.dropEphemeral_standing

/-! ## A record sent (R276, R279) -/

theorem State.sendRecord_keepsStanding (l : Nat) (epub : Bytes) : s.KeepsStanding (s.sendRecord l epub) := by
  unfold State.sendRecord
  extract_lets x h p rec_ u
  have hgen : s.KeepsStanding p.2 := s.generate_keepsStanding
  have hset : p.2.KeepsStanding u := .setLink p.2 l (hgen l).symm
  exact (hgen.trans hset).trans (.modLink u l fun _ => rfl)

theorem State.waggleResend_keepsStanding (l : Nat) : s.KeepsStanding (s.waggleResend l) :=
  .ite (s.sendRecord_keepsStanding _ _) (.refl s)

theorem State.resendAll_keepsStanding : s.KeepsStanding s.resendAll := .foldl State.waggleResend_keepsStanding _ s

/-- A record sent is the next one, not acknowledged, and starts with its head. -/
theorem State.sendRecord_link (l : Nat) (epub : Bytes) :
    ((s.sendRecord l epub).link l).serial = (s.link l).serial + 1 ∧ ((s.sendRecord l epub).link l).acked = false ∧
      ∃ sig, ((s.sendRecord l epub).link l).record = s.recordHead l ((s.link l).serial.toNat + 1) epub ++ sig := by
  unfold State.sendRecord
  extract_lets x h p rec_ u
  have hu : u.link l = { x with serial := x.serial + 1, record := rec_, acked := false } := State.setLink_link_same _ _ _
  rw [State.modLink_link_same, hu]
  exact ⟨rfl, rfl, _, rfl⟩

end

/-- The neighbours of a record are a word. -/
theorem State.wgNeigh_lt (s : State) : s.wgNeigh < 2 ^ 64 := by
  have hfold (cs : List ChipNo) (a : Nat) : cs.foldl (fun a c => a + 2 ^ c.toNat) a = a + (cs.map fun c => 2 ^ c.toNat).sum := by
    induction cs generalizing a with
    | nil => rfl
    | cons c r ih => rw [List.foldl_cons, ih, List.map_cons, List.sum_cons, Nat.add_assoc]
  have hle : ((chipNos.filter fun c => s.directSet c ≠ []).map fun c => 2 ^ c.toNat).sum ≤ (chipNos.map fun c => 2 ^ c.toNat).sum :=
    (List.filter_sublist.map _).sum_le_sum fun _ _ => Nat.zero_le _
  have hall : (chipNos.map fun c => 2 ^ c.toNat).sum = 2 ^ 64 - 1 := by decide
  rw [State.wgNeigh, hfold]
  omega

/-- A field past the first bytes of a string. -/
theorem leAt_append_of_le {a : Bytes} (b : Bytes) {off : Nat} (n : Nat) (h : a.length ≤ off) :
    leAt (a ++ b) off n = leAt b (off - a.length) n := congrArg leNat (slice_append_right b n h)

/-- The field that starts a string. -/
theorem leAt_leBytes_append {n w : Nat} (b : Bytes) (h : w < 256 ^ n) : leAt (leBytes n w ++ b) 0 n = w :=
  (congrArg leNat (slice_append_left b (by simp))).trans (leNat_slice_leBytes h)

theorem State.wgState_lt (s : State) : s.wgState < 256 := by
  unfold State.wgState
  split
  · decide
  · split <;> decide

/-- WG_STATE and WG_NEIGH stand at bytes 3 and 8 of a record. -/
theorem State.recordHead_fields (s : State) (l serial : Nat) (epub sig : Bytes) :
    leAt (s.recordHead l serial epub ++ sig) 3 1 = s.wgState ∧ leAt (s.recordHead l serial epub ++ sig) 8 8 = s.wgNeigh := by
  simp only [State.recordHead, List.append_assoc]
  constructor
  · iterate 3 rw [leAt_append_of_le _ _ (by simp)]
    simp only [leBytes_length]
    exact leAt_leBytes_append _ s.wgState_lt
  · iterate 7 rw [leAt_append_of_le _ _ (by simp)]
    simp only [leBytes_length]
    exact leAt_leBytes_append _ s.wgNeigh_lt

/-! ## A record judged (R278, R279) -/

section
variable {s : State} {l : Nat}

/-- A failed check holds the link and raises source 48. -/
theorem State.waggleFail_link (s : State) (l check : Nat) : (s.waggleFail l check).link l = { s.link l with state := .held } := by
  unfold State.waggleFail
  extract_lets u
  rw [State.raiseWith_link]
  exact s.modLink_link_same l _

theorem State.waggleFail_stat (s : State) (l check : Nat) : (s.waggleFail l check).faults.stat.getLsbD 48 = true := by
  unfold State.waggleFail
  extract_lets u
  exact State.raiseWith_stat_self (show 48 < 64 by decide)

/-- What the checks of a record read of the links. -/
structure State.SameForChecks (s t : State) : Prop where
  keeper : t.keeper = s.keeper
  inp : t.inp = s.inp
  link : ∀ k, (t.link k).rate = (s.link k).rate ∧ (t.link k).state = (s.link k).state ∧ (t.link k).partner = (s.link k).partner ∧
    (t.link k).partnerId = (s.link k).partnerId

theorem State.waggleCheck_of_same {s t : State} (h : s.SameForChecks t) (l : Nat) (r chain : Bytes) :
    t.waggleCheck l r chain = s.waggleCheck l r chain := by
  obtain ⟨hkeeper, hinp, hlink⟩ := h
  have hdirect d : t.directSet d = s.directSet d := by
    simp only [State.directSet, (hlink _).2.1, (hlink _).2.2.1]
  have hid k : (t.link k).partnerId = (s.link k).partnerId := (hlink k).2.2.2
  unfold State.waggleCheck State.ifMajor
  simp only [hkeeper, hinp, hdirect, hid, (hlink l).1]

theorem State.barrierResend_keepsCore (s : State) (c : ChipNo) : s.KeepsCore (s.barrierResend c) := by
  unfold State.barrierResend
  refine .foldl (fun t b => ?_) _ s
  extract_lets x up down due kind now last u v
  have hv : t.KeepsCore v := KeepsLinks.trans (t := u) (fun _ => rfl) (.ite (.refl u) (u.sendMsg_keepsCore _))
  exact .ite (.refl t) (hv.trans (.foldl (fun w d => w.sendMsg_keepsCore _) _ _))

theorem State.noRoute_keepsCore (s : State) (c : ChipNo) : s.KeepsCore (s.noRoute c) := by
  unfold State.noRoute
  refine .ite (.refl s) (.foldl (fun t m => ?_) _ s)
  exact .ite (t.failRead_keepsCore _ _ _ _) (t.failGroup_keepsCore _ _ _ _)

/-- The link that a record which passed leaves: in service with its partner. -/
theorem State.wagglePass_link (s : State) (l : Nat) (r : Bytes) (hstate : (s.link l).state ≠ .service) :
    ((s.wagglePass l r).link l).state = .service ∧ ((s.wagglePass l r).link l).partner = BitVec.ofNat 6 (leAt r 1 1) ∧
      ((s.wagglePass l r).link l).peerRec = r := by
  unfold State.wagglePass
  extract_lets x was c u v w
  have hu : u.link l = { x with peerRec := r, peerSerial := BitVec.ofNat 64 (leAt r 24 8), partner := c, partnerId := slice r 96 48 } :=
    State.setLink_link_same _ _ _
  have hv : (v.link l).partner = c ∧ (v.link l).peerRec = r := by
    unfold v
    split
    · unfold State.deriveKeys
      extract_lets y
      split
      · rw [hu]; exact ⟨rfl, rfl⟩
      · rw [State.setLink_link_same]
        unfold y
        rw [hu]; exact ⟨rfl, rfl⟩
    · rw [hu]; exact ⟨rfl, rfl⟩
  have hw : w.link l = { v.link l with state := .service } := v.modLink_link_same l _
  have hwas : ¬ was = true := by simpa [was, x] using hstate
  rw [if_neg hwas]
  have hcore : w.KeepsCore ((((w.event (linkEvent l (w.link l) 1 0)).barrierResend c).pump c).noRoute c) :=
    (((State.KeepsLinks.of_changes (w.event_changes _) (by decide)).trans (State.barrierResend_keepsCore _ c)).trans
      (State.pump_keepsCore _ c)).trans (State.noRoute_keepsCore _ c)
  have hkeep : w.KeepsStanding (((((w.event (linkEvent l (w.link l) 1 0)).barrierResend c).pump c).noRoute c).resendAll) :=
    hcore.standing.trans (State.resendAll_keepsStanding _)
  rw [hkeep.state, hkeep.partner, hkeep.peerRec, hw]
  exact ⟨rfl, hv⟩

end

/-! ## Parts and the judgement (R277 to R279) -/

section
variable {s : State} {l : Fin 18} {flit : Bytes} {y : Link}

/-- A flit of one subtype is of no other. -/
theorem isCtl_of_ne {f : Bytes} {a b : Nat} (h : isCtl f a = true) (hab : a ≠ b) : isCtl f b = false := by
  simp only [isCtl, Bool.and_eq_true, decide_eq_true_eq] at h
  simp [isCtl, h.2, hab]

/-- A part that completes no record, and repeats none to its end, is kept. -/
theorem State.partTaken_of_not_whole {was : Bool}
    (h : ¬ ((s.link l.val).holdsRecord flit = true ∧ (was = false ∨ (isCtl flit 3 && bit (leAt flit 5 1) 7) = true))) :
    s.partTaken l.val flit was = s := by
  unfold State.partTaken
  extract_lets x
  refine if_neg fun hc => h ?_
  rw [Bool.and_eq_true, Bool.or_eq_true, Bool.not_eq_true'] at hc
  exact hc

/-- A whole record is acknowledged and judged. -/
theorem State.partTaken_of_whole {was : Bool} (h : (s.link l.val).holdsRecord flit = true)
    (hw : was = false ∨ (isCtl flit 3 && bit (leAt flit 5 1) 7) = true) :
    s.partTaken l.val flit was = (s.modLink l.val fun x => { x with ctl := x.ctl ++ [ackFlit (leAt flit 8 4)] }).judge l.val := by
  unfold State.partTaken
  extract_lets x
  refine if_pos ?_
  rw [Bool.and_eq_true, Bool.or_eq_true, Bool.not_eq_true']
  exact ⟨h, hw⟩

/-- A link that took a part in, and acknowledged it. -/
def State.acknowledged (s : State) (l : Fin 18) (y : Link) (flit : Bytes) : State :=
  (s.setLink l.val y).modLink l.val fun x => { x with ctl := x.ctl ++ [ackFlit (leAt flit 8 4)] }

/-- A link whose record was acknowledged and is marked as judged. -/
def State.marked (s : State) (l : Fin 18) (y : Link) (flit : Bytes) (n : Word) : State :=
  (s.acknowledged l y flit).modLink l.val fun x => { x with judged := n }

theorem State.acknowledged_link (s : State) (l : Fin 18) (y : Link) (flit : Bytes) :
    (s.acknowledged l y flit).link l.val = { y with ctl := y.ctl ++ [ackFlit (leAt flit 8 4)] } := by
  rw [State.acknowledged, State.modLink_link_same, State.setLink_link_same]

theorem State.acknowledged_changes (s : State) (l : Fin 18) (y : Link) (flit : Bytes) :
    OnlyChanges [.fabric] s (s.acknowledged l y flit) := (s.setLink_changes _ _).trans (State.modLink_changes _ _ _)

theorem State.marked_link (s : State) (l : Fin 18) (y : Link) (flit : Bytes) (n : Word) :
    (s.marked l y flit n).link l.val = { y with ctl := y.ctl ++ [ackFlit (leAt flit 8 4)], judged := n } := by
  rw [State.marked, State.modLink_link_same, State.acknowledged_link]

theorem State.marked_changes (s : State) (l : Fin 18) (y : Link) (flit : Bytes) (n : Word) :
    OnlyChanges [.fabric] s (s.marked l y flit n) := (s.acknowledged_changes l y flit).trans (State.modLink_changes _ _ _)

/-- What the keeper needs for waggle stands outside the links. -/
theorem State.canWaggle_of_changes {s t : State} (h : OnlyChanges [.fabric] s t) : t.canWaggle = s.canWaggle := by
  have hkeeper : t.keeper = s.keeper := h .keeper (by decide)
  have hsec : t.sec = s.sec := h .sec (by decide)
  have hinp : t.inp = s.inp := h .inp (by decide)
  simp only [State.canWaggle, State.unitPassed, hkeeper, hsec, hinp]

variable {r : Bytes}

section
variable (hheld : y.heldRecord = some r)
include hheld

/-- A record that was judged is not judged again. -/
theorem State.judge_of_judged (hserial : BitVec.ofNat 64 (leAt r 24 8) = y.judged) :
    (s.acknowledged l y flit).judge l.val = s.acknowledged l y flit := by
  have hlink := s.acknowledged_link l y flit
  have hz : ((s.acknowledged l y flit).link l.val).heldRecord = some r := by rw [hlink]; exact hheld
  have hj : ((s.acknowledged l y flit).link l.val).judged = y.judged := by rw [hlink]
  unfold State.judge
  extract_lets x
  have hx : x.heldRecord = some r := hz
  rw [hx]
  have hlate : BitVec.ofNat 64 (leAt r 24 8) = x.judged := hserial.trans hj.symm
  simp [hlate]

variable (hserial : BitVec.ofNat 64 (leAt r 24 8) ≠ y.judged) (hstate : y.state = .waggle) (hcan : s.canWaggle = true)
  (hrecord : y.record ≠ []) (hpeer : y.peerRec = [])
include hserial hstate hcan hrecord hpeer

/-- The first record of a link in waggle is judged by the checks. -/
theorem State.judge_of_first {verdict : Option Nat}
    (hcheck : (s.marked l y flit (BitVec.ofNat 64 (leAt r 24 8))).waggleCheck l.val r ((y.asmChain.bind Assembly.whole).getD []) = verdict) :
    (s.acknowledged l y flit).judge l.val =
      verdict.elim ((s.marked l y flit (BitVec.ofNat 64 (leAt r 24 8))).wagglePass l.val r)
        ((s.marked l y flit (BitVec.ofNat 64 (leAt r 24 8))).waggleFail l.val) := by
  have hlink := s.acknowledged_link l y flit
  unfold State.judge
  extract_lets x live
  have hx : x = { y with ctl := y.ctl ++ [ackFlit (leAt flit 8 4)] } := hlink
  have hxheld : x.heldRecord = some r := by rw [hx]; exact hheld
  have hcan' : (s.acknowledged l y flit).canWaggle = true :=
    (State.canWaggle_of_changes (s.acknowledged_changes l y flit)).trans hcan
  have hlive : live = true := by simp [live, hx, hcan', hstate, hrecord]
  have hserial' : BitVec.ofNat 64 (leAt r 24 8) ≠ x.judged := by rw [hx]; exact hserial
  have hpeer' : x.peerRec = [] := by rw [hx]; exact hpeer
  have hchain : x.asmChain = y.asmChain := by rw [hx]
  rw [hxheld]
  dsimp only
  rw [if_neg (by simp [hlive, hserial']), if_neg (by simp [hpeer']), hchain]
  have hmarked : (s.acknowledged l y flit).modLink l.val (fun x => { x with judged := BitVec.ofNat 64 (leAt r 24 8) }) =
      s.marked l y flit (BitVec.ofNat 64 (leAt r 24 8)) := rfl
  rw [hmarked, hcheck]
  cases verdict with
  | none => rw [Option.elim_none]
  | some k => rw [Option.elim_some]

end

/-- The checks read nothing that taking a part in, its acknowledgement or the mark of the judged serial change. -/
theorem State.sameForChecks_judged (s : State) (l : Fin 18) {a b : Option Assembly} (hy : y = { s.link l.val with asmRec := a, asmChain := b })
    (flit : Bytes) (n : Word) :
    s.SameForChecks (s.marked l y flit n) where
  keeper := s.marked_changes l y flit n .keeper (by decide)
  inp := s.marked_changes l y flit n .inp (by decide)
  link k := by
    rcases eq_or_ne k l.val with rfl | hk
    · rw [State.marked_link, hy]
      exact ⟨rfl, rfl, rfl, rfl⟩
    · rw [State.marked, State.modLink_link_other _ _ hk, State.acknowledged, State.modLink_link_other _ _ hk, State.setLink_link_other _ _ hk]
      exact ⟨rfl, rfl, rfl, rfl⟩

/-- A part that makes its record whole, or repeats it to its end: the record is acknowledged, and judged when its serial is new. -/
theorem State.judge_acknowledged {a b : Option Assembly} (hy : y = { s.link l.val with asmRec := a, asmChain := b })
    (hheld : y.heldRecord = some r) :
    let x := s.link l.val
    let t := (s.acknowledged l y flit).judge l.val
    let serial := BitVec.ofNat 64 (leAt r 24 8)
    let verdict := s.waggleCheck l.val r ((y.asmChain.bind Assembly.whole).getD [])
    (serial = x.judged → t.link l.val = { y with ctl := x.ctl ++ [ackFlit (leAt flit 8 4)] } ∧ OnlyChanges [.fabric] s t) ∧
      (serial ≠ x.judged → x.state = .waggle → s.canWaggle = true → x.record ≠ [] → x.peerRec = [] →
        (∀ k, verdict = some k → (t.link l.val).state = .held ∧ t.faults.stat.getLsbD 48 = true) ∧
        (verdict = none → (t.link l.val).state = .service ∧ (t.link l.val).partner = BitVec.ofNat 6 (leAt r 1 1) ∧
          (t.link l.val).peerRec = r)) := by
  intro x t serial verdict
  have hjudged : y.judged = x.judged := by rw [hy]
  refine ⟨fun hserial => ?_, fun hserial hstate hcan hrecord hpeer => ?_⟩
  · have ht : t = s.acknowledged l y flit := State.judge_of_judged hheld (hserial.trans hjudged.symm)
    rw [ht, State.acknowledged_link]
    exact ⟨by rw [hy], s.acknowledged_changes l y flit⟩
  · let u := s.marked l y flit serial
    have hulink : u.link l.val = { y with ctl := y.ctl ++ [ackFlit (leAt flit 8 4)], judged := serial } :=
      s.marked_link l y flit serial
    have hustate : (u.link l.val).state = .waggle := by rw [hulink, hy]; exact hstate
    have hcheck : u.waggleCheck l.val r ((y.asmChain.bind Assembly.whole).getD []) = verdict :=
      State.waggleCheck_of_same (s.sameForChecks_judged l hy flit serial) _ _ _
    have ht : t = verdict.elim (u.wagglePass l.val r) (u.waggleFail l.val) :=
      State.judge_of_first hheld (hjudged ▸ hserial) (by rw [hy]; exact hstate) hcan (by rw [hy]; exact hrecord)
        (by rw [hy]; exact hpeer) hcheck
    refine ⟨fun k hk => ?_, fun hnone => ?_⟩
    · rw [ht, hk, Option.elim_some]
      exact ⟨by rw [State.waggleFail_link], u.waggleFail_stat _ _⟩
    · rw [ht, hnone, Option.elim_none]
      exact u.wagglePass_link _ _ (by rw [hustate]; decide)

section
variable (hup : (s.link l.val).isUp = true)
include hup

theorem exec_identityPart_of_up (hctl : isCtl flit 4 = true) :
    exec (.identityPart l flit) s = .next ((s.setLink l.val { s.link l.val with
      asmChain := some (takePart (s.link l.val).asmChain flit) }).partTaken l.val flit ((s.link l.val).holdsRecord flit)) := by
  show execIdentityPart l flit s = _
  simp only [execIdentityPart, hctl, hup]
  rfl

theorem exec_waggleRecordPart_of_up (hctl : isCtl flit 3 = true) :
    exec (.waggleRecordPart l flit) s = .next ((s.setLink l.val { s.link l.val with
      asmRec := some (takePart (s.link l.val).asmRec flit) }).partTaken l.val flit ((s.link l.val).holdsRecord flit)) := by
  show execWaggleRecordPart l flit s = _
  simp only [execWaggleRecordPart, hctl, hup]
  rfl

end

end

/-! ## Repeats and retries (R277 to R279) -/

section
variable {s : State} {l : Fin 18}

theorem exec_waggleRepeat_of_unacked (hrecord : (s.link l.val).record ≠ []) (hacked : (s.link l.val).acked = false) :
    exec (.waggleRepeat l) s = .next (s.modLink l.val fun y => { y with ctl := y.ctl ++ s.recordParts l.val }) := by
  show execWaggleRepeat l s = _
  simp [execWaggleRepeat, hrecord, hacked]

theorem exec_waggleAckTimeout_of_unacked (hrecord : (s.link l.val).record ≠ []) (hacked : (s.link l.val).acked = false)
    (hup : (s.link l.val).isUp = true) (hheld : (s.link l.val).state ≠ .held) :
    exec (.waggleAckTimeout l) s = .next (s.waggleFail l.val 1) := by
  show execWaggleAckTimeout l s = _
  simp [execWaggleAckTimeout, hrecord, hacked, hup, hheld]

theorem exec_waggleRetry_of_held (hheld : (s.link l.val).state = .held) :
    exec (.waggleRetry l) s = .next (s.setLink l.val { s.link l.val with state := .measuring, echoes := [], echoDue := 8, judged := 0 }) := by
  show execWaggleRetry l s = _
  simp [execWaggleRetry, hheld]

section
variable (hstate : (s.link l.val).state = .service) (hrecord : (s.link l.val).record ≠ []) (hcan : s.canWaggle = true)
include hstate hrecord hcan

theorem State.waggleResend_of_service : s.waggleResend l.val =
    if leAt (s.link l.val).record 3 1 = s.wgState ∧ leAt (s.link l.val).record 8 8 = s.wgNeigh then s
    else s.sendRecord l.val (s.link l.val).epub := by
  unfold State.waggleResend
  extract_lets x up
  have hup : up = true := by simp [up, x, hstate]
  split
  next h =>
    rw [if_neg]
    rintro ⟨h3, h8⟩
    simp [x, h3, h8] at h
  next h =>
    rw [if_pos]
    by_contra hne
    refine h ?_
    simp only [hup, hcan, x, Bool.true_and, Bool.and_true, Bool.and_eq_true, decide_eq_true_eq]
    exact ⟨hrecord, by simpa [or_iff_not_imp_left] using hne⟩

end

/-- The partner's answer to a rekey gives the new keys of both directions. -/
theorem exec_rekey_of_answer {r : Rekey} {c : Nat} {m : Msg} {rest : List (Nat × Msg)} {z : Bytes}
    (hrekey : (s.link l.val).rekey = some r) (hopen : r.answered = false) (hrxq : (s.link l.val).rxq = (c, m) :: rest)
    (hop : m.op = opRekey) (hz : ecdh r.priv (pointDecode (slice m.data 0 49)) = some z) :
    let x := s.link l.val
    let salt := pairSalt s.inp.chipId x.partner (pointEncode (pubKey r.priv)) (slice m.data 0 49)
    ∃ t, exec (.rekey l) s = .next t ∧ s.TookHead (s.setLink l.val { x with
      txNext := some (directionKey z salt s.inp.chipId x.partner), rxNext := some (directionKey z salt x.partner s.inp.chipId),
      rekey := some { r with priv := 0, answered := true } }) t l.val rest := by
  intro x salt
  refine ⟨_, rfl, State.takeMsg_takes hrxq hop ?_ (by rw [State.setLink_link_same])⟩
  rw [hrekey]
  simp only [hopen, State.rekeyAnswer, hrekey, hz]
  rfl

end

/-- Settles O46: a part that makes a record whole is judged by `State.judge_acknowledged`; the repeats, retries and the rekey's answer are
each one change of the link. -/
theorem waggleJudgesAndRepeats : Obligations.WaggleJudgesAndRepeats := by
  unfold Obligations.WaggleJudgesAndRepeats
  refine ⟨?_, ?_, ?_, ?_, ?_, ?_⟩
  · intro l flit s hup x chain record last whole
    have hset (y : Link) : ((s.setLink l.val y).link l.val) = y := s.setLink_link_same _ _
    refine ⟨fun hctl hpart => ?_, fun hctl hpart => ?_, ?_⟩
    · refine ⟨_, exec_identityPart_of_up hup hctl, ?_⟩
      rw [State.partTaken_of_not_whole]
      · exact ⟨hset _, s.setLink_changes _ _⟩
      · rw [hset, isCtl_of_ne hctl (b := 3) (by decide)]
        exact hpart
    · refine ⟨_, exec_waggleRecordPart_of_up hup hctl, ?_⟩
      rw [State.partTaken_of_not_whole]
      · exact ⟨hset _, s.setLink_changes _ _⟩
      · rw [hset, hctl]
        exact hpart
    · intro i y r hi hheld serial verdict
      have hjudge : (∃ a b, y = { s.link l.val with asmRec := a, asmChain := b }) ∧
          exec i s = .next ((s.acknowledged l y flit).judge l.val) := by
        obtain ⟨rfl, hctl, rfl, hholds, hnew⟩ | ⟨rfl, hctl, rfl, hholds, hnew⟩ := hi
        · refine ⟨⟨_, _, rfl⟩, (exec_identityPart_of_up hup hctl).trans (congrArg _ (State.partTaken_of_whole ?_ ?_))⟩
          · rw [hset]; exact hholds
          · exact hnew.imp id fun h => absurd h (by decide)
        · refine ⟨⟨_, _, rfl⟩, (exec_waggleRecordPart_of_up hup hctl).trans (congrArg _ (State.partTaken_of_whole ?_ ?_))⟩
          · rw [hset]; exact hholds
          · rw [hctl]; exact hnew
      obtain ⟨⟨a, b, hy⟩, hexec⟩ := hjudge
      obtain ⟨hsame, hfirst⟩ := State.judge_acknowledged (flit := flit) hy hheld
      refine ⟨fun hserial => ⟨_, hexec, hsame hserial⟩, fun hserial hstate hcan hrecord hpeer => ?_⟩
      obtain ⟨hfail, hpass⟩ := hfirst hserial hstate hcan hrecord hpeer
      exact ⟨fun k hk => ⟨_, hexec, hfail k hk⟩, fun hnone => ⟨_, hexec, hpass hnone⟩⟩
  · intro l flit s hctl hrecord hserial
    have hexec : exec (.recordAcknowledgement l flit) s = .next (s.setLink l.val { s.link l.val with acked := true }) :=
      congrArg Host.Outcome.next (if_pos (by simp [hctl, hrecord, hserial]))
    exact ⟨_, hexec, s.setLink_link_same _ _, s.setLink_changes _ _⟩
  · intro l s hrecord hacked
    refine ⟨⟨_, exec_waggleRepeat_of_unacked hrecord hacked, s.modLink_link_same _ _, s.modLink_changes _ _⟩, fun hup hheld => ?_⟩
    exact ⟨_, exec_waggleAckTimeout_of_unacked hrecord hacked hup hheld, s.waggleFail_link _ _, s.waggleFail_stat _ _⟩
  · intro l s hheld
    exact ⟨_, exec_waggleRetry_of_held hheld, s.setLink_link_same _ _, s.setLink_changes _ _⟩
  · intro l s hstate hrecord hcan same
    have hresend := State.waggleResend_of_service hstate hrecord hcan
    refine ⟨fun hsame => congrArg Host.Outcome.next (hresend.trans (if_pos hsame)), fun hnew => ?_⟩
    obtain ⟨hserial, hacked, sig, hrec⟩ := s.sendRecord_link l.val (s.link l.val).epub
    obtain ⟨hwg, hneigh⟩ := s.recordHead_fields l.val ((s.link l.val).serial.toNat + 1) (s.link l.val).epub sig
    exact ⟨_, congrArg Host.Outcome.next (hresend.trans (if_neg hnew)), hserial, hacked, by rw [hrec]; exact hwg,
      by rw [hrec]; exact hneigh⟩
  · intro l r c m rest z s hrekey hopen hrxq hop key peer salt hz
    obtain ⟨t, hexec, htook⟩ := exec_rekey_of_answer hrekey hopen hrxq hop hz
    have hcore := htook.core
    rw [State.setLink_link_same] at hcore
    refine ⟨t, hexec, congrArg Link.txNext hcore, congrArg Link.rxNext hcore, congrArg Link.rekey hcore, htook.rxq, fun k hk => ?_,
      (s.setLink_changes _ _).trans htook.changes⟩
    rw [htook.other k hk, s.setLink_link_other _ hk]

end Sys2Proof.Machine

/-! # Proofs: links train, measure and fall (R258, R259, R271 to R276, R454) -/
namespace Sys2Proof.Machine

/-! ## Training (R258, R259, R454) -/

section
variable {s : State} {l : Fin 18}

theorem quadrant_lt (l : Nat) : quadrant l < 4 := by unfold quadrant; split_ifs <;> decide

/-- A request that stands is not lowered by another. -/
theorem State.powerUp_req_keeps {d j : Nat} (hj : j < 65) (h : s.power.req.getLsbD j = true) :
    (s.powerUp d).power.req.getLsbD j = true := by
  unfold State.powerUp
  split
  · exact h
  · exact (getLsbD_setBit _ hj).mpr (.inl h)

/-- A domain without its acknowledgement is requested. -/
theorem State.powerUp_req {d : Nat} (hd : d < 65) (hack : s.power.ack.getLsbD d = false) :
    (s.powerUp d).power.req.getLsbD d = true := by
  unfold State.powerUp
  split
  next h => simpa [hack] using h
  next => exact (getLsbD_setBit _ hd).mpr (.inr rfl)

/-- A wanted link asks for training, and its quadrant is powered. -/
theorem exec_linkRetrainingRequest_of_wanted (hdown : (s.link l.val).state = .down) (hwanted : s.linkWanted l.val = true) :
    exec (.linkRetrainingRequest l) s =
      .next (((s.setLink l.val { s.link l.val with state := .training, trainReq := true }).powerUp (57 + quadrant l.val)).powerUp
        (62 + quadrant l.val / 2)) := by
  show Host.Outcome.next (s.askTraining l.val) = _
  unfold State.askTraining
  rw [hdown, hwanted]
  rfl

/-- Eight lanes at one rate start a measurement. -/
theorem exec_linkTrained_of_one_rate {fast : Bool} (hstate : (s.link l.val).state = .training) :
    exec (.linkTrained l 0xFF (if fast then 0xAAAA else 0x5555)) s =
      .next (s.setLink l.val
        { state := .measuring, trainReq := true, rate := fast, echoDue := 8, out := (s.link l.val).out }) := by
  show execLinkTrained l 0xFF _ s = _
  simp only [execLinkTrained, hstate]
  cases fast
  · rw [if_neg (by decide), if_pos (by decide)]; rfl
  · rw [if_neg (by decide), if_pos (by decide)]; rfl

theorem exec_linkTrained_of_lane_lost {lanes : BitVec 8} {rates : BitVec 16} (hlanes : lanes ≠ 0xFF)
    (hrates : ∀ j, j < 8 → bits rates.toNat (2 * j + 1) (2 * j) ≠ 3) : exec (.linkTrained l lanes rates) s = .next s := by
  have hknown : ¬ (List.range 8).any (fun j => decide (bits rates.toNat (2 * j + 1) (2 * j) = 3)) = true := by
    simpa using hrates
  show execLinkTrained l lanes rates s = _
  simp only [execLinkTrained]
  rw [if_neg hknown, beq_eq_false_iff_ne.mpr hlanes, Bool.and_false, Bool.false_and, Bool.false_and, if_neg Bool.false_ne_true]

theorem exec_linkTrained_of_unknown_rate {lanes : BitVec 8} {rates : BitVec 16} {j : Nat} (hj : j < 8)
    (hrate : bits rates.toNat (2 * j + 1) (2 * j) = 3) :
    exec (.linkTrained l lanes rates) s = .next (s.raise { src := 52, mkind := 5, mid := l.val, sub := 2, addr := l.val }) := by
  have hunknown : (List.range 8).any (fun j => decide (bits rates.toNat (2 * j + 1) (2 * j) = 3)) = true := by
    simpa using ⟨j, hj, hrate⟩
  show execLinkTrained l lanes rates s = _
  simp only [execLinkTrained]
  rw [if_pos hunknown]

end

/-! ## A link that falls (R271, R272) -/

section
variable (s : State)

theorem State.dropTransit_keepsCore (x : Link) : s.KeepsCore (s.dropTransit x) := by
  unfold State.dropTransit
  extract_lets gone kept
  refine .ite (.refl s) (.foldl (fun t k => ?_) _ s)
  exact .modLink t k fun _ => rfl

theorem State.bufSettleAll_keepsCore : s.KeepsCore s.bufSettleAll := .foldl State.bufSettle_keepsCore _ s

theorem State.partnerLost_keepsCore (c : ChipNo) : s.KeepsCore (s.partnerLost c) := by
  unfold State.partnerLost
  refine .ite (.refl s) ?_
  exact fun _ => rfl

theorem State.readAgain_keepsCore (c : ChipNo) (t : Nat) : s.KeepsCore (s.readAgain c t) := by
  unfold State.readAgain
  extract_lets r
  split
  · exact .ite (s.failRead_keepsCore _ _ _ _) (.trans (t := s.setTxRead c t { r with again := true, via := none })
      (fun _ => rfl) (State.sendMsg_keepsCore _ _))
  · exact .refl s

theorem State.verbEnd_keepsCore (o : Origin) (code st d : Nat) (res : Bytes) : s.KeepsCore (s.verbEnd o code st d res) := by
  unfold State.verbEnd
  split
  · exact .ite (.refl s) (.ite (s.finish_keepsCore _ _ _ _) (s.finish_keepsCore _ _ _ _))
  · exact .refl s

/-- What becomes of the work of a lost link touches neither the cores of the links, nor the fault collector, nor the keeper. -/
structure State.EndsWork (s t : State) : Prop where
  core : s.KeepsCore t
  faults : t.faults = s.faults
  keeper : t.keeper = s.keeper

end

namespace State.EndsWork
variable {s t u : State}

theorem refl (s : State) : s.EndsWork s := ⟨.refl s, rfl, rfl⟩

theorem of_changes {ps : List Part} (hcore : s.KeepsCore t) (h : OnlyChanges ps s t) (hp : .faults ∉ ps ∧ .keeper ∉ ps) :
    s.EndsWork t := ⟨hcore, h .faults hp.1, h .keeper hp.2⟩

theorem trans (h : s.EndsWork t) (k : t.EndsWork u) : s.EndsWork u :=
  ⟨h.core.trans k.core, k.faults.trans h.faults, k.keeper.trans h.keeper⟩

theorem ite {c : Prop} [Decidable c] (h : s.EndsWork t) (k : s.EndsWork u) : s.EndsWork (if c then t else u) := by
  split <;> assumption

theorem foldl {β : Type} {g : State → β → State} (hg : ∀ (t : State) a, t.EndsWork (g t a)) (l : List β) (s : State) :
    s.EndsWork (l.foldl g s) := by
  induction l generalizing s with
  | nil => exact refl s
  | cons a r ih => exact (hg s a).trans (ih _)

end State.EndsWork

/-- A link that fell: its keys and its replay buffer are gone, and source 49 is raised. -/
def State.Fallen (t : State) (l : Nat) : Prop :=
  (t.link l).state = .down ∧ (t.link l).trainReq = false ∧ (t.link l).txKey = none ∧ (t.link l).rxKey = none ∧
    (t.link l).replay = [] ∧ t.faults.stat.getLsbD 49 = true

theorem State.Fallen.of_core {t : State} {l : Nat} {o : Option Bytes} (h : (t.link l).core = { out := o })
    (hstat : t.faults.stat.getLsbD 49 = true) : t.Fallen l :=
  ⟨congrArg (·.state) h, congrArg (·.trainReq) h, congrArg (·.txKey) h, congrArg (·.rxKey) h, congrArg (·.replay) h, hstat⟩

/-- A lost link whose loss is a fault is reset and raises source 49; then the rekey under way on it ends. -/
theorem State.linkLost_eq (s : State) (l : Nat) (x : Link) (cause : Nat) :
    ∃ u : State, (u.link l).core = { out := x.out } ∧ u.faults.stat.getLsbD 49 = true ∧ u.keeper = s.keeper ∧
      s.linkLost l x cause true = (x.rekey.bind (·.origin)).elim u fun o => u.verbEnd o 0x0A02 kNotReady l := by
  unfold State.linkLost
  extract_lets ev groups reads reset s₁ s₂ s₃ s₄ s₅ s₆
  have h₁ : (s₁.link l).core = { out := x.out } := by
    rw [((State.dropTransit_keepsCore _ x).trans (State.bufSettleAll_keepsCore _)) l, State.setLink_link_same]
    rfl
  have h₂ : s₂ = s₁.raiseWith { src := 49, mkind := 5, mid := l, sub := cause, addr := l } (some ev) := if_pos rfl
  have h₃ : s₂.EndsWork s₃ :=
    .ite (.of_changes (s₂.partnerLost_keepsCore _) (s₂.partnerLost_changes _) (by decide)) (.refl s₂)
  have h₄ : s₃.EndsWork s₄ :=
    .foldl (fun t e => .of_changes (t.failGroup_keepsCore _ _ _ _) (t.failGroup_changes _ _ _ _) (by decide)) _ _
  have h₅ : s₄.EndsWork s₅ :=
    .foldl (fun t e => .of_changes (t.readAgain_keepsCore _ _) (t.readAgain_changes _ _) (by decide)) _ _
  have h₆ : s₅.EndsWork s₆ :=
    .foldl (fun t c => .of_changes (t.noRoute_keepsCore c) (t.noRoute_changes c) (by decide)) _ _
  have hend : s₂.EndsWork s₆ := ((h₃.trans h₄).trans h₅).trans h₆
  refine ⟨s₆, ?_, ?_, ?_, ?_⟩
  · rw [hend.core l, h₂, State.raiseWith_link, h₁]
  · rw [hend.faults, h₂]
    exact State.raiseWith_stat_self (show 49 < 64 by decide)
  · rw [hend.keeper, h₂, State.raiseWith_keeper]
    exact ((State.setLink_changes s l _).trans ((State.dropTransit_changes _ x).trans (State.bufSettleAll_changes _))) .keeper (by decide)
  · clear_value s₆
    rcases x.rekey with _ | ⟨_ | o, p, a, q, r⟩ <;> rfl

theorem State.linkLost_fallen (s : State) (l : Nat) (x : Link) (cause : Nat) : (s.linkLost l x cause true).Fallen l := by
  obtain ⟨u, hcore, hstat, -, hu⟩ := s.linkLost_eq l x cause
  rw [hu]
  cases x.rekey.bind (·.origin) with
  | none => exact .of_core hcore hstat
  | some o =>
    refine .of_core ((u.verbEnd_keepsCore o _ _ _ _ l).trans hcore) ?_
    rw [Option.elim_some, u.verbEnd_changes o _ _ _ _ .faults (by decide)]
    exact hstat

section
variable {s : State} {l : Fin 18} (hup : (s.link l.val).isUp = true)
include hup

/-- A link that is up falls when it is taken down for a cause. -/
theorem State.linkDown_fallen (c : Nat) : (s.linkDown l.val (some c)).Fallen l.val := by
  have hlive : ¬ ((s.link l.val).state == .down || (s.link l.val).state == .training) = true := by
    simpa [Link.isUp] using hup
  unfold State.linkDown
  extract_lets x p
  rw [if_neg hlive]
  exact State.linkLost_fallen _ _ _ _

theorem exec_sealSilenceTimeout_of_key (hkey : (s.link l.val).rxKey ≠ none) :
    ∃ t, exec (.sealSilenceTimeout l) s = .next t ∧ t.Fallen l.val := by
  refine ⟨_, rfl, ?_⟩
  rw [if_pos (Option.isSome_iff_ne_none.mpr hkey)]
  exact State.linkDown_fallen hup 1

theorem exec_replayTimeout_of_last (hreplay : (s.link l.val).replay ≠ []) (hlast : 16 ≤ (s.link l.val).replays) :
    ∃ t, exec (.replayTimeout l) s = .next t ∧ t.Fallen l.val := by
  refine ⟨_, rfl, ?_⟩
  unfold State.replay
  extract_lets x
  rw [if_neg hreplay, if_pos hlast]
  exact State.linkDown_fallen hup 0

end

section
variable {s : State} {l : Fin 18}

theorem exec_sealSilenceTimeout_of_no_key (hkey : (s.link l.val).rxKey = none) : exec (.sealSilenceTimeout l) s = .next s := by
  show Host.Outcome.next (if (s.link l.val).rxKey.isSome then _ else s) = _
  rw [hkey]
  rfl

theorem exec_replayTimeout_of_more (hreplay : (s.link l.val).replay ≠ []) (hmore : (s.link l.val).replays < 16) :
    exec (.replayTimeout l) s =
      .next (s.setLink l.val
        { s.link l.val with replayAt := (s.link l.val).replay, replays := (s.link l.val).replays + 1 }) := by
  show Host.Outcome.next (s.replay l.val) = _
  unfold State.replay
  extract_lets x
  rw [if_neg hreplay, if_neg (Nat.not_le.mpr hmore)]

theorem exec_replayTimeout_of_none (hreplay : (s.link l.val).replay = []) : exec (.replayTimeout l) s = .next s := by
  show Host.Outcome.next (s.replay l.val) = _
  unfold State.replay
  extract_lets x
  rw [if_pos hreplay]

end

/-! ## Echoes and the measurement (R273, R274, R276) -/

theorem Link.resize_rtt (x : Link) (r : Nat) : (x.resize r).rtt = r := by
  unfold Link.resize
  extract_lets g y
  split_ifs <;> rfl

theorem Link.resize_state (x : Link) (r : Nat) : (x.resize r).state = x.state := by
  unfold Link.resize
  extract_lets g y
  split_ifs <;> rfl

section
variable (s : State)

theorem State.verbDone_keepsCore (o : Origin) (st d : Nat) (res : Bytes) : s.KeepsCore (s.verbDone o st d res) := by
  unfold State.verbDone
  split
  · exact s.finish_keepsCore _ _ _ _
  · exact .refl s

theorem State.calLinks_keepsCore : s.KeepsCore s.calLinks := by
  unfold State.calLinks
  extract_lets ls
  refine .ite (.foldl (fun t v => ?_) _ s) (.refl s)
  exact t.verbDone_keepsCore _ _ _ _

theorem State.calLinks_rtt (l : Nat) : (s.calLinks.link l).rtt = (s.link l).rtt := congrArg (·.rtt) (s.calLinks_keepsCore l)

theorem State.calLinks_state (l : Nat) : (s.calLinks.link l).state = (s.link l).state := s.calLinks_keepsCore.state l

theorem State.ephemeral_keeps {α : Type} {f : Link → α} (hf : ∀ x : Link, f x.dropEphemeral = f x) :
    s.KeepsLinks f s.ephemeral.2 := s.generate_keeps hf

theorem State.waggleStart_keepsStanding (l : Nat) : s.KeepsStanding (s.waggleStart l) := by
  unfold State.waggleStart
  extract_lets x p
  refine .ite (.refl s) (.ite (s.sendRecord_keepsStanding _ _) (.trans ?_ (State.sendRecord_keepsStanding _ _ _)))
  exact (s.ephemeral_keeps Link.dropEphemeral_standing).trans (.modLink p.2 l fun _ => rfl)

theorem Link.dropEphemeral_serial : ∀ x : Link, x.dropEphemeral.serial = x.serial :=
  Link.dropEphemeral_keeps (fun _ => rfl) fun _ _ => rfl

/-- A record has bytes. -/
theorem State.recordHead_append_ne_nil (l serial : Nat) (epub sig : Bytes) : s.recordHead l serial epub ++ sig ≠ [] := by
  have hlen : (leBytes 1 1).length ≤ (s.recordHead l serial epub ++ sig).length := by
    simp only [State.recordHead, List.append_assoc, List.length_append]
    exact Nat.le_add_right _ _
  intro h
  simp [h] at hlen

end

section
variable {s : State} {l : Nat}

/-- With no record in hand there is nothing to judge. -/
theorem State.judge_of_no_record (h : (s.link l).asmRec = none) : s.judge l = s := by
  unfold State.judge
  extract_lets x
  have hheld : x.heldRecord = none := by
    unfold Link.heldRecord
    rw [show x.asmRec = none from h]
    rfl
  rw [hheld]

/-- Without a record in hand, entering waggle only starts it. -/
theorem State.enterWaggle_of_no_record (h : (s.link l).asmRec = none) : s.enterWaggle l = s.waggleStart l := by
  have hasm : ((s.waggleStart l).link l).asmRec = none := by
    rw [← h]
    exact congrArg (·.asmRec) (s.waggleStart_keepsStanding l l)
  exact State.judge_of_no_record hasm

/-- Waggle starts with the link's first record, not acknowledged. -/
theorem State.waggleStart_link (hstate : (s.link l).state = .waggle) (hrecord : (s.link l).record = []) (hcan : s.canWaggle = true)
    (hunit : s.unitPassed (2 + quadrant l) = true) :
    ((s.waggleStart l).link l).serial = (s.link l).serial + 1 ∧ ((s.waggleStart l).link l).record ≠ [] ∧
      ((s.waggleStart l).link l).acked = false := by
  unfold State.waggleStart
  extract_lets x p
  have hstart : ¬ ((x.state != .waggle || !s.canWaggle || !s.unitPassed (2 + quadrant l)) = true) := by
    rw [show x.state = .waggle from hstate, hcan, hunit]
    decide
  rw [if_neg hstart, if_neg (not_not_intro hrecord)]
  obtain ⟨hserial, hacked, sig, hrec⟩ := (p.2.modLink l fun x => { x with ephPriv := p.1 }).sendRecord_link l (pointEncode (pubKey p.1))
  refine ⟨?_, ?_, hacked⟩
  · rw [hserial, State.modLink_link_same]
    exact congrArg (· + 1) (s.ephemeral_keeps Link.dropEphemeral_serial l)
  · rw [hrec]
    exact State.recordHead_append_ne_nil _ _ _ _ _

/-- A measured link without a record in hand keeps its measures when it enters waggle, and starts it when it can. -/
theorem State.enterWaggle_link {x : Link} (hlink : s.link l = x) (hstate : x.state = .waggle) (hasm : x.asmRec = none)
    (hrecord : x.record = []) :
    ((s.enterWaggle l).link l).state = .waggle ∧ ((s.enterWaggle l).link l).rtt = x.rtt ∧
      ((s.enterWaggle l).link l).grant = x.grant ∧
      (s.canWaggle = true → s.unitPassed (2 + quadrant l) = true → ((s.enterWaggle l).link l).serial = x.serial + 1 ∧
        ((s.enterWaggle l).link l).record ≠ [] ∧ ((s.enterWaggle l).link l).acked = false) := by
  subst hlink
  rw [State.enterWaggle_of_no_record hasm]
  have hkeep := s.waggleStart_keepsStanding l l
  exact ⟨(congrArg (·.state) hkeep).trans hstate, congrArg (·.rtt) hkeep, congrArg (·.grant) hkeep,
    State.waggleStart_link hstate hrecord⟩

end

section
variable {s : State} {l : Fin 18} {flit : Bytes} {now : Word}

theorem exec_echo_of_up (hctl : isCtl flit 1 = true) (hup : (s.link l.val).isUp = true) :
    exec (.echo l flit) s = .next (s.setLink l.val { s.link l.val with
      ctl := (s.link l.val).ctl.takeWhile (isCtl · 2) ++ [ctlFlit (leBytes 1 2 ++ slice flit 5 8)] ++
        (s.link l.val).ctl.dropWhile (isCtl · 2) }) := by
  have hsplit : (s.link l.val).ctl.takeWhile (isCtl · 2) ++ (s.link l.val).ctl.dropWhile (isCtl · 2) = (s.link l.val).ctl :=
    List.takeWhile_append_dropWhile
  show execEcho l flit s = _
  unfold execEcho
  extract_lets x n
  have htake : x.ctl.take n = x.ctl.takeWhile (isCtl · 2) := by
    conv_lhs => rw [← hsplit]
    exact List.take_left
  have hdrop : x.ctl.drop n = x.ctl.dropWhile (isCtl · 2) := by
    conv_lhs => rw [← hsplit]
    exact List.drop_left
  rw [if_neg (by rw [hctl, hup]; decide), htake, hdrop]

/-- The link that a measurement of these samples leaves. -/
def Link.measured (x : Link) (es : List Nat) : Link :=
  { x with rtt := es.foldl max 0, grant := grantOf x.rate (es.foldl max 0), echoes := es, state := .waggle }

/-- The link in service whose round trip these samples give. -/
def Link.timed (x : Link) (es : List Nat) : Link := { x.resize (es.foldl max 0) with echoes := es }

theorem Link.timed_rtt (x : Link) (es : List Nat) : (x.timed es).rtt = es.foldl max 0 := x.resize_rtt _

theorem Link.timed_state (x : Link) (es : List Nat) : (x.timed es).state = x.state := x.resize_state _

/-- The round-trip samples that a reply leaves. -/
def Link.samples (x : Link) (flit : Bytes) (now : Word) : List Nat :=
  ((now - BitVec.ofNat 64 (leAt flit 5 8)).toNat :: x.echoes).take 8

variable (hctl : isCtl flit 2 = true) (hup : (s.link l.val).isUp = true)
include hctl hup

theorem exec_echoReply_of_sample (hstate : (s.link l.val).state = .measuring) (hlen : ((s.link l.val).samples flit now).length < 8) :
    exec (.echoReply l flit now) s = .next (s.setLink l.val { s.link l.val with echoes := (s.link l.val).samples flit now }) := by
  show execEchoReply l flit now s = _
  unfold execEchoReply
  extract_lets x t es top
  have hes : es.length < 8 := hlen
  rw [if_neg (by rw [hctl, hup]; decide), if_pos (by rw [show x.state = .measuring from hstate]; rfl), if_pos hes]
  rfl

theorem exec_echoReply_of_eighth (hstate : (s.link l.val).state = .measuring) (hlen : ((s.link l.val).samples flit now).length = 8)
    (hkey : (s.link l.val).rxKey = none) :
    exec (.echoReply l flit now) s =
      .next ((s.setLink l.val ((s.link l.val).measured ((s.link l.val).samples flit now))).enterWaggle l.val) := by
  show execEchoReply l flit now s = _
  unfold execEchoReply
  extract_lets x t es top y
  have hes : ¬ es.length < 8 := Nat.not_lt.mpr (Nat.le_of_eq hlen.symm)
  have hy : y = { x with rtt := top, grant := grantOf x.rate top } := if_neg (by rw [show x.rxKey = none from hkey]; decide)
  rw [if_neg (by rw [hctl, hup]; decide), if_pos (by rw [show x.state = .measuring from hstate]; rfl),
    if_neg hes, hy]
  rfl

theorem exec_echoReply_of_service (hstate : (s.link l.val).state = .service) (hlen : ((s.link l.val).samples flit now).length = 8) :
    exec (.echoReply l flit now) s = .next ((s.setLink l.val ((s.link l.val).timed ((s.link l.val).samples flit now))).calLinks) := by
  show execEchoReply l flit now s = _
  unfold execEchoReply
  extract_lets x t es top y z
  have hz : z = x.resize top := if_pos hlen
  rw [if_neg (by rw [hctl, hup]; decide), if_neg (by rw [show x.state = .service from hstate]; decide), hz]
  rfl

end

theorem exec_echoPeriodic_of_service {s : State} {l : Fin 18} (hstate : (s.link l.val).state = .service) (hpower : s.power.failing = false) :
    exec (.echoPeriodic l) s = .next (s.setLink l.val { s.link l.val with echoDue := (s.link l.val).echoDue + 1 }) := by
  show execEchoPeriodic l s = _
  unfold execEchoPeriodic
  extract_lets x
  rw [if_pos (by rw [show x.state = .service from hstate, hpower]; rfl)]

/-- Settles O44: a wanted link trains and is measured, a link that is up falls with its keys, and echoes give the round trip. -/
theorem linksTrainMeasureAndFall : Obligations.LinksTrainMeasureAndFall := by
  refine ⟨⟨fun l s hdown hwanted => ?_, fun l lanes rates s => ⟨?_, fun _ => exec_linkTrained_of_lane_lost, fun j hj hrate => ?_⟩,
    fun l s hup => ⟨⟨_, rfl, State.linkDown_fallen hup 2⟩, exec_sealSilenceTimeout_of_key hup, exec_sealSilenceTimeout_of_no_key,
      exec_replayTimeout_of_last hup, fun hreplay hmore => ⟨_, exec_replayTimeout_of_more hreplay hmore, ?_⟩,
      exec_replayTimeout_of_none⟩⟩,
    fun l flit s hctl hup => ⟨_, (s.link l.val).ctl.takeWhile (isCtl · 2), (s.link l.val).ctl.dropWhile (isCtl · 2),
      exec_echo_of_up hctl hup, ?_⟩,
    fun l flit now s hctl hup => ⟨fun hstate hlen => ⟨_, exec_echoReply_of_sample hctl hup hstate hlen, ?_⟩,
      fun hstate hlen hkey hasm hrecord => ⟨_, exec_echoReply_of_eighth hctl hup hstate hlen hkey, ?_⟩,
      fun hstate hlen => ⟨_, exec_echoReply_of_service hctl hup hstate hlen, ?_⟩⟩,
    fun l s hstate hpower => ⟨_, exec_echoPeriodic_of_service hstate hpower, State.setLink_link_same _ _ _, s.setLink_changes _ _⟩⟩
  · have hquad := quadrant_lt l.val
    refine ⟨_, exec_linkRetrainingRequest_of_wanted hdown hwanted, ?_, fun hack => ?_, fun k hk => ?_, ?_⟩
    · rw [State.powerUp_link, State.powerUp_link, State.setLink_link_same]
    · exact State.powerUp_req_keeps (by omega) (State.powerUp_req (by omega) hack)
    · rw [State.powerUp_link, State.powerUp_link, State.setLink_link_other _ _ hk]
    · exact .step (.step (.step (.refl _ s) (s.setLink_changes _ _) (by decide)) (State.powerUp_changes _ _) (by decide))
        (State.powerUp_changes _ _) (by decide)
  · rintro hstate rfl hrates
    obtain ⟨fast, rfl⟩ : ∃ fast : Bool, rates = if fast then 0xAAAA else 0x5555 := by
      rcases hrates with rfl | rfl
      · exact ⟨false, rfl⟩
      · exact ⟨true, rfl⟩
    refine ⟨_, exec_linkTrained_of_one_rate hstate, ?_⟩
    rw [State.setLink_link_same]
    refine ⟨rfl, ?_, rfl, rfl, rfl, rfl, fun k hk => State.setLink_link_other _ _ hk, s.setLink_changes _ _⟩
    cases fast <;> rfl
  · exact ⟨_, exec_linkTrained_of_unknown_rate hj hrate, State.raiseWith_stat_self (show 52 < 64 by decide), State.raise_fabric _ _⟩
  · exact ⟨State.setLink_link_same _ _ _, fun k hk => State.setLink_link_other _ _ hk, s.setLink_changes _ _⟩
  · refine ⟨List.takeWhile_append_dropWhile.symm, fun f hf => List.mem_takeWhile_imp (p := (isCtl · 2)) hf, fun f hf => ?_,
      State.setLink_link_same _ _ _, fun k hk => State.setLink_link_other _ _ hk, s.setLink_changes _ _⟩
    have hnot := List.head?_dropWhile_not (isCtl · 2) (s.link l.val).ctl
    rw [hf] at hnot
    simpa using hnot
  · exact ⟨State.setLink_link_same _ _ _, s.setLink_changes _ _⟩
  · obtain ⟨hwaggle, hrtt, hgrant, hsent⟩ := State.enterWaggle_link
      (State.setLink_link_same s l.val ((s.link l.val).measured ((s.link l.val).samples flit now))) rfl hasm hrecord
    exact ⟨hwaggle, hrtt, hgrant, fun hcan hunit => hsent ((State.canWaggle_of_changes (s.setLink_changes _ _)).trans hcan) hunit⟩
  · rw [State.calLinks_rtt, State.calLinks_state, State.setLink_link_same]
    exact ⟨Link.timed_rtt _ _, (Link.timed_state _ _).trans hstate⟩

end Sys2Proof.Machine

/-! # Proofs: flits go out (R260 to R262, R266, R271, R273, R275, R366) -/
namespace Sys2Proof.Machine

/-! ## The header of a message flit (R261) -/

theorem mkFlit_head {kind seq cls first : Nat} (body : Bytes) (hkind : kind < 4) (hcls : cls < 8) (hfirst : first < 128) :
    leAt (mkFlit kind seq cls first body) 0 4 = kind + 4 * (seq % 4096) + 2 ^ 14 * cls + 2 ^ 17 * first :=
  leAt_leBytes_append _ (by omega)

theorem mkFlit_fields {seq cls first : Nat} (body : Bytes) (hcls : cls < 8) (hfirst : first < 128) :
    flKind (mkFlit 0 seq cls first body) = 0 ∧ flSeq (mkFlit 0 seq cls first body) = BitVec.ofNat 12 seq ∧
      flClass (mkFlit 0 seq cls first body) = cls := by
  have hhead := mkFlit_head (seq := seq) body (show 0 < 4 by decide) hcls hfirst
  refine ⟨?_, ?_, ?_⟩
  · rw [flKind, fieldAt, hhead, bits, Nat.shiftRight_eq_div_pow]
    omega
  · apply BitVec.eq_of_toNat_eq
    rw [flSeq, fieldAt, hhead, bits, Nat.shiftRight_eq_div_pow, BitVec.toNat_ofNat, BitVec.toNat_ofNat]
    omega
  · rw [flClass, fieldAt, hhead, bits, Nat.shiftRight_eq_div_pow]
    omega

/-- FL_FIRST of packed messages is an offset, or 127. -/
theorem packMsgs_first_lt (ms : List Msg) (pos off : Nat) (hoff : off ≤ 124) : (packMsgs ms pos off).2.1 < 128 := by
  induction ms generalizing pos off with
  | nil => exact (by decide : 127 < 128)
  | cons m r ih =>
    unfold packMsgs
    extract_lets b room first q
    have hfirst : first < 128 := by unfold first; split <;> omega
    split
    · exact (by decide : 127 < 128)
    · split
      next hfit => exact Nat.lt_of_le_of_lt (Nat.min_le_left _ _) hfirst
      next => exact hfirst

/-! ## The credits of a message flit (R275) -/

theorem sum_range_getD (l : List Nat) (n : Nat) : ((List.range n).map fun i => l.getD i 0).sum = (l.take n).sum := by
  induction n with
  | zero => simp
  | succ n ih =>
    rw [List.range_succ, List.map_append, List.sum_append, ih, List.take_add_one, List.sum_append, List.map_singleton,
      List.sum_singleton, List.getD_eq_getElem?_getD]
    cases l[n]? <;> rfl

/-- One of the first `n` counters, which has a credit, is charged. -/
theorem sum_charged {l : List Nat} {n j : Nat} (hj : j < n) (hcr : 0 < l.getD j 0) :
    ((List.range n).map fun i => l.getD i 0 - if i = j then 1 else 0).sum + 1 = (l.take n).sum := by
  rw [← sum_range_getD]
  induction n with
  | zero => omega
  | succ n ih =>
    simp only [List.range_succ, List.map_append, List.sum_append, List.map_cons, List.map_nil, List.sum_cons, List.sum_nil]
    rcases Nat.lt_or_ge j n with h | h
    · have := ih h
      rw [if_neg (by omega)]
      omega
    · obtain rfl : j = n := by omega
      have hrest : (List.range j).map (fun i => l.getD i 0 - if i = j then 1 else 0) = (List.range j).map fun i => l.getD i 0 :=
        List.map_congr_left fun i hi => by rw [if_neg (Nat.ne_of_lt (List.mem_range.mp hi))]; rfl
      rw [hrest, if_pos rfl]
      omega

theorem Link.nextClass_spec {x : Link} {halted : Bool} {c : Nat} (h : x.nextClass halted = some c) :
    c < 5 ∧ (0 < x.txCr.getD c 0 ∨ 0 < x.txCr.getD 5 0) := by
  unfold Link.nextClass at h
  split at h
  · contradiction
  · have hmem := List.mem_of_find?_eq_some h
    have hp := List.find?_some h
    obtain ⟨i, -, rfl⟩ := List.mem_map.mp hmem
    simp only [Bool.and_eq_true, Bool.or_eq_true, decide_eq_true_eq] at hp
    exact ⟨Nat.mod_lt _ (by decide), hp.2⟩

/-! ## Flits sent (R260, R262, R266, R271, R275) -/

theorem State.leftOn_keepsCore (s : State) (l : Nat) (m : Msg) : s.KeepsCore (s.leftOn l m) := by
  unfold State.leftOn
  extract_lets g r
  refine .ite (.refl s) (.ite (.ite ?_ (.refl s)) (.ite (.ite ?_ (.refl s)) (.refl s)))
  · exact fun _ => rfl
  · exact fun _ => rfl

theorem State.switchTx_link {s : State} {l : Nat} (h : (s.link l).txNext = none) :
    (s.modLink l Link.switchTx).link l = s.link l := by
  rw [State.modLink_link_same, Link.switchTx, h]

/-- What a port's slot shows: the flit driven, the run it leaves open, and what is kept for replay. -/
def Link.onLine (x : Link) : Option Bytes × List Bytes × Nat × BitVec 12 × List TxFlit :=
  (x.out, x.txRun, x.sinceSeal, x.txSeq, x.replay)

theorem State.txRatchet_onLine (s : State) (l : Nat) : s.KeepsLinks Link.onLine (s.txRatchet l) := by
  unfold State.txRatchet
  extract_lets x
  split
  · refine .ite (.trans (.setLink s l ?_) (.of_changes (State.event_changes _ _) (by decide))) (.refl s)
    rfl
  · exact .refl s

/-- The seal of the open run of a link. -/
def Link.sealOf (x : Link) (k : LinkKey) : Bytes := x.sealHead ++ sealTag k x.txCtr.toNat x.txRun x.sealHead

theorem State.sendSeal_onLine (s : State) (l : Nat) (k : LinkKey) {x : Link} (hx : s.link l = x) :
    ((s.sendSeal l k).link l).onLine = (some (x.sealOf k), [], 0, x.txSeq + 1, x.replay ++ [⟨x.txSeq, x.sealOf k, []⟩]) := by
  subst hx
  unfold State.sendSeal
  extract_lets x h f rk
  rw [State.txRatchet_onLine, State.setLink_link_same]
  rfl

/-- A message flit takes the next sequence number and a credit, and is kept for replay. -/
theorem State.sendMessages_link (s : State) (l c : Nat) (k : LinkKey) {x : Link} (hx : s.link l = x) (hc : c < 5)
    (hcr : 0 < x.txCr.getD c 0 ∨ 0 < x.txCr.getD 5 0) : ∃ f ms, ((s.sendMessages l c k).link l).out = some f ∧ flKind f = 0 ∧
      flSeq f = x.txSeq ∧ flClass f = c ∧ ((s.sendMessages l c k).link l).txRun = x.txRun ++ [f] ∧
      ((s.sendMessages l c k).link l).txSeq = x.txSeq + 1 ∧
      ((s.sendMessages l c k).link l).replay = x.replay ++ [⟨x.txSeq, f, ms⟩] ∧
      ((s.sendMessages l c k).link l).txCr.sum + 1 = (x.txCr.take 6).sum := by
  subst hx
  unfold State.sendMessages
  extract_lets x p body f cr y t
  have hcore : (s.setLink l y).KeepsCore (if p.2.2.1.all (·.buf.isEmpty) then t else t.bufSettleAll) := by
    have ht : (s.setLink l y).KeepsCore t := .foldl (fun t m => t.leftOn_keepsCore l m) _ _
    exact .ite ht (ht.trans t.bufSettleAll_keepsCore)
  have hy := hcore l
  rw [State.setLink_link_same] at hy
  obtain ⟨hkind, hseq, hcls⟩ := mkFlit_fields (seq := x.txSeq.toNat) body (show c < 8 by omega)
    (packMsgs_first_lt (x.sendable s.faults.halted c) (x.txPos.get 0 c) 0 (by decide))
  refine ⟨f, p.2.2.1, congrArg (·.out) hy, hkind, hseq.trans (BitVec.ofNat_toNat _ _), hcls, congrArg (·.txRun) hy,
    congrArg (·.txSeq) hy, congrArg (·.replay) hy, ?_⟩
  have hcharged : (if 0 < x.txCr.getD c 0 then c else 5) < 6 ∧ 0 < x.txCr.getD (if 0 < x.txCr.getD c 0 then c else 5) 0 := by
    split
    next h => exact ⟨by omega, h⟩
    next h => exact ⟨by decide, hcr.resolve_left h⟩
  exact (congrArg (fun z : Link => z.txCr.sum + 1) hy).trans (sum_charged hcharged.1 hcharged.2)

section
variable {s : State} {l : Fin 18} (now : Word) (hnext : (s.link l.val).txNext = none)
include hnext

theorem exec_flitSend_of_reply {f : Bytes} (hfind : (s.link l.val).ctl.find? (isCtl · 2) = some f) :
    exec (.flitSend l now) s = .next ((s.modLink l.val Link.switchTx).setLink l.val
      { (s.link l.val).drive f with ctl := (s.link l.val).ctl.erase f }) := by
  show execFlitSend l now s = _
  simp only [execFlitSend, State.switchTx_link hnext, hfind]

section
variable (hfind : (s.link l.val).ctl.find? (isCtl · 2) = none)
include hfind

theorem exec_flitSend_of_seal_due {k : LinkKey} (hkey : (s.link l.val).txKey = some k) (hdue : (s.link l.val).sealDue = true) :
    exec (.flitSend l now) s = .next ((s.modLink l.val Link.switchTx).sendSeal l.val k) := by
  show execFlitSend l now s = _
  simp only [execFlitSend, State.switchTx_link hnext, hfind, hdue, hkey, if_true]

variable (hdue : (s.link l.val).sealDue = false)
include hdue

theorem exec_flitSend_of_idle_owed (howed : 0 < (s.link l.val).idleOwed) :
    exec (.flitSend l now) s = .next ((s.modLink l.val Link.switchTx).setLink l.val
      { (s.link l.val).drive idleFlit with idleOwed := (s.link l.val).idleOwed - 1 }) := by
  show execFlitSend l now s = _
  simp only [execFlitSend, State.switchTx_link hnext, hfind, hdue, howed, if_true, Bool.false_eq_true, if_false]

variable (howed : (s.link l.val).idleOwed = 0)
include howed

theorem exec_flitSend_of_control {f : Bytes} {r : List Bytes} (hctl : (s.link l.val).ctl = f :: r) :
    exec (.flitSend l now) s = .next ((s.modLink l.val Link.switchTx).setLink l.val { (s.link l.val).drive f with ctl := r }) := by
  show execFlitSend l now s = _
  rw [hctl] at hfind
  simp only [execFlitSend, State.switchTx_link hnext, hctl, hfind, hdue, howed, Nat.lt_irrefl, Bool.false_eq_true, if_false]

variable (hctl : (s.link l.val).ctl = [])
include hctl
omit hfind

theorem exec_flitSend_of_echo (hecho : 0 < (s.link l.val).echoDue) :
    exec (.flitSend l now) s = .next ((s.modLink l.val Link.switchTx).setLink l.val
      { (s.link l.val).drive (ctlFlit ([1] ++ leBytes 8 now.toNat)) with echoDue := (s.link l.val).echoDue - 1 }) := by
  show execFlitSend l now s = _
  simp only [execFlitSend, State.switchTx_link hnext, hctl, List.find?_nil, hdue, howed, hecho, Nat.lt_irrefl, Bool.false_eq_true, if_false,
    if_true]

variable (hecho : (s.link l.val).echoDue = 0)
include hecho

theorem exec_flitSend_of_replay {e : TxFlit} {r : List TxFlit} (hreplay : (s.link l.val).replayAt = e :: r) :
    exec (.flitSend l now) s = .next ((s.modLink l.val Link.switchTx).setLink l.val { (s.link l.val).drive e.bytes with
      replayAt := r, sinceSeal := if flKind e.bytes = 1 then 0 else (s.link l.val).sinceSeal + 1 }) := by
  show execFlitSend l now s = _
  simp only [execFlitSend, State.switchTx_link hnext, hctl, List.find?_nil, hdue, howed, hecho, hreplay, Nat.lt_irrefl, Bool.false_eq_true,
    if_false]

variable (hreplay : (s.link l.val).replayAt = [])
include hreplay

theorem exec_flitSend_of_no_key (hkey : (s.link l.val).txKey = none) :
    exec (.flitSend l now) s = .next ((s.modLink l.val Link.switchTx).setLink l.val ((s.link l.val).drive idleFlit)) := by
  show execFlitSend l now s = _
  simp only [execFlitSend, State.switchTx_link hnext, hctl, List.find?_nil, hdue, howed, hecho, hreplay, hkey, Nat.lt_irrefl,
    Bool.false_eq_true, if_false]

variable {k : LinkKey} (hkey : (s.link l.val).txKey = some k)
include hkey

theorem exec_flitSend_of_class {c : Nat} (hclass : (s.link l.val).nextClass s.faults.halted = some c) :
    exec (.flitSend l now) s = .next ((s.modLink l.val Link.switchTx).sendMessages l.val c k) := by
  show execFlitSend l now s = _
  have hclass' : (s.link l.val).nextClass (s.modLink l.val Link.switchTx).faults.halted = some c := hclass
  simp only [execFlitSend, State.switchTx_link hnext, hctl, List.find?_nil, hdue, howed, hecho, hreplay, hkey, hclass', Nat.lt_irrefl,
    Bool.false_eq_true, if_false]

variable (hclass : (s.link l.val).nextClass s.faults.halted = none)
include hclass

theorem exec_flitSend_of_no_class :
    exec (.flitSend l now) s = .next (if (s.link l.val).txRun ≠ [] then (s.modLink l.val Link.switchTx).sendSeal l.val k
      else (s.modLink l.val Link.switchTx).setLink l.val ((s.link l.val).drive idleFlit)) := by
  show execFlitSend l now s = _
  have hclass' : (s.link l.val).nextClass (s.modLink l.val Link.switchTx).faults.halted = none := hclass
  simp only [execFlitSend, State.switchTx_link hnext, hctl, List.find?_nil, hdue, howed, hecho, hreplay, hkey, hclass', Nat.lt_irrefl,
    Bool.false_eq_true, if_false]

end

theorem exec_sealPeriodic_of_due {k : LinkKey} (hkey : (s.link l.val).txKey = some k) (hdue : 63 ≤ (s.link l.val).sinceSeal) :
    exec (.sealPeriodic l) s = .next ((s.modLink l.val Link.switchTx).sendSeal l.val k) := by
  show execSealPeriodic l s = _
  simp only [execSealPeriodic, State.switchTx_link hnext, hkey, hdue, if_true]

end

end Sys2Proof.Machine

/-! # Proofs: runs come in, and flits as a whole (R262, R265, R266, R270) -/
namespace Sys2Proof.Machine

/-! ## Flits received (R262, R265, R266, R270) -/

/-- Where a link stands in the sequence it receives. -/
def Link.rxState (x : Link) : List Bytes × BitVec 12 × Option LinkKey × Word := (x.rxRun, x.rxSeq, x.rxKey, x.rxCtr)

/-- What a link has received but not yet acted on. -/
def Link.rxMsgs (x : Link) : List (Nat × Msg) × Store Bytes × Store (List Nat) := (x.rxq, x.rxPart, x.rxPartIn)

theorem State.KeepsCore.to {s t : State} {α : Type} {f : Link → α} (h : s.KeepsCore t) (hf : ∀ x : Link, f x.core = f x) :
    s.KeepsLinks f t := fun k => by rw [← hf, h k, hf]

section
variable (s : State) (l : Nat)

theorem State.deliver_rxState (c : Nat) (m : Msg) : s.KeepsLinks Link.rxState (s.deliver l c m) := by
  unfold State.deliver
  extract_lets set refuse p
  have hrefuse (r : Nat) : s.KeepsLinks Link.rxState (refuse r) :=
    .ite (.refl s) ((s.sendMsg_keepsCore _).to fun _ => rfl)
  refine .ite (.modLink s l fun _ => rfl) (.ite (.refl s) (.ite (hrefuse 6) (.ite (hrefuse 9) ?_)))
  exact ((s.nextLink_keepsCore _ _).to fun _ => rfl).trans (.modLink p.2 _ fun _ => rfl)

theorem State.openFlit_rxState (f body : Bytes) : s.KeepsLinks Link.rxState (s.openFlit l f body) := by
  unfold State.openFlit
  extract_lets x c id part old b r kept goesOn u v w
  have hu : s.KeepsLinks Link.rxState u := .setLink s l rfl
  have hw : v.KeepsLinks Link.rxState w := .foldl (fun t m => t.deliver_rxState l c m) _ v
  have hlast : w.KeepsLinks Link.rxState (w.bufSettle l) := (w.bufSettle_keepsCore l).to fun _ => rfl
  refine ((hu.trans (.trans (t := v) (fun _ => rfl) hw)).trans hlast).trans (.foldl (fun t _ => ?_) _ _)
  exact .of_changes (t.linkProtocol_changes l) (by decide)

theorem State.rekeyCheck_keeps {α : Type} {f : Link → α} (hcore : ∀ x : Link, f x.core = f x)
    (hrekey : ∀ x : Link, f { x with rekey := none } = f x) : s.KeepsLinks f (s.rekeyCheck l) := by
  unfold State.rekeyCheck
  extract_lets x u
  have hu : s.KeepsLinks f u := .trans (.setLink s l (hrekey x)) (.of_changes (State.event_changes _ _) (by decide))
  split
  · exact .refl s
  next r hr =>
    refine .ite (.refl s) ?_
    split
    · exact hu.trans ((u.verbEnd_keepsCore _ _ _ _ _).to hcore)
    · exact hu

end

/-- The link that a verified seal leaves before its run is opened. -/
def Link.sealTaken (x : Link) (flit : Bytes) (k : LinkKey) (ctr how : Nat) : Link :=
  (({ x with
      rxRun := [], rxSeq := x.rxSeq + 1, rxCtr := BitVec.ofNat 64 (ctr + 1), rxKey := some k, rxEpoch := bit (leAt flit 12 1) 0
      rxNext := if how = 1 then none else x.rxNext
      rekey := x.rekey.map fun r => { r with rxDone := r.rxDone || how = 1 } } : Link).ackTo
    (BitVec.ofNat 12 (fieldAt flit 13 2 11 0))).creditBack ((List.range 6).map fun i => leAt flit (16 + 2 * i) 2)

theorem Link.ackTo_received (x : Link) (a : BitVec 12) : (x.ackTo a).rxState = x.rxState ∧ (x.ackTo a).rxMsgs = x.rxMsgs := by
  unfold Link.ackTo
  split
  · exact ⟨rfl, rfl⟩
  · extract_lets n gone
    split <;> exact ⟨rfl, rfl⟩

theorem Link.sealTaken_received (x : Link) (flit : Bytes) (k : LinkKey) (ctr how : Nat) :
    (x.sealTaken flit k ctr how).rxState = ([], x.rxSeq + 1, some k, BitVec.ofNat 64 (ctr + 1)) ∧
      (x.sealTaken flit k ctr how).rxMsgs = x.rxMsgs :=
  Link.ackTo_received _ _

/-- The flits of a verified run, opened in order. -/
def State.openRun (s : State) (l : Nat) (k : LinkKey) (ctr : Nat) (run : List Bytes) : State :=
  (List.range run.length).foldl (fun t i => t.openFlit l (run.getD i []) (runCrypt k ctr i (flBody (run.getD i [])))) s

theorem State.openRun_one (s : State) (l : Nat) (k : LinkKey) (ctr : Nat) (f : Bytes) :
    s.openRun l k ctr [f] = s.openFlit l f (runCrypt k ctr 0 (flBody f)) := rfl

theorem State.openRun_rxState (s : State) (l : Nat) (k : LinkKey) (ctr : Nat) (run : List Bytes) :
    s.KeepsLinks Link.rxState (s.openRun l k ctr run) := .foldl (fun t _ => t.openFlit_rxState l _ _) _ s

/-- A flit that holds one whole message for this chip hands it over. -/
theorem State.openFlit_of_one {s : State} {l : Nat} {f body rest : Bytes} {m : Msg}
    (hpart : (s.link l).rxPart.get [] (flClass f) = []) (hin : (s.link l).rxPartIn.get [] (flClass f) = [])
    (hfirst : flFirst f ≤ 124) (hdst : m.dst = s.inp.chipId) (hparse : parseMsgs 16 (body.drop (flFirst f)) = (rest, [m], 0)) :
    ((s.openFlit l f body).link l).rxq = (s.link l).rxq ++ [(flClass f, { m with buf := [s.fabric.nextBuf] })] ∧
      ((s.openFlit l f body).link l).rxPart.get [] (flClass f) = rest := by
  unfold State.openFlit
  extract_lets x c id part old b r kept goesOn u v w
  have hb : b = body.drop (flFirst f) := by
    unfold b
    rw [if_pos hpart, Nat.min_eq_right hfirst]
  have hr : r = (rest, [m], 0) := by rw [← hparse, ← hb]
  have hkept : kept = [] := by
    unfold kept
    rw [show old = [] from hin, ite_self]
  have hw : w = v.modLink l fun x => { x with rxq := x.rxq ++ [(c, { m with buf := [id] })] } := by
    unfold w
    rw [hr, hkept]
    exact if_pos hdst
  rw [hr]
  have hsettle := w.bufSettle_keepsCore l
  have hlink : w.link l = { u.link l with rxq := (u.link l).rxq ++ [(c, { m with buf := [id] })] } := by
    rw [hw, State.modLink_link_same]
    rfl
  have hu : u.link l = _ := State.setLink_link_same _ _ _
  rw [hu] at hlink
  have hcore := hsettle l
  rw [hlink] at hcore
  refine ⟨congrArg (·.rxq) hcore, (congrArg (·.rxPart.get [] c) hcore).trans ?_⟩
  rw [hr]
  exact Store.get_set_same _ _ _ _

/-- The state that a verified seal leaves. -/
def State.released (s : State) (l : Nat) (flit : Bytes) (k : LinkKey) (ctr how : Nat) (run : List Bytes) : State :=
  ((s.setLink l ((s.link l).sealTaken flit k ctr how)).openRun l k ctr run).rekeyCheck l

theorem State.released_rxState (s : State) (l : Nat) (flit : Bytes) (k : LinkKey) (ctr how : Nat) (run : List Bytes) :
    ((s.released l flit k ctr how run).link l).rxState = ([], (s.link l).rxSeq + 1, some k, BitVec.ofNat 64 (ctr + 1)) := by
  have hcheck := State.rekeyCheck_keeps (f := Link.rxState) ((s.setLink l ((s.link l).sealTaken flit k ctr how)).openRun l k ctr run) l
    (fun _ => rfl) fun _ => rfl
  rw [State.released, hcheck, State.openRun_rxState, State.setLink_link_same]
  exact ((s.link l).sealTaken_received flit k ctr how).1

theorem State.released_of_one {s : State} {l : Nat} (flit : Bytes) {k : LinkKey} {ctr : Nat} (how : Nat) {f rest : Bytes} {m : Msg}
    (hpart : (s.link l).rxPart.get [] (flClass f) = []) (hin : (s.link l).rxPartIn.get [] (flClass f) = [])
    (hfirst : flFirst f ≤ 124) (hdst : m.dst = s.inp.chipId)
    (hparse : parseMsgs 16 ((runCrypt k ctr 0 (flBody f)).drop (flFirst f)) = (rest, [m], 0)) :
    ((s.released l flit k ctr how [f]).link l).rxq = (s.link l).rxq ++ [(flClass f, { m with buf := [s.fabric.nextBuf] })] ∧
      ((s.released l flit k ctr how [f]).link l).rxPart.get [] (flClass f) = rest := by
  have hmsgs := ((s.link l).sealTaken_received flit k ctr how).2
  simp only [Link.rxMsgs, Prod.mk.injEq] at hmsgs
  obtain ⟨hrxq, hrxPart, hrxPartIn⟩ := hmsgs
  have hlink := s.setLink_link_same l ((s.link l).sealTaken flit k ctr how)
  have hopen := State.openFlit_of_one (s := s.setLink l ((s.link l).sealTaken flit k ctr how)) (l := l)
    (by rw [hlink, hrxPart]; exact hpart) (by rw [hlink, hrxPartIn]; exact hin) hfirst hdst hparse
  rw [hlink, hrxq] at hopen
  have hcheck := State.rekeyCheck_keeps (f := Link.rxMsgs) ((s.setLink l ((s.link l).sealTaken flit k ctr how)).openRun l k ctr [f]) l
    (fun _ => rfl) (fun _ => rfl) l
  simp only [Link.rxMsgs, Prod.mk.injEq, State.openRun_one] at hcheck
  obtain ⟨hq, hp, -⟩ := hcheck
  rw [State.released, State.openRun_one, hq, hp]
  exact hopen

/-- A sequenced flit of a kind that is the next one for a link with keys. -/
def Link.takes (x : Link) (flit : Bytes) (kind : Nat) : Prop :=
  flit.length = 128 ∧ flKind flit = kind ∧ x.rxKey ≠ none ∧ flSeq flit = x.rxSeq

theorem Link.takes_iff (x : Link) (flit : Bytes) (kind : Nat) :
    (decide (flit.length = 128) && decide (flKind flit = kind) && x.rxKey.isSome && flSeq flit == x.rxSeq) = true ↔ x.takes flit kind := by
  simp only [Link.takes, Bool.and_eq_true, decide_eq_true_eq, Option.isSome_iff_ne_none, beq_iff_eq, and_assoc]

section
variable {s : State} {l : Fin 18} {flit : Bytes}

theorem exec_messageFlitReceive_of_next (h : (s.link l.val).takes flit 0) :
    exec (.messageFlitReceive l flit) s = .next (s.setLink l.val
      { s.link l.val with rxRun := (s.link l.val).rxRun ++ [flit], rxSeq := (s.link l.val).rxSeq + 1 }) :=
  congrArg Host.Outcome.next (if_pos (((s.link l.val).takes_iff flit 0).mpr h))

theorem exec_messageFlitReceive_of_other (h : ¬ (s.link l.val).takes flit 0) : exec (.messageFlitReceive l flit) s = .next s :=
  congrArg Host.Outcome.next (if_neg (mt ((s.link l.val).takes_iff flit 0).mp h))

theorem exec_sealReceive_of_other (h : ¬ (s.link l.val).takes flit 1) : exec (.sealReceive l flit) s = .next s := by
  show execSealReceive l flit s = _
  unfold execSealReceive
  extract_lets n x
  rw [Bool.eq_false_iff.mpr (mt (x.takes_iff flit 1).mp h), if_pos (by decide)]

section
variable (h : (s.link l.val).takes flit 1)
include h

theorem exec_sealReceive_of_unverified (hverify : (s.link l.val).verify flit = none) :
    exec (.sealReceive l flit) s = .next ((s.setLink l.val { s.link l.val with
      rxRun := [], rxSeq := (s.link l.val).rxSeq - BitVec.ofNat 12 (s.link l.val).rxRun.length, nak := true }).raise
        { src := 50, mkind := 5, mid := l.val, addr := l.val }) := by
  show execSealReceive l flit s = _
  unfold execSealReceive
  extract_lets n x
  rw [(x.takes_iff flit 1).mpr h, if_neg (by decide), show x.verify flit = none from hverify]

/-- A verified seal moves the link on and opens its run. -/
theorem exec_sealReceive_of_verified {k : LinkKey} {ctr how : Nat} (hverify : (s.link l.val).verify flit = some (k, ctr, how))
    (hnak : bit (leAt flit 12 1) 1 = false) :
    exec (.sealReceive l flit) s = .next (s.released l.val flit k ctr how (s.link l.val).rxRun) := by
  show execSealReceive l flit s = _
  unfold execSealReceive
  extract_lets n x
  rw [(x.takes_iff flit 1).mpr h, if_neg (by decide), show x.verify flit = some (k, ctr, how) from hverify]
  simp only [hnak, Bool.false_eq_true, if_false]
  rfl

end

end

/-- A seal sent is what the slot drives, and it is kept for replay. -/
theorem State.sendSeal_link (s : State) (l : Nat) (k : LinkKey) {x : Link} (hx : s.link l = x) :
    ((s.sendSeal l k).link l).out = some (x.sealOf k) ∧ ((s.sendSeal l k).link l).txRun = [] ∧
      ((s.sendSeal l k).link l).sinceSeal = 0 ∧ ((s.sendSeal l k).link l).txSeq = x.txSeq + 1 ∧
      ((s.sendSeal l k).link l).replay = x.replay ++ [⟨x.txSeq, x.sealOf k, []⟩] := by
  simpa only [Link.onLine, Prod.mk.injEq] using s.sendSeal_onLine l k hx

/-- The slot's flit that is not sequenced leaves the rest of the state. -/
theorem State.switched_setLink_changes (s : State) (l : Nat) (x : Link) :
    OnlyChanges [.fabric] s ((s.modLink l Link.switchTx).setLink l x) := (s.modLink_changes _ _).trans (State.setLink_changes _ _ _)

/-- Settles O45: each slot sends the first flit due in the order of the ports, and a verified seal releases its run. -/
theorem flitsGoOutAndRunsComeIn : Obligations.FlitsGoOutAndRunsComeIn := by
  refine ⟨⟨fun l now s hnext => ?_, fun l k s => ?_⟩,
    fun l flit s => ⟨fun h => ⟨_, exec_messageFlitReceive_of_next h, s.setLink_link_same _ _, s.setLink_changes _ _⟩,
      exec_messageFlitReceive_of_other⟩,
    fun l flit s => ⟨s, rfl, rfl⟩, fun l flit s => ⟨exec_sealReceive_of_other, fun h hverify => ?_, fun k ctr how h hverify hnak => ?_⟩⟩
  · have hx := State.switchTx_link hnext
    intro x sent
    refine ⟨fun f hfind => ⟨_, exec_flitSend_of_reply now hnext hfind, ?_⟩, fun hfind => ⟨fun k hkey hdue => ?_, fun hdue howed => ?_,
      fun hdue howed => ⟨fun f r hctl => ?_, fun hctl hecho => ?_, fun hctl hecho => ⟨fun e r hreplay => ?_, fun hreplay hkey => ?_,
        fun k hreplay hkey => ⟨fun c hclass => ?_, fun hclass hrun => ?_, fun hclass hrun => ?_⟩⟩⟩⟩⟩
    · rw [State.setLink_link_same]
      exact ⟨rfl, rfl, rfl, s.switched_setLink_changes _ _⟩
    · exact ⟨_, exec_flitSend_of_seal_due now hnext hfind hkey hdue, State.sendSeal_link _ _ k hx⟩
    · refine ⟨_, exec_flitSend_of_idle_owed now hnext hfind hdue howed, ?_⟩
      rw [State.setLink_link_same]
      exact ⟨rfl, rfl, rfl, rfl, s.switched_setLink_changes _ _⟩
    · refine ⟨_, exec_flitSend_of_control now hnext hfind hdue howed hctl, ?_⟩
      rw [State.setLink_link_same]
      exact ⟨rfl, rfl, rfl, s.switched_setLink_changes _ _⟩
    · refine ⟨_, exec_flitSend_of_echo now hnext hdue howed hctl hecho, ?_⟩
      rw [State.setLink_link_same]
      exact ⟨rfl, rfl, rfl, s.switched_setLink_changes _ _⟩
    · refine ⟨_, exec_flitSend_of_replay now hnext hdue howed hctl hecho hreplay, ?_⟩
      rw [State.setLink_link_same]
      exact ⟨rfl, rfl, rfl, rfl, s.switched_setLink_changes _ _⟩
    · refine ⟨_, exec_flitSend_of_no_key now hnext hdue howed hctl hecho hreplay hkey, ?_⟩
      rw [State.setLink_link_same]
      exact ⟨rfl, rfl, s.switched_setLink_changes _ _⟩
    · obtain ⟨hc, hcr⟩ := Link.nextClass_spec hclass
      obtain ⟨f, ms, hsent⟩ := State.sendMessages_link _ _ c k hx hc hcr
      exact ⟨_, f, ms, exec_flitSend_of_class now hnext hdue howed hctl hecho hreplay hkey hclass, hsent⟩
    · refine ⟨_, (exec_flitSend_of_no_class now hnext hdue howed hctl hecho hreplay hkey hclass).trans ?_, State.sendSeal_link _ _ k hx⟩
      exact congrArg Host.Outcome.next (if_pos hrun)
    · refine ⟨(s.modLink l.val Link.switchTx).setLink l.val (x.drive idleFlit),
        (exec_flitSend_of_no_class now hnext hdue howed hctl hecho hreplay hkey hclass).trans ?_, ?_⟩
      · exact congrArg Host.Outcome.next (if_neg (not_not_intro hrun))
      · rw [State.setLink_link_same]
        exact ⟨rfl, rfl, s.switched_setLink_changes _ _⟩
  · intro x sl hnext hkey hdue
    exact ⟨_, exec_sealPeriodic_of_due hnext hkey hdue, State.sendSeal_link _ _ k (State.switchTx_link hnext)⟩
  · refine ⟨_, exec_sealReceive_of_unverified h hverify, ?_, State.raiseWith_stat_self (show 50 < 64 by decide)⟩
    rw [State.raise_link, State.setLink_link_same]
  · refine ⟨_, exec_sealReceive_of_verified h hverify hnak, ?_⟩
    have hstate := s.released_rxState l.val flit k ctr how (s.link l.val).rxRun
    simp only [Link.rxState, Prod.mk.injEq] at hstate
    obtain ⟨hrun, hseq, hkey, hctr⟩ := hstate
    refine ⟨hrun, hseq, hkey, hctr, fun f m rest hone hpart hin hfirst hdst hparse => ?_⟩
    rw [hone]
    exact State.released_of_one flit how hpart hin hfirst hdst hparse

end Sys2Proof.Machine

/-! # Proofs: window verbs and the map digest (R256, R257, R288) -/
namespace Sys2Proof.Machine

section
variable {s : State} {o : Origin} {v : VerbProg}

/-! ## Windows (R288) -/

/-- One window of the translation replaced. -/
def State.putWin (s : State) (w : Nat) (x : Window) : State := s.modXlate fun y => { y with wins := y.wins.set {} w x }

theorem State.putWin_wins (s : State) (w : Nat) (x : Window) :
    (s.putWin w x).xlate.wins.get {} w = x ∧ ∀ n, n ≠ w → (s.putWin w x).xlate.wins.get {} n = s.xlate.wins.get {} n :=
  ⟨Store.get_set_same _ _ _ _, fun _ hn => Store.get_set_other _ _ _ hn⟩

/-- One window of the translation is not set. -/
def State.eraseWin (s : State) (w : Nat) : State := s.modXlate fun y => { y with wins := y.wins.erase w }

theorem exec_winSet_of_free (h : Turn s o 0x0402 v) (haddr : s.tableAddrOk (par v.req 24 8) (2 ^ 15) = true)
    (hfree : (s.xlate.wins.get {} (par v.req 16 1)).isSet = false) :
    exec (.winSet o) s = .next ((s.putWin (par v.req 16 1)
      ⟨true, par v.req 24 8, BitVec.ofNat 64 (par v.req 32 8), false⟩).finish v kOK 0 []) := by
  refine next_runVerb_of_turn h ?_
  simp only [haddr, hfree, Bool.not_true, Bool.false_eq_true, if_false]
  exact State.verbDone_of_verb (s := s.putWin _ _) h.verb_eq _ _ _

theorem exec_winSet_of_set (h : Turn s o 0x0402 v) (haddr : s.tableAddrOk (par v.req 24 8) (2 ^ 15) = true)
    (hset : (s.xlate.wins.get {} (par v.req 16 1)).isSet = true) : exec (.winSet o) s = .next (s.finish v kBusy 16 []) := by
  refine next_runVerb_of_turn h ?_
  simp only [haddr, hset, Bool.not_true, Bool.false_eq_true, if_false, if_true]
  exact h.verbDone_eq _ _ _

theorem exec_winClear_of_set (h : Turn s o 0x0403 v) (hset : (s.xlate.wins.get {} (par v.req 16 1)).isSet = true)
    (hclear : (s.xlate.wins.get {} (par v.req 16 1)).clearing = false) :
    exec (.winClear o) s = .next ((((s.putWin (par v.req 16 1)
      { s.xlate.wins.get {} (par v.req 16 1) with clearing := true }).discardWalks
        fun k => k.root == .window (BitVec.ofNat 8 (par v.req 16 1))).dropLeaves
          fun l => l.root == .window (BitVec.ofNat 8 (par v.req 16 1))).verbDrains o) := by
  refine next_runVerb_of_turn h ?_
  simp only [hset, hclear, Bool.not_true, Bool.or_self, Bool.false_eq_true, if_false]
  rfl

theorem exec_winClear_of_free (h : Turn s o 0x0403 v) (hfree : (s.xlate.wins.get {} (par v.req 16 1)).isSet = false) :
    exec (.winClear o) s = .next (s.finish v kNoObject 16 []) := by
  refine next_runVerb_of_turn h ?_
  simp only [hfree, Bool.not_false, Bool.true_or, if_true]
  exact h.verbDone_eq _ _ _

theorem exec_winClearDrainEnd_of_drained (h : Waits s o 0x0403 v) (hdrained : s.winDrained (par v.req 16 1) = true) :
    exec (.winClearDrainEnd o) s =
      .next ((s.eraseWin (par v.req 16 1)).finish v kOK 0 []) := by
  refine next_runDrained_of_waits h ?_
  simp only [hdrained, if_true]
  exact State.verbDone_of_verb (s := s.eraseWin _) h.verb_eq _ _ _

theorem exec_winClearDrainEnd_of_waiting (h : Waits s o 0x0403 v) (hwaits : s.winDrained (par v.req 16 1) = false) :
    exec (.winClearDrainEnd o) s = .next s := by
  refine next_runDrained_of_waits h ?_
  simp only [hwaits, Bool.false_eq_true, if_false]

/-- Completing a verb leaves the translation. -/
theorem State.finish_xlate (s : State) (v : VerbProg) (st d : Nat) (res : Bytes) : (s.finish v st d res).xlate = s.xlate :=
  s.finish_changes v st d res .xlate (by decide)

/-! ## The mapping digest (R256, R257) -/

/-- The tenant that map.digest names. -/
def VerbProg.digestTenant (v : VerbProg) : Tenant := BitVec.ofNat 12 (par v.req 16 2)

/-- The word at an address, of the bytes that the verb has read. -/
def VerbProg.word (v : VerbProg) (a : Nat) : Nat := leNat ((List.range 8).map fun i => v.got.get 0 (a + i))

/-- Whether the verb has read a table. -/
def VerbProg.inHand (v : VerbProg) (x : Nat × Nat × Nat) : Bool := (v.bytes x.2.2 (tableBytes x.1)).isSome

/-- The tables of a tenant's tree, `n` levels below its root. -/
def State.digestTables (s : State) (v : VerbProg) (root : Nat) : Nat → List (Nat × Nat × Nat)
  | 0 => [(1, 0, root)]
  | n + 1 => (s.digestTables v root n).flatMap (s.subTables v.digestTenant v.word)

/-- The state in which the format errors of all three levels are recorded. -/
def State.digestFaults (s : State) (o : Origin) (v : VerbProg) (root : Nat) : State :=
  ((s.digestLevel o v v.digestTenant v.word 1 (s.digestTables v root 0)).digestLevel o v v.digestTenant v.word 2
    (s.digestTables v root 1)).digestLevel o v v.digestTenant v.word 3 (s.digestTables v root 2)

/-- The mapping digest of a tenant's tree. -/
def State.mapDigest (s : State) (v : VerbProg) (root : Nat) : Bytes :=
  sha384 ((s.digestItems v.digestTenant root v.word).flatMap digestRecord)

section
variable (h : Turn s o 0x0401 v)
include h

theorem exec_mapDigest_of_closed (hroot : s.xlate.roots.get none v.digestTenant.toNat = none) :
    exec (.mapDigest o) s = .next (s.finish v kNoObject 16 []) := by
  refine next_runVerb_of_turn h ?_
  extract_lets t rd inHand ask
  rw [show s.xlate.roots.get none t.toNat = none from hroot]
  exact h.verbDone_eq _ _ _

variable {root : Nat} (hroot : s.xlate.roots.get none v.digestTenant.toNat = some root)
include hroot

theorem exec_mapDigest_of_cancelled (hcancel : s.cancelled o = true) :
    exec (.mapDigest o) s = .next (s.finish v kCancelled 0 (zeros 48)) := by
  refine next_runVerb_of_turn h ?_
  extract_lets t rd inHand ask
  rw [show s.xlate.roots.get none t.toNat = some root from hroot]
  simp only [hcancel, if_true]
  exact h.verbDone_eq _ _ _

variable (hcancel : s.cancelled o = false)
include hcancel

theorem exec_mapDigest_of_failed_unit (hunit : s.unitFailed 6 = true) :
    exec (.mapDigest o) s = .next (s.finish v kTestFailed 6 []) := by
  refine next_runVerb_of_turn h ?_
  extract_lets t rd inHand ask
  rw [show s.xlate.roots.get none t.toNat = some root from hroot]
  simp only [hcancel, hunit, Bool.false_eq_true, if_false, if_true]
  exact h.verbDone_eq _ _ _

/-- With every table in hand the verb completes with the digest. -/
theorem exec_mapDigest_of_inHand (hunit : s.unitFailed 6 = false) (hread : v.readFail = false)
    (htables : ∀ n < 3, (s.digestTables v root n).all v.inHand = true) :
    exec (.mapDigest o) s = .next ((s.digestFaults o v root).verbDone o
      (if slice v.req 18 48 = s.mapDigest v root ∨ slice v.req 18 48 = zeros 48 then kOK else kMirror) 0 (s.mapDigest v root)) := by
  refine next_runVerb_of_turn h ?_
  extract_lets t rd inHand ask want
  rw [show s.xlate.roots.get none t.toNat = some root from hroot]
  change (if s.cancelled o = true then _ else if s.unitFailed 6 = true then _ else if v.readFail = true then _ else _) = _
  extract_lets l1 s1 l2 s2 l3 s3 d
  have h1 : ¬ (!l1.all inHand) = true := by rw [show l1.all inHand = true from htables 0 (by decide)]; decide
  have h2 : ¬ (!l2.all inHand) = true := by rw [show l2.all inHand = true from htables 1 (by decide)]; decide
  have h3 : ¬ (!l3.all inHand) = true := by rw [show l3.all inHand = true from htables 2 (by decide)]; decide
  rw [hcancel, hunit, hread, if_neg Bool.false_ne_true, if_neg Bool.false_ne_true, if_neg Bool.false_ne_true, if_neg h1, if_neg h2,
    if_neg h3]
  simp only [Bool.or_eq_true, decide_eq_true_eq]
  rfl

end

end

/-- Settles O14: a window is set, refuses and drains, and the digest of a tree in hand is answered. -/
theorem windowVerbsAndMapDigest : Obligations.WindowVerbsAndMapDigest := by
  refine ⟨fun o v s => ⟨fun h haddr hfree => ⟨_, exec_winSet_of_free h haddr hfree, ?_⟩, exec_winSet_of_set,
    fun h hset hclear => ⟨_, exec_winClear_of_set h hset hclear, ?_⟩, exec_winClear_of_free,
    fun h hdrained => ⟨_, exec_winClearDrainEnd_of_drained h hdrained, ?_⟩, exec_winClearDrainEnd_of_waiting⟩,
    fun o v root s h => ⟨exec_mapDigest_of_closed h, exec_mapDigest_of_cancelled h, exec_mapDigest_of_failed_unit h,
      fun hroot hcancel hunit hread h1 h2 h3 => exec_mapDigest_of_inHand h hroot hcancel hunit hread fun n hn => ?_⟩⟩
  · rw [State.finish_xlate]
    have hwins := s.putWin_wins (par v.req 16 1) ⟨true, par v.req 24 8, BitVec.ofNat 64 (par v.req 32 8), false⟩
    exact ⟨hwins.1, hwins.2, rfl, State.finish_verb (State.origin_of_verb h.verb_eq) _ _ _ _⟩
  · have hwins := s.putWin_wins (par v.req 16 1) { s.xlate.wins.get {} (par v.req 16 1) with clearing := true }
    refine ⟨congrArg Window.clearing hwins.1, hwins.2, rfl, ?_⟩
    refine .step (.step (.step (.put_xlate _ (.refl _ s) (by decide)) (State.discardWalks_changes _ _) (by decide))
      (State.dropLeaves_changes _ _) (by decide)) (State.verbDrains_changes _ _) (by decide)
  · rw [State.finish_xlate]
    exact ⟨Store.get_erase_same _ _ _, fun n hn => Store.get_erase_other _ _ hn,
      State.finish_verb (State.origin_of_verb h.verb_eq) _ _ _ _⟩
  · match n, hn with
    | 0, _ => exact h1
    | 1, _ => exact h2
    | 2, _ => exact h3

end Sys2Proof.Machine

/-! # Proofs: record, link and rekey verbs (R269, R275, R358, R367, R412, R414, R421) -/
namespace Sys2Proof.Machine

section
variable {s : State} {o : Origin} {v : VerbProg}

/-! ## Verbs of the recorder and of snapshots (R412, R414, R421) -/

/-- What a verb's change of others' parts leaves of the verb. -/
theorem State.verb_of_changes {ps : List Part} {t : State} (h : OnlyChanges ps s t) (hp : .keeper ∉ ps) : t.verb o = s.verb o := by
  rw [State.verb, State.verb, h .keeper hp]

/-- A verb that waits is the one that was in progress. -/
theorem State.verbDrains_verb {s : State} {o : Origin} {v : VerbProg} (h : s.verb o = some v) :
    (s.verbDrains o).verb o = some { v with stage := .draining } := State.modVerb_verb h fun _ => rfl

theorem State.snapTrigger_of_ready (hbusy : s.snap.busy = false) (hen : s.snap.en = true) (hawake : s.power.asleep = false) (n : Nat) :
    s.snapTrigger n = { s with snap := { s.snap with
      trig := some (BitVec.ofNat 8 (s.snap.trig.elim n fun k => min k.toNat n)) } } := by
  unfold State.snapTrigger
  extract_lets x c
  have hc : c = s.snap.trig.elim n fun k => min k.toNat n := by unfold c; cases s.snap.trig <;> rfl
  rw [if_neg (by rw [hen]; decide), if_neg (by rw [hbusy, hawake]; decide), hc]

theorem exec_snapTake_of_busy (h : Turn s o 0x0900 v) (hbusy : s.snap.busy = true) :
    exec (.snapTake o) s = .next (s.finish v kBusy 0 []) := by
  refine next_runVerb_of_turn h ?_
  simp only [hbusy, if_true]
  exact h.verbDone_eq _ _ _

theorem exec_snapTake_of_off (h : Turn s o 0x0900 v) (hbusy : s.snap.busy = false) (hen : s.snap.en = false) :
    exec (.snapTake o) s = .next (s.finish v kNoResource 0 []) := by
  refine next_runVerb_of_turn h ?_
  simp only [hbusy, hen, Bool.not_false, Bool.false_eq_true, if_false, if_true]
  exact h.verbDone_eq _ _ _

theorem exec_snapTake_of_ready (h : Turn s o 0x0900 v) (hbusy : s.snap.busy = false) (hen : s.snap.en = true) :
    exec (.snapTake o) s = .next ((s.snapTrigger 1).verbDrains o) := by
  refine next_runVerb_of_turn h ?_
  simp only [hbusy, hen, Bool.not_true, Bool.false_eq_true, if_false]

theorem results_double (b : Bytes) : results [(8, b)] = b := by simp [results, packResults, alignUp, zeros]

theorem exec_logAnchor_of_turn (h : Turn s o 0x0901 v) : exec (.logAnchor o) s =
    .next ((({ s with recd := { s.recd with anchorC := BitVec.ofNat 64 (par v.req 16 8), anchorP := s.ptime, anch := true } } :
      State).event (evInfo 0x0E 0 (leBytes 8 (par v.req 16 8) ++ leBytes 8 s.ptime.toNat))).finish v kOK 0
        (leBytes 8 s.ptime.toNat)) := by
  refine next_runVerb_of_turn h ?_
  extract_lets c p u
  rw [results_double]
  exact State.verbDone_of_verb ((State.verb_of_changes (u.event_changes _) (by decide)).trans h.verb_eq) _ _ _

/-- The verb of a flush waits for the records accepted so far. -/
def State.flushAsked (s : State) (o : Origin) : State :=
  s.modVerb o fun v => { v with stage := .draining, acc := s.recd.flushed.toNat * 2 ^ 48 + s.recd.head.toNat }

theorem State.flushAsked_verb (h : s.verb o = some v) : (s.flushAsked o).verb o =
    some { v with stage := .draining, acc := s.recd.flushed.toNat * 2 ^ 48 + s.recd.head.toNat } := State.modVerb_verb h fun _ => rfl

theorem exec_logFlush_of_flash (h : Turn s o 0x0902 v) (hflash : s.recd.noFlash = false) :
    exec (.logFlush o) s = .next (s.flushAsked o).askFlush := by
  refine next_runVerb_of_turn h ?_
  extract_lets u
  rw [show u.recd.noFlash = false from hflash, if_neg (by decide)]
  rfl

theorem exec_logFlush_of_no_flash (h : Turn s o 0x0902 v) (hflash : s.recd.noFlash = true) :
    exec (.logFlush o) s = .next (s.flushAsked o).flushVerbs := by
  refine next_runVerb_of_turn h ?_
  extract_lets u
  rw [show u.recd.noFlash = true from hflash, if_pos (by decide)]
  rfl

/-- Once one of the verbs that end is from an origin, no verb from it is in progress. -/
theorem State.foldl_finish_verb {f : VerbProg → Bytes} {st d : Nat} {ws : List VerbProg} {s : State}
    (h : s.verb o = none ∨ ∃ w ∈ ws, w.origin = o) : (ws.foldl (fun t v => t.finish v st d (f v)) s).verb o = none := by
  induction ws generalizing s with
  | nil => simpa using h
  | cons w r ih =>
    refine ih ?_
    rcases h with h | ⟨x, hx, ho⟩
    · refine .inl ?_
      simp only [State.verb, List.find?_eq_none, decide_eq_true_eq, State.finish_verbs, List.mem_filter] at h ⊢
      exact fun y hy => h y hy.1
    · rcases List.mem_cons.mp hx with rfl | hr
      · exact .inl (State.finish_verb ho _ _ _ _)
      · exact .inr ⟨x, hr, ho⟩

theorem Turn.code_eq {code : Nat} (h : Turn s o code v) : reqVerb v.req = code := by
  simp only [Turn, State.verbAt] at h
  split at h
  · split at h
    next hc =>
      cases h
      simp only [Bool.and_eq_true, decide_eq_true_eq, and_assoc] at hc
      exact hc.1
    next => cases h
  · cases h

theorem State.flushVerbs_verb (h : s.verb o = some v) (hcode : reqVerb v.req = 0x0902) (hstage : v.stage = .draining)
    (hflash : s.recd.noFlash = true) : s.flushVerbs.verb o = none := by
  refine State.foldl_finish_verb (.inr ⟨v, ?_, State.origin_of_verb h⟩)
  rw [List.mem_filter]
  exact ⟨List.mem_of_find?_eq_some h, by rw [hcode, hstage, hflash]; rfl⟩

theorem exec_linkInfo_of_turn (h : Turn s o 0x0A00 v) : exec (.linkInfo o) s =
    .next (s.finish v kOK 0 (leBytes 1 (s.link (par v.req 16 1)).partner.toNat ++ leBytes 1 (b2n (s.link (par v.req 16 1)).rate) ++
      slice (s.link (par v.req 16 1)).peerRec 20 2 ++ leBytes 4 (s.link (par v.req 16 1)).rttNs)) := by
  refine next_runVerb_of_turn h ?_
  extract_lets x
  rw [h.verbDone_eq]
  congr 1
  simp [results, packResults, alignUp, zeros, x]

end

/-! ## A rekey that a verb starts (R269, R358, R367) -/

section
variable {s : State} {o : Origin} {v : VerbProg}

theorem exec_linkRekey_of_failed_sha (h : Turn s o 0x0A02 v) (h6 : s.unitFailed 6 = true) :
    exec (.linkRekey o) s = .next (s.finish v kTestFailed 6 []) := by
  refine next_runVerb_of_turn h ?_
  simp only [h6, if_true]
  exact h.verbDone_eq _ _ _

section
variable (h : Turn s o 0x0A02 v) (h6 : s.unitFailed 6 = false)
include h h6

theorem exec_linkRekey_of_failed_drbg (h7 : s.unitFailed 7 = true) : exec (.linkRekey o) s = .next (s.finish v kTestFailed 7 []) := by
  refine next_runVerb_of_turn h ?_
  simp only [h6, h7, Bool.false_eq_true, if_false, if_true]
  exact h.verbDone_eq _ _ _

variable (h7 : s.unitFailed 7 = false)
include h7

theorem exec_linkRekey_of_link_not_up (hstate : (s.link (par v.req 16 1)).state ≠ .service) :
    exec (.linkRekey o) s = .next (s.finish v kNotReady (par v.req 16 1) []) := by
  refine next_runVerb_of_turn h ?_
  simp only [h6, h7, bne_iff_ne.mpr hstate, Bool.false_eq_true, if_false, if_true]
  exact h.verbDone_eq _ _ _

theorem exec_linkRekey_of_link_up (hstate : (s.link (par v.req 16 1)).state = .service) (hp6 : s.unitPassed 6 = true)
    (hp7 : s.unitPassed 7 = true) (hnone : (s.link (par v.req 16 1)).rekey = none) :
    exec (.linkRekey o) s = .next (if s.reseed.unitFailed 7 then s.reseed.verbDone o kTestFailed 7
      else (s.reseed.startRekey (par v.req 16 1) (some o)).verbDrains o) := by
  refine next_runVerb_of_turn h ?_
  simp only [h6, h7, hstate, hp6, hp7, hnone, bne_self_eq_false, Bool.not_true, Option.isSome_none, Bool.or_self, Bool.false_eq_true,
    if_false]

end

/-- A reseeding whose health test fails marks unit 7 failed. -/
theorem State.reseed_of_failed (h : s.entropy.1.2 = false) : s.reseed.unitFailed 7 = true ∧ s.reseed.verb o = s.verb o := by
  unfold State.reseed
  extract_lets p
  rw [if_neg (by rw [show p.1.2 = false from h]; decide)]
  unfold State.healthFailed
  extract_lets u
  constructor
  · rw [State.unitFailed, State.zeroiseKeeper_changes _ .sec (by decide), State.raise_sec]
    exact (getLsbD_setBit _ (by decide)).mpr (.inr rfl)
  · rw [State.verb, State.zeroiseKeeper_keeper, State.raise_keeper]
    rfl

/-- With the health tests passed, reseeding and drawing a key leave the links and the verbs. -/
structure State.DrewKey (s t : State) : Prop where
  fabric : t.fabric = s.fabric
  verbs : t.keeper.verbs = s.keeper.verbs

theorem State.reseed_of_healthy (h : s.entropy.1.2 = true) : s.reseed = s.entropy.2.modKeeper fun k =>
    { k with drbg := k.drbg.map (·.reseed s.entropy.1.1), drbgCalls := 0 } := by
  unfold State.reseed
  extract_lets p
  rw [if_pos (show p.1.2 = true from h)]

theorem State.reseed_drewKey (h : s.entropy.1.2 = true) : s.DrewKey s.reseed := by
  have hfabric : s.entropy.2.fabric = s.fabric := s.entropy_changes .fabric (by decide)
  have hkeeper : s.entropy.2.keeper = s.keeper := s.entropy_changes .keeper (by decide)
  rw [State.reseed_of_healthy h]
  constructor
  · rw [State.modKeeper_fabric, hfabric]
  · rw [State.modKeeper_keeper, hkeeper]

theorem State.reseed_unitFailed (h : s.entropy.1.2 = true) (u : Nat) : s.reseed.unitFailed u = s.unitFailed u := by
  have hsec : s.entropy.2.sec = s.sec := s.entropy_changes .sec (by decide)
  rw [State.unitFailed, State.reseed_of_healthy h, State.modKeeper_sec, hsec, State.unitFailed]

/-- A number drawn before 2^16 calls needs no reseeding. -/
theorem State.generate_drewKey (h : s.keeper.drbgCalls + 1 < 65536) : s.DrewKey s.generate.2 := by
  unfold State.generate
  extract_lets g u
  have hu : ¬ 65536 ≤ u.keeper.drbgCalls := Nat.not_le.mpr h
  rw [if_neg hu]
  exact ⟨rfl, rfl⟩

theorem State.ephemeral_snd (s : State) : s.ephemeral.2 = s.generate.2 := rfl

theorem State.ephemeral_drewKey (h : s.entropy.1.2 = true) : s.reseed.DrewKey s.reseed.ephemeral.2 := by
  rw [State.ephemeral_snd]
  refine State.generate_drewKey (s := s.reseed) ?_
  rw [State.reseed_of_healthy h, State.modKeeper_keeper]
  simp only [Nat.zero_add]
  decide

theorem State.startRekey_link {l : Nat} {t : State} (h : s.DrewKey s.ephemeral.2) (ht : t = s.startRekey l (some o)) :
    (∃ priv, (t.link l).rekey = some ⟨some o, priv, false, none, false⟩) ∧
      (∃ m : Msg, m.op = opRekey ∧ (t.link l).txq = (s.link l).txq.set [] 0 ((s.link l).txq.get [] 0 ++ [m])) ∧
      (t.link l).txKey = (s.link l).txKey ∧ (t.link l).rxKey = (s.link l).rxKey ∧ (t.link l).state = (s.link l).state ∧
      (∀ k, k ≠ l → t.link k = s.link k) ∧ t.keeper.verbs = s.keeper.verbs := by
  subst ht
  have hlink (k : Nat) : s.ephemeral.2.link k = s.link k := by rw [State.link, State.link, h.fabric]
  unfold State.startRekey
  extract_lets p m
  rw [State.modLink_link_same, show p.2.link l = s.link l from hlink l]
  exact ⟨⟨_, rfl⟩, ⟨m, rfl, rfl⟩, rfl, rfl, rfl, fun k hk => (p.2.modLink_link_other _ hk).trans (hlink k), h.verbs⟩

end

/-- A link whose rekey found no answer falls, and the verb that asked for it ends. -/
theorem exec_rekeyTimeout_of_waiting {l : Fin 18} {o : Origin} {priv : Nat} {ts : Option (BitVec 12)} {rd : Bool} {s : State}
    (hrekey : (s.link l.val).rekey = some ⟨some o, priv, false, ts, rd⟩) (hup : (s.link l.val).state ∉ [LinkState.down, .training]) :
    ∃ t b, exec (.rekeyTimeout l) s = .next t ∧ (t.link l.val).core = { out := b } ∧
      ∀ v, s.verb o = some v → reqVerb v.req = 0x0A02 → v.stage = .draining → t.verb o = none := by
  have hexec : exec (.rekeyTimeout l) s = .next (s.linkDown l.val none) := by
    show execRekeyTimeout l s = _
    rw [execRekeyTimeout, hrekey]
  have hlive : ¬ ((s.link l.val).state == .down || (s.link l.val).state == .training) = true := by simpa using hup
  refine ⟨_, (s.link l.val).out, hexec, ?_⟩
  unfold State.linkDown
  extract_lets x p
  rw [if_neg hlive]
  obtain ⟨u, hcore, -, hkeeper, hu⟩ := p.2.linkLost_eq l.val x p.1
  have hverb : u.verb o = s.verb o := by
    rw [State.verb, State.verb, hkeeper, s.lossCause_changes none .keeper (by decide)]
  rw [hu, show x.rekey = some ⟨some o, priv, false, ts, rd⟩ from hrekey, Option.bind_some, Option.elim_some]
  exact ⟨(u.verbEnd_keepsCore _ _ _ _ _ l.val).trans hcore,
    fun v hv hcode hstage => State.verbEnd_verb (hverb.trans hv) hcode hstage _ _ _⟩

/-- Settles O27: the verbs of the recorder, of a link and of its rekey answer, wait or end as their rules give. -/
theorem recordLinkAndRekeyVerbs : Obligations.RecordLinkAndRekeyVerbs := by
  refine ⟨⟨fun o v s h => ⟨exec_snapTake_of_busy h, exec_snapTake_of_off h,
      fun hbusy hen hawake => ⟨_, exec_snapTake_of_ready h hbusy hen, ?_⟩⟩,
    fun o v s => exec_logAnchor_of_turn,
    fun o v s h => ⟨fun hflash => ⟨_, exec_logFlush_of_flash h hflash, ?_⟩,
      fun hflash => ⟨_, exec_logFlush_of_no_flash h hflash, ?_⟩⟩,
    fun o v s => exec_linkInfo_of_turn⟩,
    fun o v s h => ⟨exec_linkRekey_of_failed_sha h, exec_linkRekey_of_failed_drbg h, exec_linkRekey_of_link_not_up h,
      fun h6 h7 hstate hp6 hp7 hnone => ⟨_, exec_linkRekey_of_link_up h h6 h7 hstate hp6 hp7 hnone, fun hbad => ?_, fun hgood => ?_⟩⟩,
    fun l o priv ts rd v s hrekey hup => ?_⟩
  · have hready := State.snapTrigger_of_ready hbusy hen hawake 1
    have hchanges : OnlyChanges [.snap] s (s.snapTrigger 1) := s.snapTrigger_changes 1
    refine ⟨?_, State.verbDrains_verb ((State.verb_of_changes hchanges (by decide)).trans h.verb_eq),
      .step (.step (.refl _ s) hchanges (by decide)) (State.verbDrains_changes _ _) (by decide)⟩
    rw [State.verbDrains_changes _ _ .snap (by decide), hready]
    cases s.snap.trig <;> rfl
  · refine ⟨rfl, .step (.step (.refl _ s) (s.modVerb_changes _ _) (by decide)) (State.askFlush_changes _) (by decide), ?_⟩
    exact (State.verb_of_changes (State.askFlush_changes _) (by decide)).trans (State.flushAsked_verb h.verb_eq)
  · exact State.flushVerbs_verb (State.flushAsked_verb h.verb_eq) h.code_eq rfl hflash
  · obtain ⟨hfailed, hverb⟩ := State.reseed_of_failed (o := o) hbad
    rw [if_pos hfailed]
    exact State.verbDone_of_verb (hverb.trans h.verb_eq) _ _ _
  · rw [if_neg (by rw [State.reseed_unitFailed hgood, h7]; decide)]
    have hdrew := State.reseed_drewKey hgood
    obtain ⟨hrekey, htxq, htx, hrx, hst, hother, hverbs⟩ := State.startRekey_link (l := par v.req 16 1) (o := o)
      (State.ephemeral_drewKey hgood) rfl
    have hdrains k : ((s.reseed.startRekey (par v.req 16 1) (some o)).verbDrains o).link k =
        (s.reseed.startRekey (par v.req 16 1) (some o)).link k := (State.verbDrains_changes _ _).link_eq (by decide) k
    have hlink k : s.reseed.link k = s.link k := by rw [State.link, State.link, hdrew.fabric]
    simp only [hdrains]
    simp only [hlink] at htxq htx hrx hst hother
    refine ⟨hrekey, htxq, htx, hrx, hst.trans hstate, hother, State.verbDrains_verb ?_⟩
    rw [← h.verb_eq, State.verb, State.verb, hverbs, hdrew.verbs]
  · obtain ⟨t, b, hexec, hcore, hverb⟩ := exec_rekeyTimeout_of_waiting hrekey hup
    exact ⟨t, hexec, congrArg (·.state) hcore, congrArg (·.txKey) hcore, congrArg (·.rxKey) hcore, congrArg (·.rekey) hcore, hverb v⟩

end Sys2Proof.Machine

/-! # Proofs: the tally unit configured and timed (R322, R332, R340, R341, R347, R459, R468, R470)

Owners, credit counters and barriers as the control port writes them, then the deadlock detector and lending. -/
namespace Sys2Proof.Machine

/-! ## Bit fields under masks -/

/-- A field survives a mask that has all its bits. -/
theorem bits_and_of_ones {w m : Word} {hi lo : Nat} (hm : bits m.toNat hi lo = 2 ^ (hi + 1 - lo) - 1) :
    bits (w &&& m).toNat hi lo = bits w.toNat hi lo := by
  rw [bits] at hm
  rw [bits, BitVec.toNat_and, Nat.shiftRight_and_distrib, Nat.and_mod_two_pow, hm, Nat.and_two_pow_sub_one_eq_mod, Nat.mod_mod, bits]

/-- A field is untouched by bits set outside it. -/
theorem bits_or_of_zero {w m : Word} {hi lo : Nat} (hm : bits m.toNat hi lo = 0) :
    bits (w ||| m).toNat hi lo = bits w.toNat hi lo := by
  rw [bits] at hm
  rw [bits, BitVec.toNat_or, Nat.shiftRight_or_distrib, Nat.or_mod_two_pow, hm, Nat.or_zero, bits]

/-- A value of 16 bits fits a credit counter's 17 (R332). -/
theorem toNat_creditInit (w : Word) : ((BitVec.ofNat 16 (bits w.toNat 31 16)).setWidth 17).toNat = bits w.toNat 31 16 := by
  have h : bits w.toNat 31 16 < 2 ^ 16 := Nat.mod_lt _ (by decide)
  rw [BitVec.toNat_setWidth, BitVec.toNat_ofNat]
  omega

/-! ## Owners and credit counters (R322, R332, R470) -/

section
variable {s : State}

theorem exec_tallyOwnWrite_of_awake (hawake : s.cpAwake = true) (g : Fin 1024) (w : BitVec 32) :
    exec (.tallyOwnWrite g w) s = .next (s.ownWrite g.val w) := by
  change execTallyOwnWrite g w s = _
  rw [execTallyOwnWrite, if_pos hawake]

theorem exec_credCfgWrite_of_awake (hawake : s.cpAwake = true) (c : Fin 1024) (w : Word) :
    exec (.credCfgWrite c w) s = .next (s.credWrite c.val w) := by
  change execCredCfgWrite c w s = _
  rw [execCredCfgWrite, if_pos hawake]

/-- Presenting the lending counts changes nothing else of the tally unit (R459). -/
theorem State.lendPresent_tally (s : State) (a b : Nat) : ∃ nch nco upd, (s.lendPresent a b).tally =
    { s.tally with lendChan := nch, lendCore := nco, lendUpd := upd } := by
  unfold State.lendPresent
  split <;> exact ⟨_, _, _, rfl⟩

/-- Lowering them changes also which cores are counted (R340). -/
theorem State.lendLower_tally (s : State) : ∃ cores nch nco upd, s.lendLower.tally =
    { s.tally with lentCores := cores, lendChan := nch, lendCore := nco, lendUpd := upd } := by
  unfold State.lendLower
  extract_lets gone goneC s₁ s₂
  have h₁ : s₁.tally = s.tally :=
    OnlyChanges.foldl _ (fun t ch => State.setChan_changes t ch _) gone s (.refl [.chans] s) .tally (by decide)
  have h₂ : s₂.tally = { s.tally with lentCores := s₂.tally.lentCores } := by rw [← h₁]; rfl
  obtain ⟨nch, nco, upd, h⟩ := s₂.lendPresent_tally (min s₂.tally.lendChan.toNat s₂.lentChans.length)
    (min s₂.tally.lendCore.toNat s₂.tally.lentCores.length)
  exact ⟨_, _, _, _, h.trans (congrArg (fun u : TallyUnit => { u with lendChan := nch, lendCore := nco, lendUpd := upd }) h₂)⟩

theorem State.movedIf_tally (s : State) (b : Bool) : ∃ q, (s.movedIf b).tally = { s.tally with dlQuiet := q } := by
  unfold State.movedIf
  split <;> exact ⟨_, rfl⟩

/-- Counter `c` with a new configuration, its value the initial one (R332). -/
def State.credWritten (s : State) (c : Nat) (cfg : CredCfg) : State :=
  s.taken.modTally fun t => { t with
    credCfg := t.credCfg.set {} c cfg
    credVal := t.credVal.set {} c { s.tally.credVal.get {} c with value := cfg.init.setWidth 17 } }

/-- A write of CRED_CFG that takes effect: owner, initial value and the counter's value, which is the initial value. -/
theorem State.credWrite_takes {c : Nat} {w : Word} (h : bits w.toNat 31 16 = 0 ∨ s.tallyOn = true) :
    let cfg : CredCfg := { tenant := w.setWidth 12, init := BitVec.ofNat 16 (bits w.toNat 31 16) }
    let v := s.tally.credVal.get {} c
    (s.credWrite c w).tally.credCfg = s.tally.credCfg.set {} c cfg ∧
      (s.credWrite c w).tally.credVal = s.tally.credVal.set {} c { v with value := cfg.init.setWidth 17 } ∧
      (s.credWrite c w).tally.val = s.tally.val ∧ (s.credWrite c w).power = s.power := by
  intro cfg v
  unfold State.credWrite
  rw [if_neg (by rcases h with h | h <;> simp [h])]
  obtain ⟨q, hq⟩ := (s.credWritten c cfg).movedIf_tally (v.value != cfg.init.setWidth 17)
  obtain ⟨cores, nch, nco, upd, hl⟩ := ((s.credWritten c cfg).movedIf (v.value != cfg.init.setWidth 17)).lendLower_tally
  rw [hq] at hl
  refine ⟨congrArg (·.credCfg) hl, congrArg (·.credVal) hl, congrArg (·.val) hl, ?_⟩
  have hmoved : ((s.credWritten c cfg).movedIf (v.value != cfg.init.setWidth 17)).power = s.power :=
    State.movedIf_changes _ _ .power (by decide)
  exact Eq.trans (State.lendLower_changes _ .power (by decide)) hmoved

/-- With the unit off, a write of a non-zero CR_INIT only asks for the unit (R470). -/
theorem State.credWrite_of_off {c : Nat} {w : Word} (h : bits w.toNat 31 16 ≠ 0) (hoff : s.tallyOn = false) :
    s.credWrite c w = s.holdTally := by
  rw [State.credWrite, if_pos (by simp [h, hoff])]

@[simp] theorem State.clockUp_req (s : State) (i : Nat) : (s.clockUp i).power.req = s.power.req := by
  unfold State.clockUp
  split <;> rfl

theorem State.holdTally_req (hack : s.power.ack.getLsbD 61 = false) : s.holdTally.power.req.getLsbD 61 = true := by
  change ((s.powerUp 61).clockUp 16).power.req.getLsbD 61 = true
  rw [State.clockUp_req]
  exact State.powerUp_req (by decide) hack

theorem State.holdTally_credCfg : s.holdTally.tally.credCfg = s.tally.credCfg :=
  congrArg (·.credCfg) (s.wakeTally_changes .tally (by decide))

/-- A write of CRED_CFG that takes effect, as it is read back: the counter holds its initial value (R332). -/
theorem State.credWrite_reads {c : Nat} {w : Word} (h : bits w.toNat 31 16 = 0 ∨ s.tallyOn = true) :
    (s.credWrite c w).credCfg c = { tenant := w.setWidth 12, init := BitVec.ofNat 16 (bits w.toNat 31 16) } ∧
      ((s.credWrite c w).credVal c).value.toNat = bits w.toNat 31 16 ∧
      ∀ d, d ≠ c → (s.credWrite c w).credCfg d = s.credCfg d ∧ (s.credWrite c w).credVal d = s.credVal d := by
  obtain ⟨hcfg, hval, -, hpower⟩ := State.credWrite_takes (c := c) h
  have hon : (s.credWrite c w).tallyOn = s.tallyOn := by rw [State.tallyOn, State.domainOn, hpower]; rfl
  have hsame : (s.credWrite c w).credCfg c = { tenant := w.setWidth 12, init := BitVec.ofNat 16 (bits w.toNat 31 16) } := by
    rw [State.credCfg, hcfg, Store.get_set_same]
  have hother d (hd : d ≠ c) : (s.credWrite c w).credCfg d = s.credCfg d := by
    rw [State.credCfg, hcfg, Store.get_set_other _ _ _ hd]; rfl
  refine ⟨hsame, ?_, fun d hd => ⟨hother d hd, ?_⟩⟩
  · have hvalue : ((s.credWrite c w).credVal c).value = (BitVec.ofNat 16 (bits w.toNat 31 16)).setWidth 17 := by
      rw [State.credVal, hval, hsame, Store.get_set_same]
      split <;> rfl
    rw [hvalue, toNat_creditInit]
  · rw [State.credVal, State.credVal, hon, hother d hd, hval, Store.get_set_other _ _ _ hd]

/-! ## Barriers (R341, R468) -/

/-- Bit BA_EN alone. -/
def baEn : Word := 0x0080000000000000

/-- The bits of BAR_CFG0 that a write can set. -/
def barCfg0Mask : Word := 0xFFFFFFFF3FFF3FFF

section
variable {b : Nat} {w : Word}

theorem getLsbD_55_and_not_baEn (w : Word) : (w &&& ~~~baEn).getLsbD 55 = false := by
  rw [BitVec.getLsbD_and, show (~~~baEn).getLsbD 55 = false from rfl, Bool.and_false]

/-- BAR_CFG0's writable bits take in BA_ARRIVE and BA_RELEASE. -/
theorem bits_barCfg0_arrive (w : Word) : bits (w &&& barCfg0Mask).toNat 13 0 = bits w.toNat 13 0 := bits_and_of_ones rfl

theorem bits_barCfg0_release (w : Word) : bits (w &&& barCfg0Mask).toNat 29 16 = bits w.toNat 29 16 := bits_and_of_ones rfl

/-- A write that sets BA_EN of a disabled barrier: refused when a tally is not owned by BA_TENANT, where the other fields are
applied all the same; otherwise the episodes start at 0 from the tallies' values (R341). -/
theorem State.barCfg0Write_of_enable (hdis : (s.barrier b).enabled = false) (hw : w.getLsbD 55 = true) :
    let x := s.barrier b
    let arr := bits w.toNat 13 0
    let rel := bits w.toNat 29 16
    s.barCfg0Write b w = if s.tallyOwner arr = x.tenant ∧ s.tallyOwner rel = x.tenant
      then (s.setBarrier b { x with
        cfg0 := w &&& barCfg0Mask, reported := 0, released := 0, childRep := [], due := [],
        a0 := s.tally.val.get 0 arr, r0 := s.tally.val.get 0 rel }).settle
      else s.setBarrier b { x with cfg0 := w &&& barCfg0Mask &&& ~~~baEn, cfgErr := true } := by
  intro x arr rel
  have harr : bits (w &&& barCfg0Mask &&& ~~~baEn).toNat 13 0 = arr := (bits_and_of_ones rfl).trans (bits_barCfg0_arrive w)
  have hrel : bits (w &&& barCfg0Mask &&& ~~~baEn).toNat 29 16 = rel := (bits_and_of_ones rfl).trans (bits_barCfg0_release w)
  unfold State.barCfg0Write
  extract_lets en v z u
  have hv : v = w &&& barCfg0Mask := rfl
  have hbit : v.getLsbD 55 = true := by rw [hv, BitVec.getLsbD_and, hw]; rfl
  have hua : u.arrive = arr := harr
  have hur : u.release = rel := hrel
  rw [if_neg (by rw [hdis]; decide), if_neg (by rw [hbit]; decide), hua, hur]
  by_cases hown : s.tallyOwner arr = x.tenant ∧ s.tallyOwner rel = x.tenant
  · rw [if_pos hown, if_neg (by rw [show u.tenant = x.tenant from rfl]; simp [hown])]
    rfl
  · have hrefused := not_and_or.mp hown
    rw [if_neg hown, if_pos (by rw [show u.tenant = x.tenant from rfl]; simpa using hrefused)]
    rfl

/-- A write that clears BA_EN of an enabled barrier has no other effect than to set BS_CFG_ERR where it would change another
field (R341, R468). -/
theorem State.barCfg0Write_of_disable (hen : (s.barrier b).enabled = true) (hw : w.getLsbD 55 = false) :
    let x := s.barrier b
    s.barCfg0Write b w = s.setBarrier b { x with
      cfg0 := x.cfg0 &&& ~~~baEn, cfgErr := x.cfgErr || decide (w &&& barCfg0Mask ||| baEn ≠ x.cfg0 ||| baEn) } := by
  intro x
  unfold State.barCfg0Write
  extract_lets en v z u
  have hbit : v.getLsbD 55 = false := by rw [BitVec.getLsbD_and, hw]; rfl
  rw [if_pos hen, if_neg (by rw [hbit]; decide)]
  unfold z
  by_cases hsame : v ||| en ≠ x.cfg0 ||| en
  · rw [if_pos hsame, show decide (w &&& barCfg0Mask ||| baEn ≠ x.cfg0 ||| baEn) = true from decide_eq_true hsame, Bool.or_true]
    rfl
  · rw [if_neg hsame, show decide (w &&& barCfg0Mask ||| baEn ≠ x.cfg0 ||| baEn) = false from decide_eq_false hsame, Bool.or_false]
    rfl

end

section
variable {b : Fin 64} {w : Word}

theorem exec_barrierEnable_of_on (hawake : s.cpAwake = true) (hon : s.tallyOn = true) (hdis : (s.barrier b.val).enabled = false)
    (hw : w.getLsbD 55 = true) : exec (.barrierEnable b w) s = .next (s.taken.barCfg0Write b.val w) := by
  change execBarrierEnable b w s = _
  rw [execBarrierEnable, if_neg (by rw [hw, hdis, hawake]; decide), State.barWrite, if_neg (by simp [hon])]

/-- A write that disables a barrier needs no power. -/
theorem exec_barrierDisable_of_enabled (hawake : s.cpAwake = true) (hen : (s.barrier b.val).enabled = true)
    (hw : w.getLsbD 55 = false) : exec (.barrierDisable b w) s = .next (s.taken.barCfg0Write b.val w) := by
  change execBarrierDisable b w s = _
  rw [execBarrierDisable, if_neg (by rw [hw, hen, hawake]; decide), State.barWrite,
    if_neg (by simp only [hw, Bool.false_and]; decide)]

/-- An access that replaces one barrier leaves every other one. -/
theorem State.taken_setBarrier_other (s : State) {b d : Nat} (x : Barrier) (hd : d ≠ b) :
    (s.taken.setBarrier b x).barrier d = s.barrier d := (s.taken.setBarrier_barrier_other x hd).trans rfl

theorem State.taken_setBarrier_changes (s : State) (b : Nat) (x : Barrier) : OnlyChanges [.tally] s (s.taken.setBarrier b x) :=
  s.taken_changes.trans (s.taken.setBarrier_changes b x)

/-- An enabled barrier keeps what it recorded through the episodes that its enabling completes. -/
theorem State.settle_setBarrier (s : State) (b : Nat) (x : Barrier) :
    ∃ rep rel due, (s.setBarrier b x).settle.barrier b = { x with reported := rep, released := rel, due := due } := by
  obtain ⟨h, -⟩ := State.settle_ran (s.setBarrier b x) b
  rwa [State.setBarrier_barrier_same] at h

section
variable (hawake : s.cpAwake = true) (hon : s.tallyOn = true) (hdis : (s.barrier b.val).enabled = false) (hw : w.getLsbD 55 = true)
include hawake hon hdis hw

/-- An enabled barrier has its tallies and their values as bases (R341). -/
theorem exec_barrierEnable_of_owned (hown : s.tallyOwner (bits w.toNat 13 0) = (s.barrier b.val).tenant ∧
      s.tallyOwner (bits w.toNat 29 16) = (s.barrier b.val).tenant) :
    ∃ t, exec (.barrierEnable b w) s = .next t ∧ (t.barrier b.val).enabled = true ∧
      (t.barrier b.val).arrive = bits w.toNat 13 0 ∧ (t.barrier b.val).release = bits w.toNat 29 16 ∧
      (t.barrier b.val).a0 = s.tally.val.get 0 (bits w.toNat 13 0) ∧
      (t.barrier b.val).r0 = s.tally.val.get 0 (bits w.toNat 29 16) := by
  have hwrite := (State.barCfg0Write_of_enable (s := s.taken) hdis hw).trans (if_pos hown)
  refine ⟨_, exec_barrierEnable_of_on hawake hon hdis hw, ?_⟩
  rw [hwrite]
  obtain ⟨rep, rel, due, hb⟩ := State.settle_setBarrier s.taken b.val _
  rw [hb]
  refine ⟨?_, bits_barCfg0_arrive w, bits_barCfg0_release w, rfl, rfl⟩
  rw [Barrier.enabled, BitVec.getLsbD_and, hw]
  rfl

theorem exec_barrierEnable_of_not_owned (hown : ¬ (s.tallyOwner (bits w.toNat 13 0) = (s.barrier b.val).tenant ∧
      s.tallyOwner (bits w.toNat 29 16) = (s.barrier b.val).tenant)) :
    ∃ t, exec (.barrierEnable b w) s = .next t ∧ (t.barrier b.val).enabled = false ∧ (t.barrier b.val).cfgErr = true ∧
      (∀ d, d ≠ b.val → t.barrier d = s.barrier d) ∧ OnlyChanges [.tally] s t := by
  have hwrite := (State.barCfg0Write_of_enable (s := s.taken) hdis hw).trans (if_neg hown)
  refine ⟨_, exec_barrierEnable_of_on hawake hon hdis hw, ?_⟩
  rw [hwrite, State.setBarrier_barrier_same]
  exact ⟨getLsbD_55_and_not_baEn _, rfl, fun d hd => s.taken_setBarrier_other _ hd, s.taken_setBarrier_changes _ _⟩

end

/-- A disabled barrier keeps its other fields (R341, R468). -/
theorem exec_barrierDisable_keeps (hawake : s.cpAwake = true) (hen : (s.barrier b.val).enabled = true) (hw : w.getLsbD 55 = false) :
    ∃ t, exec (.barrierDisable b w) s = .next t ∧ (t.barrier b.val).enabled = false ∧
      (t.barrier b.val).arrive = (s.barrier b.val).arrive ∧ (t.barrier b.val).parent = (s.barrier b.val).parent ∧
      (bits w.toNat 13 0 ≠ (s.barrier b.val).arrive → (t.barrier b.val).cfgErr = true) ∧
      (∀ d, d ≠ b.val → t.barrier d = s.barrier d) ∧ OnlyChanges [.tally] s t := by
  have hwrite := State.barCfg0Write_of_disable (s := s.taken) hen hw
  refine ⟨_, exec_barrierDisable_of_enabled hawake hen hw, ?_⟩
  rw [hwrite, State.setBarrier_barrier_same]
  refine ⟨getLsbD_55_and_not_baEn _, bits_and_of_ones rfl, congrArg (BitVec.ofNat 6) (bits_and_of_ones rfl), fun hne => ?_,
    fun d hd => s.taken_setBarrier_other _ hd, s.taken_setBarrier_changes _ _⟩
  have hdiff : w &&& barCfg0Mask ||| baEn ≠ (s.barrier b.val).cfg0 ||| baEn := fun heq => hne <| calc
    bits w.toNat 13 0 = bits (w &&& barCfg0Mask ||| baEn).toNat 13 0 := ((bits_or_of_zero rfl).trans (bits_barCfg0_arrive w)).symm
    _ = (s.barrier b.val).arrive := by rw [heq]; exact bits_or_of_zero rfl
  exact Bool.or_eq_true_iff.mpr (.inr (decide_eq_true hdiff))

end

/-! ## The deadlock detector and lending (R340, R347, R459) -/

/-- The detector that has fired stays quiet until something moves (R347). -/
theorem exec_deadlockTimeout_of_quiet (hquiet : s.tally.dlQuiet = true) : exec .deadlockTimeout s = .next s := by
  change execDeadlockTimeout s = _
  rw [execDeadlockTimeout, if_pos (by simp [hquiet])]

/-- Where something waits, the detector notes that it has fired and raises source 46 with the waiting contexts (R347). -/
theorem exec_deadlockTimeout_of_due (hus : s.tally.deadlockUs ≠ 0) (hwait : s.waiters ≠ [] ∨ s.anyBound = true)
    (hquiet : s.tally.dlQuiet = false) :
    ∃ c : FaultCap, c.src = 46 ∧ exec .deadlockTimeout s =
      .next ((s.modTally fun t => { t with dlFired := true, dlQuiet := true }).raiseWith c (some s.deadlockEvent)) := by
  refine ⟨_, ?_, congrArg Host.Outcome.next (if_neg ?_)⟩
  · rfl
  · rcases hwait with h | h <;> simp [hquiet, h, show ¬ s.tally.deadlockUs = 0#16 from hus]

/-- A channel that sleeps long with its wait unmet counts for lending (R340). -/
theorem exec_lendTimeout_channel {ch : Fin 1024} (hus : s.tally.lendUs ≠ 0) (hsleep : s.sleeping ch.val = true)
    (hmet : s.chanMet ch.val = false) :
    exec (.lendTimeout (.channel ch)) s = .next (s.setChan ch.val { s.chan ch.val with lent := true }) := by
  change execLendTimeout (.channel ch) s = _
  simp only [execLendTimeout, hus, hsleep, hmet, if_false, Bool.not_false, Bool.and_self, if_true]

/-- A core with four long waits counts for lending once (R340). -/
theorem exec_lendTimeout_core {n : Fin 256} (hus : s.tally.lendUs ≠ 0) (hcore : s.corePresent n.val = true)
    (hwaits : s.coreWaits n.val = true) :
    exec (.lendTimeout (.core n)) s = .next (if n.val ∈ s.tally.lentCores then s
      else s.modTally fun t => { t with lentCores := n.val :: t.lentCores }) := by
  change execLendTimeout (.core n) s = _
  rw [execLendTimeout, if_neg hus]
  by_cases h : n.val ∈ s.tally.lentCores <;> simp [hcore, hwaits, h]

/-- The counts presented, and LEND_UPD toggled where one of them is new (R459). -/
theorem State.lendPresent_counts (s : State) (nch nco : Nat) :
    (s.lendPresent nch nco).tally.lendChan = BitVec.ofNat 11 nch ∧ (s.lendPresent nch nco).tally.lendCore = BitVec.ofNat 9 nco ∧
      ((s.lendPresent nch nco).tally.lendUpd = s.tally.lendUpd ↔ s.tally.lendChan.toNat = nch ∧ s.tally.lendCore.toNat = nco) := by
  unfold State.lendPresent
  split
  next h =>
    obtain ⟨rfl, rfl⟩ : s.tally.lendChan.toNat = nch ∧ s.tally.lendCore.toNat = nco := by simpa using h
    simp
  next h =>
    refine ⟨rfl, rfl, iff_of_false ?_ (by simpa using h)⟩
    cases hupd : s.tally.lendUpd <;> simp [State.modTally, hupd]

end

/-! ## The statement -/

/-- Settles O43: the control port's writes by what each leaves of the tally unit, then the detector and lending. -/
theorem tallyUnitIsConfiguredAndTimed : Obligations.TallyUnitIsConfiguredAndTimed := by
  unfold Obligations.TallyUnitIsConfiguredAndTimed
  refine ⟨⟨fun g w s hawake => ⟨_, exec_tallyOwnWrite_of_awake hawake g w, Store.get_set_same _ _ _ _,
      fun h hne => Store.get_set_other _ _ _ hne, rfl, rfl, s.modTally_changes _⟩,
    fun c w s hawake => ⟨fun hok => ?_, fun hinit hoff => ?_⟩,
    fun b w s hawake hon hdis hw => ⟨exec_barrierEnable_of_owned hawake hon hdis hw,
      exec_barrierEnable_of_not_owned hawake hon hdis hw⟩,
    fun b w s => exec_barrierDisable_keeps⟩,
    fun s hus hwait => ⟨fun hquiet => ?_, exec_deadlockTimeout_of_quiet⟩,
    fun ch s hus hsleep hmet => ⟨_, exec_lendTimeout_channel hus hsleep hmet, State.setChan_chan_same _ _ _,
      fun d hd => State.setChan_chan_other _ _ hd, s.setChan_changes _ _⟩,
    fun n s hus hcore hwaits => ⟨_, exec_lendTimeout_core hus hcore hwaits, ?_⟩,
    fun s => ⟨_, rfl, ?_⟩⟩
  · obtain ⟨hcfg, hvalue, hother⟩ := State.credWrite_reads (c := c.val) hok
    obtain ⟨-, -, hval, -⟩ := State.credWrite_takes (c := c.val) hok
    exact ⟨_, exec_credCfgWrite_of_awake hawake c w, hcfg, hvalue, hother, hval⟩
  · refine ⟨_, exec_credCfgWrite_of_awake hawake c w, ?_⟩
    rw [State.credWrite_of_off hinit hoff]
    exact ⟨s.holdTally_held, State.holdTally_credCfg, State.holdTally_req⟩
  · obtain ⟨c, hsrc, hexec⟩ := exec_deadlockTimeout_of_due hus hwait hquiet
    exact ⟨_, hexec, State.raiseWith_tally _ _ _ _, hsrc ▸ State.raiseWith_stat_self (by rw [hsrc]; decide),
      State.raiseWith_ctxs _ _ _ _, State.raiseWith_chans _ _ _ _⟩
  · split
    next h => exact ⟨h, fun _ _ => .rfl, rfl, .refl _ s⟩
    next h => exact ⟨List.mem_cons_self, fun m hm => by simp [State.modTally, hm], rfl, s.modTally_changes _⟩
  · obtain ⟨hchan, hcore, hupd⟩ := s.lendPresent_counts s.lentChans.length s.tally.lentCores.length
    exact ⟨hchan, hcore, hupd, s.lendPresent_changes _ _⟩

end Sys2Proof.Machine

/-! # Proofs: power requests and their answers (R323, R390, R399, R403, R423, R441, R470, R474)

Which operations only ask for power and clocks and leave the acknowledgements alone, then what an acknowledgement does, and the
wakes, the handshake's timeout and the power failure. -/
namespace Sys2Proof.Machine

/-! ## Requests (R441) -/

/-- Only requests, and the engine state noted last, differ between the power parts of two states. -/
def State.OnlyRequests (s t : State) : Prop :=
  ∃ req clkReq ret mode, t.power = { s.power with req := req, clkReq := clkReq, ret := ret, mode := mode }

namespace State.OnlyRequests
variable {s t u : State}

theorem of_power (h : t.power = s.power) : s.OnlyRequests t := ⟨_, _, _, _, h⟩

theorem refl (s : State) : s.OnlyRequests s := of_power rfl

theorem of_changes {ps : List Part} (h : OnlyChanges ps s t) (hp : .power ∉ ps) : s.OnlyRequests t := of_power (h .power hp)

theorem trans (h : s.OnlyRequests t) (k : t.OnlyRequests u) : s.OnlyRequests u := by
  obtain ⟨req, clkReq, ret, mode, h⟩ := h
  obtain ⟨req', clkReq', ret', mode', k⟩ := k
  exact ⟨req', clkReq', ret', mode', by rw [k, h]⟩

theorem ite {c : Prop} [Decidable c] (h : s.OnlyRequests t) (k : s.OnlyRequests u) : s.OnlyRequests (if c then t else u) := by
  split <;> assumption

theorem foldl {α : Type} {f : State → α → State} (hf : ∀ (t : State) a, t.OnlyRequests (f t a)) (l : List α) (s : State) :
    s.OnlyRequests (l.foldl f s) := by
  induction l generalizing s with
  | nil => exact refl s
  | cons a r ih => exact (hf s a).trans (ih _)

theorem ack (h : s.OnlyRequests t) : t.power.ack = s.power.ack := by obtain ⟨_, _, _, _, h⟩ := h; rw [h]

theorem clkAck (h : s.OnlyRequests t) : t.power.clkAck = s.power.clkAck := by obtain ⟨_, _, _, _, h⟩ := h; rw [h]

theorem retAck (h : s.OnlyRequests t) : t.power.retAck = s.power.retAck := by obtain ⟨_, _, _, _, h⟩ := h; rw [h]

theorem pkWake (h : s.OnlyRequests t) : t.power.pkWake = s.power.pkWake := by obtain ⟨_, _, _, _, h⟩ := h; rw [h]

theorem asleep (h : s.OnlyRequests t) : t.power.asleep = s.power.asleep := by obtain ⟨_, _, _, _, h⟩ := h; rw [h]

end State.OnlyRequests

open State (OnlyRequests)

section
variable (s : State) (n : Nat)

theorem State.powerUp_onlyRequests : s.OnlyRequests (s.powerUp n) := .ite (.refl s) ⟨_, _, _, _, rfl⟩

theorem State.powerDown_onlyRequests : s.OnlyRequests (s.powerDown n) := .ite ⟨_, _, _, _, rfl⟩ (.refl s)

theorem State.clockUp_onlyRequests : s.OnlyRequests (s.clockUp n) := .ite (.refl s) ⟨_, _, _, _, rfl⟩

theorem State.clockDown_onlyRequests : s.OnlyRequests (s.clockDown n) := .ite ⟨_, _, _, _, rfl⟩ (.refl s)

theorem State.retainUp_onlyRequests : s.OnlyRequests (s.retainUp n) := .ite (.refl s) ⟨_, _, _, _, rfl⟩

theorem State.retainDown_onlyRequests : s.OnlyRequests (s.retainDown n) := .ite ⟨_, _, _, _, rfl⟩ (.refl s)

/-! ## Power follows the work (R388, R392) -/

theorem State.raiseFrame_onlyRequests : s.OnlyRequests (s.raiseFrame n) := by
  unfold State.raiseFrame
  extract_lets x ds
  exact .ite (.refl s) <| .ite (.of_power rfl) <| .ite (.foldl State.powerUp_onlyRequests _ s) <|
    .ite (.foldl State.retainDown_onlyRequests _ s) <| .ite (s.clockUp_onlyRequests n) (.of_power rfl)

theorem State.settleFrame_onlyRequests : s.OnlyRequests (s.settleFrame n) := by
  unfold State.settleFrame
  extract_lets u x ds
  refine (s.raiseFrame_onlyRequests n).trans (.ite (.refl u) ?_)
  split
  · exact .foldl (fun t d => (t.retainDown_onlyRequests d).trans (State.powerDown_onlyRequests _ d)) _ u
  · exact .foldl State.retainUp_onlyRequests _ u
  · exact .ite (.foldl (fun t d => (t.retainDown_onlyRequests d).trans (State.powerUp_onlyRequests _ d)) _ u)
      (.ite (.foldl State.powerDown_onlyRequests _ u) (.refl u))

theorem State.settleDomain_onlyRequests : s.OnlyRequests (s.settleDomain n) :=
  .ite (s.powerDown_onlyRequests n) <| .ite (.refl s) <| .ite (s.powerUp_onlyRequests n) (.refl s)

theorem State.settleClock_onlyRequests : s.OnlyRequests (s.settleClock n) :=
  .ite (s.clockDown_onlyRequests n) <| .ite (.refl s) (s.clockUp_onlyRequests n)

theorem State.noteMode_onlyRequests : s.OnlyRequests s.noteMode := by
  unfold State.noteMode
  extract_lets m ev p u
  have hu : s.OnlyRequests u := ⟨_, _, _, _, rfl⟩
  refine .ite (.refl s) (hu.trans ?_)
  clear_value u ev m
  split
  · exact .ite (.of_changes (u.event_changes _) (by decide)) (.refl u)
  · exact .refl u

theorem State.settlePower_onlyRequests : s.OnlyRequests s.settlePower := by
  unfold State.settlePower
  extract_lets s₁ s₂ s₃ s₄
  have h₁ : s.OnlyRequests s₁ := .ite (s.powerUp_onlyRequests 64) (s.powerDown_onlyRequests 64)
  have h₂ : s₁.OnlyRequests s₂ := .foldl State.settleFrame_onlyRequests _ s₁
  have h₃ : s₂.OnlyRequests s₃ := .foldl State.settleDomain_onlyRequests _ s₂
  have h₄ : s₃.OnlyRequests s₄ := .foldl State.settleClock_onlyRequests _ s₃
  have h₅ : s₄.OnlyRequests s₄.bootIfPowered := .of_changes s₄.bootIfPowered_changes (by decide)
  exact h₁.trans (h₂.trans (h₃.trans (h₄.trans (h₅.trans (State.noteMode_onlyRequests _)))))

/-! ## What a domain's power-up starts (R323, R393, R452) -/

theorem State.wakeTally_onlyRequests : s.OnlyRequests s.wakeTally :=
  (s.powerUp_onlyRequests 61).trans (State.clockUp_onlyRequests _ 16)

/-- An operation of a tally port asks at most for the unit's power and clock. -/
theorem State.tpOp_onlyRequests (op : Instr) (reads bad : Bool) {f : State → State} (hf : s.OnlyRequests (f s)) :
    s.OnlyRequests (s.after (.next (s.tpOp n op reads bad f))) := by
  change s.OnlyRequests (s.tpOp n op reads bad f)
  unfold State.tpOp
  exact .ite (.refl s) <| .ite (s.wakeTally_onlyRequests.trans (.of_power rfl)) <| .ite (.of_power rfl) hf

theorem State.OnlyRequests.tpAnswer {s t : State} (h : s.OnlyRequests t) (core : Nat) (refused : Bool) (rdata : Nat) :
    s.OnlyRequests (t.tpAnswer core refused rdata) := h.trans (.of_power rfl)

theorem State.setSlot_onlyRequests (k : Nat) (c : SlotCond) : s.OnlyRequests (s.setSlot n k c) :=
  .of_changes (s.setSlot_changes n k c) (by decide)

theorem State.setCredit_onlyRequests (v : CredVal) : s.OnlyRequests (s.setCredit n v) :=
  .of_changes (s.setCredit_changes n v) (by decide)

theorem State.raise_onlyRequests (c : FaultCap) : s.OnlyRequests (s.raise c) := .of_changes (s.raise_changes c) (by decide)

/-- A held operation executed changes the store, credits or slots and answers its port. -/
theorem State.runHeld_onlyRequests (op : Instr) : s.OnlyRequests (s.runHeld op) := by
  cases op with
  | tpReadTally core id arg | tpReadCredit core id arg =>
    refine s.tpOp_onlyRequests _ _ _ _ ?_
    exact (OnlyRequests.refl s).tpAnswer _ _ _
  | tpIncrement core id arg =>
    refine s.tpOp_onlyRequests _ _ _ _ ?_
    exact OnlyRequests.tpAnswer (.of_changes (s.increment_changes _ _ _) (by decide)) _ _ _
  | tpArmTallyWait core id slot arg | tpArmCreditWait core id slot arg | tpDisarmSlot core slot arg =>
    refine s.tpOp_onlyRequests _ _ _ _ ?_
    exact (s.setSlot_onlyRequests _ _ _).tpAnswer _ _ _
  | tpCreditGive core id arg =>
    refine s.tpOp_onlyRequests _ _ _ _ ?_
    extract_lets c v m t u
    have ht : s.OnlyRequests t := s.setCredit_onlyRequests _ _
    exact OnlyRequests.tpAnswer (.ite (ht.trans (t.raise_onlyRequests _)) ht) _ _ _
  | tpCreditTake core id arg =>
    refine s.tpOp_onlyRequests _ _ _ _ ?_
    extract_lets c v t m
    have ht : s.OnlyRequests t := .of_power rfl
    exact .ite ((ht.trans (t.raise_onlyRequests _)).tpAnswer _ _ _) ((s.setCredit_onlyRequests _ _).tpAnswer _ _ _)
  | _ => exact .refl s

theorem State.runHeldOps_onlyRequests : s.OnlyRequests s.runHeldOps := by
  unfold State.runHeldOps
  refine .trans ?_ (.foldl ?_ _ _)
  · exact .of_power rfl
  · exact fun t p => t.runHeld_onlyRequests p.2

/-- With nothing held there is nothing to execute. -/
theorem State.runHeldOps_of_none {s : State} (h : s.tally.heldOps = []) : s.runHeldOps = s := by
  have htally : ({ s.tally with heldOps := [] } : TallyUnit) = s.tally := by rw [← h]
  rw [State.runHeldOps, h]
  exact congrArg (fun u : TallyUnit => { s with tally := u }) htally

theorem State.askTraining_onlyRequests : s.OnlyRequests (s.askTraining n) := by
  unfold State.askTraining
  extract_lets x
  refine .ite (.trans (.trans ?_ (State.powerUp_onlyRequests _ _)) (State.powerUp_onlyRequests _ _)) (.refl s)
  exact .of_power rfl

/-- Testing the cryptographic units asks for links to be trained, which asks for their quadrants' power. -/
theorem State.testUnits_onlyRequests (mask pass kind : Nat) : s.OnlyRequests (s.testUnits mask pass kind) := by
  unfold State.testUnits
  extract_lets us s₁ bad ok ev s₂ s₃ s₄ s₅ s₆ s₇
  have h₁ : s.OnlyRequests s₁ := .foldl (fun t u => .of_changes (t.idleQuadrant_changes _) (by decide)) _ s
  have h₂ : s₁.OnlyRequests s₂ := .foldl (fun t u => by exact .of_power rfl) _ s₁
  have h₃ : s₂.OnlyRequests s₃ := .foldl (fun t u => by exact .of_power rfl) _ s₂
  have hraise (t : State) c ev q : t.OnlyRequests (t.raiseWith c ev q) := .of_power (State.raiseWith_power _ _ _ _)
  have h₄ : s₃.OnlyRequests s₄ := by
    unfold s₄
    clear_value bad
    split
    · exact .of_changes (s₃.event_changes _) (by decide)
    · exact .trans (hraise _ _ _ _) (.foldl (fun t u => hraise t _ _ _) _ _)
  have h₅ : s₄.OnlyRequests s₅ := .foldl (fun t u => .of_changes (t.unitGone_changes u) (by decide)) _ s₄
  have h₆ : s₅.OnlyRequests s₆ := .ite (.of_changes s₅.seedDrbg_changes (by decide)) (.refl s₅)
  have h₇ : s₆.OnlyRequests s₇ := .foldl State.askTraining_onlyRequests _ s₆
  have h₈ : s₇.OnlyRequests s₇.waggleAll := .of_changes s₇.waggleAll_changes (by decide)
  exact h₁.trans (h₂.trans (h₃.trans (h₄.trans (h₅.trans (h₆.trans (h₇.trans h₈))))))

theorem State.katAgain_onlyRequests : s.OnlyRequests (s.katAgain n) := by
  unfold State.katAgain
  extract_lets us p bad
  have hp : s.OnlyRequests p.2 := .of_power rfl
  exact .ite (.refl s) (.ite hp (hp.trans (p.2.testUnits_onlyRequests _ _ _)))

/-- Every credit counter starts the unit's run with no take refused. -/
theorem State.tallyPowered_under (c : Nat) : (s.tallyPowered.tally.credVal.get {} c).under = false := by
  refine List.foldlRecOn (motive := fun m : Store CredVal => ∀ c, (m.get {} c).under = false) s.tally.credCfg _
    (fun c => rfl) (fun m hm e _ c => ?_) c
  rw [Store.get_set]
  split
  · rfl
  · exact hm c

theorem State.domainPowered_ack : (s.domainPowered n).power.ack = s.power.ack := by
  unfold State.domainPowered
  split_ifs
  · rfl
  · exact (State.runHeldOps_onlyRequests _).ack
  · rfl
  · exact (s.katAgain_onlyRequests n).ack
  · rfl
  · rfl

end

/-! ## Acknowledgements (R323, R390, R441, R470) -/

/-- The bits of a vector once one of them has followed its request. -/
theorem getLsbD_acknowledged {w : Nat} (v : BitVec w) {i j : Nat} (hj : j < w) (up : Bool) :
    (if up = true then setBit v i else clearBit v i).getLsbD j = if j = i then up else v.getLsbD j := by
  have hset : (setBit v i).getLsbD j = (v.getLsbD j || decide (i = j)) := by
    simp only [setBit, BitVec.getLsbD_or, BitVec.getLsbD_ofNat, hj, decide_true, Bool.true_and, Nat.testBit_two_pow]
  have hclear : (clearBit v i).getLsbD j = (v.getLsbD j && !decide (i = j)) := by
    simp only [clearBit, BitVec.getLsbD_and, BitVec.getLsbD_not, BitVec.getLsbD_ofNat, hj, decide_true, Bool.true_and,
      Nat.testBit_two_pow]
  rcases eq_or_ne j i with rfl | h
  · cases up <;> simp [hset, hclear]
  · cases up <;> simp [hset, hclear, h, h.symm]

section
variable {α : Type} {up req ack : Bool}

/-- An acknowledgement that answers its request is taken: it rises or falls (R441). -/
theorem ite_of_answer (hreq : req = up) (hack : ack = !up) (rise fall keep : α) :
    (if up && req && !ack then rise else if !up && !req && ack then fall else keep) = if up = true then rise else fall := by
  subst hreq hack
  cases req <;> rfl

/-- An acknowledgement without a request to answer is not taken (R441). -/
theorem ite_of_no_answer (h : req ≠ up ∨ ack = up) (rise fall keep : α) :
    (if up && req && !ack then rise else if !up && !req && ack then fall else keep) = keep := by
  rcases h with h | rfl
  · obtain rfl : req = !up := by cases up <;> simpa using h
    cases up <;> rfl
  · cases ack <;> simp

end

section
variable {s : State} {d : Fin 65} {i : Fin 22} {r : Fin 48} {up : Bool}

/-- The state once domain `d`'s acknowledgement has followed its request, before power follows the work. -/
def State.domainAcked (s : State) (d : Nat) (up : Bool) : State :=
  let t : State := { s with power := { s.power with ack := if up then setBit s.power.ack d else clearBit s.power.ack d } }
  if up then t.domainPowered d else t.domainDown d

theorem exec_pwrAck_of_answer (hreq : s.power.req.getLsbD d.val = up) (hack : s.power.ack.getLsbD d.val = !up) :
    exec (.pwrAck d up) s = .next (s.domainAcked d.val up).settlePower := by
  refine congrArg Host.Outcome.next ((ite_of_answer hreq hack _ _ _).trans ?_)
  cases up <;> rfl

theorem exec_pwrAck_of_unasked (h : s.power.req.getLsbD d.val ≠ up ∨ s.power.ack.getLsbD d.val = up) :
    exec (.pwrAck d up) s = .next s :=
  congrArg Host.Outcome.next (ite_of_no_answer h _ _ _)

/-- The acknowledgements after one has followed its request. -/
theorem State.domainAcked_ack (s : State) (d : Nat) (up : Bool) :
    (s.domainAcked d up).power.ack = if up = true then setBit s.power.ack d else clearBit s.power.ack d := by
  unfold State.domainAcked
  extract_lets p t
  cases up with
  | true => exact State.domainPowered_ack t d
  | false => exact congrArg (·.ack) (t.domainDown_changes d .power (by decide))

/-- The second level of translations is empty whenever its domain has gone up or down (R244). -/
theorem State.domainAcked_l2 (s : State) (up : Bool) : (s.domainAcked 56 up).xlate.l2 = [] := by
  cases up <;> rfl

/-- WAKE has been taken once domain 64 is up (R474). -/
theorem State.domainAcked_pkWake (s : State) : (s.domainAcked 64 true).power.pkWake = false := rfl

/-- Contexts stay; a known-answer test that fails again may end some. -/
theorem State.domainAcked_ctxs (s : State) {d : Nat} (up : Bool) (h62 : d ≠ 62) (h63 : d ≠ 63) :
    (s.domainAcked d up).ctxs = s.ctxs := by
  unfold State.domainAcked
  extract_lets p t
  cases up with
  | false => exact t.domainDown_changes d .ctxs (by decide)
  | true =>
    change (t.domainPowered d).ctxs = s.ctxs
    unfold State.domainPowered
    split_ifs with _ _ _ hkat
    · rfl
    · exact State.runHeldOps_changes _ .ctxs (by decide)
    · rfl
    · simp [h62, h63] at hkat
    · rfl
    · rfl

/-- The tally unit starts a run: with no held operation to execute its tally part is the one of its power-up (R323). -/
theorem State.domainAcked_tally (h : s.clockOn 16 = false ∨ s.tally.heldOps = []) :
    (s.domainAcked 61 true).tally = s.tallyPowered.tally := by
  let t : State := { s with power := { s.power with ack := setBit s.power.ack 61 } }
  change (if t.clockOn 16 = true then t.tallyPowered.runHeldOps else t.tallyPowered).tally = _
  rcases h with h | h
  · rw [if_neg (by rw [show t.clockOn 16 = s.clockOn 16 from rfl, h]; decide)]
    rfl
  · rw [State.runHeldOps_of_none (show t.tallyPowered.tally.heldOps = [] from h), ite_self]
    rfl

/-- The state once clock branch `i`'s acknowledgement has followed its request, before power follows the work. -/
def State.clockAcked (s : State) (i : Nat) (up : Bool) : State :=
  let t : State := { s with power := { s.power with clkAck := if up then setBit s.power.clkAck i else clearBit s.power.clkAck i } }
  if up && i = 16 && t.tallyOn then t.runHeldOps else t

theorem exec_clkAck_of_answer (hreq : s.power.clkReq.getLsbD i.val = up) (hack : s.power.clkAck.getLsbD i.val = !up) :
    exec (.clkAck i up) s = .next (s.clockAcked i.val up).settlePower := by
  refine congrArg Host.Outcome.next ((ite_of_answer hreq hack _ _ _).trans ?_)
  cases up <;> rfl

theorem exec_clkAck_of_unasked (h : s.power.clkReq.getLsbD i.val ≠ up ∨ s.power.clkAck.getLsbD i.val = up) :
    exec (.clkAck i up) s = .next s :=
  congrArg Host.Outcome.next (ite_of_no_answer h _ _ _)

theorem State.clockAcked_clkAck (s : State) (i : Nat) (up : Bool) :
    (s.clockAcked i up).power.clkAck = if up = true then setBit s.power.clkAck i else clearBit s.power.clkAck i := by
  unfold State.clockAcked
  extract_lets p t
  split
  · exact t.runHeldOps_onlyRequests.clkAck
  · rfl

theorem State.clockAcked_ctxs (s : State) (i : Nat) (up : Bool) : (s.clockAcked i up).ctxs = s.ctxs := by
  unfold State.clockAcked
  extract_lets p t
  split
  · exact t.runHeldOps_changes .ctxs (by decide)
  · rfl

/-- Only the shared branch lets the tally unit take what it holds (R390). -/
theorem State.clockAcked_tally {n : Nat} (h : n ≠ 16 ∨ up = false ∨ s.tally.heldOps = []) : (s.clockAcked n up).tally = s.tally := by
  unfold State.clockAcked
  extract_lets p t
  rcases h with h | h | h
  · simp [h, t]
  · simp [h, t]
  · rw [State.runHeldOps_of_none (show t.tally.heldOps = [] from h), ite_self]

theorem exec_pwrRetAck_of_answer (hreq : s.power.ret.getLsbD r.val = up) (hack : s.power.retAck.getLsbD r.val = !up) :
    exec (.pwrRetAck r up) s = .next ({ s with power := { s.power with
      retAck := if up then setBit s.power.retAck r.val else clearBit s.power.retAck r.val } } : State).settlePower := by
  refine congrArg Host.Outcome.next ((ite_of_answer hreq hack _ _ _).trans ?_)
  cases up <;> rfl

theorem exec_pwrRetAck_of_unasked (h : s.power.ret.getLsbD r.val ≠ up ∨ s.power.retAck.getLsbD r.val = up) :
    exec (.pwrRetAck r up) s = .next s :=
  congrArg Host.Outcome.next (ite_of_no_answer h _ _ _)

/-! ## Timeout, wakes and the power failure (R390, R399, R403, R423, R474) -/

/-- Whether a power or clock request waits for its acknowledgement. -/
def State.requestWaits (s : State) (clk : Bool) (n : Nat) : Prop :=
  if clk = true then s.power.clkReq.getLsbD n = true ∧ s.power.clkAck.getLsbD n = false
  else s.power.req.getLsbD n = true ∧ s.power.ack.getLsbD n = false

theorem exec_handshakeTimeout_of_waiting {clk : Bool} {n : Fin 66} (h : s.requestWaits clk n.val) :
    ∃ c : FaultCap, c.src = 58 ∧ exec (.handshakeTimeout clk n) s = .next (s.raise c) := by
  refine ⟨_, ?_, congrArg Host.Outcome.next (if_pos ?_)⟩
  · rfl
  · cases clk <;> (obtain ⟨hreq, hack⟩ := h; change (_ && !_) = true; rw [hreq, hack]; rfl)

theorem exec_handshakeTimeout_of_not_waiting {clk : Bool} {n : Fin 66} (h : ¬ s.requestWaits clk n.val) :
    exec (.handshakeTimeout clk n) s = .next s := by
  refine congrArg Host.Outcome.next (if_neg ?_)
  cases clk <;> (change ¬ (_ && !_) = true; rw [Bool.and_eq_true, Bool.not_eq_true']; exact h)

/-- Waking asks for domain 64 and the keeper clock (R399, R434). -/
theorem State.wake_of_asleep (pk : Bool) (h : s.power.asleep = true) :
    (s.wake pk).power.asleep = false ∧ (s.power.ack.getLsbD 64 = false → (s.wake pk).power.req.getLsbD 64 = true) ∧
      (s.power.clkAck.getLsbD 21 = false → (s.wake pk).power.clkReq.getLsbD 21 = true) ∧
      (s.wake pk).power.pkWake = (s.power.pkWake || pk) := by
  let t : State := { s with power := { s.power with asleep := false, pkWake := s.power.pkWake || pk } }
  have hwake : s.wake pk = (t.powerUp 64).clockUp 21 := by rw [State.wake, if_neg (by rw [h]; decide)]
  have ht : t.OnlyRequests ((t.powerUp 64).clockUp 21) := (t.powerUp_onlyRequests 64).trans (State.clockUp_onlyRequests _ 21)
  rw [hwake]
  refine ⟨ht.asleep, fun hack => ?_, fun hack => ?_, ht.pkWake⟩
  · rw [State.clockUp_req]
    exact State.powerUp_req (by decide) hack
  · exact State.clockUp_clkReq _ (by decide) (by rw [(t.powerUp_onlyRequests 64).clkAck]; exact hack)

theorem State.wake_of_awake (pk : Bool) (h : s.power.asleep = false) : s.wake pk = s := by
  rw [State.wake, if_pos (by rw [h]; decide)]

theorem exec_pwrFailN_of_on (h : s.keeper.phase ≠ .off) :
    exec .pwrFailN s = .next { (s.raise { src := 57 }).askFlush with power := { s.power with failing := true } } := by
  change execPwrFailN s = _
  rw [execPwrFailN, if_neg (by simpa using h)]
  simp

end

/-! ## The statement -/

/-- Settles O55: an answered request moves one acknowledgement, which `State.settlePower` leaves; the rest ask or raise. -/
theorem powerRequestsAreAnswered : Obligations.PowerRequestsAreAnswered := by
  unfold Obligations.PowerRequestsAreAnswered
  refine ⟨fun d up s => ⟨fun hreq hack => ⟨_, exec_pwrAck_of_answer hreq hack, ?_, ?_, ?_, ?_, ?_⟩, exec_pwrAck_of_unasked⟩,
    fun i up s => ⟨fun hreq hack => ⟨_, exec_clkAck_of_answer hreq hack, ?_, ?_, ?_⟩, exec_clkAck_of_unasked⟩,
    fun r up s => ⟨fun hreq hack => ⟨_, exec_pwrRetAck_of_answer hreq hack, ?_, ?_⟩, exec_pwrRetAck_of_unasked⟩,
    fun clk n s => ⟨fun h => ?_, exec_handshakeTimeout_of_not_waiting⟩,
    fun w s => ⟨fun hasleep => ⟨?_, fun hw => ?_⟩, fun hawake => ?_, fun h => ?_⟩,
    fun s hphase => ⟨_, exec_pwrFailN_of_on hphase, ?_, ?_, rfl, ?_⟩⟩
  · intro k hk
    rw [(State.settlePower_onlyRequests _).ack, State.domainAcked_ack]
    exact getLsbD_acknowledged _ hk up
  · rintro hd rfl h
    rw [State.settlePower_changes _ .tally (by decide), hd, State.domainAcked_tally h]
    exact ⟨rfl, rfl, rfl, rfl, s.tallyPowered_under⟩
  · rintro hd rfl
    rw [(State.settlePower_onlyRequests _).pkWake, hd, State.domainAcked_pkWake]
  · intro hd
    rw [State.settlePower_changes _ .xlate (by decide), hd, State.domainAcked_l2]
  · intro h62 h63
    rw [State.settlePower_changes _ .ctxs (by decide), s.domainAcked_ctxs up h62 h63]
  · intro k hk
    rw [(State.settlePower_onlyRequests _).clkAck, State.clockAcked_clkAck]
    exact getLsbD_acknowledged _ hk up
  · rw [State.settlePower_changes _ .ctxs (by decide), State.clockAcked_ctxs]
  · intro h
    rw [State.settlePower_changes _ .tally (by decide), State.clockAcked_tally h]
  · intro k hk
    rw [(State.settlePower_onlyRequests _).retAck]
    exact getLsbD_acknowledged _ hk up
  · rw [State.settlePower_changes _ .ctxs (by decide)]
  · obtain ⟨c, hsrc, hexec⟩ := exec_handshakeTimeout_of_waiting h
    exact ⟨_, hexec, hsrc ▸ State.raiseWith_stat_self (by rw [hsrc]; decide), State.raise_power _ _⟩
  · obtain ⟨hup, hreq, hclk, hpk⟩ := State.wake_of_asleep false hasleep
    exact ⟨_, rfl, ⟨hup, hreq, hclk, s.wake_changes _⟩, hpk.trans (Bool.or_false _)⟩
  · obtain ⟨hup, hreq, hclk, hpk⟩ := State.wake_of_asleep true hasleep
    exact ⟨_, congrArg Host.Outcome.next (if_pos hw), ⟨hup, hreq, hclk, s.wake_changes _⟩, hpk.trans (Bool.or_true _)⟩
  · exact congrArg Host.Outcome.next (State.wake_of_awake _ hawake)
  · refine congrArg Host.Outcome.next (h.elim (fun hawake => ?_) fun hw => if_neg (by rw [hw]; decide))
    rw [State.wake_of_awake _ hawake, ite_self]
  · exact State.raiseWith_stat_self (c := { src := 57 }) (show 57 < 64 by decide)
  · rfl
  · exact State.raise_ctxs _ _

end Sys2Proof.Machine

/-! # Proofs: frames follow their demand (R356, R394, R395, R397, R441)

What a list of domains is asked for, then the one frame each row makes. -/
namespace Sys2Proof.Machine
open State (OnlyRequests)

/-! ## Requests over a list of domains (R392, R441) -/

/-- What each element of a list sets and the others keep, their fold sets for all of them. -/
theorem foldl_sets {α β : Type} {f : β → α → β} {Q : α → β → Prop} {l : List α} (hset : ∀ b, ∀ a ∈ l, Q a (f b a))
    (hkeep : ∀ b c, ∀ a ∈ l, Q a b → Q a (f b c)) (b : β) : ∀ a ∈ l, Q a (l.foldl f b) := by
  induction l using List.reverseRecOn generalizing b with
  | nil => exact fun a h => absurd h List.not_mem_nil
  | append_singleton r c ih =>
    intro a ha
    rw [List.foldl_append]
    rcases List.mem_append.mp ha with hr | hc
    · exact hkeep _ c a ha (ih (fun b a h => hset b a (List.mem_append_left _ h))
        (fun b c a h => hkeep b c a (List.mem_append_left _ h)) b a hr)
    · obtain rfl := List.mem_singleton.mp hc
      exact hset _ a ha

theorem frameDomains_lt {f : Fin 16} {d : Nat} (hd : d ∈ frameDomains f.val) : d < 48 := by
  simp only [frameDomains, List.mem_cons, List.not_mem_nil, or_false] at hd
  omega

section
variable {f : Fin 16} {s : State}

theorem State.powerUps_req (s : State) {d : Nat} (hd : d ∈ frameDomains f.val) (hack : s.power.ack.getLsbD d = false) :
    ((frameDomains f.val).foldl State.powerUp s).power.req.getLsbD d = true := by
  refine foldl_sets (Q := fun d t => t.power.ack.getLsbD d = false → t.power.req.getLsbD d = true)
    (fun t d hd h => ?_) (fun t e d hd h hack => ?_) s d hd ?_
  · rw [(t.powerUp_onlyRequests d).ack] at h
    exact State.powerUp_req ((frameDomains_lt hd).trans (by decide)) h
  · rw [(t.powerUp_onlyRequests e).ack] at hack
    exact State.powerUp_req_keeps ((frameDomains_lt hd).trans (by decide)) (h hack)
  · rw [(OnlyRequests.foldl State.powerUp_onlyRequests _ s).ack]
    exact hack

theorem State.powerUps_changes (s : State) (l : List Nat) : OnlyChanges [.power] s (l.foldl State.powerUp s) :=
  .foldl _ State.powerUp_changes l s (.refl _ s)

theorem State.retainUp_ret {t : State} {d : Nat} (hd : d < 48) (hack : t.power.retAck.getLsbD d = false) :
    (t.retainUp d).power.ret.getLsbD d = true := by
  unfold State.retainUp
  split
  next h => simpa [hack] using h
  next => exact (getLsbD_setBit _ hd).mpr (.inr rfl)

theorem State.retainUp_ret_keeps {t : State} {d e : Nat} (hd : d < 48) (h : t.power.ret.getLsbD d = true) :
    (t.retainUp e).power.ret.getLsbD d = true := by
  unfold State.retainUp
  split
  · exact h
  · exact (getLsbD_setBit _ hd).mpr (.inl h)

theorem State.retainUps_ret (s : State) {d : Nat} (hd : d ∈ frameDomains f.val) (hack : s.power.retAck.getLsbD d = false) :
    ((frameDomains f.val).foldl State.retainUp s).power.ret.getLsbD d = true := by
  refine foldl_sets (Q := fun d t => t.power.retAck.getLsbD d = false → t.power.ret.getLsbD d = true)
    (fun t d hd h => ?_) (fun t e d hd h hack => ?_) s d hd ?_
  · rw [(t.retainUp_onlyRequests d).retAck] at h
    exact State.retainUp_ret (frameDomains_lt hd) h
  · rw [(t.retainUp_onlyRequests e).retAck] at hack
    exact State.retainUp_ret_keeps (frameDomains_lt hd) (h hack)
  · rw [(OnlyRequests.foldl State.retainUp_onlyRequests _ s).retAck]
    exact hack

theorem State.retainUps_changes (s : State) (l : List Nat) : OnlyChanges [.power] s (l.foldl State.retainUp s) :=
  .foldl _ State.retainUp_changes l s (.refl _ s)

/-- Retention ended and power released, domain by domain (R356, R441). -/
def State.domainOffStep (t : State) (d : Nat) : State := (t.retainDown d).powerDown d

theorem State.domainOffStep_onlyRequests (t : State) (d : Nat) : t.OnlyRequests (t.domainOffStep d) :=
  (t.retainDown_onlyRequests d).trans (State.powerDown_onlyRequests _ d)

theorem State.powerDown_req {t : State} {d : Nat} (hd : d < 65) (hack : t.power.ack.getLsbD d = true) :
    (t.powerDown d).power.req.getLsbD d = false := by
  rw [State.powerDown, if_pos hack]
  exact getLsbD_clearBit_same _ hd

theorem getLsbD_clearBit_keeps {w : Nat} {v : BitVec w} {i j : Nat} (h : v.getLsbD j = false) : (clearBit v i).getLsbD j = false := by
  simp [clearBit, h]

theorem State.domainOffStep_req_keeps {t : State} {d e : Nat} (h : t.power.req.getLsbD d = false) :
    (t.domainOffStep e).power.req.getLsbD d = false := by
  have hret : (t.retainDown e).power.req = t.power.req := by
    unfold State.retainDown
    split <;> rfl
  unfold State.domainOffStep State.powerDown
  split
  · exact getLsbD_clearBit_keeps (by rw [hret]; exact h)
  · rw [hret]; exact h

theorem State.domainOffSteps_req (s : State) {d : Nat} (hd : d ∈ frameDomains f.val) (hack : s.power.ack.getLsbD d = true) :
    ((frameDomains f.val).foldl State.domainOffStep s).power.req.getLsbD d = false := by
  refine foldl_sets (Q := fun d t => t.power.ack.getLsbD d = true → t.power.req.getLsbD d = false)
    (fun t d hd h => ?_) (fun t e d _ h hack => ?_) s d hd ?_
  · rw [(t.domainOffStep_onlyRequests d).ack, ← (t.retainDown_onlyRequests d).ack] at h
    exact State.powerDown_req ((frameDomains_lt hd).trans (by decide)) h
  · rw [(t.domainOffStep_onlyRequests e).ack] at hack
    exact State.domainOffStep_req_keeps (h hack)
  · rw [(OnlyRequests.foldl State.domainOffStep_onlyRequests _ s).ack]
    exact hack

theorem State.clockDown_clkReq {t : State} {i : Nat} (hi : i < 22) (hack : t.power.clkAck.getLsbD i = true) :
    (t.clockDown i).power.clkReq.getLsbD i = false := by
  rw [State.clockDown, if_pos hack]
  exact getLsbD_clearBit_same _ hi

/-! ## One frame changed, and requests made for it -/

/-- Frame `f` is as given and the other frames are as before; beside frames only power requests differ. -/
def State.FrameMade (s t : State) (f : Nat) (y : Frame) : Prop :=
  t.frame f = y ∧ (∀ g, g ≠ f → t.frame g = s.frame g) ∧ OnlyChanges [.frames, .power] s t

theorem State.modFrame_made (s : State) (f : Nat) (k : Frame → Frame) : s.FrameMade (s.modFrame f k) f (k (s.frame f)) :=
  ⟨s.modFrame_frame_same f k, fun _ h => s.modFrame_frame_other k h, (s.modFrame_changes f k).mono (by decide)⟩

theorem State.FrameMade.modFrame {t : State} {n : Nat} {y : Frame} (h : s.FrameMade t n y) (k : Frame → Frame) :
    s.FrameMade (t.modFrame n k) n (k y) := by
  obtain ⟨hf, hother, hchg⟩ := h
  exact ⟨by rw [t.modFrame_frame_same, hf], fun g hg => (t.modFrame_frame_other k hg).trans (hother g hg),
    hchg.step (t.modFrame_changes n k) (by decide)⟩

theorem State.FrameMade.request {t u : State} {n : Nat} {y : Frame} (h : s.FrameMade t n y) (k : OnlyChanges [.power] t u) :
    s.FrameMade u n y := by
  obtain ⟨hf, hother, hchg⟩ := h
  have hframe (g : Nat) : u.frame g = t.frame g := congrArg (·.get {} g) (k .frames (by decide))
  exact ⟨(hframe n).trans hf, fun g hg => (hframe g).trans (hother g hg), hchg.step k (by decide)⟩

/-- A frame of which everything is granted runs (R395). -/
theorem exec_frameDemandWake_of_granted (hstate : (s.frame f.val).state ≠ .run) (hdemand : s.frameDemand f.val = true)
    (h64 : s.domainOn 64 = true) (hon : (frameDomains f.val).all s.domainOn = true)
    (hret : ∀ d ∈ frameDomains f.val, s.power.ret.getLsbD d = false ∧ s.power.retAck.getLsbD d = false)
    (hclk : s.clockOn f.val = true) :
    exec (.frameDemandWake f) s = .next ((s.modFrame f.val fun x => { x with waking := true }).modFrame f.val
      fun y => { y with state := .run, waking := false, scrubAt := if y.state == .nap then 0 else y.scrubAt }) := by
  have hawake : ((frameDomains f.val).all fun d => !s.power.ret.getLsbD d && !s.power.retAck.getLsbD d) = true := by
    simpa using hret
  change execFrameDemandWake f s = _
  rw [execFrameDemandWake, if_pos (by simp [hstate, hdemand, h64])]
  let u := s.modFrame f.val fun x => { x with waking := true }
  have hu : u.frame f.val = { s.frame f.val with waking := true } := s.modFrame_frame_same _ _
  change Host.Outcome.next (u.raiseFrame f.val) = _
  unfold State.raiseFrame
  rw [hu, if_neg (by simp), if_neg (by simpa using hstate), if_neg (by rw [show u.domainOn = s.domainOn from rfl, hon]; simp),
    if_neg (by rw [show u.power = s.power from rfl, hawake]; simp), if_neg (by rw [show u.clockOn = s.clockOn from rfl, hclk]; simp)]

/-- A frame of which a domain is off asks for its domains (R395, R441). -/
theorem exec_frameDemandWake_of_unpowered (hstate : (s.frame f.val).state ≠ .run) (hdemand : s.frameDemand f.val = true)
    (h64 : s.domainOn 64 = true) (hoff : (frameDomains f.val).all s.domainOn = false) :
    exec (.frameDemandWake f) s =
      .next ((frameDomains f.val).foldl State.powerUp (s.modFrame f.val fun x => { x with waking := true })) := by
  change execFrameDemandWake f s = _
  rw [execFrameDemandWake, if_pos (by simp [hstate, hdemand, h64])]
  let u := s.modFrame f.val fun x => { x with waking := true }
  have hu : u.frame f.val = { s.frame f.val with waking := true } := s.modFrame_frame_same _ _
  change Host.Outcome.next (u.raiseFrame f.val) = Host.Outcome.next ((frameDomains f.val).foldl State.powerUp u)
  unfold State.raiseFrame
  rw [hu, if_neg (by simp), if_neg (by simpa using hstate), if_pos (by rw [show u.domainOn = s.domainOn from rfl, hoff]; rfl)]

theorem exec_frameRunToIdle_of_idle (hstate : (s.frame f.val).state = .run) (hdemand : s.frameDemand f.val = false) :
    exec (.frameRunToIdle f) s = .next ((s.modFrame f.val fun x => { x with state := .idle }).clockDown f.val) :=
  congrArg Host.Outcome.next (if_pos (by rw [hstate, hdemand]; rfl))

theorem exec_frameIdleToNap_of_idle (hstate : (s.frame f.val).state = .idle) (hwaking : (s.frame f.val).waking = false)
    (hpolicy : 2 ≤ (s.frame f.val).policy.toNat) (hdemand : s.frameDemand f.val = false)
    (hon : (frameDomains f.val).all s.domainOn = true) :
    exec (.frameIdleToNap f) s =
      .next ((frameDomains f.val).foldl State.retainUp (s.modFrame f.val fun y => { y with state := .nap })) :=
  congrArg Host.Outcome.next (if_pos (by simp [hstate, hwaking, hpolicy, hdemand, hon]))

theorem exec_frameNapToOff_of_nap (hstate : (s.frame f.val).state = .nap) (hwaking : (s.frame f.val).waking = false)
    (hpolicy : (s.frame f.val).policy = 3) (hdemand : s.frameDemand f.val = false) :
    exec (.frameNapToOff f) s = .next (s.frameOff f.val) :=
  congrArg Host.Outcome.next (if_pos (by simp [hstate, hwaking, hpolicy, hdemand]))

/-- Off, a frame holds nothing, and its power is released (R356, R397). -/
theorem State.frameOff_made (s : State) (f : Nat) :
    s.FrameMade (s.frameOff f) f { s.frame f with state := .off, waking := false, scales := false, scaleRegs := [], tlb := [],
                                                  stats := [], waits := [], slots := [], scrubAt := 0 } := by
  refine (s.modFrame_made f _).request (.foldl _ (fun t d => ?_) _ _ (State.clockDown_changes _ _))
  exact (t.retainDown_changes d).trans (State.powerDown_changes _ d)

theorem State.frameOff_req (s : State) {d : Nat} (hd : d ∈ frameDomains f.val) (hack : s.power.ack.getLsbD d = true) :
    (s.frameOff f.val).power.req.getLsbD d = false := by
  unfold State.frameOff
  extract_lets t
  exact (t.clockDown f.val).domainOffSteps_req hd (by rw [(t.clockDown_onlyRequests f.val).ack]; exact hack)

/-- A frame with demand is not lowered (R395). -/
theorem exec_frameLower_of_demand (h : s.frameDemand f.val = true) :
    exec (.frameRunToIdle f) s = .next s ∧ exec (.frameIdleToNap f) s = .next s ∧ exec (.frameNapToOff f) s = .next s :=
  ⟨congrArg Host.Outcome.next (if_neg (by simp [h])), congrArg Host.Outcome.next (if_neg (by simp [h])),
    congrArg Host.Outcome.next (if_neg (by simp [h]))⟩

/-- A frame without demand is not raised (R395). -/
theorem exec_frameDemandWake_of_no_demand (h : s.frameDemand f.val = false) : exec (.frameDemandWake f) s = .next s :=
  congrArg Host.Outcome.next (if_neg (by simp [h]))

end

/-- Settles O56: each row makes the one frame and asks for its domains and clock. -/
theorem framesFollowTheirDemand : Obligations.FramesFollowTheirDemand := by
  unfold Obligations.FramesFollowTheirDemand
  intro f s x ds only
  refine ⟨fun hstate hdemand h64 => ⟨fun hon hret hclk => ?_, fun hoff => ?_⟩, fun hstate hdemand => ?_,
    fun hstate hwaking hpolicy hdemand hon => ?_, fun hstate hwaking hpolicy hdemand => ?_, exec_frameLower_of_demand,
    exec_frameDemandWake_of_no_demand⟩
  · obtain ⟨hf, honly⟩ := (s.modFrame_made f.val fun x => { x with waking := true }).modFrame
      fun y => { y with state := .run, waking := false, scrubAt := if y.state == .nap then 0 else y.scrubAt }
    exact ⟨_, exec_frameDemandWake_of_granted hstate hdemand h64 hon hret hclk, by rw [hf], by rw [hf], by rw [hf], honly⟩
  · obtain ⟨hf, honly⟩ := (s.modFrame_made f.val fun x => { x with waking := true }).request (State.powerUps_changes _ ds)
    exact ⟨_, exec_frameDemandWake_of_unpowered hstate hdemand h64 hoff, hf, fun d hd hack => State.powerUps_req _ hd hack, honly⟩
  · obtain ⟨hf, honly⟩ := (s.modFrame_made f.val fun x => { x with state := .idle }).request (State.clockDown_changes _ f.val)
    exact ⟨_, exec_frameRunToIdle_of_idle hstate hdemand, hf,
      fun hack => State.clockDown_clkReq (f.isLt.trans (by decide)) hack, honly⟩
  · obtain ⟨hf, honly⟩ := (s.modFrame_made f.val fun x => { x with state := .nap }).request (State.retainUps_changes _ ds)
    exact ⟨_, exec_frameIdleToNap_of_idle hstate hwaking hpolicy hdemand hon, hf, fun d hd hack => State.retainUps_ret _ hd hack, honly⟩
  · obtain ⟨hf, honly⟩ := s.frameOff_made f.val
    exact ⟨_, exec_frameNapToOff_of_nap hstate hwaking hpolicy hdemand, by rw [hf], by rw [hf], by rw [hf], by rw [hf], by rw [hf],
      fun d hd hack => s.frameOff_req hd hack, honly⟩

end Sys2Proof.Machine


/-! # Proofs: known-answer tests of the units (R358, R364, R366, R367, R372)

What numbers drawn from the DRBG, links that fall and records that go out leave of the unit marks, the collector and the keeper;
then the tests and the verb that asks for them. -/
namespace Sys2Proof.Machine

/-! ## The marks of the units (R367) -/

/-- Unit `u` is marked passed. -/
def Sec.passUnit (x : Sec) (u : Nat) : Sec := { passed := setBit x.passed u, failed := clearBit x.failed u }

/-- Unit `u` is marked failed. -/
def Sec.failUnit (x : Sec) (u : Nat) : Sec := { passed := clearBit x.passed u, failed := setBit x.failed u }

section
variable {w : Nat} (b : BitVec w) {i j : Nat} (hj : j < w)
include hj

theorem getLsbD_setBit_eq : (setBit b i).getLsbD j = (decide (i = j) || b.getLsbD j) := by
  rw [Bool.eq_iff_iff, getLsbD_setBit b hj, Bool.or_eq_true, decide_eq_true_eq, or_comm]

theorem getLsbD_clearBit_eq : (clearBit b i).getLsbD j = (!decide (i = j) && b.getLsbD j) := by
  simp only [clearBit, BitVec.getLsbD_and, BitVec.getLsbD_not, BitVec.getLsbD_ofNat, hj, decide_true, Bool.true_and,
    Nat.testBit_two_pow, Bool.and_comm]

end

/-- The marks once the units listed have been tested with the outcome `pass`. -/
def Sec.tested (x : Sec) (us : List Nat) (pass : Nat) : Sec :=
  (us.filter fun u => !bit pass u).foldl Sec.failUnit ((us.filter (bit pass)).foldl Sec.passUnit x)

theorem mem_setBits {n w i : Nat} : i ∈ setBits n w ↔ i < n ∧ bit w i = true := by
  rw [setBits, List.mem_filter, List.mem_range]; rfl

theorem Sec.failUnit_idem (x : Sec) (u : Nat) : (x.failUnit u).failUnit u = x.failUnit u := by
  simp [Sec.failUnit, setBit, clearBit, BitVec.or_assoc, BitVec.and_assoc]

section
variable {i : Nat} (hi : i < 8)
include hi

theorem Sec.foldl_passUnit_bits (l : List Nat) (x : Sec) :
    (l.foldl Sec.passUnit x).passed.getLsbD i = (decide (i ∈ l) || x.passed.getLsbD i) ∧
      (l.foldl Sec.passUnit x).failed.getLsbD i = (!decide (i ∈ l) && x.failed.getLsbD i) := by
  induction l generalizing x with
  | nil => simp
  | cons u r ih =>
    rw [List.foldl_cons, (ih _).1, (ih _).2, Sec.passUnit, getLsbD_setBit_eq _ hi, getLsbD_clearBit_eq _ hi]
    by_cases hu : u = i
    · subst hu; simp
    · simp [hu, Ne.symm hu]

theorem Sec.foldl_failUnit_bits (l : List Nat) (x : Sec) :
    (l.foldl Sec.failUnit x).passed.getLsbD i = (!decide (i ∈ l) && x.passed.getLsbD i) ∧
      (l.foldl Sec.failUnit x).failed.getLsbD i = (decide (i ∈ l) || x.failed.getLsbD i) := by
  induction l generalizing x with
  | nil => simp
  | cons u r ih =>
    rw [List.foldl_cons, (ih _).1, (ih _).2, Sec.failUnit, getLsbD_setBit_eq _ hi, getLsbD_clearBit_eq _ hi]
    by_cases hu : u = i
    · subst hu; simp
    · simp [hu, Ne.symm hu]

theorem Sec.failUnit_bits_other (x : Sec) {u : Nat} (hu : i ≠ u) :
    (x.failUnit u).passed.getLsbD i = x.passed.getLsbD i ∧ (x.failUnit u).failed.getLsbD i = x.failed.getLsbD i := by
  rw [Sec.failUnit, getLsbD_setBit_eq _ hi, getLsbD_clearBit_eq _ hi]
  simp [hu.symm]

theorem Sec.tested_of_mem {us : List Nat} (h : i ∈ us) (x : Sec) (pass : Nat) :
    (x.tested us pass).passed.getLsbD i = bit pass i ∧ (x.tested us pass).failed.getLsbD i = !bit pass i := by
  rw [Sec.tested, (Sec.foldl_failUnit_bits hi _ _).1, (Sec.foldl_failUnit_bits hi _ _).2, (Sec.foldl_passUnit_bits hi _ _).1,
    (Sec.foldl_passUnit_bits hi _ _).2]
  cases hb : bit pass i <;> simp [h, hb]

theorem Sec.tested_of_not_mem {us : List Nat} (h : i ∉ us) (x : Sec) (pass : Nat) :
    (x.tested us pass).passed.getLsbD i = x.passed.getLsbD i ∧ (x.tested us pass).failed.getLsbD i = x.failed.getLsbD i := by
  rw [Sec.tested, (Sec.foldl_failUnit_bits hi _ _).1, (Sec.foldl_failUnit_bits hi _ _).2, (Sec.foldl_passUnit_bits hi _ _).1,
    (Sec.foldl_passUnit_bits hi _ _).2]
  simp [h]

end

/-! ## Numbers drawn (R357, R358) -/

/-- The status bits that are set stay set. -/
def State.KeepsStat (s t : State) : Prop := ∀ j, s.faults.stat.getLsbD j = true → t.faults.stat.getLsbD j = true

theorem State.KeepsStat.of_eq {s t : State} (h : t.faults = s.faults) : s.KeepsStat t := fun j hj => by rw [h]; exact hj

theorem State.KeepsStat.trans {s t u : State} (h : s.KeepsStat t) (k : t.KeepsStat u) : s.KeepsStat u := fun j hj => k j (h j hj)

/-- What drawing `n` numbers leaves: the keeper but for its DRBG, and, unless the calls reach the reseeding at which a health test
can fail unit 7, the marks and the collector. -/
structure State.OnlyDraws (n : Nat) (s t : State) : Prop where
  keeper : { t.keeper with drbg := none, drbgCalls := 0 } = { s.keeper with drbg := none, drbgCalls := 0 }
  calls : t.keeper.drbgCalls ≤ s.keeper.drbgCalls + n
  ready : t.fabric.ready = s.fabric.ready
  marks : t.sec = s.sec ∧ t.faults = s.faults ∨
    65536 ≤ s.keeper.drbgCalls + n ∧ 0 < n ∧ t.sec = s.sec.failUnit 7 ∧ s.KeepsStat t

namespace State.OnlyDraws
variable {n m : Nat} {s t u : State}

theorem of_parts (hk : t.keeper = s.keeper) (hr : t.fabric.ready = s.fabric.ready) (hs : t.sec = s.sec) (hf : t.faults = s.faults) :
    s.OnlyDraws n t := ⟨by rw [hk], hk ▸ Nat.le_add_right _ _, hr, .inl ⟨hs, hf⟩⟩

theorem refl (n : Nat) (s : State) : s.OnlyDraws n s := of_parts rfl rfl rfl rfl

theorem trans (h : s.OnlyDraws n t) (k : t.OnlyDraws m u) : s.OnlyDraws (n + m) u := by
  refine ⟨k.keeper.trans h.keeper, ?_, k.ready.trans h.ready, ?_⟩
  · have := h.calls
    have := k.calls
    omega
  · have hcalls := h.calls
    rcases h.marks with ⟨hs, hf⟩ | ⟨hn, hpos, hs, hf⟩ <;> rcases k.marks with ⟨ks, kf⟩ | ⟨kn, kpos, ks, kf⟩
    · exact .inl ⟨ks.trans hs, kf.trans hf⟩
    · exact .inr ⟨by omega, by omega, by rw [ks, hs], (KeepsStat.of_eq hf).trans kf⟩
    · exact .inr ⟨by omega, by omega, by rw [ks, hs], hf.trans (.of_eq kf)⟩
    · exact .inr ⟨by omega, by omega, by rw [ks, hs, Sec.failUnit_idem], hf.trans kf⟩

theorem mono (h : s.OnlyDraws n t) (hnm : n ≤ m) : s.OnlyDraws m t :=
  ⟨h.keeper, h.calls.trans (by omega), h.ready, h.marks.imp id fun ⟨hn, hpos, hrest⟩ => ⟨by omega, by omega, hrest⟩⟩

theorem ite {c : Prop} [Decidable c] (h : s.OnlyDraws n t) (k : s.OnlyDraws n u) : s.OnlyDraws n (if c then t else u) := by
  split <;> assumption

theorem foldl {α : Type} {f : State → α → State} (hf : ∀ (t : State) a, t.OnlyDraws n (f t a)) (l : List α) (s : State) :
    s.OnlyDraws (l.length * n) (l.foldl f s) := by
  induction l generalizing s with
  | nil => exact refl _ s
  | cons a r ih => exact ((hf s a).trans (ih _)).mono (by rw [List.length_cons, Nat.succ_mul]; omega)

theorem verbs (h : s.OnlyDraws n t) : t.keeper.verbs = s.keeper.verbs :=
  (congrArg Keeper.verbs h.keeper :)

end State.OnlyDraws

section
variable (s : State)

theorem State.zeroiseKeeper_ready : s.zeroiseKeeper.fabric.ready = s.fabric.ready := by
  have hfold (l : List Nat) (t : State) : (l.foldl (fun t i => t.modLink i Link.dropEphemeral) t).fabric.ready = t.fabric.ready := by
    induction l generalizing t with
    | nil => rfl
    | cons i r ih => exact ih _
  rw [State.zeroiseKeeper_eq, hfold, State.foldl_dropSeeds_changes _ _ .fabric (by decide)]
  rfl

/-- A failed health test fails unit 7, and takes the DRBG with it (R358, R367, R372). -/
theorem State.healthFailed_keeper : s.healthFailed.keeper = { s.keeper with drbg := none, drbgCalls := 0 } := by
  unfold State.healthFailed
  extract_lets t
  rw [State.zeroiseKeeper_keeper, State.raise_keeper]

theorem State.healthFailed_sec : s.healthFailed.sec = s.sec.failUnit 7 := by
  unfold State.healthFailed
  extract_lets t
  rw [State.zeroiseKeeper_changes _ .sec (by decide), State.raise_sec]
  rfl

theorem State.healthFailed_keepsStat : s.KeepsStat s.healthFailed := fun j hj => by
  unfold State.healthFailed
  extract_lets t
  rw [State.zeroiseKeeper_changes _ .faults (by decide)]
  exact State.raiseWith_stat_keeps (s := t) hj _ _ _

theorem State.healthFailed_ready : s.healthFailed.fabric.ready = s.fabric.ready := by
  unfold State.healthFailed
  extract_lets t
  rw [State.zeroiseKeeper_ready, State.raise_changes _ _ .fabric (by decide)]

theorem State.reseed_of_unhealthy {s : State} (h : s.entropy.1.2 = false) : s.reseed = s.entropy.2.healthFailed := by
  unfold State.reseed
  extract_lets p
  rw [if_neg (by rw [show p.1.2 = false from h]; decide)]

theorem State.generate_onlyDraws : s.OnlyDraws 1 s.generate.2 := by
  unfold State.generate
  extract_lets g u
  have hcalls : u.keeper.drbgCalls = s.keeper.drbgCalls + 1 := rfl
  split
  next h =>
    dsimp only
    have hkeeper : u.entropy.2.keeper = u.keeper := u.entropy_changes .keeper (by decide)
    have hsec : u.entropy.2.sec = s.sec := u.entropy_changes .sec (by decide)
    have hfaults : u.entropy.2.faults = s.faults := u.entropy_changes .faults (by decide)
    have hfabric : u.entropy.2.fabric = s.fabric := u.entropy_changes .fabric (by decide)
    cases hhealth : u.entropy.1.2 with
    | true =>
      rw [State.reseed_of_healthy hhealth]
      refine ⟨?_, Nat.zero_le _, congrArg (·.ready) hfabric, .inl ⟨hsec, hfaults⟩⟩
      rw [State.modKeeper_keeper, hkeeper]
      rfl
    | false =>
      rw [State.reseed_of_unhealthy hhealth]
      refine ⟨?_, ?_, ?_, .inr ⟨hcalls ▸ h, by decide, ?_, (KeepsStat.of_eq hfaults).trans (State.healthFailed_keepsStat _)⟩⟩
      · rw [State.healthFailed_keeper, hkeeper]
        rfl
      · rw [State.healthFailed_keeper]
        exact Nat.zero_le _
      · rw [State.healthFailed_ready, hfabric]
      · rw [State.healthFailed_sec, hsec]
  next => exact ⟨rfl, hcalls.le, rfl, .inl ⟨rfl, rfl⟩⟩

theorem State.sendRecord_onlyDraws (l : Nat) (epub : Bytes) : s.OnlyDraws 1 (s.sendRecord l epub) := by
  unfold State.sendRecord
  extract_lets x h p rec_ u
  exact s.generate_onlyDraws.trans (m := 0) (.of_parts rfl rfl rfl rfl)

theorem State.waggleResend_onlyDraws (l : Nat) : s.OnlyDraws 1 (s.waggleResend l) :=
  .ite (s.sendRecord_onlyDraws _ _) (.refl _ s)

theorem State.resendAll_onlyDraws : s.OnlyDraws 18 s.resendAll := .foldl State.waggleResend_onlyDraws linkNos s

theorem State.waggleStart_onlyDraws (l : Nat) : s.OnlyDraws 2 (s.waggleStart l) := by
  unfold State.waggleStart
  extract_lets x p
  refine .ite (.refl _ s) (.ite ((s.sendRecord_onlyDraws _ _).mono (by decide)) ?_)
  have hp : s.OnlyDraws 1 p.2 := s.generate_onlyDraws
  have hmod : p.2.OnlyDraws 0 (p.2.modLink l fun x => { x with ephPriv := p.1 }) := .of_parts rfl rfl rfl rfl
  exact (hp.trans hmod).trans (State.sendRecord_onlyDraws _ _ _)

end

/-! ## Links that fall, and records that are judged (R269, R272, R278, R279) -/

/-- The keeper's registers without what ends with a verb and what the DRBG holds. -/
def Keeper.core (k : Keeper) : Keeper := { k with verbs := [], kmq := [], relayMemo := [], drbg := none, drbgCalls := 0 }

/-- What links that fall, records that go out and `n` numbers drawn for them leave: the keeper's core, every verb but a rekey, the
status bits, and, unless the calls reach a reseeding, the marks of the units. -/
structure State.KeepsCourse (n : Nat) (s t : State) : Prop where
  core : t.keeper.core = s.keeper.core
  verb : ∀ o v, s.verb o = some v → reqVerb v.req ≠ 0x0A02 → t.verb o = some v
  calls : t.keeper.drbgCalls ≤ s.keeper.drbgCalls + n
  stat : s.KeepsStat t
  sec : t.sec = s.sec ∨ 65536 ≤ s.keeper.drbgCalls + n ∧ 0 < n ∧ t.sec = s.sec.failUnit 7

namespace State.KeepsCourse
variable {n m : Nat} {s t u : State}

theorem of_keeper (hk : t.keeper = s.keeper) (hs : t.sec = s.sec) (hf : s.KeepsStat t) : s.KeepsCourse n t :=
  ⟨by rw [hk], fun o v h _ => by rw [State.verb, hk]; exact h, hk ▸ Nat.le_add_right _ _, hf, .inl hs⟩

theorem of_changes {ps : List Part} (h : OnlyChanges ps s t) (hp : .keeper ∉ ps ∧ .sec ∉ ps ∧ .faults ∉ ps) : s.KeepsCourse n t :=
  of_keeper (h .keeper hp.1) (h .sec hp.2.1) (.of_eq (h .faults hp.2.2))

theorem refl (n : Nat) (s : State) : s.KeepsCourse n s := of_keeper rfl rfl fun _ => id

theorem of_draws (h : s.OnlyDraws n t) : s.KeepsCourse n t := by
  refine ⟨(congrArg Keeper.core h.keeper :), fun o v hv _ => ?_, h.calls, ?_, ?_⟩
  · rw [State.verb, h.verbs]; exact hv
  · exact h.marks.elim (fun ⟨_, hf⟩ => .of_eq hf) fun ⟨_, _, _, hf⟩ => hf
  · exact h.marks.imp (fun ⟨hs, _⟩ => hs) fun ⟨hn, hpos, hs, _⟩ => ⟨hn, hpos, hs⟩

theorem raiseWith (s : State) (c : FaultCap) (ev : Option EvRec) (q : Bool) : s.KeepsCourse n (s.raiseWith c ev q) :=
  of_keeper (State.raiseWith_keeper _ _ _ _) (State.raiseWith_sec _ _ _ _) fun _ h => State.raiseWith_stat_keeps h _ _ _

theorem trans (h : s.KeepsCourse n t) (k : t.KeepsCourse m u) : s.KeepsCourse (n + m) u := by
  have hcalls := h.calls
  have kcalls := k.calls
  refine ⟨k.core.trans h.core, fun o v hv hne => k.verb o v (h.verb o v hv hne) hne, by omega, h.stat.trans k.stat, ?_⟩
  rcases h.sec with hs | ⟨hn, hpos, hs⟩ <;> rcases k.sec with ks | ⟨kn, kpos, ks⟩
  · exact .inl (ks.trans hs)
  · exact .inr ⟨by omega, by omega, by rw [ks, hs]⟩
  · exact .inr ⟨by omega, by omega, by rw [ks, hs]⟩
  · exact .inr ⟨by omega, by omega, by rw [ks, hs, Sec.failUnit_idem]⟩

/-- After what draws nothing. -/
theorem after (h : s.KeepsCourse 0 t) (k : t.KeepsCourse n u) : s.KeepsCourse n u := by
  simpa only [Nat.zero_add] using h.trans k

theorem mono (h : s.KeepsCourse n t) (hnm : n ≤ m) : s.KeepsCourse m t :=
  ⟨h.core, h.verb, h.calls.trans (by omega), h.stat, h.sec.imp id fun ⟨hn, hpos, hs⟩ => ⟨by omega, by omega, hs⟩⟩

theorem ite {c : Prop} [Decidable c] (h : s.KeepsCourse n t) (k : s.KeepsCourse n u) : s.KeepsCourse n (if c then t else u) := by
  split <;> assumption

theorem foldl {α : Type} {f : State → α → State} (hf : ∀ (t : State) a, t.KeepsCourse n (f t a)) (l : List α) (s : State) :
    s.KeepsCourse (l.length * n) (l.foldl f s) := by
  induction l generalizing s with
  | nil => exact refl _ s
  | cons a r ih => exact ((hf s a).trans (ih _)).mono (by rw [List.length_cons, Nat.succ_mul]; omega)

end State.KeepsCourse

open State (KeepsCourse)

section
variable (s : State)

omit s in
theorem State.finish_of_relay {v : VerbProg} {chip : ChipNo} (hv : v.origin = .relay chip) (s : State) (st d : Nat) (res : Bytes) :
    s.finish v st d res = ((s.logVerb v st d).modKeeper fun k => k.endVerb (.relay chip)).relayRespond chip (reqSeq v.req)
      (responseBytes s v st d res) := by
  cases v
  cases hv
  rfl

/-- What the end of a verb writes of the keeper: its verbs and requests, and the answers kept for relays. -/
theorem State.finish_keeper (v : VerbProg) (st d : Nat) (res : Bytes) :
    ∃ memo, (s.finish v st d res).keeper = { s.keeper.endVerb v.origin with relayMemo := memo } := by
  have hlog : (s.logVerb v st d).keeper = s.keeper := s.logVerb_keeper v st d
  cases ho : v.origin with
  | mbox m =>
    refine ⟨s.keeper.relayMemo, ?_⟩
    rw [State.finish_of_mbox ho, State.modMbox_changes _ _ _ .keeper (by decide), State.modKeeper_keeper, hlog]
    rfl
  | relay chip =>
    rw [State.finish_of_relay ho, State.relayRespond, State.sendMsg_changes _ _ .keeper (by decide), State.modKeeper_keeper, State.modKeeper_keeper, hlog]
    exact ⟨_, rfl⟩

/-- The end of a verb leaves the keeper's core. -/
theorem State.finish_core (v : VerbProg) (st d : Nat) (res : Bytes) : (s.finish v st d res).keeper.core = s.keeper.core := by
  obtain ⟨memo, h⟩ := s.finish_keeper v st d res
  rw [h]
  rfl

theorem State.finish_calls (v : VerbProg) (st d : Nat) (res : Bytes) :
    (s.finish v st d res).keeper.drbgCalls = s.keeper.drbgCalls := by
  obtain ⟨memo, h⟩ := s.finish_keeper v st d res
  rw [h]
  rfl

/-- The end of a verb leaves the verbs of other origins. -/
theorem State.finish_verb_other {v : VerbProg} {o : Origin} (h : v.origin ≠ o) (st d : Nat) (res : Bytes) :
    (s.finish v st d res).verb o = s.verb o := by
  rw [State.verb, State.finish_verbs, List.find?_filter, State.verb]
  refine congrArg (fun p => List.find? p s.keeper.verbs) (funext fun w => ?_)
  by_cases hw : w.origin = o
  · simp [hw, h.symm]
  · simp [hw]

/-- The end of a rekey leaves the other verbs. -/
theorem State.verbEnd_keepsCourse (o : Origin) (st d : Nat) (res : Bytes) : s.KeepsCourse 0 (s.verbEnd o 0x0A02 st d res) := by
  unfold State.verbEnd
  split
  next w hw =>
    split
    next => exact .refl 0 s
    next hcode =>
      have hrekey : reqVerb w.req = 0x0A02 := by
        simp only [Bool.not_eq_true', Bool.not_eq_false, Bool.and_eq_true, decide_eq_true_eq] at hcode
        exact hcode.1
      have hfinish (st d : Nat) (res : Bytes) : s.KeepsCourse 0 (s.finish w st d res) := by
        have hchg := s.finish_changes w st d res
        refine ⟨s.finish_core w st d res, fun p v hv hne => ?_, (s.finish_calls w st d res).le, .of_eq (hchg .faults (by decide)),
          .inl (hchg .sec (by decide))⟩
        refine (s.finish_verb_other (fun hp => hne ?_) st d res).trans hv
        obtain rfl : o = p := (State.origin_of_verb hw).symm.trans hp
        obtain rfl : w = v := Option.some.inj (hw.symm.trans hv)
        exact hrekey
      exact .ite (hfinish _ _ _) (hfinish _ _ _)
  next => exact .refl 0 s

theorem State.linkLost_keepsCourse (l : Nat) (x : Link) (cause : Nat) (fault : Bool) : s.KeepsCourse 0 (s.linkLost l x cause fault) := by
  unfold State.linkLost
  extract_lets ev groups reads reset s₁ s₂ s₃ s₄ s₅ s₆
  have h₁ : s.KeepsCourse 0 s₁ := .of_changes
    ((s.setLink_changes l _).trans ((State.dropTransit_changes _ x).trans (State.bufSettleAll_changes _))) (by decide)
  have h₂ : s₁.KeepsCourse 0 s₂ := .ite (.raiseWith s₁ _ _ _) (.of_changes (s₁.event_changes _) (by decide))
  have h₃ : s₂.KeepsCourse 0 s₃ := .ite (.of_changes (s₂.partnerLost_changes _) (by decide)) (.refl 0 s₂)
  have h₄ : s₃.KeepsCourse 0 s₄ := .foldl (n := 0) (fun t e => .of_changes (t.failGroup_changes _ _ _ _) (by decide)) groups s₃
  have h₅ : s₄.KeepsCourse 0 s₅ := .foldl (n := 0) (fun t e => .of_changes (t.readAgain_changes _ _) (by decide)) reads s₄
  have h₆ : s₅.KeepsCourse 0 s₆ := .foldl (n := 0) (fun t c => .of_changes (t.noRoute_changes c) (by decide)) chipNos s₅
  have hend : s.KeepsCourse 0 s₆ := ((((h₁.after h₂).after h₃).after h₄).after h₅).after h₆
  clear_value s₆
  split
  · exact hend.after (s₆.verbEnd_keepsCourse _ _ _ _)
  · exact hend

theorem State.linkDown_keepsCourse (l : Nat) (cause : Option Nat) (fault : Bool) : s.KeepsCourse 0 (s.linkDown l cause fault) := by
  unfold State.linkDown
  extract_lets x p
  have hp : s.KeepsCourse 0 p.2 := .of_changes (s.lossCause_changes cause) (by decide)
  exact .ite (.refl 0 s) (hp.after (p.2.linkLost_keepsCourse _ _ _ _))

theorem State.linkStop_keepsCourse (l : Nat) : s.KeepsCourse 0 (s.linkStop l) :=
  .ite (.of_changes (s.setLink_changes _ _) (by decide)) (s.linkDown_keepsCourse l none true)

theorem State.wagglePass_keepsCourse (l : Nat) (r : Bytes) : s.KeepsCourse 18 (s.wagglePass l r) := by
  unfold State.wagglePass
  extract_lets x was c u v w
  have hu : s.KeepsCourse 0 u := .of_changes (s.setLink_changes _ _) (by decide)
  have hv : u.KeepsCourse 0 v := .ite (.of_changes (u.deriveKeys_changes l) (by decide)) (.refl 0 u)
  refine .ite ((hu.after hv).after (.of_changes (v.noRoute_changes c) (by decide))) ?_
  have hw : v.KeepsCourse 0 w := .of_changes (v.modLink_changes _ _) (by decide)
  have hcalls : w.KeepsCourse 0 ((((w.event (linkEvent l (w.link l) 1 0)).barrierResend c).pump c).noRoute c) :=
    (((KeepsCourse.of_changes (w.event_changes _) (by decide)).after (.of_changes (State.barrierResend_changes _ c) (by decide))).after
      (.of_changes (State.pump_changes _ c) (by decide))).after (.of_changes (State.noRoute_changes _ c) (by decide))
  exact ((hu.after hv).after (hw.after hcalls)).after (.of_draws (State.resendAll_onlyDraws _))

theorem State.judge_keepsCourse (l : Nat) : s.KeepsCourse 18 (s.judge l) := by
  unfold State.judge
  extract_lets x
  split
  · exact .refl 18 s
  · extract_lets serial live
    refine .ite (.refl 18 s) (.ite ?_ ?_)
    · have hraise : s.KeepsCourse 0 (s.linkProtocol l) := .raiseWith s _ _ _
      exact (hraise.after (State.linkDown_keepsCourse _ _ _ _)).mono (by decide)
    · have hmark : s.KeepsCourse 0 (s.modLink l fun x => { x with judged := serial }) := .of_changes (s.modLink_changes _ _) (by decide)
      split
      · refine hmark.after (KeepsCourse.after ?_ (.raiseWith _ _ _ _))
        exact .of_changes (State.modLink_changes _ l fun x => { x with state := .held }) (by decide)
      · exact hmark.after (State.wagglePass_keepsCourse _ l _)

theorem State.enterWaggle_keepsCourse (l : Nat) : s.KeepsCourse 20 (s.enterWaggle l) :=
  (KeepsCourse.of_draws (s.waggleStart_onlyDraws l)).trans (State.judge_keepsCourse _ l)

theorem State.waggleAll_keepsCourse : s.KeepsCourse 360 s.waggleAll :=
  .foldl (fun t l => .ite (t.enterWaggle_keepsCourse l) (.refl 20 t)) linkNos s

/-! ## The tests (R364, R366, R367) -/

theorem State.unitGone_keepsCourse (u : Nat) : s.KeepsCourse 0 (s.unitGone u) := by
  unfold State.unitGone
  extract_lets ls t
  have ht : s.KeepsCourse 0 t := .foldl (n := 0) State.linkStop_keepsCourse ls s
  refine .ite (ht.after ?_) ht
  have hchg := t.zeroiseKeeper_changes
  refine ⟨?_, fun o v hv _ => ?_, ?_, .of_eq (hchg .faults (by decide)), .inl (hchg .sec (by decide))⟩
  · rw [State.zeroiseKeeper_keeper]; rfl
  · rw [State.verb, State.zeroiseKeeper_keeper]; exact hv
  · rw [State.zeroiseKeeper_keeper]; exact Nat.zero_le _

theorem State.seedDrbg_keeper :
    s.seedDrbg.keeper = { s.keeper with drbg := some (Drbg.instantiate s.entropy.1.1), drbgCalls := 0 } := by
  have h : s.entropy.2.keeper = s.keeper := s.entropy_changes .keeper (by decide)
  rw [State.seedDrbg, State.modKeeper_keeper, h]

theorem State.seedDrbg_keepsCourse : s.KeepsCourse 0 s.seedDrbg := by
  have hchg := s.seedDrbg_changes
  refine ⟨?_, fun o v hv _ => ?_, ?_, .of_eq (hchg .faults (by decide)), .inl (hchg .sec (by decide))⟩
  · rw [State.seedDrbg_keeper]; rfl
  · rw [State.verb, State.seedDrbg_keeper]; exact hv
  · rw [State.seedDrbg_keeper]; exact Nat.zero_le _

end

/-- The units tested, before the links are asked for again: `m` has their marks, and from there to `u` what a failure calls for has
been done. -/
structure State.UnitsTested (s m u : State) (mask pass : Nat) : Prop where
  keeper : m.keeper = s.keeper
  marks : m.sec = s.sec.tested (setBits 8 mask) pass
  course : m.KeepsCourse 0 u
  fault : (∃ i ∈ setBits 8 mask, bit pass i = false) → u.faults.stat.getLsbD 47 = true
  seeded : bit (mask &&& pass) 7 = true → u.keeper.drbgCalls = 0

theorem State.foldl_sec {α : Type} (g : Sec → α → Sec) (l : List α) (s : State) :
    l.foldl (fun t a => ({ t with sec := g t.sec a } : State)) s = { s with sec := l.foldl g s.sec } := by
  induction l generalizing s with
  | nil => rfl
  | cons a r ih => exact ih _

theorem State.testUnits_via (s : State) (mask pass kind : Nat) :
    ∃ m u, s.UnitsTested m u mask pass ∧ u.KeepsCourse 360 (s.testUnits mask pass kind) := by
  unfold State.testUnits
  extract_lets us s₁ bad ok ev s₂ s₃ s₄ s₅ s₆ s₇
  have h₁ : OnlyChanges [.fabric] s s₁ := .foldl _ (fun t u => t.idleQuadrant_changes _) _ s (.refl _ s)
  have h₃ : s₃ = { s₁ with sec := s₁.sec.tested us pass } :=
    (State.foldl_sec Sec.failUnit bad s₂).trans (by rw [show s₂ = _ from State.foldl_sec Sec.passUnit ok s₁]; rfl)
  have h₄ : s₃.KeepsCourse 0 s₄ ∧ (bad ≠ [] → s₄.faults.stat.getLsbD 47 = true) := by
    unfold s₄
    clear_value bad
    split
    · exact ⟨.of_changes (s₃.event_changes _) (by decide), fun h => absurd rfl h⟩
    next u r =>
      have hrest (t : State) : t.KeepsCourse 0 (r.foldl (fun t w => t.raiseWith { src := 47, mid := w, sub := w } none true) t) :=
        .foldl (n := 0) (fun t w => .raiseWith t _ _ _) r t
      exact ⟨(KeepsCourse.raiseWith s₃ _ _ _).after (hrest _),
        fun _ => (hrest _).stat 47 (State.raiseWith_stat_self (show 47 < 64 by decide))⟩
  have h₅ : s₄.KeepsCourse 0 s₅ := .foldl (n := 0) State.unitGone_keepsCourse bad s₄
  have h₆ : s₅.KeepsCourse 0 s₆ := .ite s₅.seedDrbg_keepsCourse (.refl 0 s₅)
  have h₇ : s₆.KeepsCourse 0 s₇ := .foldl (n := 0) (fun t l => .of_changes (t.askTraining_changes l) (by decide)) linkNos s₆
  refine ⟨s₃, s₆, ⟨?_, ?_, (h₄.1.after h₅).after h₆, ?_, fun hseed => ?_⟩, h₇.after s₇.waggleAll_keepsCourse⟩
  · rw [h₃]; exact h₁ .keeper (by decide)
  · rw [h₃]; exact congrArg (Sec.tested · us pass) (h₁ .sec (by decide))
  · rintro ⟨i, hi, hfail⟩
    have hbad : bad ≠ [] := List.ne_nil_of_mem (a := i) (List.mem_filter.mpr ⟨hi, by rw [hfail]; rfl⟩)
    exact (h₅.after h₆).stat 47 (h₄.2 hbad)
  · have hs₆ : s₆ = s₅.seedDrbg := if_pos hseed
    rw [hs₆, State.seedDrbg_keeper]

section
variable (s : State) (mask pass kind : Nat)

/-- Testing the units leaves the keeper's core. -/
theorem State.testUnits_core : (s.testUnits mask pass kind).keeper.core = s.keeper.core := by
  obtain ⟨m, u, h, k⟩ := s.testUnits_via mask pass kind
  rw [k.core, h.course.core, h.keeper]

/-- Testing the units ends no verb but a rekey. -/
theorem State.testUnits_verb {o : Origin} {v : VerbProg} (hv : s.verb o = some v) (hne : reqVerb v.req ≠ 0x0A02) :
    (s.testUnits mask pass kind).verb o = some v := by
  obtain ⟨m, u, h, k⟩ := s.testUnits_via mask pass kind
  refine k.verb o v (h.course.verb o v ?_ hne) hne
  rw [State.verb, h.keeper]; exact hv

/-- A unit that fails its test raises source 47. -/
theorem State.testUnits_stat (hbad : ∃ i ∈ setBits 8 mask, bit pass i = false) :
    (s.testUnits mask pass kind).faults.stat.getLsbD 47 = true := by
  obtain ⟨m, u, h, k⟩ := s.testUnits_via mask pass kind
  exact k.stat 47 (h.fault hbad)

variable {i : Nat} (hi : i < 8)
include hi

/-- A unit that was tested is marked with its outcome: when unit 7 passes, the DRBG is seeded anew, too late for a reseeding. -/
theorem State.testUnits_sec_of_mem (h : i ∈ setBits 8 mask) :
    (s.testUnits mask pass kind).sec.passed.getLsbD i = bit pass i ∧ (s.testUnits mask pass kind).sec.failed.getLsbD i = !bit pass i := by
  obtain ⟨m, u, ht, k⟩ := s.testUnits_via mask pass kind
  have hu : u.sec = s.sec.tested (setBits 8 mask) pass := (ht.course.sec.resolve_right (by omega)).trans ht.marks
  have hbits := Sec.tested_of_mem hi h s.sec pass
  rcases k.sec with hk | ⟨hcalls, -, hk⟩
  · rw [hk, hu]; exact hbits
  · rw [hk, hu]
    rcases eq_or_ne i 7 with rfl | h7
    · have hfail : bit pass 7 = false := by
        by_contra hpass
        have hseed := ht.seeded (by
          rw [bit, Nat.testBit_and]
          exact Bool.and_eq_true_iff.mpr ⟨(mem_setBits.mp h).2, Bool.of_not_eq_false hpass⟩)
        omega
      rw [hfail, Sec.failUnit, getLsbD_setBit_eq _ hi, getLsbD_clearBit_eq _ hi]
      exact ⟨rfl, rfl⟩
    · rw [(Sec.failUnit_bits_other hi _ h7).1, (Sec.failUnit_bits_other hi _ h7).2]; exact hbits

/-- A unit that was not tested keeps its marks; unit 7 may meet a failed health test when the DRBG is reseeded. -/
theorem State.testUnits_sec_of_not_mem (h : i ∉ setBits 8 mask) (hcalls : i ≠ 7 ∨ s.keeper.drbgCalls < 60000) :
    (s.testUnits mask pass kind).sec.passed.getLsbD i = s.sec.passed.getLsbD i ∧
      (s.testUnits mask pass kind).sec.failed.getLsbD i = s.sec.failed.getLsbD i := by
  obtain ⟨m, u, ht, k⟩ := s.testUnits_via mask pass kind
  have hu : u.sec = s.sec.tested (setBits 8 mask) pass := (ht.course.sec.resolve_right (by omega)).trans ht.marks
  have hbits := Sec.tested_of_not_mem hi h s.sec pass
  rcases k.sec with hk | ⟨hk360, -, hk⟩
  · rw [hk, hu]; exact hbits
  · have hu0 := ht.course.calls
    rw [ht.keeper] at hu0
    have h7 : i ≠ 7 := hcalls.resolve_right (by omega)
    rw [hk, hu, (Sec.failUnit_bits_other hi _ h7).1, (Sec.failUnit_bits_other hi _ h7).2]; exact hbits

end

/-! ## The verb (R364, R367) -/

section
variable {s : State} {o : Origin} {pass : BitVec 8} {v : VerbProg} (h : Turn s o 0x0800 v)
include h

/-- While a unit is not ready, only its power is asked for. -/
theorem exec_testKat_of_not_idle (hidle : (setBits 8 (par v.req 16 1)).all s.unitIdle = false) :
    ∃ t, exec (.testKat o pass) s = .next t ∧ OnlyChanges [.power] s t := by
  refine ⟨_, next_runVerb_of_turn h (if_pos (by rw [hidle]; rfl)), .foldl _ (fun t u => ?_) _ s (.refl _ s)⟩
  exact .ite (t.powerUp_changes _) (.ite (t.powerUp_changes _) (.refl _ t))

/-- With all units ready the tests run, and the verb answers with the pass mask. -/
theorem exec_testKat_of_idle (hidle : (setBits 8 (par v.req 16 1)).all s.unitIdle = true) :
    exec (.testKat o pass) s = .next ((s.testUnits (par v.req 16 1) pass.toNat 1).finish v
      (match (setBits 8 (par v.req 16 1)).find? fun i => !pass.getLsbD i with | some _ => kTestFailed | none => kOK)
      (((setBits 8 (par v.req 16 1)).find? fun i => !pass.getLsbD i).getD 0) (leBytes 1 (par v.req 16 1 &&& pass.toNat))) := by
  have hverb : (s.testUnits (par v.req 16 1) pass.toNat 1).verb o = some v :=
    s.testUnits_verb _ _ _ h.verb_eq (by rw [h.code_eq]; decide)
  refine next_runVerb_of_turn h ?_
  extract_lets mask us t res
  have hres : res = leBytes 1 (par v.req 16 1 &&& pass.toNat) := results_bytes _
  rw [if_neg (by rw [show us.all s.unitIdle = true from hidle]; decide), hres]
  cases us.find? fun i => !pass.getLsbD i with
  | none => exact State.verbDone_of_verb hverb _ _ _
  | some u => exact State.verbDone_of_verb hverb _ _ _

end

/-- Settles O25: the verb tests the units, whose marks the consequences of a failure leave but for unit 7's. -/
theorem testKatMarksTheUnits : Obligations.TestKatMarksTheUnits := by
  unfold Obligations.TestKatMarksTheUnits
  intro o pass v s h us
  refine ⟨exec_testKat_of_not_idle h, fun hidle =>
    ⟨_, exec_testKat_of_idle h hidle, rfl, State.finish_verb (State.origin_of_verb h.verb_eq) _ _ _ _, fun i hi => ?_⟩⟩
  rw [State.finish_changes _ _ _ _ _ .sec (by decide)]
  exact ⟨fun hmem => s.testUnits_sec_of_mem _ _ _ hi hmem, fun hmem => s.testUnits_sec_of_not_mem _ _ _ hi hmem⟩

end Sys2Proof.Machine


/-! # Proofs: boot and start-up (R362, R365, R426, R428 to R432) -/
namespace Sys2Proof.Machine

open State (KeepsCourse OnlyDraws)

/-! ## The boot ROM loads an image (R428, R429) -/

section
variable (s : State)

theorem State.bootFailed_keeper : s.bootFailed.keeper =
    { s.keeper with state := 3, phase := .auth, kbGo := false, bootGot := [], bootAsked := [] } := by
  unfold State.bootFailed
  extract_lets t
  rw [State.raiseWith_keeper]
  rfl

theorem State.bootFailed_stat : s.bootFailed.faults.stat.getLsbD 47 = true := by
  unfold State.bootFailed
  extract_lets t
  exact State.raiseWith_stat_self (show 47 < 64 by decide)

/-- The registers once a KB_GO in the boot ROM's wait has been taken. -/
def State.kbTaken (a : BitVec 56) : State := s.modKeeper fun k => { k with kbAddr := a, kbGo := true, state := 1, phase := .auth }

end

section
variable {s : State} {w : Word} (hgo : w.getLsbD 63 = true) (hawake : s.cpAwake = true)
  (hwait : (s.keeper.state = 0 ∧ s.keeper.phase = .bootRom) ∨ (s.keeper.state = 3 ∧ s.keeper.phase ≠ .bootRom))
include hgo hawake hwait

theorem exec_kbGo_of_waiting : exec (.kbGo w) s = .next
    (if (w.setWidth 56 : BitVec 56).toNat % 256 ≠ 0 ∨ bits (w.setWidth 56 : BitVec 56).toNat 55 50 ≠ s.inp.chipId.toNat then
      (s.kbTaken (w.setWidth 56)).bootFailed else (s.kbTaken (w.setWidth 56)).bootStart .kbGo (w.setWidth 56)) := by
  have hwaits : (s.keeper.state == 0 && s.keeper.phase == .bootRom || s.keeper.state == 3 && s.keeper.phase != .bootRom) = true := by
    simpa using hwait
  change execKbGo w s = _
  rw [execKbGo, if_pos (by rw [hgo, hawake]; rfl)]
  unfold State.kbWrite
  extract_lets t waits a u
  have hw : waits = true := hwaits
  rw [if_neg (by rw [hgo, hw]; decide)]
  simp only [Bool.or_eq_true, decide_eq_true_eq]
  rfl

end

/-! ## The verdict on the image (R362, R429, R434) -/

section
variable (s : State)

theorem State.hiveStart_keeper (i : FwImage) : (s.hiveStart i).keeper =
    { s.keeper with running := i, phase := .tests, kbGo := false, bootGot := [], bootAsked := [], loaded := none, testsDone := false } := by
  unfold State.hiveStart
  extract_lets t
  rw [State.powerUp_changes _ _ .keeper (by decide), State.powerUp_changes _ _ .keeper (by decide)]
  rfl

/-- The tests need domains 62 and 63 (R431). -/
theorem State.hiveStart_req (i : FwImage) {d : Nat} (hd : d ∈ [62, 63]) (hack : s.power.ack.getLsbD d = false) :
    (s.hiveStart i).power.req.getLsbD d = true := by
  unfold State.hiveStart
  extract_lets t
  rcases List.mem_pair.mp hd with rfl | rfl
  · exact State.powerUp_req_keeps (by decide) (State.powerUp_req (s := t) (by decide) hack)
  · refine State.powerUp_req (by decide) ?_
    rw [(t.powerUp_onlyRequests 62).ack]
    exact hack

end

/-- The length of the image that the boot ROM has in hand, by its header. -/
def Keeper.bootLen (k : Keeper) : Nat := 256 + imageBody (k.bootBytes 256)

/-- The image that the boot ROM has in hand, as its header describes it. -/
def Keeper.bootImage (k : Keeper) : FwImage := imageOf k.bootAddr.toNat k.bootLen (k.bootBytes k.bootLen)

/-- The first check that the image in hand fails (R362). -/
def State.bootFault (s : State) : Option (Nat × Nat) := s.imageFault (s.keeper.bootBytes s.keeper.bootLen) s.keeper.bootLen none

/-- The checks read no more of the keeper than its fuses. -/
theorem State.imageFault_congr {s t : State} (hrevoke : t.keeper.idRevoke = s.keeper.idRevoke)
    (hfloor : t.keeper.idFloor = s.keeper.idFloor) (b : Bytes) (len : Nat) (r : Option Nat) :
    t.imageFault b len r = s.imageFault b len r := by
  unfold State.imageFault
  rw [hrevoke, hfloor]

/-- The image as read is copied to the keeper's memory (log entry 144). -/
def State.imageCopied (s : State) : State := s.modKeeper fun k => { k with mem := k.bootGot }

section
variable {s : State} (hstate : s.keeper.state = 1) (hphase : s.keeper.phase ∈ [.auth, .ready])
  (hidle : s.keeper.kmq.any (fun r => r.owner == .boot) = false) (hwhy : s.keeper.bootWhy = .kbGo)
include hstate hphase hidle hwhy

theorem exec_bootAuthDone_of_failed (hfail : s.keeper.bootFail = true) :
    exec .bootAuthDone s = .next s.imageCopied.bootFailed := by
  have hready : (s.keeper.phase == .auth || s.keeper.phase == .ready) = true := by simpa using hphase
  change execBootAuthDone s = _
  unfold execBootAuthDone
  extract_lets k reading body b sec len t
  rw [if_neg (by simp [k, reading, hstate, hready, hidle, hfail])]
  have htwhy : t.keeper.bootWhy = .kbGo := hwhy
  simp only [State.bootVerdict, htwhy, show k.bootFail = true from hfail, Bool.not_true, Bool.false_and]
  rfl

theorem exec_bootAuthDone_of_read (hread : s.keeper.bootFail = false) (hasked : s.keeper.bootAsked.contains 0 = true)
    (hlen : imageBody (s.keeper.bootBytes 256) ≤ 458752) : exec .bootAuthDone s = .next
      (if s.bootFault = none then
        (s.imageCopied.hiveStart s.keeper.bootImage).modKeeper fun k => { k with powerUpImage := s.keeper.bootImage }
      else s.imageCopied.bootFailed) := by
  have hready : (s.keeper.phase == .auth || s.keeper.phase == .ready) = true := by simpa using hphase
  change execBootAuthDone s = _
  unfold execBootAuthDone
  extract_lets k reading body b sec len t
  rw [if_neg (by simp [k, reading, hstate, hready, hidle, hread, -List.contains_eq_mem, hasked])]
  have hb : b = s.keeper.bootBytes s.keeper.bootLen := if_pos hlen
  have hsec : sec = none := by simp only [sec, k, hwhy]
  have hl : len = s.keeper.bootLen := by simp only [len, k, body, hwhy, Keeper.bootLen]
  have hfault : t.imageFault b len sec = s.bootFault := by
    rw [hb, hsec, hl, State.bootFault]
    exact State.imageFault_congr (s := s) (t := t) rfl rfl _ _ _
  have himage : imageOf k.bootAddr.toNat len b = s.keeper.bootImage := by rw [hb, hl]; rfl
  have htwhy : t.keeper.bootWhy = .kbGo := hwhy
  rw [hfault, himage]
  simp only [State.bootVerdict, htwhy, show k.bootFail = false from hread, Bool.not_false, Bool.true_and, Option.isNone_iff_eq_none]
  rfl

end

/-- Settles O30: a KB_GO starts the load or fails, and so does the image once it has been read. -/
theorem bootLoadsACheckedImage : Obligations.BootLoadsACheckedImage := by
  unfold Obligations.BootLoadsACheckedImage
  refine ⟨fun w s hgo hawake hwait => ?_, fun s hstate hphase hidle hwhy => ⟨fun hfail => ?_, fun hread hasked hlen => ?_⟩⟩
  · rw [exec_kbGo_of_waiting hgo hawake hwait]
    refine ⟨_, rfl, ?_⟩
    split
    next hbad =>
      rw [State.bootFailed_keeper]
      refine ⟨rfl, rfl, rfl, fun halign hlocal => ?_, fun _ => ⟨rfl, rfl, State.bootFailed_stat _⟩⟩
      exact absurd hbad (not_or.mpr ⟨not_not.mpr halign, not_not.mpr hlocal⟩)
    next hgood => exact ⟨rfl, rfl, rfl, fun _ _ => ⟨rfl, rfl, rfl, rfl, rfl, rfl, rfl⟩, fun hodd => absurd (.inl hodd) hgood⟩
  · refine ⟨_, exec_bootAuthDone_of_failed hstate hphase hidle hwhy hfail, ?_, ?_, State.bootFailed_stat _, ?_⟩
    all_goals rw [State.bootFailed_keeper]
    rfl
  · intro b i
    have hexec := exec_bootAuthDone_of_read hstate hphase hidle hwhy hread hasked hlen
    by_cases hnone : s.bootFault = none
    · rw [if_pos hnone] at hexec
      have hkeeper := s.imageCopied.hiveStart_keeper s.keeper.bootImage
      have hcopied : OnlyChanges [.keeper, .power] s s.imageCopied := (s.modKeeper_changes _).mono (by decide)
      exact ⟨_, hexec, fun _ => ⟨(congrArg Keeper.running hkeeper :), rfl, (congrArg Keeper.mem hkeeper :),
        (congrArg Keeper.phase hkeeper :), (congrArg Keeper.testsDone hkeeper :),
        fun d hd hack => s.imageCopied.hiveStart_req _ hd hack,
        (hcopied.trans (s.imageCopied.hiveStart_changes _)).step (State.modKeeper_changes _ _) (by decide)⟩,
        fun hsome => absurd hnone hsome⟩
    · rw [if_neg hnone] at hexec
      refine ⟨_, hexec, fun h => absurd h hnone, fun _ => ⟨?_, State.bootFailed_stat _, ?_⟩⟩
      all_goals rw [State.bootFailed_keeper]
      rfl

/-! ## The stack map (R430) -/

/-- A range kept unless it overlaps one kept before. -/
def keepRange (ms : List MapRange) (p : MapRecord × Nat) : List MapRange :=
  match mapCut p.2 p.1 with
  | none => ms
  | some r => if ms.any r.overlaps then ms else ms ++ [r]

/-- One record of the stack map taken: its range is kept, or the overlap is reported. -/
def State.takeRange (t : State) (p : MapRecord × Nat) : State :=
  match mapCut p.2 p.1 with
  | none => t
  | some r =>
    if t.keeper.stackMap.any r.overlaps then t.raise { src := 61, addr := p.2 }
    else t.modKeeper fun k => { k with stackMap := k.stackMap ++ [r] }

theorem State.takeRange_stackMap (t : State) (p : MapRecord × Nat) :
    (t.takeRange p).keeper.stackMap = keepRange t.keeper.stackMap p := by
  unfold State.takeRange keepRange
  split
  · rfl
  · split
    · rw [State.raise_keeper]
    · rfl

theorem State.takeRanges_stackMap (s : State) (ps : List (MapRecord × Nat)) :
    (ps.foldl State.takeRange s).keeper.stackMap = ps.foldl keepRange s.keeper.stackMap :=
  (List.foldl_hom (fun t : State => t.keeper.stackMap) fun t p => (t.takeRange_stackMap p).symm).symm

theorem mapCut_idx {i : Nat} {m : MapRecord} {r : MapRange} (h : mapCut i m = some r) : r.idx = i := by
  unfold mapCut at h
  extract_lets lo hi at h
  split at h
  · cases h; rfl
  · cases h

/-- A range that is kept is cut to whole blocks of 32 MiB. -/
theorem mapCut_whole {i : Nat} {m : MapRecord} {r : MapRange} (h : mapCut i m = some r) :
    r.base % 2 ^ 25 = 0 ∧ r.len % 2 ^ 25 = 0 ∧ 0 < r.len := by
  unfold mapCut at h
  extract_lets lo hi at h
  have hlo : lo % 2 ^ 25 = 0 := Nat.mul_mod_left _ _
  have hhi : hi % 2 ^ 25 = 0 := Nat.sub_mod_eq_zero_of_mod_eq (Nat.mod_mod _ _).symm
  clear_value lo hi
  split at h
  next hkept =>
    cases h
    have hlt : lo < hi := of_decide_eq_true (Bool.and_eq_true_iff.mp hkept).2
    exact ⟨hlo, by dsimp only; omega, Nat.sub_pos_of_lt hlt⟩
  next => cases h

theorem MapRange.overlaps_comm (a b : MapRange) : a.overlaps b = b.overlaps a := Bool.and_comm _ _

/-- Ranges kept of records: each is the cut of one, in the order of the indices, and no two overlap. -/
structure KeptOf (ps : List (MapRecord × Nat)) (ms : List MapRange) : Prop where
  cut : ∀ r ∈ ms, ∃ p ∈ ps, mapCut p.2 p.1 = some r
  apart : ms.Pairwise fun a b => a.idx < b.idx ∧ a.overlaps b = false

theorem foldl_keepRange_keptOf {ps : List (MapRecord × Nat)} (h : ps.Pairwise fun p q => p.2 < q.2) :
    KeptOf ps (ps.foldl keepRange []) := by
  induction ps using List.reverseRecOn with
  | nil => exact ⟨fun r hr => absurd hr List.not_mem_nil, .nil⟩
  | append_singleton ps p ih =>
    obtain ⟨hps, -, hlast⟩ := List.pairwise_append.mp h
    obtain ⟨hcut, hapart⟩ := ih hps
    have hcut' : ∀ r ∈ ps.foldl keepRange [], ∃ q ∈ ps ++ [p], mapCut q.2 q.1 = some r := fun r hr => by
      obtain ⟨q, hq, hqr⟩ := hcut r hr
      exact ⟨q, List.mem_append_left _ hq, hqr⟩
    rw [List.foldl_append, List.foldl_cons, List.foldl_nil, keepRange]
    split
    next => exact ⟨hcut', hapart⟩
    next r hr =>
      split
      next => exact ⟨hcut', hapart⟩
      next hfree =>
        refine ⟨fun x hx => ?_, List.pairwise_append.mpr ⟨hapart, List.pairwise_singleton _ _, fun a ha b hb => ?_⟩⟩
        · rcases List.mem_append.mp hx with hx | hx
          · exact hcut' x hx
          · obtain rfl := List.mem_singleton.mp hx
            exact ⟨p, List.mem_append_right _ (List.mem_singleton_self p), hr⟩
        · obtain rfl := List.mem_singleton.mp hb
          obtain ⟨q, hq, hqa⟩ := hcut a ha
          refine ⟨?_, ?_⟩
          · rw [mapCut_idx hqa, mapCut_idx hr]
            exact hlast q hq p (List.mem_singleton_self p)
          · rw [MapRange.overlaps_comm]
            exact Bool.eq_false_iff.mpr fun hover => hfree (List.any_eq_true.mpr ⟨a, ha, hover⟩)

/-- The records of the map, numbered. -/
def mapRecords (i : StaticIn) : List (MapRecord × Nat) := (i.stackMap.take 32).zip (List.range 32)

section
variable {s : State}

theorem exec_stackMapRead_of_unread (hphase : s.keeper.phase = .tests) (hunread : s.keeper.mapDone = false) :
    exec .stackMapRead s =
      .next (((mapRecords s.inp).foldl State.takeRange s).modKeeper fun k => { k with mapDone := true }) := by
  change execStackMapRead s = _
  unfold execStackMapRead
  rw [if_neg (by rw [hphase, hunread]; decide)]
  rfl

theorem mapRecords_increasing {i : StaticIn} (h : i.stackMap.length = 32) : (mapRecords i).Pairwise fun p q => p.2 < q.2 := by
  have hsnd : ((mapRecords i).map Prod.snd).Pairwise (· < ·) := by
    rw [mapRecords, List.map_snd_zip (by simp [h])]
    exact List.pairwise_lt_range
  exact List.pairwise_map.mp hsnd

theorem getElem?_of_mem_mapRecords {i : StaticIn} {p : MapRecord × Nat} (h : p ∈ mapRecords i) :
    i.stackMap[p.2]? = some p.1 := by
  obtain ⟨n, hn, rfl⟩ := List.mem_iff_getElem.mp h
  simp only [mapRecords, List.getElem_zip, List.getElem_range, List.getElem_take]
  exact List.getElem?_eq_getElem _

/-! ## Readiness (R432, R434) -/

/-- The end of interrupted verbs leaves none of them, and no other is one. -/
theorem State.foldl_finish_verbs {f : VerbProg → Bytes} {st d : Nat} (ws : List VerbProg) (s : State) :
    (ws.foldl (fun t v => t.finish v st d (f v)) s).keeper.verbs =
      s.keeper.verbs.filter fun v => decide (∀ w ∈ ws, v.origin ≠ w.origin) := by
  induction ws generalizing s with
  | nil => simp
  | cons w r ih =>
    rw [List.foldl_cons, ih, State.finish_verbs, List.filter_filter]
    refine List.filter_congr fun v _ => ?_
    simp [Bool.and_comm]

/-- The end of a verb moves no more than messages of the fabric transport. -/
theorem State.finish_onlySends (s : State) (v : VerbProg) (st d : Nat) (res : Bytes) : s.OnlySends (s.finish v st d res) := by
  have hlog : s.OnlySends (s.logVerb v st d) := .of_changes (s.logVerb_changes v st d) (by decide)
  cases ho : v.origin with
  | mbox m =>
    rw [State.finish_of_mbox ho]
    exact hlog
  | relay chip =>
    rw [State.finish_of_relay ho, State.relayRespond]
    exact hlog.trans (State.sendMsg_onlySends _ _)

theorem State.OnlySends.ready {s t : State} (h : s.OnlySends t) : t.fabric.ready = s.fabric.ready := (congrArg Fabric.ready h :)

/-- Registers of the keeper's core. -/
theorem Keeper.core_eq {k l : Keeper} (h : k.core = l.core) :
    k.state = l.state ∧ k.phase = l.phase ∧ k.testsDone = l.testsDone ∧ k.trainAsked = l.trainAsked :=
  ⟨(congrArg Keeper.state h :), (congrArg Keeper.phase h :), (congrArg Keeper.testsDone h :), (congrArg Keeper.trainAsked h :)⟩

/-- What the end of verbs leaves. -/
structure State.OnlyEnds (s t : State) : Prop where
  core : t.keeper.core = s.keeper.core
  faults : t.faults = s.faults
  sends : s.OnlySends t

theorem State.foldl_finish_onlyEnds {f : VerbProg → Bytes} {st d : Nat} (ws : List VerbProg) (s : State) :
    s.OnlyEnds (ws.foldl (fun t v => t.finish v st d (f v)) s) := by
  induction ws generalizing s with
  | nil => exact ⟨rfl, rfl, rfl⟩
  | cons w r ih =>
    obtain ⟨hcore, hfaults, hsends⟩ := ih (s.finish w st d (f w))
    exact ⟨hcore.trans (s.finish_core _ _ _ _), hfaults.trans (s.finish_changes _ _ _ _ .faults (by decide)),
      (s.finish_onlySends _ _ _ _).trans hsends⟩

/-- The keeper is ready, and the fabric serves (R432). -/
def State.madeReady (s : State) : State :=
  let t := s.modKeeper fun k => { k with state := 2, phase := .ready }
  { t with fabric := { t.fabric with ready := true }, faults := { t.faults with brstRun := false } }

/-- The engine is ready: its records go out again with the start record (R432). -/
def State.announced (s : State) : State := s.madeReady.resendAll.event s.madeReady.startRecord

/-- The verbs that a reset interrupted (R30). -/
def State.interrupted (s : State) : List VerbProg := s.keeper.verbs.filter (·.stage == .interrupted)

theorem exec_readiness_of_done (hphase : s.keeper.phase = .tests) (htests : s.keeper.testsDone = true)
    (hmap : s.keeper.mapDone = true) (hlinks : s.fabric.ready = true ∨ s.linksWait = false) : exec .readiness s =
      .next (s.announced.interrupted.foldl (fun t v => t.finish v kInterrupted 0 []) s.announced) := by
  have hwait : (!s.fabric.ready && s.linksWait) = false := by
    rcases hlinks with h | h <;> rw [h] <;> simp
  change execReadiness s = _
  unfold execReadiness
  extract_lets k t₁ f g t₂ t₃
  rw [if_neg (by simp [k, hphase, htests, hmap, hwait])]
  have h₂ : t₂ = s.madeReady := rfl
  have h₃ : t₃ = s.announced := by rw [show t₃ = t₂.resendAll.event t₂.startRecord from rfl, h₂, State.announced]
  rw [h₃, State.interrupted]

/-- What announcing readiness leaves of the keeper and the collector. -/
theorem State.announced_onlyDraws (s : State) : s.madeReady.OnlyDraws 18 s.announced := by
  have hevent (u : State) (e : EvRec) : u.OnlyDraws 0 (u.event e) :=
    have h := u.event_changes e
    .of_parts (h .keeper (by decide)) (congrArg (·.ready) (h .fabric (by decide))) (h .sec (by decide)) (h .faults (by decide))
  exact s.madeReady.resendAll_onlyDraws.trans (hevent _ _)

/-- No interrupted verb is left once they have ended. -/
theorem State.not_interrupted_of_ended {s : State} {v : VerbProg}
    (h : v ∈ (s.interrupted.foldl (fun t v => t.finish v kInterrupted 0 []) s).keeper.verbs) : v.stage ≠ .interrupted := by
  rw [State.foldl_finish_verbs (f := fun _ => [])] at h
  obtain ⟨hmem, hother⟩ := List.mem_filter.mp h
  intro hstage
  exact of_decide_eq_true hother v (List.mem_filter.mpr ⟨hmem, by rw [hstage]; rfl⟩) rfl

end

/-! ## Start-up (R365, R431) -/

section
variable {s : State}

/-- The tests of start-up are done, and the links may train. -/
def State.testsOver (s : State) : State := s.modKeeper fun k => { k with testsDone := true, trainAsked := true }

/-- The tests of start-up mark every unit. -/
theorem exec_hiveTestsDone_of_idle {pass : BitVec 8} (hphase : s.keeper.phase = .tests) (htests : s.keeper.testsDone = false)
    (hidle : (List.range 8).all s.unitIdle = true) : exec (.hiveTestsDone pass) s =
      .next (s.testsOver.testUnits 0xFF pass.toNat 4) := by
  change execHiveTestsDone pass s = _
  unfold execHiveTestsDone
  rw [if_neg (by simp [hphase, htests, hidle]), State.testsOver]

/-- All units tested, the marks are the outcome. -/
theorem State.testUnits_all_sec (s : State) (pass : BitVec 8) (kind : Nat) :
    (s.testUnits 0xFF pass.toNat kind).sec.passed = pass ∧ (s.testUnits 0xFF pass.toNat kind).sec.failed = ~~~pass := by
  have hall {i : Nat} (hi : i < 8) : i ∈ setBits 8 0xFF := by
    have : setBits 8 0xFF = List.range 8 := by decide
    rw [this, List.mem_range]; exact hi
  constructor <;> refine BitVec.eq_of_getLsbD_eq fun i hi => ?_
  · exact (s.testUnits_sec_of_mem _ _ kind hi (hall hi)).1
  · rw [(s.testUnits_sec_of_mem _ _ kind hi (hall hi)).2, BitVec.getLsbD_not, decide_eq_true hi, Bool.true_and]
    rfl

/-- A unit fails where the outcome is not that all pass. -/
theorem exists_failed_of_ne_allOnes {pass : BitVec 8} (h : pass ≠ BitVec.allOnes 8) :
    ∃ i ∈ setBits 8 0xFF, bit pass.toNat i = false := by
  by_contra hnone
  refine h (BitVec.eq_of_getLsbD_eq fun i hi => ?_)
  have hmem : i ∈ setBits 8 0xFF := by
    have : setBits 8 0xFF = List.range 8 := by decide
    rw [this, List.mem_range]; exact hi
  rw [BitVec.getLsbD_allOnes, decide_eq_true hi]
  by_contra hfail
  exact hnone ⟨i, hmem, Bool.eq_false_iff.mpr hfail⟩

theorem exec_linkStartupTimeout_of_waiting (htests : s.keeper.testsDone = true) (hwait : s.keeper.trainWait = none) :
    exec .linkStartupTimeout s = .next { s with keeper := { s.keeper with trainWait := some (linkNos.filter fun l =>
      (s.link l).state == .measuring || (s.link l).state == .waggle) } } := by
  change execLinkStartupTimeout s = _
  unfold execLinkStartupTimeout
  rw [if_neg (by simp [htests, hwait])]
  rfl

end

/-- Settles O31: the tests mark the units, the stack map is cut and kept apart, and with both done readiness is announced. -/
theorem startUpReachesReadiness : Obligations.StartUpReachesReadiness := by
  unfold Obligations.StartUpReachesReadiness
  refine ⟨fun pass s hphase htests hidle => ?_, fun s hphase hunread hempty hlen => ?_, fun s => exec_linkStartupTimeout_of_waiting,
    fun s hphase htests hmap hlinks => ?_⟩
  · obtain ⟨-, -, htested, hasked⟩ := Keeper.core_eq (s.testsOver.testUnits_core 0xFF pass.toNat 4)
    obtain ⟨hpassed, hfailed⟩ := s.testsOver.testUnits_all_sec pass 4
    rw [show s.testsOver.keeper.testsDone = true from rfl] at htested
    rw [show s.testsOver.keeper.trainAsked = true from rfl] at hasked
    exact ⟨_, exec_hiveTestsDone_of_idle hphase htests hidle, htested, hasked, hpassed, hfailed,
      fun hbad => State.testUnits_stat _ _ _ _ (exists_failed_of_ne_allOnes hbad)⟩
  · have hmap : ((mapRecords s.inp).foldl State.takeRange s).keeper.stackMap = (mapRecords s.inp).foldl keepRange [] := by
      rw [State.takeRanges_stackMap, hempty]
    obtain ⟨hcut, hapart⟩ := foldl_keepRange_keptOf (mapRecords_increasing hlen)
    rw [← hmap] at hcut hapart
    refine ⟨_, exec_stackMapRead_of_unread hphase hunread, rfl, fun r hr => ?_, hapart, fun r hr => ?_⟩
    · obtain ⟨p, hp, hpr⟩ := hcut r hr
      rw [mapCut_idx hpr]
      exact ⟨p.1, getElem?_of_mem_mapRecords hp, hpr⟩
    · obtain ⟨p, -, hpr⟩ := hcut r hr
      exact mapCut_whole hpr
  · have hdraws := s.announced_onlyDraws
    obtain ⟨hcore, hfaults, hsends⟩ := State.foldl_finish_onlyEnds (f := fun _ => []) (st := kInterrupted) (d := 0)
      s.announced.interrupted s.announced
    obtain ⟨hstate, hphase', -, -⟩ := Keeper.core_eq (hcore.trans (KeepsCourse.of_draws hdraws).core)
    refine ⟨_, exec_readiness_of_done hphase htests hmap hlinks, hstate, hphase', hsends.ready.trans hdraws.ready, fun hcalls => ?_,
      fun v => State.not_interrupted_of_ended⟩
    have hfew : ¬ 65536 ≤ s.madeReady.keeper.drbgCalls + 18 := by
      rw [show s.madeReady.keeper.drbgCalls = s.keeper.drbgCalls from rfl]
      omega
    exact hfaults.trans (hdraws.marks.resolve_right fun ⟨hmany, _⟩ => hfew hmany).2

end Sys2Proof.Machine

/-! # Proofs: frame tests and calibration (R370, R371, R405)

What holding, releasing and driving a frame leave of it, what each row of a test does, and a frame table on which a held frame goes
on binding. -/
namespace Sys2Proof.Machine

/-! ## Driving contexts out keeps a frame held (R370) -/

/-- The second frame binds as the first one does. -/
def Frame.BindsAs (x y : Frame) : Prop := y.noBind = x.noBind

theorem Frame.bindsAs_steady : Frame.Steady Frame.BindsAs where
  refl _ := rfl
  trans h k := k.trans h
  halting x cause := by
    rw [Frame.BindsAs, Frame.halting]
    split <;> rfl

section
variable {s : State} {f : Nat}

theorem State.dropSvc_bindsAs (s : State) (c : CtxNo) (id : Nat) : State.FramesVia Frame.BindsAs s (s.dropSvc c id) :=
  .mapFrames (fun _ => rfl) rfl

theorem State.dropSlots_bindsAs (s : State) (c : CtxNo) (id : Nat) : State.FramesVia Frame.BindsAs s (s.dropSlots c id) :=
  .mapFrames (fun _ => rfl) rfl

theorem State.savePartial_bindsAs (s : State) (c : CtxNo) (w : Work) : State.FramesVia Frame.BindsAs s (s.savePartial c w) := by
  have hr := Frame.bindsAs_steady
  unfold State.savePartial
  extract_lets t moved
  have ht : State.FramesVia Frame.BindsAs s t := .trans hr (s.dropSvc_bindsAs c w.id) (State.dropSlots_bindsAs _ c w.id)
  exact .trans hr ht (.of_changes hr (t.modCtx_changes c _) (by decide))

theorem State.drained_bindsAs (s : State) (c : CtxNo) : State.FramesVia Frame.BindsAs s (s.drained c).1 := by
  have hr := Frame.bindsAs_steady
  unfold State.drained
  split
  · exact .of_frames hr rfl
  next w _ =>
    split
    · exact .of_frames hr rfl
    · extract_lets gs openGs
      split
      · exact .foldl hr _ fun t e _ => .of_changes hr (t.pauseLid_changes c w e.1 e.2) (by decide)
      · split
        · exact .of_frames hr rfl
        · exact s.savePartial_bindsAs c w
  · exact .of_frames hr rfl

theorem State.driveOut_bindsAs (s : State) (c : CtxNo) : State.FramesVia Frame.BindsAs s (s.driveOut c) := by
  have hr := Frame.bindsAs_steady
  have hdrained : State.FramesVia Frame.BindsAs s ((s.startLeaving c).drained c).1 :=
    .trans hr (.of_changes hr (s.startLeaving_changes c) (by decide)) (State.drained_bindsAs _ c)
  unfold State.driveOut
  extract_lets x
  split
  · exact .of_frames hr rfl
  · generalize (s.startLeaving c).drained c = p at hdrained ⊢
    obtain ⟨t, done⟩ := p
    refine .trans hr hdrained ?_
    dsimp only
    split
    · exact .of_frames hr rfl
    · split
      · exact .of_changes hr (t.stopIfDone_changes c) (by decide)
      · exact .trans hr (.of_changes hr (t.toState_changes c .ready) (by decide))
          (.of_changes hr (State.unbind_changes _ c) (by decide))

theorem State.driveFrame_bindsAs (s : State) (f : Nat) : State.FramesVia Frame.BindsAs s (s.driveFrame f) := by
  have hr := Frame.bindsAs_steady
  refine .foldl hr _ fun t n _ => ?_
  split
  · exact t.driveOut_bindsAs _
  · exact .of_frames hr rfl

/-- On a frame table in the canonical form a held frame binds nothing. -/
theorem State.holdFrame_noBind_of_wf_frames (hwf : s.frames.wf {} = true) : ((s.holdFrame f).frame f).noBind = true := by
  have hwf₁ : (s.modFrame f fun x => { x with noBind := true }).frames.wf {} = true := Store.wf_set _ _ _ _ hwf
  refine ((State.driveFrame_bindsAs _ f) hwf₁).2 f |>.trans ?_
  rw [State.modFrame_frame_same]

theorem State.driveFrame_of_unbound (h : s.boundIn f = []) : s.driveFrame f = s := by rw [State.driveFrame, h]; rfl

/-! ## A released frame (R371) -/

/-- Lowering a frame leaves what it is held by. -/
theorem State.backTo_holds (s : State) (f : Nat) (was : FrameState) :
    ((s.backTo f was).frame f).noBind = (s.frame f).noBind ∧ ((s.backTo f was).frame f).testHold = (s.frame f).testHold := by
  unfold State.backTo
  split
  · exact ⟨rfl, rfl⟩
  · split
    · obtain ⟨hf, -, -⟩ := (s.modFrame_made f fun x => { x with state := .nap }).request
        ((State.clockDown_changes _ f).trans (State.retainUps_changes _ (frameDomains f)))
      rw [hf]
      exact ⟨rfl, rfl⟩
    · rw [(s.frameOff_made f).1]
      exact ⟨rfl, rfl⟩
    · exact ⟨rfl, rfl⟩

/-- The end of a test gives the frame back to binding and to its fabric requester. -/
theorem State.endHeld_frees (s : State) (f : Nat) (was : FrameState) :
    ((s.endHeld f was).frame f).noBind = false ∧ ((s.endHeld f was).frame f).testHold = false := by
  obtain ⟨hbind, hhold⟩ := State.backTo_holds (({ s with ftest := none } : State).releaseFrame f) f was
  have hfree : (({ s with ftest := none } : State).releaseFrame f).frame f = { s.frame f with noBind := false, testHold := false } := by
    rw [State.releaseFrame, State.frame_congr (State.letStay_changes _ f .frames (by decide)), State.modFrame_frame_same]
    rfl
  rw [hfree] at hbind hhold
  exact ⟨hbind, hhold⟩

end

/-! ## The first frame of a mask (R370, R405) -/

section
variable {s : State} {o : Origin} {v : VerbProg} {f : Nat} {rest : List Nat} {cal : Bool}

/-- The test of frame `f`, in state `was`, as the first of its mask. -/
def FrameTest.first (o : Origin) (cal : Bool) (f : Nat) (rest : List Nat) (was : FrameState) : FrameTest :=
  { origin := o, cal := cal, todo := rest, failed := [], retry := false, cur := some f, started := true, wasState := was, passed := 0,
    undrained := 0 }

theorem State.beginFrameTest_of_first {mask : Nat} (hcancel : s.cancelled o = false) (hnone : s.ftest = none)
    (hmask : setBits 16 mask = f :: rest) : s.beginFrameTest o cal mask =
      ({ s.verbDrains o with ftest := some (.first o cal f rest (s.frame f).state) } : State).holdFrame f := by
  have hcancel' : ¬ (s.verbDrains o).cancelled o = true := by
    rw [show (s.verbDrains o).cancelled o = s.cancelled o from by cases o <;> rfl, hcancel]
    exact Bool.false_ne_true
  rw [State.beginFrameTest, if_neg (by rw [hnone]; exact Bool.false_ne_true), State.nextFrameTest]
  simp only [hmask]
  exact if_neg hcancel'

/-- A verb that starts to work through frames holds the lowest of its mask, on a frame table in the canonical form. -/
theorem State.beginFrameTest_holds_of_wf_frames {mask : Nat} (hwf : s.frames.wf {} = true) (hcancel : s.cancelled o = false)
    (hnone : s.ftest = none) (hmask : setBits 16 mask = f :: rest) (hv : s.verb o = some v) :
    let t := s.beginFrameTest o cal mask
    (t.frame f).noBind = true ∧ t.verb o = some { v with stage := .draining } ∧
      t.ftest = some (.first o cal f rest (s.frame f).state) := by
  rw [State.beginFrameTest_of_first hcancel hnone hmask]
  refine ⟨State.holdFrame_noBind_of_wf_frames hwf, ?_, State.holdFrame_changes _ f .ftest (by decide)⟩
  rw [State.verb_of_changes (State.holdFrame_changes _ f) (by decide)]
  exact State.verbDrains_verb hv

theorem exec_testFrame_of_turn (h : Turn s o 0x0801 v) :
    exec (.testFrame o) s = .next (s.beginFrameTest o false (par v.req 16 2)) := next_runVerb_of_turn h rfl

theorem exec_calRun_of_trims (h : Turn s o 0x0802 v) (htask : par v.req 16 1 = 1) :
    exec (.calRun o) s = .next (s.beginFrameTest o true 0xFFFF) := next_runVerb_of_turn h (if_pos htask)

/-- On a frame table in the canonical form test.frame holds the lowest frame of its mask. -/
theorem testFrame_holds_of_wf_frames (hwf : s.frames.wf {} = true) (hcancel : s.cancelled o = false) (hnone : s.ftest = none)
    (h : Turn s o 0x0801 v) (hmask : setBits 16 (par v.req 16 2) = f :: rest) :
    ∃ t, exec (.testFrame o) s = .next t ∧ (t.frame f).noBind = true ∧ t.verb o = some { v with stage := .draining } ∧
      t.ftest = some (.first o false f rest (s.frame f).state) :=
  ⟨_, exec_testFrame_of_turn h, State.beginFrameTest_holds_of_wf_frames hwf hcancel hnone hmask h.verb_eq⟩

/-- On a frame table in the canonical form cal.run task 1 holds frame 0. -/
theorem calRun_holds_of_wf_frames (hwf : s.frames.wf {} = true) (hcancel : s.cancelled o = false) (hnone : s.ftest = none)
    (h : Turn s o 0x0802 v) (htask : par v.req 16 1 = 1) :
    ∃ t, exec (.calRun o) s = .next t ∧ (t.frame 0).noBind = true ∧ t.verb o = some { v with stage := .draining } ∧
      t.ftest = some (.first o true 0 ((List.range 15).map (· + 1)) (s.frame 0).state) :=
  ⟨_, exec_calRun_of_trims h htask, State.beginFrameTest_holds_of_wf_frames hwf hcancel hnone (by decide) h.verb_eq⟩

/-! ## Echoes of every link in service (R405) -/

/-- A link in service asked for 8 echoes. -/
def Link.echoed (x : Link) : Link := if x.state == .service then { x with echoes := [], echoDue := x.echoDue + 8 } else x

/-- Link `l` is asked for 8 echoes if it is in service. -/
def State.echoLink (s : State) (l : Nat) : State :=
  if (s.link l).state == .service then s.modLink l fun x => { x with echoes := [], echoDue := x.echoDue + 8 } else s

theorem Link.echoed_of_service {x : Link} (h : x.state = .service) :
    x.echoed = { x with echoes := [], echoDue := x.echoDue + 8 } := if_pos (by rw [h]; rfl)

theorem State.echoLink_link_same (s : State) (l : Nat) : (s.echoLink l).link l = (s.link l).echoed := by
  unfold State.echoLink Link.echoed
  split
  · exact s.modLink_link_same l _
  · rfl

theorem State.echoLink_link_other (s : State) (l : Nat) {k : Nat} (h : k ≠ l) : (s.echoLink l).link k = s.link k := by
  unfold State.echoLink
  split
  · exact s.modLink_link_other _ h
  · rfl

theorem State.echoLink_changes (s : State) (l : Nat) : OnlyChanges [.fabric] s (s.echoLink l) :=
  .ite (s.modLink_changes l _) (.refl _ s)

/-- Every link in service is asked for 8 echoes. -/
def State.echoLinks (s : State) : State := linkNos.foldl State.echoLink s

theorem State.echoLinks_changes (s : State) : OnlyChanges [.fabric] s s.echoLinks :=
  .foldl _ State.echoLink_changes linkNos s (.refl _ s)

theorem State.echoLinks_link (s : State) {l : Nat} (hl : l ∈ linkNos) : s.echoLinks.link l = (s.link l).echoed :=
  (foldl_upd_get (get := State.link) State.echoLink_link_same (fun t i _ => t.echoLink_link_other i) List.nodup_range s l).trans
    (if_pos hl)

theorem State.verbDrains_link (s : State) (o : Origin) (l : Nat) : (s.verbDrains o).link l = s.link l := by
  rw [State.link, State.verbDrains_changes s o .fabric (by decide), State.link]

/-- A link that still waits for its echoes keeps the verb waiting. -/
theorem State.calLinks_of_waiting {s : State} {l : Nat} (hl : l ∈ linkNos) (hserv : (s.link l).state = .service)
    (hfew : (s.link l).echoes.length < 8) : s.calLinks = s := by
  unfold State.calLinks
  extract_lets ls
  have hmem : l ∈ ls := List.mem_filter.mpr ⟨hl, by rw [hserv]; rfl⟩
  refine if_neg fun hall => ?_
  have hmany : 8 ≤ (s.link l).echoes.length := of_decide_eq_true (List.all_eq_true.mp hall l hmem)
  omega

/-- A link in service is asked for 8 echoes as the verb starts to wait for them. -/
theorem State.echoLinks_verbDrains_link {l : Nat} (hl : l ∈ linkNos) (hserv : (s.link l).state = .service) :
    (s.echoLinks.verbDrains o).link l = { s.link l with echoes := [], echoDue := (s.link l).echoDue + 8 } := by
  rw [State.verbDrains_link, s.echoLinks_link hl, Link.echoed_of_service hserv]

theorem exec_calRun_of_echoes {l : Nat} (h : Turn s o 0x0802 v) (htask : par v.req 16 1 ≠ 1) (hl : l ∈ linkNos)
    (hserv : (s.link l).state = .service) : exec (.calRun o) s = .next (s.echoLinks.verbDrains o) := by
  have hlink := State.echoLinks_verbDrains_link (o := o) hl hserv
  have hwait : (s.echoLinks.verbDrains o).calLinks = s.echoLinks.verbDrains o :=
    State.calLinks_of_waiting hl (by rw [hlink]; exact hserv) (by rw [hlink]; exact Nat.zero_lt_succ 7)
  refine next_runVerb_of_turn h ((if_neg htask).trans ?_)
  exact hwait

/-- cal.run task 2 asks every link in service for 8 echoes, and waits for them. -/
theorem calRun_echoes (h : Turn s o 0x0802 v) (htask : par v.req 16 1 ≠ 1) (hserv : ∃ l ∈ linkNos, (s.link l).state = .service) :
    ∃ t, exec (.calRun o) s = .next t ∧ t.frames = s.frames ∧ t.verb o = some { v with stage := .draining } ∧
      ∀ l ∈ linkNos, (s.link l).state = .service → t.link l = { s.link l with echoes := [], echoDue := (s.link l).echoDue + 8 } := by
  obtain ⟨k, hk, hkserv⟩ := hserv
  have hverb : s.echoLinks.verb o = some v := by rw [State.verb_of_changes s.echoLinks_changes (by decide), h.verb_eq]
  have hlinks : s.echoLinks.frames = s.frames := s.echoLinks_changes .frames (by decide)
  have hdrains : (s.echoLinks.verbDrains o).frames = s.echoLinks.frames := State.verbDrains_changes _ o .frames (by decide)
  exact ⟨s.echoLinks.verbDrains o, exec_calRun_of_echoes h htask hk hkserv, hdrains.trans hlinks, State.verbDrains_verb hverb,
    fun l hl hl' => State.echoLinks_verbDrains_link hl hl'⟩

end

/-! ## The end of a frame's test (R370, R371, R405) -/

section
variable {s : State} {x : FrameTest} {f : Nat} {pass : Bool}

/-- The frame of a test whose body has run is released: its fabric requester was held, and a test zeroised its free slots. -/
def State.tested (s : State) (x : FrameTest) (f : Nat) : State :=
  let h := if (s.frame f).stopped then s else s.holdFabric f
  (if x.cal then h else h.modFrame f Frame.zeroFree).endHeld f x.wasState

theorem State.tested_frees (s : State) (x : FrameTest) (f : Nat) :
    ((s.tested x f).frame f).noBind = false ∧ ((s.tested x f).frame f).testHold = false := State.endHeld_frees _ f x.wasState

/-- Whether the body of a frame's test may run: stopped, or empty and running (R370). -/
def State.testable (s : State) (f : Nat) : Prop :=
  (s.frame f).stopped = true ∨
    ((s.frame f).state = .run ∧ (s.frame f).stopped = false ∧ s.boundIn f = [] ∧ s.frameEmpty f = true)

theorem State.holdFabric_frameEmpty (s : State) (f : Nat) : (s.holdFabric f).frameEmpty f = s.frameEmpty f := by
  unfold State.holdFabric
  split
  · unfold State.frameEmpty
    rw [State.modFrame_frame_same]
    rfl
  · rfl

/-- The outcome of the body is noted, and the next frame taken. -/
theorem exec_frameTestDrainEnd_of_testable (hx : s.ftest = some x) (hcur : x.cur = some f) (hstarted : x.started = true)
    (htest : s.testable f) : exec (.frameTestDrainEnd pass) s =
      .next ((if x.cal || pass then s.tested x f else (s.tested x f).raise { src := 47, mid := 16 + f, sub := 16 + f }).nextFrameTest
        { x with passed := if x.cal || pass then setBit x.passed f else x.passed,
                 failed := if x.cal || pass then x.failed else x.failed ++ [f] }) := by
  change execFrameTestDrainEnd pass s = _
  unfold execFrameTestDrainEnd State.tested
  simp only [hx, hcur]
  rcases htest with hstop | ⟨hrun, hstop, hunbound, hempty⟩
  · rw [if_neg (by simp [hstarted, hstop])]
    simp only [hstop, Bool.not_true, Bool.false_and, Bool.false_eq_true, if_false, if_true]
  · rw [if_neg (by simp [hstarted, hrun])]
    simp only [hstop, Bool.not_false, Bool.true_and, Bool.false_eq_true, if_false, State.driveFrame_of_unbound hunbound,
      State.holdFabric_frameEmpty, hempty, Bool.not_true]

/-- The frame is released, and a test that passes, or a trim, counts it. -/
theorem exec_frameTestDrainEnd_of_passed (hx : s.ftest = some x) (hcur : x.cur = some f) (hstarted : x.started = true)
    (htest : s.testable f) (hok : x.cal = true ∨ pass = true) : exec (.frameTestDrainEnd pass) s =
      .next ((s.tested x f).nextFrameTest { x with passed := setBit x.passed f }) := by
  rw [exec_frameTestDrainEnd_of_testable hx hcur hstarted htest, (Bool.or_eq_true _ _).mpr hok]
  rfl

/-- The frame is released, and a test that fails raises source 47 with its unit. -/
theorem exec_frameTestDrainEnd_of_failed (hx : s.ftest = some x) (hcur : x.cur = some f) (hstarted : x.started = true)
    (htest : s.testable f) (hcal : x.cal = false) (hpass : pass = false) : exec (.frameTestDrainEnd pass) s =
      .next (((s.tested x f).raise { src := 47, mid := 16 + f, sub := 16 + f }).nextFrameTest { x with failed := x.failed ++ [f] }) := by
  rw [exec_frameTestDrainEnd_of_testable hx hcur hstarted htest, hcal, hpass]
  rfl

/-! ## A drain that takes too long (R371) -/

theorem exec_frameTestDrainTimeout_of_held (hx : s.ftest = some x) (hcur : x.cur = some f) (hhold : (s.frame f).testHold = true) :
    exec .frameTestDrainTimeout s = .next s := by
  change execFrameTestDrainTimeout s = _
  simp [execFrameTestDrainTimeout, hx, hcur, hhold]

/-- The first time the frame is released, to be tried once more. -/
theorem exec_frameTestDrainTimeout_of_first (hx : s.ftest = some x) (hcur : x.cur = some f) (hstop : (s.frame f).stopped = false)
    (hstarted : x.started = true) (hhold : (s.frame f).testHold = false) (hretry : x.retry = false) :
    exec .frameTestDrainTimeout s = .next { s.releaseFrame f with ftest := some { x with started := false, retry := true } } := by
  change execFrameTestDrainTimeout s = _
  simp [execFrameTestDrainTimeout, hx, hcur, hstop, hstarted, hhold, hretry]

/-- The second time it stays untested. -/
theorem exec_frameTestDrainTimeout_of_second (hx : s.ftest = some x) (hcur : x.cur = some f) (hstop : (s.frame f).stopped = false)
    (hstarted : x.started = true) (hhold : (s.frame f).testHold = false) (hretry : x.retry = true) :
    exec .frameTestDrainTimeout s =
      .next (((s.releaseFrame f).endHeld f x.wasState).nextFrameTest { x with undrained := setBit x.undrained f }) := by
  change execFrameTestDrainTimeout s = _
  simp [execFrameTestDrainTimeout, hx, hcur, hstop, hstarted, hhold, hretry]

theorem exec_frameTestRetry_of_released (hx : s.ftest = some x) (hcur : x.cur = some f) (hstarted : x.started = false)
    (hretry : x.retry = true) :
    exec .frameTestRetry s = .next (({ s with ftest := some { x with started := true } } : State).holdFrame f) := by
  change execFrameTestRetry s = _
  simp [execFrameTestRetry, hx, hcur, hstarted, hretry]

end

/-! ## The statement over every state -/

/-- A test.frame verb of mailbox 0 that names frame 0. -/
def frameTestVerb : VerbProg :=
  { origin := .mbox 0, req := leBytes 2 0x0801 ++ zeros 14 ++ leBytes 2 1 ++ zeros 110, accepted := 0, stage := .run, got := [],
    readFail := false, asked := [], acc := 0 }

/-- Frame 0, which the frame table lists twice: running, with a copy of context 0 at a resume point, then as after reset. -/
def twiceListedTest : State :=
  { State.reset with
    keeper := { State.reset.keeper with state := 2, verbs := [frameTestVerb] }
    frames := [(0, { state := .run }), (0, {})]
    chans := [(0, { ctx := some 0 })]
    ctxs := [(0, { state := .running, bound := true,
                   works := [{ State.reset.newWork 0 {} 0 1 0 (zeros 128) [] with kind := .copy }] })] }

/-- Saving the copy rewrites the table from its last entry of each index, so the frame that was held is gone. -/
theorem twiceListedTest_beginFrameTest_frame : (twiceListedTest.beginFrameTest (.mbox 0) false 1).frame 0 = {} := by decide

/-- Refutes O26: on a frame table that lists an index twice (no table in the canonical form does) the frame that test.frame takes goes
on binding: saving the descriptor of a context that is driven out rewrites the table from the last entry of each index. The other
clauses, and this one for a table in the canonical form, are `testFrame_holds_of_wf_frames`, `calRun_holds_of_wf_frames`,
`calRun_echoes`, `State.tested_frees`, `exec_frameTestDrainEnd_of_passed`, `exec_frameTestDrainEnd_of_failed`,
`exec_frameTestDrainTimeout_of_held`, `exec_frameTestDrainTimeout_of_first`, `exec_frameTestDrainTimeout_of_second` and
`exec_frameTestRetry_of_released`. -/
theorem not_frameTestsGoFrameByFrame : ¬ Obligations.FrameTestsGoFrameByFrame := by
  intro h
  have hturn : Turn twiceListedTest (.mbox 0) 0x0801 frameTestVerb := by unfold Turn; decide
  have hmask : par frameTestVerb.req 16 2 = 1 := by decide
  obtain ⟨t, ht, hheld, -⟩ := (h.1 (.mbox 0) frameTestVerb 0 [] twiceListedTest rfl rfl).1 hturn (by rw [hmask]; decide)
  have hexec : exec (.testFrame (.mbox 0)) twiceListedTest = .next (twiceListedTest.beginFrameTest (.mbox 0) false 1) := by
    rw [exec_testFrame_of_turn hturn, hmask]
  obtain rfl : twiceListedTest.beginFrameTest (.mbox 0) false 1 = t := Host.Outcome.next.inj (hexec.symm.trans ht)
  rw [twiceListedTest_beginFrameTest_frame] at hheld
  exact absurd hheld (by decide)

end Sys2Proof.Machine

/-! # Proofs: fault status bits, captures and counts (R375 to R383, R387)

A raising changes the collector by one record update, and the recorder's queue by one record; the clauses are read off these two. -/
namespace Sys2Proof.Machine

/-! ## The collector after a raising (R375, R377 to R384) -/

/-- Whether a fault fills the capture: none is held, or it outranks the one held (R381). -/
def Faults.fills (f : Faults) (c : FaultCap) (now : Word) : Bool := !f.valid || f.outranks c.src now

/-- The collector once a fault of severity `sev` and configuration `cfg` is raised. -/
def Faults.raised (f : Faults) (c : FaultCap) (sev : Nat) (cfg : BitVec 9) (now : Word) : Faults :=
  let fills := decide (2 ≤ sev) && f.fills c now
  let merges := decide (2 ≤ sev) && f.valid
  let reacts (i : Nat) := sev != 0 && cfg.getLsbD i
  { f with
    stat := f.stat ||| BitVec.ofNat 64 (2 ^ (c.src % 64))
    cap0 := if fills then cap0Word c true false else f.cap0
    cap1 := if fills then cap1Word c else f.cap1
    cap2 := if fills then (if c.noTime then 0 else now) else f.cap2
    merges := if merges then satAdd f.merges 1 else f.merges
    mergeSat := f.mergeSat || merges && decide (f.merges = 0xFFFF)
    corr := if sev = 1 then satAdd f.corr 1 else f.corr
    pinLow := f.pinLow || reacts 8
    pinMin := f.pinMin || reacts 8 && !f.pinLow
    brst := f.brst || reacts 6 && !f.brstRun
    crst := f.crst || reacts 7
    halted := f.halted || decide (sev = 3) }

theorem Faults.pinFault_eq (f : Faults) : f.pinFault = { f with pinLow := true, pinMin := f.pinMin || !f.pinLow } := by
  obtain ⟨_, _, _, _, _, _, _, _, _, _, _, low, min⟩ := f
  cases low <;> cases min <;> rfl

theorem Faults.react_eq (f : Faults) (cfg : BitVec 9) : f.react cfg = { f with
    pinLow := f.pinLow || cfg.getLsbD 8
    pinMin := f.pinMin || cfg.getLsbD 8 && !f.pinLow
    brst := f.brst || cfg.getLsbD 6 && !f.brstRun
    crst := f.crst || cfg.getLsbD 7 } := by
  have hpin (g : Faults) (b : Bool) : (if b then g.pinFault else g) =
      { g with pinLow := g.pinLow || b, pinMin := g.pinMin || b && !g.pinLow } := by
    cases b <;> simp [Faults.pinFault_eq]
  have hbrst (g : Faults) (b : Bool) : (if b then { g with brst := true } else g) = { g with brst := g.brst || b } := by
    cases b <;> simp
  have hcrst (g : Faults) (b : Bool) : (if b then { g with crst := true } else g) = { g with crst := g.crst || b } := by
    cases b <;> simp
  rw [Faults.react, hpin, hbrst, hcrst]

theorem Faults.capture_of_invalid {f : Faults} (h : f.valid = false) (c : FaultCap) (now : Word) :
    f.capture c now = f.fill c now := if_neg (by rw [h]; decide)

theorem Faults.capture_of_valid {f : Faults} (h : f.valid = true) (c : FaultCap) (now : Word) :
    f.capture c now = { (if f.outranks c.src now then f.fill c now else f) with
      merges := satAdd f.merges 1, mergeSat := f.mergeSat || decide (f.merges = 0xFFFF) } := by
  simp only [Faults.capture, h, if_true]
  cases f.outranks c.src now <;> simp [Faults.fill]

/-- What a fault of severity `sev` leaves before it reacts: it is counted, or captured or merged (R377, R382). -/
theorem Faults.noted_eq (f : Faults) (c : FaultCap) {sev : Nat} (h : sev ≠ 0) (now : Word) :
    (if sev = 1 then { f with corr := satAdd f.corr 1 } else f.capture c now) = { f with
      cap0 := if decide (2 ≤ sev) && f.fills c now then cap0Word c true false else f.cap0
      cap1 := if decide (2 ≤ sev) && f.fills c now then cap1Word c else f.cap1
      cap2 := if decide (2 ≤ sev) && f.fills c now then (if c.noTime then 0 else now) else f.cap2
      merges := if decide (2 ≤ sev) && f.valid then satAdd f.merges 1 else f.merges
      mergeSat := f.mergeSat || (decide (2 ≤ sev) && f.valid) && decide (f.merges = 0xFFFF)
      corr := if sev = 1 then satAdd f.corr 1 else f.corr } := by
  by_cases h1 : sev = 1
  · simp [h1]
  · have h2 : 2 ≤ sev := by omega
    cases hv : f.valid with
    | false => simp [h1, h2, hv, Faults.fills, Faults.capture_of_invalid hv, Faults.fill]
    | true => cases ho : f.outranks c.src now <;> simp [h1, h2, hv, ho, Faults.fills, Faults.capture_of_valid hv, Faults.fill]

theorem State.halt_if_faults (s : State) (p : Prop) [Decidable p] :
    (if p then s.halt else s).faults = { s.faults with halted := s.faults.halted || decide p } := by
  split
  next h => simp [State.halt, h]
  next h => simp [h]

theorem State.raiseWith_faults (s : State) (c : FaultCap) (ev : Option EvRec) (q : Bool) :
    (s.raiseWith c ev q).faults = s.faults.raised c (s.severity c.src) (s.fltCfg c.src) s.ptime := by
  unfold State.raiseWith
  extract_lets sev cfg s₁ lower first merged s₀ s₂ rec0 s₃ s₄ s₅ s₆
  by_cases h : sev = 0
  · rw [if_pos h, show s.severity c.src = 0 from h]
    simp [Faults.raised, s₁]
  · have h₀ : s₀.faults = s₁.faults ∧ s₀.ptime = s.ptime := by
      unfold s₀
      split <;> exact ⟨rfl, rfl⟩
    have h₂ : s₂.faults = if sev = 1 then { s₁.faults with corr := satAdd s₁.faults.corr 1 } else s₁.faults.capture c s.ptime := by
      rw [← h₀.1, ← h₀.2]
      unfold s₂
      split <;> rfl
    have h₆ : s₆.faults = s₂.faults.react cfg := by
      simp [s₆, s₅, s₄, s₃, apply_ite State.faults]
    rw [Faults.noted_eq _ _ h] at h₂
    have hsev : (sev != 0) = true := by simpa using h
    rw [if_neg h, State.halt_if_faults, h₆, h₂, Faults.react_eq]
    simp only [Faults.raised, show s.severity c.src = sev from rfl, hsev, Bool.true_and]
    rfl

theorem State.raise_faults (s : State) (c : FaultCap) :
    (s.raise c).faults = s.faults.raised c (s.severity c.src) (s.fltCfg c.src) s.ptime := s.raiseWith_faults c none false

@[simp] theorem State.raise_fltCfg (s : State) (c : FaultCap) (n : Nat) : (s.raise c).fltCfg n = s.fltCfg n := by
  rw [State.fltCfg, State.raise_faults]
  rfl

/-- A raising changes no other bit of FLT_STAT (R375). -/
theorem State.raiseWith_stat_getLsbD (s : State) (c : FaultCap) (ev : Option EvRec) (q : Bool) {n : Nat} (hn : n < 64) :
    (s.raiseWith c ev q).faults.stat.getLsbD n = (s.faults.stat.getLsbD n || decide (n = c.src % 64)) := by
  rw [State.raiseWith_stat, BitVec.getLsbD_or, BitVec.getLsbD_ofNat, Nat.testBit_two_pow]
  simp [hn, eq_comm]

/-! ## Severities (R376 to R378, R382) -/

section
variable {s : State} {c : FaultCap}

/-- An ignored fault sets its bit, and does nothing else. -/
theorem State.raise_of_ignored (h : s.severity c.src = 0) :
    s.raise c = { s with faults := { s.faults with stat := (s.raise c).faults.stat } } := by
  simp only [State.raise, State.raiseWith, h, if_true]
  rfl

theorem State.raise_corr (s : State) (c : FaultCap) :
    (s.raise c).faults.corr = if s.severity c.src = 1 then satAdd s.faults.corr 1 else s.faults.corr := by
  rw [State.raise_faults]
  rfl

theorem State.raise_halted (s : State) (c : FaultCap) :
    (s.raise c).faults.halted = true ↔ s.faults.halted = true ∨ s.severity c.src = 3 := by
  rw [State.raise_faults]
  simp [Faults.raised]

/-- The capture stays for a fault that is not to be captured, and for one that merges (R382). -/
theorem State.raise_keeps_capture
    (h : s.severity c.src < 2 ∨ s.faults.valid = true ∧ ¬ s.faults.outranks c.src s.ptime = true) :
    (s.raise c).faults.cap0 = s.faults.cap0 ∧ (s.raise c).faults.cap1 = s.faults.cap1 ∧ (s.raise c).faults.cap2 = s.faults.cap2 := by
  have hfills : (decide (2 ≤ s.severity c.src) && s.faults.fills c s.ptime) = false := by
    rcases h with h | ⟨hvalid, hlow⟩
    · simp [h]
    · simp [Faults.fills, hvalid, hlow]
  rw [State.raise_faults]
  simp only [Faults.raised, hfills]
  exact ⟨rfl, rfl, rfl⟩

/-- The first fault is captured, and so is one of the same cycle with a lower source (R381). -/
theorem State.raise_fills (h : 2 ≤ s.severity c.src) (hfree : s.faults.valid = false ∨ s.faults.outranks c.src s.ptime = true) :
    (s.raise c).faults.cap0 = cap0Word c true false ∧ (s.raise c).faults.cap1 = cap1Word c ∧
      (s.raise c).faults.cap2 = (if c.noTime then 0 else s.ptime) := by
  have hfills : (decide (2 ≤ s.severity c.src) && s.faults.fills c s.ptime) = true := by
    rcases hfree with hfree | hfree <;> simp [Faults.fills, h, hfree]
  rw [State.raise_faults]
  simp only [Faults.raised, hfills]
  exact ⟨rfl, rfl, rfl⟩

theorem State.raise_keeps_merges (h : s.severity c.src < 2 ∨ s.faults.valid = false) :
    (s.raise c).faults.merges = s.faults.merges ∧ (s.raise c).faults.mergeSat = s.faults.mergeSat := by
  have hmerges : (decide (2 ≤ s.severity c.src) && s.faults.valid) = false := by
    rcases h with h | h <;> simp [h]
  rw [State.raise_faults]
  simp [Faults.raised, hmerges]

theorem State.raise_merges (h : 2 ≤ s.severity c.src) (hvalid : s.faults.valid = true) :
    (s.raise c).faults.merges = satAdd s.faults.merges 1 ∧
      ((s.raise c).faults.mergeSat = true ↔ s.faults.mergeSat = true ∨ s.faults.merges = 0xFFFF) := by
  rw [State.raise_faults]
  simp [Faults.raised, h, hvalid]

/-! ## Reactions (R379, R380, R384) -/

theorem State.raise_faultIrq (hsrc : c.src < 64) (hsev : s.severity c.src ≠ 0) (hirq : (s.fltCfg c.src).getLsbD 4 = true) :
    (s.raise c).faultIrq = true := by
  have hstat : (s.raise c).faults.stat.getLsbD c.src = true := State.raiseWith_stat_self hsrc
  refine List.any_eq_true.mpr ⟨c.src, List.mem_range.mpr hsrc, ?_⟩
  simpa [State.severity, hstat, hirq] using hsev

theorem State.raise_faultNmi (hsrc : c.src < 64) (hsev : s.severity c.src ≠ 0) (hnmi : (s.fltCfg c.src).getLsbD 5 = true) :
    (s.raise c).faultNmi = true := by
  have hstat : (s.raise c).faults.stat.getLsbD c.src = true := State.raiseWith_stat_self hsrc
  refine List.any_eq_true.mpr ⟨c.src, List.mem_range.mpr hsrc, ?_⟩
  simpa [State.severity, hstat, hnmi] using hsev

/-- The block reset, the chip reset and the pin that a fault's configuration asks for. -/
theorem State.raise_reacts (hsev : s.severity c.src ≠ 0) :
    ((s.fltCfg c.src).getLsbD 6 = true → s.faults.brstRun = false → (s.raise c).faults.brst = true) ∧
    ((s.fltCfg c.src).getLsbD 7 = true → (s.raise c).faults.crst = true) ∧
    ((s.fltCfg c.src).getLsbD 8 = true → (s.raise c).faults.pinLow = true) := by
  rw [State.raise_faults]
  refine ⟨fun hbrst hrun => ?_, fun hcrst => ?_, fun hpin => ?_⟩ <;> simp [Faults.raised, *]

/-! ## The record of a fault (R415, R416, R421) -/

theorem State.event_queue_of_room {s : State} (h : s.recd.queue.length < 64) (e : EvRec) :
    (s.event e).recd.queue = s.recd.queue ++ [e] := by
  rw [State.event, if_pos h]
  rfl

theorem length_updateFirst {α : Type} (p : α → Bool) (f : α → α) (l : List α) : (updateFirst p f l).length = l.length :=
  (forall₂_updateFirst (r := fun _ _ => True) (fun _ => trivial) (fun _ => trivial) l).length_eq.symm

theorem State.recordMerged_queue_length (s : State) : s.recordMerged.recd.queue.length = s.recd.queue.length := by
  simp [State.recordMerged, length_updateFirst]

/-- A counted or captured fault puts one record into the queue, where the record of the fault it outranks is marked as merged. -/
theorem State.raise_queue (hsev : s.severity c.src ≠ 0) (hroom : s.recd.queue.length < 64) :
    ∃ e, (s.raise c).recd.queue = (if 2 ≤ s.severity c.src ∧ s.faults.outranks c.src s.ptime = true
        then s.recordMerged.recd.queue else s.recd.queue) ++ [e] ∧
      e.src = BitVec.ofNat 8 c.src ∧ e.sev = BitVec.ofNat 2 (s.severity c.src) := by
  unfold State.raise State.raiseWith
  extract_lets sev cfg s₁ lower first merged s₀ s₂ rec0 s₃ s₄ s₅ s₆
  have h₀ : s₀.recd.queue = if 2 ≤ sev ∧ s.faults.outranks c.src s.ptime = true then s.recordMerged.recd.queue else s.recd.queue := by
    have hlower : lower = true ↔ 2 ≤ sev ∧ s.faults.outranks c.src s.ptime = true := by
      rw [Bool.and_eq_true, decide_eq_true_eq]
      rfl
    unfold s₀
    simp only [hlower]
    split <;> rfl
  have h₂ : s₂.recd = s₀.recd := by
    unfold s₂
    split <;> rfl
  have hlength : s₂.recd.queue.length < 64 := by
    rw [h₂, h₀]
    split
    · rwa [State.recordMerged_queue_length]
    · exact hroom
  have h₆ : s₆.recd.queue = s₃.recd.queue := by
    have h₅ : s₅.recd.queue = s₃.recd.queue := by
      unfold s₅
      split <;> rfl
    unfold s₆
    split
    · rwa [State.snapTrigger_recd]
    · exact h₅
  have hlast : (if sev = 3 then s₆.halt else s₆).recd = s₆.recd := by
    split
    · exact State.halt_recd _
    · rfl
  rw [if_neg hsev, hlast, h₆, ← h₀, ← h₂]
  exact ⟨_, State.event_queue_of_room hlength _, rfl, rfl⟩

theorem State.raise_flushAgain (h : 2 ≤ s.severity c.src) : (s.raise c).recd.flushAgain = true := by
  unfold State.raise State.raiseWith
  extract_lets sev cfg s₁ lower first merged s₀ s₂ rec0 s₃ s₄ s₅ s₆
  have h₅ : s₅.recd.flushAgain = true := by
    rw [show s₅ = s₄.askFlush from if_pos h]
    rfl
  have h₆ : s₆.recd.flushAgain = true := by
    unfold s₆
    split
    · rwa [State.snapTrigger_recd]
    · exact h₅
  rw [if_neg (show sev ≠ 0 by omega)]
  split
  · rwa [State.halt_recd]
  · exact h₆

/-! ## Frames at a fatal fault (R378) -/

theorem State.stopAllFrames_stopping (s : State) {f : Nat} (hf : f ∈ frameNos) : (s.stopAllFrames.frame f).stopping = true := by
  obtain ⟨l₁, l₂, hl⟩ := List.append_of_mem hf
  rw [State.stopAllFrames, hl, List.foldl_append, List.foldl_cons]
  refine List.foldlRecOn l₂ _ (motive := fun t => (State.frame t f).stopping = true) ?_ fun t ht g _ => ?_
  · rw [State.modFrame_frame_same]
    exact Frame.halting_stopping _ _
  · by_cases hfg : f = g
    · subst hfg
      rw [State.modFrame_frame_same]
      exact Frame.halting_stopping _ _
    · rwa [State.modFrame_frame_other _ _ hfg]

/-- A fatal fault stops every frame; any other leaves them. -/
theorem State.raise_frames (s : State) (c : FaultCap) :
    (s.severity c.src = 3 → ∃ t : State, s.raise c = t.stopAllFrames) ∧ (s.severity c.src ≠ 3 → (s.raise c).frames = s.frames) := by
  unfold State.raise State.raiseWith
  extract_lets sev cfg s₁ lower first merged s₀ s₂ rec0 s₃ s₄ s₅ s₆
  refine ⟨fun h => ?_, fun h => ?_⟩
  · rw [if_neg (show sev ≠ 0 by omega), if_pos h]
    exact ⟨_, rfl⟩
  · have h₀ : s₀.frames = s.frames := by
      unfold s₀
      split <;> rfl
    rw [if_neg h]
    simp [s₆, s₅, s₄, s₃, s₂, h₀, s₁, apply_ite State.frames]

theorem State.raise_stops (h : s.severity c.src = 3) {f : Nat} (hf : f ∈ frameNos) :
    ((s.raise c).frame f).draining = true ∨ ((s.raise c).frame f).stopped = true := by
  obtain ⟨t, ht⟩ := (s.raise_frames c).1 h
  have hstop := t.stopAllFrames_stopping hf
  rw [← ht, Frame.stopping, Bool.or_eq_true] at hstop
  exact hstop.symm

end

/-! ## The registers of the status and of the capture (R375, R382, R383, R387) -/

section
variable {s : State}

theorem exec_fltStatClear (hawake : s.cpAwake = true) (w raised : Word) :
    exec (.fltStatClear w raised) s = .next (s.modFaults fun f => { f with stat := f.stat &&& ~~~(w &&& ~~~raised) }) :=
  congrArg Host.Outcome.next (if_pos hawake)

theorem exec_fltCorrRead (hawake : s.cpAwake = true) :
    exec .fltCorrRead s = .next ((s.answerRead s.faults.corr.toNat).modFaults fun f => { f with corr := 0 }) :=
  congrArg Host.Outcome.next (if_neg (by simp [hawake]))

theorem exec_fltCorrRead_of_asleep (hasleep : s.cpAwake = false) : exec .fltCorrRead s = .next (s.answerRead 0) :=
  congrArg Host.Outcome.next (if_pos (by simp [hasleep]))

/-- A 1 to FC_VALID ends the capture, and its merges with it (R383). -/
theorem exec_fcValidClear {w : Word} (hawake : s.cpAwake = true) (hw : w.getLsbD 6 = true) :
    exec (.fcValidClear w) s =
      .next (s.modFaults fun f => { f with cap0 := clearBit f.cap0 6, merges := 0, mergeSat := false }) :=
  congrArg Host.Outcome.next ((if_pos hawake).trans (if_pos hw))

theorem exec_fcValidClear_of_other {w : Word} (hawake : s.cpAwake = true) (hw : w.getLsbD 6 = false) :
    exec (.fcValidClear w) s = .next s :=
  congrArg Host.Outcome.next ((if_pos hawake).trans (if_neg (by rw [hw]; decide)))

/-- With the factory strap an injection in mode 0 raises its source, without a time (R387). -/
theorem exec_fltInjectCollector {w : BitVec 32} (hstrap : s.inp.ftest = true) (hawake : s.cpAwake = true) (hmode : injectMode w = 0) :
    exec (.fltInjectCollector w) s = .next (s.raise { src := bits w.toNat 5 0, mkind := 7, space := 0, noTime := true }) := by
  change Host.Outcome.next (if injectMode w = 0 && s.cpAwake then s.injectWrite w else s) = _
  simp [hmode, hawake, State.injectWrite, hstrap]

end

/-! ## The statements -/

/-- Settles O50: a raising sets one bit, a write clears the bits that are not raised beside it. -/
theorem faultStatusBits : Obligations.FaultStatusBits := by
  refine ⟨fun c ev quiet n s hn => s.raiseWith_stat_getLsbD c ev quiet hn, fun w s hstrap hawake hmode => ?_,
    fun w raised s hawake => ?_⟩
  · refine ⟨_, exec_fltInjectCollector hstrap hawake hmode, fun n hn => ?_⟩
    rw [State.raise, State.raiseWith_stat_getLsbD _ _ _ _ hn]
    simp [bits]
  · refine ⟨_, exec_fltStatClear hawake w raised, fun n hn => ?_, rfl, rfl, rfl, State.modFaults_changes _ _⟩
    simp [hn]

/-- Settles O51: a raising does to each field of the collector, to the queue and to the frames what its severity says. -/
theorem faultsAreCapturedMergedAndCounted : Obligations.FaultsAreCapturedMergedAndCounted := by
  refine ⟨fun c s hsrc => ?_, fun w s hstrap hawake hmode => exec_fltInjectCollector hstrap hawake hmode,
    fun s => ⟨fun hawake => ?_, fun hasleep => ?_⟩, fun w s hawake => ⟨fun hw => ?_, fun hw => ?_⟩⟩
  · intro sev cfg lowest t
    have hlowest : lowest ↔ s.faults.valid = true ∧ s.faults.cap2 = s.ptime ∧ c.src < bits s.faults.cap0.toNat 5 0 := by
      simp [lowest, Faults.outranks, and_assoc]
    have hne {n : Nat} (h : 1 ≤ n) : n ≠ 0 := Nat.one_le_iff_ne_zero.mp h
    exact ⟨hlowest, State.raiseWith_stat_self hsrc, s.raise_ctxs c, s.raise_tally c, s.raise_fabric c,
      by rw [s.raise_faults c]; rfl, State.raise_of_ignored, fun h => (s.raise_corr c).trans (if_pos h),
      fun h => (s.raise_corr c).trans (if_neg h), fun h => State.raise_keeps_merges (.inl h), State.raise_keeps_capture,
      State.raise_fills, fun h => (State.raise_keeps_merges (.inr h)).1, State.raise_merges,
      fun h => ⟨State.raise_faultIrq hsrc (hne h), State.raise_faultNmi hsrc (hne h), State.raise_reacts (hne h)⟩,
      fun h => State.raise_queue (hne h), State.raise_flushAgain, s.raise_halted c, fun h f hf => State.raise_stops h hf,
      (s.raise_frames c).2⟩
  · have hexec := exec_fltCorrRead hawake
    exact ⟨_, hexec, rfl, rfl, rfl, (next_changes hexec).mono (by simp [mayTouch])⟩
  · exact ⟨_, exec_fltCorrRead_of_asleep hasleep, rfl, State.answerRead_changes _ _⟩
  · exact ⟨_, exec_fcValidClear hawake hw, getLsbD_clearBit_same s.faults.cap0 (show 6 < 64 by decide), rfl, rfl, rfl, rfl,
      State.modFaults_changes _ _⟩
  · exact exec_fcValidClear_of_other hawake hw

end Sys2Proof.Machine

/-! # Proofs: registers of the fault collector that act (R384, R386, R387)

Each register's access in each of its cases; a refused access is one raising of source 61, which leaves the injected flips. -/
namespace Sys2Proof.Machine

/-! ## The error pin (R384) -/

section
variable {s : State}

/-- The collector once ERR_PIN_CTRL is written with EP_RELEASE set. -/
def Faults.pinReleased (f : Faults) (w : BitVec 32) : Faults :=
  { f with
    pinHold := w.getLsbD 0
    pinForce := w.getLsbD 2
    pinLow := f.pinLow && f.pinMin
    pinRelease := f.pinRelease || f.pinLow && f.pinMin }

theorem exec_epRelease {w : BitVec 32} (hawake : s.cpAwake = true) (hw : w.getLsbD 1 = true) :
    exec (.epRelease w) s = .next { s with faults := s.faults.pinReleased w } := by
  have hcase : (if !w.getLsbD 1 || !s.faults.pinLow then { s.faults with pinHold := w.getLsbD 0, pinForce := w.getLsbD 2 }
      else if s.faults.pinMin then { s.faults with pinHold := w.getLsbD 0, pinForce := w.getLsbD 2, pinRelease := true }
      else { s.faults with pinHold := w.getLsbD 0, pinForce := w.getLsbD 2, pinLow := false }) = s.faults.pinReleased w := by
    rw [hw]
    cases hlow : s.faults.pinLow <;> cases hmin : s.faults.pinMin <;> simp [Faults.pinReleased, hlow, hmin]
  rw [← hcase]
  exact congrArg Host.Outcome.next (if_pos (by rw [hw, hawake]; rfl))

theorem exec_errPinMinimumEnd (hmin : s.faults.pinMin = true) :
    exec .errPinMinimumEnd s =
      .next (s.modFaults fun f => { f with pinMin := false, pinRelease := false, pinLow := f.pinHold && !f.pinRelease }) :=
  congrArg Host.Outcome.next (if_neg (by simp [hmin]))

theorem exec_errPinMinimumEnd_of_none (hmin : s.faults.pinMin = false) : exec .errPinMinimumEnd s = .next s :=
  congrArg Host.Outcome.next (if_pos (by simp [hmin]))

/-! ## Refused accesses (R374, R386, R387) -/

theorem State.cpFault_flips (s : State) (width off : Nat) :
    (s.cpFault width off).faults.flipPantry = s.faults.flipPantry ∧ (s.cpFault width off).faults.flipCtx = s.faults.flipCtx ∧
      (s.cpFault width off).faults.flipKeeper = s.faults.flipKeeper ∧
      (s.cpFault width off).faults.flipTable = s.faults.flipTable := by
  rw [State.cpFault, State.raise_faults]
  exact ⟨rfl, rfl, rfl, rfl⟩

/-! ## A frame restarted (R386) -/

/-- The frame restarted: idle, without its clock. -/
def State.restarted (s : State) (f : Nat) : State :=
  (s.modFrame f fun x => { x with stopped := false, cause := {}, state := .idle }).clockDown f

theorem State.restarted_changes (s : State) (f : Nat) : OnlyChanges [.frames, .power] s (s.restarted f) :=
  ((State.modFrame_changes s _ _).mono (by decide)).step (State.clockDown_changes _ _) (by decide)

theorem State.restarted_frame_same (s : State) (f : Nat) :
    (s.restarted f).frame f = { s.frame f with stopped := false, cause := {}, state := .idle } := by
  rw [State.restarted, State.clockDown_frame, State.modFrame_frame_same]

theorem State.restarted_frame_other (s : State) {f g : Nat} (h : g ≠ f) : (s.restarted f).frame g = s.frame g := by
  rw [State.restarted, State.clockDown_frame, State.modFrame_frame_other _ _ h]

theorem setBits_two_pow : ∀ f : Fin 16, setBits 16 (BitVec.ofNat 32 (2 ^ f.val)).toNat = [f.val] := by decide

theorem exec_frameRestart (hawake : s.cpAwake = true) (f : Fin 16) :
    exec (.frameRestart (BitVec.ofNat 32 (2 ^ f.val))) s =
      .next (if s.restartable f.val then s.restarted f.val else s.cpFault 4 0x30034) := by
  refine congrArg Host.Outcome.next ((if_pos hawake).trans ?_)
  unfold State.restartWrite
  rw [setBits_two_pow f]
  cases h : s.restartable f.val with
  | false => simp [h]
  | true => simp [h, State.restarted]

theorem State.restartable_iff (hhalt : s.faults.halted = false) (f : Nat) : s.restartable f = true ↔
    (s.frame f).stopped = true ∧ s.faults.stat.getLsbD f = false ∧ (s.frame f).draining = false := by
  simp [State.restartable, hhalt, and_assoc]

/-! ## Injection (R387) -/

section
variable {w : BitVec 32}

/-- A flip of one bit or of two is a write of FLT_INJECT in mode 1 or 2. -/
theorem exec_fltInjectFlip (hawake : s.cpAwake = true) (hmode : injectMode w = 1 ∨ injectMode w = 2) :
    exec (if injectMode w = 1 then .fltInjectSingleFlip w else .fltInjectDoubleFlip w) s = .next (s.injectWrite w) := by
  rcases hmode with hmode | hmode
  · rw [if_pos hmode]
    exact congrArg Host.Outcome.next (if_pos (by simp [hmode, hawake]))
  · rw [if_neg (by omega)]
    exact congrArg Host.Outcome.next (if_pos (by simp [hmode, hawake]))

theorem State.injectWrite_of_no_strap (hstrap : s.inp.ftest = false) : s.injectWrite w = s.cpFault 4 0x30038 :=
  if_pos (by rw [hstrap]; rfl)

theorem exec_fltInjectCollector_of_no_strap (hawake : s.cpAwake = true) (hmode : injectMode w = 0)
    (hstrap : s.inp.ftest = false) : exec (.fltInjectCollector w) s = .next (s.cpFault 4 0x30038) :=
  congrArg Host.Outcome.next ((if_pos (by simp [hmode, hawake])).trans (State.injectWrite_of_no_strap hstrap))

/-- With the strap the flips wait in the memory that the source names; a source that names none is refused. -/
theorem State.injectWrite_of_flips (hstrap : s.inp.ftest = true) (hmode : injectMode w = 1 ∨ injectMode w = 2) :
    s.injectWrite w =
      (s.injectFlips (bits w.toNat 5 0) (bits w.toNat 19 16) (injectMode w)).getD (s.cpFault 4 0x30038) := by
  unfold State.injectWrite
  rcases hmode with hmode | hmode <;> simp [hstrap, hmode]

end

/-! ## The memory that a source names (R387) -/

section
variable {src : Nat} (frame n : Nat)

theorem State.injectFlips_pantry (h : 16 ≤ src ∧ src ≤ 32) :
    s.injectFlips src frame n = some (s.modFaults fun f => { f with flipPantry := f.flipPantry.set 0 frame n }) :=
  if_pos (by simpa using h)

theorem State.injectFlips_ctx (h : src = 33 ∨ src = 34) :
    s.injectFlips src frame n = some (s.modFaults fun f => { f with flipCtx := n }) := by
  rcases h with rfl | rfl <;> rfl

theorem State.injectFlips_keeper (h : src = 35 ∨ src = 36) :
    s.injectFlips src frame n = some (s.modFaults fun f => { f with flipKeeper := n }) := by
  rcases h with rfl | rfl <;> rfl

theorem State.injectFlips_table (h : src = 37 ∨ src = 38) :
    s.injectFlips src frame n = some (s.modFaults fun f => { f with flipTable := n }) := by
  rcases h with rfl | rfl <;> rfl

theorem State.injectFlips_none (h : src < 16 ∨ 38 < src) : s.injectFlips src frame n = none := by
  unfold State.injectFlips
  simp only [Bool.and_eq_true, Bool.or_eq_true, decide_eq_true_eq]
  rw [if_neg (by omega), if_neg (by omega), if_neg (by omega), if_neg (by omega)]

end

end

/-! ## The statement -/

/-- Settles O52: each clause is one of the accesses above. -/
theorem faultRegistersAct : Obligations.FaultRegistersAct := by
  refine ⟨fun w s hawake hw => ?_, fun s => ⟨fun hmin => ?_, exec_errPinMinimumEnd_of_none⟩,
    fun f s hawake hhalt => ⟨fun hmay => ?_, fun hmay => ?_⟩, fun w s hawake => ⟨fun hmode => ⟨fun hstrap => ?_, fun hstrap => ?_⟩,
      fun hmode hstrap => ?_⟩⟩
  · refine ⟨_, exec_epRelease hawake hw, rfl, rfl, fun _ hmin => ?_, fun hlow hmin => ?_, rfl,
      OnlyChanges.put_faults _ (OnlyChanges.refl _ s) (by decide)⟩
    · simp [Faults.pinReleased, hmin]
    · simp [Faults.pinReleased, hmin, hlow]
  · exact ⟨_, exec_errPinMinimumEnd hmin, rfl, State.modFaults_changes _ _⟩
  · refine ⟨_, (exec_frameRestart hawake f).trans (congrArg _ (if_pos ((State.restartable_iff hhalt _).mpr hmay))), ?_, ?_,
      fun g hg => s.restarted_frame_other hg, s.restarted_changes _⟩
    · rw [State.restarted_frame_same]
    · rw [State.restarted_frame_same]
  · exact ⟨_, (exec_frameRestart hawake f).trans (congrArg _ (if_neg (mt (State.restartable_iff hhalt _).mp hmay))),
      s.cpFault_stat _ _, s.cpFault_power _ _, (s.raise_frames { src := 61, sub := 4, addr := 0x30034, access := 13 }).2⟩
  · have hexec := (exec_fltInjectFlip hawake hmode).trans (congrArg _ (State.injectWrite_of_flips hstrap hmode))
    have hflip {k : Faults → Faults}
        (h : s.injectFlips (bits w.toNat 5 0) (bits w.toNat 19 16) (injectMode w) = some (s.modFaults k)) :
        ∃ t, exec (if injectMode w = 1 then .fltInjectSingleFlip w else .fltInjectDoubleFlip w) s = .next t ∧
          t.faults = k s.faults ∧ OnlyChanges [.faults] s t :=
      ⟨_, hexec.trans (by rw [h, Option.getD_some]), rfl, State.modFaults_changes _ _⟩
    refine ⟨fun hlo hhi => hflip (State.injectFlips_pantry _ _ ⟨hlo, hhi⟩), fun h => hflip (State.injectFlips_ctx _ _ h),
      fun h => hflip (State.injectFlips_keeper _ _ h), fun h => hflip (State.injectFlips_table _ _ h), fun h => ?_⟩
    exact ⟨_, hexec.trans (by rw [State.injectFlips_none _ _ h, Option.getD_none]), s.cpFault_stat _ _, (s.cpFault_flips _ _).1⟩
  · exact ⟨_, (exec_fltInjectFlip hawake hmode).trans (congrArg _ (State.injectWrite_of_no_strap hstrap)), s.cpFault_stat _ _,
      s.cpFault_flips _ _⟩
  · exact ⟨_, exec_fltInjectCollector_of_no_strap hawake hmode hstrap, s.cpFault_stat _ _⟩

end Sys2Proof.Machine

/-! # Proofs: resets keep and lose (R379, R380, R413, R426, R439)

What a reset loses is lost when its state is built; the raisings and records that follow keep the evidence of faults: the status, a
capture of an earlier cycle, the recorder's contents and powered time. -/
namespace Sys2Proof.Machine

/-! ## Evidence kept (R380, R381, R413) -/

/-- What raisings and records leave of the fault collector, the recorder and powered time. -/
structure State.KeepsEvidence (s t : State) : Prop where
  ptime : t.ptime = s.ptime
  stat : s.KeepsStat t
  capture : s.faults.valid = true → s.faults.cap2 ≠ s.ptime →
    t.faults.cap0 = s.faults.cap0 ∧ t.faults.cap1 = s.faults.cap1 ∧ t.faults.cap2 = s.faults.cap2
  rstReq : t.faults.rstReq = s.faults.rstReq
  brstRun : t.faults.brstRun = s.faults.brstRun
  brst : s.faults.brstRun = true → t.faults.brst = s.faults.brst
  ring : t.recd.ring = s.recd.ring
  head : t.recd.head = s.recd.head
  scanning : t.recd.scanning = s.recd.scanning

namespace State.KeepsEvidence
variable {s t u : State}

theorem of_eq (hp : t.ptime = s.ptime) (hf : t.faults = s.faults)
    (hr : t.recd.ring = s.recd.ring ∧ t.recd.head = s.recd.head ∧ t.recd.scanning = s.recd.scanning) : s.KeepsEvidence t := by
  obtain ⟨hring, hhead, hscanning⟩ := hr
  refine ⟨hp, .of_eq hf, fun _ _ => ?_, ?_, ?_, fun _ => ?_, hring, hhead, hscanning⟩ <;> simp [hf]

theorem of_changes {ps : List Part} (h : OnlyChanges ps s t) (hp : .ptime ∉ ps ∧ .faults ∉ ps ∧ .recd ∉ ps) :
    s.KeepsEvidence t := by
  have hrecd : t.recd = s.recd := h .recd hp.2.2
  exact of_eq (h .ptime hp.1) (h .faults hp.2.1) (hrecd ▸ ⟨rfl, rfl, rfl⟩)

theorem refl (s : State) : s.KeepsEvidence s := of_eq rfl rfl ⟨rfl, rfl, rfl⟩

theorem trans (h : s.KeepsEvidence t) (k : t.KeepsEvidence u) : s.KeepsEvidence u where
  ptime := k.ptime.trans h.ptime
  stat := h.stat.trans k.stat
  capture hvalid hcycle := by
    obtain ⟨h0, h1, h2⟩ := h.capture hvalid hcycle
    have hvalid' : t.faults.valid = true := by rw [Faults.valid, h0]; exact hvalid
    obtain ⟨k0, k1, k2⟩ := k.capture hvalid' (by rw [h2, h.ptime]; exact hcycle)
    exact ⟨k0.trans h0, k1.trans h1, k2.trans h2⟩
  rstReq := k.rstReq.trans h.rstReq
  brstRun := k.brstRun.trans h.brstRun
  brst hrun := (k.brst (h.brstRun.trans hrun)).trans (h.brst hrun)
  ring := k.ring.trans h.ring
  head := k.head.trans h.head
  scanning := k.scanning.trans h.scanning

theorem ite {c : Prop} [Decidable c] (h : s.KeepsEvidence t) (k : s.KeepsEvidence u) : s.KeepsEvidence (if c then t else u) := by
  split <;> assumption

theorem foldl {α : Type} {f : State → α → State} (hf : ∀ (t : State) a, t.KeepsEvidence (f t a)) (l : List α) (s : State) :
    s.KeepsEvidence (l.foldl f s) :=
  List.foldlRecOn l f (motive := fun t => s.KeepsEvidence t) (refl s) fun t ht a _ => ht.trans (hf t a)

end State.KeepsEvidence

open State (KeepsEvidence)

section
variable (s : State)

theorem State.recordMerged_recd_keeps : s.recordMerged.recd.ring = s.recd.ring ∧ s.recordMerged.recd.head = s.recd.head ∧
    s.recordMerged.recd.scanning = s.recd.scanning := ⟨rfl, rfl, rfl⟩

theorem State.askFlush_recd_keeps : s.askFlush.recd.ring = s.recd.ring ∧ s.askFlush.recd.head = s.recd.head ∧
    s.askFlush.recd.scanning = s.recd.scanning := ⟨rfl, rfl, rfl⟩

theorem State.event_recd_keeps (e : EvRec) : (s.event e).recd.ring = s.recd.ring ∧ (s.event e).recd.head = s.recd.head ∧
    (s.event e).recd.scanning = s.recd.scanning := by
  unfold State.event
  split <;> exact ⟨rfl, rfl, rfl⟩

theorem State.event_keepsEvidence (e : EvRec) : s.KeepsEvidence (s.event e) :=
  .of_eq (s.event_ptime e) (s.event_faults e) (s.event_recd_keeps e)

/-- A raising writes the recorder's queue, never its contents. -/
theorem State.raiseWith_recd_keeps (c : FaultCap) (ev : Option EvRec) (q : Bool) :
    (s.raiseWith c ev q).recd.ring = s.recd.ring ∧ (s.raiseWith c ev q).recd.head = s.recd.head ∧
      (s.raiseWith c ev q).recd.scanning = s.recd.scanning := by
  unfold State.raiseWith
  simp [apply_ite State.recd, apply_ite Recorder.ring, apply_ite Recorder.head, apply_ite Recorder.scanning,
    State.recordMerged_recd_keeps, State.askFlush_recd_keeps, State.event_recd_keeps]

/-- A raising captures over a capture of its own cycle only, and calls for no block reset while one runs. -/
theorem State.raiseWith_keepsEvidence (c : FaultCap) (ev : Option EvRec) (q : Bool) : s.KeepsEvidence (s.raiseWith c ev q) := by
  obtain ⟨hring, hhead, hscanning⟩ := s.raiseWith_recd_keeps c ev q
  refine ⟨s.raiseWith_ptime c ev q, fun j hj => State.raiseWith_stat_keeps hj c ev q, fun hvalid hcycle => ?_, ?_, ?_, fun hrun => ?_,
    hring, hhead, hscanning⟩ <;> rw [State.raiseWith_faults]
  · have hfills : s.faults.fills c s.ptime = false := by simp [Faults.fills, Faults.outranks, hvalid, hcycle]
    simp [Faults.raised, hfills]
  · rfl
  · rfl
  · simp [Faults.raised, hrun]

theorem State.inputFaults_keepsEvidence (i : StaticIn) : s.KeepsEvidence (s.inputFaults i) := by
  unfold State.inputFaults
  extract_lets zero t
  have ht : s.KeepsEvidence t := .foldl (fun u p => .ite (u.raiseWith_keepsEvidence _ _ _) (.refl u)) _ s
  exact .ite (ht.trans (t.raiseWith_keepsEvidence _ _ _)) ht

/-! ## The boot ROM's start (R360, R365, R426) -/

theorem State.romFailed_keepsEvidence : s.KeepsEvidence s.romFailed := by
  unfold State.romFailed
  extract_lets t u
  have hu : s.KeepsEvidence u := .of_eq rfl rfl ⟨rfl, rfl, rfl⟩
  exact hu.trans (u.raiseWith_keepsEvidence _ _ _)

/-- The boot ROM writes its own registers of the keeper, and records or raises what fails. -/
theorem State.bootRom_keeps : s.KeepsEvidence s.bootRom ∧ s.bootRom.keeper.verbs = s.keeper.verbs := by
  unfold State.bootRom
  extract_lets p t i d ok u v
  have hu : s.KeepsEvidence u := .of_eq rfl rfl ⟨rfl, rfl, rfl⟩
  have hverbs : u.keeper.verbs = s.keeper.verbs := rfl
  clear_value u
  have hv : s.KeepsEvidence v := .ite hu (hu.trans (u.event_keepsEvidence _))
  have hvverbs : v.keeper.verbs = s.keeper.verbs := by
    unfold v
    split
    · exact hverbs
    · rwa [State.event_keeper]
  clear_value v
  split
  · exact ⟨hv, hvverbs⟩
  · exact ⟨hv.trans v.romFailed_keepsEvidence, by rw [State.romFailed_keeper]; exact hvverbs⟩

theorem State.bootIfPowered_keeps : s.KeepsEvidence s.bootIfPowered ∧ s.bootIfPowered.keeper.verbs = s.keeper.verbs := by
  unfold State.bootIfPowered
  split
  · exact s.bootRom_keeps
  · exact ⟨.refl s, rfl⟩

/-! ## A block reset (R379, R380, R413) -/

/-- What a block reset must keep and lose. -/
def State.KeptOverReset (s t : State) : Prop :=
  t.ptime = s.ptime ∧ t.recd.ring = s.recd.ring ∧ t.recd.head = s.recd.head ∧
    t.faults.stat &&& s.faults.stat = s.faults.stat ∧
    (s.faults.valid = true → s.faults.cap2 ≠ s.ptime →
      t.faults.cap0 = s.faults.cap0 ∧ t.faults.cap1 = s.faults.cap1 ∧ t.faults.cap2 = s.faults.cap2) ∧
    t.ctxs = [] ∧ t.swarms = [] ∧ t.fabric = {} ∧ t.tally = {} ∧ t.ksets = [] ∧ t.mods = [] ∧ t.keeper.verbs = [] ∧
    t.faults.brstRun = true ∧ t.faults.brst = false ∧ t.power.ack = s.power.ack ∧ t.pending = s.pending

theorem State.KeepsStat.and_eq {s t : State} (h : s.KeepsStat t) : t.faults.stat &&& s.faults.stat = s.faults.stat := by
  refine BitVec.eq_of_getLsbD_eq fun j _ => ?_
  rw [BitVec.getLsbD_and]
  cases hj : s.faults.stat.getLsbD j with
  | false => rw [Bool.and_false]
  | true => rw [h j hj, Bool.true_and]

/-- The loss itself: the credits of ports and taps are set afresh, and a flush is asked for. -/
theorem State.loseBlock_parts (inp : StaticIn) (cause : Byte) :
    (s.loseBlock inp cause).ptime = s.ptime ∧ (s.loseBlock inp cause).recd.ring = s.recd.ring ∧
      (s.loseBlock inp cause).recd.head = s.recd.head ∧
      (s.loseBlock inp cause).ctxs = [] ∧ (s.loseBlock inp cause).swarms = [] ∧ (s.loseBlock inp cause).fabric = {} ∧
      (s.loseBlock inp cause).tally = {} ∧ (s.loseBlock inp cause).keeper.verbs = [] ∧
      (s.loseBlock inp cause).power.ack = s.power.ack ∧ (s.loseBlock inp cause).pending = s.pending := by
  unfold State.loseBlock
  extract_lets p old k snap power t
  have hrecd : t.recd = s.recd := rfl
  have hbuilt : t.ptime = s.ptime ∧ t.ctxs = [] ∧ t.swarms = [] ∧ t.fabric = {} ∧ t.tally = {} ∧ t.keeper.verbs = [] ∧
    t.power.ack = s.power.ack ∧ t.pending = s.pending := ⟨rfl, rfl, rfl, rfl, rfl, rfl, rfl, rfl⟩
  clear_value t
  obtain ⟨hptime, hctxs, hswarms, hfabric, htally, hverbs, hack, hpending⟩ := hbuilt
  have hcredits : OnlyChanges [.ports, .taps] t t.portCredits.tapCredits :=
    ((State.portCredits_changes t).mono (by decide)).step (State.tapCredits_changes _) (by decide)
  obtain ⟨hring, hhead, -⟩ := State.askFlush_recd_keeps t.portCredits.tapCredits
  replace hrecd : t.portCredits.tapCredits.recd = s.recd := Eq.trans (hcredits .recd (by decide)) hrecd
  rw [State.askFlush_ptime, State.askFlush_ctxs, State.askFlush_swarms, State.askFlush_fabric, State.askFlush_tally,
    State.askFlush_keeper, State.askFlush_power, State.askFlush_pending, hring, hhead, hrecd, hcredits .keeper (by decide),
    hcredits .power (by decide)]
  exact ⟨Eq.trans (hcredits .ptime (by decide)) hptime, rfl, rfl, Eq.trans (hcredits .ctxs (by decide)) hctxs,
    Eq.trans (hcredits .swarms (by decide)) hswarms, Eq.trans (hcredits .fabric (by decide)) hfabric,
    Eq.trans (hcredits .tally (by decide)) htally, hverbs, hack, Eq.trans (hcredits .pending (by decide)) hpending⟩

/-- Phase 2 requested, and entered where power and clock stand (R426). -/
def State.restart (inp : StaticIn) : State := (((s.powerUp 64).clockUp 21).inputFaults inp).bootIfPowered

theorem State.restart_requests_changes : OnlyChanges [.power] s ((s.powerUp 64).clockUp 21) :=
  (s.powerUp_changes 64).trans (State.clockUp_changes _ 21)

theorem State.restart_inputs_changes (inp : StaticIn) :
    OnlyChanges [.power, .faults, .frames, .snap, .recd] s (((s.powerUp 64).clockUp 21).inputFaults inp) :=
  (s.restart_requests_changes.mono (by decide)).step (State.inputFaults_changes _ inp) (by decide)

theorem State.restart_changes (inp : StaticIn) :
    OnlyChanges [.keeper, .recd, .frames, .faults, .sec, .snap, .free, .power] s (s.restart inp) :=
  ((s.restart_inputs_changes inp).mono (by decide)).step (State.bootIfPowered_changes _) (by decide)

theorem State.restart_verbs (inp : StaticIn) : (s.restart inp).keeper.verbs = s.keeper.verbs :=
  (State.bootIfPowered_keeps _).2.trans (congrArg Keeper.verbs (s.restart_inputs_changes inp .keeper (by decide)))

theorem State.restart_ack (inp : StaticIn) : (s.restart inp).power.ack = s.power.ack := by
  have hrequests : s.OnlyRequests ((s.powerUp 64).clockUp 21) := (s.powerUp_onlyRequests 64).trans (State.clockUp_onlyRequests _ 21)
  have hinputs := State.OnlyRequests.of_changes (State.inputFaults_changes ((s.powerUp 64).clockUp 21) inp) (by decide)
  have hboot := State.OnlyRequests.of_changes (State.bootIfPowered_changes (((s.powerUp 64).clockUp 21).inputFaults inp)) (by decide)
  exact ((hrequests.trans hinputs).trans hboot).ack

theorem State.restart_keepsEvidence (inp : StaticIn) : s.KeepsEvidence (s.restart inp) :=
  (KeepsEvidence.of_changes s.restart_requests_changes (by decide)).trans
    ((State.inputFaults_keepsEvidence _ inp).trans (State.bootIfPowered_keeps _).1)

theorem State.blockReset_eq (inp : StaticIn) :
    s.blockReset inp = ({ s.loseBlock inp 1 with faults := s.faults.afterReset } : State).restart inp := rfl

theorem State.blockReset_kept (inp : StaticIn) :
    s.KeptOverReset (s.blockReset inp) ∧ (s.blockReset inp).faults.rstReq = s.faults.rstReq := by
  obtain ⟨hptime, hring, hhead, hctxs, hswarms, hfabric, htally, hverbs, hack, hpending⟩ := s.loseBlock_parts inp 1
  have hksets := s.blockReset_ksets inp
  have hmods := s.blockReset_mods inp
  rw [State.blockReset_eq] at hksets hmods ⊢
  generalize s.loseBlock inp 1 = lost at *
  have hch := State.restart_changes { lost with faults := s.faults.afterReset } inp
  have hkeeps := State.restart_keepsEvidence { lost with faults := s.faults.afterReset } inp
  refine ⟨⟨hkeeps.ptime.trans hptime, hkeeps.ring.trans hring,
    hkeeps.head.trans hhead, hkeeps.stat.and_eq, fun hvalid hcycle => hkeeps.capture hvalid ?_,
    Eq.trans (hch .ctxs (by decide)) hctxs, Eq.trans (hch .swarms (by decide)) hswarms, Eq.trans (hch .fabric (by decide)) hfabric,
    Eq.trans (hch .tally (by decide)) htally, hksets, hmods, (State.restart_verbs _ inp).trans hverbs, hkeeps.brstRun,
    hkeeps.brst rfl, (State.restart_ack _ inp).trans hack, Eq.trans (hch .pending (by decide)) hpending⟩, hkeeps.rstReq⟩
  exact fun h => hcycle (h.trans hptime)

/-- The chip reset that a fault has called for is asked of the integration (R379). -/
def State.chipAsked : State := if s.faults.crst then { s with faults := { s.faults with crst := false, rstReq := true } } else s

theorem State.chipAsked_kept (t : State) : s.chipAsked.KeptOverReset t ↔ s.KeptOverReset t := by
  unfold State.chipAsked
  split <;> exact Iff.rfl

theorem State.chipAsked_rstReq : s.chipAsked.faults.rstReq = (s.faults.rstReq || s.faults.crst) := by
  unfold State.chipAsked
  cases h : s.faults.crst <;> simp

variable {s} in
theorem exec_blockResetReaction_of_brst (h : s.faults.brst = true) :
    exec .blockResetReaction s = .next (s.chipAsked.blockReset s.chipAsked.inp) :=
  congrArg Host.Outcome.next (if_pos h)

variable {s} in
theorem exec_blockResetReaction_of_no_brst (h : s.faults.brst = false) : exec .blockResetReaction s = .next s.chipAsked :=
  congrArg Host.Outcome.next (if_neg (by rw [h]; decide))

/-! ## The power-up of the always-on domain (R426, R427, R439) -/

/-- Everything at its reset value but the inputs sampled, the keeper's phase and the recorder's scan. -/
def State.powerOn (i : StaticIn) : State :=
  { State.reset with
    pending := s.pending, free := s.free, nextId := s.nextId, inp := takenInputs i,
    keeper := { ({} : Keeper) with phase := .alwaysOn }, recd := { ({} : Recorder) with scanning := true } }

/-- What follows the reset values: requests, credits, and faults of the static inputs. -/
def State.started (i : StaticIn) : State := (((s.powerUp 64).clockUp 21).portCredits.tapCredits).inputFaults i

theorem exec_aoRstN (i : StaticIn) : exec (.aoRstN i) s = .next ((s.powerOn i).started i) := rfl

theorem State.started_requests_changes :
    OnlyChanges [.ports, .taps] ((s.powerUp 64).clockUp 21) ((s.powerUp 64).clockUp 21).portCredits.tapCredits :=
  ((State.portCredits_changes _).mono (by decide)).step (State.tapCredits_changes _) (by decide)

theorem State.started_changes (i : StaticIn) :
    OnlyChanges [.power, .ports, .taps, .faults, .frames, .snap, .recd] s (s.started i) :=
  ((s.restart_requests_changes.mono (by decide)).step s.started_requests_changes (by decide)).step (State.inputFaults_changes _ i)
    (by decide)

theorem State.started_power (i : StaticIn) : (s.started i).power = ((s.powerUp 64).clockUp 21).power :=
  Eq.trans (State.inputFaults_changes _ i .power (by decide)) (s.started_requests_changes .power (by decide))

theorem State.started_keepsEvidence (i : StaticIn) : s.KeepsEvidence (s.started i) :=
  (KeepsEvidence.of_changes s.restart_requests_changes (by decide)).trans
    ((KeepsEvidence.of_changes (State.started_requests_changes s) (by decide)).trans (State.inputFaults_keepsEvidence _ i))

/-- Static inputs in range raise nothing (R444, R449). -/
theorem State.inputFaults_of_sound {i : StaticIn}
    (hcr : ∀ p, p < 64 → (∃ e, i.rdCr.find? (fun e => e.1 = p) = some e ∧ e.2 ≠ 0) ∧
      (∃ e, i.wrCr.find? (fun e => e.1 = p) = some e ∧ e.2 ≠ 0))
    (hlo : 16 ≤ i.spadLog2.toNat) (hhi : i.spadLog2.toNat ≤ 32) (hshc : i.shcMib ≠ 0) : s.inputFaults i = s := by
  unfold State.inputFaults
  extract_lets zero t
  have hzero {l : List (Nat × BitVec 8)} {p : Nat} (h : ∃ e, l.find? (fun e => e.1 = p) = some e ∧ e.2 ≠ 0) : zero l p = false := by
    obtain ⟨e, he, hne⟩ := h
    have hval : e.2.toNat ≠ 0 := fun h0 => hne (BitVec.eq_of_toNat_eq h0)
    simp [zero, he, hval]
  have ht : t = s := by
    refine List.foldlRecOn (List.range 64) _ (motive := fun u => u = s) rfl fun u hu p hp => ?_
    obtain ⟨hrd, hwr⟩ := hcr p (List.mem_range.mp hp)
    rw [hzero hrd, hzero hwr]
    exact hu
  rw [if_neg (by simp only [Bool.or_eq_true, decide_eq_true_eq, hshc, or_false]; omega), ht]

end

/-! ## The statement -/

/-- Settles O53: a power-up and a block reset build their states, and what follows keeps the evidence. -/
theorem resetsKeepAndLose : Obligations.ResetsKeepAndLose := by
  refine ⟨fun i s => ?_, fun i s => ⟨fun hphase => ?_, fun hphase => ?_, fun hbrst => ?_, fun hbrst hcrst => ?_, fun hbrst hcrst => ?_⟩⟩
  · have hch := (s.powerOn i).started_changes i
    have hkeeps := (s.powerOn i).started_keepsEvidence i
    have hpower := (s.powerOn i).started_power i
    have hreset : (s.powerOn i).power = {} := rfl
    refine ⟨_, exec_aoRstN s i, hkeeps.ptime, hch .ctxs (by decide), hch .swarms (by decide), hch .mboxes (by decide),
      hch .tally (by decide), hch .fabric (by decide), congrArg Keeper.phase (hch .keeper (by decide)), ?_, ?_, ?_, hkeeps.scanning,
      hkeeps.ring, hch .inp (by decide), hch .pending (by decide), fun hcr hlo hhi hshc => ?_⟩
    · rw [hpower, State.clockUp_req]
      exact State.powerUp_req (by decide) (by rw [hreset]; decide)
    · rw [hpower]
      exact State.clockUp_clkReq _ (by decide) (by rw [(State.powerUp_onlyRequests _ 64).clkAck, hreset]; decide)
    · rw [hpower, ((State.powerUp_onlyRequests _ 64).trans (State.clockUp_onlyRequests _ 21)).ack, hreset]
    · rw [State.started, State.inputFaults_of_sound _ hcr hlo hhi hshc]
      exact Eq.trans (State.started_requests_changes _ .faults (by decide)) (State.restart_requests_changes _ .faults (by decide))
  · obtain ⟨hkept, hreq⟩ := ({ s with faults := { s.faults with rstReq := false } } : State).blockReset_kept i
    exact ⟨_, congrArg Host.Outcome.next (if_neg (by simpa using hphase)), hkept, hreq⟩
  · exact congrArg Host.Outcome.next (if_pos (by rw [hphase]; rfl))
  · obtain ⟨hkept, hreq⟩ := s.chipAsked.blockReset_kept s.chipAsked.inp
    exact ⟨_, exec_blockResetReaction_of_brst hbrst, (s.chipAsked_kept _).mp hkept, hreq.trans s.chipAsked_rstReq⟩
  · have hexec := (exec_blockResetReaction_of_no_brst hbrst).trans (congrArg _ (if_pos hcrst))
    exact ⟨_, hexec, rfl, OnlyChanges.put_faults _ (OnlyChanges.refl _ s) (by decide)⟩
  · exact (exec_blockResetReaction_of_no_brst hbrst).trans (congrArg _ (if_neg (by rw [hcrst]; decide)))

end Sys2Proof.Machine
